-- ==== Sys2Proof/Word.lean ====
section
/-!
DEFINITION. Word.lean: the words of the block and their plainest arithmetic.
Bit vectors stand for what the spec treats as bits (registers, handles, ring indices);
counts, sizes and device times are natural numbers.
-/
namespace Sys2Proof

/-- One byte of memory (R6). -/
abbrev Byte := BitVec 8
/-- A 16-bit field. -/
abbrev W16 := BitVec 16
/-- A 32-bit register or field. -/
abbrev W32 := BitVec 32
/-- A 64-bit register or field. -/
abbrev W64 := BitVec 64
/-- A handle (R12). -/
abbrev Handle := BitVec 32

/-- East or west: the two dies of the package (R12 bit 23, R15). -/
inductive HalfId where
  | east
  | west
  deriving DecidableEq, Repr

/-- The other half. -/
def HalfId.other : HalfId → HalfId
  | .east => .west
  | .west => .east

/-- The half bit of a handle (R12): 0 east, 1 west. -/
def HalfId.bit : HalfId → Nat
  | .east => 0
  | .west => 1

end Sys2Proof
end

