-- ==== Sys2Proof/Syntax.lean ====
section
/-!
DEFINITION. Syntax.lean: the commands of the block, one constructor per row of spec/opcode_table.json,
in the table's order, with the operands each row carries from outside.
What the block itself cannot compute (what a bitstream holds, what a pin or a sensor reads, what a host
buffer holds when it is fetched) comes in as an operand (assumption log 9).
-/
namespace Sys2Proof

/-- The fields of a command entry other than its opcode, which the row fixes (R43).
`payload` holds entry bytes 16 to 63. -/
structure CmdEntry where
  tag : W16 := 0
  len : W16 := 0
  flags : W16 := 0
  sequence : W32 := 0
  handle : Handle := 0
  payload : List Byte := []
  deriving DecidableEq, Repr

/-- FW_SECURITY_COMMIT's entry (R582), and the step of the anti-rollback counter that reads back unburned after three tries (R503), with its
half. -/
structure BurnEntry where
  entry : CmdEntry
  unburned : Option (HalfId × Nat) := none
  deriving DecidableEq, Repr

/-- How a host-memory access through DMA.x31 ended (R389, R559). -/
inductive BusResult where
  | ok
  | error
  deriving DecidableEq, Repr

/-- What a by-reference fetch returned (R44). -/
structure RefFetch where
  bytes : List Byte := []
  bus : BusResult := .ok
  deriving DecidableEq, Repr

/-- An assist entry as the host wrote it (R79, R585); `kind` is fixed by the row. `ref` holds the bytes of a
by-reference payload when flag bit 1 is set. -/
structure AssistEntry where
  tag : W16 := 0
  flags : W16 := 0
  reserved : W16 := 0
  handle : Handle := 0
  sequence : W32 := 0
  time : W64 := 0
  payload : List Byte := []
  ref : List Byte := []
  deriving DecidableEq, Repr

/-- The unit types of R542. -/
inductive UnitKind where
  | enc
  | dec
  | cmp
  | dch
  | net
  deriving DecidableEq, Repr

/-- Who raises or claims at an interrupt controller (R402, R408). -/
inductive Requester where
  | keel
  | pcieE
  | pcieW
  deriving DecidableEq, Repr

/-- A host access through BAR4 (R340, R549). -/
inductive Bar4Op where
  | read (offset : Nat) (length : Nat)
  | write (offset : Nat) (bytes : List Byte)
  deriving DecidableEq, Repr

/-- The payload structures that R94 names: of RFC 7798 (a unit with DONL fields apart), of RFC 6184, of the AV1 payload, and any other. -/
inductive RtpPayload where
  | hevcSingle
  | hevcAggregation
  | hevcFragment
  | hevcDonl
  | hevcPaci
  | avcSingle
  | avcStapA
  | avcFuA
  | avcStapB
  | avcMtap16
  | avcMtap24
  | avcFuB
  | av1
  | other
  deriving DecidableEq, Repr

/-- A received RTP packet (R93 to R97). The addresses are the numbers that the 16 bytes of an INPUT record would hold (R93);
`randomAccess` says that the packet starts a random access point. -/
structure RtpPacket where
  seq : W16 := 0
  timestamp : W32 := 0
  ssrc : W32 := 0
  payloadType : Nat := 0
  marker : Bool := false
  bytes : Nat := 0
  payload : RtpPayload := .hevcSingle
  randomAccess : Bool := false
  destination : Nat := 0
  source : Nat := 0
  udpPort : Nat := 0
  vlan : Nat := 0
  /-- no pool served the session's request for a buffer (R376) -/
  noBuffer : Bool := false
  deriving DecidableEq, Repr

/-- A motion vector in the codec's own units (R126). -/
structure Vec where
  x : Int
  y : Int
  deriving DecidableEq, Repr

/-- What a stream names a picture by: the POC, frame_num or slot, and its parity (0 frame, 1 top field, 2 bottom field). -/
structure RefName where
  ident : Nat := 0
  parity : Nat := 0
  deriving DecidableEq, Repr

/-- What the engine found for one CTU, macroblock or superblock of a picture (R126, R127, R130): the vector of its block nearest a CTU
straight below, above, left and right of it, where that block predicts from list 0 index 0; the CTUs of each reference picture whose samples
or collocated motion it read; the CTUs of its own picture whose samples its intra prediction read. -/
structure CtuFact where
  toBelow : Option Vec := none
  toAbove : Option Vec := none
  toLeft : Option Vec := none
  toRight : Option Vec := none
  reads : List (RefName × List Nat) := []
  intra : List Nat := []
  deriving DecidableEq, Repr

/-- What an intact sequence parameter set or sequence header says, with the picture parameters that go with it (R83 to R87, R114). Profile and
level are the codes of the standard (R83); `rext422` says that an HEVC range-extension profile is Main 4:2:2 10; `rate` is the picture rate
signalled, in pictures per 1,000 s (0: none); `cropX`, `cropY`, `width` and `height` the conformance window or render size, `chromaLoc` the chroma
sample location type (0 where none is signalled, R166). -/
structure ParamFacts where
  codedWidth : Nat := 16
  codedHeight : Nat := 16
  cropX : Nat := 0
  cropY : Nat := 0
  width : Nat := 16
  height : Nat := 16
  bitDepth : Nat := 8
  chroma : Nat := 1
  dpb : Nat := 1
  profile : Nat := 1
  rext422 : Bool := false
  level : Nat := 0
  rate : Nat := 0
  primaries : Nat := 2
  transfer : Nat := 2
  matrix : Nat := 2
  fullRange : Bool := false
  chromaLoc : Nat := 0
  ctuLog2 : Nat := 6
  deriving DecidableEq, Repr

/-- A parameter set or sequence header of an access unit (R119, R120): its unit type, its identifier, and what it says when it is intact. A
reference to it is 65,536 times the type plus the identifier. -/
structure ParamUnit where
  kind : Nat := 0
  ident : Nat := 0
  intact : Bool := true
  content : ParamFacts := {}
  deriving DecidableEq, Repr

/-- A slice segment, slice or tile group of an access unit (R119 to R123): the CTUs it covers in coding order, the parameter set it refers to,
where in that order its failing elements lie, where the substreams after the first begin when the header or the tile sizes signal them, and
the first CTU whose coded bits reach a missing byte. -/
structure CodedPart where
  ctus : List Nat := []
  paramSet : Nat := 0
  dependent : Bool := false
  headerOk : Bool := true
  fails : List Nat := []
  entries : List Nat := []
  missingAt : Option Nat := none
  deriving DecidableEq, Repr

/-- What the bitstream of one access unit holds, as the standards' parsing gives it (R18, R119 to R134). -/
structure DecodeFacts where
  /-- a picture of R121 at which decoding may start -/
  startPoint : Bool := false
  /-- an HEVC CRA picture, and a RASL picture of one (R121) -/
  cra : Bool := false
  rasl : Bool := false
  /-- the picture carries a recovery point SEI message; the picture at which the count of one completes (R133 b) -/
  recoverySei : Bool := false
  recoveryDone : Bool := false
  intra : Bool := false
  /-- a field picture, and for H.264 whether it is the first or the second field of a complementary pair (1, 2) (R85) -/
  field : Bool := false
  fieldOf : Nat := 0
  grain : Bool := false
  /-- temporal sub-layer, the AV1 operating points its OBUs lie in (none: all), and Annex B framing (R85) -/
  temporalId : Nat := 0
  points : List Nat := []
  annexB : Bool := false
  /-- the names under which the picture is stored as a reference; which earlier ones the stream may still reference after it; what it refers to,
  first list 0 index 0 (AV1: LAST_FRAME); its layer and parity (R126, R133, R134) -/
  stores : List Nat := []
  keeps : List RefName := []
  refers : List RefName := []
  layer : Nat := 0
  parity : Nat := 0
  /-- the AV1 slot that primary_ref_frame names, the CTUs of the tile whose contexts the frame saves, and the slots whose content frame IDs prove
  current (R124, R125) -/
  primaryRef : Option Nat := none
  contextCtus : List Nat := []
  proven : List Nat := []
  /-- parameter sets, the one that the picture refers to, its parts, and for AV1 whether an intact frame header is there (R119 to R123) -/
  params : List ParamUnit := []
  usesSet : Nat := 0
  parts : List CodedPart := []
  frameHeaderOk : Bool := true
  ctus : List CtuFact := []
  /-- damaged units of other kinds; index and byte offset of the first damaged unit (R119, R151) -/
  otherDamaged : Nat := 0
  firstDamaged : Nat := 0
  firstOffset : Nat := 0
  /-- the decoded picture hash SEI differs from the hash of the picture (R119) -/
  hashMismatch : Bool := false
  /-- 16×16 blocks that satisfy both conditions of R115 -/
  clearBlocks : List Nat := []
  /-- coded bytes of the access unit that the engine parses (R418) -/
  bytes : Nat := 0
  deriving DecidableEq, Repr

/-- How mode decision codes a block (R200): intra, with the columns its prediction reads up to (R215), or inter from a reference picture (0 is
the most recently coded), with the merge or AMVP candidates of the partition (R198). Vectors are in quarter samples. -/
inductive BlockMode where
  | intra (reach : Nat)
  | inter (reference : Nat) (candidates : List Vec)
  deriving DecidableEq, Repr

/-- A partition that mode decision retains in a CTU coded at full cost, in luma samples. -/
structure CodedBlock where
  x : Nat
  y : Nat
  w : Nat
  h : Nat
  mode : BlockMode
  deriving DecidableEq, Repr

/-- What mode decision and the entropy coder give for one coded picture (R200, R259 to R268): the bits each CTU takes when it is coded as
R261 decides, and the headers in coding order. -/
structure EncodeFacts where
  headerBits : Nat := 0
  bits : List Nat := []
  slices : Nat := 1
  /-- the slices beyond h_k (slice mode 3, and those a suspension opens): first CTU and header bits (R259) -/
  further : List (Nat × Nat) := []
  skipCopyBits : Nat := 0
  fallback : Bool := false
  /-- by gang member: how often it waited on an exchange for more than 2 µs (R210) -/
  stalls : List Nat := []
  /-- the boundaries of the gang that firmware moves at this IDR picture (R211) -/
  moved : List Nat := []
  crc : W32 := 0
  /-- the retained partitions of the CTUs coded at full cost, and those of these CTUs with SAO off in every component -/
  blocks : List CodedBlock := []
  saoOff : List Nat := []
  deriving DecidableEq, Repr

/-- What the encoder hands to the packet engine at once (R229, R296): a slice or an OBU with its size, or, with `header` set, the
units before the first slice of an access unit with their sizes. CTU addresses count 64×64 blocks. -/
structure CodedUnit where
  sizes : List Nat := []
  /-- the buffers that hold it: the items of its FIFO packet (R25, R229) -/
  buffers : List Nat := []
  /-- parameter sets, delimiters and SEI before the first slice -/
  header : Bool := false
  firstCtu : Nat := 0
  lastCtu : Nat := 0
  endsPicture : Bool := false
  deriving DecidableEq, Repr

/-- A DRAM request (R345). `unit` numbers the requester within its port's stop (R19), `address` is a channel offset. -/
structure DramReq where
  port : Nat
  unit : Nat := 0
  write : Bool
  address : Nat
  data : List Byte := []
  enables : List Bool := []
  deriving DecidableEq, Repr

/-- What moves on the scrim towards a channel (R19): the requests that enter it, and the places in flight of those that reach the channel's queue. -/
structure ScrimMoves where
  issued : List DramReq
  arrivals : List Nat
  deriving DecidableEq, Repr

/-- The engine that starts a picture, and whether the picture carries two tiles or WPP substreams (R111). -/
structure EnginePicture where
  engine : Nat
  parallel : Bool := false
  deriving DecidableEq, Repr

/-- What a producer or consumer does at an inter-island FIFO (R23 to R25): reserve the slot of a length word, write an item, write the
length word, or read a packet. -/
inductive FifoOp where
  | reserve
  | item (value : Nat)
  | close (length : Nat)
  | take
  deriving DecidableEq, Repr

/-- What latches a fault: an error pin of a block, by its source number (R434); a flit of the scrim with bad parity, by its place among those in
flight (R20); or an operation on the crossing between two islands, which latches only where it breaks the FIFO protocol (R28). -/
inductive FaultReport where
  | pin (source : Nat)
  | flit (position : Nat)
  | crossing (producer consumer : Nat) (op : FifoOp)
  deriving DecidableEq, Repr

/-- What an end of the spar link sees on its lanes, `age` ns ago (R21): a payload flit sent, acknowledged or
received whole, a flit that fails its CRC, and a sideband idle message. -/
inductive LaneEvent where
  | sent (age : Nat)
  | acknowledged
  | received
  | crcFailed
  | idle (age : Nat)
  deriving DecidableEq, Repr

/-- What the check bits of a read word say (R356, R357). -/
inductive EccOutcome where
  | clean
  | single (syndrome : Nat)
  | double (syndrome : Nat) (word : W64) (check : Nat)
  | queueParity
  deriving DecidableEq, Repr

/-- The taps of one lane direction that pass the pattern set in a sweep (R350, R352): 128 from tap 0 at start-up, 17 around the current setting in a
retrain. -/
structure LaneSweep where
  passing : List Bool
  deriving DecidableEq, Repr

/-- An ARP frame (RFC 826, R283). -/
structure ArpFrame where
  request : Bool
  senderIp : Nat
  senderMac : Nat
  targetIp : Nat
  deriving DecidableEq, Repr

/-- A neighbour discovery message (RFC 4861, R283). -/
structure NdFrame where
  solicitation : Bool
  /-- sent by duplicate address detection (source address unspecified) -/
  dad : Bool := false
  target : Nat
  senderMac : Nat
  deriving DecidableEq, Repr

/-- The kind of an IGMP or MLD query (R283): the group asked for (0 for a general query) and its version. -/
structure MulticastQuery where
  v6 : Bool
  group : Nat
  oldVersion : Bool
  deriving DecidableEq, Repr

/-- A PTP Announce message (R287). -/
structure Announce where
  grandmaster : Nat
  priority1 : Nat
  clockClass : Nat
  priority2 : Nat
  utcOffset : Int
  deriving DecidableEq, Repr

/-- A payload-specific feedback message (R299). -/
structure Feedback where
  fir : Bool
  mediaSsrc : W32
  sender : W32
  firSequence : Nat
  deriving DecidableEq, Repr

/-- A receiver report or NACK (R299). -/
structure ReceiverReport where
  nack : Bool
  fractionLost : Nat
  cumulativeLost : Nat
  deriving DecidableEq, Repr

/-- One flow's last sent sequence number, as HALF_STOPPED and STOP_ACK carry it (R445, R458). -/
structure FlowSeq where
  flow : Handle
  lastSent : W16
  deriving DecidableEq, Repr

/-- A unit announcement (R457). -/
structure UnitAnnouncement where
  flow : Handle
  firstSeq : W16
  lastSeq : W16
  firstCtu : Nat
  lastCtu : Nat
  picture : Nat
  deriving DecidableEq, Repr

/-- What a stream signals of its buffer model (R255): one schedule with its arrival rate in bit/s, its buffer in bits and cbr_flag; low_delay_hrd_flag is 0. -/
structure Hrd where
  rate : Nat
  buffer : Nat
  cbr : Bool
  lowDelay : Bool := false
  deriving DecidableEq, Repr

/-- The units around the slices of an access unit (R193): parameter sets and sequence headers, delimiters and SEI messages. -/
inductive HeadUnit where
  | delimiter
  | temporalDelimiter
  | vps
  | sps (references : Nat) (hrd : Option Hrd) (periodNum periodDen : Nat)
  | pps (columns : List Nat)
  | sequenceHeader (model : Option Hrd) (delay periodNum periodDen : Nat)
  | bufferingPeriod (delay : Nat)
  | pictureTiming
  | recoveryPoint (count : Nat)
  | frameHeader
  | pictureHash (hashType : Nat)
  deriving DecidableEq, Repr

/-- The numbering of a stream's pictures (R192, R302): the pictures since the last IDR picture or key frame, which is the POC, modulo 256 frame_num and
modulo 128 the order hint; for AV1 the frame id, the frame id and order hint of each slot, and the slot of the last shown frame. `finished` says that the
last picture was finished under R304. -/
structure FrameState where
  order : Nat := 0
  frameId : Nat := 0
  slots : List (Nat × Nat) := []
  shownSlot : Nat := 0
  finished : Bool := false
  deriving DecidableEq, Repr

/-- The mirrored state of a flow (R302): the picture and its progress, the codec, the size in 64×64 blocks, the RTP state, and the picture ticks: tick j
of the source is at anchor + ⌊j × num / den⌋, and every `step`-th tick is a picture. `frame` numbers the last complete picture and `openFrame`
the one being sent; `sets` are the parameter sets and the buffering period last sent, with the HRD timing. -/
structure Mirror where
  picture : Nat
  firstMissingCtu : Nat
  open_ : Bool
  ssrc : W32
  nextSeq : W16
  timestampOffset : W32
  lastTick : Nat
  codec : Nat
  cols : Nat
  rows : Nat
  anchor : Nat
  num : Nat
  den : Nat
  step : Nat
  frame : FrameState := {}
  openFrame : FrameState := {}
  references : Nat := 1
  sets : List HeadUnit := []
  deriving DecidableEq, Repr

/-- A change that the partner keel forwards over the spar link (R186, R227, R576). -/
inductive Forwarded where
  | encodeRefresh (stream : Handle) (kind : Nat) (tick : Nat)
  | encodeRate (stream : Handle) (payload : List Byte) (tick : Nat)
  | feedback (stream : Handle) (tick : Nat)
  | run (object : Handle) (action : Nat) (tick : Nat)
  | cueArm (group : W32) (sequence : W32) (switchTime : Nat) (scene : Nat)
  | cueCancel (group : W32) (switchTime : Nat)
  deriving DecidableEq, Repr

/-- A signed item of a slot as the primer reads it (R493, R494): its signature block, the SHA-256 of its signed bytes, and whether the ECDSA signature of
the block verifies over that digest. -/
structure SignedItem where
  block : List Byte := []
  measurement : BitVec 256 := 0
  verifies : Bool := false
  deriving DecidableEq, Repr

/-- A microcode image (R480): the signed item, its first 64 bytes, and how many of its words fail parity or have a byte 19 that is not zero. -/
structure ImageFacts where
  item : SignedItem := {}
  header : List Byte := []
  badWords : Nat := 0
  deriving DecidableEq, Repr

/-- What a slot holds (R491, R495): its bundle header, the keel image, and the microcode images of the targets 1 to 3. -/
structure SlotFacts where
  header : SignedItem := {}
  keel : SignedItem := {}
  images : List ImageFacts := []
  deriving DecidableEq, Repr

/-- What the primer finds while it boots a half (R350, R494 to R498, R510): the sweeps of each try to train each channel, one per lane direction, what the
slots hold, and the level of LEAD_PREF as PORST_N rises. -/
structure BootFacts where
  training : List (List (List LaneSweep)) := []
  slotA : SlotFacts := {}
  slotB : SlotFacts := {}
  leadPref : HalfId := .east
  deriving DecidableEq, Repr

/-- The commands of the block. -/
inductive Instr where
  -- device commands
  | identify (h : HalfId) (e : CmdEntry)
  | halfReset (h : HalfId) (e : CmdEntry)
  | eventRateSet (h : HalfId) (e : CmdEntry)
  | overbookSet (h : HalfId) (e : CmdEntry)
  -- envelope commands
  | draftOpen (h : HalfId) (e : CmdEntry)
  | draftWrite (h : HalfId) (e : CmdEntry) (r : RefFetch)
  | draftDiscard (h : HalfId) (e : CmdEntry)
  | envelopeCommit (h : HalfId) (e : CmdEntry)
  | envelopeCancel (h : HalfId) (e : CmdEntry)
  | envelopeRead (h : HalfId) (e : CmdEntry) (b : BusResult)
  -- queries
  | queryObject (h : HalfId) (e : CmdEntry) (b : BusResult)
  | queryDecode (h : HalfId) (e : CmdEntry) (b : BusResult)
  | queryInput (h : HalfId) (e : CmdEntry) (b : BusResult)
  | queryEncode (h : HalfId) (e : CmdEntry) (b : BusResult)
  | querySurge (h : HalfId) (e : CmdEntry) (b : BusResult)
  | queryFlow (h : HalfId) (e : CmdEntry) (b : BusResult)
  | queryPort (h : HalfId) (e : CmdEntry) (b : BusResult)
  | queryChannel (h : HalfId) (e : CmdEntry) (b : BusResult)
  | queryPool (h : HalfId) (e : CmdEntry) (b : BusResult)
  | queryDma (h : HalfId) (e : CmdEntry) (b : BusResult)
  | queryEvents (h : HalfId) (e : CmdEntry) (b : BusResult)
  | queryFilter (h : HalfId) (e : CmdEntry) (b : BusResult)
  | queryHealth (h : HalfId) (e : CmdEntry) (b : BusResult)
  | queryPtp (h : HalfId) (e : CmdEntry) (b : BusResult)
  | queryCues (h : HalfId) (e : CmdEntry) (b : BusResult)
  -- stream runtime commands
  | streamStart (h : HalfId) (e : CmdEntry)
  | streamStop (h : HalfId) (e : CmdEntry)
  | streamDrain (h : HalfId) (e : CmdEntry)
  | decodeFeed (h : HalfId) (e : CmdEntry)
  | encodeRefresh (h : HalfId) (e : CmdEntry)
  | encodeRate (h : HalfId) (e : CmdEntry)
  | surfaceUpdate (h : HalfId) (e : CmdEntry)
  | cueArm (h : HalfId) (e : CmdEntry)
  | cueCancel (h : HalfId) (e : CmdEntry)
  -- network runtime commands
  | portReset (h : HalfId) (e : CmdEntry)
  | flowMove (h : HalfId) (e : CmdEntry)
  | shaperSet (h : HalfId) (e : CmdEntry)
  | gateRebase (h : HalfId) (e : CmdEntry)
  -- memory and maintenance commands
  | channelInspect (h : HalfId) (e : CmdEntry) (b : BusResult)
  | blockRetire (h : HalfId) (e : CmdEntry)
  | channelThaw (h : HalfId) (e : CmdEntry)
  | channelRetrain (h : HalfId) (e : CmdEntry)
  | seqTrace (h : HalfId) (e : CmdEntry)
  | seqHistory (h : HalfId) (e : CmdEntry) (b : BusResult)
  | diagDump (h : HalfId) (e : CmdEntry)
  -- counter, fault, bridle commands
  | counterProgram (h : HalfId) (e : CmdEntry)
  | counterRead (h : HalfId) (e : CmdEntry)
  | faultRead (h : HalfId) (e : CmdEntry) (b : BusResult)
  | faultClear (h : HalfId) (e : CmdEntry)
  | faultInject (h : HalfId) (e : CmdEntry)
  | faultAction (h : HalfId) (e : CmdEntry)
  | unitRetire (h : HalfId) (e : CmdEntry)
  | leadYield (h : HalfId) (e : CmdEntry)
  | leadAssign (h : HalfId) (e : CmdEntry)
  | bridleRead (h : HalfId) (e : CmdEntry)
  -- security and firmware commands
  | attest (h : HalfId) (e : CmdEntry) (b : BusResult)
  | certRead (h : HalfId) (e : CmdEntry) (b : BusResult)
  | fwStage (h : HalfId) (e : CmdEntry) (r : RefFetch)
  | fwVerify (h : HalfId) (e : CmdEntry)
  | fwConfirm (h : HalfId) (e : CmdEntry)
  | fwSecurityCommit (h : HalfId) (b : BurnEntry)
  | fuseLock (h : HalfId) (e : CmdEntry)
  -- deferred executions
  | atTimeExecution (h : HalfId) (index : Nat)
  | waitingStartExecution (h : HalfId) (object : Handle)
  -- assist entries
  | rateAssist (h : HalfId) (a : AssistEntry)
  | coarseMotionHints (h : HalfId) (a : AssistEntry)
  | hostStencil (h : HalfId) (a : AssistEntry)
  | concealmentInstruction (h : HalfId) (a : AssistEntry)
  | packetReleaseTimes (h : HalfId) (a : AssistEntry)
  | poolFreeListSupply (h : HalfId) (a : AssistEntry)
  | ptpCorrection (h : HalfId) (a : AssistEntry)
  | retrainTime (h : HalfId) (a : AssistEntry)
  | leadDecision (h : HalfId) (a : AssistEntry)
  -- doorbells
  | cmdqTailWrite (h : HalfId) (value : W32)
  | cplqHeadWrite (h : HalfId) (value : W32)
  | evtqHeadWrite (h : HalfId) (value : W32)
  | asqTailWrite (h : HalfId) (value : W32)
  | asrHeadWrite (h : HalfId) (value : W32)
  -- DMA registers
  | dmaKick (h : HalfId) (channel : Nat)
  | dmaChainWrite (h : HalfId) (channel : Nat) (address : W64)
  | dmaEnable (h : HalfId) (channel : Nat) (enable : Bool) (noSnoop : Bool)
  | dmaDisable (h : HalfId) (channel : Nat)
  | dmaErrClear (h : HalfId)
  -- unit enable bits
  | unitHold (h : HalfId) (kind : UnitKind) (index : Nat)
  | unitReturn (h : HalfId) (kind : UnitKind) (index : Nat)
  -- interrupt controller
  | icuSrcCfgWrite (endpoint : HalfId) (icu : HalfId) (source : Nat) (value : W32)
  | icuSet (r : Requester) (icu : HalfId) (number : W32)
  | icuClaim (r : Requester) (icu : HalfId) (number : W32)
  | icuPartnerClaimDone (endpoint : HalfId)
  -- BAR accesses
  | bar4Access (h : HalfId) (op : Bar4Op)
  | bar2Write (h : HalfId) (offset : Nat) (bytes : List Byte)
  | registerWrite (h : HalfId) (offset : Nat) (width : Nat) (value : W64)
  | msixUnmask (h : HalfId) (vector : Nat)
  -- event and assist delivery
  | eventDelivery (h : HalfId)
  | asrBacklogDrain (h : HalfId)
  | asrRequestWithdrawn (h : HalfId) (index : Nat)
  -- envelope happenings
  | envelopeGroupResolved (lead : HalfId)
  | groupPartnerTimeout (h : HalfId)
  | takeoverArm (h : HalfId)
  | takeoverTime (h : HalfId)
  | envelopeCrcCheck (h : HalfId)
  -- input sessions and decoding
  | rtpPacketReceived (h : HalfId) (input : Nat) (p : RtpPacket)
  | accessUnitRelease (h : HalfId) (input : Nat)
  | guardedAccessUnitCopy (h : HalfId) (context : Nat) (presentation : Nat) (incomplete : Bool) (badStructure : Bool)
  | decodePictureStart (h : HalfId) (p : EnginePicture)
  | decodePictureComplete (h : HalfId) (engine : Nat) (f : DecodeFacts)
  | pictureAvailable (h : HalfId) (context : Nat)
  | bulkStarved (h : HalfId) (context : Nat)
  | refreshRequestRepeat (h : HalfId) (input : Nat)
  | concealmentDeadline (h : HalfId) (context : Nat)
  -- composition
  | canvasTick (h : HalfId) (canvas : Nat)
  | compositionJobStart (h : HalfId) (pipe : Nat)
  | compositionJobComplete (h : HalfId) (pipe : Nat) (changedBlocks : List Nat)
  | surfaceCopyDone (h : HalfId) (surface : Nat)
  -- encoding
  | encodePictureStart (h : HalfId) (engine : Nat) (f : EncodeFacts)
  | encodedUnitHandoff (h : HalfId) (stream : Nat) (u : CodedUnit)
  | encodePictureComplete (h : HalfId) (engine : Nat)
  | encodeLateRepeat (h : HalfId) (stream : Nat)
  | twinCrcExchange (h : HalfId) (stream : Nat) (picture : W32) (crc : W32)
  | refreshAbsorbed (h : HalfId) (stream : Nat)
  | surgeEnded (h : HalfId) (cluster : Nat)
  | surgeSustained (h : HalfId) (cluster : Nat)
  -- links and address protocols
  | linkSignalDetected (h : HalfId) (port : Nat)
  | linkUp (h : HalfId) (port : Nat)
  | linkDown (h : HalfId) (port : Nat) (cause : Nat)
  | adaptationTimeout (h : HalfId) (port : Nat)
  | adaptationRetry (h : HalfId) (port : Nat)
  | arpReceived (h : HalfId) (port : Nat) (f : ArpFrame)
  | arpRefresh (h : HalfId) (port : Nat)
  | neighbourDiscoveryReceived (h : HalfId) (port : Nat) (f : NdFrame)
  | dadComplete (h : HalfId) (port : Nat)
  | routerAdvertisementReceived (h : HalfId) (port : Nat) (router : Nat) (mac : Nat)
  | multicastQueryReceived (h : HalfId) (port : Nat) (q : MulticastQuery)
  | icmpEchoReceived (h : HalfId) (port : Nat) (v6 : Bool)
  | otherFrameReceived (h : HalfId) (port : Nat) (pause : Bool)
  -- PTP
  | ptpSyncReceived (h : HalfId) (port : Nat) (twoStep : Bool) (origin : Nat) (receive : Nat)
  | ptpFollowUpReceived (h : HalfId) (port : Nat) (origin : Nat)
  | ptpDelayRespReceived (h : HalfId) (port : Nat) (receive : Nat)
  | ptpDelayReqReceived (h : HalfId) (port : Nat) (receive : Nat)
  | ptpAnnounceReceived (h : HalfId) (port : Nat) (a : Announce)
  | announceReceiptTimeout (h : HalfId) (port : Nat)
  | ptpMasterInterval (h : HalfId) (port : Nat) (announce : Bool)
  | ppsInputEdge (h : HalfId) (second : Nat)
  | holdoverExpired (h : HalfId)
  -- RTCP
  | rtcpSenderReportReceived (h : HalfId) (input : Nat) (ntpTime : Nat) (rtpTime : W32)
  | rtcpFeedbackReceived (h : HalfId) (flow : Nat) (f : Feedback)
  | rtcpReceiverReportReceived (h : HalfId) (flow : Nat) (r : ReceiverReport)
  | senderReportTimer (h : HalfId) (flow : Nat)
  | receiverReportTimer (h : HalfId) (input : Nat)
  -- pacing
  | packetStart (h : HalfId) (port : Nat)
  | gateWindowChange (h : HalfId) (port : Nat)
  | gateListStarted (h : HalfId) (port : Nat)
  | undercoatPictureTick (h : HalfId) (flow : Handle)
  -- spar link, tether and lead
  | sparDown (h : HalfId) (events : List LaneEvent)
  | sparUp (h : HalfId)
  | sparDownHoldoffExpiry (h : HalfId)
  | partnerTetherLost (h : HalfId)
  | partnerAbsent (h : HalfId)
  | partnerSeenAlive (h : HalfId)
  | halfStoppedReceived (h : HalfId) (flows : List FlowSeq)
  | takeoverReceived (h : HalfId)
  | stopAckReceived (h : HalfId) (flows : List FlowSeq)
  | takeoverReplyTimeout (h : HalfId)
  | bridleClaimReceived (h : HalfId) (claim : Bool) (epoch : W32)
  | sequenceReportReceived (h : HalfId) (r : FlowSeq)
  | unitAnnouncementReceived (h : HalfId) (a : UnitAnnouncement)
  | unitAnnouncementAck (h : HalfId) (flow : Handle)
  | mirrorStateReceived (h : HalfId) (flow : Handle) (m : Mirror)
  | partnerCopyReceived (h : HalfId) (flow : Handle) (seq : W16) (picture : Nat) (bytes : Option Nat)
  | sparForwardedCommand (h : HalfId) (c : Forwarded)
  -- faults
  | faultLatched (h : HalfId) (r : FaultReport)
  | reactionDefaulted (h : HalfId) (source : Nat)
  | keelWatchdogExpiry (h : HalfId)
  -- sequencers
  | safePoint (h : HalfId) (block : Nat)
  | machineCheck (h : HalfId) (block : Nat) (condition : Bool) (ctuType : Nat) (ctu : Nat) (stalled : Bool) (upset : BitVec 152)
  | storeReloaded (h : HalfId) (block : Nat) (fetched : Option SignedItem) (readBackFails : Nat)
  | readbackRound (h : HalfId) (upsets : List (Nat × Nat × BitVec 152))
  -- frame memory
  | dramRequest (h : HalfId) (channel : Nat) (m : ScrimMoves) (ecc : EccOutcome)
  | pageIdleTimeout (h : HalfId) (channel : Nat) (bank : Nat)
  | dramRefresh (h : HalfId) (channel : Nat)
  | refreshWindowEnd (h : HalfId) (channel : Nat)
  | mr4Poll (h : HalfId) (channel : Nat) (rates : List Nat) (phyTemp : Int)
  | scrubStep (h : HalfId) (channel : Nat) (ecc : EccOutcome) (word : Nat)
  | zeroFillDone (h : HalfId) (block : Nat)
  | retrainStart (h : HalfId) (channel : Nat)
  | retrainDone (h : HalfId) (channel : Nat) (lanes : List LaneSweep)
  | retrainDeadline (h : HalfId) (channel : Nat)
  | regionCopyDone (h : HalfId) (region : Nat)
  | reserveMoved (h : HalfId)
  -- pools
  | poolAllocate (h : HalfId) (stop : Nat) (pool0 : Bool) (size : Nat) (count : Nat)
  | poolAdd (h : HalfId) (stop : Nat) (address : Nat) (count : Nat)
  | poolRelease (h : HalfId) (stop : Nat) (address : Nat)
  | poolRebuilt (h : HalfId) (pool : Nat)
  | poolAllocRetry (h : HalfId) (engine : Nat) (size : Nat) (count : Nat)
  | poolSupplyDeadline (h : HalfId) (pool : Nat)
  -- host DMA
  | dmaDescriptorFetched (h : HalfId) (channel : Nat) (bytes : List Byte)
  | dmaReadCompletion (h : HalfId) (channel : Nat) (bytes : List Byte)
  | dmaDescriptorComplete (h : HalfId) (channel : Nat)
  | dmaBusError (h : HalfId) (channel : Nat) (cause : Nat) (address : W64) (descriptor : Bool)
  | dmaCompletionTimeout (h : HalfId) (channel : Nat)
  -- interrupt parity, reel
  | icuParityFailure (h : HalfId) (source : Nat)
  | counterSnapshot (h : HalfId) (writeOk : Bool)
  -- resets and boot
  | porstAssert
  | resetPinAssert (h : HalfId)
  | resetRelease (h : HalfId) (f : BootFacts)
  | halfResetDelayExpiry (h : HalfId)
  | trialReset (h : HalfId)
  | trialAutoConfirm (h : HalfId)
  -- power, temperature, clocks
  | brownOut (h : HalfId) (core : Bool)
  | brownOutRecovery (h : HalfId)
  | voltageExcursion (h : HalfId) (rail : Nat) (millivolts : Int) (duration : Nat)
  | thermalSample (h : HalfId) (island : Nat) (celsius : Int)
  | thermalRelease (h : HalfId)
  | clockMonitorTrip (h : HalfId) (island : Nat) (kilohertz : Nat)
  | clockStepEvaluation (h : HalfId) (island : Nat) (depth : Nat) (capacity : Nat)
  | islandPowerOff (h : HalfId) (island : Nat)
  | islandPowerUp (h : HalfId) (island : Nat)
  | lifeAccumulation (h : HalfId)
  | agingMeasurement (h : HalfId) (slowdowns : List Nat)
  -- PCIe
  | pcieLinkDown (h : HalfId)
  | pcieLinkUp (h : HalfId)
  | pcieUncorrectableError (h : HalfId) (masked : Bool)
  | pcieHotReset (h : HalfId)
  -- further clocked happenings
  | ppsOutputPulse (h : HalfId)
  | delayRequestInterval (h : HalfId) (port : Nat)
  | leadDecisionDeadline (h : HalfId)
  | encodeSurfaceTick (h : HalfId) (stream : Nat)
  | islandClockRelock (h : HalfId) (island : Nat)
  deriving DecidableEq, Repr

end Sys2Proof
end

