-- ==== Sys2Proof/Config.lean ====
section
/-!
DEFINITION. Config.lean: what the family member fixes (unit counts and sizes of the DRL-6400), and the free values: constants without a
body for what the spec leaves open, so that no proof can see them (assumption logs 6, 10 and 11).
-/
namespace Sys2Proof.Config

/-- Units of one half of the DRL-6400 (the unit table of file 00, R541). -/
def encEngines : Nat := 8
def decEngines : Nat := 6
def cmpPipes : Nat := 4
def dramChannels : Nat := 4
def netPorts : Nat := 2
def dmaChannels : Nat := 32

/-- Entries of CMDQ, CPLQ, EVTQ, ASQ and ASR (R37). -/
def cmdqSize : Nat := 256
def cplqSize : Nat := 256
def evtqSize : Nat := 1024
def asqSize : Nat := 512
def asrSize : Nat := 512

/-- BAR2 offsets of the rings (R37). -/
def cmdqBase : Nat := 0
def cplqBase : Nat := 0x4000
def evtqBase : Nat := 0x8000
def asqBase : Nat := 0x20000
def asrBase : Nat := 0x28000

/-- DEV_ID.MEMBER and DEV_ID.PART of the DRL-6400 (R541). -/
def member : Nat := 4
def part : Nat := 0x6400

/-- Die revision (R541): fused, the spec gives no value. Free (log 6). -/
opaque dieRev : Nat

/-- ROM revision of the primer (R541, R505): the spec gives no value. Free (log 6). -/
opaque primerVersion : Nat

/-- Where a channel stood when DISABLE or a bus error dropped it: DMA_CUR and DMA_LAST_DONE are undefined (R385, R388).
Applied to the state's counter of free values (log 6). -/
opaque dmaUndefined : Nat → BitVec 64

/-- Bytes that a dropped DMA transfer had moved (R388: undefined): the part of the transfer that landed (log 6). -/
opaque dmaMoved : Nat → Nat

/-- The router of the 4×4 mesh that carries a stop of the scrim (R19): the spec does not place the stops. Free (log 88). -/
opaque stopRouter : Nat → Nat

/-- The slots of a bank of the crossing between two islands (R26), and the capacity of an island's input queues (R32): fixed in hardware,
not stated. Free (log 88). -/
opaque bankDepth : Nat → Nat → Nat
opaque queueCapacity : Nat → Nat

/-- Whether a flag of a FIFO is still pessimistic within its 3 clocks (R23), from the counter of free values (log 88). -/
opaque flagStill : Nat → Bool

/-- What a host read returns when its access is answered with an error response (R335, R360): not stated. Free (log 6). -/
opaque errorRead : Nat → BitVec 8

/-- Microseconds a boot took, which R497 bounds and does not fix, from the counter of free values (log 6). -/
opaque bootDuration : Nat → Nat

/-- Random 32-bit SSRC (R294, R298) from the counter of free values (log 11). -/
opaque randomSsrc : Nat → BitVec 32

/-- Random first RTP sequence number and timestamp offset (R294), from the counter of free values (log 11). -/
opaque randomSeq : Nat → BitVec 16
opaque randomOffset : Nat → BitVec 32

/-- Tap `k` of phase `p` of filter `f` (R166, QUERY_FILTER): device constants that the spec bounds and does not list
(log 11). -/
opaque filterTap : Nat → Nat → Nat → Int

/-- Presentation time that the stream's own timing gives an access unit, in ns after its anchor (R91), from the counter of free
values (log 11). -/
opaque streamTiming : Nat → Nat

/-- The AV1 luma AC quantiser at a bit depth and base_q_idx (R260), and whether a level of a codec holds a stream (R194, R195, R269):
tables of the standards, which the spec does not list (log 11). The second takes codec, profile, tier, level, width, height, the
picture period as a fraction of ns, peak rate in kb/s and buffer in kbit. -/
opaque av1Quantiser : Nat → Nat → Nat
opaque levelHolds : List Nat → Bool

/-- Where the device puts a picture, its linear copy and its descriptor in a picture store, and its maps behind the descriptor (R113, R114,
R143): not stated. Free (log 6). -/
opaque picturePlace : Nat → Nat
opaque linearPlace : Nat → Nat
opaque descriptorPlace : Nat → Nat
opaque mapPlace : Nat → Nat

/-- The standards' arithmetic (R18, log 9): a sample that a standard decodes from an access unit, after damaged ones, where the loop filters
spare some CTUs (R127); film grain on a sample (R85); a codec's interpolation filter at a fraction of a sample, over the 8 × 8 samples around it (R126). -/
opaque codecSample : Nat → List Nat → List Nat → Nat → Nat → Nat → Nat
opaque grainSample : Nat → Nat → Nat → Nat → Nat → Nat
opaque interpolated : Nat → Nat → Nat → Nat → Nat → List Nat → Nat

/-- What an encode engine reconstructs for a picture, by its token (R18, R192): the codec's value. The rate term of a vector difference, from the codec,
the vector and those before it, SATD of a block of differences, the range of a codec and level (R198, R199) in quarter samples across and down, and the
64-byte units that a gang's exchange of a boundary takes (R209): not stated. Free (log 89). -/
opaque reconSample : Nat → Nat → Nat → Nat → Nat
opaque vectorRate : Nat → Int → Int → List Int → Nat
opaque satd : List Int → Nat
opaque vectorRange : Nat → Nat → Nat × Nat
opaque exchangeUnits : Nat → Nat → Nat

/-- What R165 to R168 leave open of the composition pipeline (log 86): the sample that a filter reads beyond the ends of a line, which way a
filter phase rounds, the chroma sample that a window of full-size samples gives, and the light of PQ and HLG code values, whose standards the
spec names (log 9). -/
opaque edgePlace : Nat → Int → Nat
opaque phaseUp : Nat → Nat → Nat → Bool
opaque chromaDown : List Int → Int
opaque toLight : Nat → Int → Int
opaque fromLight : Nat → Int → Int

/-- Where the device puts tile slots, tile tables and stencils in an output store (R172, R173): not stated. Free (log 6). -/
opaque slotPlace : Nat → Nat
opaque tablePlace : Nat → Nat
opaque stencilPlace : Nat → Nat

/-- Samples that pad a tile outside the picture (R341), and the coded bytes and seeds of a compression unit (R342): not stated. Free
(log 80). -/
opaque padSample : Nat → Nat → Nat
opaque constantUnit : BitVec 8 → List (BitVec 8)
opaque riceUnit : List (BitVec 8) → List (BitVec 8)
opaque unitSeeds : List (BitVec 8) → Nat

/-- The delay that spreads a reply over the interval a protocol gives (R283), in ns (log 11). -/
opaque replyDelay : Nat → Nat

/-- The interval that RFC 3550 computes for a report, in ns (R99, R298), the last equaliser setting of a port (R310), wire bytes of a
flat-fill slice packet and of an undercoat picture, which R305 bounds, and the frequency adjustment that the hardware servo computes
(R289): not stated. Free, from the counter of free values (log 6). -/
opaque rtcpInterval : Nat → Nat
opaque equaliser : Nat → Nat
opaque flatFillBytes : Nat → Nat
opaque undercoatBytes : Nat → Nat
opaque servoFrequency : Nat → Int

/-- The position that a commit failing as a whole reports in its result (R65): not stated. Free (log 6). -/
opaque wholePosition : Nat

/-- The charge that OVERBOOK_SET reports when it names both clusters (R567), from their two charges: not stated. Free (log 6). -/
opaque bothCharges : Nat → Nat → Nat

/-- The ECDSA P-256 signature of a digest by the identity key (R505): 64 bytes (log 10). -/
opaque identitySignature : BitVec 256 → List (BitVec 8)

/-- The vendor-signed certificate of the identity key (R504) (log 10). -/
opaque certificate : List (BitVec 8)

/-- What the header of a staged bundle says (R495): its layout is not given, so its fields are functions of the staged
bytes (log 10). Fields: 0 generation, 1 security version, 2 key index, 3 revocation mask, 4 firmware version,
5 to 7 microcode versions, 8 to 10 microcode security versions, 11 members served. -/
opaque bundleField : List (Nat × BitVec 8) → Nat → Nat

/-- Measurements of the components of a staged bundle (R494): 0 keel, 1 encode, 2 decode, 3 composition (log 10). -/
opaque bundleMeasurement : List (Nat × BitVec 8) → Nat → BitVec 256

/-- The signature blocks of a staged bundle's header (0), keel image (1) and microcode images (2 to 4), and whether they verify (R493, R494); the first 64
bytes of its images and how many words of theirs fail (R480): the places are not given (log 10). -/
opaque bundleBlock : List (Nat × BitVec 8) → Nat → List (BitVec 8)
opaque bundleVerifies : List (Nat × BitVec 8) → Nat → Bool
opaque bundleImage : List (Nat × BitVec 8) → Nat → List (BitVec 8)
opaque bundleBadWords : List (Nat × BitVec 8) → Nat → Nat

/-- The 144 data bits of the loaded microcode image of a target (0 encode, 1 decode, 2 composition) at an address (R465, R480):
image contents are not in the spec (log 11). -/
opaque imageWord : Nat → Nat → BitVec 144

/-- An internal word that DIAG_DUMP captures of a prediction, a residual or a picture that the model keeps no samples of (R577): by stage, index, plane,
place in the plane and picture time (log 10). -/
opaque diagWord : Nat → Nat → Nat → Nat → Nat → BitVec 18

/-- The entry points of the loaded microcode image of a target (R480), as `imageWord`: 1 picture or job start, 2 resume (log 11). -/
opaque imageEntry : Nat → Nat → Nat

/-- Max_Read_Request_Size of an endpoint in bytes (R381): the host sets it in configuration space. Free (log 10). -/
opaque maxReadRequest : Nat

/-- What the refresh-management mode register of the fitted dies says (R334): the rolling activate count of a bank at which RFMpb is due, or 0 for
never, and what a refresh of the bank takes off it (log 21). -/
opaque refreshManagement : Nat × Nat

end Sys2Proof.Config
end

