-- ==== Sys2Proof/Machine/State.lean ====
section
/-!
DEFINITION. State.lean: everything the spec gives the block, as plain data, and the state after power-on reset.
INVENTORY.md lists each field with the rule that names it and its reset value.
Times are device times in ns (R13); counts are natural numbers, saturated or wrapped where they are written.
-/
namespace Sys2Proof.Machine

/-- Why the block stops. No rule of the spec stops it: no meaning raises this (safe). -/
inductive Fault where
  /-- Raised by nobody; present because the interface asks for a fault type. Safe. -/
  | none
  deriving DecidableEq, Repr

/-- Why a command has no meaning. -/
inductive Refusal where
  /-- Raised by a dispatch arm whose command has no meaning yet. Safe. -/
  | notModelled (mnemonic : String)
  deriving DecidableEq, Repr

/-- Sparse bytes by address, strictly rising, no entry zero: an unlisted byte reads 0 (R41, R359). -/
abbrev Mem := List Host.Cell

/-- One record of an envelope, whole (R58). -/
abbrev Record := List Byte

/-- The device-time counter of a half (R285, R289). `frac` counts 10⁻¹² ns steps of the frequency adjustment. -/
structure Clock where
  now : Nat := 0
  frac : Nat := 0
  freqAdj : Int := 0
  slew : Int := 0
  deriving DecidableEq, Repr

/-- The five rings of a half: index registers, RING_ERR and ring memory (R37 to R42). -/
structure Rings where
  cmdqTail : W32 := 0
  cmdqHead : W32 := 0
  cplqTail : W32 := 0
  cplqHead : W32 := 0
  evtqTail : W32 := 0
  evtqHead : W32 := 0
  asqTail : W32 := 0
  asqHead : W32 := 0
  asrTail : W32 := 0
  asrHead : W32 := 0
  ringErr : BitVec 5 := 0
  mem : Mem := []
  refused : Nat := 0
  deriving DecidableEq, Repr

/-- An event as the keel holds it (R52), without phase and dropped mark. -/
structure EventRec where
  code : Nat
  severity : Nat
  source : Handle
  time : Nat
  rep : Nat := 1
  detail : List Byte := []
  deriving DecidableEq, Repr

/-- A record of the alarm ring (R55): `slot` is the latched source bit, or 63 for any other alarm. -/
structure AlarmRec where
  ev : EventRec
  written : Bool := false
  slot : Nat := 63
  deriving DecidableEq, Repr

/-- The event bucket, backlogs and alarm ring (R53 to R56). The balance is in 10⁻⁹ token. `instant` lists the alarms that have found the ring
full and that go to EVTQ at once or not at all (R55), after the completion of the command that caused them (R48). -/
structure Events where
  rate : Nat := 20000
  burst : Nat := 512
  balance : Nat := 512000000000
  balanceAt : Nat := 0
  warnings : List EventRec := []
  infos : List EventRec := []
  warnDropped : Nat := 0
  infoDropped : Nat := 0
  warnCoalesced : Nat := 0
  alarmCoalesced : Nat := 0
  markAlarm : Bool := false
  markWarn : Bool := false
  markInfo : Bool := false
  alarms : List AlarmRec := []
  instant : List EventRec := []
  alarmCounts : List Nat := List.replicate 64 0
  assistLate : Nat := 0
  assistUnexpected : Nat := 0
  deriving DecidableEq, Repr

/-- An entry the device writes to ASR (R79). -/
structure AsrEntry where
  kind : Nat
  tag : Nat
  handle : Handle
  sequence : Nat
  time : Nat
  payload : List Byte
  deriving DecidableEq, Repr

/-- A request waiting for room in ASR, with its deadline (R82). -/
structure AsrRequest where
  entry : AsrEntry
  deadline : Nat
  deriving DecidableEq, Repr

/-- The ASR backlogs (R82): `marks` are notices held as pending marks on their objects. -/
structure AsrState where
  notices : List AsrEntry := []
  requests : List AsrRequest := []
  marks : List AsrEntry := []
  deriving DecidableEq, Repr

/-- A running envelope (R57, R73): `switchTime` is the time of the last switch. -/
structure Envelope where
  records : List Record := []
  takeTime : Nat := 0
  switchTime : Nat := 0
  group : W32 := 0
  deriving DecidableEq, Repr

/-- A pending envelope (R69 to R73). `atTime` says that its commit completed with ACCEPTED_DEFERRED (R49), `begun` that its take-over
time has come; `left` lists the objects that have not switched yet; `units` holds the units and the load
(10⁻⁶) that admission gave each object, `regions` the placement of the kind-0 regions (region, channel, offset, size). -/
structure PendingEnv where
  records : List Record := []
  takeTime : Nat := 0
  group : W32 := 0
  atTime : Bool := false
  tag : W16 := 0
  sequence : W32 := 0
  armed : Bool := false
  begun : Bool := false
  left : List Handle := []
  units : List (Handle × List Nat × Nat) := []
  regions : List (Nat × Nat × Nat × Nat) := []
  deriving DecidableEq, Repr

/-- A grouped commit that waits for its partner, with the records committed (R66). -/
structure GroupWait where
  group : W32
  atTime : Option Nat
  arrival : Nat
  tag : W16
  sequence : W32
  records : List Record := []
  deriving DecidableEq, Repr

/-- A command that completed with ACCEPTED_DEFERRED and waits for its time (R49, R50). `fwd` marks a change that the partner has
forwarded (R576), which reports nothing here. -/
structure Deferred where
  opcode : Nat
  entry : CmdEntry
  due : Nat
  fwd : Bool := false
  deriving DecidableEq, Repr

/-- The envelope store and the deferred commands of a half (R57 to R78). -/
structure EnvStore where
  running : Option Envelope := none
  pend : Option PendingEnv := none
  draft : Option (List Record) := none
  group : Option GroupWait := none
  deferred : List Deferred := []
  waitingStarts : List Deferred := []
  lastCrcCheck : Nat := 0
  deriving DecidableEq, Repr

/-- The run state of an object (R572 to R575). -/
inductive RunState where
  | stopped
  | running
  | draining
  | halted
  | shed
  deriving DecidableEq, Repr

/-- The refresh-request schedule of an INPUT (R140 to R142). -/
structure RefreshReq where
  pending : Bool := false
  first : Nat := 0
  sent : Nat := 0
  lastSent : Option Nat := none
  firSequence : Nat := 0
  due : Nat := 0
  deriving DecidableEq, Repr

/-- A packet in the jitter buffer, with extended sequence number and timestamp (R94, R97). -/
structure BufPacket where
  seq : Nat
  timestamp : Nat
  bytes : Nat
  marker : Bool
  arrival : Nat
  randomAccess : Bool
  deriving DecidableEq, Repr

/-- The counts of an input session (R572 QUERY_INPUT). -/
structure InputCounts where
  accepted : Nat := 0
  late : Nat := 0
  duplicate : Nat := 0
  overflow : Nat := 0
  structureDrops : Nat := 0
  gaps : Nat := 0
  rebases : Nat := 0
  reports : Nat := 0
  deriving DecidableEq, Repr

/-- An input session and its jitter buffer (R93 to R99). Times of the base are device time and extended timestamp; `unit` is
the timestamp of the access unit that arrives and its last packet's arrival; timestamps at or above `mappedFrom` are timed by
the sender report. `badTimes` are the timestamps of packets dropped for their structure (R94, R120); `ownSsrc` is the receiver SSRC that
firmware assigns (R140), `lastSsrc` and `lastSource` are those of the last accepted packet. -/
structure InputSt where
  index : Nat
  mappedFrom : Option Nat := none
  senderReport : Option (Nat × W32) := none
  base : Option (Nat × Nat) := none
  highSeq : Option Nat := none
  highTs : Nat := 0
  nextSeq : Option Nat := none
  packets : List BufPacket := []
  held : Nat := 0
  outside : Nat := 0
  unit : Option (Nat × Nat) := none
  badTimes : List Nat := []
  ownSsrc : W32 := 0
  lastSsrc : W32 := 0
  lastSource : Nat := 0
  lastOverflow : Option Nat := none
  overflowSince : Nat := 0
  counts : InputCounts := {}
  refresh : RefreshReq := {}
  nextReport : Nat := 0
  deriving DecidableEq, Repr

/-- An access unit that waits for its engine (R97, R100). `released` is its release time (R95, R96); `gapBefore` says that packets between it
and the unit before are missing (R125), `token` stands for its bytes (R106), `resume` that it is the first after an end of stream, `last` that the stream ends with it (R92). -/
structure AccessUnit where
  presentation : Nat
  released : Nat
  incomplete : Bool := false
  badStructure : Bool := false
  gapBefore : Bool := false
  token : Nat := 0
  origin : Nat := 0
  discontinuity : Bool := false
  resume : Bool := false
  last : Bool := false
  endPos : Nat := 0
  feedSeq : Nat := 0
  feeds : Nat := 0
  deriving DecidableEq, Repr

/-- A rectangle in luma samples (R117). -/
structure Rect where
  x : Nat
  y : Nat
  width : Nat
  height : Nat
  deriving DecidableEq, Repr

/-- The size in samples, the bit depth and the chroma format (0 4:0:0, 1 4:2:0, 2 4:2:2) of a picture in memory. -/
structure PicFormat where
  width : Nat
  height : Nat
  depth : Nat := 8
  chroma : Nat := 1
  deriving DecidableEq, Repr

/-- A picture decoded from coded data: `token` stands for the bytes of its access unit (R18), `trail` for the damaged access units that its
references descend from, `full` is the coded format; `lost` lists the lost CTUs, each with the vector of its temporal copy, or with none where it
is interpolated (R126). -/
structure CodedPic where
  token : Nat
  trail : List Nat := []
  codec : Nat
  full : PicFormat
  ctuLog2 : Nat := 6
  lost : List (Nat × Option Vec) := []
  deriving DecidableEq, Repr

/-- What a picture holds, by how its samples come about (R18, R126, R134, R146): mid-grey; decoded, with the picture that its lost CTUs are
copied from; the bytes of a linear layout in device memory at the time it was read; the cropped part of a picture (R113); a picture with film
grain, an unpaired field with its lines repeated, two fields interleaved (R85); a canvas, from its background upwards, with the layers drawn on it:
a fill, a decoded picture, a host surface with its bytes (R165). -/
inductive Content where
  | grey (f : PicFormat)
  | coded (p : CodedPic) (source : Content)
  | linear (f : PicFormat) (pitch : Nat) (cells : Mem) (base : Nat)
  | window (x y : Nat) (f : PicFormat) (source : Content)
  | grained (token : Nat) (source : Content)
  | unpaired (bottom : Bool) (field : Content)
  | woven (top bottom : Content)
  | base (canvas : Record)
  | filled (layer : Record) (below : Content)
  | drawn (layer : Record) (colour : List Nat) (full : Bool) (chromaLoc : Nat) (source below : Content)
  | host (layer surface : Record) (cells : Mem) (at_ : Nat) (below : Content)
  deriving DecidableEq, Repr

/-- A reference picture of a context, in a DPB or an AV1 slot (R130, R133, R134): by what the stream names it, the sequence of its output
picture, its place in decoding order, layer and parity, its concealment codes and CTU width; `standIn` 1 for a stand-in taken from a decoded
picture, 2 for a mid-grey one; `suspect` as R125, `contextsLost` as R124. -/
structure RefPic where
  ident : Nat
  seq : Nat := 0
  order : Nat := 0
  layer : Nat := 0
  parity : Nat := 0
  codes : List Nat := []
  standIn : Nat := 0
  suspect : Bool := false
  contextsLost : Bool := false
  content : Content
  deriving DecidableEq, Repr

/-- A decoded picture: what its descriptor says (R114), its concealment codes (R130) and what it holds, when it becomes available (R103, R107,
R144), and where it stands in its picture store. `showAt` is the time from which a guarded canvas may show it (R107, R164); `passed` marks one that
waits for its instruction though it is dropped (R103, R143). -/
structure DecodedPic where
  seq : Nat
  presentation : Nat
  completed : Nat
  availableAt : Nat
  showAt : Nat := 0
  width : Nat := 0
  height : Nat := 0
  bitDepth : Nat := 8
  chroma : Nat := 1
  colour : List Nat := [2, 2, 2]
  fullRange : Bool := false
  chromaLoc : Nat := 0
  flags : Nat := 0
  ctuLog2 : Nat := 6
  ctuCols : Nat := 1
  cause : Nat := 0
  codes : List Nat := []
  clear : List Nat := []
  reliable : Bool := true
  allChanged : Bool := false
  rects : List Rect := []
  content : Content
  region : Nat := 0
  place : Nat := 0
  descAt : Nat := 0
  awaiting : Bool := false
  passed : Bool := false
  deadline : Nat := 0
  tag : Nat := 0
  origin : Nat := 0
  deriving DecidableEq, Repr

/-- A decode context (R86 to R149). `refs` are its reference pictures, `sets` the parameter sets received intact, `active` the one in force and
`latest` the most recently decoded picture of each layer and parity; `firstField` is the first field of a complementary pair, with its codes and
cause byte (R85); `copies` are access units on their way from the partner (R106); `recoveryClean` says that every
picture since a recovery point SEI message has been intact (R133), `raslSkip` that RASL pictures are skipped (R121); `heldSince` counts the
pictures held since the context became unreliable (R151); `starts` counts its starts (R167). `damage` holds the fourteen counts of R150 in table order, with PLI and FIR counted
apart. -/
structure DecodeSt where
  index : Nat
  run : RunState := .running
  engines : List Nat := []
  load : Nat := 0
  ready : List AccessUnit := []
  inProgress : Option AccessUnit := none
  waiting : List DecodedPic := []
  available : List DecodedPic := []
  copies : List AccessUnit := []
  seq : Nat := 0
  feedEnd : Nat := 0
  consumed : Nat := 0
  feedSeq : Nat := 0
  feeds : Nat := 0
  anchor : Option Nat := none
  discontinuity : Bool := false
  endOfStream : Bool := false
  waitStart : Bool := true
  limitWait : Bool := false
  sizeWas : Option (Nat × Nat) := none
  reliable : Bool := true
  unreliableAt : Nat := 0
  heldRun : Nat := 0
  heldSince : Nat := 0
  allNext : Bool := true
  lastAction : Nat := 0
  refs : List RefPic := []
  order : Nat := 0
  sets : List (Nat × ParamFacts) := []
  active : Option ParamFacts := none
  latest : List RefPic := []
  firstField : Option (Content × List Nat × Nat) := none
  recoveryClean : Bool := false
  raslSkip : Bool := false
  starts : Nat := 0
  lastProgress : Nat := 0
  lastStarved : Option Nat := none
  late : Nat := 0
  dropped : Nat := 0
  lastTime : Nat := 0
  damage : List Nat := List.replicate 14 0
  holdAt : Option Nat := none
  drainAt : Nat := 0
  deriving DecidableEq, Repr

/-- An update of a surface that waits for its applied time, asked for an effective time (R159, R160). A replicated update waits for its copy with the
command that asked for it (R182). -/
structure SurfUpdate where
  buffer : Nat
  effective : Nat := 0
  applied : Nat
  rects : List Rect
  allChanged : Bool
  copying : Option CmdEntry := none
  deriving DecidableEq, Repr

/-- A host surface (R157 to R161). `busy` lists the unreleased buffers with the applied time of the buffer that replaced each
(none: current); `applied` keeps the updates that some canvas has not composed yet. -/
structure SurfaceSt where
  index : Nat
  current : Nat := 0
  busy : List (Nat × Option Nat) := []
  lastApplied : Nat := 0
  updates : Nat := 0
  waiting : List SurfUpdate := []
  applied : List SurfUpdate := []
  deriving DecidableEq, Repr

/-- An armed cue (R185, R186). -/
structure Cue where
  group : W32
  sequence : W32
  switchTime : Nat
  scene : Nat
  partnerArmed : Bool
  deriving DecidableEq, Repr

/-- A composition job (R176, R177). `tiles` are the dirty tiles; `bandsLeft` the bands not done; `content` is what it draws (R162 to R165). -/
structure Job where
  canvas : Nat
  tick : Nat
  tickTime : Nat
  tiles : List Nat
  rects : List Rect := []
  allChanged : Bool := false
  cue : Bool := false
  scene : Nat := 0
  bandsLeft : List Nat := []
  bandsWaiting : List Nat := []
  pipes : List Nat := []
  changed : List Nat := []
  waitedTable : Bool := false
  content : Content := .base []
  deriving DecidableEq, Repr

/-- A canvas picture that encoders may still read (R172): `table` names a tile slot for each tile, `owner` is the sequence of
the picture whose table it is (a repeat picture takes none of its own); `stencil` is its stencil (R173). -/
structure CanvasPic where
  seq : Nat
  tickTime : Nat
  table : List Nat
  owner : Nat
  readers : List Nat
  stencil : List Byte := []
  deriving DecidableEq, Repr

/-- A canvas (R152 to R184). `repeats` are the repeat pictures that follow the pictures of earlier jobs (R178); `slots` says what each tile slot
in use holds: the canvas as it was drawn when its tile was recomposed (R172); `shown` lists the picture that each decoded layer shows, and `warned`
the starts of a source for which a layer has raised COLOUR_UNSUPPORTED (R167). -/
structure CanvasSt where
  index : Nat
  run : RunState := .running
  pipes : List Nat := []
  load : Nat := 0
  scene : Nat := 0
  nextTick : Nat := 0
  seq : Nat := 0
  dirty : List Nat := []
  allDirty : Bool := true
  dirtyRects : List Rect := []
  resumeAt : Nat := 0
  jobs : List Job := []
  repeats : List (Nat × Nat) := []
  held : List CanvasPic := []
  latest : Option CanvasPic := none
  slots : List (Nat × Content) := []
  shown : List (Handle × Nat) := []
  warned : List (Handle × Nat) := []
  armed : List Cue := []
  lastCue : Option Cue := none
  lastTickTime : Nat := 0
  doneTick : Nat := 0
  holdAt : Option Nat := none
  drainAt : Nat := 0
  deriving DecidableEq, Repr

/-- A picture ready for an encode stream (R196, R220): picture `k` of the stream, from a canvas picture or a surface buffer; `blocks` are the set bits
of its stencil. -/
structure ReadyPic where
  tickTime : Nat
  k : Nat := 0
  canvasSeq : Nat := 0
  buffer : Nat := 0
  blocks : List Nat := []
  allChanged : Bool := false
  cue : Bool := false
  repeated : Bool := false
  deriving DecidableEq, Repr

/-- Rate control of a stream: its rate state (R273) and the values of ENCODE_RATE in force (R269). Coefficients and
fullness as R255 to R260 define them. -/
structure RateSt where
  fullness : Int := 0
  debt : Int := 0
  target : Int := 0
  xIntra : Option Nat := none
  xInter : Option Nat := none
  history : List Nat := []
  bitRate : Nat := 0
  peakRate : Nat := 0
  bufferKbit : Nat := 0
  qpFloor : Nat := 0
  qpCeiling : Nat := 0
  quality : Nat := 0
  ballast : Nat := 0
  mode : Nat := 0
  deriving DecidableEq, Repr

/-- A change of rate parameters that waits for its picture (R270): the payload bytes of R269; `fwd` as in a deferred command;
`superseded` by a take-over of the same picture (R272). -/
structure RateChange where
  tick : Nat
  payload : List Byte
  idr : Bool
  fwd : Bool := false
  superseded : Bool := false
  deriving DecidableEq, Repr

/-- A refresh that waits for its picture (R217, R218): `kind` 1 IDR, 2 sweep; `cause` as REFRESH_APPLIED. -/
structure RefreshWait where
  tick : Nat
  kind : Nat
  cause : Nat
  deriving DecidableEq, Repr

/-- Per-stream counts (R231, R277, QUERY_ENCODE of R572). -/
structure EncodeCounts where
  late : Nat := 0
  repeated : Nat := 0
  fallback : Nat := 0
  absorbed : Nat := 0
  stalls : Nat := 0
  truncated : Nat := 0
  ceiling : Nat := 0
  ballast : Nat := 0
  filler : Nat := 0
  deferred : Nat := 0
  twinRestarts : Nat := 0
  assistDefaults : Nat := 0
  deriving DecidableEq, Repr

/-- The source picture of an encode stream (R196): what its tiles hold, by slot, or one picture for a surface. -/
structure PicSource where
  format : PicFormat
  cols : Nat := 1
  table : List Nat := []
  slots : List (Nat × Content) := []
  deriving DecidableEq, Repr

/-- What the motion search of a picture rests on (R198, R199, R201, R215): its source, the reconstructions it may predict from, newest first, the
searched CTUs with the blocks that mode decision retained, the host's hints and their use, and the edges, in luma columns, of the clean areas of the
picture and of its reference. The vectors follow from these. -/
structure SearchPic where
  k : Nat
  tick : Nat
  source : PicSource
  refs : List Nat := []
  searched : List Nat := []
  /-- the CTUs whose complexity is measured intra (R260) -/
  intra : List Nat := []
  blocks : List CodedBlock := []
  hints : List (Vec × Vec) := []
  hintUse : Option Nat := none
  clean : Option (Nat × Nat) := none
  narrow : Bool := false
  deriving DecidableEq, Repr

/-- A boundary of a gang picture (R209, R210): the engines left and right of it, its luma column, the columns of a search strip, of the luma and of
the chroma filter edge, the rows, and whether the exchange crosses the scrim. -/
structure GangEdge where
  left : Nat
  right : Nat
  column : Nat
  strip : Nat := 48
  luma : Nat := 8
  chroma : Nat := 4
  rows : Nat
  scrim : Bool
  deriving DecidableEq, Repr

/-- A picture under way: what its statistics record will say (R230), its syntax (R191 to R193, R208), its search (R198), and of a gang the exchanges
(R209), the CTU rows that each column has formed and the units that wait for other columns (R213). `slicing` lists the first CTUs of slices that mode
3 and suspensions open. -/
structure EncPlan where
  tickTime : Nat := 0
  canvasSeq : Nat := 0
  budget : Int := 0
  bits : Nat := 0
  filler : Nat := 0
  full : Nat := 0
  skim : Nat := 0
  deferred : Nat := 0
  refresh : Nat := 0
  meanQp : Nat := 0
  picType : Nat := 1
  slices : Nat := 1
  flags : Nat := 0
  stalls : List (Nat × Nat) := []
  crc : W32 := 0
  fullBits : Nat := 0
  complexity : Nat := 0
  header : Nat := 0
  rhos : List Nat := []
  carried : List Nat := []
  ages : List (Nat × Nat) := []
  aged : Nat := 0
  truncAt : Nat := 0
  truncN : Nat := 0
  token : Nat := 0
  heads : List HeadUnit := []
  tails : List HeadUnit := []
  fullCtus : List Nat := []
  cutCtus : List Nat := []
  refreshCols : List Nat := []
  edgeCol : Option Nat := none
  slicing : List Nat := []
  saoOff : List Nat := []
  search : Option SearchPic := none
  lead : List SearchPic := []
  frame : FrameState := {}
  edges : List GangEdge := []
  rowsDone : List Nat := []
  handedAt : Option Nat := none
  formed : List CodedUnit := []
  deriving DecidableEq, Repr

/-- Assist data held for one picture or period (R80). -/
structure HeldAssist where
  kind : Nat
  time : Nat
  sequence : Nat
  tag : Nat
  payload : List Byte
  deriving DecidableEq, Repr

/-- An encode stream (R194 to R248). `kBase` is the number of the picture at `firstTick` (R196); `freshRates` asks for the rate state of
a start at the next picture (R574). `restartAt` is the tick of a twin restart to come (R228), `restarted` says that a take-over with RESTART
set has started it and ENCODE_RESTARTED is still to be raised, `rejoin` the earliest
time of the one after the spar link has returned (R459); pictures from `holdAt` on are not taken
while a region of the object is evacuated (R354). `stallLog` lists the gang stalls of
the last second: engine, time, number (R231). `defaulted` pairs the kinds and picture times whose default applies on both halves (R81). `refs` are the pictures it may predict from, newest first (R192), `searches` the pictures searched
since one that searched nothing (R198). -/
structure EncodeSt where
  index : Nat
  run : RunState := .running
  engines : List Nat := []
  load : Nat := 0
  k : Nat := 0
  nextTick : Nat := 0
  firstTick : Nat := 0
  kBase : Nat := 0
  freshRates : Bool := false
  ready : List ReadyPic := []
  pendingBlocks : List Nat := []
  pendingAll : Bool := false
  carried : List Nat := []
  ages : List (Nat × Nat) := []
  rhos : List Nat := []
  firstPicture : Bool := true
  lastTime : Nat := 0
  lastIdr : Option Nat := none
  sweepStart : Nat := 0
  sweepOnce : Bool := false
  refreshWait : List RefreshWait := []
  rateWait : List RateChange := []
  feedbackIdr : Option Nat := none
  absorbedInterval : Nat := 0
  intervalStart : Nat := 0
  twinUsable : Bool := true
  ownCrcs : List (W32 × W32) := []
  partnerCrcs : List (W32 × W32) := []
  rate : RateSt := {}
  counts : EncodeCounts := {}
  plan : Option EncPlan := none
  assists : List HeldAssist := []
  lastCoded : Option Nat := none
  lateWaiting : Bool := false
  restartAt : Option Nat := none
  restarted : Bool := false
  rejoin : Option Nat := none
  holdAt : Option Nat := none
  drainAt : Nat := 0
  refs : List Nat := []
  searches : List SearchPic := []
  stallLog : List (Nat × Nat × Nat) := []
  defaulted : List (Nat × Nat) := []
  frame : FrameState := {}
  /-- the widths of a gang whose boundaries firmware has moved (R211), and whether the record's come back at the next IDR picture -/
  widths : List Nat := []
  autoWidths : Bool := false
  deriving DecidableEq, Repr

/-- An encode cluster: overbooking limit, credit and surge (R239, R240, R254). Credit is in 1/(3 × 10⁹) normalised
pixel-equivalent, accrual in whole ones per second; the limit in tenths; loads in 10⁻⁶ engines. `cache` holds what rung 0 of a ladder has
written for its other rungs: its index, the picture's tick, and its searches (R204). -/
structure EncCluster where
  overbook : Nat := 30
  tier1 : Nat := 0
  declared : Nat := 0
  accrual : Nat := 0
  credit : Int := 0
  creditAt : Nat := 0
  cmax : Int := 0
  lowest : Int := 0
  surging : Bool := false
  surgeStart : Nat := 0
  lastSurge : Option Nat := none
  surgeNow : Nat := 0
  deferNow : Nat := 0
  surgePics : Nat := 0
  deferred : Nat := 0
  aged : Nat := 0
  agedAt : Option Nat := none
  agedNow : Nat := 0
  negativeSince : Option Nat := none
  lastSustained : Option Nat := none
  cache : List (Nat × Nat × List SearchPic) := []
  deriving DecidableEq, Repr

/-- A token bucket (R315): balance in 10⁻⁷ of 1/65,536 byte, rate in 0.1 kb/s, burst in bytes. -/
structure Bucket where
  balance : Int := 0
  since : Nat := 0
  rate : Nat := 0
  burst : Nat := 0
  deriving DecidableEq, Repr

/-- The runtime values of a SHAPER, and its bucket when it is shared (R313 to R319). -/
structure ShaperSt where
  index : Nat
  rate : Nat
  burst : Nat
  latencyLimit : Nat
  bucket : Bucket := {}
  deriving DecidableEq, Repr

/-- How a packet carries its units (R296): one whole unit, several in an aggregation packet or STAP-A, a fragment, or an OBU element with its Z, Y and
N bits. -/
inductive PacketForm where
  | single
  | aggregation (units : Nat)
  | fragment (first last : Bool)
  | obu (z y n : Bool)
  deriving DecidableEq, Repr

/-- A packet of a flow that has not left (R294, R301, R325). `cue` is its cue element; `held` waits for the acknowledgement of
its unit (R457); `counted` says that the guard band has held it once. -/
structure Packet where
  seq : W16
  wire : Nat
  ready : Nat
  picture : Nat
  tick : Nat
  unitFirst : Bool
  pictureLast : Bool
  cue : List Byte := []
  held : Bool := false
  undercoat : Bool := false
  counted : Bool := false
  form : PacketForm := .single
  deriving DecidableEq, Repr

/-- A host release schedule for one picture (R329). -/
structure Schedule where
  picture : Nat
  tick : Nat
  times : List Nat
  spacing : Nat
  sent : Nat := 0
  deriving DecidableEq, Repr

/-- Per-flow counts (QUERY_FLOW of R572). -/
structure FlowCounts where
  packets : Nat := 0
  wireBytes : Nat := 0
  unresolved : Nat := 0
  portDown : Nat := 0
  stranded : Nat := 0
  undercoat : Nat := 0
  moves : Nat := 0
  twinSwitches : Nat := 0
  pli : Nat := 0
  fir : Nat := 0
  nack : Nat := 0
  firRepeats : Nat := 0
  reports : Nat := 0
  highestLoss : Nat := 0
  cumulativeLost : Nat := 0
  unitMark : Nat := 0
  pictureMark : Nat := 0
  deriving DecidableEq, Repr

/-- The path of a flow (QUERY_FLOW of R572). -/
inductive FlowPath where
  | primary
  | secondary
  | standby
  | undercoat
  | stranded
  | stopped
  deriving DecidableEq, Repr

/-- An output flow (R292 to R309, R314 to R331, R457, R458). `sentSeq` is the last sequence number sent. For a flow of the
other half, `copyOf` is its record and `mirror` its mirrored state, as last received. `copies` are the packets of the copy that
a guarded flow does not send. `midPicture` says that a picture has been sent in part. -/
structure FlowSt where
  index : Nat
  run : RunState := .running
  path : FlowPath := .primary
  port : Handle
  ssrc : W32
  nextSeq : W16
  sentSeq : W16
  queue : List Packet := []
  picture : Nat := 0
  pictureOpen : Bool := false
  firstMissingCtu : Nat := 0
  lastTick : Nat := 0
  undercoatPics : Nat := 0
  mirror : Option Mirror := none
  copyOf : Record := []
  cls : Nat := 4
  unresolvedAt : Option Nat := none
  copies : List Packet := []
  copyFrom : HalfId := .east
  bucket : Bucket := {}
  counts : FlowCounts := {}
  firLast : List (W32 × Nat) := []
  announced : Option UnitAnnouncement := none
  acked : Option UnitAnnouncement := none
  reported : Option W16 := none
  cueLeft : Nat := 0
  cueShown : Option Cue := none
  schedules : List Schedule := []
  lastPacingLate : Option Nat := none
  nextReport : Nat := 0
  moveAt : Option Nat := none
  resumeAt : Option Nat := none
  lastSentAt : Nat := 0
  midPicture : Bool := false
  drainAt : Nat := 0
  awaitIdr : Bool := false
  copyMissed : Option Nat := none
  frame : FrameState := {}
  openFrame : FrameState := {}
  sets : List HeadUnit := []
  deriving DecidableEq, Repr

/-- The objects of the running envelope (R57), and the flows of the other half that this half mirrors (R302). -/
structure Objects where
  inputs : List InputSt := []
  decodes : List DecodeSt := []
  surfaces : List SurfaceSt := []
  canvases : List CanvasSt := []
  encodes : List EncodeSt := []
  shapers : List ShaperSt := []
  flows : List FlowSt := []
  foreign : List FlowSt := []
  clusters : List EncCluster := [{}, {}]
  deriving DecidableEq, Repr

/-- The service flags of a unit (R542). -/
structure UnitFlags where
  present : Bool := true
  inService : Bool := true
  quiescing : Bool := false
  retired : Bool := false
  enable : Bool := true
  lateEnable : Bool := false
  deriving DecidableEq, Repr

/-- A trace or history record (R482, R484). -/
structure TraceRec where
  time : Nat
  address : Nat
  next : Nat
  code : Nat
  flags : Nat
  ctu : Nat
  deriving DecidableEq, Repr

/-- The record of a machine check (R476, R484). -/
structure CheckRec where
  time : Nat
  cause : Nat
  address : Nat
  groups : Nat
  deriving DecidableEq, Repr

/-- A microsequencer (R465 to R484). `store` lists the words that differ from the image's own word, each with its
152 bits: data in bits 143 to 0, parity above. -/
structure Sequencer where
  store : List (Nat × BitVec 152) := []
  address : Nat := 0
  stack : List Nat := []
  clocks : Nat := 0
  halt : Bool := false
  suspend : Bool := false
  check : Option CheckRec := none
  history : List TraceRec := []
  reloadSince : Option Nat := none
  deriving DecidableEq, Repr

/-- An engine or pipe: its service, its halt, its work and its sequencer (R220, R100, R177, R437). `current` is the
index of the object whose picture runs; `suspended` the objects whose pictures wait suspended. `lost` lists the encode streams that
restart when the unit resumes, `leaving` the objects that leave a held unit, each with its next picture boundary (R543), `downAt` is when it halted; `toRetire` is the cause of a retirement that waits for its safe point
(R472, R460), 0 for none. -/
structure EngineSt where
  flags : UnitFlags := {}
  halted : Bool := false
  current : Option Nat := none
  suspended : List Nat := []
  nextBulk : Nat := 0
  lost : List Handle := []
  leaving : List (Handle × Nat) := []
  downAt : Nat := 0
  toRetire : Nat := 0
  seq : Sequencer := {}
  deriving DecidableEq, Repr

/-- Link states of a port (R280). -/
inductive LinkState where
  | down
  | adapting
  | up
  | failed
  deriving DecidableEq, Repr

/-- PTP port states this model distinguishes (R287), with the IEEE 1588 codes of QUERY_PORT. -/
inductive PtpPort where
  | disabled
  | listening
  | passive
  | slave
  | master
  deriving DecidableEq, Repr

/-- A gate list in force or armed (R320 to R327). -/
structure GateRun where
  list : Nat
  entries : List (Nat × Nat)
  cycle : Nat
  start : Nat
  cause : Nat := 1
  windowEnd : Nat := 0
  mask : Nat := 255
  deriving DecidableEq, Repr

/-- Per-port counts (QUERY_PORT of R572). -/
structure PortCounts where
  pause : Nat := 0
  sent : Nat := 0
  wireUnits : Nat := 0
  received : Nat := 0
  dropped : Nat := 0
  fecCorrected : Nat := 0
  fecUncorrected : Nat := 0
  deriving DecidableEq, Repr

/-- A network port (R278 to R291, R311 to R327). `since` is when adaptation began, `retryAt` when it begins again; `busyUntil`, in
0.01 ns, ends the frame of the flow `onWire`; `resolved` pairs IP and MAC addresses. -/
structure PortSt where
  flags : UnitFlags := {}
  link : LinkState := .down
  transmitter : Bool := true
  attempts : Nat := 0
  since : Nat := 0
  retryAt : Option Nat := none
  signal : Bool := false
  speed : Nat := 1
  fec : Nat := 0
  v6ReadyAt : Option Nat := none
  conflict : Bool := false
  learnedGateway : Nat := 0
  resolved : List (Nat × Nat) := []
  nextResolve : Nat := 0
  icmpTimes : List Nat := []
  oldQuerier : Bool := false
  busyUntil : Nat := 0
  onWire : Handle := 0
  ptp : PtpPort := .listening
  announce : Option Announce := none
  announceAt : Nat := 0
  syncSentAt : Nat := 0
  announceSentAt : Nat := 0
  backlog : List Nat := List.replicate 8 0
  counts : PortCounts := {}
  gate : Option GateRun := none
  nextGate : Option GateRun := none
  rebase : Option Nat := none
  deriving DecidableEq, Repr

/-- The frozen state of a channel (R363). -/
structure FrozenRec where
  address : Nat
  time : Nat
  cause : Nat
  requester : Nat
  syndrome : Nat
  word : W64
  check : Nat
  refused : Nat := 0
  handled : Bool := false
  deriving DecidableEq, Repr

/-- A queued DRAM request (R345). -/
structure QueuedReq where
  req : DramReq
  arrival : Nat
  late : Bool := false
  deriving DecidableEq, Repr

/-- A row throttle (R349). -/
structure Throttle where
  port : Nat
  bank : Nat
  lastActivate : Nat
  deriving DecidableEq, Repr

/-- One entry of the correction log (R357). -/
structure CorrRec where
  address : Nat
  time : Nat
  syndrome : Nat
  requester : Nat
  deriving DecidableEq, Repr

/-- Per-channel counts (QUERY_CHANNEL of R572). -/
structure ChanCounts where
  corrections : Nat := 0
  refusals : Nat := 0
  holes : Nat := 0
  throttled : Nat := 0
  neighbour : Nat := 0
  late : List Nat := List.replicate 10 0
  deriving DecidableEq, Repr

/-- Scrubber of a channel (R358, R548). -/
structure ScrubSt where
  position : Nat := 0
  started : Nat := 0
  done : Nat := 0
  written : Nat := 0
  lastEnd : Nat := 0
  lap : Nat := 0
  deriving DecidableEq, Repr

/-- Training and retraining of a channel (R350 to R355). `lanes` are the delay taps. -/
structure TrainSt where
  trained : Bool := false
  lanes : List Nat := []
  caDelays : List Nat := []
  retraining : Bool := false
  last : Nat := 0
  lastTemp : Int := 0
  temp : Int := 0
  fails : Nat := 0
  repeatAt : Option Nat := none
  requests : Nat := 0
  asked : Option (Nat × Nat) := none
  runAt : Option Nat := none
  deriving DecidableEq, Repr

/-- An evacuation in progress (R353, R354, R543): regions still to copy with their new places; `halting` are the users of the first of
them with the boundary at which each halts, `copying` says that all have halted;
`purpose` is 0 to retire the channel, 1 for a host hold, 2 to make room for the reserve (R336). -/
structure EvacSt where
  left : List (Nat × Nat × Nat)
  halting : List (Handle × Nat) := []
  copying : Bool := false
  moved : Nat := 0
  shed : Nat := 0
  started : Nat := 0
  purpose : Nat := 0
  deriving DecidableEq, Repr

/-- A DRAM channel controller (R333 to R366). -/
structure ChannelSt where
  flags : UnitFlags := { inService := false }
  frozen : Option FrozenRec := none
  queue : List QueuedReq := []
  pages : List (Nat × Nat × Nat) := []
  interval : Nat := 0
  window : Nat := 32000000
  postponed : Nat := 0
  lastPoll : Nat := 0
  lastRefresh : Nat := 0
  tables : List (Nat × List (Nat × Nat)) := []
  throttles : List Throttle := []
  refBank : Nat := 0
  windowAt : Nat := 0
  rolling : List (Nat × Nat) := []
  train : TrainSt := {}
  corrLog : List CorrRec := []
  corrTimes : List Nat := []
  scrub : ScrubSt := {}
  retiredBlocks : List Nat := []
  evac : Option EvacSt := none
  counts : ChanCounts := {}
  deriving DecidableEq, Repr

/-- A zero-fill in progress, with the accesses that wait for it (R359). -/
structure FillSt where
  block : Nat
  waiting : List (Nat × DramReq)
  deriving DecidableEq, Repr

/-- Where a kind-0 region lies (R338). -/
structure Placement where
  region : Nat
  channel : Nat
  offset : Nat
  size : Nat
  deriving DecidableEq, Repr

/-- A picture written to device memory: packed with its headers (R341, R342), or linear with the pitch of R343. -/
structure StoredPic where
  addr : Nat
  content : Content
  packed : Bool := true
  deriving DecidableEq, Repr

/-- The DRAM space of a half: bytes, valid bits, fills, placements, reserve, BAR4 window (R335 to R340, R549). `pics` are pictures written
later than `data` and not accessed since, the latest first: an access spreads their bytes into `data`. -/
structure DramSt where
  data : Mem := []
  pics : List StoredPic := []
  valid : List Nat := []
  fills : List FillSt := []
  placed : List Placement := []
  reserve : Option (Nat × Nat) := none
  reserveMove : Option (Nat × Nat × Nat × Bool) := none
  bar4Base : W64 := 0
  bar4Size : Nat := 4294967296
  bar4Denied : Nat := 0
  bar4LastEvent : Option Nat := none
  bar4Since : Nat := 0
  deriving DecidableEq, Repr

/-- A hawk pool (R368 to R380). `held` lists the index and the reference count of every buffer in state 1; `head` is the
address of the first free buffer, the rest of the list is threaded through device memory (R371); `old` lists address and
count of held buffers of a former place (R378); `granted` is the buffer granted last. -/
structure PoolSt where
  present : Bool := false
  base : Nat := 0
  count : Nat := 0
  lowWater : Nat := 10
  held : List (Nat × Nat) := []
  head : Nat := 0xFFFFFFFFFFFFFFFF
  cached : List Nat := []
  granted : Nat := 0
  rebuilding : Bool := false
  rebuildSince : Nat := 0
  stopped : Bool := false
  lowRaised : Bool := false
  hostManaged : Bool := false
  hostQueue : List Nat := []
  returnList : List Nat := []
  returning : List Nat := []
  supplyAsked : Option Nat := none
  old : List (Nat × Nat) := []
  allocations : Nat := 0
  releases : Nat := 0
  refused : Nat := 0
  doubleFrees : Nat := 0
  corruption : Nat := 0
  rebuilds : Nat := 0
  lowestFree : Nat := 0
  lastExhausted : Option Nat := none
  refusedSince : Nat := 0
  deriving DecidableEq, Repr

/-- What a DMA channel is doing (R386). -/
inductive DmaPhase where
  | idle
  | fetching
  | rechecking
  | moving
  | writing
  deriving DecidableEq, Repr

/-- A DMA channel (R381 to R391). -/
structure DmaChan where
  chain : W64 := 0
  cur : W64 := 0
  lastDone : W64 := 0
  doneCount : W32 := 0
  enable : Bool := false
  noSnoop : Bool := false
  running : Bool := false
  recheck : Bool := false
  quiescing : Bool := false
  descErr : Bool := false
  busStop : Bool := false
  lateEnable : Bool := false
  chainIgnored : Bool := false
  chainWritten : Bool := false
  stopping : Bool := false
  phase : DmaPhase := .idle
  source : W64 := 0
  dest : W64 := 0
  length : Nat := 0
  control : W32 := 0
  nextDesc : W64 := 0
  outstanding : Nat := 0
  oldestRead : Nat := 0
  stopReadAt : Bool := false
  bytes : Nat := 0
  descriptors : Nat := 0
  errors : Nat := 0
  deriving DecidableEq, Repr

/-- The host DMA engine of a half (R381 to R390). -/
structure DmaSt where
  channels : List DmaChan := List.replicate 32 {}
  errValid : Bool := false
  errCause : Nat := 0
  errDescriptor : Bool := false
  errAddress : W64 := 0
  deriving DecidableEq, Repr

/-- The retention registers of the keel-facing state (R413): threshold, line, claim result and the keel's last ICU_SET write. -/
structure Retained where
  threshold : Int
  line : Bool
  claim : Nat
  set : Nat
  deriving DecidableEq, Repr

/-- The interrupt controller of a half (R398 to R415). -/
structure IcuSt where
  pend : BitVec 512 := 0
  cfg : List W32 := List.replicate 512 0
  groupBits : Nat := 3
  paritySource : Nat := 0
  parityErr : Bool := false
  badParity : List Nat := []
  claimKeel : Nat := 1023
  claimE : Nat := 1023
  claimW : Nat := 1023
  flightE : Option Nat := none
  flightW : Option Nat := none
  threshold : Int := -1
  keelSet : Nat := 0
  asleep : Nat := 0
  sent : BitVec 512 := 0
  retained : Option Retained := none
  delivered : List (Nat × Nat) := []
  claimed : List (Nat × Nat) := []
  spurious : List (Nat × Nat) := []
  deriving DecidableEq, Repr

/-- The PCIe endpoint of a half: link, MSI-X table and pending bits, REG_ERR, HOST_DROPS (R406, R539, R554 to R556). -/
structure PcieSt where
  linkUp : Bool := true
  msixMask : BitVec 256 := BitVec.allOnes 256
  pba : BitVec 256 := 0
  msixAddr : List W64 := List.replicate 256 0
  msixData : List W32 := List.replicate 256 0
  regErr : BitVec 6 := 0
  hostDrops : Nat := 0
  deriving DecidableEq, Repr

/-- One counter block (R416 to R421). -/
structure CtrBlock where
  events : List Nat := List.replicate 8 0
  enable : BitVec 8 := 0
  chain : BitVec 8 := 0
  ovf : BitVec 8 := 0
  values : List W32 := List.replicate 8 0
  deriving DecidableEq, Repr

/-- The counter reel (R425 to R430). -/
structure ReelSt where
  running : Bool := false
  stopped : Bool := false
  sequence : Nat := 0
  skipped : Nat := 0
  skippedSince : Bool := false
  steppedSince : Bool := false
  first : Bool := true
  lastInstant : Nat := 0
  lastTime : Nat := 0
  deriving DecidableEq, Repr

/-- Sequencer trace of the half (R482, R483). -/
structure TraceSt where
  block : Nat
  mode : Nat
  stopAtCheck : Bool
  startAddr : Nat
  stopAddr : Nat
  region : Handle
  offset : Nat
  size : Nat
  recording : Bool
  written : Nat := 0
  dropped : Nat := 0
  deriving DecidableEq, Repr

/-- Counters, reel and trace of a half. -/
structure CounterSt where
  blocks : List CtrBlock := List.replicate 36 {}
  reel : ReelSt := {}
  trace : Option TraceSt := none
  deriving DecidableEq, Repr

/-- A latch of a fault source: source and device time (R440). -/
structure Latch where
  source : Nat
  time : Nat
  deriving DecidableEq, Repr

/-- The fault collector of a half (R434 to R442): `armed` pairs checkers and masks, `decisions` wait for the host (R441); `seen` counts
the latches that firmware has dealt with; `readback` is the start of the last read-back round (R479). -/
structure FaultSt where
  status : W64 := 0
  latches : List Latch := []
  decisions : List Latch := []
  armed : List (Nat × Nat) := []
  seen : Nat := 0
  readback : Option Nat := none
  deriving DecidableEq, Repr

/-- Tether, lead, spar end and take-over of a half (R443 to R459). `takeoverSent` is when TAKEOVER went out, until the flows that wait
for its answer start; `mediaStopped` follows a TAKEOVER received. -/
structure BridleSt where
  tetherRun : Bool := false
  tetherStopped : Bool := false
  tetherStart : Nat := 0
  partnerSeen : Bool := false
  partnerLost : Bool := false
  partnerAbsent : Bool := false
  lead : Bool := false
  fenced : Bool := false
  epoch : W32 := 0
  partnerEpoch : W32 := 0
  hostDecides : Bool := false
  lastCause : Nat := 0
  lastChange : Nat := 0
  outages : Nat := 0
  conflicts : Nat := 0
  deadline : Nat := 0
  deadlineCause : Nat := 0
  sparUp : Bool := false
  downSince : Nat := 0
  unacked : List Nat := []
  crcRun : Nat := 0
  idleAt : Nat := 0
  holdoff : Bool := false
  takeoverSent : Option Nat := none
  partnerStopped : Bool := false
  mediaStopped : Bool := false
  failover : List (Handle × Handle × Handle) := []
  deriving DecidableEq, Repr

/-- The fuse bank of a half (R489). -/
structure Fuses where
  serial : W64 := 0
  keyHash : List (BitVec 256) := [1, 0, 0, 0]
  revocation : BitVec 4 := 0
  counter : Nat := 0
  boardLock : Bool := false
  boardDigest : BitVec 256 := 0
  debugLock : Bool := false
  rail : Bool := true
  deriving DecidableEq, Repr

/-- Identity of the running bundle (R495, R505). -/
structure Bundle where
  generation : Nat := 1
  security : Nat := 0
  keyIndex : Nat := 0
  revokeMask : BitVec 4 := 0
  firmware : Nat := 0
  microcode : List Nat := [0, 0, 0]
  microSecurity : List Nat := [0, 0, 0]
  measurements : List (BitVec 256) := [0, 0, 0, 0]
  members : Nat := 15
  deriving DecidableEq, Repr

/-- What the primer reads out of a board description (R496, R524): the command/address and chip-select taps of its half, 8 for each channel, and the
bytes 82 to 127. -/
structure BoardDesc where
  density : Nat := 2
  ranks : Nat := 2
  rate : Nat := 8533
  caDelays : List Nat := []
  qspiMhz : Nat := 133
  pcieSpread : Bool := false
  ppsFitted : Bool := true
  spreadOff : Bool := false
  io : List Nat := []
  digest : BitVec 256 := 0
  deriving DecidableEq, Repr

/-- The board description that both devices hold at manufacture: 8 Gb dies, 2 ranks, 8533 MT/s, QSPI at 133 MHz, PPS input fitted, outputs at 8 mA and
slew 1, with its CRC (log 5). -/
def boardFactory : List Byte :=
  ([68, 82, 66, 68, 1, 0, 128, 0, 179, 231, 148, 93, 2, 2, 85, 33, 0, 0, 0, 0, 0, 0, 0, 0, 0, 0, 0, 0, 0, 0, 0, 0] ++
    [0, 0, 0, 0, 0, 0, 0, 0, 0, 0, 0, 0, 0, 0, 0, 0, 0, 0, 0, 0, 0, 0, 0, 0, 0, 0, 0, 0, 0, 0, 0, 0] ++
    [0, 0, 0, 0, 0, 0, 0, 0, 0, 0, 0, 0, 0, 0, 0, 0, 133, 2, 0, 0, 11, 11, 11, 8, 0, 0, 0, 0, 11, 8, 11, 11] ++
    [11, 11, 11, 0, 11, 8, 11, 11, 11, 11, 11, 0, 0, 0, 0, 0, 0, 0, 0, 0, 0, 0, 0, 0, 0, 0, 0, 0, 0, 0, 0, 0] : List Nat).map (fun n => BitVec.ofNat 8 n)

/-- A flash slot (R491, R492): a set flag is true here; the board description as bytes (R496). -/
structure Slot where
  written : Bool := true
  verified : Bool := true
  triedE : Bool := false
  triedW : Bool := false
  confirmedE : Bool := true
  confirmedW : Bool := true
  retired : Bool := false
  hold : Bool := false
  bundle : Bundle := {}
  board : List Byte := boardFactory
  staged : Nat := 0
  data : Mem := []
  deriving DecidableEq, Repr

/-- Flash of the package: two slots and the staging in progress (R491, R501). -/
structure Flash where
  slotA : Slot := {}
  slotB : Slot := {}
  staging : Option HalfId := none
  deriving DecidableEq, Repr

/-- Reset and boot of a half (R486 to R502). `cause` holds RESET_CAUSE bits 5 to 0. -/
structure BootSt where
  inReset : Bool := true
  resetAt : Option Nat := none
  resetKind : Nat := 0
  trialResetAt : Option Nat := none
  cause : BitVec 6 := 1
  stage : Nat := 0
  slotB : Bool := false
  trial : Bool := false
  boardOther : Bool := false
  fail : Nat := 0
  security : Nat := 0
  keelStart : Nat := 0
  trialBroken : Bool := false
  bundle : Bundle := {}
  board : BoardDesc := {}
  fuses : Fuses := {}
  deriving DecidableEq, Repr

/-- A clock island (R32 to R34, R521, R530, R531, R535), numbered by its counter block (R416). -/
structure IslandSt where
  celsius : Int := 25
  allowed : Nat := 8
  throttled : Bool := false
  relaxAt : Nat := 0
  step : Nat := 8
  powered : Bool := true
  idleSince : Option Nat := none
  lastTrip : Option Nat := none
  clockHalted : Bool := false
  slowdown : Nat := 0
  gated : Bool := false
  evaluated : Option Nat := none
  deriving DecidableEq, Repr

/-- A transaction on the scrim of a half (R19): the channel it goes to and the routers of its way there. -/
structure ScrimTxn where
  channel : Nat
  req : DramReq
  route : List Nat
  deriving DecidableEq, Repr

/-- The FIFO of the crossing between two islands (R23 to R28): the items of the open reservation, the closed packets in the bank being
filled and in the bank being drained, when space was last freed and a packet last closed, and since when the consumer has stalled. -/
structure FifoSt where
  producer : Nat
  consumer : Nat
  reserved : Option (List Nat) := none
  filling : List (List Nat) := []
  draining : List (List Nat) := []
  halted : Bool := false
  freedAt : Option Nat := none
  landedAt : Option Nat := none
  stalledAt : Option Nat := none
  deriving DecidableEq, Repr

/-- What is under way between the islands of a half: transactions in the order of their issue, and the crossings. -/
structure FabricSt where
  scrim : List ScrimTxn := []
  fifos : List FifoSt := []
  deriving DecidableEq, Repr

/-- Power, temperature and aging of a half (R512 to R535). `life` counts 10⁻⁶ equivalent seconds. -/
structure PowerSt where
  islands : List IslandSt := List.replicate 36 {}
  vreq : Nat := 16
  setpoint : Nat := 5
  vreqAt : Nat := 0
  vreqOld : Nat := 16
  vmon : Bool := false
  brownOut : Bool := false
  shutdown : Bool := false
  shutdownTimes : List Nat := []
  shutIsland : Nat := 0
  shutTemp : Int := 0
  coolSince : Option Nat := none
  life : Nat := 0
  lifeStored : Nat := 0
  lifeSeconds : Nat := 0
  lifeAt : Nat := 0
  agedAt : Nat := 0
  ppsUntil : Nat := 0
  deriving DecidableEq, Repr

/-- Clock states of PTP_STATE (R310). -/
inductive PtpState where
  | freeRunning
  | locking
  | locked
  | holdover
  | grandmaster
  deriving DecidableEq, Repr

/-- The PTP clock of a half (R285 to R291). `slavePort` is a port's handle; `nextSlave` the port that takes SLAVE state at its
next Sync; `delayKnown` says that a path delay has been computed. -/
structure PtpSt where
  state : PtpState := .freeRunning
  slavePort : Option Handle := none
  nextSlave : Option Handle := none
  delayKnown : Bool := false
  lastDelayReq : Option Nat := none
  grandmaster : Nat := 0
  t1 : Option Nat := none
  t2 : Option Nat := none
  t3 : Option Nat := none
  awaitFollowUp : Bool := false
  offset : Int := 0
  delay : Int := 0
  inside : Nat := 0
  everLocked : Bool := false
  steps : Nat := 0
  holdoverSince : Option Nat := none
  holdoverRaised : Bool := false
  utcOffset : Int := 0
  lastPps : Nat := 0
  answered : Bool := true
  deadline : Nat := 0
  deriving DecidableEq, Repr

/-- The RTP header of a packet (R294). -/
structure RtpHeader where
  version : Nat := 2
  padding : Bool := false
  csrcs : Nat := 0
  extension : Bool
  marker : Bool
  payloadType : Nat
  seq : W16
  timestamp : Nat
  ssrc : W32
  deriving DecidableEq, Repr

/-- The headers below it (R278, R292, R307): the destination's MAC address where it is known, the priority and the VLAN of a tag, and the IP and UDP
fields. -/
structure IpHeader where
  mac : Option Nat
  tag : Option (Nat × Nat)
  v6 : Bool
  dscp : Nat
  ttl : Nat
  dontFragment : Bool
  source : Nat
  destination : Nat
  sourcePort : Nat
  destinationPort : Nat
  deriving DecidableEq, Repr

/-- An undercoat picture (R305). HEVC: one P slice without SAO and temporal motion, one reference, every CTU unsplit with cu_skip_flag 1 and merge_idx 0.
H.264: one P slice of skipped macroblocks. AV1: a temporal delimiter and a frame header that shows an existing frame. `timing` says that the
picture-timing SEI message, or the temporal point, goes with it. -/
inductive UndercoatPic where
  | hevc (poc : Nat) (explicitRps : Option (List Int)) (timing : Bool)
  | h264 (frameNum refIdc : Nat) (listModification : Option Nat) (timing : Bool)
  | av1 (slot displayFrameId : Nat) (timing : Bool)
  deriving DecidableEq, Repr

/-- What a half has sent out, as far as the rules name it (assumption log 7). -/
inductive Emit where
  | msix (endpoint : HalfId) (vector : Nat)
  | packet (port : Handle) (flow : Handle) (ip : IpHeader) (rtp : RtpHeader) (time : Nat) (cue : List Byte) (form : PacketForm)
  | undercoatPicture (flow : Handle) (tick : Nat) (pic : UndercoatPic)
  | flatFill (flow : Handle) (firstCtus : List Nat)
  | bye (flow : Handle)
  | senderReport (flow : Handle) (ssrc : W32) (ntp : Int) (rtp : Nat) (cname : List Byte) (to_ : Nat) (port : Nat)
  | receiverReport (input : Handle)
  | feedback (input : Handle) (fir : Bool) (sequence : Nat) (to_ : Nat) (port : Nat) (blocks : Bool) (cname : List Byte) (sender media : W32)
  | arpReply (port : Handle) (ip : Nat)
  | arpRequest (port : Handle) (ip : Nat)
  | neighbourReply (port : Handle) (ip : Nat)
  | neighbourSolicit (port : Handle) (ip : Nat)
  | multicastReport (port : Handle) (group : Nat) (source : Nat) (leave : Bool) (old : Bool)
  | echoReply (port : Handle)
  | ptpSync (port : Handle) (time : Nat)
  | ptpFollowUp (port : Handle)
  | ptpAnnounce (port : Handle)
  | ptpDelayReq (port : Handle) (time : Nat)
  | ptpDelayResp (port : Handle) (time : Nat)
  | ppsPulse (time : Nat)
  | halfStopped (flows : List FlowSeq)
  | takeover
  | stopAck (flows : List FlowSeq)
  | sequenceReport (flow : Handle) (seq : W16)
  | announcement (a : UnitAnnouncement)
  | announcementAck (flow : Handle)
  | mirror (flow : Handle) (m : Mirror)
  | accessUnitCopy (stream : Handle) (unit : AccessUnit)
  | unitCopy (flow : Handle) (seq : W16)
  | twinCrc (stream : Handle) (picture : W32) (crc : W32)
  | refreshRows (channel : Nat) (bank : Nat) (row : Nat) (radius : Nat)
  | refreshManagement (channel : Nat) (bank : Nat)
  | dmaRead (channel : Nat) (address : W64) (length : Nat) (noSnoop : Bool)
  | dmaWrite (channel : Nat) (address : W64) (length : Nat) (noSnoop : Bool)
  | forward (c : Forwarded)
  | surfaceCopy (surface : Handle) (buffer : Nat)
  | scrimError (port : Nat) (address : Nat)
  deriving DecidableEq, Repr

/-- One half of the package. -/
structure Half where
  clk : Clock := {}
  rings : Rings := {}
  ev : Events := {}
  asr : AsrState := {}
  env : EnvStore := {}
  obj : Objects := {}
  enc : List EngineSt := List.replicate 8 {}
  dec : List EngineSt := List.replicate 6 {}
  cmp : List EngineSt := List.replicate 4 {}
  dch : List ChannelSt := List.replicate 4 {}
  net : List PortSt := List.replicate 2 {}
  dram : DramSt := {}
  pools : List PoolSt := List.replicate 16 {}
  dma : DmaSt := {}
  icu : IcuSt := {}
  pcie : PcieSt := {}
  ctr : CounterSt := {}
  flt : FaultSt := {}
  bri : BridleSt := {}
  boot : BootSt := {}
  pwr : PowerSt := {}
  ptp : PtpSt := {}
  fabric : FabricSt := {}
  lastRead : List Byte := []
  out : List Emit := []
  deriving DecidableEq, Repr

/-- The package, the commands that wait for it, and the counter of free values. -/
structure State where
  east : Half
  west : Half
  flash : Flash := {}
  leadPref : HalfId := .east
  porstLow : Bool := false
  sparPhys : Bool := true
  hostMem : Mem := []
  pending : List Instr := []
  free : Nat := 0
  deriving DecidableEq, Repr

/-- The block right after power-on reset: both halves have been reset by PORST_N and their release is the next
thing to happen to them (R486, R487, R497); nothing waits. -/
def State.reset : State := { east := {}, west := {} }

/-- The half a command names. -/
def State.half (s : State) : HalfId → Half
  | .east => s.east
  | .west => s.west

/-- Replace one half. -/
def State.setHalf (s : State) (h : HalfId) (x : Half) : State :=
  match h with
  | .east => { s with east := x }
  | .west => { s with west := x }

end Sys2Proof.Machine
end

