-- ==== Sys2Proof/Machine/Ops.lean ====
section
/-!
DEFINITION. Ops.lean: the named operations every meaning is built from: bytes and sparse memories, the two halves, rings,
completions, events and alarms, the interrupt controller, the fault collector's first-level reaction, and assist entries.
-/
namespace Sys2Proof.Machine

/-- What a meaning answers. -/
abbrev Out := Host.Outcome State Fault Refusal

/-! Bytes and numbers (R5, R6). -/

/-- The low byte of a number. -/
def byte (n : Nat) : Byte := BitVec.ofNat 8 n

/-- `n` bytes of `v`, least significant first (R6). -/
def le : Nat → Nat → List Byte
  | 0, _ => []
  | n + 1, v => byte v :: le n (v / 256)

/-- The number that bytes spell, least significant first (R6). -/
def leVal : List Byte → Nat
  | [] => 0
  | b :: bs => b.toNat + 256 * leVal bs

/-- The `n`-byte field at an offset; bytes beyond the end read as zero. -/
def rd (bs : List Byte) (off n : Nat) : Nat := leVal ((bs.drop off).take n)

/-- A byte list cut or filled with zeros to a length. -/
def pad (n : Nat) (bs : List Byte) : List Byte := bs.take n ++ List.replicate (n - bs.length) 0

/-- 1 for true. -/
def b2n (b : Bool) : Nat := if b then 1 else 0

/-- The two's-complement number of `w` bits. -/
def signed (w n : Nat) : Int := if n < 2 ^ (w - 1) then (n : Int) else (n : Int) - (2 ^ w : Nat)

/-- The low `w` bits of an integer. -/
def unsigned (w : Nat) (i : Int) : Nat := (i % (2 ^ w : Nat)).toNat

/-- A 32-bit saturating increment (R55, R57, R571). -/
def sat32 (n : Nat) : Nat := if n < 0xFFFFFFFF then n + 1 else 0xFFFFFFFF

/-- A 32-bit saturating sum. -/
def satAdd (n k : Nat) : Nat := min (n + k) 0xFFFFFFFF

/-- Packs flags: bit i is the i-th element. -/
def packBits : List Bool → Nat
  | [] => 0
  | b :: bs => b2n b + 2 * packBits bs

/-- One bit set or cleared. -/
def setBit {w : Nat} (v : BitVec w) (n : Nat) (b : Bool) : BitVec w :=
  if b then v ||| (BitVec.ofNat w 1 <<< n) else v &&& ~~~(BitVec.ofNat w 1 <<< n)

/-- The quotient rounded up. -/
def ceilDiv (a b : Nat) : Nat := (a + b - 1) / b

/-- The indices of a bit mask below `n`, ascending. -/
def maskBits (n m : Nat) : List Nat := (List.range n).filter (fun i => m.testBit i)

/-- Inserts into a list kept in the order of `lt`, behind its equals. -/
def insertBy {α : Type} (lt : α → α → Bool) (a : α) : List α → List α
  | [] => [a]
  | b :: bs => if lt a b then a :: b :: bs else b :: insertBy lt a bs

/-- Stable insertion sort. -/
def sortBy {α : Type} (lt : α → α → Bool) : List α → List α
  | [] => []
  | a :: as =>
    let r := sortBy lt as
    match r with
    | [] => [a]
    | b :: bs => if lt b a then b :: insertBy (fun x y => !(lt y x)) a bs else a :: b :: bs

/-- Replaces the elements that satisfy a test. -/
def mapWhere {α : Type} (p : α → Bool) (f : α → α) (l : List α) : List α :=
  l.map (fun a => if p a then f a else a)

/-- Appends unless present. -/
def addNew {α : Type} [BEq α] (a : α) (l : List α) : List α := if l.contains a then l else l ++ [a]

/-- The union of two duplicate-free lists, first list first. -/
def unionNew {α : Type} [BEq α] (l m : List α) : List α := m.foldl (fun acc a => addNew a acc) l

/-- The sum of a list. -/
def total (l : List Nat) : Nat := l.foldl (· + ·) 0

/-- The largest element, 0 for none. -/
def maxOf (l : List Nat) : Nat := l.foldl max 0

/-! Sparse memories (R41, R359): one canonical form. -/

/-- The byte at an address; an unlisted byte reads 0. -/
def memGet : Mem → Nat → Byte
  | [], _ => 0
  | (k, v) :: m, a => if k = a then v else memGet m a

/-- Writes one byte, keeping the canonical form: a zero byte is not listed. -/
def memSet (a : Nat) (b : Byte) : Mem → Mem
  | [] => if b = 0 then [] else [(a, b)]
  | (k, v) :: m =>
    if a < k then (if b = 0 then (k, v) :: m else (a, b) :: (k, v) :: m)
    else if a = k then (if b = 0 then m else (a, b) :: m)
    else (k, v) :: memSet a b m

/-- Writes bytes from an address upwards. -/
def memWrite (a : Nat) : List Byte → Mem → Mem
  | [], m => m
  | b :: bs, m => memWrite (a + 1) bs (memSet a b m)

/-- Writes the bytes whose enables are set. -/
def memWriteEn (a : Nat) : List (Byte × Bool) → Mem → Mem
  | [], m => m
  | (b, e) :: bs, m => memWriteEn (a + 1) bs (if e then memSet a b m else m)

/-- Reads bytes from an address upwards. -/
def memRead (m : Mem) (a : Nat) : Nat → List Byte
  | 0 => []
  | n + 1 => memGet m a :: memRead m (a + 1) n

/-- Every address of the range reads zero afterwards. -/
def memClear (lo hi : Nat) (m : Mem) : Mem := m.filter (fun c => c.1 < lo || hi ≤ c.1)

/-- Addresses above a bound, strictly rising, no zero byte. -/
def memWfFrom : Nat → Mem → Bool
  | _, [] => true
  | lo, (k, v) :: m => lo ≤ k && v != 0 && memWfFrom (k + 1) m

/-- The canonical form of a memory: addresses strictly rising and no entry zero. -/
def Memory.wf (m : Mem) : Bool := memWfFrom 0 m

/-! The two halves. -/

/-- Changes one half. -/
def State.upd (s : State) (h : HalfId) (f : Half → Half) : State := s.setHalf h (f (s.half h))

/-- Device time of a half (R13). -/
def State.now (s : State) (h : HalfId) : Nat := (s.half h).clk.now

/-- Device firmware of the half runs: step 7 of R497 reached and the half not in reset. -/
def Half.alive (x : Half) : Bool := x.boot.stage == 7 && !x.boot.inReset

/-- The spar link carries commands of the half: up at both ends (R21). -/
def State.sparWorks (s : State) : Bool := s.east.bri.sparUp && s.west.bri.sparUp

/-- Adds to what the half has emitted (log 7). -/
def emit (h : HalfId) (m : Emit) (s : State) : State := s.upd h (fun x => { x with out := x.out ++ [m] })

/-- The next free value's number (log 6). -/
def State.tick1 (s : State) : State := { s with free := s.free + 1 }

/-- A handle (R12). -/
def mkHandle (type : Nat) (h : HalfId) (index : Nat) : Handle :=
  BitVec.ofNat 32 (type * 0x1000000 + h.bit * 0x800000 + index)

/-- The parts of a handle (R12). -/
def hType (x : Handle) : Nat := x.toNat / 0x1000000
def hHalf (x : Handle) : HalfId := if x.getLsbD 23 then .west else .east
def hIndex (x : Handle) : Nat := x.toNat % 0x10000
def hReserved (x : Handle) : Nat := x.toNat / 0x10000 % 0x80

/-- The unit handle of a fault source, or 0 (R435, R563). -/
def sourceUnit (h : HalfId) (src : Nat) : Handle :=
  if src < 8 then mkHandle 0x20 h src
  else if src < 14 then mkHandle 0x21 h (src - 8)
  else if src < 18 then mkHandle 0x22 h (src - 14)
  else if src < 22 then mkHandle 0x23 h (src - 18)
  else if src < 26 then mkHandle 0x23 h (src - 22)
  else if src == 34 || src == 35 then mkHandle 0x24 h (src - 34)
  else 0

/-! Counters (R416 to R420). -/

/-- One increment of a counter value: the new value and the wraps carried out. -/
def ctrAdd (v : W32) (n : Nat) : W32 × Nat := (BitVec.ofNat 32 (v.toNat + n), (v.toNat + n) / 0x100000000)

/-- Counts `n` events of a code in counter `i` of a block, chained carries included (R418, R420). -/
def ctrBump (code n i : Nat) (b : CtrBlock) : CtrBlock :=
  if !b.enable.getLsbD i || b.chain.getLsbD i || b.events.getD i 0 != code then b
  else
    let r := ctrAdd (b.values.getD i 0) n
    let b := { b with values := b.values.set i r.1 }
    if r.2 == 0 then b
    else if i % 2 == 0 && b.chain.getLsbD (i + 1) then
      let q := ctrAdd (b.values.getD (i + 1) 0) r.2
      let b := { b with values := b.values.set (i + 1) q.1 }
      if q.2 == 0 then b else { b with ovf := setBit b.ovf (i + 1) true }
    else { b with ovf := setBit b.ovf i true }

/-- The ENABLE bits of a retired unit's counters are forced to 0; the values stay (R423). -/
def counterRetires (blk : Nat) (x : Half) : Half :=
  { x with ctr := { x.ctr with blocks := x.ctr.blocks.modify blk (fun b => { b with enable := 0 }) } }

/-- Counts events of a block. Code 0 counts nothing. -/
def count (blk code n : Nat) (x : Half) : Half :=
  if code == 0 || n == 0 then x
  else { x with ctr := { x.ctr with
    blocks := x.ctr.blocks.modify blk (fun b => (List.range 8).foldl (fun b i => ctrBump code n i b) b) } }

/-! The interrupt controller (R398 to R412). -/

/-- The reserved sources of R398. -/
def icuReserved (n : Nat) : Bool :=
  (102 ≤ n && n ≤ 111) || (184 ≤ n && n ≤ 191) || (50 ≤ n && n ≤ 63) || (242 ≤ n)

/-- The host owns the source's entry (R398). -/
def icuHostOwned (n : Nat) : Bool :=
  (64 ≤ n && n ≤ 94) || n == 97 || n == 98 || n == 100 || n == 101 || n == 135 || (168 ≤ n && n ≤ 183) ||
  (192 ≤ n && n ≤ 255)

/-- The entry as the delivery evaluation reads it: an entry that fails parity delivers to the keel (R415). -/
structure IcuEff where
  enable : Bool
  wake : Bool
  prio : Nat
  target : Nat
  vector : Nat
  deriving DecidableEq, Repr

/-- The fields of an entry (R400), or those of R415 while it fails parity. -/
def icuEff (c : IcuSt) (n : Nat) : IcuEff :=
  if c.badParity.contains n then ⟨true, true, 63, 0, 0⟩
  else
    let e := (c.cfg.getD n 0).toNat
    ⟨e.testBit 0, e.testBit 1, e / 4 % 64, e / 256 % 4, e / 1024 % 256⟩

/-- The group of a priority under GROUP_BITS (R404). -/
def icuGroup (c : IcuSt) (prio : Nat) : Nat := prio / 2 ^ (6 - min c.groupBits 6)

/-- The sub-priority of a priority (R404). -/
def icuSub (c : IcuSt) (prio : Nat) : Nat := prio % 2 ^ (6 - min c.groupBits 6)

/-- Where a source is deliverable to: pending, enabled, and its TARGET. -/
def icuTo (c : IcuSt) (n : Nat) : Option Nat :=
  let e := icuEff c n
  if c.pend.getLsbD n && e.enable then some e.target else none

/-- The keel's interrupt line (R405). -/
def keelLine (c : IcuSt) : Bool :=
  (List.range 512).any (fun n => icuTo c n == some 0 && c.threshold < (icuGroup c (icuEff c n).prio : Int))

/-- A message reaches an endpoint whose link is up: a masked vector holds it as a PBA bit (R406). -/
def msixPost (ep : HalfId) (vec : Nat) (s : State) : State :=
  if (s.half ep).pcie.msixMask.getLsbD vec then
    s.upd ep (fun x => count 33 (if x.pcie.pba.getLsbD vec then 0x14 else 0) 1
      { x with pcie := { x.pcie with pba := setBit x.pcie.pba vec true } })
  else emit ep (.msix ep vec) (s.upd ep (count 33 0x13 1))

/-- The endpoint can issue a message (R406, R555). -/
def endpointUp (s : State) (ep : HalfId) : Bool :=
  (s.half ep).pcie.linkUp && !(s.half ep).boot.inReset

/-- One more in the count of a source (R415). -/
def bumpSource (n : Nat) (l : List (Nat × Nat)) : List (Nat × Nat) :=
  if l.any (fun e => e.1 == n) then mapWhere (fun e => e.1 == n) (fun e => (e.1, sat32 e.2)) l else l ++ [(n, 1)]

/-- The keel wakes: from RETAIN its keel-facing state is restored first (R413). -/
def icuWake (c : IcuSt) : IcuSt :=
  match c.retained with
  | some r => { c with asleep := 0, retained := none, threshold := r.threshold, claimKeel := r.claim, keelSet := r.set }
  | none => { c with asleep := 0 }

/-- A source is deliverable to the keel: it counts when it becomes so, and one with WAKE wakes the keel. -/
def icuToKeel (n : Nat) (c : IcuSt) : IcuSt :=
  let k := { c with sent := setBit c.sent n true, delivered := if c.sent.getLsbD n then c.delivered else bumpSource n c.delivered }
  if (icuEff c n).wake then icuWake k else k

/-- The delivery evaluation of one source (R403 step 4, R405, R406, R410, R411, R413). -/
def icuEval (h : HalfId) (n : Nat) (s : State) : State :=
  let c := (s.half h).icu
  match icuTo c n with
  | none => s.upd h (fun x => { x with icu := { x.icu with sent := setBit x.icu.sent n false } })
  | some 0 =>
    s.upd h (fun x => count 33 (if c.sent.getLsbD n then 0 else 0x10) 1 { x with icu := icuToKeel n x.icu })
  | some t =>
    let ep := if t == 1 then HalfId.east else HalfId.west
    if c.sent.getLsbD n || (ep != h && !s.sparWorks) || !endpointUp s ep then s
    else
      msixPost ep (icuEff c n).vector
        (s.upd h (fun x => count 33 0x10 1 { x with icu := { x.icu with
          sent := setBit x.icu.sent n true, delivered := bumpSource n x.icu.delivered } }))

/-- The evaluation of several sources in one clock: descending priority, then ascending number (R406). -/
def icuEvalAll (h : HalfId) (ns : List Nat) (s : State) : State :=
  let c := (s.half h).icu
  (sortBy (fun a b => (icuEff c b).prio < (icuEff c a).prio) ns).foldl (fun t n => icuEval h n t) s

/-- The sources that are pending. -/
def icuPending (c : IcuSt) : List Nat := (List.range 512).filter (fun n => c.pend.getLsbD n)

/-- Raises a source without the parity check of its entry (R402, R398). -/
def icuRaise0 (h : HalfId) (n : Nat) (s : State) : State :=
  if icuReserved n || (s.half h).boot.inReset then s
  else icuEval h n (s.upd h (fun x => { x with icu := { x.icu with pend := setBit x.icu.pend n true } }))

/-- Withdraws a source (R398, R402). -/
def icuWithdraw (h : HalfId) (n : Nat) (s : State) : State :=
  icuEval h n (s.upd h (fun x => { x with icu := { x.icu with pend := setBit x.icu.pend n false } }))

/-! Rings (R37 to R42). -/

/-- The entries in a ring: (tail − head) modulo 2³² (R38). -/
def ringFill (tail head : W32) : Nat := (tail - head).toNat

/-- The phase bit of the pass that index i lies in: 1 in the first pass (R41). -/
def phaseBit (size : Nat) (tail : W32) : Nat := 1 - tail.toNat / size % 2

/-- Writes a 64-byte entry at the slot of an index. -/
def ringPut (base size : Nat) (tail : W32) (bytes : List Byte) (m : Mem) : Mem :=
  memWrite (base + 64 * (tail.toNat % size)) (pad 64 bytes) m

/-- The completion queue is full (R42). -/
def cplqFull (x : Half) : Bool := Config.cplqSize ≤ ringFill x.rings.cplqTail x.rings.cplqHead

/-- The event queue is full (R42). -/
def evtqFull (x : Half) : Bool := Config.evtqSize ≤ ringFill x.rings.evtqTail x.rings.evtqHead

/-- The assist request ring is full (R42). -/
def asrFull (x : Half) : Bool := Config.asrSize ≤ ringFill x.rings.asrTail x.rings.asrHead

/-! Events and alarms (R52 to R56). -/

/-- An event of the half's present time. -/
def mkEvent (x : Half) (code sev : Nat) (src : Handle) (detail : List Byte) : EventRec :=
  { code := code, severity := sev, source := src, time := x.clk.now, detail := detail }

/-- Severities (R52). -/
def sevInfo : Nat := 0
def sevWarning : Nat := 1
def sevAlarm : Nat := 2

/-- A warning joins its backlog, is coalesced, or is dropped and counted (R56). -/
def putWarning (e : EventRec) (v : Events) : Events :=
  let same := fun (w : EventRec) => w.code == e.code && w.source == e.source
  if v.warnings.any same then
    { v with warnings := mapWhere same (fun w => { w with rep := satAdd w.rep e.rep }) v.warnings
             warnCoalesced := sat32 v.warnCoalesced }
  else if 256 ≤ v.warnings.length then { v with warnDropped := sat32 v.warnDropped, markWarn := true }
  else { v with warnings := v.warnings ++ [e] }

/-- An information event joins its backlog; a full backlog drops its oldest (R56). -/
def putInfo (e : EventRec) (v : Events) : Events :=
  if 512 ≤ v.infos.length then
    { v with infos := v.infos.drop 1 ++ [e], infoDropped := sat32 v.infoDropped, markInfo := true }
  else { v with infos := v.infos ++ [e] }

/-- The bucket refilled to a time (R53); the balance is in 10⁻⁹ token. -/
def evRefill (now : Nat) (v : Events) : Events :=
  { v with balance := min (v.burst * 1000000000) (v.balance + v.rate * (now - v.balanceAt)), balanceAt := now }

/-- A token is there. -/
def evToken (v : Events) : Bool := 1000000000 ≤ v.balance

/-- The 64 bytes of an event entry (R52). -/
def evBytes (e : EventRec) (mark : Bool) (phase : Nat) : List Byte :=
  le 2 e.code ++ le 2 (e.severity + 0x4000 * b2n mark + 0x8000 * phase) ++ le 4 e.source.toNat ++ le 8 e.time ++
  le 4 e.rep ++ le 4 0 ++ pad 40 e.detail

/-- Takes a token and writes one entry to EVTQ (R41, R53, R54). -/
def evWrite (h : HalfId) (e : EventRec) (mark : Bool) (s : State) : State :=
  icuRaise0 h 98 (s.upd h (fun x => count 34 0x11 1
    { x with
      ev := { x.ev with balance := x.ev.balance - 1000000000 }
      rings := { x.rings with
        mem := ringPut Config.evtqBase Config.evtqSize x.rings.evtqTail
          (evBytes e mark (phaseBit Config.evtqSize x.rings.evtqTail)) x.rings.mem
        evtqTail := x.rings.evtqTail + 1 } }))

/-- Two alarms are of the same source (R55): code, handle and latched bit. -/
def alarmSame (a b : AlarmRec) : Bool :=
  a.ev.code == b.ev.code && a.ev.source == b.ev.source && a.slot == b.slot

/-- The alarm takes a record, or coalesces above 192 records; none when it does neither (R55). -/
def alarmPut (a : AlarmRec) (v : Events) : Option Events :=
  if 192 < v.alarms.length && v.alarms.any (alarmSame a) then
    some { v with alarms := mapWhere (alarmSame a) (fun r => { r with ev := { r.ev with rep := satAdd r.ev.rep 1 } })
                              v.alarms
                  alarmCoalesced := sat32 v.alarmCoalesced }
  else if v.alarms.length < 256 then some { v with alarms := v.alarms ++ [a] }
  else none

/-- Counts an alarm in its slot (R55). -/
def alarmCount (slot : Nat) (v : Events) : Events :=
  { v with alarmCounts := v.alarmCounts.set slot (sat32 (v.alarmCounts.getD slot 0)) }

/-- An alarm that found the ring full stands to be written at once (R55), though not before the completion of its command (R48): the next
EVENT_DELIVERY or nanosecond deals with it (log 72). -/
def alarmOverflow (h : HalfId) (e : EventRec) (s : State) : State :=
  s.upd h (fun x => { x with ev := { x.ev with instant := x.ev.instant ++ [e] } })

/-- An alarm that the ring could not take: written when it may be, else only marked (R55). -/
def alarmNow (h : HalfId) (s : State) (e : EventRec) : State :=
  let s := s.upd h (fun x => { x with ev := evRefill x.clk.now x.ev })
  let x := s.half h
  if evToken x.ev && !evtqFull x && x.ev.alarms.all (fun a => a.written) then
    s.upd h (fun x => { x with ev := { x.ev with markAlarm := false } }) |> evWrite h e x.ev.markAlarm
  else s.upd h (fun x => { x with ev := { x.ev with markAlarm := true } })

/-- The alarms that go at once or not at all are dealt with (R55). -/
def instantOut (h : HalfId) (s : State) : State :=
  (s.half h).ev.instant.foldl (alarmNow h) (s.upd h (fun x => { x with ev := { x.ev with instant := [] } }))

/-- An alarm record without the latch of source 48; the Bool says that the ring was full. -/
def alarmRaise0 (h : HalfId) (slot : Nat) (e : EventRec) (s : State) : State × Bool :=
  let s := s.upd h (fun x => { x with ev := alarmCount slot x.ev })
  match alarmPut { ev := e, slot := slot } (s.half h).ev with
  | some v => (s.upd h (fun x => { x with ev := v }), false)
  | none => (alarmOverflow h e s, true)

/-! The fault collector's first level (R434 to R438, R445). -/

/-- The type byte, version, length, handle, CRC and flags of a record (R58). -/
def recType (r : Record) : Nat := rd r 0 1
def recVersion (r : Record) : Nat := rd r 1 1
def recLength (r : Record) : Nat := rd r 2 2
def recHandle (r : Record) : Handle := BitVec.ofNat 32 (rd r 4 4)
def recCrc (r : Record) : Nat := rd r 8 4
def recFlags (r : Record) : Nat := rd r 12 4

/-- The record of a handle. -/
def recOf (rs : List Record) (x : Handle) : Option Record := rs.find? (fun r => recHandle r == x)

/-- The records of the running slot; none after reset (R75). -/
def Half.runningSlot (x : Half) : List Record :=
  match x.env.running with
  | some e => e.records
  | none => []

/-- The records in force: those of the running envelope, and while a take-over is under way those of the pending envelope
for every object that has switched (R70, R73). -/
def Half.running (x : Half) : List Record :=
  match x.env.pend with
  | some p =>
    if p.armed then
      p.records.filter (fun r => !p.left.contains (recHandle r)) ++
      x.runningSlot.filter (fun r => p.left.contains (recHandle r))
    else x.runningSlot
  | none => x.runningSlot

/-- A reaction as R438 lays it out. -/
structure Reaction where
  actions : Nat
  freeze : Nat := 0
  count : Nat := 3
  window : Nat := 600
  decide_ : Nat := 1000
  deriving DecidableEq, Repr

/-- The default reaction of a source (R435). -/
def reactionDefault (src : Nat) : Reaction :=
  if src < 18 then { actions := 15 }
  else if src < 22 then { actions := 7 }
  else if src < 26 then { actions := 15, count := 1 }
  else if src == 26 then { actions := 5 }
  else if src == 31 || src == 37 || src == 49 then { actions := 37 }
  else if src == 32 then { actions := 3 }
  else if src == 33 || src == 48 then { actions := 5 }
  else if src == 38 then { actions := 33 }
  else if src == 39 then { actions := 39 }
  else { actions := 7 }

/-- The reaction in force: the running REACTION record, else the default (R438). -/
def reactionOf (h : HalfId) (x : Half) (src : Nat) : Reaction :=
  let d := reactionDefault src
  match recOf x.running (mkHandle 0x0E h src) with
  | none => d
  | some r =>
    { actions := rd r 18 2 % 64, freeze := rd r 17 1
      count := if rd r 20 1 == 0 then d.count else rd r 20 1
      window := if rd r 22 2 == 0 then 600 else rd r 22 2
      decide_ := if rd r 24 4 == 0 then 1000 else rd r 24 4 }

/-- The last sequence number of a flow whose packet has left the port whole: one still on the wire does not count (R457). -/
def leftSeq (h : HalfId) (x : Half) (f : FlowSt) : W16 :=
  let q := x.net.getD (hIndex f.port) {}
  if hHalf f.port == h && q.onWire == mkHandle 2 h f.index && decide (100 * x.clk.now < q.busyUntil) then f.sentSeq - 1 else f.sentSeq

/-- The sequence numbers HALF_STOPPED and STOP_ACK carry: the last one sent of every flow (R445, R457, R458). -/
def flowSeqs (h : HalfId) (x : Half) : List FlowSeq :=
  x.obj.flows.map (fun f => { flow := mkHandle 2 h f.index, lastSent := leftSeq h x f })

/-- A work item begins at an entry point of the image of its target: 0 encode, 1 decode, 2 composition (R480). -/
def seqStart (target : Nat) (resumed : Bool) (q : Sequencer) : Sequencer :=
  { q with address := Config.imageEntry target (if resumed then 2 else 1) % 4096, stack := [], clocks := 0 }

/-- The island of a counter block is powered and its clock runs (R33, R521). -/
def islandOn (x : Half) (block : Nat) : Bool :=
  let i := x.pwr.islands.getD block {}
  i.powered && !i.clockHalted

/-- A halt request: a running unit halts at its next safe point, an idle unit at once (R437, R472). -/
def haltUnit (e : EngineSt) : EngineSt :=
  match e.current with
  | none => { e with halted := true }
  | some _ => { e with seq := { e.seq with halt := true } }

/-- STOP_TETHER (R445); on a trial boot the reset of R499 follows 10 ms later. -/
def stopTether (h : HalfId) (s : State) : State :=
  let x := s.half h
  if x.bri.tetherStopped then s
  else
    let s := if s.sparWorks then emit h (.halfStopped (flowSeqs h x)) s else s
    let s := s.upd h (fun x =>
      { x with
        bri := { x.bri with tetherRun := false, tetherStopped := true, lead := false, fenced := true }
        enc := x.enc.map haltUnit
        dec := x.dec.map haltUnit
        cmp := x.cmp.map haltUnit
        boot := { x.boot with
          trialResetAt := if x.boot.trial then some (x.clk.now + 10000000) else x.boot.trialResetAt } })
    if x.bri.lead then icuRaise0 h 141 s else s

/-- Freezes a channel; a second error changes nothing (R360). The retrain is abandoned and zero-fills stop (R366). -/
def freezeRec (n : Nat) (f : FrozenRec) (x : Half) : Half :=
  { x with dch := x.dch.modify n (fun c =>
      match c.frozen with
      | some _ => c
      | none => { c with
          frozen := some { f with refused := c.queue.length }
          train := { c.train with retraining := false, repeatAt := none, runAt := none } }) }

/-- The counter block whose error pin a source is (R416, R418 code 7). -/
def pinBlock (src : Nat) : Option Nat :=
  if src < 14 then some src
  else if src < 22 then some (src + 4)
  else if src < 26 then some src
  else match src with
    | 27 => some 26
    | 28 => some 27
    | 29 => some 35
    | 30 => some 32
    | 31 => some 34
    | 32 => some 33
    | 34 => some 28
    | 35 => some 29
    | 36 => some 31
    | _ => none

/-- The bit is set and its time noted (R434, R440). -/
def latchBit (src : Nat) (x : Half) : Half :=
  let x := match pinBlock src with | some b => count b 7 1 x | none => x
  { x with flt := { x.flt with
      status := setBit x.flt.status src true
      latches := x.flt.latches ++ [{ source := src, time := x.clk.now }] } }

/-- The detail of FAULT_LATCHED: the injected mark in byte 0 bit 0 (R437), the source bit, the actions (log 13). -/
def latchDetail (src actions : Nat) (injected : Bool) : List Byte :=
  le 1 (b2n injected) ++ le 1 src ++ le 2 actions

/-- The first-level reaction of a latch (R437): the record, the interrupts, the freeze mask, the tether, and the halt of
the unit of sources 0 to 17. Freezing a channel latches its own source; `fuel` bounds that chain by the four channels. -/
def latchHw : Nat → HalfId → Nat → Bool → State → State
  | 0, _, _, _, s => s
  | fuel + 1, h, src, injected, s =>
    if 50 ≤ src || (s.half h).boot.inReset then s
    else
      let r := reactionOf h (s.half h) src
      let s := s.upd h (latchBit src)
      let p := alarmRaise0 h src (mkEvent (s.half h) 0x0801 sevAlarm (sourceUnit h src)
                (latchDetail src r.actions injected)) s
      let s := p.1
      let s := if r.actions.testBit 1 then icuRaise0 h src s else s
      let s := if r.actions.testBit 2 then icuRaise0 h (192 + src) s else s
      let s := s.upd h (fun x =>
        { x with
          enc := if src < 8 then x.enc.modify src haltUnit else x.enc
          dec := if 8 ≤ src && src < 14 then x.dec.modify (src - 8) haltUnit else x.dec
          cmp := if 14 ≤ src && src < 18 then x.cmp.modify (src - 14) haltUnit else x.cmp
          boot := if x.boot.trial && (src == 31 || src == 37 || src == 49) then
              { x.boot with trialBroken := true, trialResetAt := some (x.clk.now + 10000000) }
            else x.boot })
      let s := if r.actions.testBit 5 then stopTether h s else s
      let s := if p.2 && src != 48 then latchHw fuel h 48 false s else s
      if r.actions.testBit 4 then
        (maskBits 4 r.freeze).foldl (fun t n =>
          if (((t.half h).dch.getD n {}).frozen).isSome then t
          else
            latchHw fuel h (18 + n) false
              (t.upd h (fun x => freezeRec n
                { address := 0, time := x.clk.now, cause := 4, requester := 0, syndrome := 0, word := 0, check := 0 } x))) s
      else s

/-- The checkers of R442 by number; the mask armed on one. -/
def armedMask (x : Half) (checker : Nat) : Nat :=
  match x.flt.armed.find? (fun p => p.1 == checker) with
  | some p => p.2
  | none => 0

/-- Disarms a checker (R442). -/
def disarm (checker : Nat) (x : Half) : Half :=
  { x with flt := { x.flt with armed := x.flt.armed.filter (fun p => p.1 != checker) } }

/-- An alarm event of a block, which latches source 48 when the ring is full (R55). -/
def alarmEvent (h : HalfId) (slot : Nat) (e : EventRec) (s : State) : State :=
  let p := alarmRaise0 h slot e s
  if p.2 then latchHw 6 h 48 false p.1 else p.1

/-- Raises an event (R52 to R56): alarms to the alarm ring, warnings and information to their backlogs. -/
def event (h : HalfId) (code sev : Nat) (src : Handle) (detail : List Byte) (s : State) : State :=
  let e := mkEvent (s.half h) code sev src detail
  if sev == 2 then alarmEvent h 63 e s
  else
    s.upd h (fun x =>
      let v := if sev == 1 then putWarning e x.ev else putInfo e x.ev
      count 34 0x12 (v.warnDropped + v.infoDropped - (x.ev.warnDropped + x.ev.infoDropped)) { x with ev := v })

/-- An entry fails parity: delivered to the keel, source 32, then rewritten by firmware (R415). -/
def icuParityFail (h : HalfId) (n : Nat) (injected : Bool) (s : State) : State :=
  if icuReserved n then s
  else
    let s := s.upd h (fun x => { x with icu := { x.icu with
      badParity := addNew n x.icu.badParity
      paritySource := if x.icu.parityErr then x.icu.paritySource else n
      parityErr := true } })
    let s := icuEval h n s
    let s := latchHw 6 h 32 injected s
    let s := s.upd h (fun x => { x with icu := { x.icu with
      badParity := x.icu.badParity.filter (fun k => k != n)
      cfg := if icuHostOwned n then x.icu.cfg.set n 0 else x.icu.cfg } })
    let s := icuEval h n s
    if icuHostOwned n then event h 0x0830 sevAlarm 0 (le 2 n) s else s

/-- Raises a source; an armed entry-parity checker meets this evaluation (R402, R442 checker 0x1C). -/
def icuRaise (h : HalfId) (n : Nat) (s : State) : State :=
  let s := icuRaise0 h n s
  if armedMask (s.half h) 0x1C == 0 then s
  else icuParityFail h n true (s.upd h (disarm 0x1C))

/-! Completions (R46, R47). -/

/-- Status codes (R51). -/
def stOk : Nat := 0x0000
def stDeferred : Nat := 0x0001
def stBusyDraining : Nat := 0x0002
def stBadOpcode : Nat := 0x0100
def stBadLength : Nat := 0x0101
def stBadField : Nat := 0x0102
def stNoResource : Nat := 0x0103
def stNotLead : Nat := 0x0104
def stInvalid : Nat := 0x0105
def stNotCommitted : Nat := 0x0106
def stFenced : Nat := 0x0107
def stAuthFailed : Nat := 0x0108
def stAdmission : Nat := 0x0109
def stTimePassed : Nat := 0x010A
def stRetired : Nat := 0x010B
def stInternal : Nat := 0x01FF

/-- The 64 bytes of a completion entry (R46). -/
def cplBytes (op : Nat) (e : CmdEntry) (status : Nat) (buffer : Bool) (result : Handle) (time : Nat) (phase : Nat)
    (bytes : List Byte) : List Byte :=
  le 2 op ++ le 2 e.tag.toNat ++ le 2 status ++ le 2 (phase + 2 * b2n buffer) ++ le 4 e.sequence.toNat ++
  le 4 result.toNat ++ le 8 time ++ pad 40 bytes

/-- A completion is written for any status but OK and ACCEPTED_DEFERRED, and for these when it is wanted (R47). -/
def cplWanted (e : CmdEntry) (status : Nat) : Bool := e.flags.getLsbD 1 || (status != stOk && status != stDeferred)

/-- Writes a completion where R47 asks for one, and raises source 97. -/
def complete (h : HalfId) (op : Nat) (e : CmdEntry) (status : Nat) (buffer : Bool) (result : Handle)
    (bytes : List Byte) (s : State) : State :=
  if cplWanted e status then
    icuRaise h 97 (s.upd h (fun x => { x with rings := { x.rings with
      mem := ringPut Config.cplqBase Config.cplqSize x.rings.cplqTail
        (cplBytes op e status buffer result x.clk.now (phaseBit Config.cplqSize x.rings.cplqTail) bytes) x.rings.mem
      cplqTail := x.rings.cplqTail + 1 } }))
  else s

/-- The keel takes the entry at the head of CMDQ (R38, R47); an empty ring withdraws source 96 (R398). -/
def takeEntry (h : HalfId) (s : State) : State :=
  let r := (s.half h).rings
  if r.cmdqHead == r.cmdqTail then s
  else
    let s := s.upd h (fun x => count 34 0x10 1 { x with rings := { x.rings with cmdqHead := x.rings.cmdqHead + 1 } })
    if r.cmdqHead + 1 == r.cmdqTail then icuWithdraw h 96 s else s

/-- The device takes the entry at the head of ASQ (R38); an empty ring withdraws source 99 (R398). -/
def takeAssist (h : HalfId) (s : State) : State :=
  let r := (s.half h).rings
  if r.asqHead == r.asqTail then s
  else
    let s := s.upd h (fun x => { x with rings := { x.rings with asqHead := x.rings.asqHead + 1 } })
    if r.asqHead + 1 == r.asqTail then icuWithdraw h 99 s else s

/-- Host memory the device writes (R559, log 3). -/
def hostWrite (a : Nat) (bytes : List Byte) (s : State) : State := { s with hostMem := memWrite a bytes s.hostMem }

/-! Assist requests and notices (R79 to R82). -/

/-- The 64 bytes of an assist entry (R79). -/
def asrBytes (a : AsrEntry) (phase : Nat) : List Byte :=
  le 2 a.kind ++ le 2 a.tag ++ le 2 phase ++ le 2 0 ++ le 4 a.handle.toNat ++ le 4 a.sequence ++ le 8 a.time ++
  pad 40 a.payload

/-- Writes an entry to ASR and raises source 100. -/
def asrWrite (h : HalfId) (a : AsrEntry) (s : State) : State :=
  icuRaise h 100 (s.upd h (fun x => { x with rings := { x.rings with
    mem := ringPut Config.asrBase Config.asrSize x.rings.asrTail
      (asrBytes a (phaseBit Config.asrSize x.rings.asrTail)) x.rings.mem
    asrTail := x.rings.asrTail + 1 } }))

/-- ASSIST_LATE (R80, R586): cause 1 late, 2 malformed, 3 request not delivered. -/
def assistLate (h : HalfId) (kind tag : Nat) (obj : Handle) (sequence time cause : Nat) (s : State) : State :=
  event h 0x0B01 sevWarning obj (le 2 kind ++ le 2 tag ++ le 4 sequence ++ le 8 time ++ le 1 cause)
    (s.upd h (fun x => count 34 0x13 1 { x with ev := { x.ev with assistLate := sat32 x.ev.assistLate } }))

/-- ASSIST_UNEXPECTED (R80, R586): cause 1 not host-assisted, 2 not in the running envelope. -/
def assistUnexpected (h : HalfId) (kind tag : Nat) (obj : Handle) (cause : Nat) (s : State) : State :=
  event h 0x0B02 sevWarning obj (le 2 kind ++ le 2 tag ++ le 1 cause)
    (s.upd h (fun x => { x with ev := { x.ev with assistUnexpected := sat32 x.ev.assistUnexpected } }))

/-- A notice is never lost: ASR, the 256-entry backlog, or a pending mark (R82). -/
def asrNotice (h : HalfId) (a : AsrEntry) (s : State) : State :=
  let x := s.half h
  if !asrFull x && x.asr.notices.isEmpty && x.asr.marks.isEmpty then asrWrite h a s
  else if x.asr.notices.length < 256 && x.asr.marks.isEmpty then
    s.upd h (fun x => { x with asr := { x.asr with notices := x.asr.notices ++ [a] } })
  else s.upd h (fun x => { x with asr := { x.asr with marks := x.asr.marks ++ [a] } })

/-- A request goes to ASR or waits; one that finds its backlog full stands behind it with its deadline already passed, so that it is
withdrawn and never written (R82). -/
def asrRequest (h : HalfId) (a : AsrEntry) (deadline : Nat) (s : State) : State :=
  let x := s.half h
  if !asrFull x && x.asr.notices.isEmpty && x.asr.marks.isEmpty && x.asr.requests.isEmpty then asrWrite h a s
  else
    let q : AsrRequest := { entry := a, deadline := if (x.asr.requests.filter (fun r => r.deadline != 0)).length < 256 then deadline else 0 }
    s.upd h (fun x => { x with asr := { x.asr with requests := x.asr.requests ++ [q] } })

/-! Bus errors of the host DMA engine (R388, R389). -/

/-- A channel dropped as DISABLE drops it (R388): progress is undefined, given by free values (log 6). -/
def dmaDrop (errStands : Bool) (free : Nat) (c : DmaChan) : DmaChan :=
  { c with
    enable := false, running := false, recheck := false, stopping := false, phase := .idle
    cur := Config.dmaUndefined free, lastDone := Config.dmaUndefined (free + 1)
    bytes := Config.dmaMoved (c.bytes + free) % 0x100000000
    chainWritten := false
    quiescing := c.outstanding != 0 || errStands }

/-- The channels of a list dropped, each with its own free values. -/
def dmaDropAll (free : Nat) : List DmaChan → List DmaChan
  | [] => []
  | c :: cs => { dmaDrop true free c with busStop := true } :: dmaDropAll (free + 2) cs

/-- A bus error stops every channel of the half (R389), raises their sources (R387), source 28 and DMA_BUS_ERROR. -/
def dmaBusFail (h : HalfId) (cause : Nat) (address : W64) (descriptor : Bool) (s : State) : State :=
  let s := s.upd h (fun x => { x with dma := { x.dma with
    channels := dmaDropAll s.free x.dma.channels
    errValid := true, errCause := cause, errDescriptor := descriptor, errAddress := address } })
  let s := { s with free := s.free + 64 }
  let s := (List.range 32).foldl (fun t c => icuRaise h (64 + c) t) s
  let s := latchHw 6 h 28 false s
  event h 0x0610 sevAlarm 0 (le 4 cause ++ le 8 address.toNat ++ le 1 (b2n descriptor)) s

end Sys2Proof.Machine
end

