-- ==== Sys2Proof/Machine/Operands.lean ====
section
/-!
DEFINITION. Operands.lean: the operand forms of the command rows: entry fields, CRC-32C and SHA-256, the acceptance of a
command step by step (R557, R558), and how a command ends.
-/
namespace Sys2Proof.Machine

/-! CRC-32C (R45). -/

/-- One bit of the reflected Castagnoli polynomial. -/
def crcBit (c : Nat) : Nat := if c % 2 == 1 then (c / 2) ^^^ 0x82F63B78 else c / 2

/-- One byte. -/
def crcByte (c : Nat) (b : Byte) : Nat :=
  crcBit (crcBit (crcBit (crcBit (crcBit (crcBit (crcBit (crcBit (c ^^^ b.toNat))))))))

/-- CRC-32C of bytes (R45). -/
def crc32c (bs : List Byte) : Nat := (bs.foldl crcByte 0xFFFFFFFF) ^^^ 0xFFFFFFFF

/-! SHA-256 (FIPS 180-4), which R64 and R490 use. -/

/-- The greatest number under 2^n, at or above r, whose k-th power is at most p, one bit at a time. -/
def rootBits (k p : Nat) : Nat → Nat → Nat
  | 0, r => r
  | n + 1, r => if Nat.ble ((r + 2 ^ n) ^ k) p then rootBits k p n (r + 2 ^ n) else rootBits k p n r

/-- The first 32 bits of the fraction of the k-th root of p (p < 343). -/
def rootWord (k p : Nat) : W32 := BitVec.ofNat 32 (rootBits k (p <<< (32 * k)) 38 0)

/-- The primes under n (n ≤ 361), for which the primes under 19 are divisors enough. -/
def primesBelow (n : Nat) : List Nat :=
  (List.range n).filter (fun p => Nat.ble 2 p && [2, 3, 5, 7, 11, 13, 17].all (fun d => Nat.beq p d || !Nat.beq (p % d) 0))

/-- The words of the rounds: from the cube roots of the first 64 primes. -/
def shaK : List W32 := (primesBelow 312).map (rootWord 3)

/-- The working words at the start: from the square roots of the first 8 primes. -/
def shaInit : List W32 := (primesBelow 20).map (rootWord 2)

/-- The message schedule, newest word first. -/
def shaSched : Nat → List W32 → List W32
  | 0, w => w
  | n + 1, w =>
    let a := w.getD 1 0
    let b := w.getD 14 0
    let s1 := a.rotateRight 17 ^^^ a.rotateRight 19 ^^^ (a >>> 10)
    let s0 := b.rotateRight 7 ^^^ b.rotateRight 18 ^^^ (b >>> 3)
    shaSched n ((s1 + w.getD 6 0 + s0 + w.getD 15 0) :: w)

/-- One round on the eight working words. -/
def shaRound (v : List W32) (kw : W32 × W32) : List W32 :=
  match v with
  | [a, b, c, d, e, f, g, h] =>
    let s1 := e.rotateRight 6 ^^^ e.rotateRight 11 ^^^ e.rotateRight 25
    let ch := (e &&& f) ^^^ (~~~e &&& g)
    let t1 := h + s1 + ch + kw.1 + kw.2
    let s0 := a.rotateRight 2 ^^^ a.rotateRight 13 ^^^ a.rotateRight 22
    let maj := (a &&& b) ^^^ (a &&& c) ^^^ (b &&& c)
    [t1 + (s0 + maj), a, b, c, d + t1, e, f, g]
  | _ => v

/-- Four bytes, most significant first. -/
def beWord (bs : List Byte) (i : Nat) : W32 := BitVec.ofNat 32 (leVal (((bs.drop (4 * i)).take 4).reverse))

/-- One block of 64 bytes. -/
def shaBlock (v : List W32) (block : List Byte) : List W32 :=
  let w := (shaSched 48 ((List.range 16).map (beWord block)).reverse).reverse
  List.zipWith (· + ·) v ((shaK.zip w).foldl shaRound v)

/-- The blocks of a padded message. -/
def shaBlocks : Nat → List W32 → List Byte → List W32
  | 0, v, _ => v
  | n + 1, v, bs => shaBlocks n (shaBlock v (bs.take 64)) (bs.drop 64)

/-- SHA-256 of bytes, a 32-byte string, most significant first. -/
def sha256 (bs : List Byte) : List Byte :=
  let n := (bs.length + 8) / 64 + 1
  let padded := bs ++ byte 0x80 :: List.replicate (64 * n - 9 - bs.length) 0 ++ (le 8 (8 * bs.length)).reverse
  (shaBlocks n shaInit padded).flatMap (fun w => (le 4 w.toNat).reverse)

/-- A digest as a number, most significant byte first. -/
def digestVal (d : List Byte) : BitVec 256 := BitVec.ofNat 256 (leVal d.reverse)

/-- A digest as 32 bytes, most significant first. -/
def digestBytes (d : BitVec 256) : List Byte := (le 32 d.toNat).reverse

/-! Entry fields (R43). -/

/-- The `n`-byte payload field at an entry offset, 16 to 63. -/
def fld (e : CmdEntry) (off n : Nat) : Nat := rd e.payload (off - 16) n

/-- The flags of R43. -/
def isByRef (e : CmdEntry) : Bool := e.flags.getLsbD 0
def isAtTime (e : CmdEntry) : Bool := e.flags.getLsbD 2

/-- The execution time of an at-time command: bytes 56 to 63. -/
def atTimeOf (e : CmdEntry) : Nat := fld e 56 8

/-- A failed check: status, step of R557, offset of the field at fault, result handle, detail from byte 4. -/
structure Fail where
  status : Nat
  step : Nat
  offset : Nat := 0xFFFF
  handle : Handle := 0
  detail : List Byte := []
  deriving DecidableEq, Repr

/-- How a command ends: a failure (with what its failing itself did), a completion, or a completion that comes later. -/
inductive Reply where
  | fail (f : Fail) (s : State)
  | done (status : Nat) (result : List Byte) (handle : Handle) (buffer : Bool) (s : State)
  | wait (s : State)

/-- Completes with OK and result bytes. -/
def Reply.ok (result : List Byte) (s : State) : Reply := .done stOk result 0 false s

/-- Completes with ACCEPTED_DEFERRED and result bytes. -/
def Reply.later (result : List Byte) (s : State) : Reply := .done stDeferred result 0 false s

/-- The handle types an opcode accepts (R561); `unchecked` is ENVELOPE_COMMIT, which does not run step 5 (R557). -/
inductive HandleRule where
  | zero
  | types (l : List Nat)
  | channel
  | any
  | unchecked
  deriving DecidableEq, Repr

/-- A row of the opcode index (R561). `alwaysRef` is FW_STAGE (R562). A buffer whose length stands at `bufAt` holds at least `bufNeed` bytes
(R559); `bufTell` reports the bytes needed (R570, R571). -/
structure OpSpec where
  opcode : Nat
  handle : HandleRule
  minLen : Nat
  atTime : Bool := false
  byRef : Bool := false
  alwaysRef : Bool := false
  bufAt : Nat := 0
  bufNeed : Nat := 0
  bufTell : Bool := false
  deriving DecidableEq, Repr

/-- Type codes above 0x12 but for the unit types of R563 are reserved. -/
def handleTypeOk (t : Nat) : Bool := (1 ≤ t && t ≤ 0x12) || (0x20 ≤ t && t ≤ 0x24)

/-- Step 5: well formed (R12, R563) and of a type the opcode accepts. -/
def handleOk (rule : HandleRule) (x : Handle) : Bool :=
  match rule with
  | .zero => x == 0
  | .types l => hReserved x == 0 && l.contains (hType x)
  | .channel => hReserved x == 0 && hType x == 0x10 && 0xFF00 ≤ hIndex x && hIndex x < 0xFF00 + Config.dramChannels
  | .any => x == 0 || (hReserved x == 0 && handleTypeOk (hType x))
  | .unchecked => true

/-- Step 2 of R557. -/
def checkFlags (o : OpSpec) (e : CmdEntry) : Option Fail :=
  if e.flags.toNat / 8 != 0 || (isAtTime e && !o.atTime) || (isByRef e && !o.byRef) then
    some { status := stBadField, step := 2 }
  else none

/-- Step 3 of R557 (R558): the length of an inline payload, or of a by-reference buffer (R44). A by-reference entry's own payload length (R43) is
not compared with its descriptor's: the descriptor's rules (log 2). -/
def checkLength (o : OpSpec) (e : CmdEntry) : Option Fail :=
  if isByRef e then
    if 0x1000000 < fld e 24 4 then some { status := stBadLength, step := 3, offset := 24 } else none
  else if e.len.toNat < o.minLen || (if isAtTime e then 40 else 48) < e.len.toNat then
    some { status := stBadLength, step := 3 }
  else if o.alwaysRef && 0x1000000 < fld e 24 4 then some { status := stBadLength, step := 3, offset := 24 }
  else if fld e o.bufAt 4 < o.bufNeed then
    some { status := stBadLength, step := 3, offset := o.bufAt, detail := if o.bufTell then le 4 o.bufNeed else [] }
  else none

/-- Step 4 of R557: the fetch and the CRC (R44, R389). -/
def checkFetch (o : OpSpec) (e : CmdEntry) (r : Option RefFetch) : Option Fail :=
  if isByRef e || o.alwaysRef then
    match r with
    | none => none
    | some f =>
      if f.bus == .error then some { status := stBadField, step := 4 }
      else if f.bytes.length != fld e 24 4 || crc32c f.bytes != fld e 28 4 then
        some { status := stBadField, step := 4, offset := 28 }
      else none
  else none

/-- Step 5 of R557. -/
def checkHandle (o : OpSpec) (e : CmdEntry) : Option Fail :=
  if handleOk o.handle e.handle then none else some { status := stBadField, step := 5 }

/-- The first of several checks that fails. -/
def firstFail : List (Option Fail) → Option Fail
  | [] => none
  | some f :: _ => some f
  | none :: cs => firstFail cs

/-- A failure when a condition holds. -/
def failIf (c : Bool) (f : Fail) : Option Fail := if c then some f else none

/-- A step-6 failure naming an offset. -/
def bad6 (c : Bool) (offset : Nat) : Option Fail := failIf c { status := stBadField, step := 6, offset := offset }

/-- Steps 2 to 5. -/
def acceptForm (o : OpSpec) (e : CmdEntry) (r : Option RefFetch) : Option Fail :=
  firstFail [checkFlags o e, checkLength o e, checkFetch o e r, checkHandle o e]

/-- The first byte inside the payload that no field covers and that is not zero (R558, step 6). -/
def reservedByte (e : CmdEntry) (fields : List (Nat × Nat)) : Option Nat :=
  ((List.range (min e.len.toNat 48)).map (· + 16)).find? (fun o =>
    !(fields.any (fun f => f.1 ≤ o && o < f.1 + f.2)) && fld e o 1 != 0)

/-- Step 6 for reserved bytes. -/
def checkReserved (e : CmdEntry) (fields : List (Nat × Nat)) : Option Fail :=
  match reservedByte e fields with
  | none => none
  | some o => some { status := stBadField, step := 6, offset := o }

/-- Step 10 (R50): a given time must be later than the arrival. -/
def checkTime (e : CmdEntry) (now : Nat) : Option Fail :=
  failIf (isAtTime e && atTimeOf e ≤ now) { status := stTimePassed, step := 10, offset := 56 }

/-- Step 8: the handle is in the running envelope of the half. -/
def checkRunning (x : Half) (obj : Handle) : Option Fail :=
  failIf ((recOf x.running obj).isNone) { status := stNotCommitted, step := 8 }

/-- Step 7 for opcodes that need the lead (R451, R561). -/
def checkLead (x : Half) : Option Fail := failIf (!x.bri.lead || x.bri.fenced) { status := stNotLead, step := 7 }

/-- Writes a failing completion (R557); ENVELOPE_COMMIT, whose failure is envelope-wide here, uses the layout of R65. -/
def completeFail (h : HalfId) (op : Nat) (e : CmdEntry) (f : Fail) (s : State) : State :=
  complete h op e f.status false f.handle
    (if op == 0x0204 then le 4 Config.wholePosition else le 2 f.step ++ le 2 f.offset ++ f.detail) s

/-- Runs a checked body, or fails before it. -/
def finish (h : HalfId) (op : Nat) (e : CmdEntry) (r : Reply) : State :=
  match r with
  | .fail f s => completeFail h op e f s
  | .done st bytes obj buffer s => complete h op e st buffer obj bytes s
  | .wait s => s

/-- A replicated SURFACE_UPDATE waits for its copy: the keel completes it before it takes the next command (R47, R182). -/
def copyWaits (x : Half) : Bool := x.obj.surfaces.any (fun q => q.waiting.any (fun u => u.copying.isSome))

/-- The keel may take a command: it runs, CPLQ has room, and the command before has completed (R42, R47). -/
def keelFree (x : Half) : Bool := x.alive && !cplqFull x && !copyWaits x

/-- The keel takes a command and completes it (R42, R47, R557). Nothing happens while it may take none (log 2). -/
def runCmd (h : HalfId) (o : OpSpec) (e : CmdEntry) (r : Option RefFetch) (s : State) (body : State → Reply) : State :=
  if !keelFree (s.half h) then s
  else
    let s := takeEntry h s
    match acceptForm o e r with
    | some f =>
      let s := if f.step == 4 && (r.map (fun q => q.bus)) == some .error then
          dmaBusFail h 1 (BitVec.ofNat 64 (fld e 16 8)) false s else s
      completeFail h o.opcode e f s
    | none => finish h o.opcode e (body s)

/-- The opcodes of the index (R561). -/
def opcodes : List Nat :=
  [0x0101, 0x0102, 0x0103, 0x0104, 0x0201, 0x0202, 0x0203, 0x0204, 0x0205, 0x0206] ++ (List.range 15).map (· + 0x0301) ++
  [0x0401, 0x0402, 0x0403, 0x0410, 0x0420, 0x0421, 0x0430, 0x0431, 0x0432, 0x0501, 0x0510, 0x0520, 0x0521] ++
  [0x0601, 0x0602, 0x0603, 0x0604, 0x0610, 0x0611, 0x0612, 0x0701, 0x0702, 0x0801, 0x0802, 0x0803, 0x0804, 0x0805] ++
  [0x0901, 0x0902, 0x0903, 0x0A01, 0x0A02, 0x0A03, 0x0A04, 0x0A05, 0x0A06, 0x0A07]

/-- The 64 bytes of a command entry, read (R43): opcode, and the other fields. -/
def entryRead (b : List Byte) : Nat × CmdEntry :=
  (rd b 0 2, { tag := BitVec.ofNat 16 (rd b 2 2), len := BitVec.ofNat 16 (rd b 4 2), flags := BitVec.ofNat 16 (rd b 6 2)
               sequence := BitVec.ofNat 32 (rd b 8 4), handle := BitVec.ofNat 32 (rd b 12 4), payload := (b.drop 16).take 48 })

/-- The bytes at the head of CMDQ (R37, R38). -/
def cmdqSlot (x : Half) : List Byte :=
  memRead x.rings.mem (Config.cmdqBase + 64 * (x.rings.cmdqHead.toNat % Config.cmdqSize)) 64

/-- Step 1 of R557: the keel takes an entry whose opcode no row of the index has, an assist kind among them (R558), and completes it with
BAD_OPCODE (R51). A slot that nothing has written since reset is left for the row of its command (log 2). -/
def takeUnknown (h : HalfId) (s : State) : State :=
  let x := s.half h
  let b := cmdqSlot x
  if keelFree x && x.rings.cmdqHead != x.rings.cmdqTail && b.any (fun k => k != 0) && !opcodes.contains (entryRead b).1 then
    completeFail h (entryRead b).1 (entryRead b).2 { status := stBadOpcode, step := 1 } (takeEntry h s)
  else s

/-- A body behind further checks. -/
def guarded (cs : List (Option Fail)) (s : State) (k : State → Reply) : Reply :=
  match firstFail cs with
  | some f => .fail f s
  | none => k s

/-- Writes a host buffer through DMA.x31 and completes (R559, R394): a bus error fails with BAD_FIELD and stops the
half's channels (R389). `after` is what the command clears once the write has succeeded. -/
def replyBuffer (h : HalfId) (address : Nat) (bytes : List Byte) (b : BusResult) (result : List Byte)
    (after : State → State) (s : State) : Reply :=
  match b with
  | .error => .fail { status := stBadField, step := 9 } (dmaBusFail h 1 (BitVec.ofNat 64 address) false s)
  | .ok => .done stOk result 0 true (after (hostWrite address bytes s))

/-! Objects of the running envelope. -/

def Objects.input? (o : Objects) (i : Nat) : Option InputSt := o.inputs.find? (fun a => a.index == i)
def Objects.decode? (o : Objects) (i : Nat) : Option DecodeSt := o.decodes.find? (fun a => a.index == i)
def Objects.surface? (o : Objects) (i : Nat) : Option SurfaceSt := o.surfaces.find? (fun a => a.index == i)
def Objects.canvas? (o : Objects) (i : Nat) : Option CanvasSt := o.canvases.find? (fun a => a.index == i)
def Objects.encode? (o : Objects) (i : Nat) : Option EncodeSt := o.encodes.find? (fun a => a.index == i)
def Objects.shaper? (o : Objects) (i : Nat) : Option ShaperSt := o.shapers.find? (fun a => a.index == i)
def Objects.flow? (o : Objects) (i : Nat) : Option FlowSt := o.flows.find? (fun a => a.index == i)

def updInput (i : Nat) (f : InputSt → InputSt) (x : Half) : Half :=
  { x with obj := { x.obj with inputs := mapWhere (fun a => a.index == i) f x.obj.inputs } }
def updDecode (i : Nat) (f : DecodeSt → DecodeSt) (x : Half) : Half :=
  { x with obj := { x.obj with decodes := mapWhere (fun a => a.index == i) f x.obj.decodes } }
def updSurface (i : Nat) (f : SurfaceSt → SurfaceSt) (x : Half) : Half :=
  { x with obj := { x.obj with surfaces := mapWhere (fun a => a.index == i) f x.obj.surfaces } }
def updCanvas (i : Nat) (f : CanvasSt → CanvasSt) (x : Half) : Half :=
  { x with obj := { x.obj with canvases := mapWhere (fun a => a.index == i) f x.obj.canvases } }
def updEncode (i : Nat) (f : EncodeSt → EncodeSt) (x : Half) : Half :=
  { x with obj := { x.obj with encodes := mapWhere (fun a => a.index == i) f x.obj.encodes } }
def updShaper (i : Nat) (f : ShaperSt → ShaperSt) (x : Half) : Half :=
  { x with obj := { x.obj with shapers := mapWhere (fun a => a.index == i) f x.obj.shapers } }
def updFlow (i : Nat) (f : FlowSt → FlowSt) (x : Half) : Half :=
  { x with obj := { x.obj with flows := mapWhere (fun a => a.index == i) f x.obj.flows } }

/-! Deferred commands and the end of a take-over (R48, R49, R73, R586). -/

/-- DEFERRED_DONE: information, a warning when the final status is not OK; flag bit 0 superseded, bit 1 cancelled. -/
def deferredDone (h : HalfId) (op tag seq : Nat) (obj : Handle) (status flags time : Nat) (s : State) : State :=
  event h 0x0102 (if status == stOk then sevInfo else sevWarning) obj
    (le 2 op ++ le 2 tag ++ le 4 seq ++ le 2 status ++ le 1 flags ++ le 1 0 ++ le 8 time) s

/-- DEFERRED_DONE of a deferred command. -/
def deferredEnd (h : HalfId) (d : Deferred) (status flags : Nat) (s : State) : State :=
  deferredDone h d.opcode d.entry.tag.toNat d.entry.sequence.toNat d.entry.handle status flags (s.now h) s

/-- The flow failover table of a half's records (R447): flow, secondary port, guarded partner. -/
def failoverRows (rs : List Record) : List (Handle × Handle × Handle) :=
  (rs.filter (fun r => recType r == 2)).map (fun r => (recHandle r, BitVec.ofNat 32 (rd r 20 4), BitVec.ofNat 32 (rd r 28 4)))

/-- Each half's copy of the failover table takes the rows of a half at its take-over (R447). -/
def failoverWrite (h : HalfId) (rs : List Record) (s : State) : State :=
  let put := fun (x : Half) => { x with bri := { x.bri with
    failover := x.bri.failover.filter (fun q => hHalf q.1 != h) ++ failoverRows rs } }
  let s := s.upd h put
  if s.sparWorks then s.upd h.other put else s

/-- The pending envelope becomes the running one when the last affected object has switched (R73); a commit that completed with
ACCEPTED_DEFERRED reports DEFERRED_DONE (R49). -/
def takeoverCheck (h : HalfId) (s : State) : State :=
  match (s.half h).env.pend with
  | none => s
  | some p =>
    if p.armed && p.begun && p.left.isEmpty then
      let now := s.now h
      let s := s.upd h (fun x => { x with env := { x.env with
        pend := none
        running := some { records := p.records, takeTime := p.takeTime, switchTime := now, group := p.group } } })
      let s := failoverWrite h p.records s
      let s := event h 0x0201 sevInfo 0 (le 8 p.takeTime ++ le 8 now ++ le 4 p.records.length ++ le 4 p.group.toNat) s
      if p.atTime then deferredDone h 0x0204 p.tag.toNat p.sequence.toNat 0 stOk 0 now s else s
    else s

/-- The take-over that touches an object, when one is pending. -/
def pendTouches (x : Half) (obj : Handle) : Option PendingEnv :=
  match x.env.pend with
  | none => none
  | some p =>
    if p.armed then (if p.left.contains obj then some p else none)
    else if recOf p.records obj != recOf x.runningSlot obj then some p else none

/-- An object has switched: it leaves the list of those still to switch (R70, R73). -/
def leaveTakeover (obj : Handle) (x : Half) : Half :=
  { x with env := { x.env with pend := x.env.pend.map (fun p => { p with left := p.left.filter (fun l => l != obj) }) } }

/-- An armed take-over removes the object, or reconfigures it, at or before a time: pictures from then on are not its own (R70). -/
def pastTakeover (x : Half) (obj : Handle) (t : Nat) : Bool :=
  match pendTouches x obj with
  | some p => p.armed && p.takeTime ≤ t
  | none => false

/-- An armed take-over removes the object at or before a time. -/
def removedAt (x : Half) (obj : Handle) (t : Nat) : Bool :=
  match pendTouches x obj with
  | some p => p.armed && p.takeTime ≤ t && (recOf p.records obj).isNone
  | none => false

/-- A stream has no picture left from before the take-over: none coding, none ready, none in composition for it. -/
def streamIdle (x : Half) (p : PendingEnv) (obj : Handle) : Bool :=
  let src : Handle := BitVec.ofNat 32 (rd ((recOf x.runningSlot obj).getD []) 28 4)
  (x.obj.encode? (hIndex obj)).all (fun e => e.plan.all (fun q => p.takeTime ≤ q.tickTime) && e.ready.all (fun q => p.takeTime ≤ q.tickTime)) &&
  (hType src != 8 || (x.obj.canvas? (hIndex src)).all (fun c => c.jobs.all (fun j => p.takeTime ≤ j.tickTime)))

/-- A removed object has done its last picture from before the take-over (R70). -/
def removalDone (x : Half) (p : PendingEnv) (obj : Handle) : Bool :=
  let i := hIndex obj
  match hType obj with
  | 2 => (x.obj.flow? i).all (fun f => (f.queue.isEmpty || f.path == .standby) && !f.pictureOpen) &&
      streamIdle x p (BitVec.ofNat 32 (rd ((recOf x.runningSlot obj).getD []) 24 4))
  | 4 => (x.obj.decode? i).all (fun d =>
      d.inProgress.isNone && d.waiting.isEmpty && d.ready.all (fun a => p.takeTime ≤ a.presentation))
  | 5 => streamIdle x p obj
  | 8 => (x.obj.canvas? i).all (fun c => c.jobs.isEmpty)
  | 6 | 7 =>
    let r := (recOf x.runningSlot obj).getD []
    (List.range 8).all (fun k => !p.left.contains (BitVec.ofNat 32 (rd r (20 + 4 * k) 4)))
  | 9 => !p.left.contains (BitVec.ofNat 32 (rd ((recOf x.runningSlot obj).getD []) 16 4)) &&
      (recOf p.records (BitVec.ofNat 32 (rd ((recOf x.runningSlot obj).getD []) 16 4))).isNone
  | _ => true

/-- The state of an object goes. -/
def dropObject (obj : Handle) (x : Half) : Half :=
  let i := hIndex obj
  let o := x.obj
  match hType obj with
  | 2 => { x with obj := { o with flows := o.flows.filter (fun a => a.index != i) } }
  | 3 => { x with obj := { o with inputs := o.inputs.filter (fun a => a.index != i) } }
  | 4 => { x with obj := { o with decodes := o.decodes.filter (fun a => a.index != i) } }
  | 5 => { x with obj := { o with encodes := o.encodes.filter (fun a => a.index != i) } }
  | 8 => { x with obj := { o with canvases := o.canvases.filter (fun a => a.index != i) } }
  | 0x0A => { x with obj := { o with surfaces := o.surfaces.filter (fun a => a.index != i) } }
  | 0x0C => { x with obj := { o with shapers := o.shapers.filter (fun a => a.index != i) } }
  | _ => x

/-- Objects that the take-over removes go once they have done their last picture before it (R70). -/
def removeIdle (h : HalfId) (s : State) : State :=
  let x := s.half h
  match x.env.pend with
  | none => s
  | some p =>
    if !p.armed || !p.begun then s
    else
      let gone := p.left.filter (fun l => (recOf p.records l).isNone && removalDone x p l)
      takeoverCheck h (s.upd h (fun x => gone.foldl (fun x l => dropObject l (leaveTakeover l x)) x))

end Sys2Proof.Machine
end

