-- ==== Sys2Proof/Machine/Flags.lean ====
section
/-!
DEFINITION. Flags.lean: every status word computed from the state, as its register lays it out, and what a read of a BAR0
register returns (R537 to R553). No register of the map changes on a read, so reads are functions and no commands.
-/
namespace Sys2Proof.Machine

/-! Counters (R417). -/

/-- CNT_CFG (R417). -/
def cntCfg (b : CtrBlock) (i : Nat) : Nat :=
  b.events.getD i 0 + 0x100 * b2n (b.enable.getLsbD i) + 0x200 * b2n (b.chain.getLsbD i) + 0x400 * b2n (b.ovf.getLsbD i)

/-- CNT_VAL (R417). -/
def cntVal (b : CtrBlock) (i : Nat) : Nat := (b.values.getD i 0).toNat

/-! Units (R542). -/

/-- The service flags of the units of a type, in index order. -/
def unitFlags (x : Half) : UnitKind → List UnitFlags
  | .enc => x.enc.map (fun e => e.flags)
  | .dec => x.dec.map (fun e => e.flags)
  | .cmp => x.cmp.map (fun e => e.flags)
  | .dch => x.dch.map (fun c => c.flags)
  | .net => x.net.map (fun p => p.flags)

/-- UNIT_STATE (R542). -/
def unitState (x : Half) (k : UnitKind) : Nat :=
  let u := unitFlags x k
  packBits (u.map (fun f => f.inService)) + 0x100 * packBits (u.map (fun f => f.quiescing)) +
  0x10000 * packBits (u.map (fun f => f.retired)) +
  0x1000000 * (match k with | .dch => packBits (x.dch.map (fun c => c.frozen.isSome)) | _ => 0)

/-- UNIT_ENABLE (R542): ENABLE reads 0 for a retired unit. -/
def unitEnable (x : Half) (k : UnitKind) : Nat :=
  let u := unitFlags x k
  packBits (u.map (fun f => f.enable && !f.retired)) + 0x100 * packBits (u.map (fun f => f.lateEnable))

/-! Fault, bridle and boot words. -/

/-- BRIDLE_STATUS (R454). -/
def bridleStatus (s : State) (h : HalfId) : Nat :=
  let b := (s.half h).bri
  let pin := (s.half h.other).bri.lead
  packBits [b.lead, b.fenced, b.sparUp, b.tetherRun, b.tetherStopped, b.partnerSeen && !b.partnerLost, pin,
    s.leadPref == .west, b.hostDecides, b.lead && pin && !b.sparUp]

/-- BOOT_STATUS (R500). -/
def bootStatus (b : BootSt) : Nat :=
  b.stage % 16 + packBits [b.slotB, b.trial, b.boardOther] * 16 + b.fail * 0x100 + b.security * 0x10000

/-- RESET_CAUSE (R488). -/
def resetCause (b : BootSt) : Nat := b.cause.toNat

/-! DRAM (R333, R548). -/

/-- Raw bytes of a channel by fit (R333): 0 for a fit not in the table. -/
def rawBytes (density ranks : Nat) : Nat :=
  match density, ranks with
  | 1, 1 => 0x80000000
  | 1, 2 => 0x100000000
  | 2, 1 => 0x100000000
  | 2, 2 => 0x200000000
  | 3, 1 => 0x200000000
  | _, _ => 0

/-- Usable bytes of a channel: seven eighths (R333). -/
def usableBytes (x : Half) : Nat := rawBytes x.boot.board.density x.boot.board.ranks / 8 * 7

/-- The fit is one of R333. -/
def fitOk (b : BoardDesc) : Bool :=
  rawBytes b.density b.ranks != 0 && (b.rate == 6400 || b.rate == 7500 || b.rate == 8533)

/-- The valid bits of a channel: the block numbers of R359 that belong to it. -/
def validOf (x : Half) (n : Nat) : List Nat := x.dram.valid.filter (fun b => b / 131072 == n)

/-- A MODE record of the half selects the host-assisted mode for a function on an object (R30). The body layout is
log 12: function at 16, mode at 17, object handle at 20. -/
def modeHost (x : Half) (function : Nat) (obj : Handle) : Bool :=
  x.running.any (fun r => recType r == 0x0F && rd r 16 1 == function && rd r 17 1 == 1 && rd r 20 4 == obj.toNat)

/-- The functions of R30, in table order (log 12). -/
def fnRate : Nat := 0
def fnMotion : Nat := 1
def fnStencil : Nat := 2
def fnConceal : Nat := 3
def fnPacing : Nat := 4
def fnPool : Nat := 5
def fnPtp : Nat := 6
def fnRetrain : Nat := 7
def fnLead : Nat := 8
def fnReaction : Nat := 9

/-- DCH_STATUS (R548). -/
def dchStatus (h : HalfId) (x : Half) (n : Nat) : Nat :=
  let c := x.dch.getD n {}
  packBits [c.train.trained, c.frozen.isSome, c.flags.retired, c.evac.isSome, c.train.retraining,
    modeHost x fnRetrain (mkHandle 0x10 h (0xFF00 + n))] +
  0x100 * min c.train.fails 4 + 0x10000 * unsigned 8 c.train.temp

/-- The words of a channel status block (R548), by byte offset. -/
def dchWord (h : HalfId) (x : Half) (n off : Nat) : Nat :=
  let c := x.dch.getD n {}
  let q := fun (v : Nat) (o : Nat) => if off == o then v % 0x100000000 else v / 0x100000000
  match off with
  | 0x00 => dchStatus h x n
  | 0x04 => c.counts.corrections
  | 0x08 | 0x0C => q (usableBytes x) 0x08
  | 0x10 | 0x14 => q (match c.frozen with | some f => f.address | none => 0) 0x10
  | 0x18 | 0x1C => q c.scrub.lastEnd 0x18
  | 0x20 => c.scrub.lap
  | 0x24 => c.scrub.done
  | 0x28 => (validOf x n).length
  | _ => 0

/-! DMA (R385, R389). -/

/-- DMA_CTRL (R385). -/
def dmaCtrl (c : DmaChan) : Nat := b2n c.enable + 4 * b2n c.noSnoop

/-- DMA_STATUS (R385). -/
def dmaStatus (c : DmaChan) : Nat :=
  packBits [c.running, c.recheck, c.quiescing] + 0x100 * packBits [c.descErr, c.busStop, c.lateEnable, c.chainIgnored]

/-- DMA_ERR (R389). -/
def dmaErr (d : DmaSt) : Nat := b2n d.errValid + 2 * d.errCause + 16 * b2n d.errDescriptor

/-! Interrupt windows (R404, R407, R551, R552). -/

/-- ICU_SRC_CFG with its parity bit (R400). -/
def icuCfgRead (c : IcuSt) (n : Nat) : Nat := (c.cfg.getD n 0).toNat

/-- Even parity of bits 17 to 0 (R400). -/
def parity18 (v : Nat) : Nat := ((List.range 18).filter (fun i => v.testBit i)).length % 2

/-- ICU_CTRL (R404). -/
def icuCtrl (c : IcuSt) : Nat := c.groupBits + 0x10000 * c.paritySource + 0x80000000 * b2n c.parityErr

/-- A 64-bit word of bits given by a test. -/
def bits64 (p : Nat → Bool) : Nat := packBits ((List.range 64).map p)

/-- TGT_PEND[t][w] (R407). -/
def tgtPend (c : IcuSt) (t w : Nat) : Nat := bits64 (fun b => icuTo c (64 * w + b) == some t)

/-- GRP_SUM[t] (R407). -/
def grpSum (c : IcuSt) (t : Nat) : Nat :=
  bits64 (fun g => (List.range 512).any (fun n => icuTo c n == some t && icuGroup c (icuEff c n).prio == g))

/-- SUB_SUM[t][g] (R407). -/
def subSum (c : IcuSt) (t g : Nat) : Nat :=
  bits64 (fun q => (List.range 512).any (fun n =>
    icuTo c n == some t && icuGroup c (icuEff c n).prio == g && icuSub c (icuEff c n).prio == q))

/-- ICU_CLAIM as an endpoint reads it (R408): the requester's last result, or BUSY with 0x3FF. -/
def icuClaimRead (c : IcuSt) (endpoint : HalfId) : Nat :=
  match endpoint with
  | .east => if c.flightE.isSome then 0x800003FF else c.claimE
  | .west => if c.flightW.isSome then 0x800003FF else c.claimW

/-- A 32-bit half of a 64-bit value, by whether the offset is the upper word. -/
def half32 (v : Nat) (upper : Bool) : Nat := if upper then v / 0x100000000 % 0x100000000 else v % 0x100000000

/-- A word of an interrupt window (R551). -/
def icuWord (c : IcuSt) (endpoint : HalfId) (off : Nat) : Nat :=
  let up := off / 4 % 2 == 1
  if off < 0x800 then icuCfgRead c (off / 4)
  else if off < 0x840 then
    half32 (bits64 (fun b => c.pend.getLsbD (64 * ((off - 0x800) / 8) + b))) up
  else if off == 0x840 then icuCtrl c
  else if off == 0x848 then icuClaimRead c endpoint
  else if 0x900 ≤ off && off < 0x9C0 then half32 (tgtPend c ((off - 0x900) / 0x40) ((off - 0x900) % 0x40 / 8)) up
  else if 0x9C0 ≤ off && off < 0x9D8 then half32 (grpSum c ((off - 0x9C0) / 8)) up
  else if 0x1000 ≤ off && off < 0x1600 then half32 (subSum c ((off - 0x1000) / 0x200) ((off - 0x1000) % 0x200 / 8)) up
  else 0

/-! The BAR0 map (R540 to R553). -/

/-- The counter blocks that are present: all 36 on a DRL-6400 (R416). -/
def blockPresent : Nat := 0xFFFFFFFFF

/-- The running COUNTER_EXPOSURE record. -/
def exposure (h : HalfId) (x : Half) : Option Record := recOf x.running (mkHandle 0x12 h 0)

/-- The user page shows a block (R433). -/
def userShows (h : HalfId) (x : Half) (blk : Nat) : Bool :=
  match exposure h x with
  | none => false
  | some r => (rd r 46 1).testBit 0 && (rd r 16 8).testBit blk

/-- A word of a counter page (R431). -/
def ctrWord (x : Half) (off : Nat) : Nat :=
  let o := off % 0x800
  let b := o / 32
  if 36 ≤ b then 0
  else if off < 0x800 then cntVal (x.ctr.blocks.getD b {}) (o % 32 / 4) else cntCfg (x.ctr.blocks.getD b {}) (o % 32 / 4)

/-- The identity words (R541). -/
def identityWord (h : HalfId) (x : Half) (off : Nat) : Nat :=
  match off with
  | 0x00 => Config.member + 16 * (Config.dieRev % 16) + 0x100 * h.bit + 0x10000 * Config.part
  | 0x08 => x.boot.fuses.serial.toNat % 0x100000000
  | 0x0C => x.boot.fuses.serial.toNat / 0x100000000
  | 0x10 => if x.boot.stage == 7 then x.boot.bundle.firmware % 0x100000000 else 0
  | 0x14 => Config.primerVersion % 0x100000000
  | 0x18 => 2 + 0x100 * Config.encEngines + 0x10000 * Config.decEngines + 0x1000000 * Config.cmpPipes
  | 0x1C => Config.dramChannels + 0x100 * Config.netPorts + 0x10000 * (Config.dmaChannels - 1) + 0x1000000 * 2 +
            0x10000000 * 2
  | 0x20 => blockPresent % 0x100000000
  | 0x24 => blockPresent / 0x100000000
  | 0x28 => x.pcie.regErr.toNat
  | 0x2C => x.pcie.hostDrops
  | _ =>
    if 0x80 ≤ off && off < 0xC0 then
      half32 (bits64 (fun b => !icuReserved (64 * ((off - 0x80) / 8) + b))) (off / 4 % 2 == 1)
    else 0

/-- The ring registers (R545). -/
def ringWord (r : Rings) (off : Nat) : Nat :=
  match off with
  | 0x200 => r.cmdqTail.toNat
  | 0x204 => r.cmdqHead.toNat
  | 0x208 => r.cplqTail.toNat
  | 0x20C => r.cplqHead.toNat
  | 0x210 => r.evtqTail.toNat
  | 0x214 => r.evtqHead.toNat
  | 0x218 => r.asqTail.toNat
  | 0x21C => r.asqHead.toNat
  | 0x220 => r.asrTail.toNat
  | 0x224 => r.asrHead.toNat
  | 0x228 => r.ringErr.toNat
  | _ => 0

/-- A word of a DMA channel block (R550). -/
def dmaWord (c : DmaChan) (off : Nat) : Nat :=
  match off with
  | 0x00 => half32 c.chain.toNat false
  | 0x04 => half32 c.chain.toNat true
  | 0x08 => half32 c.cur.toNat false
  | 0x0C => half32 c.cur.toNat true
  | 0x10 => half32 c.lastDone.toNat false
  | 0x14 => half32 c.lastDone.toNat true
  | 0x1C => c.doneCount.toNat
  | 0x20 => dmaCtrl c
  | 0x24 => dmaStatus c
  | _ => 0

/-- BAR0 answers: all of it from step 6 of R497, only BOOT_STATUS and RESET_CAUSE in the primer or halted in it, nothing
in reset (R497, R547). -/
def bar0Open (b : BootSt) : Bool := !b.inReset && (b.stage == 6 || b.stage == 7)

/-- A 32-bit read of BAR0 at a word offset (R538, R540): an offset that the map does not name reads zero. -/
def bar0Word (s : State) (h : HalfId) (off : Nat) : Nat :=
  let x := s.half h
  if x.boot.inReset then 0
  else if off == 0x310 then resetCause x.boot
  else if off == 0x314 then bootStatus x.boot
  else if !bar0Open x.boot then 0
  else if off < 0x100 then identityWord h x off
  else if off == 0x100 then unitState x .enc
  else if off == 0x104 then unitState x .dec
  else if off == 0x108 then unitState x .cmp
  else if off == 0x10C then unitState x .dch
  else if off == 0x110 then unitState x .net
  else if off == 0x120 then unitEnable x .enc
  else if off == 0x124 then unitEnable x .dec
  else if off == 0x128 then unitEnable x .cmp
  else if off == 0x12C then unitEnable x .dch
  else if off == 0x130 then unitEnable x .net
  else if off < 0x300 then ringWord x.rings off
  else if off == 0x300 then half32 x.flt.status.toNat false
  else if off == 0x304 then half32 x.flt.status.toNat true
  else if off == 0x308 then bridleStatus s h
  else if off == 0x30C then x.bri.epoch.toNat
  else if off < 0x400 then 0
  else if off < 0x500 then dchWord h x ((off - 0x400) / 0x40) ((off - 0x400) % 0x40)
  else if off == 0x500 then half32 x.dram.bar4Base.toNat false
  else if off == 0x504 then half32 x.dram.bar4Base.toNat true
  else if off == 0x508 then half32 x.dram.bar4Size false
  else if off == 0x50C then half32 x.dram.bar4Size true
  else if off == 0x510 then x.dram.bar4Denied
  else if off == 0x800 then dmaErr x.dma
  else if off == 0x808 then half32 x.dma.errAddress.toNat false
  else if off == 0x80C then half32 x.dma.errAddress.toNat true
  else if off < 0x1000 then 0
  else if off < 0x1800 then dmaWord (x.dma.channels.getD ((off - 0x1000) / 0x40) {}) ((off - 0x1000) % 0x40)
  else if off < 0x2000 then 0
  else if off < 0x4000 then icuWord x.icu h (off - 0x2000)
  else if off < 0x6000 then
    if s.sparWorks then icuWord (s.half h.other).icu h (off - 0x4000) else if off == 0x4848 then 0x3FF else 0
  else if off < 0x7000 then ctrWord x (off - 0x6000)
  else if off < 0x8000 then
    if userShows h x ((off - 0x7000) % 0x800 / 32) then ctrWord x (off - 0x7000) else 0
  else if 0xE000 ≤ off && off < 0xF000 then
    let v := (off - 0xE000) / 16
    match (off - 0xE000) % 16 with
    | 0 => half32 (x.pcie.msixAddr.getD v 0).toNat false
    | 4 => half32 (x.pcie.msixAddr.getD v 0).toNat true
    | 8 => (x.pcie.msixData.getD v 0).toNat
    | _ => b2n (x.pcie.msixMask.getLsbD v)
  else if 0xF000 ≤ off && off < 0xF020 then x.pcie.pba.toNat / 2 ^ (8 * (off - 0xF000)) % 0x100000000
  else 0

end Sys2Proof.Machine
end

