-- ==== Sys2Proof/Machine/Clock.lean ====
section
/-!
DEFINITION. Clock.lean: the passing of device time (R13, R285, R289). On an empty queue one step of the block is one
nanosecond of both counters (assumption log 1).
-/
namespace Sys2Proof.Machine

/-- 10⁻¹² ns steps in one ns. -/
def nsUnit : Nat := 1000000000000

/-- What one ns slews at most: 100 ppm (R289). -/
def slewStep (slew : Int) : Int := max (-100000000) (min 100000000 slew)

/-- One ns of a counter: the frequency adjustment (0.001 ppb is one unit per ns) and the slew in progress. -/
def clockTick (c : Clock) : Clock :=
  let d := slewStep c.slew
  let sum := ((nsUnit : Int) + c.freqAdj + (c.frac : Int) + d).toNat
  { c with now := (c.now + sum / nsUnit) % 2 ^ 64, frac := sum % nsUnit, slew := c.slew - d }

/-- The keel has served what it claimed, and its threshold is restored (R405); it sleeps while nothing waits: RETAIN only while no envelope runs, with its
state in the retention registers (R413, R414). -/
def keelIdle (x : Half) : Half :=
  if x.alive && x.rings.cmdqHead == x.rings.cmdqTail then
    let c := { x.icu with threshold := -1 }
    { x with icu :=
      if x.env.running.isSome then { c with asleep := 1 }
      else if c.retained.isSome then { c with asleep := 2 }
      else { c with asleep := 2, retained := some { threshold := c.threshold, line := keelLine c, claim := c.claimKeel, set := c.keelSet } } }
  else x

/-- One ns with no command waiting. PORST_N low holds both counters at 0 (R285). -/
def deviceTick (s : State) : State :=
  if s.porstLow then s
  else
    let f := fun (x : Half) => keelIdle { x with clk := clockTick x.clk }
    { s with east := f s.east, west := f s.west }

end Sys2Proof.Machine
end

