-- ==== Sys2Proof/Machine/Pixels.lean ====
section
/-!
DEFINITION. Pixels.lean: the internal word (R16, R17) and the arithmetic of the composition pipeline on it: filters (R166), surface samples
(R158), colour conversion and tone map (R167, R168), alpha and blending (R169). Values are integers that an 18-bit word holds, on the 14-bit
scale. The intermediate results are not normative (R165): what the spec leaves open of them is in log 86.
-/
namespace Sys2Proof.Machine

/-! The internal word (R16, R17). -/

/-- The 18-bit two's-complement word that carries a sample or an intermediate value. -/
abbrev SampleWord := BitVec 18

/-- n / d to the nearest whole number, ties upward. -/
def roundUp (n : Int) (d : Nat) : Int := (2 * n + d) / (2 * d : Nat)

/-- A sample of a bit depth enters a pipeline on the 14-bit scale (R16). -/
def wordIn (depth v : Nat) : SampleWord := BitVec.ofNat 18 (v * 2 ^ (14 - depth))

/-- A value n / d of a non-normative stage, in units of the 14-bit scale, is stored in the word (R16). -/
def wordStored (n : Int) (d : Nat) : SampleWord := BitVec.ofInt 18 (roundUp n d)

/-- A word leaves a pipeline at a bit depth: rounded, then clipped (R17). -/
def wordOut (depth : Nat) (w : SampleWord) : Nat := (max 0 (min ((2 ^ depth : Nat) - 1 : Int) (roundUp w.toInt (2 ^ (14 - depth))))).toNat

/-- The value of a stored word. -/
def stored (n : Int) (d : Nat) : Int := (wordStored n d).toInt

/-- The sum of integers. -/
def sumInt (l : List Int) : Int := l.foldl (· + ·) 0

/-! Filters (R166). -/

/-- The eight taps of a filter at a phase: signed 10-bit values that sum to 512. The values themselves are free (log 11). -/
def filterTaps (f p : Nat) : List Int :=
  let raw := (List.range 8).map (fun k => Config.filterTap f p k)
  if raw.all (fun v => -512 ≤ v && v ≤ 511) && sumInt raw == 512 then raw else [0, 0, 0, 256, 256, 0, 0, 0]

/-- The sample that a tap reads beyond the ends of a line of n samples is one of the line; which one is free (log 86). -/
def inLine (n : Nat) (i : Int) : Nat := if 0 ≤ i && i < n then i.toNat else Config.edgePlace n i % max 1 n

/-- A line filtered at a position in 1/64 sample. -/
def filtered (f n : Nat) (line : Nat → Int) (pos : Int) : Int :=
  stored (sumInt ((filterTaps f (pos % 64).toNat).zipIdx.map (fun t => t.1 * line (inLine n (pos / 64 - 3 + (t.2 : Int)))))) 512

/-- Where sample i of dw lies on a line of rw, in 1/64 sample: the samples' centres on one scale; which way it rounds is free (log 86). -/
def scaledPos (rw dw i : Nat) : Int := ((2 * i + 1) * rw * 32 / dw : Nat) - 32 + (if Config.phaseUp rw dw i then 1 else 0)

/-- One axis scaled from rw to dw samples (R166): filter 3 takes the nearest sample; below 1/2, 2:1 box stages halve the axis first; a 1:1 axis
passes unchanged. -/
def scaleLine (f : Nat) : Nat → Nat → Nat → (Nat → Int) → Nat → Int
  | 0, rw, _, line, i => line (inLine rw i)
  | k + 1, rw, dw, line, i =>
    if f == 3 then line (min (rw - 1) ((2 * i + 1) * rw / (2 * dw)))
    else if 2 * dw < rw then scaleLine f k (ceilDiv rw 2) dw (fun j => stored (line (2 * j) + line (inLine rw (2 * j + 1))) 2) i
    else if rw == dw then line i
    else filtered f rw line (scaledPos rw dw i)

/-- A plane scaled on both axes, across first (log 86). The ratio is at least 1/8, so that three halvings suffice (R156). -/
def scalePlane (f rw rh dw dh : Nat) (at_ : Nat → Nat → Int) (x y : Nat) : Int :=
  scaleLine f 4 rh dh (fun j => scaleLine f 4 rw dw (fun i => at_ i j) x) y

/-- Half a chroma sample's offset from the first luma sample, in 1/64 chroma sample, across and down, by chroma sample location type. -/
def sitingX (loc : Nat) : Int := if loc % 2 == 1 then 16 else 0
def sitingY (loc : Nat) : Int := if loc < 2 then 16 else if loc < 4 then 0 else 32

/-- Chroma at full size (R165 stage 3, R166): filter 0, with the source's chroma sample location. -/
def upsampled (w hgt subX subY loc : Nat) (at_ : Nat → Nat → Int) (x y : Nat) : Int :=
  let column := fun (j : Nat) => if subY == 1 then at_ j y else filtered 0 hgt (fun k => at_ j k) (32 * (y : Int) - sitingY loc)
  if subX == 1 then column x else filtered 0 w column (32 * (x : Int) - sitingX loc)

/-! Colour (R158, R167). Normalised values have 2³² for 1.0. -/

/-- What a colour is described by (R114, R167): H.273 primaries, transfer and matrix, full range, and the bit depth of its code values. -/
structure Colour where
  primaries : Nat
  transfer : Nat
  matrix : Nat
  full : Bool
  depth : Nat
  deriving DecidableEq, Repr

/-- Three components. -/
structure Pixel where
  a : Int
  b : Int
  c : Int
  deriving DecidableEq, Repr

def unit : Int := 0x100000000

/-- The colour of a CANVAS or SURFACE colour field (R152, R157). -/
def colourField (v : Nat) (full : Bool) (depth : Nat) : Colour :=
  match v with
  | 0 => { primaries := 1, transfer := 1, matrix := 1, full := full, depth := depth }
  | 1 => { primaries := 9, transfer := 14, matrix := 9, full := full, depth := depth }
  | 2 => { primaries := 9, transfer := 16, matrix := 9, full := full, depth := depth }
  | _ => { primaries := 9, transfer := 18, matrix := 9, full := full, depth := depth }

/-- A source description that the pipe converts (R167). -/
def colourTaken (c : Colour) : Bool :=
  [1, 9].contains c.primaries && [1, 5, 6, 9].contains c.matrix && [1, 6, 14, 15, 16, 18].contains c.transfer

/-- 0 SDR, 1 PQ, 2 HLG. -/
def transferKind (t : Nat) : Nat := if t == 16 then 1 else if t == 18 then 2 else 0

/-- Kr and Kb of a matrix, in 1/10,000 (H.273, PRESUMED: log 86). -/
def matrixK (m : Nat) : Int × Int := if m == 9 then (2627, 593) else if m == 1 then (2126, 722) else (2990, 1140)

/-- The word of black and of the span from 0 to 1.0, of luma and chroma (H.273, log 86). -/
def lumaSpan (c : Colour) : Int × Int :=
  if c.full then (0, ((2 ^ c.depth - 1) * 2 ^ (14 - c.depth) : Nat)) else (16 * 64, 219 * 64)
def chromaSpan (c : Colour) : Int × Int :=
  if c.full then (8192, ((2 ^ c.depth - 1) * 2 ^ (14 - c.depth) : Nat)) else (8192, 224 * 64)

/-- R′G′B′ of Y′CbCr words. -/
def toRgb (c : Colour) (p : Pixel) : Pixel :=
  let k := matrixK c.matrix
  let y := (p.a - (lumaSpan c).1) * unit / (lumaSpan c).2
  let cb := (p.b - (chromaSpan c).1) * unit / (chromaSpan c).2
  let cr := (p.c - (chromaSpan c).1) * unit / (chromaSpan c).2
  let r := y + 2 * (10000 - k.1) * cr / 10000
  let b := y + 2 * (10000 - k.2) * cb / 10000
  { a := r, b := (10000 * y - k.1 * r - k.2 * b) / (10000 - k.1 - k.2), c := b }

/-- Y′CbCr words of R′G′B′. -/
def fromRgb (c : Colour) (p : Pixel) : Pixel :=
  let k := matrixK c.matrix
  let y := (k.1 * p.a + (10000 - k.1 - k.2) * p.b + k.2 * p.c) / 10000
  let cb := (p.c - y) * 10000 / (2 * (10000 - k.2))
  let cr := (p.a - y) * 10000 / (2 * (10000 - k.1))
  { a := stored (y * (lumaSpan c).2 + (lumaSpan c).1 * unit) unit.toNat
    b := stored (cb * (chromaSpan c).2 + (chromaSpan c).1 * unit) unit.toNat
    c := stored (cr * (chromaSpan c).2 + (chromaSpan c).1 * unit) unit.toNat }

/-- The largest k-th root below a number, of at most n bits. -/
def rootNat (k n v : Nat) : Nat := (List.range n).reverse.foldl (fun r b => if (r + 2 ^ b) ^ k ≤ v then r + 2 ^ b else r) 0

/-- Linear light of a component, 1.0 at reference white (R167): SDR a power of 2.4; PQ and HLG by their standards, whose curves the spec does not
list (log 9), with 203 cd/m² at 1.0 (R168). -/
def toLight (kind : Nat) (e : Int) : Int :=
  let v := e.toNat
  if kind == 0 then (rootNat 5 40 (v ^ 12 / unit.toNat ^ 7) : Nat) else Config.toLight kind e

/-- The component of linear light. -/
def fromLight (kind : Nat) (v : Int) : Int :=
  if kind == 0 then (rootNat 12 40 (v.toNat ^ 5 * unit.toNat ^ 7) : Nat) else Config.fromLight kind v

/-- The 3 × 3 matrix of ITU-R BT.2087 from BT.709 to BT.2020 primaries, in 1/10,000 (PRESUMED from the recommendation: log 86). -/
def bt2087 : List (List Int) := [[6274, 3293, 433], [691, 9195, 114], [164, 880, 8956]]

/-- A row times a pixel. -/
def rowTimes (r : List Int) (p : Pixel) : Int := r.getD 0 0 * p.a + r.getD 1 0 * p.b + r.getD 2 0 * p.c

/-- The minor of the matrix that belongs to row i and column j of its adjugate. -/
def adjugate (m : List (List Int)) (i j : Nat) : Int :=
  let e := fun (r c : Nat) => (m.getD (r % 3) []).getD (c % 3) 0
  e (j + 1) (i + 1) * e (j + 2) (i + 2) - e (j + 1) (i + 2) * e (j + 2) (i + 1)

/-- Primaries converted in linear light (R167): by the matrix, or by its inverse. -/
def convertPrimaries (src dst : Nat) (p : Pixel) : Pixel :=
  if src == dst then p
  else if src == 1 then
    { a := rowTimes (bt2087.getD 0 []) p / 10000, b := rowTimes (bt2087.getD 1 []) p / 10000, c := rowTimes (bt2087.getD 2 []) p / 10000 }
  else
    let det := rowTimes (bt2087.getD 0 []) { a := adjugate bt2087 0 0, b := adjugate bt2087 1 0, c := adjugate bt2087 2 0 }
    let row := fun (i : Nat) => 10000 * rowTimes [adjugate bt2087 i 0, adjugate bt2087 i 1, adjugate bt2087 i 2] p / det
    { a := row 0, b := row 1, c := row 2 }

/-- The static curve of R168: x up to 0.75, then 0.75 + 0.25 × (x − 0.75) / (x − 0.5). -/
def toneCurve (x : Int) : Int := if 4 * x ≤ 3 * unit then x else 3 * unit / 4 + (x - 3 * unit / 4) * unit / (4 * (x - unit / 2))

/-- The brightest value of a target: SDR 1.0, PQ 10,000 and HLG 1,000 cd/m², 203 cd/m² being 1.0 (R167, R168). -/
def lightTop (kind : Nat) : Int := if kind == 0 then unit else if kind == 1 then unit * 10000 / 203 else unit * 1000 / 203

/-- A linear component on its way to the target: tone-mapped where an HDR source goes to SDR, unless the layer asks for clipping (R168), and clipped
to the target gamut (R167). -/
def targetLight (src dst : Nat) (clip : Bool) (v : Int) : Int :=
  let v := max 0 v
  let v := if src != 0 && dst == 0 && !clip then toneCurve v else v
  min (lightTop dst) v

/-- Colour conversion (R167, R168): nothing for a source of the canvas's own colour; matrix and range alone where primaries and transfer match; else
through linear light. -/
def convertColour (src dst : Colour) (own clip : Bool) (p : Pixel) : Pixel :=
  if own then p
  else
    let ks := transferKind src.transfer
    let kd := transferKind dst.transfer
    let rgb := toRgb src p
    if src.primaries == dst.primaries && ks == kd then fromRgb dst rgb
    else
      let q := convertPrimaries src.primaries dst.primaries { a := toLight ks rgb.a, b := toLight ks rgb.b, c := toLight ks rgb.c }
      let out := fun (v : Int) => fromLight kd (targetLight ks kd clip v)
      fromRgb dst { a := out q.a, b := out q.b, c := out q.c }

/-! Alpha and blending (R169). -/

/-- ⌊n / d + ½⌋. -/
def halfUp (n : Int) (d : Nat) : Int := (2 * n + d) / (2 * d : Nat)

/-- Per-pixel alpha on the 4,096 scale. -/
def alpha8 (v : Nat) : Int := halfUp (v * 4096 : Nat) 255
def alpha2 (v : Nat) : Int := halfUp (v * 4096 : Nat) 3

/-- The effective alpha. -/
def effectiveAlpha (alpha globalAlpha : Int) : Int := halfUp (alpha * globalAlpha) 4096

/-- A pixel's Y′ value and its Cb and Cr relative to their mid value, scaled by n / 4,096 (R169). -/
def scaledPixel (n : Int) (p : Pixel) : Pixel :=
  { a := stored (p.a * n) 4096, b := stored ((p.b - 8192) * n) 4096, c := stored ((p.c - 8192) * n) 4096 }

/-- C = Cs + ⌊Cd × (4,096 − αe) / 4,096 + ½⌋, with chroma relative to its mid value; `src` is premultiplied and relative already. -/
def blendPixel (src : Pixel) (alpha : Int) (below : Pixel) : Pixel :=
  let mix := fun (s d : Int) => (BitVec.ofInt 18 (s + halfUp (d * (4096 - alpha)) 4096)).toInt
  { a := mix src.a below.a, b := mix src.b (below.b - 8192) + 8192, c := mix src.c (below.c - 8192) + 8192 }

/-! Surface samples (R158). -/

def sfYuvCode (f : Nat) : Bool := f < 4
def sfDepth (f : Nat) : Nat := if f == 2 || f == 3 || f == 0x11 then 10 else 8
def sfChroma (f : Nat) : Nat := if f == 3 then 2 else 1

/-- A number in the bytes of a surface. -/
def sfNum (m : Mem) (a n : Nat) : Nat := leVal (memRead m a n)

/-- A plane sample of a Y′CbCr surface, as a word. -/
def sfPlane (f pitch height : Nat) (m : Mem) (base c x y : Nat) : Int :=
  let n := if sfDepth f == 8 then 1 else 2
  let a := if c == 0 then base + y * pitch + n * x else base + pitch * height + y * pitch + n * (2 * x + (c - 1))
  (wordIn (sfDepth f) (if n == 1 then sfNum m a 1 else sfNum m a 2 / 64)).toInt

/-- The R′G′B′ code values and alpha of a pixel. -/
def sfRgb (f pitch : Nat) (m : Mem) (base x y : Nat) : Nat × Nat × Nat × Int :=
  let w := sfNum m (base + y * pitch + 4 * x) 4
  if f == 0x10 then (w / 0x10000 % 256, w / 256 % 256, w % 256, alpha8 (w / 0x1000000))
  else (w % 1024, w / 1024 % 1024, w / 0x100000 % 1024, alpha2 (w / 0x40000000))

/-- R′G′B′ code values as Y′CbCr of a colour (R158). -/
def rgbPixel (c : Colour) (v : Nat × Nat × Nat × Int) : Pixel :=
  let e := fun (n : Nat) => (((n * 2 ^ (14 - c.depth) : Nat) : Int) - (lumaSpan c).1) * unit / (lumaSpan c).2
  fromRgb c { a := e v.1, b := e v.2.1, c := e v.2.2.1 }

end Sys2Proof.Machine
end

