-- ==== Sys2Proof/Machine/Samples.lean ====
section
/-!
DEFINITION. Samples.lean: the samples that a picture holds (R18, R126, R127, R134, R165), and how pictures lie in
device memory: packed with their headers (R341, R342), and linear (R343). Samples are read from a picture's description one by one, so that a
picture is plain data of small size.
-/
namespace Sys2Proof.Machine

/-! Planes. Plane 0 is luma, 1 and 2 are Cb and Cr. -/

/-- Luma samples per sample of a plane, across and down. -/
def PicFormat.subX (f : PicFormat) (c : Nat) : Nat := if c == 0 || f.chroma == 3 then 1 else 2
def PicFormat.subY (f : PicFormat) (c : Nat) : Nat := if c != 0 && f.chroma == 1 then 2 else 1

/-- The size of a plane; 4:0:0 has no chroma. -/
def PicFormat.planeW (f : PicFormat) (c : Nat) : Nat := if c != 0 && f.chroma == 0 then 0 else ceilDiv f.width (f.subX c)
def PicFormat.planeH (f : PicFormat) (c : Nat) : Nat := if c != 0 && f.chroma == 0 then 0 else ceilDiv f.height (f.subY c)

/-- The mid-grey value of a depth (R126, R134). -/
def midGrey (depth : Nat) : Nat := 2 ^ (depth - 1)

/-! Concealment (R126). -/

/-- CTUs in a row of a coded picture. -/
def CodedPic.cols (p : CodedPic) : Nat := ceilDiv p.full.width (2 ^ p.ctuLog2)

/-- The size of a CTU on a plane. -/
def CodedPic.sizeX (p : CodedPic) (c : Nat) : Nat := 2 ^ p.ctuLog2 / p.full.subX c
def CodedPic.sizeY (p : CodedPic) (c : Nat) : Nat := 2 ^ p.ctuLog2 / p.full.subY c

/-- The CTU that holds a sample of a plane. -/
def CodedPic.ctuAt (p : CodedPic) (c x y : Nat) : Nat := y / p.sizeY c * p.cols + x / p.sizeX c

/-- How a CTU is concealed: none where it was decoded. -/
def CodedPic.lostAs (p : CodedPic) (i : Nat) : Option (Option Vec) := (p.lost.find? (fun l => l.1 == i)).map (fun l => l.2)

/-- A coordinate held inside 0 to n − 1. -/
def clampTo (n : Nat) (v : Int) : Nat := (max 0 (min (n - 1 : Int) v)).toNat

/-- Temporal prediction with a vector (R126): luma vectors are in quarter samples, of AV1 in eighths; a whole displacement copies the
sample, any other takes the codec's interpolation filter, which is the standard's (log 9), over the samples around it. -/
def temporalSample (p : CodedPic) (ref : Nat → Nat → Nat → Nat) (v : Vec) (c x y : Nat) : Nat :=
  let unit := if p.codec == 3 then 8 else 4
  let ux := unit * p.full.subX c
  let uy := unit * p.full.subY c
  let px : Int := x * ux + v.x
  let py : Int := y * uy + v.y
  let at_ := fun (i j : Int) => ref c (clampTo (p.full.planeW c) i) (clampTo (p.full.planeH c) j)
  if px % ux == 0 && py % uy == 0 then at_ (px / ux) (py / uy)
  else
    let around := (List.range 8).flatMap (fun (j : Nat) => (List.range 8).map (fun (i : Nat) => at_ (px / ux - 3 + i) (py / uy - 3 + j)))
    Config.interpolated p.codec (px % ux).toNat (py % uy).toNat ux uy around % 2 ^ p.full.depth

/-- The boundary samples of a lost CTU with their weights, at offset (dx, dy) inside it (R126 method 3): above, below, left and right, where
the CTU there was decoded, or concealed before it in raster order. -/
def boundary (p : CodedPic) (value : Nat → Nat → Nat) (c x y : Nat) : List (Nat × Nat) :=
  let nx := p.sizeX c
  let ny := p.sizeY c
  let dx := x % nx
  let dy := y % ny
  let x0 := x - dx
  let y0 := y - dy
  let i := p.ctuAt c x y
  let ready := fun (j : Nat) => (p.lostAs j).isNone || j < i
  (if 0 < y0 && ready (p.ctuAt c x (y0 - 1)) then [(value x (y0 - 1), ny - dy)] else []) ++
  (if y0 + ny < p.full.planeH c && ready (p.ctuAt c x (y0 + ny)) then [(value x (y0 + ny), dy + 1)] else []) ++
  (if 0 < x0 && ready (p.ctuAt c (x0 - 1) y) then [(value (x0 - 1) y, nx - dx)] else []) ++
  (if x0 + nx < p.full.planeW c && ready (p.ctuAt c (x0 + nx) y) then [(value (x0 + nx) y, dx + 1)] else [])

/-- The weighted mean of boundary samples, ties upward, or mid-grey where there are none. -/
def spatialMean (depth : Nat) (l : List (Nat × Nat)) : Nat :=
  let w := total (l.map (fun b => b.2))
  if w == 0 then midGrey depth else (roundUp (total (l.map (fun b => b.1 * b.2)) : Nat) w).toNat

/-- A sample of a decoded picture: the standard's value (R18), with no loop filter on concealed CTUs and their edges (R127), or the concealed
value (R126). `fuel` bounds the chain of CTUs that are concealed from one another. -/
def codedSample (p : CodedPic) (ref : Nat → Nat → Nat → Nat) : Nat → Nat → Nat → Nat → Nat
  | 0, _, _, _ => midGrey p.full.depth
  | fuel + 1, c, x, y =>
    match p.lostAs (p.ctuAt c x y) with
    | none => Config.codecSample p.token p.trail (p.lost.map (fun l => l.1)) c x y % 2 ^ p.full.depth
    | some (some v) => temporalSample p ref v c x y
    | some none => spatialMean p.full.depth (boundary p (fun x y => codedSample p ref fuel c x y) c x y)

/-! Layers on a canvas (R155, R165). -/

/-- A rectangle with signed corners: left, top, right, bottom. -/
structure Box where
  x0 : Int
  y0 : Int
  x1 : Int
  y1 : Int
  deriving DecidableEq, Repr

/-- The destination of a layer (R155). -/
def lyDest (r : Record) : Box :=
  let x := signed 16 (rd r 36 2)
  let y := signed 16 (rd r 38 2)
  { x0 := x, y0 := y, x1 := x + (rd r 40 2 : Int), y1 := y + (rd r 42 2 : Int) }

/-- The crop of a layer in a source of a size (R155): width 0 takes the whole source. -/
def lyCrop (r : Record) (w hgt : Nat) : Box :=
  if rd r 32 2 == 0 then { x0 := 0, y0 := 0, x1 := w, y1 := hgt }
  else
    { x0 := rd r 28 2, y0 := rd r 30 2, x1 := (rd r 28 2 + rd r 32 2 : Nat), y1 := (rd r 30 2 + rd r 34 2 : Nat) }

/-- A CANVAS's own colour (R152). -/
def cvColour (r : Record) : Colour := colourField (rd r 23 1) ((rd r 49 1).testBit 0) (rd r 21 1)

/-- The words of a colour in 10-bit code values: Y′ in bits 29 to 20, Cb, Cr (R152, R155). -/
def codePixel (v : Nat) : Pixel := { a := (v / 0x100000 % 1024 * 16 : Nat), b := (v / 1024 % 1024 * 16 : Nat), c := (v % 1024 * 16 : Nat) }

/-- The fill colour of a layer (R155). -/
def lyFill (r : Record) : Pixel := codePixel (rd r 48 4)

/-- A layer's pixel over those below: scaled by its alpha on the 4,096 scale, premultiplied unless it already is (R169). -/
def drawPixel (l : Record) (straight : Bool) (p : Pixel) (alpha : Int) (below : Pixel) : Pixel :=
  let g : Int := rd l 44 2
  let e := effectiveAlpha alpha g
  blendPixel (scaledPixel (if straight then e else g) p) e below

/-- The pixel of a source under a canvas pixel, with its alpha: rotation, then scaling of each component over the crop (R165 stages 2 and 4). `at_` gives
component 0 to 3 of the crop at full size. -/
def placedPixel (l : Record) (w hgt : Nat) (at_ : Nat → Nat → Nat → Int) (x y : Nat) : Option (Pixel × Int) :=
  let crop := lyCrop l w hgt
  let dest := lyDest l
  let cw := (crop.x1 - crop.x0).toNat
  let ch := (crop.y1 - crop.y0).toNat
  let turn := fun (u v : Nat) => match rd l 26 1 with
    | 0 => (u, v)
    | 1 => (v, ch - 1 - u)
    | 2 => (cw - 1 - u, ch - 1 - v)
    | _ => (cw - 1 - v, u)
  let rw := if rd l 26 1 % 2 == 0 then cw else ch
  let rh := if rd l 26 1 % 2 == 0 then ch else cw
  if (x : Int) < dest.x0 || dest.x1 ≤ x || (y : Int) < dest.y0 || dest.y1 ≤ y then none
  else
    let get := fun (c : Nat) => scalePlane (rd l 27 1) rw rh (dest.x1 - dest.x0).toNat (dest.y1 - dest.y0).toNat
      (fun i j => at_ c (turn i j).1 (turn i j).2) (x - dest.x0).toNat (y - dest.y0).toNat
    some ({ a := get 0, b := get 1, c := get 2 }, get 3)

/-- A component of the crop of a Y′CbCr source at full size (R165 stages 1 and 3); component 3 is an opaque alpha. -/
def cropSample (l : Record) (f : PicFormat) (loc : Nat) (sample : Nat → Nat → Nat → Nat) (c x y : Nat) : Int :=
  let crop := lyCrop l f.width f.height
  let word := fun (c i j : Nat) => (wordIn f.depth (sample c i j)).toInt
  if c == 3 then 4096
  else if c == 0 then word 0 (x + crop.x0.toNat) (y + crop.y0.toNat)
  else if f.chroma == 0 then 8192
  else
    let sx := f.subX c
    let sy := f.subY c
    upsampled ((crop.x1 - crop.x0).toNat / sx) ((crop.y1 - crop.y0).toNat / sy) sx sy loc
      (fun i j => word c (i + crop.x0.toNat / sx) (j + crop.y0.toNat / sy)) x y

/-- A decoded picture's pixel over those below. An unsignalled or unsupported description, or layer flag bit 1, makes the source be of the canvas's own
colour (R167). -/
def drawnPixel (l canvas : Record) (colour : List Nat) (full : Bool) (loc : Nat) (f : PicFormat) (sample : Nat → Nat → Nat → Nat) (x y : Nat)
    (below : Pixel) : Pixel :=
  let src : Colour := { primaries := colour.getD 0 2, transfer := colour.getD 1 2, matrix := colour.getD 2 2, full := full, depth := f.depth }
  match placedPixel l f.width f.height (cropSample l f loc sample) x y with
  | none => below
  | some p => drawPixel l true (convertColour src (cvColour canvas) (!colourTaken src || (rd l 47 1).testBit 1) ((rd l 47 1).testBit 2) p.1) p.2 below

/-- A component of the crop of a surface at full size (R158); component 3 is its alpha. -/
def surfaceSample (l r : Record) (m : Mem) (base c x y : Nat) : Int :=
  let f := rd r 16 1
  let pitch := rd r 24 4
  let crop := lyCrop l (rd r 18 2) (rd r 20 2)
  let x0 := x + crop.x0.toNat
  let y0 := y + crop.y0.toNat
  if f == 0x12 then (if c == 3 then alpha8 (sfNum m (base + y0 * pitch + x0) 1) else 0)
  else if sfYuvCode f then
    if c == 3 then 4096
    else if c == 0 then sfPlane f pitch (rd r 20 2) m base 0 x0 y0
    else
      let sy := if sfChroma f == 1 then 2 else 1
      upsampled ((crop.x1 - crop.x0).toNat / 2) ((crop.y1 - crop.y0).toNat / sy) 2 sy 0
        (fun i j => sfPlane f pitch (rd r 20 2) m base c (i + crop.x0.toNat / 2) (j + crop.y0.toNat / sy)) x y
  else
    let v := sfRgb f pitch m base x0 y0
    let p := rgbPixel (colourField (rd r 44 1) ((rd r 45 1).testBit 0) (sfDepth f)) v
    if c == 3 then v.2.2.2 else if c == 0 then p.a else if c == 1 then p.b else p.c

/-- A surface's pixel over those below (R158, R169). An A8 surface takes the fill colour, premultiplied by its alpha (log 86). -/
def hostPixel (l r canvas : Record) (m : Mem) (base x y : Nat) (below : Pixel) : Pixel :=
  let f := rd r 16 1
  match placedPixel l (rd r 18 2) (rd r 20 2) (surfaceSample l r m base) x y with
  | none => below
  | some p =>
    if f == 0x12 then drawPixel l true (lyFill l) p.2 below
    else
      let src := colourField (rd r 44 1) ((rd r 45 1).testBit 0) (sfDepth f)
      let straight := sfYuvCode f || (rd l 47 1).testBit 0
      drawPixel l straight (convertColour src (cvColour canvas) ((rd l 47 1).testBit 1) ((rd l 47 1).testBit 2) p.1) p.2 below

/-! What a picture holds. -/

/-- The CANVAS record under what is drawn on it. -/
def Content.canvas : Content → Record
  | .base r => r
  | .filled _ b => b.canvas
  | .drawn _ _ _ _ _ b => b.canvas
  | .host _ _ _ _ b => b.canvas
  | _ => []

/-- The format of a canvas (R152). -/
def cvFormat (r : Record) : PicFormat := { width := rd r 16 2, height := rd r 18 2, depth := rd r 21 1, chroma := rd r 22 1 }

/-- The format of what a picture holds. -/
def Content.format : Content → PicFormat
  | .grey f => f
  | .coded p _ => p.full
  | .linear f _ _ _ => f
  | .window _ _ f _ => f
  | .grained _ s => s.format
  | .unpaired _ s => { s.format with height := 2 * s.format.height }
  | .woven t _ => { t.format with height := 2 * t.format.height }
  | .base r => cvFormat r
  | .filled _ b => cvFormat b.canvas
  | .drawn _ _ _ _ _ b => cvFormat b.canvas
  | .host _ _ _ _ b => cvFormat b.canvas

/-- Bytes that a linear sample takes (R343). -/
def sampleBytes (depth : Nat) : Nat := if depth == 8 then 1 else 2

/-- A linear sample: one byte, or the value in bits 15 to 6 of two (R343). -/
def linearSample (depth : Nat) (m : Mem) (a : Nat) : Nat :=
  if depth == 8 then (memGet m a).toNat else leVal (memRead m a 2) / 64

/-- A word of a canvas before rounding: chroma at the canvas's format from the full-size values around it (R165 stage 8). -/
def canvasWord (r : Record) (pixel : Nat → Nat → Pixel) (c x y : Nat) : SampleWord :=
  let f := cvFormat r
  if c == 0 then wordStored (pixel x y).a 1
  else
    let at_ := fun (i j : Int) => pixel (clampTo f.width i) (clampTo f.height j)
    let around := (List.range 8).flatMap (fun (j : Nat) => (List.range 8).map (fun (i : Nat) =>
      let p := at_ ((x * f.subX c : Nat) - 3 + (i : Int)) ((y * f.subY c : Nat) - 3 + (j : Int))
      if c == 1 then p.b else p.c))
    wordStored (Config.chromaDown around) 1

/-- A sample of a canvas, rounded to its bit depth (R165 stage 9). -/
def canvasSample (r : Record) (pixel : Nat → Nat → Pixel) (c x y : Nat) : Nat := wordOut (cvFormat r).depth (canvasWord r pixel c x y)

/-- What can be read of a picture: a sample of a plane, and for a canvas the full-size pixel in words. -/
structure Reading where
  sample : Nat → Nat → Nat → Nat
  pixel : Nat → Nat → Pixel := fun _ _ => { a := 0, b := 0, c := 0 }

/-- The samples of what a picture holds. -/
def Content.read : Content → Reading
  | .grey f => { sample := fun _ _ _ => midGrey f.depth }
  | .coded p s => { sample := fun c x y => codedSample p s.read.sample (p.lost.length + 1) c x y }
  | .linear f pitch cells addr =>
    { sample := fun c x y =>
        let n := sampleBytes f.depth
        if c == 0 then linearSample f.depth cells (addr + y * pitch + n * x)
        else linearSample f.depth cells (addr + f.height * pitch + y * pitch + n * (2 * x + (c - 1))) }
  | .window x0 y0 f s => { sample := fun c x y => s.read.sample c (x + x0 / f.subX c) (y + y0 / f.subY c) }
  | .grained token s => { sample := fun c x y => Config.grainSample token c x y (s.read.sample c x y) % 2 ^ s.format.depth }
  | .unpaired bottom s => { sample := fun c x y => s.read.sample c x ((if bottom then y - 1 else y) / 2) }
  | .woven t b => { sample := fun c x y => if y % 2 == 0 then t.read.sample c x (y / 2) else b.read.sample c x (y / 2) }
  | .base r =>
    let pixel := fun (_ _ : Nat) => codePixel (rd r 60 4)
    { pixel := pixel, sample := canvasSample r pixel }
  | .filled l b =>
    let pixel := fun (x y : Nat) =>
      let d := lyDest l
      let below := b.read.pixel x y
      if (x : Int) < d.x0 || d.x1 ≤ x || (y : Int) < d.y0 || d.y1 ≤ y then below else drawPixel l true (lyFill l) 4096 below
    { pixel := pixel, sample := canvasSample b.canvas pixel }
  | .drawn l colour full loc s b =>
    let pixel := fun (x y : Nat) => drawnPixel l b.canvas colour full loc s.format s.read.sample x y (b.read.pixel x y)
    { pixel := pixel, sample := canvasSample b.canvas pixel }
  | .host l r m addr b =>
    let pixel := fun (x y : Nat) => hostPixel l r b.canvas m addr x y (b.read.pixel x y)
    { pixel := pixel, sample := canvasSample b.canvas pixel }

/-- One sample. -/
def Content.sample (c : Content) : Nat → Nat → Nat → Nat := c.read.sample

/-! The packed layout (R341, R342). -/

/-- Samples of a tile's plane in raster order; padding outside the picture is free (log 77). -/
def tilePlane (f : PicFormat) (sample : Nat → Nat → Nat → Nat) (tx ty : Nat) (cs : List Nat) : List Nat :=
  let c0 := cs.headD 0
  let w := 64 / f.subX c0
  let hgt := 64 / f.subY c0
  (List.range hgt).flatMap (fun j => (List.range w).flatMap (fun i => cs.map (fun c =>
    let x := tx * w + i
    let y := ty * hgt + j
    if x < f.planeW c && y < f.planeH c then sample c x y else Config.padSample x y % 2 ^ f.depth)))

/-- Four 2-bit values to a byte, the first in bits 1 to 0. -/
def packPairs : List Nat → List Byte
  | a :: b :: c :: d :: more => byte (a + 4 * b + 16 * c + 64 * d) :: packPairs more
  | _ => []

/-- The bytes of a plane: of 10-bit samples the upper eight bits of each, then the lower two, four to a byte. -/
def planeBytes (depth : Nat) (l : List Nat) : List Byte :=
  if depth == 8 then l.map byte else l.map (fun v => byte (v / 4)) ++ packPairs (l.map (fun v => v % 4))

/-- A tile: luma, then interleaved chroma. -/
def tileBytes (f : PicFormat) (sample : Nat → Nat → Nat → Nat) (tx ty : Nat) : List Byte :=
  planeBytes f.depth (tilePlane f sample tx ty [0]) ++
  (if f.chroma == 0 then [] else planeBytes f.depth (tilePlane f sample tx ty [1, 2]))

/-- Tiles across and down. -/
def PicFormat.tilesX (f : PicFormat) : Nat := ceilDiv f.width 64
def PicFormat.tilesY (f : PicFormat) : Nat := ceilDiv f.height 64

/-- The bytes of a packed tile (R341). -/
def PicFormat.tileSize (f : PicFormat) : Nat :=
  (if f.depth == 8 then 4 else 5) * (1024 + (if f.chroma == 0 then 0 else if f.chroma == 1 then 512 else 1024))

/-- 256-byte compression units of a list. -/
def unitsOfTile : Nat → List Byte → List (List Byte)
  | 0, _ => []
  | n + 1, l => l.take 256 :: unitsOfTile n (l.drop 256)

/-- The mode of a compression unit and the bytes its sectors hold (R342): 0 constant, 1 differential with Rice coding, 2 raw, numbered as R342
lists them (log 80). The coded bytes of the first two are not stated. -/
def unitCode (u : List Byte) : Nat × List Byte :=
  if u.all (fun b => b == u.headD 0) then (0, pad 32 (Config.constantUnit (u.headD 0)))
  else
    let r := Config.riceUnit u
    let sectors := ceilDiv r.length 32
    if 1 ≤ sectors && sectors < 8 then (1, pad (32 * sectors) r) else (2, u)

/-- The header of a unit: sectors, mode, seeds (R342). -/
def unitHeader (u : List Byte) : List Byte :=
  let k := unitCode u
  le 8 (k.2.length / 32 + 16 * k.1 + 64 * (Config.unitSeeds u % 2 ^ 58))

/-- The pieces of a packed picture, by offset: the used sectors of every unit, and the header area after the tiles. -/
def packedPieces (c : Content) : List (Nat × List Byte) :=
  let f := c.format
  let per := f.tileSize / 256
  let tiles := f.tilesX * f.tilesY
  (List.range tiles).flatMap (fun t =>
    (unitsOfTile per (tileBytes f c.sample (t % f.tilesX) (t / f.tilesX))).zipIdx.flatMap (fun u =>
      [(t * f.tileSize + 256 * u.2, (unitCode u.1).2), (tiles * f.tileSize + 8 * (t * per + u.2), unitHeader u.1)]))

/-! The linear layout (R343). -/

/-- The smallest pitch that is a multiple of 64 bytes and holds a row. -/
def linearPitch (f : PicFormat) : Nat := ceilDiv (f.width * sampleBytes f.depth) 64 * 64

/-- Samples of a linear row. -/
def linearRow (depth : Nat) (l : List Nat) : List Byte := l.flatMap (fun v => if depth == 8 then [byte v] else le 2 (v * 64))

/-- The rows of a linear picture, by offset. -/
def linearPieces (c : Content) : List (Nat × List Byte) :=
  let f := c.format
  let pitch := linearPitch f
  (List.range f.height).map (fun y => (y * pitch, linearRow f.depth ((List.range f.width).map (fun x => c.sample 0 x y)))) ++
  (List.range (f.planeH 1)).map (fun y => (pitch * f.height + y * pitch,
    linearRow f.depth ((List.range (f.planeW 1)).flatMap (fun x => [c.sample 1 x y, c.sample 2 x y]))))

/-- The bytes that a stored picture takes, with its headers. -/
def StoredPic.bytes (p : StoredPic) : Nat :=
  let f := p.content.format
  if p.packed then f.tilesX * f.tilesY * f.tileSize * 33 / 32
  else linearPitch f * (f.height + f.planeH 1)

/-- What a stored picture writes, by half-local address. -/
def StoredPic.pieces (p : StoredPic) : List (Nat × List Byte) :=
  (if p.packed then packedPieces p.content else linearPieces p.content).map (fun q => (p.addr + q.1, q.2))

end Sys2Proof.Machine
end

