-- ==== Sys2Proof/Machine/Doorbells.lean ====
section
/-!
DEFINITION. Doorbells.lean: the ring index writes (R38, R39, R545) and the interrupt controller's host registers
(R400 to R412, R551, R552), with the MSI-X table.
-/
namespace Sys2Proof.Machine

/-- A host access reaches the half's BARs: the link is up and the registers answer (R497, R547, R555). -/
def hostReach (x : Half) : Bool := x.pcie.linkUp && bar0Open x.boot

/-- Records a dropped host write (R539): 0 WIDTH, 1 KEEL_ENTRY, 2 RING_RO, 3 PARTNER, 4 UNIT_ENABLE, 5 DMA31. -/
def regError (bit : Nat) (x : Half) : Half :=
  { x with pcie := { x.pcie with regErr := setBit x.pcie.regErr bit true, hostDrops := sat32 x.pcie.hostDrops } }

/-- A refused index write (R39): RING_ERR, source 101 and the warning. Rings: 0 CMDQ, 1 CPLQ, 2 EVTQ, 3 ASQ, 4 ASR. -/
def ringRefused (h : HalfId) (ring : Nat) (value before : W32) (s : State) : State :=
  let s := s.upd h (fun x => { x with rings := { x.rings with
    ringErr := setBit x.rings.ringErr ring true, refused := sat32 x.rings.refused } })
  event h 0x0101 sevWarning 0 (le 4 ring ++ le 4 value.toNat ++ le 4 before.toNat) (icuRaise h 101 s)

/-- A tail write is refused when the ring would hold more than its size, or when the index would move backwards. -/
def tailRefused (size : Nat) (value tail head : W32) : Bool :=
  size < ringFill value head || ringFill value head < ringFill tail head

/-- A head write is refused when the ring would hold more than its size, or when the index would move backwards. -/
def headRefused (size : Nat) (value tail head : W32) : Bool :=
  size < ringFill tail value || ringFill tail head < ringFill tail value

/-- CMDQ_TAIL (R38): accepted, source 96 is raised. -/
def writeCmdqTail (h : HalfId) (v : W32) (s : State) : State :=
  let r := (s.half h).rings
  if tailRefused Config.cmdqSize v r.cmdqTail r.cmdqHead then ringRefused h 0 v r.cmdqTail s
  else
    let s := icuRaise h 96 (s.upd h (fun x => { x with rings := { x.rings with cmdqTail := v } }))
    if v == r.cmdqHead then icuWithdraw h 96 s else s

/-- CPLQ_HEAD (R38): an empty ring withdraws source 97. -/
def writeCplqHead (h : HalfId) (v : W32) (s : State) : State :=
  let r := (s.half h).rings
  if headRefused Config.cplqSize v r.cplqTail r.cplqHead then ringRefused h 1 v r.cplqHead s
  else
    let s := s.upd h (fun x => { x with rings := { x.rings with cplqHead := v } })
    if v == r.cplqTail then icuWithdraw h 97 s else s

/-- EVTQ_HEAD (R38): an empty ring withdraws source 98. -/
def writeEvtqHead (h : HalfId) (v : W32) (s : State) : State :=
  let r := (s.half h).rings
  if headRefused Config.evtqSize v r.evtqTail r.evtqHead then ringRefused h 2 v r.evtqHead s
  else
    let s := s.upd h (fun x => { x with rings := { x.rings with evtqHead := v } })
    if v == r.evtqTail then icuWithdraw h 98 s else s

/-- ASQ_TAIL (R38): accepted, source 99 is raised. -/
def writeAsqTail (h : HalfId) (v : W32) (s : State) : State :=
  let r := (s.half h).rings
  if tailRefused Config.asqSize v r.asqTail r.asqHead then ringRefused h 3 v r.asqTail s
  else
    let s := icuRaise h 99 (s.upd h (fun x => { x with rings := { x.rings with asqTail := v } }))
    if v == r.asqHead then icuWithdraw h 99 s else s

/-- ASR_HEAD (R38): an empty ring withdraws source 100. -/
def writeAsrHead (h : HalfId) (v : W32) (s : State) : State :=
  let r := (s.half h).rings
  if headRefused Config.asrSize v r.asrTail r.asrHead then ringRefused h 4 v r.asrHead s
  else
    let s := s.upd h (fun x => { x with rings := { x.rings with asrHead := v } })
    if v == r.asrTail then icuWithdraw h 100 s else s

/-- A host write that lands only while the half answers; the endpoint counts the posted write (R418). -/
def hostWriteTo (h : HalfId) (f : State → State) (s : State) : State :=
  if hostReach (s.half h) then f (s.upd h (count 31 0x10 1)) else s

/-- CMDQ_TAIL_WRITE (R39). -/
def execCmdqTailWrite (h : HalfId) (value : W32) (s : State) : Out := .next (hostWriteTo h (writeCmdqTail h value) s)

/-- CPLQ_HEAD_WRITE (R39). -/
def execCplqHeadWrite (h : HalfId) (value : W32) (s : State) : Out := .next (hostWriteTo h (writeCplqHead h value) s)

/-- EVTQ_HEAD_WRITE (R39). -/
def execEvtqHeadWrite (h : HalfId) (value : W32) (s : State) : Out := .next (hostWriteTo h (writeEvtqHead h value) s)

/-- ASQ_TAIL_WRITE (R39). -/
def execAsqTailWrite (h : HalfId) (value : W32) (s : State) : Out := .next (hostWriteTo h (writeAsqTail h value) s)

/-- ASR_HEAD_WRITE (R39, R82). -/
def execAsrHeadWrite (h : HalfId) (value : W32) (s : State) : Out := .next (hostWriteTo h (writeAsrHead h value) s)

/-! Interrupt controller registers. -/

/-- An entry takes a value: bits 17 to 0 and the parity the hardware keeps (R400). A changed target or vector lets a
source that is still pending send again (R406, R411). -/
def icuPutEntry (h : HalfId) (n : Nat) (v : Nat) (s : State) : State :=
  let old := icuEff (s.half h).icu n
  let w := v % 0x40000 + 0x80000000 * parity18 v
  let s := s.upd h (fun x => { x with icu := { x.icu with
    cfg := x.icu.cfg.set n (BitVec.ofNat 32 w)
    badParity := x.icu.badParity.filter (fun k => k != n) } })
  let new := icuEff (s.half h).icu n
  let s := if new.target != old.target || new.vector != old.vector then
      s.upd h (fun x => { x with icu := { x.icu with sent := setBit x.icu.sent n false } }) else s
  icuEval h n s

/-- A host write of an entry through an endpoint's window (R400, R552). -/
def icuHostEntry (endpoint icu : HalfId) (n : Nat) (v : Nat) (s : State) : State :=
  if endpoint != icu && !s.sparWorks then s.upd endpoint (regError 3)
  else if 512 ≤ n || icuReserved n then s
  else if !icuHostOwned n then s.upd endpoint (regError 1)
  else
    let target := v / 256 % 4
    if target == 0 then s.upd endpoint (regError 1)
    else if target == 3 then s
    else icuPutEntry icu n v s

/-- A claim reaches the controller (R409): the source number, or 0x3FF. -/
def icuTake (h : HalfId) (n : Nat) (s : State) : State × Nat :=
  if n < 512 && !icuReserved n && (s.half h).icu.pend.getLsbD n then
    (icuWithdraw h n (s.upd h (fun x => count 33 0x11 1 { x with icu := { x.icu with claimed := bumpSource n x.icu.claimed } })), n)
  else (s.upd h (fun x => count 33 0x12 1 { x with icu := { x.icu with
    spurious := if n < 512 then bumpSource n x.icu.spurious else x.icu.spurious } }), 0x3FF)

/-- The keel serves what it has claimed: its threshold rises to the source's group (R405). -/
def icuServe (r : Requester) (h : HalfId) (n : Nat) (s : State) : State :=
  if r == .keel && n < 512 then s.upd h (fun x => { x with icu := { x.icu with
    threshold := max x.icu.threshold (icuGroup x.icu (icuEff x.icu n).prio : Int) } })
  else s

/-- The result of a requester's claim at an ICU (R408). -/
def icuResult (r : Requester) (h : HalfId) (v : Nat) (s : State) : State :=
  s.upd h (fun x => { x with icu := match r with
    | .keel => { x.icu with claimKeel := v }
    | .pcieE => { x.icu with claimE := v }
    | .pcieW => { x.icu with claimW := v } })

/-- The half of a requester that is an endpoint; the keel's is the ICU's own. -/
def requesterHalf (r : Requester) (icu : HalfId) : HalfId :=
  match r with
  | .keel => icu
  | .pcieE => .east
  | .pcieW => .west

/-- ICU_CLAIM is written (R408 to R410): at the own ICU the claim completes, at the partner's it is in flight. -/
def icuClaimWrite (r : Requester) (icu : HalfId) (number : W32) (s : State) : State :=
  let n := number.toNat % 1024
  let ep := requesterHalf r icu
  if ep == icu then
    let p := icuTake icu n s
    icuResult r icu p.2 (icuServe r icu p.2 p.1)
  else if !s.sparWorks then icuResult r icu 0x3FF (s.upd ep (regError 3))
  else
    s.upd icu (fun x => { x with icu := match r with
      | .pcieE => { x.icu with flightE := some n }
      | .pcieW => { x.icu with flightW := some n }
      | .keel => x.icu })

/-- ICU_SET is written (R402). -/
def icuSetWrite (r : Requester) (icu : HalfId) (number : W32) (s : State) : State :=
  let n := number.toNat
  let ep := requesterHalf r icu
  if r == .keel then
    let s := s.upd icu (fun x => { x with icu := { x.icu with keelSet := n } })
    if 168 ≤ n && n ≤ 183 then icuRaise icu n s else s
  else if ep != icu && !s.sparWorks then s.upd ep (regError 3)
  else if 152 ≤ n && n ≤ 167 then icuRaise icu n s else s

/-- ICU_SRC_CFG_WRITE (R400, R401, R411, R412). -/
def execIcuSrcCfgWrite (endpoint icu : HalfId) (source : Nat) (value : W32) (s : State) : Out :=
  .next (hostWriteTo endpoint (icuHostEntry endpoint icu source value.toNat) s)

/-- ICU_SET (R402). The keel sets only while it runs. -/
def execIcuSet (r : Requester) (icu : HalfId) (number : W32) (s : State) : Out :=
  .next (match r with
    | .keel => if (s.half icu).alive then icuSetWrite r icu number s else s
    | _ => hostWriteTo (requesterHalf r icu) (icuSetWrite r icu number) s)

/-- ICU_CLAIM (R408, R409). -/
def execIcuClaim (r : Requester) (icu : HalfId) (number : W32) (s : State) : Out :=
  .next (match r with
    | .keel => if (s.half icu).alive then icuClaimWrite r icu number s else s
    | _ => hostWriteTo (requesterHalf r icu) (icuClaimWrite r icu number) s)

/-- The partner claim in flight from an endpoint. -/
def claimInFlight (s : State) (endpoint : HalfId) : Option Nat :=
  match endpoint with
  | .east => (s.half .west).icu.flightE
  | .west => (s.half .east).icu.flightW

/-- ICU_PARTNER_CLAIM_DONE (R409): the claim in flight reaches the partner's ICU; a lost link returns 0x3FF (R410). -/
def execIcuPartnerClaimDone (endpoint : HalfId) (s : State) : Out :=
  .next (match claimInFlight s endpoint with
    | none => s
    | some n =>
      let icu := endpoint.other
      let r := match endpoint with | .east => Requester.pcieE | .west => Requester.pcieW
      let s := s.upd icu (fun x => { x with icu := match endpoint with
        | .east => { x.icu with flightE := none }
        | .west => { x.icu with flightW := none } })
      if s.sparWorks then
        let p := icuTake icu n s
        icuResult r icu p.2 p.1
      else icuResult r icu 0x3FF s)

/-- A vector is masked or unmasked; unmasking sends a held message (R406). -/
def msixMaskWrite (h : HalfId) (v : Nat) (mask : Bool) (s : State) : State :=
  if 256 ≤ v then s
  else
    let held := (s.half h).pcie.pba.getLsbD v
    let s := s.upd h (fun x => { x with pcie := { x.pcie with msixMask := setBit x.pcie.msixMask v mask } })
    if !mask && held then
      emit h (.msix h v) (s.upd h (fun x => { x with pcie := { x.pcie with pba := setBit x.pcie.pba v false } }))
    else s

/-- MSIX_UNMASK (R406). -/
def execMsixUnmask (h : HalfId) (vector : Nat) (s : State) : Out := .next (hostWriteTo h (msixMaskWrite h vector false) s)

/-- ICU_PARITY_FAILURE (R415): the named entry fails the parity check of an evaluation that reads it. -/
def execIcuParityFailure (h : HalfId) (source : Nat) (s : State) : Out :=
  .next (if source < 512 && !(s.half h).boot.inReset then
    icuParityFail h source (armedMask (s.half h) 0x1C != 0) (s.upd h (disarm 0x1C)) else s)

end Sys2Proof.Machine
end

