-- ==== Sys2Proof/Machine/HostDma.lean ====
section
/-!
DEFINITION. HostDma.lean: accesses to device memory by the host and its DMA engine (R335, R339, R340, R359, R549), and the
DMA channels (R381 to R394).
-/
namespace Sys2Proof.Machine

/-! Device memory (R335, R359). Addresses are half-local: channel n owns n × 2³³ onwards. -/

def chanSpan : Nat := 0x200000000

/-- The channel and the channel offset of a half-local address (R335). -/
def chanOf (a : Nat) : Nat := a / chanSpan
def chanOffset (a : Nat) : Nat := a % chanSpan

/-- The valid-bit block of a half-local address (R359). -/
def blockOf (a : Nat) : Nat := a / 65536

/-- The address lies in a hole or in the window of a retired or absent channel (R335). -/
def inHole (x : Half) (a : Nat) : Bool :=
  match x.dch[chanOf a]? with
  | none => true
  | some c => c.flags.retired || !c.train.trained || usableBytes x ≤ chanOffset a

/-- The channel of an address is frozen (R360). -/
def onFrozen (x : Half) (a : Nat) : Bool := ((x.dch.getD (chanOf a) {}).frozen).isSome

/-- A zero-fill ends: the block's bit is set and what waits takes effect in arrival order (R359). -/
def fillEnd (block : Nat) (x : Half) : Half :=
  match x.dram.fills.find? (fun f => f.block == block) with
  | none => x
  | some f =>
    let d := f.waiting.foldl (fun (m : Mem) (w : Nat × DramReq) =>
      if w.2.write then memWriteEn (w.1 / 64 * 64) (w.2.data.zip w.2.enables) m else m) x.dram.data
    { x with dram := { x.dram with
        data := d, valid := addNew block x.dram.valid
        fills := x.dram.fills.filter (fun g => g.block != block) } }

/-- The blocks that a range touches. -/
def blocksOf (a n : Nat) : List Nat := (List.range ((a % 65536 + n + 65535) / 65536)).map (· + blockOf a)

/-- A stored picture lies in a range. -/
def picIn (a n : Nat) (p : StoredPic) : Bool := a < p.addr + p.bytes && p.addr < a + n

/-- The bytes of a stored picture are spread. -/
def picSpread (x : Half) (p : StoredPic) : Half :=
  { x with dram := { x.dram with
      data := p.pieces.foldl (fun m q => memWrite q.1 q.2 m) x.dram.data
      valid := unionNew x.dram.valid (blocksOf p.addr p.bytes) } }

/-- Before an access to a range, the pictures in it are spread, with those written before them. -/
def picsEnd (a n : Nat) (x : Half) : Half :=
  let keep := x.dram.pics.takeWhile (fun p => !picIn a n p)
  let out := (x.dram.pics.drop keep.length).reverse
  out.foldl picSpread { x with dram := { x.dram with pics := keep } }

/-- A picture is written to device memory. -/
def picStore (p : StoredPic) (x : Half) : Half := { x with dram := { x.dram with pics := p :: x.dram.pics } }

/-- An access waits for the fills of the blocks it touches (R359). -/
def fillsEnd (a n : Nat) (x : Half) : Half := (blocksOf a n).foldl (fun y b => fillEnd b y) (picsEnd a n x)

/-- Bytes of device memory: a clear block reads as zeros (R359). -/
def devRead (a n : Nat) (x : Half) : List Byte := memRead (fillsEnd a n x).dram.data a n

/-- Writes bytes to device memory, filling clear blocks first (R359). -/
def devWrite (a : Nat) (bytes : List Byte) (x : Half) : Half :=
  let x := fillsEnd a bytes.length x
  { x with dram := { x.dram with
      data := memWrite a bytes x.dram.data
      valid := if bytes.isEmpty then x.dram.valid else unionNew x.dram.valid (blocksOf a bytes.length) } }

/-- A started region reads as zero: its valid bits are cleared (R339). -/
def devClear (a n : Nat) (x : Half) : Half :=
  let x := picsEnd a n x
  { x with dram := { x.dram with
      data := memClear a (a + n) x.dram.data
      valid := x.dram.valid.filter (fun b => b < blockOf a || blockOf (a + n) ≤ b) } }

/-- The half-local address of a placed region. -/
def placeAddr (p : Placement) : Nat := p.channel * chanSpan + p.offset

/-- The placement of a kind-0 region. -/
def placedAt (x : Half) (region : Nat) : Option Placement := x.dram.placed.find? (fun p => p.region == region)

/-- The host may reach the whole range: it lies in one kind-0 region whose flag bit 0 is set (R340). -/
def hostMay (h : HalfId) (x : Half) (a n : Nat) : Bool :=
  x.dram.placed.any (fun p =>
    placeAddr p ≤ a && a + n ≤ placeAddr p + p.size &&
    (match recOf x.running (mkHandle 0x10 h p.region) with
     | none => false
     | some r => (rd r 18 2).testBit 0))

/-- A refused host access: counted, and BAR4_DENIED at most once per second (R340, R367). -/
def bar4Deny (h : HalfId) (a : Nat) (s : State) : State :=
  let x := s.half h
  let since := x.dram.bar4Since + 1
  let s := s.upd h (fun x => { x with dram := { x.dram with bar4Denied := sat32 x.dram.bar4Denied, bar4Since := since } })
  let due := match x.dram.bar4LastEvent with
    | none => true
    | some t => t + 1000000000 ≤ x.clk.now
  if due then
    event h 0x060A sevWarning 0 (le 8 a ++ le 4 since)
      (s.upd h (fun x => { x with dram := { x.dram with bar4LastEvent := some x.clk.now, bar4Since := 0 } }))
  else s

/-- A request that a frozen channel or a hole answers with an error response is counted there (R335, R360). -/
def errorResponse (a : Nat) (x : Half) : Half :=
  let n := chanOf a
  if onFrozen x a then
    count (22 + n) 0x15 1 { x with dch := x.dch.modify n (fun c => { c with
      counts := { c.counts with refusals := sat32 c.counts.refusals }
      frozen := c.frozen.map (fun f => { f with refused := sat32 f.refused }) }) }
  else
    count (22 + n) 0x16 1 { x with dch := x.dch.modify n (fun c => { c with
      counts := { c.counts with holes := sat32 c.counts.holes } }) }

/-- The half-local address that BAR4 offset `o` reaches (R549). -/
def bar4Address (d : DramSt) (o : Nat) : Nat := (d.bar4Base.toNat % 2 ^ 35) / d.bar4Size * d.bar4Size + o

/-- A host read or write through BAR4 (R340, R549): refused outside host-accessible regions; an error response where the
channel is frozen. -/
def bar4Do (h : HalfId) (op : Bar4Op) (s : State) : State :=
  let x := s.half h
  match op with
  | .read o n =>
    let a := bar4Address x.dram o
    if x.dram.bar4Size < o + n then s
    else if !hostMay h x a n then
      bar4Deny h a (s.upd h (fun x => { x with lastRead := List.replicate n 0 }))
    else if onFrozen x a || inHole x a then
      (s.upd h (fun x => { errorResponse a x with
        lastRead := (List.range n).map (fun i => Config.errorRead (s.free + i)) })).tick1
    else s.upd h (fun x => { fillsEnd a n x with lastRead := devRead a n x })
  | .write o bytes =>
    let a := bar4Address x.dram o
    if x.dram.bar4Size < o + bytes.length then s
    else if !hostMay h x a bytes.length then bar4Deny h a s
    else if onFrozen x a || inHole x a then s.upd h (errorResponse a)
    else s.upd h (devWrite a bytes)

/-- BAR4_ACCESS (R340). -/
def execBar4Access (h : HalfId) (op : Bar4Op) (s : State) : Out :=
  .next (match op with
    | .read .. => if hostReach (s.half h) then bar4Do h op (s.upd h (count 31 0x11 1)) else s
    | .write .. => hostWriteTo h (bar4Do h op) s)

/-! BAR2 (R37, R546). -/

/-- The ring byte belongs to CMDQ or ASQ, which the host writes. -/
def bar2Writable (o : Nat) : Bool := o < 0x4000 || (0x20000 ≤ o && o < 0x28000)

/-- The ring byte belongs to CPLQ, EVTQ or ASR. -/
def bar2ReadOnly (o : Nat) : Bool := (0x4000 ≤ o && o < 0x18000) || (0x28000 ≤ o && o < 0x30000)

/-- A host write of BAR2: writable bytes land, bytes of the device's rings are dropped and noted (R546). -/
def bar2Do (o : Nat) (bytes : List Byte) (x : Half) : Half :=
  let os := (List.range bytes.length).map (· + o)
  let x := { x with rings := { x.rings with mem := memWriteEn o (bytes.zip (os.map bar2Writable)) x.rings.mem } }
  if os.any bar2ReadOnly then regError 2 x else x

/-- BAR2_WRITE (R546). -/
def execBar2Write (h : HalfId) (offset : Nat) (bytes : List Byte) (s : State) : Out :=
  .next (hostWriteTo h (fun s => s.upd h (bar2Do offset bytes)) s)

/-! DMA channels (R381 to R391). -/

def updChan (c : Nat) (f : DmaChan → DmaChan) (x : Half) : Half :=
  { x with dma := { x.dma with channels := x.dma.channels.modify c f } }

/-- An address of R382 that names device memory, and its half-local part. -/
def isDev (a : W64) : Bool := a.getLsbD 63
def devPart (a : W64) : Nat := a.toNat % 2 ^ 35

/-- A device address with a non-zero bit in [62:35] (R383). -/
def devBad (a : W64) : Bool := isDev a && a.toNat % 2 ^ 63 / 2 ^ 35 != 0

/-- A channel stops, idle (R386). -/
def chanIdle (errStands : Bool) (c : DmaChan) : DmaChan :=
  { c with running := false, phase := .idle, recheck := false, stopping := false, outstanding := 0
           quiescing := errStands }

/-- A read of host memory in requests that cross no 4 KiB boundary and exceed no Max_Read_Request_Size (R381); each takes at least a byte of the range. -/
def readPieces (limit : Nat) : Nat → Nat → Nat → List (Nat × Nat)
  | 0, _, _ => []
  | fuel + 1, a, n =>
    if n == 0 then []
    else
      let k := min n (min (4096 - a % 4096) (max 64 limit))
      (a, k) :: readPieces limit fuel (a + k) (n - k)

/-- The channel asks for host memory (R381, R391). -/
def hostRead (h : HalfId) (c : Nat) (a : W64) (n : Nat) (noSnoop : Bool) (s : State) : State :=
  (readPieces Config.maxReadRequest (n / 64 + 2) a.toNat n).foldl (fun s p => emit h (.dmaRead c (BitVec.ofNat 64 p.1) p.2 noSnoop) s) s

/-- The channel reads the descriptor at an address, clearing RECHECK (R386). -/
def readDescriptor (h : HalfId) (c : Nat) (a : W64) (s : State) : State :=
  let s := s.upd h (fun x => updChan c (fun d =>
    { d with cur := a, running := true, recheck := false, phase := .fetching, outstanding := 1, oldestRead := x.clk.now }) x)
  if isDev a then s else hostRead h c a 32 false s

/-- The channel reads bytes 20 to 31 of the descriptor in DMA_CUR again (R386). -/
def readAgain (h : HalfId) (c : Nat) (s : State) : State :=
  let a := ((s.half h).dma.channels.getD c {}).cur
  let s := s.upd h (fun x => count 27 0x14 1 (updChan c (fun d =>
    { d with running := true, recheck := false, phase := .rechecking, outstanding := 1, oldestRead := x.clk.now }) x))
  if isDev a then s else hostRead h c (a + 20) 12 false s

/-- A kick (R386). -/
def dmaKickDo (h : HalfId) (c : Nat) (s : State) : State :=
  let d := (s.half h).dma.channels.getD c {}
  if c == 31 then s.upd h (regError 5)
  else
    let s := s.upd h (count 27 0x13 1)
    if d.running then s.upd h (updChan c (fun d => { d with recheck := true }))
    else if !d.enable then s
    else if d.chainWritten then
      readDescriptor h c d.chain (s.upd h (updChan c (fun d => { d with chainWritten := false })))
    else readAgain h c s

/-- DMA_KICK (R386). -/
def execDmaKick (h : HalfId) (channel : Nat) (s : State) : Out :=
  .next (if channel < 32 then hostWriteTo h (dmaKickDo h channel) s else s)

/-- DMA_CHAIN is written: dropped with CHAIN_IGNORED while RUNNING (R385). -/
def dmaChainDo (h : HalfId) (c : Nat) (a : W64) (s : State) : State :=
  if c == 31 then s.upd h (regError 5)
  else s.upd h (updChan c (fun d =>
    if d.running then { d with chainIgnored := true } else { d with chain := a, chainWritten := true }))

/-- DMA_CHAIN_WRITE (R385). -/
def execDmaChainWrite (h : HalfId) (channel : Nat) (address : W64) (s : State) : Out :=
  .next (if channel < 32 then hostWriteTo h (dmaChainDo h channel address) s else s)

/-- ENABLE and NOSNOOP_PERMIT are written (R385, R388). -/
def dmaCtrlDo (h : HalfId) (c : Nat) (en noSnoop : Bool) (s : State) : State :=
  if c == 31 then s.upd h (regError 5)
  else s.upd h (updChan c (fun d =>
    let d := { d with noSnoop := noSnoop }
    if en then (if d.quiescing then { d with lateEnable := true } else { d with enable := true })
    else if d.running && d.enable then { d with enable := false, stopping := true, quiescing := true }
    else { d with enable := false }))

/-- DMA_ENABLE (R385, R388). -/
def execDmaEnable (h : HalfId) (channel : Nat) (enable noSnoop : Bool) (s : State) : Out :=
  .next (if channel < 32 then hostWriteTo h (dmaCtrlDo h channel enable noSnoop) s else s)

/-- DISABLE drops a channel at once (R388). -/
def dmaDisableDo (h : HalfId) (c : Nat) (s : State) : State :=
  if c == 31 then s.upd h (regError 5)
  else
    let t := s.upd h (fun x => updChan c (dmaDrop x.dma.errValid s.free) x)
    { t with free := s.free + 2 }

/-- DMA_DISABLE (R388). -/
def execDmaDisable (h : HalfId) (channel : Nat) (s : State) : Out :=
  .next (if channel < 32 then hostWriteTo h (dmaDisableDo h channel) s else s)

/-- Writing 1 to DMA_ERR.VALID (R389, R390): QUIESCING clears where no read is outstanding; DMA.x31 restarts. -/
def dmaErrClearDo (h : HalfId) (s : State) : State :=
  s.upd h (fun x => { x with dma := { x.dma with
    errValid := false
    channels := (x.dma.channels.map (fun d => { d with quiescing := d.outstanding != 0 || d.stopping })).modify 31
      (fun d => { d with enable := true, busStop := false }) } })

/-- DMA_ERR_CLEAR (R389). -/
def execDmaErrClear (h : HalfId) (s : State) : Out := .next (hostWriteTo h (dmaErrClearDo h) s)

/-- The faults of a descriptor (R383). -/
def descFaulty (source dest next : W64) (control : Nat) : Bool :=
  control / 8 != 0 || (!isDev source && !isDev dest) || devBad source || devBad dest ||
  (control % 2 == 0 && (next.toNat % 32 != 0 || devBad next))

/-- A stop at a faulty descriptor (R383, R387, R397). -/
def descStop (h : HalfId) (c : Nat) (control : Nat) (s : State) : State :=
  let a := ((s.half h).dma.channels.getD c {}).cur
  let s := s.upd h (fun x => updChan c (fun d => { chanIdle x.dma.errValid d with
    descErr := true, errors := sat32 d.errors }) x)
  event h 0x060F sevWarning 0 (le 4 c ++ le 8 a.toNat ++ le 4 control) (icuRaise h (64 + c) s)

/-- The 64-byte units of a range that the host may not reach, as R384 rounds transfers (R340). -/
def deniedUnits (h : HalfId) (x : Half) (a n : Nat) : List Nat :=
  ((List.range ((a % 64 + n + 63) / 64)).map (fun i => (a / 64 + i) * 64)).filter (fun u => !hostMay h x u 64)

/-- What a read of `n` bytes at an address of R382 gives the engine: operand bytes from the host, device memory under
R340. -/
def dmaSource (h : HalfId) (a : W64) (n : Nat) (bytes : List Byte) (x : Half) : List Byte :=
  if isDev a then
    let d := devPart a
    let bad := deniedUnits h x d n
    ((devRead d n x).zip (List.range n)).map (fun p => if bad.contains ((d + p.2) / 64 * 64) then 0 else p.1)
  else pad n bytes

/-- Moves bytes to the destination: host memory, or the units of device memory that the host may reach (R340, R384). -/
def dmaDeliver (h : HalfId) (a : W64) (bytes : List Byte) (s : State) : State :=
  if bytes.isEmpty then s
  else if isDev a then
    let d := devPart a
    let bad := deniedUnits h (s.half h) d bytes.length
    let en := (List.range bytes.length).map (fun i => !bad.contains ((d + i) / 64 * 64))
    let s := s.upd h (fun x =>
      let y := fillsEnd d bytes.length x
      { y with dram := { y.dram with
          data := memWriteEn d (bytes.zip en) y.dram.data
          valid := unionNew y.dram.valid
            ((((List.range bytes.length).zip en).filter (fun p => p.2)).map (fun p => blockOf (d + p.1))) } })
    bad.foldl (fun t u => bar4Deny h u t) s
  else hostWrite a.toNat bytes s

/-- The channel's transfer meets a frozen channel or a hole: an error response from the scrim (R389). -/
def dmaMeetsError (x : Half) (d : DmaChan) : Bool :=
  (isDev d.source && d.length != 0 && (onFrozen x (devPart d.source))) ||
  (isDev d.dest && d.length != 0 && (onFrozen x (devPart d.dest)))

/-- The descriptor in progress has come in (R386). -/
def descStart (h : HalfId) (c : Nat) (bytes : List Byte) (s : State) : State :=
  let x := s.half h
  let cur := (x.dma.channels.getD c {}).cur
  let b := if isDev cur then dmaSource h cur 32 [] x else pad 32 bytes
  let source := BitVec.ofNat 64 (rd b 0 8)
  let dest := BitVec.ofNat 64 (rd b 8 8)
  let length := rd b 16 4
  let control := rd b 20 4
  let next := BitVec.ofNat 64 (rd b 24 8)
  if descFaulty source dest next control then descStop h c control s
  else
    let waits := !isDev source && length != 0
    let s := s.upd h (fun x => updChan c (fun d => { d with
      source := source, dest := dest, length := length, control := BitVec.ofNat 32 control, nextDesc := next
      phase := if waits then .moving else .writing
      outstanding := b2n waits, oldestRead := x.clk.now }) x)
    if waits then
      hostRead h c (BitVec.ofNat 64 (source.toNat / 64 * 64)) ((source.toNat % 64 + length + 63) / 64 * 64)
        ((x.dma.channels.getD c {}).noSnoop && control.testBit 2) s
    else s

/-- The read of bytes 20 to 31 has come in: follow next, or stop, idle (R386). -/
def descAgain (h : HalfId) (c : Nat) (bytes : List Byte) (s : State) : State :=
  let x := s.half h
  let cur := (x.dma.channels.getD c {}).cur
  let b := if isDev cur then dmaSource h (cur + 20) 12 [] x else pad 12 bytes
  let control := rd b 0 4
  let next := BitVec.ofNat 64 (rd b 4 8)
  if control / 8 != 0 || (control % 2 == 0 && (next.toNat % 32 != 0 || devBad next)) then descStop h c control s
  else if control % 2 == 0 then readDescriptor h c next s
  else s.upd h (fun x => updChan c (chanIdle x.dma.errValid) x)

/-- DMA_DESCRIPTOR_FETCHED (R386): the read of a descriptor, or the recheck, returns. -/
def execDmaDescriptorFetched (h : HalfId) (channel : Nat) (bytes : List Byte) (s : State) : Out :=
  .next (
    let x := s.half h
    let d := x.dma.channels.getD channel {}
    if (d.phase == .fetching || d.phase == .rechecking) && isDev d.cur && onFrozen x (devPart d.cur) then
      dmaBusFail h 5 d.cur true (s.upd h (errorResponse (devPart d.cur)))
    else
      let s := if isDev d.cur || d.outstanding == 0 then s else s.upd h (count 31 0x12 1)
      match d.phase with
      | .fetching => descStart h channel bytes s
      | .rechecking => descAgain h channel bytes s
      | _ => s)

/-- Read data of a transfer arrives; the data of a dropped channel is discarded (R388). -/
def readArrives (h : HalfId) (c : Nat) (bytes : List Byte) (s : State) : State :=
  let s := s.upd h (count 31 0x12 1)
  let x := s.half h
  let d := x.dma.channels.getD c {}
  if d.outstanding == 0 then s
  else if !d.running then
    s.upd h (fun x => updChan c (fun d => { d with
      outstanding := d.outstanding - 1, quiescing := d.outstanding != 1 || x.dma.errValid }) x)
  else if d.phase != .moving then s
  else if dmaMeetsError x d then
    dmaBusFail h 5 d.dest false (s.upd h (errorResponse (devPart d.dest)))
  else
    (dmaDeliver h d.dest (pad d.length bytes) s).upd h (fun x => count 27 0x10 ((d.length + 63) / 64)
      (updChan c (fun d => { d with outstanding := 0, phase := .writing }) x))

/-- DMA_READ_COMPLETION (R388). -/
def execDmaReadCompletion (h : HalfId) (channel : Nat) (bytes : List Byte) (s : State) : Out :=
  .next (readArrives h channel bytes s)

/-- A descriptor completes (R386, R387): counts, the interrupt, and the next step of the chain. -/
def descEnd (h : HalfId) (c : Nat) (s : State) : State :=
  let d := (s.half h).dma.channels.getD c {}
  let s := if isDev d.dest || d.length == 0 then s
    else emit h (.dmaWrite c d.dest d.length (d.noSnoop && d.control.getLsbD 2)) s
  let s := s.upd h (fun x => count 27 0x12 1 (count 27 0x11 ((d.length + 63) / 64) (updChan c (fun d => { d with
    lastDone := d.cur, descriptors := sat32 d.descriptors, bytes := satAdd d.bytes d.length
    doneCount := if d.control.getLsbD 1 then d.doneCount + 1 else d.doneCount }) x)))
  let s := if d.control.getLsbD 1 then icuRaise h (64 + c) s else s
  if d.stopping then s.upd h (fun x => updChan c (chanIdle x.dma.errValid) x)
  else if !d.control.getLsbD 0 then readDescriptor h c d.nextDesc s
  else if d.recheck then readAgain h c s
  else s.upd h (fun x => updChan c (chanIdle x.dma.errValid) x)

/-- DMA_DESCRIPTOR_COMPLETE (R387): data from device memory moves here; data from the host has already arrived. -/
def execDmaDescriptorComplete (h : HalfId) (channel : Nat) (s : State) : Out :=
  .next (
    let x := s.half h
    let d := x.dma.channels.getD channel {}
    if d.phase != .writing then s
    else if dmaMeetsError x d then
      dmaBusFail h 5 (if isDev d.source then d.source else d.dest) false
        (s.upd h (errorResponse (devPart (if isDev d.source then d.source else d.dest))))
    else if isDev d.source then
      let denied := deniedUnits h x (devPart d.source) d.length
      let t := dmaDeliver h d.dest (dmaSource h d.source d.length [] x) s
      descEnd h channel (denied.foldl (fun t u => bar4Deny h u t) t)
    else descEnd h channel s)

/-- DMA_BUS_ERROR (R389): a request of the channel ends in an error. -/
def execDmaBusError (h : HalfId) (channel cause : Nat) (address : W64) (descriptor : Bool) (s : State) : Out :=
  .next (
    let d := (s.half h).dma.channels.getD channel {}
    if d.running || d.outstanding != 0 then
      dmaBusFail h cause address descriptor (s.upd h (updChan channel (fun d => { d with outstanding := 0 })))
    else s)

/-- DMA_COMPLETION_TIMEOUT (R388, R389): 10 ms after the read was issued. A running channel takes a bus error; a dropped one
stops waiting. -/
def execDmaCompletionTimeout (h : HalfId) (channel : Nat) (s : State) : Out :=
  .next (
    let x := s.half h
    let d := x.dma.channels.getD channel {}
    if d.outstanding == 0 || x.clk.now < d.oldestRead + 10000000 then s
    else
      let t := s.upd h (updChan channel (fun d => { d with outstanding := 0 }))
      if d.running then dmaBusFail h 3 (if d.phase == .moving then d.source else d.cur) (d.phase != .moving) t
      else t.upd h (fun x => updChan channel (fun d => { d with quiescing := x.dma.errValid }) x))

end Sys2Proof.Machine
end

