-- ==== Sys2Proof/Machine/Pools.lean ====
section
/-!
DEFINITION. Pools.lean: the hawk pool manager (R368 to R380).
-/
namespace Sys2Proof.Machine

/-- Buffer size of a pool (R368). -/
def bufSize (p : Nat) : Nat := if p == 0 then 65536 else 2 ^ (p + 7)

/-- The end mark of a free list (R371). -/
def endMark : Nat := 0xFFFFFFFFFFFFFFFF

def updPool (p : Nat) (f : PoolSt → PoolSt) (x : Half) : Half := { x with pools := x.pools.modify p f }
def poolOf (x : Half) (p : Nat) : PoolSt := x.pools.getD p {}

/-- The address of a buffer (R369). -/
def bufAddr (p : Nat) (q : PoolSt) (i : Nat) : Nat := q.base + i * bufSize p

/-- The reference count of a held buffer. -/
def heldCount (q : PoolSt) (i : Nat) : Option Nat := (q.held.find? (fun e => e.1 == i)).map (fun e => e.2)

/-- Buffers in state 0 (R372). -/
def freeCount (q : PoolSt) : Nat := q.count - (q.held.filter (fun e => e.1 < q.count)).length

/-- The indices in state 0, ascending. -/
def freeList (q : PoolSt) : List Nat := (List.range q.count).filter (fun i => (heldCount q i).isNone)

/-- The index of the buffer that starts at an address, held buffers above the count included (R378). -/
def bufIndex (p : Nat) (q : PoolSt) (a : Nat) : Option Nat :=
  if q.present && q.base ≤ a && (a - q.base) % bufSize p == 0 then
    let i := (a - q.base) / bufSize p
    if i < q.count || (heldCount q i).isSome then some i else none
  else none

/-- Threads a list of free buffers through device memory and answers its head (R371). -/
def threadList (p : Nat) (q : PoolSt) : List Nat → Half → Half × Nat
  | [], x => (x, endMark)
  | i :: is, x =>
    let r := threadList p q is x
    (devWrite (bufAddr p q i) (le 8 r.2) r.1, bufAddr p q i)

/-- The pool's list is rebuilt from the state table, lowest index first (R374). -/
def poolThread (p : Nat) (x : Half) : Half :=
  let q := poolOf x p
  let r := threadList p q (freeList q) x
  updPool p (fun q => { q with head := r.2, cached := [] }) r.1

/-- The pool lies on a frozen or evacuating channel (R375, R377). -/
def poolHeld (x : Half) (q : PoolSt) : Bool :=
  let c := x.dch.getD (chanOf q.base) {}
  c.frozen.isSome || c.evac.isSome || c.flags.retired

/-- A pool can serve (R375); a host-managed pool serves from its queue (R379). -/
def poolServes (x : Half) (p : Nat) : Bool :=
  let q := poolOf x p
  q.present && !q.rebuilding && !q.stopped && !poolHeld x q &&
  (if q.hostManaged then !q.hostQueue.isEmpty else q.head != endMark)

/-- The pools in the order R375 tries them. -/
def poolOrder (pool0 : Bool) (size : Nat) : List Nat :=
  let up := ((List.range 16).drop 1).filter (fun p => size ≤ bufSize p)
  let down := (((List.range 16).drop 1).filter (fun p => bufSize p < size)).reverse
  if pool0 then [0] ++ ((List.range 16).drop 9) ++ (((List.range 9).drop 1).reverse) else up ++ down

/-- POOL_LOW once below the low water, again only after twice the low water was exceeded (R376). -/
def poolWater (h : HalfId) (p : Nat) (s : State) : State :=
  let q := poolOf (s.half h) p
  let f := freeCount q
  if f * 100 < q.count * q.lowWater then
    if q.lowRaised then s
    else event h 0x060B sevWarning (mkHandle 0x0D h p) (le 4 f ++ le 4 (q.count * q.lowWater / 100))
      (s.upd h (updPool p (fun q => { q with lowRaised := true })))
  else if 2 * q.count * q.lowWater < f * 100 then s.upd h (updPool p (fun q => { q with lowRaised := false }))
  else s

/-- The host queue is below its low water: an ASR entry of reason 2 asks for more, once (R380). -/
def poolAskSupply (h : HalfId) (p : Nat) (s : State) : State :=
  let q := poolOf (s.half h) p
  if q.hostManaged && q.hostQueue.length * 100 < q.lowWater * 1024 && q.supplyAsked.isNone then
    let d := s.now h + 1000000
    asrRequest h { kind := 0x0B06, tag := 0, handle := mkHandle 0x0D h p, sequence := 0, time := d, payload := le 1 0 ++ le 1 2 } d
      (s.upd h (updPool p (fun q => { q with supplyAsked := some d })))
  else s

/-- A pool finds its list corrupt and rebuilds it (R374). -/
def poolListCorrupt (h : HalfId) (p next stop : Nat) (s : State) : State :=
  let s := s.upd h (fun x => updPool p (fun q =>
    { q with rebuilding := true, rebuildSince := x.clk.now, cached := [], corruption := sat32 q.corruption }) x)
  event h 0x060D sevAlarm (mkHandle 0x0D h p) (le 4 4 ++ le 8 next ++ le 4 stop) (latchHw 6 h 27 false s)

/-- A next pointer is the end mark or the address of a buffer of the pool in state 0 (R374). -/
def nextOk (p : Nat) (q : PoolSt) (next : Nat) : Bool :=
  next == endMark || (match bufIndex p q next with
    | some i => i < q.count && (heldCount q i).isNone
    | none => false)

/-- The manager keeps up to 16 head entries on-die: the head, and up to 15 entries behind it that it prefetches from DRAM (R371, R374). -/
def poolPrefetch (h : HalfId) (p stop : Nat) : Nat → State → State
  | 0, s => s
  | n + 1, s =>
    let x := s.half h
    let q := poolOf x p
    let next := leVal (devRead (q.cached.getLast?.getD q.head) 8 x)
    if q.head == endMark || q.rebuilding || 15 ≤ q.cached.length || next == endMark then s
    else if nextOk p q next then poolPrefetch h p stop n (s.upd h (updPool p (fun q => { q with cached := q.cached ++ [next] })))
    else poolListCorrupt h p next stop s

/-- Takes a buffer of a pool that can serve, with a reference count (R371, R372, R379). -/
def poolTake (h : HalfId) (p stop n : Nat) (s : State) : State :=
  let x := s.half h
  let q := poolOf x p
  let grant := fun (a : Nat) (s : State) =>
    s.upd h (fun x => count 26 0x10 1 (updPool p (fun q => { q with
      held := q.held ++ [((a - q.base) / bufSize p, n)], granted := a, allocations := sat32 q.allocations
      lowestFree := min q.lowestFree (freeCount q - 1) }) x))
  if q.hostManaged then
    match q.hostQueue with
    | [] => s
    | a :: rest =>
      poolAskSupply h p (poolWater h p (grant a (s.upd h (updPool p (fun q => { q with hostQueue := rest })))))
  else
    let a := q.head
    let next := q.cached.head?.getD (leVal (devRead a 8 x))
    let s := poolWater h p (grant a (s.upd h (updPool p (fun q => { q with head := next, cached := q.cached.drop 1 }))))
    if nextOk p (poolOf (s.half h) p) next then poolPrefetch h p stop 15 s else poolListCorrupt h p next stop s

/-- A request that no pool can serve: refused at the first pool tried, POOL_EXHAUSTED at most once per second (R376). -/
def poolRefuse (h : HalfId) (p stop size : Nat) (s : State) : State :=
  let q := poolOf (s.half h) p
  let since := q.refusedSince + 1
  let s := s.upd h (fun x => count 26 0x12 1 (updPool p (fun q => { q with refused := sat32 q.refused, refusedSince := since }) x))
  let due := match q.lastExhausted with
    | none => true
    | some t => t + 1000000000 ≤ s.now h
  if due then
    event h 0x060C sevWarning (mkHandle 0x0D h p) (le 4 stop ++ le 4 size ++ le 4 since)
      (s.upd h (fun x => updPool p (fun q => { q with lastExhausted := some x.clk.now, refusedSince := 0 }) x))
  else s

/-- An allocation (R375, R376); the Bool says that a buffer was granted. -/
def poolAlloc (h : HalfId) (stop : Nat) (pool0 : Bool) (size n : Nat) (s : State) : State × Bool :=
  let order := poolOrder pool0 size
  match order.find? (poolServes (s.half h)) with
  | some p =>
    let s := if p == 0 then s.upd h (count 26 0x15 1) else s
    (poolTake h p stop n s, true)
  | none => (poolRefuse h (order.getD 0 1) stop size s, false)

/-- A refused operation: counted, source 27 and POOL_CORRUPT; nothing else changes (R373). -/
def poolCorrupt (h : HalfId) (p cause address stop : Nat) (s : State) : State :=
  let s := s.upd h (fun x => count 26 0x13 1 (updPool p (fun q =>
    if cause == 1 then { q with doubleFrees := sat32 q.doubleFrees } else { q with corruption := sat32 q.corruption }) x))
  event h 0x060D sevAlarm (mkHandle 0x0D h p) (le 4 cause ++ le 8 address ++ le 4 stop) (latchHw 6 h 27 false s)

/-- The pool and the index of the buffer that starts at an address. -/
def poolFind (x : Half) (a : Nat) : Option (Nat × Nat) :=
  (List.range 16).findSome? (fun p => (bufIndex p (poolOf x p) a).map (fun i => (p, i)))

/-- The pool that keeps an old buffer at an address (R378). -/
def poolOld (x : Half) (a : Nat) : Option Nat :=
  (List.range 16).find? (fun p => (poolOf x p).old.any (fun e => e.1 == a))

/-- The pool whose range holds an address, for the name in POOL_CORRUPT; else pool 0. -/
def poolNear (x : Half) (a : Nat) : Nat :=
  ((List.range 16).find? (fun p =>
    let q := poolOf x p
    q.present && q.base ≤ a && a < q.base + q.count * bufSize p)).getD 0

/-- An add (R372): a result above 255 is refused. -/
def poolAddDo (h : HalfId) (stop a n : Nat) (s : State) : State :=
  let x := s.half h
  match poolOld x a with
  | some p => s.upd h (updPool p (fun q => { q with old := mapWhere (fun e => e.1 == a) (fun e => (e.1, e.2 + n)) q.old }))
  | none =>
    match poolFind x a with
    | none => poolCorrupt h (poolNear x a) 2 a stop s
    | some (p, i) =>
      match heldCount (poolOf x p) i with
      | none => poolCorrupt h p 1 a stop s
      | some c =>
        if 255 < c + n then poolCorrupt h p 3 a stop s
        else s.upd h (updPool p (fun q => { q with held := mapWhere (fun e => e.1 == i) (fun _ => (i, c + n)) q.held }))

/-- The payload of a returned-buffers entry (R380). -/
def returnPayload (addrs : List Nat) : List Byte :=
  le 1 addrs.length ++ le 1 1 ++ List.replicate 6 0 ++ addrs.flatMap (le 8)

/-- An entry that returns buffers of a pool. -/
def returnEntry (h : HalfId) (p : Nat) (addrs : List Nat) : AsrEntry :=
  { kind := 0x0B06, tag := 0, handle := mkHandle 0x0D h p, sequence := 0, time := 0, payload := returnPayload addrs }

/-- A buffer goes back to the host (R379, R380): an ASR entry, a waiting notice, the return list, or it stays held with
count 0 until the list has room (R82). -/
def poolReturn (h : HalfId) (p a : Nat) (s : State) : State :=
  let x := s.half h
  let q := poolOf x p
  let idx := (a - q.base) / bufSize p
  let release := fun (s : State) => s.upd h (updPool p (fun q => { q with held := q.held.filter (fun e => e.1 != idx) }))
  let joins := fun (e : AsrEntry) => e.kind == 0x0B06 && e.handle == mkHandle 0x0D h p && rd e.payload 0 1 < 4
  if !asrFull x && x.asr.notices.isEmpty && x.asr.marks.isEmpty then
    release (asrWrite h { returnEntry h p [a] with time := x.clk.now } s)
  else if x.asr.notices.any joins then
    let join := fun (e : AsrEntry) =>
      let olds := (List.range (rd e.payload 0 1)).map (fun k => rd e.payload (8 + 8 * k) 8)
      { e with payload := returnPayload (olds ++ [a]) }
    release (s.upd h (fun x => { x with asr := { x.asr with notices := mapWhere joins join x.asr.notices } }))
  else if x.asr.notices.length < 256 then
    release (s.upd h (fun x => { x with asr := { x.asr with notices := x.asr.notices ++ [{ returnEntry h p [a] with time := x.clk.now }] } }))
  else if q.returnList.length < 1024 then
    release (s.upd h (updPool p (fun q => { q with returnList := q.returnList ++ [a] })))
  else
    s.upd h (updPool p (fun q => { q with
      held := mapWhere (fun e => e.1 == idx) (fun _ => (idx, 0)) q.held
      returning := addNew a q.returning }))

/-- A buffer's count reaches 0: state 0 and the head of its list, or back to the host (R372, R377, R378, R379). -/
def poolFree (h : HalfId) (p i a : Nat) (s : State) : State :=
  let q := poolOf (s.half h) p
  if q.hostManaged then poolReturn h p a s
  else
    let s := s.upd h (updPool p (fun q => { q with held := q.held.filter (fun e => e.1 != i) }))
    let s := if i < q.count && !q.rebuilding && !((((s.half h).dch.getD (chanOf q.base) {}).frozen).isSome) then
        s.upd h (fun x => updPool p (fun q => { q with
          head := a, cached := if q.head == endMark then [] else (q.head :: q.cached).take 15 }) (devWrite a (le 8 q.head) x))
      else s
    poolWater h p s

/-- A release (R372, R373). -/
def poolReleaseDo (h : HalfId) (stop a : Nat) (s : State) : State :=
  let x := s.half h
  match poolOld x a with
  | some p =>
    s.upd h (fun x => count 26 0x11 1 (updPool p (fun q => { q with
      releases := sat32 q.releases
      old := (mapWhere (fun e => e.1 == a) (fun e => (e.1, e.2 - 1)) q.old).filter (fun e => e.2 != 0) }) x))
  | none =>
    match poolFind x a with
    | none => poolCorrupt h (poolNear x a) 2 a stop s
    | some (p, i) =>
      match heldCount (poolOf x p) i with
      | none => poolCorrupt h p 1 a stop s
      | some 0 => poolCorrupt h p 1 a stop s
      | some (c + 1) =>
        let s := s.upd h (fun x => count 26 0x11 1 (updPool p (fun q => { q with releases := sat32 q.releases }) x))
        if c == 0 then poolFree h p i a s
        else s.upd h (updPool p (fun q => { q with held := mapWhere (fun e => e.1 == i) (fun _ => (i, c)) q.held }))

/-- POOL_ALLOCATE (R375). The count is 1 to 255 (R372). -/
def execPoolAllocate (h : HalfId) (stop : Nat) (pool0 : Bool) (size count : Nat) (s : State) : Out :=
  .next (if 1 ≤ count && count ≤ 255 && 1 ≤ size && size ≤ 0x400000 && !(s.half h).boot.inReset then
    (poolAlloc h stop pool0 size count s).1 else s)

/-- POOL_ADD (R372, R373). -/
def execPoolAdd (h : HalfId) (stop address count : Nat) (s : State) : Out :=
  .next (if (s.half h).boot.inReset then s else poolAddDo h stop address count s)

/-- POOL_RELEASE (R372, R373). -/
def execPoolRelease (h : HalfId) (stop address : Nat) (s : State) : Out :=
  .next (if (s.half h).boot.inReset then s else poolReleaseDo h stop address s)

/-- POOL_REBUILT (R374): the list stands again and the pool allocates. -/
def execPoolRebuilt (h : HalfId) (pool : Nat) (s : State) : Out :=
  .next (
    let q := poolOf (s.half h) pool
    if !q.rebuilding || (((s.half h).dch.getD (chanOf q.base) {}).frozen).isSome then s
    else
      let s := s.upd h (fun x => count 26 0x14 1 (updPool pool (fun q => { q with
        rebuilding := false, rebuilds := sat32 q.rebuilds }) (poolThread pool x)))
      event h 0x060E sevInfo (mkHandle 0x0D h pool) (le 4 (freeCount q) ++ le 4 (s.now h - q.rebuildSince)) s)

/-- POOL_SUPPLY_DEADLINE (R380): an unanswered request raises ASSIST_LATE once. -/
def execPoolSupplyDeadline (h : HalfId) (pool : Nat) (s : State) : Out :=
  .next (match (poolOf (s.half h) pool).supplyAsked with
    | none => s
    | some d =>
      if s.now h < d then s
      else assistLate h 0x0B06 0 (mkHandle 0x0D h pool) 0 d 1
        (s.upd h (updPool pool (fun q => { q with supplyAsked := none }))))

/-! Assist entries (R79, R80). -/

/-- The payload of an assist entry, by reference where flag bit 1 says so; none for a CRC mismatch (R44). -/
def assistData (a : AssistEntry) : Option (List Byte) :=
  if a.flags.getLsbD 1 then
    if a.ref.length == rd a.payload 8 4 && crc32c a.ref == rd a.payload 12 4 then some a.ref else none
  else some (pad 40 a.payload)

/-- The `n`-byte field of an assist payload at an entry offset from 24. -/
def afld (p : List Byte) (off n : Nat) : Nat := rd p (off - 24) n

/-- The device takes an assist entry and matches it to its object (R80): a malformed entry is discarded as such, data for an
object that is not in the running envelope or not host-assisted is unexpected. -/
def runAssist (h : HalfId) (kind function : Nat) (a : AssistEntry) (s : State) (body : List Byte → State → State) : State :=
  if !(s.half h).alive then s
  else
    let s := takeAssist h s
    let x := s.half h
    if a.flags.toNat / 4 != 0 || a.flags.getLsbD 0 || a.reserved != 0 then
      assistLate h kind a.tag.toNat a.handle a.sequence.toNat a.time.toNat 2 s
    else if a.handle != 0 && (recOf x.running a.handle).isNone then assistUnexpected h kind a.tag.toNat a.handle 2 s
    else if !modeHost x function a.handle then assistUnexpected h kind a.tag.toNat a.handle 1 s
    else match assistData a with
      | none => assistLate h kind a.tag.toNat a.handle a.sequence.toNat a.time.toNat 2 s
      | some p => body p s

/-- One supplied address: the start of a buffer in state 0 that is not queued yet, else discarded (R380). -/
def poolSupplyOne (h : HalfId) (p : Nat) (s : State) (a : Nat) : State :=
  let q := poolOf (s.half h) p
  let ok := match bufIndex p q a with
    | some i => i < q.count && (heldCount q i).isNone && !q.hostQueue.contains a && q.hostQueue.length < 1024
    | none => false
  if ok then s.upd h (updPool p (fun q => { q with hostQueue := q.hostQueue ++ [a] }))
  else poolCorrupt h p 5 a 12 s

/-- POOL_FREE_LIST_SUPPLY (R380): free buffers from the host. -/
def execPoolFreeListSupply (h : HalfId) (a : AssistEntry) (s : State) : Out :=
  .next (runAssist h 0x0B06 fnPool a s (fun p s =>
    let n := afld p 24 1
    if 4 < n || afld p 25 7 != 0 then assistLate h 0x0B06 a.tag.toNat a.handle a.sequence.toNat a.time.toNat 2 s
    else
      let pool := hIndex a.handle
      let s := s.upd h (updPool pool (fun q => { q with supplyAsked := none }))
      ((List.range n).map (fun k => afld p (32 + 8 * k) 8)).foldl (poolSupplyOne h pool) s))

end Sys2Proof.Machine
end

