-- ==== Sys2Proof/Machine/Counters.lean ====
section
/-!
DEFINITION. Counters.lean: programming and reading counters (R416 to R424, R578) and the counter reel (R425 to R430).
-/
namespace Sys2Proof.Machine

/-- The unit whose block a counter block is, when it can retire (R416). -/
def blockRetired (x : Half) (b : Nat) : Bool :=
  if b < 8 then ((x.enc.getD b {}).flags).retired
  else if b < 14 then ((x.dec.getD (b - 8) {}).flags).retired
  else if 18 ≤ b && b < 22 then ((x.cmp.getD (b - 18) {}).flags).retired
  else if 22 ≤ b && b < 26 then ((x.dch.getD (b - 22) {}).flags).retired
  else if b == 28 || b == 29 then ((x.net.getD (b - 28) {}).flags).retired
  else false

/-- The last event code from 0x10 that R418 gives a block, and whether DRAM's second group belongs to it. -/
def lastCode (b : Nat) : Nat :=
  if b < 8 then 0x1A
  else if b < 14 then 0x17
  else if b < 18 then 0x12
  else if b < 22 then 0x15
  else if b < 26 then 0x19
  else if b == 26 then 0x15
  else if b == 27 then 0x14
  else if b < 30 then 0x17
  else if b == 30 then 0x15
  else if b == 31 then 0x14
  else if b == 32 then 0x13
  else if b == 33 then 0x14
  else if b == 34 then 0x13
  else 0x11

/-- R418 gives the event code for the block. -/
def codeGiven (b code : Nat) : Bool :=
  code ≤ 7 || (0x10 ≤ code && code ≤ lastCode b) || (22 ≤ b && b < 26 && 0x20 ≤ code && code ≤ 0x29)

def counterProgramSpec : OpSpec := { opcode := 0x0701, handle := .zero, minLen := 48 }

/-- The counters that the mask selects take their configuration and values in one clock (R424). -/
def programBlock (e : CmdEntry) (b : CtrBlock) : CtrBlock :=
  let mask := fld e 17 1
  let flags := fld e 18 1
  (List.range 8).foldl (fun b i =>
    if !mask.testBit i then b
    else
      let b := if flags.testBit 2 then b else { b with
        events := b.events.set i (fld e (20 + i) 1)
        enable := setBit b.enable i ((fld e 28 1).testBit i)
        chain := setBit b.chain i ((fld e 29 1).testBit i) }
      let b := if flags.testBit 0 then { b with values := b.values.set i (BitVec.ofNat 32 (fld e (32 + 4 * i) 4)) } else b
      if flags.testBit 1 then { b with ovf := setBit b.ovf i false } else b) b

/-- COUNTER_PROGRAM (R424). -/
def execCounterProgram (h : HalfId) (e : CmdEntry) (s : State) : Out :=
  .next (runCmd h counterProgramSpec e none s (fun s =>
    let x := s.half h
    let b := fld e 16 1
    guarded [bad6 (36 ≤ b) 16, bad6 (8 ≤ fld e 18 1) 18, bad6 (fld e 19 1 != 0) 19,
      bad6 (!((fld e 18 1).testBit 2) && ((List.range 8).any (fun i =>
        (fld e 17 1).testBit i && !codeGiven b (fld e (20 + i) 1)))) 20,
      bad6 (fld e 29 1 % 2 != 0 || (fld e 29 1).testBit 2 || (fld e 29 1).testBit 4 || (fld e 29 1).testBit 6) 29,
      bad6 (fld e 30 2 != 0) 30,
      failIf (blockRetired x b) { status := stRetired, step := 8, offset := 16 }] s (fun s =>
      .ok (le 8 (s.now h)) (s.upd h (fun x => { x with ctr := { x.ctr with
        blocks := x.ctr.blocks.modify b (programBlock e) } })))))

def counterReadSpec : OpSpec := { opcode := 0x0702, handle := .zero, minLen := 1 }

/-- The values and OVF bits of a block, as COUNTER_READ and a snapshot latch them (R427, R578). -/
def blockValues (b : CtrBlock) : List Byte := b.values.flatMap (fun v => le 4 v.toNat)

/-- COUNTER_READ (R578). -/
def execCounterRead (h : HalfId) (e : CmdEntry) (s : State) : Out :=
  .next (runCmd h counterReadSpec e none s (fun s =>
    let b := fld e 16 1
    guarded [bad6 (36 ≤ b) 16, checkReserved e [(16, 1)]] s (fun s =>
      let c := (s.half h).ctr.blocks.getD b {}
      .ok (blockValues c ++ le 1 c.ovf.toNat ++ le 1 b) s)))

/-- A snapshot record (R428). -/
def snapshotRecord (x : Half) (mask sequence time flags skipped : Nat) : List Byte :=
  let bs := maskBits 36 mask
  let blocks := bs.map (fun b => x.ctr.blocks.getD b {})
  le 8 sequence ++ le 8 time ++ le 8 mask ++ le 2 bs.length ++ le 2 flags ++ le 4 skipped ++
  blocks.flatMap blockValues ++ blocks.map (fun b => byte b.ovf.toNat)

/-- The record size of a mask (R428). -/
def snapshotSize (mask : Nat) : Nat := (32 + 33 * (maskBits 36 mask).length + 63) / 64 * 64

/-- The reel stops at a write that receives an error response (R430). -/
def reelStop (h : HalfId) (s : State) : State :=
  latchHw 6 h 33 false (s.upd h (fun x => { x with ctr := { x.ctr with reel := { x.ctr.reel with running := false, stopped := true } } }))

/-- One snapshot (R426 to R430): the record, the status block, the notice. -/
def reelSnapshot (h : HalfId) (r : Record) (a instant : Nat) (s : State) : State :=
  let x := s.half h
  let reel := x.ctr.reel
  let period := rd r 36 4
  let ring := rd r 40 4
  let mask := rd r 24 8 % 2 ^ 36
  let size := snapshotSize mask
  let missed := if reel.first then 0 else (instant - reel.lastInstant) / period - 1
  let skipped := satAdd reel.skipped missed
  let n := reel.sequence + 1
  let flags := packBits [missed != 0 || reel.skippedSince, reel.steppedSince, reel.first]
  let record := pad size (snapshotRecord x mask n instant flags skipped)
  let at_ := a + 64 + (n - 1) % ring * size
  let status := pad 64 (le 8 n ++ le 8 instant ++ le 4 size ++ le 4 ring ++ le 4 skipped)
  let s := s.upd h (fun x =>
    { devWrite a status (devWrite at_ record x) with ctr := { x.ctr with reel := { reel with
        sequence := n, skipped := skipped, skippedSince := false, steppedSince := false, first := false
        lastInstant := instant, lastTime := instant } } })
  let notify := rd r 44 2
  if notify != 0 && n % notify == 0 then icuRaise h 135 s else s

/-- COUNTER_SNAPSHOT (R427): the next instant has come. -/
def execCounterSnapshot (h : HalfId) (writeOk : Bool) (s : State) : Out :=
  .next (
    let x := s.half h
    match exposure h x with
    | none => s
    | some r =>
      let region := rd r 32 4
      let period := rd r 36 4
      let instant := if period == 0 then 0 else x.clk.now / period * period
      if !x.ctr.reel.running || region == 0 || period == 0 || (!x.ctr.reel.first && instant ≤ x.ctr.reel.lastInstant) then s
      else match placedAt x (region % 0x10000) with
        | none => reelStop h s
        | some p =>
          if !writeOk || onFrozen x (placeAddr p) then reelStop h s
          else reelSnapshot h r (placeAddr p) instant s)

end Sys2Proof.Machine
end

