-- ==== Sys2Proof/Machine/Boot.lean ====
section
/-!
DEFINITION. Boot.lean: resets and the boot of a half (R486 to R500, R589), and the security and firmware commands
(R489 to R506, R582 to R584), with IDENTIFY (R564).
-/
namespace Sys2Proof.Machine

/-! Resets (R486 to R488). -/

/-- A half enters reset (R487, R560): everything of it is cleared but the fuses, RESET_CAUSE bits 5 to 1 (PORST_N clears them),
its life (from flash after a power-on reset, R529) and temperatures, and, until it is released, its clock. PORST_N and the pin
end a thermal shutdown (R532). `kind` is the RESET_CAUSE bit. -/
def resetHalf (kind : Nat) (x : Half) : Half :=
  { clk := if kind == 0 then {} else x.clk
    boot := { inReset := true, resetKind := kind, fuses := x.boot.fuses
              cause := if kind == 0 then 1 else setBit (setBit x.boot.cause 0 false) kind true }
    pwr := { islands := x.pwr.islands.map (fun i => { celsius := i.celsius, slowdown := i.slowdown })
             setpoint := x.pwr.setpoint, brownOut := x.pwr.brownOut
             shutdown := if kind ≤ 1 then false else x.pwr.shutdown
             shutdownTimes := if kind ≤ 1 then [] else x.pwr.shutdownTimes, coolSince := x.pwr.coolSince
             shutIsland := x.pwr.shutIsland, shutTemp := x.pwr.shutTemp
             life := if kind == 0 then x.pwr.lifeStored else x.pwr.life, lifeStored := x.pwr.lifeStored, lifeSeconds := x.pwr.lifeSeconds
             lifeAt := x.pwr.lifeAt, agedAt := x.pwr.agedAt }
    pcie := { linkUp := x.pcie.linkUp, msixMask := x.pcie.msixMask, pba := 0
              msixAddr := x.pcie.msixAddr, msixData := x.pcie.msixData }
    lastRead := x.lastRead
    out := x.out }

/-- The half enters reset; a staging of its own is aborted with WRITTEN clear (R488, R501). -/
def enterReset (h : HalfId) (kind : Nat) (s : State) : State :=
  let s := s.upd h (resetHalf kind)
  if s.flash.staging == some h then { s with flash := { s.flash with staging := none } } else s

/-- PORST_ASSERT (R486): both halves. -/
def execPorstAssert (s : State) : Out :=
  .next (enterReset .west 0 (enterReset .east 0 { s with porstLow := true }))

/-- RESET_PIN_ASSERT (R486): its half. -/
def execResetPinAssert (h : HalfId) (s : State) : Out := .next (enterReset h 1 s)

/-- HALF_RESET_DELAY_EXPIRY (R488, R532): the delayed reset of HALF_RESET or of a thermal shutdown. -/
def execHalfResetDelayExpiry (h : HalfId) (s : State) : Out :=
  .next (match (s.half h).boot.resetAt with
    | none => s
    | some t =>
      if s.now h < t then s
      else
        let kind := (s.half h).boot.resetKind
        let r := enterReset h kind s
        if kind == 5 then r.upd h (fun x => { x with pwr := { x.pwr with shutdown := true, coolSince := none } }) else r)

/-- TRIAL_RESET (R499): 10 ms after the STOP_TETHER of a trial half. -/
def execTrialReset (h : HalfId) (s : State) : Out :=
  .next (match (s.half h).boot.trialResetAt with
    | none => s
    | some t => if s.now h < t then s else enterReset h 4 s)

/-- A delayed reset is set 100 µs ahead, after STOP_TETHER (R488). -/
def resetSoon (h : HalfId) (kind : Nat) (s : State) : State :=
  if (s.half h).boot.inReset then s
  else (stopTether h s).upd h (fun x => { x with boot := { x.boot with
    resetAt := some (x.clk.now + 100000), resetKind := kind } })

def halfResetSpec : OpSpec := { opcode := 0x0102, handle := .zero, minLen := 1 }

/-- HALF_RESET (R488, R565): completes with OK; the tether stops now and the reset follows 100 µs later. -/
def execHalfReset (h : HalfId) (e : CmdEntry) (s : State) : Out :=
  .next (runCmd h halfResetSpec e none s (fun s =>
    let target := fld e 16 1
    guarded [bad6 (1 < target) 16, checkReserved e [(16, 1)],
      if target == 1 then checkLead (s.half h) else none] s (fun s =>
      .ok [] (if target == 1 then resetSoon h.other 3 s else resetSoon h 2 s))))

/-! Slots and the primer (R492, R495, R498). -/

def slotOf (f : Flash) (b : Bool) : Slot := if b then f.slotB else f.slotA
def setSlot (f : Flash) (b : Bool) (x : Slot) : Flash := if b then { f with slotB := x } else { f with slotA := x }

def tried (h : HalfId) (x : Slot) : Bool := match h with | .east => x.triedE | .west => x.triedW
def confirmed (h : HalfId) (x : Slot) : Bool := match h with | .east => x.confirmedE | .west => x.confirmedW

def setTried (h : HalfId) (x : Slot) : Slot :=
  match h with | .east => { x with triedE := true } | .west => { x with triedW := true }
def setConfirmed (h : HalfId) (x : Slot) : Slot :=
  match h with | .east => { x with confirmedE := true } | .west => { x with confirmedW := true }

/-- The order of the P-256 group. -/
def groupOrder : Nat := 2 ^ 256 - 2 ^ 224 + 2 ^ 192 - 0x4319055258E8617B0C46353D039CDAAF

/-- A big-endian number of `n` bytes of a signature block (R493). -/
def blockNum (b : List Byte) (at_ n : Nat) : Nat := leVal ((b.drop at_).take n).reverse

/-- A scalar of a signature lies in 1 to n − 1 (R494). -/
def scalarOk (v : Nat) : Bool := v != 0 && decide (v < groupOrder)

/-- The form of a signature block (R493): magic, key index, reserved bytes. -/
def blockFormOk (b : List Byte) : Bool :=
  b.length == 144 && blockNum b 0 4 == 0x44525347 && rd b 4 1 < 4 && rd b 5 3 == 0 && rd b 136 8 == 0

/-- Why a signed item is not accepted, 0 when it is (R494): 1 form, 2 key hash, 3 key revoked, 4 signature. -/
def itemFail (fz : Fuses) (i : SignedItem) : Nat :=
  let b := i.block
  let hash := fz.keyHash.getD (rd b 4 1) 0
  if !blockFormOk b then 0x01
  else if hash == 0 then 0x02
  else if fz.revocation.getLsbD (rd b 4 1) then 0x03
  else if digestVal (sha256 ((b.drop 8).take 64)) != hash then 0x02
  else if !scalarOk (blockNum b 72 32) || !scalarOk (blockNum b 104 32) || !i.verifies then 0x04
  else 0

/-- The checks of a microcode image of a target after its signature (R480, R481). -/
def imageOk (target : Nat) (i : ImageFacts) : Bool :=
  let b := i.header
  b.length == 64 && rd b 0 4 == 0x434D5244 && rd b 4 2 == 1 && rd b 6 1 == target && rd b 7 1 == 0 && rd b 16 2 == 4096 &&
  rd b 18 2 ≤ 1780 && (List.range 8).all (fun k => if k < 4 then decide (rd b (20 + 2 * k) 2 < 4096) else rd b (20 + 2 * k) 2 == 0) &&
  (b.drop 40).all (fun v => v == 0) && i.badWords == 0

/-- The signed items of a slot, the header first. -/
def slotItems (f : SlotFacts) : List SignedItem := f.header :: f.keel :: f.images.map (fun i => i.item)

/-- Every component measures as the component table says, and every image passes R481 (R495). -/
def componentsOk (f : SlotFacts) (b : Bundle) : Bool :=
  ((slotItems f).drop 1).map (fun i => i.measurement) == b.measurements && f.images.zipIdx.all (fun p => imageOk (p.2 + 1) p.1)

/-- Why a slot is not eligible for a half, 0 when it is (R495). -/
def slotFail (fz : Fuses) (found : SlotFacts) (x : Slot) : Nat :=
  if x.retired then 0x0B
  else if !x.written || !x.verified then 0x01
  else match (slotItems found).map (itemFail fz) |>.find? (fun c => c != 0) with
  | some code => code
  | none =>
    if !componentsOk found x.bundle then 0x06
    else if x.bundle.security < fz.counter || x.bundle.microSecurity.any (fun v => v < fz.counter) then 0x05
    else if !(x.bundle.members.testBit (Config.member - 1)) then 0x01
    else 0

/-! The board description (R496, R524). -/

/-- The form and the CRC of a board description. -/
def boardCrcOk (b : List Byte) : Bool :=
  let n := rd b 6 2
  rd b 0 4 == 0x44425244 && rd b 4 2 == 1 && 128 ≤ n && n ≤ 65528 && n % 8 == 0 && n ≤ b.length &&
  crc32c (b.take 8 ++ (b.take n).drop 12) == rd b 8 4

/-- SHA-256 over bytes 0 to length − 1. -/
def boardDigest (b : List Byte) : BitVec 256 := digestVal (sha256 (b.take (rd b 6 2)))

/-- Why a half does not accept a description, 0 when it does: its CRC, or with the lock burned its digest. -/
def boardFail (fz : Fuses) (b : List Byte) : Nat :=
  if !boardCrcOk b then 0x07 else if fz.boardLock && boardDigest b != fz.boardDigest then 0x08 else 0

/-- What a half reads out of a description. -/
def boardOf (h : HalfId) (b : List Byte) : BoardDesc :=
  { density := rd b 12 1, ranks := rd b 13 1, rate := rd b 14 2
    caDelays := (List.range 32).map (fun k => rd b (16 + 32 * h.bit + k) 1)
    qspiMhz := rd b 80 1, pcieSpread := (rd b 81 1).testBit 0, ppsFitted := (rd b 81 1).testBit 1
    spreadOff := (rd b 82 1).testBit 0, io := (List.range 46).map (fun k => rd b (82 + k) 1), digest := boardDigest b }

/-- The first step of R498: a slot tried and not confirmed by this half is retired. -/
def retireTrial (h : HalfId) (x : Slot) : Slot :=
  if tried h x && !confirmed h x && !x.retired then { x with retired := true } else x

/-- The slot R498 chooses: slot B or not, and whether the boot is a trial; none halts. -/
def chooseSlot (h : HalfId) (okA okB : Bool) (f : Flash) : Option (Bool × Bool) :=
  let newer : Bool := decide (f.slotA.bundle.generation < f.slotB.bundle.generation)
  let pick := fun (a b : Bool) => if a && b then some newer else if a then some false else if b then some true else none
  let fresh := fun (x : Slot) => !tried h x && !confirmed h x
  match pick (okA && fresh f.slotA) (okB && fresh f.slotB) with
  | some b => some (b, true)
  | none =>
    match pick (okA && confirmed h f.slotA) (okB && confirmed h f.slotB) with
    | some b => some (b, false)
    | none => none

/-- A latch of source 37 in the primer: the bit, its record and its interrupts. Its STOP_TETHER has no tether to stop yet:
the keel starts it at step 7 (R497, R498, log 16). -/
def primerLatch (h : HalfId) (s : State) : State :=
  let s := s.upd h (latchBit 37)
  let s := alarmEvent h 37 (mkEvent (s.half h) 0x0801 sevAlarm 0 (latchDetail 37 37 false)) s
  icuRaise0 h 229 s

/-- The half halts in the primer (R500). -/
def primerHalt (h : HalfId) (code : Nat) (s : State) : State :=
  (primerLatch h s).upd h (fun x => { x with boot := { x.boot with stage := 15, fail := code } })

/-- The priority of a keel-owned source (R589). -/
def keelPriority (n : Nat) : Nat :=
  if n < 64 then 56
  else if n == 140 || n == 141 || n == 143 then 48
  else if (112 ≤ n && n ≤ 134) || (136 ≤ n && n ≤ 139) || n == 142 then 40
  else if 144 ≤ n && n ≤ 151 then 32
  else if n == 95 || n == 96 || n == 99 then 24
  else 16

/-- The entry firmware writes for a keel-owned source (R589). -/
def keelEntry (n : Nat) : W32 :=
  if icuReserved n || icuHostOwned n then 0
  else
    let v := 3 + 4 * keelPriority n
    BitVec.ofNat 32 (v + 0x80000000 * parity18 v)

/-- The widest run of passing taps, as its start and length; the first of equals (log 20). -/
def widestRun : List Bool → Nat → Nat → Nat × Nat → Nat × Nat
  | [], from_, tap, best => if best.2 < tap - from_ then (from_, tap - from_) else best
  | b :: bs, from_, tap, best =>
    if b then widestRun bs from_ (tap + 1) best
    else widestRun bs (tap + 1) (tap + 1) (if best.2 < tap - from_ then (from_, tap - from_) else best)

def LaneSweep.run (l : LaneSweep) : Nat × Nat := widestRun l.passing 0 0 (0, 0)

/-- The centre of the widest run, rounded down (R350). -/
def sweepCentre (l : LaneSweep) : Nat := (LaneSweep.run l).1 + ((LaneSweep.run l).2 - 1) / 2

/-- A lane direction trains: its widest run over 128 taps has at least 12. -/
def sweepTrains (l : LaneSweep) : Bool := l.passing.length == 128 && decide (12 ≤ (LaneSweep.run l).2)

/-- A try trains a channel: the read and the write delay of each of its eight byte lanes. -/
def tryTrains (lanes : List LaneSweep) : Bool := lanes.length == 16 && lanes.all sweepTrains

/-- Start-up training (R350, R351): a channel trains within four tries, or it is retired with its source latched. The command/address and chip-select
delays are the board description's. -/
def startTraining (h : HalfId) (f : BootFacts) (board : BoardDesc) (s : State) : State :=
  (List.range 4).foldl (fun s n =>
    match ((f.training.getD n []).take 4).find? tryTrains with
    | some lanes =>
      s.upd h (fun x => { x with dch := x.dch.modify n (fun c => { c with
        flags := { c.flags with inService := true }
        train := { c.train with trained := true, last := x.clk.now, lanes := lanes.map sweepCentre
                                caDelays := (board.caDelays.drop (8 * n)).take 8 } }) })
    | none =>
      let s := s.upd h (fun x => counterRetires (22 + n) { x with dch := x.dch.modify n (fun c => { c with
        flags := { c.flags with inService := false, retired := true, enable := false } }) })
      let s := latchHw 6 h (22 + n) false s
      event h 0x0606 sevAlarm (mkHandle 0x10 h (0xFF00 + n)) (le 4 1) s) s

/-- The lowest-numbered channel in service. -/
def firstChannel (x : Half) : Option Nat :=
  (List.range 4).find? (fun n => ((x.dch.getD n {}).flags).inService)

/-- Step 7 of R497: firmware starts, its entries are written (R589), the reserve is placed (R336), the tether starts, DMA.x31
runs, VREQ takes the setpoint (R512). -/
def keelStart (h : HalfId) (b trial other : Bool) (s : State) : State :=
  let slot := slotOf s.flash b
  let board := boardOf h (slotOf s.flash (b != other)).board
  s.upd h (fun x =>
    { x with
      boot := { x.boot with
        stage := 7, slotB := b, trial := trial, boardOther := other, security := slot.bundle.security
        keelStart := x.clk.now, bundle := slot.bundle, board := board }
      icu := { x.icu with cfg := (List.range 512).map keelEntry }
      bri := { x.bri with tetherRun := true, tetherStart := x.clk.now, sparUp := s.sparPhys, idleAt := x.clk.now }
      dram := { x.dram with reserve := (firstChannel x).map (fun n => (n, 0)) }
      dma := { x.dma with channels := x.dma.channels.modify 31 (fun d => { d with enable := true }) }
      pwr := { x.pwr with vreq := x.pwr.setpoint, vreqOld := 16, vreqAt := x.clk.now }
      ev := { x.ev with balanceAt := x.clk.now } })

/-- Lead at boot (R448): a partner that holds the lead, or whose tether is alive over the link, is joined; otherwise the
LEAD_PREF half takes lead with epoch 1 after PORST_N. -/
def joinLead (h : HalfId) (s : State) : State :=
  let p := s.half h.other
  let x := s.half h
  if p.bri.tetherRun && s.sparWorks && (x.boot.resetKind != 0 || p.bri.lead) then
    s.upd h (fun x => { x with clk := p.clk, bri := { x.bri with epoch := p.bri.epoch, partnerEpoch := p.bri.epoch } })
  else if x.boot.resetKind == 0 && s.leadPref == h then
    let s := s.upd h (fun x => { x with bri := { x.bri with lead := true, epoch := 1, lastCause := 6, lastChange := x.clk.now } })
    event h 0x0901 sevWarning 0 (le 4 h.bit ++ le 4 1 ++ le 4 6) (icuRaise h 141 s)
  else s

/-- Device time when the half is released (R486): 0 after PORST_N, else the partner's over the link, or 0. -/
def releaseClock (h : HalfId) (s : State) : Clock :=
  if (s.half h).boot.resetKind != 0 && s.sparPhys && (s.half h.other).bri.sparUp then (s.half h.other).clk else {}

/-- The boot of a half from its release to step 7 or to its halt (R497 to R500). -/
def bootHalf (h : HalfId) (f : BootFacts) (s : State) : State :=
  let clk := releaseClock h s
  let s := if s.porstLow then { s with porstLow := false, leadPref := f.leadPref } else s
  let s := s.upd h (fun x => { x with clk := clk, boot := { x.boot with inReset := false, stage := 2 } })
  let reverted := fun (x : Slot) => tried h x && !confirmed h x && !x.retired
  let revA := reverted s.flash.slotA
  let revB := reverted s.flash.slotB
  let s := { s with flash := { s.flash with slotA := retireTrial h s.flash.slotA, slotB := retireTrial h s.flash.slotB } }
  let fz := (s.half h).boot.fuses
  let failA := slotFail fz f.slotA s.flash.slotA
  let failB := slotFail fz f.slotB s.flash.slotB
  let skip := fun (code : Nat) (s : State) =>
    if code == 0 then s else (primerLatch h s).upd h (fun x => { x with boot := { x.boot with fail := code } })
  let s := skip failB (skip failA s)
  match chooseSlot h (failA == 0) (failB == 0) s.flash with
  | none => primerHalt h (if failB != 0 then failB else failA) s
  | some (b, trial) =>
    let s := if trial then { s with flash := setSlot s.flash b (setTried h (slotOf s.flash b)) } else s
    let own := (slotOf s.flash b).board
    let far := (slotOf s.flash (!b)).board
    let ownFail := boardFail fz own
    let ownOk := ownFail == 0
    if !ownOk && boardFail fz far != 0 then primerHalt h ownFail s
    else
      let board := boardOf h (if ownOk then own else far)
      let s := if ownOk then s else s.upd h (fun x => { x with boot := { x.boot with fail := ownFail } })
      if !fitOk board then primerHalt h 0x09 s
      else
        let s := startTraining h f board s
        if (firstChannel (s.half h)).isNone then primerHalt h 0x0A s
        else
          let s := keelStart h b trial (!ownOk) s
          let s := joinLead h s
          let reject := fun (n code : Nat) (s : State) =>
            if code == 0 then s else event h 0x0A02 sevAlarm 0 (le 4 n ++ le 4 code ++ le 4 h.bit) s
          let revert := fun (n : Nat) (on : Bool) (s : State) =>
            if on then event h 0x0A04 sevAlarm 0 (le 4 n ++ le 4 (slotOf s.flash (n == 1)).bundle.generation) s else s
          let s := reject 1 failB (reject 0 failA (revert 1 revB (revert 0 revA s)))
          let x := s.half h
          let s := if x.boot.resetKind == 5 then
              event h 0x0809 sevAlarm 0 (le 4 x.pwr.shutIsland ++ le 4 (unsigned 32 x.pwr.shutTemp) ++
                le 4 x.pwr.shutdownTimes.length) s else s
          let s := event h 0x080C sevInfo 0 (le 4 16 ++ le 4 x.pwr.setpoint ++ le 4 1) s
          (event h 0x0A01 sevInfo 0 (le 4 (b2n b) ++ le 4 (b2n trial) ++ le 4 (resetCause x.boot) ++
            le 4 (Config.bootDuration s.free)) s).tick1

/-- RESET_RELEASE (R497): the half is released and boots. A half held in brown-out or in thermal shutdown stays in
reset (R518, R532). -/
def execResetRelease (h : HalfId) (f : BootFacts) (s : State) : Out :=
  .next (
    let x := s.half h
    if x.boot.inReset && !x.pwr.brownOut && !x.pwr.shutdown then bootHalf h f s else s)

/-! Confirmation (R502). -/

/-- The running slot takes its CONFIRMED flag; `how` is 1 automatic, 2 FW_CONFIRM. -/
def confirmTrial (h : HalfId) (how : Nat) (s : State) : State :=
  let b := (s.half h).boot.slotB
  let slot := setConfirmed h (slotOf s.flash b)
  let s := { s with flash := setSlot s.flash b slot }
  event h 0x0A03 sevInfo 0 (le 4 (b2n b) ++ le 4 slot.bundle.generation ++ le 4 how)
    (s.upd h (fun x => { x with boot := { x.boot with trial := false } }))

/-- TRIAL_AUTO_CONFIRM (R502): 60 s after the keel started. -/
def execTrialAutoConfirm (h : HalfId) (s : State) : Out :=
  .next (
    let x := s.half h
    if x.alive && x.boot.trial && !x.boot.trialBroken && x.boot.keelStart + 60000000000 ≤ x.clk.now &&
        !(slotOf s.flash x.boot.slotB).hold then confirmTrial h 1 s else s)

def fwConfirmSpec : OpSpec := { opcode := 0x0A05, handle := .zero, minLen := 0 }

/-- FW_CONFIRM (R502, R582). -/
def execFwConfirm (h : HalfId) (e : CmdEntry) (s : State) : Out :=
  .next (runCmd h fwConfirmSpec e none s (fun s =>
    guarded [failIf (!(s.half h).boot.trial) { status := stBadField, step := 8 }] s (fun s => .ok [] (confirmTrial h 2 s))))

/-- KEEL_WATCHDOG_EXPIRY (R446): firmware has not kicked for 10 ms. -/
def execKeelWatchdogExpiry (h : HalfId) (s : State) : Out :=
  .next (if (s.half h).alive then latchHw 6 h 49 false s else s)

/-! Firmware update (R501). -/

/-- The slots that running halves have booted. -/
def bootedSlots (s : State) : List Bool :=
  (if s.east.alive then [s.east.boot.slotB] else []) ++ (if s.west.alive then [s.west.boot.slotB] else [])

/-- The slot that neither half has booted from (R501). -/
def inactiveSlot (s : State) : Option Bool :=
  let used := bootedSlots s
  if used.contains true && used.contains false then none else some (!used.contains true)

def fwStageSpec : OpSpec := { opcode := 0x0A03, handle := .zero, minLen := 25, byRef := true, alwaysRef := true }

/-- FW_STAGE (R501, R583). -/
def execFwStage (h : HalfId) (e : CmdEntry) (r : RefFetch) (s : State) : Out :=
  .next (runCmd h fwStageSpec e (some r) s (fun s =>
    let off := fld e 32 8
    let flags := fld e 40 1
    let first := flags.testBit 0
    let last := flags.testBit 1
    let len := r.bytes.length
    let target := inactiveSlot s
    let staged := match target with
      | some b => if s.flash.staging == some h then (slotOf s.flash b).staged else 0
      | none => 0
    guarded [bad6 (off != if first then 0 else staged) 32, bad6 (!first && s.flash.staging != some h) 32,
      bad6 (4 ≤ flags) 40, bad6 (!last && (len % 4096 != 0 || 0x100000 < len)) 24, bad6 (16707584 < off + len) 24,
      failIf (target.isNone || s.flash.staging == some h.other) { status := stNoResource, step := 9 }] s (fun s =>
      match target with
      | none => .ok [] s
      | some b =>
        let slot := slotOf s.flash b
        let slot := if first then
            { slot with written := false, verified := false, triedE := false, triedW := false, confirmedE := false
                        confirmedW := false, retired := false, hold := false, staged := 0, data := [] } else slot
        let slot := { slot with data := memWrite (0x1000 + off) r.bytes slot.data, staged := off + len, written := last }
        .ok (le 8 (off + len)) { s with flash := { setSlot s.flash b slot with staging := if last then none else some h } })))

/-- What the header and the components of a staged bundle say (R495, log 10). -/
def stagedBundle (d : Mem) : Bundle :=
  { generation := Config.bundleField d 0, security := Config.bundleField d 1, keyIndex := Config.bundleField d 2 % 4
    revokeMask := BitVec.ofNat 4 (Config.bundleField d 3), firmware := Config.bundleField d 4
    microcode := [Config.bundleField d 5, Config.bundleField d 6, Config.bundleField d 7]
    microSecurity := [Config.bundleField d 8, Config.bundleField d 9, Config.bundleField d 10]
    measurements := [Config.bundleMeasurement d 0, Config.bundleMeasurement d 1, Config.bundleMeasurement d 2,
      Config.bundleMeasurement d 3]
    members := Config.bundleField d 11 }

/-- The signed items and images of a staged bundle (R493, R495, log 10). -/
def stagedFacts (d : Mem) : SlotFacts :=
  let item := fun (k : Nat) => SignedItem.mk (Config.bundleBlock d k) (Config.bundleMeasurement d (k - 1)) (Config.bundleVerifies d k)
  { header := item 0, keel := item 1, images := [2, 3, 4].map (fun k => ⟨item k, Config.bundleImage d k, Config.bundleBadWords d k⟩) }

def fwVerifySpec : OpSpec := { opcode := 0x0A04, handle := .zero, minLen := 1 }

/-- FW_VERIFY (R501, R582): the staged slot against the counters of both halves. -/
def execFwVerify (h : HalfId) (e : CmdEntry) (s : State) : Out :=
  .next (runCmd h fwVerifySpec e none s (fun s =>
    guarded [bad6 (2 ≤ fld e 16 1) 16, checkReserved e [(16, 1)],
      failIf ((inactiveSlot s).isNone) { status := stNoResource, step := 9 }] s (fun s =>
      match inactiveSlot s with
      | none => .ok [] s
      | some b =>
        let slot := slotOf s.flash b
        let bundle := stagedBundle slot.data
        let staged := { slot with verified := true, retired := false, bundle := bundle }
        let own := slotFail (s.half h).boot.fuses (stagedFacts slot.data) staged
        let code := if own != 0 then own else slotFail (s.half h.other).boot.fuses (stagedFacts slot.data) staged
        if code != 0 then .fail { status := stAuthFailed, step := 9, detail := le 1 code } s
        else
          .ok (List.replicate 4 0 ++ le 4 0 ++ le 4 bundle.generation ++ le 1 bundle.security)
            { s with flash := setSlot s.flash b { slot with verified := true, bundle := bundle, hold := (fld e 16 1).testBit 0 } })))

/-- The keys whose fuses FW_SECURITY_COMMIT burns (R503): those the mask names, never the signing key, never the last
unrevoked one. -/
def revokeBurn (f : Fuses) (b : Bundle) : BitVec 4 :=
  (List.range 4).foldl (fun (acc : BitVec 4) k =>
    let after := setBit acc k true
    let left := (List.range 4).any (fun j => !after.getLsbD j && f.keyHash.getD j 0 != 0)
    if b.revokeMask.getLsbD k && k != b.keyIndex && left then after else acc) f.revocation

def burnSecurity (target : Nat) (b : Bundle) (f : Fuses) : Fuses :=
  { f with counter := max f.counter target, revocation := revokeBurn f b }

/-- The counter steps burn one at a time, on the receiving half and then on its partner (log 90), up to the step that reads back unburned after three
tries on half `w`: the steps before it are burned (R503). -/
def burnUntil (h w : HalfId) (step : Nat) (s : State) : State :=
  let upTo := fun (n : Nat) (x : Half) => { x with boot := { x.boot with fuses := { x.boot.fuses with counter := max x.boot.fuses.counter n } } }
  (s.upd h (upTo (if w == h then step - 1 else step))).upd h.other (upTo (step - 1))

/-- A missing step of the counter on the way to the target. -/
def stepMissing (s : State) (target : Nat) (u : HalfId × Nat) : Bool :=
  decide ((s.half u.1).boot.fuses.counter < u.2) && decide (u.2 ≤ target)

def fwSecurityCommitSpec : OpSpec := { opcode := 0x0A06, handle := .zero, minLen := 1 }

/-- FW_SECURITY_COMMIT (R503, R582). A counter fuse that does not burn fails the command with INTERNAL. -/
def execFwSecurityCommit (h : HalfId) (b : BurnEntry) (s : State) : Out :=
  let e := b.entry
  .next (runCmd h fwSecurityCommitSpec e none s (fun s =>
    let target := fld e 16 1
    let okBundle := fun (x : Half) =>
      let slot := slotOf s.flash x.boot.slotB
      target ≤ x.boot.bundle.security && slot.confirmedE && slot.confirmedW
    guarded [bad6 (target == 0 || 128 < target) 16, checkReserved e [(16, 1)],
      failIf (!(s.east.alive && s.west.alive && s.sparWorks) || !s.east.boot.fuses.rail || !s.west.boot.fuses.rail)
        { status := stNoResource, step := 9 },
      failIf (!(okBundle s.east && okBundle s.west)) { status := stBadField, step := 9 }] s (fun s =>
      let before := (s.half h).boot.fuses
      match b.unburned.filter (stepMissing s target) with
      | some u => .fail { status := stInternal, step := 9 } (burnUntil h u.1 u.2 s)
      | none =>
      let burn := fun (x : Half) => { x with boot := { x.boot with fuses := burnSecurity target x.boot.bundle x.boot.fuses } }
      let s := (s.upd .east burn).upd .west burn
      let after := (s.half h).boot.fuses
      let burned := after.revocation &&& ~~~before.revocation
      let s := event h 0x0A05 sevWarning 0 (le 4 before.counter ++ le 4 after.counter ++ le 4 burned.toNat ++ le 4 0) s
      .ok (le 1 s.east.boot.fuses.counter ++ le 1 s.west.boot.fuses.counter ++ le 1 after.revocation.toNat) s)))

def fuseLockSpec : OpSpec := { opcode := 0x0A07, handle := .zero, minLen := 8 }

/-- The locks burned in a bank: the digest of the description its half uses, and the debug lock (R501, R584). -/
def burnLocks (v : Nat) (x : Half) : Half :=
  let f := x.boot.fuses
  { x with boot := { x.boot with fuses := { f with
      boardLock := f.boardLock || v.testBit 0
      boardDigest := if v.testBit 0 && !f.boardLock then x.boot.board.digest else f.boardDigest
      debugLock := f.debugLock || v.testBit 1 } } }

/-- FUSE_LOCK (R584). -/
def execFuseLock (h : HalfId) (e : CmdEntry) (s : State) : Out :=
  .next (runCmd h fuseLockSpec e none s (fun s =>
    let v := fld e 16 1
    guarded [bad6 (4 ≤ v) 16, checkReserved e [(16, 1), (20, 4)], bad6 (fld e 20 4 != 0x4B434F4C) 20,
      failIf (!s.sparWorks || !s.east.boot.fuses.rail || !s.west.boot.fuses.rail) { status := stNoResource, step := 9 },
      failIf (s.east.boot.board.digest != s.west.boot.board.digest) { status := stBadField, step := 9 }] s (fun s =>
      let f := (s.half h).boot.fuses
      let s := (s.upd .east (burnLocks v)).upd .west (burnLocks v)
      let g := (s.half h).boot.fuses
      let burned := packBits [g.boardLock && !f.boardLock, g.debugLock && !f.debugLock]
      let s := event h 0x0A05 sevWarning 0 (le 4 g.counter ++ le 4 g.counter ++ le 4 0 ++ le 4 burned) s
      .ok (le 1 (packBits [g.boardLock, g.debugLock])) s)))

/-! Identity and attestation (R490, R504, R505, R564). -/

/-- The bytes that the fuse configuration digest covers (R490). -/
def fuseBytes (f : Fuses) : List Byte :=
  f.keyHash.flatMap digestBytes ++ le 1 f.revocation.toNat ++ le 1 f.counter ++ le 1 (b2n f.boardLock) ++
  digestBytes f.boardDigest ++ le 1 (b2n f.debugLock)

/-- The report before its signature: bytes 0 to 271 (R505). -/
def attestBody (h : HalfId) (e : CmdEntry) (s : State) : List Byte :=
  let x := s.half h
  let f := x.boot.fuses
  let waits := fun (y : Slot) => y.written && y.verified && !y.retired && !tried h y && !confirmed h y
  pad 272 ([byte 0x44, byte 0x52, byte 0x41, byte 0x54] ++ le 2 1 ++ le 1 h.bit ++
    le 1 (packBits [f.boardLock, f.debugLock, x.boot.trial, waits s.flash.slotA || waits s.flash.slotB]) ++
    le 8 f.serial.toNat ++ le 8 x.clk.now ++ (e.payload.take 32) ++ le 4 Config.primerVersion ++
    le 4 x.boot.bundle.firmware ++ le 4 x.boot.bundle.generation ++ le 1 x.boot.bundle.security ++ le 1 f.counter ++
    le 1 x.boot.bundle.keyIndex ++ le 1 (b2n x.boot.slotB + 16 * f.revocation.toNat) ++
    (List.range 4).flatMap (fun i => digestBytes (x.boot.bundle.measurements.getD i 0)) ++
    digestBytes x.boot.board.digest ++ sha256 (fuseBytes f))

def attestSpec : OpSpec := { opcode := 0x0A01, handle := .zero, minLen := 44, bufAt := 56, bufNeed := 336 }

/-- ATTEST (R505). -/
def execAttest (h : HalfId) (e : CmdEntry) (b : BusResult) (s : State) : Out :=
  .next (runCmd h attestSpec e none s (fun s =>
    guarded [bad6 (fld e 16 32 == 0) 16, checkReserved e [(16, 44)]] s (fun s =>
      let body := attestBody h e s
      let report := body ++ pad 64 (Config.identitySignature (digestVal (sha256 body)))
      replyBuffer h (fld e 48 8) report b (le 4 336) id s)))

def certReadSpec : OpSpec := { opcode := 0x0A02, handle := .zero, minLen := 12, bufAt := 24, bufNeed := 1024 }

/-- CERT_READ (R504, R582). -/
def execCertRead (h : HalfId) (e : CmdEntry) (b : BusResult) (s : State) : Out :=
  .next (runCmd h certReadSpec e none s (fun s =>
    guarded [checkReserved e [(16, 12)]] s
      (fun s =>
        let c := Config.certificate.take 1024
        replyBuffer h (fld e 16 8) c b (le 4 c.length) id s)))

def identifySpec : OpSpec := { opcode := 0x0101, handle := .zero, minLen := 1 }

/-- A page of IDENTIFY (R564). -/
def identifyPage (x : Half) : Nat → List Byte
  | 0 =>
    le 4 x.boot.bundle.firmware ++ le 4 x.boot.bundle.generation ++
    (List.range 3).flatMap (fun i => le 4 (x.boot.bundle.microcode.getD i 0)) ++ le 4 Config.primerVersion ++
    le 1 x.boot.bundle.security ++ le 1 x.boot.fuses.counter ++ le 1 (b2n x.boot.slotB) ++
    le 1 (packBits [x.boot.trial, x.bri.lead, x.bri.fenced]) ++ le 4 x.bri.epoch.toNat ++ le 8 x.boot.fuses.serial.toNat
  | 1 => List.replicate 18 (byte 0x11)
  | _ =>
    [256, 32, 192, 32, 128, 16, 1024, 192].flatMap (le 2) ++ [8, 4096, 16384].flatMap (le 2) ++ le 2 0 ++
    [4194304, 262144, 16777216].flatMap (le 4) ++ le 1 6 ++ le 1 8 ++ le 2 0

/-- IDENTIFY (R564). -/
def execIdentify (h : HalfId) (e : CmdEntry) (s : State) : Out :=
  .next (runCmd h identifySpec e none s (fun s =>
    guarded [bad6 (2 < fld e 16 1) 16, checkReserved e [(16, 1)]] s (fun s => .ok (identifyPage (s.half h) (fld e 16 1)) s)))

def eventRateSetSpec : OpSpec := { opcode := 0x0103, handle := .zero, minLen := 6 }

/-- EVENT_RATE_SET (R53, R566). -/
def execEventRateSet (h : HalfId) (e : CmdEntry) (s : State) : Out :=
  .next (runCmd h eventRateSetSpec e none s (fun s =>
    let rate := fld e 16 4
    let burst := fld e 20 2
    guarded [bad6 (rate < 1000 || 100000 < rate) 16, bad6 (burst < 16 || 1024 < burst) 20, checkReserved e [(16, 6)]] s
      (fun s =>
        let v := (s.half h).ev
        .ok (le 4 v.rate ++ le 2 v.burst) (s.upd h (fun x =>
          let w := evRefill x.clk.now x.ev
          { x with ev := { w with rate := rate, burst := burst, balance := min w.balance (burst * 1000000000) } })))))

end Sys2Proof.Machine
end

