-- ==== Sys2Proof/Machine/Power.lean ====
section
/-!
DEFINITION. Power.lean: rails, voltage and temperature monitors, life and aging (R512, R518, R525 to R532, R535), and their events (R536).
-/
namespace Sys2Proof.Machine

/-- BROWN_OUT (R518): the half is held in reset, as by a power-on reset of its own. `core` names the rail that fell. -/
def execBrownOut (h : HalfId) (_core : Bool) (s : State) : Out :=
  .next ((enterReset h 0 s).upd h (fun x => { x with pwr := { x.pwr with brownOut := true } }))

/-- BROWN_OUT_RECOVERY (R518): 1 ms after both rails are back the half leaves this reset. -/
def execBrownOutRecovery (h : HalfId) (s : State) : Out :=
  .next (s.upd h (fun x => { x with pwr := { x.pwr with brownOut := false } }))

/-- Nominal mV and permitted deviation in percent of the rails but the core, in the order of R511: VDD_CORE, VDD2H, VDD2L, VDDQ,
VDD_SD075, VDD_SD12, VDDIO, VFUSE. The excursion limit is 3 % beyond the recommended range (R518). -/
def railLimits : Nat → Option (Int × Int)
  | 1 => some (1050, 6)
  | 2 => some (900, 6)
  | 3 => some (500, 8)
  | 4 => some (750, 6)
  | 5 => some (1200, 8)
  | 6 => some (1800, 8)
  | _ => none

/-- VREQ in mV (R527). -/
def vreqMv (n : Nat) : Int := 720 + 5 * (n : Int)

/-- The rail's value is an excursion (R518). For 2 s after a change of VREQ the core window spans both requests. -/
def isExcursion (x : Half) (rail : Nat) (mv : Int) : Bool :=
  if rail == 0 then
    let old := if x.clk.now < x.pwr.vreqAt + 2000000000 then min x.pwr.vreqOld x.pwr.vreq else x.pwr.vreq
    decide (mv < vreqMv old - 40) || decide (850 < mv)
  else match railLimits rail with
    | none => false
    | some (nominal, percent) => decide (mv * 100 < nominal * (100 - percent)) || decide (nominal * (100 + percent) < mv * 100)

/-- VOLTAGE_EXCURSION (R518): for more than 10 µs. -/
def execVoltageExcursion (h : HalfId) (rail : Nat) (millivolts : Int) (duration : Nat) (s : State) : Out :=
  .next (
    let x := s.half h
    if x.boot.inReset || duration ≤ 10000 || !isExcursion x rail millivolts then s
    else
      let s := latchHw 6 h 39 false (s.upd h (fun x => { x with pwr := { x.pwr with vmon := true } }))
      event h 0x080A sevAlarm 0 (le 4 rail ++ le 4 (unsigned 32 millivolts) ++ le 4 duration) s)

def updIsland (i : Nat) (f : IslandSt → IslandSt) (x : Half) : Half :=
  { x with pwr := { x.pwr with islands := x.pwr.islands.modify i f } }

/-- Every sensor reads 95 °C or less. -/
def allCool (p : PowerSt) : Bool := p.islands.all (fun i => decide (i.celsius ≤ 95))

/-- A sensor reads 120 °C or more (R532): source 38, and the reset 100 µs later. -/
def thermalTrip (h : HalfId) (island : Nat) (celsius : Int) (s : State) : State :=
  let s := s.upd h (fun x => { x with pwr := { x.pwr with
    shutdownTimes := (x.pwr.shutdownTimes.filter (fun t => x.clk.now < t + 3600000000000)) ++ [x.clk.now]
    shutIsland := island, shutTemp := celsius } })
  let s := latchHw 6 h 38 false s
  s.upd h (fun x => { x with boot := { x.boot with resetAt := some (x.clk.now + 100000), resetKind := 5 } })

/-- An evaluation at 110 °C or more caps the step, below 107 °C it relaxes by one eighth per 1 ms (R531). -/
def throttle (now : Nat) (celsius : Int) (i : IslandSt) : IslandSt :=
  if decide (110 ≤ celsius) then
    { i with celsius := celsius, allowed := max 2 (i.allowed - 1), throttled := true, relaxAt := now + 1000000 }
  else if decide (celsius < 107) && i.throttled && i.relaxAt ≤ now then
    { i with celsius := celsius, allowed := min 8 (i.allowed + 1), relaxAt := now + 1000000
             throttled := i.allowed + 1 < 8 }
  else { i with celsius := celsius }

/-- What a sample does to its island: nothing but the reading while the half is in reset (R532). -/
def sampled (x : Half) (celsius : Int) (i : IslandSt) : IslandSt :=
  if x.boot.inReset then { i with celsius := celsius } else throttle x.clk.now celsius i

/-- Since when every sensor has read 95 °C or less (R532). -/
def coolMark (x : Half) : Half :=
  let since := if allCool x.pwr then some (x.pwr.coolSince.getD x.clk.now) else none
  { x with pwr := { x.pwr with coolSince := since } }

/-- THERMAL_SAMPLE (R530 to R532). -/
def execThermalSample (h : HalfId) (island : Nat) (celsius : Int) (s : State) : Out :=
  .next (
    let x := s.half h
    let was := (x.pwr.islands.getD island {}).throttled
    let s := s.upd h (fun x =>
      coolMark (updIsland island (sampled x celsius) x))
    if x.boot.inReset then s
    else
      let now_ := (s.half h).pwr.islands.getD island {}
      let s := if !was && now_.throttled then
          event h 0x0808 sevWarning 0 (le 4 island ++ le 4 (unsigned 32 celsius) ++ le 4 now_.allowed) s else s
      if decide (120 ≤ celsius) && !(x.boot.resetAt.isSome && x.boot.resetKind == 5) then thermalTrip h island celsius s
      else s)

/-- THERMAL_RELEASE (R532): every sensor at 95 °C or less for 1 s; three shutdowns within an hour hold the half. -/
def execThermalRelease (h : HalfId) (s : State) : Out :=
  .next (
    let x := s.half h
    let recent := (x.pwr.shutdownTimes.filter (fun t => x.clk.now < t + 3600000000000)).length
    match x.pwr.coolSince with
    | some t =>
      if x.pwr.shutdown && t + 1000000000 ≤ x.clk.now && recent < 3 then
        s.upd h (fun x => { x with pwr := { x.pwr with shutdown := false } })
      else s
    | none => s)

/-- 2^(k/10) in 10⁻⁶ for k from 0 to 9 (R529, rounded: log 17). -/
def tenthPower (k : Nat) : Nat :=
  [1000000, 1071773, 1148698, 1231144, 1319508, 1414214, 1515717, 1624505, 1741101, 1866066].getD k 0

/-- 10⁻⁶ equivalent seconds of one second at a temperature: 2^((T − 95) / 10) (R529). -/
def lifeRate (t : Int) : Nat :=
  let q := (t - 95) / 10
  let v := tenthPower ((t - 95) % 10).toNat
  if q < 0 then v / 2 ^ (-q).toNat else v * 2 ^ q.toNat

/-- The hottest sensor of the half. -/
def hottest (p : PowerSt) : Int := p.islands.foldl (fun a i => max a i.celsius) (-128)

/-- LIFE_USED in units of 8 h (R527, R529). -/
def lifeUsed (p : PowerSt) : Nat := p.life / 28800000000

/-- LIFE_ACCUMULATION (R529): every second, stored in flash every 24 h. -/
def execLifeAccumulation (h : HalfId) (s : State) : Out :=
  .next (
    let x := s.half h
    if !x.alive || x.clk.now < x.pwr.lifeAt + 1000000000 then s
    else s.upd h (fun x =>
      let life := x.pwr.life + lifeRate (hottest x.pwr)
      let secs := x.pwr.lifeSeconds + 1
      { x with pwr := { x.pwr with
          life := life, lifeAt := x.clk.now
          lifeSeconds := if secs == 86400 then 0 else secs
          lifeStored := if secs == 86400 then life else x.pwr.lifeStored } }))

/-- The slowdown of the slowest island, and its block. -/
def worstSlowdown (p : PowerSt) : Nat × Nat :=
  ((List.range 36).map (fun i => ((p.islands.getD i {}).slowdown, i))).foldl (fun a b => if a.1 < b.1 then b else a) (0, 0)

/-- AGING_MEASUREMENT (R535): every 24 h; slowdowns in 0.01 % beyond the value at manufacture. -/
def execAgingMeasurement (h : HalfId) (slowdowns : List Nat) (s : State) : Out :=
  .next (
    let x := s.half h
    if !x.alive || x.clk.now < x.pwr.agedAt + 86400000000000 then s
    else
      let s := s.upd h (fun x => { x with pwr := { x.pwr with
        agedAt := x.clk.now
        islands := (x.pwr.islands.zip ((List.range 36).map (fun i => slowdowns.getD i 0))).map (fun p =>
          { p.1 with slowdown := p.2 }) } })
      let p := (s.half h).pwr
      let w := worstSlowdown p
      let s := if p.vreq < min 16 (p.setpoint + w.1 / 50) then
          event h 0x080C sevInfo 0 (le 4 p.vreq ++ le 4 (p.vreq + 1) ++ le 4 2)
            (s.upd h (fun x => { x with pwr := { x.pwr with vreq := p.vreq + 1, vreqOld := p.vreq, vreqAt := x.clk.now } }))
        else s
      if 300 ≤ w.1 && (s.half h).pwr.vreq == 16 then
        event h 0x080D sevWarning 0 (le 4 w.2 ++ le 4 w.1 ++ le 4 (lifeUsed p)) s
      else s)

/-- A drive and slew code is valid. -/
def codeOk (c : Nat) : Bool := decide (c % 8 < 6) && decide (c < 32)

/-- The drive and slew code of an output group by its byte of the board description, 84 to 106 (R524): 8 mA and slew 1 until the description is read, and
for an invalid code. FAULT_N and SMB_SDA have a slew only. -/
def outputCode (x : Half) (at_ : Nat) : Nat :=
  let c := x.boot.board.io.getD (at_ - 82) 0x40
  if at_ == 87 || at_ == 93 || at_ == 101 then (if c < 32 && c % 8 == 0 then c else 0x08)
  else if codeOk c then c else 0x0B

/-- FAULT_N is driven low (R525). -/
def faultN (s : State) : Bool :=
  let low := fun (x : Half) => x.bri.tetherStopped || x.boot.stage == 15 || x.pwr.shutdown
  low s.east || low s.west

/-- A board management register (R527). -/
def mgmtRead (s : State) (h : HalfId) (cmd : Nat) : Nat :=
  let x := s.half h
  let throttled := (x.pwr.islands.filter (fun i => i.throttled)).length
  match cmd with
  | 0x00 => Config.member + 0x80 * h.bit
  | 0x01 => packBits [!x.boot.inReset, x.boot.stage == 15, x.bri.tetherRun, x.bri.tetherStopped, throttled != 0,
      x.pwr.shutdown, x.pwr.vmon]
  | 0x02 => x.pwr.vreq
  | 0x03 => unsigned 8 (hottest x.pwr)
  | 0x04 => throttled
  | 0x05 => (worstSlowdown x.pwr).1 / 10
  | 0x06 => lifeUsed x.pwr
  | 0x08 => resetCause x.boot
  | c => if 0x10 ≤ c && c ≤ 0x17 && !x.boot.inReset then x.flt.status.toNat / 2 ^ (8 * (c - 0x10)) % 256 else 0

end Sys2Proof.Machine
end

