-- ==== Sys2Proof/Machine/Fabric.lean ====
section
/-!
DEFINITION. Fabric.lean: what moves between the islands of a half: the scrim (R19) and the inter-island FIFOs (R23 to R28).
-/
namespace Sys2Proof.Machine

/-! The scrim (R19). Routers are numbered 4 × row + column. -/

/-- The stop of a requester port of the DRAM controllers, in the order of R345. -/
def portStop (port : Nat) : Nat := if port < 5 then port else port + 4

/-- The stop of a DRAM channel. -/
def chanStop (n : Nat) : Nat := 5 + n

/-- The numbers after `a` on the way to `b`, `b` included. -/
def stepsTo (a b : Nat) : List Nat :=
  if a ≤ b then (List.range (b - a)).map (fun i => a + 1 + i) else (List.range (a - b)).map (fun i => a - 1 - i)

/-- The routers of a transaction's way: along the row of the first, then along the column of the last (R19). -/
def scrimRoute (a b : Nat) : List Nat :=
  a :: ((stepsTo (a % 4) (b % 4)).map (fun c => 4 * (a / 4) + c) ++ (stepsTo (a / 4) (b / 4)).map (fun r => 4 * r + b % 4))

/-- The router of a stop. -/
def stopAt (stop : Nat) : Nat := Config.stopRouter stop % 16

/-- Requests enter the scrim at their stops, in the order given. -/
def scrimIssue (channel : Nat) (qs : List DramReq) (x : Half) : Half :=
  { x with fabric := { x.fabric with scrim := x.fabric.scrim ++ (qs.filter (fun q => q.port < 10)).map (fun q =>
      { channel := channel, req := q, route := scrimRoute (stopAt (portStop q.port)) (stopAt (chanStop channel)) }) } }

/-- Two transactions from one stop to one 64-byte address. -/
def sameOrder (a b : ScrimTxn) : Bool :=
  portStop a.req.port == portStop b.req.port && a.channel == b.channel && a.req.address / 64 == b.req.address / 64

/-- The transaction that arrives when the k-th of a channel would: the first issued of those it may not overtake (R19). -/
def scrimNext (channel k : Nat) (x : Half) : Option ScrimTxn :=
  match (x.fabric.scrim.filter (fun t => t.channel == channel))[k]? with
  | none => none
  | some t => x.fabric.scrim.find? (sameOrder t)

/-- A transaction leaves the scrim; its flit counts as routed, or as dropped for parity (R20). -/
def scrimLeaves (t : ScrimTxn) (code : Nat) (x : Half) : Half :=
  count 35 code 1 { x with fabric := { x.fabric with scrim := x.fabric.scrim.erase t } }

/-! Crossings (R23 to R28). -/

def crossingAt (x : Half) (p c : Nat) : FifoSt :=
  (x.fabric.fifos.find? (fun f => f.producer == p && f.consumer == c)).getD { producer := p, consumer := c }

def updCrossing (p c : Nat) (g : FifoSt → FifoSt) (x : Half) : Half :=
  { x with fabric := { x.fabric with
      fifos := x.fabric.fifos.filter (fun f => !(f.producer == p && f.consumer == c)) ++ [g (crossingAt x p c)] } }

/-- The slots that packets take in a bank: their items and a length word each. -/
def packetSlots (ps : List (List Nat)) : Nat := (ps.map (fun q => q.length + 1)).sum

/-- The slots taken in the bank the producer fills. -/
def fillSlots (f : FifoSt) : Nat := packetSlots f.filling + (match f.reserved with | some q => q.length + 1 | none => 0)

/-- The fault source of a FIFO violation by the producer's island group (R28). -/
def crossingSource (p : Nat) : Nat := if p < 18 then 44 else if p < 26 then 45 else if p < 32 then 46 else 47

/-- The maximum clock of an island in kHz (chapter 1); the islands its table does not list are given the clock of the packet engine (log 88). -/
def islandKhz (block : Nat) : Nat :=
  if block < 8 then 1200000 else if block < 14 then 1100000
  else if block < 16 then 1200000 else if block < 18 then 1100000
  else if block < 22 then 1000000 else if block < 26 then 1066625
  else if block < 32 then 781250 else if block == 32 then 1600000
  else if block == 33 then 400000 else if block == 34 then 800000 else 1600000

/-- Nanoseconds that `n` clocks of an island take, rounded up (R32). -/
def islandClocks (x : Half) (block n : Nat) : Nat :=
  let rate := islandKhz block * (x.pwr.islands.getD block {}).step
  if rate == 0 then 0 else (n * 8000000 + rate - 1) / rate

/-- The producer may still see full after space was freed (R23). -/
def fullLingers (x : Half) (f : FifoSt) (free : Nat) : Bool :=
  match f.freedAt with
  | some t => decide (x.clk.now < t + islandClocks x f.producer 3) && Config.flagStill free
  | none => false

/-- The consumer may still see empty after a packet was closed: up to 1 producer clock and 3 of its own (R23, R25). -/
def emptyLingers (x : Half) (f : FifoSt) (free : Nat) : Bool :=
  match f.landedAt with
  | some t => decide (x.clk.now < t + islandClocks x f.producer 1 + islandClocks x f.consumer 3) && Config.flagStill free
  | none => false

/-- The consumer takes the bank the producer has filled when its own is empty. -/
def swapBanks (f : FifoSt) : FifoSt := if f.draining.isEmpty then { f with draining := f.filling, filling := [] } else f

/-- The operation violates the protocol (R28). -/
def crossingBad (f : FifoSt) (op : FifoOp) : Bool :=
  match op, f.reserved with
  | .reserve, some _ => true
  | .item _, some _ => decide (Config.bankDepth f.producer f.consumer ≤ fillSlots f)
  | .close n, some q => n != q.length
  | _, _ => false

/-- An item, or the length word that makes the packet visible and ends the consumer's stall (R24, R25). -/
def putItem (v : Nat) (f : FifoSt) : FifoSt := { f with reserved := f.reserved.map (fun q => q ++ [v]) }

def closePacket (now : Nat) (f : FifoSt) : FifoSt :=
  match f.reserved with
  | none => f
  | some q => { swapBanks { f with reserved := none, filling := f.filling ++ [q] } with landedAt := some now, stalledAt := none }

/-- The clocks a consumer has stalled on a crossing (R418). -/
def stalledClocks (x : Half) (f : FifoSt) : Nat :=
  match f.stalledAt with
  | some t => (x.clk.now - t) * (islandKhz f.consumer * (x.pwr.islands.getD f.consumer {}).step) / 8000000
  | none => 0

/-- A producer's or consumer's operation on a crossing that runs (R23 to R25). A producer that sees full waits with its reservation; a
consumer that sees empty stalls until a packet is closed. -/
def crossingDo (h : HalfId) (p c : Nat) (op : FifoOp) (s : State) : State :=
  let x := s.half h
  let now := x.clk.now
  let f := crossingAt x p c
  match op, f.reserved with
  | .reserve, none =>
    if Config.bankDepth p c ≤ fillSlots f || fullLingers x f s.free then s.tick1.upd h (count p 6 1)
    else s.tick1.upd h (updCrossing p c (fun f => { f with reserved := some [] }))
  | .item v, some _ => s.upd h (updCrossing p c (putItem v))
  | .close _, some _ => s.upd h (fun x => updCrossing p c (closePacket now) (count c 5 (stalledClocks x f) x))
  | .take, _ =>
    if (swapBanks f).draining.isEmpty || emptyLingers x f s.free then
      s.tick1.upd h (updCrossing p c (fun f => { f with stalledAt := some (f.stalledAt.getD now) }))
    else s.tick1.upd h (fun x => updCrossing p c (fun f =>
      { swapBanks f with draining := (swapBanks f).draining.drop 1, freedAt := some now, stalledAt := none }) (count c 5 (stalledClocks x f) x))
  | _, _ => s

/-- An operation on a crossing: nothing on a halted one; a violation halts it and answers the fault source that it raises (R28). -/
def crossingMeets (h : HalfId) (p c : Nat) (op : FifoOp) (s : State) : State × Option Nat :=
  let f := crossingAt (s.half h) p c
  if f.halted then (s, none)
  else if crossingBad f op then (s.upd h (updCrossing p c (fun f => { f with halted := true })), some (crossingSource p))
  else (crossingDo h p c op s, none)

/-- The fault logic discards the partial packet of a producer (R27). -/
def producerStops (p : Nat) (x : Half) : Half :=
  { x with fabric := { x.fabric with fifos := mapWhere (fun f => f.producer == p) (fun f => { f with reserved := none }) x.fabric.fifos } }

/-- A producer that is restarted runs its crossings again (R28). -/
def producerRestarts (p : Nat) (x : Half) : Half :=
  { x with fabric := { x.fabric with
      fifos := mapWhere (fun f => f.producer == p) (fun f => { f with reserved := none, halted := false }) x.fabric.fifos } }

/-- A producer holds an open reservation (R27). -/
def holdsReservation (x : Half) (p : Nat) : Bool := x.fabric.fifos.any (fun f => f.producer == p && f.reserved.isSome)

/-- A producer opens the reservation of its next packet, unless it holds one or the crossing is halted (R25). -/
def packetBegins (p c : Nat) (x : Half) : Half :=
  let f := crossingAt x p c
  if f.halted || f.reserved.isSome then x else updCrossing p c (fun f => { f with reserved := some [] }) x

/-- A packet that its producer has formed whole: its items, its length word, and the consumer's read of all that is visible. A bank holds
it always (R26). -/
def packetCrosses (p c : Nat) (items : List Nat) (x : Half) : Half :=
  let now := x.clk.now
  let x := packetBegins p c x
  let f := crossingAt x p c
  updCrossing p c (fun f =>
    { closePacket now (items.foldl (fun f v => putItem v f) f) with filling := [], draining := [], freedAt := some now })
    (count c 5 (stalledClocks x f) x)

/-- Items on their way into an island. -/
def inputItems (x : Half) (block : Nat) : Nat :=
  ((x.fabric.fifos.filter (fun f => f.consumer == block)).map (fun f => packetSlots f.filling + packetSlots f.draining)).sum

end Sys2Proof.Machine
end

