-- ==== Sys2Proof/Machine/Decoding.lean ====
section
/-!
DEFINITION. Decoding.lean: input sessions and their jitter buffers (R93 to R99), host feeding (R89 to R92), the decode engines'
schedule (R100 to R107), damage, concealment and reliability (R119 to R139), refresh requests (R140 to R142) and host-assisted
concealment (R143 to R149).
-/
namespace Sys2Proof.Machine

/-! Record fields. -/

def decodeH (h : HalfId) (i : Nat) : Handle := mkHandle 0x04 h i
def inputH (h : HalfId) (i : Nat) : Handle := mkHandle 0x03 h i

/-- The running record of an object; an empty record where there is none. -/
def Half.record (x : Half) (obj : Handle) : Record := (recOf x.running obj).getD []

/-- DECODE_STREAM fields (R86). -/
def decClass (r : Record) : Nat := rd r 17 1
def decHold (r : Record) : Bool := rd r 18 1 == 1
def decDepth (r : Record) : Nat := if rd r 19 1 == 0xFF then (if decClass r == 1 then 8 else 0) else rd r 19 1
def decInput (r : Record) : Handle := BitVec.ofNat 32 (rd r 36 4)
def decFeedRegion (r : Record) : Nat := rd r 40 4
def decPartner (r : Record) : Nat := rd r 52 4
/-- Picture period at the declared rate, in ns (R86, R107). -/
def decPeriod (r : Record) : Nat := 1000000000000 / rd r 28 4

/-- The DECODE_STREAM that an INPUT feeds (R93). -/
def fedBy (h : HalfId) (x : Half) (i : Nat) : Option Record :=
  x.running.find? (fun r => recType r == 4 && decInput r == inputH h i)

/-- The jitter-buffer latency of an INPUT in ns (R93). -/
def inLatency (h : HalfId) (x : Half) (i : Nat) : Nat :=
  let r := x.record (inputH h i)
  let v := rd r 64 4
  if v != 0 then v * 1000
  else match fedBy h x i with
    | some d => if decClass d == 0 then 10000000 else 40000000
    | none => 40000000

/-! Sequence numbers and timestamps extended (R94). -/

/-- The extension of a `w`-bit number that lies nearest to a reference. -/
def extendNear (w high v : Nat) : Nat :=
  ((high : Int) + signed w ((v + 2 ^ w - high % 2 ^ w) % 2 ^ w)).toNat

/-- 90 kHz ticks in ns. -/
def ticksNs (d : Int) : Int := d * 1000000000 / 90000

/-- The timestamp is timed by the sender report (R95). -/
def timeMapped (n : InputSt) (ts : Nat) : Bool := match n.mappedFrom with | some m => decide (m ≤ ts) | none => false

/-- The release time of an access unit (R95, R96). -/
def releaseTime (h : HalfId) (x : Half) (n : InputSt) (ts : Nat) : Nat :=
  let t : Int := match (if timeMapped n ts then n.senderReport else none), n.base with
    | some (t, rtp), _ => (t : Int) + ticksNs (signed 32 ((ts + 2 ^ 32 - rtp.toNat) % 2 ^ 32))
    | none, some (t, ts0) => (t : Int) + ticksNs ((ts : Int) - (ts0 : Int))
    | none, none => 0
  (t + (inLatency h x n.index : Int)).toNat

/-- An access unit's last packet has arrived: eight in succession outside half the latency move the base (R96). -/
def unitArrived (h : HalfId) (i ts last : Nat) (s : State) : State :=
  let x := s.half h
  match x.obj.input? i with
  | none => s
  | some n =>
    let lat := inLatency h x i
    let rel := releaseTime h x n ts
    let out := last + lat / 2 < rel || rel + lat / 2 < last
    if timeMapped n ts then s
    else if !out then s.upd h (updInput i (fun n => { n with outside := 0 }))
    else if n.outside < 7 then s.upd h (updInput i (fun n => { n with outside := n.outside + 1 }))
    else match n.base with
      | none => s
      | some (old, ts0) =>
        let new := old + last + lat / 2 - rel
        event h 0x0404 sevInfo (inputH h i) (le 8 old ++ le 8 new)
          (s.upd h (updInput i (fun n => { n with
            outside := 0, base := some (new, ts0), counts := { n.counts with rebases := sat32 n.counts.rebases } })))

/-- The arrival of a packet of an access unit is noted: the marker, or a new timestamp, ends a unit (R94, R96). -/
def noteUnit (h : HalfId) (i ts : Nat) (marker : Bool) (s : State) : State :=
  let now := s.now h
  let before := ((s.half h).obj.input? i).bind (fun n => n.unit)
  let s := match before with
    | some (t, last) => if t != ts then unitArrived h i t last s else s
    | none => s
  if marker then unitArrived h i ts now (s.upd h (updInput i (fun n => { n with unit := none })))
  else s.upd h (updInput i (fun n => { n with unit := some (ts, now) }))

/-- JITTER_OVERFLOW at most once per second (R97). -/
def jitterOverflow (h : HalfId) (i : Nat) (n : InputSt) (s : State) : State :=
  let since := n.overflowSince + 1
  let s := s.upd h (fun x => count 30 0x14 1 (updInput i (fun n =>
    { n with overflowSince := since, counts := { n.counts with overflow := sat32 n.counts.overflow } }) x))
  let due := n.lastOverflow.all (fun t => t + 1000000000 ≤ s.now h)
  if due then
    event h 0x0405 sevWarning (inputH h i) (le 4 since)
      (s.upd h (fun x => updInput i (fun n => { n with lastOverflow := some x.clk.now, overflowSince := 0 }) x))
  else s

/-- The payload structures that a payload format takes (R94). -/
def payloadOk (format : Nat) : RtpPayload → Bool
  | .hevcSingle | .hevcAggregation | .hevcFragment => format == 1
  | .avcSingle | .avcStapA | .avcFuA => format == 2
  | .av1 => format == 3
  | _ => false

/-- The packet is one of the INPUT's session (R93): destination, source filter, UDP port, VLAN, payload type and SSRC. -/
def packetMine (r : Record) (p : RtpPacket) : Bool :=
  p.destination == rd r 24 16 && (rd r 40 16 == 0 || p.source == rd r 40 16) && p.udpPort == rd r 56 2 && p.vlan == rd r 58 2 &&
  (rd r 22 1 == 0xFF || p.payloadType == rd r 22 1) && (!(rd r 74 2).testBit 0 || p.ssrc.toNat == rd r 60 4)

/-- RTP_PACKET_RECEIVED (R93 to R97) on the INPUT's port: dropped for its structure, late, a duplicate, over the limit, or kept. -/
def execRtpPacketReceived (h : HalfId) (input : Nat) (p : RtpPacket) (s : State) : Out :=
  .next (
    let x := s.half h
    let r := x.record (inputH h input)
    match x.obj.input? input with
    | none => s
    | some n0 =>
      if !x.alive || (x.net.getD (rd r 16 2) {}).link != .up || !packetMine r p then s
      else
        let seq := match n0.highSeq with | some q => extendNear 16 q p.seq.toNat | none => 2 ^ 32 + p.seq.toNat
        let ts := if n0.base.isSome then extendNear 32 n0.highTs p.timestamp.toNat else 2 ^ 32 + p.timestamp.toNat
        if !payloadOk (rd r 20 1) p.payload then
          s.upd h (updInput input (fun n => { n with
            badTimes := addNew ts n.badTimes, counts := { n.counts with structureDrops := sat32 n.counts.structureDrops } }))
        else
        let n := { n0 with
          base := some (n0.base.getD (x.clk.now, ts))
          mappedFrom := if n0.mappedFrom.isNone && n0.senderReport.isSome && rd r 23 1 == 0 && p.randomAccess then some ts
            else n0.mappedFrom
          highSeq := some (max seq (n0.highSeq.getD 0)), highTs := max ts n0.highTs }
        let s := s.upd h (updInput input (fun _ => n))
        if releaseTime h x n ts ≤ x.clk.now then
          noteUnit h input ts p.marker (s.upd h (fun x => count 30 0x12 1 (updInput input (fun n =>
            { n with counts := { n.counts with late := sat32 n.counts.late } }) x)))
        else if n.packets.any (fun b => b.seq == seq) then
          s.upd h (fun x => count 30 0x13 1 (updInput input (fun n =>
            { n with counts := { n.counts with duplicate := sat32 n.counts.duplicate } }) x))
        else if rd r 68 4 < n.held + p.bytes || p.noBuffer then jitterOverflow h input n s
        else
          let b : BufPacket := { seq := seq, timestamp := ts, bytes := p.bytes, marker := p.marker, arrival := x.clk.now
                                 randomAccess := p.randomAccess }
          noteUnit h input ts p.marker (s.upd h (updInput input (fun n => { n with
            packets := insertBy (fun a b => a.seq < b.seq) b n.packets, held := n.held + p.bytes, lastSsrc := p.ssrc, lastSource := p.source
            counts := { n.counts with accepted := sat32 n.counts.accepted } }))))

/-- Damage count `k` of a context rises (R150). -/
def damageAdd (h : HalfId) (c k n : Nat) (x : Half) : Half :=
  let _ := h
  updDecode c (fun d => { d with damage := d.damage.set k (satAdd (d.damage.getD k 0) n) }) x

/-- A released access unit for an engine that runs lower work asks it to suspend: LIVE before TIMED and BULK, TIMED before BULK
(R101). -/
def decPreempt (h : HalfId) (c : Nat) (x : Half) : Half :=
  let cls := decClass (x.record (decodeH h c))
  match x.obj.decode? c with
  | none => x
  | some d =>
    d.engines.foldl (fun x e => { x with dec := x.dec.modify e (fun g =>
      match g.current with
      | none => g
      | some k =>
        let kc := decClass (x.record (decodeH h k))
        if (cls == 0 && kc != 0) || (cls == 1 && kc == 2) then { g with seq := { g.seq with suspend := true } } else g) }) x

/-- An access unit joins its context's queue (R97, R100). A stopped context takes none from an input session (R574). -/
def pushUnit (h : HalfId) (c : Nat) (a : AccessUnit) (s : State) : State :=
  let x := s.half h
  if (x.obj.decode? c).any (fun d => d.run == .stopped) && decFeedRegion (x.record (decodeH h c)) == 0 then s
  else s.upd h (fun x =>
    let x := updDecode c (fun d => { d with
      ready := d.ready ++ [a]
      lastProgress := if d.ready.isEmpty && d.inProgress.isNone then x.clk.now else d.lastProgress }) x
    decPreempt h c (if a.incomplete then damageAdd h c 1 1 x else x))

/-- The packets of one timestamp up to the first marker: one access unit (R94). -/
def throughMarker : List BufPacket → List BufPacket
  | [] => []
  | p :: ps => if p.marker then [p] else p :: throughMarker ps

/-- Whether packets of a unit are missing: before its first, inside, or after its last (R97). Without a marker, and with no later packet to
show that none is missing, the unit counts as incomplete (log 81). -/
def unitIncomplete (next : Option Nat) (unit rest : List BufPacket) : Bool :=
  let seqs := unit.map (fun p => p.seq)
  let first := seqs.headD 0
  let last := seqs.getLastD 0
  (match next with | some q => q != first | none => false) || last + 1 - first != seqs.length ||
  (!(unit.any (fun p => p.marker)) && (match rest.head? with | some p => p.seq != last + 1 | none => true))

/-- The source half copies an access unit to the partner context over the spar link (R106). -/
def copyUnit (h : HalfId) (stream : Handle) (r : Record) (a : AccessUnit) (s : State) : State :=
  if decPartner r != 0 && s.sparWorks then
    emit h (.accessUnitCopy stream a) (s.upd h.other (updDecode (decPartner r % 0x10000) (fun d => { d with copies := d.copies ++ [a] })))
  else s

/-- ACCESS_UNIT_RELEASE (R97, R98, R106): the earliest access unit goes to its decoder. -/
def execAccessUnitRelease (h : HalfId) (input : Nat) (s : State) : Out :=
  .next (
    let x := s.half h
    match x.obj.input? input with
    | none => s
    | some n =>
      match n.packets.foldl (fun (m : Option Nat) p => some (match m with | some t => min t p.timestamp | none => p.timestamp)) none with
      | none => s
      | some ts =>
        let rel := releaseTime h x n ts
        if x.clk.now < rel then s
        else
          let unit := throughMarker (n.packets.filter (fun p => p.timestamp == ts))
          let rest := n.packets.filter (fun p => !unit.contains p)
          let miss := unitIncomplete n.nextSeq unit rest
          let badPacket := n.badTimes.contains ts
          let s := s.upd h (updInput input (fun n => { n with
            packets := rest, held := n.held - total (unit.map (fun p => p.bytes))
            nextSeq := some ((unit.map (fun p => p.seq)).getLastD 0 + 1), badTimes := n.badTimes.filter (fun t => ts < t)
            counts := { n.counts with gaps := if miss then sat32 n.counts.gaps else n.counts.gaps } }))
          match fedBy h x input with
          | none => s
          | some d =>
            let a : AccessUnit := { presentation := rel, released := rel, incomplete := miss || badPacket, badStructure := badPacket
                                    gapBefore := n.nextSeq.any (fun q => (unit.map (fun p => p.seq)).head? != some q)
                                    token := s.free, origin := ts % 2 ^ 32 }
            (pushUnit h (hIndex (recHandle d)) a (copyUnit h (recHandle d) d a s)).tick1)

/-- The message names this copy. -/
def copyIs (a : AccessUnit) (presentation : Nat) (incomplete badStructure : Bool) : Bool :=
  a.presentation == presentation && a.incomplete == incomplete && a.badStructure == badStructure

/-- GUARDED_ACCESS_UNIT_COPY (R106): the next copy on its way reaches the context that has no input of its own, with every mark of the unit. The
operands are what the message carries: they are those of that copy, for the link keeps the order (log 41). -/
def execGuardedAccessUnitCopy (h : HalfId) (context presentation : Nat) (incomplete badStructure : Bool) (s : State) : Out :=
  .next (
    let x := s.half h
    let r := x.record (decodeH h context)
    match (x.obj.decode? context).bind (fun d => d.copies.head?) with
    | none => s
    | some a =>
      if copyIs a presentation incomplete badStructure && decPartner r != 0 && decInput r == 0 && decFeedRegion r == 0 && s.sparWorks then
        pushUnit h context a (s.upd h (updDecode context (fun d => { d with copies := d.copies.drop 1 })))
      else s)

/-! Host feeding (R89 to R92). -/

def decodeFeedSpec : OpSpec := { opcode := 0x0410, handle := .types [4], minLen := 24 }

/-- No time in a feed. -/
def noTime : Nat := 0xFFFFFFFFFFFFFFFF

/-- The presentation time of a fed access unit (R90, R91): its own, or the anchor plus the stream's timing, a free value. -/
def feedTime (timing pt free : Nat) (anchor : Option Nat) : Nat :=
  if timing == 1 && pt == noTime then (anchor.getD 0) + Config.streamTiming free else pt

/-- STREAM_END (R92, R118), with the sequence of the last picture. -/
def streamEnd (h : HalfId) (c : Nat) (s : State) : State :=
  match (s.half h).obj.decode? c with
  | none => s
  | some d => event h 0x0406 sevInfo (decodeH h c) (le 4 ((d.seq + 0xFFFFFFFF) % 0x100000000)) s

/-- The last access unit that a context holds is the last of the stream. -/
def markLast (d : DecodeSt) : DecodeSt :=
  match d.ready.reverse with
  | a :: l => { d with ready := (l.reverse) ++ [{ a with last := true }] }
  | [] => { d with inProgress := d.inProgress.map (fun a => { a with last := true }) }

/-- End of stream in a feed that completes no unit (R92): it comes after what the context holds, at once where it holds nothing. -/
def endFeed (h : HalfId) (i : Nat) (s : State) : State :=
  if ((s.half h).obj.decode? i).any (fun d => d.ready.isEmpty && d.inProgress.isNone) then streamEnd h i s
  else s.upd h (updDecode i markLast)

/-- DECODE_FEED (R90 to R92). After an end of stream the next unit waits for a random access point. -/
def execDecodeFeed (h : HalfId) (e : CmdEntry) (s : State) : Out :=
  .next (runCmd h decodeFeedSpec e none s (fun s =>
    let x := s.half h
    let i := hIndex e.handle
    let r := x.record e.handle
    let d := (x.obj.decode? i).getD { index := i }
    let endPos := fld e 16 8
    let flags := fld e 32 4
    let ends := flags.testBit 0
    let disc := flags.testBit 1
    let ending := flags.testBit 2
    let pt := fld e 24 8
    let timing := rd r 60 1
    let fresh := d.anchor.isNone || disc || d.discontinuity
    guarded [bad6 (8 ≤ flags) 32, checkReserved e [(16, 24)], checkRunning x e.handle,
      bad6 (decFeedRegion r == 0) 0xFFFF, bad6 (endPos ≤ d.feedEnd) 16, bad6 (d.consumed + rd r 44 4 < endPos) 16,
      bad6 (timing == 1 && ends && fresh && pt == noTime) 24] s (fun s =>
      let feeds := (d.feeds + 1) % 0x100000000
      let time := feedTime timing pt s.free d.anchor
      let s := s.upd h (updDecode i (fun d => { d with
        feedEnd := endPos, feeds := feeds, feedSeq := fld e 36 4
        discontinuity := (d.discontinuity || disc) && !ends
        anchor := if timing == 1 && ends && pt != noTime then some pt else if disc && !ends then none else d.anchor
        endOfStream := ending || (d.endOfStream && !ends) }))
      let s := if ends then
          let a : AccessUnit := { presentation := time, released := s.now h, token := s.free, origin := fld e 36 4, resume := d.endOfStream, last := ending
                                  discontinuity := disc || d.discontinuity, endPos := endPos, feedSeq := fld e 36 4, feeds := feeds }
          (pushUnit h i a (copyUnit h e.handle r a s)).tick1
        else if ending then endFeed h i s
        else s
      .ok [] s)))

/-- The feed status block (R89), after an access unit has been parsed. -/
def feedStatus (h : HalfId) (c : Nat) (a : AccessUnit) (s : State) : State :=
  let x := s.half h
  let region := decFeedRegion (x.record (decodeH h c))
  if region == 0 then s
  else match placedAt x (region % 0x10000) with
    | none => s
    | some p =>
      s.upd h (fun x => devWrite (placeAddr p)
        (le 8 a.endPos ++ le 4 a.feedSeq ++ le 4 a.feeds ++ le 8 x.clk.now ++ List.replicate 40 0)
        (updDecode c (fun d => { d with consumed := a.endPos }) x))

/-! Choosing the next picture (R100, R101, R72). -/

/-- A context's next unit for an engine: its suspended picture, or its first waiting unit. -/
def decNext (d : DecodeSt) (e : Nat) (g : EngineSt) : Option AccessUnit :=
  let _ := e
  if g.suspended.contains d.index then d.inProgress
  else if d.inProgress.isSome then none else d.ready.head?

/-- The armed take-over with which a context switches when it starts a unit (R70, R72). -/
def decSwitch (h : HalfId) (x : Half) (d : DecodeSt) (a : AccessUnit) : Option PendingEnv :=
  match pendTouches x (decodeH h d.index) with
  | some p => if p.armed && p.takeTime ≤ a.presentation && d.inProgress.isNone then some p else none
  | none => none

/-- The record under which a unit is decoded. -/
def decRecord (h : HalfId) (x : Half) (d : DecodeSt) (a : AccessUnit) : Record :=
  match decSwitch h x d a with
  | some p => (recOf p.records (decodeH h d.index)).getD []
  | none => x.record (decodeH h d.index)

/-- The engines and the load of a context's placement for a unit. -/
def decUnits (h : HalfId) (x : Half) (d : DecodeSt) (a : AccessUnit) : List Nat × Nat :=
  let held := (List.range x.dec.length).filter (fun e => ((x.dec.getD e {}).suspended).contains d.index)
  if !held.isEmpty then (held, d.load)
  else match (decSwitch h x d a).bind (fun p => p.units.find? (fun u => u.1 == decodeH h d.index)) with
  | some u => u.2
  | none => (d.engines, d.load)

/-- The engines that decode a unit (R111): those on which it is suspended; of a pair both where the picture carries two tiles or WPP
substreams, else the one that takes it. -/
def decOn (h : HalfId) (x : Half) (d : DecodeSt) (a : AccessUnit) (e : Nat) (parallel : Bool) : List Nat :=
  let es := (decUnits h x d a).1
  if parallel || d.inProgress.isSome || !es.contains e then es else [e]

/-- A TIMED context has room ahead (R100): it holds fewer decoded and not yet presented pictures than its depth; one of depth 0 decodes a
picture once its presentation time has come (log 38). -/
def decRoom (r : Record) (now : Nat) (d : DecodeSt) (a : AccessUnit) : Bool :=
  decClass r != 1 || (d.waiting.filter (fun p => now < p.presentation)).length < decDepth r || (decDepth r == 0 && a.presentation ≤ now)

/-- The unit may start: its context runs, a TIMED context holds room ahead (R100), and a take-over does not hold it (R72). -/
def decMay (h : HalfId) (x : Half) (d : DecodeSt) (a : AccessUnit) (e : Nat) (parallel : Bool) : Bool :=
  let r := decRecord h x d a
  let es := decOn h x d a e parallel
  let room := decRoom r x.clk.now d a
  let takeover := match pendTouches x (decodeH h d.index) with
    | none => true
    | some p => a.presentation < p.takeTime || (p.armed && (recOf p.records (decodeH h d.index)).isSome)
  let free := es.all (fun e =>
    let g := x.dec.getD e {}
    islandOn x (8 + e) && g.current.isNone && !g.halted && g.flags.inService && g.toRetire == 0 && (!g.flags.quiescing || g.suspended.contains d.index))
  d.holdAt.isNone && (d.run == .running || (d.run == .draining && decide (a.presentation < d.drainAt)) || (decSwitch h x d a).isSome) && !es.isEmpty && room && takeover && free

/-- The candidates of an engine with their class, in handle order. -/
def decCandidates (h : HalfId) (x : Half) (e : Nat) (parallel : Bool) : List (Nat × Nat × AccessUnit) :=
  let g := x.dec.getD e {}
  (sortBy (fun a b => a.index < b.index) x.obj.decodes).filterMap (fun d =>
    match decNext d e g with
    | none => none
    | some a => if (decUnits h x d a).1.contains e && decMay h x d a e parallel then some (d.index, decClass (decRecord h x d a), a) else none)

/-- The engine's choice (R100). TIMED pictures of equal presentation time are taken by the lower handle index, as LIVE ones are (log 82). -/
def decChoose (h : HalfId) (x : Half) (e : Nat) (parallel : Bool) : Option (Nat × AccessUnit) :=
  let cs := decCandidates h x e parallel
  let best := fun (cls : Nat) (key : AccessUnit → Nat) =>
    ((sortBy (fun (a b : Nat × Nat × AccessUnit) => key a.2.2 < key b.2.2) (cs.filter (fun c => c.2.1 == cls))).head?).map
      (fun c => (c.1, c.2.2))
  match best 0 (fun a => a.released) with
  | some c => some c
  | none =>
    match best 1 (fun a => a.presentation) with
    | some c => some c
    | none =>
      let bulk := cs.filter (fun c => c.2.1 == 2)
      let g := x.dec.getD e {}
      ((bulk.find? (fun c => g.nextBulk ≤ c.1)).or bulk.head?).map (fun c => (c.1, c.2.2))

/-- The decoding state of a context goes (R133, R150, R574): references, parameter sets, reliability and damage counts. It waits for a start
point. Under HOLD nothing is available (R139). -/
def decodeReset (r : Record) (d : DecodeSt) : DecodeSt :=
  { d with
    available := if decHold r then [] else d.available, waitStart := true, limitWait := false, allNext := true, reliable := true, heldRun := 0, heldSince := 0, lastAction := 0, refs := []
    sets := [], active := none, latest := [], firstField := none, recoveryClean := false, raslSkip := false
    starts := d.starts + 1, damage := List.replicate 14 0 }

/-- A stream starts (R89, R114): besides, positions and sequences begin at 0. Units that a former feed has brought are no positions of this
stream. -/
def decodeFresh (r : Record) (d : DecodeSt) : DecodeSt :=
  { decodeReset r d with
    seq := 0, feedEnd := 0, consumed := 0, feedSeq := 0, feeds := 0, anchor := none, discontinuity := false, endOfStream := false
    ready := d.ready.map (fun a => { a with endPos := 0 }) }

/-- DECODE_PICTURE_START (R100 to R102, R111): the engine takes or restores its next picture. At the first picture at or after an armed take-over the context switches to its new record (R70, R72). -/
def execDecodePictureStart (h : HalfId) (p : EnginePicture) (s : State) : Out :=
  .next (
    let x := s.half h
    if !x.alive then s
    else match decChoose h x p.engine p.parallel with
      | none => s
      | some (c, a) =>
        match x.obj.decode? c with
        | none => s
        | some d =>
          let resumed := (x.dec.getD p.engine {}).suspended.contains c
          let u := decUnits h x d a
          let on := decOn h x d a p.engine p.parallel
          let switching := (decSwitch h x d a).isSome
          let a := if switching then { a with endPos := 0 } else a
          takeoverCheck h <| s.upd h (fun x =>
            let x := if switching then
                updDecode c (fun d => { decodeFresh (decRecord h x d a) d with run := .running, engines := u.1, load := u.2 }) (leaveTakeover (decodeH h c) x)
              else x
            let x := updDecode c (fun d => { d with
              inProgress := some a, ready := if resumed then d.ready else d.ready.drop 1, lastProgress := x.clk.now }) x
            { x with dec := on.foldl (fun gs e => gs.modify e (fun g => { g with
                current := some c, seq := seqStart 1 resumed g.seq, suspended := g.suspended.filter (fun k => k != c)
                nextBulk := if decClass (x.record (decodeH h c)) == 2 then c + 1 else g.nextBulk })) x.dec }))

end Sys2Proof.Machine
end

