-- ==== Sys2Proof/Machine/Damage.lean ====
section
/-!
DEFINITION. Damage.lean: what is lost of an access unit (R119 to R125), stand-ins for missing references (R134, R135), concealment and its
codes (R126 to R132), and the parameter sets in force (R83 to R87, R120). All of it is a function of the access unit and the context's
decoding state (R128).
-/
namespace Sys2Proof.Machine

/-! Record fields and parameter sets (R83 to R87, R120). -/

def decCodec (r : Record) : Nat := rd r 16 1
def decFlag (r : Record) (n : Nat) : Bool := (rd r 56 2).testBit n

/-- How a parameter set is referred to. -/
def paramKey (p : ParamUnit) : Nat := p.kind * 0x10000 + p.ident

/-- The parameter sets after those of an access unit: the last intact one with an identifier stays in force (R120). -/
def setsAfter (sets : List (Nat × ParamFacts)) (l : List ParamUnit) : List (Nat × ParamFacts) :=
  l.foldl (fun m p => if p.intact then (m.filter (fun q => q.1 != paramKey p)) ++ [(paramKey p, p.content)] else m) sets

/-- A parameter set that has been received intact. -/
def setOf (sets : List (Nat × ParamFacts)) (k : Nat) : Option ParamFacts := (sets.find? (fun q => q.1 == k)).map (fun q => q.2)

/-- The codec decodes the profile (R83). -/
def profileOk (codec : Nat) (p : ParamFacts) : Bool :=
  match codec with
  | 1 => p.profile == 1 || p.profile == 2 || p.rext422
  | 2 => p.profile == 100 || p.profile == 110
  | _ => p.profile == 0

/-- The highest level of a codec, by the code of its standard (R83): HEVC 6.1, H.264 5.2, AV1 6.0. -/
def levelTop (codec : Nat) : Nat := if codec == 1 then 183 else if codec == 2 then 52 else 16

/-- A maximum of the record counts in whole blocks of 16 samples, since a coded size does (R84, R87; log 84). -/
def codedMax (codec m : Nat) : Nat := if codec == 3 then m else ceilDiv m 16 * 16

/-- The field of the record that a parameter set exceeds, with the value found (R83, R84, R87, R118). -/
def limitExceeded (r : Record) (p : ParamFacts) : Option (Nat × Nat) :=
  let codec := decCodec r
  if !profileOk codec p then some (6, p.profile)
  else if codedMax codec (rd r 20 2) < p.codedWidth then some (1, p.codedWidth)
  else if codedMax codec (rd r 22 2) < p.codedHeight then some (2, p.codedHeight)
  else if rd r 24 1 < p.bitDepth then some (3, p.bitDepth)
  else if rd r 25 1 < p.chroma then some (4, p.chroma)
  else if rd r 26 1 < p.dpb then some (5, p.dpb)
  else none

/-- A stream of a higher level than the table's is decoded only while its rate stays within the record's maximum (R83). -/
def rateBeyond (r : Record) (p : ParamFacts) : Bool := levelTop (decCodec r) < p.level && rd r 28 4 < p.rate

/-- The unit lies outside what the record selects (R85): a higher temporal sub-layer of HEVC, or another AV1 operating point. -/
def unitUnwanted (r : Record) (f : DecodeFacts) : Bool :=
  (decCodec r == 1 && rd r 59 1 != 7 && rd r 59 1 < f.temporalId) ||
  (decCodec r == 3 && !f.points.isEmpty && !f.points.contains (rd r 58 1))

/-! Reference pictures (R125, R134, R135). -/

def RefPic.named (n : RefName) (p : RefPic) : Bool := p.ident == n.ident && p.parity == n.parity

/-- A sequence gap across the unit's start makes every AV1 slot suspect (R125). -/
def markSuspect (r : Record) (a : AccessUnit) (refs : List RefPic) : List RefPic :=
  if decCodec r == 3 && a.gapBefore then refs.map (fun p => { p with suspect := true }) else refs

/-- The reference that a name reaches: a suspect slot counts as never received unless frame IDs prove it (R125). -/
def refFor (f : DecodeFacts) (refs : List RefPic) (n : RefName) : Option RefPic :=
  refs.find? (fun p => p.named n && (!p.suspect || f.proven.contains p.ident))

/-- The last of a list in an order. -/
def latestBy (key : RefPic → Int) (l : List RefPic) : Option RefPic :=
  l.foldl (fun (m : Option RefPic) p => match m with
    | some q => if key q ≤ key p then some p else m
    | none => some p) none

/-- The decoded picture that stands in for a missing one (R134), or none. `latest` holds the most recently decoded pictures. -/
def standInFor (codec : Nat) (f : DecodeFacts) (refs latest : List RefPic) (n : RefName) : Option RefPic :=
  let order := fun (p : RefPic) => (p.order : Int)
  let sameLayer := latest.filter (fun p => p.layer == f.layer)
  match codec with
  | 1 =>
    let poc := fun (i : Nat) => signed 32 i
    let below := refs.filter (fun p => p.standIn == 0 && p.layer == f.layer && poc p.ident < poc n.ident)
    (latestBy (fun p => poc p.ident) below).or (latestBy order sameLayer)
  | 2 =>
    let same := latest.filter (fun p => if n.parity == 0 then p.parity == 0 else p.parity == n.parity || p.parity == 0)
    (latestBy order same).or (latestBy order latest)
  | _ => latestBy order sameLayer

/-- The reference that takes the place of a missing one: a decoded picture, or mid-grey (R134). -/
def standIn (codec : Nat) (f : DecodeFacts) (fmt : PicFormat) (refs latest : List RefPic) (n : RefName) : RefPic :=
  match standInFor codec f refs latest n with
  | some p => { p with ident := n.ident, parity := n.parity, layer := f.layer, standIn := 1, suspect := false, codes := [] }
  | none => { ident := n.ident, parity := n.parity, layer := f.layer, standIn := 2, content := .grey fmt }

/-- The references of a picture with stand-ins for the missing ones, and those stand-ins (R134, R135). -/
def substitute (codec : Nat) (f : DecodeFacts) (fmt : PicFormat) (latest refs : List RefPic) : List RefPic × List RefPic :=
  f.refers.foldl (fun (m : List RefPic × List RefPic) n =>
    if (refFor f m.1 n).isSome then m
    else
      let p := standIn codec f fmt m.1 latest n
      (m.1.filter (fun q => !q.named n) ++ [p], m.2 ++ [p])) (refs, [])

/-- A stand-in is in use: the picture refers to one, or the stream may still refer to one after it (R133). -/
def standInsUsed (f : DecodeFacts) (refs : List RefPic) : List RefPic :=
  refs.filter (fun p => p.standIn != 0 && (f.refers.any (fun n => p.named n) || f.keeps.any (fun n => p.named n)))

/-- The damaged access units that a picture descends from. -/
def Content.trail : Content → List Nat
  | .grey _ => [0]
  | .coded p _ => if p.lost.isEmpty then p.trail else addNew (p.token + 1) p.trail
  | .linear _ _ _ _ => [0]
  | .window _ _ _ c => c.trail
  | .grained _ c => c.trail
  | .unpaired _ c => c.trail
  | .woven t b => unionNew t.trail b.trail
  | .base _ => []
  | .filled _ c => c.trail
  | .drawn _ _ _ _ c _ => c.trail
  | .host _ _ _ _ c => c.trail

/-- Those of a reference: a stand-in is none of the stream's own pictures. -/
def RefPic.trail (p : RefPic) : List Nat :=
  if p.standIn == 0 then p.content.trail
  else match p.content with
    | .coded q _ => unionNew p.content.trail [0, q.token + 1]
    | c => c.trail

/-! Lost CTUs (R119 to R124). -/

/-- A part refers to parameter sets that were received intact (R120). -/
def partKnown (sets : List (Nat × ParamFacts)) (f : DecodeFacts) (p : CodedPart) : Bool :=
  (setOf sets p.paramSet).isSome && (setOf sets f.usesSet).isSome

/-- A part by itself fails a check of R119. -/
def partBad (sets : List (Nat × ParamFacts)) (f : DecodeFacts) (p : CodedPart) : Bool :=
  !p.headerOk || !p.fails.isEmpty || !partKnown sets f p

/-- The place k of a part's coding order is lost (R122, R123): from a failing element to the next substream that the part signals, and all from
the first missing byte. -/
def placeLost (p : CodedPart) (k : Nat) : Bool :=
  !p.headerOk || p.missingAt.any (fun m => m ≤ k) || p.fails.any (fun e => e ≤ k && !p.entries.any (fun n => e < n && n ≤ k))

/-- A part's damage reaches its end, so that a dependent segment after it is discarded (R122). -/
def partOpen (p : CodedPart) : Bool := placeLost p (p.ctus.length - 1)

/-- Each part with whether it is lost whole and whether it fails a check of R119: its parameter sets were never received intact, or it is a
dependent segment after a damaged one (R119, R120, R122). `intact` says that the last independent segment passed its checks, `go` that the part
before leaves the decoder in step. -/
def partsLost (sets : List (Nat × ParamFacts)) (f : DecodeFacts) : Bool → Bool → List CodedPart → List (CodedPart × Bool × Bool)
  | _, _, [] => []
  | intact, go, p :: ps =>
    let whole := !partKnown sets f p || (p.dependent && !(intact && go))
    let failed := partBad sets f p || (p.dependent && !intact)
    (p, whole, failed) :: partsLost sets f (if p.dependent then intact else !failed && p.missingAt.isNone) (!whole && !partOpen p) ps

/-- The parts of a picture. -/
def pictureParts (sets : List (Nat × ParamFacts)) (f : DecodeFacts) : List (CodedPart × Bool × Bool) := partsLost sets f false true f.parts

/-- The AV1 frame starts from contexts of a lost tile (R124). -/
def contextsGone (codec : Nat) (f : DecodeFacts) (refs : List RefPic) : Bool :=
  codec == 3 && f.primaryRef.any (fun n => refs.any (fun p => p.ident == n && p.contextsLost))

/-- The frame is lost whole: no intact AV1 frame header (R122), framing other than the record's (R85, R122), or contexts lost (R124). -/
def frameGone (r : Record) (f : DecodeFacts) (refs : List RefPic) : Bool :=
  (decCodec r == 3 && (!f.frameHeaderOk || f.annexB != decFlag r 4)) || contextsGone (decCodec r) f refs

/-- CTU i was decoded: some part that is not lost whole covers it at a place that is not lost. -/
def ctuDecoded (parts : List (CodedPart × Bool × Bool)) (i : Nat) : Bool :=
  parts.any (fun q => !q.2.1 && q.1.ctus.zipIdx.any (fun c => c.1 == i && !placeLost q.1 c.2))

/-- The lost CTUs of a picture, one flag each (R122 to R124). -/
def lostCtus (r : Record) (sets : List (Nat × ParamFacts)) (f : DecodeFacts) (refs : List RefPic) : List Bool :=
  let parts := pictureParts sets f
  let gone := frameGone r f refs
  (List.range f.ctus.length).map (fun i => gone || !ctuDecoded parts i)

/-- The units that fail a check of R119: parts, parameter sets, and units of other kinds. -/
def damagedUnits (sets : List (Nat × ParamFacts)) (f : DecodeFacts) : Nat :=
  ((pictureParts sets f).filter (fun q => q.2.2)).length + (f.params.filter (fun p => !p.intact)).length + f.otherDamaged

/-! Concealment (R126 to R132). -/

/-- The median of R126: of 3 the middle, of 4 the mean of the middle two toward zero, of 2 their mean, of 1 itself. -/
def concealMedian (l : List Int) : Int :=
  match sortBy (fun a b => a < b) l with
  | [] => 0
  | [a] => a
  | [a, b] => (a + b).tdiv 2
  | [_, b, _] => b
  | _ :: b :: c :: _ => (b + c).tdiv 2

/-- The nearest decoded CTU along a line of CTUs. -/
def nearestDecoded (lost : List Bool) (line : List Nat) : Option Nat := line.find? (fun i => !(lost.getD i true))

/-- The vector of a temporally concealed CTU (R126 method 1), from the nearest decoded CTUs straight above, below, left and right. -/
def concealVector (ctus : List CtuFact) (cols : Nat) (lost : List Bool) (i : Nat) : Vec :=
  let col := i % cols
  let near := fun (line : List Nat) (v : CtuFact → Option Vec) => (nearestDecoded lost line).bind (fun j => v (ctus.getD j {}))
  let vs := [
    near ((List.range (i / cols)).map (fun k => i - (k + 1) * cols)) (fun c => c.toBelow),
    near ((List.range (ceilDiv ctus.length cols - 1 - i / cols)).map (fun k => i + (k + 1) * cols)) (fun c => c.toAbove),
    near ((List.range col).map (fun k => i - (k + 1))) (fun c => c.toRight),
    near ((List.range (cols - 1 - col)).map (fun k => i + (k + 1))) (fun c => c.toLeft)].filterMap id
  { x := concealMedian (vs.map (fun v => v.x)), y := concealMedian (vs.map (fun v => v.y)) }

/-- The picture that method 1 predicts from: list 0 index 0, or, where no intact header names it, the reference decoded last (log 83). -/
def concealRef (f : DecodeFacts) (refs : List RefPic) : Option RefPic :=
  (f.refers.head?.bind (fun n => refs.find? (fun p => p.named n))).or (latestBy (fun p => (p.order : Int)) refs)

/-- The method that conceals the lost CTUs of a picture (R126), with the picture it copies from. Without a reference an inter picture is
concealed spatially (log 83). -/
def concealMethod (f : DecodeFacts) (refs latest : List RefPic) (lost : List Bool) : Nat × Option RefPic :=
  let n := (lost.filter (fun b => b)).length
  let last := latestBy (fun p => (p.order : Int)) latest
  match f.intra, concealRef f refs with
  | false, some p => (1, some p)
  | true, _ => if lost.length < 2 * n && last.isSome then (2, last) else (3, none)
  | false, none => (3, none)

/-- How each lost CTU of a picture is concealed (R126): the vector of its copy, or none for interpolation. -/
def concealAs (f : DecodeFacts) (cols : Nat) (method : Nat) (lost : List Bool) : List (Nat × Option Vec) :=
  lost.zipIdx.filterMap (fun p =>
    if p.1 then some (p.2, if method == 1 then some (concealVector f.ctus cols lost p.2) else if method == 2 then some { x := 0, y := 0 } else none)
    else none)

/-- CTU i lies at an edge shared with a lost CTU (R127). -/
def besideLost (lost : List Bool) (cols i : Nat) : Bool :=
  let at_ := fun (j : Nat) => lost.getD j false
  let col := i % cols
  (0 < col && at_ (i - 1)) || (col + 1 < cols && at_ (i + 1)) || (cols ≤ i && at_ (i - cols)) || at_ (i + cols)

/-- A CTU read samples or motion of a reference that cannot be trusted (R130): of a stand-in, or of a CTU with a non-zero code. -/
def readsDamage (refs : List RefPic) (c : CtuFact) : Bool :=
  c.reads.any (fun q => match refs.find? (fun p => p.named q.1) with
    | some p => p.standIn != 0 || q.2.any (fun k => p.codes.getD k 0 != 0)
    | none => false)

/-- The concealment codes of a picture (R127, R130, R132). -/
def concealCodes (f : DecodeFacts) (refs : List RefPic) (cols method : Nat) (lost : List Bool) (mismatch : Bool) : List Nat :=
  f.ctus.zipIdx.map (fun p =>
    if mismatch then 3
    else if lost.getD p.2 false then (if method == 3 then 1 else 2)
    else if readsDamage refs p.1 || p.1.intra.any (fun j => lost.getD j false) || besideLost lost cols p.2 then 3
    else 0)

/-- The decoded picture hash counts unless the record ignores it (R85, R119). -/
def hashFails (r : Record) (f : DecodeFacts) : Bool := decCodec r == 1 && f.hashMismatch && !decFlag r 3

/-- The cause byte (R131). CTUs that no unit of a complete access unit covers are a syntax error, since R119 checks the cover; in an incomplete
unit they are missing packets, as the worked example of chapter 4 has it (log 83). -/
def concealCause (r : Record) (sets : List (Nat × ParamFacts)) (a : AccessUnit) (f : DecodeFacts) (refs : List RefPic) (lost : List Bool) : Nat :=
  let missing := f.parts.any (fun p => !partKnown sets f p)
  let gone := contextsGone (decCodec r) f refs
  packBits [damagedUnits sets f != 0 || (lost.any (fun b => b) && !a.incomplete && !missing && !gone), a.incomplete,
    a.badStructure, f.refers.any (fun n => refs.any (fun p => p.named n && p.standIn != 0)), hashFails r f, missing, gone]

/-! One picture. -/

/-- What decoding one access unit gives: the coded picture with its codes and cause byte, its CTU width, the references after it, the stand-ins
that it adds and those in use. -/
structure Decoded where
  content : Content
  codes : List Nat
  cause : Nat
  lost : List Bool
  refs : List RefPic
  latest : List RefPic
  added : List RefPic
  standIns : List RefPic
  units : Nat
  deriving DecidableEq, Repr

/-- Coded samples of a picture; an H.264 field has half the rows of its frame. -/
def codedFormat (codec : Nat) (p : ParamFacts) (f : DecodeFacts) : PicFormat :=
  { width := p.codedWidth, height := if codec == 2 && f.field then p.codedHeight / 2 else p.codedHeight, depth := p.bitDepth, chroma := p.chroma }

/-- CTUs in a row. -/
def ctuCols (p : ParamFacts) : Nat := ceilDiv p.codedWidth (2 ^ p.ctuLog2)

/-- Decodes and conceals a picture: a function of the record, the context's decoding state, the access unit and what its bytes hold (R119 to
R135). A concealed picture serves as a reference as it was concealed (R129). -/
def decodeUnit (r : Record) (d : DecodeSt) (sets : List (Nat × ParamFacts)) (p : ParamFacts) (a : AccessUnit) (f : DecodeFacts) : Decoded :=
  let codec := decCodec r
  let fmt := codedFormat codec p f
  let cols := ctuCols p
  let sub := substitute codec f fmt d.latest d.refs
  let refs := sub.1
  let lost := lostCtus r sets f refs
  let m := concealMethod f refs d.latest lost
  let codes := concealCodes f refs cols m.1 lost (hashFails r f)
  let trail := f.refers.foldl (fun l n => match refs.find? (fun q => q.named n) with | some q => unionNew l q.trail | none => l) []
  let content := Content.coded { token := a.token, trail := trail, codec := codec, full := fmt, ctuLog2 := p.ctuLog2
                                 lost := concealAs f cols m.1 lost } ((m.2.map (fun q => q.content)).getD (.grey fmt))
  let cause := concealCause r sets a f refs lost
  let damaged := cause != 0 || lost.any (fun b => b)
  let own : RefPic := { ident := 0, seq := d.seq, order := d.order, layer := f.layer, parity := f.parity, codes := codes
                        contextsLost := f.contextCtus.any (fun i => lost.getD i false), content := content }
  let stored := f.stores.map (fun i => { own with
    ident := i, suspect := damaged && refs.any (fun q => q.ident == i && q.suspect) })
  let kept := refs.filter (fun q => f.keeps.any (fun n => q.named n) && !stored.any (fun o => o.ident == q.ident && o.parity == q.parity))
  { content := content, codes := codes, cause := cause, lost := lost, refs := kept ++ stored
    latest := d.latest.filter (fun q => q.layer != f.layer || q.parity != f.parity) ++ [own]
    added := sub.2, standIns := standInsUsed f refs, units := damagedUnits sets f }

end Sys2Proof.Machine
end

