-- ==== Sys2Proof/Machine/Pictures.lean ====
section
/-!
DEFINITION. Pictures.lean: the end of a decoded picture: its change map, descriptor and place in the picture store (R113 to R117, R131), refresh
requests (R140 to R142), availability and reliability (R103, R107, R133, R136 to R139, R144, R148), and host-assisted concealment (R143 to R149).
-/
namespace Sys2Proof.Machine

/-! The change map and its rectangles (R115 to R117). -/

/-- The runs of set bits of a row of `w` blocks. -/
def rowRuns (set : Nat → Bool) (w : Nat) : List (Nat × Nat) :=
  ((List.range w).foldl (fun (acc : List (Nat × Nat)) c =>
    if !set c then acc
    else match acc with
      | (a, n) :: rest => if a + n == c then (a, n + 1) :: rest else (c, 1) :: acc
      | [] => [(c, 1)]) []).reverse

/-- Runs joined vertically where they share the same horizontal extent (R117). -/
def joinRuns (rects : List Rect) (row : Nat) (runs : List (Nat × Nat)) : List Rect :=
  runs.foldl (fun rs q =>
    let same := fun (t : Rect) => t.x == q.1 && t.width == q.2 && t.y + t.height == row
    if rs.any same then mapWhere same (fun t => { t with height := t.height + 1 }) rs
    else rs ++ [{ x := q.1, y := row, width := q.2, height := 1 }]) rects

/-- The bounding box of the set bits of a band of rows. -/
def bandBox (set : Nat → Nat → Bool) (w y0 y1 : Nat) : Option Rect :=
  let pts := (List.range (y1 - y0)).flatMap (fun k => (rowRuns (set (y0 + k)) w).map (fun q => (y0 + k, q.1, q.1 + q.2)))
  match pts with
  | [] => none
  | p :: ps =>
    let b := ps.foldl (fun (m : Nat × Nat × Nat × Nat) q => (min m.1 q.1, max m.2.1 q.1, min m.2.2.1 q.2.1, max m.2.2.2 q.2.2))
      (p.1, p.1, p.2.1, p.2.2)
    some { x := b.2.2.1, y := b.1, width := b.2.2.2 - b.2.2.1, height := b.2.1 + 1 - b.1 }

/-- The rectangles of a change map of `w` × `hgt` blocks, in blocks (R117). -/
def changeRects (set : Nat → Nat → Bool) (w hgt : Nat) : List Rect :=
  let joined := (List.range hgt).foldl (fun rs y => joinRuns rs y (rowRuns (set y) w)) []
  if joined.length ≤ 16 then joined
  else
    let band := ceilDiv hgt 16
    (List.range 16).filterMap (fun k => bandBox set w (k * band) (min hgt ((k + 1) * band)))

/-- Blocks to luma samples, clipped to the output picture (R117). -/
def blockRect (width height : Nat) (t : Rect) : Rect :=
  let x1 := min width (16 * (t.x + t.width))
  let y1 := min height (16 * (t.y + t.height))
  { x := 16 * t.x, y := 16 * t.y, width := x1 - 16 * t.x, height := y1 - 16 * t.y }

/-- Some CTU of coded samples (x0, y0) to (x1, y1), inclusive, holds a concealed area (R116). -/
def areaConcealed (codes : List Nat) (log2 cols x0 y0 x1 y1 : Nat) : Bool :=
  let n := 2 ^ log2
  (List.range (y1 / n + 1 - y0 / n)).any (fun j => (List.range (x1 / n + 1 - x0 / n)).any (fun i =>
    codes.getD ((y0 / n + j) * cols + x0 / n + i) 0 != 0))

/-- The blocks of an output picture whose bits are clear (R115, R116): those that the decoder found unchanged, without a concealed area. -/
def clearBlocks (p : ParamFacts) (cols : Nat) (codes blocks : List Nat) : List Nat :=
  let w := ceilDiv p.width 16
  blocks.filter (fun b =>
    let x := 16 * (b % w) + p.cropX
    let y := 16 * (b / w) + p.cropY
    !areaConcealed codes p.ctuLog2 cols x y (x + 15) (y + 15))

/-- A bit of a picture's change map (R115). -/
def changeSet (p : DecodedPic) (y x : Nat) : Bool := p.allChanged || !(p.clear.contains (y * ceilDiv p.width 16 + x))

/-- The rectangles of a decoded picture. -/
def pictureRects (p : DecodedPic) : List Rect :=
  (changeRects (changeSet p) (ceilDiv p.width 16) (ceilDiv p.height 16)).map (blockRect p.width p.height)

/-- A picture whose every bit is set (R116, R138). -/
def wholeChanged (p : DecodedPic) : DecodedPic :=
  let q := { p with allChanged := true, clear := [] }
  { q with rects := pictureRects q }

/-! The descriptor and the maps (R114, R115, R131). -/

/-- Digits of a row, `bits` each, the first lowest, padded to a multiple of 64 bits. -/
def packRow (bits : Nat) (l : List Nat) : List Byte :=
  le (8 * ceilDiv (bits * l.length) 64) (l.foldr (fun v n => v % 2 ^ bits + 2 ^ bits * n) 0)

/-- Where the maps of a descriptor stand behind it. -/
def changeMapAt (p : DecodedPic) : Nat := 192 + Config.mapPlace (2 * p.descAt)
def concealMapAt (p : DecodedPic) : Nat := 192 + Config.mapPlace (2 * p.descAt + 1)

def concealedCount (p : DecodedPic) : Nat := (p.codes.filter (fun c => c != 0)).length

/-- The decoded picture descriptor (R114). -/
def descriptorBytes (stream : Handle) (p : DecodedPic) : List Byte :=
  pad 192 (le 4 stream.toNat ++ le 4 p.seq ++ le 8 p.presentation ++ le 8 p.completed ++ le 2 p.width ++ le 2 p.height ++
    le 1 p.bitDepth ++ le 1 p.chroma ++ p.colour.flatMap (le 1) ++ le 1 (p.flags + 64 * b2n p.allChanged) ++
    le 2 (concealedCount p) ++ le 2 (ceilDiv p.width 16) ++ le 2 (ceilDiv p.height 16) ++ le 4 (changeMapAt p) ++
    le 1 p.rects.length ++ le 3 0 ++
    pad 128 (p.rects.flatMap (fun t => le 2 t.x ++ le 2 t.y ++ le 2 t.width ++ le 2 t.height)) ++
    le 4 (if concealedCount p == 0 then 0 else concealMapAt p) ++ le 4 p.origin)

/-- The change map (R115). -/
def changeMapBytes (p : DecodedPic) : List Byte :=
  (List.range (ceilDiv p.height 16)).flatMap (fun y =>
    packRow 1 ((List.range (ceilDiv p.width 16)).map (fun x => b2n (changeSet p y x))))

/-- The concealment map (R131). -/
def concealMapBytes (p : DecodedPic) : List Byte :=
  let rows := ceilDiv p.codes.length p.ctuCols
  le 2 p.ctuCols ++ le 2 rows ++ le 1 p.ctuLog2 ++ le 1 p.cause ++ le 2 0 ++
  (List.range rows).flatMap (fun y => packRow 2 ((p.codes.drop (y * p.ctuCols)).take p.ctuCols))

/-- The descriptor and the maps of a picture are written to its picture store (R114, R115, R131). -/
def writeDescriptor (h : HalfId) (c : Nat) (p : DecodedPic) (x : Half) : Half :=
  match placedAt x p.region with
  | none => x
  | some q =>
    let at_ := placeAddr q + p.descAt
    let x := devWrite (at_ + changeMapAt p) (changeMapBytes p) (devWrite at_ (descriptorBytes (decodeH h c) p) x)
    if concealedCount p == 0 then x else devWrite (at_ + concealMapAt p) (concealMapBytes p) x

/-- A free place in a region (log 6). -/
def placeIn (q : Placement) (n : Nat) : Nat := n % max 1 q.size

/-- What a context writes for an output picture (R113, R114): the packed picture, the linear copy that flag bit 2 asks for, the descriptor and
the maps, at places that the spec does not give. -/
def storePicture (h : HalfId) (c : Nat) (linear : Bool) (free : Nat) (p : DecodedPic) (x : Half) : Half :=
  match placedAt x p.region with
  | none => x
  | some q =>
    let x := picStore { addr := placeAddr q + p.place, content := p.content } x
    let x := if linear then picStore { addr := placeAddr q + placeIn q (Config.linearPlace free), content := p.content, packed := false } x else x
    writeDescriptor h c p x

/-! Refresh requests (R140 to R142). -/

/-- A hexadecimal digit. -/
def hexDigit (n : Nat) : Byte := if n < 10 then byte (48 + n) else byte (87 + n)

/-- The SDES CNAME: "drl" and the serial number in 16 hexadecimal digits (R298). -/
def cname (serial : Nat) : List Byte :=
  [byte 100, byte 114, byte 108] ++ (List.range 16).map (fun k => hexDigit (serial / 16 ^ (15 - k) % 16))

/-- The RTCP port of an INPUT (R93). -/
def inRtcp (r : Record) : Nat := if rd r 72 2 == 0 then rd r 56 2 + 1 else rd r 72 2

/-- One feedback message of an INPUT leaves, a compound packet (R140): counted on its context and reported. `rep` is the repeat number. -/
def requestSend (h : HalfId) (i : Nat) (fir : Bool) (rep : Nat) (s : State) : State :=
  let x := s.half h
  let r := x.record (inputH h i)
  match x.obj.input? i with
  | none => s
  | some n =>
    let s := emit h (.feedback (inputH h i) fir n.refresh.firSequence n.lastSource (inRtcp r) ((rd r 74 2).testBit 1)
      (cname x.boot.fuses.serial.toNat) n.ownSsrc n.lastSsrc) s
    let s := s.upd h (fun x =>
      let x := match fedBy h x i with
        | some d => damageAdd h (hIndex (recHandle d)) (if fir then 13 else 12) 1 x
        | none => x
      updInput i (fun n => { n with refresh := { n.refresh with lastSent := some x.clk.now } }) x)
    event h 0x040B sevInfo (inputH h i) (le 4 (if fir then 2 else 1) ++ le 4 n.refresh.firSequence ++ le 4 rep) s

/-- The next FIR number: 0 for the first request of the session, then one more for each new trigger (R142). -/
def firNext (q : RefreshReq) : Nat := if q.lastSent.isSome then (q.firSequence + 1) % 256 else q.firSequence

/-- Requests of an INPUT are at least 200 ms apart (R141). -/
def requestSpaced (now : Nat) (q : RefreshReq) : Bool :=
  match q.lastSent with | some t => t + 200000000 ≤ now | none => true

/-- A refresh trigger starts, or joins, the schedule of R141. `sent` counts the requests of the schedule. -/
def refreshTrigger (h : HalfId) (i : Nat) (s : State) : State :=
  let now := s.now h
  let fir := (rd ((s.half h).record (inputH h i)) 74 2).testBit 2
  match (s.half h).obj.input? i with
  | none => s
  | some n =>
    if requestSpaced now n.refresh then
      requestSend h i fir 0 (s.upd h (updInput i (fun n => { n with refresh := { n.refresh with
        pending := true, first := now, sent := 1, firSequence := firNext n.refresh, due := now + 500000000 } })))
    else if n.refresh.pending then s
    else s.upd h (updInput i (fun n => { n with refresh := { n.refresh with
        pending := true, first := now, sent := 1, due := (n.refresh.lastSent.getD 0) + 500000000 } }))

/-- One request outside the schedule (R147). -/
def requestOnce (h : HalfId) (i : Nat) (fir : Bool) (s : State) : State :=
  match (s.half h).obj.input? i with
  | none => s
  | some n =>
    if requestSpaced (s.now h) n.refresh then
      requestSend h i fir 0 (s.upd h (updInput i (fun n => { n with refresh := { n.refresh with firSequence := firNext n.refresh } })))
    else s

/-- The schedule of the INPUT that feeds a context ends (R141). -/
def refreshStop (h : HalfId) (input : Handle) (x : Half) : Half :=
  let _ := h
  if input == 0 then x else updInput (hIndex input) (fun n => { n with refresh := { n.refresh with pending := false } }) x

/-- REFRESH_REQUEST_REPEAT (R141): every 500 ms, after 20 repeats every 5 s with REFRESH_UNANSWERED once; never within 200 ms of another
request. -/
def execRefreshRequestRepeat (h : HalfId) (input : Nat) (s : State) : Out :=
  .next (
    let x := s.half h
    match x.obj.input? input with
    | none => s
    | some n =>
      if !n.refresh.pending || x.clk.now < n.refresh.due || !requestSpaced x.clk.now n.refresh then s
      else
        let fir := (rd (x.record (inputH h input)) 74 2).testBit 2
        let reps := n.refresh.sent
        let s := requestSend h input fir reps s
        let s := s.upd h (fun x => updInput input (fun n => { n with refresh := { n.refresh with
          sent := reps + 1, due := x.clk.now + (if 20 ≤ reps then 5000000000 else 500000000) } }) x)
        if reps == 20 then event h 0x040C sevWarning (inputH h input) (le 8 n.refresh.first ++ le 4 (reps + 1)) s else s)

/-! Availability (R103, R107, R136 to R139, R144, R148). -/

/-- The pictures of a stream that layers show, none where no layer takes it as its source, and an empty list where some layer shows none yet. -/
def layersShown (h : HalfId) (x : Half) (c : Nat) : Option (List Nat) :=
  let layers := x.running.filter (fun r => recType r == 9 && rd r 20 4 == (decodeH h c).toNat)
  let shown := x.obj.canvases.flatMap (fun v => v.shown.filter (fun p => layers.any (fun r => recHandle r == p.1)))
  if layers.isEmpty then none else some (if shown.length < layers.length then [] else shown.map (fun p => p.2))

/-- Pictures that no layer will ask for again are forgotten; the newest always stays. -/
def trimAvailable (h : HalfId) (c : Nat) (x : Half) : Half :=
  match layersShown h x c with
  | none => updDecode c (fun d => { d with available := d.available.drop (d.available.length - 1) }) x
  | some l => updDecode c (fun d =>
      let rest := d.available.dropWhile (fun p => !l.contains p.seq)
      { d with available := if l.isEmpty || rest.isEmpty then d.available else rest }) x

/-- A picture leaves the list of those that wait. -/
def dropWaiting (c seq : Nat) (x : Half) : Half := updDecode c (fun d => { d with waiting := d.waiting.filter (fun q => q.seq != seq) }) x

/-- A picture is made available. Behind held pictures its change map is all set, and its descriptor says so (R138). -/
def makeAvailable (h : HalfId) (c : Nat) (p : DecodedPic) (x : Half) : Half :=
  let behind := (x.obj.decode? c).any (fun d => 0 < d.heldRun)
  let p := { p with availableAt := x.clk.now, awaiting := false }
  let q := if behind && !p.allChanged then wholeChanged p else p
  let x := if behind && !p.allChanged then writeDescriptor h c q x else x
  trimAvailable h c (updDecode c (fun d => { d with available := d.available ++ [q], heldRun := 0 }) (dropWaiting c p.seq x))

/-- A picture is held: kept as a reference, never available (R137). One that has been passed is dropped, and not held (log 83). -/
def holdPicture (h : HalfId) (c : Nat) (p : DecodedPic) (x : Half) : Half :=
  let x := dropWaiting c p.seq x
  if p.passed then x
  else damageAdd h c 10 1 (updDecode c (fun d => { d with heldRun := d.heldRun + 1, heldSince := d.heldSince + 1 }) x)

/-- A picture that has been passed is never available (R103); of a guarded source it is kept for guarded canvases, which select by other times
(R164). -/
def keepPassed (h : HalfId) (c : Nat) (p : DecodedPic) (x : Half) : Half :=
  let x := dropWaiting c p.seq x
  if decPartner (x.record (decodeH h c)) == 0 then x
  else trimAvailable h c (updDecode c (fun d => { d with available := d.available ++ [{ p with awaiting := false }] }) x)

/-- A picture that is to be shown: now if its time has come, else it waits for it. One that has been passed is not shown (R103). -/
def showPicture (h : HalfId) (c : Nat) (p : DecodedPic) (x : Half) : Half :=
  if p.passed then keepPassed h c p x
  else if p.availableAt ≤ x.clk.now then makeAvailable h c p x
  else updDecode c (fun d => { d with waiting := d.waiting ++ [{ p with awaiting := false }] }) (dropWaiting c p.seq x)

/-- The damage policy of the record decides (R136, R137). -/
def byPolicy (h : HalfId) (c : Nat) (p : DecodedPic) (x : Half) : Half :=
  if decHold (x.record (decodeH h c)) && !p.reliable then holdPicture h c p x else showPicture h c p x

/-- PICTURE_AVAILABLE (R103, R107). -/
def execPictureAvailable (h : HalfId) (context : Nat) (s : State) : Out :=
  .next (removeIdle h (s.upd h (fun x =>
    match x.obj.decode? context with
    | none => x
    | some d =>
      match d.waiting.find? (fun p => !p.awaiting && p.availableAt ≤ x.clk.now) with
      | none => x
      | some p => makeAvailable h context p x)))

/-- BULK_STARVED (R104): a unit waits, or a picture is suspended, without progress for 1 s. -/
def execBulkStarved (h : HalfId) (context : Nat) (s : State) : Out :=
  .next (
    let x := s.half h
    match x.obj.decode? context with
    | none => s
    | some d =>
      let quiet := d.lastStarved.all (fun t => t + 10000000000 ≤ x.clk.now)
      let ready := !d.ready.isEmpty || x.dec.any (fun g => g.suspended.contains context)
      if decClass (x.record (decodeH h context)) == 2 && ready && d.lastProgress + 1000000000 ≤ x.clk.now && quiet then
        event h 0x0403 sevInfo (decodeH h context) (le 8 d.lastProgress)
          (s.upd h (fun x => updDecode context (fun d => { d with lastStarved := some x.clk.now }) x))
      else s)

/-! The end of a picture. -/

/-- Each rejected parameter set is counted and reported (R120, R151). -/
def rejectSets (h : HalfId) (c : Nat) (l : List ParamUnit) (s : State) : State :=
  (l.filter (fun p => !p.intact)).foldl (fun s p =>
    event h 0x040D sevWarning (decodeH h c) (le 4 p.kind ++ le 4 p.ident) (s.upd h (damageAdd h c 2 1))) s

/-- Each new stand-in is counted and reported, once for its missing picture (R135, R151). -/
def reportStandIns (h : HalfId) (c seq : Nat) (l : List RefPic) (s : State) : State :=
  l.foldl (fun s p => event h 0x0408 sevWarning (decodeH h c) (le 4 seq ++ le 4 p.ident ++ le 4 p.standIn ++ le 4 p.seq)
    (s.upd h (damageAdd h c 8 1))) s

/-- The closing condition that a picture meets (R133): 1 to 3 for (a) to (c), 0 for none. `clean` says that every picture since the last
recovery point message is intact. -/
def closing (codec : Nat) (f : DecodeFacts) (clean bad : Bool) (refs : List RefPic) : Nat :=
  if bad then 0
  else if f.startPoint then 1
  else if codec != 3 && f.recoveryDone && clean then 2
  else if refs.all (fun p => p.standIn == 0 && p.codes.all (fun k => k == 0)) then 3
  else 0

/-- The context's state moves (R133) with an output picture: STREAM_UNRELIABLE, or STREAM_RELIABLE with the pictures held since (R151). -/
def reliability (h : HalfId) (c : Nat) (unsound : Bool) (close : Nat) (s : State) : State :=
  match (s.half h).obj.decode? c with
  | none => s
  | some d =>
    if d.reliable && unsound && close == 0 then
      event h 0x0409 sevInfo (decodeH h c) (le 4 d.seq ++ le 4 (rd ((s.half h).record (decodeH h c)) 18 1))
        (s.upd h (fun x => updDecode c (fun d => { d with reliable := false, unreliableAt := x.clk.now, heldSince := 0 }) x))
    else if !d.reliable && close != 0 then
      let s := event h 0x040A sevInfo (decodeH h c)
        (le 4 d.seq ++ le 4 close ++ le 8 (s.now h - d.unreliableAt) ++ le 4 d.heldSince)
        (s.upd h (updDecode c (fun d => { d with reliable := true })))
      s.upd h (fun x => refreshStop h (decInput (x.record (decodeH h c))) x)
    else s

/-- The concealment request of an assisted context (R143). With a decoded and a mid-grey stand-in both in use the request says mid-grey
(log 83). -/
def concealRequest (h : HalfId) (c : Nat) (standIns : List RefPic) (p : DecodedPic) (s : State) : State :=
  let direct := (p.codes.filter (fun k => k == 1 || k == 2)).length
  let inherited := (p.codes.filter (fun k => k == 3)).length
  asrRequest h
    { kind := 0x0B04, tag := p.seq % 0x10000, handle := decodeH h c, sequence := p.seq, time := p.presentation
      payload := le 8 p.descAt ++ le 2 direct ++ le 2 inherited ++ le 1 p.cause ++
        le 1 (maxOf (standIns.map (fun q => q.standIn))) ++ le 2 0 ++ le 8 p.deadline } p.deadline s

/-- A later picture of the context has had its presentation time (R103, third case): one that waits, is decoded, or is available. -/
def successorDue (d : DecodeSt) (now : Nat) (p : DecodedPic) : Bool :=
  let due := fun (t : Nat) => p.presentation < t && t ≤ now
  d.ready.any (fun a => due a.presentation) || d.waiting.any (fun q => due q.presentation) || d.available.any (fun q => due q.presentation)

/-- A picture without a request of its own (R136, R137, R148). -/
def unasked (h : HalfId) (c : Nat) (p : DecodedPic) (x : Half) : Half :=
  match x.obj.decode? c with
  | none => x
  | some d =>
    if p.reliable || !modeHost x fnConceal (decodeH h c) then byPolicy h c p x
    else if d.lastAction == 1 then showPicture h c p x
    else if 2 ≤ d.lastAction then holdPicture h c p x
    else byPolicy h c p x

/-- What R103, R137, R143, R144 and R148 do with a finished picture. A dropped picture is never available; the next one is all changed
(R116). A picture both passed (R103) and unreliable under HOLD counts as dropped, not as held (log 83). -/
def placePicture (h : HalfId) (c : Nat) (standIns : List RefPic) (p : DecodedPic) (asked : Bool) (s : State) : State :=
  let x := s.half h
  match x.obj.decode? c with
  | none => s
  | some d =>
    let passed := successorDue d x.clk.now p
    let s := if passed then
        s.upd h (fun x => (d.engines.head?.elim id (fun e => count (8 + e) 0x15 1))
          (updDecode c (fun d => { d with dropped := sat32 d.dropped, allNext := true }) x))
      else s
    let p := { p with passed := passed }
    if asked then
      let p := { p with awaiting := true
                        deadline := p.availableAt + (if decClass (x.record (decodeH h c)) == 0 then 1000000 else 0) }
      concealRequest h c standIns p (s.upd h (updDecode c (fun d => { d with waiting := d.waiting ++ [p] })))
    else s.upd h (unasked h c p)

/-- The codes of a frame made of one or two fields (R85): of each pair of rows of macroblocks, those of the field's row. -/
def frameCodes (cols : Nat) (top bottom : List Nat) : List Nat :=
  (List.range (2 * ceilDiv top.length cols)).flatMap (fun y => (List.range cols).map (fun x =>
    let i := y / 2 * cols + x
    if top.getD i 0 != 0 then top.getD i 0 else bottom.getD i 0))

/-- What a decoded picture gives for output (R85): itself; of a complementary field pair nothing at its first field and the frame at its second; of
an H.264 field without the other its lines repeated. -/
def outputOf (codec : Nat) (d : DecodeSt) (p : ParamFacts) (f : DecodeFacts) (u : Decoded) : Option (Content × List Nat × Nat) :=
  if codec != 2 || !f.field then some (u.content, u.codes, u.cause)
  else if f.fieldOf == 1 then none
  else match (if f.fieldOf == 2 then d.firstField else none) with
    | some q =>
      let cause := packBits ((List.range 8).map (fun n => q.2.2.testBit n || u.cause.testBit n))
      some (if f.parity == 2 then .woven q.1 u.content else .woven u.content q.1, frameCodes (ctuCols p) q.2.1 u.codes, cause)
    | none => some (.unpaired (f.parity == 2) u.content, frameCodes (ctuCols p) u.codes u.codes, u.cause)

/-- The output picture: cropped (R113), with film grain unless the record switches it off (R85). -/
def outputContent (p : ParamFacts) (grain : Bool) (token : Nat) (c : Content) : Content :=
  let g := c.format
  let w := if p.cropX == 0 && p.cropY == 0 && p.width == g.width && p.height == g.height then c
    else .window p.cropX p.cropY { g with width := p.width, height := p.height } c
  if grain then .grained token w else w

/-- The counts of a decoded picture (R150, R416). -/
def countDecoded (h : HalfId) (c e : Nat) (f : DecodeFacts) (u : Decoded) (codes : List Nat) (reliable : Bool) (x : Half) : Half :=
  let n := fun (k : Nat) => (codes.filter (fun c => c == k)).length
  let x := damageAdd h c 0 u.units x
  let x := damageAdd h c 4 (n 1) x
  let x := damageAdd h c 5 (n 2) x
  let x := damageAdd h c 6 (n 3) x
  let x := damageAdd h c 7 (b2n (u.cause.testBit 4)) x
  let x := damageAdd h c 9 (b2n (!reliable)) x
  let x := count (8 + e) 0x10 1 (count (8 + e) 0x11 f.ctus.length x)
  count (8 + e) 0x12 ((f.bytes + 63) / 64) (count (8 + e) 0x13 u.units (count (8 + e) 0x14 (n 1 + n 2 + n 3) x))

/-- The times of an output picture: when it may become available, and whether it is late (R103, R107). -/
def pictureTimes (r : Record) (a : AccessUnit) (now : Nat) : Nat × Bool :=
  let guardedLive := decClass r == 0 && decPartner r != 0
  let avail := if guardedLive then a.released + decPeriod r else if decClass r == 0 then now else max a.presentation now
  (avail, (guardedLive && avail < now) || (decClass r == 1 && a.presentation < now))

/-- A picture is output: reliability, descriptor, counts, events, request, availability (R103 to R151). -/
def outputPicture (h : HalfId) (c e : Nat) (p : ParamFacts) (a : AccessUnit) (f : DecodeFacts) (u : Decoded) (out : Content × List Nat × Nat)
    (s : State) : State :=
  let r := (s.half h).record (decodeH h c)
  let codec := decCodec r
  let now := s.now h
  let codes := out.2.1
  let bad := codes.any (fun k => k != 0)
  let clean := ((s.half h).obj.decode? c).any (fun d => d.recoveryClean)
  let s := reliability h c (bad || !u.standIns.isEmpty) (closing codec f clean bad u.refs) s
  match (s.half h).obj.decode? c with
  | none => s
  | some d =>
    let grain := f.grain && !decFlag r 1
    let resized := d.sizeWas != some (p.width, p.height)
    let all := d.allNext || resized || f.intra || f.startPoint || f.field || grain
    let times := pictureTimes r a now
    let region := rd r 48 4 % 0x10000
    let q := ((placedAt (s.half h) region).getD { region := 0, channel := 0, offset := 0, size := 0 })
    let pic : DecodedPic :=
      { seq := d.seq, presentation := a.presentation, completed := now, availableAt := max times.1 now
        showAt := if decClass r == 0 then times.1 else a.presentation, width := p.width, height := p.height, bitDepth := p.bitDepth
        chroma := p.chroma, colour := [p.primaries, p.transfer, p.matrix], fullRange := p.fullRange, chromaLoc := p.chromaLoc
        flags := packBits [p.fullRange, f.field, f.field && f.parity == 2, f.startPoint, d.reliable, grain, false, d.sizeWas.isSome && resized]
        ctuLog2 := p.ctuLog2, ctuCols := ctuCols p, cause := out.2.2, codes := codes
        clear := if all then [] else clearBlocks p (ctuCols p) codes f.clearBlocks, reliable := d.reliable, allChanged := all
        content := outputContent p grain a.token out.1, region := region, place := placeIn q (Config.picturePlace s.free)
        descAt := placeIn q (Config.descriptorPlace s.free), tag := d.seq % 0x10000, origin := a.origin }
    let pic := { pic with rects := pictureRects pic }
    let s := s.upd h (storePicture h c (decFlag r 2) s.free pic)
    let s := s.tick1
    let s := s.upd h (fun x =>
      let x := countDecoded h c e f u codes d.reliable x
      let x := if times.2 then count (8 + e) 0x16 1 x else x
      updDecode c (fun d => { d with
        seq := (d.seq + 1) % 0x100000000, allNext := false, sizeWas := some (p.width, p.height), firstField := none
        late := if times.2 then sat32 d.late else d.late }) x)
    let direct := (codes.filter (fun k => k == 1 || k == 2)).length
    let inherited := (codes.filter (fun k => k == 3)).length
    let s := if out.2.2 != 0 || direct != 0 then
        event h 0x0407 sevWarning (decodeH h c)
          (le 4 pic.seq ++ le 1 out.2.2 ++ le 3 0 ++ le 4 direct ++ le 4 inherited ++ le 4 f.firstDamaged ++ le 4 f.firstOffset) s else s
    let s := if times.2 then event h 0x0401 sevWarning (decodeH h c) (le 4 pic.seq ++ le 8 pic.presentation ++ le 8 now) s else s
    let input := decInput r
    let s := if f.startPoint then s.upd h (refreshStop h input) else s
    let s := if decClass r == 0 && input != 0 && ((!f.stores.isEmpty && direct != 0) || !u.added.isEmpty) then
        refreshTrigger h (hIndex input) s else s
    placePicture h c u.standIns pic (modeHost (s.half h) fnConceal (decodeH h c) && (direct != 0 || !u.standIns.isEmpty)) s

/-- A picture is decoded (R119 to R135): the references move on; the first field of a pair waits for the second (R85). -/
def finishDecoded (h : HalfId) (c e : Nat) (d : DecodeSt) (p : ParamFacts) (a : AccessUnit) (f : DecodeFacts) (s : State) : State :=
  let r := (s.half h).record (decodeH h c)
  let u := decodeUnit r d d.sets p a f
  let bad := u.codes.any (fun k => k != 0)
  let s := reportStandIns h c d.seq u.added (s.upd h (updDecode c (fun d => { d with
    refs := u.refs, latest := u.latest, order := d.order + 1, recoveryClean := (f.recoverySei || d.recoveryClean) && !bad })))
  match outputOf (decCodec r) d p f u with
  | some out => outputPicture h c e p a f u out s
  | none => s.upd h (fun x => countDecoded h c e f u [] true (updDecode c (fun d => { d with firstField := some (u.content, u.codes, u.cause) }) x))

/-- The engines of a context become idle. -/
def decRelease (d : DecodeSt) (x : Half) : Half :=
  { x with dec := x.dec.map (fun g =>
      if g.current == some d.index then { g with current := none, seq := { g.seq with suspend := false } } else g) }

/-- A context before it decodes an access unit: a discontinuity discards its state (R90), and a unit after the end of the stream waits for a
random access point (R92). Under HOLD nothing is available after a discontinuity (R139). -/
def beforeUnit (r : Record) (a : AccessUnit) (now : Nat) (d : DecodeSt) : DecodeSt :=
  let d := if a.discontinuity then
      { d with refs := [], sets := [], active := none, latest := [], firstField := none, recoveryClean := false, raslSkip := false
               allNext := true, available := if decHold r then [] else d.available }
    else d
  { d with
    inProgress := none, lastProgress := now, lastTime := a.presentation, waitStart := d.waitStart || a.discontinuity || a.resume
    refs := markSuspect r a d.refs }

/-- What becomes of an access unit: it is discarded unparsed (R85), skipped and counted (R121), lost without a parameter set (R120), refused (R83,
R87), or decoded. -/
inductive UnitFate where
  | discarded
  | skipped
  | lost
  | refused (event : Option (Nat × Nat))
  | decoded (p : ParamFacts)
  deriving DecidableEq, Repr

/-- The fate of an access unit. A new parameter set comes into force at a start point only (R87). -/
def unitFate (r : Record) (d : DecodeSt) (sets : List (Nat × ParamFacts)) (f : DecodeFacts) : UnitFate :=
  if unitUnwanted r f then .discarded
  else if d.waitStart && !f.startPoint then (if d.limitWait then .discarded else .skipped)
  else if f.rasl && d.raslSkip && !f.startPoint then .skipped
  else match (if f.startPoint then (setOf sets f.usesSet).or d.active else d.active) with
    | none => .lost
    | some p =>
      match limitExceeded r p with
      | some e => .refused (if !d.limitWait || f.params.any (fun q => q.intact && paramKey q == f.usesSet) then some e else none)
      | none => if rateBeyond r p then .refused none else .decoded p

/-- DECODE_PICTURE_COMPLETE (R85, R87, R103, R114, R119 to R139): the picture in progress on the engine is finished. -/
def execDecodePictureComplete (h : HalfId) (engine : Nat) (f : DecodeFacts) (s : State) : Out :=
  .next (
    let x := s.half h
    let halting := fun (c : Nat) => x.dec.any (fun g => g.suspended.contains c || (g.current == some c && (g.halted || g.seq.halt)))
    match ((x.dec.getD engine {}).current.filter (fun c => !halting c)).bind (fun c => x.obj.decode? c) with
    | none => s
    | some d0 =>
      match d0.inProgress with
      | none => s
      | some a =>
        let c := d0.index
        let r := x.record (decodeH h c)
        let d := beforeUnit r a x.clk.now d0
        let sets := if unitUnwanted r f then d.sets else setsAfter d.sets f.params
        let fate := unitFate r d sets f
        let d := { d with sets := sets }
        let s := s.upd h (fun x => decRelease d (updDecode c (fun _ => d) x))
        let s := if unitUnwanted r f then s else rejectSets h c f.params s
        let s := match fate with
          | .discarded => s
          | .skipped => s.upd h (damageAdd h c 3 1)
          | .lost => s.upd h (damageAdd h c 0 (damagedUnits sets f))
          | .refused e =>
            let s := s.upd h (updDecode c (fun d => { d with limitWait := true, waitStart := true }))
            match e with
            | some q => event h 0x0402 sevWarning (decodeH h c) (le 4 q.1 ++ le 4 q.2) s
            | none => s
          | .decoded p =>
            let d := { d with active := some p, waitStart := false, limitWait := false
                              raslSkip := if f.startPoint then d.waitStart && f.cra else d.raslSkip }
            finishDecoded h c engine d p a f (s.upd h (updDecode c (fun _ => d)))
        let s := if a.endPos != 0 then feedStatus h c a s else s
        removeIdle h (if a.last then streamEnd h c s else s))

/-! Host-assisted concealment (R143 to R149). -/

/-- A picture of a context that waits for its instruction: by tag, sequence and time (R80, R145). -/
def awaitedPic (d : DecodeSt) (tag seq time : Nat) : Option DecodedPic :=
  d.waiting.find? (fun p => p.awaiting && p.tag == tag && p.seq == seq && p.presentation == time)

/-- The default of R149: the policy decides; for a guarded pair on both halves (R81), where the partner's picture is not yet available. The
action that R148 follows stays that of the last instruction in time (log 83). -/
def concealDefault (h : HalfId) (c : Nat) (p : DecodedPic) (s : State) : State :=
  let partner := decPartner ((s.half h).record (decodeH h c))
  let s := s.upd h (byPolicy h c { p with awaiting := false })
  if partner == 0 || !s.sparWorks then s
  else s.upd h.other (fun x =>
    let k := partner % 0x10000
    match x.obj.decode? k with
    | none => x
    | some d =>
      match d.waiting.find? (fun q => q.seq == p.seq) with
      | none => x
      | some q => byPolicy h.other k { q with awaiting := false } x)

/-- ASSIST_LATE of a concealment request; cause as R586. -/
def concealLate (h : HalfId) (c : Nat) (p : DecodedPic) (cause : Nat) (s : State) : State :=
  assistLate h 0x0B04 p.tag (decodeH h c) p.seq p.presentation cause (concealDefault h c p s)

/-- CONCEALMENT_DEADLINE (R149): no instruction by the deadline. -/
def execConcealmentDeadline (h : HalfId) (context : Nat) (s : State) : Out :=
  .next (match (s.half h).obj.decode? context with
    | none => s
    | some d =>
      match d.waiting.find? (fun p => p.awaiting && p.deadline ≤ s.now h) with
      | none => s
      | some p => removeIdle h (concealLate h context p 1 s))

/-- The bytes that a replacement takes: its luma and chroma planes (R146, R343). -/
def replacementBytes (p : DecodedPic) (pitch : Nat) : Nat :=
  let f : PicFormat := { width := p.width, height := p.height, depth := p.bitDepth, chroma := p.chroma }
  pitch * (f.height + f.planeH 1)

/-- Where an instruction's replacement stands (R145, R146): in a placed MEMORY_REGION of this half that holds it whole, with rows that hold the
picture's. -/
def replacementAt (h : HalfId) (x : Half) (p : DecodedPic) (region : Handle) (offset pitch : Nat) : Option Nat :=
  if hType region != 0x10 || hHalf region != h || pitch < p.width * sampleBytes p.bitDepth then none
  else match placedAt x (hIndex region) with
    | none => none
    | some q => if offset + replacementBytes p pitch ≤ q.size then some (placeAddr q + offset) else none

/-- The replacement in place of a damaged picture (R146): its bytes are copied from the region; every change-map bit is set, and no CTU of it
counts as concealed (log 83). -/
def replaced (x : Half) (p : DecodedPic) (at_ pitch free : Nat) : DecodedPic :=
  let n := replacementBytes p pitch
  let cells := (fillsEnd at_ n x).dram.data.filter (fun m => at_ ≤ m.1 && m.1 < at_ + n)
  let q := (placedAt x p.region).getD { region := 0, channel := 0, offset := 0, size := 0 }
  wholeChanged { p with
    awaiting := false, codes := [], place := placeIn q (Config.picturePlace free)
    content := .linear { width := p.width, height := p.height, depth := p.bitDepth, chroma := p.chroma } pitch cells at_ }

/-- An instruction takes effect (R145 to R148). `at_` and `pitch` are the replacement's of action 3. -/
def concealAct (h : HalfId) (c : Nat) (p : DecodedPic) (action at_ pitch : Nat) (s : State) : State :=
  let s := s.upd h (updDecode c (fun d => { d with lastAction := action }))
  match action with
  | 0 => s.upd h (byPolicy h c { p with awaiting := false })
  | 1 => s.upd h (showPicture h c { p with awaiting := false })
  | 2 => s.upd h (holdPicture h c p)
  | _ =>
    let q := replaced (s.half h) p at_ pitch s.free
    asrNotice h { kind := 0x0B04, tag := p.tag, handle := decodeH h c, sequence := p.seq, time := p.presentation
                  payload := List.replicate 13 0 ++ le 1 0xFF }
      (s.upd h (fun x => damageAdd h c 11 (b2n (!p.passed)) (showPicture h c q (storePicture h c false s.free q x)))).tick1

/-- CONCEALMENT_INSTRUCTION (R145 to R149). A malformed instruction is reported, and the picture goes on waiting for another until its deadline
(log 83). -/
def execConcealmentInstruction (h : HalfId) (a : AssistEntry) (s : State) : Out :=
  .next (runAssist h 0x0B04 fnConceal a s (fun b s =>
    let c := hIndex a.handle
    let late := fun (cause : Nat) (s : State) =>
      assistLate h 0x0B04 a.tag.toNat a.handle a.sequence.toNat a.time.toNat cause s
    let action := afld b 24 1
    let refresh := afld b 25 1
    let region := afld b 28 4
    if 3 < action || 2 < refresh || afld b 26 2 != 0 || afld b 44 20 != 0 || (action != 3 && region != 0) then late 2 s
    else
      match ((s.half h).obj.decode? c).bind (fun d => awaitedPic d a.tag.toNat a.sequence.toNat a.time.toNat) with
      | none => late 1 s
      | some p =>
        let at_ := replacementAt h (s.half h) p (BitVec.ofNat 32 region) (afld b 32 8) (afld b 40 4)
        if p.deadline ≤ s.now h then late 1 (concealDefault h c p s)
        else if action == 3 && at_.isNone then late 2 s
        else
          let input := decInput ((s.half h).record a.handle)
          let s := if refresh != 0 && input != 0 then requestOnce h (hIndex input) (refresh == 2) s else s
          removeIdle h (concealAct h c p action (at_.getD 0) (afld b 40 4) s)))

end Sys2Proof.Machine
end

