-- ==== Sys2Proof/Machine/Objects.lean ====
section
/-!
DEFINITION. Objects.lean: the fields of CANVAS, LAYER, SURFACE and ENCODE_STREAM records (R152, R155, R157, R194), tick times
(R153, R196), refresh columns (R214), the buffer model's arrival (R255), and the state each object starts in.
-/
namespace Sys2Proof.Machine

def encodeH (h : HalfId) (i : Nat) : Handle := mkHandle 0x05 h i
def canvasH (h : HalfId) (i : Nat) : Handle := mkHandle 0x08 h i
def surfaceH (h : HalfId) (i : Nat) : Handle := mkHandle 0x0A h i
def flowH (h : HalfId) (i : Nat) : Handle := mkHandle 0x02 h i

/-- The time of tick k: anchor + ⌊k × numerator / denominator⌋ (R153). -/
def tickTime (anchor num den k : Nat) : Nat := anchor + k * num / den

/-- The first tick at or after a time. -/
def firstTickFrom (anchor num den t : Nat) : Nat := if t ≤ anchor then 0 else ceilDiv ((t - anchor) * den) num

/-! CANVAS (R152). -/
def cvWidth (r : Record) : Nat := rd r 16 2
def cvHeight (r : Record) : Nat := rd r 18 2
def cvLive (r : Record) : Bool := rd r 20 1 == 0
def cvNum (r : Record) : Nat := rd r 24 4
def cvDen (r : Record) : Nat := rd r 28 4
def cvAnchor (r : Record) : Nat := rd r 32 8
def cvBuffers (r : Record) : Nat := rd r 41 1
def cvCoarse (r : Record) : Bool := (rd r 49 1).testBit 1
def cvGuarded (r : Record) : Bool := rd r 52 4 != 0
def cvGroup (r : Record) : Nat := rd r 56 4
def cvTick (r : Record) (k : Nat) : Nat := tickTime (cvAnchor r) (cvNum r) (cvDen r) k

/-- Tile columns, rows and tiles of a canvas (R154). -/
def cvCols (r : Record) : Nat := ceilDiv (cvWidth r) 64
def cvRows (r : Record) : Nat := ceilDiv (cvHeight r) 64
def cvTiles (r : Record) : Nat := cvCols r * cvRows r

/-! LAYER (R155). -/
def lyCanvas (r : Record) : Nat := rd r 16 4
def lySource (r : Record) : Nat := rd r 20 4

/-- The layers of a canvas by ascending z. -/
def layersOf (h : HalfId) (rs : List Record) (i : Nat) : List Record :=
  sortBy (fun a b => rd a 24 1 < rd b 24 1) (rs.filter (fun r => recType r == 9 && lyCanvas r == (canvasH h i).toNat))

/-! ENCODE_STREAM (R194). -/
def esCodec (r : Record) : Nat := rd r 16 1
def esClass (r : Record) : Nat := rd r 18 1
def esWidth (r : Record) : Nat := rd r 20 2
def esHeight (r : Record) : Nat := rd r 22 2
/-- The ENCODE_STREAM of a FLOW record. -/
def flStream (r : Record) : Handle := BitVec.ofNat 32 (rd r 24 4)

/-- The records of a type, in draft order. -/
def ofType (rs : List Record) (t : Nat) : List Record := rs.filter (fun r => recType r == t)

def esSource (r : Record) : Handle := BitVec.ofNat 32 (rd r 28 4)
def esDivisor (r : Record) : Nat := rd r 32 1
def esGuarded (r : Record) : Bool := (rd r 62 2).testBit 0
/-- The guarded flag sets deterministic mode (R195). -/
def esDet (r : Record) : Bool := esGuarded r || (rd r 62 2).testBit 1
/-- Tier 1 of R220: LIVE, guarded and deterministic contexts. -/
def esTier1 (r : Record) : Bool := esClass r == 0 || esDet r
/-- Refresh mode with the codec default applied (R195). -/
def esRefresh (r : Record) : Nat := if rd r 38 1 == 0 then (if esCodec r == 3 then 2 else 1) else rd r 38 1
def esRefreshPeriod (r : Record) : Nat := if rd r 40 2 == 0 then 2000 else rd r 40 2
def esIdrPeriod (r : Record) : Nat := if rd r 42 2 == 0 then 20 else rd r 42 2
def esFullness (r : Record) : Nat := if rd r 56 1 == 0 then 90 else rd r 56 1
def ballastOf (v : Nat) : Nat := if v == 0xFF then 60 else v
def esPartner (r : Record) : Nat := rd r 64 4
def esCols (r : Record) : Nat := ceilDiv (esWidth r) 64
def esRows (r : Record) : Nat := ceilDiv (esHeight r) 64
def esCtus (r : Record) : Nat := esCols r * esRows r

/-- The normalising factor of R237: 4/3 for HEVC Main 4:2:2 10 and AV1. -/
def esHeavy (r : Record) : Bool := esCodec r == 3 || (esCodec r == 1 && rd r 17 1 == 3)
def norm (r : Record) (n : Nat) : Nat := if esHeavy r then ceilDiv (4 * n) 3 else n

/-- The source's tick period as a fraction of ns: the canvas's, or the stream's own for a surface (R194). -/
def esPeriod (rs : List Record) (r : Record) : Nat × Nat :=
  if hType (esSource r) == 8 then
    match recOf rs (esSource r) with
    | some c => (cvNum c, cvDen c)
    | none => (1, 1)
  else (rd r 72 4, rd r 76 4)

/-- The stream's picture period as a fraction of ns. -/
def esPicPeriod (rs : List Record) (r : Record) : Nat × Nat := ((esPeriod rs r).1 * esDivisor r, (esPeriod rs r).2)

/-- The tick anchor of the source. -/
def esAnchor (rs : List Record) (r : Record) : Nat :=
  if hType (esSource r) == 8 then (match recOf rs (esSource r) with | some c => cvAnchor c | none => 0) else rd r 80 8

/-- The time of a source tick. -/
def esTick (rs : List Record) (r : Record) (k : Nat) : Nat :=
  tickTime (esAnchor rs r) (esPeriod rs r).1 (esPeriod rs r).2 k

/-- M of R214: ⌈refresh period × picture rate⌉. -/
def sweepLength (rs : List Record) (r : Record) : Nat :=
  let p := esPicPeriod rs r
  max 1 (ceilDiv (esRefreshPeriod r * 1000000 * p.2) p.1)

/-- The phase at which CTU column c is refreshed (R214). -/
def columnPhase (cols m c : Nat) : Nat := c * m / cols

/-- The refresh columns of a phase. -/
def refreshColumns (cols m phase : Nat) : List Nat := (List.range cols).filter (fun c => columnPhase cols m c == phase)

/-- The phase at which the sweep completes (R214). -/
def sweepEnd (cols m : Nat) : Nat := columnPhase cols m (cols - 1)

/-- The edge column of a phase (R248): the rightmost column refreshed before it, unless it is the last. -/
def edgeColumn (cols m phase : Nat) : Option Nat :=
  if phase == 0 || sweepEnd cols m < phase then none
  else
    let clean := (List.range cols).filter (fun c => columnPhase cols m c < phase)
    match clean.getLast? with
    | some c => if c + 1 == cols then none else some c
    | none => none

/-- ⌊R × k / r⌋ of R255: bits that arrive in k picture periods at R bit/s. -/
def arrived (rs : List Record) (r : Record) (rate k : Nat) : Nat :=
  let p := esPicPeriod rs r
  rate * k * p.1 / (p.2 * 1000000000)

/-- The rate state of a stream's start (R255, R273). -/
def rateStart (r : Record) : RateSt :=
  let full := (esFullness r * (rd r 52 4 * 1000) / 100 : Nat)
  { fullness := full, target := full, bitRate := rd r 44 4, peakRate := rd r 48 4, bufferKbit := rd r 52 4
    qpFloor := rd r 57 1, qpCeiling := rd r 58 1, quality := rd r 59 1, ballast := ballastOf (rd r 60 1), mode := rd r 39 1 }

/-- A stream as it starts at a source tick. -/
def encodeStart (h : HalfId) (rs : List Record) (r : Record) (units : List Nat) (load t : Nat) : EncodeSt :=
  let _ := h
  let k := firstTickFrom (esAnchor rs r) (esPeriod rs r).1 (esPeriod rs r).2 t
  { index := hIndex (recHandle r), engines := units, load := load, nextTick := k, firstTick := k
    pendingAll := true, rate := rateStart r, intervalStart := t, ages := List.replicate 0 (0, 0) }

/-- A canvas as it starts (R156: in its initial scene). -/
def canvasStart (r : Record) (units : List Nat) (load t : Nat) : CanvasSt :=
  { index := hIndex (recHandle r), pipes := units, load := load, scene := rd r 48 1
    nextTick := firstTickFrom (cvAnchor r) (cvNum r) (cvDen r) t }

/-! Scaled stencils (R196). -/

/-- The stream's blocks that a set source block reaches: each block's source footprint is widened by 4 samples. -/
def scaleBlocks (sw sh w hgt : Nat) (blocks : List Nat) : List Nat :=
  if sw == w && sh == hgt then blocks
  else
    let sc := sw / 8
    let bc := w / 8
    let bh := hgt / 8
    let cols := fun (b : Nat) =>
      let x0 := 8 * (b % sc)
      (List.range bc).filter (fun c => 8 * c * sw < (x0 + 12) * w && x0 * w < 8 * (c + 1) * sw + 4 * w)
    let rows := fun (b : Nat) =>
      let y0 := 8 * (b / sc)
      (List.range bh).filter (fun c => 8 * c * sh < (y0 + 12) * hgt && y0 * hgt < 8 * (c + 1) * sh + 4 * hgt)
    blocks.foldl (fun acc b => unionNew acc ((rows b).flatMap (fun y => (cols b).map (fun x => y * bc + x)))) []

/-- The size of a stream's source. -/
def sourceSize (rs : List Record) (src : Handle) : Nat × Nat :=
  match recOf rs src with
  | none => (0, 0)
  | some c => if hType src == 8 then (cvWidth c, cvHeight c) else (rd c 18 2, rd c 20 2)

/-- The number of the picture at a tick of a stream (R196): counted from its start; a change of its source's ticks goes on counting. -/
def pictureAt (e : EncodeSt) (div tick : Nat) : Nat := (e.kBase + (tick - e.firstTick) / max 1 div) % 0x100000000

/-- A source tick reaches a stream: its stencil joins (R232), and at the stream's own ticks a picture becomes ready (R196). The
Bool says that the stream will code this source picture. -/
def encodeOffer (rs : List Record) (r : Record) (tick time seq : Nat) (blocks : List Nat) (all cue repeated : Bool)
    (e : EncodeSt) : EncodeSt × Bool :=
  let runs := e.run == .running || (e.run == .draining && decide (time < e.drainAt))
  let div := max 1 (esDivisor r)
  let off := tick < e.nextTick || (tick - e.firstTick) % div != 0
  if tick < e.firstTick then (e, false)
  else if !runs || e.holdAt.any (fun t => t ≤ time) then (if off then e else { e with nextTick := tick + div }, false)
  else
    let sz := sourceSize rs (esSource r)
    let e := { e with
      pendingBlocks := unionNew e.pendingBlocks (scaleBlocks sz.1 sz.2 (esWidth r) (esHeight r) blocks)
      pendingAll := e.pendingAll || all }
    if off then (e, false)
    else
      ({ e with
          ready := e.ready ++ [{ tickTime := time, k := pictureAt e div tick, canvasSeq := seq, blocks := e.pendingBlocks, allChanged := e.pendingAll
                                 cue := cue, repeated := repeated }]
          pendingBlocks := [], pendingAll := false, nextTick := tick + div }, true)

end Sys2Proof.Machine
end

