-- ==== Sys2Proof/Machine/Composing.lean ====
section
/-!
DEFINITION. Composing.lean: host surfaces (R157 to R161), canvas ticks, layers and damage (R162 to R175), composition jobs
(R176 to R184), cue switches (R185 to R188) and their events (R189).
-/
namespace Sys2Proof.Machine

/-! Surfaces (R157 to R161, R182). -/

/-- The status block of R161. -/
def surfaceStatus (buffers : Nat) (v : SurfaceSt) : List Byte :=
  let released := packBits ((List.range buffers).map (fun b => !(v.busy.any (fun q => q.1 == b))))
  pad 64 (le 1 v.current ++ le 1 released ++ le 6 0 ++ le 8 v.lastApplied ++ le 4 v.updates)

/-- The device writes a surface's status block at its base offset (R157, R161). -/
def surfaceWrite (h : HalfId) (i : Nat) (x : Half) : Half :=
  let r := x.record (surfaceH h i)
  match x.obj.surface? i, placedAt x (rd r 28 4 % 0x10000) with
  | some v, some p => devWrite (placeAddr p + rd r 32 8) (surfaceStatus (rd r 17 1) v) x
  | _, _ => x

/-- The canvases that show a surface. -/
def showsSurface (h : HalfId) (x : Half) (i : Nat) : List CanvasSt :=
  x.obj.canvases.filter (fun c =>
    (layersOf h x.running c.index).any (fun r => lySource r == (surfaceH h i).toNat))

/-- A buffer is released once it is no longer current and every canvas that shows the surface has finished its first tick at
or after the applied time of the buffer that replaced it (R161); for a replicated surface in both halves. -/
def surfaceRelease (h : HalfId) (i : Nat) (s : State) : State :=
  let x := s.half h
  let r := x.record (surfaceH h i)
  let partner := rd r 48 4
  let far := if partner == 0 then [] else showsSurface h.other (s.half h.other) (partner % 0x10000)
  let all := showsSurface h x i ++ far
  let busyStill := fun (q : Nat × Option Nat) => match q.2 with
    | none => true
    | some t => all.any (fun c => c.doneTick < t)
  match x.obj.surface? i with
  | none => s
  | some v =>
    if v.busy.all busyStill then s
    else s.upd h (fun x => surfaceWrite h i (updSurface i (fun v => { v with busy := v.busy.filter busyStill }) x))

/-- The release is looked at in both halves of a replicated surface (R161). -/
def releaseBoth (h : HalfId) (i : Nat) (s : State) : State :=
  let partner := rd ((s.half h).record (surfaceH h i)) 48 4
  let s := surfaceRelease h i s
  if partner == 0 then s else surfaceRelease h.other (partner % 0x10000) s

/-- The waiting updates whose applied time has come are published, earliest first (R160). -/
def surfaceApply (h : HalfId) (t i : Nat) (s : State) : State :=
  match (s.half h).obj.surface? i with
  | none => s
  | some v =>
    let due := sortBy (fun (a b : SurfUpdate) => a.applied < b.applied)
      (v.waiting.filter (fun u => u.copying.isNone && u.applied ≤ t))
    due.foldl (fun s u =>
      let s := s.upd h (fun x => surfaceWrite h i (updSurface i (fun v => { v with
        current := u.buffer, lastApplied := u.applied, updates := (v.updates + 1) % 0x100000000
        busy := mapWhere (fun q => q.2.isNone && q.1 != u.buffer) (fun q => (q.1, some u.applied)) (v.busy.filter (fun q => q.1 != u.buffer)) ++
          [(u.buffer, none)]
        waiting := v.waiting.filter (fun w => w != u), applied := v.applied ++ [u] }) x))
      releaseBoth h i (event h 0x0415 sevInfo (surfaceH h i) (le 4 u.buffer ++ le 8 u.applied) s)) s

/-- Updates that every reader has passed are forgotten. -/
def surfaceTrim (h : HalfId) (i : Nat) (x : Half) : Half :=
  let ticks := (showsSurface h x i).map (fun c => c.lastTickTime) ++
    (x.obj.encodes.filter (fun e => esSource (x.record (encodeH h e.index)) == surfaceH h i)).map (fun e =>
      if e.nextTick == e.firstTick then 0
      else esTick x.running (x.record (encodeH h e.index)) (e.nextTick - 1))
  let floor := ticks.foldl min 0xFFFFFFFFFFFFFFFF
  updSurface i (fun v => { v with applied := v.applied.filter (fun u => floor < u.applied) }) x

def surfaceUpdateSpec : OpSpec := { opcode := 0x0430, handle := .types [0x0A], minLen := 44 }

/-- The rectangles of an update (R159). -/
def updateRects (e : CmdEntry) : List Rect :=
  (List.range (fld e 25 1)).map (fun k =>
    { x := fld e (28 + 8 * k) 2, y := fld e (30 + 8 * k) 2, width := fld e (32 + 8 * k) 2, height := fld e (34 + 8 * k) 2 })

/-- A rectangle lies in its surface. R159 gives the rectangles no range: that one outside is refused is the model's choice (log 87). -/
def rectInside (w hgt : Nat) (t : Rect) : Bool := t.x + t.width ≤ w && t.y + t.height ≤ hgt

/-- An update of the same buffer and effective time still waits (R159). -/
def sameUpdate (buffer effective : Nat) (w : SurfUpdate) : Bool := w.buffer == buffer && w.effective == effective && w.copying.isNone

/-- An update is united with one of the same buffer and effective time, whose applied time stands (log 87), or waits on its own (R159). -/
def joinUpdate (u : SurfUpdate) (v : SurfaceSt) : SurfaceSt :=
  let same := fun (w : SurfUpdate) => sameUpdate u.buffer u.effective w && u.copying.isNone
  if v.waiting.any same then
    { v with waiting := mapWhere same (fun w => { w with
        rects := w.rects ++ u.rects, allChanged := w.allChanged || u.allChanged }) v.waiting }
  else
    { v with waiting := v.waiting ++ [u]
             busy := if v.busy.any (fun q => q.1 == u.buffer) then v.busy else v.busy ++ [(u.buffer, some 0xFFFFFFFFFFFFFFFF)] }

/-- The applied time of an update: that of the one it is united with, else at least 200 µs ahead (R159, R160). -/
def updateTime (v : Option SurfaceSt) (buffer effective now : Nat) : Nat :=
  match v.bind (fun v => v.waiting.find? (sameUpdate buffer effective)) with
  | some w => w.applied
  | none => max effective (now + 200000)

/-- SURFACE_UPDATE (R159, R160, R182). For a replicated surface the copy goes first and the command completes with it. A rectangle outside the
surface fails the command (log 87). -/
def execSurfaceUpdate (h : HalfId) (e : CmdEntry) (s : State) : Out :=
  .next (
    let ok := fun (s : State) (k : State → Reply) =>
      let x := s.half h
      let r := x.record e.handle
      let v := x.obj.surface? (hIndex e.handle)
      let replicated := (rd r 45 1).testBit 1
      guarded [bad6 (4 < fld e 25 1) 25, checkReserved e [(16, 10), (28, 32)], checkRunning x e.handle,
        bad6 (rd r 17 1 ≤ fld e 24 1) 24,
        bad6 ((updateRects e).any (fun t => !rectInside (rd r 18 2) (rd r 20 2) t)) 28,
        bad6 (match v with | some v => v.busy.any (fun q => q.1 == fld e 24 1) &&
            !(v.waiting.any (sameUpdate (fld e 24 1) (fld e 16 8))) | none => true) 24,
        failIf (replicated && !s.sparWorks) { status := stNoResource, step := 9 }] s k
    let make := fun (s : State) (copying : Option CmdEntry) =>
      let v := (s.half h).obj.surface? (hIndex e.handle)
      let a := updateTime v (fld e 24 1) (fld e 16 8) (s.now h)
      (a, s.upd h (updSurface (hIndex e.handle) (joinUpdate
        { buffer := fld e 24 1, effective := fld e 16 8, applied := a, rects := updateRects e, allChanged := fld e 25 1 == 0, copying := copying })))
    runCmd h surfaceUpdateSpec e none s (fun s => ok s (fun s =>
      if (rd ((s.half h).record e.handle) 45 1).testBit 1 then
        let p := make s (some e)
        .wait (emit h (.surfaceCopy e.handle (fld e 24 1)) p.2)
      else
        let p := make s none
        .ok (le 8 p.1) p.2)))

/-- Where buffer b of a surface stands (R157). -/
def surfaceBase (h : HalfId) (x : Half) (i b : Nat) : Option Nat :=
  let r := x.record (surfaceH h i)
  (placedAt x (rd r 28 4 % 0x10000)).map (fun p => placeAddr p + rd r 32 8 + 4096 + b * rd r 40 4)

/-- The byte ranges of a rectangle in a buffer (R157, R158): offset and length of each row. -/
def surfacePieces (r : Record) (t : Rect) : List (Nat × Nat) :=
  let f := rd r 16 1
  let pitch := rd r 24 4
  let n := if f == 0x10 || f == 0x11 then 4 else if f == 2 || f == 3 then 2 else 1
  let luma := (List.range t.height).map (fun k => ((t.y + k) * pitch + n * t.x, n * t.width))
  if !sfYuvCode f then luma
  else
    let sy := if sfChroma f == 1 then 2 else 1
    luma ++ (List.range (ceilDiv (t.y + t.height) sy - t.y / sy)).map (fun k =>
      (pitch * rd r 20 2 + (t.y / sy + k) * pitch + 2 * n * (t.x / 2), 2 * n * (ceilDiv (t.x + t.width) 2 - t.x / 2)))

/-- The rectangles of an update are copied into the partner's buffer of the same index (R15, R182). -/
def surfaceCopy (h : HalfId) (i partner : Nat) (u : SurfUpdate) (s : State) : State :=
  let r := (s.half h).record (surfaceH h i)
  let rects := if u.allChanged then [{ x := 0, y := 0, width := rd r 18 2, height := rd r 20 2 : Rect }] else u.rects
  match surfaceBase h (s.half h) i u.buffer, surfaceBase h.other (s.half h.other) partner u.buffer with
  | some a, some b =>
    let bytes := (rects.flatMap (surfacePieces r)).map (fun p => (p.1, devRead (a + p.1) p.2 (s.half h)))
    s.upd h.other (fun x => bytes.foldl (fun x p => devWrite (b + p.1) p.2 x) x)
  | _, _ => s

/-- SURFACE_COPY_DONE (R15, R160, R182): the rectangles stand in the partner's buffer, which has acknowledged them; both halves take the common
applied time, and the waiting command completes, as soon as CPLQ has room (R42). -/
def execSurfaceCopyDone (h : HalfId) (surface : Nat) (s : State) : Out :=
  .next (
    match (s.half h).obj.surface? surface with
    | none => s
    | some v =>
      match (if cplqFull (s.half h) then none else v.waiting.find? (fun u => u.copying.isSome)) with
      | none => s
      | some u =>
        match u.copying with
        | none => s
        | some e =>
          let a := updateTime (some v) u.buffer u.effective (s.now h)
          let done := { u with applied := a, copying := none }
          let partner := rd ((s.half h).record (surfaceH h surface)) 48 4 % 0x10000
          let s := surfaceCopy h surface partner u s
          let s := s.upd h (updSurface surface (fun v => joinUpdate done { v with waiting := v.waiting.filter (fun w => w != u) }))
          let s := s.upd h.other (updSurface partner (joinUpdate done))
          complete h 0x0430 e stOk false 0 (le 8 a) s)

/-! Cue switches (R185 to R188). -/

/-- The armed cues of a group in a half, one per switch time. -/
def armedCues (x : Half) (group : Nat) : List Cue :=
  ((x.obj.canvases.flatMap (fun c => c.armed)).filter (fun q => q.group.toNat == group)).foldl (fun acc q =>
    if acc.any (fun p => p.switchTime == q.switchTime) then acc else acc ++ [q]) []

/-- Every canvas of the group takes the cue; one of the same switch time is replaced (R185, R186). -/
def cueArmHalf (h : HalfId) (q : Cue) (x : Half) : Half :=
  { x with obj := { x.obj with canvases := x.obj.canvases.map (fun c =>
      if cvGroup (x.record (canvasH h c.index)) == q.group.toNat then
        let rest := c.armed.filter (fun p => p.switchTime != q.switchTime)
        { c with armed := insertBy (fun a b => a.switchTime < b.switchTime) q rest }
      else c) } }

/-- The matching cue is withdrawn (R188). -/
def cueCancelHalf (group : W32) (time : Nat) (x : Half) : Half :=
  { x with obj := { x.obj with canvases := x.obj.canvases.map (fun c =>
      { c with armed := c.armed.filter (fun p => p.group != group || p.switchTime != time) }) } }

def cueArmSpec : OpSpec := { opcode := 0x0431, handle := .zero, minLen := 20 }
def cueCancelSpec : OpSpec := { opcode := 0x0432, handle := .zero, minLen := 20 }

/-- Fields of a cue payload (R185). -/
def cueFields : List (Nat × Nat) := [(16, 13), (32, 4)]

/-- CUE_ARM (R185, R186). -/
def execCueArm (h : HalfId) (e : CmdEntry) (s : State) : Out :=
  .next (runCmd h cueArmSpec e none s (fun s =>
    let x := s.half h
    let t := fld e 16 8
    let group := fld e 24 4
    let cues := armedCues x group
    guarded [bad6 (group == 0) 24, bad6 (7 < fld e 28 1) 28, checkReserved e cueFields,
      failIf (x.running.isEmpty) { status := stNotCommitted, step := 8 },
      failIf (4 ≤ cues.length && !(cues.any (fun q => q.switchTime == t))) { status := stNoResource, step := 9 },
      failIf (t < x.clk.now + 1000000) { status := stTimePassed, step := 10, offset := 16 }] s (fun s =>
      let q : Cue := { group := BitVec.ofNat 32 group, sequence := BitVec.ofNat 32 (fld e 32 4), switchTime := t
                       scene := fld e 28 1, partnerArmed := s.sparWorks }
      let s := s.upd h (cueArmHalf h q)
      let s := if s.sparWorks then emit h (.forward (.cueArm q.group q.sequence t q.scene)) s else s
      .ok (le 1 (b2n (!q.partnerArmed))) s)))

/-- CUE_CANCEL (R188). -/
def execCueCancel (h : HalfId) (e : CmdEntry) (s : State) : Out :=
  .next (runCmd h cueCancelSpec e none s (fun s =>
    let x := s.half h
    let t := fld e 16 8
    guarded [bad6 (fld e 24 4 == 0) 24, bad6 (7 < fld e 28 1) 28, checkReserved e cueFields,
      failIf (x.running.isEmpty) { status := stNotCommitted, step := 8 },
      failIf (t < x.clk.now + 1000000) { status := stTimePassed, step := 10, offset := 16 }] s (fun s =>
      let group := BitVec.ofNat 32 (fld e 24 4)
      let s := s.upd h (cueCancelHalf group t)
      .ok [] (if s.sparWorks then emit h (.forward (.cueCancel group t)) s else s))))

/-! Damage (R170, R171). -/

/-- A box clipped to another. -/
def clipBox (a b : Box) : Box := { x0 := max a.x0 b.x0, y0 := max a.y0 b.y0, x1 := min a.x1 b.x1, y1 := min a.y1 b.y1 }

/-- The box holds nothing. -/
def boxEmpty (a : Box) : Bool := decide (a.x1 ≤ a.x0) || decide (a.y1 ≤ a.y0)

/-- A box of a crop, relative to it, after the layer's rotation (R155). -/
def rotateBox (rot : Nat) (w hgt : Int) (b : Box) : Box :=
  match rot with
  | 0 => b
  | 1 => { x0 := hgt - b.y1, y0 := b.x0, x1 := hgt - b.y0, y1 := b.x1 }
  | 2 => { x0 := w - b.x1, y0 := hgt - b.y1, x1 := w - b.x0, y1 := hgt - b.y0 }
  | _ => { x0 := b.y0, y0 := w - b.x1, x1 := b.y1, y1 := w - b.x0 }

/-- The quotient of integers rounded up. -/
def ceilInt (a b : Int) : Int := -((-a) / b)

/-- A source rectangle mapped to the canvas in the five steps of R171. -/
def mapRect (r canvas : Record) (w hgt : Nat) (t : Rect) : Box :=
  let crop := lyCrop r w hgt
  let dest := lyDest r
  let cw := crop.x1 - crop.x0
  let ch := crop.y1 - crop.y0
  let rot := rd r 26 1
  let dw := dest.x1 - dest.x0
  let dh := dest.y1 - dest.y0
  let rw := if rot % 2 == 0 then cw else ch
  let rh := if rot % 2 == 0 then ch else cw
  let nearest := rd r 27 1 == 3
  let wx : Int := if nearest || rw == dw then 0 else 4
  let wy : Int := if nearest || rh == dh then 0 else 4
  let sx := if rot % 2 == 0 then wx else wy
  let sy := if rot % 2 == 0 then wy else wx
  let b : Box := { x0 := (t.x : Int) - sx, y0 := (t.y : Int) - sy
                   x1 := ((t.x + t.width : Nat) : Int) + sx, y1 := ((t.y + t.height : Nat) : Int) + sy }
  let b := clipBox b crop
  if boxEmpty b then b
  else
    let b := rotateBox rot cw ch
      { x0 := b.x0 - crop.x0, y0 := b.y0 - crop.y0, x1 := b.x1 - crop.x0, y1 := b.y1 - crop.y0 }
    let b : Box := { x0 := dest.x0 + b.x0 * dw / rw, y0 := dest.y0 + b.y0 * dh / rh
                     x1 := dest.x0 + ceilInt (b.x1 * dw) rw, y1 := dest.y0 + ceilInt (b.y1 * dh) rh }
    clipBox (clipBox b dest) { x0 := 0, y0 := 0, x1 := cvWidth canvas, y1 := cvHeight canvas }

/-- The destination rectangle on the canvas. -/
def destOn (r canvas : Record) : Box := clipBox (lyDest r) { x0 := 0, y0 := 0, x1 := cvWidth canvas, y1 := cvHeight canvas }

/-- A non-empty box as a rectangle. -/
def boxRect (b : Box) : List Rect :=
  if boxEmpty b then []
  else [{ x := b.x0.toNat, y := b.y0.toNat, width := (b.x1 - b.x0).toNat, height := (b.y1 - b.y0).toNat }]

/-- The units of a grid of `n` samples with `cols` columns that a rectangle meets. -/
def unitsOf (n cols : Nat) (t : Rect) : List Nat :=
  (List.range ((t.y + t.height + n - 1) / n - t.y / n)).flatMap (fun j =>
    (List.range ((t.x + t.width + n - 1) / n - t.x / n)).map (fun i => (t.y / n + j) * cols + t.x / n + i))

/-- The tiles of a canvas that rectangles touch, ascending. -/
def tilesOf (canvas : Record) (rects : List Rect) : List Nat :=
  (List.range (cvTiles canvas)).filter (fun n => rects.any (fun t => (unitsOf 64 (cvCols canvas) t).contains n))

/-- The pictures that a layer may come to show, in order: those available (R162); for a guarded canvas those decoded, by the R107 or presentation
time alone, whether or not they came too late to be available elsewhere (R164). -/
def layerOrder (d : DecodeSt) (guardedCanvas : Bool) : List DecodedPic :=
  if guardedCanvas then sortBy (fun a b => a.showAt < b.showAt) (d.available ++ d.waiting.filter (fun p => !p.awaiting))
  else d.available.filter (fun p => !p.passed)

/-- The picture a decoded layer shows at a tick (R162, R164): the latest presentation among those whose time has come. -/
def layerPicture (d : DecodeSt) (guardedCanvas : Bool) (t : Nat) : Option DecodedPic :=
  let cands := (layerOrder d guardedCanvas).filter (fun p => (if guardedCanvas then p.showAt else p.availableAt) ≤ t)
  cands.foldl (fun m p => match m with
    | none => some p
    | some q => if q.presentation ≤ p.presentation then some p else some q) none

/-- A guarded canvas waits for a picture that it will select and that is not complete (R164), of a context that decodes. -/
def sourcePending (h : HalfId) (x : Half) (i t : Nat) : Bool :=
  (layersOf h x.running i).any (fun r =>
    hType (BitVec.ofNat 32 (lySource r)) == 4 &&
    (match x.obj.decode? (lySource r % 0x10000) with
     | none => false
     | some d =>
       let rec_ := x.record (decodeH h d.index)
       let at_ := fun (a : AccessUnit) => if decClass rec_ == 0 then a.released + decPeriod rec_ else a.presentation
       (d.run == .running || d.run == .draining) && (d.ready.any (fun a => at_ a ≤ t) || d.inProgress.any (fun a => at_ a ≤ t) ||
         d.waiting.any (fun p => p.awaiting && p.showAt ≤ t))))

/-- The layer is in the scene. -/
def inScene (r : Record) (scene : Nat) : Bool := (rd r 25 1).testBit scene

/-- The rectangles a layer marks at a tick, and the picture sequence it shows now (R170). -/
def layerDamage (x : Half) (canvas : Record) (c : CanvasSt) (t : Nat) (r : Record) : List Rect × Option Nat :=
  let dest := boxRect (destOn r canvas)
  let src := lySource r
  let ty := hType (BitVec.ofNat 32 src)
  if ty == 4 then
    match x.obj.decode? (src % 0x10000) with
    | none => ([], none)
    | some d =>
      let old := (c.shown.find? (fun q => q.1 == recHandle r)).map (fun q => q.2)
      match layerPicture d (cvGuarded canvas) t, old with
      | none, none => ([], none)
      | none, some _ => (dest, none)
      | some p, none => (dest, some p.seq)
      | some p, some o =>
        let rest := ((layerOrder d (cvGuarded canvas)).dropWhile (fun q => q.seq != o)).drop 1
        let new := rest.takeWhile (fun q => q.seq != p.seq) ++ [p]
        if p.seq == o then ([], some o)
        else if !rest.any (fun q => q.seq == p.seq) || new.any (fun q => q.allChanged) then (dest, some p.seq)
        else (new.flatMap (fun q => q.rects.flatMap (fun t => boxRect (mapRect r canvas q.width q.height t))), some p.seq)
  else if ty == 0x0A then
    match x.obj.surface? (src % 0x10000) with
    | none => ([], none)
    | some v =>
      let sr := x.record (BitVec.ofNat 32 src)
      let new := v.applied.filter (fun u => c.lastTickTime < u.applied && u.applied ≤ t)
      if new.any (fun u => u.allChanged) then (dest, none)
      else (new.flatMap (fun u => u.rects.flatMap (fun t => boxRect (mapRect r canvas (rd sr 18 2) (rd sr 20 2) t))), none)
  else ([], none)

/-! What a canvas picture holds (R162 to R165, R172, R173). -/

/-- The bytes of a surface's current buffer. -/
def surfaceCells (h : HalfId) (x : Half) (i : Nat) : Option (Mem × Nat) :=
  (x.obj.surface? i).bind (fun v => (surfaceBase h x i v.current).map (fun a =>
    let n := rd (x.record (surfaceH h i)) 40 4
    ((fillsEnd a n x).dram.data.filter (fun m => a ≤ m.1 && m.1 < a + n), a)))

/-- A layer over those below (R162, R163): its fill, the decoded picture it shows, its placeholder, or its surface's current buffer. -/
def layerContent (h : HalfId) (x : Half) (guardedCanvas : Bool) (t : Nat) (below : Content) (l : Record) : Content :=
  let src : Handle := BitVec.ofNat 32 (lySource l)
  if src == 0 then .filled l below
  else if hType src == 4 then
    match (x.obj.decode? (hIndex src)).bind (fun d => layerPicture d guardedCanvas t) with
    | some p => .drawn l p.colour p.fullRange p.chromaLoc p.content below
    | none => if rd l 46 1 == 1 then .filled l below else below
  else match surfaceCells h x (hIndex src) with
    | some m => .host l (x.record src) m.1 m.2 below
    | none => below

/-- What a canvas shows at a tick: the layers of its scene over the background, from z = 0 upwards (R156, R165). -/
def canvasContent (h : HalfId) (x : Half) (i t scene : Nat) : Content :=
  let r := x.record (canvasH h i)
  ((layersOf h x.running i).filter (fun l => inScene l scene)).foldl (layerContent h x (cvGuarded r) t) (.base r)

/-- The part of a canvas that a tile covers. -/
def tileContent (r : Record) (c : Content) (n : Nat) : Content :=
  let x := 64 * (n % cvCols r)
  let y := 64 * (n / cvCols r)
  .window x y { cvFormat r with width := min 64 (cvWidth r - x), height := min 64 (cvHeight r - y) } c

/-- The stencil of a canvas picture (R173): its header, then a bit per 8 × 8 block, rows padded to 64 bits. -/
def stencilBytes (h : HalfId) (r : Record) (i seq time scene : Nat) (blocks : List Nat) (all cue repeated : Bool) : List Byte :=
  let w := cvWidth r / 8
  let n := cvHeight r / 8
  let set := fun (b : Nat) => all || blocks.contains b
  pad 32 (le 4 (canvasH h i).toNat ++ le 4 seq ++ le 8 time ++ le 2 w ++ le 2 n ++ le 4 ((List.range (w * n)).filter set).length ++
    le 1 (packBits [all, repeated, cue, cvCoarse r && !repeated]) ++ le 1 scene) ++
  (List.range n).flatMap (fun y => packRow 1 ((List.range w).map (fun x => b2n (set (y * w + x)))))

/-- The tile table: 8 bytes a tile, naming its slot (R172). -/
def tableBytes (table : List Nat) : List Byte := table.flatMap (le 8)

/-- What a pipe writes to the output store for a picture (R172, R173): its new tiles in the packed layout, its table and its stencil, at places that
the spec does not give (log 6). A repeat picture has no tiles and no table of its own. -/
def storeCanvas (r : Record) (c : Content) (tiles table : List Nat) (seq : Nat) (stencil : List Byte) (x : Half) : Half :=
  match placedAt x (rd r 44 4 % 0x10000) with
  | none => x
  | some q =>
    let at_ := fun (n : Nat) => placeAddr q + placeIn q n
    let x := tiles.foldl (fun x n => picStore { addr := at_ (Config.slotPlace (table.getD n 0)), content := tileContent r c n } x) x
    let x := if table.isEmpty then x else devWrite (at_ (Config.tablePlace seq)) (tableBytes table) x
    devWrite (at_ (Config.stencilPlace seq)) stencil x

/-- The slots in use after a new picture: those that a held table names keep what they hold, the new tiles' take the new content (R172). -/
def slotsAfter (slots : List (Nat × Content)) (held : List (List Nat)) (table tiles : List Nat) (c : Content) : List (Nat × Content) :=
  let new := tiles.map (fun n => table.getD n 0)
  slots.filter (fun q => !new.contains q.1 && (table.contains q.1 || held.any (fun t => t.contains q.1))) ++ new.map (fun n => (n, c))

/-- COLOUR_UNSUPPORTED (R167): a source description outside those the pipe converts. -/
def colourBad (c : List Nat) : Bool :=
  let p := c.getD 0 2
  let t := c.getD 1 2
  let m := c.getD 2 2
  (p != 2 && !([1, 9].contains p)) || (t != 2 && !([1, 6, 14, 15, 16, 18].contains t)) || (m != 2 && !([1, 5, 6, 9].contains m))

/-! Pictures, tables and readers (R172). -/

/-- Tile tables in use: those of pictures that some encoder holds, the latest picture's, and one per queued job. -/
def tablesUsed (c : CanvasSt) : Nat :=
  let owners := (c.held.map (fun p => p.owner)) ++ (match c.latest with | some p => [p.owner] | none => [])
  (owners.foldl (fun acc o => addNew o acc) []).length + (c.jobs.filter (fun j => !j.waitedTable)).length

/-- A new table: carried tiles keep the previous slot, recomposed tiles take free slots (R172). -/
def newTable (tiles : Nat) (prev : List Nat) (held : List (List Nat)) (dirty : List Nat) : List Nat :=
  let used := held.flatMap id
  let free := (List.range (used.length + tiles)).filter (fun n => !used.contains n)
  ((List.range tiles).foldl (fun (acc : List Nat × List Nat) i =>
    if dirty.contains i || prev.length ≤ i then (acc.1 ++ [acc.2.headD 0], acc.2.drop 1)
    else (acc.1 ++ [prev.getD i 0], acc.2)) ([], free)).1

/-- A canvas picture is handed to the encode streams that read the canvas (R172, R196). -/
def handPicture (h : HalfId) (i tick time seq : Nat) (blocks : List Nat) (all cue repeated : Bool) (s : State) : State × List Nat :=
  let x := s.half h
  let rs := x.running
  let readers := x.obj.encodes.filter (fun e =>
    esSource (x.record (encodeH h e.index)) == canvasH h i && !pastTakeover x (encodeH h e.index) time)
  readers.foldl (fun (acc : State × List Nat) e =>
    let r := x.record (encodeH h e.index)
    let q := encodeOffer rs r tick time seq blocks all cue repeated e
    (acc.1.upd h (updEncode e.index (fun _ => q.1)), if q.2 then acc.2 ++ [e.index] else acc.2)) (s, [])

/-- An encode stream has released a canvas picture; a waiting guarded job may start now (R172, R184). -/
def releasePicture (i seq reader : Nat) (x : Half) : Half :=
  updCanvas i (fun c => { c with held := (mapWhere (fun p => p.seq == seq) (fun p =>
    { p with readers := p.readers.filter (fun k => k != reader) }) c.held).filter (fun p => !p.readers.isEmpty) }) x

/-- Hands on a repeat picture for a tick: the previous picture's table, every bit clear (R178). -/
def handRepeat (h : HalfId) (i tick time : Nat) (s : State) : State :=
  match (s.half h).obj.canvas? i with
  | none => s
  | some c =>
    match c.latest with
    | none => s
    | some p =>
      let seq := (c.seq + 1) % 0x100000000
      let q := handPicture h i tick time seq [] false false true s
      let r := (s.half h).record (canvasH h i)
      let stencil := stencilBytes h r i seq time c.scene [] false false true
      let pic : CanvasPic := { p with seq := seq, tickTime := time, readers := q.2, stencil := stencil }
      (q.1.upd h (storeCanvas r (.base r) [] [] seq stencil)).upd h (updCanvas i (fun c => { c with
        seq := seq, latest := some pic, held := if q.2.isEmpty then c.held else c.held ++ [pic] }))

/-- A repeat picture for a tick; it follows the pictures of the jobs before it. -/
def repeatPicture (h : HalfId) (i tick time : Nat) (s : State) : State :=
  match (s.half h).obj.canvas? i with
  | none => s
  | some c =>
    if c.jobs.any (fun j => j.tick < tick) then s.upd h (updCanvas i (fun c => { c with repeats := c.repeats ++ [(tick, time)] }))
    else handRepeat h i tick time s

/-- The repeat pictures that waited for a job. -/
def flushRepeats (h : HalfId) (i : Nat) (s : State) : State :=
  match (s.half h).obj.canvas? i with
  | none => s
  | some c =>
    let due := c.repeats.filter (fun q => c.jobs.all (fun j => q.1 ≤ j.tick))
    due.foldl (fun s q => handRepeat h i q.1 q.2 s)
      (s.upd h (updCanvas i (fun c => { c with repeats := c.repeats.filter (fun q => !due.contains q) })))

/-! Take-over of a canvas at its tick (R70, R188). -/

/-- The layers of a canvas, of the running and of the pending envelope. -/
def canvasLayers (h : HalfId) (x : Half) (p : PendingEnv) (i : Nat) : List Handle :=
  ((layersOf h x.runningSlot i ++ layersOf h p.records i).map recHandle).foldl (fun acc r => addNew r acc) []

/-- Fields of a CANVAS whose change makes every tile dirty (R170). -/
def canvasShape (r : Record) : List Nat :=
  [cvWidth r, cvHeight r, rd r 21 1, rd r 22 1, rd r 23 1, rd r 49 1 % 2]

/-- The encode streams, ladders and gangs that switch with a canvas: those still to switch whose stream reads it. -/
def readersToSwitch (h : HalfId) (x : Half) (p : PendingEnv) (i : Nat) : List Handle :=
  let _ := x
  p.left.filter (fun l => hType l == 5 && (recOf p.records l).elim false (fun r => esSource r == canvasH h i))

/-- The streams that a LADDER or GANG record names. -/
def groupStreams (r : Record) : List Handle :=
  if recType r == 7 then [BitVec.ofNat 32 (rd r 20 4)]
  else (List.range (rd r 16 1)).map (fun i => BitVec.ofNat 32 (rd r (20 + 4 * i) 4))

/-- A ladder or gang switches with the last of its streams that has a picture boundary to wait for (R70). -/
def leaveGroups (x : Half) : Half :=
  match x.env.pend with
  | none => x
  | some p =>
    let waits := fun (l : Handle) =>
      (((recOf x.runningSlot l).toList ++ (recOf p.records l).toList).flatMap groupStreams).any (fun o => p.left.contains o)
    let left := p.left.filter (fun l => !(hType l == 6 || hType l == 7) || waits l)
    { x with env := { x.env with pend := some { p with left := left } } }

/-- The GANG record of a stream. -/
def gangIn (rs : List Record) (stream : Handle) : Option Record := rs.find? (fun r => recType r == 7 && rd r 20 4 == stream.toNat)

/-- An encode stream takes its record of the pending envelope (R70, R272). A change of rate fields alone acts as an ENCODE_RATE
does; any other starts the stream again from the record, with an IDR picture. Flows that stopped with the stream go on from there. -/
def switchEncode (h : HalfId) (p : PendingEnv) (t : Nat) (obj : Handle) (x : Half) : Half :=
  let i := hIndex obj
  let old := (recOf x.runningSlot obj).getD []
  let x := leaveGroups (leaveTakeover obj x)
  match recOf p.records obj with
  | none => x
  | some r =>
    let place := (p.units.find? (fun u => u.1 == obj)).map (fun u => u.2)
    let plain := fun (q : Record) => q.take 8 ++ (q.drop 16).take 23 ++ (q.drop 40).take 4 ++ ((q.drop 56).take 1) ++ q.drop 61
    let rateOnly := !old.isEmpty && plain old == plain r && !(recFlags r).testBit 0 &&
      gangIn p.records obj == gangIn x.runningSlot obj
    let ended := fun (f : FlowSt) => flStream (x.record (flowH h f.index)) == obj && f.path == .stopped && f.run == .running
    let x := { x with obj := { x.obj with flows := mapWhere ended (fun f => { f with resumeAt := some t }) x.obj.flows } }
    updEncode i (fun e =>
      if rateOnly then
        { e with run := .running, firstPicture := e.firstPicture || e.run != .running, freshRates := e.freshRates || e.run == .stopped
                 refreshWait := e.refreshWait.filter (fun w => w.tick != t)
                 rateWait := mapWhere (fun w => w.tick == t) (fun w => { w with superseded := true }) e.rateWait ++ [{ tick := t, payload := (r.drop 44).take 12 ++ (r.drop 57).take 4 ++ (r.drop 39).take 1, idr := false }] }
      else
        let f := encodeStart h p.records r ((place.map (fun q => q.1)).getD e.engines) ((place.map (fun q => q.2)).getD e.load) t
        { f with counts := e.counts, pendingAll := true, restarted := !old.isEmpty && (recFlags r).testBit 0
                 refreshWait := e.refreshWait.filter (fun w => t < w.tick)
                 rateWait := mapWhere (fun w => w.tick == t) (fun w => { w with superseded := true }) (e.rateWait.filter (fun w => t ≤ w.tick)) }) x

/-- A canvas and its layers take their records of the pending envelope at a tick time (R70, R170, R188). -/
def switchCanvas (h : HalfId) (i t : Nat) (p : PendingEnv) (x : Half) : Half :=
  let obj := canvasH h i
  let old := (recOf x.runningSlot obj).getD []
  let layers := canvasLayers h x p i
  let x := (readersToSwitch h x p i).foldl (fun x l => switchEncode h p t l x) x
  match recOf p.records obj with
  | none => x
  | some r =>
    let changed := old != r || (recFlags r).testBit 0
    let boxes := layers.flatMap (fun l =>
      let a := recOf x.runningSlot l
      let b := recOf p.records l
      if a == b then []
      else (a.toList.flatMap (fun q => boxRect (destOn q r))) ++ (b.toList.flatMap (fun q => boxRect (destOn q r))))
    let scene := ((x.obj.canvas? i).map (fun c => c.scene)).getD 0
    let entered := if !old.isEmpty && cvGroup old == cvGroup r then []
      else ((layersOf h p.records i).filter (fun q => inScene q scene != inScene q (rd r 48 1))).flatMap (fun q => boxRect (destOn q r))
    let boxes := boxes ++ entered
    let fresh := old.isEmpty || (recFlags r).testBit 0 || canvasShape old != canvasShape r || rd old 60 4 != rd r 60 4
    let keepCues := !old.isEmpty && cvGroup old == cvGroup r
    let place := (p.units.find? (fun u => u.1 == obj)).map (fun u => u.2)
    let x := (obj :: layers).foldl (fun x l => leaveTakeover l x) x
    let paced := !old.isEmpty && (cvAnchor old, cvNum old, cvDen old) != (cvAnchor r, cvNum r, cvDen r)
    let follow := fun (e : EncodeSt) => paced && esSource (x.record (encodeH h e.index)) == obj &&
      !(readersToSwitch h x p i).contains (encodeH h e.index)
    let k := firstTickFrom (cvAnchor r) (cvNum r) (cvDen r) t
    let x := { x with obj := { x.obj with encodes := mapWhere follow (fun e => { e with
      kBase := pictureAt e (esDivisor (x.record (encodeH h e.index))) e.nextTick, nextTick := k, firstTick := k }) x.obj.encodes } }
    updCanvas i (fun c => { c with
      run := if changed then .running else c.run
      pipes := (place.map (fun q => q.1)).getD c.pipes, load := (place.map (fun q => q.2)).getD c.load
      allDirty := c.allDirty || fresh, dirtyRects := c.dirtyRects ++ boxes
      scene := if keepCues then c.scene else rd r 48 1, armed := if keepCues then c.armed else []
      latest := if canvasShape old != canvasShape r then none else c.latest
      shown := c.shown.filter (fun q => !(layers.contains q.1) || recOf x.runningSlot q.1 == recOf p.records q.1)
      nextTick := if changed then firstTickFrom (cvAnchor r) (cvNum r) (cvDen r) t else c.nextTick }) x

/-- The pending take-over touches the canvas or one of its layers or readers. -/
def canvasTouched (h : HalfId) (x : Half) (i : Nat) : Option PendingEnv :=
  match x.env.pend with
  | none => none
  | some p =>
    if p.armed && ((canvasH h i :: canvasLayers h x p i).any (fun l => p.left.contains l) || !(readersToSwitch h x p i).isEmpty) then some p
    else none

/-! The tick (R153, R170 to R178, R187). -/

/-- The cues whose switch time has come, applied in order; CUE_APPLIED per cue (R187). -/
def applyCues (h : HalfId) (i t : Nat) (s : State) : State × Bool :=
  match (s.half h).obj.canvas? i with
  | none => (s, false)
  | some c =>
    let due := c.armed.filter (fun q => q.switchTime ≤ t)
    (due.foldl (fun s q =>
      event h 0x0413 sevInfo (canvasH h i) (le 4 q.group.toNat ++ le 4 q.sequence.toNat ++ le 4 q.scene ++ le 8 t)
        (s.upd h (updCanvas i (fun c => { c with scene := q.scene, lastCue := some q, armed := c.armed.filter (fun a => a != q) })))) s, !due.isEmpty)

/-- CANVAS_OVERRUN (R178): counted on the canvas's first pipe. -/
def canvasOverrun (h : HalfId) (i t cause : Nat) (pipes : List Nat) (s : State) : State :=
  event h 0x0411 sevWarning (canvasH h i) (le 8 t ++ le 4 cause) (s.upd h (count (18 + pipes.headD 0) 0x13 1))

/-- The job of a tick, with the damage of the canvas at that tick (R170). -/
def tickJob (h : HalfId) (i k t oldScene : Nat) (cue : Bool) (s : State) : State × Job :=
  let x := s.half h
  let r := x.record (canvasH h i)
  let c := (x.obj.canvas? i).getD { index := i }
  let layers := layersOf h x.running i
  let scene := c.scene
  let moved := layers.filter (fun l => inScene l oldScene != inScene l scene)
  let dam := (layers.filter (fun l => inScene l scene)).map (fun l => (recHandle l, layerDamage x r c t l))
  let rects := c.dirtyRects ++ moved.flatMap (fun l => boxRect (destOn l r)) ++ dam.flatMap (fun d => d.2.1)
  let shown := dam.filterMap (fun d => d.2.2.map (fun q => (d.1, q)))
  let bad := (layers.filter (fun l => inScene l scene && !(rd l 47 1).testBit 1)).filterMap (fun l =>
    if hType (BitVec.ofNat 32 (lySource l)) != 4 then none
    else (x.obj.decode? (lySource l % 0x10000)).bind (fun d => (layerPicture d (cvGuarded r) t).bind (fun p =>
      if colourBad p.colour && !c.warned.contains (recHandle l, d.starts) then some (recHandle l, d.starts, p.colour) else none)))
  let s := bad.foldl (fun s b => event h 0x0414 sevWarning b.1 (b.2.2.flatMap (le 4)) s) s
  let job : Job :=
    { canvas := i, tick := k, tickTime := t, allChanged := c.allDirty, cue := cue, scene := scene, rects := rects
      tiles := if c.allDirty then List.range (cvTiles r) else tilesOf r rects
      bandsLeft := c.pipes, bandsWaiting := c.pipes, pipes := c.pipes, content := canvasContent h x i t scene }
  (s.upd h (updCanvas i (fun c => { c with
    shown := shown, allDirty := false, dirtyRects := [], lastTickTime := t
    warned := c.warned.filter (fun w => !bad.any (fun b => b.1 == w.1)) ++ bad.map (fun b => (b.1, b.2.1)) })), job)

/-- Two jobs of successive ticks become the later one (R178). -/
def uniteJobs (a b : Job) : Job :=
  { b with tiles := unionNew a.tiles b.tiles, rects := a.rects ++ b.rects, allChanged := a.allChanged || b.allChanged
           cue := a.cue || b.cue, changed := unionNew a.changed b.changed }

/-- A tick of a running canvas at its time. -/
def runTick (h : HalfId) (i k t : Nat) (s : State) : State :=
  let c0 := ((s.half h).obj.canvas? i).getD { index := i }
  let r := (s.half h).record (canvasH h i)
  let oldScene := c0.scene
  let s := (((s.half h).obj.surfaces.map (fun v => v.index))).foldl (fun s v => surfaceApply h t v s) s
  let p := applyCues h i t s
  let q := tickJob h i k t oldScene p.2 p.1
  let s := q.1
  let job := q.2
  let c := ((s.half h).obj.canvas? i).getD { index := i }
  let noTable := cvBuffers r ≤ tablesUsed c
  if cvGuarded r then
    s.upd h (updCanvas i (fun c => { c with jobs := c.jobs ++ [{ job with waitedTable := noTable }] }))
  else
    match c.jobs.getLast? with
    | some j =>
      if j.bandsWaiting == j.bandsLeft && !j.bandsLeft.isEmpty then
        let s := canvasOverrun h i j.tickTime 1 c.pipes s
        let s := s.upd h (updCanvas i (fun c => { c with jobs := c.jobs.dropLast ++ [uniteJobs j job] }))
        repeatPicture h i j.tick j.tickTime s
      else if noTable then
        let s := canvasOverrun h i t 2 c.pipes s
        let s := s.upd h (updCanvas i (fun c => { c with dirtyRects := job.rects, allDirty := job.allChanged }))
        repeatPicture h i k t s
      else s.upd h (updCanvas i (fun c => { c with jobs := c.jobs ++ [job] }))
    | none =>
      if noTable then
        let s := canvasOverrun h i t 2 c.pipes s
        let s := s.upd h (updCanvas i (fun c => { c with dirtyRects := job.rects, allDirty := job.allChanged }))
        repeatPicture h i k t s
      else s.upd h (updCanvas i (fun c => { c with jobs := c.jobs ++ [job] }))

/-- CANVAS_TICK (R153, R170, R178, R184, R187). -/
def execCanvasTick (h : HalfId) (canvas : Nat) (s : State) : Out :=
  .next (
    let x := s.half h
    match x.obj.canvas? canvas with
    | none => s
    | some c0 =>
      let old := x.record (canvasH h canvas)
      let tOld := cvTick old c0.nextTick
      let switch := (canvasTouched h x canvas).bind (fun p =>
        if p.takeTime ≤ tOld || (recOf x.runningSlot (canvasH h canvas)).isNone then some p else none)
      let new := switch.bind (fun p => recOf p.records (canvasH h canvas))
      let t := match switch, new with
        | some p, some r => if r == old then tOld else cvTick r (firstTickFrom (cvAnchor r) (cvNum r) (cvDen r) p.takeTime)
        | _, _ => tOld
      if !x.alive || x.clk.now < t || removedAt x (canvasH h canvas) t then s
      else
        let s := match switch with
          | some p => takeoverCheck h (s.upd h (switchCanvas h canvas (max t p.takeTime) p))
          | none => s
        match (s.half h).obj.canvas? canvas with
        | none => s
        | some c =>
          let r := (s.half h).record (canvasH h canvas)
          let k := c.nextTick
          if r.isEmpty then s
          else if cvGuarded r && (c.run == .running || c.run == .draining) && sourcePending h (s.half h) canvas t then s
          else
            let s := s.upd h (updCanvas canvas (fun c => { c with nextTick := k + 1 }))
            let s := match c.run with
              | .running => if c.holdAt.any (fun q => q ≤ t) then s else if t < c.resumeAt then repeatPicture h canvas k t s else runTick h canvas k t s
              | .draining => if t < c.drainAt then runTick h canvas k t s else repeatPicture h canvas k t s
              | .stopped => repeatPicture h canvas k t s
              | .halted | .shed => s
            s.upd h (fun x => ((layersOf h x.running canvas).filter (fun l => hType (BitVec.ofNat 32 (lySource l)) == 0x0A)).foldl
              (fun x l => surfaceTrim h (lySource l % 0x10000) x) x))

/-! Jobs (R176, R177, R183, R184). -/

/-- A canvas's job that a pipe may start: the first that still needs the pipe, when it waits there and has its table. -/
def pipeJob (h : HalfId) (x : Half) (pipe : Nat) (c : CanvasSt) : Option Job :=
  match c.jobs.find? (fun j => j.bandsLeft.contains pipe) with
  | none => none
  | some j =>
    let r := x.record (canvasH h c.index)
    if j.bandsWaiting.contains pipe && (!j.waitedTable || tablesUsed c < cvBuffers r) then some j else none

/-- LIVE and guarded canvases come first (R177). -/
def cvUrgent (r : Record) : Bool := cvLive r || cvGuarded r

/-- The pipe's choice: urgent jobs before TIMED, earliest tick, lower index; a suspended job counts with its tick (R177). -/
def pipeChoose (h : HalfId) (x : Half) (pipe : Nat) (urgent : Bool) : Option (Nat × Bool) :=
  let g := x.cmp.getD pipe {}
  let cands := x.obj.canvases.filterMap (fun c =>
    if cvUrgent (x.record (canvasH h c.index)) != urgent then none
    else if g.suspended.contains c.index then
      (c.jobs.find? (fun j => j.bandsLeft.contains pipe)).map (fun j => (j.tickTime, c.index, true))
    else (pipeJob h x pipe c).map (fun j => (j.tickTime, c.index, false)))
  ((sortBy (fun (a b : Nat × Nat × Bool) => a.1 < b.1 || (a.1 == b.1 && a.2.1 < b.2.1)) cands).head?).map (fun c => (c.2.1, c.2.2))

/-- The pipe takes a canvas's job. -/
def pipeTake (pipe i : Nat) (resumed : Bool) (x : Half) : Half :=
  let x := { x with cmp := x.cmp.modify pipe (fun g => { g with
    current := some i, seq := seqStart 2 resumed g.seq, suspended := g.suspended.filter (fun k => k != i) }) }
  if resumed then x
  else updCanvas i (fun c =>
    match c.jobs.find? (fun j => j.bandsLeft.contains pipe) with
    | none => c
    | some j => { c with jobs := mapWhere (fun k => k.tick == j.tick) (fun k => { k with
        bandsWaiting := k.bandsWaiting.filter (fun b => b != pipe) }) c.jobs }) x

/-- COMPOSITION_JOB_START (R177): the pipe takes its next job, or an urgent job pre-empts a TIMED one. -/
def execCompositionJobStart (h : HalfId) (pipe : Nat) (s : State) : Out :=
  .next (
    let x := s.half h
    let g := x.cmp.getD pipe { halted := true }
    if !x.alive || !islandOn x (18 + pipe) || g.halted || g.toRetire != 0 || !g.flags.inService then s
    else match g.current with
      | none =>
        match (pipeChoose h x pipe true).or (pipeChoose h x pipe false) with
        | none => s
        | some (i, resumed) => s.upd h (pipeTake pipe i resumed)
      | some k =>
        if cvUrgent (x.record (canvasH h k)) then s
        else match pipeChoose h x pipe true with
          | none => s
          | some (i, resumed) =>
            s.upd h (fun x => count (18 + pipe) 0x14 1 (pipeTake pipe i resumed
              { x with cmp := x.cmp.modify pipe (fun g => { g with suspended := g.suspended ++ [k] }) })))

/-- The tile rows of a pipe's band (R176). -/
def bandRows (r : Record) (pipes : List Nat) (pipe : Nat) : Nat × Nat :=
  let n := ceilDiv (cvRows r) (max 1 pipes.length)
  let b := (pipes.findIdx? (fun p => p == pipe)).getD 0
  (b * n, min (cvRows r) ((b + 1) * n))

/-- The blocks a band's stencil sets (R174): in recomposed tiles those that differ, or under coarse mode those a dirty
rectangle meets. `differ` is what the pipe's comparison of samples finds (log 9). -/
def bandBlocks (r : Record) (j : Job) (lo hi : Nat) (differ : List Nat) : List Nat :=
  let cols := cvWidth r / 8
  let inBand := fun (b : Nat) => lo ≤ b / cols / 8 && b / cols / 8 < hi && j.tiles.contains (b / cols / 8 * cvCols r + b % cols / 8)
  let found := if cvCoarse r then (j.rects.flatMap (unitsOf 8 cols)).foldl (fun acc b => addNew b acc) [] else differ
  found.filter inBand

/-- Every band is done: the canvas picture and its stencil go to the encoders (R172, R173, R175, R183). -/
def finishJob (h : HalfId) (i : Nat) (j : Job) (s : State) : State :=
  let x := s.half h
  let r := x.record (canvasH h i)
  match x.obj.canvas? i with
  | none => s
  | some c =>
    let seq := (c.seq + 1) % 0x100000000
    let held := (c.held.map (fun p => p.table)) ++ (match c.latest with | some p => [p.table] | none => [])
    let prev := match c.latest with | some p => p.table | none => []
    let table := newTable (cvTiles r) prev held j.tiles
    let late := cvGuarded r && cvTick r (j.tick + 1) < x.clk.now
    let s := s.upd h (updCanvas i (fun c => { c with
      jobs := c.jobs.filter (fun k => k.tick != j.tick), seq := seq, doneTick := j.tickTime }))
    let q := handPicture h i j.tick j.tickTime seq j.changed j.allChanged j.cue false s
    let stencil := stencilBytes h r i seq j.tickTime j.scene j.changed j.allChanged j.cue false
    let pic : CanvasPic := { seq := seq, tickTime := j.tickTime, table := table, owner := seq, readers := q.2, stencil := stencil }
    let s := (q.1.upd h (storeCanvas r j.content j.tiles table seq stencil)).upd h (updCanvas i (fun c => { c with
      slots := slotsAfter c.slots held table j.tiles j.content
      latest := some pic, held := if q.2.isEmpty then c.held else c.held ++ [pic] }))
    let s := if late then
        event h 0x0412 sevWarning (canvasH h i) (le 8 j.tickTime ++ le 8 x.clk.now ++ le 4 (if j.waitedTable then 2 else 1)) s else s
    let s := flushRepeats h i s
    removeIdle h ((x.obj.surfaces.map (fun v => v.index)).foldl (fun s v => releaseBoth h v s) s)

/-- COMPOSITION_JOB_COMPLETE (R174, R176): the pipe finishes its band. -/
def execCompositionJobComplete (h : HalfId) (pipe : Nat) (changedBlocks : List Nat) (s : State) : Out :=
  .next (
    let x := s.half h
    let g := x.cmp.getD pipe {}
    match (if g.halted || g.seq.halt then none else g.current).bind (fun i => x.obj.canvas? i) with
    | none => s
    | some c =>
      let r := x.record (canvasH h c.index)
      match c.jobs.find? (fun j => j.bandsLeft.contains pipe) with
      | none => s
      | some j =>
        let band := bandRows r j.pipes pipe
        let tiles := j.tiles.filter (fun n => band.1 ≤ n / cvCols r && n / cvCols r < band.2)
        let blocks := bandBlocks r j band.1 band.2 changedBlocks
        let j := { j with bandsLeft := j.bandsLeft.filter (fun b => b != pipe), changed := unionNew j.changed blocks }
        let s := s.upd h (fun x =>
          let x := { x with cmp := x.cmp.modify pipe (fun g => { g with
            current := none, seq := { g.seq with suspend := false } }) }
          let x := count (18 + pipe) 0x10 1 (count (18 + pipe) 0x11 tiles.length x)
          let x := count (18 + pipe) 0x12 ((band.2 - band.1) * cvCols r - tiles.length) (count (18 + pipe) 0x15 blocks.length x)
          updCanvas c.index (fun c => { c with jobs := mapWhere (fun k => k.tick == j.tick) (fun _ => j) c.jobs }) x)
        if j.bandsLeft.isEmpty then finishJob h c.index j s else s)

end Sys2Proof.Machine
end

