-- ==== Sys2Proof/Machine/RateControl.lean ====
section
/-!
DEFINITION. RateControl.lean: the buffer model, budgets, quantisers, row steps, ballast and truncation of one picture
(R255 to R268), and changes of rate (R269 to R272).
-/
namespace Sys2Proof.Machine

/-- Qstep(q) of HEVC and H.264 in 1/65,536: 2^((q − 4) / 6) to nearest, ties upward (R260). -/
def qstepTable : List Nat :=
  [41285, 46341, 52016, 58386, 65536, 73562, 82570, 92682, 104032, 116772, 131072, 147123, 165140, 185364, 208064, 233544,
   262144, 294247, 330281, 370728, 416128, 467088, 524288, 588493, 660561, 741455] ++
  [832255, 934175, 1048576, 1176987, 1321123, 1482910, 1664511, 1868350, 2097152, 2353974, 2642246, 2965821, 3329021,
   3736700, 4194304, 4707947, 5284492, 5931642, 6658043, 7473400, 8388608, 9415894, 10568984, 11863283, 13316085, 14946800]

/-- Qstep of a stream's codec in 1/65,536 (R260). -/
def qstep (r : Record) (q : Nat) : Nat :=
  if esCodec r == 3 then Config.av1Quantiser (rd r 24 1) q * 8192 else qstepTable.getD q 14946800

/-- σ of R259: the budget cost of a skim CTU. -/
def skimBits (r : Record) : Nat := if esCodec r == 2 then 20 else 4

/-- κ of R259: the most bits a truncated CTU takes, in an inter or an intra picture. -/
def kappa (r : Record) (intra : Bool) : Nat :=
  match esCodec r with
  | 1 => if intra then 48 else 24
  | 2 => if intra then 400 else 1200
  | _ => if intra then 32 else 16

/-- One QP step of a rule: 1, or 4 base_q_idx steps of AV1. -/
def qpUnit (r : Record) : Nat := if esCodec r == 3 then 4 else 1

/-- The arrival rate of a mode in bit/s (R257). -/
def rateOf (q : RateSt) : Nat := if q.mode == 0 then q.bitRate * 1000 else q.peakRate * 1000

/-- B in bits. -/
def bufferBits (q : RateSt) : Nat := q.bufferKbit * 1000

/-- a_k (R255). -/
def arrival (rs : List Record) (r : Record) (q : RateSt) (k : Nat) : Nat :=
  arrived rs r (rateOf q) (k + 1) - arrived rs r (rateOf q) k

/-- The clamps of R258: at least the floor, at most the cap, and the cap wins. -/
def clampBudget (t : Int) (floor : Nat) (cap : Int) : Int := min (max t floor) cap

/-- The factor q_k of R259 times ⌊target / r⌋: C_k over the mean complexity, clamped to 0.5 and 3. -/
def vbrShare (at_ c : Nat) (history : List Nat) (key : Bool) (anyFull : Bool) : Nat :=
  if key then 4 * at_
  else if !anyFull then at_
  else
    let n := history.length
    let sum := total history
    if n == 0 || sum == 0 then at_
    else if 2 * c * n < sum then at_ / 2
    else if 3 * sum < c * n then 3 * at_
    else at_ * (c * n) / sum

/-- What a budget is made from. -/
structure BudgetIn where
  k : Nat
  key : Bool
  header : Nat
  skims : Nat
  ctus : Nat
  complexity : Nat
  anyFull : Bool
  deriving DecidableEq, Repr

/-- U_k = F_k − N × κ − h_k (R258). -/
def budgetCap (r : Record) (q : RateSt) (b : BudgetIn) : Int :=
  q.fullness - (b.ctus * kappa r b.key : Nat) - (b.header : Int)

/-- T_k of R258 and R259 before a host's replacement; capped quality takes U_k (R262). -/
def budgetOf (rs : List Record) (r : Record) (q : RateSt) (b : BudgetIn) : Int :=
  let a := arrival rs r q b.k
  let floor := max (a / 4) (b.header + skimBits r * b.skims)
  let cap := budgetCap r q b
  match q.mode with
  | 0 => clampBudget ((if b.key then 4 * a else a : Nat) + (q.fullness - q.target) / 8) floor cap
  | 1 =>
    let at_ := arrived rs r (q.bitRate * 1000) 1
    clampBudget ((vbrShare at_ b.complexity q.history b.key b.anyFull : Int) + q.debt / 60) floor cap
  | _ => cap

/-- P(q) of R260. -/
def predicted (r : Record) (x c q : Nat) : Nat := if qstep r q == 0 then 0 else x * c / qstep r q

/-- Q_k of R260: the smallest QP of the range whose prediction fits, else the ceiling. -/
def pictureQp (r : Record) (q : RateSt) (x : Option Nat) (c : Nat) (fit : Int) : Nat :=
  match x with
  | none => (q.qpFloor + q.qpCeiling) / 2
  | some v =>
    (((List.range (q.qpCeiling + 1 - q.qpFloor)).map (· + q.qpFloor)).find? (fun p =>
      decide ((predicted r v c p : Int) ≤ fit))).getD q.qpCeiling

/-- The row step of R261 in QP steps: `spent` bits against `budget`. -/
def rowStep (spent : Nat) (budget : Int) : Int :=
  if budget ≤ 0 then (if spent == 0 then 0 else 2)
  else
    let s : Int := 100 * spent
    if 125 * budget < s then 2
    else if 110 * budget < s then 1
    else if 90 * budget ≤ s then 0
    else if 80 * budget ≤ s then -1
    else -2

/-- An integer held between two naturals. -/
def clampInt (lo hi : Int) (v : Int) : Int := max lo (min hi v)

/-- A CTU as the coder meets it: its row, whether it is full cost, must stay so (refresh, edge, aged), has set bits, its
complexity and the bits it takes, its slice, and the bits of a further slice header before it. -/
structure CodeCtu where
  index : Nat
  row : Nat
  full : Bool
  fixed : Bool
  changed : Bool
  complexity : Nat
  bits : Nat
  delta : Int := 0
  slice : Nat × Nat := (0, 0)
  opens : Nat := 0
  deriving DecidableEq, Repr

/-- The constants of one member's walk over its CTUs. -/
structure WalkIn where
  intra : Bool
  mode : Nat
  budget : Int
  ballast : Int
  beta : Int
  limit : Int
  header : Nat
  sigma : Nat
  kappa : Nat
  copyBits : Nat
  rows : Nat
  qp0 : Nat
  flat : Bool
  floor : Nat
  ceiling : Nat
  unit : Nat
  hevc : Bool
  openEnded : Bool
  cut : Option Nat := none
  deriving DecidableEq, Repr

/-- Where a walk stands. -/
structure Walk where
  spent : Int
  qp : Int
  row : Nat := 0
  rowShares : List (Nat × Int) := []
  fullSpent : Nat := 0
  fullBudget : Int := 0
  left : Nat
  lastTwo : Int := 0
  lastPlan : Int := 0
  full : Nat := 0
  skim : Nat := 0
  fullBits : Nat := 0
  qpSum : Nat := 0
  late : List Nat := []
  truncAt : Option Nat := none
  truncN : Nat := 0
  exhausted : Bool := false
  deriving DecidableEq, Repr

/-- Complexity and skim count of a row. -/
def rowComplexity (l : List CodeCtu) (row : Nat) : Nat :=
  total ((l.filter (fun c => c.row == row && c.full)).map (fun c => c.complexity))
def rowSkims (l : List CodeCtu) (row : Nat) : Nat := (l.filter (fun c => c.row == row && !c.full)).length

/-- A budget for full-cost CTUs apportioned to rows by complexity: floors, and the remainder to the last row (R261). -/
def apportion (l : List CodeCtu) (rows : List Nat) (budget : Int) : List (Nat × Int) :=
  let c := total (rows.map (rowComplexity l))
  let shares := rows.map (fun row => (row, if c == 0 then 0 else budget * (rowComplexity l row : Int) / (c : Int)))
  match shares.getLast? with
  | none => []
  | some z =>
    let before := shares.dropLast
    before ++ [(z.1, budget - before.foldl (fun a q => a + q.2) 0)]

/-- The walk enters a row: the QP step, and the new plan of the last two rows (R261, R263). -/
def enterRow (p : WalkIn) (l : List CodeCtu) (row : Nat) (w : Walk) : Walk :=
  let step := if row == 0 || p.flat || p.mode == 3 then 0 else rowStep w.fullSpent w.fullBudget
  let hasFull := l.any (fun c => c.row == row && c.full)
  let qp := if w.full == 0 || step == 0 || !hasFull then w.qp
    else clampInt (max (p.floor : Int) (p.qp0 - 4 * p.unit)) (min (p.ceiling : Int) (p.qp0 + 4 * p.unit)) (w.qp + step * p.unit)
  let w := { w with row := row, qp := qp }
  if row == p.rows - 2 || (row == 0 && p.rows ≤ 2) then
    let rows := (List.range p.rows).filter (fun q => row ≤ q)
    let left := p.budget - w.spent
    let sk := total (rows.map (rowSkims l))
    { w with
      rowShares := w.rowShares.filter (fun q => q.1 < row) ++ apportion l rows (left - (p.sigma * sk : Nat))
      lastPlan := left - p.beta }
  else w

/-- The bits of a CTU are committed. -/
def commitCtu (p : WalkIn) (c : CodeCtu) (full : Bool) (qp : Int) (bits : Nat) (w : Walk) : Walk :=
  let w := { w with spent := w.spent + bits, left := w.left - 1
                    lastTwo := if p.rows - 2 ≤ c.row then w.lastTwo + bits else w.lastTwo }
  if full then
    { w with full := w.full + 1, fullBits := w.fullBits + bits, fullSpent := w.fullSpent + bits, qpSum := w.qpSum + qp.toNat }
  else { w with skim := w.skim + 1 }

/-- One CTU: exhausted budgets raise the QP or turn it to skim (R264), and the underflow check may truncate (R265, R267). -/
def walkCtu (p : WalkIn) (l : List CodeCtu) (w : Walk) (c : CodeCtu) : Walk :=
  let w := if c.row != w.row || w.left == l.length then enterRow p l c.row w else w
  let w := { w with spent := w.spent + (if w.truncAt.isSome then 0 else c.opens) }
  let out := p.mode != 3 && decide (p.budget ≤ w.spent)
  let w := { w with exhausted := w.exhausted || out }
  let full := c.full && !(out && !p.intra && !c.changed && !c.fixed)
  let bits := if c.full && !full then p.sigma else c.bits
  let qp := clampInt p.floor p.ceiling ((if out then (p.ceiling : Int) else w.qp) + c.delta)
  let w := if full && !(w.late.contains c.row) then
      { w with fullBudget := w.fullBudget + ((w.rowShares.find? (fun q => q.1 == c.row)).map (fun q => q.2)).getD 0
               late := c.row :: w.late } else w
  let fits := p.mode == 3 || decide (w.spent + bits + (p.kappa * (w.left - 1) : Nat) ≤ p.limit)
  if w.truncAt.isSome || !fits || p.cut == some c.index then
    let w := { w with truncAt := some (w.truncAt.getD c.index), truncN := w.truncN + 1 }
    commitCtu p c false qp (min p.copyBits p.kappa) w
  else commitCtu p c full qp bits w

/-- The CTU to which truncation rewinds an inter picture of HEVC: the first of the failing CTU's slice, when that slice holds no skim
CTU, so that its header carries the temporal-motion flag (R234, R267). Where a slice's end is not known ahead (slice mode 3),
its CTUs up to the failing one count. -/
def rewindTo (p : WalkIn) (l : List CodeCtu) (k : Nat) : Option Nat :=
  if !p.hevc || p.intra then none
  else match l.find? (fun c => c.index == k) with
    | none => none
    | some f =>
      let mine := l.filter (fun c => c.slice == f.slice && (!p.openEnded || c.index ≤ k))
      if mine.all (fun c => c.full) then (mine.head?).map (fun c => c.index) else none

/-- One pass over a member's CTUs. -/
def walkOnce (p : WalkIn) (l : List CodeCtu) : Walk :=
  let full := p.budget - p.ballast - (p.header : Int) - (p.sigma * (l.filter (fun c => !c.full)).length : Nat)
  l.foldl (walkCtu p l)
    { spent := p.header, qp := p.qp0, left := l.length, row := 0, rowShares := apportion l (List.range p.rows) full }

/-- A member's picture; a truncation that rewinds codes everything from its slice's start as skip-copy (R267). -/
def walk (p : WalkIn) (l : List CodeCtu) : Walk :=
  let w := walkOnce p l
  match w.truncAt.bind (rewindTo p l) with
  | none => w
  | some k =>
    let v := walkOnce { p with cut := some k } l
    { v with exhausted := v.exhausted || w.exhausted }

/-- A coefficient after a picture (R260), 48 bits, saturated. -/
def coeffNext (x : Option Nat) (bits step c : Nat) : Option Nat :=
  let top := 2 ^ 48 - 1
  if c == 0 then x
  else match x with
    | none => some (min top (bits * step / c))
    | some v => some (min top ((v * c + bits * step) / (2 * c)))

/-- Both coefficients after a picture with a full-cost CTU: the first sets both (R260). -/
def coefficients (r : Record) (q : RateSt) (intra : Bool) (bits meanQp c : Nat) : RateSt :=
  let n := fun (x : Option Nat) => coeffNext x bits (qstep r meanQp) c
  if q.xIntra.isNone && q.xInter.isNone then { q with xIntra := n none, xInter := n none }
  else if intra then { q with xIntra := n q.xIntra }
  else { q with xInter := n q.xInter }

/-- The model after a picture (R255, R256, R259): the new rate state and the filler bits that CBR appends. -/
def modelAdvance (rs : List Record) (r : Record) (q : RateSt) (k bits : Nat) : RateSt × Nat :=
  if q.mode == 3 then (q, 0)
  else
    let b : Int := bufferBits q
    let raw := q.fullness - (bits : Int) + (arrival rs r q k : Int)
    if q.mode == 0 then
      let filler := if b < raw then (raw - b).toNat else 0
      ({ q with fullness := raw - (filler : Int) }, filler)
    else
      let at_ := arrived rs r (q.bitRate * 1000) 1
      ({ q with fullness := min b raw
                debt := if q.mode == 1 then clampInt (-b) b (q.debt + (at_ : Int) - (bits : Int)) else q.debt }, 0)

/-! Changes of rate (R269 to R272). -/

/-- The values in force after a payload of R269. -/
def rateApply (r : Record) (p : List Byte) (q : RateSt) : RateSt :=
  let num := fun (o n keep old : Nat) => if rd p o n == keep then old else rd p o n
  let q := { q with
    bitRate := num 0 4 0 q.bitRate, peakRate := num 4 4 0 q.peakRate, bufferKbit := num 8 4 0 q.bufferKbit
    qpFloor := num 12 1 0xFF q.qpFloor, qpCeiling := num 13 1 0xFF q.qpCeiling, quality := num 14 1 0xFF q.quality
    ballast := if rd p 15 1 == 0xFE then q.ballast else ballastOf (rd p 15 1), mode := num 16 1 0xFF q.mode }
  let b : Int := bufferBits q
  { q with fullness := min q.fullness b, debt := clampInt (-b) b q.debt
           target := ((esFullness r * bufferBits q / 100 : Nat) : Int) }

/-- The stream signals its buffer model (R257). -/
def signalsModel (r : Record) (q : RateSt) : Bool := q.mode != 3 && !(rd r 62 2).testBit 4

/-- The change forces an IDR picture (R270). -/
def rateForcesIdr (r : Record) (old new : RateSt) : Bool :=
  (old.mode == 3) != (new.mode == 3) ||
  ((signalsModel r old || signalsModel r new) &&
    (rateOf old != rateOf new || old.bufferKbit != new.bufferKbit || (old.mode == 0) != (new.mode == 0)))

/-- The largest QP of a codec. -/
def qpTop (r : Record) : Nat := if esCodec r == 3 then 255 else 51

/-- Whether the level holds the stream with rates (R195, R269). -/
def levelOk (rs : List Record) (r : Record) (peak buffer : Nat) : Bool :=
  let p := esPicPeriod rs r
  Config.levelHolds [esCodec r, rd r 17 1, rd r 26 1, rd r 19 1, esWidth r, esHeight r, p.1, p.2, peak, buffer]

/-- The first field of an ENCODE_RATE that no stream could take, by payload offset (R194, R269). -/
def rateRange (p : List Byte) : Option Nat :=
  if rd p 0 4 != 0 && (rd p 0 4 < 100 || 800000 < rd p 0 4) then some 16
  else if 800000 < rd p 4 4 then some 20
  else if rd p 8 4 != 0 && rd p 8 4 < 100 then some 24
  else if 200 < rd p 15 1 && rd p 15 1 < 0xFE then some 31
  else if 3 < rd p 16 1 && rd p 16 1 != 0xFF then some 32
  else none

/-- The first field of an ENCODE_RATE out of range for its stream, by payload offset (R269). -/
def rateBad (rs : List Record) (r : Record) (p : List Byte) (q : RateSt) : Option Nat :=
  let n := rateApply r p q
  if n.bitRate < 100 || 800000 < n.bitRate then some 16
  else if n.peakRate < n.bitRate || 800000 < n.peakRate then some 20
  else if n.bufferKbit < 100 then some 24
  else if qpTop r < n.qpFloor then some 28
  else if qpTop r < n.qpCeiling || n.qpCeiling < n.qpFloor then some 29
  else if n.quality < n.qpFloor || n.qpCeiling < n.quality then some 30
  else if 200 < n.ballast then some 31
  else if 3 < n.mode then some 32
  else if !levelOk rs r n.peakRate n.bufferKbit then some 20
  else none

end Sys2Proof.Machine
end

