-- ==== Sys2Proof/Machine/Motion.lean ====
section
/-!
DEFINITION. Motion.lean: the source samples that an encode engine codes (R196) and the hierarchical motion search (R198, R199, R204, R215). As with
pictures, the state holds what a search rests on, and its vectors are read from that one by one. What the spec leaves open is in log 89.
-/
namespace Sys2Proof.Machine

/-! Source samples (R196). -/

/-- A sample of the source picture: of the tile slot that holds it. -/
def PicSource.sample (p : PicSource) (c x y : Nat) : Nat :=
  let tile := y / (64 / p.format.subY c) * p.cols + x / (64 / p.format.subX c)
  let slot := p.table.getD tile 0
  match p.slots.find? (fun q => q.1 == slot) with
  | some q => q.2.sample c x y
  | none => midGrey p.format.depth

/-- The format of a stream (R194). -/
def esFormat (r : Record) : PicFormat := { width := esWidth r, height := esHeight r, depth := rd r 24 1, chroma := rd r 25 1 }

/-- A sample as the engine codes it: the whole source scaled with filter 0 where the stream is smaller, chroma halved vertically for a 4:2:0 stream of a
4:2:2 source, and rounded to the stream's depth (R17, R196). -/
def codedSource (r : Record) (p : PicSource) (c x y : Nat) : Nat :=
  let f := esFormat r
  let word := fun (i j : Nat) => (wordIn p.format.depth (p.sample c i j)).toInt
  wordOut f.depth (BitVec.ofInt 18 (scalePlane 0 (p.format.planeW c) (p.format.planeH c) (f.planeW c) (f.planeH c) word x y))

/-! Planes of the search (R198). Level n averages n × n luma samples. -/

/-- A luma sample of the picture under search, and of a reconstruction, padded by its edge samples (R199, log 89). -/
def SearchPic.luma (r : Record) (p : SearchPic) (x y : Nat) : Int := codedSource r p.source 0 x y
def reconLuma (r : Record) (token : Nat) (x y : Int) : Int :=
  (Config.reconSample token 0 (clampTo (esWidth r) x) (clampTo (esHeight r) y) % 2 ^ (rd r 24 1) : Nat)

/-- The mean of n × n values, ties upward. -/
def meanOf (n : Nat) (at_ : Nat → Nat → Int) : Int :=
  roundUp (sumInt ((List.range n).flatMap (fun j => (List.range n).map (fun i => at_ i j)))) (n * n)

def SearchPic.levelAt (r : Record) (p : SearchPic) (n x y : Nat) : Int := meanOf n (fun i j => p.luma r (n * x + i) (n * y + j))
def reconLevel (r : Record) (token n : Nat) (x y : Int) : Int := meanOf n (fun i j => reconLuma r token (n * x + i) (n * y + j))

/-- The sum of absolute differences of a block of a level against a reference displaced by a vector, over the samples inside the picture. -/
def sadAt (r : Record) (p : SearchPic) (token n x y w hgt : Nat) (v : Vec) : Nat :=
  ((List.range hgt).map (fun j => ((List.range w).map (fun i =>
    if (x + i) * n < esWidth r && (y + j) * n < esHeight r then
      (p.levelAt r n (x + i) (y + j) - reconLevel r token n ((x + i : Nat) + v.x) ((y + j : Nat) + v.y)).natAbs else 0)).sum)).sum

/-! The best of a pattern (R199). -/

/-- What ranks a vector: its cost, then |x| + |y|, then y, then x. -/
structure Rank where
  cost : Nat
  v : Vec
  deriving DecidableEq, Repr

def Rank.before (a b : Rank) : Bool :=
  let m := fun (q : Rank) => q.v.x.natAbs + q.v.y.natAbs
  a.cost < b.cost || (a.cost == b.cost && (m a < m b || (m a == m b && (a.v.y < b.v.y || (a.v.y == b.v.y && a.v.x < b.v.x)))))

/-- Keeps the n best, each vector once. -/
def keepBest (n : Nat) (cost : Vec → Nat) (kept : List Rank) (vs : List Vec) : List Rank :=
  vs.foldl (fun kept v =>
    if kept.any (fun q => q.v == v) then kept
    else
      let q : Rank := { cost := cost v, v := v }
      (kept.takeWhile (fun k => k.before q) ++ [q] ++ kept.dropWhile (fun k => k.before q)).take n) kept

/-- The vectors within ±h across and ±w down of a centre, by a step. -/
def around (c : Vec) (hx vy step : Nat) : List Vec :=
  (List.range (2 * vy / step + 1)).flatMap (fun j => (List.range (2 * hx / step + 1)).map (fun i =>
    { x := c.x - hx + (i * step : Nat), y := c.y - vy + (j * step : Nat) }))

/-- A vector held in a range. -/
def heldIn (v : Vec) (hx vy : Nat) : Vec := { x := clampInt (-(hx : Int)) hx v.x, y := clampInt (-(vy : Int)) vy v.y }

/-- The cost of a vector at a level: SAD and the rate term (R198). -/
def levelCost (r : Record) (p : SearchPic) (token n x y w hgt : Nat) (near : List Vec) (v : Vec) : Nat :=
  sadAt r p token n x y w hgt v + Config.vectorRate (esCodec r) (n * v.x) (n * v.y) (near.flatMap (fun q => [q.x, q.y]))

/-! L1. -/

/-- The two best vectors of a CTU, in samples of the 1/16-area plane, from the predictors (R198): the grid, the predictors, then all points
around the two best. -/
def l1Search (r : Record) (p : SearchPic) (ctu : Nat) (preds : List Vec) : List Vec :=
  let x := 16 * (ctu % esCols r)
  let y := 16 * (ctu / esCols r)
  let cost := levelCost r p (p.refs.headD 0) 4 x y 16 16 preds
  let first := keepBest 2 cost [] (around { x := 0, y := 0 } 256 128 4 ++ preds.map (fun v => heldIn v 256 128))
  let near := first.flatMap (fun q => (around q.v 3 3 1).filter (fun v => v == heldIn v 256 128))
  (keepBest 2 cost first near).map (fun q => q.v)

/-- A hint on the L1 plane, held in its range (R201). -/
def hintAt (v : Vec) : Vec := heldIn { x := v.x / 4, y := v.y / 4 } 256 128

/-- The hints of a CTU. -/
def SearchPic.hintsOf (p : SearchPic) (ctu : Nat) : List Vec :=
  match p.hints[ctu]? with
  | some q => [hintAt q.1, hintAt q.2]
  | none => []

/-- The L1 winners of a CTU: of the hints where they replace the search (R201), else with the winners to the left, above and in the previous
picture as predictors; `fuel` bounds the chain of neighbours. -/
def l1In (r : Record) (p : SearchPic) (before : Nat → List Vec) : Nat → Nat → List Vec
  | 0, _ => []
  | fuel + 1, ctu =>
    if !p.searched.contains ctu then []
    else if p.hintUse == some 0 && !(p.hintsOf ctu).isEmpty then p.hintsOf ctu
    else
      let left := if ctu % esCols r == 0 then [] else (l1In r p before fuel (ctu - 1)).take 1
      let up := if ctu < esCols r then [] else (l1In r p before fuel (ctu - esCols r)).take 1
      let hints := if p.hintUse == some 1 then p.hintsOf ctu else []
      l1Search r p ctu ([{ x := 0, y := 0 }] ++ left ++ up ++ (before ctu).take 1 ++ hints)

/-- The L1 winners of a CTU of the newest of a run of searched pictures. -/
def l1Of (r : Record) : List SearchPic → Nat → List Vec
  | [], _ => []
  | p :: older, ctu => l1In r p (l1Of r older) (ctu + 1) ctu

/-! L2. -/

/-- The two best vectors of one of the four 16 × 16 blocks of a CTU on the 1/4-area plane: exhaustive around the L1 vectors doubled, and zero. -/
def l2Of (r : Record) (run : List SearchPic) (ctu block : Nat) : List Vec :=
  match run with
  | [] => []
  | p :: _ =>
    let l1 := l1Of r run ctu
    let x := 32 * (ctu % esCols r) + 16 * (block % 2)
    let y := 32 * (ctu / esCols r) + 16 * (block / 2)
    let centres := l1.map (fun v => ({ x := 2 * v.x, y := 2 * v.y } : Vec)) ++ [{ x := 0, y := 0 }]
    (keepBest 2 (levelCost r p (p.refs.headD 0) 2 x y 16 16 l1) [] (centres.flatMap (fun c => around c 16 16 1))).map (fun q => q.v)

/-! Complexity (R260). -/

/-- A_i: the sum over the 16 × 16 L1 block of a CTU, inside the picture, of the absolute differences from the block's mean. -/
def intraActivity (r : Record) (p : SearchPic) (ctu : Nat) : Nat :=
  let x := 16 * (ctu % esCols r)
  let y := 16 * (ctu / esCols r)
  let l := (List.range 16).flatMap (fun j => (List.range 16).filterMap (fun i =>
    if 4 * (x + i) < esWidth r && 4 * (y + j) < esHeight r then some (p.levelAt r 4 (x + i) (y + j)) else none))
  let m := roundUp (sumInt l) l.length
  (l.map (fun v => (v - m).natAbs)).sum

/-- The SAD of an inter CTU's L1 winner; where hints replace L1, a quarter of the sum of its four L2 SADs. -/
def interActivity (r : Record) (run : List SearchPic) (ctu : Nat) : Nat :=
  match run with
  | [] => 0
  | p :: _ =>
    let token := p.refs.headD 0
    let best := fun (n x y : Nat) (l : List Vec) => match l with | v :: _ => sadAt r p token n x y 16 16 v | [] => 0
    if p.hintUse == some 0 && !(p.hintsOf ctu).isEmpty then
      ((List.range 4).map (fun b =>
        best 2 (32 * (ctu % esCols r) + 16 * (b % 2)) (32 * (ctu / esCols r) + 16 * (b / 2)) (l2Of r run ctu b))).sum / 4
    else best 4 (16 * (ctu % esCols r)) (16 * (ctu / esCols r)) (l1Of r run ctu)

/-- c_i of a CTU coded at full cost. -/
def ctuComplexity (r : Record) (run : List SearchPic) (ctu : Nat) : Nat :=
  match run with
  | [] => 64
  | p :: _ => max 64 (if p.intra.contains ctu then 2 * intraActivity r p ctu else interActivity r run ctu)

/-- c_i of a CTU of a ladder's other rung: those of rung 0 in its footprint, scaled by the ratio of the areas (R261). -/
def rungComplexity (r z : Record) (lead : List SearchPic) (footprint : List Nat) : Nat :=
  max 64 ((footprint.map (ctuComplexity z lead)).sum * (esWidth r * esHeight r) / (esWidth z * esHeight z))

/-! L3 (R198, R204, R215). -/

/-- n / d to the nearest whole number, ties away from zero (R204). -/
def roundAway (n : Int) (d : Nat) : Int := if 0 ≤ n then (2 * n + d) / (2 * d : Nat) else -((2 * (-n) + d) / (2 * d : Nat))

/-- The L3 centres of the 16 × 16 block at a luma position: the two L2 vectors doubled, or in a rung of a ladder those of rung 0 scaled by the
ratios of the sizes. -/
def l3Centres (r : Record) (run : List SearchPic) (lead : Option (Record × List SearchPic)) (x y : Nat) : List Vec :=
  let at_ := fun (r : Record) (run : List SearchPic) (x y : Nat) =>
    l2Of r run (y / 64 * esCols r + x / 64) (y / 32 % 2 * 2 + x / 32 % 2)
  match lead with
  | none => (at_ r run x y).map (fun v => { x := 2 * v.x, y := 2 * v.y })
  | some (q, other) =>
    (at_ q other (x * esWidth q / esWidth r) (y * esHeight q / esHeight r)).map (fun v =>
      { x := roundAway (2 * v.x * esWidth r) (esWidth q), y := roundAway (2 * v.y * esHeight r) (esHeight q) })

/-- Samples that the codec's interpolation reads right of a block (R215). -/
def tapsRight (r : Record) : Nat := if esCodec r == 2 then 3 else 4

/-- The vector, in quarter samples, keeps to the clean area (R215): nothing right of 8 samples inside the edge of the reference's, taps included. -/
def staysClean (r : Record) (p : SearchPic) (b : CodedBlock) (v : Vec) : Bool :=
  match p.clean with
  | none => true
  | some (edge, refEdge) =>
    edge ≤ b.x || decide ((b.x + b.w : Nat) + (v.x + 3) / 4 + (if v.x % 4 == 0 then 0 else tapsRight r : Nat) + 8 ≤ (refEdge : Int))

/-- The best integer vector of a partition, in quarter samples, with its cost. -/
def l3Of (r : Record) (run : List SearchPic) (lead : Option (Record × List SearchPic)) (b : CodedBlock) (token : Nat) (cands : List Vec) : Vec :=
  match run with
  | [] => { x := 0, y := 0 }
  | p :: _ =>
    let n := if p.narrow then 4 else 8
    let corners := (List.range (ceilDiv b.h 16)).flatMap (fun j => (List.range (ceilDiv b.w 16)).map (fun i => (b.x + 16 * i, b.y + 16 * j)))
    let centres := (corners.flatMap (fun q => l3Centres r run lead q.1 q.2)).foldl (fun l v => addNew v l) []
    let whole := (cands.filter (fun v => v.x % 4 == 0 && v.y % 4 == 0)).map (fun v => ({ x := v.x / 4, y := v.y / 4 } : Vec))
    let all := (centres.flatMap (fun c => around c n n 1) ++ whole.take 5).filter (fun v => staysClean r p b { x := 4 * v.x, y := 4 * v.y })
    match keepBest 1 (levelCost r p token 1 b.x b.y b.w b.h cands) [] all with
    | q :: _ => { x := 4 * q.v.x, y := 4 * q.v.y }
    | [] => { x := 0, y := 0 }

/-! L4 and the final vector (R198, R199). -/

/-- A luma sample of a reconstruction at a position in quarter samples: the codec's own interpolation. -/
def reconFraction (r : Record) (token : Nat) (px py : Int) : Int :=
  if px % 4 == 0 && py % 4 == 0 then reconLuma r token (px / 4) (py / 4)
  else
    let taps := (List.range 8).flatMap (fun (j : Nat) => (List.range 8).map (fun (i : Nat) =>
      (reconLuma r token (px / 4 - 3 + i) (py / 4 - 3 + j)).toNat))
    (Config.interpolated (esCodec r) (px % 4).toNat (py % 4).toNat 4 4 taps % 2 ^ (rd r 24 1) : Nat)

/-- SATD of a partition with its rate term. -/
def l4Cost (r : Record) (p : SearchPic) (token : Nat) (b : CodedBlock) (cands : List Vec) (v : Vec) : Nat :=
  Config.satd ((List.range b.h).flatMap (fun j => (List.range b.w).map (fun i =>
    p.luma r (b.x + i) (b.y + j) - reconFraction r token (4 * (b.x + i : Nat) + v.x) (4 * (b.y + j : Nat) + v.y)))) +
  Config.vectorRate (esCodec r) v.x v.y (cands.flatMap (fun q => [q.x, q.y]))

/-- The final vector of a partition, in quarter samples: the eight half-sample points around the integer best, then the eight quarter-sample points around
the half-sample best, held in the codec's and the level's range. -/
def finalVector (r : Record) (run : List SearchPic) (lead : Option (Record × List SearchPic)) (b : CodedBlock) (reference : Nat) (cands : List Vec) : Vec :=
  match run with
  | [] => { x := 0, y := 0 }
  | p :: _ =>
    let token := p.refs.getD reference 0
    let cost := l4Cost r p token b cands
    let fine := fun (v : Vec) (step : Nat) => match keepBest 1 cost [] ((around v step step step).filter (fun v => staysClean r p b v)) with
      | q :: _ => q.v
      | [] => v
    let v := fine (fine (l3Of r run lead b token cands) 2) 1
    let lim := Config.vectorRange (esCodec r) (rd r 19 1)
    heldIn v lim.1 lim.2

end Sys2Proof.Machine
end

