-- ==== Sys2Proof/Machine/Coding.lean ====
section
/-!
DEFINITION. Coding.lean: the syntax of what the encode engines produce: tools and structure (R191, R192), parameter sets and messages (R193, R216),
tiles of gangs (R208), slices (R212), and the CTUs coded as skim (R233 to R236). The values of the other syntax elements, and the bits, are the
standards' (log 9).
-/
namespace Sys2Proof.Machine

/-! Tools and structure (R191). -/

/-- What the parameter sets and slice headers of an HEVC stream say. A tool that R191 never uses is false, 0 or empty. -/
structure HevcTools where
  parameterSetId : Nat := 0
  ctbLog2 : Nat := 6
  minCbLog2 : Nat := 3
  minTbLog2 : Nat := 2
  maxTbLog2 : Nat := 5
  amp : Bool := true
  sao : Bool := true
  deblockingOffsets : Int := 0
  signDataHiding : Bool := true
  transformSkip : Bool := true
  cuQpDelta : Bool := true
  mergeCandidates : Nat := 5
  temporalMvp : Bool := true
  bSlices : Bool := false
  scalingLists : Bool := false
  pcm : Bool := false
  weightedPrediction : Bool := false
  longTermReferences : Bool := false
  wavefront : Bool := false
  dependentSlices : Bool := false
  temporalSubLayers : Nat := 1
  tileColumns : List Nat := []
  tileRows : Nat := 1
  uniformSpacing : Bool := false
  filterAcrossTiles : Bool := true
  referenceDeltas : List Int := []
  deriving DecidableEq, Repr

structure H264Tools where
  parameterSetId : Nat := 0
  cabac : Bool := true
  transform8x8 : Bool := true
  frameMbsOnly : Bool := true
  picOrderCntType : Nat := 2
  log2MaxFrameNum : Nat := 8
  gapsAllowed : Bool := false
  deblockingOffsets : Int := 0
  bSlices : Bool := false
  mbaff : Bool := false
  weightedPrediction : Bool := false
  scalingMatrices : Bool := false
  fmo : Bool := false
  aso : Bool := false
  redundantPictures : Bool := false
  numRefFrames : Nat := 1
  deriving DecidableEq, Repr

structure Av1Tools where
  reducedStillPicture : Bool := false
  frameIdNumbers : Bool := true
  orderHintBits : Nat := 7
  refFrameMvs : Bool := true
  filterIntra : Bool := true
  intraEdgeFilter : Bool := true
  interpolationFilter : Nat := 0
  txModeSelect : Bool := true
  cdef : Bool := true
  loopRestoration : Bool := true
  superres : Bool := false
  intraBlockCopy : Bool := false
  palette : Bool := false
  warpedMotion : Bool := false
  globalMotion : Bool := false
  obmc : Bool := false
  interIntra : Bool := false
  maskedCompound : Bool := false
  dualFilter : Bool := false
  filmGrain : Bool := false
  switchFrames : Bool := false
  showExistingFrame : Bool := false
  tileColumns : List Nat := []
  tileRows : Nat := 1
  restorationUnit : Nat := 64
  references : Nat := 1
  deriving DecidableEq, Repr

inductive Tools where
  | hevc (t : HevcTools)
  | h264 (t : H264Tools)
  | av1 (t : Av1Tools)
  deriving DecidableEq, Repr

/-- The tile rows of an AV1 frame by its slice mode (R212). -/
def av1TileRows (r : Record) : Nat :=
  match rd r 33 1 with
  | 1 => esRows r
  | 2 => ceilDiv (esRows r) (max 1 (rd r 34 2))
  | _ => 1

/-- The references of a stream (R194). -/
def esReferences (r : Record) : Nat := if rd r 27 1 == 0 then 1 else rd r 27 1

/-- Tile columns of a stream outside a gang: an AV1 frame wider than 4,096 has two in mode 0 (R212), the wider first (log 89). -/
def ownColumns (r : Record) : List Nat :=
  if esCodec r == 3 && rd r 33 1 == 0 && 4096 < esWidth r then [ceilDiv (esCols r) 2, esCols r / 2] else []

/-- The tools of a stream, with the tile columns of its gang (R191, R192, R208). -/
def toolsOf (r : Record) (columns : List Nat) : Tools :=
  match esCodec r with
  | 1 => .hevc { tileColumns := columns, referenceDeltas := (List.range (esReferences r)).map (fun i => -((i + 1 : Nat) : Int)) }
  | 2 => .h264 { numRefFrames := esReferences r }
  | _ => .av1 { tileColumns := if columns.isEmpty then ownColumns r else columns, tileRows := av1TileRows r, references := esReferences r }

/-- The tile groups of an AV1 frame: one in mode 0, else one per tile row (R212). With one, the frame goes in an OBU_FRAME, else its header goes in an
OBU of its own (R229). -/
def tileGroups (r : Record) : Nat := if rd r 33 1 == 0 then 1 else av1TileRows r

/-! The numbering of pictures (R192). -/

/-- The slot that an inter frame refreshes: the one with the oldest frame. -/
def oldestSlot (slots : List (Nat × Nat)) : Nat :=
  (slots.zipIdx.foldl (fun (best : Nat × Nat) s => if s.1.1 < best.1 then (s.1.1, s.2) else best) ((slots.headD (0, 0)).1, 0)).2

/-- The numbers of the next picture; a key frame refreshes every slot. -/
def nextFrame (f : FrameState) (idr : Bool) : FrameState :=
  let id := f.frameId + 1
  if idr then { order := 0, frameId := id, slots := List.replicate 8 (id, 0), shownSlot := 0 }
  else
    let k := oldestSlot f.slots
    { order := f.order + 1, frameId := id, slots := f.slots.set k (id, (f.order + 1) % 128), shownSlot := k }

/-- Parameter sets, and what times the decoder's buffer. -/
def HeadUnit.isSet : HeadUnit → Bool
  | .vps | .sps .. | .pps _ | .sequenceHeader .. => true
  | _ => false
def HeadUnit.isTiming : HeadUnit → Bool
  | .bufferingPeriod _ => true
  | _ => false

/-- The sets and the buffering period in force after the units of a picture. -/
def setsNext (old heads : List HeadUnit) : List HeadUnit :=
  (if heads.any HeadUnit.isSet then heads.filter HeadUnit.isSet else old.filter HeadUnit.isSet) ++
  (if heads.any HeadUnit.isTiming then heads.filter HeadUnit.isTiming else old.filter HeadUnit.isTiming)

/-- The sets signal the buffer model. -/
def setsTimed (sets : List HeadUnit) : Bool :=
  sets.any (fun u => match u with
    | .sps _ h _ _ => h.isSome
    | .sequenceHeader h _ _ _ => h.isSome
    | _ => false)

/-! Parameter sets and messages (R193, R216). -/

def esFlag (r : Record) (b : Nat) : Bool := (rd r 62 2).testBit b

/-- The buffer model that goes with the stream (R193, R255, R257). -/
def esHrd (r : Record) (q : RateSt) : Option Hrd :=
  if signalsModel r q then some { rate := rateOf q, buffer := bufferBits q, cbr := q.mode == 0 } else none

/-- The initial delay in 90 kHz units: ⌊F × 90,000 / R⌋ (R255). -/
def initialDelay (q : RateSt) : Nat := q.fullness.toNat * 90000 / rateOf q

/-- The units before the first slice of a picture. `first` says that it is an IDR picture or key frame or starts a sweep; `recovery` is the phase at
which a sweep that starts here completes. -/
def headUnits (rs : List Record) (r : Record) (q : RateSt) (columns : List Nat) (first : Bool) (recovery : Option Nat) : List HeadUnit :=
  let p := esPicPeriod rs r
  match esCodec r with
  | 3 => [.temporalDelimiter] ++ (if first then [.sequenceHeader (esHrd r q) (initialDelay q) p.1 p.2] else []) ++
    (if tileGroups r == 1 then [] else [.frameHeader])
  | c =>
    (if esFlag r 3 then [.delimiter] else []) ++
    (if first then (if c == 1 then [.vps] else []) ++ [.sps (esReferences r) (esHrd r q) p.1 p.2, .pps columns] else []) ++
    (if signalsModel r q then [.bufferingPeriod (initialDelay q), .pictureTiming] else []) ++
    (match recovery with | some n => [.recoveryPoint n] | none => [])

/-- The units after the last slice: of HEVC the picture hash, of type 1. -/
def tailUnits (r : Record) : List HeadUnit := if esCodec r == 1 && esFlag r 2 then [.pictureHash 1] else []

/-- A unit that the network ports send: temporal delimiters stay behind (R296). -/
def HeadUnit.sent (u : HeadUnit) : Bool := u != .temporalDelimiter

/-! Slices (R212, R234, R236). -/

/-- The slice of a CTU by the slice modes of R212 that cut at rows; mode 3 and suspensions open further ones. -/
def sliceOf (r : Record) (c : Nat) : Nat :=
  match rd r 33 1 with
  | 1 => c / esCols r
  | 2 => c / esCols r / max 1 (rd r 34 2)
  | _ => 0

/-- The slice and tile column of a CTU, as one name. -/
def sliceName (r : Record) (p : EncPlan) (c : Nat) : Nat × Nat × Nat :=
  (sliceOf r c, (p.slicing.filter (fun q => q ≤ c)).length, (p.edges.filter (fun e => e.column ≤ 64 * (c % esCols r))).length)

/-- A CTU is coded as skim (R233). -/
def EncPlan.skims (p : EncPlan) (c : Nat) : Bool := !p.fullCtus.contains c

/-- slice_temporal_mvp_enabled_flag of the slice that holds a CTU (R234). -/
def temporalMvp (r : Record) (p : EncPlan) (c : Nat) : Bool :=
  (List.range (esCtus r)).all (fun k => sliceName r p k != sliceName r p c || !p.skims k)

/-- use_ref_frame_mvs and skip_mode_present of an AV1 frame (R236): the second needs two references that R191 does not give. -/
def refFrameMvs (r : Record) (p : EncPlan) : Bool := (List.range (esCtus r)).all (fun k => !p.skims k)
def skipModePresent : Bool := false

/-! Motion around a CTU (R234, R235). -/

/-- The motion at a luma position: none where it is not available or intra; else the reference index and vector, a skim CTU's being (0, 0). -/
def motionAt (r : Record) (p : EncPlan) (run : List SearchPic) (lead : Option (Record × List SearchPic)) (x y : Nat) : Option (Nat × Vec) :=
  if p.skims (y / 64 * esCols r + x / 64) then some (0, { x := 0, y := 0 })
  else
    let blocks : List CodedBlock := match p.search with | some q => q.blocks | none => []
    match blocks.find? (fun b => b.x ≤ x && x < b.x + b.w && b.y ≤ y && y < b.y + b.h) with
    | some b => (match b.mode with
      | .intra _ => none
      | .inter k cands => some (k, finalVector r run lead b k cands))
    | none => none

/-- The position is in the picture, in the slice and tile of a CTU, and coded before it. -/
def reaches (r : Record) (p : EncPlan) (c : Nat) (x y : Int) : Bool :=
  decide (0 ≤ x) && decide (0 ≤ y) && decide (x < esWidth r) && decide (y < esHeight r) &&
  (let k := y.toNat / 64 * esCols r + x.toNat / 64
   decide (k ≤ c) && sliceName r p k == sliceName r p c)

/-- The position is in the picture and in the slice of a macroblock, and its macroblock comes before (H.264). -/
def reachesMb (r : Record) (p : EncPlan) (x y : Nat) (i j : Int) : Bool :=
  decide (0 ≤ i) && decide (0 ≤ j) && decide (i < esWidth r) && decide (j < esHeight r) &&
  decide (j / 16 < (y / 16 : Nat) ∨ (j / 16 = (y / 16 : Nat) ∧ i / 16 < (x / 16 : Nat))) &&
  sliceName r p (j.toNat / 64 * esCols r + i.toNat / 64) == sliceName r p (y / 64 * esCols r + x / 64)

/-! Skim CTUs (R234 to R236). -/

/-- How a skim CTU signals that SAO is off. -/
inductive SaoOff where
  | notSignalled
  | mergeLeft
  | mergeUp
  | typesZero
  deriving DecidableEq, Repr

/-- How a macroblock of a skim CTU is coded: P_Skip, or P_L0_16x16 with its vector difference. -/
inductive SkimMb where
  | pSkip
  | explicit (mvd : Vec) (refIdxWritten : Bool) (codedBlockPattern : Nat)
  deriving DecidableEq, Repr

/-- A skim CTU: HEVC coding units by their merge index, H.264 macroblocks, or an AV1 superblock with skip, inter, LAST_FRAME, GLOBALMV, PARTITION_NONE
and RESTORE_NONE, without cdef_idx and quantiser deltas. -/
inductive SkimCode where
  | hevc (units : List (Nat × Nat × Nat × Nat)) (sao : SaoOff)
  | h264 (mbs : List SkimMb)
  | av1 (skip isInter : Bool) (reference : Nat) (globalMotion partitionNone cdefCoded deltasCoded restored : Bool)
  deriving DecidableEq, Repr

/-- The coding units of a skim CTU, as x, y and size: the whole CTU, split only where the picture edge makes it. -/
def skimUnits (r : Record) : Nat → Nat → Nat → Nat → List (Nat × Nat × Nat)
  | 0, _, _, _ => []
  | fuel + 1, x, y, n =>
    if esWidth r ≤ x || esHeight r ≤ y then []
    else if x + n ≤ esWidth r && y + n ≤ esHeight r then [(x, y, n)]
    else
      let m := n / 2
      skimUnits r fuel x y m ++ skimUnits r fuel (x + m) y m ++ skimUnits r fuel x (y + m) m ++ skimUnits r fuel (x + m) (y + m) m

/-- The spatial merge candidates of a coding unit in the order of the standard (A1, B1, B0, A0, B2), each compared as it asks. -/
def mergeSpatial (mo : Int → Int → Option (Nat × Vec)) (x y n : Nat) : List (Nat × Vec) :=
  let a1 := mo (x - 1 : Int) (y + n - 1 : Nat)
  let b1 := mo (x + n - 1 : Nat) (y - 1 : Int)
  let b0 := mo (x + n : Nat) (y - 1 : Int)
  let a0 := mo (x - 1 : Int) (y + n : Nat)
  let b2 := mo (x - 1 : Int) (y - 1 : Int)
  let keep := fun (m : Option (Nat × Vec)) (others : List (Option (Nat × Vec))) => if m.isSome && others.contains m then none else m
  let four := [a1, keep b1 [a1], keep b0 [b1], keep a0 [a1]].filterMap id
  four ++ (if four.length == 4 then [] else [keep b2 [a1, b1]].filterMap id)

/-- merge_idx of a skim coding unit: the lowest candidate that is (0, 0) on refIdxL0 0; a zero candidate follows the spatial ones. -/
def skimMergeIdx (mo : Int → Int → Option (Nat × Vec)) (x y n : Nat) : Nat :=
  (mergeSpatial mo x y n).findIdx (fun m => m == (0, { x := 0, y := 0 }))

/-- SAO is off in every component of a CTU: of a skim one always. -/
def saoIsOff (p : EncPlan) (c : Nat) : Bool := p.skims c || p.saoOff.contains c

/-- How SAO is signalled off (R234). The slice enables SAO where a CTU of it has SAO on. -/
def skimSao (r : Record) (p : EncPlan) (c : Nat) : SaoOff :=
  let same := fun (k : Nat) => sliceName r p k == sliceName r p c
  if (List.range (esCtus r)).all (fun k => !same k || saoIsOff p k) then .notSignalled
  else if c % esCols r != 0 && same (c - 1) && saoIsOff p (c - 1) then .mergeLeft
  else if esCols r ≤ c && same (c - esCols r) && saoIsOff p (c - esCols r) then .mergeUp
  else .typesZero

/-- The middle of three. -/
def median (a b c : Int) : Int := max (min a b) (min (max a b) c)

/-- The motion vector predictor of a 16 × 16 macroblock on reference 0 (H.264, 8.4.1.3): the one neighbour on that reference, else the median. -/
def mbPredictor (a b c : Option (Nat × Vec)) (bcMissing : Bool) : Vec :=
  let v := fun (m : Option (Nat × Vec)) => match m with | some q => q.2 | none => ({ x := 0, y := 0 } : Vec)
  let on := [a, b, c].filter (fun m => m.any (fun q => q.1 == 0))
  if bcMissing && a.isSome then v a
  else match on with
    | [m] => v m
    | _ => { x := median (v a).x (v b).x (v c).x, y := median (v a).y (v b).y (v c).y }

/-- A macroblock of a skim CTU (R235). `there` says that a position is available. -/
def skimMb (references : Nat) (there : Int → Int → Bool) (motion : Int → Int → Option (Nat × Vec)) (x y : Nat) : SkimMb :=
  let mo := fun (i j : Int) => if there i j then motion i j else none
  let left := ((x - 1 : Int), (y : Int))
  let up := ((x : Int), (y - 1 : Int))
  let still := fun (m : Option (Nat × Vec)) => m == some (0, { x := 0, y := 0 })
  let a := mo left.1 left.2
  let b := mo up.1 up.2
  if !there left.1 left.2 || !there up.1 up.2 || still a || still b then .pSkip
  else
    let right := ((x + 16 : Nat) : Int)
    let c := if there right up.2 then mo right up.2 else mo left.1 up.2
    let p := mbPredictor a b c (!there up.1 up.2 && !there right up.2 && !there left.1 up.2)
    .explicit { x := -p.x, y := -p.y } (1 < references) 0

/-- The code of a skim CTU of a picture (R234 to R236). -/
def skimCode (r : Record) (p : EncPlan) (run : List SearchPic) (lead : Option (Record × List SearchPic)) (c : Nat) : SkimCode :=
  let x := 64 * (c % esCols r)
  let y := 64 * (c / esCols r)
  let motion := fun (i j : Int) => motionAt r p run lead i.toNat j.toNat
  let mo := fun (i j : Int) => if reaches r p c i j then motion i j else none
  match esCodec r with
  | 1 => .hevc ((skimUnits r 4 x y 64).map (fun u => (u.1, u.2.1, u.2.2, skimMergeIdx mo u.1 u.2.1 u.2.2))) (skimSao r p c)
  | 2 => .h264 ((List.range 16).filterMap (fun m =>
      let mx := x + 16 * (m % 4)
      let my := y + 16 * (m / 4)
      if esWidth r ≤ mx || esHeight r ≤ my then none else some (skimMb (esReferences r) (reachesMb r p mx my) motion mx my)))
  | _ => .av1 true true 1 true true false false false

/-! Truncated CTUs (R267). -/

/-- Flat fill of a CTU of an IDR picture or key frame: in HEVC an unsplit 64×64 intra coding unit with DC prediction and every cbf 0; in H.264 every
macroblock I_16x16_2_0_0 with DC chroma prediction and mb_qp_delta 0; in AV1 an intra block with DC_PRED, UV_DC_PRED and skip 1. -/
inductive FlatCode where
  | hevc (size : Nat) (lumaDc chromaDc codedFlags : Bool)
  | h264 (predMode codedPattern chromaMode : Nat) (qpDelta : Int)
  | av1 (lumaDc chromaDc skip : Bool)
  deriving DecidableEq, Repr

def flatCode (r : Record) : FlatCode :=
  match esCodec r with
  | 1 => .hevc 64 true true false
  | 2 => .h264 2 0 0 0
  | _ => .av1 true true true

/-- How a truncated CTU is coded. -/
inductive CutCode where
  | copy (code : SkimCode)
  | flat (code : FlatCode)
  deriving DecidableEq, Repr

def cutCode (r : Record) (p : EncPlan) (run : List SearchPic) (lead : Option (Record × List SearchPic)) (c : Nat) : CutCode :=
  if p.picType == 0 then .flat (flatCode r) else .copy (skimCode r p run lead c)

/-! What mode decision may not choose (R215). -/

/-- A block keeps to the clean area: the intra prediction of a CTU inside it reads no column outside. -/
def blockClean (clean : Option (Nat × Nat)) (b : CodedBlock) : Bool :=
  match b.mode, clean with
  | .intra reach, some (edge, _) => edge ≤ b.x || decide (reach < edge)
  | _, _ => true

/-! Gangs (R209, R213). -/

/-- The exchanges of a gang picture: one for each boundary of neighbouring columns (R209). -/
def gangEdges (rows : Nat) : List (Nat × Nat) → Nat → List GangEdge
  | (a, w) :: (b, w') :: more, col =>
    { left := a, right := b, column := 64 * (col + w), rows := rows, scrim := a / 4 != b / 4 } :: gangEdges rows ((b, w') :: more) (col + w)
  | _, _ => []

/-- The column of a gang that holds a CTU, by the boundaries left of it. -/
def columnOf (r : Record) (p : EncPlan) (c : Nat) : Nat := (p.edges.filter (fun e => e.column ≤ 64 * (c % esCols r))).length

/-- A gang's units wait for other columns: HEVC slices that are cut in every column, and AV1 tile groups, which follow one another by rows (R213). -/
def unitsWait (r : Record) (p : EncPlan) : Bool := !p.edges.isEmpty && (esCodec r == 3 || rd r 33 1 != 0)

/-- The CTU rows of a column that are formed once a unit is. -/
def rowsAfter (r : Record) (p : EncPlan) (u : CodedUnit) (done : List Nat) : List Nat :=
  let k := if esCodec r == 3 then 0 else columnOf r p u.lastCtu
  let ends := esCodec r == 3 || u.lastCtu % esCols r + 1 == esCols r || columnOf r p (u.lastCtu + 1) != k
  done.set k (max (done.getD k 0) (u.lastCtu / esCols r + b2n ends))

/-- A member has formed a unit. -/
def EncPlan.form (r : Record) (u : CodedUnit) (p : EncPlan) : EncPlan :=
  { p with formed := p.formed ++ [u], rowsDone := if esCodec r == 3 then p.rowsDone else rowsAfter r p u p.rowsDone }

/-- A member may have formed a unit: of HEVC slice mode 1 both neighbours have finished the row two above it (R210). -/
def mayForm (r : Record) (p : EncPlan) (u : CodedUnit) : Bool :=
  let k := columnOf r p u.firstCtu
  esCodec r == 3 || rd r 33 1 != 1 ||
  (List.range p.rowsDone.length).all (fun n => (n != k + 1 && n + 1 != k) || decide (u.firstCtu / esCols r ≤ p.rowsDone.getD n 0 + 1))

/-- The next unit that is handed on, and the plan without it: of the leftmost column with every column left of it whole, or of AV1 the one for the
next row (R213). -/
def EncPlan.next (r : Record) (p : EncPlan) : Option (CodedUnit × EncPlan) :=
  let u := if esCodec r == 3 then p.formed.find? (fun u => u.firstCtu / esCols r == p.rowsDone.getD 0 0)
    else p.formed.find? (fun u => (List.range (columnOf r p u.firstCtu)).all (fun k => decide (esRows r ≤ p.rowsDone.getD k 0)))
  u.map (fun u => (u, { p with formed := p.formed.erase u, rowsDone := if esCodec r == 3 then rowsAfter r p u p.rowsDone else p.rowsDone }))

/-- Every unit that may be handed on, in bitstream order, and what waits. -/
def EncPlan.release (r : Record) : Nat → EncPlan → List CodedUnit × EncPlan
  | 0, p => ([], p)
  | n + 1, p => match p.next r with
    | none => ([], p)
    | some (u, q) => let t := EncPlan.release r n q; (u :: t.1, t.2)

end Sys2Proof.Machine
end

