-- ==== Sys2Proof/Machine/Encoding.lean ====
section
/-!
DEFINITION. Encoding.lean: the encode engines' schedule (R220, R221, R241), the effective stencil, deferral and credit
(R232 to R254), refresh (R214 to R218), deterministic and twin encoding (R223 to R228), the statistics record (R230), and the
assist data of encode streams (R201, R250, R251, R274 to R276).
-/
namespace Sys2Proof.Machine

/-- The cluster of an encode engine. -/
def encClusterOf (e : Nat) : Nat := e / 4

/-! Gangs (R206, R207). -/

/-- The GANG record in force of a stream. -/
def gangOf (x : Half) (stream : Handle) : Option Record := gangIn x.running stream

/-- The column widths of a gang (R206, R207): as given, or ⌊C / size⌋ with the remainder to the leftmost. -/
def gangWidths (g : Record) (cols : Nat) : List Nat :=
  let n := rd g 16 1
  let given := (List.range n).map (fun i => rd g (24 + 2 * i) 2)
  if given.all (fun w => w == 0) then (List.range n).map (fun i => cols / n + b2n (decide (i < cols % n))) else given

/-- A member of a picture: its engine, its first column and its columns. -/
structure Member where
  engine : Nat
  col0 : Nat
  cols : Nat
  deriving DecidableEq, Repr

/-- The members that code a stream's picture: one, or one per tile column of its gang. -/
def membersOf (x : Half) (r : Record) (e : EncodeSt) (engine : Nat) : List Member :=
  match gangOf x (recHandle r) with
  | none => [{ engine := engine, col0 := 0, cols := esCols r }]
  | some g =>
    let ws := if e.widths.isEmpty then gangWidths g (esCols r) else e.widths
    ws.zipIdx.map (fun p => { engine := e.engines.getD p.2 engine, col0 := total (ws.take p.2), cols := p.1 })

/-- The busy time of each column of a gang by the last picture that was searched: its CTUs coded at full cost (log 89). -/
def columnsBusy (r : Record) (e : EncodeSt) (ws : List Nat) : List Nat :=
  let full := match e.searches.head? with
    | some q => (q.searched ++ q.intra).map (fun c => c % esCols r)
    | none => []
  ws.zipIdx.map (fun p => (full.filter (fun c => decide (total (ws.take p.2) ≤ c) && decide (c < total (ws.take p.2) + p.1))).length)

/-- A boundary moves by one CTU towards the busier column, where both widths stay legal (R207, R211). -/
def moveBoundary (r : Record) (busy : List Nat) (ws : List Nat) (i : Nat) : List Nat :=
  let a := busy.getD i 0
  let b := busy.getD (i + 1) 0
  let from_ := if b < a then i else i + 1
  let to_ := if b < a then i + 1 else i
  if ws.length ≤ i + 1 || a == b || ws.getD from_ 0 ≤ 4 || (esCodec r == 3 && 64 ≤ ws.getD to_ 0) then ws
  else (ws.modify from_ (fun w => w - 1)).modify to_ (fun w => w + 1)

/-- The column widths of a gang from a picture on (R211): at an IDR picture in normal mode firmware may move each boundary; after a take-over it
begins from the widths of the record again. -/
def widthsAt (x : Half) (r : Record) (e : EncodeSt) (idr : Bool) (moved : List Nat) : List Nat :=
  match gangOf x (recHandle r) with
  | none => []
  | some g =>
    if !idr || esDet r then e.widths
    else
      let now_ := if e.widths.isEmpty then gangWidths g (esCols r) else e.widths
      let ws := if e.autoWidths then gangWidths g (esCols r) else now_
      ((List.range ws.length).filter (fun i => moved.contains i)).foldl (moveBoundary r (columnsBusy r e now_)) ws

/-! Credit (R240). -/

/-- Units of credit in one normalised pixel-equivalent of weight 1; a weight of 4/3 takes 4/3 as many. -/
def creditOf (r : Record) (n : Nat) : Int := ((if esHeavy r then 4 else 3) * n * 1000000000 : Nat)

/-- The credit accrued to a time, at most Cmax. -/
def creditRefill (now : Nat) (c : EncCluster) : EncCluster :=
  { c with credit := min c.cmax (c.credit + (3 * c.accrual * (now - c.creditAt) : Nat)), creditAt := now }

/-- The credit changed by an amount, with its lowest value kept (R254). -/
def creditAdd (now : Nat) (d : Int) (c : EncCluster) : EncCluster :=
  let v := min c.cmax (c.credit + d)
  { c with credit := v, lowest := min c.lowest v
           negativeSince := if 0 ≤ v then none else c.negativeSince.orElse (fun _ => some now) }

def updCluster (k : Nat) (f : EncCluster → EncCluster) (x : Half) : Half :=
  { x with obj := { x.obj with clusters := x.obj.clusters.modify k f } }

/-! The effective stencil and full-cost CTUs (R232, R233). -/

/-- The CTU of an 8×8 block of a stream. -/
def ctuOfBlock (r : Record) (b : Nat) : Nat :=
  let bc := esWidth r / 8
  (b / bc / 8) * esCols r + b % bc / 8

/-- The picture's sweep phase, when columns are being refreshed (R214, R217, R218). -/
def sweepPhase (rs : List Record) (r : Record) (e : EncodeSt) (idr sweep : Bool) : Option Nat :=
  let m := sweepLength rs r
  let d := if idr || sweep then 0 else e.k - e.sweepStart
  if esRefresh r == 1 || esRefresh r == 3 then some (d % m)
  else if (e.sweepOnce || sweep) && d ≤ sweepEnd (esCols r) m then some d
  else none

/-- The refresh columns and the edge column of a picture. -/
def sweepColumns (rs : List Record) (r : Record) (phase : Option Nat) : List Nat × Option Nat :=
  match phase with
  | none => ([], none)
  | some p => (refreshColumns (esCols r) (sweepLength rs r) p, edgeColumn (esCols r) (sweepLength rs r) p)

/-- The age of a CTU (R244). -/
def ageOf (e : EncodeSt) (i : Nat) : Nat := ((e.ages.find? (fun a => a.1 == i)).map (fun a => a.2)).getD 0

/-- The stream may defer CTUs (R242). -/
def mayDefer (r : Record) : Bool := esClass r != 0 && !esDet r

/-- Step 3 of R242 for one member: the granted CTUs, the first deferred one and the cluster after the charges. -/
def grantCtus (now : Nat) (r : Record) : List Nat → EncCluster → List Nat → EncCluster × List Nat × Option Nat
  | [], c, got => (c, got, none)
  | i :: is, c, got =>
    let cost := creditOf r 4032
    let ok := cost ≤ c.credit && (esClass r != 2 || c.cmax < 2 * (c.credit - cost))
    if ok then grantCtus now r is (creditAdd now (-cost) c) (got ++ [i]) else (c, got, some i)

/-- The CTUs of a member in raster order, beginning at row ρ (R243). -/
def rasterFrom (r : Record) (m : Member) (rho : Nat) : List Nat :=
  let rows := (List.range (esRows r)).map (fun k => (k + rho) % esRows r)
  rows.flatMap (fun row => (List.range m.cols).map (fun c => row * esCols r + m.col0 + c))

/-- Which CTUs of a picture are full cost and which set ones are deferred. -/
structure CtuPlan where
  fixed : List Nat
  granted : List Nat := []
  deferred : List Nat := []
  rhos : List Nat := []
  aged : Nat := 0
  deriving DecidableEq, Repr

/-- The grants of a picture, member by member (R242, R243). -/
def planCtus (now : Nat) (r : Record) (ms : List Member) (rhos : List Nat) (fixed setCtus : List Nat) (aged : Nat)
    (clusters : List EncCluster) : List EncCluster × CtuPlan :=
  if !mayDefer r then
    (clusters, { fixed := fixed, granted := setCtus.filter (fun i => !fixed.contains i), rhos := rhos, aged := aged })
  else
    ms.zipIdx.foldl (fun (acc : List EncCluster × CtuPlan) p =>
      let m := p.1
      let k := encClusterOf m.engine
      let rho := rhos.getD p.2 0
      let mine := rasterFrom r m rho
      let nfix := (mine.filter (fun i => fixed.contains i)).length
      let base := creditOf r (20000 + 64 * mine.length + 4032 * nfix)
      let c := creditAdd now (-base) (creditRefill now (acc.1.getD k {}))
      let g := grantCtus now r (mine.filter (fun i => setCtus.contains i && !fixed.contains i)) c []
      let late := (mine.filter (fun i => setCtus.contains i && !fixed.contains i)).filter (fun i => !g.2.1.contains i)
      (acc.1.set k g.1,
        { acc.2 with granted := acc.2.granted ++ g.2.1, deferred := acc.2.deferred ++ late
                     rhos := acc.2.rhos ++ [match g.2.2 with | some i => i / esCols r | none => rho] }))
      (clusters, { fixed := fixed, aged := aged })

/-- Surge bookkeeping of a surge picture (R242, R254). -/
def surgePicture (h : HalfId) (k deferred : Nat) (s : State) : State :=
  let now := s.now h
  let c := (s.half h).obj.clusters.getD k {}
  let fresh := match c.lastSurge with | none => true | some t => t + 1000000000 ≤ now
  let s := s.upd h (updCluster k (fun c => { c with
    surgePics := sat32 c.surgePics, deferred := c.deferred + deferred, lastSurge := some now
    surging := true, surgeStart := if fresh then now else c.surgeStart
    surgeNow := (if fresh then 0 else c.surgeNow) + 1, deferNow := (if fresh then 0 else c.deferNow) + deferred }))
  if fresh then event h 0x0427 sevInfo 0 (le 1 k ++ le 8 now) s else s

/-! Assist data (R201, R250, R251, R274 to R276). -/

/-- The assist data held for a picture whose default does not apply. -/
def heldFor (e : EncodeSt) (kind time : Nat) : Option HeldAssist :=
  if e.defaulted.contains (kind, time) then none else e.assists.find? (fun a => a.kind == kind && a.time == time)

/-- The other member of a guarded pair, while the halves can exchange. -/
def twinOf (h : HalfId) (s : State) (r : Record) : Option EncodeSt :=
  if esGuarded r && s.sparWorks then (s.half h.other).obj.encode? (hIndex (BitVec.ofNat 32 (esPartner r))) else none

/-- The assist data of a picture that both members of a guarded pair may use: held on both, or used by the one that is past the picture already
(R81). -/
def pairHeld (h : HalfId) (s : State) (r : Record) (e : EncodeSt) (kind time : Nat) (past : EncodeSt → Bool) : Option HeldAssist :=
  if (twinOf h s r).any (fun q => !past q && (heldFor q kind time).isNone) then none else heldFor e kind time

/-- The default of a picture applies on both halves of a guarded pair (R81, R82). -/
def markDefault (h : HalfId) (r : Record) (kind time : Nat) (s : State) : State :=
  if !esGuarded r then s
  else
    let mark := fun (e : EncodeSt) => { e with defaulted := addNew (kind, time) e.defaulted }
    let s := s.upd h (updEncode (hIndex (recHandle r)) mark)
    if s.sparWorks then s.upd h.other (updEncode (hIndex (BitVec.ofNat 32 (esPartner r))) mark) else s

/-- Keeps assist data of a picture, a newer entry in place of an older (R80). -/
def holdAssist (a : HeldAssist) (e : EncodeSt) : EncodeSt :=
  { e with assists := e.assists.filter (fun b => b.kind != a.kind || b.time != a.time) ++ [a] }

/-- An entry for a stream that is on time joins its picture's data, else it is late; a malformed one is discarded (R80). -/
def takeHeld (h : HalfId) (kind : Nat) (stream : Handle) (a : AssistEntry) (bad : Bool) (p : List Byte) (s : State) : State :=
  let late := fun (cause : Nat) (s : State) => assistLate h kind a.tag.toNat a.handle a.sequence.toNat a.time.toNat cause s
  if bad then late 2 s
  else if a.time.toNat ≤ s.now h then late 1 (markDefault h ((s.half h).record stream) kind a.time.toNat s)
  else s.upd h (updEncode (hIndex stream) (holdAssist
    { kind := kind, time := a.time.toNat, sequence := a.sequence.toNat, tag := a.tag.toNat, payload := p }))

/-- RATE_ASSIST (R275, R276). -/
def execRateAssist (h : HalfId) (a : AssistEntry) (s : State) : Out :=
  .next (runAssist h 0x0B01 fnRate a s (fun p s =>
    let r := (s.half h).record a.handle
    let bad := 1 < afld p 29 1 || afld p 30 2 != 0 || afld p 36 4 != 0 || afld p 52 12 != 0 || afld p 40 8 % 64 != 0 ||
      afld p 48 2 != esCols r || afld p 50 2 != esRows r
    takeHeld h 0x0B01 a.handle a bad p s))

/-- COARSE_MOTION_HINTS (R201). -/
def execCoarseMotionHints (h : HalfId) (a : AssistEntry) (s : State) : Out :=
  .next (runAssist h 0x0B02 fnMotion a s (fun p s =>
    let r := (s.half h).record a.handle
    let bad := afld p 28 4 != 0 || 1 < afld p 44 1 || afld p 45 19 != 0 || afld p 40 2 != esCols r || afld p 42 2 != esRows r
    takeHeld h 0x0B02 a.handle a bad p s))

/-- HOST_STENCIL (R250, R251): for a stream, or for every stream that reads the named surface. -/
def execHostStencil (h : HalfId) (a : AssistEntry) (s : State) : Out :=
  .next (runAssist h 0x0B03 fnStencil a s (fun p s =>
    let x := s.half h
    let targets := if hType a.handle == 5 then [a.handle]
      else (x.obj.encodes.filter (fun e => esSource (x.record (encodeH h e.index)) == a.handle)).map (fun e => encodeH h e.index)
    targets.foldl (fun s t =>
      let r := (s.half h).record t
      let bad := afld p 28 4 != 0 || afld p 32 8 % 64 != 0 || 1 < afld p 44 1 || afld p 45 19 != 0 ||
        afld p 40 2 != esWidth r / 8 || afld p 42 2 != esHeight r / 8
      takeHeld h 0x0B03 t a bad p s) s))

/-- The set blocks of a host bitmap (R173, R250): rows padded to 64 bits. -/
def bitmapBlocks (x : Half) (p : List Byte) (w hgt : Nat) : List Nat :=
  match placedAt x (afld p 24 4 % 0x10000) with
  | none => []
  | some q =>
    let stride := ceilDiv w 64 * 8
    let bytes := devRead (placeAddr q + afld p 32 8) (stride * hgt) x
    (List.range hgt).flatMap (fun y => (List.range w).filterMap (fun c =>
      if ((bytes.getD (y * stride + c / 8) 0).toNat).testBit (c % 8) then some (y * w + c) else none))

/-- The signed QP deltas of a host map (R275), clamped. -/
def mapDeltas (x : Half) (r : Record) (p : List Byte) : List Int :=
  if !((afld p 29 1).testBit 0) then []
  else match placedAt x (afld p 32 4 % 0x10000) with
    | none => []
    | some q =>
      let top : Int := if esCodec r == 3 then 48 else 12
      (devRead (placeAddr q + afld p 40 8) (esCtus r) x).map (fun b => clampInt (-top) top (signed 8 b.toNat))

/-- A tick of a surface-fed stream: its first ready picture of that tick, with the stencil of R249 or the host's. -/
def execEncodeSurfaceTick (h : HalfId) (stream : Nat) (s : State) : Out :=
  .next (
    let x := s.half h
    match x.obj.encode? stream with
    | none => s
    | some e0 =>
      let obj := encodeH h stream
      let touched := pendTouches x obj
      let tOld := esTick x.running (x.record obj) e0.nextTick
      let switch := touched.bind (fun p =>
        if p.armed && (p.takeTime ≤ tOld || (recOf x.runningSlot obj).isNone) then some p else none)
      let t := match switch.bind (fun p => (recOf p.records obj).map (fun r => (p, r))) with
        | some (p, r) => esTick p.records r (firstTickFrom (esAnchor p.records r) (esPeriod p.records r).1 (esPeriod p.records r).2 p.takeTime)
        | none => tOld
      let r0 := (switch.bind (fun p => recOf p.records obj)).getD (x.record obj)
      if !x.alive || x.clk.now < t || removedAt x obj t || hType (esSource r0) != 0x0A then s
      else
        let s := match switch with
          | some p => takeoverCheck h (s.upd h (switchEncode h p (max t p.takeTime) obj))
          | none => s
        let x := s.half h
        let r := x.record obj
        match x.obj.encode? stream with
        | none => s
        | some e =>
          let src := hIndex (esSource r)
          let s := surfaceApply h t src s
          let x := s.half h
          let before := if e.nextTick == e.firstTick then 0 else esTick x.running r (e.nextTick - esDivisor r)
          let applied : List SurfUpdate := match x.obj.surface? src with | some v => v.applied | none => []
          let ups := applied.filter (fun u => before < u.applied && u.applied ≤ t)
          let hosted := modeHost x fnStencil obj || modeHost x fnStencil (esSource r)
          let sz := sourceSize x.running (esSource r)
          let own := (ups.flatMap (fun u => u.rects.flatMap (unitsOf 8 (sz.1 / 8)))).foldl (fun acc b => addNew b acc) []
          let blocks := scaleBlocks sz.1 sz.2 (esWidth r) (esHeight r) own
          let data := pairHeld h s r e 0x0B03 t (fun q => decide (e.nextTick < q.nextTick))
          let s := if hosted && data.isNone then markDefault h r 0x0B03 t s else s
          let buffer := match x.obj.surface? src with | some v => v.current | none => 0
          let pic : ReadyPic := match hosted, data with
            | true, some a =>
              { tickTime := t, buffer := buffer, allChanged := (afld a.payload 44 1).testBit 0
                blocks := if (afld a.payload 44 1).testBit 0 then [] else bitmapBlocks x a.payload (esWidth r / 8) (esHeight r / 8) }
            | _, _ => { tickTime := t, buffer := buffer, blocks := blocks, allChanged := ups.any (fun u => u.allChanged) }
          let s := if hosted && data.isNone && e.run == .running then
              assistLate h 0x0B03 0 obj e.k t 1 (s.upd h (updEncode stream (fun e => { e with
                counts := { e.counts with assistDefaults := sat32 e.counts.assistDefaults } }))) else s
          s.upd h (fun x => surfaceTrim h src (updEncode stream (fun e =>
            if !(e.run == .running || (e.run == .draining && decide (t < e.drainAt))) then { e with nextTick := e.nextTick + esDivisor r }
            else { e with ready := e.ready ++ [{ pic with k := pictureAt e (esDivisor r) e.nextTick, allChanged := pic.allChanged || e.pendingAll }]
                          pendingAll := false, nextTick := e.nextTick + esDivisor r }) x)))

/-! Choosing a picture (R220, R241). -/

/-- The engine may take pictures of a stream: its own, or for TIMED and BULK any engine of the cluster; an AV1 picture of those
classes only where no tier-1 context is held (R220, R241). -/
def encMayTake (h : HalfId) (x : Half) (engine : Nat) (e : EncodeSt) : Bool :=
  let r := x.record (encodeH h e.index)
  let holdsTier1 := x.obj.encodes.any (fun k => k.engines.contains engine && esTier1 (x.record (encodeH h k.index)))
  if 1 < e.engines.length then e.engines.head? == some engine
  else if esTier1 r then e.engines.contains engine
  else e.engines.any (fun k => encClusterOf k == encClusterOf engine) && !(esCodec r == 3 && holdsTier1)

/-- Every engine of the picture is free. -/
def encFree (x : Half) (es : List Nat) : Bool :=
  es.all (fun k => let g := x.enc.getD k { halted := true }; islandOn x k && g.current.isNone && !g.halted && g.flags.inService && !g.flags.quiescing && g.toRetire == 0)

/-- A picture that another engine of the cluster has suspended may resume here (R220, R241): its context lies in DRAM. -/
def encResumes (h : HalfId) (x : Half) (engine : Nat) (e : EncodeSt) : Bool :=
  e.engines.length ≤ 1 && encMayTake h x engine e &&
  (List.range 8).any (fun k => encClusterOf k == encClusterOf engine && (x.enc.getD k {}).suspended.contains e.index)

/-- Rung 0 of the ladder of a stream that is another of its rungs (R202). -/
def rungZero (x : Half) (stream : Handle) : Option Handle :=
  ((ofType x.running 6).find? (fun l => (List.range (rd l 16 1)).any (fun i => rd l (20 + 4 * i) 4 == stream.toNat))).bind (fun l =>
    if rd l 20 4 == stream.toNat then none else some (BitVec.ofNat 32 (rd l 20 4)))

/-- What rung 0 has written to the cluster cache for a picture (R204). -/
def rungVectors (h : HalfId) (x : Half) (stream : Handle) (tick : Nat) : Option (List SearchPic) :=
  (rungZero x stream).bind (fun q =>
    ((x.obj.clusters.flatMap (fun c => c.cache)).find? (fun v => encodeH h v.1 == q && v.2.1 == tick)).map (fun v => v.2.2))

/-- The CTUs of rung 0 that meet the footprint of a rung's CTU (R253). -/
def rungFootprint (r z : Record) (c : Nat) : List Nat :=
  let x0 := 64 * (c % esCols r) * esWidth z / esWidth r
  let y0 := 64 * (c / esCols r) * esHeight z / esHeight r
  let x1 := ceilDiv (min (64 * (c % esCols r) + 64) (esWidth r) * esWidth z) (esWidth r)
  let y1 := ceilDiv (min (64 * (c / esCols r) + 64) (esHeight r) * esHeight z) (esHeight r)
  (List.range (esCtus z)).filter (fun k =>
    let x := 64 * (k % esCols z)
    let y := 64 * (k / esCols z)
    x < x1 && x0 < x + 64 && y < y1 && y0 < y + 64)

/-- The searches of rung 0 that a rung takes its centres from: its own CTUs, and those that the rung's granted CTUs ask for (R204, R253). -/
def rungLead (h : HalfId) (x : Half) (stream : Handle) (tick : Nat) (granted : List Nat) : List SearchPic :=
  match rungZero x stream, rungVectors h x stream tick with
  | some z, some (p :: older) =>
    { p with searched := unionNew p.searched (granted.flatMap (rungFootprint (x.record stream) (x.record z))) } :: older
  | _, _ => []

/-- A rung with a changed CTU waits until rung 0, while it runs, has searched the picture (R204). The search of a picture is done when its engine has
started it (log 89). -/
def rungWaits (h : HalfId) (x : Half) (e : EncodeSt) (pic : ReadyPic) : Bool :=
  match (rungZero x (encodeH h e.index)).bind (fun q => x.obj.encode? (hIndex q)) with
  | none => false
  | some z =>
    (z.run == .running || z.run == .draining) && (pic.allChanged || !pic.blocks.isEmpty || !e.carried.isEmpty) &&
    !(x.obj.clusters.any (fun c => c.cache.any (fun v => v.1 == z.index && pic.tickTime ≤ v.2.1)))

/-- An engine resumes a suspended picture; a picture of one member leaves the list of the engine that suspended it. -/
def encResume (engine i : Nat) (x : Half) : Half :=
  let one := (x.obj.encode? i).all (fun e => e.engines.length ≤ 1)
  let drop := fun (g : EngineSt) => { g with suspended := g.suspended.filter (fun k => k != i) }
  { x with enc := (if one then x.enc.map drop else x.enc).modify engine (fun g => { drop g with
      current := some i, seq := seqStart 0 true g.seq }) }

/-- The engines of a picture reserve the slot of their next unit's length word in the crossing to the packet engine (R25). -/
def unitsBegin (es : List Nat) (x : Half) : Half := es.foldl (fun x k => packetBegins k 30 x) x

/-- The candidates of a tier, with the picture time of each. -/
def encCandidates (h : HalfId) (x : Half) (engine tier : Nat) : List (Nat × Nat × Bool) :=
  let g := x.enc.getD engine {}
  let elsewhere := fun (i : Nat) => (List.range 8).any (fun k => k != engine && ((x.enc.getD k {}).suspended.contains i || (x.enc.getD k {}).current == some i))
  (sortBy (fun (a b : EncodeSt) => a.index < b.index) x.obj.encodes).filterMap (fun e =>
    let r := x.record (encodeH h e.index)
    let t := if esTier1 r then 1 else if esClass r == 1 then 2 else 3
    if t != tier || r.isEmpty || !(e.run == .running || e.run == .draining) then none
    else if g.suspended.contains e.index || encResumes h x engine e then (e.plan.map (fun p => (p.tickTime, e.index, true)))
    else if e.plan.isSome || elsewhere e.index || !encMayTake h x engine e || !encFree x (if 1 < e.engines.length then e.engines else [engine]) then none
    else (e.ready.head?).bind (fun p => if rungWaits h x e p then none else some (p.tickTime, e.index, false)))

/-- The engine's choice (R220): earliest picture time, lower handle; BULK round robin. -/
def encChoose (h : HalfId) (x : Half) (engine : Nat) : Option (Nat × Bool) :=
  let first := fun (l : List (Nat × Nat × Bool)) =>
    ((sortBy (fun (a b : Nat × Nat × Bool) => a.1 < b.1) l).head?).map (fun c => (c.2.1, c.2.2))
  match first (encCandidates h x engine 1) with
  | some c => some c
  | none =>
    match first (encCandidates h x engine 2) with
    | some c => some c
    | none =>
      let bulk := encCandidates h x engine 3
      let n := (x.enc.getD engine {}).nextBulk
      ((bulk.find? (fun c => n ≤ c.2.1)).or bulk.head?).map (fun c => (c.2.1, c.2.2))

/-! The picture. -/

/-- The IDR cause of a picture: 0 none, 1 command, 2 feedback, 3 IDR period, 4 start, divergence or rate change (R217, R218). -/
def idrCause (r : Record) (e : EncodeSt) (tick : Nat) (rateIdr : Bool) : Nat :=
  let due := e.refreshWait.filter (fun w => w.tick ≤ tick && w.kind == 1)
  if e.firstPicture || rateIdr then 4
  else match due.head? with
    | some w => w.cause
    | none =>
      let periodic := esRefresh r == 2 || esRefresh r == 3
      match e.lastIdr with
      | some t => if periodic && t + esIdrPeriod r * 100000000 ≤ tick then 3 else 0
      | none => 4

/-- The rate state as at stream start, with the values of R269 in force. -/
def rateRestart (r : Record) (q : RateSt) : RateSt :=
  let full := (esFullness r * (q.bufferKbit * 1000) / 100 : Nat)
  { q with fullness := full, target := full, debt := 0, xIntra := none, xInter := none, history := [] }

/-- Rate changes that fall due at a picture apply in order, those that the follower received first (R576); RATE_CHANGED reports each (R270, R277). -/
def rateDue (h : HalfId) (i tick : Nat) (s : State) : State × Bool :=
  match (s.half h).obj.encode? i with
  | none => (s, false)
  | some e =>
    let r := (s.half h).record (encodeH h i)
    let own := e.rateWait.filter (fun w => w.tick ≤ tick && !w.fwd)
    let far := e.rateWait.filter (fun w => w.tick ≤ tick && w.fwd)
    let due := if (s.half h).bri.lead then far ++ own else own ++ far
    due.foldl (fun (acc : State × Bool) w =>
      match (acc.1.half h).obj.encode? i with
      | none => acc
      | some e =>
        let new := rateApply r w.payload e.rate
        let idr := !w.superseded && rateForcesIdr r e.rate new
        (event h 0x042A sevInfo (encodeH h i)
          (le 4 e.k ++ le 8 tick ++ le 4 (b2n idr) ++ le 4 (b2n w.superseded) ++ le 4 new.bitRate ++ le 4 new.peakRate ++ le 4 new.bufferKbit)
          (acc.1.upd h (updEncode i (fun e => { e with
            rate := if w.superseded then e.rate else new, rateWait := e.rateWait.filter (fun q => q != w) }))), acc.2 || idr))
      (s, false)

/-- The walks of a picture's members (R261), with the joined counts. -/
structure PicWalk where
  bits : Nat := 0
  full : Nat := 0
  skim : Nat := 0
  fullBits : Nat := 0
  qpSum : Nat := 0
  ballast : Bool := false
  exhausted : Bool := false
  truncAt : Option Nat := none
  truncN : Nat := 0
  truncated : List Nat := []
  skimmed : List Nat := []
  deriving DecidableEq, Repr

/-- The share of a quantity that a member's complexity holds in the picture's (R261); without full-cost CTUs, its CTUs (log 89). -/
def shareOf (v : Int) (c whole n ctus : Nat) : Int := if whole == 0 then v * (n : Int) / (ctus : Int) else v * (c : Int) / (whole : Int)

/-- Codes a picture: each member walks its column with its share of T_k, β_k and U_k (R261 to R268). Its limit is its share of U_k with κ for each
of its CTUs and its header bits, which together make F_k. -/
def codePicture (r : Record) (q : RateSt) (f : EncodeFacts) (intra : Bool) (budget beta cap : Int) (qp0 : Nat) (flat : Bool)
    (ms : List Member) (ctus : List CodeCtu) : PicWalk :=
  let whole := total ((ctus.filter (fun c => c.full)).map (fun c => c.complexity))
  ms.zipIdx.foldl (fun (acc : PicWalk) p =>
    let m := p.1
    let mine := ctus.filter (fun c => m.col0 ≤ c.index % esCols r && c.index % esCols r < m.col0 + m.cols)
    let c := total ((mine.filter (fun c => c.full)).map (fun c => c.complexity))
    let one := ms.length == 1
    let part := fun (v : Int) => if one then v else shareOf v c whole mine.length ctus.length
    let header := if p.2 == 0 then f.headerBits else 0
    let lim := if one then q.fullness else part cap + (mine.length * kappa r intra + header : Nat)
    let beta := if q.mode == 3 then 0 else part beta
    let w := walk
      { intra := intra, mode := q.mode, budget := part budget, ballast := if esRows r ≤ 2 then 0 else beta
        beta := beta, hevc := esCodec r == 1, openEnded := rd r 33 1 == 3
        limit := lim, header := header, sigma := skimBits r, kappa := kappa r intra, copyBits := f.skipCopyBits, rows := esRows r
        qp0 := qp0, flat := flat, floor := q.qpFloor, ceiling := q.qpCeiling, unit := qpUnit r } mine
    let tail := match w.truncAt with | some k => (mine.map (fun c => c.index)).filter (fun i => k ≤ i) | none => []
    { bits := acc.bits + w.spent.toNat, full := acc.full + w.full, skim := acc.skim + w.skim
      fullBits := acc.fullBits + w.fullBits, qpSum := acc.qpSum + w.qpSum
      ballast := acc.ballast || (q.mode != 3 && decide (w.lastPlan < w.lastTwo)), exhausted := acc.exhausted || w.exhausted
      truncAt := acc.truncAt.or w.truncAt, truncN := acc.truncN + w.truncN, truncated := acc.truncated ++ tail
      skimmed := acc.skimmed }) {}

/-- The source picture that a stream codes (R196): the tiles of a canvas picture, or the surface's buffer. -/
def pictureSource (h : HalfId) (x : Half) (r : Record) (pic : ReadyPic) : PicSource :=
  let src := esSource r
  let i := hIndex src
  if hType src == 8 then
    let c := x.record src
    match x.obj.canvas? i with
    | none => { format := cvFormat c }
    | some v =>
      let table := match (v.held ++ v.latest.toList).find? (fun p => p.seq == pic.canvasSeq) with | some p => p.table | none => []
      { format := cvFormat c, cols := cvCols c, table := table, slots := v.slots.filter (fun q => table.contains q.1) }
  else
    let c := x.record src
    let f : PicFormat := { width := rd c 18 2, height := rd c 20 2, depth := sfDepth (rd c 16 1), chroma := sfChroma (rd c 16 1) }
    match surfaceBase h x i pic.buffer with
    | none => { format := f }
    | some a =>
      let n := rd c 40 4
      { format := f, cols := ceilDiv f.width 64
        slots := [(0, .linear f (rd c 24 4) ((fillsEnd a n x).dram.data.filter (fun m => a ≤ m.1 && m.1 < a + n)) a)] }

/-- The hint field of a picture: two vectors for each CTU (R201). -/
def hintField (x : Half) (r : Record) (p : List Byte) : List (Vec × Vec) :=
  match placedAt x (afld p 24 4 % 0x10000) with
  | none => []
  | some q =>
    let b := devRead (placeAddr q + afld p 32 8) (8 * esCtus r) x
    (List.range (esCtus r)).map (fun c =>
      let v := fun (o : Nat) => ({ x := signed 16 (rd b (8 * c + o) 2), y := signed 16 (rd b (8 * c + o + 2) 2) } : Vec)
      (v 0, v 4))

/-- The edges of the clean areas of a picture and of its reference, in luma columns, while a sweep runs (R215). -/
def cleanEdges (rs : List Record) (r : Record) (idr : Bool) (phase : Option Nat) : Option (Nat × Nat) :=
  let m := sweepLength rs r
  let upTo := fun (n : Nat) => min (esWidth r) (64 * ((List.range (esCols r)).filter (fun c => columnPhase (esCols r) m c < n)).length)
  match phase with
  | some p => if idr || sweepEnd (esCols r) m < p then none else some (upTo (p + 1), upTo p)
  | none => none

/-- What a picture of a stream does to the state when its engine starts it (R191 to R193, R198, R204, R208, R209, R232 to R268). What R215 does not let an
engine choose changes nothing. -/
def startPicture (h : HalfId) (engine i : Nat) (f : EncodeFacts) (s0 : State) : State :=
  match (s0.half h).obj.encode? i with
  | none => s0
  | some e0 =>
    match e0.ready.head? with
    | none => s0
    | some pic =>
      let s := s0
      let now := s.now h
      let obj := encodeH h i
      let tick := pic.tickTime
      let s := if e0.restartAt.any (fun t => t ≤ tick) then
          s.upd h (fun x => updEncode i (fun e => { e with
            firstPicture := true, restartAt := none, rate := rateStart (x.record obj), twinUsable := true, ownCrcs := []
            partnerCrcs := [] }) x) else s
      let s := if e0.restarted then event h 0x0425 sevInfo obj (le 4 2 ++ le 8 tick) s else s
      let s := s.upd h (fun x => updEncode i (fun e => { e with
        k := pic.k, freshRates := false, restarted := false
        rate := if e.freshRates then rateRestart (x.record obj) e.rate else e.rate }) x)
      let q0 := rateDue h i tick s
      let s := q0.1
      let x := s.half h
      let rs := x.running
      let r := x.record obj
      let e := (x.obj.encode? i).getD e0
      let period := (esPicPeriod rs r).1 / (esPicPeriod rs r).2
      let behind := !esDet r && (e.lateWaiting || tick + period ≤ now)
      -- A picture that starts the stream is an IDR picture even when it is late.
      let repeated := behind && !e.firstPicture
      let cause := if repeated then 0 else idrCause r e tick q0.2
      let idr := cause != 0
      let due := e.refreshWait.filter (fun w => w.tick ≤ tick && !repeated)
      let sweep := due.any (fun w => w.kind == 2)
      let phase := sweepPhase rs r e idr sweep
      let cols := sweepColumns rs r phase
      let ctus := List.range (esCtus r)
      let whole := pic.allChanged
      let blocks := unionNew pic.blocks e.carried
      let setCtus := if whole then ctus else (blocks.map (ctuOfBlock r)).foldl (fun acc c => addNew c acc) []
      let inCol := fun (c : Nat) => cols.1.contains (c % esCols r) || cols.2 == some (c % esCols r)
      let old := ctus.filter (fun c => 8 ≤ ageOf e c)
      let fixed := if repeated && !idr then [] else ctus.filter (fun c => idr || e.firstPicture || inCol c || old.contains c)
      let ws := widthsAt x r e idr f.moved
      let ms := membersOf x r { e with widths := ws } engine
      let gone := fun (m : Nat) => old.filter (fun c => m ≤ c)
      let pl := if repeated && !idr then (x.obj.clusters, { fixed := [], deferred := setCtus, rhos := e.rhos : CtuPlan })
        else planCtus now r ms e.rhos fixed setCtus (gone 0).length x.obj.clusters
      let plan := pl.2
      let fullSet := plan.fixed ++ plan.granted
      let intraCtu := fun (c : Nat) => idr || inCol c
      let host := modeHost x fnRate obj
      let past := fun (q : EncodeSt) => q.plan.any (fun p => tick ≤ p.tickTime) || (q.lastCoded.isSome && decide (tick ≤ q.lastTime))
      let data := if host then pairHeld h s r e 0x0B01 tick past else none
      let hints := if modeHost x fnMotion obj then pairHeld h s r e 0x0B02 tick past else none
      let motionMissing := modeHost x fnMotion obj && hints.isNone
      let clean := cleanEdges rs r idr phase
      let searched := fullSet.filter (fun c => !intraCtu c)
      let sp : SearchPic :=
        { k := e.k, tick := tick, source := pictureSource h x r pic, refs := e.refs.take (esReferences r), searched := searched
          intra := ctus.filter intraCtu, blocks := f.blocks
          hints := match hints with | some a => hintField x r a.payload | none => []
          hintUse := hints.map (fun a => afld a.payload 44 1), clean := clean, narrow := f.fallback && !esDet r }
      let lead := rungLead h x obj tick fullSet
      let weight := fun (c : Nat) => match rungZero x obj, lead with
        | some z, _ :: _ => rungComplexity r (x.record z) lead (rungFootprint r (x.record z) c)
        | _, _ => ctuComplexity r (sp :: e.searches) c
      let deltas := match data with | some a => mapDeltas x r a.payload | none => []
      let cs := ctus.map (fun c => ({
        index := c, row := c / esCols r, full := fullSet.contains c, fixed := inCol c || old.contains c
        changed := setCtus.contains c
        complexity := if fullSet.contains c then weight c else 0
        bits := f.bits.getD c 0, delta := deltas.getD c 0
        slice := (sliceOf r c, (f.further.filter (fun q => q.1 ≤ c)).length)
        opens := ((f.further.find? (fun q => q.1 == c)).map (fun q => q.2)).getD 0 } : CodeCtu))
      let ck := total (cs.map (fun c => c.complexity))
      let skims := ctus.length - fullSet.length
      let bi : BudgetIn := { k := e.k, key := idr, header := f.headerBits, skims := skims, ctus := ctus.length
                             complexity := ck, anyFull := !fullSet.isEmpty }
      let q := e.rate
      let cap := budgetCap r q bi
      let own := budgetOf rs r q bi
      let asked := match data with | some a => afld a.payload 24 4 | none => 0
      let t := if asked == 0 || q.mode == 3 then own
        else if q.mode == 2 then min (asked : Int) cap
        else clampBudget asked (max (arrival rs r q e.k / 4) (f.headerBits + skimBits r * skims)) cap
      let beta := t * (q.ballast : Int) / 1000
      let fit := t - (if esRows r ≤ 2 then 0 else beta) - (f.headerBits : Int) - (skimBits r * skims : Nat)
      let x1 := if idr then q.xIntra else q.xInter
      let qk := pictureQp r q x1 ck fit
      let under := match x1 with | none => true | some v => decide ((predicted r v ck q.quality : Int) ≤ fit)
      let flat := q.mode == 3 || (q.mode == 2 && under)
      let base := match data with | some a => if afld a.payload 28 1 == 0xFF || q.mode == 3 then none else some (afld a.payload 28 1) | none => none
      let qp := if flat then q.quality else if q.mode == 2 then max q.quality (base.getD qk) else base.getD qk
      let w := codePicture r q f idr t beta cap qp flat ms cs
      let keptFull := fun (c : Nat) => fullSet.contains c && !w.truncated.contains c
      let carried := if whole then
          (List.range (esWidth r / 8 * (esHeight r / 8))).filter (fun b => !keptFull (ctuOfBlock r b))
        else
          let flat := if idr then (List.range (esWidth r / 8 * (esHeight r / 8))).filter (fun b => w.truncated.contains (ctuOfBlock r b)) else []
          unionNew (blocks.filter (fun b => !keptFull (ctuOfBlock r b))) flat
      let carriedCtus := (carried.map (ctuOfBlock r)).foldl (fun acc c => addNew c acc) []
      let ages := carriedCtus.map (fun c => (c, ageOf e c + 1))
      let mean := if w.full == 0 then qp else (2 * w.qpSum + w.full) / (2 * w.full)
      let deferredN := plan.deferred.length
      let flags := packBits [w.truncAt.isSome, behind, repeated, (host && data.isNone) || motionMissing, w.ballast, w.exhausted, pic.cue,
        f.fallback && !esDet r]
      let starts := phase == some 0 && !repeated
      let columns := if ms.length < 2 then [] else ms.map (fun m => m.cols)
      let searches := if searched.isEmpty then [] else sp :: e.searches
      let p : EncPlan :=
        { tickTime := tick, canvasSeq := pic.canvasSeq, budget := if q.mode == 3 then 0 else t, bits := w.bits, full := w.full, skim := w.skim
          deferred := carriedCtus.length, meanQp := mean
          refresh := (ctus.filter (fun c => cols.1.contains (c % esCols r) && keptFull c)).length
          picType := if idr then 0 else if phase == some 0 && !repeated then 2 else 1, slices := f.slices, flags := flags, stalls := ms.zipIdx.filterMap (fun m => if f.stalls.getD m.2 0 == 0 || ms.length < 2 then none else some (m.1.engine, f.stalls.getD m.2 0))
          crc := f.crc, fullBits := w.fullBits, complexity := ck, header := f.headerBits, rhos := plan.rhos, carried := carried
          ages := ages, aged := (gone 0).length, truncAt := w.truncAt.getD 0, truncN := w.truncN
          token := s.free, heads := headUnits rs r q columns (idr || starts) (if starts then some (sweepEnd (esCols r) (sweepLength rs r)) else none)
          tails := tailUnits r, fullCtus := ctus.filter keptFull, cutCtus := w.truncated, refreshCols := cols.1, edgeCol := cols.2
          slicing := f.further.map (fun q => q.1), saoOff := f.saoOff
          frame := nextFrame e.frame idr
          search := if searched.isEmpty then none else some sp, lead := lead
          edges := gangEdges (esRows r) (ms.map (fun m => (m.engine, m.cols))) 0, rowsDone := ms.map (fun _ => 0) }
      if !f.blocks.all (blockClean clean) then s0 else
      let s := s.tick1.upd h (fun x =>
        let mark := fun (g : EngineSt) => { g with current := some i, seq := seqStart 0 false g.seq, nextBulk := if esClass r == 2 then i + 1 else g.nextBulk }
        let share := fun (c : EncCluster) => { c with cache := c.cache.filter (fun v => v.1 != i) ++ [(i, tick, sp :: e.searches)] }
        let leads := (ofType rs 6).any (fun l => rd l 20 4 == obj.toNat)
        let x := { x with obj := { x.obj with clusters := if leads then pl.1.modify (encClusterOf engine) share else pl.1 }
                          enc := (ms.map (fun m => m.engine)).foldl (fun gs k => gs.modify k mark) x.enc }
        let x := unitsBegin (ms.map (fun m => m.engine)) x
        updEncode i (fun e => { e with
          searches := searches, widths := ws, autoWidths := e.autoWidths && !idr
          ready := e.ready.drop 1, plan := some p, lateWaiting := false, firstPicture := e.firstPicture && !idr
          refreshWait := e.refreshWait.filter (fun w => !due.contains w)
          lastIdr := if idr then some tick else e.lastIdr
          sweepStart := if idr || sweep then e.k else e.sweepStart, sweepOnce := if sweep then true else if idr then false else e.sweepOnce
          assists := e.assists.filter (fun a => tick < a.time), defaulted := e.defaulted.filter (fun d => tick < d.2) }) x)
      let s := if idr && cause != 4 then event h 0x0422 sevInfo obj (le 4 cause ++ le 4 e.k ++ le 8 tick) s else s
      let s := (due.filter (fun w => w.kind == 2)).foldl (fun s w =>
        event h 0x0422 sevInfo obj (le 4 w.cause ++ le 4 e.k ++ le 8 tick) s) s
      let s := if host && data.isNone then markDefault h r 0x0B01 tick s else s
      let s := if motionMissing then markDefault h r 0x0B02 tick s else s
      let s := if host && data.isNone then assistLate h 0x0B01 0 obj e.k tick 1 s else s
      let s := if motionMissing then assistLate h 0x0B02 0 obj e.k tick 1 s else s
      if mayDefer r && !repeated && deferredN != 0 then surgePicture h (encClusterOf engine) deferredN s else s

/-- What a picture under way holds (R191, R198, R234 to R236): the vector of a retained partition, in quarter samples, the code of a CTU coded as skim, and
the tools in force. -/
def planLead (h : HalfId) (x : Half) (i : Nat) (p : EncPlan) : Option (Record × List SearchPic) :=
  if p.lead.isEmpty then none else (rungZero x (encodeH h i)).map (fun z => (x.record z, p.lead))

def pictureVector (h : HalfId) (x : Half) (i : Nat) (b : CodedBlock) : Option Vec :=
  match x.obj.encode? i, b.mode with
  | some e, .inter k cands => e.plan.map (fun p => finalVector (x.record (encodeH h i)) e.searches (planLead h x i p) b k cands)
  | _, _ => none

def pictureSkim (h : HalfId) (x : Half) (i c : Nat) : Option SkimCode :=
  match x.obj.encode? i with
  | some e => (e.plan.filter (fun p => p.skims c)).map (fun p => skimCode (x.record (encodeH h i)) p e.searches (planLead h x i p) c)
  | none => none

def pictureCut (h : HalfId) (x : Half) (i c : Nat) : Option CutCode :=
  match x.obj.encode? i with
  | some e => (e.plan.filter (fun p => p.cutCtus.contains c)).map (fun p => cutCode (x.record (encodeH h i)) p e.searches (planLead h x i p) c)
  | none => none

def pictureTools (h : HalfId) (x : Half) (i : Nat) : Option Tools :=
  (x.obj.encode? i).map (fun e =>
    let r := x.record (encodeH h i)
    let ms := membersOf x r e 0
    toolsOf r (if ms.length < 2 then [] else ms.map (fun m => m.cols)))

/-- ENCODE_PICTURE_START (R220, R221, R242, R258): the engine takes or resumes its next picture. -/
def execEncodePictureStart (h : HalfId) (engine : Nat) (f : EncodeFacts) (s : State) : Out :=
  .next (
    let x := s.half h
    let g := x.enc.getD engine { halted := true }
    if !x.alive || !islandOn x engine || g.halted || g.toRetire != 0 || !g.flags.inService || g.current.isSome then s
    else match encChoose h x engine with
      | none => s
      | some (i, true) => s.upd h (fun x => unitsBegin [engine] (encResume engine i x))
      | some (i, false) => startPicture h engine i f s)

/-! The end of a picture. -/

/-- The statistics record (R230); `fullness` is what the model holds once the picture is removed, before the next arrival. -/
def statsBytes (obj : Handle) (k now : Nat) (p : EncPlan) (fullness : Int) (late : Bool) : List Byte :=
  pad 64 (le 4 obj.toNat ++ le 4 k ++ le 8 p.tickTime ++ le 8 now ++ le 4 (p.bits + p.filler) ++ le 4 (unsigned 32 p.budget) ++
    le 4 (unsigned 32 fullness) ++ le 2 p.full ++ le 2 p.skim ++ le 2 p.deferred ++ le 2 p.refresh ++ le 1 p.meanQp ++
    le 1 p.picType ++ le 1 p.slices ++ le 1 (p.flags ||| 2 * b2n late) ++ le 4 (total (p.stalls.map (fun q => q.2))) ++ le 4 p.crc.toNat)

/-- The full-cost and the actual pixel-equivalents of a picture (R219, R237). -/
def fullCost (r : Record) : Nat := esCtus r * 4096 + 20000
def actualCost (p : EncPlan) : Nat := 20000 + 4096 * p.full + 64 * p.skim

/-- The rate offer for the next picture (R274). The header bits of the next picture stand in those of the last. -/
def rateOffer (h : HalfId) (i : Nat) (p : EncPlan) (s : State) : State :=
  let x := s.half h
  let obj := encodeH h i
  match x.obj.encode? i with
  | none => s
  | some e =>
    if !modeHost x fnRate obj || e.run != .running then s
    else
      let rs := x.running
      let r := x.record obj
      let tick := esTick rs r e.nextTick
      let tick := match e.ready.head? with | some q => q.tickTime | none => tick
      let idr := idrCause r e tick false != 0
      let bi : BudgetIn := { k := e.k, key := idr, header := p.header, skims := 0, ctus := esCtus r, complexity := 0, anyFull := false }
      let phase := sweepPhase rs r e idr false
      asrRequest h
        { kind := 0x0B01, tag := 0, handle := obj, sequence := e.k, time := tick
          payload := le 8 (unsigned 64 e.rate.fullness) ++ le 4 (arrival rs r e.rate e.k) ++ le 4 (unsigned 32 (budgetCap r e.rate bi)) ++
            le 4 (p.bits + p.filler) ++ le 4 p.complexity ++ le 1 p.meanQp ++ le 1 (if idr then 0 else if phase == some 0 then 2 else 1) ++
            le 2 0 ++ le 4 (unsigned 32 (budgetOf rs r e.rate bi)) } tick s

/-- A twin restart on this half (R228): at the first picture whose tick is at or after a time, an IDR picture with the rate state of the
record; the copy is usable again at that picture. Causes of ENCODE_RESTARTED: 1 divergence, 2 RESTART, 3 rejoin. -/
def twinRestartFor (h : HalfId) (i base cause : Nat) (s : State) : State :=
  let x := s.half h
  let obj := encodeH h i
  match x.obj.encode? i with
  | none => s
  | some e =>
    let r := x.record obj
    let t := esTick x.running r (max e.nextTick (firstTickFrom (esAnchor x.running r) (esPeriod x.running r).1 (esPeriod x.running r).2 base))
    event h 0x0425 sevInfo obj (le 4 cause ++ le 8 t)
      (s.upd h (updEncode i (fun e => { e with
        restartAt := some t
        counts := { e.counts with twinRestarts := sat32 e.counts.twinRestarts } })))

def twinRestartAt (h : HalfId) (i base : Nat) (s : State) : State := twinRestartFor h i base 1 s

/-- A twin restart 1 ms after its detection (R228). -/
def twinRestart (h : HalfId) (i : Nat) (s : State) : State := twinRestartAt h i (s.now h + 1000000) s

/-- The CRCs of a picture of both halves meet (R228). -/
def twinCompare (h : HalfId) (i : Nat) (k own other : W32) (s : State) : State :=
  let s := s.upd h (updEncode i (fun e => { e with
    ownCrcs := e.ownCrcs.filter (fun p => p.1 != k), partnerCrcs := e.partnerCrcs.filter (fun p => p.1 != k) }))
  if own == other then s
  else
    let s := event h 0x0424 sevAlarm (encodeH h i) (le 4 k.toNat ++ le 4 own.toNat ++ le 4 other.toNat)
      (s.upd h (updEncode i (fun e => { e with twinUsable := false })))
    twinRestart h i s

/-- TWIN_CRC_EXCHANGE (R228). -/
def execTwinCrcExchange (h : HalfId) (stream : Nat) (picture crc : W32) (s : State) : Out :=
  .next (match (s.half h).obj.encode? stream with
    | none => s
    | some e =>
      if !s.sparWorks || !esGuarded ((s.half h).record (encodeH h stream)) then s
      else match e.ownCrcs.find? (fun p => p.1 == picture) with
        | some p => twinCompare h stream picture p.2 crc s
        | none => s.upd h (updEncode stream (fun e => { e with partnerCrcs := e.partnerCrcs ++ [(picture, crc)] })))

/-- The rate state after a coded picture. -/
def rateAfter (rs : List Record) (r : Record) (e : EncodeSt) (p : EncPlan) : RateSt × Nat :=
  let m := modelAdvance rs r e.rate e.k p.bits
  let q := if p.full == 0 then m.1 else coefficients r m.1 (p.picType == 0) p.fullBits p.meanQp p.complexity
  let q := if p.full != 0 && p.picType != 0 then
      { q with history := (q.history ++ [p.complexity]).drop (q.history.length + 1 - 60) } else q
  (q, m.2)

/-- GANG_STALL for each member that stalled during the picture, with its stalls in the last second (R210, R231). -/
def gangStalls (h : HalfId) (i : Nat) (p : EncPlan) (s : State) : State :=
  let now := s.now h
  let s := s.upd h (updEncode i (fun e => { e with
    stallLog := e.stallLog.filter (fun q => now < q.2.1 + 1000000000) ++ p.stalls.map (fun q => (q.1, now, q.2)) }))
  match gangOf (s.half h) (encodeH h i), (s.half h).obj.encode? i with
  | some g, some e => p.stalls.foldl (fun s q =>
      event h 0x0426 sevWarning (recHandle g) (le 4 q.1 ++ le 4 (total ((e.stallLog.filter (fun v => v.1 == q.1)).map (fun v => v.2.2)))) s) s
  | _, _ => s

/-- The engines of a picture end it: their producers stop and they stand free (R185, R213). -/
def enginesFree (i : Nat) (x : Half) : Half :=
  let x := ((List.range 8).filter (fun k => (x.enc.getD k {}).current == some i)).foldl (fun x k => producerStops k x) x
  { x with enc := x.enc.map (fun g => if g.current == some i then
      { g with current := none, seq := { g.seq with suspend := false } } else g) }

/-- The counters of a finished picture (R416), among them the exchanged gang edges (R209). -/
def countEncoded (engine : Nat) (p : EncPlan) (x : Half) : Half :=
  let n := fun (b : Nat) => b2n (p.flags.testBit b)
  let x := p.edges.foldl (fun x d => count (14 + encClusterOf d.left) 0x12 (Config.exchangeUnits d.column d.rows) x) x
  let x := count engine 0x10 1 (count engine 0x11 p.full (count engine 0x12 p.skim (count engine 0x13 p.deferred x)))
  let x := count engine 0x14 p.refresh (count engine 0x15 ((p.bits + p.filler) / 512) x)
  count engine 0x17 (n 7) (count engine 0x18 (n 2) (count engine 0x19 (n 0) (p.stalls.foldl (fun x q => count q.1 0x1A q.2 x) x)))

/-- The context after a finished picture: references, rate, ages and counts (R215, R219 to R233). -/
def encodeNext (r : Record) (after : RateSt × Nat) (p : EncPlan) (late : Bool) (e : EncodeSt) : EncodeSt :=
  let n := fun (b : Nat) => b2n (p.flags.testBit b)
  { e with
    refs := (p.token :: (if p.picType == 0 then [] else e.refs)).take (esReferences r)
    frame := p.frame, plan := none, k := (e.k + 1) % 0x100000000, lastCoded := some e.k, lastTime := p.tickTime, rate := after.1
    rhos := p.rhos, carried := p.carried, ages := p.ages
    counts := { e.counts with
      late := satAdd e.counts.late (b2n late), repeated := satAdd e.counts.repeated (n 2)
      fallback := satAdd e.counts.fallback (n 7), stalls := satAdd e.counts.stalls (total (p.stalls.map (fun q => q.2)))
      truncated := satAdd e.counts.truncated (n 0), ceiling := satAdd e.counts.ceiling (n 5)
      ballast := satAdd e.counts.ballast (n 4), filler := e.counts.filler + p.filler
      deferred := e.counts.deferred + p.deferred, assistDefaults := satAdd e.counts.assistDefaults (n 3) }
    ownCrcs := if esGuarded r then e.ownCrcs ++ [(BitVec.ofNat 32 e.k, p.crc)] else e.ownCrcs }

/-- A finished picture in its half: the engines and the canvas picture are freed, the status record written, the credit of Tier 1 and the ages of
the cluster kept, and the counters counted (R185, R213, R215, R240). -/
def encodeDone (h : HalfId) (engine : Nat) (e : EncodeSt) (p : EncPlan) (after : RateSt × Nat) (left : Int) (late : Bool) (x0 : Half) : Half :=
  let i := e.index
  let obj := encodeH h i
  let r := x0.record obj
  let now := x0.clk.now
  let k := encClusterOf engine
  let x := updEncode i (encodeNext r after p late) (enginesFree i x0)
  let x := if hType (esSource r) == 8 then releasePicture (hIndex (esSource r)) p.canvasSeq i x else x
  let x := match placedAt x (rd r 68 4 % 0x10000) with
    | some q => devWrite (placeAddr q + e.k % 1024 * 64) (statsBytes obj e.k (p.handedAt.getD now) p left late) x
    | none => x
  let x := if esTier1 r then
      updCluster k (fun c => creditAdd now (creditOf r (fullCost r) - creditOf r (actualCost p)) (creditRefill now c)) x else x
  let x := if p.aged != 0 then updCluster k (fun c => { c with
      aged := c.aged + p.aged, agedAt := some now
      agedNow := (if (c.agedAt.all (fun t => t + 1000000000 ≤ now)) then 0 else c.agedNow) + p.aged }) x else x
  countEncoded engine p x

/-- ENCODE_PICTURE_COMPLETE (R230, R240, R255, R260): statistics, rate state, credit, and the canvas picture released. -/
def execEncodePictureComplete (h : HalfId) (engine : Nat) (s : State) : Out :=
  .next (
    let x := s.half h
    match (x.enc.getD engine {}).current.bind (fun i => x.obj.encode? i) with
    | none => s
    | some e =>
      match e.plan with
      | none => s
      | some p0 =>
        if x.enc.any (fun g => g.suspended.contains e.index || (g.current == some e.index && (g.halted || g.seq.halt))) then s
        else
        let i := e.index
        let obj := encodeH h i
        let rs := x.running
        let r := x.record obj
        let now := x.clk.now
        let period := (esPicPeriod rs r).1 / (esPicPeriod rs r).2
        let after := rateAfter rs r e p0
        let p := { p0 with filler := after.2 }
        let left := if e.rate.mode == 3 then e.rate.fullness else e.rate.fullness - ((p.bits + p.filler : Nat) : Int)
        let rep := p.flags.testBit 2
        let late := p.flags.testBit 1 || (esDet r && p.tickTime + period < now)
        let s := s.upd h (encodeDone h engine e p after left late)
        let s := if late then
            event h 0x0421 sevWarning obj (le 4 e.k ++ le 8 p.tickTime ++ le 8 now ++ le 4 (b2n rep)) s else s
        let s := if p.truncN != 0 then
            event h 0x042B sevWarning obj (le 4 e.k ++ le 8 p.tickTime ++ le 4 p.truncAt ++ le 4 p.truncN ++
              le 4 (if p.picType == 0 then 2 else 1) ++ le 4 (unsigned 32 e.rate.fullness) ++ le 4 p.bits) s else s
        let s := gangStalls h i p s
        let s := rateOffer h i p s
        removeIdle h <| if esGuarded r && s.sparWorks then
          let kk := BitVec.ofNat 32 e.k
          let s := emit h (.twinCrc obj kk p.crc) s
          match e.partnerCrcs.find? (fun q => q.1 == kk) with
          | some q => twinCompare h i kk p.crc q.2 s
          | none => s
        else s)

/-- ENCODE_LATE_REPEAT (R221): the first waiting picture of a normal-mode stream has not started by its tick plus one period; it
will be coded as a repeat picture. -/
def execEncodeLateRepeat (h : HalfId) (stream : Nat) (s : State) : Out :=
  .next (
    let x := s.half h
    match x.obj.encode? stream with
    | none => s
    | some e =>
      let r := x.record (encodeH h stream)
      let period := (esPicPeriod x.running r).1 / (esPicPeriod x.running r).2
      match e.ready.head? with
      | some p => if !esDet r && p.tickTime + period ≤ x.clk.now then
          s.upd h (updEncode stream (fun e => { e with lateWaiting := true })) else s
      | none => s)

/-- REFRESH_ABSORBED (R218): at the end of each 1 s interval from the stream's start with absorbed requests. -/
def execRefreshAbsorbed (h : HalfId) (stream : Nat) (s : State) : Out :=
  .next (match (s.half h).obj.encode? stream with
    | none => s
    | some e =>
      let now := s.now h
      if now < e.intervalStart + 1000000000 then s
      else
        let start := e.intervalStart + (now - e.intervalStart) / 1000000000 * 1000000000
        let n := e.absorbedInterval
        let s := s.upd h (updEncode stream (fun e => { e with intervalStart := start, absorbedInterval := 0 }))
        if n == 0 then s else event h 0x0423 sevInfo (encodeH h stream) (le 4 n) s)

/-- SURGE_ENDED (R254): 1 s without a surge picture. -/
def execSurgeEnded (h : HalfId) (cluster : Nat) (s : State) : Out :=
  .next (match (s.half h).obj.clusters[cluster]? with
    | none => s
    | some c =>
      match c.lastSurge with
      | none => s
      | some t =>
        if c.surging && t + 1000000000 ≤ s.now h then
          event h 0x0428 sevInfo 0 (le 1 cluster ++ le 8 (t - c.surgeStart) ++ le 4 c.surgeNow ++ le 8 c.deferNow)
            (s.upd h (updCluster cluster (fun c => { c with surging := false, surgeNow := 0, deferNow := 0 })))
        else s)

/-- A credit as QUERY_SURGE and the surge events report it, in whole normalised pixel-equivalents. -/
def creditWhole (v : Int) : Int := v / 3000000000

/-- SURGE_SUSTAINED (R254): credit below zero for more than 1 s, or CTUs coded under the age limit; at most once per second. -/
def execSurgeSustained (h : HalfId) (cluster : Nat) (s : State) : Out :=
  .next (match (s.half h).obj.clusters[cluster]? with
    | none => s
    | some c0 =>
      let now := s.now h
      let r := creditRefill now c0
      let c := { r with negativeSince := if 0 ≤ r.credit then none else r.negativeSince }
      let neg := c.negativeSince.any (fun t => t + 1000000000 < now)
      let aged := c.agedAt.any (fun t => now < t + 1000000000)
      let quiet := c.lastSustained.all (fun t => t + 1000000000 ≤ now)
      if (neg || aged) && quiet then
        event h 0x0429 sevWarning 0 (le 1 cluster ++ le 8 (unsigned 64 (creditWhole c.lowest)) ++ le 4 (if aged then c.agedNow else 0))
          (s.upd h (updCluster cluster (fun _ => { c with lastSustained := some now })))
      else s)

/-! Runtime changes (R218, R227, R269, R270). -/

/-- The tick index of the first picture of a stream at or after a time (R218, R270). -/
def pictureFrom (rs : List Record) (r : Record) (e : EncodeSt) (t : Nat) : Nat :=
  let k := firstTickFrom (esAnchor rs r) (esPeriod rs r).1 (esPeriod rs r).2 t
  if k ≤ e.nextTick then e.nextTick else e.nextTick + ceilDiv (k - e.nextTick) (esDivisor r) * esDivisor r

/-- The tick time at which a runtime change applies: unguarded at or after arrival + 1 ms, or the at-time; guarded at or after
the later of both + 1 ms, which is also after the partner's acknowledgement (R218, R227). -/
def changeTick (x : Half) (r : Record) (e : EncodeSt) (atTime : Option Nat) : Nat :=
  let base := if esGuarded r then max x.clk.now (atTime.getD 0) + 1000000
    else match atTime with | some t => t | none => x.clk.now + 1000000
  esTick x.running r (pictureFrom x.running r e base)

/-- A deferred entry that waits for a time (R50). -/
def addDeferred (h : HalfId) (op : Nat) (e : CmdEntry) (due : Nat) (s : State) : State :=
  s.upd h (fun x => { x with env := { x.env with deferred := x.env.deferred ++ [{ opcode := op, entry := e, due := due }] } })

def encodeRefreshSpec : OpSpec := { opcode := 0x0420, handle := .types [5], minLen := 1, atTime := true }

/-- A refresh waits for its picture (R217, R218). -/
def addRefresh (i kind cause tick : Nat) (x : Half) : Half :=
  updEncode i (fun e => { e with refreshWait := e.refreshWait ++ [{ tick := tick, kind := kind, cause := cause }] }) x

/-- The at-time of an entry. -/
def entryTime (e : CmdEntry) : Option Nat := if isAtTime e then some (atTimeOf e) else none

/-- ENCODE_REFRESH (R218, R227). -/
def execEncodeRefresh (h : HalfId) (e : CmdEntry) (s : State) : Out :=
  .next (runCmd h encodeRefreshSpec e none s (fun s =>
    let x := s.half h
    let r := x.record e.handle
    let kind := fld e 16 1
    guarded [bad6 (kind == 0 || 2 < kind) 16, checkReserved e [(16, 1)], checkRunning x e.handle,
      failIf (esGuarded r && !s.sparWorks) { status := stNoResource, step := 9 }, checkTime e x.clk.now] s (fun s =>
      match x.obj.encode? (hIndex e.handle) with
      | none => .ok [] s
      | some st =>
        let t := changeTick x r st (entryTime e)
        let s := s.upd h (addRefresh (hIndex e.handle) kind 1 t)
        let s := if esGuarded r then emit h (.forward (.encodeRefresh (BitVec.ofNat 32 (esPartner r)) kind t)) s else s
        if isAtTime e then .later (le 8 t) (addDeferred h 0x0420 e t s) else .ok (le 8 t) s)))

/-- Receiver feedback that a port passes to a stream (R218, R227). -/
def streamFeedback (h : HalfId) (i : Nat) (s : State) : State :=
  let x := s.half h
  match x.obj.encode? i with
  | none => s
  | some e =>
    let r := x.record (encodeH h i)
    let absorbed := fun (s : State) => s.upd h (updEncode i (fun e => { e with
      absorbedInterval := e.absorbedInterval + 1, counts := { e.counts with absorbed := sat32 e.counts.absorbed } }))
    if esRefresh r == 1 || esRefresh r == 3 then absorbed s
    else if e.feedbackIdr.any (fun t => x.clk.now < t + 1000000000) then absorbed s
    else if esGuarded r && !s.sparWorks then absorbed s
    else
      let t := changeTick x r e none
      let s := s.upd h (fun x => addRefresh i 1 2 t (updEncode i (fun e => { e with feedbackIdr := some x.clk.now }) x))
      if esGuarded r then emit h (.forward (.feedback (BitVec.ofNat 32 (esPartner r)) t)) s else s

def encodeRateSpec : OpSpec := { opcode := 0x0421, handle := .types [5], minLen := 17, atTime := true }

/-- ENCODE_RATE (R269, R270, R78). -/
def execEncodeRate (h : HalfId) (e : CmdEntry) (s : State) : Out :=
  .next (runCmd h encodeRateSpec e none s (fun s =>
    let x := s.half h
    let r := x.record e.handle
    let st := (x.obj.encode? (hIndex e.handle)).getD { index := 0 }
    let now := st.rateWait.foldl (fun q w => rateApply r w.payload q) st.rate
    let p := pad 17 e.payload
    guarded [checkReserved e [(16, 17)], (match rateRange p with | some o => some { status := stBadField, step := 6, offset := o } | none => none),
      checkRunning x e.handle, (match rateBad x.running r p now with | some o => some { status := stBadField, step := 6, offset := o } | none => none),
      failIf (st.run == .draining) { status := stBusyDraining, step := 8 },
      failIf (esGuarded r && !s.sparWorks) { status := stNoResource, step := 9 }, checkTime e x.clk.now] s (fun s =>
      let t := changeTick x r st (entryTime e)
      let idr := rateForcesIdr r now (rateApply r p now)
      let s := s.upd h (updEncode (hIndex e.handle) (fun q => { q with
        rateWait := q.rateWait ++ [{ tick := t, payload := p, idr := idr }] }))
      let s := if esGuarded r then emit h (.forward (.encodeRate (BitVec.ofNat 32 (esPartner r)) p t)) s else s
      let result := le 8 t ++ le 1 (b2n idr)
      if isAtTime e then .later result (addDeferred h 0x0421 e t s) else .ok result s)))

end Sys2Proof.Machine
end

