-- ==== Sys2Proof/Machine/Flows.lean ====
section
/-!
DEFINITION. Flows.lean: output flows: the fields of PORT, FLOW, SHAPER and GATE_LIST records, token buckets (R313 to R319), mirrored
state (R302), undercoat (R303 to R305), secondary ports (R306), and the copies of guarded flows (R308).
-/
namespace Sys2Proof.Machine

/-! Records (R279, R292, R313). -/

def portH (h : HalfId) (n : Nat) : Handle := mkHandle 1 h n
def shaperH (h : HalfId) (n : Nat) : Handle := mkHandle 0x0C h n

def flPort (r : Record) : Handle := BitVec.ofNat 32 (rd r 16 4)
def flSecondary (r : Record) : Handle := BitVec.ofNat 32 (rd r 20 4)
def flPartner (r : Record) : Handle := BitVec.ofNat 32 (rd r 28 4)
def flV6 (r : Record) : Bool := rd r 32 1 == 6
/-- The destination address, least significant byte first (R6). -/
def flDest (r : Record) : Nat := rd r 36 16
def flFlag (r : Record) (n : Nat) : Bool := (rd r 59 1).testBit n
def flMaxDatagram (r : Record) : Nat := rd r 66 2
def flShaper (r : Record) : Handle := BitVec.ofNat 32 (rd r 76 4)

/-- The flow is one of a guarded pair (R293). -/
def flGuarded (r : Record) : Bool := rd r 28 4 != 0

/-- An address is a multicast group (RFC 1112, RFC 2464). -/
def isMulticast (v6 : Bool) (a : Nat) : Bool := if v6 then a / 2 ^ 120 == 0xFF else a / 2 ^ 28 == 0xE

/-- The state of a flow by handle: one of the half, or one of the other half that it mirrors. -/
def flowAt (h : HalfId) (x : Half) (f : Handle) : Option FlowSt :=
  if hHalf f == h then x.obj.flow? (hIndex f) else x.obj.foreign.find? (fun a => a.index == hIndex f)

/-- Changes the state of a flow by handle. -/
def updFlowAt (h : HalfId) (f : Handle) (g : FlowSt → FlowSt) (x : Half) : Half :=
  if hHalf f == h then updFlow (hIndex f) g x
  else { x with obj := { x.obj with foreign := mapWhere (fun a => a.index == hIndex f) g x.obj.foreign } }

/-- The record of a flow by handle: the half's own in force, or the copy it holds of the other half's. -/
def flowRec (h : HalfId) (x : Half) (f : Handle) : Record :=
  if hHalf f == h then x.record f else match flowAt h x f with | some a => a.copyOf | none => []

/-- The port of a handle, wherever it is. -/
def portAt (s : State) (p : Handle) : PortSt := (s.half (hHalf p)).net.getD (hIndex p) {}

def updPort (n : Nat) (f : PortSt → PortSt) (x : Half) : Half := { x with net := x.net.modify n f }

/-- A port carries packets: it is UP and in service (R280), in a half that runs an envelope (R75). -/
def portUp (s : State) (p : Handle) : Bool :=
  p != 0 && (s.half (hHalf p)).env.running.isSome && (portAt s p).link == .up && !(portAt s p).flags.retired && !(s.half (hHalf p)).boot.inReset &&
  !(s.half (hHalf p)).bri.tetherStopped

/-! Token buckets (R314 to R317). -/

/-- Bucket units in a byte. -/
def bucketByte : Int := 655360000000

/-- The balance brought up to a time: it accrues at the rate and stays at or below the burst (R315); at rate 0 it is frozen (R317). -/
def bucketAt (t : Nat) (b : Bucket) : Bucket :=
  if b.rate == 0 then { b with since := t }
  else { b with balance := min (b.burst * bucketByte) (b.balance + (b.rate * 8192 * (t - b.since) : Nat)), since := t }

/-- A new bucket is full (R316). -/
def bucketNew (rate burst t : Nat) : Bucket := { balance := burst * bucketByte, since := t, rate := rate, burst := burst }

/-- A change of rate and burst at a time (R317). -/
def bucketChange (rate burst t : Nat) (b : Bucket) : Bucket :=
  let b := bucketAt t b
  let bal := if 0 < b.balance then min b.balance (burst * bucketByte) else b.balance
  { balance := bal, since := t, rate := rate, burst := burst }

/-- The balance in whole bytes, as SHAPER_CHANGED reports it. -/
def bucketBytes (b : Bucket) : Int := b.balance / bucketByte

/-- The rate (0.1 kb/s) and burst of a flow's own bucket: of its shaper of kind 0, or of R314. -/
def flowParams (x : Half) (r : Record) : Nat × Nat :=
  match x.obj.shaper? (hIndex (flShaper r)) with
  | some v =>
    if flShaper r != 0 && rd (x.record (flShaper r)) 16 1 == 0 then (10 * v.rate, v.burst)
    else (11 * rd r 72 4, 4 * (flMaxDatagram r + 42))
  | none => (11 * rd r 72 4, 4 * (flMaxDatagram r + 42))

/-- The class of a flow (R312). -/
def flowClass (x : Half) (r : Record) : Nat := if flShaper r == 0 then 4 else rd (x.record (flShaper r)) 17 1

/-- The flow's packets draw on a shared bucket: its shaper is of kind 1, and it has not moved to the other half (R314). -/
def sharedShaper (h : HalfId) (x : Half) (f : FlowSt) (r : Record) : Option ShaperSt :=
  if flShaper r == 0 || hHalf f.port != h || rd (x.record (flShaper r)) 16 1 != 1 then none
  else x.obj.shaper? (hIndex (flShaper r))

/-- The bucket that governs a flow of the half (R314); a flow of the other half has its own here. -/
def flowBucket (h : HalfId) (x : Half) (flow : Handle) (f : FlowSt) : Bucket :=
  if hHalf flow != h then f.bucket
  else match sharedShaper h x f (x.record flow) with
    | some v => v.bucket
    | none => f.bucket

/-- Charges wire bytes to the bucket that governs a flow (R315). -/
def chargeBucket (h : HalfId) (flow : Handle) (f : FlowSt) (wire : Nat) (x : Half) : Half :=
  let take := fun (b : Bucket) => let b := bucketAt x.clk.now b; { b with balance := b.balance - wire * bucketByte }
  if hHalf flow != h then updFlowAt h flow (fun f => { f with bucket := take f.bucket }) x
  else match sharedShaper h x f (x.record flow) with
    | some v => updShaper v.index (fun v => { v with bucket := take v.bucket }) x
    | none => updFlowAt h flow (fun f => { f with bucket := take f.bucket }) x

/-! Picture ticks and mirrored state (R302). -/

/-- The mirrored state of a flow of the half. -/
def mirrorOf (h : HalfId) (x : Half) (f : FlowSt) : Mirror :=
  let r := x.record (flowH h f.index)
  let e := x.record (flStream r)
  let p := esPeriod x.running e
  { picture := f.picture, firstMissingCtu := f.firstMissingCtu, open_ := f.pictureOpen, ssrc := f.ssrc, nextSeq := f.nextSeq
    timestampOffset := BitVec.ofNat 32 (rd r 68 4), lastTick := f.lastTick, codec := esCodec e, cols := esCols e, rows := esRows e
    anchor := esAnchor x.running e, num := p.1, den := p.2, step := esDivisor e
    frame := f.frame, openFrame := f.openFrame, references := esReferences e, sets := f.sets }

/-- The tick time of the picture after the last one; for a flow that has sent none, of the first at or after a time. -/
def nextPictureTick (m : Mirror) (now : Nat) : Nat :=
  if m.num == 0 || m.den == 0 then now
  else if m.lastTick == 0 then tickTime m.anchor m.num m.den (firstTickFrom m.anchor m.num m.den now)
  else tickTime m.anchor m.num m.den (firstTickFrom m.anchor m.num m.den m.lastTick + max 1 m.step)

/-- The mirrored state of a flow by handle. -/
def flowMirror (h : HalfId) (x : Half) (flow : Handle) (f : FlowSt) : Option Mirror :=
  if hHalf flow == h then some (mirrorOf h x f)
  else f.mirror.map (fun m => { m with picture := f.picture, firstMissingCtu := f.firstMissingCtu, open_ := f.pictureOpen, lastTick := f.lastTick,
                                            frame := f.frame, openFrame := f.openFrame })

/-- The RTP timestamp of a picture (R294). -/
def rtpTime (offset tick : Nat) : Nat := (offset + tick * 9 / 100000) % 0x100000000

/-! Wire bytes (R295, R311). -/

/-- The payload limit of R295. -/
def payloadLimit (r : Record) : Nat := flMaxDatagram r - (if flV6 r then 40 else 20) - 52

/-- The wire bytes of an RTP packet with a payload; the cue element takes 32 bytes, and a frame has at least 64. -/
def wireBytes (r : Record) (payload : Nat) (cue : Bool) : Nat :=
  let datagram := payload + 12 + (if cue then 32 else 0) + 8 + (if flV6 r then 40 else 20)
  max 64 (datagram + 18 + (if rd r 56 2 == 0 then 0 else 4)) + 20

/-! Undercoat (R303 to R305). -/

/-- FLOW_UNDERCOAT: entered (1) or left (2), cause (log 13), sequence number, pictures sent. -/
def undercoatEvent (h : HalfId) (flow : Handle) (way cause : Nat) (seq : W16) (n : Nat) (s : State) : State :=
  event h 0x050A sevWarning flow (le 4 way ++ le 4 cause ++ le 4 seq.toNat ++ le 4 n) s

/-- Appends packets of undercoat of one picture, numbered from the flow's next sequence number; the last ends the picture. -/
def undercoatPackets (h : HalfId) (flow : Handle) (picture tick : Nat) (sizes : List Nat) (x : Half) : Half :=
  updFlowAt h flow (fun f =>
    let pk := sizes.zipIdx.map (fun p => ({ seq := f.nextSeq + BitVec.ofNat 16 p.2, wire := p.1, ready := x.clk.now, picture := picture
                                            tick := tick, unitFirst := true, pictureLast := p.2 + 1 == sizes.length, undercoat := true } : Packet))
    { f with queue := f.queue ++ pk, nextSeq := f.nextSeq + BitVec.ofNat 16 sizes.length }) x

/-- The slices that finish a partly sent picture: one per CTU row or four macroblock rows from the first missing one (R304). -/
def flatRows (m : Mirror) : Nat := if m.cols == 0 then 0 else m.rows - m.firstMissingCtu / m.cols

/-- The free wire bytes of `n` flat-fill packets. -/
def flatSizes (free n : Nat) : List Nat := (List.range n).map (fun k => 84 + Config.flatFillBytes (free + k) % 9236)

/-- A partly sent picture is finished, or for AV1 the rest of its temporal unit is dropped and renumbered (R304). -/
def finishOpen (h : HalfId) (flow : Handle) (s : State) : State :=
  match flowAt h (s.half h) flow with
  | none => s
  | some f =>
    match flowMirror h (s.half h) flow f with
    | none => s
    | some m =>
      if !f.pictureOpen then s
      else if m.codec == 3 then
        s.upd h (updFlowAt h flow (fun f =>
          let cut := f.queue.filter (fun p => p.picture == f.picture)
          { f with queue := f.queue.filter (fun p => p.picture != f.picture), pictureOpen := false
                   nextSeq := f.nextSeq - BitVec.ofNat 16 cut.length }))
      else
        let n := flatRows m
        let s := emit h (.flatFill flow ((List.range n).map (fun k => if k == 0 then m.firstMissingCtu else (m.firstMissingCtu / m.cols + k) * m.cols))) s
        let s := s.upd h (undercoatPackets h flow f.picture f.lastTick (flatSizes s.free n))
        { s with free := s.free + n }.upd h (updFlowAt h flow (fun f => { f with
          pictureOpen := false, frame := { f.openFrame with finished := true } }))

/-- A flow enters undercoat (R303). Causes (log 13): 1 encoder halted, 2 its half failed, 3 stream stopped, 4 stream shed. -/
def enterUndercoat (h : HalfId) (flow : Handle) (cause : Nat) (s : State) : State :=
  match flowAt h (s.half h) flow with
  | none => s
  | some f =>
    if f.path == .undercoat || f.path == .standby || f.path == .stranded || f.path == .stopped then s
    else
      let s := finishOpen h flow s
      let seq := match flowAt h (s.half h) flow with | some f => f.nextSeq | none => 0
      undercoatEvent h flow 1 cause seq 0
        (s.upd h (updFlowAt h flow (fun f => { f with path := .undercoat, undercoatPics := 0, awaitIdr := true })))

/-- Leaves undercoat at the first picture that the encoder hands on again (R303). -/
def leaveUndercoat (h : HalfId) (flow : Handle) (s : State) : State :=
  match flowAt h (s.half h) flow with
  | none => s
  | some f =>
    if f.path != .undercoat then s
    else
      let path := if f.port == flPort (flowRec h (s.half h) flow) then FlowPath.primary else .secondary
      undercoatEvent h flow 2 0 f.nextSeq f.undercoatPics
        (s.upd h (updFlowAt h flow (fun f => { f with path := path, awaitIdr := false })))

/-- The numbers after an undercoat picture, and the picture (R305). After a picture finished under R304 it refers to the one before that. -/
def undercoatFrame (codec : Nat) (f : FrameState) : FrameState :=
  if codec == 3 then { f with finished := false } else { f with order := f.order + 1, finished := false }

def undercoatContent (codec : Nat) (sets : List HeadUnit) (f : FrameState) : UndercoatPic :=
  match codec with
  | 1 => .hevc (f.order + 1) (if f.finished then some [-2] else none) (setsTimed sets)
  | 2 => .h264 ((f.order + 1) % 256) 2 (if f.finished then some ((f.order - 1) % 256) else none) (setsTimed sets)
  | _ => .av1 f.shownSlot (f.slots.getD f.shownSlot (0, 0)).1 (setsTimed sets)

/-- UNDERCOAT_PICTURE_TICK (R305): one picture per picture period, of at most 256 + N / 4 bytes, absorbed by the rate model of the
stream as a coded picture (R303). -/
def execUndercoatPictureTick (h : HalfId) (flow : Handle) (s : State) : Out :=
  .next (
    let x := s.half h
    match flowAt h x flow with
    | none => s
    | some f =>
      match flowMirror h x flow f with
      | none => s
      | some m =>
        let tick := nextPictureTick m x.clk.now
        if f.path != .undercoat || x.clk.now < tick || removedAt x flow tick || x.boot.inReset || x.env.running.isNone || x.bri.tetherStopped then s
        else
          let r := flowRec h x flow
          let size := Config.undercoatBytes s.free % (257 + m.cols * m.rows / 4)
          let limit := max 1 (payloadLimit r)
          let n := max 1 (ceilDiv size limit)
          let sizes := (List.range n).map (fun k => wireBytes r (min limit (size - k * limit)) false)
          let stream := flStream r
          let s := { s with free := s.free + 1 }.upd h (fun x =>
            let x := undercoatPackets h flow (f.picture + 1) tick sizes x
            let x := updFlowAt h flow (fun f => { f with
              picture := f.picture + 1, lastTick := tick, undercoatPics := f.undercoatPics + 1, firstMissingCtu := 0
              frame := undercoatFrame m.codec f.frame
              counts := { f.counts with undercoat := sat32 f.counts.undercoat } }) x
            let x := count (28 + hIndex f.port % 2) 0x16 1 x
            let first : Option FlowSt := x.obj.flows.find? (fun g => flStream (x.record (flowH h g.index)) == stream)
            if hHalf flow == h && first.any (fun (g : FlowSt) => g.index == f.index) then updEncode (hIndex stream) (fun e => { e with
              rate := (modelAdvance x.running (x.record stream) e.rate e.k (8 * size)).1, k := (e.k + 1) % 0x100000000 }) x
            else x)
          emit h (.undercoatPicture flow tick (undercoatContent m.codec m.sets m.frame)) s)

/-! Secondary ports and copies (R306 to R309). -/

/-- A flow has no path (R306): its packets are dropped, counted and its sequence numbers taken back. Causes as FLOW_STRANDED. -/
def strand (h : HalfId) (flow : Handle) (cause : Nat) (s : State) : State :=
  match flowAt h (s.half h) flow with
  | none => s
  | some f =>
    if f.path == .stranded then s
    else
      let t := s.upd h (updFlowAt h flow (fun f => { f with
        path := .stranded, queue := [], nextSeq := f.sentSeq + 1
        counts := { f.counts with stranded := satAdd f.counts.stranded (f.queue.filter (fun p => p.pictureLast)).length } }))
      if removedAt (s.half h) flow (s.now h) then t else event h 0x050C sevAlarm flow (le 4 cause) t

/-- FLOW_MOVED with its cause (log 13): 1 port down, 2 half lost, 3 FLOW_MOVE, 4 take-over. -/
def movedEvent (h : HalfId) (flow src dst : Handle) (cause : Nat) (seq : W16) (s : State) : State :=
  event h 0x0509 sevWarning flow (le 4 src.toNat ++ le 4 dst.toNat ++ le 4 cause ++ le 4 seq.toNat) s

/-- A flow of the half goes to a port (R306, R316): in its own half it keeps its bucket, in the other it is paced by a new one. -/
def flowTo (h : HalfId) (flow dst : Handle) (cause : Nat) (s : State) : State :=
  match flowAt h (s.half h) flow with
  | none => s
  | some f =>
    let x := s.half h
    let r := flowRec h x flow
    let prm := flowParams x r
    let path := if f.path == .undercoat then FlowPath.undercoat else if dst == flPort r then .primary else .secondary
    let s := s.upd h (updFlowAt h flow (fun f => { f with
      port := dst, path := path, moveAt := none, counts := { f.counts with moves := sat32 f.counts.moves }
      bucket := if hHalf dst == hHalf f.port then f.bucket else bucketNew prm.1 prm.2 x.clk.now }))
    let s := if hHalf dst == h then s
      else s.upd (hHalf dst) (updFlowAt (hHalf dst) flow (fun g => { g with
        port := dst, path := .secondary, queue := [], sentSeq := f.sentSeq, nextSeq := f.nextSeq
        bucket := bucketNew prm.1 prm.2 (s.now (hHalf dst)) }))
    movedEvent h flow f.port dst cause (f.sentSeq + 1) s

/-- A sequence number lies after another (16-bit serial order). -/
def seqAfter (a b : W16) : Bool := a != b && (a - b).toNat < 0x8000

/-- The packets of a queue that a last sent sequence number leaves to send. -/
def queueAfter (sent : W16) (q : List Packet) : List Packet := q.filter (fun p => seqAfter p.seq sent)

/-- The standby flow of a pair becomes active (R308, R316, R457): it sends its own copy after the last sequence number reported. -/
def activate (h : HalfId) (flow : Handle) (s : State) : State :=
  match flowAt h (s.half h) flow with
  | none => s
  | some f =>
    if f.path != .standby then s
    else
      let x := s.half h
      let r := flowRec h x flow
      let prm := flowParams x r
      let q := match f.reported with | some n => queueAfter n f.queue | none => f.queue
      let first := match f.reported with | some n => n + 1 | none => (q.head?.map (fun p => p.seq)).getD f.nextSeq
      let s := s.upd h (fun x => count 30 0x15 1 (updFlowAt h flow (fun f => { f with
        path := .primary, queue := q, sentSeq := first - 1, copyFrom := h, copies := []
        bucket := bucketNew prm.1 prm.2 x.clk.now
        counts := { f.counts with twinSwitches := sat32 f.counts.twinSwitches } }) x))
      event h 0x050B sevWarning flow (le 4 h.bit ++ le 4 first.toNat) s

/-- A guarded pair's other copy may be used: its stream runs, is not marked unusable (R228), no unit of
its current picture is missing (R376), and the link works. -/
def copyUsable (s : State) (h : HalfId) (flow : Handle) : Bool :=
  let o := s.half h.other
  let partner := flPartner (flowRec h (s.half h) flow)
  let stream := flStream (o.record partner)
  let missed := match flowAt h (s.half h) flow with | some f => f.copyMissed.isSome | none => false
  s.sparWorks && !missed && (match o.obj.encode? (hIndex stream) with
    | some e => e.run == .running && e.twinUsable
    | none => false)

/-- An active flow takes the other copy from its next sequence number on (R308). -/
def twinSwitch (h : HalfId) (flow : Handle) (s : State) : State :=
  match flowAt h (s.half h) flow with
  | none => s
  | some f =>
    let s := s.upd h (fun x => count 30 0x15 1 (updFlowAt h flow (fun f => { f with
      copyFrom := f.copyFrom.other, queue := queueAfter f.sentSeq f.copies, copies := queueAfter f.sentSeq f.queue
      counts := { f.counts with twinSwitches := sat32 f.counts.twinSwitches } }) x))
    event h 0x050B sevWarning flow (le 4 f.copyFrom.other.bit ++ le 4 (f.sentSeq + 1).toNat) s

/-- Where a flow goes when the port it uses is lost (R306): its secondary port, and whether it can. -/
def moveFlow (h : HalfId) (flow : Handle) (cause : Nat) (s : State) : State :=
  match flowAt h (s.half h) flow with
  | none => s
  | some f =>
    let r := flowRec h (s.half h) flow
    let dst := if f.port == flPort r then flSecondary r else 0
    if f.path == .standby || f.path == .stopped || f.path == .stranded then s
    else if flGuarded r && s.sparWorks && ((flowAt h.other (s.half h.other) (flPartner r)).any (fun g => g.path == .standby)) &&
        portUp s (flPort ((s.half h.other).record (flPartner r))) then
      activate h.other (flPartner r) (s.upd h (updFlowAt h flow (fun f => { f with path := .standby, queue := [], reported := some f.sentSeq })))
    else if dst == 0 then strand h flow (if f.port == flPort r && flSecondary r == 0 then 1 else 2) s
    else if hHalf dst != h && !s.sparWorks then strand h flow 3 s
    else if !portUp s dst then strand h flow 2 s
    else flowTo h flow dst cause s

/-- The flows of the half that use a port. -/
def flowsOn (h : HalfId) (x : Half) (p : Handle) : List Handle :=
  (x.obj.flows.filter (fun f => f.port == p)).map (fun f => flowH h f.index)

/-- A port has left UP or is retired: the flows of both halves that use it move (R282, R306). -/
def portLost (h : HalfId) (n : Nat) (s : State) : State :=
  let p := portH h n
  let s := (flowsOn h (s.half h) p).foldl (fun s f => moveFlow h f 1 s) s
  (flowsOn h.other (s.half h.other) p).foldl (fun s f => moveFlow h.other f 1 s) s

/-- Both copies of a guarded flow go on numbering after the last packet sent; what they held is dropped. -/
def pairRenumber (h : HalfId) (flow : Handle) (sent : W16) (s : State) : State :=
  let restart := fun (f : FlowSt) => { f with queue := [], copies := [], nextSeq := sent + 1, sentSeq := sent, reported := some sent }
  let partner := flPartner (flowRec h (s.half h) flow)
  (s.upd h (updFlowAt h flow restart)).upd h.other (updFlowAt h.other partner restart)

/-- A flow that stopped for want of a path resumes when one of its ports is UP again (R306): on the port it had, or else it moves. -/
def flowResumes (h : HalfId) (flow p : Handle) (s : State) : State :=
  match flowAt h (s.half h) flow with
  | none => s
  | some f =>
    let r := flowRec h (s.half h) flow
    if f.path != .stranded || (hHalf p != h && !s.sparWorks) then s
    else if f.port == p then
      let s := if flGuarded r then pairRenumber h flow f.sentSeq s else s
      s.upd h (updFlowAt h flow (fun f => { f with path := if p == flPort r then .primary else .secondary }))
    else if !flGuarded r && (p == flPort r || p == flSecondary r) then
      flowTo h flow p 1 (s.upd h (updFlowAt h flow (fun f => { f with path := .secondary })))
    else s

/-- A standby flow whose port is UP again takes over from its stranded partner (R306). -/
def standbyResumes (h : HalfId) (flow : Handle) (s : State) : State :=
  let r := flowRec h (s.half h) flow
  match flowAt h (s.half h) flow, flowAt h.other (s.half h.other) (flPartner r) with
  | some g, some f =>
    if g.path == .standby && flGuarded r && f.path == .stranded && s.sparWorks then
      activate h flow (pairRenumber h flow f.sentSeq
        (s.upd h.other (updFlowAt h.other (flPartner r) (fun f => { f with path := .standby }))))
    else s
  | _, _ => s

/-- A port is UP again: flows that stopped for want of a path resume. -/
def portBack (h : HalfId) (n : Nat) (s : State) : State :=
  let p := portH h n
  let all := fun (w : HalfId) (s : State) => (s.half w).obj.flows.map (fun f => flowH w f.index)
  let s := (all h s).foldl (fun s f => flowResumes h f p s) s
  let s := (all h.other s).foldl (fun s f => flowResumes h.other f p s) s
  (flowsOn h (s.half h) p).foldl (fun s f => standbyResumes h f s) s

/-- The flows that a stream of the half feeds. -/
def flowsOf (h : HalfId) (x : Half) (stream : Handle) : List Handle :=
  (x.obj.flows.map (fun f => flowH h f.index)).filter (fun f => flStream (x.record f) == stream)

/-- The source of a flow's packets has failed or ended (R303, R308): a guarded flow takes the other copy, any other undercoat. -/
def sourceLost (h : HalfId) (stream : Handle) (cause : Nat) (s : State) : State :=
  (flowsOf h (s.half h) stream).foldl (fun s f =>
    let r := (s.half h).record f
    if flGuarded r then
      match flowAt h (s.half h) f with
      | some g =>
        if g.path == .standby then
          -- the other half's active flow may have been sending this copy
          match flowAt h.other (s.half h.other) (flPartner r) with
          | some p => if p.copyFrom == h && s.sparWorks then twinSwitch h.other (flPartner r) s else s
          | none => s
        else if g.copyFrom != h then s
        else if copyUsable s h f then twinSwitch h f s
        else enterUndercoat h f cause s
      | none => s
    else enterUndercoat h f cause s) s

/-- A flow as it starts (R294, R316); with flag bit 0 its SSRC and sequence number are random. -/
def flowStart (h : HalfId) (x : Half) (r : Record) (active : Bool) (t free : Nat) : FlowSt :=
  let random := flFlag r 0
  let first := if random then Config.randomSeq free else BitVec.ofNat 16 (rd r 64 2)
  let prm := flowParams x r
  { index := hIndex (recHandle r), path := if active then .primary else .standby, port := flPort r
    ssrc := if random then Config.randomSsrc free else BitVec.ofNat 32 (rd r 60 4)
    nextSeq := first, sentSeq := first - 1, cls := flowClass x r, copyFrom := h
    bucket := bucketNew prm.1 prm.2 t, nextReport := t }

end Sys2Proof.Machine
end

