-- ==== Sys2Proof/Machine/Pacing.lean ====
section
/-!
DEFINITION. Pacing.lean: packetisation (R294 to R297), the cue element (R300, R301), shapers and gates (R318 to R327), the port
scheduler (R322 to R325), host pacing (R329, R330), latency marks (R331), the spar hand-off of packets (R308, R457), and the events of pacing (R332).
-/
namespace Sys2Proof.Machine

/-! Packetisation (R295, R296). -/

/-- Pieces of a payload cut to a size, each with its fragment headers. -/
def fragments (n size header : Nat) : List Nat :=
  (List.range (ceilDiv n size)).map (fun k => min size (n - k * size) + header)

/-- RTP payload bytes of each packet of one unit. -/
def unitPayload (codec limit n : Nat) : List Nat :=
  match codec with
  | 1 => if n ≤ limit then [n] else fragments (n - 2) (limit - 3) 3
  | 2 => if n ≤ limit then [n] else fragments (n - 1) (limit - 2) 2
  | _ => if n + 1 ≤ limit then [n + 1] else fragments n (limit - 1) 1

/-- RTP payload bytes of each packet of what the encoder hands on (R296): parameter sets, delimiters and SEI aggregate when they fit. -/
def payloads (codec limit : Nat) (u : CodedUnit) : List Nat :=
  let single := u.sizes.flatMap (unitPayload codec limit)
  let hdr := if codec == 1 then 2 else 1
  let agg := hdr + total (u.sizes.map (· + 2))
  if u.header && codec != 3 && 2 ≤ u.sizes.length && agg ≤ limit then [agg] else single

/-- How the packets of one unit carry it (R296). -/
def unitForms (codec limit n : Nat) (start : Bool) : List PacketForm :=
  let k := (unitPayload codec limit n).length
  match codec with
  | 1 | 2 => if n ≤ limit then [.single] else (List.range k).map (fun j => .fragment (j == 0) (j + 1 == k))
  | _ => (List.range k).map (fun j => .obu (j != 0) (j + 1 != k) (start && j == 0))

/-- How the packets of what the encoder hands on carry it; `key` says that it is the start of a key frame's temporal unit. -/
def packetForms (codec limit : Nat) (u : CodedUnit) (key : Bool) : List PacketForm :=
  let single := u.sizes.zipIdx.flatMap (fun p => unitForms codec limit p.1 (key && p.2 == 0))
  if (payloads codec limit u).length == 1 && 2 ≤ u.sizes.length then [.aggregation u.sizes.length] else single

/-! The cue element (R300, R301). -/

/-- Bytes most significant first. -/
def be (n v : Nat) : List Byte := (le n v).reverse

/-- The cue element of a cue: state 1 pending, 2 applied. -/
def cueElement (state : Nat) (q : Cue) (canvas : Handle) : List Byte :=
  let head := le 1 1 ++ le 1 (64 * state + q.scene % 8)
  let tail := be 4 q.group.toNat ++ be 4 canvas.toNat ++ be 8 q.switchTime ++ be 4 q.sequence.toNat
  head ++ be 2 (crc32c (head ++ tail) % 65536) ++ tail

/-- The earliest armed cue. -/
def firstCue (c : CanvasSt) : Option Cue := c.armed.foldl (fun a q => match a with
  | none => some q
  | some b => if q.switchTime < b.switchTime then some q else some b) none

/-- The cue elements of a unit's packets: applied on every packet for 8 pictures, pending on the first packet of a picture. -/
def cueOf (x : Half) (r : Record) (left : Nat) (first : Bool) (n : Nat) : List (List Byte) :=
  let src := esSource (x.record (flStream r))
  if rd r 58 1 == 0 || hType src != 8 then List.replicate n []
  else match x.obj.canvas? (hIndex src) with
    | none => List.replicate n []
    | some c =>
      match left, c.lastCue, firstCue c with
      | _ + 1, some q, _ => List.replicate n (cueElement 2 q src)
      | _, _, some q => if first then cueElement 1 q src :: List.replicate (n - 1) [] else List.replicate n []
      | _, _, none => List.replicate n []

/-! Next hops (R284). -/

/-- The PORT record of a port. -/
def portRec (h : HalfId) (x : Half) (n : Nat) : Record := x.record (portH h n)

/-- The gateway of a family on a port: of its record, or for IPv6 the learned router (R279, R283). -/
def gatewayOf (h : HalfId) (x : Half) (n : Nat) (v6 : Bool) : Nat :=
  let r := portRec h x n
  if v6 then (if rd r 56 16 == 0 then (x.net.getD n {}).learnedGateway else rd r 56 16) else rd r 32 4

/-- The next hop of a unicast destination: itself on the port's own subnet, else the gateway. -/
def nextHop (h : HalfId) (x : Half) (n : Nat) (v6 : Bool) (dest : Nat) : Nat :=
  let r := portRec h x n
  let bits := if v6 then 128 - rd r 38 1 else 32 - rd r 19 1
  let own := if v6 then rd r 40 16 else rd r 28 4
  if dest / 2 ^ bits == own / 2 ^ bits then dest else gatewayOf h x n v6

/-- The IPv6 address of a port may be used (R283). -/
def v6Usable (p : PortSt) : Bool := p.v6ReadyAt.isNone && !p.conflict

/-- The MAC address of a multicast group (RFC 1112, RFC 2464). -/
def multicastMac (v6 : Bool) (a : Nat) : Nat := if v6 then 0x333300000000 + a % 2 ^ 32 else 0x01005E000000 + a % 2 ^ 23

/-- The headers below RTP of a flow's packets on a port (R278, R284, R292, R307): the sender is the port. -/
def ipHeader (h : HalfId) (x : Half) (n : Nat) (r : Record) : IpHeader :=
  let v6 := flV6 r
  let tag := rd r 56 2
  { mac := if isMulticast v6 (flDest r) then some (multicastMac v6 (flDest r))
      else ((x.net.getD n {}).resolved.find? (fun a => a.1 == nextHop h x n v6 (flDest r))).map (fun a => a.2)
    tag := if tag == 0 then none else some (tag / 0x2000, tag % 0x1000), v6 := v6, dscp := rd r 34 1, ttl := rd r 35 1, dontFragment := !v6
    source := if v6 then rd (portRec h x n) 40 16 else rd (portRec h x n) 28 4, destination := flDest r
    sourcePort := rd r 54 2, destinationPort := rd r 52 2 }

/-- The flow's packets can be addressed on a port: multicast always, unicast once the next hop is resolved (R284). -/
def flowResolved (h : HalfId) (x : Half) (n : Nat) (r : Record) : Bool :=
  isMulticast (flV6 r) (flDest r) ||
  ((x.net.getD n {}).resolved.any (fun a => a.1 == nextHop h x n (flV6 r) (flDest r)))

/-! Take-over of a flow (R70, R306, R316). -/

/-- A flow takes its record of the pending envelope at its picture boundary. A flow whose identity fields are unchanged keeps its
SSRC and sequence numbers; a changed shaper gives it a new bucket. -/
def switchFlow (h : HalfId) (p : PendingEnv) (flow : Handle) (s : State) : State :=
  let old := (recOf (s.half h).runningSlot flow).getD []
  let s := s.upd h (leaveTakeover flow)
  match recOf p.records flow with
  | none => s
  | some r =>
    let x := s.half h
    let active := !flGuarded r || x.bri.lead
    let fresh := flowStart h x r active x.clk.now s.free
    let same := !old.isEmpty && !(recFlags r).testBit 0 && (old.drop 59).take 7 == (r.drop 59).take 7
    let prm := flowParams x r
    let s := { s with free := s.free + 1 }.upd h (updFlowAt h flow (fun f =>
      if same then { f with
        run := .running, port := flPort r, path := if active then .primary else .standby, cls := fresh.cls, resumeAt := none, moveAt := none
        bucket := if flShaper old == flShaper r then bucketChange prm.1 prm.2 x.clk.now f.bucket else fresh.bucket }
      else { fresh with counts := f.counts }))
    let s := if active && !portUp s (flPort r) then moveFlow h flow 4 s else s
    takeoverCheck h s

/-! Units from the encoder (R296, R297, R457). -/

/-- Packets of a unit for a flow, numbered from its next sequence number. -/
def unitPackets (x : Half) (r : Record) (forms : List PacketForm) (f : FlowSt) (picture tick : Nat) (cues : List (List Byte)) (announce : Bool)
    (sizes : List Nat) (ends : Bool) : List Packet :=
  (sizes.zip cues).zipIdx.map (fun p =>
    { seq := f.nextSeq + BitVec.ofNat 16 p.2, wire := wireBytes r p.1.1 (!p.1.2.isEmpty), ready := x.clk.now, picture := picture
      tick := tick, unitFirst := p.2 == 0, pictureLast := ends && p.2 + 1 == sizes.length, cue := p.1.2
      held := announce && p.2 == 0, form := forms.getD p.2 .single })

/-- The wire bytes of a class that wait on a port. -/
def classBacklog (h : HalfId) (x : Half) (p : Handle) (c : Nat) : Nat :=
  let q := (x.obj.flows.filter (fun f => f.port == p && f.cls == c && f.path != .standby)) ++
    x.obj.foreign.filter (fun f => f.port == p && f.cls == c)
  let _ := h
  total (q.map (fun f => total (f.queue.map (fun k => k.wire))))

/-- Keeps the deepest backlog of a class (R331). -/
def markBacklog (h : HalfId) (p : Handle) (c : Nat) (x : Half) : Half :=
  if hHalf p != h then x
  else
    let b := classBacklog h x p c
    updPort (hIndex p) (fun q => { q with backlog := q.backlog.set c (max b (q.backlog.getD c 0)) }) x

/-- Packets a flow drops because nothing can carry them (R284, R297, R306). -/
def dropUnit (h : HalfId) (flow : Handle) (n : Nat) (unresolved : Bool) (s : State) : State :=
  s.upd h (updFlowAt h flow (fun f => { f with counts := if unresolved then
      { f.counts with unresolved := satAdd f.counts.unresolved n } else { f.counts with portDown := satAdd f.counts.portDown n } }))

/-- FLOW_UNRESOLVED, once per resolution attempt of the port (R284). -/
def unresolvedEvent (h : HalfId) (flow : Handle) (n : Nat) (r : Record) (s : State) : State :=
  let x := s.half h
  let attempt := (x.net.getD n {}).nextResolve
  match flowAt h x flow with
  | none => s
  | some f =>
    if f.unresolvedAt == some attempt then s
    else event h 0x0505 sevWarning flow (le 16 (nextHop h x n (flV6 r) (flDest r)))
      (s.upd h (updFlowAt h flow (fun f => { f with unresolvedAt := some attempt })))

/-- Under host pacing, a picture without a schedule at its tick is late (R330). -/
def scheduleCheck (h : HalfId) (flow : Handle) (picture tick : Nat) (s : State) : State :=
  let x := s.half h
  match flowAt h x flow with
  | none => s
  | some f =>
    if !modeHost x fnPacing flow || f.path == .standby || hHalf f.port != h || f.schedules.any (fun q => q.picture == picture && q.tick == tick)
    then s
    else assistLate h 0x0B05 0 flow picture tick 1 s

/-- One flow takes a unit of its stream. -/
def flowUnit (h : HalfId) (flow : Handle) (k : Nat) (p : EncPlan) (u : CodedUnit) (s : State) : State :=
  match flowAt h (s.half h) flow with
  | none => s
  | some f0 =>
    let first := !f0.pictureOpen || f0.lastTick != p.tickTime
    if first && (removedAt (s.half h) flow p.tickTime || (f0.run == .draining && decide (f0.drainAt ≤ p.tickTime))) then s else
    let s := if first && f0.path == .undercoat && p.picType == 0 then leaveUndercoat h flow s else s
    let s := match (if first then pendTouches (s.half h) flow else none) with
      | some q => if q.armed && q.takeTime ≤ p.tickTime then switchFlow h q flow s else s
      | none => s
    let s := if first && f0.resumeAt.any (fun t => t ≤ p.tickTime) then
        s.upd h (updFlowAt h flow (fun f => { f with
          resumeAt := none, run := .running
          path := if flGuarded (flowRec h (s.half h) flow) && !(s.half h).bri.lead then .standby
            else if f.port == flPort (flowRec h (s.half h) flow) then .primary else .secondary }))
      else s
    let x := s.half h
    match flowAt h x flow with
    | none => s
    | some f =>
      let r := x.record flow
      let port := hIndex f.port
      let sizes := payloads (esCodec (x.record (flStream r))) (payloadLimit r) u
      if r.isEmpty || f.path == .stopped || f.path == .undercoat || f.resumeAt.isSome then s
      else if f.path == .stranded then
        dropUnit h flow sizes.length false (s.upd h (updFlowAt h flow (fun f => { f with
          pictureOpen := !u.endsPicture, lastTick := p.tickTime
          counts := { f.counts with stranded := satAdd f.counts.stranded (b2n first) } })))
      else if hHalf f.port == h && f.path != .standby && !flowResolved h x port r then
        unresolvedEvent h flow port r (dropUnit h flow sizes.length true s)
      else
        let cueFlag := p.flags.testBit 6
        let left := if first then (if cueFlag then 8 else f.cueLeft - 1) else f.cueLeft
        let ann := s.sparWorks && !flGuarded r && f.path == .primary && flSecondary r != 0 && hHalf (flSecondary r) != h
        let forms := packetForms (esCodec (x.record (flStream r))) (payloadLimit r) u (u.header && p.picType == 0)
        let pk := unitPackets x r forms f k p.tickTime (cueOf x r left first sizes.length) ann sizes u.endsPicture
        let a : UnitAnnouncement :=
          { flow := flow, firstSeq := f.nextSeq, lastSeq := f.nextSeq + BitVec.ofNat 16 (sizes.length - 1)
            firstCtu := u.firstCtu, lastCtu := u.lastCtu, picture := k }
        let young := fun (l : List Packet) => l.filter (fun q => k < q.picture + 2)
        let s := s.upd h (fun x =>
          let x := updFlowAt h flow (fun f =>
            let own := f.copyFrom == h || f.path == .standby
            { f with
              queue := (if f.path == .standby then young f.queue else f.queue) ++ (if own then pk else [])
              copies := if own then f.copies else young f.copies ++ pk
              nextSeq := f.nextSeq + BitVec.ofNat 16 sizes.length, picture := k, pictureOpen := !u.endsPicture
              firstMissingCtu := if u.endsPicture then 0 else if u.header then f.firstMissingCtu else u.lastCtu + 1
              lastTick := p.tickTime, cueLeft := left, announced := if ann then some a else f.announced
              openFrame := p.frame, frame := if u.endsPicture then p.frame else f.frame
              sets := if u.header then setsNext f.sets p.heads else f.sets }) x
          markBacklog h f.port f.cls x)
        let s := if first then scheduleCheck h flow k p.tickTime s else s
        let s := if ann then emit h (.announcement a) s else s
        let copy := (flGuarded r && s.sparWorks && f.path == .standby) || (f.path == .secondary && hHalf f.port != h)
        if copy then pk.foldl (fun s q => emit h (.unitCopy flow q.seq) s) s else s

/-- A unit crosses to the packet engine (R25), and every flow of the stream takes it; its engine reserves the next, unless the picture ends. -/
def handUnit (h : HalfId) (e : EncodeSt) (p : EncPlan) (engine : Nat) (s : State) (u : CodedUnit) : State :=
  let stream := encodeH h e.index
  let s := s.upd h (fun x =>
    let x := count 30 0x10 1 (packetCrosses engine 30 u.buffers x)
    let x := updEncode e.index (fun e => { e with plan := e.plan.map (fun p => { p with handedAt := some x.clk.now }) }) x
    if u.endsPicture then x else packetBegins engine 30 x)
  let touched := match (s.half h).env.pend with
    | some q => if q.armed then (q.records.filter (fun r => recType r == 2 && flStream r == stream && q.left.contains (recHandle r))).map recHandle
        else []
    | none => []
  (unionNew (flowsOf h (s.half h) stream) touched).foldl (fun s f => flowUnit h f e.k p u s) s

/-- The engine that formed a unit: the member of its column, or the one that codes the picture. -/
def unitEngine (x : Half) (r : Record) (e : EncodeSt) (p : EncPlan) (u : CodedUnit) : Nat :=
  if p.edges.isEmpty then ((List.range 8).find? (fun k => (x.enc.getD k {}).current == some e.index)).getD (e.engines.headD 0)
  else e.engines.getD (columnOf r p u.firstCtu) 0

/-- ENCODED_UNIT_HANDOFF (R25, R213, R296, R297): every flow of the stream takes the unit; those of a gang's columns wait for one another. The units
before the first slice go together. Nothing passes a halted crossing (R28). -/
def execEncodedUnitHandoff (h : HalfId) (stream : Nat) (u : CodedUnit) (s : State) : Out :=
  .next (
    let x := s.half h
    match x.obj.encode? stream with
    | none => s
    | some e =>
      match e.plan with
      | none => s
      | some p =>
        let r := x.record (encodeH h stream)
        let engine := unitEngine x r e p u
        let heads := (p.heads.filter HeadUnit.sent).length
        if x.bri.tetherStopped || u.sizes.isEmpty || (crossingAt x engine 30).halted || (u.header && u.sizes.length != heads) then s
        else if u.header || !unitsWait r p then handUnit h e p engine s u
        else if !mayForm r p u then s
        else
          let t := EncPlan.release r (p.formed.length + 1) (p.form r u)
          let s := s.upd h (updEncode stream (fun e => { e with plan := some t.2 }))
          t.1.foldl (fun s v => handUnit h e t.2 (unitEngine x r e p v) s v) s)

/-! Gates (R321, R322, R326). -/

/-- The list in force on a port at a time: an armed list from its start on (R326). -/
def gateIn (p : PortSt) (t : Nat) : Option GateRun :=
  match p.nextGate with
  | some g => if g.start ≤ t then some g else p.gate
  | none => p.gate

/-- The mask at an offset of the cycle and the offset at which its window ends. -/
def entryAt : List (Nat × Nat) → Nat → Nat → Nat × Nat
  | [], from_, _ => (255, from_)
  | (d, m) :: es, from_, o => if o < from_ + d then (m, from_ + d) else entryAt es (from_ + d) o

/-- The mask of a list at a time and the time at which the window ends (R321). -/
def gateWindow (g : GateRun) (t : Nat) : Nat × Nat :=
  if g.cycle == 0 then (255, t + 1000000000)
  else
    let o := (t - g.start) % g.cycle
    let w := entryAt g.entries 0 o
    (w.1, t - o + w.2)

/-- The mask in force at a time. -/
def gateMask (p : PortSt) (t : Nat) : Nat := match gateIn p t with | some g => (gateWindow g t).1 | none => 255

/-- The next time at which the mask may change. -/
def gateEdge (p : PortSt) (t : Nat) : Option Nat :=
  let start := match p.nextGate with | some g => if t < g.start then some g.start else none | none => none
  match gateIn p t, start with
  | none, q => q
  | some g, none => some (gateWindow g t).2
  | some g, some q => some (min (gateWindow g t).2 q)

/-- The gate of a class is open at a time and stays open until an end in 0.01 ns (R322). A frame spans at most 15 windows. -/
def gateHolds : Nat → PortSt → Nat → Nat → Nat → Bool
  | 0, _, _, _, _ => false
  | fuel + 1, p, c, t, endH =>
    (gateMask p t).testBit c &&
    match gateEdge p t with
    | none => true
    | some e => decide (endH ≤ 100 * e) || (decide (t < e) && gateHolds fuel p c e endH)

/-- The time of one wire byte in 0.01 ns (R311). -/
def byteTime (h : HalfId) (x : Half) (n : Nat) : Nat := if rd (portRec h x n) 16 1 == 2 then 80 else 32

/-! Host release times (R329). -/

/-- The release time of packet j: never earlier than the one before it; beyond the table by the spacing. -/
def releaseAt (q : Schedule) (j : Nat) : Nat :=
  let n := q.times.length
  let last := (q.times.take (j + 1)).foldl max 0
  if j < n then last else last + (j + 1 - n) * q.spacing

/-- The schedule that governs a flow's packet (R330). -/
def scheduleOf (h : HalfId) (x : Half) (flow : Handle) (f : FlowSt) (p : Packet) : Option Schedule :=
  if hHalf flow != h || hHalf f.port != h || p.undercoat || !modeHost x fnPacing flow then none
  else f.schedules.find? (fun q => q.picture == p.picture && q.tick == p.tick)

/-! The scheduler (R325). -/

/-- A packet at the head of its flow's queue. -/
structure Candidate where
  flow : Handle
  st : FlowSt
  packet : Packet
  deriving DecidableEq, Repr

/-- The heads of the queues that a port serves. -/
def portHeads (h : HalfId) (x : Half) (p : Handle) : List Candidate :=
  let own := x.obj.flows.filter (fun f => f.port == p && (f.path == .primary || f.path == .secondary || f.path == .undercoat || f.path == .stopped))
  let far := x.obj.foreign.filter (fun f => f.port == p && (f.path == .secondary || f.path == .undercoat))
  let cand := fun (w : HalfId) (f : FlowSt) => match f.queue.head? with
    | some k => [({ flow := flowH w f.index, st := f, packet := k } : Candidate)]
    | none => []
  own.flatMap (cand h) ++ far.flatMap (cand h.other)

/-- Conditions 1 to 3 of R325, the announcement of R457, and a usable address. -/
def mayLeave (s : State) (h : HalfId) (n : Nat) (c : Candidate) : Bool :=
  let x := s.half h
  let now := x.clk.now
  let b := bucketAt now (flowBucket h x c.flow c.st)
  c.packet.ready ≤ now &&
  (!c.packet.held || !s.sparWorks || c.packet.ready + 1000 ≤ now) &&
  (!flV6 (flowRec h x c.flow) || v6Usable (x.net.getD n {})) &&
  (match scheduleOf h x c.flow c.st c.packet with
   | some q => decide (releaseAt q q.sent ≤ now)
   | none => b.rate != 0 && decide (0 ≤ b.balance))

/-- Of two eligible packets: class, ready stamp, handle index (R325). -/
def goesFirst (a b : Candidate) : Bool :=
  decide (b.st.cls < a.st.cls) || (a.st.cls == b.st.cls && (decide (a.packet.ready < b.packet.ready) ||
    (a.packet.ready == b.packet.ready && decide (hIndex a.flow < hIndex b.flow))))

/-- The packet the port starts. -/
def pickPacket : List Candidate → Option Candidate
  | [] => none
  | c :: cs => match pickPacket cs with
    | none => some c
    | some d => if goesFirst d c then some d else some c

/-- Latency marks and PACING_LATE (R331). -/
def markLatency (h : HalfId) (c : Candidate) (s : State) : State :=
  let x := s.half h
  let now := x.clk.now
  let unit := if c.packet.unitFirst then now - c.packet.ready else 0
  let pic := if c.packet.pictureLast then now - c.packet.tick else 0
  let limit := if hHalf c.flow != h then 0 else match x.obj.shaper? (hIndex (flShaper (x.record c.flow))) with
    | some v => if flShaper (x.record c.flow) == 0 then 0 else v.latencyLimit * 1000
    | none => 0
  let late := c.packet.pictureLast && limit != 0 && decide (limit < pic) && c.st.lastPacingLate.all (fun t => t + 1000000000 ≤ now)
  let s := s.upd h (updFlowAt h c.flow (fun f => { f with
    lastPacingLate := if late then some now else f.lastPacingLate
    counts := { f.counts with unitMark := max f.counts.unitMark unit, pictureMark := max f.counts.pictureMark pic } }))
  if late then event h 0x050D sevWarning c.flow (le 4 c.packet.picture ++ le 8 c.packet.tick ++ le 8 pic ++ le 8 limit) s else s

/-- A flow that FLOW_MOVE sends to its other port moves at its picture boundary (R282). -/
def moveNow (h : HalfId) (flow : Handle) (s : State) : State :=
  match flowAt h (s.half h) flow with
  | none => s
  | some f =>
    match f.moveAt with
    | none => s
    | some w =>
      let r := (s.half h).record flow
      let dst := if w == 0 then flPort r else flSecondary r
      if dst == f.port || !portUp s dst then s.upd h (updFlowAt h flow (fun f => { f with moveAt := none }))
      else flowTo h flow dst 3 s

/-- At a picture's last packet: the mirrored state and the sequence report go to the partner (R302, R457), the preferred copy
of a guarded flow changes (R309), and a requested move happens. -/
def pictureSent (h : HalfId) (flow : Handle) (s : State) : State :=
  if hHalf flow != h then s
  else match flowAt h (s.half h) flow with
    | none => s
    | some f =>
      let r := (s.half h).record flow
      let s := if s.sparWorks && flSecondary r != 0 && hHalf (flSecondary r) != h then emit h (.mirror flow (mirrorOf h (s.half h) f)) s else s
      let s := if s.sparWorks && flGuarded r then emit h (.sequenceReport flow (leftSeq h (s.half h) f)) s else s
      let lead := if (s.half h).bri.lead then h else h.other
      let s := if flGuarded r && f.copyFrom != lead && copyUsable s h flow then twinSwitch h flow s else s
      moveNow h flow s

/-- The instant, in hundredths of a ns, at which a frame begins that starts within the given ns: at once, or when the line is free. -/
def lineTime (q : PortSt) (now : Nat) : Nat := max (100 * now) q.busyUntil

/-- The packet starts (R294, R307, R315, R325). -/
def startPacket (h : HalfId) (n : Nat) (c : Candidate) (s : State) : State :=
  let x := s.half h
  let p := c.packet
  let r := flowRec h x c.flow
  let now := x.clk.now
  let port := portH h n
  let hosted := scheduleOf h x c.flow c.st p
  let offset := if hHalf c.flow == h then rd r 68 4 else ((c.st.mirror.map (fun m => m.timestampOffset.toNat)).getD (rd r 68 4))
  let before := (x.net.getD n {}).counts.wireUnits
  let s := markLatency h c s
  let s := s.upd h (fun x =>
    let x := if hosted.isSome then x else chargeBucket h c.flow c.st p.wire x
    let x := updFlowAt h c.flow (fun f => { f with
      queue := f.queue.drop 1, sentSeq := p.seq, lastSentAt := now, midPicture := !p.pictureLast, copies := f.copies.filter (fun q => seqAfter q.seq p.seq)
      schedules := if p.pictureLast then f.schedules.filter (fun q => q.picture != p.picture)
        else f.schedules.map (fun q => if q.picture == p.picture then { q with sent := q.sent + 1 } else q)
      counts := { f.counts with packets := sat32 f.counts.packets, wireBytes := satAdd f.counts.wireBytes p.wire } }) x
    let x := updPort n (fun q => { q with
      busyUntil := lineTime q now + p.wire * byteTime h x n, onWire := c.flow
      counts := { q.counts with sent := sat32 q.counts.sent, wireUnits := q.counts.wireUnits + p.wire } }) x
    count (28 + n) 0x11 ((before + p.wire) / 64 - before / 64) (count (28 + n) 0x10 1 x))
  let s := if hHalf c.flow == h then s
    else s.upd h.other (updFlowAt h.other c.flow (fun f => { f with sentSeq := p.seq }))
  let s := emit h (.packet port c.flow (ipHeader h x n r) { extension := !p.cue.isEmpty, marker := p.pictureLast, payloadType := rd r 33 1, seq := p.seq
                                                            timestamp := rtpTime offset p.tick, ssrc := c.st.ssrc } now p.cue p.form) s
  let s := if p.pictureLast then pictureSent h c.flow s else s
  if hHalf c.flow == h then removeIdle h s else removeIdle h.other s

/-- A change that is scheduled for this instant or before has not been applied: a SHAPER_SET with an at-time, or a take-over (R323). -/
def changeDue (x : Half) : Bool :=
  x.env.deferred.any (fun d => d.opcode == 0x0520 && decide (d.due ≤ x.clk.now)) ||
  x.env.pend.any (fun p => p.armed && !p.begun && decide (p.takeTime ≤ x.clk.now))

/-- PACKET_START (R322, R323, R325): the port's transmitter is free and starts the first of the eligible packets, once every change scheduled for the
instant has been applied. -/
def execPacketStart (h : HalfId) (port : Nat) (s : State) : Out :=
  .next (
    let x := s.half h
    let q := x.net.getD port {}
    let now := x.clk.now
    if x.boot.inReset || x.env.running.isNone || x.bri.tetherStopped || x.bri.mediaStopped || changeDue x || q.link != .up || q.flags.retired || !islandOn x (28 + port) || 100 * now + 100 ≤ q.busyUntil then s
    else
      let may := (portHeads h x (portH h port)).filter (mayLeave s h port)
      let open_ := may.filter (fun c => (gateMask q now).testBit c.st.cls)
      let fits := fun (c : Candidate) => gateHolds 20 q c.st.cls now (lineTime q now + c.packet.wire * byteTime h x port)
      let guard := open_.filter (fun c => !fits c && !c.packet.counted)
      let s := guard.foldl (fun s c => s.upd h (fun x => count 30 0x11 1 (updFlowAt h c.flow (fun f => { f with
        queue := match f.queue with | k :: ks => { k with counted := true } :: ks | [] => [] }) x))) s
      match pickPacket (open_.filter fits) with
      | none => s
      | some c => startPacket h port c s)

/-! Gate lists (R320, R321, R326, R327). -/

def gateH (h : HalfId) (n : Nat) : Handle := mkHandle 0x0B h n

/-- The entries of a GATE_LIST record: duration and mask. -/
def gateEntries (r : Record) : List (Nat × Nat) := (List.range (rd r 20 2)).map (fun i => (rd r (40 + 8 * i) 4, rd r (44 + 8 * i) 1))

/-- S of R326: the first cycle start at or after max(T, P + 1,000 ns). -/
def gateStart (base cycle t p : Nat) : Nat :=
  let m := max t (p + 1000)
  if m ≤ base || cycle == 0 then base else base + ceilDiv (m - base) cycle * cycle

/-- A port is armed with a list. Cause 1 take-over, 2 GATE_REBASE. -/
def gateArm (r : Record) (base t cause : Nat) (x : Half) : Half × Nat :=
  let start := gateStart base (rd r 24 4) t x.clk.now
  let g : GateRun := { list := hIndex (recHandle r), entries := gateEntries r, cycle := rd r 24 4, start := start, cause := cause }
  (updPort (rd r 16 4 % 65536) (fun p => { p with nextGate := some g }) x, start)

/-- GATE_LIST_STARTED (R326): the armed list is in force from its start. -/
def execGateListStarted (h : HalfId) (port : Nat) (s : State) : Out :=
  .next (match ((s.half h).net.getD port {}).nextGate with
    | none => s
    | some g =>
      if s.now h < g.start || (s.half h).boot.inReset then s
      else
        let w := gateWindow g (s.now h)
        event h 0x050E sevInfo (gateH h g.list) (le 8 g.start ++ le 8 g.cycle ++ le 4 g.cause)
          (s.upd h (updPort port (fun p => { p with nextGate := none, gate := some { g with windowEnd := w.2, mask := w.1 } }))))

/-- GATE_WINDOW_CHANGE (R321): at the end of a window the next entry's mask is in force. -/
def execGateWindowChange (h : HalfId) (port : Nat) (s : State) : Out :=
  .next (match ((s.half h).net.getD port {}).gate with
    | none => s
    | some g =>
      if s.now h < g.windowEnd then s
      else
        let w := gateWindow g (s.now h)
        s.upd h (updPort port (fun p => { p with gate := some { g with windowEnd := w.2, mask := w.1 } })))

def gateRebaseSpec : OpSpec := { opcode := 0x0521, handle := .types [0x0B], minLen := 8, atTime := true }

/-- GATE_REBASE (R327): the result holds S. -/
def execGateRebase (h : HalfId) (e : CmdEntry) (s : State) : Out :=
  .next (runCmd h gateRebaseSpec e none s (fun s =>
    let x := s.half h
    let r := x.record e.handle
    guarded [checkReserved e [(16, 8)], checkRunning x e.handle,
      failIf ((x.net.getD (rd r 16 4 % 65536) {}).flags.retired) { status := stRetired, step := 8 }, checkTime e x.clk.now] s (fun s =>
      let x := s.half h
      let base := fld e 16 8
      let p := gateArm r base ((entryTime e).getD x.clk.now) 2 x
      let s := s.upd h (fun _ => updPort (rd r 16 4 % 65536) (fun q => { q with rebase := some base }) p.1)
      if isAtTime e then .later (le 8 p.2) (addDeferred h 0x0521 e p.2 s) else .ok (le 8 p.2) s)))

/-! Shapers (R317, R318). -/

/-- The flows of the half that name a shaper. -/
def shaperFlows (h : HalfId) (x : Half) (sh : Handle) : List Handle :=
  (x.obj.flows.map (fun f => flowH h f.index)).filter (fun f => flShaper (x.record f) == sh)

/-- The least burst of a shaper: the largest max datagram of its flows plus 42. -/
def leastBurst (h : HalfId) (x : Half) (sh : Handle) : Nat :=
  match (shaperFlows h x sh).map (fun f => flMaxDatagram (x.record f)) with
  | [] => 0
  | l => maxOf l + 42

/-- New values of a shaper at this instant, on its own bucket or on every bucket made from it; SHAPER_CHANGED reports the shared
bucket, or that of the first flow that names the shaper. -/
def shaperApply (h : HalfId) (sh : Handle) (rate burst limit : Nat) (s : State) : State :=
  let x := s.half h
  let now := x.clk.now
  let change := bucketChange (10 * rate) burst now
  let s := s.upd h (fun x =>
    let x := updShaper (hIndex sh) (fun v => { v with rate := rate, burst := burst, latencyLimit := limit, bucket := change v.bucket }) x
    if rd (x.record sh) 16 1 == 1 then x
    else (shaperFlows h x sh).foldl (fun x f => updFlowAt h f (fun g => if hHalf g.port == h then { g with bucket := change g.bucket } else g) x) x)
  let s := (shaperFlows h (s.half h) sh).foldl (fun s f => match flowAt h (s.half h) f with
    | some g => if hHalf g.port != h && rd ((s.half h).record sh) 16 1 == 0 then
        s.upd h.other (updFlowAt h.other f (fun g => { g with bucket := bucketChange (10 * rate) burst (s.now h.other) g.bucket })) else s
    | none => s) s
  let x := s.half h
  let bal := if rd (x.record sh) 16 1 == 1 then (x.obj.shaper? (hIndex sh)).map (fun v => bucketBytes v.bucket)
    else ((shaperFlows h x sh).head?.bind (fun f => flowAt h x f)).map (fun g => bucketBytes g.bucket)
  event h 0x050F sevInfo sh (le 8 now ++ le 4 rate ++ le 4 burst ++ le 8 (unsigned 64 (bal.getD (burst : Int)))) s

/-- The values a SHAPER_SET payload gives (R318). -/
def shaperSetDo (h : HalfId) (e : CmdEntry) (s : State) : State :=
  match (s.half h).obj.shaper? (hIndex e.handle) with
  | none => s
  | some v =>
    let rate := if fld e 16 4 == 0xFFFFFFFF then v.rate else fld e 16 4
    let burst := if fld e 20 4 == 0 then v.burst else fld e 20 4
    let limit := if fld e 24 4 == 0xFFFFFFFF then v.latencyLimit else fld e 24 4
    shaperApply h e.handle rate burst limit s

def shaperSetSpec : OpSpec := { opcode := 0x0520, handle := .types [0x0C], minLen := 12, atTime := true }

/-- SHAPER_SET (R318). -/
def execShaperSet (h : HalfId) (e : CmdEntry) (s : State) : Out :=
  .next (runCmd h shaperSetSpec e none s (fun s =>
    let x := s.half h
    let rate := fld e 16 4
    let burst := fld e 20 4
    let limit := fld e 24 4
    guarded [bad6 (rate != 0xFFFFFFFF && 25000000 < rate) 16,
      bad6 (burst != 0 && (16777216 < burst || burst < leastBurst h x e.handle)) 20,
      bad6 (limit != 0xFFFFFFFF && 1000000 < limit) 24,
      checkReserved e [(16, 12)], checkRunning x e.handle, checkTime e x.clk.now] s (fun s =>
      if isAtTime e then .later [] (addDeferred h 0x0520 e (atTimeOf e) s) else .ok [] (shaperSetDo h e s))))

/-! Moves and host pacing. -/

def flowMoveSpec : OpSpec := { opcode := 0x0510, handle := .types [2], minLen := 1 }

/-- FLOW_MOVE (R282, R78). -/
def execFlowMove (h : HalfId) (e : CmdEntry) (s : State) : Out :=
  .next (runCmd h flowMoveSpec e none s (fun s =>
    let x := s.half h
    let r := x.record e.handle
    let w := fld e 16 1
    let dst := if w == 0 then flPort r else flSecondary r
    let f := (flowAt h x e.handle).getD { index := 0, port := 0, ssrc := 0, nextSeq := 0, sentSeq := 0 }
    guarded [bad6 (1 < w) 16, checkReserved e [(16, 1)], checkRunning x e.handle,
      failIf (f.run == .draining) { status := stBusyDraining, step := 8 },
      failIf (!portUp s dst) { status := stRetired, step := 8 },
      failIf (hHalf dst != h && !s.sparWorks) { status := stNoResource, step := 9 }] s (fun s =>
      let s := s.upd h (updFlowAt h e.handle (fun f => { f with moveAt := some w }))
      .ok [] (if f.pictureOpen || !f.queue.isEmpty then s else moveNow h e.handle s))))

/-- The release times of an entry: the first release, then table entries 1 onward (R329). -/
def releaseTimes (x : Half) (p : List Byte) : Option (List Nat) :=
  let n := afld p 36 2
  let region := BitVec.ofNat 32 (afld p 40 4)
  if n == 0 then some [afld p 24 8]
  else match recOf x.running region, placedAt x (hIndex region) with
    | some _, some q =>
      let t := devRead (placeAddr q + afld p 48 8) (8 * n) x
      some (afld p 24 8 :: (List.range (n - 1)).map (fun j => rd t (8 * (j + 1)) 8))
    | _, _ => none

/-- PACKET_RELEASE_TIMES (R329, R330): late after the picture's tick time; an entry that names a missing region is discarded. -/
def execPacketReleaseTimes (h : HalfId) (a : AssistEntry) (s : State) : Out :=
  .next (runAssist h 0x0B05 fnPacing a s (fun p s =>
    let x := s.half h
    let k := a.sequence.toNat
    let t := a.time.toNat
    let bad := afld p 38 2 != 0 || afld p 44 4 != 0 || afld p 56 8 != 0 || 4096 < afld p 36 2 || 1000000000 < afld p 32 4 ||
      afld p 48 8 % 64 != 0
    if t ≤ x.clk.now then assistLate h 0x0B05 a.tag.toNat a.handle k t 1 s
    else match (if bad then none else releaseTimes x p) with
      | none => assistLate h 0x0B05 a.tag.toNat a.handle k t 2 s
      | some ts =>
        let q : Schedule := { picture := k, tick := t, times := ts, spacing := afld p 32 4 }
        s.upd h (updFlowAt h a.handle (fun f => { f with schedules := f.schedules.filter (fun q => q.picture != k) ++ [q] }))))

/-! The spar hand-off (R302, R308, R457). -/

/-- MIRROR_STATE_RECEIVED (R302): the half keeps the mirrored state of a flow of the other half, with its record. -/
def execMirrorStateReceived (h : HalfId) (flow : Handle) (m : Mirror) (s : State) : Out :=
  .next (
    let x := s.half h
    if hHalf flow == h || x.boot.inReset || !s.sparWorks then s
    else
      let r := (s.half h.other).record flow
      let cls := flowClass (s.half h.other) r
      let prm := flowParams (s.half h.other) r
      let fresh : FlowSt := { index := hIndex flow, path := .standby, port := 0, ssrc := m.ssrc, nextSeq := m.nextSeq, sentSeq := m.nextSeq - 1 }
      s.upd h (fun x =>
        let x := if (flowAt h x flow).isSome then x else { x with obj := { x.obj with foreign := x.obj.foreign ++ [fresh] } }
        updFlowAt h flow (fun f => { f with
          mirror := some m, copyOf := r, cls := cls, ssrc := m.ssrc
          bucket := if f.path == .standby then bucketNew prm.1 prm.2 x.clk.now else f.bucket
          nextSeq := if f.path == .standby then m.nextSeq else f.nextSeq
          frame := if f.path == .standby then m.frame else f.frame
          openFrame := if f.path == .standby then m.openFrame else f.openFrame, sets := m.sets }) x))

/-- PARTNER_COPY_RECEIVED (R306, R308): a packet of a moved flow, sent on this half's port, or of the partner copy of a guarded flow of
this half, held until it is sent from the other copy or two pictures old. It keeps the stamp of the encode engine (R324).
`bytes` is none where no buffer is free: no copy is made then, and the partner copy cannot be used until its next picture (R376). -/
def execPartnerCopyReceived (h : HalfId) (flow : Handle) (seq : W16) (picture : Nat) (bytes : Option Nat) (s : State) : Out :=
  .next (
    if !s.sparWorks || (s.half h).boot.inReset then s
    else match flowAt h (s.half h) flow with
      | none => s
      | some f =>
        let now := s.now h
        if hHalf flow != h then
          let own := flowAt h.other (s.half h.other) flow
          let p : Packet := match own.bind (fun g => g.queue.find? (fun k => k.seq == seq)) with
            | some k => { k with held := false }
            | none => { seq := seq, wire := bytes.getD 0, ready := now, picture := picture, tick := f.lastTick, unitFirst := false, pictureLast := false }
          let s := s.upd h.other (updFlowAt h.other flow (fun g => { g with queue := g.queue.filter (fun k => k.seq != seq) }))
          if bytes.isNone then s else s.upd h (updFlowAt h flow (fun f => { f with
            queue := f.queue ++ [p], nextSeq := seq + 1, picture := picture, lastTick := p.tick, pictureOpen := !p.pictureLast }))
        else
          let partner := flPartner ((s.half h).record flow)
          let src := (flowAt h.other (s.half h.other) partner).bind (fun g => g.queue.find? (fun k => k.seq == seq))
          let p : Packet := match src with
            | some k => { k with held := false }
            | none => { seq := seq, wire := bytes.getD 0, ready := now, picture := picture, tick := f.lastTick, unitFirst := false, pictureLast := false }
          let young := fun (l : List Packet) => l.filter (fun q => picture < q.picture + 2)
          -- The half's own encoder codes nothing before its restart: its numbers go on after the partner's.
          let idle : Bool := match (s.half h).obj.encode? (hIndex (flStream ((s.half h).record flow))) with
            | some e => e.run == .halted || e.restartAt.any (fun t => decide (p.tick < t))
            | none => false
          s.upd h (updFlowAt h flow (fun f =>
            if !seqAfter seq f.sentSeq || f.path == .standby then f
            else if bytes.isNone then { f with copyMissed := some picture, copies := [] }
            else if f.copyMissed.any (fun m => picture ≤ m) then f
            else if f.copyFrom == h then { f with copyMissed := none, copies := young f.copies ++ [p] }
            else { f with copyMissed := none, queue := f.queue ++ [p], nextSeq := if idle then seq + 1 else f.nextSeq })))

/-- UNIT_ANNOUNCEMENT_RECEIVED (R457): kept and acknowledged. -/
def execUnitAnnouncementReceived (h : HalfId) (a : UnitAnnouncement) (s : State) : Out :=
  .next (
    if !s.sparWorks || (s.half h).boot.inReset || hHalf a.flow == h then s
    else
      let r := (s.half h.other).record a.flow
      let fresh : FlowSt := { index := hIndex a.flow, path := .standby, port := 0, ssrc := 0, nextSeq := a.firstSeq, sentSeq := a.firstSeq - 1, copyOf := r }
      emit h (.announcementAck a.flow) (s.upd h (fun x =>
        let x := if (flowAt h x a.flow).isSome then x else { x with obj := { x.obj with foreign := x.obj.foreign ++ [fresh] } }
        updFlowAt h a.flow (fun f => { f with acked := some a }) x)))

/-- UNIT_ANNOUNCEMENT_ACK (R457): the unit's first packet may go. -/
def execUnitAnnouncementAck (h : HalfId) (flow : Handle) (s : State) : Out :=
  .next (
    if hHalf flow != h || (s.half h).boot.inReset then s
    else s.upd h (updFlowAt h flow (fun f => { f with
      acked := f.announced, queue := f.queue.map (fun p => { p with held := false }) })))

/-- SEQUENCE_REPORT_RECEIVED (R457): the standby flow learns the last sequence number the active flow sent, and drops what it has. -/
def execSequenceReportReceived (h : HalfId) (r : FlowSeq) (s : State) : Out :=
  .next (
    if (s.half h).boot.inReset || !s.sparWorks then s
    else
      let mine := ((s.half h).obj.flows.map (fun f => flowH h f.index)).filter (fun f =>
        f == r.flow || flPartner ((s.half h).record f) == r.flow)
      s.upd h (fun x => mine.foldl (fun x f => updFlowAt h f (fun g =>
        if g.path == .standby then { g with reported := some r.lastSent, queue := queueAfter r.lastSent g.queue } else g) x) x))

end Sys2Proof.Machine
end

