-- ==== Sys2Proof/Machine/Records.lean ====
section
/-!
DEFINITION. Records.lean: the checks of a commit on each record alone (steps 6 to 8 of R65): form, handle, and the field ranges that
the owning chapters give.
-/
namespace Sys2Proof.Machine

/-! Form and handle (R58, R59, R62, R587). -/

/-- The CRC of a record (R58): bytes 0 to 7 followed by bytes 12 to length − 1. -/
def recordCrc (r : Record) : Nat := crc32c (r.take 8 ++ r.drop 12)

/-- The whole length that the record's type gives it (log 12 for MODE). -/
def typeLength (r : Record) : Nat :=
  match recType r with
  | 0x01 => 80
  | 0x02 => 96
  | 0x03 => 80
  | 0x04 => 64
  | 0x05 => 96
  | 0x06 => 48
  | 0x07 => 48
  | 0x08 => 64
  | 0x09 => 56
  | 0x0A => 56
  | 0x0B => 40 + 8 * rd r 20 2
  | 0x0C => 48
  | 0x0D => 48
  | 0x0E => if rd r 16 1 == 1 then (24 + 4 * rd r 18 2 + 7) / 8 * 8 else 32
  | 0x0F => 24
  | _ => 64

/-- The reason of step 6 for a record, or none: CRC, then length, type, version, reserved bits (R58, R62). -/
def formReason (r : Record) : Option Nat :=
  if recordCrc r != recCrc r then some 0x05
  else if r.length != recLength r || r.length < 16 || r.length % 8 != 0 then some 0x06
  else if recType r == 0 || 0x12 < recType r || recVersion r != 1 || 3 < recFlags r then some 0x06
  else if (recFlags r).testBit 1 then (if r.length == 16 then none else some 0x06)
  else if r.length != typeLength r then some 0x06
  else none

/-- The handle index lies in the range of R587; a header-only record has no kind. -/
def indexOk (r : Record) : Bool :=
  let i := hIndex (recHandle r)
  let short := r.length == 16
  match recType r with
  | 0x01 => i ≤ 1
  | 0x02 => i ≤ 1023
  | 0x03 => i ≤ 191
  | 0x04 => i ≤ 191
  | 0x05 => i ≤ 255
  | 0x06 => i ≤ 127
  | 0x07 => i ≤ 127
  | 0x08 => i ≤ 127
  | 0x09 => i ≤ 2047
  | 0x0A => i ≤ 2047
  | 0x0B => i ≤ 1
  | 0x0C => i ≤ 1023
  | 0x0D => i ≤ 15
  | 0x0E => if short then i ≤ 49 || i == 0x100 else if rd r 16 1 == 1 then i == 0x100 else i ≤ 49
  | 0x0F => i ≤ 16383
  | 0x10 =>
    let one := 0xFF00 ≤ i && i < 0xFF04
    if short then i ≤ 4095 || one || i == 0xFF10
    else if rd r 16 1 == 1 then i == 0xFF00 + rd r 17 1 && one
    else if rd r 16 1 == 2 then i == 0xFF10
    else i ≤ 4095
  | _ => i == 0

/-- Step 7 for one record, uniqueness apart (R65, R12). -/
def handleFits (h : HalfId) (r : Record) : Bool :=
  let x := recHandle r
  hType x == recType r && hHalf x == h && hReserved x == 0 && indexOk r

/-! Field helpers. -/

/-- A value within bounds. -/
def within (v lo hi : Nat) : Bool := lo ≤ v && v ≤ hi

/-- Bytes that must be zero. -/
def zeros (r : Record) (off n : Nat) : Bool := ((r.drop off).take n).all (fun b => b == 0)

/-- Every condition of a list holds. -/
def allOf (l : List Bool) : Bool := l.all (fun b => b)

/-- A two's-complement field within bounds. -/
def withinS (r : Record) (off n : Nat) (lo hi : Int) : Bool :=
  let v := signed (8 * n) (rd r off n)
  lo ≤ v && v ≤ hi

/-! Bodies, type by type. -/

/-- A global unicast IPv6 address: neither unspecified, loopback, link-local nor multicast. -/
def globalUnicast (a : Nat) : Bool := a != 0 && a != 1 && a / 2 ^ 118 != 0x3FA && a / 2 ^ 120 != 0xFF

/-- PORT (R279). -/
def portOk (r : Record) : Bool :=
  let f := rd r 18 1
  allOf [within (rd r 16 1) 1 2, rd r 17 1 ≤ 2, f < 16, rd r 19 1 ≤ 32, !(rd r 20 1).testBit 0, within (rd r 26 2) 1280 9000,
    f.testBit 0 || rd r 28 4 == 0, rd r 36 2 ≤ 4094, rd r 38 1 ≤ 128, zeros r 39 1,
    if f.testBit 1 then globalUnicast (rd r 40 16) else rd r 40 16 == 0,
    withinS r 72 2 (-2000) 2000, withinS r 74 2 (-2000) 2000, zeros r 76 4,
    !(rd r 17 1 == 2 && rd r 16 1 == 2), f % 4 != 0]

/-- FLOW (R292); the upper bound of max datagram belongs to step 9. -/
def flowOk (r : Record) : Bool :=
  allOf [rd r 32 1 == 4 || rd r 32 1 == 6, within (rd r 33 1) 96 127, rd r 34 1 ≤ 63, 1 ≤ rd r 35 1, flV6 r || zeros r 40 12,
    1 ≤ rd r 52 2, 1 ≤ rd r 54 2, !(rd r 56 2).testBit 12, rd r 56 2 % 4096 ≤ 4094, rd r 59 1 < 16, flFlag r 0 || rd r 60 4 != 0,
    (if flV6 r then 1280 else 576) ≤ flMaxDatagram r, zeros r 82 14]

/-- INPUT (R93). An IPv4 source filter lies in bytes 40 to 43, and 44 to 55 are zero (log 81). -/
def inputOk (r : Record) : Bool :=
  allOf [within (rd r 20 1) 1 3, rd r 21 1 == 4 || rd r 21 1 == 6, rd r 22 1 ≤ 127 || rd r 22 1 == 0xFF, rd r 23 1 ≤ 1,
    rd r 21 1 == 6 || (zeros r 28 12 && zeros r 44 12), 1 ≤ rd r 56 2, rd r 58 2 ≤ 4094,
    rd r 64 4 == 0 || within (rd r 64 4) 1000 500000, within (rd r 68 4) 65536 67108864, rd r 74 2 < 8, rd r 76 4 ≤ 25000000]

/-- DECODE_STREAM (R86). -/
def decodeOk (r : Record) : Bool :=
  let codec := rd r 16 1
  let aff := rd r 27 1
  let pair := (rd r 56 2).testBit 0
  let fed := rd r 40 4 != 0
  allOf [within codec 1 3, rd r 17 1 ≤ 2, rd r 18 1 ≤ 1, rd r 19 1 ≤ 8 || rd r 19 1 == 0xFF,
    within (rd r 20 2) 16 8192, rd r 20 2 % 8 == 0, within (rd r 22 2) 16 4352, rd r 22 2 % 8 == 0,
    rd r 24 1 == 8 || rd r 24 1 == 10, rd r 25 1 ≤ 2, rd r 25 1 != 2 || codec == 1, within (rd r 26 1) 1 16,
    aff ≤ 5 || aff == 0x10 || aff == 0x11 || aff == 0xFF, within (rd r 28 4) 1 240000, within (rd r 32 4) 1 1000000,
    if fed then rd r 44 4 % 65536 == 0 && within (rd r 44 4) 262144 67108864 else rd r 44 4 == 0,
    rd r 56 2 < 32, rd r 58 1 ≤ 31, codec == 3 || rd r 58 1 == 0, rd r 59 1 ≤ 7, codec == 1 || rd r 59 1 == 7,
    rd r 60 1 ≤ 1, fed || rd r 60 1 == 0, zeros r 61 3,
    rd r 17 1 != 0 || rd r 19 1 == 0 || rd r 19 1 == 0xFF, !(rd r 36 4 != 0 && fed), rd r 36 4 != 0 || fed || rd r 52 4 != 0,
    !pair || codec == 1, !pair || 5 < aff]

/-- ENCODE_STREAM (R190, R194, R195). The level of a stream that reads a canvas depends on that record's ticks: it is judged with the conditions
between records (R588). -/
def encodeOk (rs : List Record) (r : Record) : Bool :=
  let codec := esCodec r
  let profile := rd r 17 1
  let aff := rd r 61 1
  let deep := rd r 24 1 == 10
  let wide := rd r 25 1 == 2
  let mode := rd r 33 1
  let size := rd r 34 2
  let canvas := hType (esSource r) == 8
  allOf [within codec 1 3, within profile 1 (if codec == 1 then 3 else 1), esClass r ≤ 2,
    within (esWidth r) 64 7680, esWidth r % 8 == 0, within (esHeight r) 64 4320, esHeight r % 8 == 0,
    rd r 24 1 == 8 || deep, rd r 25 1 == 1 || wide, rd r 26 1 ≤ 1, codec == 1 || rd r 26 1 == 0, rd r 27 1 ≤ 4,
    within (esDivisor r) 1 8] &&
  allOf [mode ≤ 3, if mode == 2 then within size 2 68 else if mode == 3 then within size 1000 65000 else size == 0,
    within (rd r 36 2) 1 1000, rd r 38 1 ≤ 4, rd r 39 1 ≤ 3, rd r 40 2 == 0 || within (rd r 40 2) 200 60000,
    rd r 42 2 == 0 || within (rd r 42 2) 10 36000] &&
  allOf [within (rd r 44 4) 100 800000, within (rd r 48 4) (rd r 44 4) 800000, 100 ≤ rd r 52 4,
    rd r 56 1 == 0 || within (rd r 56 1) 10 100, rd r 57 1 ≤ qpTop r, within (rd r 58 1) (rd r 57 1) (qpTop r),
    within (rd r 59 1) (rd r 57 1) (rd r 58 1), rd r 60 1 ≤ 200 || rd r 60 1 == 0xFF,
    aff ≤ 7 || aff == 0x10 || aff == 0x11 || aff == 0xFF, rd r 62 2 < 32, zeros r 88 8] &&
  allOf [
    !(codec == 2 && (deep || wide || 4096 < esWidth r || 2304 < esHeight r)), !(codec == 3 && wide),
    !(codec == 1 && profile == 1 && deep), !(codec == 1 && wide && profile != 3),
    !(codec == 3 && (mode == 3 || (mode == 1 && 4096 < esHeight r))),
    if canvas then zeros r 72 16 else hType (esSource r) != 0x0A || (rd r 72 4 != 0 && within (rd r 76 4) 1 1001),
    esGuarded r == (esPartner r != 0),
    canvas || levelOk rs r (rd r 48 4) (rd r 52 4)]

/-- LADDER (R202). -/
def ladderOk (r : Record) : Bool :=
  allOf [within (rd r 16 1) 2 6, zeros r 17 3, zeros r (20 + 4 * rd r 16 1) (24 - 4 * rd r 16 1), zeros r 44 4]

/-- GANG (R206, R207). -/
def gangOk (r : Record) : Bool :=
  let n := rd r 16 1
  allOf [n == 2 || n == 4 || n == 8, if n == 8 then rd r 17 1 == 0xFF else rd r 17 1 == 0x10 || rd r 17 1 == 0x11, zeros r 18 2,
    (List.range n).all (fun i => !within (rd r (24 + 2 * i) 2) 1 3), zeros r (24 + 2 * n) (16 - 2 * n), zeros r 40 8]

/-- CANVAS (R152). -/
def canvasOk (r : Record) : Bool :=
  allOf [within (cvWidth r) 64 7680, cvWidth r % 8 == 0, within (cvHeight r) 64 4320, cvHeight r % 8 == 0, rd r 20 1 ≤ 1,
    rd r 21 1 == 8 || rd r 21 1 == 10, within (rd r 22 1) 1 2, rd r 23 1 ≤ 3, within (cvDen r) 1 1001,
    8333333 * cvDen r ≤ cvNum r, cvNum r ≤ 1000000000 * cvDen r, within (rd r 40 1) 1 4, within (cvBuffers r) 3 8,
    within (rd r 42 2) 1 1000, rd r 48 1 ≤ 7, rd r 49 1 < 4, zeros r 50 2, rd r 60 4 < 2 ^ 30]

/-- LAYER (R155, R156). -/
def layerOk (r : Record) : Bool :=
  allOf [rd r 24 1 ≤ 15, rd r 25 1 != 0, rd r 26 1 ≤ 3, rd r 27 1 ≤ 3,
    (List.range 8).all (fun i => rd r (28 + 2 * i) 2 % 2 == 0), within (rd r 40 2) 2 16384, within (rd r 42 2) 2 16384,
    rd r 44 2 ≤ 4096, rd r 46 1 ≤ 1, rd r 47 1 < 8, rd r 48 4 < 2 ^ 30, zeros r 52 4]

/-- A surface format with Y′CbCr samples (R158). -/
def sfYuv (r : Record) : Bool := within (rd r 16 1) 1 3

/-- SURFACE (R157). -/
def surfaceOk (r : Record) : Bool :=
  allOf [sfYuv r || within (rd r 16 1) 0x10 0x12, within (rd r 17 1) 2 4, within (rd r 18 2) 16 7680, !sfYuv r || rd r 18 2 % 2 == 0,
    within (rd r 20 2) 16 4320, !(rd r 16 1 == 1 || rd r 16 1 == 2) || rd r 20 2 % 2 == 0, zeros r 22 2, rd r 24 4 % 64 == 0,
    rd r 32 8 % 4096 == 0, rd r 40 4 % 4096 == 0, rd r 44 1 ≤ 3, rd r 45 1 < 4, zeros r 46 2,
    (rd r 45 1).testBit 1 == (rd r 48 4 != 0), zeros r 52 4]

/-- The longest closed run of a class through a list laid end to end twice, which covers the wrap. -/
def closedRun (c : Nat) : List (Nat × Nat) → Nat → Nat → Nat
  | [], _, best => best
  | (d, m) :: es, run, best => if m.testBit c then closedRun c es 0 best else closedRun c es (run + d) (max best (run + d))

/-- GATE_LIST (R320). -/
def gateOk (r : Record) : Bool :=
  let es := gateEntries r
  let closed := if es.all (fun e => !e.2.testBit 7) then 1000001 else closedRun 7 (es ++ es) 0 0
  allOf [within (rd r 20 2) 1 64, zeros r 22 2, within (rd r 24 4) 10000 1000000000, zeros r 28 4,
    (List.range (rd r 20 2)).all (fun i => zeros r (45 + 8 * i) 3), es.all (fun e => 500 ≤ e.1),
    total (es.map (fun e => e.1)) == rd r 24 4, closed ≤ 1000000]

/-- SHAPER (R313); the lower bound of burst belongs to step 9. -/
def shaperOk (r : Record) : Bool :=
  allOf [rd r 16 1 ≤ 1, rd r 17 1 ≤ 6, zeros r 18 2, within (rd r 20 4) 1 25000000, rd r 24 4 ≤ 16777216, rd r 28 4 ≤ 1000000,
    (rd r 16 1 == 1) == (rd r 32 4 != 0), zeros r 36 12]

/-- POOL (R369). -/
def poolOk (r : Record) : Bool :=
  let align := max 1 (min 4096 (bufSize (hIndex (recHandle r))))
  allOf [rd r 16 4 ≤ 262144, rd r 24 8 % 4096 == 0, rd r 24 8 % align == 0, rd r 32 1 ≤ 50, zeros r 33 15]

/-- REACTION (R438, R439, R463). -/
def reactionOk (r : Record) : Bool :=
  let src := hIndex (recHandle r)
  let act := rd r 18 2
  if rd r 16 1 == 1 then
    allOf [zeros r 17 1, rd r 18 2 ≤ 1024, zeros r 20 4, zeros r (24 + 4 * rd r 18 2) 4]
  else
    allOf [rd r 16 1 == 0, act < 64, act.testBit 0, src != 38 || act.testBit 5, !act.testBit 3 || src ≤ 25 || src == 34 || src == 35,
      rd r 17 1 == 0 || act.testBit 4, rd r 17 1 < 16, zeros r 21 1, rd r 24 4 == 0 || within (rd r 24 4) 10 60000, zeros r 28 4]

/-- MODE (R30, log 12). -/
def modeOk (r : Record) : Bool := allOf [rd r 16 1 ≤ 9, rd r 17 1 ≤ 1, zeros r 18 2]

/-- MEMORY_REGION (R337). -/
def regionOk (r : Record) : Bool :=
  match rd r 16 1 with
  | 0 =>
    let place := rd r 32 8
    allOf [rd r 17 1 ≤ 3 || rd r 17 1 == 0xFF, rd r 18 2 ≤ 1, zeros r 20 4, within (rd r 24 8) 65536 7516192768, rd r 24 8 % 65536 == 0,
      place == 0 || ((place - 1) % 65536 == 0 && rd r 17 1 != 0xFF), zeros r 40 24]
  | 1 =>
    allOf [rd r 17 1 ≤ 3, rd r 18 2 ≤ 1, rd r 20 2 == 0 || (within (rd r 20 2) 256 16384 && rd r 20 2 % 256 == 0),
      rd r 22 2 ≤ 1000 || rd r 22 2 == 0xFFFF, rd r 24 4 ≤ 1000000, rd r 28 2 == 0 || within (rd r 28 2) 32 4096, rd r 30 1 ≤ 20,
      zeros r 31 13, (List.range 10).all (fun i => rd r (44 + 2 * i) 2 == 0 || within (rd r (44 + 2 * i) 2) 10 10000)]
  | 2 => allOf [zeros r 17 1, rd r 18 2 == 0 || within (rd r 18 2) 10 320, zeros r 20 44]
  | _ => false

/-- PTP (R286). -/
def ptpOk (r : Record) : Bool :=
  allOf [rd r 16 1 ≤ 127, [6, 7, 52, 187, 248, 255].contains (rd r 19 1), rd r 19 1 != 6 || (rd r 20 1).testBit 2, rd r 20 1 < 16,
    within (rd r 21 1) 1 3, withinS r 22 1 (-7) 1, withinS r 23 1 (-3) 3, withinS r 24 1 (-7) 2, within (rd r 25 1) 2 10,
    rd r 26 2 == 0 || within (rd r 26 2) 10 10000, withinS r 44 4 (-1000000) 1000000, within (rd r 48 4) 1 86400, zeros r 52 12]

/-- COUNTER_EXPOSURE (R425). -/
def exposureOk (r : Record) : Bool :=
  allOf [rd r 16 8 < 2 ^ 36, rd r 24 8 < 2 ^ 36, within (rd r 36 4) 1000 1000000000, within (rd r 40 4) 16 1048576, rd r 46 1 ≤ 1, zeros r 47 17]

/-- Step 8 for one record. -/
def bodyOk (rs : List Record) (r : Record) : Bool :=
  match recType r with
  | 0x01 => portOk r
  | 0x02 => flowOk r
  | 0x03 => inputOk r
  | 0x04 => decodeOk r
  | 0x05 => encodeOk rs r
  | 0x06 => ladderOk r
  | 0x07 => gangOk r
  | 0x08 => canvasOk r
  | 0x09 => layerOk r
  | 0x0A => surfaceOk r
  | 0x0B => gateOk r
  | 0x0C => shaperOk r
  | 0x0D => poolOk r
  | 0x0E => reactionOk r
  | 0x0F => modeOk r
  | 0x10 => regionOk r
  | 0x11 => ptpOk r
  | _ => exposureOk r

end Sys2Proof.Machine
end

