-- ==== Sys2Proof/Machine/Admission.lean ====
section
/-!
DEFINITION. Admission.lean: what a configuration demands of a half, and where firmware places it: engine and pipe loads (R108 to R112,
R179, R219 to R222, R237 to R239), memory charges and region placement (R88, R180, R197, R338, R369), pool checks (R370, R378), bandwidth
(R35, R36) and port rates (R328). A commit runs these on its draft, a retirement on the running records (R461).
-/
namespace Sys2Proof.Machine

/-! Exact fractions. -/

/-- A non-negative fraction in lowest terms. -/
structure Frac where
  num : Nat := 0
  den : Nat := 1
  deriving DecidableEq, Repr

/-- A quotient in lowest terms. -/
def mkFrac (n d : Nat) : Frac :=
  let g := max 1 (Nat.gcd n d)
  { num := n / g, den := max 1 (d / g) }

def fracAdd (a b : Frac) : Frac := mkFrac (a.num * b.den + b.num * a.den) (a.den * b.den)
def fracMul (n d : Nat) (a : Frac) : Frac := mkFrac (a.num * n) (a.den * d)
def fracLe (a b : Frac) : Bool := a.num * b.den ≤ b.num * a.den
def fracLt (a b : Frac) : Bool := !fracLe b a
def fracMax (a b : Frac) : Frac := if fracLe a b then b else a
def fracSum (l : List Frac) : Frac := l.foldl fracAdd {}
def fracNat (n : Nat) : Frac := { num := n }

/-- A load in 10⁻⁶, rounded down. -/
def micro (a : Frac) : Nat := a.num * 1000000 / a.den

/-- What admission decides for one object: its handle, its units and its load. -/
abbrev Placed := Handle × List Nat × Nat

/-- A placement so far: the objects placed, and the first that fits nowhere. -/
structure Places (β : Type) where
  bins : β
  placed : List Placed := []
  failed : Option Handle := none

/-- The units that an object keeps: those of the list, when all are still in service. -/
def keptUnits (keep : List Placed) (units : List Nat) (x : Handle) : Option (List Nat) :=
  match keep.find? (fun p => p.1 == x) with
  | some p => if !p.2.1.isEmpty && p.2.1.all (fun u => units.contains u) then some p.2.1 else none
  | none => none

/-- The units of a type that are in service. -/
def serving (l : List UnitFlags) : List Nat :=
  (List.range l.length).filter (fun i => let f := l.getD i {}; f.inService && !f.retired && !f.quiescing)

/-! Decode (R108 to R112). -/

/-- A dimension as coded (R108). -/
def codedSize (codec n : Nat) : Nat := if codec == 3 then n else ceilDiv n 16 * 16

/-- The coded luma area of a decode record (R109). -/
def decArea (r : Record) : Nat := codedSize (rd r 16 1) (rd r 20 2) * codedSize (rd r 16 1) (rd r 22 2)

/-- The load of a decode context (R109). -/
def decLoad (r : Record) : Frac :=
  let area := if rd r 25 1 == 2 then mkFrac (4 * decArea r) 3 else fracNat (decArea r)
  fracMax (fracMul (rd r 28 4) 1993750000000 (fracAdd area (fracNat 4096))) (mkFrac (rd r 32 4) 1000000)

/-- An engine while contexts are placed: index, summed load, contexts. -/
structure Bin where
  unit : Nat
  load : Frac := {}
  count : Nat := 0
  deriving DecidableEq, Repr

/-- A context joins an engine. -/
def binJoin (u : Nat) (l : Frac) (bs : List Bin) : List Bin :=
  mapWhere (fun b => b.unit == u) (fun b => { b with load := fracAdd b.load l, count := b.count + 1 }) bs

/-- The first element with the least key. -/
def leastBy {α : Type} (key : α → Frac) : List α → Option α
  | [] => none
  | a :: as => match leastBy key as with
    | none => some a
    | some b => if fracLe (key a) (key b) then some a else some b

/-- The engines an affinity allows (R86, R194). -/
def affinityOk (aff perCluster u : Nat) : Bool :=
  aff == 0xFF || (if 0x10 ≤ aff then u / perCluster == aff - 0x10 else u == aff)

/-- The paired stream splits its load (R109); BULK load is not summed (R110). -/
def decShare (r : Record) : Frac :=
  if decClass r == 2 then {} else if (rd r 56 2).testBit 0 then fracMul 1 2 (decLoad r) else decLoad r

/-- The engines for a context, lowest load (BULK: fewest contexts) first that fits (R110). -/
def decEngines (bs : List Bin) (r : Record) : Option (List Nat) :=
  let share := decShare r
  let ok := bs.filter (fun b => affinityOk (rd r 27 1) 3 b.unit && b.count < 32 && fracLe (fracAdd b.load share) (fracNat 1))
  let key := fun (b : Bin) => if decClass r == 2 then fracNat b.count else b.load
  if (rd r 56 2).testBit 0 then
    let pairs := ok.flatMap (fun a => (ok.filter (fun b => a.unit < b.unit && a.unit / 3 == b.unit / 3)).map (fun b => (a, b)))
    (leastBy (fun (p : Bin × Bin) => fracAdd (key p.1) (key p.2)) pairs).map (fun p => [p.1.unit, p.2.unit])
  else (leastBy key ok).map (fun b => [b.unit])

/-- Puts a context on engines. -/
def decPut (r : Record) (us : List Nat) (p : Places (List Bin)) : Places (List Bin) :=
  { p with bins := us.foldl (fun bs u => binJoin u (decShare r) bs) p.bins
           placed := p.placed ++ [(recHandle r, us, micro (decLoad r))] }

/-- Places one context, unless an earlier one has failed. -/
def decStep (p : Places (List Bin)) (r : Record) : Places (List Bin) :=
  if p.failed.isSome then p
  else match decEngines p.bins r with
    | none => { p with failed := some (recHandle r) }
    | some us => decPut r us p

/-- Decode placement (R110, R112): what continues first, then LIVE and TIMED by descending load, then BULK. -/
def placeDecodes (units : List Nat) (rs : List Record) (keep : List Placed) : Places (List Bin) :=
  let ds := ofType rs 4
  let held := fun (r : Record) => keptUnits keep units (recHandle r)
  let p := ds.foldl (fun p r => match held r with | some us => decPut r us p | none => p)
    ({ bins := units.map (fun u => { unit := u }) } : Places (List Bin))
  let rest := ds.filter (fun r => (held r).isNone)
  let byLoad := fun (c : Nat) => sortBy (fun a b => fracLt (decLoad b) (decLoad a)) (rest.filter (fun r => decClass r == c))
  (byLoad 0 ++ byLoad 1 ++ rest.filter (fun r => decClass r == 2)).foldl decStep p

/-! Composition (R176, R179). -/

/-- The change share of a canvas (R179), in 1/1,000. -/
def cvShare (r : Record) : Nat := if cvLive r || cvGuarded r then 1000 else rd r 42 2

/-- The load of some tiles of a canvas (R179). -/
def tilesLoad (r : Record) (tiles : Nat) : Frac :=
  mkFrac (tiles * (cvShare r * 4096 + (1000 - cvShare r) * 64) * cvDen r) (1000 * cvNum r)

/-- The load of a canvas (R179). -/
def cvLoad (r : Record) : Frac := tilesLoad r (cvTiles r)

/-- The tile rows of each band of a canvas (R176). -/
def bandHeights (r : Record) : List Nat :=
  let rows := cvRows r
  let per := ceilDiv rows (max 1 (rd r 40 1))
  (List.range (ceilDiv rows per)).map (fun i => min per (rows - i * per))

/-- Puts the bands of a canvas on pipes. -/
def cvPut (r : Record) (us : List Nat) (p : Places (List Bin)) : Places (List Bin) :=
  { p with bins := (us.zip (bandHeights r)).foldl (fun bs u => binJoin u.1 (tilesLoad r (u.2 * cvCols r)) bs) p.bins
           placed := p.placed ++ [(recHandle r, us, micro (cvLoad r))] }

/-- Each band takes the least loaded pipe not yet used by the canvas. -/
def cvChoose (r : Record) (bs : List Bin) : List Nat → List Nat → Option (List Nat)
  | [], used => some used
  | rows :: more, used =>
    let l := tilesLoad r (rows * cvCols r)
    match leastBy (fun (b : Bin) => b.load) (bs.filter (fun b => !used.contains b.unit)) with
    | none => none
    | some b => if fracLe (fracAdd b.load l) (fracNat 1) then cvChoose r bs more (used ++ [b.unit]) else none

/-- Places one canvas. -/
def cvStep (p : Places (List Bin)) (r : Record) : Places (List Bin) :=
  if p.failed.isSome then p
  else match cvChoose r p.bins (bandHeights r) [] with
    | none => { p with failed := some (recHandle r) }
    | some us => cvPut r us p

/-- Composition placement (R179): what continues first, then by descending load. -/
def placeCanvases (units : List Nat) (rs : List Record) (keep : List Placed) : Places (List Bin) :=
  let cs := ofType rs 8
  let held := fun (r : Record) => keptUnits keep units (recHandle r)
  let p := cs.foldl (fun p r => match held r with | some us => cvPut r us p | none => p)
    ({ bins := units.map (fun u => { unit := u }) } : Places (List Bin))
  (sortBy (fun a b => fracLt (cvLoad b) (cvLoad a)) (cs.filter (fun r => (held r).isNone))).foldl cvStep p

/-! Encode (R219 to R222, R237 to R239). -/

/-- Pictures per second of a stream. -/
def esRate (rs : List Record) (r : Record) : Frac :=
  let p := esPicPeriod rs r
  mkFrac (p.2 * 1000000000) p.1

/-- Normalised pixel-equivalents per second, as a share of an engine's 995 × 10⁶ (R237). -/
def engineShare (rs : List Record) (r : Record) (perPicture : Frac) : Frac :=
  let f := (esRate rs r)
  let w := if esHeavy r then (4, 3) else (1, 1)
  mkFrac (perPicture.num * f.num * w.1) (perPicture.den * f.den * w.2 * 995000000)

/-- The peak bit rate as a share of the entropy stage (R219). -/
def peakShare (r : Record) : Frac := mkFrac (rd r 48 4) 1000000

/-- Full-cost pixel-equivalents of a picture of n CTUs (R219). -/
def fullCount (n : Nat) : Frac := fracNat (n * 4096 + 20000)

/-- G of R238 for the whole stream. -/
def refreshCtus (rs : List Record) (r : Record) : Nat :=
  if esRefresh r == 1 || esRefresh r == 3 then min (esCtus r) ((ceilDiv (esCols r) (sweepLength rs r) + 1) * esRows r) else 0

/-- The declared pixel-equivalents of a picture of n CTUs with g refresh CTUs (R238). -/
def declaredCost (r : Record) (n g : Nat) : Frac :=
  mkFrac (1000 * (20000 + 4096 * g) + (n - g) * (64000 + 4032 * rd r 36 2)) 1000

/-- The cost of some columns of a stream: full for tier 1, declared otherwise. -/
def columnsCost (rs : List Record) (r : Record) (cols : Nat) : Frac :=
  let n := cols * esRows r
  if esTier1 r then fullCount n
  else declaredCost r n (min n (ceilDiv (refreshCtus rs r * cols) (max 1 (esCols r))))

/-- The load (R219) or declared charge (R238) of some columns of a stream. -/
def columnsLoad (rs : List Record) (r : Record) (cols : Nat) : Frac :=
  fracMax (engineShare rs r (columnsCost rs r cols)) (peakShare r)

/-- The load or charge of a stream coded by one engine. -/
def esLoad (rs : List Record) (r : Record) : Frac := columnsLoad rs r (esCols r)

/-- An encode engine while contexts are placed. -/
structure EncBin where
  unit : Nat
  tier1 : Frac := {}
  charge : Frac := {}
  count : Nat := 0
  holds : Bool := false
  deriving DecidableEq, Repr

/-- The load that R239 compares. -/
def encWeight (b : EncBin) : Frac := fracAdd b.tier1 b.charge

/-- T and the declared charge of a cluster (R239). -/
def clusterT (c : Nat) (bs : List EncBin) : Frac := fracSum ((bs.filter (fun b => b.unit / 4 == c)).map (fun b => b.tier1))
def clusterD (c : Nat) (bs : List EncBin) : Frac := fracSum ((bs.filter (fun b => b.unit / 4 == c)).map (fun b => b.charge))

/-- The cluster rule of R239: charge ≤ B × (n − T), B in tenths. -/
def clusterOk (limits : List Nat) (c : Nat) (bs : List EncBin) : Bool :=
  let n := (bs.filter (fun b => b.unit / 4 == c)).length
  let b := limits.getD c 30
  fracLe (fracAdd (fracMul 10 1 (clusterD c bs)) (fracMul b 1 (clusterT c bs))) (fracNat (b * n))

/-- A context, or one member of a gang, joins an engine. -/
def encJoin (r : Record) (u : Nat) (l : Frac) (bs : List EncBin) : List EncBin :=
  mapWhere (fun b => b.unit == u) (fun b =>
    if esTier1 r then { b with tier1 := fracAdd b.tier1 l, count := b.count + 1, holds := true }
    else { b with charge := fracAdd b.charge l, count := b.count + 1 }) bs

/-- The placement fits (R222, R220, R239). -/
def encFits (limits : List Nat) (r : Record) (u : Nat) (l : Frac) (bs : List EncBin) : Bool :=
  let after := encJoin r u l bs
  match bs.find? (fun b => b.unit == u) with
  | none => false
  | some b =>
    b.count < 32 && (!esTier1 r || fracLe (fracAdd b.tier1 l) (fracNat 1)) &&
    !(esCodec r == 3 && !esTier1 r && b.holds) && clusterOk limits (u / 4) after

/-- The member loads of a stream: one, or one per gang column. -/
def memberLoads (rs : List Record) (r : Record) : List Frac :=
  match (ofType rs 7).find? (fun g => rd g 20 4 == (recHandle r).toNat) with
  | some g => (gangWidths g (esCols r)).map (columnsLoad rs r)
  | none => [esLoad rs r]

/-- Puts a stream on engines, one per member. -/
def encPut (rs : List Record) (r : Record) (us : List Nat) (p : Places (List EncBin)) : Places (List EncBin) :=
  let ls := memberLoads rs r
  { p with bins := (us.zip ls).foldl (fun bs u => encJoin r u.1 u.2 bs) p.bins
           placed := p.placed ++ [(recHandle r, us, micro (fracSum ls))] }

/-- The members of a gang fit on these engines, one after the other. -/
def gangFits (limits : List Nat) (r : Record) : List (Nat × Frac) → List EncBin → Bool
  | [], _ => true
  | (u, l) :: more, bs => encFits limits r u l bs && gangFits limits r more (encJoin r u l bs)

/-- Places a gang (R222 step 1): a gang of 8 on the half's eight engines, one of 2 or 4 on the least loaded of its cluster. -/
def gangStep (limits : List Nat) (rs : List Record) (p : Places (List EncBin)) (g : Record) : Places (List EncBin) :=
  if p.failed.isSome then p
  else match recOf rs (BitVec.ofNat 32 (rd g 20 4)) with
    | none => p
    | some r =>
      let n := rd g 16 1
      let pool := if n == 8 then p.bins else p.bins.filter (fun b => b.unit / 4 == rd g 17 1 - 0x10)
      let best := (sortBy (fun (a b : EncBin) => fracLt (encWeight a) (encWeight b)) pool).take n
      let us := sortBy (fun a b => decide (a < b)) (best.map (fun b => b.unit))
      if us.length == n && gangFits limits r (us.zip (memberLoads rs r)) p.bins then encPut rs r us p
      else { p with failed := some (recHandle r) }

/-- Places one context on the least loaded engine of a list that fits (R222). -/
def encStep (limits : List Nat) (rs : List Record) (cluster : Option Nat) (p : Places (List EncBin)) (r : Record) : Places (List EncBin) :=
  if p.failed.isSome then p
  else
    let l := esLoad rs r
    let ok := p.bins.filter (fun b =>
      affinityOk (rd r 61 1) 4 b.unit && (match cluster with | some c => b.unit / 4 == c | none => true) && encFits limits r b.unit l p.bins)
    match leastBy encWeight ok with
    | none => { p with failed := some (recHandle r) }
    | some b => encPut rs r [b.unit] p

/-- The streams of a ladder in rung order (R202). -/
def rungsOf (rs : List Record) (l : Record) : List Record :=
  (List.range (rd l 16 1)).filterMap (fun i => recOf rs (BitVec.ofNat 32 (rd l (20 + 4 * i) 4)))

/-- Places a ladder (R222 step 2): the cluster with the lowest combined load that takes every rung, else the first choice's failure. -/
def ladderStep (limits : List Nat) (rs : List Record) (p : Places (List EncBin)) (l : Record) : Places (List EncBin) :=
  if p.failed.isSome then p
  else
    let weight := fun (c : Nat) => fracSum ((p.bins.filter (fun b => b.unit / 4 == c)).map encWeight)
    let order := if fracLe (weight 0) (weight 1) then [0, 1] else [1, 0]
    let tries := order.map (fun c => (rungsOf rs l).foldl (encStep limits rs (some c)) p)
    match tries.find? (fun q => q.failed.isNone) with
    | some q => q
    | none => tries.headD p

/-- The streams of a gang or ladder. -/
def grouped (rs : List Record) (r : Record) : Bool :=
  (ofType rs 7).any (fun g => rd g 20 4 == (recHandle r).toNat) ||
  (ofType rs 6).any (fun l => (rungsOf rs l).any (fun q => recHandle q == recHandle r))

/-- Encode placement (R222): what continues first, then gangs, ladders, tier 1, TIMED and BULK. -/
def placeEncodes (units limits : List Nat) (rs : List Record) (keep : List Placed) : Places (List EncBin) :=
  let es := ofType rs 5
  let held := fun (r : Record) => keptUnits keep units (recHandle r)
  let p := es.foldl (fun p r => match held r with | some us => encPut rs r us p | none => p)
    ({ bins := units.map (fun u => { unit := u }) } : Places (List EncBin))
  let heavy := fun (f : Record → Frac) (l : List Record) => sortBy (fun a b => fracLt (f b) (f a)) l
  let streamOf := fun (g : Record) => recOf rs (BitVec.ofNat 32 (rd g 20 4))
  let gangs := (ofType rs 7).filter (fun g => match streamOf g with | some r => (held r).isNone | none => false)
  let ladders := (ofType rs 6).filter (fun l => (rungsOf rs l).any (fun r => (held r).isNone))
  let rest := es.filter (fun r => (held r).isNone && !grouped rs r)
  let p := (heavy (fun g => match streamOf g with | some r => fracSum (memberLoads rs r) | none => {}) gangs).foldl (gangStep limits rs) p
  let p := (heavy (fun l => fracSum ((rungsOf rs l).map (esLoad rs))) ladders).foldl (fun p l =>
    let fresh := (rungsOf rs l).filter (fun r => (held r).isNone)
    if fresh.length == (rungsOf rs l).length then ladderStep limits rs p l
    else
      let stay := (rungsOf rs l).filterMap held
      fresh.foldl (encStep limits rs ((stay.headD []).head?.map (fun u => u / 4))) p) p
  let p := (heavy (esLoad rs) (rest.filter esTier1)).foldl (encStep limits rs none) p
  let p := (rest.filter (fun r => !esTier1 r && esClass r == 1)).foldl (encStep limits rs none) p
  (rest.filter (fun r => !esTier1 r && esClass r == 2)).foldl (encStep limits rs none) p

/-- The two clusters' n, T and declared charge after a placement (R239, R240). -/
def clusterLoads (p : Places (List EncBin)) (c : Nat) : Nat × Frac × Frac :=
  ((p.bins.filter (fun b => b.unit / 4 == c)).length, clusterT c p.bins, clusterD c p.bins)

/-! Memory (R88, R89, R180, R197, R338, R369, R425). -/

/-- 192 times P of R88: width × height × c × b × 33/32. -/
def pictureUnits (w hgt chroma depth : Nat) : Nat := w * hgt * (chroma + 2) * (if depth == 10 then 4 else 3) * 33

/-- One picture of the linear copy (R343). -/
def linearBytes (w hgt chroma depth : Nat) : Nat :=
  let pitch := ceilDiv (w * (if depth == 10 then 2 else 1)) 64 * 64
  pitch * hgt + pitch * (if chroma == 0 then 0 else if chroma == 1 then hgt / 2 else hgt)

/-- The charge of a record in the region it stores to, and that region's handle (R88, R180, R197, R369). -/
def memCharge (r : Record) : Nat × Nat :=
  match recType r with
  | 0x04 =>
    let w := rd r 20 2
    let hgt := rd r 22 2
    let n := rd r 26 1 + 1 + (if decClass r == 0 then 0 else decDepth r)
    (rd r 48 4, ceilDiv (pictureUnits w hgt (rd r 25 1) (rd r 24 1) * n) 192 + 4194304 +
      (if (rd r 56 2).testBit 2 then linearBytes w hgt (rd r 25 1) (rd r 24 1) else 0))
  | 0x05 =>
    let n := (if rd r 27 1 == 0 then 1 else rd r 27 1) + 2
    (rd r 68 4, ceilDiv (pictureUnits (esWidth r) (esHeight r) (rd r 25 1) (rd r 24 1) * n * 29) 4608 + 65536)
  | 0x08 =>
    let t := cvTiles r
    let n := cvBuffers r
    let bits := ceilDiv (cvWidth r / 8) 64 * 8 * (cvHeight r / 8)
    (rd r 44 4, ceilDiv (pictureUnits 64 64 (rd r 22 1) (rd r 21 1) * ((n + 1) * t)) 192 + n * (8 * t + 32 + bits))
  | 0x0D => (rd r 20 4, rd r 24 8 + rd r 16 4 * bufSize (hIndex (recHandle r)))
  | _ => (0, 0)

/-- The kind-0 regions of a list of records. -/
def bufferRegions (rs : List Record) : List Record := (ofType rs 0x10).filter (fun r => rd r 16 1 == 0)

/-- The first region smaller than the charges of the objects that name it (R338). -/
def smallRegion (rs : List Record) : Option Handle :=
  ((bufferRegions rs).find? (fun g =>
    decide (rd g 24 8 < total ((rs.map memCharge).map (fun c => if c.1 == (recHandle g).toNat then c.2 else 0))))).map recHandle

/-- A range taken on a channel: channel, offset, size. -/
abbrev Range := Nat × Nat × Nat

/-- Two ranges meet. -/
def rangesMeet (a b : Range) : Bool := a.1 == b.1 && a.2.1 < b.2.1 + b.2.2 && b.2.1 < a.2.1 + a.2.2

/-- The lowest free offset of a channel that holds a size: 0, or the end of a taken range. -/
def freeOffset (limit : Nat) (taken : List Range) (c size : Nat) : Option Nat :=
  let ends := sortBy (fun a b => decide (a < b)) (0 :: (taken.filter (fun t => t.1 == c)).map (fun t => t.2.1 + t.2.2))
  ends.find? (fun o => o + size ≤ limit && !taken.any (rangesMeet (c, o, size)))

/-- The free bytes of a channel. -/
def freeBytes (limit : Nat) (taken : List Range) (c : Nat) : Nat :=
  limit - total ((taken.filter (fun t => t.1 == c)).map (fun t => t.2.2))

/-- Step 3 of R338 for one region: the allowed channel with the most free space that has a range. -/
def placeRegion (limit : Nat) (chans : List Nat) (taken : List Range) (size : Nat) : Option (Nat × Nat) :=
  let ok := chans.filterMap (fun c => (freeOffset limit taken c size).map (fun o => (c, o)))
  ok.foldl (fun best p => match best with
    | none => some p
    | some b => if freeBytes limit taken b.1 < freeBytes limit taken p.1 then some p else best) none

/-- Ranges that no region may take: the reserve (R336) and the retired blocks (R364). -/
def blockedRanges (x : Half) : List Range :=
  (match x.dram.reserve with | some (c, o) => [(c, o, 0x8000000)] | none => []) ++
  (List.range x.dch.length).flatMap (fun n => (x.dch.getD n {}).retiredBlocks.map (fun o => (n, o, 65536)))

/-- Region placement (R338): regions that continue, then fixed ones, then the rest by descending size. -/
def placeRegions (limit : Nat) (chans : List Nat) (blocked : List Range) (keep : List (Nat × Nat × Nat × Nat)) (rs : List Record) :
    List (Nat × Nat × Nat × Nat) × Option Handle :=
  let gs := bufferRegions rs
  let idx := fun (g : Record) => hIndex (recHandle g)
  let stays := fun (g : Record) => keep.find? (fun k => k.1 == idx g)
  let kept := gs.filterMap stays
  let fixed := gs.filter (fun g => (stays g).isNone && rd g 32 8 != 0)
  let rest := sortBy (fun a b => decide (rd b 24 8 < rd a 24 8)) (gs.filter (fun g => (stays g).isNone && rd g 32 8 == 0))
  let start := (kept, (none : Option Handle))
  let taken := fun (l : List (Nat × Nat × Nat × Nat)) => blocked ++ l.map (fun k => (k.2.1, k.2.2.1, k.2.2.2))
  let fix := fun (a : List (Nat × Nat × Nat × Nat) × Option Handle) (g : Record) =>
    if a.2.isSome then a
    else
      let r : Range := (rd g 17 1, rd g 32 8 - 1, rd g 24 8)
      if chans.contains r.1 && r.2.1 + r.2.2 ≤ limit && !(taken a.1).any (rangesMeet r) then (a.1 ++ [(idx g, r.1, r.2.1, r.2.2)], none)
      else (a.1, some (recHandle g))
  let free := fun (a : List (Nat × Nat × Nat × Nat) × Option Handle) (g : Record) =>
    if a.2.isSome then a
    else
      let allowed := chans.filter (fun c => rd g 17 1 == 0xFF || rd g 17 1 == c)
      match placeRegion limit allowed (taken a.1) (rd g 24 8) with
      | some (c, o) => (a.1 ++ [(idx g, c, o, rd g 24 8)], none)
      | none => (a.1, some (recHandle g))
  rest.foldl free (fixed.foldl fix start)

/-! Pools (R369, R370, R378). -/

/-- The first POOL whose counts, with the old buffers of a pool that moves, exceed the state table, or whose range meets an earlier
pool's. `old` are the pool records in force. -/
def poolTable (old : List Record) : List Record → Nat → List Record → Option Handle
  | [], _, _ => none
  | r :: more, sum, seen =>
    let moved := match recOf old (recHandle r) with
      | some o => if rd o 20 12 == rd r 20 12 then 0 else rd o 16 4
      | none => 0
    let n := sum + rd r 16 4 + moved
    let span := fun (q : Record) => (rd q 24 8, rd q 16 4 * bufSize (hIndex (recHandle q)))
    let meets := seen.any (fun q => rd q 20 4 == rd r 20 4 && (span q).1 < (span r).1 + (span r).2 && (span r).1 < (span q).1 + (span q).2)
    if 262144 < n || meets then some (recHandle r) else poolTable old more n (seen ++ [r])

/-- The pool-0 buffers an encode stream reserves (R370). -/
def poolNeed (r : Record) : Nat :=
  let n := 2 * ceilDiv (rd r 52 4 * 1000) 524288 + 8
  if esGuarded r then 2 * n else if esClass r == 0 then n else 0

/-- The first stream whose reservation takes the sum above a count. -/
def poolOver (count : Nat) : List Record → Nat → Option Handle
  | [], _ => none
  | r :: more, sum =>
    if poolNeed r != 0 && count < sum + poolNeed r then some (recHandle r) else poolOver count more (sum + poolNeed r)

/-- The pool checks of R370 and R378. -/
def poolCheck (old rs : List Record) : Option Handle :=
  let es := ofType rs 5
  match poolTable old (ofType rs 0x0D) 0 [] with
  | some x => some x
  | none =>
    match (ofType rs 0x0D).find? (fun r => hIndex (recHandle r) == 0) with
    | none => (es.find? (fun r => poolNeed r != 0)).map recHandle
    | some z => if rd z 16 4 < 64 then some (recHandle z) else poolOver (rd z 16 4) es 64

/-- The COUNTER_EXPOSURE record whose region is too small (R425). -/
def reelCheck (rs : List Record) : Option Handle :=
  ((ofType rs 0x12).find? (fun r =>
    rd r 32 4 != 0 && (match recOf rs (BitVec.ofNat 32 (rd r 32 4)) with
      | some g => decide (rd g 24 8 < 64 + rd r 40 4 * snapshotSize (rd r 24 8))
      | none => false))).map recHandle

/-! Bandwidth (R35, R36) and port rates (R328). -/

/-- The INPUT's declared peak rate, or the bit rate of the stream it feeds (R93). -/
def inputPeak (rs : List Record) (r : Record) : Nat :=
  if rd r 76 4 != 0 then rd r 76 4
  else match (ofType rs 4).find? (fun d => rd d 36 4 == (recHandle r).toNat) with
    | some d => rd d 32 4
    | none => 0

/-- The bandwidth term a record brings, in bytes per second (R35). -/
def bandTerm (rs : List Record) (r : Record) : Frac :=
  match recType r with
  | 0x02 => mkFrac (rd r 72 4 * 11 * 1000) 80
  | 0x03 => mkFrac (inputPeak rs r * 11 * 1000) 80
  | 0x04 => mkFrac (decArea r * rd r 28 4 * 51) 10000
  | 0x05 => fracMul (93 * 995000000) 10 (engineShare rs r (columnsCost rs r (esCols r)))
  | 0x08 => fracMul (67 * 1000000000) 10 (cvLoad r)
  | 0x10 => if rd r 16 1 == 2 then fracNat ((if rd r 18 2 == 0 then 320 else rd r 18 2) * 100000000) else {}
  | _ => {}

/-- The limit of R36 in bytes per second: 75 % of 68.3 GB/s times the channels in service. -/
def bandLimit (channels : Nat) : Frac := mkFrac (channels * 68300000000 * 3) 4

/-- The first record whose term takes the sum above a limit. -/
def bandOver (rs : List Record) (limit : Frac) : List Record → Frac → Option Handle
  | [], _ => none
  | r :: more, sum =>
    let s := fracAdd sum (bandTerm rs r)
    if fracLe s limit then bandOver rs limit more s else some (recHandle r)

/-- The bandwidth check (R35, R36): the default reservation counts first, under handle 0. -/
def bandCheck (channels : Nat) (rs : List Record) : Option Handle :=
  let own := (ofType rs 0x10).any (fun r => rd r 16 1 == 2)
  let first := if own then fracNat 0 else fracNat 32000000000
  if fracLe first (bandLimit channels) then bandOver rs (bandLimit channels) rs first else some 0

/-- The whole bandwidth charge. -/
def bandCharge (rs : List Record) : Frac :=
  fracAdd (fracSum (rs.map (bandTerm rs)))
    (if (ofType rs 0x10).any (fun r => rd r 16 1 == 2) then {} else fracNat 32000000000)

/-- The committed rate a record brings to a port (R328): port, class and rate in 0.1 kb/s. -/
def portDemand (rs : List Record) (r : Record) : Option (Nat × Nat × Nat) :=
  if recType r == 2 then
    match recOf rs (flShaper r) with
    | some v => if flShaper r != 0 && rd v 16 1 == 1 then none else some (rd r 16 4, rd v 17 1, 10 * rd v 20 4)
    | none => some (rd r 16 4, 4, 11 * rd r 72 4)
  else if recType r == 0x0C && rd r 16 1 == 1 && (ofType rs 2).any (fun f => flShaper f == recHandle r) then
    some (rd r 32 4, rd r 17 1, 10 * rd r 20 4)
  else none

/-- The share of the cycle during which a class is open on a port (R328). -/
def openShare (rs : List Record) (port c : Nat) : Frac :=
  match (ofType rs 0x0B).find? (fun g => rd g 16 4 == port) with
  | none => fracNat 1
  | some g => mkFrac (total ((gateEntries g).map (fun e => if e.2.testBit c then e.1 else 0))) (rd g 24 4)

/-- The line rate of a port in 0.1 kb/s (R279). -/
def lineRate (rs : List Record) (port : Nat) : Nat :=
  match recOf rs (BitVec.ofNat 32 port) with
  | some p => if rd p 16 1 == 2 then 100000000 else 250000000
  | none => 250000000

/-- The first FLOW or SHAPER that crosses a limit of R328. -/
def portOver (rs : List Record) : List Record → List (Nat × Nat × Nat) → Option Handle
  | [], _ => none
  | r :: more, seen =>
    match portDemand rs r with
    | none => portOver rs more seen
    | some d =>
      let seen := d :: seen
      let all := total ((seen.filter (fun e => e.1 == d.1)).map (fun e => e.2.2))
      let cls := total ((seen.filter (fun e => e.1 == d.1 && e.2.1 == d.2.1)).map (fun e => e.2.2))
      let line := mkFrac (95 * lineRate rs d.1) 100
      let part := openShare rs d.1 d.2.1
      if fracLe (fracNat all) line && fracLe (fracNat cls) (fracMul part.num part.den line) then portOver rs more seen
      else some (recHandle r)

/-! The whole fit (steps 12 and 13 of R65). -/

/-- The objects that hold units now, as a take-over would keep them: those whose record continues unchanged (R70), shed ones apart. -/
def heldPlaces (h : HalfId) (x : Half) : List Placed :=
  (x.obj.decodes.filter (fun d => d.run != .shed)).map (fun d => (decodeH h d.index, d.engines, d.load)) ++
  (x.obj.canvases.filter (fun c => c.run != .shed)).map (fun c => (canvasH h c.index, c.pipes, c.load)) ++
  (x.obj.encodes.filter (fun e => e.run != .shed)).map (fun e => (encodeH h e.index, e.engines, e.load))

/-- The objects that firmware has shed (R462). -/
def shedObjects (h : HalfId) (x : Half) : List Handle :=
  (x.obj.decodes.filter (fun d => d.run == .shed)).map (fun d => decodeH h d.index) ++
  (x.obj.canvases.filter (fun c => c.run == .shed)).map (fun c => canvasH h c.index) ++
  (x.obj.encodes.filter (fun e => e.run == .shed)).map (fun e => encodeH h e.index)

/-- A record continues unchanged (R70): byte-identical body, RESTART clear. -/
def unchanged (x : Half) (r : Record) : Bool :=
  match recOf x.runningSlot (recHandle r) with
  | some o => r.drop 16 == o.drop 16 && !(recFlags r).testBit 0
  | none => false

/-- The channels in service that nobody evacuates for good (R353). -/
def servingChannels (x : Half) : List Nat :=
  (serving (x.dch.map (fun c => c.flags))).filter (fun n => ((x.dch.getD n {}).evac).all (fun v => v.purpose == 2))

/-- What steps 12 and 13 give: the units and regions, or status, reason and handle of the failure. -/
inductive Fit where
  | ok (units : List Placed) (regions : List (Nat × Nat × Nat × Nat))
  | bad (status reason : Nat) (handle : Handle)
  deriving DecidableEq, Repr

/-- Steps 12 and 13 of R65 for the records of a draft. -/
def fitCheck (h : HalfId) (x : Half) (rs : List Record) : Fit :=
  let same := (rs.filter (unchanged x)).map recHandle
  let shed := (shedObjects h x).filter (fun o => same.contains o)
  let keep := (heldPlaces h x).filter (fun p => same.contains p.1)
  let live := rs.filter (fun r => !shed.contains (recHandle r))
  let keepRegions := ((x.dram.placed.filter (fun p => same.contains (mkHandle 0x10 h p.region))).map
    (fun p => (p.region, p.channel, p.offset, p.size)))
  let limits := x.obj.clusters.map (fun c => c.overbook)
  match smallRegion rs with
  | some o => .bad stNoResource 0x0C o
  | none =>
    let g := placeRegions (usableBytes x) (servingChannels x) (blockedRanges x) keepRegions rs
    match g.2, poolCheck x.runningSlot rs, reelCheck rs with
    | some o, _, _ => .bad stNoResource 0x0C o
    | none, some o, _ => .bad stNoResource 0x0C o
    | none, none, some o => .bad stNoResource 0x0C o
    | none, none, none =>
      let d := placeDecodes (serving (x.dec.map (fun e => e.flags))) live keep
      let e := placeEncodes (serving (x.enc.map (fun e => e.flags))) limits live keep
      let c := placeCanvases (serving (x.cmp.map (fun e => e.flags))) live keep
      match d.failed, e.failed, c.failed with
      | some o, _, _ => .bad stAdmission 0x0D o
      | none, some o, _ => .bad stAdmission 0x0D o
      | none, none, some o => .bad stAdmission 0x0E o
      | none, none, none =>
        match bandCheck (servingChannels x).length live, portOver live live [] with
        | some o, _ => .bad stAdmission 0x0F o
        | none, some o => .bad stAdmission 0x0F o
        | none, none => .ok (d.placed ++ e.placed ++ c.placed) g.1

end Sys2Proof.Machine
end

