-- ==== Sys2Proof/Machine/Relations.lean ====
section
/-!
DEFINITION. Relations.lean: the checks of a commit between records: references and the conditions of R588 (step 9 of R65), MODE records
(step 10, R30) and cross-half references (step 11, R66, R105, R181, R225, R226, R286, R292, R293, R31).
-/
namespace Sys2Proof.Machine

/-! Step 9: references. -/

/-- A reference: the handle named, the types it may have, and whether it must be a kind-0 region. -/
structure Reference where
  target : Nat
  types : List Nat
  deriving DecidableEq, Repr

/-- The reference names a record of the list with a right type; a region must be of kind 0 (R337). -/
def refMet (rs : List Record) (q : Reference) : Bool :=
  match recOf rs (BitVec.ofNat 32 q.target) with
  | none => false
  | some r => q.types.contains (recType r) && (recType r != 0x10 || rd r 16 1 == 0)

/-- A reference that zero leaves out. -/
def optional (v : Nat) (types : List Nat) : List Reference := if v == 0 then [] else [{ target := v, types := types }]

/-- A reference that must be there. -/
def needed (v : Nat) (types : List Nat) : List Reference := [{ target := v, types := types }]

/-- Whether a handle names the half. -/
def ofHalf (h : HalfId) (v : Nat) : Bool := hHalf (BitVec.ofNat 32 v) == h

/-- The types that a MODE record's function attaches to (R30); none for the lead, which names the device. -/
def modeTypes (function : Nat) : List Nat :=
  match function with
  | 0 => [5]
  | 1 => [5]
  | 2 => [5, 0x0A]
  | 3 => [4]
  | 4 => [2]
  | 5 => [0x0D]
  | 6 => [0x11]
  | 7 => [0x10]
  | 9 => [0x0E]
  | _ => []

/-- The same-half references of a record. -/
def references (h : HalfId) (r : Record) : List Reference :=
  match recType r with
  | 0x02 => needed (rd r 16 4) [1] ++ needed (rd r 24 4) [5] ++ optional (rd r 76 4) [0x0C] ++
      (if ofHalf h (rd r 20 4) then optional (rd r 20 4) [1] else [])
  | 0x03 => needed (rd r 16 4) [1]
  | 0x04 => optional (rd r 36 4) [3] ++ optional (rd r 40 4) [0x10] ++ needed (rd r 48 4) [0x10]
  | 0x05 => needed (rd r 28 4) [8, 0x0A] ++ needed (rd r 68 4) [0x10]
  | 0x06 => (List.range (rd r 16 1)).flatMap (fun i => needed (rd r (20 + 4 * i) 4) [5])
  | 0x07 => needed (rd r 20 4) [5]
  | 0x08 => needed (rd r 44 4) [0x10]
  | 0x09 => needed (rd r 16 4) [8] ++ optional (rd r 20 4) [4, 0x0A]
  | 0x0A => needed (rd r 28 4) [0x10]
  | 0x0B => needed (rd r 16 4) [1]
  | 0x0C => if rd r 16 1 == 1 then needed (rd r 32 4) [1] else []
  | 0x0D => needed (rd r 20 4) [0x10]
  | 0x0E => if rd r 16 1 == 1 then (List.range (rd r 18 2)).flatMap (fun i => needed (rd r (24 + 4 * i) 4) [4, 5, 8]) else []
  | 0x11 => (List.range 4).flatMap (fun i => if ofHalf h (rd r (28 + 4 * i) 4) then optional (rd r (28 + 4 * i) 4) [1] else [])
  | 0x12 => optional (rd r 32 4) [0x10]
  | _ => []

/-! Step 9: conditions between records (R588). -/

/-- The records of a type before a record. -/
def earlier (pre : List Record) (t : Nat) (p : Record → Bool) : Nat := ((ofType pre t).filter p).length

/-- FLOW (R292, R313). -/
def flowRelOk (rs pre : List Record) (r : Record) : Bool :=
  let port := (recOf rs (flPort r)).getD []
  let sh := (recOf rs (flShaper r)).getD []
  flMaxDatagram r ≤ rd port 26 2 && earlier pre 2 (fun f => flStream f == flStream r) < 8 &&
  (flShaper r == 0 || (flMaxDatagram r + 42 ≤ rd sh 24 4 && (rd sh 16 1 == 0 || rd sh 32 4 == rd r 16 4)))

/-- DECODE_STREAM (R93, R89). -/
def decodeRelOk (rs pre : List Record) (r : Record) : Bool :=
  (rd r 36 4 == 0 ||
    (earlier pre 4 (fun d => rd d 36 4 == rd r 36 4) == 0 && rd ((recOf rs (decInput r)).getD []) 20 1 == rd r 16 1)) &&
  (rd r 40 4 == 0 || 64 + rd r 44 4 ≤ rd ((recOf rs (BitVec.ofNat 32 (rd r 40 4))).getD []) 24 8)

/-- ENCODE_STREAM against its source (R195). -/
def encodeRelOk (rs : List Record) (r : Record) : Bool :=
  let src := (recOf rs (esSource r)).getD []
  let sz := sourceSize rs (esSource r)
  let sizes := esWidth r ≤ sz.1 && esHeight r ≤ sz.2 && sz.1 ≤ 8 * esWidth r && sz.2 ≤ 8 * esHeight r
  if recType src == 8 then sizes && !(rd src 22 1 == 1 && rd r 25 1 == 2) && levelOk rs r (rd r 48 4) (rd r 52 4)
  else
    sizes && sfYuv src && (rd src 16 1 == 1) == (rd r 24 1 == 8) && (rd src 16 1 == 3) == (rd r 25 1 == 2)

/-- The source's maximum size of a layer (R156). -/
def layerSource (rs : List Record) (r : Record) : Nat × Nat :=
  match recOf rs (BitVec.ofNat 32 (lySource r)) with
  | some s => if recType s == 4 then (rd s 20 2, rd s 22 2) else (rd s 18 2, rd s 20 2)
  | none => (0, 0)

/-- LAYER (R156): count, z, crop and scale. A solid fill has no crop and no scale. -/
def layerRelOk (rs pre : List Record) (r : Record) : Bool :=
  let mine := fun (l : Record) => lyCanvas l == lyCanvas r
  let sz := layerSource rs r
  let cw := if rd r 32 2 == 0 then sz.1 else rd r 32 2
  let ch := if rd r 32 2 == 0 then sz.2 else rd r 34 2
  let rot := (rd r 26 1) % 2 == 1
  let w := if rot then ch else cw
  let hgt := if rot then cw else ch
  let dw := rd r 40 2
  let dh := rd r 42 2
  earlier pre 9 mine < 16 && earlier pre 9 (fun l => mine l && rd l 24 1 == rd r 24 1) == 0 &&
  (lySource r == 0 ||
    ((rd r 32 2 == 0 || (rd r 28 2 + cw ≤ sz.1 && rd r 30 2 + ch ≤ sz.2)) &&
      w ≤ 8 * dw && dw ≤ 16 * w && hgt ≤ 8 * dh && dh ≤ 16 * hgt))

/-- The cluster that an affinity stays in, if any: 0xFF leaves it open. -/
def affinityCluster (aff : Nat) : Option Nat := if aff == 0xFF then none else if 0x10 ≤ aff then some (aff - 0x10) else some (aff / 4)

/-- LADDER (R203). -/
def ladderRelOk (rs pre : List Record) (r : Record) : Bool :=
  let rungs := rungsOf rs r
  let top := rungs.headD []
  let names := rungs.map recHandle
  let cl := rungs.filterMap (fun e => affinityCluster (rd e 61 1))
  rungs.all (fun e =>
    esSource e == esSource top && esDivisor e == esDivisor top && esClass e == esClass top && esDet e == esDet top &&
    esWidth e ≤ esWidth top && esHeight e ≤ esHeight top && esGuarded e == esGuarded top) &&
  cl.all (fun c => some c == cl.head?) && names.length == (names.foldl (fun acc n => addNew n acc) []).length &&
  names.all (fun n => !((ofType pre 6).any (fun l => (rungsOf rs l).any (fun q => recHandle q == n)))
    && !((ofType rs 7).any (fun g => rd g 20 4 == n.toNat)))

/-- GANG (R207). -/
def gangRelOk (rs pre : List Record) (g : Record) : Bool :=
  let r := (recOf rs (BitVec.ofNat 32 (rd g 20 4))).getD []
  let cols := esCols r
  let ws := gangWidths g cols
  let level := rd r 19 1
  esCodec r != 2 && !((ofType rs 6).any (fun l => (rungsOf rs l).any (fun q => recHandle q == recHandle r))) &&
  earlier pre 7 (fun q => rd q 20 4 == rd g 20 4) == 0 &&
  (rd r 61 1 == 0xFF || (rd g 16 1 != 8 && rd r 61 1 == rd g 17 1)) &&
  total ws == cols && ws.all (fun w => 4 ≤ w) && !(esCodec r == 1 && level != 0 && level < 150) && !(esCodec r == 3 && ws.any (fun w => 64 < w))

/-- REACTION of kind 1: no handle twice (R463). -/
def sheddingOk (r : Record) : Bool :=
  let l := (List.range (rd r 18 2)).map (fun i => rd r (24 + 4 * i) 4)
  l.length == (l.foldl (fun acc n => addNew n acc) []).length

/-- The conditions of step 9 on a record, its references met. -/
def relationOk (rs pre : List Record) (r : Record) : Bool :=
  match recType r with
  | 0x02 => flowRelOk rs pre r
  | 0x04 => decodeRelOk rs pre r
  | 0x05 => encodeRelOk rs r
  | 0x06 => ladderRelOk rs pre r
  | 0x07 => gangRelOk rs pre r
  | 0x09 => layerRelOk rs pre r
  | 0x0B => earlier pre 0x0B (fun g => rd g 16 4 == rd r 16 4) == 0
  | 0x0E => rd r 16 1 != 1 || sheddingOk r
  | _ => true

/-- A MODE record's object exists (R30): of a type for its function, or 0 for the lead. -/
def modeRefOk (rs : List Record) (r : Record) : Bool :=
  if rd r 16 1 == fnLead then rd r 20 4 == 0
  else match recOf rs (BitVec.ofNat 32 (rd r 20 4)) with
    | none => false
    | some o => (modeTypes (rd r 16 1)).contains (recType o)

/-- The first record that fails step 9. -/
def step9 (h : HalfId) (rs : List Record) : List Record → List Record → Option Handle
  | _, [] => none
  | pre, r :: more =>
    if (references h r).all (refMet rs) && (recType r != 0x0F || modeRefOk rs r) && relationOk rs pre r then step9 h rs (pre ++ [r]) more
    else some (recHandle r)

/-! Step 10: MODE records (R30, R250, R355, R379). -/

/-- A MODE record is consistent: one mode per function and object; host stencils only for surfaces; a kind-1 region for retraining; never
pool 0; a kind-0 reaction. -/
def modeConsistent (rs pre : List Record) (r : Record) : Bool :=
  let f := rd r 16 1
  let o := (recOf rs (BitVec.ofNat 32 (rd r 20 4))).getD []
  let host := rd r 17 1 == 1
  earlier pre 0x0F (fun m => rd m 16 1 == f && rd m 20 4 == rd r 20 4) == 0 &&
  !(host && f == fnStencil && recType o == 5 && hType (esSource o) == 8) &&
  !(f == fnRetrain && rd o 16 1 != 1) && !(host && f == fnPool && hIndex (recHandle o) == 0) && !(f == fnReaction && rd o 16 1 != 0)

/-- The first MODE record that fails step 10. -/
def step10 (rs : List Record) : List Record → List Record → Option Handle
  | _, [] => none
  | pre, r :: more =>
    if recType r != 0x0F || modeConsistent rs pre r then step10 rs (pre ++ [r]) more else some (recHandle r)

/-! Step 11: cross-half references. -/

/-- Two bodies are equal but for the byte ranges given (offset, length). -/
def sameBut (a b : Record) (skip : List (Nat × Nat)) : Bool :=
  a.length == b.length &&
  (List.range a.length).all (fun i => i < 16 || skip.any (fun k => k.1 ≤ i && i < k.1 + k.2) || rd a i 1 == rd b i 1)

/-- The partner record that a field names in the other half's envelope, when it names back. -/
def partnerOf (os : List Record) (off : Nat) (r : Record) : Option Record :=
  match recOf os (BitVec.ofNat 32 (rd r off 4)) with
  | some p => if recType p == recType r && rd p off 4 == (recHandle r).toNat then some p else none
  | none => none

/-- A record holds a cross-half reference (R60). -/
def crossing (h : HalfId) (r : Record) : Bool :=
  match recType r with
  | 0x02 => rd r 28 4 != 0 || (rd r 20 4 != 0 && !ofHalf h (rd r 20 4))
  | 0x04 => rd r 52 4 != 0
  | 0x05 => rd r 64 4 != 0
  | 0x08 => rd r 52 4 != 0
  | 0x0A => rd r 48 4 != 0
  | 0x11 => (List.range 4).any (fun i => rd r (28 + 4 * i) 4 != 0 && !ofHalf h (rd r (28 + 4 * i) 4))
  | _ => false

/-- Two picture stores are counterparts: the same MEMORY_REGION handle but for the half (log 85). -/
def storePair (r p : Record) : Bool := rd r 48 4 ^^^ rd p 48 4 == 0x800000

/-- DECODE_STREAM pair (R105). Beside the fields that R105 lists, the picture stores are counterparts, since a record names a region of its own
half, and the feed ring size and timing mode, which R86 wants zero where there is no feed region, are not compared (log 85). -/
def decodePairOk (os : List Record) (r : Record) : Bool :=
  match partnerOf os 52 r with
  | none => false
  | some p =>
    let fed := fun (q : Record) => rd q 36 4 != 0 || rd q 40 4 != 0
    sameBut r p [(36, 12), (48, 8), (60, 1)] && storePair r p && decClass r != 2 && fed r != fed p

/-- Two layers of a guarded canvas match (R181). -/
def layerPairOk (rs os : List Record) (a b : Record) : Bool :=
  let src := BitVec.ofNat 32 (lySource a)
  sameBut a b [(16, 8)] &&
  (if lySource a == 0 then lySource b == 0
   else match recOf rs src with
    | none => false
    | some s =>
      if recType s == 4 then rd s 52 4 != 0 && rd s 52 4 == lySource b && (partnerOf os 52 s).isSome
      else (rd s 45 1).testBit 1 && rd s 48 4 == lySource b && (partnerOf os 48 s).isSome)

/-- CANVAS pair (R181). -/
def canvasPairOk (rs os : List Record) (r : Record) : Bool :=
  match partnerOf os 52 r with
  | none => false
  | some p =>
    let mine := (ofType rs 9).filter (fun l => lyCanvas l == (recHandle r).toNat)
    let theirs := (ofType os 9).filter (fun l => lyCanvas l == (recHandle p).toNat)
    sameBut r p [(44, 4), (52, 4)] && mine.length == theirs.length &&
    mine.all (fun a => theirs.any (fun b => rd b 24 1 == rd a 24 1 && layerPairOk rs os a b))

/-- The ladder of a stream, as its rungs' handles, and the gang of a stream. -/
def ladderOf (rs : List Record) (r : Record) : Option (List Record) :=
  ((ofType rs 6).find? (fun l => (rungsOf rs l).any (fun q => recHandle q == recHandle r))).map (rungsOf rs)
def gangRec (rs : List Record) (r : Record) : Option Record := gangIn rs (recHandle r)

/-- The ladders and gangs of a pair match (R203, R225). -/
def structureMatch (rs os : List Record) (r p : Record) : Bool :=
  (match ladderOf rs r, ladderOf os p with
    | none, none => true
    | some a, some b => a.map esPartner == b.map (fun q => (recHandle q).toNat)
    | _, _ => false) &&
  (match gangRec rs r, gangRec os p with
    | none, none => true
    | some a, some b => sameBut a b [(20, 4)]
    | _, _ => false)

/-- The mode of a function on an object, from the records (R30). -/
def hostMode (rs : List Record) (function : Nat) (o : Handle) : Bool :=
  (ofType rs 0x0F).any (fun m => rd m 16 1 == function && rd m 17 1 == 1 && rd m 20 4 == o.toNat)

/-- The stencil mode of a stream: its own record's, or that of its surface (R250). -/
def stencilMode (rs : List Record) (r : Record) : Bool := hostMode rs fnStencil (recHandle r) || hostMode rs fnStencil (esSource r)

/-- ENCODE_STREAM pair (R225, R31). -/
def encodePairOk (rs os : List Record) (r : Record) : Bool :=
  match partnerOf os 64 r with
  | none => false
  | some p =>
    let src := (recOf rs (esSource r)).getD []
    let po := if recType src == 8 then 52 else 48
    sameBut r p [(28, 4), (64, 8)] && rd src po 4 != 0 && rd src po 4 == (esSource p).toNat && structureMatch rs os r p &&
    hostMode rs fnRate (recHandle r) == hostMode os fnRate (recHandle p) &&
    hostMode rs fnMotion (recHandle r) == hostMode os fnMotion (recHandle p) && stencilMode rs r == stencilMode os p

/-- FLOW: its partner and its secondary port (R292, R293). -/
def flowPairOk (h : HalfId) (rs os : List Record) (r : Record) : Bool :=
  (ofHalf h (rd r 20 4) || rd r 20 4 == 0 || (match recOf os (flSecondary r) with | some p => recType p == 1 | none => false)) &&
  (rd r 28 4 == 0 || (match partnerOf os 28 r with
    | none => false
    | some p =>
      sameBut r p [(16, 16), (76, 4)] && !flFlag r 0 && !flFlag p 0 &&
      rd ((recOf rs (flStream r)).getD []) 64 4 == (flStream p).toNat && rd r 24 4 != 0))

/-- PTP: equal records, and listed ports that exist (R286). -/
def ptpPairOk (h : HalfId) (os : List Record) (r : Record) : Bool :=
  (List.range 4).all (fun i =>
    let v := rd r (28 + 4 * i) 4
    v == 0 || ofHalf h v || (match recOf os (BitVec.ofNat 32 v) with | some p => recType p == 1 | none => false)) &&
  (ofType os 0x11).all (fun p => r.drop 12 == p.drop 12)

/-- Step 11 for a record whose partner half runs `os`. A new or changed guarded stream needs a grouped commit in which both members are
(R226); `fresh` and `freshP` say which records of the two halves are new or changed. -/
def crossOk (h : HalfId) (rs os : List Record) (grouped : Bool) (fresh freshP : Record → Bool) (r : Record) : Bool :=
  match recType r with
  | 0x02 => flowPairOk h rs os r
  | 0x04 => rd r 52 4 == 0 || decodePairOk os r
  | 0x05 => !esGuarded r || (encodePairOk rs os r && (if grouped then (partnerOf os 64 r).any (fun p => fresh r == freshP p) else !fresh r))
  | 0x08 => rd r 52 4 == 0 || canvasPairOk rs os r
  | 0x0A => rd r 48 4 == 0 || (partnerOf os 48 r).isSome
  | 0x11 => ptpPairOk h os r
  | _ => true

end Sys2Proof.Machine
end

