-- ==== Sys2Proof/Machine/Envelope.lean ====
section
/-!
DEFINITION. Envelope.lean: drafts (R61 to R63, R568, R569), commits and their validation (R64 to R69), grouped commits (R66),
ENVELOPE_CANCEL, ENVELOPE_READ (R570), OVERBOOK_SET (R567), and the cancelling of a pending envelope (R69, R74).
-/
namespace Sys2Proof.Machine

def updEnv (f : EnvStore → EnvStore) (x : Half) : Half := { x with env := f x.env }

/-- Bytes of some records. -/
def recordsSize (rs : List Record) : Nat := total (rs.map List.length)

/-- Within the limits of R60. -/
def sizeOk (rs : List Record) : Bool := rs.length ≤ 16384 && recordsSize rs ≤ 4194304

/-! OVERBOOK_SET (R567). -/

def overbookSetSpec : OpSpec := { opcode := 0x0104, handle := .zero, minLen := 2 }

/-- The clusters that a selector names. -/
def clusterSel (v : Nat) : List Nat := if v == 0xFF then [0, 1] else [v]

/-- The admitted charge of a cluster exceeds its limit (R239). -/
def chargeOver (x : Half) (k : Nat) : Bool :=
  let c := x.obj.clusters.getD k {}
  let n := ((serving (x.enc.map (fun e => e.flags))).filter (fun u => encClusterOf u == k)).length
  c.overbook * (n * 1000000) < 10 * c.declared + c.overbook * c.tier1

/-- OVERBOOK_SET (R567). For both clusters the reported charge is a free function of the two. -/
def execOverbookSet (h : HalfId) (e : CmdEntry) (s : State) : Out :=
  .next (runCmd h overbookSetSpec e none s (fun s =>
    let sel := fld e 16 1
    let b := fld e 17 1
    guarded [bad6 (1 < sel && sel != 0xFF) 16, bad6 (b < 10 || 80 < b) 17, checkReserved e [(16, 2)]] s (fun s =>
      let s := s.upd h (fun x => (clusterSel sel).foldl (fun x k => updCluster k (fun c => { c with overbook := b }) x) x)
      let x := s.half h
      let charge := fun (k : Nat) => (x.obj.clusters.getD k {}).declared
      let v := if sel == 0xFF then Config.bothCharges (charge 0) (charge 1) else charge sel
      .ok (le 4 v ++ le 1 (b2n ((clusterSel sel).any (chargeOver x)))) s)))

/-! Drafts (R61, R62, R568, R569). -/

def draftOpenSpec : OpSpec := { opcode := 0x0201, handle := .zero, minLen := 1 }
def draftWriteSpec : OpSpec := { opcode := 0x0202, handle := .zero, minLen := 16, byRef := true }
def draftDiscardSpec : OpSpec := { opcode := 0x0203, handle := .zero, minLen := 0 }

/-- The result of DRAFT_OPEN and DRAFT_WRITE (R568). -/
def draftResult (rs : List Record) : List Byte := le 4 rs.length ++ le 4 (recordsSize rs)

/-- DRAFT_OPEN (R61, R568): empty, or a copy of the running envelope; a clone of no envelope is empty. -/
def execDraftOpen (h : HalfId) (e : CmdEntry) (s : State) : Out :=
  .next (runCmd h draftOpenSpec e none s (fun s =>
    let x := s.half h
    guarded [bad6 (1 < fld e 16 1) 16, checkReserved e [(16, 1)],
      failIf x.env.draft.isSome { status := stNoResource, step := 9 }] s (fun s =>
      let rs := if fld e 16 1 == 1 then x.runningSlot else []
      .ok (draftResult rs) (s.upd h (updEnv (fun v => { v with draft := some rs }))))))

/-- Cuts a payload into records with their offsets; what cannot be a whole record stays in one piece (R569). -/
def splitRecords : Nat → Nat → List Byte → List (Nat × Record)
  | 0, _, _ => []
  | n + 1, off, bs =>
    if bs.isEmpty then []
    else
      let len := rd bs 2 2
      let k := if bs.length < 16 || len < 16 || bs.length < len then bs.length else len
      (off, bs.take k) :: splitRecords n (off + k) (bs.drop k)

/-- The reason for which DRAFT_WRITE refuses a record: form, CRC or handle (R62, R569). -/
def draftReason (h : HalfId) (r : Record) : Option Nat :=
  if r.length < 16 || r.length != recLength r then some 0x06
  else match formReason r with
    | some n => some n
    | none => if handleFits h r then none else some 0x07

/-- The edit of one record (R62); none when a DELETE names no record of the draft. -/
def draftEdit (rs : List Record) (r : Record) : Option (List Record) :=
  let same := fun (q : Record) => recHandle q == recHandle r
  if (recFlags r).testBit 1 then (if rs.any same then some (rs.filter (fun q => !same q)) else none)
  else if rs.any same then some (mapWhere same (fun _ => r) rs)
  else some (rs ++ [r])

/-- The edits of a payload in order. -/
def draftEdits (rs : List Record) : List Record → Option (List Record)
  | [] => some rs
  | r :: more => match draftEdit rs r with
    | none => none
    | some q => draftEdits q more

/-- DRAFT_WRITE (R62, R569). -/
def execDraftWrite (h : HalfId) (e : CmdEntry) (r : RefFetch) (s : State) : Out :=
  .next (runCmd h draftWriteSpec e (some r) s (fun s =>
    let bytes := if isByRef e then r.bytes else e.payload.take e.len.toNat
    let parts := splitRecords (bytes.length / 16 + 1) 0 bytes
    let bad := parts.findSome? (fun p => (draftReason h p.2).map (fun n => (p.1, n)))
    match bad with
    | some (off, n) => .fail { status := stBadField, step := 6, detail := le 4 off ++ le 1 n } s
    | none =>
      match (s.half h).env.draft with
      | none => .fail { status := stNotCommitted, step := 8 } s
      | some rs =>
        match draftEdits rs (parts.map (fun p => p.2)) with
        | none => .fail { status := stBadField, step := 6 } s
        | some q =>
          if !sizeOk q then .fail { status := stNoResource, step := 9 } s
          else .ok (draftResult q) (s.upd h (updEnv (fun v => { v with draft := some q })))))

/-- DRAFT_DISCARD (R63, R568). -/
def execDraftDiscard (h : HalfId) (e : CmdEntry) (s : State) : Out :=
  .next (runCmd h draftDiscardSpec e none s (fun s =>
    guarded [failIf (s.half h).env.draft.isNone { status := stNotCommitted, step := 8 }] s (fun s =>
      .ok [] (s.upd h (updEnv (fun v => { v with draft := none }))))))

/-! Validation (R65). -/

/-- The outcome of some steps of R65: all passed, or status, reason, the failing record (none: envelope-wide) and detail. -/
inductive Verdict where
  | ok
  | bad (status reason : Nat) (obj : Option Handle) (detail : List Byte)
  deriving DecidableEq, Repr

/-- The first record that repeats an earlier handle or has a handle that does not fit (step 7). -/
def step7 (h : HalfId) : List Handle → List Record → Option Handle
  | _, [] => none
  | seen, r :: more =>
    if handleFits h r && !seen.contains (recHandle r) then step7 h (recHandle r :: seen) more else some (recHandle r)

/-- Steps 4 to 10 of R65 on a draft. -/
def judgeRecords (h : HalfId) (rs : List Record) (digest : List Byte) : Verdict :=
  let inv := fun (n : Nat) (o : Handle) => Verdict.bad stInvalid n (some o) []
  if !sizeOk rs then .bad stInvalid 0x03 none []
  else if sha256 (rs.flatMap id) != digest then .bad stInvalid 0x04 none []
  else match rs.findSome? (fun r => (formReason r).map (fun n => (n, recHandle r))) with
    | some (n, o) => inv n o
    | none => match step7 h [] rs with
      | some o => inv 0x07 o
      | none => match rs.find? (fun r => !bodyOk rs r) with
        | some r => inv 0x08 (recHandle r)
        | none => match step9 h rs [] rs with
          | some o => inv 0x09 o
          | none => match step10 rs [] rs with
            | some o => inv 0x0A o
            | none => .ok

/-- "partner unreachable" (R66). -/
def unreachable_ : List Byte :=
  [0x70, 0x61, 0x72, 0x74, 0x6E, 0x65, 0x72, 0x20, 0x75, 0x6E, 0x72, 0x65, 0x61, 0x63, 0x68, 0x61, 0x62, 0x6C, 0x65].map byte

/-- The records of a half that will run at the take-over time: its pending envelope, or else its running one (R66). -/
def futureRecords (x : Half) : List Record :=
  match x.env.pend with
  | some p => p.records
  | none => x.runningSlot

/-- A record of a half's draft is new or changed against its running envelope (R226). -/
def freshIn (x : Half) (r : Record) : Bool := !unchanged x r

/-- Step 11 of R65 for a commit of a half against the records the partner will run. -/
def judgeCross (h : HalfId) (s : State) (rs os : List Record) (isGrouped : Bool) : Verdict :=
  if !s.sparWorks then
    match rs.find? (crossing h) with
    | some r => .bad stInvalid 0x0B (some (recHandle r)) unreachable_
    | none => .ok
  else match rs.find? (fun r => !crossOk h rs os isGrouped (freshIn (s.half h)) (freshIn (s.half h.other)) r) with
    | some r => .bad stInvalid 0x0B (some (recHandle r)) []
    | none => .ok

/-- The failing completion of a commit in the layout of R65. -/
def commitBad (rs : List Record) (status reason : Nat) (obj : Option Handle) (detail : List Byte) (s : State) : Reply :=
  let pos := match obj with
    | some o => (rs.findIdx? (fun r => recHandle r == o)).getD Config.wholePosition
    | none => Config.wholePosition
  .done status (le 4 pos ++ le 1 reason ++ le 1 0 ++ pad 34 detail) (obj.getD 0) false s

/-- An object's handle of a fit failure; 0 is envelope-wide. -/
def fitHandle (o : Handle) : Option Handle := if o == 0 then none else some o

/-- A validated envelope moves to the pending slot (R69); the draft slot becomes free when it holds the records committed. -/
def pendSet (h : HalfId) (p : PendingEnv) (s : State) : State :=
  s.upd h (updEnv (fun v => { v with
    pend := some p, group := none, draft := if v.draft == some p.records then none else v.draft }))

/-- The take-over lies at least 500 µs ahead (step 14). -/
def leadTime : Nat := 500000

def envelopeCommitSpec : OpSpec := { opcode := 0x0204, handle := .unchecked, minLen := 40, atTime := true }

/-- A single commit after steps 1 to 11: fit, admission, time (R65). -/
def commitFit (h : HalfId) (e : CmdEntry) (rs : List Record) (s : State) : Reply :=
  let x := s.half h
  let now := x.clk.now
  let t := if isAtTime e then atTimeOf e else now + leadTime
  match fitCheck h x rs with
  | .bad st reason o => commitBad rs st reason (fitHandle o) [] s
  | .ok units regions =>
    if t < now + leadTime then commitBad rs stTimePassed 0 none [] s
    else
      let s := pendSet h
        { records := rs, takeTime := t, group := BitVec.ofNat 32 (fld e 48 4), atTime := isAtTime e, tag := e.tag, sequence := e.sequence
          units := units, regions := regions } s
      if isAtTime e then .later [] s else .ok [] s

/-- ENVELOPE_COMMIT (R64 to R69). -/
def execEnvelopeCommit (h : HalfId) (e : CmdEntry) (s : State) : Out :=
  .next (runCmd h envelopeCommitSpec e none s (fun s =>
    let x := s.half h
    let now := x.clk.now
    let group := fld e 48 4
    if x.bri.fenced then commitBad [] stFenced 0 none [] s
    else match x.env.draft with
      | none => commitBad [] stNotCommitted 0x01 none [] s
      | some rs =>
        if x.env.pend.isSome || x.env.group.isSome then commitBad rs stNoResource 0x02 none [] s
        else if isAtTime e && atTimeOf e ≤ now then commitBad rs stTimePassed 0 none [] s
        else match judgeRecords h rs ((e.payload.take 32)) with
          | .bad st reason o d => commitBad rs st reason o d s
          | .ok =>
            let w : GroupWait :=
              { group := BitVec.ofNat 32 group, atTime := entryTime e, arrival := now, tag := e.tag, sequence := e.sequence, records := rs }
            if group != 0 && s.sparWorks then .later [] (s.upd h (updEnv (fun v => { v with group := some w })))
            else match judgeCross h s rs (futureRecords (s.half h.other)) false with
              | .bad st reason o d => commitBad rs st reason o d s
              | .ok => commitFit h e rs s))

/-! Grouped commits (R66). -/

/-- ENVELOPE_GROUP_RESOLVED on the EVTQ of both halves, of one half while the link is down (R66, R586). The reason detail of R65 stands after
the fields of R586 (log 79). -/
def groupEvent (h : HalfId) (group : W32) (status reason : Nat) (failed : HalfId) (obj : Handle) (time : Nat) (detail : List Byte)
    (s : State) : State :=
  let raise := fun (w : HalfId) (s : State) =>
    event w 0x0202 (if status == stOk then sevInfo else sevWarning) 0
      (le 4 group.toNat ++ le 2 status ++ le 1 reason ++ le 1 failed.bit ++ le 4 obj.toNat ++ le 8 time ++ detail) s
  if s.sparWorks then raise .west (raise .east s) else raise h s

/-- The commits of a group end without arming anything (R66, R68). -/
def groupDrop (group : W32) (s : State) : State :=
  let drop := updEnv (fun v => if v.group.any (fun g => g.group == group) then { v with group := none } else v)
  (s.upd .east drop).upd .west drop

/-- A pending envelope of a waiting commit. -/
def groupPend (g : GroupWait) (t : Nat) (units : List (Handle × List Nat × Nat)) (regions : List (Nat × Nat × Nat × Nat)) : PendingEnv :=
  { records := g.records, takeTime := t, group := g.group, atTime := true, tag := g.tag, sequence := g.sequence, units := units
    regions := regions }

/-- Steps 11 to 14 for both halves of a group, the lead's first; arms both or neither. -/
def groupResolve (h : HalfId) (a b : GroupWait) (s : State) : State :=
  let w := h.other
  let now := s.now h
  let fail := fun (status reason : Nat) (half : HalfId) (obj : Handle) => groupEvent h a.group status reason half obj 0 [] (groupDrop a.group s)
  if a.atTime != b.atTime then fail stInvalid 0x0B h 0
  else match judgeCross h s a.records b.records true, judgeCross w s b.records a.records true with
    | .bad st n o _, _ => fail st n h (o.getD 0)
    | .ok, .bad st n o _ => fail st n w (o.getD 0)
    | .ok, .ok => match fitCheck h (s.half h) a.records, fitCheck w (s.half w) b.records with
      | .bad st n o, _ => fail st n h o
      | .ok _ _, .bad st n o => fail st n w o
      | .ok ua ra, .ok ub rb =>
        let t := a.atTime.getD (now + leadTime)
        if t < now + leadTime then fail stTimePassed 0 h 0
        else groupEvent h a.group stOk 0 .east 0 t [] (pendSet w (groupPend b t ub rb) (pendSet h (groupPend a t ua ra) s))

/-- ENVELOPE_GROUP_RESOLVED (R66): the lead holds both commits of a group. -/
def execEnvelopeGroupResolved (lead : HalfId) (s : State) : Out :=
  .next (
    let x := s.half lead
    if !x.alive || !x.bri.lead || x.bri.fenced || !s.sparWorks then s
    else match x.env.group, (s.half lead.other).env.group with
      | some a, some b => if a.group == b.group then groupResolve lead a b s else s
      | _, _ => s)

/-- "partner absent" (R66). -/
def absent_ : List Byte := [0x70, 0x61, 0x72, 0x74, 0x6E, 0x65, 0x72, 0x20, 0x61, 0x62, 0x73, 0x65, 0x6E, 0x74].map byte

/-- The partner's commit of a group has reached this half: it waits in the partner, and the link is up. -/
def partnerCame (h : HalfId) (g : GroupWait) (s : State) : Bool :=
  s.sparWorks && (s.half h.other).env.group.any (fun q => q.group == g.group)

/-- GROUP_PARTNER_TIMEOUT (R66): the partner's commit has not arrived within 1 s. A link that goes down while a commit waits is not ruled on:
the commit waits for its second to end (log 79). -/
def execGroupPartnerTimeout (h : HalfId) (s : State) : Out :=
  .next (match (s.half h).env.group with
    | none => s
    | some g =>
      if s.now h < g.arrival + 1000000000 || partnerCame h g s then s
      else groupEvent h g.group stInvalid 0x0B h 0 0 absent_ (s.upd h (updEnv (fun v => { v with group := none }))))

/-! Withdrawing (R69, R74). -/

/-- A pending envelope is discarded; objects that only it held go. -/
def pendDrop (x : Half) : Half :=
  match x.env.pend with
  | none => x
  | some p =>
    let fresh := p.left.filter (fun l => (recOf x.runningSlot l).isNone)
    fresh.foldl (fun x l => dropObject l x) (updEnv (fun v => { v with pend := none }) x)

/-- The halves whose pending envelopes go together: both of a group (R69). -/
def pendHalves (h : HalfId) (s : State) : List HalfId :=
  match (s.half h).env.pend, (s.half h.other).env.pend with
  | some p, some q => if p.group != 0 && p.group == q.group then [h, h.other] else [h]
  | _, _ => [h]

def envelopeCancelSpec : OpSpec := { opcode := 0x0205, handle := .zero, minLen := 0 }

/-- One half's pending envelope is withdrawn; a commit that waits for its time reports DEFERRED_DONE as cancelled (R49, R586). -/
def withdraw (w : HalfId) (s : State) : State :=
  match (s.half w).env.pend with
  | none => s
  | some p =>
    let s := s.upd w pendDrop
    if p.atTime then deferredDone w 0x0204 p.tag.toNat p.sequence.toNat 0 stOk 2 (s.now w) s else s

/-- ENVELOPE_CANCEL (R69, R568). -/
def execEnvelopeCancel (h : HalfId) (e : CmdEntry) (s : State) : Out :=
  .next (runCmd h envelopeCancelSpec e none s (fun s =>
    let x := s.half h
    guarded [failIf x.env.pend.isNone { status := stNotCommitted, step := 8 },
      failIf (!x.env.pend.any (fun p => x.clk.now + leadTime < p.takeTime)) { status := stTimePassed, step := 10 }] s (fun s =>
      .ok [] ((pendHalves h s).foldl (fun s w => withdraw w s) s))))

/-! ENVELOPE_READ (R63, R570). -/

/-- A slot of the envelope store: records, time and group (R570). -/
def slotRead (v : EnvStore) (slot : Nat) : Option (List Record × Nat × Nat) :=
  match slot with
  | 0 => v.running.map (fun q => (q.records, q.switchTime, q.group.toNat))
  | 1 => v.pend.map (fun q => (q.records, q.takeTime, q.group.toNat))
  | _ => v.draft.map (fun q => (q, 0, 0))

/-- The bytes of the slot that an ENVELOPE_READ names. -/
def envelopeReadSpec (h : HalfId) (e : CmdEntry) (s : State) : OpSpec :=
  let need := if 2 < fld e 16 1 then 0 else match slotRead (s.half h).env (fld e 16 1) with | some q => recordsSize q.1 | none => 0
  { opcode := 0x0206, handle := .zero, minLen := 20, bufAt := 32, bufNeed := need, bufTell := true }

/-- ENVELOPE_READ (R570). -/
def execEnvelopeRead (h : HalfId) (e : CmdEntry) (b : BusResult) (s : State) : Out :=
  .next (runCmd h (envelopeReadSpec h e s) e none s (fun s =>
    let slot := fld e 16 1
    let found := if slot ≤ 2 then slotRead (s.half h).env slot else none
    guarded [bad6 (2 < slot) 16, checkReserved e [(16, 1), (24, 12)],
      failIf found.isNone { status := stNotCommitted, step := 8, offset := 16 }] s (fun s =>
      match found with
      | none => .ok [] s
      | some q =>
        replyBuffer h (fld e 24 8) (q.1.flatMap id) b
          (le 4 (recordsSize q.1) ++ le 4 q.1.length ++ le 8 q.2.1 ++ le 4 q.2.2) (fun s => s) s)))

end Sys2Proof.Machine
end

