-- ==== Sys2Proof/Machine/Ports.lean ====
section
/-!
DEFINITION. Ports.lean: link states (R280 to R282, R591), ARP, neighbour discovery, IGMP and MLD, ICMP (R283, R284), and RTCP of
sessions and flows (R95, R99, R298, R299).
-/
namespace Sys2Proof.Machine

/-! Link states (R280). -/

/-- The port may leave DOWN: it is in service, and its half runs no envelope or one with a PORT record for it. -/
def portEnabled (h : HalfId) (x : Half) (n : Nat) : Bool :=
  !x.boot.inReset && n < Config.netPorts && !(x.net.getD n {}).flags.retired && (x.net.getD n {}).flags.enable && (x.env.running.isNone || !(portRec h x n).isEmpty)

/-- Speed (1 25GBASE-R, 2 10GBASE-R) and FEC of a port: of its record, or the defaults before any envelope. -/
def portSpeed (h : HalfId) (x : Half) (n : Nat) : Nat := if (portRec h x n).isEmpty then 1 else rd (portRec h x n) 16 1
def portFec (h : HalfId) (x : Half) (n : Nat) : Nat := if (portRec h x n).isEmpty then 0 else rd (portRec h x n) 17 1
def portV4 (h : HalfId) (x : Half) (n : Nat) : Bool := (rd (portRec h x n) 18 1).testBit 0
def portV6 (h : HalfId) (x : Half) (n : Nat) : Bool := (rd (portRec h x n) 18 1).testBit 1
def portIp (h : HalfId) (x : Half) (n : Nat) : Nat := rd (portRec h x n) 28 4
def portIp6 (h : HalfId) (x : Half) (n : Nat) : Nat := rd (portRec h x n) 40 16

/-- Adaptation starts (R280, R281). -/
def adaptStart (n : Nat) (x : Half) : Half :=
  updPort n (fun p => { p with link := .adapting, since := x.clk.now, retryAt := none }) x

/-- LINK_SIGNAL_DETECTED (R280). -/
def execLinkSignalDetected (h : HalfId) (port : Nat) (s : State) : Out :=
  .next (
    let x := s.half h
    if !portEnabled h x port then s
    else s.upd h (fun x =>
      let x := updPort port (fun p => { p with signal := true, transmitter := true }) x
      if (x.net.getD port {}).link == .down then adaptStart port x else x))

/-! Address resolution (R283). -/

/-- The unicast destinations and the gateways that a port resolves: next hops by family. -/
def resolveTargets (h : HalfId) (x : Half) (n : Nat) (v6 : Bool) : List Nat :=
  let dests := (x.obj.flows.map (fun f => (f, x.record (flowH h f.index)))).filter (fun p =>
    p.1.port == portH h n && flV6 p.2 == v6 && !isMulticast v6 (flDest p.2))
  let hops := dests.foldl (fun acc p => addNew (nextHop h x n v6 (flDest p.2)) acc) []
  (addNew (gatewayOf h x n v6) hops).filter (fun a => a != 0)

/-- A resolution attempt of every target of the families that are usable; the next is due 60 s later. -/
def resolveAll (h : HalfId) (n : Nat) (s : State) : State :=
  let x := s.half h
  let p := portH h n
  let v4 := if portV4 h x n then resolveTargets h x n false else []
  let v6 := if portV6 h x n && v6Usable (x.net.getD n {}) then resolveTargets h x n true else []
  let s := v4.foldl (fun s a => emit h (.arpRequest p a) s) s
  let s := v6.foldl (fun s a => emit h (.neighbourSolicit p a) s) s
  s.upd h (updPort n (fun q => { q with nextResolve := x.clk.now + 60000000000 }))

/-- The multicast group of an INPUT, with its source or 0 for any (R93, R283). -/
def inputGroup (r : Record) : Nat × Nat := (rd r 24 16, rd r 40 16)

/-- The multicast groups that INPUT records join on a port. -/
def groupsIn (h : HalfId) (rs : List Record) (n : Nat) (v6 : Bool) : List (Nat × Nat) :=
  ((rs.filter (fun r => recType r == 3 && rd r 16 4 == (portH h n).toNat && (rd r 21 1 == 6) == v6)).map inputGroup).foldl
    (fun acc a => if isMulticast v6 a.1 then addNew a acc else acc) []
def groupsOf (h : HalfId) (x : Half) (n : Nat) (v6 : Bool) : List (Nat × Nat) := groupsIn h x.running n v6

/-- Reports of groups, source-specific where a source is given; the older protocols know no sources. -/
def reportGroups (h : HalfId) (n : Nat) (leave old : Bool) (groups : List (Nat × Nat)) (s : State) : State :=
  groups.foldl (fun s g => emit h (.multicastReport (portH h n) g.1 (if old then 0 else g.2) leave old) s) s

/-- Two unsolicited reports for each group (R283). -/
def unsolicited (h : HalfId) (n : Nat) (leave : Bool) (groups : List (Nat × Nat)) (s : State) : State :=
  let old := ((s.half h).net.getD n {}).oldQuerier
  reportGroups h n leave old groups (reportGroups h n leave old groups s)

/-- The protocols that start on a port in UP with its address families: gratuitous ARP, duplicate address detection, resolution, reports. -/
def protocolsStart (h : HalfId) (n : Nat) (s : State) : State :=
  let x := s.half h
  let p := portH h n
  let s := s.upd h (updPort n (fun q => { q with
    v6ReadyAt := if portV6 h x n then some (x.clk.now + 1000000000) else none, conflict := false, oldQuerier := false }))
  let s := if portV4 h x n then emit h (.arpRequest p (portIp h x n)) s else s
  let s := if portV6 h x n then emit h (.neighbourSolicit p (portIp6 h x n)) s else s
  let s := resolveAll h n s
  let s := if portV4 h x n then unsolicited h n false (groupsOf h x n false) s else s
  if portV6 h x n then unsolicited h n false (groupsOf h x n true) s else s

/-- LINK_UP (R280, R283): block lock has held for 10 ms. -/
def execLinkUp (h : HalfId) (port : Nat) (s : State) : Out :=
  .next (
    let x := s.half h
    let p := x.net.getD port {}
    if !portEnabled h x port || p.link != .adapting || p.retryAt.isSome || x.clk.now < p.since + 10000000 then s
    else
      let s := s.upd h (updPort port (fun p => { p with
        link := .up, attempts := 0, speed := portSpeed h x port, fec := portFec h x port, ptp := .listening }))
      let s := event h 0x0501 sevInfo (portH h port) (le 4 (portSpeed h x port) ++ le 4 (portFec h x port) ++ le 4 (p.attempts + 1)) s
      portBack h port (protocolsStart h port s))

/-- The port leaves UP (R282, R287, R297): its flows move; the PTP clock loses a slave port, as `ptpLost` says in Ptp.lean. LINK_DOWN
has no cause for a take-over, a retirement or a held port (cause 0 here), which raise none (R280). -/
def leaveUp (h : HalfId) (n cause : Nat) (s : State) : State :=
  let s := s.upd h (updPort n (fun p => { p with link := .down, v6ReadyAt := none, resolved := [], announce := none, ptp := .disabled }))
  let s := if cause == 0 then s else event h 0x0502 sevWarning (portH h n) (le 4 cause) s
  portLost h n s

/-! ARP, neighbour discovery, IGMP, MLD, ICMP. -/

/-- A frame received on a port (R418 code 0x12). -/
def portRx (n : Nat) (x : Half) : Half :=
  count (28 + n) 0x12 1 (updPort n (fun p => { p with counts := { p.counts with received := p.counts.received + 1 } }) x)

/-- A received frame dropped and counted (R284). -/
def portDrop (n : Nat) (x : Half) : Half :=
  count (28 + n) 0x13 1 (updPort n (fun p => { p with counts := { p.counts with dropped := p.counts.dropped + 1 } }) x)

/-- The port receives: it is UP and its half not in reset. -/
def portHears (h : HalfId) (s : State) (n : Nat) : Bool :=
  ((s.half h).net.getD n {}).link == .up && !(s.half h).boot.inReset && n < Config.netPorts

/-- An address is resolved (R283). -/
def learn (n ip mac : Nat) (x : Half) : Half :=
  updPort n (fun p => { p with resolved := p.resolved.filter (fun a => a.1 != ip) ++ [(ip, mac)] }) x

/-- ARP_RECEIVED (R283): a request for the port's address is answered, and a target's address learned. -/
def execArpReceived (h : HalfId) (port : Nat) (f : ArpFrame) (s : State) : Out :=
  .next (
    if !portHears h s port then s
    else
      let s := s.upd h (portRx port)
      let x := s.half h
      if !x.alive || !portV4 h x port then s.upd h (portDrop port)
      else
        let s := if (resolveTargets h x port false).contains f.senderIp then s.upd h (learn port f.senderIp f.senderMac) else s
        if f.request && f.targetIp == portIp h x port then emit h (.arpReply (portH h port) f.senderIp) s else s)

/-- ARP_REFRESH (R283): every 60 s. -/
def execArpRefresh (h : HalfId) (port : Nat) (s : State) : Out :=
  .next (
    let x := s.half h
    if !portHears h s port || !x.alive || x.clk.now < (x.net.getD port {}).nextResolve then s else resolveAll h port s)

/-- NEIGHBOUR_DISCOVERY_RECEIVED (R283): answered, learned, or a conflict during duplicate address detection. -/
def execNeighbourDiscoveryReceived (h : HalfId) (port : Nat) (f : NdFrame) (s : State) : Out :=
  .next (
    if !portHears h s port then s
    else
      let s := s.upd h (portRx port)
      let x := s.half h
      let p := x.net.getD port {}
      if !x.alive || !portV6 h x port then s.upd h (portDrop port)
      else if p.v6ReadyAt.isSome && f.target == portIp6 h x port && (f.dad || !f.solicitation) then
        event h 0x0504 sevAlarm (portH h port) (le 4 6 ++ le 8 f.senderMac)
          (s.upd h (updPort port (fun p => { p with v6ReadyAt := none, conflict := true })))
      else if f.solicitation then
        if f.target == portIp6 h x port && v6Usable p then emit h (.neighbourReply (portH h port) f.target) s else s
      else if (resolveTargets h x port true).contains f.target then s.upd h (learn port f.target f.senderMac)
      else s)

/-- DAD_COMPLETE (R283): after 1 s the address is usable. -/
def execDadComplete (h : HalfId) (port : Nat) (s : State) : Out :=
  .next (match ((s.half h).net.getD port {}).v6ReadyAt with
    | none => s
    | some t =>
      if s.now h < t || !(s.half h).alive then s
      else resolveAll h port (s.upd h (updPort port (fun p => { p with v6ReadyAt := none }))))

/-- ROUTER_ADVERTISEMENT_RECEIVED (R283): teaches the default router when the gateway field is zero. -/
def execRouterAdvertisementReceived (h : HalfId) (port router mac : Nat) (s : State) : Out :=
  .next (
    if !portHears h s port then s
    else
      let s := s.upd h (portRx port)
      let x := s.half h
      if !x.alive || !portV6 h x port || rd (portRec h x port) 56 16 != 0 then s
      else s.upd h (fun x => learn port router mac (updPort port (fun p => { p with learnedGateway := router }) x)))

/-- MULTICAST_QUERY_RECEIVED (R283): answered with reports for the joined groups, older ones in a querier's compatibility mode. -/
def execMulticastQueryReceived (h : HalfId) (port : Nat) (q : MulticastQuery) (s : State) : Out :=
  .next (
    if !portHears h s port then s
    else
      let s := s.upd h (portRx port)
      let x := s.half h
      if !x.alive || !(if q.v6 then portV6 h x port else portV4 h x port) then s.upd h (portDrop port)
      else
        let groups := (groupsOf h x port q.v6).filter (fun g => q.group == 0 || g.1 == q.group)
        reportGroups h port false q.oldVersion groups (s.upd h (updPort port (fun p => { p with oldQuerier := q.oldVersion }))))

/-- ICMP_ECHO_RECEIVED (R284): answered at most 100 times per second when the record's flag bit 3 is set. -/
def execIcmpEchoReceived (h : HalfId) (port : Nat) (v6 : Bool) (s : State) : Out :=
  .next (
    if !portHears h s port then s
    else
      let s := s.upd h (portRx port)
      let x := s.half h
      let p := x.net.getD port {}
      let recent := p.icmpTimes.filter (fun t => x.clk.now < t + 1000000000)
      let family := if v6 then portV6 h x port && v6Usable p else portV4 h x port
      if x.alive && family && (rd (portRec h x port) 18 1).testBit 3 && recent.length < 100 then
        emit h (.echoReply (portH h port)) (s.upd h (updPort port (fun p => { p with icmpTimes := recent ++ [x.clk.now] })))
      else s.upd h (portDrop port))

/-- OTHER_FRAME_RECEIVED (R278, R284): dropped and counted; PAUSE frames have a count of their own. -/
def execOtherFrameReceived (h : HalfId) (port : Nat) (pause : Bool) (s : State) : Out :=
  .next (
    if !portHears h s port then s
    else s.upd h (fun x =>
      let x := portRx port x
      if pause then updPort port (fun p => { p with counts := { p.counts with pause := sat32 p.counts.pause } }) x else portDrop port x))

/-! RTCP (R95, R99, R298, R299). -/

/-- The half whose PTP clock governs a half: the lead's while the link works, else its own (R285). -/
def ptpHome (s : State) (h : HalfId) : HalfId :=
  if !s.sparWorks then h else if s.east.bri.lead then .east else if s.west.bri.lead then .west else h

/-- RTCP_SENDER_REPORT_RECEIVED (R95): NTP time to TAI by adding the current UTC offset. -/
def execRtcpSenderReportReceived (h : HalfId) (input ntpTime : Nat) (rtp : W32) (s : State) : Out :=
  .next (
    let x := s.half h
    if !x.alive then s
    else
      let tai := ((ntpTime : Int) + (s.half (ptpHome s h)).ptp.utcOffset * 1000000000).toNat
      s.upd h (updInput input (fun n => { n with senderReport := some (tai, rtp) })))

/-- RTCP_FEEDBACK_RECEIVED (R299): with flag bit 2 and a matching SSRC; a repeated FIR is counted and not passed. -/
def execRtcpFeedbackReceived (h : HalfId) (flow : Nat) (f : Feedback) (s : State) : Out :=
  .next (
    let x := s.half h
    let r := x.record (flowH h flow)
    match x.obj.flow? flow with
    | none => s
    | some g =>
      if !x.alive || !flFlag r 2 then s
      else
        let s := s.upd h (count (28 + hIndex g.port % 2) 0x17 1)
        if f.mediaSsrc != g.ssrc then s
        else
          let again := f.fir && g.firLast.any (fun p => p.1 == f.sender && p.2 == f.firSequence)
          let s := s.upd h (updFlow flow (fun g => { g with
            firLast := if f.fir then g.firLast.filter (fun p => p.1 != f.sender) ++ [(f.sender, f.firSequence)] else g.firLast
            counts := if again then { g.counts with firRepeats := sat32 g.counts.firRepeats, fir := sat32 g.counts.fir }
              else if f.fir then { g.counts with fir := sat32 g.counts.fir } else { g.counts with pli := sat32 g.counts.pli } }))
          if again then s else streamFeedback h (hIndex (flStream r)) s)

/-- RTCP_RECEIVER_REPORT_RECEIVED (R299, R278): counted, the loss fields kept; NACKs are counted and ignored. -/
def execRtcpReceiverReportReceived (h : HalfId) (flow : Nat) (r : ReceiverReport) (s : State) : Out :=
  .next (
    let x := s.half h
    if !x.alive || !flFlag (x.record (flowH h flow)) 2 then s
    else s.upd h (updFlow flow (fun g => { g with counts :=
      if r.nack then { g.counts with nack := sat32 g.counts.nack }
      else { g.counts with reports := sat32 g.counts.reports, highestLoss := max g.counts.highestLoss r.fractionLost
                           cumulativeLost := r.cumulativeLost } })))

/-- The interval of RFC 3550, at least 1 s (R99, R298): free beyond that (log 6). -/
def reportInterval (free : Nat) : Nat := max 1000000000 (Config.rtcpInterval free)

/-- SENDER_REPORT_TIMER (R298). -/
def execSenderReportTimer (h : HalfId) (flow : Nat) (s : State) : Out :=
  .next (
    let x := s.half h
    let r := x.record (flowH h flow)
    match x.obj.flow? flow with
    | none => s
    | some f =>
      if !x.alive || !flFlag r 1 || f.path == .standby || f.path == .stopped || f.path == .stranded || x.clk.now < f.nextReport then s
      else
        let ntp := (f.lastSentAt : Int) - (s.half (ptpHome s h)).ptp.utcOffset * 1000000000
        emit h (.senderReport (flowH h flow) f.ssrc ntp (rtpTime (rd r 68 4) f.lastSentAt) (cname x.boot.fuses.serial.toNat) (flDest r)
          (if rd r 80 2 == 0 then rd r 52 2 + 1 else rd r 80 2))
          ({ s with free := s.free + 1 }.upd h (updFlow flow (fun f => { f with nextReport := x.clk.now + reportInterval s.free }))))

/-- RECEIVER_REPORT_TIMER (R99). -/
def execReceiverReportTimer (h : HalfId) (input : Nat) (s : State) : Out :=
  .next (
    let x := s.half h
    match x.obj.input? input with
    | none => s
    | some n =>
      if !x.alive || !(rd (x.record (inputH h input)) 74 2).testBit 1 || x.clk.now < n.nextReport then s
      else
        emit h (.receiverReport (inputH h input))
          ({ s with free := s.free + 1 }.upd h (updInput input (fun n => { n with
            nextReport := x.clk.now + reportInterval s.free, counts := { n.counts with reports := sat32 n.counts.reports } }))))

end Sys2Proof.Machine
end

