-- ==== Sys2Proof/Machine/Ptp.lean ====
section
/-!
DEFINITION. Ptp.lean: the PTP ordinary clock of the package (R285 to R291): port states, the servo's steps and slews, holdover, the PPS
input and output; and the ways a port leaves UP (R280 to R282, R591), which may take the slave port with it.
-/
namespace Sys2Proof.Machine

/-! The PTP record (R286). -/

/-- The handle of a half's PTP object. -/
def ptpH (h : HalfId) : Handle := mkHandle 0x11 h 0

/-- The PTP record in force: of the half's envelope, or of the other's while the link works. -/
def ptpRec (s : State) (h : HalfId) : Option Record :=
  let own := fun (w : HalfId) => (s.half w).running.find? (fun r => recType r == 0x11)
  match own h with
  | some r => some r
  | none => if s.sparWorks then own h.other else none

/-- A signed 8-bit logarithm as an interval in ns. -/
def logInterval (v : Nat) : Nat := if v < 128 then 1000000000 * 2 ^ v else 1000000000 / 2 ^ (256 - v)

/-- The fields of R286 with their defaults before any PTP record runs. -/
def ptpField (s : State) (h : HalfId) (off n dflt : Nat) : Nat := match ptpRec s h with | some r => rd r off n | none => dflt
def ptpFlags (s : State) (h : HalfId) : Nat := ptpField s h 20 1 9
def ptpThreshold (s : State) (h : HalfId) : Nat := let v := ptpField s h 26 2 100; if v == 0 then 100 else v
def ptpHoldover (s : State) (h : HalfId) : Nat := ptpField s h 48 4 3600

/-- The listed ports in order of preference: of the record, or every port that is UP (R286). -/
def ptpPorts (s : State) (h : HalfId) : List Handle :=
  let all := match ptpRec s h with
    | some r => ((List.range 4).map (fun i => BitVec.ofNat 32 (rd r (28 + 4 * i) 4))).filter (fun p => p != (0 : Handle))
    | none => [portH .east 0, portH .east 1, portH .west 0, portH .west 1].filter (fun p => (portAt s p).link == .up)
  if s.sparWorks then all else all.filter (fun p => hHalf p == h)

def updPtp (f : PtpSt → PtpSt) (x : Half) : Half := { x with ptp := f x.ptp }

/-! State changes (R287, R310). -/

def ptpCode : PtpState → Nat
  | .freeRunning => 1
  | .locking => 2
  | .locked => 3
  | .holdover => 4
  | .grandmaster => 5

/-- PTP_STATE, when the state changes. -/
def ptpTo (h : HalfId) (st : PtpState) (s : State) : State :=
  let p := (s.half h).ptp
  if p.state == st then s
  else
    let now := s.now h
    event h 0x0506 sevInfo (ptpH h) (le 4 (ptpCode st) ++ le 4 ((p.slavePort.getD 0).toNat) ++ le 8 p.grandmaster)
      (s.upd h (updPtp (fun p => { p with
        state := st, holdoverSince := if st == .holdover then some now else none, holdoverRaised := false })))

/-- Sets the PTP states of the listed ports (R287); the ports not listed are disabled. -/
def setPortStates (h : HalfId) (slave : Option Handle) (master : Bool) (s : State) : State :=
  let listed := ptpPorts s h
  [portH .east 0, portH .east 1, portH .west 0, portH .west 1].foldl (fun s p =>
    if hHalf p != h && !s.sparWorks then s
    else s.upd (hHalf p) (updPort (hIndex p) (fun q =>
      let st : PtpPort := if !listed.contains p || q.link != .up then .disabled
        else if slave == some p then .slave else if master then .master else .passive
      { q with ptp := st }))) s

/-- The data set that the best master clock algorithm compares, least first. -/
def announceKey (a : Announce) : List Nat := [a.priority1, a.clockClass, a.priority2, a.grandmaster]

/-- Lexicographic order. -/
def keyLess : List Nat → List Nat → Bool
  | a :: as_, b :: bs => decide (a < b) || (a == b && keyLess as_ bs)
  | _, _ => false

/-- The listed port with the best Announce; the first listed wins a tie. -/
def bestPort (s : State) (l : List Handle) : Option (Handle × Announce) :=
  l.foldl (fun acc p => match (portAt s p).announce, acc with
    | some a, none => some (p, a)
    | some a, some q => if keyLess (announceKey a) (announceKey q.2) then some (p, a) else some q
    | none, q => q) none

/-- The device's own data set (R286); its identity is the serial number. -/
def ownKey (s : State) (h : HalfId) : List Nat :=
  [ptpField s h 17 1 128, ptpField s h 19 1 248, ptpField s h 18 1 128, (s.half h).boot.fuses.serial.toNat]

/-- A port takes SLAVE state: the servo locks afresh. -/
def becomeSlave (h : HalfId) (p : Handle) (a : Announce) (s : State) : State :=
  let s := setPortStates h (some p) false s
  let s := s.upd h (updPtp (fun q => { q with
    slavePort := some p, nextSlave := none, grandmaster := a.grandmaster, utcOffset := a.utcOffset
    t1 := none, t2 := none, t3 := none, awaitFollowUp := false, inside := 0, delayKnown := false }))
  ptpTo h .locking s

/-- The best master clock algorithm over the Announce messages of the listed ports (R287). -/
def bmca (h : HalfId) (s : State) : State :=
  let slaveOnly := (ptpFlags s h).testBit 0
  match bestPort s (ptpPorts s h) with
  | none => s
  | some (p, a) =>
    if !slaveOnly && keyLess (ownKey s h) (announceKey a) then
      let s := setPortStates h none true s
      let s := s.upd h (updPtp (fun q => { q with slavePort := none, nextSlave := none, grandmaster := (s.half h).boot.fuses.serial.toNat }))
      ptpTo h .grandmaster s
    else
      let st := (s.half h).ptp
      if st.slavePort == some p then
        s.upd h (updPtp (fun q => { q with grandmaster := a.grandmaster, utcOffset := a.utcOffset }))
      else match st.slavePort.bind (fun q => (portAt s q).announce) with
        | some cur => if keyLess (announceKey a) (announceKey cur) then becomeSlave h p a s else s
        | none => if st.state == .holdover then s.upd h (updPtp (fun q => { q with nextSlave := some p })) else becomeSlave h p a s

/-- The slave port is lost (R287): the next listed port whose best master is equal, or else the best, takes SLAVE state at its next
Sync; the counter is in holdover meanwhile. -/
def slaveLost (h : HalfId) (s : State) : State :=
  let st := (s.half h).ptp
  match st.slavePort with
  | none => s
  | some p =>
    let rest := (ptpPorts s h).filter (fun q => q != p && (portAt s q).link == .up)
    let equal := rest.find? (fun q => (portAt s q).announce.any (fun a => a.grandmaster == st.grandmaster))
    let next := match equal with | some q => some q | none => (bestPort s rest).map (fun q => q.1)
    let s := s.upd h (updPtp (fun q => { q with slavePort := none, nextSlave := next, inside := 0, delayKnown := false }))
    ptpTo h .holdover s

/-- A port has gone DOWN or out of service: if it was the slave port of the clock, the clock holds over. -/
def ptpLost (h : HalfId) (n : Nat) (s : State) : State :=
  let home := ptpHome s h
  if (s.half home).ptp.slavePort == some (portH h n) then slaveLost home s else s

/-! Leaving UP, failed adaptation, PORT_RESET (R280 to R282, R591). -/

/-- LINK_DOWN (R280): from UP to DOWN with the warning; while adapting, a lost signal takes the port back to DOWN. Causes: 1 loss of
signal, 2 block lock, 3 hi_ber, 4 module absent. -/
def execLinkDown (h : HalfId) (port cause : Nat) (s : State) : Out :=
  .next (
    let x := s.half h
    let p := x.net.getD port {}
    if x.boot.inReset || cause == 0 || 4 < cause then s
    else
      let gone := cause == 1 || cause == 4
      let s := s.upd h (updPort port (fun p => { p with signal := p.signal && !gone }))
      if p.link == .up then ptpLost h port (leaveUp h port cause s)
      else if p.link == .adapting && gone then s.upd h (updPort port (fun p => { p with link := .down, retryAt := none }))
      else s)

/-- ADAPTATION_TIMEOUT (R280, R281): 500 ms without block lock; the third failure enters FAILED. -/
def execAdaptationTimeout (h : HalfId) (port : Nat) (s : State) : Out :=
  .next (
    let x := s.half h
    let p := x.net.getD port {}
    if x.boot.inReset || p.link != .adapting || p.retryAt.isSome || x.clk.now < p.since + 500000000 then s
    else if p.attempts + 1 < 3 then
      s.upd h (updPort port (fun p => { p with attempts := p.attempts + 1, retryAt := some (x.clk.now + 100000000) }))
    else
      let s := s.upd h (updPort port (fun p => { p with attempts := 3, link := .failed, retryAt := none }))
      let s := event h 0x0503 sevAlarm (portH h port) (le 4 3 ++ le 4 (Config.equaliser s.free)) { s with free := s.free + 1 }
      portLost h port (latchHw 6 h (34 + port) false s))

/-- ADAPTATION_RETRY (R281): 100 ms after a failed attempt. -/
def execAdaptationRetry (h : HalfId) (port : Nat) (s : State) : Out :=
  .next (match ((s.half h).net.getD port {}).retryAt with
    | none => s
    | some t =>
      if (s.half h).boot.inReset || s.now h < t || ((s.half h).net.getD port {}).link != .adapting then s
      else s.upd h (adaptStart port))

/-- A port goes to DOWN, forgets its failed attempts and restarts bring-up: at once if a signal is present (R280, R591). -/
def restartPort (h : HalfId) (n cause : Nat) (s : State) : State :=
  let was := (s.half h).net.getD n {}
  let s := if was.link == .up then ptpLost h n (leaveUp h n cause s) else s
  s.upd h (fun x => producerRestarts (28 + n) (updPort n (fun p => { p with link := .down, attempts := 0, retryAt := none }) x))

def portResetSpec : OpSpec := { opcode := 0x0501, handle := .types [1], minLen := 0 }

/-- PORT_RESET (R591). -/
def execPortReset (h : HalfId) (e : CmdEntry) (s : State) : Out :=
  .next (runCmd h portResetSpec e none s (fun s =>
    let x := s.half h
    guarded [checkRunning x e.handle,
      failIf (x.net.getD (hIndex e.handle) {}).flags.retired { status := stRetired, step := 8 }] s (fun s =>
      .ok [] (restartPort h (hIndex e.handle) 5 s))))

/-! The servo (R289, R290). -/

/-- The halves whose counters follow a clock: its own, and the other's over the spar link (R285). -/
def clockHalves (s : State) (h : HalfId) : List HalfId := if s.sparWorks then [h, h.other] else [h]

def updClock (f : Clock → Clock) (x : Half) : Half := { x with clk := f x.clk }

/-- The frequency adjustment within ±500 ppm, in 0.001 ppb. -/
def setFrequency (h : HalfId) (v : Int) (s : State) : State :=
  let v := max (-500000000) (min 500000000 v)
  (clockHalves s h).foldl (fun s w => s.upd w (updClock (fun c => { c with freqAdj := v }))) s

/-- A step of the counter, with the alarm TIME_STEPPED; the reel counts the instants it skips (R289, R426). -/
def stepClock (h : HalfId) (d : Int) (s : State) : State :=
  let s := (clockHalves s h).foldl (fun s w => s.upd w (fun x =>
    { updClock (fun c => { c with now := ((c.now : Int) + d).toNat % 2 ^ 64, slew := 0 }) x with
      ctr := { x.ctr with reel := { x.ctr.reel with steppedSince := true } } })) s
  let s := s.upd h (updPtp (fun p => { p with steps := sat32 p.steps, inside := 0 }))
  event h 0x0507 sevAlarm (ptpH h) (le 8 (unsigned 64 d) ++ le 8 (s.now h)) s

/-- A phase correction: a step above 1 ms, else a slew (R289). -/
def correctPhase (h : HalfId) (d : Int) (s : State) : State :=
  if decide (1000000 < d) || decide (d < -1000000) then stepClock h d s
  else (clockHalves s h).foldl (fun s w => s.upd w (updClock (fun c => { c with slew := d * nsUnit }))) s

/-- A Sync with both its times: the offset counts towards LOCKED once a path delay is known (R289). -/
def syncDone (h : HalfId) (s : State) : State :=
  let p := (s.half h).ptp
  match p.t1, p.t2 with
  | some t1, some t2 =>
    if !p.delayKnown then s
    else
      let off := (t2 : Int) - t1 - p.delay
      let small := decide (off < (ptpThreshold s h : Int)) && decide (-(ptpThreshold s h : Int) < off)
      let n := if small then p.inside + 1 else 0
      let s := s.upd h (updPtp (fun p => { p with offset := off, inside := n }))
      if 16 ≤ n && p.state == .locking then
        let s := if p.everLocked || off == 0 then s else stepClock h (-off) s
        ptpTo h .locked (s.upd h (updPtp (fun p => { p with everLocked := true, inside := 16 })))
      else if n == 0 && p.state == .locked then ptpTo h .locking s
      else s
  | _, _ => s

/-- Under the host's servo an unanswered request is late at the next expected Sync (R290, R80). -/
def servoDeadline (h : HalfId) (s : State) : State :=
  let p := (s.half h).ptp
  if p.answered || s.now h < p.deadline then s
  else assistLate h 0x0B07 0 (ptpH h) 0 p.deadline 1 (s.upd h (updPtp (fun p => { p with answered := true })))

/-- PTP_SYNC_RECEIVED (R287, R288). A port that waits for its Sync takes SLAVE state first. -/
def execPtpSyncReceived (h : HalfId) (port : Nat) (twoStep : Bool) (origin receive : Nat) (s : State) : Out :=
  .next (
    let p := portH h port
    let home := ptpHome s h
    if !portHears h s port || !(s.half home).alive then s
    else
      let s := s.upd h (portRx port)
      let s := match (s.half home).ptp.nextSlave, (portAt s p).announce with
        | some q, some a => if q == p then becomeSlave home p a s else s
        | _, _ => s
      if (s.half home).ptp.slavePort != some p then s
      else
        let s := servoDeadline home s
        let asym := signed 16 (rd (portRec h (s.half h) port) 74 2)
        let t2 := ((receive : Int) - asym).toNat
        let s := s.upd home (updPtp (fun q => { q with
          t1 := if twoStep then none else some origin, t2 := some t2, awaitFollowUp := twoStep }))
        if twoStep then s else syncDone home s)

/-- PTP_FOLLOW_UP_RECEIVED (R288). -/
def execPtpFollowUpReceived (h : HalfId) (port origin : Nat) (s : State) : Out :=
  .next (
    let home := ptpHome s h
    if !portHears h s port || !(s.half home).alive then s
    else
      let s := s.upd h (portRx port)
      if (s.half home).ptp.slavePort != some (portH h port) || !(s.half home).ptp.awaitFollowUp then s
      else syncDone home (s.upd home (updPtp (fun q => { q with t1 := some origin, awaitFollowUp := false }))))

/-- DELAY_REQUEST_INTERVAL (R286, R288): the slave port asks for the path delay, no more often than the record's interval. -/
def execDelayRequestInterval (h : HalfId) (port : Nat) (s : State) : Out :=
  .next (
    let home := ptpHome s h
    let st := (s.half home).ptp
    let now := s.now h
    let due := st.lastDelayReq.all (fun t => t + logInterval (ptpField s home 24 1 0) ≤ now)
    if !portHears h s port || !(s.half home).alive || st.slavePort != some (portH h port) || !due then s
    else
      let asym := signed 16 (rd (portRec h (s.half h) port) 72 2)
      emit h (.ptpDelayReq (portH h port) now)
        (s.upd home (updPtp (fun q => { q with t3 := some ((now : Int) + asym).toNat, lastDelayReq := some now }))))

/-- PTP_DELAY_RESP_RECEIVED (R289, R290): the path delay is known and the servo, or the host, corrects the counter. -/
def execPtpDelayRespReceived (h : HalfId) (port receive : Nat) (s : State) : Out :=
  .next (
    let home := ptpHome s h
    if !portHears h s port || !(s.half home).alive then s
    else
      let s := s.upd h (portRx port)
      let p := (s.half home).ptp
      match p.t1, p.t2, p.t3 with
      | some t1, some t2, some t3 =>
        if p.slavePort != some (portH h port) then s
        else
          let d := ((t2 : Int) - t1 + ((receive : Int) - t3)) / 2
          let off := (t2 : Int) - t1 - d
          let s := s.upd home (updPtp (fun q => { q with delay := d, offset := off, delayKnown := true, t3 := none }))
          if modeHost (s.half home) fnPtp (ptpH home) then
            let next := t2 + logInterval (ptpField s home 22 1 0)
            let a : AsrEntry :=
              { kind := 0x0B07, tag := 0, handle := ptpH home, sequence := 0, time := t2
                payload := le 8 t1 ++ le 8 t2 ++ le 8 t3 ++ le 8 receive ++ le 4 (unsigned 32 (s.half home).clk.freqAdj) }
            asrRequest home a next (s.upd home (updPtp (fun q => { q with deadline := next, answered := false })))
          else
            let s := setFrequency home (Config.servoFrequency s.free) { s with free := s.free + 1 }
            correctPhase home (-off) s
      | _, _, _ => s)

/-- PTP_CORRECTION (R290): the host's frequency adjustment and phase step, before the next expected Sync. -/
def execPtpCorrection (h : HalfId) (a : AssistEntry) (s : State) : Out :=
  .next (runAssist h 0x0B07 fnPtp a s (fun p s =>
    let st := (s.half h).ptp
    if st.answered || st.deadline ≤ s.now h || st.t2 != some a.time.toNat then
      assistLate h 0x0B07 a.tag.toNat a.handle a.sequence.toNat a.time.toNat 1 s
    else if afld p 28 4 != 0 || afld p 40 24 != 0 then
      assistLate h 0x0B07 a.tag.toNat a.handle a.sequence.toNat a.time.toNat 2 s
    else
      let s := setFrequency h (signed 32 (afld p 24 4)) (s.upd h (updPtp (fun q => { q with answered := true })))
      correctPhase h (signed 64 (afld p 32 8)) s))

/-! Announce, master, holdover (R286 to R288). -/

/-- PTP_ANNOUNCE_RECEIVED (R287). -/
def execPtpAnnounceReceived (h : HalfId) (port : Nat) (a : Announce) (s : State) : Out :=
  .next (
    let home := ptpHome s h
    if !portHears h s port || !(s.half home).alive || !(ptpPorts s home).contains (portH h port) then s
    else bmca home (s.upd h (fun x => portRx port (updPort port (fun p => { p with announce := some a, announceAt := x.clk.now }) x))))

/-- ANNOUNCE_RECEIPT_TIMEOUT (R287): the receipt timeout in announce intervals without an Announce on the port. -/
def execAnnounceReceiptTimeout (h : HalfId) (port : Nat) (s : State) : Out :=
  .next (
    let home := ptpHome s h
    let p := (s.half h).net.getD port {}
    let limit := ptpField s home 25 1 3 * logInterval (ptpField s home 23 1 1)
    if !(s.half home).alive || p.announce.isNone || s.now h < p.announceAt + limit then s
    else
      let s := s.upd h (updPort port (fun p => { p with announce := none }))
      if (s.half home).ptp.slavePort == some (portH h port) then slaveLost home s else s)

/-- PTP_DELAY_REQ_RECEIVED (R288): as master, timestamped and answered. -/
def execPtpDelayReqReceived (h : HalfId) (port receive : Nat) (s : State) : Out :=
  .next (
    if !portHears h s port then s
    else
      let s := s.upd h (portRx port)
      if ((s.half h).net.getD port {}).ptp != .master then s
      else
        let asym := signed 16 (rd (portRec h (s.half h) port) 74 2)
        emit h (.ptpDelayResp (portH h port) ((receive : Int) - asym).toNat) s)

/-- PTP_MASTER_INTERVAL (R286, R288): a port in MASTER state sends Sync, with a Follow_Up as a two-step master, or Announce. -/
def execPtpMasterInterval (h : HalfId) (port : Nat) (announce : Bool) (s : State) : Out :=
  .next (
    let home := ptpHome s h
    let p := (s.half h).net.getD port {}
    let now := s.now h
    if !portHears h s port || p.ptp != .master then s
    else if announce then
      if now < p.announceSentAt + logInterval (ptpField s home 23 1 1) && p.announceSentAt != 0 then s
      else emit h (.ptpAnnounce (portH h port)) (s.upd h (updPort port (fun p => { p with announceSentAt := now })))
    else if now < p.syncSentAt + logInterval (ptpField s home 22 1 0) && p.syncSentAt != 0 then s
    else
      let asym := signed 16 (rd (portRec h (s.half h) port) 72 2)
      let s := emit h (.ptpSync (portH h port) ((now : Int) + asym).toNat) (s.upd h (updPort port (fun p => { p with syncSentAt := now })))
      if (ptpFlags s home).testBit 1 then emit h (.ptpFollowUp (portH h port)) s else s)

/-- HOLDOVER_EXPIRED (R286): once per holdover. -/
def execHoldoverExpired (h : HalfId) (s : State) : Out :=
  .next (
    let p := (s.half h).ptp
    match p.holdoverSince with
    | none => s
    | some t =>
      if p.state != .holdover || p.holdoverRaised || s.now h < t + ptpHoldover s h * 1000000000 then s
      else event h 0x0508 sevWarning (ptpH h) (le 8 t) (s.upd h (updPtp (fun p => { p with holdoverRaised := true }))))

/-! PPS (R291). -/

/-- PPS_INPUT_EDGE (R291): with flag bit 2 the lead takes the edge plus the PPS offset as the whole second that PTP or the host counts. -/
def execPpsInputEdge (h : HalfId) (second : Nat) (s : State) : Out :=
  .next (
    if !(s.half h).alive || ptpHome s h != h || !(ptpFlags s h).testBit 2 || !(s.half h).boot.board.ppsFitted then s
    else
      let off := signed 32 (ptpField s h 44 4 0)
      correctPhase h ((second : Int) * 1000000000 - off - (s.now h : Int)) s)

/-- PPS_OUTPUT_PULSE (R291): high for 100 µs from every whole second of device time. -/
def execPpsOutputPulse (h : HalfId) (s : State) : Out :=
  .next (
    let x := s.half h
    let second := x.clk.now / 1000000000
    if x.boot.inReset || !(ptpFlags s h).testBit 3 || second ≤ x.ptp.lastPps then s
    else
      emit h (.ppsPulse (second * 1000000000)) (s.upd h (fun x =>
        { updPtp (fun p => { p with lastPps := second }) x with pwr := { x.pwr with ppsUntil := second * 1000000000 + 100000 } })))

end Sys2Proof.Machine
end

