-- ==== Sys2Proof/Machine/Takeover.lean ====
section
/-!
DEFINITION. Takeover.lean: arming a take-over (R71), the take-over time (R70, R72, R73), what each object without a picture boundary does
at it (R280, R286, R319, R339, R378, R379, R425), superseded commands (R576), and the store's CRC check (R74).
-/
namespace Sys2Proof.Machine

/-! Arming (R71). -/

/-- The handles that a take-over affects (R70): changed, new and removed records, and the streams of such ladders' gangs. -/
def affected (x : Half) (p : PendingEnv) : List Handle :=
  let news := (p.records.filter (fun r => !unchanged x r)).map recHandle
  let gone := (x.runningSlot.filter (fun r => (recOf p.records (recHandle r)).isNone)).map recHandle
  let base := news ++ gone
  let gangs := (base.filter (fun l => hType l == 7)).flatMap (fun l =>
    ((recOf x.runningSlot l).toList ++ (recOf p.records l).toList).flatMap groupStreams)
  unionNew base gangs

/-- A new object stands by, stopped, until its boundary. -/
def placeholder (h : HalfId) (p : PendingEnv) (x : Half) (r : Record) : Half :=
  let i := hIndex (recHandle r)
  let o := x.obj
  match recType r with
  | 0x02 =>
    if (o.flow? i).isSome then x
    else { x with obj := { o with flows := o.flows ++ [{ index := i, run := .stopped, path := .stopped, port := flPort r, ssrc := 0, nextSeq := 0
                                                         sentSeq := 0, copyFrom := h }] } }
  | 0x04 => if (o.decode? i).isSome then x else { x with obj := { o with decodes := o.decodes ++ [{ index := i, run := .stopped }] } }
  | 0x05 =>
    if (o.encode? i).isSome then x
    else
      let e := encodeStart h p.records r [] 0 p.takeTime
      { x with obj := { o with encodes := o.encodes ++ [{ e with run := .stopped }] } }
  | 0x08 =>
    if (o.canvas? i).isSome then x
    else
      let c := canvasStart r [] 0 p.takeTime
      { x with obj := { o with canvases := o.canvases ++ [{ c with run := .stopped }] } }
  | _ => x

/-- The keel arms every affected island (R71). -/
def armDo (h : HalfId) (x : Half) : Half :=
  match x.env.pend with
  | none => x
  | some p =>
    if p.armed then x
    else
      let x' := updEnv (fun v => { v with pend := some { p with armed := true, left := affected x p } }) x
      (p.records.filter (fun r => (recOf x.runningSlot (recHandle r)).isNone)).foldl (placeholder h p) x'

/-- TAKEOVER_ARM (R71). -/
def execTakeoverArm (h : HalfId) (s : State) : Out :=
  .next (if (s.half h).alive then s.upd h (armDo h) else s)

/-! The store's CRC check (R74). -/

/-- The first record of a slot whose CRC does not hold. -/
def crcFault (rs : List Record) : Option Handle := (rs.find? (fun r => recordCrc r != recCrc r)).map recHandle

/-- A pending envelope is discarded for a CRC mismatch, with a report that names the record: ENVELOPE_GROUP_RESOLVED for a grouped
commit, else DEFERRED_DONE (R74, R586). -/
def crcCancel (h : HalfId) (obj : Handle) (s : State) : State :=
  match (s.half h).env.pend with
  | none => s
  | some p =>
    if p.begun then s
    else
      let ws := pendHalves h s
      let s := ws.foldl (fun s w => s.upd w pendDrop) s
      if p.group != 0 then groupEvent h p.group stInvalid 0x05 h obj 0 [] s
      else deferredDone h 0x0204 p.tag.toNat p.sequence.toNat obj stInvalid 2 (s.now h) s

/-- The check of both slots: a mismatch latches source 43 and cancels a take-over that has not begun. -/
def crcCheck (h : HalfId) (s : State) : State :=
  let x := s.half h
  let pending := match x.env.pend with | some p => p.records | none => []
  match crcFault (x.runningSlot ++ pending) with
  | none => s
  | some o => crcCancel h o (latchHw 6 h 43 false s)

/-- ENVELOPE_CRC_CHECK (R74): every 10 s. -/
def execEnvelopeCrcCheck (h : HalfId) (s : State) : Out :=
  .next (
    let x := s.half h
    if !x.alive || x.clk.now < x.env.lastCrcCheck + 10000000000 then s
    else crcCheck h (s.upd h (fun x => updEnv (fun v => { v with lastCrcCheck := x.clk.now }) x)))

/-! Superseded commands (R576). -/

/-- The first boundary of an object at or after the take-over time, where the records fix it. -/
def firstBoundary (p : PendingEnv) (obj : Handle) : Nat :=
  match recOf p.records obj with
  | none => p.takeTime
  | some r =>
    if hType obj == 8 then cvTick r (firstTickFrom (cvAnchor r) (cvNum r) (cvDen r) p.takeTime)
    else if hType obj == 5 then
      esTick p.records r (firstTickFrom (esAnchor p.records r) (esPeriod p.records r).1 (esPeriod p.records r).2 p.takeTime)
    else p.takeTime

/-- The deferred command meets the take-over on the object at the same boundary. -/
def superseded (p : PendingEnv) (d : Deferred) : Bool :=
  let o := d.entry.handle
  p.left.contains o && p.takeTime ≤ d.due && ((recOf p.records o).isNone || d.due ≤ firstBoundary p o)

/-- Deferred commands and waiting starts that the take-over supersedes end with DEFERRED_DONE (R576). -/
def supersede (h : HalfId) (p : PendingEnv) (s : State) : State :=
  let v := (s.half h).env
  let starts := v.waitingStarts.filter (fun d => p.left.contains d.entry.handle)
  let ds := v.deferred.filter (superseded p) ++ starts
  let s := s.upd h (updEnv (fun v => { v with
    deferred := v.deferred.filter (fun d => !superseded p d)
    waitingStarts := v.waitingStarts.filter (fun d => !p.left.contains d.entry.handle) }))
  ds.foldl (fun s d => deferredEnd h d (if (recOf p.records d.entry.handle).isNone then stNotCommitted else stOk) 1 s) s

/-! Regions and pools (R339, R378, R379). -/

/-- The regions take their places; one that starts has its valid bits cleared (R339). -/
def regionsSwitch (h : HalfId) (p : PendingEnv) (x : Half) : Half :=
  let places : List Placement := p.regions.map (fun q => { region := q.1, channel := q.2.1, offset := q.2.2.1, size := q.2.2.2 })
  let fresh := places.filter (fun q => p.left.contains (mkHandle 0x10 h q.region))
  fresh.foldl (fun x q => devClear (placeAddr q) q.size x) { x with dram := { x.dram with placed := places } }

/-- The indices on a pool's free list, in its order. -/
def poolWalk (p : Nat) (q : PoolSt) (x : Half) : Nat → Nat → List Nat
  | 0, _ => []
  | n + 1, a => match bufIndex p q a with
    | some i => i :: poolWalk p q x n (leVal (devRead a 8 x))
    | none => []

/-- The free buffers of a pool are threaded in an order. -/
def poolThreadAs (p : Nat) (l : List Nat) (x : Half) : Half :=
  let r := threadList p (poolOf x p) l x
  updPool p (fun q => { q with head := r.2, cached := [] }) r.1

/-- A pool starts in a place with every buffer free; its former buffers stay valid for release (R378). -/
def poolBegin (p base : Nat) (r : Record) (x : Half) : Half :=
  let x := updPool p (fun q => { q with
    present := true, base := base, count := rd r 16 4, lowWater := if rd r 32 1 == 0 then 10 else rd r 32 1
    old := q.old ++ q.held.map (fun e => (bufAddr p q e.1, e.2)), held := [], hostQueue := [], rebuilding := false, stopped := false
    lowestFree := rd r 16 4 }) x
  poolThread p x

/-- A pool in its place takes a new count: new indices at the head, those at or above the count leave the list (R378). -/
def poolResize (p : Nat) (r : Record) (x : Half) : Half :=
  let q := poolOf x p
  let n := rd r 16 4
  let walk := poolWalk p q x q.count q.head
  let fresh := (List.range n).filter (fun i => q.count ≤ i && (heldCount q i).isNone)
  let x := updPool p (fun q => { q with
    count := n, lowWater := if rd r 32 1 == 0 then 10 else rd r 32 1, hostQueue := q.hostQueue.filter (fun a => (a - q.base) / bufSize p < n) }) x
  if q.hostManaged then x else poolThreadAs p (fresh ++ walk.filter (fun i => i < n)) x

/-- The mode of a pool changes (R379): the host takes every free buffer, or the manager threads its list again. -/
def poolMode (h : HalfId) (p : Nat) (host : Bool) (s : State) : State :=
  let q := poolOf (s.half h) p
  if !q.present || q.hostManaged == host then s
  else if host then
    let s := s.upd h (updPool p (fun q => { q with hostManaged := true, hostQueue := [], head := endMark, cached := [], supplyAsked := none }))
    (freeList q).foldl (fun s i => poolReturn h p (bufAddr p q i) s) s
  else s.upd h (fun x => poolThread p (updPool p (fun q => { q with hostManaged := false, hostQueue := [], supplyAsked := none }) x))

/-- One pool at the take-over time. -/
def poolSwitch (h : HalfId) (p : PendingEnv) (old : List Record) (n : Nat) (s : State) : State :=
  let obj := mkHandle 0x0D h n
  let s := match recOf p.records obj with
    | none =>
      if (poolOf (s.half h) n).present then
        s.upd h (updPool n (fun q => { q with
          present := false, old := q.old ++ q.held.map (fun e => (bufAddr n q e.1, e.2)), held := [], head := endMark, cached := [], count := 0, hostQueue := [] }))
      else s
    | some r =>
      let region := BitVec.ofNat 32 (rd r 20 4)
      match placedAt (s.half h) (hIndex region) with
      | none => s
      | some q =>
        let base := placeAddr q + rd r 24 8
        match recOf old obj with
        | none => s.upd h (fun x => poolBegin n base r { x with pools := x.pools.set n { old := (poolOf x n).old } })
        | some o =>
          if rd o 20 12 != rd r 20 12 || p.left.contains region then s.upd h (poolBegin n base r)
          else if o == r && !p.left.contains obj then s
          else s.upd h (poolResize n r)
  poolMode h n (hostMode p.records fnPool obj) s

/-! Ports, sessions, surfaces, shapers, gates, PTP, the reel. -/

/-- A port at the take-over time (R280): without a record it goes DOWN with its transmitter off; a change of speed or FEC restarts it; a
changed record ends FAILED; in UP its address protocols start again. -/
def portSwitch (h : HalfId) (p : PendingEnv) (n : Nat) (s : State) : State :=
  let q := (s.half h).net.getD n {}
  match recOf p.records (portH h n) with
  | none => (restartPort h n 0 s).upd h (updPort n (fun q => { q with transmitter := false }))
  | some r =>
    if !p.left.contains (portH h n) then s
    else
      let s := s.upd h (updPort n (fun q => { q with transmitter := true }))
      if rd r 16 1 != q.speed || rd r 17 1 != q.fec then
        (restartPort h n 0 s).upd h (updPort n (fun q => { q with speed := rd r 16 1, fec := rd r 17 1 }))
      else if q.link == .failed then s.upd h (updPort n (fun q => { q with link := .down, attempts := 0, retryAt := none }))
      else if q.link == .up then protocolsStart h n (s.upd h (updPort n (fun q => { q with resolved := [], learnedGateway := 0 })))
      else s

/-- Adds or replaces an element of a list of objects. -/
def putObj {α : Type} (same : α → Bool) (a : α) (l : List α) : List α := if l.any same then mapWhere same (fun _ => a) l else l ++ [a]

/-- The groups that the take-over leaves, on ports that are UP (R283). -/
def groupsLeft (h : HalfId) (p : PendingEnv) (old : List Record) (s : State) : State :=
  (List.range Config.netPorts).foldl (fun s n => [false, true].foldl (fun s v6 =>
    let kept := groupsIn h p.records n v6
    let gone := (groupsIn h old n v6).filter (fun g => !kept.contains g)
    if ((s.half h).net.getD n {}).link == .up then unsolicited h n true gone s else s) s) s

/-- Input sessions start or restart, and join their groups (R75, R93, R283). -/
def inputsSwitch (h : HalfId) (p : PendingEnv) (s : State) : State :=
  ((ofType p.records 3).filter (fun r => p.left.contains (recHandle r))).foldl (fun s r =>
    let i := hIndex (recHandle r)
    let s := s.upd h (fun x =>
      let counts : InputCounts := match x.obj.input? i with | some n => n.counts | none => {}
      let n : InputSt := { index := i, counts := counts, nextReport := x.clk.now, ownSsrc := Config.randomSsrc s.free }
      { x with obj := { x.obj with inputs := putObj (fun a => a.index == i) n x.obj.inputs } })
    let s := s.tick1
    let n := rd r 16 4 % 0x10000
    let v6 := rd r 21 1 == 6
    if ((s.half h).net.getD n {}).link == .up && isMulticast v6 (rd r 24 16) then unsolicited h n false [inputGroup r] s else s) s

/-- Surfaces start or restart: every buffer released (R161). -/
def surfacesSwitch (h : HalfId) (p : PendingEnv) (x : Half) : Half :=
  ((ofType p.records 0x0A).filter (fun r => p.left.contains (recHandle r))).foldl (fun x r =>
    let i := hIndex (recHandle r)
    surfaceWrite h i { x with obj := { x.obj with surfaces := putObj (fun a => a.index == i) { index := i } x.obj.surfaces } }) x

/-- A SHAPER of other kind or port, or a new one, starts with full buckets (R316); any other change acts as a SHAPER_SET (R319). -/
def shapersSwitch (h : HalfId) (p : PendingEnv) (old : List Record) (s : State) : State :=
  ((ofType p.records 0x0C).filter (fun r => p.left.contains (recHandle r))).foldl (fun s r =>
    let obj := recHandle r
    let i := hIndex obj
    let rate := rd r 20 4
    let burst := rd r 24 4
    let kept := match recOf old obj with | some o => rd o 16 1 == rd r 16 1 && rd o 32 4 == rd r 32 4 | none => false
    if kept && ((s.half h).obj.shaper? i).isSome then shaperApply h obj rate burst (rd r 28 4) s
    else
      let fresh : ShaperSt :=
        { index := i, rate := rate, burst := burst, latencyLimit := rd r 28 4, bucket := bucketNew (10 * rate) burst (s.now h) }
      s.upd h (fun x => { x with obj := { x.obj with shapers := putObj (fun a => a.index == i) fresh x.obj.shapers } })) s

/-- The gates of a port: a removed list opens them at once, a new or changed one starts by R326 (R319). -/
def gatesSwitch (p : PendingEnv) (old : List Record) (armedBefore : Bool) (x : Half) : Half :=
  let changed := (ofType p.records 0x0B).filter (fun r => p.left.contains (recHandle r))
  let gone := (ofType old 0x0B).filter (fun o =>
    p.left.contains (recHandle o) && !(ofType p.records 0x0B).any (fun r => rd r 16 4 == rd o 16 4))
  let x := gone.foldl (fun x o => updPort (rd o 16 4 % 65536) (fun q => { q with gate := none, nextGate := none, rebase := none }) x) x
  changed.foldl (fun x r =>
    let a := gateArm r (rd r 32 8) p.takeTime 1 x
    let start := if armedBefore then gateStart (rd r 32 8) (rd r 24 4) p.takeTime 0 else a.2
    updPort (rd r 16 4 % 65536) (fun q => { q with rebase := none, nextGate := q.nextGate.map (fun g => { g with start := start }) }) a.1) x

/-- The PTP clock after a change of its record (R286, R287). -/
def ptpSwitch (h : HalfId) (p : PendingEnv) (s : State) : State :=
  if !p.left.contains (ptpH h) then s
  else
    let home := ptpHome s h
    let lost := match (s.half home).ptp.slavePort with | some q => !(ptpPorts s home).contains q | none => false
    bmca home (if lost then slaveLost home s else s)

/-- The reel restarts when its region, period, ring or snapshot mask changes (R425). -/
def reelSwitch (h : HalfId) (p : PendingEnv) (old : List Record) (x : Half) : Half :=
  let obj := mkHandle 0x12 h 0
  let key := fun (rs : List Record) => (recOf rs obj).map (fun r => (rd r 24 8, rd r 32 4, rd r 36 4, rd r 40 4))
  if !p.left.contains obj || key old == key p.records then x
  else
    let reel : ReelSt := { running := match recOf p.records obj with | some r => rd r 32 4 != 0 | none => false }
    let x := { x with ctr := { x.ctr with reel := reel } }
    match (recOf p.records obj).bind (fun r => placedAt x (rd r 32 4 % 0x10000)) with
    | some q => if reel.running then devWrite (placeAddr q) (List.replicate 64 0) x else x
    | none => x

/-! Clusters (R240). -/

/-- T, the declared charge, A and Cmax of a cluster from the streams placed; the credit is set to Cmax (R240). -/
def clusterSet (rs : List Record) (placed : List Placed) (k : Nat) (x : Half) : Half :=
  let units := serving (x.enc.map (fun e => e.flags))
  let start : Places (List EncBin) := { bins := units.map (fun u => { unit := u }) }
  let q := (placed.filter (fun u => hType u.1 == 5)).foldl (fun q u => match recOf rs u.1 with
    | some r => encPut rs r u.2.1 q
    | none => q) start
  let f := clusterLoads q k
  let t := f.2.1
  let a := if f.1 * t.den < t.num then 0 else (f.1 * t.den - t.num) * 995000000 / t.den
  updCluster k (fun c => { c with
    tier1 := micro t, declared := micro f.2.2, accrual := a, cmax := (a * 60000000 : Nat), credit := (a * 60000000 : Nat)
    creditAt := x.clk.now, negativeSince := none }) x

/-- After a take-over gangs return to the widths of their records, at their next IDR picture (R211, log 89). -/
def gangsSwitch (x : Half) : Half :=
  { x with obj := { x.obj with encodes := mapWhere (fun e => !e.widths.isEmpty) (fun e => { e with autoWidths := true }) x.obj.encodes } }

/-- The clusters whose placement a take-over changes. -/
def clustersSwitch (p : PendingEnv) (x : Half) : Half :=
  let streams := p.left.filter (fun l => hType l == 5)
  let es := streams.flatMap (fun l =>
    ((x.obj.encode? (hIndex l)).map (fun e => e.engines)).getD [] ++ (((p.units.find? (fun u => u.1 == l)).map (fun u => u.2.1)).getD []))
  [0, 1].foldl (fun x k => if es.any (fun e => encClusterOf e == k) then clusterSet p.records p.units k x else x) (gangsSwitch x)

/-! Objects that have no picture to wait for. -/

/-- A decode context with nothing from before the take-over left to decode, or that does not run, switches now. -/
def decodeNow (p : PendingEnv) (x : Half) (obj : Handle) : Half :=
  match x.obj.decode? (hIndex obj), recOf p.records obj with
  | some d, some r =>
    let off := d.run == .stopped || d.run == .halted || d.run == .shed
    if off || (d.inProgress.isNone && d.ready.all (fun a => p.takeTime ≤ a.presentation)) then
      let u := ((p.units.find? (fun u => u.1 == obj)).map (fun u => u.2)).getD (d.engines, d.load)
      updDecode d.index (fun d => { decodeFresh r d with
        run := .running, engines := u.1, load := u.2
        inProgress := if off then none else d.inProgress }) (leaveTakeover obj x)
    else x
  | _, _ => x

/-- A flow whose stream does not run, and does not start with this take-over, switches now. -/
def flowNow (h : HalfId) (p : PendingEnv) (obj : Handle) (s : State) : State :=
  match recOf p.records obj with
  | none => s
  | some r =>
    let st := flStream r
    let runs := match (s.half h).obj.encode? (hIndex st) with | some e => e.run == .running || e.run == .draining | none => false
    if runs || p.left.contains st then s else switchFlow h p obj s

/-! The take-over time. -/

/-- Types without a picture boundary (R70, R319): ports, inputs, surfaces, gate lists, shapers, pools, reactions, modes, regions, PTP and
counter exposures. -/
def instantType (t : Nat) : Bool := t == 1 || t == 3 || (0x0A ≤ t && t ≤ 0x12)

/-- What happens in a half at the take-over time. -/
def takeoverBegin (h : HalfId) (p0 : PendingEnv) (s : State) : State :=
  let armedBefore := p0.armed
  let s := s.upd h (armDo h)
  match (s.half h).env.pend with
  | none => s
  | some p =>
    let old := (s.half h).runningSlot
    let s := supersede h p s
    let now_ := p.left.filter (fun l => instantType (hType l))
    let gone := now_.filter (fun l => (recOf p.records l).isNone)
    let s := s.upd h (fun x => gone.foldl (fun x l => dropObject l x) (updEnv (fun v => { v with
      pend := some { p with begun := true, left := p.left.filter (fun l => !instantType (hType l)) } }) x))
    let s := s.upd h (regionsSwitch h p)
    let s := (List.range 16).foldl (fun s n => poolSwitch h p old n s) s
    let s := shapersSwitch h p old s
    let s := (List.range Config.netPorts).foldl (fun s n => portSwitch h p n s) s
    let s := inputsSwitch h p (groupsLeft h p old s)
    let s := s.upd h (surfacesSwitch h p)
    let s := s.upd h (gatesSwitch p old armedBefore)
    let s := ptpSwitch h p s
    let s := s.upd h (reelSwitch h p old)
    let s := s.upd h (fun x => { x with bri := { x.bri with hostDecides := hostMode p.records fnLead 0 } })
    let s := s.upd h (clustersSwitch p)
    let s := s.upd h (fun x => (p.left.filter (fun l => hType l == 4)).foldl (decodeNow p) x)
    let s := (p.left.filter (fun l => hType l == 2)).foldl (fun s l => flowNow h p l s) s
    removeIdle h (s.upd h leaveGroups)

/-- TAKEOVER_TIME (R70, R74): after the check of the store, the objects without a picture boundary switch. -/
def execTakeoverTime (h : HalfId) (s : State) : Out :=
  .next (
    let due := fun (x : Half) => x.alive && x.env.pend.any (fun p => !p.begun && p.takeTime ≤ x.clk.now)
    if !due (s.half h) then s
    else
      let s := crcCheck h s
      match (s.half h).env.pend with
      | none => s
      | some p => if p.begun then s else takeoverBegin h p s)

end Sys2Proof.Machine
end

