-- ==== Sys2Proof/Machine/Retire.lean ====
section
/-!
DEFINITION. Retire.lean: how objects halt and restart (R303, R354, R361, R365, R478), how firmware sheds them (R462, R463), and the
placement that follows when a unit leaves service (R460, R461).
-/
namespace Sys2Proof.Machine

/-! Halting objects. -/

/-- The engines leave a stream's picture, which is dropped; the canvas pictures it held are released. -/
def dropPicture (h : HalfId) (i : Nat) (x : Half) : Half :=
  let src := esSource (x.record (encodeH h i))
  let x := ((List.range 8).filter (fun k => (x.enc.getD k {}).current == some i)).foldl (fun x k => producerStops k x) x
  let x := { x with enc := x.enc.map (fun g => { g with
    current := if g.current == some i then none else g.current, suspended := g.suspended.filter (fun k => k != i) }) }
  let x := if hType src == 8 then
      updCanvas (hIndex src) (fun c => { c with held := (c.held.map (fun p => { p with
        readers := p.readers.filter (fun k => k != i) })).filter (fun p => !p.readers.isEmpty) }) x
    else x
  updEncode i (fun e => { e with plan := none, ready := [], pendingBlocks := [], pendingAll := true }) x

/-- A stream halts: its picture is dropped, and its flows take the other copy or enter undercoat (R303, R308). -/
def haltStream (h : HalfId) (i cause : Nat) (s : State) : State :=
  match (s.half h).obj.encode? i with
  | none => s
  | some e =>
    if e.run == .running || e.run == .draining then
      sourceLost h (encodeH h i) cause (s.upd h (fun x => updEncode i (fun e => { e with run := .halted }) (dropPicture h i x)))
    else s

/-- The engines leave a context's picture; its access unit is decoded again from its start (R478). -/
def redoDecode (c : Nat) (x : Half) : Half :=
  let x := { x with dec := x.dec.map (fun g => { g with
    current := if g.current == some c then none else g.current, suspended := g.suspended.filter (fun k => k != c) }) }
  updDecode c (fun d => match d.inProgress with
    | some a => { d with inProgress := none, ready := a :: d.ready }
    | none => d) x

/-- A context halts; with its picture store lost its layers show their placeholders (R361). -/
def haltDecode (c : Nat) (wipe : Bool) (x : Half) : Half :=
  match x.obj.decode? c with
  | none => x
  | some d =>
    if d.run == .running || d.run == .draining then
      updDecode c (fun d => { d with
        run := .halted, available := if wipe then [] else d.available, waiting := if wipe then [] else d.waiting }) (redoDecode c x)
    else x

/-- The pipes leave a canvas's jobs, which are dropped. -/
def dropJobs (i : Nat) (x : Half) : Half :=
  updCanvas i (fun c => { c with jobs := [], repeats := [] }) { x with cmp := x.cmp.map (fun g => { g with
    current := if g.current == some i then none else g.current, suspended := g.suspended.filter (fun k => k != i) }) }

/-- The encode streams that read a canvas. -/
def canvasReaders (h : HalfId) (x : Half) (i : Nat) : List Nat :=
  (x.obj.encodes.filter (fun e => esSource (x.record (encodeH h e.index)) == canvasH h i)).map (fun e => e.index)

/-- A canvas halts, and with it the streams that read it (R361). -/
def haltCanvas (h : HalfId) (i : Nat) (s : State) : State :=
  match (s.half h).obj.canvas? i with
  | none => s
  | some c =>
    if c.run == .running || c.run == .draining then
      (canvasReaders h (s.half h) i).foldl (fun s k => haltStream h k 1 s)
        (s.upd h (fun x => updCanvas i (fun c => { c with run := .halted }) (dropJobs i x)))
    else s

/-! Restarting objects. -/

/-- Both members of a guarded pair restart (R228); with the spar link down only this one. -/
def twinPair (h : HalfId) (i base : Nat) (s : State) : State :=
  let other : Handle := BitVec.ofNat 32 (esPartner ((s.half h).record (encodeH h i)))
  let s := twinRestartAt h i base s
  if s.sparWorks then twinRestartAt h.other (hIndex other) base s else s

/-- A halted stream restarts at its first picture at or after a time: with an IDR picture and its rate state kept, or as a guarded pair
(R354, R365, R478). -/
def restartStream (h : HalfId) (i base : Nat) (s : State) : State :=
  let x := s.half h
  match x.obj.encode? i with
  | none => s
  | some e =>
    if e.run != .halted then s.upd h (updEncode i (fun e => { e with holdAt := none }))
    else
      let r := x.record (encodeH h i)
      let k := pictureFrom x.running r e base
      let guarded := esGuarded r
      let s := s.upd h (updEncode i (fun e => { e with
        run := .running, holdAt := none, nextTick := k, pendingAll := true, firstPicture := e.firstPicture || !guarded }))
      if guarded then twinPair h i base s else s

/-- A context that kept its state runs again. -/
def resumeDecode (c : Nat) (x : Half) : Half :=
  updDecode c (fun d => { d with run := if d.run == .halted then .running else d.run, holdAt := none }) x

/-- A context that lost its state waits for a start point; a LIVE stream fed from an INPUT asks for one (R365). -/
def restartDecode (h : HalfId) (c : Nat) (s : State) : State :=
  match (s.half h).obj.decode? c with
  | none => s
  | some d =>
    if d.run != .halted then s
    else
      let s := s.upd h (fun x => resumeDecode c (updDecode c (fun d =>
        { decodeReset (x.record (decodeH h c)) d with available := [], waiting := [] }) x))
      let r := (s.half h).record (decodeH h c)
      let fir := (rd ((s.half h).record (decInput r)) 74 2).testBit 2
      if decClass r == 0 && decInput r != 0 then requestOnce h (hIndex (decInput r)) fir s else s

/-- A halted canvas runs again from its first tick at or after a time, with every tile dirty when its slots are lost (R365, R354). -/
def restartCanvas (h : HalfId) (i base : Nat) (fresh : Bool) (x : Half) : Half :=
  let r := x.record (canvasH h i)
  updCanvas i (fun c =>
    if c.run != .halted then { c with holdAt := none }
    else { c with run := .running, holdAt := none, allDirty := c.allDirty || fresh, latest := if fresh then none else c.latest
                  held := if fresh then [] else c.held
                  nextTick := max c.nextTick (firstTickFrom (cvAnchor r) (cvNum r) (cvDen r) base) }) x

/-! The users of a region. -/

/-- The encode streams, contexts and canvases that use a kind-0 region, with the streams that read those canvases (R361). -/
def regionUsers (h : HalfId) (x : Half) (g : Nat) : List Handle :=
  let t := (mkHandle 0x10 h g).toNat
  let own := (x.running.filter (fun r => match recType r with
    | 4 => rd r 48 4 == t || rd r 40 4 == t
    | 5 => rd r 68 4 == t
    | 8 => rd r 44 4 == t
    | _ => false)).map recHandle
  unionNew own ((x.running.filter (fun r => recType r == 5 && hType (esSource r) == 8 && own.contains (esSource r))).map recHandle)

/-- The picture store of a context lies in the region. -/
def storesIn (h : HalfId) (x : Half) (g : Nat) (obj : Handle) : Bool := rd (x.record obj) 48 4 == (mkHandle 0x10 h g).toNat

/-- A user of a region halts with it (R361). -/
def haltUser (h : HalfId) (g : Nat) (obj : Handle) (s : State) : State :=
  match hType obj with
  | 4 => s.upd h (fun x => haltDecode (hIndex obj) (storesIn h x g obj) x)
  | 5 => haltStream h (hIndex obj) 1 s
  | 8 => haltCanvas h (hIndex obj) s
  | _ => s

/-- A user of a region whose contents are gone restarts from a time (R365, R366). -/
def restartUser (h : HalfId) (base : Nat) (obj : Handle) (s : State) : State :=
  match hType obj with
  | 4 => restartDecode h (hIndex obj) s
  | 5 => restartStream h (hIndex obj) base s
  | 8 => s.upd h (restartCanvas h (hIndex obj) base true)
  | _ => s

/-- A user of a region that has moved whole restarts at its first boundary (R354). -/
def resumeUser (h : HalfId) (base : Nat) (obj : Handle) (s : State) : State :=
  match hType obj with
  | 4 => s.upd h (resumeDecode (hIndex obj))
  | 5 => restartStream h (hIndex obj) base s
  | 8 => s.upd h (restartCanvas h (hIndex obj) base false)
  | _ => s

/-- The run state of an object. -/
def runOf (x : Half) (obj : Handle) : Option RunState :=
  match hType obj with
  | 4 => (x.obj.decode? (hIndex obj)).map (fun d => d.run)
  | 5 => (x.obj.encode? (hIndex obj)).map (fun e => e.run)
  | 8 => (x.obj.canvas? (hIndex obj)).map (fun c => c.run)
  | _ => none

/-- The next picture boundary of an object: the tick time of its next picture; a context is between pictures at once. -/
def boundaryOf (h : HalfId) (x : Half) (obj : Handle) : Nat :=
  match hType obj with
  | 5 => match x.obj.encode? (hIndex obj) with
    | some e => esTick x.running (x.record obj) e.nextTick
    | none => 0
  | 8 => match x.obj.canvas? (hIndex obj) with
    | some c => cvTick (x.record (canvasH h (hIndex obj))) c.nextTick
    | none => 0
  | _ => x.clk.now

/-- Pictures of an object from a time on are not taken (R354). -/
def holdObject (obj : Handle) (t : Option Nat) (x : Half) : Half :=
  match hType obj with
  | 4 => updDecode (hIndex obj) (fun d => { d with holdAt := t }) x
  | 5 => updEncode (hIndex obj) (fun e => { e with holdAt := t }) x
  | 8 => updCanvas (hIndex obj) (fun c => { c with holdAt := t }) x
  | _ => x

/-- An object that is held from a boundary on has come to it with nothing from before it left. -/
def atBoundary (x : Half) (obj : Handle) (t : Nat) : Bool :=
  decide (t ≤ x.clk.now) &&
  (match hType obj with
   | 4 => (x.obj.decode? (hIndex obj)).all (fun d => d.inProgress.isNone)
   | 5 =>
     let src := esSource (x.record obj)
     (x.obj.encode? (hIndex obj)).all (fun e => e.plan.isNone && e.ready.isEmpty) &&
     (hType src != 8 || (x.obj.canvas? (hIndex src)).all (fun c => c.jobs.all (fun j => t ≤ j.tickTime)))
   | 8 => (x.obj.canvas? (hIndex obj)).all (fun c => c.jobs.all (fun j => t ≤ j.tickTime))
   | _ => true)

/-! Shedding (R462, R463). -/

/-- The class of an object in the shedding order: 0 BULK, 1 TIMED, 2 LIVE, 3 guarded. -/
def shedClass (r : Record) : Nat :=
  match recType r with
  | 4 => if decPartner r != 0 then 3 else 2 - decClass r
  | 5 => if esGuarded r then 3 else 2 - esClass r
  | _ => if cvGuarded r then 3 else if cvLive r then 2 else 1

/-- The shedding list of the half. -/
def shedList (h : HalfId) (x : Half) : List Handle :=
  match recOf x.running (mkHandle 0x0E h 0x0100) with
  | none => []
  | some r => (List.range (rd r 18 2)).map (fun i => BitVec.ofNat 32 (rd r (24 + 4 * i) 4))

/-- The contexts, streams and canvases of the half, shed first to shed last (R463). -/
def shedOrder (h : HalfId) (x : Half) : List Handle :=
  let os := x.running.filter (fun r => recType r == 4 || recType r == 5 || recType r == 8)
  let listed := shedList h x
  [0, 1, 2, 3].flatMap (fun k =>
    let mine := (os.filter (fun r => shedClass r == k)).map recHandle
    (mine.filter (fun o => !listed.contains o)).reverse ++ listed.filter (fun o => mine.contains o))

/-- OBJECT_SHED with its failing check. -/
def shedEvent (h : HalfId) (check : Nat) (dep obj : Handle) (s : State) : State :=
  event h 0x0803 sevWarning obj (le 4 check ++ le 4 dep.toNat) s

/-- A stream is shed: every flow of it enters undercoat. -/
def shedStream (h : HalfId) (check : Nat) (dep : Handle) (i : Nat) (s : State) : State :=
  match (s.half h).obj.encode? i with
  | none => s
  | some e =>
    if e.run == .shed then s
    else
      let s := s.upd h (fun x => updEncode i (fun e => { e with run := .shed, engines := [], load := 0 }) (dropPicture h i x))
      shedEvent h check dep (encodeH h i) (sourceLost h (encodeH h i) 4 s)

/-- Sheds an object with what depends on it (R462). -/
def shedObject (h : HalfId) (check : Nat) (obj : Handle) (s : State) : State :=
  let i := hIndex obj
  if runOf (s.half h) obj == some .shed then s
  else
    match hType obj with
    | 4 => shedEvent h check 0 obj (s.upd h (fun x => updDecode i (fun d => { d with
        run := .shed, ready := [], waiting := [], available := [], engines := [], load := 0 }) (redoDecode i x)))
    | 5 => shedStream h check 0 i s
    | 8 =>
      let s := shedEvent h check 0 obj (s.upd h (fun x => updCanvas i (fun c => { c with run := .shed, pipes := [], load := 0 }) (dropJobs i x)))
      (canvasReaders h (s.half h) i).foldl (fun s k => shedStream h check obj k s) s
    | _ => s

/-- The records of the objects that are not shed. -/
def liveRecords (h : HalfId) (x : Half) : List Record :=
  let shed := shedObjects h x
  x.running.filter (fun r => !shed.contains (recHandle r))

/-- Sheds objects of the types a check counts until it passes; `fuel` bounds the objects. -/
def shedUntil (h : HalfId) (check : Nat) (types : List Nat) (ok : Half → Bool) : Nat → State → State
  | 0, s => s
  | n + 1, s =>
    if ok (s.half h) then s
    else
      match (shedOrder h (s.half h)).find? (fun o => types.contains (hType o) && runOf (s.half h) o != some .shed) with
      | none => s
      | some o => shedUntil h check types ok n (shedObject h check o s)

/-- A check of R461; when shedding everything does not help, CHECK_UNRESOLVED with the charge that remains and the limit (log 13). -/
def checkOrShed (h : HalfId) (check : Nat) (types : List Nat) (ok : Half → Bool) (charge limit : Half → Nat) (s : State) : State :=
  let s := shedUntil h check types ok (s.half h).running.length s
  if ok (s.half h) then s
  else event h 0x0810 sevAlarm 0 (le 4 check ++ le 8 (charge (s.half h)) ++ le 8 (limit (s.half h))) s

/-! Placement after a unit has left service (R461). -/

def decodesPlaced (h : HalfId) (x : Half) : Places (List Bin) :=
  placeDecodes (serving (x.dec.map (fun e => e.flags))) (liveRecords h x) (heldPlaces h x)

def canvasesPlaced (h : HalfId) (x : Half) : Places (List Bin) :=
  placeCanvases (serving (x.cmp.map (fun e => e.flags))) (liveRecords h x) (heldPlaces h x)

def encodesPlaced (h : HalfId) (x : Half) : Places (List EncBin) :=
  placeEncodes (serving (x.enc.map (fun e => e.flags))) (x.obj.clusters.map (fun c => c.overbook)) (liveRecords h x) (heldPlaces h x)

/-- The load that objects of a type hold, in 10⁻⁶ units. -/
def loadOf (h : HalfId) (type : Nat) (x : Half) : Nat := total (((heldPlaces h x).filter (fun p => hType p.1 == type)).map (fun p => p.2.2))

/-- A context takes new engines; its picture in progress ends where it runs. -/
def moveDecode (p : Placed) (x : Half) : Half := updDecode (hIndex p.1) (fun d => { d with engines := p.2.1, load := p.2.2 }) x

/-- A canvas takes new pipes; a job with a band on a pipe that is gone is composed again on them. -/
def moveCanvas (p : Placed) (x : Half) : Half :=
  let i := hIndex p.1
  let gone := fun (u : Nat) => (x.cmp.getD u {}).flags.retired
  let redo := fun (j : Job) => j.bandsLeft.any gone
  match x.obj.canvas? i with
  | none => x
  | some c =>
    let again := c.jobs.any redo
    let x := if again then { x with cmp := x.cmp.map (fun g => if g.current == some i then { g with current := none }
        else { g with suspended := g.suspended.filter (fun k => k != i) }) } else x
    updCanvas i (fun c => { c with
      pipes := p.2.1, load := p.2.2
      jobs := c.jobs.map (fun j => if again then
          { j with pipes := p.2.1, bandsLeft := p.2.1, bandsWaiting := p.2.1, changed := [] } else j) }) x

/-- A stream takes new engines: it goes on there with an IDR picture, or its pair takes the twin restart (R461). -/
def moveEncode (h : HalfId) (p : Placed) (s : State) : State :=
  let i := hIndex p.1
  let s := s.upd h (updEncode i (fun e => { e with engines := p.2.1, load := p.2.2 }))
  match (s.half h).obj.encode? i with
  | none => s
  | some e =>
    if e.run != .running && e.run != .draining then s
    else if esGuarded ((s.half h).record p.1) then twinPair h i (s.now h + 1000000) s
    else s.upd h (updEncode i (fun e => { e with refreshWait := e.refreshWait ++ [{ tick := 0, kind := 1, cause := 4 }] }))

/-- The placements that differ from what the objects hold. -/
def movedPlaces (h : HalfId) (x : Half) (type : Nat) (l : List Placed) : List Placed :=
  let held := heldPlaces h x
  l.filter (fun p => hType p.1 == type && (held.find? (fun q => q.1 == p.1)).any (fun q => q.2.1 != p.2.1))

/-- The checks of R461 in their order, and the moves that follow from them. Regions that lose their channel are placed before. -/
def rePlace (h : HalfId) (s : State) : State :=
  let s := checkOrShed h 1 [4] (fun x => (decodesPlaced h x).failed.isNone) (loadOf h 4)
    (fun x => 1000000 * (serving (x.dec.map (fun e => e.flags))).length) s
  let s := s.upd h (fun x => (movedPlaces h x 4 (decodesPlaced h x).placed).foldl (fun x p => moveDecode p x) x)
  let s := checkOrShed h 2 [8] (fun x => (canvasesPlaced h x).failed.isNone) (loadOf h 8)
    (fun x => 1000000 * (serving (x.cmp.map (fun e => e.flags))).length) s
  let s := s.upd h (fun x => (movedPlaces h x 8 (canvasesPlaced h x).placed).foldl (fun x p => moveCanvas p x) x)
  let before := (heldPlaces h (s.half h)).filter (fun p => hType p.1 == 5)
  let s := checkOrShed h 3 [5] (fun x => (encodesPlaced h x).failed.isNone) (loadOf h 5)
    (fun x => 1000000 * (serving (x.enc.map (fun e => e.flags))).length) s
  let places := (encodesPlaced h (s.half h)).placed
  let s := (movedPlaces h (s.half h) 5 places).foldl (fun s p => moveEncode h p s) s
  let s := checkOrShed h 5 [4, 5, 8] (fun x => (poolCheck x.running (liveRecords h x)).isNone)
    (fun x => total ((ofType (liveRecords h x) 5).map poolNeed)) (fun x => (poolOf x 0).count) s
  let s := checkOrShed h 6 [4, 5, 8] (fun x => (bandCheck (servingChannels x).length (liveRecords h x)).isNone)
    (fun x => let c := bandCharge (liveRecords h x); c.num / c.den) (fun x => let c := bandLimit (servingChannels x).length; c.num / c.den) s
  let after := (heldPlaces h (s.half h)).filter (fun p => hType p.1 == 5)
  if before == after then s
  else s.upd h (fun x => [0, 1].foldl (fun x k => clusterSet (liveRecords h x) after k x) x)

/-! Units: engines, pipes and ports by fault source. -/

/-- The engine or pipe of a fault source below 18. -/
def unitOf (x : Half) (src : Nat) : EngineSt :=
  if src < 8 then x.enc.getD src {} else if src < 14 then x.dec.getD (src - 8) {} else x.cmp.getD (src - 14) {}

def updUnit (src : Nat) (f : EngineSt → EngineSt) (x : Half) : Half :=
  if src < 8 then { x with enc := x.enc.modify src f }
  else if src < 14 then { x with dec := x.dec.modify (src - 8) f }
  else if src < 18 then { x with cmp := x.cmp.modify (src - 14) f }
  else x

/-- The fault source of a unit by its counter block (R416). -/
def blockSource (b : Nat) : Option Nat := if b < 14 then some b else if 18 ≤ b && b < 22 then some (b - 4) else none

/-- The counter block of a fault source below 18. -/
def sourceBlock (src : Nat) : Nat := if src < 14 then src else src + 4

/-- The object that a unit of a source works on. -/
def sourceObject (h : HalfId) (src i : Nat) : Handle :=
  if src < 8 then encodeH h i else if src < 14 then decodeH h i else canvasH h i

/-- The streams that halt with a picture of a stream: every rung when it is rung 0 of a ladder, else itself; a gang is one stream
(R478). -/
def haltedWith (h : HalfId) (x : Half) (i : Nat) : List Nat :=
  match (ofType x.running 6).find? (fun l => rd l 20 4 == (encodeH h i).toNat) with
  | some l => (rungsOf x.running l).map (fun r => hIndex (recHandle r))
  | none => [i]

/-- The unit stops its current work (R478): a stream halts, an access unit goes back to be decoded again, a band to be composed again. -/
def workHalt (h : HalfId) (src : Nat) (s : State) : State :=
  let x := s.half h
  match (unitOf x src).current with
  | none => s
  | some i =>
    if src < 8 then
      let set := haltedWith h x i
      let s := set.foldl (fun s k => haltStream h k 1 s) s
      s.upd h (updUnit src (fun g => { g with current := none, lost := unionNew g.lost (set.map (encodeH h)) }))
    else if src < 14 then s.upd h (redoDecode i)
    else s.upd h (fun x =>
      let pipe := src - 14
      updCanvas i (fun c => { c with jobs := c.jobs.map (fun j =>
        if j.bandsLeft.contains pipe && (c.jobs.find? (fun k => k.bandsLeft.contains pipe)).any (fun k => k.tick == j.tick) then
          { j with bandsWaiting := addNew pipe j.bandsWaiting } else j) }) (updUnit src (fun g => { g with current := none }) x))

/-- A unit goes down: its work stops, and it takes none (R437, R476). -/
def unitDown (h : HalfId) (src : Nat) (s : State) : State :=
  let s := workHalt h src s
  s.upd h (fun x => updUnit src (fun g => { g with
    halted := true, downAt := x.clk.now, seq := { g.seq with halt := false, suspend := false } }) x)

/-- The latches of a source within its retire window (R440). -/
def latchCount (h : HalfId) (x : Half) (src : Nat) : Nat :=
  let w := (reactionOf h x src).window * 1000000000
  (x.flt.latches.filter (fun l => l.source == src && x.clk.now < l.time + w)).length

/-- A unit is back in service; the streams it lost restart 100 µs after the reload or the halt, a guarded pair 1 ms after its detection
(R478, R590). -/
def unitResume (h : HalfId) (src : Nat) (s : State) : State :=
  let g := unitOf (s.half h) src
  if !g.halted || g.flags.retired then s
  else
    let now := s.now h
    let s := s.upd h (fun x => producerRestarts (sourceBlock src) <| x |> updUnit src (fun g => { g with
      halted := false, lost := [], seq := { g.seq with stack := [], clocks := 0, check := none, reloadSince := none } }))
    let s := event h 0x0805 sevInfo (sourceUnit h src) (le 4 src ++ le 4 (latchCount h (s.half h) src)) s
    g.lost.foldl (fun s o =>
      let guarded := esGuarded ((s.half h).record o)
      restartStream h (hIndex o) (if guarded then max now (g.downAt + 1000000) else now + 100000) s) s

/-- UNIT_RETIRED: cause 1 threshold, 2 FAULT_ACTION, 3 UNIT_RETIRE. -/
def retiredEvent (h : HalfId) (unit : Handle) (cause : Nat) (s : State) : State := event h 0x0802 sevAlarm unit (le 4 cause) s

/-- An engine or pipe retires (R460): its work and the contexts suspended on it move, its control store is lost, and it powers off. -/
def retireEngine (h : HalfId) (src cause : Nat) (s : State) : State :=
  let g := unitOf (s.half h) src
  if g.flags.retired then s
  else
    let s := workHalt h src s
    let waiting := (unitOf (s.half h) src).suspended
    let s := waiting.foldl (fun s i =>
      if src < 8 then haltStream h i 1 s else if src < 14 then s.upd h (redoDecode i) else s) s
    let lost := (unitOf (s.half h) src).lost ++ (if src < 8 then waiting.map (encodeH h) else [])
    let s := s.upd h (fun x =>
      let x := updUnit src (fun g => { g with
        flags := { g.flags with inService := false, quiescing := false, retired := true, enable := false }
        halted := false, toRetire := 0, lost := [], leaving := [], suspended := [], seq := {} }) (producerStops (sourceBlock src) x)
      updIsland (sourceBlock src) (fun i => { i with powered := false, step := 0, idleSince := none }) (counterRetires (sourceBlock src) (disarm src x)))
    let s := retiredEvent h (sourceUnit h src) cause s
    let s := rePlace h s
    lost.foldl (fun s o => restartStream h (hIndex o) (s.now h) s) s

/-- A port retires (R460): its flows move (R461). -/
def retirePort (h : HalfId) (n cause : Nat) (s : State) : State :=
  if (((s.half h).net.getD n {}).flags).retired then s
  else
    let s := (restartPort h n 0 s).upd h (fun x => counterRetires (28 + n) (updPort n (fun p => { p with
      flags := { p.flags with inService := false, quiescing := false, retired := true, enable := false }, transmitter := false }) x))
    retiredEvent h (mkHandle 0x24 h n) cause s

end Sys2Proof.Machine
end

