-- ==== Sys2Proof/Machine/Evacuate.lean ====
section
/-!
DEFINITION. Evacuate.lean: regions that leave a channel (R336, R353, R354, R361, R366, R377), the second level of fault reaction (R440,
R441, R460), and what firmware does after any happening that has latched, halted or finished something (`settle`).
-/
namespace Sys2Proof.Machine

/-- The kind-1 handle of a channel (R337). -/
def channelH (h : HalfId) (n : Nat) : Handle := mkHandle 0x10 h (0xFF00 + n)

def chanAt (x : Half) (n : Nat) : ChannelSt := x.dch.getD n {}
def updChannel (n : Nat) (f : ChannelSt → ChannelSt) (x : Half) : Half := { x with dch := x.dch.modify n f }

/-! Places (R336, R338, R353). -/

/-- The bytes of the firmware reserve (R336). -/
def reserveSize : Nat := 0x8000000

/-- The ranges that hold something: the reserve and where it goes, retired blocks, placed regions, and the places planned for
evacuated ones. -/
def takenRanges (x : Half) : List Range :=
  blockedRanges x ++
  (match x.dram.reserveMove with | some (c, o, _, _) => [(c, o, reserveSize)] | none => []) ++
  x.dram.placed.map (fun p => (p.channel, p.offset, p.size)) ++
  x.dch.flatMap (fun c => match c.evac with
    | some v => v.left.map (fun l => (l.2.1, l.2.2, (((x.dram.placed.find? (fun p => p.region == l.1)).map (fun p => p.size)).getD 0)))
    | none => [])

/-- The channels a region may go to: in service, not frozen. -/
def openChannels (x : Half) : List Nat := (servingChannels x).filter (fun n => (chanAt x n).frozen.isNone)

/-- The regions of a channel, those of guarded objects first, then by the reverse of the shedding order, then those without users (R353). -/
def evacOrder (h : HalfId) (x : Half) (n : Nat) : List Placement :=
  let order := shedOrder h x
  let key := fun (p : Placement) => maxOf ((regionUsers h x p.region).map (fun o => match order.findIdx? (fun q => q == o) with
    | some k => k + 1
    | none => 0))
  sortBy (fun a b => key b < key a) (x.dram.placed.filter (fun p => p.channel == n))

/-- The places of regions on some channels, one after the other (step 3 of R338); none where nothing fits. -/
def planRegions (h : HalfId) (x : Half) (chans : List Nat) : List Placement → List Range → List (Placement × Option (Nat × Nat))
  | [], _ => []
  | p :: ps, taken =>
    let r := x.record (mkHandle 0x10 h p.region)
    let place := placeRegion (usableBytes x) (chans.filter (fun c => rd r 17 1 == 0xFF || rd r 17 1 == c)) taken p.size
    (p, place) :: planRegions h x chans ps (match place with | some (c, o) => (c, o, p.size) :: taken | none => taken)

/-- The users of regions, in shedding order (R353). -/
def usersInOrder (h : HalfId) (x : Half) (gs : List Nat) : List Handle :=
  let us := gs.flatMap (regionUsers h x)
  (shedOrder h x).filter (fun o => us.contains o)

/-- The users of regions that fit nowhere are shed (check 4 of R464); the number shed. -/
def shedUsers (h : HalfId) (gs : List Nat) (s : State) : State × Nat :=
  let us := (usersInOrder h (s.half h) gs).filter (fun o => runOf (s.half h) o != some .shed)
  let t := us.foldl (fun s o => shedObject h 4 o s) s
  (t, (shedObjects h (t.half h)).length - (shedObjects h (s.half h)).length)

/-- The bandwidth check of R36 after channels have gone. -/
def bandwidthCheck (h : HalfId) (s : State) : State :=
  checkOrShed h 6 [4, 5, 8] (fun x => (bandCheck (servingChannels x).length (liveRecords h x)).isNone)
    (fun x => let c := bandCharge (liveRecords h x); c.num / c.den) (fun x => let c := bandLimit (servingChannels x).length; c.num / c.den) s

/-! Moving a region (R354, R377). -/

/-- The pools whose buffers lie in a region. -/
def poolsIn (h : HalfId) (x : Half) (g : Nat) : List Nat :=
  (List.range 16).filter (fun p => (poolOf x p).present && rd (x.record (mkHandle 0x0D h p)) 20 4 == (mkHandle 0x10 h g).toNat)

/-- A region's contents and valid bits move to its new place, its pools with it. -/
def moveRegion (h : HalfId) (q : Placement) (c off : Nat) (x : Half) : Half :=
  let a := placeAddr q
  let b := c * chanSpan + off
  let x := fillsEnd a q.size x
  let mine := x.dram.data.filter (fun e => a ≤ e.1 && e.1 < a + q.size)
  let blocks := (x.dram.valid.filter (fun k => blockOf a ≤ k && k < blockOf (a + q.size))).map (fun k => k - blockOf a + blockOf b)
  let x := devClear b q.size (devClear a q.size x)
  let x := { x with dram := { x.dram with
    data := mine.foldl (fun m e => memSet (e.1 - a + b) e.2 m) x.dram.data
    valid := unionNew x.dram.valid blocks
    placed := mapWhere (fun p => p.region == q.region) (fun p => { p with channel := c, offset := off }) x.dram.placed } }
  (poolsIn h x q.region).foldl (fun x p =>
    let x := updPool p (fun v => { v with base := v.base - a + b, hostQueue := v.hostQueue.map (fun k => k - a + b) }) x
    if (poolOf x p).hostManaged then x else poolThread p x) x

/-- A region whose contents are gone starts in a new place (R366). -/
def freshRegion (h : HalfId) (q : Placement) (c off : Nat) (x : Half) : Half :=
  let x := devClear (c * chanSpan + off) q.size { x with dram := { x.dram with
    placed := mapWhere (fun p => p.region == q.region) (fun p => { p with channel := c, offset := off }) x.dram.placed } }
  (poolsIn h x q.region).foldl (fun x p =>
    let r := x.record (mkHandle 0x0D h p)
    poolBegin p (c * chanSpan + off + rd r 24 8) r x) x

/-- A region that fits nowhere is released; a pool in it stops (R462, R377). -/
def releaseRegion (h : HalfId) (q : Placement) (x : Half) : Half :=
  let ps := poolsIn h x q.region
  let x := devClear (placeAddr q) q.size { x with dram := { x.dram with placed := x.dram.placed.filter (fun p => p.region != q.region) } }
  ps.foldl (fun x p => updPool p (fun v => { v with stopped := true }) x) x

/-- Regions that lose their contents: their users halt, then restart in cleared regions on other channels, or are shed (R366). -/
def regionsLost (h : HalfId) (plan : List (Placement × Option (Nat × Nat))) (s : State) : State :=
  let s := plan.foldl (fun s p => (regionUsers h (s.half h) p.1.region).foldl (fun s o => haltUser h p.1.region o s) s) s
  let bad := (plan.filter (fun p => p.2.isNone)).map (fun p => p.1.region)
  let s := (shedUsers h bad s).1
  let s := s.upd h (fun x => plan.foldl (fun x p => match p.2 with
    | some (c, o) => freshRegion h p.1 c o x
    | none => releaseRegion h p.1 x) x)
  plan.foldl (fun s p => match p.2 with
    | some _ => (regionUsers h (s.half h) p.1.region).foldl (fun s o => restartUser h (s.now h) o s) s
    | none => s) s

/-! Retirement of a channel, and of the half (R336, R351, R354, R366, R460). -/

/-- A channel is out of service for good. -/
def channelOut (n : Nat) (x : Half) : Half :=
  updIsland (22 + n) (fun i => { i with idleSince := none }) (updChannel n (fun c => { c with
    flags := { c.flags with inService := false, quiescing := false, retired := true, enable := false }
    evac := none, queue := [], frozen := none, train := { c.train with retraining := false, repeatAt := none, runAt := none, asked := none } })
    (counterRetires (22 + n) (disarm (0x16 + n) (disarm (0x12 + n) x))))

/-- The half retires itself (R460): the bridle stops its tether. -/
def retireHalf (h : HalfId) (cause : Nat) (s : State) : State := retiredEvent h 0 cause (stopTether h s)

/-! The reserve (R336). -/

/-- A free place for the reserve on a channel. -/
def reservePlace (x : Half) (n : Nat) : Option Nat := freeOffset (usableBytes x) (takenRanges x) n reserveSize

/-- The channels that may take the reserve, lowest first. -/
def reserveChannels (x : Half) (from_ : Nat) : List Nat := (openChannels x).filter (fun n => n != from_)

/-- Regions of a channel that must leave until the reserve fits there: the shortest front of their order that makes room. -/
def frontThatFrees (x : Half) (n : Nat) : List (Placement × Option (Nat × Nat)) → List (Placement × Option (Nat × Nat)) →
    List (Placement × Option (Nat × Nat))
  | [], done => done
  | p :: ps, done =>
    let gone := (done ++ [p]).map (fun q => q.1.region)
    let taken := takenRanges { x with dram := { x.dram with placed := x.dram.placed.filter (fun q => !gone.contains q.region) } }
    if (freeOffset (usableBytes x) taken n reserveSize).isSome then done ++ [p] else frontThatFrees x n ps (done ++ [p])

/-- An evacuation turns to its next region: its users are told the boundary from which they are held (R354). -/
def evacTurn (h : HalfId) (n : Nat) (x : Half) : Half :=
  match (chanAt x n).evac with
  | none => x
  | some v =>
    match v.left with
    | [] => x
    | l :: _ =>
      let us := ((regionUsers h x l.1).filter (fun o => runOf x o == some .running || runOf x o == some .draining)).map
        (fun o => (o, boundaryOf h x o))
      let x := us.foldl (fun x u => holdObject u.1 (some u.2) x) x
      updChannel n (fun c => { c with evac := some { v with halting := us, copying := false } }) x

/-- The reserve leaves a channel (R336 step 1): to a free place, or to one that regions of another channel make free. A half without
another channel in service retires itself. -/
def reserveLeave (h : HalfId) (n : Nat) (copied : Bool) (s : State) : State :=
  let x := s.half h
  match x.dram.reserve with
  | none => s
  | some (at_, _) =>
    if at_ != n || x.dram.reserveMove.isSome then s
    else
      let cs := reserveChannels x n
      match cs.findSome? (fun c => (reservePlace x c).map (fun o => (c, o))) with
      | some (c, o) => s.upd h (fun x => { x with dram := { x.dram with reserveMove := some (c, o, x.clk.now, copied) } })
      | none =>
        match cs.head? with
        | none => retireHalf h 1 s
        | some c =>
          if (chanAt x c).evac.isSome then s
          else
            let plan := planRegions h x (cs.filter (fun k => k != c)) (evacOrder h x c) (takenRanges x)
            let front := frontThatFrees x c plan []
            let bad := (front.filter (fun p => p.2.isNone)).map (fun p => p.1)
            let s := (shedUsers h (bad.map (fun p => p.region)) s).1
            let s := s.upd h (fun x => bad.foldl (fun x p => releaseRegion h p x) x)
            let left := front.filterMap (fun p => p.2.map (fun q => (p.1.region, q.1, q.2)))
            s.upd h (fun x => evacTurn h c (updChannel c (fun k => { k with
              evac := some { left := left, started := x.clk.now, purpose := 2 } }) x))

/-! Evacuation (R353, R354). -/

/-- A channel is evacuated: `purpose` 0 before it is retired, 1 on a host hold (R543). -/
def evacBegin (h : HalfId) (n purpose : Nat) (s : State) : State :=
  let x := s.half h
  let c := chanAt x n
  if c.evac.isSome || c.flags.retired || !c.flags.inService || c.frozen.isSome then s
  else
    let s := reserveLeave h n true s
    let s := s.upd h (updChannel n (fun c => { c with evac := some { left := [], started := x.clk.now, purpose := purpose } }))
    let x := s.half h
    let plan := planRegions h x (openChannels x) (evacOrder h x n) (takenRanges x)
    let left := plan.filterMap (fun p => p.2.map (fun q => (p.1.region, q.1, q.2)))
    let r := shedUsers h ((plan.filter (fun p => p.2.isNone)).map (fun p => p.1.region)) s
    let s := r.1.upd h (fun x => evacTurn h n (updChannel n (fun c => { c with
      evac := c.evac.map (fun v => { v with left := left, shed := r.2 }) }) x))
    let s := if (plan.any (fun p => p.2.isNone && (regionUsers h (s.half h) p.1.region).isEmpty)) then
        event h 0x0810 sevAlarm 0 (le 4 4 ++ le 8 (total ((plan.filter (fun p => p.2.isNone)).map (fun p => p.1.size))) ++
          le 8 (total ((openChannels x).map (freeBytes (usableBytes x) (takenRanges x))))) s else s
    bandwidthCheck h s

/-- The last region is done: the channel is retired, or held out of service, or the reserve takes the room (R354, R543, R336). -/
def evacEnd (h : HalfId) (n : Nat) (v : EvacSt) (s : State) : State :=
  let now := s.now h
  let s := s.upd h (fun x => (x.dram.placed.filter (fun p => p.channel == n && v.purpose != 2)).foldl (fun x p => releaseRegion h p x) x)
  let done := fun (s : State) => event h 0x0607 sevInfo (channelH h n) (le 4 v.moved ++ le 4 v.shed ++ le 8 (now - v.started)) s
  if v.purpose == 0 then
    let s := s.upd h (channelOut n)
    done (event h 0x0606 sevAlarm (channelH h n) (le 4 2) s)
  else if v.purpose == 1 then
    done (s.upd h (updChannel n (fun c => { c with evac := none, flags := { c.flags with inService := false, quiescing := false } })))
  else
    let s := s.upd h (updChannel n (fun c => { c with evac := none }))
    match (s.half h).dram.reserve with
    | some (c, _) => reserveLeave h c ((chanAt (s.half h) c).frozen.isNone && !(chanAt (s.half h) c).flags.retired) s
    | none => s

/-- An evacuation goes on: when all users of its first region have halted and no buffer of a pool in it is held, the copy runs; with
nothing left it ends, once the reserve has left the channel. -/
def evacAdvance (h : HalfId) (n : Nat) (s : State) : State :=
  let x := s.half h
  match (chanAt x n).evac with
  | none => s
  | some v =>
    match v.left with
    | [] =>
      let busy := match x.dram.reserve with | some (c, _) => c == n && v.purpose != 2 | none => false
      if busy then s else evacEnd h n v s
    | l :: _ =>
      if v.copying || !v.halting.all (fun u => atBoundary x u.1 u.2) || (poolsIn h x l.1).any (fun p => !(poolOf x p).held.isEmpty) then s
      else
        let s := v.halting.foldl (fun s u => match hType u.1 with
          | 5 => haltStream h (hIndex u.1) 1 s
          | 4 => s.upd h (updDecode (hIndex u.1) (fun d => { d with run := .halted }))
          | _ => s.upd h (updCanvas (hIndex u.1) (fun c => { c with run := .halted }))) s
        s.upd h (updChannel n (fun c => { c with evac := some { v with copying := true } }))

/-- REGION_COPY_DONE (R354): the region is in its new place, and its users restart. -/
def regionCopied (h : HalfId) (n : Nat) (s : State) : State :=
  match (chanAt (s.half h) n).evac with
  | none => s
  | some v =>
    match v.left with
    | [] => s
    | l :: rest =>
      let s := match placedAt (s.half h) l.1 with
        | some q => s.upd h (moveRegion h q l.2.1 l.2.2)
        | none => s
      let s := s.upd h (updChannel n (fun c => { c with evac := some { v with left := rest, moved := v.moved + 1, halting := [], copying := false } }))
      let s := v.halting.foldl (fun s u => resumeUser h (s.now h) u.1 s) s
      evacAdvance h n (s.upd h (evacTurn h n))

/-! Freezing (R360 to R362, R366). -/

/-- The objects that have halted. -/
def haltedCount (x : Half) : Nat :=
  (x.obj.decodes.filter (fun d => d.run == .halted)).length + (x.obj.encodes.filter (fun e => e.run == .halted)).length +
  (x.obj.canvases.filter (fun c => c.run == .halted)).length

/-- Firmware's part of a freeze: the reserve leaves, then the users of the channel's regions halt; a freeze during an evacuation ends
it, and the channel is retired (R366). -/
def frozenReact (h : HalfId) (n : Nat) (s : State) : State :=
  let c := chanAt (s.half h) n
  match c.frozen with
  | none => s
  | some f =>
    if f.handled then s
    else
      let s := s.upd h (updChannel n (fun c => { c with frozen := c.frozen.map (fun f => { f with handled := true }) }))
      let s := reserveLeave h n false s
      let before := haltedCount (s.half h)
      let frozenEvent := fun (s : State) => event h 0x0603 sevAlarm (channelH h n)
        (le 4 f.cause ++ le 8 f.address ++ le 4 (haltedCount (s.half h) - before)) s
      match c.evac with
      | some v =>
        let s := v.halting.foldl (fun s u => if v.copying then s else s.upd h (holdObject u.1 none)) s
        let s := s.upd h (updChannel n (fun c => { c with evac := none }))
        if v.purpose == 2 then
          frozenEvent ((s.half h).dram.placed.foldl (fun s p => if p.channel == n then
            (regionUsers h (s.half h) p.region).foldl (fun s o => haltUser h p.region o s) s else s) s)
        else
          let plan := v.left.filterMap (fun l => (placedAt (s.half h) l.1).map (fun q => (q, some (l.2.1, l.2.2))))
          let rest := ((s.half h).dram.placed.filter (fun p => p.channel == n && !v.left.any (fun l => l.1 == p.region))).map (fun p => (p, none))
          let s := frozenEvent s
          let s := regionsLost h (plan ++ rest) s
          let s := s.upd h (channelOut n)
          bandwidthCheck h (event h 0x0606 sevAlarm (channelH h n) (le 4 3) s)
      | none =>
        frozenEvent ((s.half h).dram.placed.foldl (fun s p => if p.channel == n then
          (regionUsers h (s.half h) p.region).foldl (fun s o => haltUser h p.region o s) s else s) s)

/-- A channel retires at once (R460): its regions lose their contents (R461). A half without another channel retires itself. -/
def retireChannel (h : HalfId) (n cause : Nat) (s : State) : State :=
  let c := chanAt (s.half h) n
  if c.flags.retired then s
  else
    let s := reserveLeave h n false s
    let lost := evacOrder h (s.half h) n
    let s := s.upd h (channelOut n)
    let s := retiredEvent h (mkHandle 0x23 h n) cause s
    if (servingChannels (s.half h)).isEmpty then stopTether h s
    else
      let x := s.half h
      let s := regionsLost h (planRegions h x (openChannels x) lost (takenRanges x)) s
      rePlace h s

/-! The second level of the reaction (R440, R441). -/

/-- The sources whose unit RETIRE may retire (R437). -/
def retirable (src : Nat) : Bool := src < 26 || src == 34 || src == 35

/-- The unit of a source is retired. -/
def sourceRetired (x : Half) (src : Nat) : Bool :=
  if src < 18 then (unitOf x src).flags.retired
  else if src < 22 then (chanAt x (src - 18)).flags.retired
  else if src < 26 then (chanAt x (src - 22)).flags.retired
  else if src == 34 || src == 35 then ((x.net.getD (src - 34) {}).flags).retired
  else false

/-- Firmware retires the unit of a source: a channel that still serves after failed training is evacuated first (R353). -/
def retireSource (h : HalfId) (src cause : Nat) (s : State) : State :=
  if sourceRetired (s.half h) src then s
  else if src < 18 then retireEngine h src cause s
  else if src < 22 then retireChannel h (src - 18) cause s
  else if src < 26 then
    let c := chanAt (s.half h) (src - 22)
    if c.frozen.isSome || !c.train.trained then retireChannel h (src - 22) cause s else evacBegin h (src - 22) 0 s
  else if src == 34 || src == 35 then retirePort h (src - 34) cause s
  else s

/-- A unit that needs no reload is restarted (R437, R590); one whose store must be loaded again waits for it (R478). -/
def restartSource (h : HalfId) (src : Nat) (s : State) : State :=
  let x := s.half h
  if src < 18 && (unitOf x src).seq.reloadSince.isNone && !(x.pwr.islands.getD (sourceBlock src) {}).clockHalted then unitResume h src s else s

/-- R440 for a latch: the retire count reached retires, any earlier latch restarts. The Bool says that it retires. -/
def retiresNow (h : HalfId) (x : Half) (src : Nat) : Bool :=
  let r := reactionOf h x src
  r.actions.testBit 3 && r.count ≤ latchCount h x src

def reactSecond (h : HalfId) (src : Nat) (s : State) : State :=
  if retiresNow h (s.half h) src then retireSource h src 1 s else restartSource h src s

/-- A decision of the host is awaited for the source. -/
def awaitsHost (x : Half) (src : Nat) : Bool := x.flt.decisions.any (fun d => d.source == src)

/-- The second level: under host reaction the decision waits (R441). -/
def react (h : HalfId) (src : Nat) (s : State) : State :=
  let x := s.half h
  if !retirable src || sourceRetired x src || awaitsHost x src then s
  else if modeHost x fnReaction (mkHandle 0x0E h src) then
    s.upd h (fun x => { x with flt := { x.flt with decisions := x.flt.decisions ++ [{ source := src, time := x.clk.now }] } })
  else reactSecond h src s

/-! What firmware does after a happening. -/

/-- The host holds of engines and pipes end when nothing is left on them (R543). -/
def quiesceUnit (h : HalfId) (src : Nat) (x : Half) : Half :=
  let g := unitOf x src
  if !g.flags.quiescing then x
  else
    let gone := fun (u : Handle × Nat) => (runOf x u.1 != some .running && runOf x u.1 != some .draining) || decide (u.2 ≤ x.clk.now)
    let _ := h
    let leaving := g.leaving.filter (fun u => !gone u)
    let jobs := 14 ≤ src && x.obj.canvases.any (fun c => c.jobs.any (fun j => j.bandsLeft.contains (src - 14)))
    let done := leaving.isEmpty && g.current.isNone && g.suspended.isEmpty && !jobs
    updUnit src (fun g => { g with
      leaving := leaving, flags := if done then { g.flags with quiescing := false, inService := false } else g.flags }) x

/-- A port hold ends when the packet in flight has left (R543). -/
def quiescePort (n : Nat) (x : Half) : Half :=
  updPort n (fun p => if p.flags.quiescing && p.busyUntil ≤ 100 * x.clk.now then
    { p with flags := { p.flags with quiescing := false, inService := false } } else p) x

/-- A halt request that finds its unit without work halts it (R437). -/
def haltIdle (h : HalfId) (src : Nat) (s : State) : State :=
  let g := unitOf (s.half h) src
  if g.seq.halt && g.current.isNone then react h src (unitDown h src s) else s

/-- Firmware catches up: halted units, frozen channels, new latches, retirements that waited, evacuations and holds. -/
def settle (h : HalfId) (s : State) : State :=
  let x := s.half h
  if !x.alive || x.bri.tetherStopped then s
  else
    let units := List.range 18
    let chans := List.range x.dch.length
    let s := units.foldl (fun s u => haltIdle h u s) s
    let s := chans.foldl (fun s n => frozenReact h n s) s
    let fresh := ((s.half h).flt.latches.drop (s.half h).flt.seen).map (fun l => l.source)
    let s := s.upd h (fun x => { x with flt := { x.flt with seen := x.flt.latches.length } })
    let s := (unionNew [] fresh).foldl (fun s src =>
      if src < 18 && !(unitOf (s.half h) src).halted then s else react h src s) s
    let s := units.foldl (fun s u =>
      let g := unitOf (s.half h) u
      if g.toRetire != 0 && g.current.isNone then retireEngine h u g.toRetire s else s) s
    let s := chans.foldl (fun s n => evacAdvance h n s) s
    s.upd h (fun x => (List.range x.net.length).foldl (fun x n => quiescePort n x) (units.foldl (fun x u => quiesceUnit h u x) x))

/-- A meaning followed by what firmware does. -/
def settled (h : HalfId) (s : State) : Out := .next (settle h s)

end Sys2Proof.Machine
end

