-- ==== Sys2Proof/Machine/Dram.lean ====
section
/-!
DEFINITION. Dram.lean: the DRAM channel controllers (R334, R335, R344 to R349), training (R350 to R355), error correction and scrubbing
(R356 to R358), zero regions (R359), and the maintenance commands (R363 to R365).
-/
namespace Sys2Proof.Machine

/-! Addresses and tunables (R335, R337, R345). -/

/-- The bank of a channel offset: sub-channel, rank and bank. -/
def dramBank (x : Half) (a : Nat) : Nat :=
  let sub := a / 64 % 4 ^^^ a / 131072 % 4
  let bank := a / 8192 % 16 ^^^ a / 262144 % 16
  let rank := if x.boot.board.ranks == 2 then a / 131072 % 2 else 0
  32 * sub + 16 * rank + bank

/-- The row of a channel offset. -/
def dramRow (x : Half) (a : Nat) : Nat := if x.boot.board.ranks == 2 then a / 262144 else a / 131072

/-- The kind-1 record of a channel, or none. -/
def chanRec (h : HalfId) (x : Half) (n : Nat) : Record := x.record (channelH h n)

def activateLimit (h : HalfId) (x : Half) (n : Nat) : Nat := let v := rd (chanRec h x n) 20 2; if v == 0 then 4096 else v
def rowRadius (h : HalfId) (x : Half) (n : Nat) : Nat := if (rd (chanRec h x n) 18 2).testBit 0 then 2 else 1
def idleTimer (h : HalfId) (x : Half) (n : Nat) : Nat :=
  let r := chanRec h x n
  if r.isEmpty || rd r 22 2 == 0xFFFF then 120 else rd r 22 2
def correctLimit (h : HalfId) (x : Half) (n : Nat) : Nat := let v := rd (chanRec h x n) 24 4; if v == 0 then 100 else v
def retrainNs (h : HalfId) (x : Half) (n : Nat) : Nat := (let v := rd (chanRec h x n) 28 2; if v == 0 then 256 else v) * 1000000
def retrainStep (h : HalfId) (x : Half) (n : Nat) : Nat := let v := rd (chanRec h x n) 30 1; if v == 0 then 4 else v

/-- The latency target of a requester port in ns. -/
def latencyTarget (h : HalfId) (x : Half) (n port : Nat) : Nat :=
  let v := rd (chanRec h x n) (44 + 2 * port) 2
  if v != 0 then 10 * v
  else if port == 5 then 4000
  else if port == 7 then 500
  else if port == 8 || port == 9 then 1000
  else 2000

/-- The urgency of a request (R345). -/
def urgency (target waited : Nat) : Nat :=
  if waited * 2 < target then 0 else if waited * 4 < target * 3 then 1 else if waited < target then 2 else 3

/-! Arrivals (R335, R346, R359, R360). -/

/-- The request waits for a zero-fill of its block; the first write to a clear block starts it. -/
def joinFill (block a : Nat) (q : DramReq) (x : Half) : Half :=
  if x.dram.fills.any (fun f => f.block == block) then
    { x with dram := { x.dram with fills := mapWhere (fun f => f.block == block) (fun f => { f with waiting := f.waiting ++ [(a, q)] }) x.dram.fills } }
  else { x with dram := { x.dram with fills := x.dram.fills ++ [{ block := block, waiting := [(a, q)] }] } }

/-- The fault source of the engine or pipe that a requester of a port is (R345). -/
def requesterSource (q : DramReq) : Option Nat :=
  match q.port with
  | 0 => if q.unit < 4 then some q.unit else none
  | 1 => if q.unit < 4 then some (4 + q.unit) else none
  | 2 => if q.unit < 3 then some (8 + q.unit) else none
  | 3 => if q.unit < 3 then some (11 + q.unit) else none
  | 4 => if q.unit < 4 then some (14 + q.unit) else none
  | _ => none

/-- An engine or pipe that receives an error response stops at its next safe point (R362, R472). -/
def errorHalts (q : DramReq) (x : Half) : Half :=
  match requesterSource q with
  | some src => updUnit src haltUnit x
  | none => x

/-- A request reaches its controller. A read of a clear block, or of queued data, is answered without DRAM. -/
def dramArrive (n : Nat) (x : Half) (q : DramReq) : Half :=
  let a := n * chanSpan + q.address
  let c := chanAt x n
  let block := blockOf a
  if 10 ≤ q.port then x
  else if onFrozen x a || inHole x a then errorHalts q (errorResponse a x)
  else if x.dram.fills.any (fun f => f.block == block) then joinFill block a q x
  else if !x.dram.valid.contains block then (if q.write then joinFill block a q x else x)
  else if !q.write && c.queue.any (fun k => k.req.write && k.req.address / 64 == q.address / 64) then x
  else if 64 ≤ c.queue.length then x
  else updChannel n (fun c => { c with queue := c.queue ++ [{ req := q, arrival := x.clk.now }] }) x

/-! The choice (R345, R346, R349). -/

/-- Requests that have newly reached level 3 are counted at their port. -/
def markLate (h : HalfId) (n : Nat) (x : Half) : Half :=
  let now := x.clk.now
  let hot := fun (q : QueuedReq) => !q.late && latencyTarget h x n q.req.port ≤ now - q.arrival
  let ports := ((chanAt x n).queue.filter hot).map (fun q => q.req.port)
  let x := updChannel n (fun c => { c with
    queue := mapWhere hot (fun q => { q with late := true }) c.queue
    counts := { c.counts with late := ports.foldl (fun l p => l.set p (sat32 (l.getD p 0))) c.counts.late } }) x
  ports.foldl (fun x p => count (22 + n) (0x20 + p) 1 (count (22 + n) 0x19 1 x)) x

/-- The row of the request's bank is open. -/
def rowHit (x : Half) (c : ChannelSt) (a : Nat) : Bool := c.pages.any (fun p => p.1 == dramBank x a && p.2.1 == dramRow x a)

/-- The request's port may not activate its row now (R349). -/
def throttledNow (x : Half) (c : ChannelSt) (q : QueuedReq) : Bool :=
  !rowHit x c q.req.address && c.throttles.any (fun t =>
    t.port == q.req.port && t.bank == dramBank x q.req.address && x.clk.now < t.lastActivate + 400)

/-- A request may issue: none older to its 64 bytes waits, its port is not throttled on the bank, and none older of its port is (R346,
R349); so a read gets what an earlier write of its address left (R396). -/
def mayIssue (x : Half) (c : ChannelSt) (older : List QueuedReq) (q : QueuedReq) : Bool :=
  !older.any (fun k => k.req.address / 64 == q.req.address / 64 || (k.req.port == q.req.port && throttledNow x c k)) && !throttledNow x c q

/-- The requests that may issue, in arrival order. -/
def issuable (x : Half) (c : ChannelSt) : List QueuedReq → List QueuedReq → List QueuedReq
  | [], _ => []
  | q :: qs, older => if mayIssue x c older q then q :: issuable x c qs (older ++ [q]) else issuable x c qs (older ++ [q])

/-- The next request (R345): at level 3 the oldest; below it row hits first, and writes only in batches. -/
def dramChoose (h : HalfId) (x : Half) (n : Nat) : Option QueuedReq :=
  let c := chanAt x n
  let all := issuable x c c.queue []
  let level := fun (q : QueuedReq) => urgency (latencyTarget h x n q.req.port) (x.clk.now - q.arrival)
  match all.find? (fun q => level q == 3) with
  | some q => some q
  | none =>
    let writes := c.queue.filter (fun q => q.req.write)
    let batch := c.queue.length * 3 < writes.length * 4 || writes.length == c.queue.length
    let cands := all.filter (fun q => !q.req.write || batch)
    let top := maxOf (cands.map level)
    let best := cands.filter (fun q => level q == top)
    (best.find? (fun q => rowHit x c q.req.address)).or best.head?

/-! Activates (R348, R349). -/

/-- A bank's activate table after an activate of a row: the new table, the row's count, and whether an entry was replaced. -/
def tableActivate (t : List (Nat × Nat)) (row : Nat) : List (Nat × Nat) × Nat × Bool :=
  match t.find? (fun e => e.1 == row) with
  | some e => (mapWhere (fun k => k.1 == row) (fun k => (k.1, k.2 + 1)) t, e.2 + 1, false)
  | none =>
    if t.length < 16 then (t ++ [(row, 1)], 1, false)
    else
      let low := t.foldl (fun m e => min m e.2) (t.headD (0, 0)).2
      match t.findIdx? (fun e => e.2 == low) with
      | some i => (t.set i (row, low + 1), low + 1, true)
      | none => (t, 0, false)

/-- An activate of a bank in its rolling count; at the dies' limit RFMpb is due and takes the limit off (R334, R348). -/
def rollingActivate (h : HalfId) (n bank : Nat) (s : State) : State :=
  let lim := Config.refreshManagement.1
  let k := (((chanAt (s.half h) n).rolling.find? (fun e => e.1 == bank)).map (fun e => e.2)).getD 0 + 1
  let due := lim != 0 && decide (lim ≤ k)
  let s := s.upd h (updChannel n (fun c => { c with
    rolling := c.rolling.filter (fun e => e.1 != bank) ++ [(bank, if due then k - lim else k)] }))
  if due then emit h (.refreshManagement n bank) s else s

/-- A refresh of banks in their rolling counts. -/
def rollingRefresh (banks : List Nat) (l : List (Nat × Nat)) : List (Nat × Nat) :=
  mapWhere (fun e => banks.contains e.1) (fun e => (e.1, e.2 - Config.refreshManagement.2)) l

/-- An activate by a port: counted, its neighbours refreshed at the threshold, its port throttled for a replacement. -/
def dramActivate (h : HalfId) (n port bank row : Nat) (s : State) : State :=
  let x := s.half h
  let c := chanAt x n
  let table := ((c.tables.find? (fun t => t.1 == bank)).map (fun t => t.2)).getD []
  let r := tableActivate table row
  let full := activateLimit h x n ≤ r.2.1
  let t := if full then mapWhere (fun (e : Nat × Nat) => e.1 == row) (fun e => (e.1, 0)) r.1 else r.1
  let throttled := c.throttles.any (fun k => k.port == port && k.bank == bank)
  let throttles := if throttled then mapWhere (fun k => k.port == port && k.bank == bank) (fun k => { k with lastActivate := x.clk.now }) c.throttles
    else if r.2.2 then c.throttles ++ [{ port := port, bank := bank, lastActivate := x.clk.now }] else c.throttles
  let s := s.upd h (fun x =>
    let x := updChannel n (fun c => { c with
      tables := c.tables.filter (fun t => t.1 != bank) ++ [(bank, t)]
      throttles := throttles
      counts := { c.counts with
        throttled := if throttled then sat32 c.counts.throttled else c.counts.throttled
        neighbour := if full then sat32 c.counts.neighbour else c.counts.neighbour } }) x
    count (22 + n) 0x12 1 (count (22 + n) 0x17 (b2n throttled) (count (22 + n) 0x18 (b2n full) x)))
  let s := if full then emit h (.refreshRows n bank row (rowRadius h x n)) s else s
  let s := rollingActivate h n bank s
  if r.2.2 && !throttled then event h 0x0608 sevWarning (channelH h n) (le 4 port ++ le 4 bank ++ le 4 row) s else s

/-! Errors (R356, R357, R360). -/

/-- An information event that coalesces in its backlog (R56, R357). -/
def infoCoalesced (h : HalfId) (code : Nat) (src : Handle) (detail : List Byte) (s : State) : State :=
  let same := fun (w : EventRec) => w.code == code && w.source == src
  if (s.half h).ev.infos.any same then
    s.upd h (fun x => { x with ev := { x.ev with infos := mapWhere same (fun w => { w with rep := satAdd w.rep 1 }) x.ev.infos } })
  else event h code sevInfo src detail s

/-- A corrected word (R357): counted, logged in the ring of 16, and source 26 above the threshold of the last hour. -/
def dramCorrect (h : HalfId) (n address syndrome requester : Nat) (injected : Bool) (s : State) : State :=
  let s := s.upd h (fun x =>
    let times := ((chanAt x n).corrTimes.filter (fun t => x.clk.now < t + 3600000000000)) ++ [x.clk.now]
    let entry : CorrRec := { address := address, time := x.clk.now, syndrome := syndrome, requester := requester }
    count (22 + n) 0x14 1 (updChannel n (fun c => { c with
      corrLog := (c.corrLog ++ [entry]).drop (c.corrLog.length + 1 - 16)
      corrTimes := times, counts := { c.counts with corrections := sat32 c.counts.corrections } }) x))
  let s := infoCoalesced h 0x0601 (channelH h n) (le 8 address ++ le 4 syndrome ++ le 4 requester) s
  let k := (chanAt (s.half h) n).corrTimes.length
  let limit := correctLimit h (s.half h) n
  if k == limit + 1 then
    event h 0x0602 sevWarning (channelH h n) (le 4 k ++ le 4 limit) (latchHw 6 h 26 injected s)
  else s

/-- A channel freezes with its record, and its source is raised (R360). A second error changes nothing. -/
def dramFreeze (h : HalfId) (n : Nat) (f : FrozenRec) (injected : Bool) (s : State) : State :=
  if (chanAt (s.half h) n).frozen.isSome then s
  else latchHw 6 h (18 + n) injected (s.upd h (freezeRec n f))

/-- The bits set in a byte. -/
def onesOf (m : Nat) : Nat := (maskBits 8 m).length

/-- What a read meets, with an armed checker of R442 first; the Bool says that it was injected. -/
def eccMet (x : Half) (n : Nat) (data : List Byte) (ecc : EccOutcome) : EccOutcome × Bool :=
  let q := armedMask x (0x16 + n)
  let m := armedMask x (0x12 + n)
  if q != 0 then (.queueParity, true)
  else if m != 0 then
    (if onesOf m == 1 then .single m else .double m (BitVec.ofNat 64 (leVal (data.take 8))) m, true)
  else (ecc, false)

/-- What a read's check bits do. -/
def eccApply (h : HalfId) (n address requester : Nat) (cause : Nat) (ecc : EccOutcome) (injected : Bool) (s : State) : State :=
  let now := s.now h
  match ecc with
  | .clean => s
  | .single syn => dramCorrect h n address syn requester injected s
  | .double syn word check => dramFreeze h n
      { address := address, time := now, cause := cause, requester := requester, syndrome := syn, word := word, check := check } injected s
  | .queueParity => dramFreeze h n
      { address := address, time := now, cause := 3, requester := requester, syndrome := 0, word := 0, check := 0 } injected s

/-! The rows. -/

/-- Issues a chosen request: the page opens, a write lands, a read meets its check bits. -/
def dramIssue (h : HalfId) (n : Nat) (q : QueuedReq) (ecc : EccOutcome) (s : State) : State :=
  let x := s.half h
  let a := q.req.address
  let bank := dramBank x a
  let row := dramRow x a
  let hit := rowHit x (chanAt x n) a
  let s := s.upd h (fun x => count (22 + n) (if q.req.write then 0x11 else 0x10) 1 (count (22 + n) 0x13 (b2n hit)
    (updChannel n (fun c => { c with
      queue := c.queue.erase q
      pages := c.pages.filter (fun p => p.1 != bank) ++ (if idleTimer h x n == 0 then [] else [(bank, row, x.clk.now)]) }) x)))
  let s := if hit then s else dramActivate h n q.req.port bank row s
  let full := n * chanSpan + a / 64 * 64
  if q.req.write then
    let parity := armedMask (s.half h) (0x16 + n) != 0
    let s := if parity || ecc == .queueParity then eccApply h n a q.req.port 1 .queueParity parity (s.upd h (if parity then disarm (0x16 + n) else id)) else s
    if (chanAt (s.half h) n).frozen.isSome then s
    else s.upd h (fun x => let x := picsEnd full 64 x; { x with dram := { x.dram with data := memWriteEn full (q.req.data.zip q.req.enables) x.dram.data } })
  else
    let m := eccMet x n (memRead (picsEnd full 8 x).dram.data full 8) ecc
    let s := if m.2 then s.upd h (disarm (if m.1 == .queueParity then 0x16 + n else 0x12 + n)) else s
    eccApply h n a q.req.port 1 m.1 m.2 s

/-- Transactions of a channel arrive: each place names one of those in flight, and the oldest it may not overtake comes (R19). None leaves the scrim while the
queue is full (R345). -/
def scrimArrive (channel : Nat) (x : Half) (k : Nat) : Half :=
  match (if 64 ≤ (chanAt x channel).queue.length then none else scrimNext channel k x) with
  | none => x
  | some t => dramArrive channel (scrimLeaves t 0x10 x) t.req

/-- DRAM_REQUEST (R19, R345): requests enter the scrim, some of those in flight reach the queue, and the controller issues its next one. -/
def execDramRequest (h : HalfId) (channel : Nat) (m : ScrimMoves) (ecc : EccOutcome) (s : State) : Out :=
  settled h (
    let x := s.half h
    if x.boot.inReset || Config.dramChannels ≤ channel then s
    else
      let s := s.upd h (fun x => markLate h channel (m.arrivals.foldl (scrimArrive channel) (scrimIssue channel m.issued x)))
      let x := s.half h
      if (chanAt x channel).frozen.isSome || (chanAt x channel).flags.retired || !islandOn x (22 + channel) then s
      else match dramChoose h x channel with
        | none => s
        | some q => dramIssue h channel q ecc s)

/-- PAGE_IDLE_TIMEOUT (R344): the bank's page closes. -/
def execPageIdleTimeout (h : HalfId) (channel bank : Nat) (s : State) : Out :=
  .next (s.upd h (fun x => updChannel channel (fun c => { c with
    pages := c.pages.filter (fun p => !(p.1 == bank && decide (p.2.2 + idleTimer h x channel ≤ x.clk.now))) }) x))

/-- The refresh interval of a window: 8,192 refreshes (PRESUMED from JESD209-5B, log 21). -/
def refreshInterval (window : Nat) : Nat := window / 8192

/-- DRAM_REFRESH (R334, R346): due every interval; postponed by up to eight while level-3 requests wait, then done back to back. A
refresh closes the page of its bank. A frozen channel keeps refreshing (R360). -/
def execDramRefresh (h : HalfId) (channel : Nat) (s : State) : Out :=
  .next (s.upd h (fun x =>
    let c := chanAt x channel
    let step := refreshInterval c.window
    if x.boot.inReset || !c.train.trained || c.flags.retired || x.clk.now < c.lastRefresh + step then x
    else
      let urgent := c.frozen.isNone && c.queue.any (fun q => latencyTarget h x channel q.req.port ≤ x.clk.now - q.arrival)
      if urgent && c.postponed < 8 then updChannel channel (fun c => { c with postponed := c.postponed + 1, lastRefresh := c.lastRefresh + step }) x
      else
        let banks := (List.range (c.postponed + 1)).map (fun i => (c.refBank + i) % 128)
        updChannel channel (fun c => { c with
          postponed := 0, lastRefresh := x.clk.now, refBank := (c.refBank + banks.length) % 128
          rolling := rollingRefresh banks c.rolling
          pages := c.pages.filter (fun p => !banks.contains p.1) }) x))

/-- REFRESH_WINDOW_END (R348, R349): the activate tables are cleared, and the throttles end. -/
def execRefreshWindowEnd (h : HalfId) (channel : Nat) (s : State) : Out :=
  .next (s.upd h (fun x =>
    let c := chanAt x channel
    if x.boot.inReset || !c.train.trained || c.flags.retired || x.clk.now < c.windowAt + c.window then x
    else updChannel channel (fun c => { c with tables := [], throttles := [], windowAt := x.clk.now }) x))

/-- MR4_POLL (R347): every 4 ms; refresh rates in quarters of the nominal rate, one per die, and the PHY temperature (R352). -/
def execMr4Poll (h : HalfId) (channel : Nat) (rates : List Nat) (phyTemp : Int) (s : State) : Out :=
  .next (s.upd h (fun x =>
    let c := chanAt x channel
    if x.boot.inReset || !c.train.trained || c.flags.retired || x.clk.now < c.lastPoll + 4000000 then x
    else
      let rate := max 4 (maxOf rates)
      let window := 32000000 * 4 / rate
      updChannel channel (fun c => { c with
        lastPoll := x.clk.now, window := window, interval := refreshInterval window, train := { c.train with temp := phyTemp } }) x))

/-! Scrubbing (R358). -/

/-- The next valid block of a channel at or after a position. -/
def scrubNext (x : Half) (n from_ : Nat) : Option Nat :=
  let l := (validOf x n).map (fun b => b % 131072)
  (l.filter (fun b => from_ ≤ b)).foldl (fun m b => match m with | none => some b | some k => some (min k b)) none

/-- The pass has come to its end. -/
def scrubLap (h : HalfId) (n : Nat) (s : State) : State :=
  let v := (chanAt (s.half h) n).scrub
  let now := s.now h
  let lap := now - v.started
  let s := s.upd h (updChannel n (fun c => { c with scrub := { c.scrub with
    position := 0, started := now, done := 0, written := 0, lastEnd := now, lap := min (lap / 1000000) 0xFFFFFFFF } }))
  event h 0x0609 sevInfo (channelH h n) (le 8 lap ++ le 4 v.written) s

/-- SCRUB_STEP (R358): in an idle cycle the scrubber reads one valid block; `word` is the word of it that the check bits speak of. -/
def execScrubStep (h : HalfId) (channel : Nat) (ecc : EccOutcome) (word : Nat) (s : State) : Out :=
  settled h (
    let x := s.half h
    let c := chanAt x channel
    if x.boot.inReset || !c.train.trained || c.flags.retired || c.frozen.isSome || !c.queue.isEmpty then s
    else match scrubNext x channel c.scrub.position with
      | none => if c.scrub.done == 0 then s else scrubLap h channel s
      | some b =>
        let a := b * 65536 + word % 8192 * 8
        let m := eccMet x channel (memRead (picsEnd (channel * chanSpan + a) 8 x).dram.data (channel * chanSpan + a) 8) (if ecc == .queueParity then .clean else ecc)
        let m := if m.1 == .queueParity then (if ecc == .queueParity then EccOutcome.clean else ecc, false) else m
        let s := if m.2 then s.upd h (disarm (0x12 + channel)) else s
        let wrote := match m.1 with
          | .single _ => !m.2
          | _ => false
        let s := s.upd h (updChannel channel (fun c => { c with scrub := { c.scrub with
          position := b + 1, done := c.scrub.done + 1, written := c.scrub.written + b2n wrote } }))
        let s := eccApply h channel a 10 2 m.1 m.2 s
        if (chanAt (s.half h) channel).frozen.isNone && (scrubNext (s.half h) channel (b + 1)).isNone then scrubLap h channel s else s)

/-- ZERO_FILL_DONE (R359): the block's bit is set, and the accesses that waited take effect. A frozen channel's fills stop (R360). -/
def execZeroFillDone (h : HalfId) (block : Nat) (s : State) : Out :=
  .next (s.upd h (fun x => if x.boot.inReset || onFrozen x (block * 65536) then x else fillEnd block x))

/-! Retraining (R352 to R355). -/

/-- The channel may retrain. -/
def mayRetrain (x : Half) (n : Nat) : Bool :=
  let c := chanAt x n
  x.alive && c.train.trained && !c.flags.retired && c.frozen.isNone && !c.train.retraining

def updTrain (n : Nat) (f : TrainSt → TrainSt) (x : Half) : Half := updChannel n (fun c => { c with train := f c.train }) x

/-- Since when a retrain is due under the interval or the temperature step. -/
def retrainDue (h : HalfId) (x : Half) (n : Nat) : Option Nat :=
  let t := (chanAt x n).train
  let at_ := t.last + retrainNs h x n
  if at_ ≤ x.clk.now then some at_
  else if retrainStep h x n ≤ (t.temp - t.lastTemp).natAbs then some x.clk.now
  else none

/-- A retrain runs. -/
def retrainRun (n : Nat) (x : Half) : Half :=
  updTrain n (fun t => { t with retraining := true, runAt := none, repeatAt := none, asked := none }) x

/-- RETRAIN_START (R352, R353, R355): a repeat or the time the host gave has come; or the schedule is due, and the hardware retrains or
asks the host. -/
def execRetrainStart (h : HalfId) (channel : Nat) (s : State) : Out :=
  .next (
    let x := s.half h
    let t := (chanAt x channel).train
    let reached := fun (q : Option Nat) => q.any (fun k => k ≤ x.clk.now)
    if !mayRetrain x channel then s
    else if reached t.repeatAt || reached t.runAt then s.upd h (retrainRun channel)
    else if t.repeatAt.isSome then s
    else match retrainDue h x channel with
      | none => s
      | some due =>
        if !modeHost x fnRetrain (channelH h channel) then s.upd h (retrainRun channel)
        else if t.asked.isSome || t.runAt.isSome then s
        else
          let deadline := due + retrainNs h x channel
          asrRequest h { kind := 0x0B08, tag := 0, handle := channelH h channel, sequence := t.requests, time := deadline, payload := [] } deadline
            (s.upd h (updTrain channel (fun t => { t with asked := some (t.requests, deadline), requests := (t.requests + 1) % 0x100000000 }))))

/-- A lane direction passes a retrain: over ±8 taps around its setting a run of at least 12 ends on both sides inside the range (R352). -/
def sweepPass (l : LaneSweep) : Bool :=
  let r := LaneSweep.run l
  l.passing.length == 17 && decide (12 ≤ r.2) && decide (0 < r.1) && decide (r.1 + r.2 < 17)

/-- The new setting of a lane direction: the centre of that run. -/
def sweepTap (old : Nat) (l : LaneSweep) : Nat := old + sweepCentre l - 8

/-- The new settings of every lane direction. -/
def sweepTaps (old : List Nat) (lanes : List LaneSweep) : List Nat := (old.zip lanes).map (fun p => sweepTap p.1 p.2)

/-- RETRAIN_DONE (R352, R353): all new settings at once, or none; the fourth failure raises 22 + n, and the channel is evacuated. -/
def execRetrainDone (h : HalfId) (channel : Nat) (lanes : List LaneSweep) (s : State) : Out :=
  settled h (
    let x := s.half h
    let t := (chanAt x channel).train
    if !t.retraining then s
    else if lanes.length == 16 && lanes.all sweepPass then
      s.upd h (updTrain channel (fun t => { t with
        retraining := false, lanes := sweepTaps t.lanes lanes, last := x.clk.now, lastTemp := t.temp, fails := 0 }))
    else
      let try_ := t.fails % 4 + 1
      let mask := packBits (lanes.map (fun l => !sweepPass l))
      let s := s.upd h (updTrain channel (fun t => { t with
        retraining := false, fails := try_, last := x.clk.now, lastTemp := t.temp
        repeatAt := if try_ < 4 then some (x.clk.now + 1000000) else none }))
      let s := event h 0x0605 sevWarning (channelH h channel) (le 4 try_ ++ le 4 mask ++ le 4 (unsigned 32 t.temp)) s
      if try_ < 4 then s
      else
        let s := latchHw 6 h (22 + channel) false s
        if modeHost (s.half h) fnReaction (mkHandle 0x0E h (22 + channel)) then s else evacBegin h channel 0 s)

/-- RETRAIN_DEADLINE (R355): without an answer the hardware retrains at the deadline. -/
def execRetrainDeadline (h : HalfId) (channel : Nat) (s : State) : Out :=
  .next (match (chanAt (s.half h) channel).train.asked with
    | none => s
    | some (seq, d) =>
      if s.now h < d then s
      else
        let s := assistLate h 0x0B08 0 (channelH h channel) seq d 1 s
        s.upd h (fun x => if mayRetrain x channel then retrainRun channel x else updTrain channel (fun t => { t with asked := none }) x))

/-- RETRAIN_TIME (R355): the host's time for a retrain it was asked for. -/
def execRetrainTime (h : HalfId) (a : AssistEntry) (s : State) : Out :=
  .next (runAssist h 0x0B08 fnRetrain a s (fun p s =>
    let n := hIndex a.handle - 0xFF00
    let t := (chanAt (s.half h) n).train
    let late := fun (c : Nat) => assistLate h 0x0B08 a.tag.toNat a.handle a.sequence.toNat a.time.toNat c s
    if p.any (fun b => b != 0) then late 2
    else match t.asked with
      | none => late 1
      | some (seq, deadline) =>
        if seq != a.sequence.toNat then late 1
        else if deadline < s.now h then
          late 1 |>.upd h (fun x => if mayRetrain x n then retrainRun n x else updTrain n (fun t => { t with asked := none }) x)
        else
          let s := s.upd h (updTrain n (fun t => { t with asked := none, runAt := some a.time.toNat }))
          if a.time.toNat ≤ s.now h then s.upd h (fun x => if mayRetrain x n then retrainRun n x else x) else s))

def channelRetrainSpec : OpSpec := { opcode := 0x0604, handle := .channel, minLen := 0 }

/-- The channel that a kind-1 handle names. -/
def channelOf (e : CmdEntry) : Nat := hIndex e.handle - 0xFF00

/-- CHANNEL_RETRAIN (R355, R352): one retrain at once in either mode. -/
def execChannelRetrain (h : HalfId) (e : CmdEntry) (s : State) : Out :=
  .next (runCmd h channelRetrainSpec e none s (fun s =>
    let c := chanAt (s.half h) (channelOf e)
    guarded [checkReserved e [], failIf (hHalf e.handle != h) { status := stBadField, step := 5 },
      failIf (c.flags.retired) { status := stRetired, step := 8 },
      failIf c.frozen.isSome { status := stBadField, step := 8 }] s (fun s =>
      .ok [] (s.upd h (fun x => if mayRetrain x (channelOf e) then retrainRun (channelOf e) x else x)))))

/-! Evacuation and reserve (R336, R354). -/

/-- REGION_COPY_DONE (R354). -/
def execRegionCopyDone (h : HalfId) (region : Nat) (s : State) : Out :=
  settled h (
    let x := s.half h
    match (List.range x.dch.length).find? (fun n => ((chanAt x n).evac).any (fun v => v.copying && (v.left.head?).any (fun l => l.1 == region))) with
    | none => s
    | some n => regionCopied h n s)

/-- RESERVE_MOVED (R336): the reserve is in its new place. -/
def execReserveMoved (h : HalfId) (s : State) : Out :=
  settled h (
    let x := s.half h
    match x.dram.reserve, x.dram.reserveMove with
    | some (old, _), some (c, o, started, copied) =>
      event h 0x0611 sevWarning (channelH h c) (le 4 old ++ le 8 o ++ le 4 (if copied then 1 else 2) ++ le 8 (x.clk.now - started))
        (s.upd h (fun x => { x with dram := { x.dram with reserve := some (c, o), reserveMove := none } }))
    | _, _ => s)

/-! Maintenance commands (R363 to R365). -/

def channelInspectSpec : OpSpec := { opcode := 0x0601, handle := .channel, minLen := 12, bufAt := 24, bufNeed := 8256 }

/-- An entry of the frozen queue (R363). -/
def inspectEntry (h : HalfId) (x : Half) (n freeze : Nat) (parity : Bool) (q : QueuedReq) : List Byte :=
  le 8 q.req.address ++ le 8 q.arrival ++ le 1 q.req.port ++ le 1 (if q.req.write then 2 else 1) ++
  le 1 (urgency (latencyTarget h x n q.req.port) (freeze - q.arrival)) ++ le 1 (b2n parity) ++ le 4 0 ++
  le 8 (packBits (pad64 q.req.enables)) ++ List.replicate 32 0 ++ pad 64 q.req.data
where
  pad64 (l : List Bool) : List Bool := l.take 64

/-- The frozen state (R363). -/
def inspectBytes (h : HalfId) (x : Half) (n : Nat) (f : FrozenRec) (queue : List QueuedReq) : List Byte :=
  le 8 f.address ++ le 8 f.time ++ le 1 f.cause ++ le 1 f.requester ++ le 1 f.syndrome ++ le 1 queue.length ++ le 4 f.refused ++
  le 8 f.word.toNat ++ le 1 f.check ++ List.replicate 31 0 ++
  (queue.zipIdx).flatMap (fun q => inspectEntry h x n f.time (f.cause == 3 && q.2 == 0) q.1)

/-- CHANNEL_INSPECT (R363). -/
def execChannelInspect (h : HalfId) (e : CmdEntry) (b : BusResult) (s : State) : Out :=
  .next (runCmd h channelInspectSpec e none s (fun s =>
    let x := s.half h
    let n := channelOf e
    guarded [failIf (hHalf e.handle != h) { status := stBadField, step := 5 },
      checkReserved e [(16, 12)]] s (fun s =>
      match (chanAt x n).frozen with
      | none => .fail { status := stBadField, step := 8 } s
      | some f =>
        let bytes := inspectBytes h x n f (chanAt x n).queue
        replyBuffer h (fld e 16 8) bytes b (le 4 bytes.length) id s)))

def blockRetireSpec : OpSpec := { opcode := 0x0602, handle := .channel, minLen := 16 }

/-- Regions that hold a retired block leave it (R364): planned on any open channel and moved under R354. -/
def leaveBlocks (h : HalfId) (n : Nat) (s : State) : State :=
  let x := s.half h
  let c := chanAt x n
  let hit := x.dram.placed.filter (fun p => p.channel == n && c.retiredBlocks.any (fun o => p.offset < o + 65536 && o < p.offset + p.size))
  if hit.isEmpty || c.evac.isSome || c.frozen.isSome || c.flags.retired then s
  else
    let plan := planRegions h x (openChannels x) hit (takenRanges x)
    let bad := (plan.filter (fun p => p.2.isNone)).map (fun p => p.1)
    let r := shedUsers h (bad.map (fun p => p.region)) s
    let s := r.1.upd h (fun x => bad.foldl (fun x p => releaseRegion h p x) x)
    let left := plan.filterMap (fun p => p.2.map (fun q => (p.1.region, q.1, q.2)))
    s.upd h (fun x => evacTurn h n (updChannel n (fun c => { c with
      evac := some { left := left, shed := r.2, started := x.clk.now, purpose := 2 } }) x))

/-- BLOCK_RETIRE (R364). -/
def execBlockRetire (h : HalfId) (e : CmdEntry) (s : State) : Out :=
  .next (runCmd h blockRetireSpec e none s (fun s =>
    let n := channelOf e
    let c := chanAt (s.half h) n
    let k := fld e 16 2
    let offs := (List.range k).map (fun i => fld e (24 + 8 * i) 8)
    let fresh := unionNew c.retiredBlocks offs
    guarded [failIf (e.len.toNat < 8 + 8 * k) { status := stBadLength, step := 3 },
      failIf (hHalf e.handle != h) { status := stBadField, step := 5 },
      bad6 (k == 0 || 5 < k) 16,
      (match (List.range k).find? (fun i => fld e (24 + 8 * i) 8 % 65536 != 0 || usableBytes (s.half h) ≤ fld e (24 + 8 * i) 8) with
       | some i => bad6 true (24 + 8 * i)
       | none => none),
      checkReserved e [(16, 2), (24, 8 * k)],
      failIf c.flags.retired { status := stRetired, step := 8 },
      failIf (256 < fresh.length) { status := stNoResource, step := 9, offset := 16 }] s (fun s =>
      .ok [] (settle h (leaveBlocks h n (s.upd h (updChannel n (fun c => { c with retiredBlocks := fresh }))))))))

def channelThawSpec : OpSpec := { opcode := 0x0603, handle := .channel, minLen := 1 }

/-- The reel goes on when its region's channel runs again (R430). -/
def reelThaw (h : HalfId) (n : Nat) (x : Half) : Half :=
  match (exposure h x).bind (fun r => placedAt x (rd r 32 4 % 0x10000)) with
  | some p => if p.channel == n && x.ctr.reel.stopped then
      { x with ctr := { x.ctr with reel := { x.ctr.reel with running := true, stopped := false } } } else x
  | none => x

/-- Pools on a channel are rebuilt at its thaw (R377). -/
def poolsThaw (n : Nat) (x : Half) : Half :=
  (List.range 16).foldl (fun x p =>
    if (poolOf x p).present && chanOf (poolOf x p).base == n && !(poolOf x p).hostManaged then
      updPool p (fun q => { q with rebuilding := true, rebuildSince := x.clk.now }) x else x) x

/-- A thaw (R365): the held queue goes, the channel runs, and its objects restart at their first boundary 1 ms on. -/
def thaw (h : HalfId) (n : Nat) (f : FrozenRec) (s : State) : State :=
  let now := s.now h
  let s := s.upd h (fun x => reelThaw h n (poolsThaw n (updChannel n (fun c => { c with frozen := none, queue := [], pages := [] }) x)))
  let users := usersInOrder h (s.half h) (((s.half h).dram.placed.filter (fun p => p.channel == n)).map (fun p => p.region))
  let cans := users.filter (fun o => hType o == 8)
  let s := (cans ++ users.filter (fun o => hType o != 8)).foldl (fun s o => restartUser h (now + 1000000) o s) s
  event h 0x0604 sevInfo (channelH h n) (le 8 (now - f.time) ++ le 4 (chanAt (s.half h) n).retiredBlocks.length) s

/-- CHANNEL_THAW (R365). -/
def execChannelThaw (h : HalfId) (e : CmdEntry) (s : State) : Out :=
  .next (runCmd h channelThawSpec e none s (fun s =>
    let n := channelOf e
    let c := chanAt (s.half h) n
    guarded [failIf (hHalf e.handle != h) { status := stBadField, step := 5 }, checkReserved e [(16, 1)],
      failIf c.flags.retired { status := stRetired, step := 8 }] s (fun s =>
      match c.frozen with
      | none => .fail { status := stBadField, step := 8 } s
      | some f =>
        if fld e 16 1 == 0 && !c.retiredBlocks.contains (f.address / 65536 * 65536) then
          .fail { status := stBadField, step := 8, offset := 16 } s
        else .ok [] (settle h (leaveBlocks h n (thaw h n f s))))))

end Sys2Proof.Machine
end

