-- ==== Sys2Proof/Machine/Faults.lean ====
section
/-!
DEFINITION. Faults.lean: the fault collector and its commands (R434 to R442, R460, R579, R580), host holds (R542 to R544), clock
monitors, clock steps and island power (R32 to R34, R521), and what happens as time passes.
-/
namespace Sys2Proof.Machine

/-! Latches (R434, R437, R442). -/

/-- The checker of R442 whose check a pin of this source may be: tile-buffer parity, or flit parity at stop 12. -/
def pinChecker (source : Nat) : Option Nat :=
  if 14 ≤ source && source < 18 then some source else if source == 29 then some 0x1A else none

/-- A pin rises: the source latches, marked when an armed checker met it. -/
def pinRises (h : HalfId) (source : Nat) (s : State) : State :=
  match pinChecker source with
  | some c => latchHw 6 h source (armedMask (s.half h) c != 0) (s.upd h (disarm c))
  | none => latchHw 6 h source false s

/-- A transaction that lost a flit answers its requester with an error (R20): a unit stops at its next safe point (R472), the DMA engine stops its
channels (R389), a BAR4 read returns what it returns, and the reel stops (R430). -/
def requestFails (h : HalfId) (t : ScrimTxn) (s : State) : State :=
  let q := t.req
  let a := t.channel * chanSpan + q.address
  match requesterSource q with
  | some src => s.upd h (updUnit src haltUnit)
  | none =>
    if q.port == 5 then dmaBusFail h 5 (BitVec.ofNat 64 (2 ^ 63 + a)) false s
    else if q.port == 6 && !q.write then
      (s.upd h (fun x => { x with lastRead := (List.range 64).map (fun i => Config.errorRead (s.free + i)) })).tick1
    else if q.port == 8 && q.unit == 2 then reelStop h s
    else emit h (.scrimError q.port a) s

/-- A flit of the scrim fails parity: the source latches, the flit is dropped, and its transaction fails (R20). -/
def flitFails (h : HalfId) (k : Nat) (s : State) : State :=
  let s := pinRises h 29 s
  match (s.half h).fabric.scrim[k]? with
  | none => s
  | some t => requestFails h t (s.upd h (scrimLeaves t 0x11))

/-- FAULT_LATCHED (R20, R28, R434, R437). A FIFO violation latches only by the operation that commits it; an operation that keeps the protocol has
its effect and latches nothing. Bits 50 to 63 are never set. -/
def execFaultLatched (h : HalfId) (r : FaultReport) (s : State) : Out :=
  settled h (
    match r with
    | .crossing p c op =>
      if (s.half h).boot.inReset then s
      else
        let met := crossingMeets h p c op s
        match met.2 with
        | some src => pinRises h src met.1
        | none => met.1
    | .flit k => flitFails h k s
    | .pin source => if 44 ≤ source && source < 48 then s else pinRises h source s)

/-- Without an address FAULT_READ needs no buffer. -/
def faultReadSpec (e : CmdEntry) : OpSpec :=
  { opcode := 0x0801, handle := .zero, minLen := 16, bufAt := 24, bufNeed := if fld e 16 8 == 0 then 0 else 512 }

/-- What FAULT_READ writes with room for `n` records (R579). -/
def faultBytes (h : HalfId) (x : Half) (n : Nat) : List Byte :=
  (x.ev.alarmCounts.flatMap (fun c => le 4 c)) ++ ((List.range 64).flatMap (fun k => le 4 (latchCount h x k))) ++
  (x.ev.alarms.take n).flatMap (fun a => evBytes a.ev false 0)

/-- The records removed and the counts zeroed, as the flags ask (R579). -/
def faultTaken (h : HalfId) (flags n : Nat) (s : State) : State :=
  s.upd h (fun x => { x with ev := { x.ev with
    alarms := if flags.testBit 0 then x.ev.alarms.drop n else x.ev.alarms
    alarmCounts := if flags.testBit 1 then List.replicate 64 0 else x.ev.alarmCounts } })

/-- FAULT_READ (R436, R579). A zero address asks for the inline result alone; removal and zeroing go with the buffer read. -/
def execFaultRead (h : HalfId) (e : CmdEntry) (b : BusResult) (s : State) : Out :=
  .next (runCmd h (faultReadSpec e) e none s (fun s =>
    let x := s.half h
    let a := fld e 16 8
    let room := fld e 24 4
    let flags := fld e 28 4
    let n := min ((room - 512) / 64) x.ev.alarms.length
    let result := fun (k : Nat) => le 8 x.flt.status.toNat ++ le 2 x.ev.alarms.length ++ le 2 k
    guarded [bad6 (3 < flags) 28] s (fun s =>
      if a == 0 then .ok (result 0) (faultTaken h (flags / 2 * 2) 0 s)
      else replyBuffer h a (faultBytes h x n) b (result n) (faultTaken h flags n) s)))

def faultClearSpec : OpSpec := { opcode := 0x0802, handle := .zero, minLen := 8 }

/-- FAULT_CLEAR (R436): the bits of the mask, with their interrupt sources. -/
def execFaultClear (h : HalfId) (e : CmdEntry) (s : State) : Out :=
  .next (runCmd h faultClearSpec e none s (fun s =>
    let mask := fld e 16 8
    let bits := (maskBits 50 mask).filter (fun n => (s.half h).flt.status.getLsbD n)
    let s := s.upd h (fun x => { x with flt := { x.flt with status := x.flt.status &&& ~~~(BitVec.ofNat 64 mask) } })
    .ok [] (bits.foldl (fun s n => icuWithdraw h (192 + n) (icuWithdraw h n s)) s)))

def faultInjectSpec : OpSpec := { opcode := 0x0803, handle := .zero, minLen := 2 }

/-- The fault source of the unit that a checker belongs to (R442); 63 for one without a retirable unit. -/
def checkerSource (c : Nat) : Nat :=
  if c < 0x0E then c else if c < 0x12 then c else if c < 0x16 then c else if c < 0x1A then c - 4 else 63

/-- FAULT_INJECT (R442). -/
def execFaultInject (h : HalfId) (e : CmdEntry) (s : State) : Out :=
  .next (runCmd h faultInjectSpec e none s (fun s =>
    let c := fld e 16 1
    let mask := fld e 17 1
    guarded [bad6 (0x1C < c) 16,
      failIf (mask != 0 && sourceRetired (s.half h) (checkerSource c)) { status := stRetired, step := 8, offset := 16 },
      failIf (mask != 0 && armedMask (s.half h) c != 0) { status := stNoResource, step := 9, offset := 16 }] s (fun s =>
      .ok [] (s.upd h (fun x =>
        let x := disarm c x
        if mask == 0 then x else { x with flt := { x.flt with armed := x.flt.armed ++ [(c, mask)] } })))))

/-! Decisions (R441). -/

/-- The decision on a source no longer waits. -/
def decided (source : Nat) (x : Half) : Half :=
  { x with flt := { x.flt with decisions := x.flt.decisions.filter (fun d => d.source != source) } }

def faultActionSpec : OpSpec := { opcode := 0x0804, handle := .zero, minLen := 2 }

/-- FAULT_ACTION (R441): restart or retire. -/
def execFaultAction (h : HalfId) (e : CmdEntry) (s : State) : Out :=
  .next (runCmd h faultActionSpec e none s (fun s =>
    let source := fld e 16 1
    let action := fld e 17 1
    guarded [bad6 (49 < source) 16, bad6 (action != 1 && action != 2) 17,
      failIf (!awaitsHost (s.half h) source) { status := stBadField, step := 8, offset := 16 }] s (fun s =>
      let s := s.upd h (decided source)
      .ok [] (settle h (if action == 1 then restartSource h source s else retireSource h source 2 s)))))

/-- REACTION_DEFAULTED (R441): the window of the latch has passed without an answer. -/
def execReactionDefaulted (h : HalfId) (source : Nat) (s : State) : Out :=
  settled h (
    let x := s.half h
    match x.flt.decisions.find? (fun d => d.source == source) with
    | none => s
    | some d =>
      if !x.alive || x.clk.now < d.time + (reactionOf h x source).decide_ * 1000000 then s
      else
        let action := if retiresNow h x source then 2 else 1
        event h 0x0804 sevWarning 0 (le 4 source ++ le 4 action) (reactSecond h source (s.upd h (decided source))))

/-! Retirement by command (R460, R580). -/

def unitRetireSpec : OpSpec := { opcode := 0x0805, handle := .zero, minLen := 4 }

/-- The fault source of a unit handle of this half: 0 to 17, 18 + n for a channel, 34 + n for a port. -/
def handleSource (h : HalfId) (u : Handle) : Option Nat :=
  let i := hIndex u
  if hReserved u != 0 || hHalf u != h then none
  else match hType u with
    | 0x20 => if i < 8 then some i else none
    | 0x21 => if i < 6 then some (8 + i) else none
    | 0x22 => if i < 4 then some (14 + i) else none
    | 0x23 => if i < Config.dramChannels then some (18 + i) else none
    | 0x24 => if i < Config.netPorts then some (34 + i) else none
    | _ => none

/-- A unit retires on command; an engine or pipe at its next safe point. -/
def retireNow (h : HalfId) (src : Nat) (s : State) : State :=
  if src < 18 then s.upd h (updUnit src (fun g => { g with toRetire := 3 }))
  else if src < 22 then retireChannel h (src - 18) 3 s
  else retirePort h (src - 34) 3 s

/-- UNIT_RETIRE (R460, R580). -/
def execUnitRetire (h : HalfId) (e : CmdEntry) (s : State) : Out :=
  .next (runCmd h unitRetireSpec e none s (fun s =>
    let u : Handle := BitVec.ofNat 32 (fld e 16 4)
    if u == 0 then .ok [] (retireHalf h 3 s)
    else match handleSource h u with
      | none => .fail { status := stBadField, step := 6, offset := 16 } s
      | some src =>
        guarded [failIf (sourceRetired (s.half h) src) { status := stRetired, step := 8, offset := 16 }] s (fun s =>
          .ok [] (settle h (retireNow h src s)))))

/-! Host holds (R542 to R544). -/

/-- The flags of one unit. -/
def unitAt (x : Half) (k : UnitKind) (i : Nat) : Option UnitFlags := (unitFlags x k)[i]?

/-- The flags of one unit change. -/
def updFlags (k : UnitKind) (i : Nat) (f : UnitFlags → UnitFlags) (x : Half) : Half :=
  match k with
  | .enc => { x with enc := x.enc.modify i (fun g => { g with flags := f g.flags }) }
  | .dec => { x with dec := x.dec.modify i (fun g => { g with flags := f g.flags }) }
  | .cmp => { x with cmp := x.cmp.modify i (fun g => { g with flags := f g.flags }) }
  | .dch => { x with dch := x.dch.modify i (fun g => { g with flags := f g.flags }) }
  | .net => { x with net := x.net.modify i (fun g => { g with flags := f g.flags }) }

/-- The fault source of an engine or pipe, 63 for a channel or port. -/
def kindSource (k : UnitKind) (i : Nat) : Nat :=
  match k with
  | .enc => i
  | .dec => 8 + i
  | .cmp => 14 + i
  | _ => 63

/-- The objects placed on an engine or pipe, each with the boundary at which it leaves. -/
def leavers (h : HalfId) (x : Half) (src : Nat) : List (Handle × Nat) :=
  let type := if src < 8 then 5 else if src < 14 then 4 else 8
  let unit := if src < 8 then src else if src < 14 then src - 8 else src - 14
  ((heldPlaces h x).filter (fun p => hType p.1 == type && p.2.1.contains unit)).map (fun p => (p.1, boundaryOf h x p.1))

/-- A held port leaves service: its flows move, its link goes DOWN with the transmitter off (R543). -/
def holdPort (h : HalfId) (n : Nat) (s : State) : State :=
  (restartPort h n 0 s).upd h (updPort n (fun p => { p with transmitter := false }))

/-- The unit begins to leave service, and the checks of R461 run again. -/
def holdUnit (h : HalfId) (k : UnitKind) (i : Nat) (s : State) : State :=
  let src := kindSource k i
  let out := if src < 18 then leavers h (s.half h) src else []
  let s := s.upd h (updFlags k i (fun f => { f with enable := false, quiescing := true }))
  match k with
  | .dch => evacBegin h i 1 s
  | .net => holdPort h i s
  | _ => rePlace h (s.upd h (updUnit src (fun g => { g with leaving := out })))

/-- A write of 0 to an ENABLE bit may not be taken (R544). -/
def holdRefused (x : Half) (k : UnitKind) (i : Nat) (f : UnitFlags) : Bool :=
  f.retired || (match k with
    | .dch => (chanAt x i).frozen.isSome || (match x.dram.reserve with | some (c, _) => c == i | none => false)
    | _ => false)

/-- A write of 0 to an ENABLE bit (R543, R544). -/
def enableClear (h : HalfId) (k : UnitKind) (i : Nat) (s : State) : State :=
  let x := s.half h
  match unitAt x k i with
  | none => s
  | some f =>
    if !f.present then s
    else if holdRefused x k i f then s.upd h (regError 4)
    else if !f.enable then s
    else if !f.inService || !x.alive then s.upd h (updFlags k i (fun f => { f with enable := false, inService := false }))
    else holdUnit h k i s

/-- A write of 1 to an ENABLE bit (R543, R544): a channel counts only once it has trained (R350). -/
def enableSet (h : HalfId) (k : UnitKind) (i : Nat) (s : State) : State :=
  let x := s.half h
  match unitAt x k i with
  | none => s
  | some f =>
    if !f.present then s
    else if f.retired then s.upd h (regError 4)
    else if f.quiescing then s.upd h (updFlags k i (fun f => { f with lateEnable := true }))
    else if f.enable then s
    else
      let fit := match k with
        | .dch => (chanAt x i).train.trained
        | _ => true
      let s := s.upd h (updFlags k i (fun f => { f with enable := true, inService := fit }))
      match k with
      | .net => s.upd h (fun x =>
          let x := updPort i (fun p => { p with transmitter := true }) x
          if (x.net.getD i {}).signal && portEnabled h x i then adaptStart i x else x)
      | _ => s

/-- UNIT_HOLD (R543): a host write of 0 to an ENABLE bit. -/
def execUnitHold (h : HalfId) (kind : UnitKind) (index : Nat) (s : State) : Out := settled h (hostWriteTo h (enableClear h kind index) s)

/-- UNIT_RETURN (R543, R544): a host write of 1 to an ENABLE bit. -/
def execUnitReturn (h : HalfId) (kind : UnitKind) (index : Nat) (s : State) : Out := settled h (hostWriteTo h (enableSet h kind index) s)

/-! Clock monitors (R521). -/

/-- The fault source of the retirable unit of an island by its block: engines, pipes, channels and ports. -/
def islandUnit (block : Nat) : Option Nat :=
  match blockSource block with
  | some src => some src
  | none => if 22 ≤ block && block < 26 then some (block - 4) else if block == 28 || block == 29 then some (block + 6) else none

/-- The trips of an island within 600 s, this one included. -/
def tripsWithin (i : IslandSt) (now : Nat) : Nat := match i.lastTrip with
  | some t => if now < t + 600000000000 then 2 else 1
  | none => 1

/-- An island halts at its safe point, or at once. -/
def islandHalt (block : Nat) (x : Half) : Half :=
  let x := match blockSource block with
    | some src => updUnit src haltUnit x
    | none => x
  updIsland block (fun i => { i with clockHalted := true, lastTrip := some x.clk.now }) x

/-- The PLL of the island spreads its clock (R520): engines, pipes, interrupt controller, keel and scrim. -/
def spreads (x : Half) (block : Nat) : Bool :=
  !x.boot.board.spreadOff && (block < 14 || (18 ≤ block && block < 22) || 33 ≤ block)

/-- The monitor of an island trips (R521): no edge while it runs, or a mean frequency more than 2 % off the commanded step, 0.25 % of spread allowed for. -/
def monitorTrips (x : Half) (block kilohertz : Nat) : Bool :=
  let i := x.pwr.islands.getD block {}
  let clock := islandKhz block * i.step / 8
  let spread := if spreads x block then 25 else 0
  i.powered && (if kilohertz == 0 then !i.gated
    else decide (kilohertz * 10000 < clock * (9800 - spread)) || decide (clock * (10200 + spread) < kilohertz * 10000))

/-- CLOCK_MONITOR_TRIP (R521): the second trip within 600 s retires the island's unit, or the half. -/
def execClockMonitorTrip (h : HalfId) (island kilohertz : Nat) (s : State) : Out :=
  settled h (
    let x := s.half h
    if x.boot.inReset || 36 ≤ island || !monitorTrips x island kilohertz then s
    else
      let i := x.pwr.islands.getD island {}
      let trips := tripsWithin i x.clk.now
      let s := latchHw 6 h 40 false (s.upd h (islandHalt island))
      let s := event h 0x080B sevAlarm 0 (le 4 island ++ le 4 kilohertz ++ le 4 i.step ++ le 4 trips) s
      if trips < 2 then s
      else match islandUnit island with
        | none => retireHalf h 1 s
        | some src =>
          if sourceRetired (s.half h) src then s
          else if src < 18 then s.upd h (updUnit src (fun g => { g with toRetire := 1 }))
          else if src < 22 then retireChannel h (src - 18) 1 s
          else retirePort h (src - 34) 1 s)

/-- ISLAND_CLOCK_RELOCK (R521): the generator has relocked; an engine or pipe that has halted restarts, but not after a second trip. -/
def execIslandClockRelock (h : HalfId) (island : Nat) (s : State) : Out :=
  settled h (
    let x := s.half h
    let i := x.pwr.islands.getD island {}
    if x.boot.inReset || !i.clockHalted then s
    else
      let s := s.upd h (updIsland island (fun i => { i with clockHalted := false }))
      match blockSource island with
      | none => s
      | some src =>
        let g := unitOf (s.half h) src
        if g.halted && g.toRetire == 0 && !awaitsHost (s.half h) src && x.alive && !x.bri.tetherStopped then restartSource h src s else s)

/-! Clock steps and power (R32 to R34, R473, R531). -/

/-- What waits for an island and what it works on: input items of its crossings, and the pictures, units, jobs, requests and packets that the model
keeps for it. -/
def islandDepth (h : HalfId) (x : Half) (block : Nat) : Nat :=
  inputItems x block +
  (if block < 8 then total ((x.obj.encodes.filter (encMayTake h x block)).map (fun e => e.ready.length))
    else if block < 14 then total ((x.obj.decodes.filter (fun d => d.engines.contains (block - 8))).map (fun d => d.ready.length))
    else if 18 ≤ block && block < 22 then (x.obj.canvases.filter (fun c => c.jobs.any (fun j => j.bandsWaiting.contains (block - 18)))).length
    else if 22 ≤ block && block < 26 then (chanAt x (block - 22)).queue.length
    else if block == 27 then (x.dma.channels.filter (fun d => d.running || d.outstanding != 0)).length
    else if block == 28 || block == 29 then
      total ((x.obj.flows.filter (fun f => f.port == mkHandle 0x24 h (block - 28))).map (fun f => f.queue.length))
    else if block == 30 then total (x.obj.flows.map (fun f => f.queue.length))
    else if block == 31 then (x.dma.channels.filter (fun d => d.running)).length
    else if block == 33 then (icuPending x.icu).length
    else if block == 35 then x.fabric.scrim.length
    else 0)

/-- Islands whose work the model keeps: all but the cluster caches, HAWK, SPAR and KEEL (log 68). -/
def depthKept (block : Nat) : Bool := !(14 ≤ block && block < 18) && block != 26 && block != 32 && block != 34

/-- Halvings of the queue depth below half full, at most 7. -/
def halvings (depth capacity : Nat) : Nat → Nat
  | 0 => 0
  | n + 1 => if capacity < depth * 2 then 0 else 1 + halvings (depth * 2) capacity n

/-- The capacity of an island's input queues: 64 requests of a DRAM controller (R345), else not stated. -/
def islandCapacity (block : Nat) : Nat := if 22 ≤ block && block < 26 then 64 else Config.queueCapacity block

/-- The unit of an island has a halt, stop or suspension pending (R473). -/
def islandUrgent (x : Half) (block : Nat) : Bool :=
  match blockSource block with
  | none => false
  | some src => let g := unitOf x src; g.seq.halt || g.seq.suspend || g.toRetire != 0

/-- The queue of an island that a clock step weighs, held or reported, and its capacity. -/
def queueDepth (h : HalfId) (x : Half) (block reported : Nat) : Nat := if depthKept block then islandDepth h x block else inputItems x block + reported
def queueRoom (block reported : Nat) : Nat := if depthKept block then islandCapacity block else reported

/-- CLOCK_STEP_EVALUATION (R32, R531): every 10 µs, full clock above half full, one eighth less for each halving, capped by the thermal step. The
reported `depth` and `capacity` count for an island whose queues the model does not hold (log 68). -/
def execClockStepEvaluation (h : HalfId) (island depth capacity : Nat) (s : State) : Out :=
  .next (s.upd h (fun x =>
    let i := x.pwr.islands.getD island {}
    if x.boot.inReset || !i.powered then x
    else if islandUrgent x island then updIsland island (fun i => { i with step := 8 }) x
    else if i.evaluated.any (fun t => x.clk.now < t + 10000) then x
    else updIsland island (fun i => { i with
      step := min i.allowed (8 - halvings (queueDepth h x island depth) (queueRoom island capacity) 7), evaluated := some x.clk.now }) x))

/-- A unit of the island holds an admitted LIVE or guarded context (R34). -/
def holdsUrgent (h : HalfId) (x : Half) (block : Nat) : Bool :=
  match blockSource block with
  | none => false
  | some src => (leavers h x src).any (fun p => let c := shedClass (x.record p.1); c == 2 || c == 3)

/-- The unit of an island has work on it, a cluster cache that of its engines. -/
def unitWorks (x : Half) (block : Nat) : Bool :=
  match blockSource block with
  | none => false
  | some src => let g := unitOf x src; g.current.isSome || g.seq.halt

/-- An island has input or work in flight (R33). -/
def islandBusy (h : HalfId) (x : Half) (block : Nat) : Bool :=
  unitWorks x block || islandDepth h x block != 0 ||
  (if block == 14 || block == 15 then (List.range 4).any (fun k => unitWorks x (4 * (block - 14) + k))
    else if block == 16 || block == 17 then (List.range 3).any (fun k => unitWorks x (8 + 3 * (block - 16) + k))
    else block == 34)

/-- Islands that never power off (R34). -/
def neverOff (h : HalfId) (x : Half) (block : Nat) : Bool :=
  (22 ≤ block && block < 26) || (32 ≤ block && block ≤ 34) ||
  (28 ≤ block && block ≤ 30 && x.net.any (fun p => p.link == .up)) || holdsUrgent h x block

/-- ISLAND_POWER_OFF (R27, R33, R34): after more than 1 ms idle, and never with an open reservation. -/
def execIslandPowerOff (h : HalfId) (island : Nat) (s : State) : Out :=
  .next (s.upd h (fun x =>
    let i := x.pwr.islands.getD island {}
    let idle := i.idleSince.any (fun t => t + 1000000 < x.clk.now)
    if x.boot.inReset || 36 ≤ island || !i.powered || !idle || islandBusy h x island || neverOff h x island || holdsReservation x island then x
    else updIsland island (fun i => { i with powered := false, gated := true, step := 0, idleSince := none }) x))

/-- ISLAND_POWER_UP (R24, R33): for input that has arrived; a retired unit stays off (R460). A consumer that has stalled on one of its crossings is no
input. The pool manager and the endpoint answer at once, so that their row itself stands for the input (log 68). -/
def execIslandPowerUp (h : HalfId) (island : Nat) (s : State) : Out :=
  .next (s.upd h (fun x =>
    let i := x.pwr.islands.getD island {}
    let gone := (islandUnit island).any (sourceRetired x)
    if x.boot.inReset || i.powered || gone || !(islandBusy h x island || island == 26 || island == 31) then x
    else count island 4 1 (updIsland island (fun i => { i with powered := true, gated := false, step := i.allowed, idleSince := none }) x)))

/-! What happens as time passes. -/

/-- A nanosecond of an island's clock (R33, R418): gated in the first cycle without input and work, running again when input arrives; and since when
it has been idle. -/
def islandTick (h : HalfId) (x : Half) (block : Nat) (i : IslandSt) : IslandSt :=
  if !i.powered then i
  else if islandBusy h x block then { i with gated := false, idleSince := none }
  else { i with gated := true, idleSince := some (i.idleSince.getD x.clk.now) }

def markIdle (h : HalfId) (x : Half) : Half :=
  { x with pwr := { x.pwr with islands := x.pwr.islands.zipIdx.map (fun p => islandTick h x p.2 p.1) } }

/-- The clock counters of an island with a counter in use (R418): its clocks while ungated, and 10 ns ticks while gated or off and at the full step. -/
def clockCounts (x : Half) (block : Nat) : Half :=
  if ((x.ctr.blocks.getD block {}).enable) == 0 then x
  else
    let i := x.pwr.islands.getD block {}
    let rate := islandKhz block * i.step
    let t := x.clk.now
    let x := if i.gated || !i.powered then x else count block 1 (rate * (t + 1) / 8000000 - rate * t / 8000000) x
    if t % 10 != 0 then x
    else count block 2 (b2n (i.gated || !i.powered)) (count block 3 (b2n (i.powered && i.step == 8)) x)

/-- Armed checkers that meet their check in running hardware (R442): the tile-buffer parity of a working pipe, and the spar CRC. -/
def checkersMeet (h : HalfId) (s : State) : State :=
  let s := (List.range 4).foldl (fun s p =>
    let x := s.half h
    if armedMask x (0x0E + p) != 0 && (x.cmp.getD p {}).current.isSome then pinRises h (14 + p) s else s) s
  if armedMask (s.half h) 0x1B != 0 && s.sparWorks then s.upd h (fun x => count 32 0x12 1 (disarm 0x1B x)) else s

/-- A hold of a channel that could not begin its evacuation begins it (R543). -/
def heldChannels (h : HalfId) (s : State) : State :=
  (List.range (s.half h).dch.length).foldl (fun s n =>
    let c := chanAt (s.half h) n
    if c.flags.quiescing && c.evac.isNone then evacBegin h n 1 s else s) s

end Sys2Proof.Machine
end

