-- ==== Sys2Proof/Machine/Sequencers.lean ====
section
/-!
DEFINITION. Sequencers.lean: the microsequencers of engines and pipes (R465 to R485): control stores, safe points, machine checks,
reloads, read-back, trace and history, and DIAG_DUMP (R577).
-/
namespace Sys2Proof.Machine

/-! Control stores (R465 to R469). -/

/-- The image target of a unit by its fault source: 0 encode, 1 decode, 2 composition (R480). -/
def seqTarget (src : Nat) : Nat := if src < 8 then 0 else if src < 14 then 1 else 2

/-- A microword with its parity bits: each group and its parity bit hold an odd number of ones (R465). -/
def withParity (d : BitVec 144) : BitVec 152 :=
  let odd := (List.range 8).map (fun g => ((List.range 18).filter (fun i => d.getLsbD (18 * g + i))).length % 2 == 0)
  BitVec.ofNat 152 (d.toNat + packBits odd * 2 ^ 144)

/-- A word of a control store as it stands: a loaded word has passed its read-back (R477). -/
def storeWord (src addr : Nat) (q : Sequencer) : BitVec 152 :=
  match q.store.find? (fun w => w.1 == addr) with
  | some w => w.2
  | none => withParity (Config.imageWord (seqTarget src) addr)

/-- Bits of a word flip. -/
def storeFlip (src addr : Nat) (flip : BitVec 152) (q : Sequencer) : Sequencer :=
  if flip == 0 then q
  else { q with store := q.store.filter (fun w => w.1 != addr) ++ [(addr, storeWord src addr q ^^^ flip)] }

/-- The groups that fail odd parity, as a mask (R465). -/
def badGroups (w : BitVec 152) : Nat :=
  packBits ((List.range 8).map (fun g =>
    ((List.range 18).filter (fun i => w.getLsbD (18 * g + i))).length % 2 == b2n (w.getLsbD (144 + g))))

/-- The fields of a microword (R467). -/
def wordOp (w : BitVec 152) : Nat := w.toNat / 2 ^ 138 % 64
def wordTarget (w : BitVec 152) : Nat := w.toNat / 2 ^ 126 % 4096
def wordCycles (w : BitVec 152) : Nat := w.toNat / 2 ^ 124 % 4 + 1
def wordSafe (w : BitVec 152) : Bool := w.getLsbD 123
def wordCondition (w : BitVec 152) : Nat := w.toNat / 2 ^ 116 % 128

/-- A tier-1 picture is ready for an encode engine that runs lower work (R220). -/
def encodeWaits (h : HalfId) (x : Half) (engine i : Nat) : Bool :=
  !esTier1 (x.record (encodeH h i)) && esCodec (x.record (encodeH h i)) != 3 &&
  x.obj.encodes.any (fun e => esTier1 (x.record (encodeH h e.index)) && (e.run == .running || e.run == .draining) &&
    e.engines.contains engine && e.plan.isNone && !e.ready.isEmpty)

/-- A suspension is pending for the picture of a unit (R101, R220). -/
def suspensionPending (h : HalfId) (x : Half) (src i : Nat) : Bool :=
  if src < 8 then encodeWaits h x src i else src < 14 && (unitOf x src).seq.suspend

/-- The columns and rows of CTUs or tiles of the picture or job that a unit runs; a decoded picture's are the stream's own. -/
def gridOf (r : Record) : Option (Nat × Nat) :=
  match recType r with
  | 5 => some (esCols r, esRows r)
  | 8 => some (cvCols r, cvRows r)
  | _ => none

/-- The selected condition (R468): 1 and 2 read the crossings of the unit, 3 and 4 the place of the CTU or tile, 6 and 7 the requests; the others come
from the datapath. -/
def conditionOf (h : HalfId) (x : Half) (src i ctu : Nat) (w : BitVec 152) (given : Bool) : Bool :=
  let block := sourceBlock src
  let grid := gridOf (x.record (sourceObject h src i))
  match wordCondition w with
  | 0 => true
  | 1 => x.fabric.fifos.any (fun f => f.consumer == block && !((swapBanks f).draining.isEmpty))
  | 2 => (x.fabric.fifos.filter (fun f => f.producer == block)).all (fun f => decide (fillSlots f < Config.bankDepth f.producer f.consumer))
  | 3 => match grid with
    | some g => (ctu + 1) % g.1 == 0
    | none => given
  | 4 => match grid with
    | some g => ctu + 1 == g.1 * g.2
    | none => given
  | 6 => suspensionPending h x src i
  | 7 => (unitOf x src).toRetire != 0
  | _ => given

/-- The type of a CTU or tile that DISPATCH uses (R469). Encode and composition units take it from the picture or job they run; what a decode unit has
parsed is what it reports. -/
def dispatchType (h : HalfId) (x : Half) (src i ctu given : Nat) : Nat :=
  if src < 8 then
    match (x.obj.encode? i).bind (fun e => e.plan.map (fun p => (e, p))) with
    | none => given
    | some (e, p) =>
      let col := ctu % esCols (x.record (encodeH h e.index))
      if p.cutCtus.contains ctu then (if p.picType == 0 then 6 else 5)
      else if !p.fullCtus.contains ctu then 4
      else if p.picType == 0 then 1
      else if p.refreshCols.contains col then 2
      else if p.edgeCol == some col then 3
      else 0
  else if src < 14 then given
  else match (x.obj.canvas? i).bind (fun c => c.jobs.head?) with
    | some j => b2n (!j.tiles.contains ctu)
    | none => given

/-- The next address and stack, or the cause of a machine check (R468, R476). DONE leads to the idle entry point. -/
def nextAddress (src : Nat) (q : Sequencer) (w : BitVec 152) (condition : Bool) (ctuType : Nat) : Nat ⊕ (Nat × List Nat) :=
  let after := (q.address + 1) % 4096
  match wordOp w with
  | 0x00 => if q.address == 0xFFF then .inl 5 else .inr (after, q.stack)
  | 0x01 => .inr (wordTarget w, q.stack)
  | 0x02 => .inr (if condition then wordTarget w else after, q.stack)
  | 0x03 => .inr (if condition then after else wordTarget w, q.stack)
  | 0x04 => if 8 ≤ q.stack.length then .inl 3 else .inr (wordTarget w, after :: q.stack)
  | 0x05 => match q.stack with
    | [] => .inl 4
    | a :: rest => .inr (a, rest)
  | 0x06 => .inr (wordTarget w / 16 * 16 + ctuType % 16, q.stack)
  | 0x07 => .inr (Config.imageEntry (seqTarget src) 0 % 4096, q.stack)
  | _ => .inl 2

/-! Trace and history (R482 to R484). -/

/-- A trace record (R482). -/
def traceBytes (t : TraceRec) : List Byte :=
  le 8 t.time ++ le 2 t.address ++ le 2 t.next ++ le 1 t.code ++ le 1 t.flags ++ le 2 t.ctu

/-- The records that the ring of a trace holds. -/
def traceRoom (t : TraceSt) : Nat := (t.size - 64) / 16

/-- The header of a trace buffer: records written, next write index, drop counter (R482). -/
def traceHeader (t : TraceSt) : List Byte :=
  le 8 t.written ++ le 4 (t.written % max 1 (traceRoom t)) ++ le 4 t.dropped ++ List.replicate 48 0

/-- The device address of a trace buffer. -/
def traceBase (x : Half) (t : TraceSt) : Option Nat := (placedAt x (hIndex t.region)).map (fun p => placeAddr p + t.offset)

/-- A record goes to the trace buffer; over a full ring it drops the oldest, and a buffer that cannot take it drops it (R57). -/
def tracePut (rec_ : TraceRec) (t : TraceSt) (x : Half) : Half :=
  match traceBase x t with
  | none => { x with ctr := { x.ctr with trace := some { t with dropped := sat32 t.dropped } } }
  | some base =>
    if onFrozen x base then { x with ctr := { x.ctr with trace := some { t with dropped := sat32 t.dropped } } }
    else
      let u := { t with written := t.written + 1, dropped := if traceRoom t ≤ t.written then sat32 t.dropped else t.dropped }
      let x := devWrite (base + 64 + 16 * (t.written % max 1 (traceRoom t))) (traceBytes rec_) x
      { (devWrite base (traceHeader u) x) with ctr := { x.ctr with trace := some u } }

/-- A word is traced (R482, R483): recording starts at the start address and stops after the stop address. -/
def traceWord (block : Nat) (rec_ : TraceRec) (taken check : Bool) (x : Half) : Half :=
  match x.ctr.trace with
  | none => x
  | some t0 =>
    if t0.block != block then x
    else
      let t := { t0 with recording := t0.recording || t0.startAddr == rec_.address }
      let x := if t.recording && (t.mode == 2 || taken) then tracePut rec_ t x else { x with ctr := { x.ctr with trace := some t } }
      let ends := t.stopAddr == rec_.address || (check && t.stopAtCheck)
      if ends then { x with ctr := { x.ctr with trace := x.ctr.trace.map (fun t => { t with recording := false, startAddr := 0xFFFE }) } } else x

/-! Safe points (R472). -/

/-- The picture is saved, and the higher work starts next; a picture on several engines leaves them all. -/
def suspendDo (src i : Nat) (x : Half) : Half :=
  let off := fun (g : EngineSt) => if g.current == some i then
    { g with current := none, suspended := addNew i g.suspended, seq := { g.seq with suspend := false, clocks := 0 } } else g
  if src < 8 then count src 0x16 1 { x with enc := x.enc.map off }
  else count src 0x17 1 { x with dec := x.dec.map off }

/-- A unit at a safe point acts on the first of halt, stop and suspension (R472). -/
def safePointDo (h : HalfId) (src : Nat) (s : State) : State :=
  let x := s.half h
  let g := unitOf x src
  match g.current with
  | none => s
  | some i =>
    if g.halted then s
    else if g.seq.halt then
      let s := unitDown h src s
      if x.bri.tetherStopped then s else react h src s
    else if g.toRetire != 0 then retireEngine h src g.toRetire s
    else if suspensionPending h x src i then s.upd h (fun x => suspendDo src i (if src < 8 then producerStops src x else x))
    else s.upd h (updUnit src (fun g => { g with seq := { g.seq with clocks := 0 } }))

/-- Something is pending that a safe point acts on. -/
def safePointActs (h : HalfId) (x : Half) (src : Nat) : Bool :=
  let g := unitOf x src
  match g.current with
  | none => false
  | some i => g.seq.halt || g.toRetire != 0 || suspensionPending h x src i

/-- SAFE_POINT (R472). -/
def execSafePoint (h : HalfId) (block : Nat) (s : State) : Out :=
  settled h (match blockSource block with
    | none => s
    | some src => if (s.half h).alive then safePointDo h src s else s)

/-! Fetches and machine checks (R470, R475, R476). -/

/-- A machine check: the unit halts with its stack and history as they are, its source latches, MACHINE_CHECK is raised. -/
def machineCheckDo (h : HalfId) (src cause groups : Nat) (injected : Bool) (s : State) : State :=
  let x := s.half h
  let g := unitOf x src
  let obj : Handle := match g.current with
    | some i => sourceObject h src i
    | none => 0
  let s := s.upd h (updUnit src (fun g => { g with seq := { g.seq with
    check := some { time := x.clk.now, cause := cause, address := g.seq.address, groups := groups }, reloadSince := some x.clk.now } }))
  let s := latchHw 6 h src injected (unitDown h src s)
  event h 0x0806 sevAlarm 0 (le 4 (sourceBlock src) ++ le 4 cause ++ le 4 g.seq.address ++ le 4 groups ++ le 4 obj.toNat) s

/-- A word runs: the next address, the history of taken transfers, the trace, and a safe point at its end. -/
def wordRuns (h : HalfId) (src : Nat) (w : BitVec 152) (next : Nat × List Nat) (ctu : Nat) (stalled : Bool) (s : State) : State :=
  let x := s.half h
  let q := (unitOf x src).seq
  let taken := next.1 != q.address + 1
  let r : TraceRec := { time := x.clk.now, address := q.address, next := next.1, code := wordOp w
                        flags := packBits [wordSafe w, taken, stalled, false], ctu := ctu % 65536 }
  let s := s.upd h (fun x => traceWord (sourceBlock src) r taken false (updUnit src (fun g => { g with seq := { g.seq with
    address := next.1, stack := next.2, clocks := q.clocks + wordCycles w
    history := if taken then (q.history ++ [r]).drop (q.history.length + 1 - 256) else q.history } }) x))
  if wordSafe w then safePointDo h src s else s

/-- The fetch of the current word: parity first, with an armed checker meeting it, then the next address and the safe-point counter. -/
def fetchDo (h : HalfId) (src : Nat) (condition : Bool) (ctuType ctu : Nat) (stalled : Bool) (s : State) : State :=
  let x := s.half h
  let g := unitOf x src
  let q := g.seq
  let mask := if src < 14 then armedMask x src else 0
  let w := storeWord src q.address q ^^^ (BitVec.ofNat 152 mask <<< 144)
  let s := if mask != 0 then s.upd h (disarm src) else s
  let groups := badGroups w
  let failed := fun (cause : Nat) =>
    let r : TraceRec := { time := x.clk.now, address := q.address, next := 0, code := wordOp w, flags := 8, ctu := ctu % 65536 }
    machineCheckDo h src cause groups (mask != 0 && cause == 1) (s.upd h (traceWord (sourceBlock src) r false true))
  if groups != 0 then failed 1
  else match nextAddress src q w (conditionOf h x src (g.current.getD 0) ctu w condition) ctuType with
    | .inl cause => failed cause
    | .inr next => if 2048 ≤ q.clocks + wordCycles w then failed 6 else wordRuns h src w next ctu stalled s

/-- MACHINE_CHECK (R468, R470, R476): a running unit fetches its current word; `upset` are the bits that flipped in it. A stall before
the word is a safe point. Without an error the word runs. -/
def execMachineCheck (h : HalfId) (block : Nat) (condition : Bool) (ctuType ctu : Nat) (stalled : Bool) (upset : BitVec 152) (s : State) : Out :=
  settled h (match blockSource block with
    | none => s
    | some src =>
      let x := s.half h
      let g := unitOf x src
      if !x.alive || g.halted || g.current.isNone then s
      else if stalled && safePointActs h x src then safePointDo h src s
      else if 8 ≤ src && src < 14 && 4 < ctuType then s
      else fetchDo h src condition (dispatchType h x src (g.current.getD 0) ctu ctuType) ctu stalled
        (s.upd h (updUnit src (fun g => { g with seq := storeFlip src g.seq.address upset g.seq }))))

/-! Reload and read-back (R477 to R479). -/

/-- The reserve's channel is frozen, so that the image comes from QSPI (R477). -/
def reserveFrozen (x : Half) : Bool := match x.dram.reserve with
  | some (c, _) => (chanAt x c).frozen.isSome
  | none => true

/-- An image fetched again from the slot in use has its signature and the measurement that the primer took at boot (R477, R505). -/
def fetchedOk (x : Half) (src : Nat) (i : SignedItem) : Bool :=
  itemFail x.boot.fuses i == 0 && i.measurement == x.boot.bundle.measurements.getD (1 + seqTarget src) 0

/-- STORE_RELOADED (R477, R478, R505): the unit is back, or words that failed twice latch its source again. An image fetched from QSPI that does not
measure as at boot is refused, latches source 37 and leaves the unit halted; a frozen reserve gives no image. -/
def execStoreReloaded (h : HalfId) (block : Nat) (fetched : Option SignedItem) (readBackFails : Nat) (s : State) : Out :=
  settled h (match blockSource block with
    | none => s
    | some src =>
      let x := s.half h
      let g := unitOf x src
      match g.seq.reloadSince with
      | none => s
      | some since =>
        if !x.alive || x.bri.tetherStopped || g.flags.retired || awaitsHost x src || (fetched.isNone && reserveFrozen x) then s
        else if fetched.any (fun i => !fetchedOk x src i) then
          latchHw 6 h 37 false (s.upd h (updUnit src (fun g => { g with seq := { g.seq with reloadSince := none } })))
        else if readBackFails != 0 then
          (List.range readBackFails).foldl (fun s _ => latchHw 6 h src false s) s
        else
          let s := s.upd h (updUnit src (fun g => { g with seq := { g.seq with store := [], check := none, reloadSince := none } }))
          let s := event h 0x0807 sevInfo 0 (le 4 block ++ le 4 (if fetched.isSome then 2 else 1) ++ le 8 (x.clk.now - since)) s
          restartSource h src s)

/-- The store of a unit has a word that fails, or its checker is armed. -/
def readBackBad (x : Half) (src : Nat) : Bool :=
  (unitOf x src).seq.store.any (fun w => badGroups w.2 != 0) || (src < 14 && armedMask x src != 0)

/-- The read-back of an idle unit (R479): a failure latches its source, and the store is loaded again. -/
def readBackUnit (h : HalfId) (s : State) (src : Nat) : State :=
  let x := s.half h
  let g := unitOf x src
  if g.current.isSome || g.halted || g.flags.retired || !readBackBad x src then s
  else
    let injected := src < 14 && armedMask x src != 0
    let s := s.upd h (fun x => updUnit src (fun g => { g with seq := { g.seq with reloadSince := some x.clk.now } })
      (if injected then disarm src x else x))
    latchHw 6 h src injected s

/-- READBACK_ROUND (R479): every 60 s; `upsets` are the bits that have flipped in the stores, by block and address. -/
def execReadbackRound (h : HalfId) (upsets : List (Nat × Nat × BitVec 152)) (s : State) : Out :=
  settled h (
    let x := s.half h
    if !x.alive || x.bri.tetherStopped || x.flt.readback.any (fun t => x.clk.now < t + 60000000000) then s
    else
      let s := s.upd h (fun x => upsets.foldl (fun x u => match blockSource u.1 with
        | some src => updUnit src (fun g => { g with seq := storeFlip src (u.2.1 % 4096) u.2.2 g.seq }) x
        | none => x) { x with flt := { x.flt with readback := some x.clk.now } })
      (List.range 18).foldl (readBackUnit h) s)

/-! Commands (R482, R484, R577). -/

def seqTraceSpec : OpSpec := { opcode := 0x0610, handle := .zero, minLen := 28 }

/-- A control-store address, or 0xFFFF. -/
def addressOk (a : Nat) : Bool := a < 4096 || a == 0xFFFF

/-- A context is LIVE, guarded or deterministic (R483, R577). -/
def urgentContext (r : Record) : Bool :=
  match recType r with
  | 4 => decClass r == 0 || decPartner r != 0
  | 5 => esTier1 r
  | _ => cvUrgent r

/-- SEQ_TRACE (R482, R483). -/
def execSeqTrace (h : HalfId) (e : CmdEntry) (s : State) : Out :=
  .next (runCmd h seqTraceSpec e none s (fun s =>
    let x := s.half h
    let block := fld e 16 1
    let mode := fld e 17 1
    let region : Handle := BitVec.ofNat 32 (fld e 24 4)
    let off := fld e 32 8
    let size := fld e 40 4
    let src := (blockSource block).getD 63
    let on := mode != 0
    let t : TraceSt := { block := block, mode := mode, stopAtCheck := (fld e 18 1).testBit 0, startAddr := fld e 20 2, stopAddr := fld e 22 2
                         region := region, offset := off, size := size, recording := fld e 20 2 == 0xFFFF }
    guarded [bad6 (blockSource block).isNone 16, bad6 (2 < mode) 17, bad6 (1 < fld e 18 1) 18,
      bad6 (on && !addressOk (fld e 20 2)) 20, bad6 (on && !addressOk (fld e 22 2)) 22,
      bad6 (on && !(hType region == 0x10 && hReserved region == 0 && hHalf region == h && hIndex region < 0xFF00)) 24,
      bad6 (on && off % 4096 != 0) 32, bad6 (on && (size < 8192 || 16777216 < size || size % 4096 != 0)) 40,
      checkReserved e [(16, 3), (20, 8), (32, 12)],
      failIf (on && sourceRetired x src) { status := stRetired, step := 8, offset := 16 },
      failIf (x.env.running.isNone || (on && (x.record region).isEmpty)) { status := stNotCommitted, step := 8, offset := 24 },
      failIf (on && ((placedAt x (hIndex region)).map (fun p => p.size)).getD 0 < off + size) { status := stBadField, step := 8, offset := 40 },
      failIf (mode == 2 && (leavers h x src).any (fun p => urgentContext (x.record p.1)))
        { status := stAdmission, step := 9, offset := 16 }] s (fun s =>
      .ok [] (s.upd h (fun x =>
        if !on then { x with ctr := { x.ctr with trace := none } }
        else
          let x := match traceBase x t with
            | some a => if onFrozen x a then x else devWrite a (traceHeader t) x
            | none => x
          { x with ctr := { x.ctr with trace := some t } })))))

def seqHistorySpec : OpSpec := { opcode := 0x0611, handle := .zero, minLen := 20, bufAt := 32, bufNeed := 4160 }

/-- The history of a unit (R484). -/
def historyBytes (q : Sequencer) : List Byte :=
  let c : CheckRec := q.check.getD { time := 0, cause := 0, address := 0, groups := 0 }
  pad 64 (le 8 c.time ++ le 1 c.cause ++ le 2 c.address ++ le 1 c.groups ++ le 1 q.stack.length ++
    (List.range 8).flatMap (fun i => le 2 (q.stack.getD i 0)) ++ le 2 q.clocks) ++
  pad 4096 (q.history.flatMap traceBytes)

/-- SEQ_HISTORY (R484). -/
def execSeqHistory (h : HalfId) (e : CmdEntry) (b : BusResult) (s : State) : Out :=
  .next (runCmd h seqHistorySpec e none s (fun s =>
    let x := s.half h
    let block := fld e 16 1
    let src := (blockSource block).getD 63
    guarded [bad6 (blockSource block).isNone 16,
      checkReserved e [(16, 1), (24, 12)],
      failIf (sourceRetired x src) { status := stRetired, step := 8, offset := 16 }] s (fun s =>
      let bytes := historyBytes (unitOf (s.half h) src).seq
      replyBuffer h (fld e 24 8) bytes b (le 4 bytes.length) id s)))

def diagDumpSpec : OpSpec := { opcode := 0x0612, handle := .types [4, 5, 8], minLen := 20, bufAt := 32, bufNeed := 32800 }

/-- The stages that a type of object gives (R577). -/
def stageOk (type stage : Nat) : Bool :=
  match type with
  | 5 => 1 ≤ stage && stage ≤ 4
  | 4 => 3 ≤ stage && stage ≤ 5
  | _ => stage == 6

/-- The 64×64 blocks of an object's picture. -/
def diagUnits (r : Record) : Nat :=
  match recType r with
  | 5 => esCtus r
  | 4 => ceilDiv (rd r 20 2) 64 * ceilDiv (rd r 22 2) 64
  | _ => cvTiles r

/-- What a canvas holds of the first job or picture from a time on, for a tile. -/
def capturedTile (c : CanvasSt) (due index : Nat) : Option Content :=
  match c.jobs.find? (fun j => due ≤ j.tickTime), c.latest with
  | some j, _ => some j.content
  | none, some p => if due ≤ p.tickTime then (c.slots.find? (fun q => q.1 == p.table.getD index 0)).map (fun q => q.2) else none
  | none, none => none

/-- The word of a stage at a sample of a plane (R16, R577), of the first picture or job from a time on: the source and the reconstruction of an encode
stream, the picture of a decode stream, the blended tile of a canvas. -/
def stageWord (x : Half) (obj : Handle) (stage due index c px py : Nat) : Option SampleWord :=
  let r := x.record obj
  let i := hIndex obj
  match recType r, stage with
  | 5, 1 => ((x.obj.encode? i).bind (fun e => e.plan)).bind (fun p => if p.tickTime < due then none else
      p.search.map (fun q => wordIn (esFormat r).depth (codedSource r q.source c px py)))
  | 5, 4 => ((x.obj.encode? i).bind (fun e => e.plan)).bind (fun p => if p.tickTime < due then none else
      some (wordIn (esFormat r).depth (Config.reconSample p.token c px py % 2 ^ (esFormat r).depth)))
  | 4, 5 => ((x.obj.decode? i).bind (fun d => (d.waiting ++ d.available).find? (fun p => due ≤ p.presentation))).map (fun p =>
      wordIn p.bitDepth (p.content.sample c px py))
  | 8, 6 => ((x.obj.canvas? i).bind (fun v => capturedTile v due index)).map (fun p => canvasWord r p.read.pixel c px py)
  | _, _ => none

/-- The words of a plane of the captured block in raster order, sign-extended to 4 bytes. -/
def planeWords (x : Half) (obj : Handle) (stage due index c : Nat) (f : PicFormat) : List Byte :=
  let w := 64 / f.subX c
  let hgt := 64 / f.subY c
  (List.range (w * hgt)).flatMap (fun k =>
    let v := (stageWord x obj stage due index c (index % f.tilesX * w + k % w) (index / f.tilesX * hgt + k / w)).getD
      (Config.diagWord stage index c k due)
    le 4 (v.signExtend 32).toNat)

/-- The format of an object's pictures. -/
def captureFormat (r : Record) : PicFormat :=
  match recType r with
  | 5 => esFormat r
  | 8 => cvFormat r
  | _ => { width := rd r 20 2, height := rd r 22 2, depth := rd r 24 1, chroma := rd r 25 1 }

/-- What DIAG_DUMP writes: the header, then the luma, Cb and Cr words. -/
def diagBytes (x : Half) (obj : Handle) (stage index due : Nat) : List Byte :=
  let f := captureFormat (x.record obj)
  pad 32 (le 8 due ++ le 1 stage) ++
  ((if f.chroma == 0 then [0] else [0, 1, 2]).flatMap (fun c => planeWords x obj stage due index c f))

/-- DIAG_DUMP (R577): accepted, and done at the object's next boundary. -/
def execDiagDump (h : HalfId) (e : CmdEntry) (s : State) : Out :=
  .next (runCmd h diagDumpSpec e none s (fun s =>
    let x := s.half h
    let r := x.record e.handle
    guarded [failIf (hHalf e.handle != h) { status := stBadField, step := 5 },
      bad6 (!stageOk (hType e.handle) (fld e 20 1)) 20, checkReserved e [(16, 5), (24, 12)], checkRunning x e.handle,
      bad6 (diagUnits r ≤ fld e 16 4) 16,
      failIf (urgentContext r) { status := stAdmission, step := 9 }] s (fun s =>
      .later [] (addDeferred h 0x0612 e (boundaryOf h (s.half h) e.handle) s))))

end Sys2Proof.Machine
end

