-- ==== Sys2Proof/Machine/Bridle.lean ====
section
/-!
DEFINITION. Bridle.lean: the bridle between the halves (R443 to R459): tethers, lead and epoch, the spar link going and coming back, the
take-over of a lost half's sessions, the bridle commands (R581), and the idle nanosecond of the block.
-/
namespace Sys2Proof.Machine

/-- The bridle of a half changes. -/
def updBri (f : BridleSt → BridleSt) (x : Half) : Half := { x with bri := f x.bri }

/-! The PTP role (R285, R287, R447). -/

/-- The clock's shared state comes to a half with the lead; a slave port of the other half is lost when the link is down. -/
def ptpTakes (h : HalfId) (s : State) : State :=
  let o := (s.half h.other).ptp
  let s := s.upd h (updPtp (fun _ => o))
  if o.slavePort.any (fun p => hHalf p != h) && !s.sparWorks then slaveLost h s else s

/-- The halves part (R285): a follower goes on with a copy of the clock's state, each half with its own ports. -/
def ptpSplit (h : HalfId) (s : State) : State :=
  if !(s.half h).bri.lead then ptpTakes h s
  else if (s.half h).ptp.slavePort.any (fun p => hHalf p != h) then slaveLost h s
  else s

/-! Lead changes (R449, R453, R454). -/

/-- A half's role and epoch change; a change of the lead raises source 141 and LEAD_CHANGED. -/
def leadSet (h : HalfId) (lead : Bool) (epoch : W32) (cause : Nat) (s : State) : State :=
  let was := (s.half h).bri.lead
  let s := s.upd h (fun x => updBri (fun b => { b with
    lead := lead, epoch := epoch
    lastCause := if was == lead then b.lastCause else cause, lastChange := if was == lead then b.lastChange else x.clk.now }) x)
  if was == lead then s
  else event h 0x0901 sevWarning 0 (le 4 (if lead then h else h.other).bit ++ le 4 epoch.toNat ++ le 4 cause) (icuRaise h 141 s)

/-- The follower takes lead with the lead's epoch plus one; the highest epoch stays, with source 42 (R449). -/
def takeLead (h : HalfId) (cause : Nat) (s : State) : State :=
  let b := (s.half h).bri
  if b.lead then s
  else if b.epoch == 0xFFFFFFFF then latchHw 6 h 42 false s
  else
    let s := if s.sparWorks then ptpTakes h s else s
    leadSet h true (b.epoch + 1) cause s

/-- The lead arbitration of the half is the host's (R454). -/
def hostLead (h : HalfId) (s : State) : Bool := modeHost (s.half h) fnLead 0

/-- The payload of an arbitration request (R454): cause, the epochs of east and west, the claims. -/
def leadPayload (h : HalfId) (cause : Nat) (s : State) : List Byte :=
  let b := (s.half h).bri
  let own := b.epoch.toNat
  let far := b.partnerEpoch.toNat
  let east := if h == .east then own else far
  let west := if h == .east then far else own
  le 4 cause ++ le 4 east ++ le 4 west ++ le 1 (packBits [s.east.bri.lead, s.west.bri.lead])

/-- The bridle asks the host, with a deadline 100 ms on. -/
def askLead (h : HalfId) (cause : Nat) (s : State) : State :=
  if (s.half h).bri.deadline != 0 then s
  else
    let t := s.now h + 100000000
    asrRequest h { kind := 0x0B09, tag := 0, handle := 0, sequence := 0, time := t, payload := leadPayload h cause s } t
      (s.upd h (updBri (fun b => { b with deadline := t, deadlineCause := cause })))

/-- A trigger of R449: 1 tether lost, 2 HALF_STOPPED, 3 spar link down. -/
def leadTrigger (h : HalfId) (cause : Nat) (s : State) : State :=
  if (s.half h).bri.lead then s else if hostLead h s then askLead h cause s else takeLead h cause s

/-- The half that wins a conflict of claims: the higher epoch, then LEAD_PREF (R450). -/
def conflictWinner (h : HalfId) (s : State) : HalfId :=
  let b := (s.half h).bri
  if b.partnerEpoch.toNat < b.epoch.toNat then h
  else if b.epoch.toNat < b.partnerEpoch.toNat then h.other
  else s.leadPref

/-- A conflict is settled on this half (R450): the loser takes the winner's epoch, is fenced, and latches source 42. -/
def conflictDo (h : HalfId) (s : State) : State :=
  let b := (s.half h).bri
  if conflictWinner h s == h then s
  else
    let s := leadSet h false b.partnerEpoch 4 (s.upd h (fun x => updBri (fun b => { b with fenced := true }) { x with clk := (s.half h.other).clk }))
    let s := latchHw 6 h 42 false s
    let own := le 4 b.epoch.toNat
    let far := le 4 b.partnerEpoch.toNat
    event h 0x0905 sevAlarm 0 ((if h == .east then own ++ far else far ++ own) ++ le 4 h.other.bit ++ le 4 h.bit) s

/-- BRIDLE_CLAIM_RECEIVED (R450): the partner's claim and epoch. A follower takes the lead's epoch. -/
def execBridleClaimReceived (h : HalfId) (claim : Bool) (epoch : W32) (s : State) : Out :=
  .next (
    let x := s.half h
    if x.boot.inReset || !x.bri.sparUp then s
    else
      let s := s.upd h (updBri (fun b => { b with partnerEpoch := epoch }))
      if !claim then s
      else if !x.bri.lead then s.upd h (updBri (fun b => { b with epoch := epoch }))
      else
        let s := s.upd h (updBri (fun b => { b with conflicts := sat32 b.conflicts }))
        if hostLead h s then askLead h 4 s else conflictDo h s)

/-- LEAD_ASSIGN and a host decision (R453, R454): the receiving half takes its role and clears its fence, and with the link up so does
the partner. -/
def assignLead (h lead : HalfId) (epoch : W32) (s : State) : State :=
  let one := fun (w : HalfId) (s : State) =>
    let s := if w == lead && !(s.half w).bri.lead && s.sparWorks then ptpTakes w s else s
    leadSet w (w == lead) epoch 5 (s.upd w (updBri (fun b => { b with fenced := false, deadline := 0 })))
  let up := s.sparWorks
  let s := one h s
  if up then one h.other s else s

/-- An assigned epoch exceeds both halves' epochs (R453). -/
def epochBeats (h : HalfId) (epoch : W32) (s : State) : Bool :=
  let far := if s.sparWorks then (s.half h.other).bri.epoch else (s.half h).bri.partnerEpoch
  (s.half h).bri.epoch.toNat < epoch.toNat && far.toNat < epoch.toNat

def halfOf (n : Nat) : HalfId := if n == 0 then .east else .west

def leadYieldSpec : OpSpec := { opcode := 0x0901, handle := .zero, minLen := 0 }

/-- LEAD_YIELD (R453, R581): the follower takes lead. -/
def execLeadYield (h : HalfId) (e : CmdEntry) (s : State) : Out :=
  .next (runCmd h leadYieldSpec e none s (fun s =>
    guarded [checkLead (s.half h),
      failIf (!s.sparWorks || (s.half h).bri.partnerLost) { status := stNoResource, step := 9 }] s (fun s =>
      let epoch := (s.half h).bri.epoch
      if epoch == 0xFFFFFFFF then .ok (le 4 epoch.toNat) (latchHw 6 h 42 false s)
      else
        let s := leadSet h.other true (epoch + 1) 7 (ptpTakes h.other s)
        .ok (le 4 (epoch + 1).toNat) (leadSet h false (epoch + 1) 7 s))))

def leadAssignSpec : OpSpec := { opcode := 0x0902, handle := .zero, minLen := 8 }

/-- LEAD_ASSIGN (R453, R581). -/
def execLeadAssign (h : HalfId) (e : CmdEntry) (s : State) : Out :=
  .next (runCmd h leadAssignSpec e none s (fun s =>
    let epoch : W32 := BitVec.ofNat 32 (fld e 20 4)
    guarded [bad6 (1 < fld e 16 1) 16, checkReserved e [(16, 1), (20, 4)], bad6 (!epochBeats h epoch s) 20] s (fun s =>
      .ok [] (assignLead h (halfOf (fld e 16 1)) epoch s))))

def bridleReadSpec : OpSpec := { opcode := 0x0903, handle := .zero, minLen := 0 }

/-- The half that leads, as a half sees it; unknown while split (R581). -/
def leadSeen (h : HalfId) (s : State) : Nat :=
  if (bridleStatus s h).testBit 9 then 0xFF else if (s.half h).bri.lead then h.bit else h.other.bit

/-- The result of BRIDLE_READ. -/
def bridleBytes (h : HalfId) (s : State) : List Byte :=
  let b := (s.half h).bri
  le 4 (bridleStatus s h) ++ le 4 b.epoch.toNat ++ le 4 b.partnerEpoch.toNat ++ le 1 (leadSeen h s) ++ le 1 b.lastCause ++ le 2 0 ++
  le 8 b.lastChange ++ le 4 b.outages ++ le 4 b.conflicts ++ le 8 b.deadline

/-- BRIDLE_READ (R581). -/
def execBridleRead (h : HalfId) (e : CmdEntry) (s : State) : Out :=
  .next (runCmd h bridleReadSpec e none s (fun s => .ok (bridleBytes h s) s))

/-- The lead decision comes to nothing: the bridle applies R449 or R450. -/
def leadDefault (h : HalfId) (s : State) : State :=
  let b := (s.half h).bri
  let s := s.upd h (updBri (fun b => { b with deadline := 0 }))
  if b.deadlineCause == 4 then (if b.lead && (s.half h.other).bri.lead then conflictDo h s else s) else takeLead h b.deadlineCause s

/-- LEAD_DECISION (R454): the host's answer, which names the request by its time field (R80); one that comes after the deadline is late. -/
def execLeadDecision (h : HalfId) (a : AssistEntry) (s : State) : Out :=
  .next (runAssist h 0x0B09 fnLead a s (fun p s =>
    let late := fun (c : Nat) => assistLate h 0x0B09 a.tag.toNat a.handle a.sequence.toNat a.time.toNat c s
    let epoch : W32 := BitVec.ofNat 32 (afld p 28 4)
    if (s.half h).bri.deadline == 0 || a.time.toNat != (s.half h).bri.deadline then late 1
    else if (s.half h).bri.deadline < s.now h then leadDefault h (late 1)
    else if 1 < afld p 24 1 || afld p 25 3 != 0 || (p.drop 8).any (fun b => b != 0) || !epochBeats h epoch s then late 2
    else assignLead h (halfOf (afld p 24 1)) epoch s))

/-- LEAD_DECISION_DEADLINE (R454, R80): no answer has come. -/
def execLeadDecisionDeadline (h : HalfId) (s : State) : Out :=
  .next (
    let b := (s.half h).bri
    if b.deadline == 0 || s.now h < b.deadline then s
    else leadDefault h (assistLate h 0x0B09 0 0 0 b.deadline 1 s))

/-! The sessions of a lost half (R458). -/

/-- Standby flows of guarded pairs become active after the last sequence number known; active flows that send the lost half's copy take
their own; flows on the lost half's ports lose them. -/
def ownSessions (h : HalfId) (flows : List FlowSeq) (s : State) : State :=
  ((s.half h).obj.flows.map (fun f => flowH h f.index)).foldl (fun s fl =>
    match flowAt h (s.half h) fl with
    | none => s
    | some f =>
      let r := (s.half h).record fl
      if f.path == .standby then
        let s := match flows.find? (fun q => q.flow == flPartner r) with
          | some q => s.upd h (updFlowAt h fl (fun f => { f with reported := some q.lastSent }))
          | none => s
        activate h fl s
      else if flGuarded r && f.copyFrom != h then twinSwitch h fl s
      else if hHalf f.port != h then moveFlow h fl 2 s
      else s) s

/-- Where an unguarded flow of the lost half starts: after the unit of its last acknowledged announcement, or else at the next sequence
number of its mirrored state. -/
def startPoint (f : FlowSt) : FlowSt :=
  match f.acked, f.mirror with
  | some a, some m =>
    { f with nextSeq := a.lastSeq + 1, sentSeq := a.lastSeq, firstMissingCtu := a.lastCtu + 1, picture := a.picture
             pictureOpen := a.lastCtu + 1 < m.cols * m.rows
             lastTick := if a.picture == m.picture then m.lastTick else nextPictureTick m 0 }
  | _, some m => { f with nextSeq := m.nextSeq, sentSeq := m.nextSeq - 1, picture := m.picture, pictureOpen := false, lastTick := m.lastTick }
  | _, none => f

/-- An unguarded flow of the lost half starts on its secondary port in this half, with undercoat (R304, R305). -/
def takeSession (h : HalfId) (f : FlowSt) (s : State) : State :=
  let fl := flowH h.other f.index
  let r := f.copyOf
  let dst := flSecondary r
  if f.path == .secondary then enterUndercoat h fl 2 s
  else if flGuarded r || dst == 0 || hHalf dst != h || f.path != .standby then s
  else if f.mirror.isNone then strand h fl 4 s
  else if !portUp s dst then strand h fl 2 s
  else
    let g := startPoint f
    let s := s.upd h (fun x => updFlowAt h fl (fun _ => { g with
      port := dst, path := .secondary, queue := [], bucket := bucketNew f.bucket.rate f.bucket.burst x.clk.now
      counts := { f.counts with moves := sat32 f.counts.moves } }) x)
    enterUndercoat h fl 2 (movedEvent h fl (flPort r) dst 2 g.nextSeq s)

/-- The unguarded flows of the lost half start. -/
def foreignSessions (h : HalfId) (s : State) : State :=
  (s.half h).obj.foreign.foldl (fun s f => takeSession h f s) (s.upd h (updBri (fun b => { b with takeoverSent := none })))

/-- The partner is lost (R458): lead first, then TAKEOVER, then the sessions. `stopped` holds what HALF_STOPPED said. -/
def partnerGone (h : HalfId) (cause : Nat) (stopped : Option (List FlowSeq)) (s : State) : State :=
  let s := event h 0x0902 sevAlarm 0 (le 4 cause ++ le 8 (s.now h)) s
  let s := leadTrigger h cause s
  let s := if s.sparWorks then emit h .takeover s else s
  let s := ownSessions h (stopped.getD []) s
  if stopped.isSome || !s.sparWorks then foreignSessions h s
  else s.upd h (fun x => updBri (fun b => { b with takeoverSent := some x.clk.now }) x)

/-- PARTNER_TETHER_LOST (R444, R449, R458): only of a tether that has been seen alive. -/
def execPartnerTetherLost (h : HalfId) (s : State) : Out :=
  settled h (
    let x := s.half h
    if !x.alive || !x.bri.partnerSeen || x.bri.partnerLost then s
    else
      let s := s.upd h (updBri (fun b => { b with partnerLost := true, holdoff := false }))
      let s := latchHw 6 h 41 false s
      if x.bri.partnerStopped || x.bri.tetherStopped then s else partnerGone h 1 none s)

/-- PARTNER_ABSENT (R444, R448): no partner tether 2 s after the own one started; a half without lead takes it with epoch 2. -/
def execPartnerAbsent (h : HalfId) (s : State) : Out :=
  settled h (
    let x := s.half h
    if !x.alive || !x.bri.tetherRun || x.bri.partnerSeen || x.bri.partnerAbsent || x.clk.now < x.bri.tetherStart + 2000000000 then s
    else
      let s := latchHw 6 h 41 false (s.upd h (updBri (fun b => { b with partnerAbsent := true })))
      let s := event h 0x0902 sevAlarm 0 (le 4 3 ++ le 8 (s.now h)) s
      if (s.half h).bri.lead || x.bri.tetherStopped then s else leadSet h true 2 6 s)

/-- PARTNER_SEEN_ALIVE (R444): 16 edges of a tether that toggles. -/
def execPartnerSeenAlive (h : HalfId) (s : State) : Out :=
  .next (
    let x := s.half h
    if x.boot.inReset || !(s.half h.other).bri.tetherRun || (x.bri.partnerSeen && !x.bri.partnerLost) then s
    else s.upd h (updBri (fun b => { b with partnerSeen := true, partnerLost := false, partnerAbsent := false, partnerStopped := false })))

/-- HALF_STOPPED_RECEIVED (R449, R458). -/
def execHalfStoppedReceived (h : HalfId) (flows : List FlowSeq) (s : State) : Out :=
  settled h (
    let x := s.half h
    if !x.alive || !s.sparWorks || x.bri.partnerStopped || x.bri.tetherStopped then s
    else
      let s := s.upd h (updBri (fun b => { b with partnerStopped := true }))
      if x.bri.partnerLost then foreignSessions h s else partnerGone h 2 (some flows) s)

/-- TAKEOVER_RECEIVED (R458): media stops at the next packet boundary; STOP_ACK answers, unless HALF_STOPPED has gone out. -/
def execTakeoverReceived (h : HalfId) (s : State) : Out :=
  .next (
    let x := s.half h
    if x.boot.inReset || !s.sparWorks then s
    else
      let s := s.upd h (updBri (fun b => { b with mediaStopped := true }))
      if x.bri.tetherStopped then s else emit h (.stopAck (flowSeqs h x)) s)

/-- STOP_ACK_RECEIVED (R458). A standby flow that has not started yet starts after the numbers it gives. -/
def execStopAckReceived (h : HalfId) (flows : List FlowSeq) (s : State) : Out :=
  settled h (
    let x := s.half h
    if !x.alive || !s.sparWorks || x.bri.takeoverSent.isNone then s else foreignSessions h (ownSessions h flows s))

/-- TAKEOVER_REPLY_TIMEOUT (R458): 2 µs after TAKEOVER. -/
def execTakeoverReplyTimeout (h : HalfId) (s : State) : Out :=
  settled h (
    let x := s.half h
    match x.bri.takeoverSent with
    | some t => if !x.alive || x.clk.now < t + 2000 then s else foreignSessions h s
    | none => s)

/-! The spar link (R21, R449, R459). -/

/-- At the loss of the link: active guarded flows take their own copy, flows on ports of the other half strand, those of the other half
stop, and nothing waits for an announcement. -/
def linkGone (h : HalfId) (s : State) : State :=
  let s := s.upd h (fun x => { x with obj := { x.obj with
    flows := x.obj.flows.map (fun f => { f with queue := f.queue.map (fun p => { p with held := false }) })
    foreign := x.obj.foreign.map (fun f => if f.path == .secondary then { f with path := .standby, queue := [] } else f) } })
  ((s.half h).obj.flows.map (fun f => flowH h f.index)).foldl (fun s fl =>
    match flowAt h (s.half h) fl with
    | none => s
    | some f =>
      if f.path == .standby || f.path == .stopped || f.path == .stranded then s
      else if flGuarded ((s.half h).record fl) && f.copyFrom != h then twinSwitch h fl s
      else if hHalf f.port != h then strand h fl 3 s
      else s) s

/-- What an end of the link has seen on its lanes (R21, R418): flits sent and not acknowledged, by their times, at most the 128 of the replay buffer;
failures of one flit in succession; the last idle message. -/
def laneSees (x : Half) : LaneEvent → Half
  | .sent age => if 128 ≤ x.bri.unacked.length then x
      else count 32 0x10 1 (updBri (fun b => { b with unacked := b.unacked ++ [x.clk.now - age] }) x)
  | .acknowledged => updBri (fun b => { b with unacked := b.unacked.drop 1 }) x
  | .received => count 32 0x11 1 (updBri (fun b => { b with crcRun := 0 }) x)
  | .crcFailed => count 32 0x12 1 (updBri (fun b => { b with crcRun := b.crcRun + 1 }) x)
  | .idle age => count 32 0x13 1 (updBri (fun b => { b with idleAt := max b.idleAt (x.clk.now - age) }) x)

/-- Why an end declares the link down (R21): 1 eight failures of one flit, 2 no acknowledgement for 2 µs, 3 no idle message for 2 µs. -/
def laneFails (x : Half) : Option Nat :=
  if 8 ≤ x.bri.crcRun then some 1
  else if x.bri.unacked.any (fun t => t + 2000 ≤ x.clk.now) then some 2
  else if x.bri.idleAt + 2000 ≤ x.clk.now then some 3
  else none

/-- SPAR_DOWN (R21, R459): what the lanes have shown since the link came up or the last report, and the link's end where that asks for it. -/
def execSparDown (h : HalfId) (events : List LaneEvent) (s : State) : Out :=
  settled h (
    if (s.half h).boot.inReset || !(s.half h).bri.sparUp then s
    else
      let s := s.upd h (fun x => events.foldl laneSees x)
      let x := s.half h
      match laneFails x with
      | none => s
      | some cause =>
        let partner := x.bri.partnerSeen && !x.bri.partnerLost
        let s := s.upd h (fun x => updBri (fun b => { b with
          sparUp := false, downSince := x.clk.now, outages := sat32 b.outages, holdoff := partner, unacked := [], crcRun := 0 })
          { x with obj := { x.obj with decodes := x.obj.decodes.map (fun d => { d with copies := [] }) } })
        let s := latchHw 6 h 30 false s
        let s := event h 0x0903 sevAlarm 0 (le 4 cause ++ le 4 (b2n partner)) s
        let s := linkGone h (ptpSplit h s)
        if x.bri.takeoverSent.isSome then foreignSessions h s else s)

/-- SPAR_DOWN_HOLDOFF_EXPIRY (R449): 3 µs on, with the partner's tether alive, the follower takes lead. -/
def execSparDownHoldoffExpiry (h : HalfId) (s : State) : Out :=
  .next (
    let x := s.half h
    if !x.alive || x.bri.sparUp || !x.bri.holdoff || x.clk.now < x.bri.downSince + 3000 then s
    else
      let s := s.upd h (updBri (fun b => { b with holdoff := false }))
      if x.bri.partnerLost || x.bri.tetherStopped then s else leadTrigger h 3 s)

/-- A flow stranded by the link goes on (R459): on the port it had, or on its secondary port. -/
def flowBack (h : HalfId) (fl : Handle) (s : State) : State :=
  match flowAt h (s.half h) fl with
  | none => s
  | some f =>
    let r := (s.half h).record fl
    let sec := flSecondary r
    if f.path != .stranded then s
    else if portUp s (flPort r) && f.port == flPort r then s.upd h (updFlowAt h fl (fun f => { f with path := .primary }))
    else if sec == 0 || !portUp s sec then s
    else flowTo h fl sec 1 (s.upd h (updFlowAt h fl (fun f => { f with path := .secondary })))

/-- The rejoin of one half's guarded objects (R459): the sources ask for a refresh, partner contexts discard their state, the encode pairs
wait for their twin restart, and the mirrored states go out. -/
def rejoin (h : HalfId) (s : State) : State :=
  let s := ((s.half h).obj.flows.map (fun f => flowH h f.index)).foldl (fun s fl =>
    let r := (s.half h).record fl
    match flowAt h (s.half h) fl with
    | some f => if flSecondary r != 0 && hHalf (flSecondary r) != h then emit h (.mirror fl (mirrorOf h (s.half h) f)) s else s
    | none => s) s
  let s := ((s.half h).obj.flows.map (fun f => flowH h f.index)).foldl (fun s fl => flowBack h fl s) s
  let s := ((s.half h).obj.decodes.map (fun d => d.index)).foldl (fun s c =>
    let r := (s.half h).record (decodeH h c)
    if decPartner r == 0 then s
    else if decInput r != 0 then
      (if decClass r == 0 then requestOnce h (hIndex (decInput r)) ((rd ((s.half h).record (decInput r)) 74 2).testBit 2) s else s)
    else if decFeedRegion r != 0 then s
    else s.upd h (fun x => updDecode c (fun d => { decodeReset r d with available := [], waiting := [], ready := [], copies := [] })
      (redoDecode c x))) s
  s.upd h (fun x => { x with obj := { x.obj with encodes := x.obj.encodes.map (fun e =>
    if esGuarded (x.record (encodeH h e.index)) then
      { e with rejoin := some (x.clk.now + 1000000), twinUsable := false, ownCrcs := [], partnerCrcs := [] } else e) } })

/-- SPAR_UP (R459): this end works again; with both the halves rejoin, and a follower's counter tracks the lead's again (R285). -/
def execSparUp (h : HalfId) (s : State) : Out :=
  settled h (
    let x := s.half h
    if x.boot.inReset || x.bri.sparUp || !s.sparPhys || x.boot.stage != 7 then s
    else
      let s := s.upd h (fun x => updBri (fun b => { b with sparUp := true, holdoff := false, idleAt := x.clk.now }) x)
      let s := event h 0x0904 sevInfo 0 (le 8 (x.clk.now - x.bri.downSince)) s
      if !s.sparWorks then s
      else
        let lead := if s.east.bri.lead then HalfId.east else .west
        let s := if s.east.bri.lead == s.west.bri.lead then s else s.upd lead.other (fun x => { x with clk := (s.half lead).clk })
        rejoin .west (rejoin .east s))

/-- The decode contexts behind an encode stream: the sources of its canvas's layers that are guarded. -/
def guardedSources (h : HalfId) (x : Half) (r : Record) : List DecodeSt :=
  let ls := (ofType x.running 9).filter (fun l => lyCanvas l == (esSource r).toNat)
  x.obj.decodes.filter (fun d => decPartner (x.record (decodeH h d.index)) != 0 &&
    ls.any (fun l => lySource l == (decodeH h d.index).toNat))

/-- The twin restart after the link has returned, once every guarded source has delivered its start point to both halves (R459). -/
def rejoinDue (h : HalfId) (s : State) : State :=
  (s.half h).obj.encodes.foldl (fun s e =>
    match e.rejoin with
    | none => s
    | some t =>
      let r := (s.half h).record (encodeH h e.index)
      let o := s.half h.other
      let other := o.record (BitVec.ofNat 32 (esPartner r))
      let waits := (guardedSources h (s.half h) r ++ guardedSources h.other o other).any (fun d => d.waitStart && d.run == .running)
      if waits || !s.sparWorks then s
      else twinRestartFor h e.index (max t (s.now h)) 3 (s.upd h (updEncode e.index (fun e => { e with rejoin := none })))) s

/-! The idle nanosecond. -/

/-- The sequence reports that go every µs: one for each active guarded flow (R457). -/
def seqReports (h : HalfId) (s : State) : State :=
  let x := s.half h
  if !s.sparWorks || x.clk.now % 1000 != 0 then s
  else x.obj.flows.foldl (fun s f =>
    if flGuarded (x.record (flowH h f.index)) && (f.path == .primary || f.path == .secondary) then
      emit h (.sequenceReport (flowH h f.index) (leftSeq h x f)) s else s) s

/-- What a half does of itself at a nanosecond without a command. -/
def halfIdle (h : HalfId) (s : State) : State :=
  if (s.half h).alive then
    settle h (rejoinDue h (heldChannels h (checkersMeet h (seqReports h ((takeUnknown h (instantOut h s)).upd h (fun x => (List.range 36).foldl clockCounts (markIdle h x)))))))
  else s

/-- A nanosecond without a command (log 1). -/
def idleStep (s : State) : State := halfIdle .west (halfIdle .east (deviceTick s))

end Sys2Proof.Machine
end

