-- ==== Sys2Proof/Machine/Streams.lean ====
section
/-!
DEFINITION. Streams.lean: starting, stopping and draining objects (R573 to R576, R77), what waits for its time in a half (R49, R50), and the
changes the partner forwards (R186, R227, R576).
-/
namespace Sys2Proof.Machine

/-! Targets and boundaries (R70, R573, R574). Actions: 0 start, 1 stop, 2 drain. -/

/-- The objects that a run command acts on: every rung of a ladder, else the object itself. -/
def runTargets (x : Half) (obj : Handle) : List Handle :=
  if hType obj == 6 then (rungsOf x.running (x.record obj)).map recHandle else [obj]

/-- The run state of an object that a run command acts on. -/
def runState (x : Half) (obj : Handle) : RunState :=
  if hType obj == 2 then (match x.obj.flow? (hIndex obj) with | some f => f.run | none => .stopped)
  else (runOf x obj).getD .stopped

/-- The partner of a guarded stream, canvas or flow. -/
def runPartner (x : Half) (obj : Handle) : Handle :=
  let r := x.record obj
  match hType obj with
  | 5 => BitVec.ofNat 32 (esPartner r)
  | 8 => BitVec.ofNat 32 (rd r 52 4)
  | 2 => flPartner r
  | _ => 0

/-- The object is guarded, so that its run changes go to both halves (R576). -/
def runGuarded (x : Half) (obj : Handle) : Bool := runPartner x obj != 0

/-- The stream behind an object's picture times: a flow's stream, else the object. -/
def pacedBy (x : Half) (obj : Handle) : Handle := if hType obj == 2 then flStream (x.record obj) else obj

/-- The times of the pictures that a context holds. -/
def contextTimes (d : DecodeSt) : List Nat :=
  d.ready.map (fun a => a.presentation) ++ d.inProgress.toList.map (fun a => a.presentation) ++ d.waiting.map (fun p => p.presentation)

/-- The first picture boundary of an object at or after a time (R70): a tick, or for a context the earliest presentation time it knows of,
the time itself where it knows none. -/
def boundaryFrom (x : Half) (obj : Handle) (t : Nat) : Nat :=
  let o := pacedBy x obj
  let r := x.record o
  match hType o with
  | 5 => match x.obj.encode? (hIndex o) with
    | some e => esTick x.running r (pictureFrom x.running r e t)
    | none => t
  | 8 => match x.obj.canvas? (hIndex o) with
    | some c => cvTick r (max c.nextTick (firstTickFrom (cvAnchor r) (cvNum r) (cvDen r) t))
    | none => t
  | 4 => match x.obj.decode? (hIndex o) with
    | some d => ((sortBy (fun a b => a < b) ((contextTimes d).filter (fun q => t ≤ q))).head?).getD t
    | none => t
  | _ => t

/-- The first boundary of several objects: the earliest. -/
def boundaryAll (x : Half) (objs : List Handle) (t : Nat) : Nat :=
  match objs with
  | [] => t
  | o :: os => os.foldl (fun m q => min m (boundaryFrom x q t)) (boundaryFrom x o t)

/-- The picture that a stop affects first: the one in hand, else that of the next boundary. -/
def stopBoundary (x : Half) (obj : Handle) : Nat :=
  let next := boundaryFrom x obj (x.clk.now + 1)
  match hType obj with
  | 5 => match x.obj.encode? (hIndex obj) with
    | some e => match e.plan, e.ready.head? with
      | some p, _ => p.tickTime
      | none, some p => p.tickTime
      | none, none => next
    | none => next
  | 4 => match x.obj.decode? (hIndex obj) with
    | some d => match d.inProgress with
      | some a => a.presentation
      | none => next
    | none => next
  | 2 => match x.obj.flow? (hIndex obj) with
    | some f => if f.pictureOpen then f.lastTick else next
    | none => next
  | _ => next

/-! Starting (R574). -/

/-- An encode stream starts with an IDR picture at its first tick at or after a time; flows that stopped with it go on from there. -/
def startEncode (h : HalfId) (obj : Handle) (base : Nat) (s : State) : State :=
  let i := hIndex obj
  let x := s.half h
  match x.obj.encode? i with
  | none => s
  | some e =>
    let r := x.record obj
    let k := pictureFrom x.running r e base
    let t := esTick x.running r k
    let s := s.upd h (updEncode i (fun e => { e with
      run := .running, drainAt := 0, holdAt := none, nextTick := k, pendingAll := true, firstPicture := true, restartAt := none
      freshRates := true, twinUsable := true, ownCrcs := [], partnerCrcs := [] }))
    (flowsOf h (s.half h) obj).foldl (fun s fl => s.upd h (updFlowAt h fl (fun f =>
      if f.path == .stopped && f.run == .running then { f with resumeAt := some t } else f))) s

/-- A context decodes again from a start point; a LIVE stream fed from an INPUT asks for one. -/
def startDecode (h : HalfId) (obj : Handle) (s : State) : State :=
  let c := hIndex obj
  let r := (s.half h).record obj
  let s := s.upd h (updDecode c (fun d => { decodeReset r d with run := .running, drainAt := 0 }))
  if decClass r == 0 && decInput r != 0 then
    requestOnce h (hIndex (decInput r)) ((rd ((s.half h).record (decInput r)) 74 2).testBit 2) s
  else s

/-- A canvas recomposes every tile from its first tick at or after a time. -/
def startCanvas (obj : Handle) (base : Nat) (x : Half) : Half :=
  updCanvas (hIndex obj) (fun c => { c with run := .running, drainAt := 0, allDirty := true, resumeAt := boundaryFrom x obj base }) x

/-- A flow goes on with an IDR picture that it asks its stream for. -/
def startFlow (h : HalfId) (obj : Handle) (base : Nat) (s : State) : State :=
  let t := boundaryFrom (s.half h) obj base
  let stream := flStream ((s.half h).record obj)
  s.upd h (fun x => addRefresh (hIndex stream) 1 1 t (updFlow (hIndex obj) (fun f => { f with
    run := .running, drainAt := 0, resumeAt := some t }) x))

/-- A stopped object starts; pictures from its first boundary at or after `base` on are its own. -/
def startObject (h : HalfId) (base : Nat) (obj : Handle) (s : State) : State :=
  match hType obj with
  | 4 => startDecode h obj s
  | 5 => startEncode h obj base s
  | 8 => s.upd h (startCanvas obj base)
  | 2 => startFlow h obj base s
  | _ => s

/-! Stopping (R574). -/

/-- A flow whose stream stops: its part-sent picture is finished, then it enters undercoat, or sends BYE and stops. -/
def streamStops (h : HalfId) (fl : Handle) (s : State) : State :=
  match flowAt h (s.half h) fl with
  | none => s
  | some f =>
    if f.path == .standby || f.path == .stopped || f.path == .stranded then s
    else if flFlag ((s.half h).record fl) 3 then enterUndercoat h fl 3 s
    else
      let s := emit h (.bye fl) (finishOpen h fl s)
      s.upd h (updFlowAt h fl (fun f => { f with path := .stopped, resumeAt := none }))

/-- An encode stream stops; a restart to come is off. -/
def stopEncode (h : HalfId) (obj : Handle) (s : State) : State :=
  let i := hIndex obj
  let s := s.upd h (fun x => updEncode i (fun e => { e with run := .stopped, drainAt := 0, restartAt := none, rejoin := none }) (dropPicture h i x))
  (flowsOf h (s.half h) obj).foldl (fun s fl => streamStops h fl s) s

/-- The picture presented last among several. -/
def lastShown (l : List DecodedPic) : List DecodedPic :=
  (l.foldl (fun (m : Option DecodedPic) p => match m with
    | some q => if q.presentation ≤ p.presentation then some p else some q
    | none => some p) none).toList

/-- A context stops and discards its state; its last available picture stays. Access units of a fed context wait in its ring. -/
def stopDecode (obj : Handle) (x : Half) : Half :=
  let c := hIndex obj
  let fed := decFeedRegion (x.record obj) != 0
  let x := { x with dec := x.dec.map (fun g => { g with
    current := if g.current == some c then none else g.current, suspended := g.suspended.filter (fun k => k != c) }) }
  updDecode c (fun d => { d with
    run := .stopped, drainAt := 0, inProgress := none, ready := if fed then d.ready else [], waiting := [], available := lastShown (d.available.filter (fun p => !p.passed))
    refs := [], sets := [], active := none, latest := [], firstField := none, copies := [], waitStart := true }) x

/-- No band of a job has started. -/
def jobWaits (j : Job) : Bool := j.bandsWaiting == j.pipes && j.bandsLeft == j.pipes

/-- A canvas stops: jobs that have not started are dropped, and the readers get a repeat picture for their ticks. -/
def stopCanvas (h : HalfId) (obj : Handle) (s : State) : State :=
  let i := hIndex obj
  let dropped := match (s.half h).obj.canvas? i with | some c => c.jobs.filter jobWaits | none => []
  let s := s.upd h (updCanvas i (fun c => { c with run := .stopped, drainAt := 0, jobs := c.jobs.filter (fun j => !jobWaits j) }))
  dropped.foldl (fun s j => repeatPicture h i j.tick j.tickTime s) s

/-- A flow stops: its part-sent picture is finished, BYE goes out, and everything else it holds is dropped and its numbers taken back. -/
def stopFlow (h : HalfId) (obj : Handle) (s : State) : State :=
  match flowAt h (s.half h) obj with
  | none => s
  | some f0 =>
    let sends := f0.path != .standby && f0.path != .stranded && f0.path != .stopped
    let openSent := f0.pictureOpen && (f0.queue.head?.all (fun p => p.picture == f0.picture)) && f0.midPicture
    let s := if sends && openSent then finishOpen h obj s else s
    let s := if sends then emit h (.bye obj) s else s
    s.upd h (updFlowAt h obj (fun f =>
      let keep := if sends && f.midPicture then f.queue.takeWhile (fun p => some p.picture == f.queue.head?.map (fun q => q.picture)) else []
      { f with run := .stopped, drainAt := 0, path := .stopped, resumeAt := none, pictureOpen := false, queue := keep, copies := []
               nextSeq := f.sentSeq + 1 + BitVec.ofNat 16 keep.length }))

/-- An object stops. -/
def stopObject (h : HalfId) (obj : Handle) (s : State) : State :=
  match hType obj with
  | 4 => s.upd h (stopDecode obj)
  | 5 => stopEncode h obj s
  | 8 => stopCanvas h obj s
  | 2 => stopFlow h obj s
  | _ => s

/-! Draining (R574). -/

/-- An object begins to drain: pictures from a boundary on are not its own. -/
def drainObject (t : Nat) (obj : Handle) (x : Half) : Half :=
  let i := hIndex obj
  match hType obj with
  | 4 => updDecode i (fun d => { d with run := .draining, drainAt := t }) x
  | 5 => updEncode i (fun e => { e with run := .draining, drainAt := t }) x
  | 8 => updCanvas i (fun c => { c with run := .draining, drainAt := t }) x
  | 2 => updFlow i (fun f => { f with run := .draining, drainAt := t }) x
  | _ => x

/-- Where a draining object's drain ends. -/
def drainEnd (x : Half) (obj : Handle) : Nat :=
  let i := hIndex obj
  match hType obj with
  | 4 => ((x.obj.decode? i).map (fun d => d.drainAt)).getD 0
  | 5 => ((x.obj.encode? i).map (fun d => d.drainAt)).getD 0
  | 8 => ((x.obj.canvas? i).map (fun d => d.drainAt)).getD 0
  | 2 => ((x.obj.flow? i).map (fun d => d.drainAt)).getD 0
  | _ => 0

/-- A draining object has come to the end of its drain, with its current picture complete. -/
def drained (x : Half) (obj : Handle) : Bool :=
  let i := hIndex obj
  let d := drainEnd x obj
  let src := esSource (x.record obj)
  decide (d ≤ x.clk.now) &&
  (match hType obj with
   | 4 => (x.obj.decode? i).all (fun q => q.inProgress.isNone && q.ready.all (fun a => d ≤ a.presentation) && q.waiting.isEmpty)
   | 5 => (x.obj.encode? i).all (fun q => q.plan.isNone && q.ready.isEmpty) &&
       (hType src != 8 || (x.obj.canvas? (hIndex src)).all (fun c => c.jobs.all (fun j => d ≤ j.tickTime)))
   | 8 => (x.obj.canvas? i).all (fun c => c.jobs.all (fun j => d ≤ j.tickTime))
   | 2 => (x.obj.flow? i).all (fun f => !f.pictureOpen && (!f.midPicture || f.queue.isEmpty))
   | _ => true)

/-! Run commands (R575). -/

/-- The outcome byte that an action finds on an object: 0 applied, 1 no effect, 2 halted, 3 shed. -/
def runOutcome (x : Half) (action : Nat) (obj : Handle) : Nat :=
  match runState x obj, action with
  | .shed, _ => 3
  | .halted, 0 => 2
  | .halted, _ => 0
  | .running, 0 => 1
  | .stopped, 0 => 0
  | .draining, 0 => 0
  | .stopped, _ => 1
  | .draining, 2 => 1
  | _, _ => 0

/-- The outcome of a command on several objects: applied where one takes it. -/
def runOutcomes (x : Half) (action : Nat) (objs : List Handle) : Nat :=
  let l := objs.map (runOutcome x action)
  if l.contains 0 then 0 else l.headD 1

/-- The waiting drains of an object end, which a stop has overtaken. -/
def endDrains (h : HalfId) (obj : Handle) (s : State) : State :=
  let mine := fun (d : Deferred) => d.opcode == 0x0403 && d.entry.handle == obj && !d.fwd
  let ds := (s.half h).env.deferred.filter mine
  ds.foldl (fun s d => deferredEnd h d stOk 0 s)
    (s.upd h (updEnv (fun v => { v with deferred := v.deferred.filter (fun d => !(d.opcode == 0x0403 && d.entry.handle == obj)) })))

/-- Two commands act on one object: a ladder's on every rung (R573). -/
def runsMeet (x : Half) (a b : Handle) : Bool := (runTargets x a).any (fun o => (runTargets x b).contains o)

/-- A stop or drain cancels a start that waits for one of its objects (R77). -/
def cancelStarts (h : HalfId) (obj : Handle) (s : State) : State :=
  let meets := fun (d : Deferred) => runsMeet (s.half h) d.entry.handle obj
  let ds := (s.half h).env.waitingStarts.filter meets
  ds.foldl (fun s d => deferredEnd h d stBusyDraining 2 s)
    (s.upd h (updEnv (fun v => { v with waitingStarts := v.waitingStarts.filter (fun d => !meets d) })))

/-- An action takes effect on one object now; a stop or drain of a halted object leaves it stopped (R575). -/
def runDo (h : HalfId) (action base : Nat) (obj : Handle) (s : State) : State :=
  let x := s.half h
  if runOutcome x action obj != 0 then s
  else match action with
    | 0 => startObject h base obj s
    | 1 => stopObject h obj s
    | _ => if runState x obj == .halted then stopObject h obj s else s.upd h (drainObject (boundaryFrom x obj (x.clk.now + 1)) obj)

def streamStartSpec : OpSpec := { opcode := 0x0401, handle := .types [2, 4, 5, 6, 8], minLen := 0, atTime := true }
def streamStopSpec : OpSpec := { opcode := 0x0402, handle := .types [2, 4, 5, 6, 8], minLen := 0, atTime := true }
def streamDrainSpec : OpSpec := { opcode := 0x0403, handle := .types [2, 4, 5, 6, 8], minLen := 0, atTime := true }

/-- The stream is rung 0 of a ladder (R573). -/
def isRungZero (x : Half) (obj : Handle) : Bool :=
  hType obj == 5 && (ofType x.running 6).any (fun l => rd l 20 4 == obj.toNat)

/-- The common picture of a guarded object (R227, R576). -/
def commonPicture (x : Half) (obj : Handle) (e : CmdEntry) : Nat :=
  boundaryFrom x obj (max x.clk.now ((entryTime e).getD 0) + 1000000)

/-- The result of a run command. -/
def runResult (t outcome : Nat) : List Byte := le 8 t ++ le 1 outcome

/-- A run command waits for a boundary; guarded objects are forwarded to the partner (R575, R576). -/
def runLater (h : HalfId) (op action : Nat) (e : CmdEntry) (t : Nat) (s : State) : State :=
  let s := (runTargets (s.half h) e.handle).foldl (fun s o =>
    if runGuarded (s.half h) o then emit h (.forward (.run (runPartner (s.half h) o) action t)) s else s) s
  addDeferred h op e t s

/-- The body of the three run commands. -/
def runBody (h : HalfId) (op action : Nat) (e : CmdEntry) (s : State) : Reply :=
  let x := s.half h
  let objs := runTargets x e.handle
  let guards := objs.any (runGuarded x)
  let out := runOutcomes x action objs
  let starting := action == 0
  let drains := objs.any (fun o => runState x o == .draining)
  guarded [failIf (!starting && isRungZero x e.handle) { status := stBadField, step := 5 }, checkReserved e [],
    checkRunning x e.handle,
    failIf (starting && drains && x.env.waitingStarts.any (fun d => runsMeet x d.entry.handle e.handle)) { status := stBusyDraining, step := 8 },
    failIf (guards && !s.sparWorks) { status := stNoResource, step := 9 },
    failIf (starting && out == 2) { status := stNoResource, step := 9, detail := le 4 0 ++ le 1 2 },
    failIf (starting && out == 3) { status := stAdmission, step := 9, detail := le 4 0 ++ le 1 3 }, checkTime e x.clk.now] s (fun s =>
    let s := if starting then s else cancelStarts h e.handle s
    let x := s.half h
    if guards then
      let t := boundaryAll x objs (max x.clk.now ((entryTime e).getD 0) + 1000000)
      if starting && drains then
        .later (runResult t 0) (s.upd h (updEnv (fun v => { v with waitingStarts := v.waitingStarts ++ [{ opcode := op, entry := e, due := t }] })))
      else .later (runResult t out) (runLater h op action e t s)
    else if isAtTime e then
      let t := boundaryAll x objs (atTimeOf e)
      let first := if starting then boundaryAll x objs (t + 1000000) else t
      .later (runResult first out) (addDeferred h op e (if hType e.handle == 4 then atTimeOf e else t) s)
    else if starting then
      let first := boundaryAll x objs (x.clk.now + 1000000)
      if drains then
        .later (runResult first 0) (s.upd h (updEnv (fun v => { v with
          waitingStarts := v.waitingStarts ++ [{ opcode := op, entry := e, due := x.clk.now }] })))
      else .ok (runResult first out) (objs.foldl (fun s o => runDo h 0 (x.clk.now + 1000000) o s) s)
    else if action == 1 || objs.all (fun o => runState x o != .running) then
      let first := match objs with | [] => x.clk.now | o :: os => os.foldl (fun m q => min m (stopBoundary x q)) (stopBoundary x o)
      let s := if action == 1 then endDrains h e.handle s else s
      .ok (runResult first out) (objs.foldl (fun s o => runDo h action 0 o s) s)
    else
      let s := objs.foldl (fun s o => runDo h 2 0 o s) s
      let t := boundaryAll x objs (x.clk.now + 1)
      .later (runResult t out) (addDeferred h op e t s))

/-- STREAM_START (R573 to R576). -/
def execStreamStart (h : HalfId) (e : CmdEntry) (s : State) : Out :=
  .next (runCmd h streamStartSpec e none s (fun s => runBody h 0x0401 0 e s))

/-- STREAM_STOP (R573 to R576). -/
def execStreamStop (h : HalfId) (e : CmdEntry) (s : State) : Out :=
  .next (runCmd h streamStopSpec e none s (fun s => runBody h 0x0402 1 e s))

/-- STREAM_DRAIN (R573 to R576). -/
def execStreamDrain (h : HalfId) (e : CmdEntry) (s : State) : Out :=
  .next (runCmd h streamDrainSpec e none s (fun s => runBody h 0x0403 2 e s))

/-! Deferred commands (R49, R50, R576). -/

/-- A deferred command ends: it leaves the list, and DEFERRED_DONE reports it unless the partner forwarded it. -/
def deferredOut (h : HalfId) (d : Deferred) (status flags : Nat) (s : State) : State :=
  let s := s.upd h (updEnv (fun v => { v with deferred := v.deferred.erase d }))
  if d.fwd then s else deferredEnd h d status flags s

/-- The status with which a deferred run command ends. -/
def lateStatus (out action : Nat) : Nat :=
  if action != 0 then stOk else if out == 2 then stNoResource else if out == 3 then stAdmission else stOk

/-- A deferred run command comes to its boundary. A drain that has not begun begins, and ends at the next boundary after; a start of an
object that still drains waits for its end. -/
def runDue (h : HalfId) (d : Deferred) (action : Nat) (s : State) : State :=
  let x := s.half h
  let objs := runTargets x d.entry.handle
  let ending := action == 2 && objs.any (fun o => runState x o == .draining)
  if (recOf x.running d.entry.handle).isNone then deferredOut h d stNotCommitted 2 s
  else if ending then
    if objs.all (fun o => runState x o != .draining || drained x o) then
      deferredOut h d stOk 0 (objs.foldl (fun s o => if runState x o == .draining then stopObject h o s else s) s)
    else s
  else if action == 0 && objs.any (fun o => runState x o == .draining) then
    if d.fwd then s
    else s.upd h (updEnv (fun v => { v with deferred := v.deferred.erase d, waitingStarts := v.waitingStarts ++ [d] }))
  else
    let out := runOutcomes x action objs
    let base := if objs.any (runGuarded x) then d.due else x.clk.now + 1000000
    let s := objs.foldl (fun s o => runDo h action base o s) s
    if action == 2 && objs.any (fun o => runState (s.half h) o == .draining) then
      let due := maxOf (objs.map (drainEnd (s.half h)))
      let later := fun (q : Deferred) => { q with due := due }
      s.upd h (updEnv (fun v => { v with deferred := mapWhere (fun q => q == d) later v.deferred }))
    else
      let s := if action == 1 then endDrains h d.entry.handle s else s
      deferredOut h d (lateStatus out action) 0 s

/-- Of two changes of a pair for one picture, the one that the follower received goes first (R576). -/
def deferredHeld (x : Half) (d : Deferred) : Bool :=
  x.env.deferred.any (fun q => q.entry.handle == d.entry.handle && q.due == d.due && q.fwd != d.fwd && q.fwd == x.bri.lead)

/-- A run command on a context that decodes waits, from its time on, for the first presentation time at or after that time (R50, R70): the
context has reached none yet. -/
def contextWaits (x : Half) (d : Deferred) : Bool :=
  hType d.entry.handle == 4 && runState x d.entry.handle == .running &&
  (x.obj.decode? (hIndex d.entry.handle)).any (fun c =>
    !(contextTimes c ++ c.available.map (fun p => p.presentation)).any (fun p => d.due ≤ p && p ≤ x.clk.now))

/-- AT_TIME_EXECUTION (R49, R50): a deferred command comes to its time. -/
def execAtTimeExecution (h : HalfId) (index : Nat) (s : State) : Out :=
  settled h (
    let x := s.half h
    match x.env.deferred[index]? with
    | none => s
    | some d =>
      if !x.alive || x.clk.now < d.due || deferredHeld x d || contextWaits x d then s
      else match d.opcode with
        | 0x0401 => runDue h d 0 s
        | 0x0402 => runDue h d 1 s
        | 0x0403 => runDue h d 2 s
        | 0x0520 => deferredOut h d stOk 0 (shaperSetDo h d.entry s)
        | 0x0612 =>
          let bytes := diagBytes x d.entry.handle (fld d.entry 20 1) (fld d.entry 16 4) d.due
          deferredOut h d stOk 0 (hostWrite (fld d.entry 24 8) bytes s)
        | _ => deferredOut h d stOk 0 s)

/-- WAITING_START_EXECUTION (R77): the start runs once the drain has ended; of a guarded object at a common picture. -/
def execWaitingStartExecution (h : HalfId) (object : Handle) (s : State) : Out :=
  .next (
    let x := s.half h
    match x.env.waitingStarts.find? (fun d => d.entry.handle == object) with
    | none => s
    | some d =>
      let objs := runTargets x object
      if !x.alive || objs.any (fun o => runState x o == .draining) then s
      else
        let s := s.upd h (updEnv (fun v => { v with waitingStarts := v.waitingStarts.erase d }))
        if objs.any (runGuarded x) then
          if s.sparWorks then runLater h d.opcode 0 d.entry (boundaryAll x objs (x.clk.now + 1000000)) s
          else deferredEnd h d stNoResource 0 s
        else
          let out := runOutcomes x 0 objs
          deferredEnd h d (lateStatus out 0) 0 (objs.foldl (fun s o => runDo h 0 (x.clk.now + 1000000) o s) s))

/-! Changes that the partner forwards (R186, R188, R227, R576). -/

/-- A forwarded change takes its place on this half; `execSparForwardedCommand` checks the link. -/
def forwardedDo (h : HalfId) (c : Forwarded) (s : State) : State :=
  match c with
  | .encodeRefresh stream kind tick => s.upd h (addRefresh (hIndex stream) kind 1 tick)
  | .encodeRate stream payload tick => s.upd h (fun x => updEncode (hIndex stream) (fun e =>
      let r := x.record stream
      let now := e.rateWait.foldl (fun q w => rateApply r w.payload q) e.rate
      let w : RateChange := { tick := tick, payload := payload, idr := rateForcesIdr r now (rateApply r payload now), fwd := true }
      { e with rateWait := e.rateWait ++ [w] }) x)
  | .feedback stream tick => s.upd h (addRefresh (hIndex stream) 1 2 tick)
  | .run object action tick =>
    let d : Deferred := { opcode := 0x0401 + action, entry := { handle := object }, due := tick, fwd := true }
    let s := if action == 0 then s else cancelStarts h object s
    s.upd h (updEnv (fun v => { v with deferred := v.deferred ++ [d] }))
  | .cueArm group sequence switchTime scene =>
    s.upd h (cueArmHalf h { group := group, sequence := sequence, switchTime := switchTime, scene := scene, partnerArmed := true })
  | .cueCancel group switchTime => s.upd h (cueCancelHalf group switchTime)

/-- SPAR_FORWARDED_COMMAND (R186, R227, R576). -/
def execSparForwardedCommand (h : HalfId) (c : Forwarded) (s : State) : Out :=
  .next (if !(s.half h).alive || !s.sparWorks then s else forwardedDo h c s)

end Sys2Proof.Machine
end

