-- ==== Sys2Proof/Machine/Queries.lean ====
section
/-!
DEFINITION. Queries.lean: the query commands 0x0301 to 0x030F (R571, R572). A query answers a host buffer of 32 header bytes and a body;
with flag bit 0 it clears the marks it has read.
-/
namespace Sys2Proof.Machine

/-- What a query answers: its entry count and its body. -/
structure QueryBody where
  entries : Nat := 1
  body : List Byte := []
  deriving DecidableEq, Repr

/-- The header and body of R571. -/
def queryBytes (op : Nat) (e : CmdEntry) (now : Nat) (q : QueryBody) : List Byte :=
  le 4 e.handle.toNat ++ le 2 op ++ le 2 q.entries ++ le 8 now ++ le 4 q.body.length ++ le 4 (fld e 32 4) ++ List.replicate 8 0 ++ q.body

/-- The body bytes of a query about an object (R572), whether or not the object is there: the buffer is judged at step 3, the object
at step 8. -/
def objectBodyLen (op : Nat) : Nat :=
  match op with
  | 0x0301 => 24
  | 0x0302 => 68
  | 0x0303 => 36
  | 0x0304 => 108
  | 0x0306 => 92
  | 0x0307 => 96
  | 0x0309 => 44
  | 0x030E => 52
  | _ => 0

/-- The row of a query; its buffer holds the whole output. -/
def querySpec (op : Nat) (rule : HandleRule) (q : Option QueryBody) : OpSpec :=
  { opcode := op, handle := rule, minLen := 20, bufAt := 24,
    bufNeed := 32 + (match q with | some b => b.body.length | none => objectBodyLen op), bufTell := true }

/-- The type of a unit handle. -/
def unitKindOf (unit : Handle) : UnitKind :=
  match hType unit with
  | 0x20 => .enc
  | 0x21 => .dec
  | 0x22 => .cmp
  | 0x23 => .dch
  | _ => .net

/-- A unit or channel handle that names nothing of this half. -/
def notHere (h : HalfId) (op : Nat) (x : Half) (obj : Handle) : Bool :=
  (hHalf obj != h && (op == 0x0308 || 0x20 ≤ hType obj)) || (0x20 ≤ hType obj && (unitFlags x (unitKindOf obj)).length ≤ hIndex obj)

/-- A query: `body` is none for an object absent from the running envelope, `top` the highest selector, `clear` zeroes the marks. -/
def runQuery (h : HalfId) (op : Nat) (rule : HandleRule) (top : Nat) (e : CmdEntry) (b : BusResult) (body : State → Option QueryBody)
    (clear : State → State) (s : State) : State :=
  runCmd h (querySpec op rule (body s)) e none s (fun s =>
    guarded [failIf (notHere h op (s.half h) e.handle) { status := stBadField, step := 5 }, bad6 (1 < fld e 28 4) 28, bad6 (top < fld e 32 4) 32, checkReserved e [(16, 20)],
      failIf (body s).isNone { status := stNotCommitted, step := 8 }] s (fun s =>
      match body s with
      | none => .ok [] s
      | some q =>
        let bytes := queryBytes op e (s.now h) q
        replyBuffer h (fld e 16 8) bytes b (le 4 bytes.length) (if (fld e 28 4).testBit 0 then clear else id) s))

/-- Fields of 4 bytes. -/
def words (l : List Nat) : List Byte := l.flatMap (le 4)

/-- Fields of 8 bytes. -/
def longs (l : List Nat) : List Byte := l.flatMap (le 8)

/-! Objects and units (QUERY_OBJECT). -/

/-- The state code of an object. -/
def stateCode (x : Half) (obj : Handle) : Nat :=
  if x.env.waitingStarts.any (fun d => d.entry.handle == obj) then 3
  else match runState x obj with
    | .stopped => 0
    | .running => 1
    | .draining => 2
    | .halted => 4
    | .shed => 5

/-- The object whose state a ladder or gang shows: its first stream. -/
def shownBy (x : Half) (obj : Handle) : Handle :=
  if hType obj == 6 || hType obj == 7 then BitVec.ofNat 32 (rd (x.record obj) 20 4) else obj

/-- The units an object is placed on, its load, and the time of its last picture. -/
def objectPlace (x : Half) (obj : Handle) : List Nat × Nat × Nat :=
  let i := hIndex obj
  match hType obj with
  | 4 => match x.obj.decode? i with
    | some d => (d.engines.map (fun k => (mkHandle 0x21 (hHalf obj) k).toNat), d.load, d.lastTime)
    | none => ([], 0, 0)
  | 5 => match x.obj.encode? i with
    | some d => (d.engines.map (fun k => (mkHandle 0x20 (hHalf obj) k).toNat), d.load, d.lastTime)
    | none => ([], 0, 0)
  | 8 => match x.obj.canvas? i with
    | some d => (d.pipes.map (fun k => (mkHandle 0x22 (hHalf obj) k).toNat), d.load, d.lastTickTime)
    | none => ([], 0, 0)
  | 2 => match x.obj.flow? i with
    | some f => ([], 0, f.lastTick)
    | none => ([], 0, 0)
  | _ => ([], 0, 0)

/-- The types of objects that have a run state. -/
def runs (obj : Handle) : Bool := [2, 4, 5, 6, 7, 8].contains (hType obj)

/-- The answer for an object. -/
def objectBody (x : Half) (obj : Handle) : List Byte :=
  let o := shownBy x obj
  let p := objectPlace x o
  words [if runs o then stateCode x o else 1, p.1.getD 0 0, p.1.getD 1 0, p.2.1] ++ le 8 p.2.2

/-- The contexts of a unit, in handle order. -/
def unitContexts (h : HalfId) (x : Half) (unit : Handle) : List Handle :=
  let i := hIndex unit
  match hType unit with
  | 0x20 => (x.obj.encodes.filter (fun e => e.engines.contains i)).map (fun e => encodeH h e.index)
  | 0x21 => (x.obj.decodes.filter (fun d => d.engines.contains i)).map (fun d => decodeH h d.index)
  | 0x22 => (x.obj.canvases.filter (fun c => c.pipes.contains i)).map (fun c => canvasH h c.index)
  | _ => []

/-- The tier-1 load and the declared charge of a unit, in 10⁻⁶: of an encode engine as R239 sums them; any other unit has no charge. -/
def unitLoads (h : HalfId) (x : Half) (unit : Handle) : Nat × Nat :=
  let i := hIndex unit
  match hType unit with
  | 0x20 =>
    let start : Places (List EncBin) := { bins := [{ unit := i }] }
    let p := x.obj.encodes.foldl (fun q e =>
      if e.engines.contains i then encPut x.running (x.record (encodeH h e.index)) e.engines q else q) start
    match p.bins.head? with
    | some b => (micro b.tier1, micro b.charge)
    | none => (0, 0)
  | 0x21 => (total ((x.obj.decodes.filter (fun d => d.engines.contains i)).map (fun d => d.load)), 0)
  | 0x22 => (total ((x.obj.canvases.filter (fun c => c.pipes.contains i)).map (fun c => c.load)), 0)
  | _ => (0, 0)

/-- The bits of UNIT_STATE of one unit: in service, quiescing, retired, frozen. -/
def unitBits (x : Half) (unit : Handle) : Nat :=
  let w := unitState x (unitKindOf unit)
  let i := hIndex unit
  packBits [w.testBit i, w.testBit (8 + i), w.testBit (16 + i), w.testBit (24 + i)]

/-- The answer for a unit. -/
def unitBody (h : HalfId) (x : Half) (unit : Handle) : QueryBody :=
  let cs := unitContexts h x unit
  let l := unitLoads h x unit
  { entries := max 1 cs.length, body := words [unitBits x unit, cs.length, l.1, l.2] ++ words (cs.map (fun c => c.toNat)) }

/-- QUERY_OBJECT: none for an object or unit that is not there. -/
def queryObjectBody (h : HalfId) (e : CmdEntry) (s : State) : Option QueryBody :=
  let x := s.half h
  if 0x20 ≤ hType e.handle then
    some (unitBody h x e.handle)
  else if (recOf x.running e.handle).isNone then none
  else some { body := objectBody x e.handle }

/-- QUERY_OBJECT (R572). -/
def execQueryObject (h : HalfId) (e : CmdEntry) (b : BusResult) (s : State) : Out :=
  .next (runQuery h 0x0301 (.types ((List.range 18).map (· + 1) ++ [0x20, 0x21, 0x22, 0x23, 0x24])) 0 e b (queryObjectBody h e) id s)

/-! Streams (QUERY_DECODE, QUERY_INPUT, QUERY_ENCODE, QUERY_SURGE). -/

/-- An answer about an object of the running envelope. -/
def ofObject {α : Type} (x : Half) (obj : Handle) (o : Option α) (f : α → QueryBody) : Option QueryBody :=
  if (recOf x.running obj).isNone then none else o.map f

def queryDecodeBody (h : HalfId) (e : CmdEntry) (s : State) : Option QueryBody :=
  let x := s.half h
  ofObject x e.handle (x.obj.decode? (hIndex e.handle)) (fun d =>
    { body := words (d.damage ++ [d.late, d.dropped, b2n d.reliable]) })

/-- QUERY_DECODE (R572). -/
def execQueryDecode (h : HalfId) (e : CmdEntry) (b : BusResult) (s : State) : Out :=
  .next (runQuery h 0x0302 (.types [4]) 0 e b (queryDecodeBody h e) id s)

def queryInputBody (h : HalfId) (e : CmdEntry) (s : State) : Option QueryBody :=
  let x := s.half h
  ofObject x e.handle (x.obj.input? (hIndex e.handle)) (fun n =>
    let c := n.counts
    { body := words [c.accepted, c.late, c.duplicate, c.overflow, c.structureDrops, c.gaps, c.rebases, c.reports, b2n n.mappedFrom.isSome] })

/-- QUERY_INPUT (R572). -/
def execQueryInput (h : HalfId) (e : CmdEntry) (b : BusResult) (s : State) : Out :=
  .next (runQuery h 0x0303 (.types [3]) 0 e b (queryInputBody h e) id s)

/-- The runtime values of R269 in their payload layout. -/
def rateBytes (q : RateSt) : List Byte :=
  pad 24 (words [q.bitRate, q.peakRate, q.bufferKbit] ++ le 1 q.qpFloor ++ le 1 q.qpCeiling ++ le 1 q.quality ++ le 1 q.ballast ++ le 1 q.mode)

def queryEncodeBody (h : HalfId) (e : CmdEntry) (s : State) : Option QueryBody :=
  let x := s.half h
  ofObject x e.handle (x.obj.encode? (hIndex e.handle)) (fun q =>
    let c := q.counts
    { body := words [c.late, c.repeated, c.fallback, c.absorbed, c.stalls, c.truncated, c.ceiling, c.ballast] ++ longs [c.filler, c.deferred] ++
        words [c.twinRestarts, c.assistDefaults, q.lastCoded.getD 0xFFFFFFFF] ++
        longs [unsigned 64 q.rate.fullness, unsigned 64 q.rate.debt, unsigned 64 q.rate.target] ++ rateBytes q.rate })

/-- QUERY_ENCODE (R572). -/
def execQueryEncode (h : HalfId) (e : CmdEntry) (b : BusResult) (s : State) : Out :=
  .next (runQuery h 0x0304 (.types [5]) 0 e b (queryEncodeBody h e) id s)

/-- One cluster's entry of QUERY_SURGE, with its credit at the latch time. -/
def surgeEntry (now : Nat) (c0 : EncCluster) : List Byte :=
  let c := creditRefill now c0
  le 4 c.surgePics ++ longs [c.deferred, c.aged, unsigned 64 (creditWhole c.lowest), unsigned 64 (creditWhole c.credit), c.accrual,
    unsigned 64 (creditWhole c.cmax)] ++ words [c.overbook, c.declared, c.tier1]

def querySurgeBody (h : HalfId) (s : State) : Option QueryBody :=
  let x := s.half h
  some { entries := 2, body := x.obj.clusters.flatMap (surgeEntry x.clk.now) }

/-- A cleared lowest credit starts again from the credit. -/
def surgeClear (h : HalfId) (s : State) : State :=
  s.upd h (fun x => { x with obj := { x.obj with clusters := x.obj.clusters.map (fun c =>
    let c := creditRefill x.clk.now c
    { c with lowest := c.credit }) } })

/-- QUERY_SURGE (R572, R254). -/
def execQuerySurge (h : HalfId) (e : CmdEntry) (b : BusResult) (s : State) : Out :=
  .next (runQuery h 0x0305 .zero 0 e b (querySurgeBody h) (surgeClear h) s)

/-! The network (QUERY_FLOW, QUERY_PORT, QUERY_PTP). -/

/-- The path code of a flow. -/
def pathCode : FlowPath → Nat
  | .primary => 0
  | .secondary => 1
  | .standby => 2
  | .undercoat => 3
  | .stranded => 4
  | .stopped => 5

def queryFlowBody (h : HalfId) (e : CmdEntry) (s : State) : Option QueryBody :=
  let x := s.half h
  ofObject x e.handle (x.obj.flow? (hIndex e.handle)) (fun f =>
    let c := f.counts
    { body := longs [c.packets, c.wireBytes] ++
        words [c.unresolved, c.portDown, c.stranded, c.undercoat, c.moves, c.twinSwitches, c.pli, c.fir, c.nack, c.firRepeats, c.reports,
          c.highestLoss, c.cumulativeLost, f.nextSeq.toNat, pathCode f.path] ++ longs [c.unitMark, c.pictureMark] })

/-- QUERY_FLOW (R572). -/
def execQueryFlow (h : HalfId) (e : CmdEntry) (b : BusResult) (s : State) : Out :=
  .next (runQuery h 0x0306 (.types [2]) 0 e b (queryFlowBody h e)
    (fun s => s.upd h (updFlow (hIndex e.handle) (fun f => { f with counts := { f.counts with highestLoss := 0, unitMark := 0, pictureMark := 0 } }))) s)

/-- The link state code. -/
def linkCode : LinkState → Nat
  | .down => 0
  | .adapting => 1
  | .up => 2
  | .failed => 3

/-- The portState code of IEEE 1588. -/
def ptpPortCode : PtpPort → Nat
  | .disabled => 3
  | .listening => 4
  | .master => 6
  | .passive => 7
  | .slave => 9

def queryPortBody (h : HalfId) (e : CmdEntry) (s : State) : Option QueryBody :=
  let x := s.half h
  ofObject x e.handle x.net[hIndex e.handle]? (fun p =>
    let c := p.counts
    { body := words [linkCode p.link, p.attempts, c.pause] ++
        longs [c.sent, c.wireUnits, c.received, c.dropped, c.fecCorrected, c.fecUncorrected] ++
        words ((List.range 8).map (fun k => p.backlog.getD k 0)) ++ le 4 (ptpPortCode p.ptp) })

/-- QUERY_PORT (R572). -/
def execQueryPort (h : HalfId) (e : CmdEntry) (b : BusResult) (s : State) : Out :=
  .next (runQuery h 0x0307 (.types [1]) 0 e b (queryPortBody h e)
    (fun s => s.upd h (updPort (hIndex e.handle) (fun p => { p with backlog := List.replicate 8 0 }))) s)

def queryPtpBody (h : HalfId) (e : CmdEntry) (s : State) : Option QueryBody :=
  let x := s.half h
  let p := x.ptp
  if (recOf x.running e.handle).isNone then none
  else
    let body := words [ptpCode p.state, (p.slavePort.getD 0).toNat] ++ longs [p.grandmaster, unsigned 64 p.offset, unsigned 64 p.delay] ++
      words [unsigned 32 x.clk.freqAdj, unsigned 32 p.utcOffset, p.steps] ++
      le 8 (match p.holdoverSince with | some t => x.clk.now - t | none => 0)
    some { body := body }

/-- QUERY_PTP (R572). -/
def execQueryPtp (h : HalfId) (e : CmdEntry) (b : BusResult) (s : State) : Out :=
  .next (runQuery h 0x030E (.types [0x11]) 0 e b (queryPtpBody h e) id s)

/-! Memory, pools, DMA (QUERY_CHANNEL, QUERY_POOL, QUERY_DMA). -/

/-- An entry of the correction log. -/
def corrBytes (c : CorrRec) : List Byte := longs [c.address, c.time] ++ le 1 c.syndrome ++ le 1 c.requester ++ List.replicate 6 0

def queryChannelBody (h : HalfId) (e : CmdEntry) (s : State) : Option QueryBody :=
  let c := chanAt (s.half h) (hIndex e.handle - 0xFF00)
  let k := c.counts
  let body := words [k.corrections, k.refusals, k.holes, k.throttled, k.neighbour, total k.late] ++
    pad 384 ((c.corrLog.reverse.take 16).flatMap corrBytes) ++ longs c.retiredBlocks
  some { body := body }

/-- QUERY_CHANNEL (R572, R357). -/
def execQueryChannel (h : HalfId) (e : CmdEntry) (b : BusResult) (s : State) : Out :=
  .next (runQuery h 0x0308 .channel 0 e b (queryChannelBody h e) id s)

def queryPoolBody (h : HalfId) (e : CmdEntry) (s : State) : Option QueryBody :=
  let x := s.half h
  ofObject x e.handle x.pools[hIndex e.handle]? (fun p =>
    { body := longs [p.allocations, p.releases] ++
        words [p.refused, p.doubleFrees, p.corruption, p.rebuilds, freeCount p, p.lowestFree, p.held.length] })

/-- QUERY_POOL (R572). -/
def execQueryPool (h : HalfId) (e : CmdEntry) (b : BusResult) (s : State) : Out :=
  .next (runQuery h 0x0309 (.types [0x0D]) 0 e b (queryPoolBody h e)
    (fun s => s.upd h (updPool (hIndex e.handle) (fun p => { p with lowestFree := freeCount p }))) s)

def queryDmaBody (h : HalfId) (s : State) : Option QueryBody :=
  some { entries := 32, body := (s.half h).dma.channels.flatMap (fun c => le 8 c.bytes ++ words [c.descriptors, c.errors]) }

/-- QUERY_DMA (R572). -/
def execQueryDma (h : HalfId) (e : CmdEntry) (b : BusResult) (s : State) : Out :=
  .next (runQuery h 0x030A .zero 0 e b (queryDmaBody h) id s)

/-! The half (QUERY_EVENTS, QUERY_FILTER, QUERY_HEALTH, QUERY_CUES). -/

def queryEventsBody (h : HalfId) (s : State) : Option QueryBody :=
  let x := s.half h
  let v := evRefill x.clk.now x.ev
  some { body := words [v.warnDropped, v.infoDropped, v.warnCoalesced, v.alarmCoalesced, v.warnings.length, v.infos.length, v.alarms.length,
    v.rate, v.burst, v.balance / 1000000000, v.assistLate, v.assistUnexpected, x.rings.refused] }

/-- QUERY_EVENTS (R572). -/
def execQueryEvents (h : HalfId) (e : CmdEntry) (b : BusResult) (s : State) : Out :=
  .next (runQuery h 0x030B .zero 0 e b (queryEventsBody h) id s)

/-- The taps of a filter, phase by phase (R166). -/
def filterBytes (f : Nat) : List Byte :=
  (List.range 64).flatMap (fun p => (filterTaps f p).flatMap (fun v => le 2 (unsigned 16 v)))

def queryFilterBody (e : CmdEntry) : Option QueryBody := some { entries := 64, body := filterBytes (fld e 32 4) }

/-- QUERY_FILTER (R572, R166). -/
def execQueryFilter (h : HalfId) (e : CmdEntry) (b : BusResult) (s : State) : Out :=
  .next (runQuery h 0x030C .zero 2 e b (fun _ => queryFilterBody e) id s)

/-- One island's entry of QUERY_HEALTH. -/
def islandBytes (block : Nat) (i : IslandSt) : List Byte :=
  le 1 block ++ le 1 (unsigned 8 i.celsius) ++ le 2 i.slowdown ++ le 1 i.allowed ++ le 1 (packBits [i.throttled, !i.powered]) ++ le 2 0

def queryHealthBody (h : HalfId) (s : State) : Option QueryBody :=
  let x := s.half h
  some { entries := x.pwr.islands.length
         body := le 1 x.pwr.vreq ++ le 3 0 ++ le 4 (lifeUsed x.pwr) ++ x.pwr.islands.zipIdx.flatMap (fun q => islandBytes q.2 q.1) }

/-- QUERY_HEALTH (R572). -/
def execQueryHealth (h : HalfId) (e : CmdEntry) (b : BusResult) (s : State) : Out :=
  .next (runQuery h 0x030D .zero 0 e b (queryHealthBody h) id s)

/-- The armed cues of a half, each once. -/
def allCues (x : Half) : List Cue :=
  (x.obj.canvases.flatMap (fun c => c.armed)).foldl (fun acc q =>
    if acc.any (fun p => p.group == q.group && p.switchTime == q.switchTime) then acc else acc ++ [q]) []

def cueBytes (q : Cue) : List Byte :=
  words [q.group.toNat, q.sequence.toNat] ++ le 8 q.switchTime ++ le 1 q.scene ++ le 1 (b2n q.partnerArmed) ++ List.replicate 6 0

def queryCuesBody (h : HalfId) (s : State) : Option QueryBody :=
  let cs := allCues (s.half h)
  some { entries := cs.length, body := cs.flatMap cueBytes }

/-- QUERY_CUES (R572). -/
def execQueryCues (h : HalfId) (e : CmdEntry) (b : BusResult) (s : State) : Out :=
  .next (runQuery h 0x030F .zero 0 e b (queryCuesBody h) id s)

end Sys2Proof.Machine
end

