-- ==== Sys2Proof/Machine/Delivery.lean ====
section
/-!
DEFINITION. Delivery.lean: what leaves the keel's backlogs: events (R53 to R56), assist notices and requests (R82), and the retry of an encode
engine that waits for a buffer (R376).
-/
namespace Sys2Proof.Machine

/-! Events (R54, R55). -/

/-- The highest-ranked waiting event, with what taking it leaves and whether it carries the mark of dropped ones. -/
def nextEvent (v : Events) : Option (EventRec × Bool × Events) :=
  match v.alarms.find? (fun a => !a.written) with
  | some a =>
    let rest := v.alarms.takeWhile (fun b => b.written) ++ { a with written := true } :: (v.alarms.dropWhile (fun b => b.written)).drop 1
    some (a.ev, v.markAlarm, { v with alarms := rest, markAlarm := false })
  | none =>
    match v.warnings with
    | w :: ws => some (w, v.markWarn, { v with warnings := ws, markWarn := false })
    | [] => match v.infos with
      | i :: is => some (i, v.markInfo, { v with infos := is, markInfo := false })
      | [] => none

/-- EVENT_DELIVERY (R53, R54): with a token and room in EVTQ. Alarms that go at once or not at all come first (R55). -/
def execEventDelivery (h : HalfId) (s : State) : Out :=
  .next (
    let x := s.half h
    let v := evRefill x.clk.now x.ev
    if x.alive && !x.ev.instant.isEmpty then instantOut h s
    else if !x.alive || !evToken v || evtqFull x then s
    else match nextEvent v with
      | none => s
      | some (e, mark, left) => evWrite h e mark (s.upd h (fun x => { x with ev := left })))

/-! Assist entries (R82). -/

/-- Buffers that wait on a pool's return list go out four at a time; held ones join the list as it frees. -/
def poolListTurn (p : Nat) (x : Half) : Half :=
  updPool p (fun q =>
    let room := 1024 - q.returnList.length
    let join := q.returning.take room
    { q with returnList := q.returnList ++ join, returning := q.returning.drop room
             held := q.held.filter (fun e => !(join.contains (bufAddr p q e.1) && e.2 == 0)) }) x

/-- The next assist entry to write, with what writing it leaves: notices, whose entries free for the pending marks in turn, returned buffers,
then requests whose deadline has not passed. -/
def nextAssist (h : HalfId) (x : Half) : Option (AsrEntry × Half) :=
  match x.asr.notices, x.asr.marks with
  | n :: ns, ms => some (n, { x with asr := { x.asr with notices := ns ++ ms.take 1, marks := ms.drop 1 } })
  | [], m :: ms => some (m, { x with asr := { x.asr with marks := ms } })
  | [], [] =>
    match (List.range 16).find? (fun p => !(poolOf x p).returnList.isEmpty) with
    | some p =>
      let out := (poolOf x p).returnList.take 4
      let y := poolListTurn p (updPool p (fun q => { q with returnList := q.returnList.drop 4 }) x)
      some ({ returnEntry h p out with time := x.clk.now }, y)
    | none =>
      match x.asr.requests.find? (fun r => x.clk.now < r.deadline) with
      | some r => some (r.entry, { x with asr := { x.asr with requests := x.asr.requests.erase r } })
      | none => none

/-- Entries go to ASR while it has room. -/
def drainAssist : Nat → HalfId → State → State
  | 0, _, s => s
  | fuel + 1, h, s =>
    if asrFull (s.half h) then s
    else match nextAssist h (s.half h) with
      | none => s
      | some (a, y) => drainAssist fuel h (asrWrite h a (s.upd h (fun _ => y)))

/-- ASR_BACKLOG_DRAIN (R82). -/
def execAsrBacklogDrain (h : HalfId) (s : State) : Out :=
  .next (if (s.half h).alive then drainAssist Config.asrSize h s else s)

/-- The late-data default of a withdrawn request, by its kind (R80). -/
def requestDefault (h : HalfId) (a : AsrEntry) (s : State) : State :=
  let late := fun (s : State) => assistLate h a.kind a.tag a.handle a.sequence a.time 3 s
  let i := hIndex a.handle
  match a.kind with
  | 0x0B01 => late (markDefault h ((s.half h).record a.handle) 0x0B01 a.time (s.upd h (updEncode i (fun e =>
      { e with defaulted := addNew (0x0B01, a.time) e.defaulted }))))
  | 0x0B04 =>
    match ((s.half h).obj.decode? i).bind (fun d => awaitedPic d a.tag a.sequence a.time) with
    | some p => removeIdle h (concealLate h i p 3 s)
    | none => late s
  | 0x0B06 => late (s.upd h (updPool i (fun q => { q with supplyAsked := none })))
  | 0x0B07 => late (s.upd h (updPtp (fun q => { q with answered := true })))
  | 0x0B08 =>
    let n := i - 0xFF00
    late (s.upd h (fun x => if mayRetrain x n then retrainRun n x else updTrain n (fun t => { t with asked := none }) x))
  | 0x0B09 => if (s.half h).bri.deadline == 0 then late s else leadDefault h (late s)
  | _ => late s

/-- ASR_REQUEST_WITHDRAWN (R82): the deadline of a waiting request has passed. -/
def execAsrRequestWithdrawn (h : HalfId) (index : Nat) (s : State) : Out :=
  settled h (
    let x := s.half h
    match x.asr.requests[index]? with
    | none => s
    | some r =>
      if !x.alive || x.clk.now < r.deadline then s
      else requestDefault h r.entry (s.upd h (fun x => { x with asr := { x.asr with requests := x.asr.requests.erase r } })))

/-! Buffers (R376). -/

/-- POOL_ALLOC_RETRY (R376): an encode engine without a buffer tries again; its scrim stop is that of its cluster. -/
def execPoolAllocRetry (h : HalfId) (engine size count : Nat) (s : State) : Out :=
  .next (
    let x := s.half h
    if engine < Config.encEngines && !(x.enc.getD engine {}).flags.retired && 1 ≤ count && count ≤ 255 && 1 ≤ size && size ≤ 0x400000 &&
        !x.boot.inReset then (poolAlloc h (encClusterOf engine) false size count s).1
    else s)

end Sys2Proof.Machine
end

