-- ==== Sys2Proof/Machine/Registers.lean ====
section
/-!
DEFINITION. Registers.lean: a host write to any register of BAR0 (R9, R538 to R553), and what happens at the PCIe endpoint (R406, R555,
R556).
-/
namespace Sys2Proof.Machine

/-! W1C registers (R9). Each step is whole, so a host write and a hardware event never meet in one (R10, R11). -/

/-- Each 1 of a written word clears the bit. -/
def w1c {n : Nat} (old : BitVec n) (v : Nat) : BitVec n := old &&& ~~~(BitVec.ofNat n v)

/-- DMA_STATUS: DESC_ERR, BUS_STOP, LATE_ENABLE and CHAIN_IGNORED (R385). -/
def dmaStatusClear (h : HalfId) (c v : Nat) (s : State) : State :=
  s.upd h (updChan c (fun d => { d with
    descErr := d.descErr && !v.testBit 8, busStop := d.busStop && !v.testBit 9
    lateEnable := d.lateEnable && !v.testBit 10, chainIgnored := d.chainIgnored && !v.testBit 11 }))

/-! Unit enable registers (R542 to R544). -/

/-- The bits of LATE_ENABLE clear first; then each ENABLE bit is judged. -/
def unitEnableWrite (h : HalfId) (k : UnitKind) (v : Nat) (s : State) : State :=
  let n := (unitFlags (s.half h) k).length
  let s := (List.range n).foldl (fun s i => if v.testBit (8 + i) then s.upd h (updFlags k i (fun f => { f with lateEnable := false })) else s) s
  (List.range n).foldl (fun s i => if v.testBit i then enableSet h k i s else enableClear h k i s) s

/-! DMA channel blocks (R550). -/

/-- A 32-bit write into a channel block: DMA_CHAIN takes none (R538), DISABLE goes before ENABLE (R388). -/
def dmaWordWrite (h : HalfId) (c off v : Nat) (s : State) : State :=
  if c == 31 then s.upd h (regError 5)
  else match off with
    | 0x00 | 0x04 => s.upd h (regError 0)
    | 0x18 => dmaKickDo h c s
    | 0x20 =>
      if v.testBit 1 then dmaDisableDo h c (s.upd h (updChan c (fun d => { d with noSnoop := v.testBit 2 })))
      else dmaCtrlDo h c (v.testBit 0) (v.testBit 2) s
    | 0x24 => dmaStatusClear h c v s
    | _ => s

/-! Interrupt windows (R404, R551, R552). -/

/-- A write through an endpoint's window of an ICU. -/
def icuWordWrite (endpoint icu : HalfId) (off v : Nat) (s : State) : State :=
  let r := match endpoint with | .east => Requester.pcieE | .west => Requester.pcieW
  if endpoint != icu && !s.sparWorks then s.upd endpoint (regError 3)
  else if off < 0x800 then icuHostEntry endpoint icu (off / 4) v s
  else if off == 0x840 then
    s.upd icu (fun x => { x with icu := { x.icu with parityErr := x.icu.parityErr && !v.testBit 31 } })
  else if off == 0x844 then icuSetWrite r icu (BitVec.ofNat 32 v) s
  else if off == 0x848 then icuClaimWrite r icu (BitVec.ofNat 32 v) s
  else s

/-! The MSI-X table (R540). -/

/-- A 32-bit write into the MSI-X table, laid out as PCIe defines it. -/
def msixWordWrite (h : HalfId) (off v : Nat) (s : State) : State :=
  let n := off / 16
  let addr := fun (x : Half) => (x.pcie.msixAddr.getD n 0).toNat
  match off % 16 with
  | 0 => s.upd h (fun x => { x with pcie := { x.pcie with
      msixAddr := x.pcie.msixAddr.set n (BitVec.ofNat 64 (addr x / 0x100000000 * 0x100000000 + v % 0x100000000)) } })
  | 4 => s.upd h (fun x => { x with pcie := { x.pcie with
      msixAddr := x.pcie.msixAddr.set n (BitVec.ofNat 64 (v % 0x100000000 * 0x100000000 + addr x % 0x100000000)) } })
  | 8 => s.upd h (fun x => { x with pcie := { x.pcie with msixData := x.pcie.msixData.set n (BitVec.ofNat 32 v) } })
  | _ => msixMaskWrite h n (v.testBit 0) s

/-! BAR0 (R540). -/

/-- The 64-bit RW registers: BAR4_BASE and the channels' DMA_CHAIN. -/
def wideReg (off : Nat) : Bool := off == 0x500 || (0x1000 ≤ off && off < 0x1800 && off % 0x40 == 0)

/-- The word at an offset holds a register that a host write may change. -/
def writableWord (off : Nat) : Bool :=
  [0x28, 0x120, 0x124, 0x128, 0x12C, 0x130, 0x200, 0x20C, 0x214, 0x218, 0x224, 0x228, 0x310, 0x500, 0x504, 0x800].contains off ||
  (0x1000 ≤ off && off < 0x1800 && [0x00, 0x04, 0x18, 0x20, 0x24].contains (off % 0x40)) ||
  (0x2000 ≤ off && off < 0x6000 && (off % 0x2000 < 0x800 || [0x840, 0x844, 0x848].contains (off % 0x2000))) || (0xE000 ≤ off && off < 0xF000)

/-- A 32-bit write of BAR0: RO and unnamed words change nothing (R9, R538). -/
def wordWrite (h : HalfId) (off v : Nat) (s : State) : State :=
  let w : W32 := BitVec.ofNat 32 v
  match off with
  | 0x28 => s.upd h (fun x => { x with pcie := { x.pcie with regErr := w1c x.pcie.regErr v } })
  | 0x120 => unitEnableWrite h .enc v s
  | 0x124 => unitEnableWrite h .dec v s
  | 0x128 => unitEnableWrite h .cmp v s
  | 0x12C => unitEnableWrite h .dch v s
  | 0x130 => unitEnableWrite h .net v s
  | 0x200 => writeCmdqTail h w s
  | 0x20C => writeCplqHead h w s
  | 0x214 => writeEvtqHead h w s
  | 0x218 => writeAsqTail h w s
  | 0x224 => writeAsrHead h w s
  | 0x228 => s.upd h (fun x => { x with rings := { x.rings with ringErr := w1c x.rings.ringErr v } })
  | 0x310 => s.upd h (fun x => { x with boot := { x.boot with cause := w1c x.boot.cause v } })
  | 0x500 => s.upd h (regError 0)
  | 0x504 => s.upd h (regError 0)
  | 0x800 => if v.testBit 0 then dmaErrClearDo h s else s
  | _ =>
    if 0x1000 ≤ off && off < 0x1800 then dmaWordWrite h ((off - 0x1000) / 0x40) (off % 0x40) v s
    else if 0x2000 ≤ off && off < 0x4000 then icuWordWrite h h (off - 0x2000) v s
    else if 0x4000 ≤ off && off < 0x6000 then icuWordWrite h h.other (off - 0x4000) v s
    else if 0xE000 ≤ off && off < 0xF000 then msixWordWrite h (off - 0xE000) v s
    else s

/-- A 64-bit write: to a 64-bit register whole, else to the two words it covers. -/
def longWrite (h : HalfId) (off v : Nat) (s : State) : State :=
  if off == 0x500 then s.upd h (fun x => { x with dram := { x.dram with bar4Base := BitVec.ofNat 64 (v % 2 ^ 35) } })
  else if wideReg off then dmaChainDo h ((off - 0x1000) / 0x40) (BitVec.ofNat 64 v) s
  else wordWrite h (off + 4) (v / 0x100000000) (wordWrite h off (v % 0x100000000) s)

/-- A host write of BAR0 by its width in bytes: one narrower than 32 bits is dropped (R538). -/
def registerDo (h : HalfId) (off width v : Nat) (s : State) : State :=
  if width == 8 && off % 8 == 0 then longWrite h off v s
  else if width == 8 && off % 4 == 0 then wordWrite h (off + 4) (v / 0x100000000) (wordWrite h off (v % 0x100000000) s)
  else if width == 4 && off % 4 == 0 then wordWrite h off (v % 0x100000000) s
  else if 0x1000 + 0x7C0 ≤ off && off < 0x1800 then s.upd h (regError 5)
  else if writableWord (off / 4 * 4) then s.upd h (regError 0)
  else s

/-- REGISTER_WRITE (R9, R538 to R553). -/
def execRegisterWrite (h : HalfId) (offset width : Nat) (value : W64) (s : State) : Out :=
  settled h (hostWriteTo h (registerDo h offset width value.toNat) s)

/-! The PCIe endpoint (R406, R554 to R556). -/

/-- PCIE_LINK_DOWN (R555): source 36 latches while the half runs. Messages that come due wait for the link (R406). -/
def execPcieLinkDown (h : HalfId) (s : State) : Out :=
  settled h (
    let x := s.half h
    if !x.pcie.linkUp then s
    else
      let s := s.upd h (fun x => { x with pcie := { x.pcie with linkUp := false } })
      if x.boot.inReset || x.boot.stage != 7 then s else latchHw 6 h 36 false s)

/-- PCIE_LINK_UP (R406): both controllers evaluate the sources that wait for this endpoint. -/
def execPcieLinkUp (h : HalfId) (s : State) : Out :=
  .next (
    if (s.half h).pcie.linkUp then s
    else
      let s := s.upd h (fun x => { x with pcie := { x.pcie with linkUp := true } })
      let s := icuEvalAll .east (icuPending s.east.icu) s
      icuEvalAll .west (icuPending s.west.icu) s)

/-- PCIE_UNCORRECTABLE_ERROR (R555): an error that AER logs as unmasked. -/
def execPcieUncorrectableError (h : HalfId) (masked : Bool) (s : State) : Out :=
  settled h (if masked then s else latchHw 6 h 36 false s)

/-- PCIE_HOT_RESET (R556): the configuration space alone, with the MSI-X table and the BAR4 size. -/
def execPcieHotReset (h : HalfId) (s : State) : Out :=
  .next (s.upd h (fun x => { x with
    dram := { x.dram with bar4Size := 4294967296 }
    pcie := { x.pcie with
      msixMask := BitVec.allOnes 256, msixAddr := List.replicate 256 0, msixData := List.replicate 256 0 } }))

end Sys2Proof.Machine
end

