-- ==== Sys2Proof/Machine/Dispatch.lean ====
section
/-!
DEFINITION. Dispatch.lean: one arm per command of the block.
-/
namespace Sys2Proof.Machine

/-- The effect of a command on everything but the queue. -/
def exec (i : Instr) (s : State) : Host.Outcome State Fault Refusal :=
  match i with
  | .identify h e => Sys2Proof.Machine.execIdentify h e s
  | .halfReset h e => Sys2Proof.Machine.execHalfReset h e s
  | .eventRateSet h e => Sys2Proof.Machine.execEventRateSet h e s
  | .overbookSet h e => Sys2Proof.Machine.execOverbookSet h e s
  | .draftOpen h e => Sys2Proof.Machine.execDraftOpen h e s
  | .draftWrite h e r => Sys2Proof.Machine.execDraftWrite h e r s
  | .draftDiscard h e => Sys2Proof.Machine.execDraftDiscard h e s
  | .envelopeCommit h e => Sys2Proof.Machine.execEnvelopeCommit h e s
  | .envelopeCancel h e => Sys2Proof.Machine.execEnvelopeCancel h e s
  | .envelopeRead h e b => Sys2Proof.Machine.execEnvelopeRead h e b s
  | .queryObject h e b => Sys2Proof.Machine.execQueryObject h e b s
  | .queryDecode h e b => Sys2Proof.Machine.execQueryDecode h e b s
  | .queryInput h e b => Sys2Proof.Machine.execQueryInput h e b s
  | .queryEncode h e b => Sys2Proof.Machine.execQueryEncode h e b s
  | .querySurge h e b => Sys2Proof.Machine.execQuerySurge h e b s
  | .queryFlow h e b => Sys2Proof.Machine.execQueryFlow h e b s
  | .queryPort h e b => Sys2Proof.Machine.execQueryPort h e b s
  | .queryChannel h e b => Sys2Proof.Machine.execQueryChannel h e b s
  | .queryPool h e b => Sys2Proof.Machine.execQueryPool h e b s
  | .queryDma h e b => Sys2Proof.Machine.execQueryDma h e b s
  | .queryEvents h e b => Sys2Proof.Machine.execQueryEvents h e b s
  | .queryFilter h e b => Sys2Proof.Machine.execQueryFilter h e b s
  | .queryHealth h e b => Sys2Proof.Machine.execQueryHealth h e b s
  | .queryPtp h e b => Sys2Proof.Machine.execQueryPtp h e b s
  | .queryCues h e b => Sys2Proof.Machine.execQueryCues h e b s
  | .streamStart h e => Sys2Proof.Machine.execStreamStart h e s
  | .streamStop h e => Sys2Proof.Machine.execStreamStop h e s
  | .streamDrain h e => Sys2Proof.Machine.execStreamDrain h e s
  | .decodeFeed h e => Sys2Proof.Machine.execDecodeFeed h e s
  | .encodeRefresh h e => Sys2Proof.Machine.execEncodeRefresh h e s
  | .encodeRate h e => Sys2Proof.Machine.execEncodeRate h e s
  | .surfaceUpdate h e => Sys2Proof.Machine.execSurfaceUpdate h e s
  | .cueArm h e => Sys2Proof.Machine.execCueArm h e s
  | .cueCancel h e => Sys2Proof.Machine.execCueCancel h e s
  | .portReset h e => Sys2Proof.Machine.execPortReset h e s
  | .flowMove h e => Sys2Proof.Machine.execFlowMove h e s
  | .shaperSet h e => Sys2Proof.Machine.execShaperSet h e s
  | .gateRebase h e => Sys2Proof.Machine.execGateRebase h e s
  | .channelInspect h e b => Sys2Proof.Machine.execChannelInspect h e b s
  | .blockRetire h e => Sys2Proof.Machine.execBlockRetire h e s
  | .channelThaw h e => Sys2Proof.Machine.execChannelThaw h e s
  | .channelRetrain h e => Sys2Proof.Machine.execChannelRetrain h e s
  | .seqTrace h e => Sys2Proof.Machine.execSeqTrace h e s
  | .seqHistory h e b => Sys2Proof.Machine.execSeqHistory h e b s
  | .diagDump h e => Sys2Proof.Machine.execDiagDump h e s
  | .counterProgram h e => Sys2Proof.Machine.execCounterProgram h e s
  | .counterRead h e => Sys2Proof.Machine.execCounterRead h e s
  | .faultRead h e b => Sys2Proof.Machine.execFaultRead h e b s
  | .faultClear h e => Sys2Proof.Machine.execFaultClear h e s
  | .faultInject h e => Sys2Proof.Machine.execFaultInject h e s
  | .faultAction h e => Sys2Proof.Machine.execFaultAction h e s
  | .unitRetire h e => Sys2Proof.Machine.execUnitRetire h e s
  | .leadYield h e => Sys2Proof.Machine.execLeadYield h e s
  | .leadAssign h e => Sys2Proof.Machine.execLeadAssign h e s
  | .bridleRead h e => Sys2Proof.Machine.execBridleRead h e s
  | .attest h e b => Sys2Proof.Machine.execAttest h e b s
  | .certRead h e b => Sys2Proof.Machine.execCertRead h e b s
  | .fwStage h e r => Sys2Proof.Machine.execFwStage h e r s
  | .fwVerify h e => Sys2Proof.Machine.execFwVerify h e s
  | .fwConfirm h e => Sys2Proof.Machine.execFwConfirm h e s
  | .fwSecurityCommit h b => Sys2Proof.Machine.execFwSecurityCommit h b s
  | .fuseLock h e => Sys2Proof.Machine.execFuseLock h e s
  | .atTimeExecution h index => Sys2Proof.Machine.execAtTimeExecution h index s
  | .waitingStartExecution h object => Sys2Proof.Machine.execWaitingStartExecution h object s
  | .rateAssist h a => Sys2Proof.Machine.execRateAssist h a s
  | .coarseMotionHints h a => Sys2Proof.Machine.execCoarseMotionHints h a s
  | .hostStencil h a => Sys2Proof.Machine.execHostStencil h a s
  | .concealmentInstruction h a => Sys2Proof.Machine.execConcealmentInstruction h a s
  | .packetReleaseTimes h a => Sys2Proof.Machine.execPacketReleaseTimes h a s
  | .poolFreeListSupply h a => Sys2Proof.Machine.execPoolFreeListSupply h a s
  | .ptpCorrection h a => Sys2Proof.Machine.execPtpCorrection h a s
  | .retrainTime h a => Sys2Proof.Machine.execRetrainTime h a s
  | .leadDecision h a => Sys2Proof.Machine.execLeadDecision h a s
  | .cmdqTailWrite h value => Sys2Proof.Machine.execCmdqTailWrite h value s
  | .cplqHeadWrite h value => Sys2Proof.Machine.execCplqHeadWrite h value s
  | .evtqHeadWrite h value => Sys2Proof.Machine.execEvtqHeadWrite h value s
  | .asqTailWrite h value => Sys2Proof.Machine.execAsqTailWrite h value s
  | .asrHeadWrite h value => Sys2Proof.Machine.execAsrHeadWrite h value s
  | .dmaKick h channel => Sys2Proof.Machine.execDmaKick h channel s
  | .dmaChainWrite h channel address => Sys2Proof.Machine.execDmaChainWrite h channel address s
  | .dmaEnable h channel enable noSnoop => Sys2Proof.Machine.execDmaEnable h channel enable noSnoop s
  | .dmaDisable h channel => Sys2Proof.Machine.execDmaDisable h channel s
  | .dmaErrClear h => Sys2Proof.Machine.execDmaErrClear h s
  | .unitHold h kind index => Sys2Proof.Machine.execUnitHold h kind index s
  | .unitReturn h kind index => Sys2Proof.Machine.execUnitReturn h kind index s
  | .icuSrcCfgWrite endpoint icu source value => Sys2Proof.Machine.execIcuSrcCfgWrite endpoint icu source value s
  | .icuSet r icu number => Sys2Proof.Machine.execIcuSet r icu number s
  | .icuClaim r icu number => Sys2Proof.Machine.execIcuClaim r icu number s
  | .icuPartnerClaimDone endpoint => Sys2Proof.Machine.execIcuPartnerClaimDone endpoint s
  | .bar4Access h op => Sys2Proof.Machine.execBar4Access h op s
  | .bar2Write h offset bytes => Sys2Proof.Machine.execBar2Write h offset bytes s
  | .registerWrite h offset width value => Sys2Proof.Machine.execRegisterWrite h offset width value s
  | .msixUnmask h vector => Sys2Proof.Machine.execMsixUnmask h vector s
  | .eventDelivery h => Sys2Proof.Machine.execEventDelivery h s
  | .asrBacklogDrain h => Sys2Proof.Machine.execAsrBacklogDrain h s
  | .asrRequestWithdrawn h index => Sys2Proof.Machine.execAsrRequestWithdrawn h index s
  | .envelopeGroupResolved lead => Sys2Proof.Machine.execEnvelopeGroupResolved lead s
  | .groupPartnerTimeout h => Sys2Proof.Machine.execGroupPartnerTimeout h s
  | .takeoverArm h => Sys2Proof.Machine.execTakeoverArm h s
  | .takeoverTime h => Sys2Proof.Machine.execTakeoverTime h s
  | .envelopeCrcCheck h => Sys2Proof.Machine.execEnvelopeCrcCheck h s
  | .rtpPacketReceived h input p => Sys2Proof.Machine.execRtpPacketReceived h input p s
  | .accessUnitRelease h input => Sys2Proof.Machine.execAccessUnitRelease h input s
  | .guardedAccessUnitCopy h context presentation incomplete badStructure => Sys2Proof.Machine.execGuardedAccessUnitCopy h context presentation incomplete badStructure s
  | .decodePictureStart h p => Sys2Proof.Machine.execDecodePictureStart h p s
  | .decodePictureComplete h engine f => Sys2Proof.Machine.execDecodePictureComplete h engine f s
  | .pictureAvailable h context => Sys2Proof.Machine.execPictureAvailable h context s
  | .bulkStarved h context => Sys2Proof.Machine.execBulkStarved h context s
  | .refreshRequestRepeat h input => Sys2Proof.Machine.execRefreshRequestRepeat h input s
  | .concealmentDeadline h context => Sys2Proof.Machine.execConcealmentDeadline h context s
  | .canvasTick h canvas => Sys2Proof.Machine.execCanvasTick h canvas s
  | .compositionJobStart h pipe => Sys2Proof.Machine.execCompositionJobStart h pipe s
  | .compositionJobComplete h pipe changedBlocks => Sys2Proof.Machine.execCompositionJobComplete h pipe changedBlocks s
  | .surfaceCopyDone h surface => Sys2Proof.Machine.execSurfaceCopyDone h surface s
  | .encodePictureStart h engine f => Sys2Proof.Machine.execEncodePictureStart h engine f s
  | .encodedUnitHandoff h stream u => Sys2Proof.Machine.execEncodedUnitHandoff h stream u s
  | .encodePictureComplete h engine => Sys2Proof.Machine.execEncodePictureComplete h engine s
  | .encodeLateRepeat h stream => Sys2Proof.Machine.execEncodeLateRepeat h stream s
  | .twinCrcExchange h stream picture crc => Sys2Proof.Machine.execTwinCrcExchange h stream picture crc s
  | .refreshAbsorbed h stream => Sys2Proof.Machine.execRefreshAbsorbed h stream s
  | .surgeEnded h cluster => Sys2Proof.Machine.execSurgeEnded h cluster s
  | .surgeSustained h cluster => Sys2Proof.Machine.execSurgeSustained h cluster s
  | .linkSignalDetected h port => Sys2Proof.Machine.execLinkSignalDetected h port s
  | .linkUp h port => Sys2Proof.Machine.execLinkUp h port s
  | .linkDown h port cause => Sys2Proof.Machine.execLinkDown h port cause s
  | .adaptationTimeout h port => Sys2Proof.Machine.execAdaptationTimeout h port s
  | .adaptationRetry h port => Sys2Proof.Machine.execAdaptationRetry h port s
  | .arpReceived h port f => Sys2Proof.Machine.execArpReceived h port f s
  | .arpRefresh h port => Sys2Proof.Machine.execArpRefresh h port s
  | .neighbourDiscoveryReceived h port f => Sys2Proof.Machine.execNeighbourDiscoveryReceived h port f s
  | .dadComplete h port => Sys2Proof.Machine.execDadComplete h port s
  | .routerAdvertisementReceived h port router mac => Sys2Proof.Machine.execRouterAdvertisementReceived h port router mac s
  | .multicastQueryReceived h port q => Sys2Proof.Machine.execMulticastQueryReceived h port q s
  | .icmpEchoReceived h port v6 => Sys2Proof.Machine.execIcmpEchoReceived h port v6 s
  | .otherFrameReceived h port pause => Sys2Proof.Machine.execOtherFrameReceived h port pause s
  | .ptpSyncReceived h port twoStep origin receive => Sys2Proof.Machine.execPtpSyncReceived h port twoStep origin receive s
  | .ptpFollowUpReceived h port origin => Sys2Proof.Machine.execPtpFollowUpReceived h port origin s
  | .ptpDelayRespReceived h port receive => Sys2Proof.Machine.execPtpDelayRespReceived h port receive s
  | .ptpDelayReqReceived h port receive => Sys2Proof.Machine.execPtpDelayReqReceived h port receive s
  | .ptpAnnounceReceived h port a => Sys2Proof.Machine.execPtpAnnounceReceived h port a s
  | .announceReceiptTimeout h port => Sys2Proof.Machine.execAnnounceReceiptTimeout h port s
  | .ptpMasterInterval h port announce => Sys2Proof.Machine.execPtpMasterInterval h port announce s
  | .ppsInputEdge h second => Sys2Proof.Machine.execPpsInputEdge h second s
  | .holdoverExpired h => Sys2Proof.Machine.execHoldoverExpired h s
  | .rtcpSenderReportReceived h input ntpTime rtpTime => Sys2Proof.Machine.execRtcpSenderReportReceived h input ntpTime rtpTime s
  | .rtcpFeedbackReceived h flow f => Sys2Proof.Machine.execRtcpFeedbackReceived h flow f s
  | .rtcpReceiverReportReceived h flow r => Sys2Proof.Machine.execRtcpReceiverReportReceived h flow r s
  | .senderReportTimer h flow => Sys2Proof.Machine.execSenderReportTimer h flow s
  | .receiverReportTimer h input => Sys2Proof.Machine.execReceiverReportTimer h input s
  | .packetStart h port => Sys2Proof.Machine.execPacketStart h port s
  | .gateWindowChange h port => Sys2Proof.Machine.execGateWindowChange h port s
  | .gateListStarted h port => Sys2Proof.Machine.execGateListStarted h port s
  | .undercoatPictureTick h flow => Sys2Proof.Machine.execUndercoatPictureTick h flow s
  | .sparDown h events => Sys2Proof.Machine.execSparDown h events s
  | .sparUp h => Sys2Proof.Machine.execSparUp h s
  | .sparDownHoldoffExpiry h => Sys2Proof.Machine.execSparDownHoldoffExpiry h s
  | .partnerTetherLost h => Sys2Proof.Machine.execPartnerTetherLost h s
  | .partnerAbsent h => Sys2Proof.Machine.execPartnerAbsent h s
  | .partnerSeenAlive h => Sys2Proof.Machine.execPartnerSeenAlive h s
  | .halfStoppedReceived h flows => Sys2Proof.Machine.execHalfStoppedReceived h flows s
  | .takeoverReceived h => Sys2Proof.Machine.execTakeoverReceived h s
  | .stopAckReceived h flows => Sys2Proof.Machine.execStopAckReceived h flows s
  | .takeoverReplyTimeout h => Sys2Proof.Machine.execTakeoverReplyTimeout h s
  | .bridleClaimReceived h claim epoch => Sys2Proof.Machine.execBridleClaimReceived h claim epoch s
  | .sequenceReportReceived h r => Sys2Proof.Machine.execSequenceReportReceived h r s
  | .unitAnnouncementReceived h a => Sys2Proof.Machine.execUnitAnnouncementReceived h a s
  | .unitAnnouncementAck h flow => Sys2Proof.Machine.execUnitAnnouncementAck h flow s
  | .mirrorStateReceived h flow m => Sys2Proof.Machine.execMirrorStateReceived h flow m s
  | .partnerCopyReceived h flow seq picture bytes => Sys2Proof.Machine.execPartnerCopyReceived h flow seq picture bytes s
  | .sparForwardedCommand h c => Sys2Proof.Machine.execSparForwardedCommand h c s
  | .faultLatched h r => Sys2Proof.Machine.execFaultLatched h r s
  | .reactionDefaulted h source => Sys2Proof.Machine.execReactionDefaulted h source s
  | .keelWatchdogExpiry h => Sys2Proof.Machine.execKeelWatchdogExpiry h s
  | .safePoint h block => Sys2Proof.Machine.execSafePoint h block s
  | .machineCheck h block condition ctuType ctu stalled upset => Sys2Proof.Machine.execMachineCheck h block condition ctuType ctu stalled upset s
  | .storeReloaded h block fetched readBackFails => Sys2Proof.Machine.execStoreReloaded h block fetched readBackFails s
  | .readbackRound h upsets => Sys2Proof.Machine.execReadbackRound h upsets s
  | .dramRequest h channel m ecc => Sys2Proof.Machine.execDramRequest h channel m ecc s
  | .pageIdleTimeout h channel bank => Sys2Proof.Machine.execPageIdleTimeout h channel bank s
  | .dramRefresh h channel => Sys2Proof.Machine.execDramRefresh h channel s
  | .refreshWindowEnd h channel => Sys2Proof.Machine.execRefreshWindowEnd h channel s
  | .mr4Poll h channel rates phyTemp => Sys2Proof.Machine.execMr4Poll h channel rates phyTemp s
  | .scrubStep h channel ecc word => Sys2Proof.Machine.execScrubStep h channel ecc word s
  | .zeroFillDone h block => Sys2Proof.Machine.execZeroFillDone h block s
  | .retrainStart h channel => Sys2Proof.Machine.execRetrainStart h channel s
  | .retrainDone h channel lanes => Sys2Proof.Machine.execRetrainDone h channel lanes s
  | .retrainDeadline h channel => Sys2Proof.Machine.execRetrainDeadline h channel s
  | .regionCopyDone h region => Sys2Proof.Machine.execRegionCopyDone h region s
  | .reserveMoved h => Sys2Proof.Machine.execReserveMoved h s
  | .poolAllocate h stop pool0 size count => Sys2Proof.Machine.execPoolAllocate h stop pool0 size count s
  | .poolAdd h stop address count => Sys2Proof.Machine.execPoolAdd h stop address count s
  | .poolRelease h stop address => Sys2Proof.Machine.execPoolRelease h stop address s
  | .poolRebuilt h pool => Sys2Proof.Machine.execPoolRebuilt h pool s
  | .poolAllocRetry h engine size count => Sys2Proof.Machine.execPoolAllocRetry h engine size count s
  | .poolSupplyDeadline h pool => Sys2Proof.Machine.execPoolSupplyDeadline h pool s
  | .dmaDescriptorFetched h channel bytes => Sys2Proof.Machine.execDmaDescriptorFetched h channel bytes s
  | .dmaReadCompletion h channel bytes => Sys2Proof.Machine.execDmaReadCompletion h channel bytes s
  | .dmaDescriptorComplete h channel => Sys2Proof.Machine.execDmaDescriptorComplete h channel s
  | .dmaBusError h channel cause address descriptor => Sys2Proof.Machine.execDmaBusError h channel cause address descriptor s
  | .dmaCompletionTimeout h channel => Sys2Proof.Machine.execDmaCompletionTimeout h channel s
  | .icuParityFailure h source => Sys2Proof.Machine.execIcuParityFailure h source s
  | .counterSnapshot h writeOk => Sys2Proof.Machine.execCounterSnapshot h writeOk s
  | .porstAssert => Sys2Proof.Machine.execPorstAssert s
  | .resetPinAssert h => Sys2Proof.Machine.execResetPinAssert h s
  | .resetRelease h f => Sys2Proof.Machine.execResetRelease h f s
  | .halfResetDelayExpiry h => Sys2Proof.Machine.execHalfResetDelayExpiry h s
  | .trialReset h => Sys2Proof.Machine.execTrialReset h s
  | .trialAutoConfirm h => Sys2Proof.Machine.execTrialAutoConfirm h s
  | .brownOut h core => Sys2Proof.Machine.execBrownOut h core s
  | .brownOutRecovery h => Sys2Proof.Machine.execBrownOutRecovery h s
  | .voltageExcursion h rail millivolts duration => Sys2Proof.Machine.execVoltageExcursion h rail millivolts duration s
  | .thermalSample h island celsius => Sys2Proof.Machine.execThermalSample h island celsius s
  | .thermalRelease h => Sys2Proof.Machine.execThermalRelease h s
  | .clockMonitorTrip h island kilohertz => Sys2Proof.Machine.execClockMonitorTrip h island kilohertz s
  | .clockStepEvaluation h island depth capacity => Sys2Proof.Machine.execClockStepEvaluation h island depth capacity s
  | .islandPowerOff h island => Sys2Proof.Machine.execIslandPowerOff h island s
  | .islandPowerUp h island => Sys2Proof.Machine.execIslandPowerUp h island s
  | .lifeAccumulation h => Sys2Proof.Machine.execLifeAccumulation h s
  | .agingMeasurement h slowdowns => Sys2Proof.Machine.execAgingMeasurement h slowdowns s
  | .pcieLinkDown h => Sys2Proof.Machine.execPcieLinkDown h s
  | .pcieLinkUp h => Sys2Proof.Machine.execPcieLinkUp h s
  | .pcieUncorrectableError h masked => Sys2Proof.Machine.execPcieUncorrectableError h masked s
  | .pcieHotReset h => Sys2Proof.Machine.execPcieHotReset h s
  | .ppsOutputPulse h => Sys2Proof.Machine.execPpsOutputPulse h s
  | .delayRequestInterval h port => Sys2Proof.Machine.execDelayRequestInterval h port s
  | .leadDecisionDeadline h => Sys2Proof.Machine.execLeadDecisionDeadline h s
  | .encodeSurfaceTick h stream => Sys2Proof.Machine.execEncodeSurfaceTick h stream s
  | .islandClockRelock h island => Sys2Proof.Machine.execIslandClockRelock h island s

end Sys2Proof.Machine
end

