-- ==== Sys2Proof/Safety.lean ====
section
/-!
DEFINITION. Safety.lean: the vocabulary of the claims: what is kept by every step, when a command is taken, and how it answers.
-/
namespace Sys2Proof.Machine

/-! What every step keeps. -/

/-- The memories of a half are in the canonical form of a sparse memory: ring memory (R37) and device DRAM (R359). -/
def Half.memoriesOk (x : Half) : Prop := Memory.wf x.rings.mem = true ∧ Memory.wf x.dram.data = true

/-- The bounded queues of a half keep their bounds: 256 warnings, 512 information events (R56), 256 alarm records (R55), 256 notices (R82). -/
def Half.queuesOk (x : Half) : Prop :=
  x.ev.warnings.length ≤ 256 ∧ x.ev.infos.length ≤ 512 ∧ x.ev.alarms.length ≤ 256 ∧ x.asr.notices.length ≤ 256

/-- A half has the units of a DRL-6400: engines, pipes, channels, ports, pools, DMA channels, interrupt entries, counter blocks and islands. -/
def Half.unitsOk (x : Half) : Prop :=
  x.enc.length = Config.encEngines ∧ x.dec.length = Config.decEngines ∧ x.cmp.length = Config.cmpPipes ∧
  x.dch.length = Config.dramChannels ∧ x.net.length = Config.netPorts ∧ x.pools.length = 16 ∧
  x.dma.channels.length = Config.dmaChannels ∧ x.icu.cfg.length = 512 ∧ x.ctr.blocks.length = 36 ∧ x.pwr.islands.length = 36

/-- The invariant of a half. -/
def Half.Inv (x : Half) : Prop := x.memoriesOk ∧ x.queuesOk ∧ x.unitsOk

/-- The invariant of the block: that of both halves, host memory and the flash slots in canonical form. -/
def State.Inv (s : State) : Prop :=
  s.east.Inv ∧ s.west.Inv ∧ Memory.wf s.hostMem = true ∧ Memory.wf s.flash.slotA.data = true ∧ Memory.wf s.flash.slotB.data = true

/-- The state a reply carries. -/
def Reply.state : Reply → State
  | .fail _ s => s
  | .done _ _ _ _ s => s
  | .wait s => s

/-! When a command is taken, and what its bookkeeping touches. -/

/-- The keel takes the command of an entry: it runs, CPLQ has room (R48), no earlier command waits for its surface copy (R47), and the entry
passes steps 2 to 5 of R557. -/
abbrev Taken (h : HalfId) (o : OpSpec) (e : CmdEntry) (r : Option RefFetch) (s : State) : Prop :=
  keelFree (s.half h) = true ∧ acceptForm o e r = none

/-- None of a command's further checks fails. -/
abbrev Passes (cs : List (Option Fail)) : Prop := firstFail cs = none

/-- A half without what the delivery of interrupts and the bookkeeping of commands change: the interrupt controller, counter blocks, pending
MSI-X bits, the emission log, and the index registers and memory of the rings. -/
def Half.calm (x : Half) : Half :=
  { x with icu := {}, out := [], ctr := { x.ctr with blocks := [] }, pcie := { x.pcie with pba := 0 }, rings := {} }

/-- No checker is armed on the parity of interrupt entries (R442, checker 0x1C). -/
abbrev NoIcuCheck (h : HalfId) (s : State) : Prop := armedMask (s.half h) 0x1C = 0

/-- A query that the keel takes, about an object of its half that is in the running envelope, writes header and body to the host's buffer and
completes with their length; with flag bit 0 it then clears its marks (R559, R571). -/
def QueryAnswers (h : HalfId) (e : CmdEntry) (s : State) (c : Instr) (op : Nat) (rule : HandleRule) (top : Nat) (body : State → Option QueryBody)
    (clear : State → State) : Prop :=
  ∀ q bytes u, u = takeEntry h s → Taken h (querySpec op rule (body s)) e none s → notHere h op (u.half h) e.handle = false →
    fld e 28 4 ≤ 1 → fld e 32 4 ≤ top → checkReserved e [(16, 20)] = none → body u = some q → bytes = queryBytes op e (u.now h) q →
    exec c s = .next (complete h op e stOk true 0 (le 4 bytes.length)
      ((if fld e 28 4 = 1 then clear else id) { u with hostMem := memWrite (fld e 16 8) bytes u.hostMem }))

/-- The device takes an assist entry that is well formed, for an object of the running envelope whose function the host serves, and finds its
data (R80). `u` is the state once the entry has been taken. -/
abbrev Matched (h : HalfId) (function : Nat) (a : AssistEntry) (p : List Byte) (s u : State) : Prop :=
  u = takeAssist h s ∧ (s.half h).alive = true ∧ a.flags.toNat / 4 = 0 ∧ a.flags.getLsbD 0 = false ∧ a.reserved = 0 ∧
  (a.handle = 0 ∨ (recOf (u.half h).running a.handle).isSome = true) ∧ modeHost (u.half h) function a.handle = true ∧ assistData a = some p

/-! What a command may reach. -/

/-- The commands that write host memory: those that reply into a host buffer, deferred commands, and DMA transfers. -/
def writesHost : Instr → Bool
  | .envelopeRead .. | .queryObject .. | .queryDecode .. | .queryInput .. | .queryEncode .. | .querySurge .. | .queryFlow .. | .queryPort ..
  | .queryChannel .. | .queryPool .. | .queryDma .. | .queryEvents .. | .queryFilter .. | .queryHealth .. | .queryPtp .. | .queryCues ..
  | .channelInspect .. | .seqHistory .. | .faultRead .. | .attest .. | .certRead .. | .atTimeExecution .. | .dmaReadCompletion ..
  | .dmaDescriptorComplete .. => true
  | _ => false

/-- The commands that write the flash slots or their staging: firmware commands, resets, boots and the end of a trial. -/
def writesFlash : Instr → Bool
  | .fwStage .. | .fwVerify .. | .fwConfirm .. | .porstAssert | .resetPinAssert .. | .resetRelease .. | .halfResetDelayExpiry .. | .trialReset ..
  | .trialAutoConfirm .. | .brownOut .. => true
  | _ => false

end Sys2Proof.Machine
end

