-- ==== Sys2Proof/Certificates/Slice0/Obligations.lean ====
section
/-!
DEFINITION. Obligations.lean: the statements for the provers.

A statement on a command gives, under hypotheses on the state and the operands alone, the whole next state: what is not written in it is
unchanged. Everywhere a command's entry and the host's data are operands (logs 2 and 3), an event's detail has the layout of log 13, what leaves a
half is appended to its log of emissions (log 7), and the opaque constants of Config are free values (logs 6, 10 and 11).
-/
open Sys2Proof Sys2Proof.Machine

/-- A step takes the command at the front of the queue and runs it with the queue's rest. -/
def Obligations.StepRunsFront : Prop :=
  ∀ (c : Instr) (rest : List Instr) (s : State), step { s with pending := c :: rest } = exec c { s with pending := rest }

/-! Device and envelope commands. In the statements on commands, `u` is the state once the keel has taken the entry. -/

/-- IDENTIFY, HALF_RESET, EVENT_RATE_SET and OVERBOOK_SET complete with their effect (R488, R53, R564 to R567). The model's choices in it: log
27. -/
def Obligations.DeviceCommands : Prop :=
  ∀ (h : HalfId) (e : CmdEntry) (s u : State), u = takeEntry h s →
    (Taken h identifySpec e none s → fld e 16 1 ≤ 2 → checkReserved e [(16, 1)] = none →
      exec (.identify h e) s = .next (complete h 0x0101 e stOk false 0 (identifyPage (u.half h) (fld e 16 1)) u)) ∧
    (Taken h halfResetSpec e none s → fld e 16 1 = 0 → checkReserved e [(16, 1)] = none →
      exec (.halfReset h e) s = .next (complete h 0x0102 e stOk false 0 []
        ((stopTether h u).upd h (fun x => { x with boot := { x.boot with resetAt := some (x.clk.now + 100000), resetKind := 2 } })))) ∧
    (Taken h halfResetSpec e none s → fld e 16 1 = 1 → checkReserved e [(16, 1)] = none →
      (u.half h).bri.lead = true → (u.half h).bri.fenced = false → (u.half h.other).boot.inReset = false →
      exec (.halfReset h e) s = .next (complete h 0x0102 e stOk false 0 []
        ((stopTether h.other u).upd h.other (fun x => { x with boot := { x.boot with resetAt := some (x.clk.now + 100000), resetKind := 3 } })))) ∧
    (Taken h eventRateSetSpec e none s → 1000 ≤ fld e 16 4 → fld e 16 4 ≤ 100000 → 16 ≤ fld e 20 2 → fld e 20 2 ≤ 1024 →
      checkReserved e [(16, 6)] = none →
      exec (.eventRateSet h e) s = .next (complete h 0x0103 e stOk false 0 (le 4 (u.half h).ev.rate ++ le 2 (u.half h).ev.burst)
        (u.upd h (fun x => { x with ev := { evRefill x.clk.now x.ev with
          rate := fld e 16 4, burst := fld e 20 2
          balance := min (evRefill x.clk.now x.ev).balance (fld e 20 2 * 1000000000) } })))) ∧
    (∀ k, Taken h overbookSetSpec e none s → fld e 16 1 = k → k ≤ 1 → 10 ≤ fld e 17 1 → fld e 17 1 ≤ 80 → checkReserved e [(16, 2)] = none →
      ∀ v, v = u.upd h (updCluster k (fun c => { c with overbook := fld e 17 1 })) →
      exec (.overbookSet h e) s = .next (complete h 0x0104 e stOk false 0
        (le 4 ((v.half h).obj.clusters.getD k {}).declared ++ le 1 (b2n (chargeOver (v.half h) k))) v))

/-- DRAFT_OPEN, DRAFT_WRITE and DRAFT_DISCARD complete with their effect on the draft slot (R61 to R63, R568). The model's choices in it: log
53. -/
def Obligations.DraftCommands : Prop :=
  ∀ (h : HalfId) (e : CmdEntry) (s u : State), u = takeEntry h s →
    (Taken h draftOpenSpec e none s → fld e 16 1 = 0 → checkReserved e [(16, 1)] = none → (s.half h).env.draft = none →
      exec (.draftOpen h e) s = .next (complete h 0x0201 e stOk false 0 (le 4 0 ++ le 4 0)
        (u.upd h (fun x => { x with env := { x.env with draft := some [] } })))) ∧
    (∀ q, Taken h draftOpenSpec e none s → fld e 16 1 = 1 → checkReserved e [(16, 1)] = none → (s.half h).env.draft = none →
      (s.half h).env.running = some q →
      exec (.draftOpen h e) s = .next (complete h 0x0201 e stOk false 0 (le 4 q.records.length ++ le 4 (recordsSize q.records))
        (u.upd h (fun x => { x with env := { x.env with draft := some q.records } })))) ∧
    (∀ (r : RefFetch) bytes parts rs q, Taken h draftWriteSpec e (some r) s →
      bytes = (if isByRef e then r.bytes else e.payload.take e.len.toNat) → parts = splitRecords (bytes.length / 16 + 1) 0 bytes →
      (∀ p ∈ parts, draftReason h p.2 = none) → (s.half h).env.draft = some rs →
      draftEdits rs (parts.map (fun p => p.2)) = some q → q.length ≤ 16384 → recordsSize q ≤ 4194304 →
      exec (.draftWrite h e r) s = .next (complete h 0x0202 e stOk false 0 (le 4 q.length ++ le 4 (recordsSize q))
        (u.upd h (fun x => { x with env := { x.env with draft := some q } })))) ∧
    (∀ rs, Taken h draftDiscardSpec e none s → (s.half h).env.draft = some rs →
      exec (.draftDiscard h e) s = .next (complete h 0x0203 e stOk false 0 []
        (u.upd h (fun x => { x with env := { x.env with draft := none } }))))

/-- ENVELOPE_COMMIT of a single envelope that passes every check of R65 puts it in the pending slot, with a take-over time at least 500 µs
ahead; in a group it waits for its partner (R64 to R69). ENVELOPE_CANCEL empties the pending slot while more than 500 µs are left, and
ENVELOPE_READ writes a slot's records to host memory (R570). The model's choices in it: logs 47, 50, 53. -/
def Obligations.EnvelopeCommands : Prop :=
  ∀ (h : HalfId) (e : CmdEntry) (s u : State), u = takeEntry h s →
    (∀ rs units regions t, Taken h envelopeCommitSpec e none s → (s.half h).bri.fenced = false → (s.half h).env.draft = some rs →
      (s.half h).env.pend = none → (s.half h).env.group = none → (isAtTime e = true → (s.half h).clk.now < atTimeOf e) →
      judgeRecords h rs (e.payload.take 32) = .ok → (fld e 48 4 = 0 ∨ u.sparWorks = false) →
      judgeCross h u rs (futureRecords (u.half h.other)) false = .ok → fitCheck h (u.half h) rs = .ok units regions →
      t = (if isAtTime e then atTimeOf e else (s.half h).clk.now + 500000) → (s.half h).clk.now + 500000 ≤ t →
      ∀ p : PendingEnv, p = { records := rs, takeTime := t, group := BitVec.ofNat 32 (fld e 48 4), atTime := isAtTime e, tag := e.tag,
                              sequence := e.sequence, units := units, regions := regions } →
      exec (.envelopeCommit h e) s = .next (complete h 0x0204 e (if isAtTime e then stDeferred else stOk) false 0 []
        (u.upd h (fun x => { x with env := { x.env with pend := some p, group := none, draft := none } })))) ∧
    (∀ rs, Taken h envelopeCommitSpec e none s → (s.half h).bri.fenced = false → (s.half h).env.draft = some rs →
      (s.half h).env.pend = none → (s.half h).env.group = none → (isAtTime e = true → (s.half h).clk.now < atTimeOf e) →
      judgeRecords h rs (e.payload.take 32) = .ok → fld e 48 4 ≠ 0 → u.sparWorks = true →
      ∀ w : GroupWait, w = { group := BitVec.ofNat 32 (fld e 48 4), atTime := if isAtTime e then some (atTimeOf e) else none,
                             arrival := (s.half h).clk.now, tag := e.tag, sequence := e.sequence, records := rs } →
      exec (.envelopeCommit h e) s = .next (complete h 0x0204 e stDeferred false 0 []
        (u.upd h (fun x => { x with env := { x.env with group := some w } })))) ∧
    (∀ p, Taken h envelopeCancelSpec e none s → (s.half h).env.pend = some p → p.group = 0 → p.atTime = false →
      (s.half h).clk.now + 500000 < p.takeTime →
      exec (.envelopeCancel h e) s = .next (complete h 0x0205 e stOk false 0 [] (u.upd h pendDrop))) ∧
    (∀ slot rs t g, Taken h (envelopeReadSpec h e s) e none s → fld e 16 1 = slot → slot ≤ 2 → checkReserved e [(16, 1), (24, 12)] = none →
      slotRead (s.half h).env slot = some (rs, t, g) →
      exec (.envelopeRead h e .ok) s = .next (complete h 0x0206 e stOk true 0 (le 4 (recordsSize rs) ++ le 4 rs.length ++ le 8 t ++ le 4 g)
        { u with hostMem := memWrite (fld e 24 8) (rs.flatMap id) u.hostMem }))

/-- The queries that clear nothing answer with their body (R571, R572). The queries that clear marks on request (R572): a flow's highest loss
and backlog marks, a port's deepest backlogs, a pool's lowest free count, and the lowest credit of the clusters, each restarting from the
present value where it has one. The model's choices in it: logs 19, 25. -/
def Obligations.Queries : Prop :=
  (∀ (h : HalfId) (e : CmdEntry) (s : State),
    QueryAnswers h e s (.queryObject h e .ok) 0x0301 (.types ((List.range 18).map (· + 1) ++ [0x20, 0x21, 0x22, 0x23, 0x24])) 0 (queryObjectBody h e) id ∧
    QueryAnswers h e s (.queryDecode h e .ok) 0x0302 (.types [4]) 0 (queryDecodeBody h e) id ∧
    QueryAnswers h e s (.queryInput h e .ok) 0x0303 (.types [3]) 0 (queryInputBody h e) id ∧
    QueryAnswers h e s (.queryEncode h e .ok) 0x0304 (.types [5]) 0 (queryEncodeBody h e) id ∧
    QueryAnswers h e s (.queryChannel h e .ok) 0x0308 .channel 0 (queryChannelBody h e) id ∧
    QueryAnswers h e s (.queryDma h e .ok) 0x030A .zero 0 (queryDmaBody h) id ∧
    QueryAnswers h e s (.queryEvents h e .ok) 0x030B .zero 0 (queryEventsBody h) id ∧
    QueryAnswers h e s (.queryFilter h e .ok) 0x030C .zero 2 (fun _ => queryFilterBody e) id ∧
    QueryAnswers h e s (.queryHealth h e .ok) 0x030D .zero 0 (queryHealthBody h) id ∧
    QueryAnswers h e s (.queryPtp h e .ok) 0x030E (.types [0x11]) 0 (queryPtpBody h e) id ∧
    QueryAnswers h e s (.queryCues h e .ok) 0x030F .zero 0 (queryCuesBody h) id) ∧
  (∀ (h : HalfId) (e : CmdEntry) (s : State),
    QueryAnswers h e s (.querySurge h e .ok) 0x0305 .zero 0 (querySurgeBody h) (fun v => v.upd h (fun x =>
      { x with obj := { x.obj with clusters := x.obj.clusters.map (fun c =>
        { creditRefill x.clk.now c with lowest := (creditRefill x.clk.now c).credit }) } })) ∧
    QueryAnswers h e s (.queryFlow h e .ok) 0x0306 (.types [2]) 0 (queryFlowBody h e) (fun v => v.upd h (updFlow (hIndex e.handle)
      (fun f => { f with counts := { f.counts with highestLoss := 0, unitMark := 0, pictureMark := 0 } }))) ∧
    QueryAnswers h e s (.queryPort h e .ok) 0x0307 (.types [1]) 0 (queryPortBody h e) (fun v => v.upd h (updPort (hIndex e.handle)
      (fun p => { p with backlog := List.replicate 8 0 }))) ∧
    QueryAnswers h e s (.queryPool h e .ok) 0x0309 (.types [0x0D]) 0 (queryPoolBody h e) (fun v => v.upd h (updPool (hIndex e.handle)
      (fun p => { p with lowestFree := freeCount p }))))

/-! Stream runtime. `x` is the half once the keel has taken the entry. -/

/-- STREAM_START, STREAM_STOP and STREAM_DRAIN of an unguarded object that is no ladder: a stopped object starts at its first boundary at or
after 1 ms from now, a running one stops at once, and a drain of a running one ends at its next boundary and completes later (R573 to
R575). The model's choices in it: log 55. -/
def Obligations.RunCommands : Prop :=
  ∀ (h : HalfId) (e : CmdEntry) (s u : State) (x : Half), u = takeEntry h s → x = u.half h →
    checkReserved e [] = none → checkRunning x e.handle = none → hType e.handle ≠ 6 → isRungZero x e.handle = false →
    runGuarded x e.handle = false → isAtTime e = false →
    (Taken h streamStartSpec e none s → runState x e.handle = .stopped →
      exec (.streamStart h e) s = .next (complete h 0x0401 e stOk false 0
        (le 8 (boundaryFrom x e.handle (x.clk.now + 1000000)) ++ le 1 0) (startObject h (x.clk.now + 1000000) e.handle u))) ∧
    (Taken h streamStopSpec e none s → runState x e.handle = .running → x.env.waitingStarts = [] → x.env.deferred = [] →
      exec (.streamStop h e) s = .next (complete h 0x0402 e stOk false 0 (le 8 (stopBoundary x e.handle) ++ le 1 0) (stopObject h e.handle u))) ∧
    (Taken h streamDrainSpec e none s → runState x e.handle = .running → x.env.waitingStarts = [] →
      ∀ t d, t = boundaryFrom x e.handle (x.clk.now + 1) → d = (⟨0x0403, e, t, false⟩ : Deferred) →
      exec (.streamDrain h e) s = .next (complete h 0x0403 e stDeferred false 0 (le 8 t ++ le 1 0)
        (u.upd h (fun y => (fun z : Half => { z with env := { z.env with deferred := z.env.deferred ++ [d] } }) (drainObject t e.handle y)))))

/-- DECODE_FEED moves the end of a context's feed; with flag bit 0 the fed bytes end an access unit, which is copied to a guarded partner and
joins the context's queue, with an explicit time or the stream's own from the anchor on (R89 to R92, R106). ENCODE_REFRESH and ENCODE_RATE
of an unguarded stream wait for the stream's first picture at or after 1 ms from now (R218, R269, R270); a rate that the stream cannot
take fails with BAD_FIELD at its field. The model's choices in it: logs 40, 56. -/
def Obligations.MediaCommands : Prop :=
  (∀ (h : HalfId) (e : CmdEntry) (s u : State) (x : Half) (r : Record) (d : DecodeSt), u = takeEntry h s → x = u.half h → r = x.record e.handle →
    Taken h decodeFeedSpec e none s → checkReserved e [(16, 24)] = none → checkRunning x e.handle = none → decFeedRegion r ≠ 0 →
    x.obj.decode? (hIndex e.handle) = some d → d.feedEnd < fld e 16 8 → fld e 16 8 ≤ d.consumed + rd r 44 4 → d.discontinuity = false →
    (fld e 32 4 = 0 →
      exec (.decodeFeed h e) s = .next (complete h 0x0410 e stOk false 0 [] (u.upd h (updDecode (hIndex e.handle) (fun q => { q with
        feedEnd := fld e 16 8, feeds := (d.feeds + 1) % 0x100000000, feedSeq := fld e 36 4 }))))) ∧
    (fld e 32 4 = 1 → (rd r 60 1 = 1 → d.anchor.isSome = true ∨ fld e 24 8 ≠ noTime) →
      ∀ v a, v = u.upd h (updDecode (hIndex e.handle) (fun q => { q with
        feedEnd := fld e 16 8, feeds := (d.feeds + 1) % 0x100000000, feedSeq := fld e 36 4
        discontinuity := false, anchor := if rd r 60 1 = 1 ∧ fld e 24 8 ≠ noTime then some (fld e 24 8) else q.anchor, endOfStream := false })) →
      a = ({ presentation := feedTime (rd r 60 1) (fld e 24 8) u.free d.anchor, released := x.clk.now, token := u.free, origin := fld e 36 4
             resume := d.endOfStream, endPos := fld e 16 8, feedSeq := fld e 36 4, feeds := (d.feeds + 1) % 0x100000000 } : AccessUnit) →
      exec (.decodeFeed h e) s = .next (complete h 0x0410 e stOk false 0 []
        (pushUnit h (hIndex e.handle) a (copyUnit h e.handle r a v)).tick1))) ∧
  (∀ (h : HalfId) (e : CmdEntry) (s u : State) (x : Half) (r : Record) (st : EncodeSt), u = takeEntry h s → x = u.half h → r = x.record e.handle →
    checkRunning x e.handle = none → x.obj.encode? (hIndex e.handle) = some st → esGuarded r = false → isAtTime e = false →
    ∀ t, t = esTick x.running r (pictureFrom x.running r st (x.clk.now + 1000000)) →
    (Taken h encodeRefreshSpec e none s → (fld e 16 1 = 1 ∨ fld e 16 1 = 2) → checkReserved e [(16, 1)] = none →
      exec (.encodeRefresh h e) s = .next (complete h 0x0420 e stOk false 0 (le 8 t)
        (u.upd h (updEncode (hIndex e.handle) (fun q => { q with refreshWait := q.refreshWait ++ [{ tick := t, kind := fld e 16 1, cause := 1 }] }))))) ∧
    (Taken h encodeRateSpec e none s → st.rateWait = [] → st.run ≠ .draining → checkReserved e [(16, 17)] = none →
      ∀ p, p = pad 17 e.payload → rateRange p = none →
      ∀ idr bad, idr = rateForcesIdr r st.rate (rateApply r p st.rate) → bad = rateBad x.running r p st.rate →
      exec (.encodeRate h e) s = .next (match bad with
        | none => complete h 0x0421 e stOk false 0 (le 8 t ++ le 1 (b2n idr))
          (u.upd h (updEncode (hIndex e.handle) (fun q => { q with rateWait := q.rateWait ++ [{ tick := t, payload := p, idr := idr }] })))
        | some o => completeFail h 0x0421 e { status := stBadField, step := 6, offset := o } u)))

/-- SURFACE_UPDATE of an unreplicated surface waits for its applied time, 200 µs ahead at the least, or joins the waiting update of the same
buffer and effective time; CUE_ARM and CUE_CANCEL arm and withdraw a cue on every canvas of its group in both halves (R159, R160, R185 to
R188). The model's choices in it: log 41. -/
def Obligations.SceneCommands : Prop :=
  ∀ (h : HalfId) (e : CmdEntry) (s u : State) (x : Half), u = takeEntry h s → x = u.half h →
    (∀ r v a, r = x.record e.handle → x.obj.surface? (hIndex e.handle) = some v → a = updateTime (some v) (fld e 24 1) (fld e 16 8) x.clk.now →
      Taken h surfaceUpdateSpec e none s → fld e 25 1 ≤ 4 → checkReserved e [(16, 10), (28, 32)] = none → checkRunning x e.handle = none →
      fld e 24 1 < rd r 17 1 → (updateRects e).all (rectInside (rd r 18 2) (rd r 20 2)) = true →
      (v.busy.any (fun q => q.1 == fld e 24 1) = true → v.waiting.any (sameUpdate (fld e 24 1) (fld e 16 8)) = true) →
      (rd r 45 1).testBit 1 = false →
      ∀ w : SurfUpdate, w = { buffer := fld e 24 1, effective := fld e 16 8, applied := a, rects := updateRects e, allChanged := fld e 25 1 == 0 } →
      exec (.surfaceUpdate h e) s = .next (complete h 0x0430 e stOk false 0 (le 8 a) (u.upd h (updSurface (hIndex e.handle) (joinUpdate w))))) ∧
    (Taken h cueArmSpec e none s → fld e 24 4 ≠ 0 → fld e 28 1 ≤ 7 → checkReserved e cueFields = none → x.running ≠ [] →
      (armedCues x (fld e 24 4)).length < 4 → x.clk.now + 1000000 ≤ fld e 16 8 →
      ∀ q : Cue, q = { group := BitVec.ofNat 32 (fld e 24 4), sequence := BitVec.ofNat 32 (fld e 32 4), switchTime := fld e 16 8, scene := fld e 28 1
                       partnerArmed := u.sparWorks } →
      exec (.cueArm h e) s = .next (complete h 0x0431 e stOk false 0 (le 1 (b2n (!u.sparWorks)))
        (if u.sparWorks then emit h (.forward (.cueArm q.group q.sequence (fld e 16 8) (fld e 28 1))) (u.upd h (cueArmHalf h q))
         else u.upd h (cueArmHalf h q)))) ∧
    (Taken h cueCancelSpec e none s → fld e 24 4 ≠ 0 → fld e 28 1 ≤ 7 → checkReserved e cueFields = none → x.running ≠ [] →
      x.clk.now + 1000000 ≤ fld e 16 8 →
      ∀ v, v = u.upd h (fun y => { y with obj := { y.obj with canvases := y.obj.canvases.map (fun c =>
        { c with armed := c.armed.filter (fun p => p.group != BitVec.ofNat 32 (fld e 24 4) || p.switchTime != fld e 16 8) }) } }) →
      exec (.cueCancel h e) s = .next (complete h 0x0432 e stOk false 0 []
        (if u.sparWorks then emit h (.forward (.cueCancel (BitVec.ofNat 32 (fld e 24 4)) (fld e 16 8))) v else v)))

/-! Network runtime and memory maintenance. -/

/-- PORT_RESET takes the port down and starts it again; FLOW_MOVE notes the port to move to, and moves a flow that has no picture in hand at
once (R282, R591). The model's choices in it: logs 54, 74. -/
def Obligations.PortCommands : Prop :=
  ∀ (h : HalfId) (e : CmdEntry) (s u : State) (x : Half), u = takeEntry h s → x = u.half h → checkRunning x e.handle = none →
    (Taken h portResetSpec e none s → (x.net.getD (hIndex e.handle) {}).flags.retired = false →
      exec (.portReset h e) s = .next (complete h 0x0501 e stOk false 0 [] (restartPort h (hIndex e.handle) 5 u))) ∧
    (∀ r dst f v, r = x.record e.handle → dst = (if fld e 16 1 = 0 then flPort r else flSecondary r) → flowAt h x e.handle = some f →
      Taken h flowMoveSpec e none s → fld e 16 1 ≤ 1 → checkReserved e [(16, 1)] = none → f.run ≠ .draining → portUp u dst = true →
      (hHalf dst = h ∨ u.sparWorks = true) → v = u.upd h (updFlowAt h e.handle (fun f => { f with moveAt := some (fld e 16 1) })) →
      exec (.flowMove h e) s = .next (complete h 0x0510 e stOk false 0 []
        (if f.pictureOpen = true ∨ f.queue ≠ [] then v else moveNow h e.handle v)))

/-- SHAPER_SET applies its values now, or at its time; GATE_REBASE arms the list of its port again from a new base (R318, R327). The model's
choices in it: logs 73, 74. -/
def Obligations.PacingCommands : Prop :=
  ∀ (h : HalfId) (e : CmdEntry) (s u : State) (x : Half), u = takeEntry h s → x = u.half h → checkRunning x e.handle = none →
    (isAtTime e = true → x.clk.now < atTimeOf e) →
    (∀ d, d = (⟨0x0520, e, atTimeOf e, false⟩ : Deferred) → Taken h shaperSetSpec e none s → (fld e 16 4 = 0xFFFFFFFF ∨ fld e 16 4 ≤ 25000000) →
      (fld e 20 4 = 0 ∨ fld e 20 4 ≤ 16777216 ∧ leastBurst h x e.handle ≤ fld e 20 4) →
      (fld e 24 4 = 0xFFFFFFFF ∨ fld e 24 4 ≤ 1000000) → checkReserved e [(16, 12)] = none →
      exec (.shaperSet h e) s = .next (if isAtTime e then
          complete h 0x0520 e stDeferred false 0 [] (u.upd h (fun y => { y with env := { y.env with deferred := y.env.deferred ++ [d] } }))
        else complete h 0x0520 e stOk false 0 [] (shaperSetDo h e u))) ∧
    (∀ r n start g, r = x.record e.handle → n = rd r 16 4 % 65536 → start = gateStart (fld e 16 8) (rd r 24 4) x.clk.now x.clk.now →
      g = ({ list := hIndex (recHandle r), entries := gateEntries r, cycle := rd r 24 4, start := start, cause := 2 } : GateRun) →
      isAtTime e = false → Taken h gateRebaseSpec e none s → checkReserved e [(16, 8)] = none → (x.net.getD n {}).flags.retired = false →
      exec (.gateRebase h e) s = .next (complete h 0x0521 e stOk false 0 (le 8 start)
        (u.upd h (updPort n (fun q => { q with nextGate := some g, rebase := some (fld e 16 8) })))))

/-- CHANNEL_INSPECT writes the frozen record and the held queue to the host; BLOCK_RETIRE adds blocks to the channel's list, and regions leave
them; CHANNEL_THAW lets a frozen channel run; CHANNEL_RETRAIN starts a retrain (R355, R363 to R365). The model's choices in it: log 58. -/
def Obligations.ChannelCommands : Prop :=
  ∀ (h : HalfId) (e : CmdEntry) (s u : State) (x : Half), u = takeEntry h s → x = u.half h → hHalf e.handle = h →
    (∀ f bytes, Taken h channelInspectSpec e none s → checkReserved e [(16, 12)] = none → (chanAt x (channelOf e)).frozen = some f →
      bytes = inspectBytes h x (channelOf e) f (chanAt x (channelOf e)).queue →
      exec (.channelInspect h e .ok) s = .next (complete h 0x0601 e stOk true 0 (le 4 bytes.length)
        { u with hostMem := memWrite (fld e 16 8) bytes u.hostMem })) ∧
    (∀ k fresh, k = fld e 16 2 → fresh = unionNew (chanAt x (channelOf e)).retiredBlocks ((List.range k).map (fun i => fld e (24 + 8 * i) 8)) →
      Taken h blockRetireSpec e none s → 8 + 8 * k ≤ e.len.toNat → 1 ≤ k → k ≤ 5 → checkReserved e [(16, 2), (24, 8 * k)] = none →
      (∀ i < k, fld e (24 + 8 * i) 8 % 65536 = 0 ∧ fld e (24 + 8 * i) 8 < usableBytes x) → (chanAt x (channelOf e)).flags.retired = false →
      fresh.length ≤ 256 →
      exec (.blockRetire h e) s = .next (complete h 0x0602 e stOk false 0 []
        (settle h (leaveBlocks h (channelOf e) (u.upd h (updChannel (channelOf e) (fun c => { c with retiredBlocks := fresh }))))))) ∧
    (∀ f, Taken h channelThawSpec e none s → checkReserved e [(16, 1)] = none → (chanAt x (channelOf e)).flags.retired = false → (chanAt x (channelOf e)).frozen = some f →
      (fld e 16 1 ≠ 0 ∨ f.address / 65536 * 65536 ∈ (chanAt x (channelOf e)).retiredBlocks) →
      exec (.channelThaw h e) s = .next (complete h 0x0603 e stOk false 0 [] (settle h (leaveBlocks h (channelOf e) (thaw h (channelOf e) f u))))) ∧
    (Taken h channelRetrainSpec e none s → checkReserved e [] = none → (chanAt x (channelOf e)).flags.retired = false → (chanAt x (channelOf e)).frozen = none →
      mayRetrain x (channelOf e) = true →
      exec (.channelRetrain h e) s = .next (complete h 0x0604 e stOk false 0 [] (u.upd h (updTrain (channelOf e) (fun t =>
        { t with retraining := true, runAt := none, repeatAt := none, asked := none })))))

/-! Sequencer diagnostics, counters and faults. -/

/-- SEQ_TRACE with mode 0 ends the trace, and with another mode starts one with its header in the buffer; SEQ_HISTORY writes a unit's history
to the host; DIAG_DUMP waits for its object's next boundary (R482 to R484, R577). The model's choices in it: logs 69, 70. -/
def Obligations.SequencerCommands : Prop :=
  ∀ (h : HalfId) (e : CmdEntry) (s u : State) (x : Half), u = takeEntry h s → x = u.half h →
    (Taken h seqTraceSpec e none s → (blockSource (fld e 16 1)).isSome = true → x.env.running.isSome = true → fld e 17 1 = 0 → fld e 18 1 ≤ 1 →
      checkReserved e [(16, 3), (20, 8), (32, 12)] = none →
      exec (.seqTrace h e) s = .next (complete h 0x0610 e stOk false 0 [] (u.upd h (fun y => { y with ctr := { y.ctr with trace := none } })))) ∧
    (∀ src place t, Taken h seqTraceSpec e none s → blockSource (fld e 16 1) = some src → x.env.running.isSome = true → (fld e 17 1 = 1 ∨ fld e 17 1 = 2) →
      (fld e 17 1 = 2 → (leavers h x src).any (fun p => urgentContext (x.record p.1)) = false) → fld e 18 1 ≤ 1 →
      addressOk (fld e 20 2) = true → addressOk (fld e 22 2) = true → checkReserved e [(16, 3), (20, 8), (32, 12)] = none →
      ∀ region : Handle, region = BitVec.ofNat 32 (fld e 24 4) → hType region = 0x10 → hReserved region = 0 → hHalf region = h → hIndex region < 0xFF00 →
      fld e 32 8 % 4096 = 0 → 8192 ≤ fld e 40 4 → fld e 40 4 ≤ 16777216 → fld e 40 4 % 4096 = 0 → sourceRetired x src = false →
      x.record region ≠ [] → placedAt x (hIndex region) = some place → fld e 32 8 + fld e 40 4 ≤ place.size →
      t = ({ block := fld e 16 1, mode := fld e 17 1, stopAtCheck := fld e 18 1 == 1, startAddr := fld e 20 2, stopAddr := fld e 22 2, region := region
             offset := fld e 32 8, size := fld e 40 4, recording := fld e 20 2 == 0xFFFF } : TraceSt) →
      exec (.seqTrace h e) s = .next (complete h 0x0610 e stOk false 0 [] (u.upd h (fun y =>
        (fun z : Half => { z with ctr := { z.ctr with trace := some t } })
          (match traceBase y t with
           | some a => if onFrozen y a then y else devWrite a (traceHeader t) y
           | none => y))))) ∧
    (∀ src bytes, Taken h seqHistorySpec e none s → blockSource (fld e 16 1) = some src → checkReserved e [(16, 1), (24, 12)] = none →
      sourceRetired x src = false → bytes = historyBytes (unitOf x src).seq →
      exec (.seqHistory h e .ok) s = .next (complete h 0x0611 e stOk true 0 (le 4 bytes.length)
        { u with hostMem := memWrite (fld e 24 8) bytes u.hostMem })) ∧
    (∀ d, d = (⟨0x0612, e, boundaryOf h x e.handle, false⟩ : Deferred) → Taken h diagDumpSpec e none s → hHalf e.handle = h →
      stageOk (hType e.handle) (fld e 20 1) = true → checkReserved e [(16, 5), (24, 12)] = none → checkRunning x e.handle = none →
      fld e 16 4 < diagUnits (x.record e.handle) → urgentContext (x.record e.handle) = false →
      exec (.diagDump h e) s = .next (complete h 0x0612 e stDeferred false 0 []
        (u.upd h (fun y => { y with env := { y.env with deferred := y.env.deferred ++ [d] } }))))

/-- COUNTER_PROGRAM sets the counters of a block that its mask names, all at one time; COUNTER_READ answers with the values and overflow bits
of a block and leaves them (R424, R578). -/
def Obligations.CounterCommands : Prop :=
  ∀ (h : HalfId) (e : CmdEntry) (s u : State) (x : Half), u = takeEntry h s → x = u.half h → fld e 16 1 < 36 →
    (Taken h counterProgramSpec e none s → fld e 18 1 < 8 → fld e 19 1 = 0 →
      ((fld e 18 1).testBit 2 = true ∨ ∀ i < 8, (fld e 17 1).testBit i = true → codeGiven (fld e 16 1) (fld e (20 + i) 1) = true) →
      fld e 29 1 % 2 = 0 → (fld e 29 1).testBit 2 = false → (fld e 29 1).testBit 4 = false → (fld e 29 1).testBit 6 = false → fld e 30 2 = 0 →
      blockRetired x (fld e 16 1) = false →
      exec (.counterProgram h e) s = .next (complete h 0x0701 e stOk false 0 (le 8 x.clk.now)
        (u.upd h (fun y => { y with ctr := { y.ctr with blocks := y.ctr.blocks.modify (fld e 16 1) (programBlock e) } })))) ∧
    (Taken h counterReadSpec e none s → checkReserved e [(16, 1)] = none → ∀ c, c = x.ctr.blocks.getD (fld e 16 1) {} →
      exec (.counterRead h e) s = .next (complete h 0x0702 e stOk false 0
        (c.values.flatMap (fun v => le 4 v.toNat) ++ le 1 c.ovf.toNat ++ le 1 (fld e 16 1)) u))

/-- FAULT_READ without a buffer answers with FLT_STATUS and the number of alarm records, and with one writes counts and records to the host
and takes what its flags name; FAULT_CLEAR clears the masked bits with their interrupt sources; FAULT_INJECT arms a checker; FAULT_ACTION
gives the host's decision; UNIT_RETIRE of a running engine waits for its safe point (R436, R441, R442, R460, R579, R580). The model's
choices in it: logs 66, 67. -/
def Obligations.FaultCommands : Prop :=
  ∀ (h : HalfId) (e : CmdEntry) (s u : State) (x : Half), u = takeEntry h s → x = u.half h →
    (Taken h (faultReadSpec e) e none s → fld e 16 8 = 0 → fld e 28 4 = 0 →
      exec (.faultRead h e .ok) s = .next (complete h 0x0801 e stOk false 0 (le 8 x.flt.status.toNat ++ le 2 x.ev.alarms.length ++ le 2 0) u)) ∧
    (∀ n, n = min ((fld e 24 4 - 512) / 64) x.ev.alarms.length → Taken h (faultReadSpec e) e none s → fld e 16 8 ≠ 0 → fld e 28 4 = 1 →
      exec (.faultRead h e .ok) s = .next (complete h 0x0801 e stOk true 0 (le 8 x.flt.status.toNat ++ le 2 x.ev.alarms.length ++ le 2 n)
        ((hostWrite (fld e 16 8) (faultBytes h x n) u).upd h (fun y => { y with ev := { y.ev with alarms := y.ev.alarms.drop n } })))) ∧
    (∀ mask bits, mask = fld e 16 8 → bits = (maskBits 50 mask).filter (fun n => x.flt.status.getLsbD n) → Taken h faultClearSpec e none s →
      exec (.faultClear h e) s = .next (complete h 0x0802 e stOk false 0 []
        (bits.foldl (fun v n => icuWithdraw h (192 + n) (icuWithdraw h n v))
          (u.upd h (fun y => { y with flt := { y.flt with status := y.flt.status &&& ~~~(BitVec.ofNat 64 mask) } }))))) ∧
    (Taken h faultInjectSpec e none s → fld e 16 1 ≤ 0x1C → fld e 17 1 ≠ 0 → sourceRetired x (checkerSource (fld e 16 1)) = false →
      armedMask x (fld e 16 1) = 0 →
      exec (.faultInject h e) s = .next (complete h 0x0803 e stOk false 0 [] (u.upd h (fun y => { y with flt := { y.flt with
        armed := y.flt.armed.filter (fun p => p.1 != fld e 16 1) ++ [(fld e 16 1, fld e 17 1)] } })))) ∧
    (∀ v, v = u.upd h (fun y => { y with flt := { y.flt with decisions := y.flt.decisions.filter (fun d => d.source != fld e 16 1) } }) →
      Taken h faultActionSpec e none s → fld e 16 1 ≤ 49 → (fld e 17 1 = 1 ∨ fld e 17 1 = 2) → awaitsHost x (fld e 16 1) = true →
      exec (.faultAction h e) s = .next (complete h 0x0804 e stOk false 0 []
        (settle h (if fld e 17 1 = 1 then restartSource h (fld e 16 1) v else retireSource h (fld e 16 1) 2 v)))) ∧
    (∀ w src, w = BitVec.ofNat 32 (fld e 16 4) → w ≠ 0 → handleSource h w = some src → src < 18 → sourceRetired x src = false →
      Taken h unitRetireSpec e none s →
      exec (.unitRetire h e) s = .next (complete h 0x0805 e stOk false 0 []
        (settle h (u.upd h (updUnit src (fun g => { g with toRetire := 3 }))))))

/-! Bridle, security and firmware commands. -/

/-- LEAD_YIELD gives lead and the next epoch to the follower, LEAD_ASSIGN gives both halves the roles and the epoch that it names, and
BRIDLE_READ reports the bridle (R453, R581). ATTEST writes a signed report on a nonce, and CERT_READ the certificate, to host memory
(R504, R505). The signature and the certificate are free values (log 10). The model's choices in it: logs 10, 29, 30. -/
def Obligations.LeadAndAttestCommands : Prop :=
  (∀ (h : HalfId) (e : CmdEntry) (s u : State) (x : Half), u = takeEntry h s → x = u.half h →
    (Taken h leadYieldSpec e none s → x.bri.lead = true → x.bri.fenced = false → u.sparWorks = true → x.bri.partnerLost = false →
      x.bri.epoch ≠ 0xFFFFFFFF →
      exec (.leadYield h e) s = .next (complete h 0x0901 e stOk false 0 (le 4 (x.bri.epoch + 1).toNat)
        (leadSet h false (x.bri.epoch + 1) 7 (leadSet h.other true (x.bri.epoch + 1) 7 (ptpTakes h.other u))))) ∧
    (∀ epoch : W32, epoch = BitVec.ofNat 32 (fld e 20 4) → Taken h leadAssignSpec e none s → fld e 16 1 ≤ 1 →
      checkReserved e [(16, 1), (20, 4)] = none → epochBeats h epoch u = true →
      exec (.leadAssign h e) s = .next (complete h 0x0902 e stOk false 0 [] (assignLead h (halfOf (fld e 16 1)) epoch u))) ∧
    (Taken h bridleReadSpec e none s →
      exec (.bridleRead h e) s = .next (complete h 0x0903 e stOk false 0 (bridleBytes h u) u))) ∧
  (∀ (h : HalfId) (e : CmdEntry) (s u : State), u = takeEntry h s →
    (∀ body, body = attestBody h e u → Taken h attestSpec e none s → fld e 16 32 ≠ 0 → checkReserved e [(16, 44)] = none →
      exec (.attest h e .ok) s = .next (complete h 0x0A01 e stOk true 0 (le 4 336)
        { u with hostMem := memWrite (fld e 48 8) (body ++ pad 64 (Config.identitySignature (digestVal (sha256 body)))) u.hostMem })) ∧
    (∀ c, c = Config.certificate.take 1024 → Taken h certReadSpec e none s → checkReserved e [(16, 12)] = none →
      exec (.certRead h e .ok) s = .next (complete h 0x0A02 e stOk true 0 (le 4 c.length)
        { u with hostMem := memWrite (fld e 16 8) c u.hostMem })))

/-- FW_STAGE writes a piece of a bundle to the inactive slot, whose flags a first piece clears; FW_VERIFY sets VERIFIED on a bundle that
passes and fails with AUTH_FAILED of any other; FW_CONFIRM ends a trial (R501, R502, R582, R583). FW_SECURITY_COMMIT raises the security
counter of both fuse banks to its target and burns the revocations of the running bundles, and a step that does not burn ends it with
INTERNAL and the steps before it burned; FUSE_LOCK burns locks in both banks; both need the programming rail and raise FUSES_BURNED (R489,
R503, R584). The model's choices in it: logs 10, 71. -/
def Obligations.FirmwareAndFuseCommands : Prop :=
  (∀ (h : HalfId) (e : CmdEntry) (s u : State) (b : Bool), u = takeEntry h s →
    (∀ (r : RefFetch) v, inactiveSlot u = some b → Taken h fwStageSpec e (some r) s → fld e 32 8 = 0 → fld e 40 1 = 1 → r.bytes.length % 4096 = 0 →
      r.bytes.length ≤ 0x100000 → u.flash.staging ≠ some h.other →
      v = { slotOf u.flash b with written := false, verified := false, triedE := false, triedW := false, confirmedE := false, confirmedW := false
                                  retired := false, hold := false, staged := r.bytes.length, data := memWrite 0x1000 r.bytes [] } →
      exec (.fwStage h e r) s = .next (complete h 0x0A03 e stOk false 0 (le 8 r.bytes.length)
        { u with flash := { setSlot u.flash b v with staging := some h } })) ∧
    (∀ v bundle, inactiveSlot u = some b → v = slotOf u.flash b → bundle = stagedBundle v.data → Taken h fwVerifySpec e none s → fld e 16 1 ≤ 1 →
      checkReserved e [(16, 1)] = none →
      ∀ judge code, judge = (fun k : HalfId => slotFail (u.half k).boot.fuses (stagedFacts v.data)
        { v with verified := true, retired := false, bundle := bundle }) →
      code = (if judge h = 0 then judge h.other else judge h) →
      exec (.fwVerify h e) s = .next (if code = 0 then complete h 0x0A04 e stOk false 0
          (List.replicate 4 0 ++ le 4 0 ++ le 4 bundle.generation ++ le 1 bundle.security)
          { u with flash := setSlot u.flash b { v with verified := true, bundle := bundle, hold := (fld e 16 1).testBit 0 } }
        else completeFail h 0x0A04 e { status := stAuthFailed, step := 9, detail := le 1 code } u)) ∧
    (Taken h fwConfirmSpec e none s → (u.half h).boot.trial = true → b = (u.half h).boot.slotB →
      ∀ v, v = setConfirmed h (slotOf u.flash b) →
      exec (.fwConfirm h e) s = .next (complete h 0x0A05 e stOk false 0 []
        (event h 0x0A03 sevInfo 0 (le 4 (b2n b) ++ le 4 v.bundle.generation ++ le 4 2)
          (({ u with flash := setSlot u.flash b v } : State).upd h (fun x => { x with boot := { x.boot with trial := false } })))))) ∧
  (∀ (h : HalfId) (e : CmdEntry) (s u v : State), u = takeEntry h s → u.sparWorks = true → u.east.boot.fuses.rail = true → u.west.boot.fuses.rail = true →
    (∀ t a b, t = fld e 16 1 → a = (u.half h).boot.fuses → b = (v.half h).boot.fuses → Taken h fwSecurityCommitSpec e none s → 1 ≤ t → t ≤ 128 →
      checkReserved e [(16, 1)] = none → u.east.alive = true → u.west.alive = true →
      t ≤ u.east.boot.bundle.security → t ≤ u.west.boot.bundle.security →
      (slotOf u.flash u.east.boot.slotB).confirmedE = true → (slotOf u.flash u.east.boot.slotB).confirmedW = true →
      (slotOf u.flash u.west.boot.slotB).confirmedE = true → (slotOf u.flash u.west.boot.slotB).confirmedW = true →
      (∀ w, stepMissing u t w = true → exec (.fwSecurityCommit h { entry := e, unburned := some w }) s = .next (completeFail h 0x0A06 e { status := stInternal, step := 9 }
        (burnUntil h w.1 w.2 u))) ∧
      ∀ burn : Half → Half, burn = (fun x => { x with boot := { x.boot with fuses := { x.boot.fuses with
        counter := max x.boot.fuses.counter t, revocation := revokeBurn x.boot.fuses x.boot.bundle } } }) →
      v = (u.upd .east burn).upd .west burn →
      exec (.fwSecurityCommit h { entry := e }) s = .next (complete h 0x0A06 e stOk false 0
        (le 1 v.east.boot.fuses.counter ++ le 1 v.west.boot.fuses.counter ++ le 1 b.revocation.toNat)
        (event h 0x0A05 sevWarning 0 (le 4 a.counter ++ le 4 b.counter ++ le 4 (b.revocation &&& ~~~a.revocation).toNat ++ le 4 0) v))) ∧
    (∀ f g burned, f = (u.half h).boot.fuses → g = (v.half h).boot.fuses → Taken h fuseLockSpec e none s → fld e 16 1 < 4 →
      checkReserved e [(16, 1), (20, 4)] = none → fld e 20 4 = 0x4B434F4C → u.east.boot.board.digest = u.west.boot.board.digest →
      v = (u.upd .east (burnLocks (fld e 16 1))).upd .west (burnLocks (fld e 16 1)) →
      burned = packBits [g.boardLock && !f.boardLock, g.debugLock && !f.debugLock] →
      exec (.fuseLock h e) s = .next (complete h 0x0A07 e stOk false 0 (le 1 (packBits [g.boardLock, g.debugLock]))
        (event h 0x0A05 sevWarning 0 (le 4 g.counter ++ le 4 g.counter ++ le 4 0 ++ le 4 burned) v))))

/-! Deferred commands and assist entries. `u` is the state once the device has taken the assist entry. -/

/-- AT_TIME_EXECUTION runs a deferred command whose time has come and reports it: SHAPER_SET takes its values, DIAG_DUMP writes its words to
host memory, a stopped object starts; WAITING_START_EXECUTION starts an object whose drain has ended (R49, R50, R77, R577). The model's
choices in it: logs 55, 70. -/
def Obligations.DeferredRuns : Prop :=
  ∀ (h : HalfId) (s : State) (d : Deferred) (drop : State → State), (s.half h).alive = true →
    drop = (fun v => v.upd h (updEnv (fun w => { w with deferred := w.deferred.erase d }))) →
    (∀ i, (s.half h).env.deferred[i]? = some d → d.due ≤ (s.half h).clk.now → deferredHeld (s.half h) d = false → contextWaits (s.half h) d = false → d.fwd = false →
      (d.opcode = 0x0520 → exec (.atTimeExecution h i) s = .next (settle h (deferredEnd h d stOk 0 (drop (shaperSetDo h d.entry s))))) ∧
      (∀ bytes, d.opcode = 0x0612 →
        bytes = diagBytes (s.half h) d.entry.handle (fld d.entry 20 1) (fld d.entry 16 4) d.due →
        exec (.atTimeExecution h i) s = .next (settle h (deferredEnd h d stOk 0
          (drop { s with hostMem := memWrite (fld d.entry 24 8) bytes s.hostMem })))) ∧
      (d.opcode = 0x0401 → hType d.entry.handle ≠ 6 → (recOf (s.half h).running d.entry.handle).isSome = true →
        runState (s.half h) d.entry.handle = .stopped → runGuarded (s.half h) d.entry.handle = false →
        exec (.atTimeExecution h i) s = .next (settle h (deferredEnd h d stOk 0
          (drop (startObject h ((s.half h).clk.now + 1000000) d.entry.handle s)))))) ∧
    (∀ obj, (s.half h).env.waitingStarts.find? (fun d => d.entry.handle == obj) = some d → hType obj ≠ 6 →
      runState (s.half h) obj = .stopped → runGuarded (s.half h) obj = false →
      exec (.waitingStartExecution h obj) s = .next (deferredEnd h d stOk 0 (startObject h ((s.half h).clk.now + 1000000) obj
        (s.upd h (updEnv (fun w => { w with waitingStarts := w.waitingStarts.erase d }))))))

/-- Assist data of an encode stream that is on time is held for its picture, in place of an older entry of its kind (R80, R201, R250, R275). A
concealment instruction to show the concealed picture makes it available; release times are kept for their picture; a supplied buffer in
state 0 joins the pool's queue (R145, R329, R380). A PTP correction in time sets the frequency and steps or slews the phase; a retrain
time is noted for its channel; a lead decision assigns the roles (R290, R355, R454). The model's choices in it: log 3. -/
def Obligations.AssistEntries : Prop :=
  (∀ (h : HalfId) (a : AssistEntry) (p : List Byte) (s u : State) (r : Record), r = (u.half h).record a.handle →
    (u.half h).clk.now < a.time.toNat →
    (Matched h fnRate a p s u → afld p 29 1 ≤ 1 → afld p 30 2 = 0 → afld p 36 4 = 0 → afld p 52 12 = 0 → afld p 40 8 % 64 = 0 →
      afld p 48 2 = esCols r → afld p 50 2 = esRows r →
      exec (.rateAssist h a) s = .next (u.upd h (updEncode (hIndex a.handle) (holdAssist ⟨0x0B01, a.time.toNat, a.sequence.toNat, a.tag.toNat, p⟩)))) ∧
    (Matched h fnMotion a p s u → afld p 28 4 = 0 → afld p 44 1 ≤ 1 → afld p 45 19 = 0 → afld p 40 2 = esCols r → afld p 42 2 = esRows r →
      exec (.coarseMotionHints h a) s =
        .next (u.upd h (updEncode (hIndex a.handle) (holdAssist ⟨0x0B02, a.time.toNat, a.sequence.toNat, a.tag.toNat, p⟩)))) ∧
    (Matched h fnStencil a p s u → hType a.handle = 5 → afld p 28 4 = 0 → afld p 32 8 % 64 = 0 → afld p 44 1 ≤ 1 → afld p 45 19 = 0 →
      afld p 40 2 = esWidth r / 8 → afld p 42 2 = esHeight r / 8 →
      exec (.hostStencil h a) s =
        .next (u.upd h (updEncode (hIndex a.handle) (holdAssist ⟨0x0B03, a.time.toNat, a.sequence.toNat, a.tag.toNat, p⟩))))) ∧
  (∀ (h : HalfId) (a : AssistEntry) (p : List Byte) (s u : State),
    (∀ d q, Matched h fnConceal a p s u → (u.half h).obj.decode? (hIndex a.handle) = some d →
      awaitedPic d a.tag.toNat a.sequence.toNat a.time.toNat = some q → (u.half h).clk.now < q.deadline → afld p 24 1 = 1 → afld p 25 1 = 0 →
      afld p 26 2 = 0 → afld p 28 4 = 0 → afld p 44 20 = 0 →
      exec (.concealmentInstruction h a) s = .next (removeIdle h ((u.upd h (updDecode (hIndex a.handle) (fun d => { d with lastAction := 1 }))).upd h
        (showPicture h (hIndex a.handle) { q with awaiting := false })))) ∧
    (∀ ts, Matched h fnPacing a p s u → (u.half h).clk.now < a.time.toNat → afld p 38 2 = 0 → afld p 44 4 = 0 → afld p 56 8 = 0 →
      afld p 36 2 ≤ 4096 → afld p 32 4 ≤ 1000000000 → afld p 48 8 % 64 = 0 → releaseTimes (u.half h) p = some ts →
      exec (.packetReleaseTimes h a) s = .next (u.upd h (updFlowAt h a.handle (fun f => { f with
        schedules := f.schedules.filter (fun q => q.picture != a.sequence.toNat) ++ [⟨a.sequence.toNat, a.time.toNat, ts, afld p 32 4, 0⟩] })))) ∧
    (∀ i q, q = poolOf (u.half h) (hIndex a.handle) → Matched h fnPool a p s u → afld p 24 1 = 1 → afld p 25 7 = 0 →
      bufIndex (hIndex a.handle) q (afld p 32 8) = some i → i < q.count → heldCount q i = none → afld p 32 8 ∉ q.hostQueue →
      q.hostQueue.length < 1024 → (u.half h).pools.length = 16 → hIndex a.handle < 16 →
      exec (.poolFreeListSupply h a) s = .next (u.upd h (updPool (hIndex a.handle) (fun q => { q with
        supplyAsked := none, hostQueue := q.hostQueue ++ [afld p 32 8] }))))) ∧
  (∀ (h : HalfId) (a : AssistEntry) (p : List Byte) (s u : State),
    (Matched h fnPtp a p s u → (u.half h).ptp.answered = false → (u.half h).clk.now < (u.half h).ptp.deadline →
      (u.half h).ptp.t2 = some a.time.toNat → afld p 28 4 = 0 → afld p 40 24 = 0 →
      exec (.ptpCorrection h a) s = .next (correctPhase h (signed 64 (afld p 32 8))
        (setFrequency h (signed 32 (afld p 24 4)) (u.upd h (fun x => { x with ptp := { x.ptp with answered := true } }))))) ∧
    (∀ m, Matched h fnRetrain a p s u → p.any (fun b => b != 0) = false →
      (chanAt (u.half h) (hIndex a.handle - 0xFF00)).train.asked = some (a.sequence.toNat, m) → (u.half h).clk.now ≤ m →
      (u.half h).clk.now < a.time.toNat →
      exec (.retrainTime h a) s = .next (u.upd h (updTrain (hIndex a.handle - 0xFF00) (fun t => { t with asked := none, runAt := some a.time.toNat })))) ∧
    (∀ epoch : W32, epoch = BitVec.ofNat 32 (afld p 28 4) → Matched h fnLead a p s u → (u.half h).bri.deadline ≠ 0 →
      a.time.toNat = (u.half h).bri.deadline → (u.half h).clk.now ≤ (u.half h).bri.deadline → afld p 24 1 ≤ 1 →
      afld p 25 3 = 0 → (p.drop 8).any (fun b => b != 0) = false → epochBeats h epoch u = true →
      exec (.leadDecision h a) s = .next (assignLead h (halfOf (afld p 24 1)) epoch u)))

/-! Doorbells, DMA registers, unit bits, interrupt controller, BAR windows. `hostReach` says that the host's link is up and the half answers; `w` is
the state once the posted write has been counted. -/

/-- An index write that neither overfills its ring nor moves backwards sets the index; a tail raises the ring's source, and an index that
empties the ring withdraws it (R38, R39). -/
def Obligations.RingIndexWrites : Prop :=
  ∀ (h : HalfId) (v : W32) (s w : State) (r : Rings), w = s.upd h (count 31 0x10 1) → r = (s.half h).rings → hostReach (s.half h) = true →
    (ringFill v r.cmdqHead ≤ 256 → ringFill r.cmdqTail r.cmdqHead ≤ ringFill v r.cmdqHead →
      ∀ t, t = icuRaise h 96 (w.upd h (fun x => { x with rings := { x.rings with cmdqTail := v } })) →
      exec (.cmdqTailWrite h v) s = .next (if v = r.cmdqHead then icuWithdraw h 96 t else t)) ∧
    (ringFill v r.asqHead ≤ 512 → ringFill r.asqTail r.asqHead ≤ ringFill v r.asqHead →
      ∀ t, t = icuRaise h 99 (w.upd h (fun x => { x with rings := { x.rings with asqTail := v } })) →
      exec (.asqTailWrite h v) s = .next (if v = r.asqHead then icuWithdraw h 99 t else t)) ∧
    (ringFill r.cplqTail v ≤ 256 → ringFill r.cplqTail v ≤ ringFill r.cplqTail r.cplqHead →
      ∀ t, t = w.upd h (fun x => { x with rings := { x.rings with cplqHead := v } }) →
      exec (.cplqHeadWrite h v) s = .next (if v = r.cplqTail then icuWithdraw h 97 t else t)) ∧
    (ringFill r.evtqTail v ≤ 1024 → ringFill r.evtqTail v ≤ ringFill r.evtqTail r.evtqHead →
      ∀ t, t = w.upd h (fun x => { x with rings := { x.rings with evtqHead := v } }) →
      exec (.evtqHeadWrite h v) s = .next (if v = r.evtqTail then icuWithdraw h 98 t else t)) ∧
    (ringFill r.asrTail v ≤ 512 → ringFill r.asrTail v ≤ ringFill r.asrTail r.asrHead →
      ∀ t, t = w.upd h (fun x => { x with rings := { x.rings with asrHead := v } }) →
      exec (.asrHeadWrite h v) s = .next (if v = r.asrTail then icuWithdraw h 100 t else t))

/-- The DMA register writes of channels 0 to 30: a kick of a running channel marks a recheck and one of a stopped, enabled channel with a
fresh chain reads its first descriptor; DMA_CHAIN is taken while the channel does not run; ENABLE and DISABLE act at once on an idle
channel; clearing DMA_ERR.VALID restarts channel 31 (R385 to R390). The model's choices in it: log 61. -/
def Obligations.DmaRegisterWrites : Prop :=
  ∀ (h : HalfId) (c : Nat) (s w : State) (d : DmaChan), c < 31 → w = s.upd h (count 31 0x10 1) → d = (s.half h).dma.channels.getD c {} → hostReach (s.half h) = true →
    (d.running = true → exec (.dmaKick h c) s =
      .next (w.upd h (fun x => updChan c (fun d => { d with recheck := true }) (count 27 0x13 1 x)))) ∧
    (d.running = false → d.enable = true → d.chainWritten = true → exec (.dmaKick h c) s =
      .next (readDescriptor h c d.chain (w.upd h (fun x => updChan c (fun d => { d with chainWritten := false }) (count 27 0x13 1 x))))) ∧
    (∀ a, exec (.dmaChainWrite h c a) s = .next (w.upd h (updChan c (fun d =>
      if d.running then { d with chainIgnored := true } else { d with chain := a, chainWritten := true })))) ∧
    (∀ ns, exec (.dmaEnable h c true ns) s = .next (w.upd h (updChan c (fun d =>
      if d.quiescing then { d with noSnoop := ns, lateEnable := true } else { d with noSnoop := ns, enable := true })))) ∧
    (exec (.dmaDisable h c) s = .next
      { w.upd h (fun x => updChan c (dmaDrop x.dma.errValid s.free) x) with free := s.free + 2 }) ∧
    (exec (.dmaErrClear h) s = .next (w.upd h (fun x => { x with dma := { x.dma with
      errValid := false
      channels := (x.dma.channels.map (fun d => { d with quiescing := d.outstanding != 0 || d.stopping })).modify 31
        (fun d => { d with enable := true, busStop := false }) } })))

/-- A host write of 0 to the ENABLE bit of an encode engine in service makes it quiesce, its objects leave, and the checks run again; a write
of 1 to that of one held out puts it back (R543, R544). The interrupt controller's registers: an entry the host owns takes its value,
ICU_SET of a source for software raises it, and a claim of a pending source withdraws it and answers with its number, of any other with
0x3FF; the keel's claim raises the threshold to the source's group priority; the answer of a claim through the partner window comes later
(R400, R402, R405, R408, R409). The model's choices in it: log 65. -/
def Obligations.ControlWrites : Prop :=
  (∀ (h : HalfId) (i : Nat) (s w : State) (f : UnitFlags), w = s.upd h (count 31 0x10 1) → unitAt (w.half h) .enc i = some f →
    hostReach (s.half h) = true → f.present = true →
    (holdRefused (w.half h) .enc i f = false → f.enable = true → f.inService = true → (w.half h).alive = true →
      exec (.unitHold h .enc i) s = .next (settle h (holdUnit h .enc i w))) ∧
    (f.retired = false → f.quiescing = false → f.enable = false →
      exec (.unitReturn h .enc i) s = .next (settle h (w.upd h (updFlags .enc i (fun f => { f with enable := true, inService := true })))))) ∧
  (∀ (ep : HalfId) (s w taken none_ : State) (n : Nat), w = s.upd ep (count 31 0x10 1) →
    taken = icuWithdraw ep n (w.upd ep (fun x => count 33 0x11 1 { x with icu := { x.icu with claimed := bumpSource n x.icu.claimed } })) →
    none_ = w.upd ep (fun x => count 33 0x12 1 { x with icu := { x.icu with spurious := bumpSource n x.icu.spurious } }) →
    (hostReach (s.half ep) = true →
      (∀ value, n < 512 → icuHostOwned n = true → icuReserved n = false → (value.toNat / 256 % 4 = 1 ∨ value.toNat / 256 % 4 = 2) →
        exec (.icuSrcCfgWrite ep ep n value) s = .next (icuPutEntry ep n value.toNat w)) ∧
      (∀ r number, requesterHalf r ep = ep → r ≠ .keel → number.toNat = n → 152 ≤ n → n ≤ 167 →
        exec (.icuSet r ep number) s = .next (icuRaise ep n w)) ∧
      (∀ r number, requesterHalf r ep = ep → r ≠ .keel → number.toNat = n → n < 512 → icuReserved n = false → (s.half ep).icu.pend.getLsbD n = true →
        exec (.icuClaim r ep number) s = .next (icuResult r ep n taken)) ∧
      (∀ r number, requesterHalf r ep = ep → r ≠ .keel → number.toNat = n → n < 512 → (s.half ep).icu.pend.getLsbD n = false →
        exec (.icuClaim r ep number) s = .next (icuResult r ep 0x3FF none_))) ∧
    ((s.half ep).alive = true → ∀ number : W32, number.toNat = n → 168 ≤ n → n ≤ 183 →
      exec (.icuSet .keel ep number) s = .next (icuRaise ep n (s.upd ep (fun x => { x with icu := { x.icu with keelSet := n } })))) ∧
    ((s.half ep).alive = true → ∀ number : W32, number.toNat = n → n < 512 → icuReserved n = false → (s.half ep).icu.pend.getLsbD n = true →
      exec (.icuClaim .keel ep number) s = .next (icuResult .keel ep n (icuServe .keel ep n (icuTake ep n s).1))) ∧
    (∀ v, claimInFlight s .east = some v → s.sparWorks = true →
      ∀ t, t = s.upd .west (fun x => { x with icu := { x.icu with flightE := none } }) →
      exec (.icuPartnerClaimDone .east) s = .next (icuResult .pcieE .west (icuTake .west v t).2 (icuTake .west v t).1)))

/-- A register write of the BAR4 base takes its low 35 bits, and one of RING_ERR clears the bits that it writes as 1; BAR4 reads and writes of
a host-accessible region reach device memory; BAR2 bytes that the host may write land in ring memory; unmasking a vector whose message is
pending sends it (R340, R406, R546, R549). The model's choices in it: logs 63, 64. -/
def Obligations.WindowWrites : Prop :=
  ∀ (h : HalfId) (s w : State) (x : Half), x = s.half h → hostReach x = true → w = s.upd h (count 31 0x10 1) →
    (∀ v : W64, exec (.registerWrite h 0x500 8 v) s = .next (settle h (w.upd h (fun y => { y with dram := { y.dram with
      bar4Base := BitVec.ofNat 64 (v.toNat % 2 ^ 35) } })))) ∧
    (∀ v : W64, exec (.registerWrite h 0x228 4 v) s = .next (settle h (w.upd h (fun y => { y with rings := { y.rings with
      ringErr := w1c y.rings.ringErr (v.toNat % 0x100000000) } })))) ∧
    (∀ o n a, a = bar4Address x.dram o → o + n ≤ x.dram.bar4Size → hostMay h x a n = true → onFrozen x a = false → inHole x a = false →
      exec (.bar4Access h (.read o n)) s = .next ((s.upd h (count 31 0x11 1)).upd h (fun y => { fillsEnd a n y with lastRead := devRead a n y }))) ∧
    (∀ o bytes a, a = bar4Address x.dram o → o + bytes.length ≤ x.dram.bar4Size → hostMay h x a bytes.length = true → onFrozen x a = false →
      inHole x a = false → exec (.bar4Access h (.write o bytes)) s = .next (w.upd h (devWrite a bytes))) ∧
    (∀ o bytes, (∀ i < bytes.length, bar2Writable (i + o) = true) → (∀ i < bytes.length, bar2ReadOnly (i + o) = false) →
      exec (.bar2Write h o bytes) s = .next (w.upd h (fun y => { y with rings := { y.rings with
        mem := memWriteEn o (bytes.map (fun b => (b, true))) y.rings.mem } }))) ∧
    (∀ v, v < 256 → x.pcie.pba.getLsbD v = true → exec (.msixUnmask h v) s = .next (emit h (.msix h v) (w.upd h (fun y =>
      { y with pcie := { y.pcie with msixMask := setBit y.pcie.msixMask v false, pba := setBit y.pcie.pba v false } }))))

/-! What the block does of itself: events, assist requests, envelopes. -/

/-- EVENT_DELIVERY first lets out what overflowed the alarm list at once; then, with a token and room in EVTQ, the first alarm not yet written
goes before any warning, and a warning before any information event; each takes the mark of dropped events of its severity with it (R53,
R54). ASR_BACKLOG_DRAIN moves what waits to ASR while there is room, and ASR_REQUEST_WITHDRAWN gives a request whose deadline has passed
its late-data default (R80, R82). The model's choices in it: logs 62, 72. -/
def Obligations.DeliveryEvents : Prop :=
  ∀ (h : HalfId) (s : State) (x : Half) (v : Events), x = s.half h → v = evRefill x.clk.now x.ev → x.alive = true →
    (x.ev.instant ≠ [] → exec (.eventDelivery h) s = .next (instantOut h s)) ∧
    (x.ev.instant = [] → evToken v = true → evtqFull x = false →
      (∀ front a rest, v.alarms = front ++ a :: rest → (∀ b ∈ front, b.written = true) → a.written = false →
        exec (.eventDelivery h) s = .next (evWrite h a.ev v.markAlarm (s.upd h (fun x => { x with ev := { v with
          alarms := front ++ { a with written := true } :: rest, markAlarm := false } })))) ∧
      (∀ w ws, (∀ b ∈ v.alarms, b.written = true) → v.warnings = w :: ws →
        exec (.eventDelivery h) s = .next (evWrite h w v.markWarn (s.upd h (fun x => { x with ev := { v with
          warnings := ws, markWarn := false } })))) ∧
      (∀ i is, (∀ b ∈ v.alarms, b.written = true) → v.warnings = [] → v.infos = i :: is →
        exec (.eventDelivery h) s = .next (evWrite h i v.markInfo (s.upd h (fun x => { x with ev := { v with
          infos := is, markInfo := false } }))))) ∧
    (∀ a y z, asrFull x = false → nextAssist h x = some (a, y) → z = asrWrite h a (s.upd h (fun _ => y)) →
      (asrFull (z.half h) = true ∨ nextAssist h (z.half h) = none) → exec (.asrBacklogDrain h) s = .next z) ∧
    (∀ n r, x.asr.requests[n]? = some r → r.deadline ≤ x.clk.now →
      exec (.asrRequestWithdrawn h n) s = .next (settle h (requestDefault h r.entry
        (s.upd h (fun y => { y with asr := { y.asr with requests := y.asr.requests.erase r } })))))

/-- A group whose two commits pass the checks of both halves becomes pending in both halves at one time, not less than 500 µs ahead; a commit
whose partner does not arrive within 1 s leaves its slot with the reason "partner absent" (R66, R586). Arming marks every affected object
as one that leaves its running record and gives each new object its stopped state; at the take-over time, with the store intact, the
take-over begins; the 10-second check passes over an intact store and, where a record's CRC does not match, latches source 43 and drops a
take-over that has not begun (R70, R71, R74). The model's choices in it: logs 50, 51, 52. -/
def Obligations.EnvelopeEvents : Prop :=
  (∀ (h : HalfId) (s : State) (a : GroupWait), (s.half h).env.group = some a →
    (∀ b t ua ra ub rb, (s.half h).alive = true → (s.half h).bri.lead = true → (s.half h).bri.fenced = false → s.sparWorks = true →
      (s.half h.other).env.group = some b → a.group = b.group → a.atTime = b.atTime →
      judgeCross h s a.records b.records true = .ok → judgeCross h.other s b.records a.records true = .ok →
      fitCheck h (s.half h) a.records = .ok ua ra → fitCheck h.other (s.half h.other) b.records = .ok ub rb →
      (a.atTime = some t ∨ (a.atTime = none ∧ t = (s.half h).clk.now + 500000)) → (s.half h).clk.now + 500000 ≤ t →
      exec (.envelopeGroupResolved h) s = .next (groupEvent h a.group 0 0 .east 0 t []
        (pendSet h.other (groupPend b t ub rb) (pendSet h (groupPend a t ua ra) s)))) ∧
    (a.arrival + 1000000000 ≤ (s.half h).clk.now → partnerCame h a s = false →
      exec (.groupPartnerTimeout h) s = .next (groupEvent h a.group stInvalid 0x0B h 0 0 absent_
        (s.upd h (fun x => { x with env := { x.env with group := none } }))))) ∧
  (∀ (h : HalfId) (s : State) (x : Half) (p : PendingEnv), x = s.half h → x.alive = true → x.env.pend = some p →
    (p.armed = false →
      exec (.takeoverArm h) s = .next (s.upd h (fun y => (p.records.filter (fun r => (recOf x.runningSlot (recHandle r)).isNone)).foldl (placeholder h p)
        { y with env := { y.env with pend := some { p with armed := true, left := affected y p } } }))) ∧
    (p.begun = false → p.takeTime ≤ x.clk.now → crcFault (x.runningSlot ++ p.records) = none →
      exec (.takeoverTime h) s = .next (takeoverBegin h p s)) ∧
    (x.env.lastCrcCheck + 10000000000 ≤ x.clk.now → crcFault (x.runningSlot ++ p.records) = none →
      exec (.envelopeCrcCheck h) s = .next (s.upd h (fun y => { y with env := { y.env with lastCrcCheck := y.clk.now } }))) ∧
    (∀ o t, x.env.lastCrcCheck + 10000000000 ≤ x.clk.now → crcFault (x.runningSlot ++ p.records) = some o →
      t = s.upd h (fun y => { y with env := { y.env with lastCrcCheck := y.clk.now } }) →
      exec (.envelopeCrcCheck h) s = .next (crcCancel h o (latchHw 6 h 43 false t))))

/-! Stream input and decode. -/

/-- RTP packets that an INPUT's filters let through: one of a payload structure that its format does not use is counted as a structure drop
and marks its access unit; a packet whose access unit's release time has come and a duplicate of a buffered packet are dropped and
counted; any other that fits is inserted in sequence order (R93 to R97). An access unit, up to its marker, whose release time has come
leaves the buffer for its decoder and for a guarded partner, and a copy in flight joins the queue of a guarded context that has no input
of its own (R94, R97, R98, R106). The model's choices in it: log 38. -/
def Obligations.InputEvents : Prop :=
  (∀ (h : HalfId) (s : State) (x : Half) (i : Nat) (n0 : InputSt), x = s.half h → x.obj.input? i = some n0 →
    (∀ (p : RtpPacket) (r : Record) (q : Nat) (b : Nat × Nat) (seq ts : Nat), r = x.record (inputH h i) → x.alive = true →
      (x.net.getD (rd r 16 2) {}).link = .up → packetMine r p = true → n0.highSeq = some q → n0.base = some b →
      seq = extendNear 16 q p.seq.toNat → ts = extendNear 32 n0.highTs p.timestamp.toNat →
      (payloadOk (rd r 20 1) p.payload = false → exec (.rtpPacketReceived h i p) s = .next (s.upd h (updInput i (fun n => { n with
        badTimes := addNew ts n.badTimes, counts := { n.counts with structureDrops := sat32 n.counts.structureDrops } })))) ∧
      (∀ n t, payloadOk (rd r 20 1) p.payload = true → (n0.senderReport = none ∨ n0.mappedFrom ≠ none) →
        n = { n0 with highSeq := some (max seq q), highTs := max ts n0.highTs } → t = s.upd h (updInput i (fun _ => n)) →
        (releaseTime h x n ts ≤ x.clk.now → exec (.rtpPacketReceived h i p) s = .next (noteUnit h i ts p.marker (t.upd h (fun x =>
          count 30 0x12 1 (updInput i (fun n => { n with counts := { n.counts with late := sat32 n.counts.late } }) x))))) ∧
        (x.clk.now < releaseTime h x n ts → (∃ k ∈ n0.packets, k.seq = seq) → exec (.rtpPacketReceived h i p) s = .next (t.upd h (fun x =>
          count 30 0x13 1 (updInput i (fun n => { n with counts := { n.counts with duplicate := sat32 n.counts.duplicate } }) x)))) ∧
        (x.clk.now < releaseTime h x n ts → (∀ k ∈ n0.packets, k.seq ≠ seq) → n0.held + p.bytes ≤ rd r 68 4 → p.noBuffer = false →
          exec (.rtpPacketReceived h i p) s = .next (noteUnit h i ts p.marker (t.upd h (updInput i (fun n => { n with
            packets := insertBy (fun a b => a.seq < b.seq) { seq := seq, timestamp := ts, bytes := p.bytes, marker := p.marker
                                                             arrival := x.clk.now, randomAccess := p.randomAccess } n.packets
            held := n.held + p.bytes, lastSsrc := p.ssrc, lastSource := p.source
            counts := { n.counts with accepted := sat32 n.counts.accepted } }))))))) ∧
    (∀ ts p d unit rest miss bad rel a t, p ∈ n0.packets → p.timestamp = ts → (∀ k ∈ n0.packets, ts ≤ k.timestamp) →
      rel = releaseTime h x n0 ts → rel ≤ x.clk.now → unit = throughMarker (n0.packets.filter (fun k => k.timestamp == ts)) →
      rest = n0.packets.filter (fun k => !unit.contains k) → miss = unitIncomplete n0.nextSeq unit rest → bad = n0.badTimes.contains ts →
      fedBy h x i = some d →
      t = s.upd h (updInput i (fun n => { n with
        packets := rest, held := n.held - total (unit.map (fun k => k.bytes)), nextSeq := some ((unit.map (fun k => k.seq)).getLastD 0 + 1)
        badTimes := n.badTimes.filter (fun v => ts < v), counts := { n.counts with gaps := if miss then sat32 n.counts.gaps else n.counts.gaps } })) →
      a = ({ presentation := rel, released := rel, incomplete := miss || bad, badStructure := bad
             gapBefore := n0.nextSeq.any (fun q => (unit.map (fun k => k.seq)).head? != some q), token := s.free, origin := ts % 2 ^ 32 } : AccessUnit) →
      exec (.accessUnitRelease h i) s = .next (pushUnit h (hIndex (recHandle d)) a (copyUnit h (recHandle d) d a t)).tick1)) ∧
  (∀ (h : HalfId) (s : State) (x : Half) (c : Nat) (d : DecodeSt) (a : AccessUnit) (more : List AccessUnit), x = s.half h →
    x.obj.decode? c = some d → d.copies = a :: more → decPartner (x.record (decodeH h c)) ≠ 0 → decInput (x.record (decodeH h c)) = 0 →
    decFeedRegion (x.record (decodeH h c)) = 0 → s.sparWorks = true →
    exec (.guardedAccessUnitCopy h c a.presentation a.incomplete a.badStructure) s = .next (pushUnit h c a (s.upd h (updDecode c (fun d => { d with copies := d.copies.drop 1 })))))

/-- A decode engine starts the picture it chooses, in both engines of a pair where the picture allows it. A complete access unit whose
operating point is wanted is skipped and counted while the context waits for a start point, refused where its parameters are beyond the
record's limits, and decoded otherwise; the last unit of a feed ends the stream (R83, R87, R92, R100 to R103, R111, R119 to R121). The
model's choices in it: log 9. -/
def Obligations.DecodePictures : Prop :=
  ∀ (h : HalfId) (s : State) (x : Half) (engine c : Nat) (d : DecodeSt) (a : AccessUnit), x = s.half h → x.obj.decode? c = some d →
    (∀ parallel, x.alive = true → decChoose h x engine parallel = some (c, a) → decSwitch h x d a = none →
      (x.dec.getD engine {}).suspended.contains c = false →
      exec (.decodePictureStart h { engine := engine, parallel := parallel }) s = .next (takeoverCheck h (s.upd h (fun z =>
        let y := updDecode c (fun q => { q with inProgress := some a, ready := q.ready.drop 1, lastProgress := z.clk.now }) z
        { y with dec := (decOn h x d a engine parallel).foldl (fun gs e => gs.modify e (fun g => { g with
            current := some c, seq := seqStart 1 false g.seq, suspended := g.suspended.filter (fun k => k != c)
            nextBulk := if decClass (y.record (decodeH h c)) == 2 then c + 1 else g.nextBulk })) y.dec })))) ∧
    (∀ f r b sets t (done : State → State), (x.dec.getD engine {}).current = some c → d.index = c →
      (∀ g ∈ x.dec, g.suspended.contains c = false ∧ (g.current = some c → g.halted = false ∧ g.seq.halt = false)) →
      d.inProgress = some a → r = x.record (decodeH h c) → unitUnwanted r f = false → sets = setsAfter (beforeUnit r a x.clk.now d).sets f.params →
      b = { beforeUnit r a x.clk.now d with sets := sets } →
      t = rejectSets h c f.params (s.upd h (fun x => decRelease b (updDecode c (fun _ => b) x))) →
      done = (fun v => removeIdle h (if a.last then streamEnd h c (if a.endPos != 0 then feedStatus h c a v else v)
        else if a.endPos != 0 then feedStatus h c a v else v)) →
      (b.waitStart = true → f.startPoint = false → b.limitWait = false →
        exec (.decodePictureComplete h engine f) s = .next (done (t.upd h (damageAdd h c 3 1)))) ∧
      (∀ p, (b.waitStart = false ∨ f.startPoint = true) → (f.rasl = false ∨ b.raslSkip = false ∨ f.startPoint = true) →
        (if f.startPoint then (setOf sets f.usesSet).or b.active else b.active) = some p →
        (∀ k v, limitExceeded r p = some (k, v) → b.limitWait = false →
          exec (.decodePictureComplete h engine f) s = .next (done (event h 0x0402 sevWarning (decodeH h c) (le 4 k ++ le 4 v)
            (t.upd h (updDecode c (fun d => { d with limitWait := true, waitStart := true })))))) ∧
        (∀ e, limitExceeded r p = none → rateBeyond r p = false →
          e = { b with active := some p, waitStart := false, limitWait := false, raslSkip := if f.startPoint then b.waitStart && f.cra else b.raslSkip } →
          exec (.decodePictureComplete h engine f) s = .next (done (finishDecoded h c engine e p a f (t.upd h (updDecode c (fun _ => e))))))))

/-- A decoded picture whose time has come is made available; a BULK context with a unit or a suspended picture that has had no engine for 1 s
is reported, at most every 10 s; a refresh request is sent again every 500 ms, and not within 200 ms of another; a picture whose
concealment instruction has not come by its deadline is concealed by default (R103, R104, R141, R149). The model's choices in it: log 39. -/
def Obligations.DecodeTimers : Prop :=
  ∀ (h : HalfId) (s : State) (x : Half) (c : Nat), x = s.half h →
    (∀ d p, x.obj.decode? c = some d →
      d.waiting.find? (fun p => !p.awaiting && p.availableAt ≤ x.clk.now) = some p →
      exec (.pictureAvailable h c) s = .next (removeIdle h (s.upd h (makeAvailable h c p)))) ∧
    (∀ d, x.obj.decode? c = some d → decClass (x.record (decodeH h c)) = 2 → (d.ready ≠ [] ∨ ∃ g ∈ x.dec, g.suspended.contains c = true) →
      d.lastProgress + 1000000000 ≤ x.clk.now → (∀ t, d.lastStarved = some t → t + 10000000000 ≤ x.clk.now) →
      exec (.bulkStarved h c) s = .next (event h 0x0403 sevInfo (decodeH h c) (le 8 d.lastProgress)
        (s.upd h (updDecode c (fun d => { d with lastStarved := some x.clk.now }))))) ∧
    (∀ (n : InputSt) v fir, x.obj.input? c = some n → n.refresh.pending = true → n.refresh.due ≤ x.clk.now → requestSpaced x.clk.now n.refresh = true →
      fir = (rd (x.record (inputH h c)) 74 2).testBit 2 →
      v = (requestSend h c fir n.refresh.sent s).upd h (fun x => updInput c (fun m => { m with refresh := { m.refresh with
            sent := n.refresh.sent + 1, due := x.clk.now + (if 20 ≤ n.refresh.sent then 5000000000 else 500000000) } }) x) →
      (n.refresh.sent ≠ 20 → exec (.refreshRequestRepeat h c) s = .next v) ∧
      (n.refresh.sent = 20 → exec (.refreshRequestRepeat h c) s = .next (event h 0x040C sevWarning (inputH h c)
        (le 8 n.refresh.first ++ le 4 21) v))) ∧
    (∀ d p, x.obj.decode? c = some d → d.waiting.find? (fun p => p.awaiting && p.deadline ≤ x.clk.now) = some p →
      exec (.concealmentDeadline h c) s = .next (removeIdle h (concealLate h c p 1 s)))

/-! Composition and encode. -/

/-- A canvas tick whose time has come and that no take-over touches: a running canvas composes, or repeats while a start waits; a draining one
composes until its drain; a stopped one repeats (R153, R170, R178). A pipe takes the job that it chooses, and an urgent one displaces a
TIMED job (R177). A pipe that completes its band adds the band's changed blocks to the job, which finishes with its last band (R174,
R176). A surface update that waits for its partner's copy: the copy's bytes are written in the other half, it takes one applied time for
both halves, not less than 200 µs ahead, and its command completes with it; while the completion queue is full it goes on waiting (R15,
R42, R160, R182). The model's choices in it: logs 9, 41, 42. -/
def Obligations.CompositionEvents : Prop :=
  (∀ (h : HalfId) (s : State) (x : Half) (i : Nat) (c : CanvasSt) (r : Record), x = s.half h → x.obj.canvas? i = some c →
    r = x.record (canvasH h i) →
    (∀ t v trim, x.alive = true → canvasTouched h x i = none → removedAt x (canvasH h i) t = false → t = cvTick r c.nextTick → t ≤ x.clk.now →
      r ≠ [] → cvGuarded r = false → v = s.upd h (updCanvas i (fun q => { q with nextTick := c.nextTick + 1 })) →
      trim = (fun (w : State) => w.upd h (fun y => ((layersOf h y.running i).filter (fun l => hType (BitVec.ofNat 32 (lySource l)) == 0x0A)).foldl
        (fun y l => surfaceTrim h (lySource l % 0x10000) y) y)) →
      (c.run = .running → c.holdAt = none → c.resumeAt ≤ t → exec (.canvasTick h i) s = .next (trim (runTick h i c.nextTick t v))) ∧
      (c.run = .running → c.holdAt = none → t < c.resumeAt → exec (.canvasTick h i) s = .next (trim (repeatPicture h i c.nextTick t v))) ∧
      (c.run = .draining → t < c.drainAt → exec (.canvasTick h i) s = .next (trim (runTick h i c.nextTick t v))) ∧
      (c.run = .draining → c.drainAt ≤ t → exec (.canvasTick h i) s = .next (trim (repeatPicture h i c.nextTick t v))) ∧
      (c.run = .stopped → exec (.canvasTick h i) s = .next (trim (repeatPicture h i c.nextTick t v)))) ∧
    (∀ pipe g k resumed, x.cmp[pipe]? = some g → x.alive = true → islandOn x (18 + pipe) = true → g.halted = false → g.toRetire = 0 →
      g.flags.inService = true →
      (g.current = none → pipeChoose h x pipe true = some (k, resumed) →
        exec (.compositionJobStart h pipe) s = .next (s.upd h (pipeTake pipe k resumed))) ∧
      (g.current = none → pipeChoose h x pipe true = none → pipeChoose h x pipe false = some (k, resumed) →
        exec (.compositionJobStart h pipe) s = .next (s.upd h (pipeTake pipe k resumed))) ∧
      (g.current = some i → cvUrgent r = false → pipeChoose h x pipe true = some (k, resumed) →
        exec (.compositionJobStart h pipe) s = .next (s.upd h (fun y => count (18 + pipe) 0x14 1 (pipeTake pipe k resumed
          { y with cmp := y.cmp.modify pipe (fun g => { g with suspended := g.suspended ++ [i] }) }))))) ∧
    (∀ pipe g j blocks band tiles found k v, x.cmp[pipe]? = some g → g.halted = false → g.seq.halt = false → g.current = some i → c.index = i →
      c.jobs.find? (fun j => j.bandsLeft.contains pipe) = some j → band = bandRows r j.pipes pipe →
      tiles = j.tiles.filter (fun n => band.1 ≤ n / cvCols r && n / cvCols r < band.2) → found = bandBlocks r j band.1 band.2 blocks →
      k = { j with bandsLeft := j.bandsLeft.filter (fun b => b != pipe), changed := unionNew j.changed found } →
      v = s.upd h (fun y => updCanvas i (fun q => { q with jobs := mapWhere (fun m => m.tick == j.tick) (fun _ => k) q.jobs })
        (count (18 + pipe) 0x12 ((band.2 - band.1) * cvCols r - tiles.length) (count (18 + pipe) 0x15 found.length
          (count (18 + pipe) 0x10 1 (count (18 + pipe) 0x11 tiles.length
            { y with cmp := y.cmp.modify pipe (fun g => { g with current := none, seq := { g.seq with suspend := false } }) }))))) →
      exec (.compositionJobComplete h pipe blocks) s = .next (if j.bandsLeft.filter (fun b => b != pipe) = [] then finishJob h i k v else v))) ∧
  (∀ (h : HalfId) (s : State) (i partner : Nat) (v : SurfaceSt) (w done : SurfUpdate) (e : CmdEntry), (s.half h).obj.surface? i = some v →
    v.waiting.find? (fun q => q.copying.isSome) = some w → w.copying = some e →
    partner = rd ((s.half h).record (surfaceH h i)) 48 4 % 0x10000 →
    done = { w with applied := updateTime (some v) w.buffer w.effective (s.half h).clk.now, copying := none } →
    (cplqFull (s.half h) = true → exec (.surfaceCopyDone h i) s = .next s) ∧
    (cplqFull (s.half h) = false → exec (.surfaceCopyDone h i) s = .next (complete h 0x0430 e stOk false 0 (le 8 done.applied)
      (((surfaceCopy h i partner w s).upd h (updSurface i (fun q =>
        joinUpdate done { q with waiting := q.waiting.filter (fun m => m != w) }))).upd h.other (updSurface partner (joinUpdate done))))))

/-- An idle encode engine in service starts the picture that it chooses or resumes a suspended one. A unit goes to each flow of its stream,
unless the tether has stopped or its crossing halts; a unit of a gang waits until the columns to its left are coded and is then released
in order with those that waited for it. A first waiting picture that has not started a period after its tick will be coded as a repeat
(R28, R213, R220, R221, R242, R296). The partner's CRC of a guarded picture is compared with the own one, or kept until that is there;
absorbed refresh requests are reported at the end of each second; a surge ends 1 s after its last picture; credit below zero for more than
1 s is reported (R218, R228, R254). The model's choices in it: logs 9, 45, 46. -/
def Obligations.EncodeEvents : Prop :=
  (∀ (h : HalfId) (s : State) (x : Half), x = s.half h →
    (∀ engine g i f, x.enc[engine]? = some g → x.alive = true → islandOn x engine = true → g.halted = false → g.toRetire = 0 →
      g.flags.inService = true → g.current = none →
      (encChoose h x engine = some (i, false) → exec (.encodePictureStart h engine f) s = .next (startPicture h engine i f s)) ∧
      (encChoose h x engine = some (i, true) →
        exec (.encodePictureStart h engine f) s = .next (s.upd h (fun y => unitsBegin [engine] (encResume engine i y))))) ∧
    (∀ i e p u r engine, x.obj.encode? i = some e → e.plan = some p → r = x.record (encodeH h i) → engine = unitEngine x r e p u →
      x.bri.tetherStopped = false → u.sizes ≠ [] → (crossingAt x engine 30).halted = false →
      (u.header = true → u.sizes.length = (p.heads.filter HeadUnit.sent).length) →
      (u.header = true ∨ unitsWait r p = false → exec (.encodedUnitHandoff h i u) s = .next (handUnit h e p engine s u)) ∧
      (u.header = false → unitsWait r p = true → mayForm r p u = false → exec (.encodedUnitHandoff h i u) s = .next s) ∧
      (∀ out q, u.header = false → unitsWait r p = true → mayForm r p u = true →
        EncPlan.release r (p.formed.length + 1) (p.form r u) = (out, q) →
        exec (.encodedUnitHandoff h i u) s = .next (out.foldl (fun t v => handUnit h e q (unitEngine x r e p v) t v)
          (s.upd h (updEncode i (fun m => { m with plan := some q })))))) ∧
    (∀ i e p r, x.obj.encode? i = some e → e.ready.head? = some p → r = x.record (encodeH h i) → esDet r = false →
      p.tickTime + (esPicPeriod x.running r).1 / (esPicPeriod x.running r).2 ≤ x.clk.now →
      exec (.encodeLateRepeat h i) s = .next (s.upd h (updEncode i (fun q => { q with lateWaiting := true }))))) ∧
  (∀ (h : HalfId) (s : State) (x : Half), x = s.half h →
    (∀ i e k crc, x.obj.encode? i = some e → s.sparWorks = true → esGuarded (x.record (encodeH h i)) = true →
      (∀ own, e.ownCrcs.find? (fun p => p.1 == k) = some (k, own) → exec (.twinCrcExchange h i k crc) s = .next (twinCompare h i k own crc s)) ∧
      ((∀ p ∈ e.ownCrcs, p.1 ≠ k) → exec (.twinCrcExchange h i k crc) s = .next
        (s.upd h (updEncode i (fun q => { q with partnerCrcs := q.partnerCrcs ++ [(k, crc)] }))))) ∧
    (∀ i e v, x.obj.encode? i = some e → e.intervalStart + 1000000000 ≤ x.clk.now →
      v = s.upd h (updEncode i (fun q => { q with
        intervalStart := e.intervalStart + (x.clk.now - e.intervalStart) / 1000000000 * 1000000000, absorbedInterval := 0 })) →
      (e.absorbedInterval = 0 → exec (.refreshAbsorbed h i) s = .next v) ∧
      (e.absorbedInterval ≠ 0 → exec (.refreshAbsorbed h i) s =
        .next (event h 0x0423 sevInfo (encodeH h i) (le 4 e.absorbedInterval) v))) ∧
    (∀ k c t, x.obj.clusters[k]? = some c → c.lastSurge = some t → c.surging = true → t + 1000000000 ≤ x.clk.now →
      exec (.surgeEnded h k) s = .next (event h 0x0428 sevInfo 0 (le 1 k ++ le 8 (t - c.surgeStart) ++ le 4 c.surgeNow ++ le 8 c.deferNow)
        (s.upd h (updCluster k (fun c => { c with surging := false, surgeNow := 0, deferNow := 0 }))))) ∧
    (∀ k c0 c t, x.obj.clusters[k]? = some c0 → c = creditRefill x.clk.now c0 → c.credit < 0 → c.negativeSince = some t →
      t + 1000000000 < x.clk.now → c.agedAt = none → c.lastSustained = none →
      exec (.surgeSustained h k) s = .next (event h 0x0429 sevWarning 0 (le 1 k ++ le 8 (unsigned 64 (creditWhole c.lowest)) ++ le 4 0)
        (s.upd h (updCluster k (fun _ => { c with lastSustained := some x.clk.now }))))))

/-- A picture that completes: its engines are free and its stream, statistics block, credit, aging and counters move on with it, a late or
truncated picture is reported, stalls are reported for its gang, and the host is offered the next picture's rate; a guarded picture's CRC
goes to the partner half and is compared with the partner's, where that is there. After the move the engines no longer code it, and its
stream's state is the next one (R212, R218, R223, R230, R240, R243, R255, R260, R274). The model's choices in it: logs 43, 45. -/
def Obligations.EncodeComplete : Prop :=
  ∀ (h : HalfId) (s t : State) (x : Half) (engine i : Nat) (e : EncodeSt) (p0 p : EncPlan) (r : Record) (left : Int) (late : Bool), x = s.half h →
    (x.enc.getD engine {}).current = some i → x.obj.encode? i = some e → e.index = i → e.plan = some p0 → r = x.record (encodeH h i) →
    (∀ g ∈ x.enc, g.suspended.contains i = false ∧ (g.current = some i → g.halted = false ∧ g.seq.halt = false)) →
    p = { p0 with filler := (rateAfter x.running r e p0).2 } →
    left = (if e.rate.mode = 3 then e.rate.fullness else e.rate.fullness - ((p.bits + p.filler : Nat) : Int)) →
    late = (p.flags.testBit 1 || (esDet r && decide (p.tickTime + (esPicPeriod x.running r).1 / (esPicPeriod x.running r).2 < x.clk.now))) →
    t = rateOffer h i p (gangStalls h i p
      ((if p.truncN = 0 then (fun v => v) else event h 0x042B sevWarning (encodeH h i) (le 4 e.k ++ le 8 p.tickTime ++ le 4 p.truncAt ++
          le 4 p.truncN ++ le 4 (if p.picType = 0 then 2 else 1) ++ le 4 (unsigned 32 e.rate.fullness) ++ le 4 p.bits))
        ((if late then event h 0x0421 sevWarning (encodeH h i) (le 4 e.k ++ le 8 p.tickTime ++ le 8 x.clk.now ++ le 4 (b2n (p.flags.testBit 2)))
            else (fun v => v))
          (s.upd h (encodeDone h engine e p (rateAfter x.running r e p0) left late))))) →
    ((esGuarded r && t.sparWorks) = false → exec (.encodePictureComplete h engine) s = .next (removeIdle h t)) ∧
    ((esGuarded r && t.sparWorks) = true → (∀ q ∈ e.partnerCrcs, q.1 ≠ BitVec.ofNat 32 e.k) →
      exec (.encodePictureComplete h engine) s = .next (removeIdle h (emit h (.twinCrc (encodeH h i) (BitVec.ofNat 32 e.k) p.crc) t))) ∧
    (∀ crc, (esGuarded r && t.sparWorks) = true → e.partnerCrcs.find? (fun q => q.1 == BitVec.ofNat 32 e.k) = some (BitVec.ofNat 32 e.k, crc) →
      exec (.encodePictureComplete h engine) s = .next (removeIdle h (twinCompare h i (BitVec.ofNat 32 e.k) p.crc crc
        (emit h (.twinCrc (encodeH h i) (BitVec.ofNat 32 e.k) p.crc) t)))) ∧
    (∀ g ∈ (encodeDone h engine e p (rateAfter x.running r e p0) left late x).enc, g.current ≠ some i) ∧
    (hType (esSource r) ≠ 8 → (encodeDone h engine e p (rateAfter x.running r e p0) left late x).obj.encode? i =
      some (encodeNext r (rateAfter x.running r e p0) p late e))

/-! Links and the protocols of a port. -/

/-- A port with a signal adapts; after 10 ms of block lock it is UP with its speed and FEC; a lost signal takes it DOWN; adaptation that fails
is tried again after 100 ms, and its third failure ends in FAILED with an alarm, source 34 + port, and the loss of the port's flows (R280
to R283). The model's choices in it: logs 6, 13. -/
def Obligations.LinkEvents : Prop :=
  ∀ (h : HalfId) (s : State) (x : Half) (n : Nat) (p : PortSt), x = s.half h → x.net[n]? = some p →
    (portEnabled h x n = true →
      exec (.linkSignalDetected h n) s = .next (s.upd h (fun y =>
        (if p.link = .down then adaptStart n else id) (updPort n (fun p => { p with signal := true, transmitter := true }) y)))) ∧
    (portEnabled h x n = true → p.link = .adapting → p.retryAt = none → p.since + 10000000 ≤ x.clk.now →
      exec (.linkUp h n) s = .next (portBack h n (protocolsStart h n
        (event h 0x0501 sevInfo (portH h n) (le 4 (portSpeed h x n) ++ le 4 (portFec h x n) ++ le 4 (p.attempts + 1))
          (s.upd h (updPort n (fun p => { p with
            link := .up, attempts := 0, speed := portSpeed h x n, fec := portFec h x n, ptp := .listening }))))))) ∧
    (∀ cause v, x.boot.inReset = false → 1 ≤ cause → cause ≤ 4 →
      v = s.upd h (updPort n (fun p => { p with signal := p.signal && !(cause == 1 || cause == 4) })) →
      (p.link = .up → exec (.linkDown h n cause) s = .next (ptpLost h n (leaveUp h n cause v))) ∧
      (p.link = .adapting → (cause = 1 ∨ cause = 4) →
        exec (.linkDown h n cause) s = .next (v.upd h (updPort n (fun p => { p with link := .down, retryAt := none })))) ∧
      (p.link = .adapting → (cause = 2 ∨ cause = 3) → exec (.linkDown h n cause) s = .next v)) ∧
    (x.boot.inReset = false → p.link = .adapting → p.retryAt = none → p.since + 500000000 ≤ x.clk.now →
      (p.attempts < 2 → exec (.adaptationTimeout h n) s = .next (s.upd h (updPort n (fun p => { p with
        attempts := p.attempts + 1, retryAt := some (x.clk.now + 100000000) })))) ∧
      (2 ≤ p.attempts → ∀ v, v = s.upd h (updPort n (fun p => { p with attempts := 3, link := .failed, retryAt := none })) →
        exec (.adaptationTimeout h n) s = .next (portLost h n (latchHw 6 h (34 + n) false
          (event h 0x0503 sevAlarm (portH h n) (le 4 3 ++ le 4 (Config.equaliser v.free)) { v with free := v.free + 1 }))))) ∧
    (∀ t, x.boot.inReset = false → p.link = .adapting → p.retryAt = some t → t ≤ x.clk.now →
      exec (.adaptationRetry h n) s = .next (s.upd h (updPort n (fun p => { p with link := .adapting, since := x.clk.now, retryAt := none }))))

/-- IPv4 neighbours, and echo over IPv4 and IPv6, of a port in UP that hears a frame: an ARP request for the port's address is answered and
the address of a target learned; targets are resolved every 60 s; echo requests are answered up to 100 in a second; other frames are
dropped and counted, PAUSE frames with a count of their own (R278, R283, R284). IPv6 neighbours and multicast of a port in UP: during
duplicate address detection another user of the address is a conflict with an alarm, a solicitation of a usable address is answered and a
target's advertisement learned; after 1 s the address is usable; a router is learned where the record names none; a query is answered with
the reports of the joined groups (R283). The model's choices in it: logs 35, 37. -/
def Obligations.AddressEvents : Prop :=
  (∀ (h : HalfId) (s u : State) (n : Nat), portHears h s n = true → (s.half h).alive = true → u = s.upd h (portRx n) →
    (∀ f v, portV4 h (u.half h) n = true →
      v = (if f.senderIp ∈ resolveTargets h (u.half h) n false then u.upd h (learn n f.senderIp f.senderMac) else u) →
      (f.request = true → f.targetIp = portIp h (u.half h) n →
        exec (.arpReceived h n f) s = .next (emit h (.arpReply (portH h n) f.senderIp) v)) ∧
      ((f.request = false ∨ f.targetIp ≠ portIp h (u.half h) n) → exec (.arpReceived h n f) s = .next v)) ∧
    (∀ p, (s.half h).net[n]? = some p → p.nextResolve ≤ (s.half h).clk.now → exec (.arpRefresh h n) s = .next (resolveAll h n s)) ∧
    (∀ v6 p recent, (u.half h).net[n]? = some p → (if v6 then portV6 h (u.half h) n && v6Usable p else portV4 h (u.half h) n) = true → (rd (portRec h (u.half h) n) 18 1).testBit 3 = true →
      recent = p.icmpTimes.filter (fun t => (u.half h).clk.now < t + 1000000000) →
      exec (.icmpEchoReceived h n v6) s = .next (if recent.length < 100 then
        emit h (.echoReply (portH h n)) (u.upd h (updPort n (fun p => { p with icmpTimes := recent ++ [(u.half h).clk.now] })))
        else u.upd h (portDrop n))) ∧
    (exec (.otherFrameReceived h n false) s = .next (u.upd h (portDrop n))) ∧
    (exec (.otherFrameReceived h n true) s = .next
      (u.upd h (updPort n (fun p => { p with counts := { p.counts with pause := sat32 p.counts.pause } }))))) ∧
  (∀ (h : HalfId) (s u : State) (n : Nat), (s.half h).alive = true → u = s.upd h (portRx n) →
    (∀ f p, portHears h s n = true → portV6 h (u.half h) n = true → (u.half h).net[n]? = some p →
      (p.v6ReadyAt ≠ none → f.target = portIp6 h (u.half h) n → (f.dad = true ∨ f.solicitation = false) →
        exec (.neighbourDiscoveryReceived h n f) s = .next (event h 0x0504 sevAlarm (portH h n) (le 4 6 ++ le 8 f.senderMac)
          (u.upd h (updPort n (fun p => { p with v6ReadyAt := none, conflict := true }))))) ∧
      (p.v6ReadyAt = none → p.conflict = false → f.solicitation = true → f.target = portIp6 h (u.half h) n →
        exec (.neighbourDiscoveryReceived h n f) s = .next (emit h (.neighbourReply (portH h n) f.target) u)) ∧
      (f.target ≠ portIp6 h (u.half h) n → f.solicitation = false → f.target ∈ resolveTargets h (u.half h) n true →
        exec (.neighbourDiscoveryReceived h n f) s = .next (u.upd h (learn n f.target f.senderMac)))) ∧
    (∀ p t, (s.half h).net[n]? = some p → p.v6ReadyAt = some t → t ≤ (s.half h).clk.now →
      exec (.dadComplete h n) s = .next (resolveAll h n (s.upd h (updPort n (fun p => { p with v6ReadyAt := none }))))) ∧
    (∀ router mac, portHears h s n = true → portV6 h (u.half h) n = true → rd (portRec h (u.half h) n) 56 16 = 0 →
      exec (.routerAdvertisementReceived h n router mac) s = .next
        (u.upd h (fun y => learn n router mac (updPort n (fun p => { p with learnedGateway := router }) y)))) ∧
    (∀ q : MulticastQuery, portHears h s n = true → (if q.v6 then portV6 h (u.half h) n else portV4 h (u.half h) n) = true →
      exec (.multicastQueryReceived h n q) s = .next (reportGroups h n false q.oldVersion
        ((groupsOf h (u.half h) n q.v6).filter (fun g => q.group == 0 || g.1 == q.group))
        (u.upd h (updPort n (fun p => { p with oldQuerier := q.oldVersion }))))))

/-! PTP, RTCP and pacing. `home` is the half whose clock a port serves. -/

/-- PTP messages of the slave port: a one-step Sync sets t1 and t2 and ends the exchange's first half, a two-step one waits for its Follow_Up;
the Delay_Resp gives delay and offset, which the servo corrects or, in host mode, the host is asked to (R288 to R290). Times carry the
port's receive asymmetry. PTP of a master port and of the clock: a Delay_Req is answered, Sync with its Follow_Up as a two-step master and
Announce leave at their intervals; an Announce of a PTP port runs the best master choice, and one that does not come within the receipt
timeout is forgotten, the slave port with it; a PPS edge, where the board has the input, is the whole second that the host counts;
HOLDOVER_EXPIRED is raised once (R286 to R288, R291). The model's choices in it: logs 6, 35, 36. -/
def Obligations.PtpEvents : Prop :=
  (∀ (h home : HalfId) (s u : State) (n : Nat), portHears h s n = true → home = ptpHome s h → (s.half home).alive = true →
    u = s.upd h (portRx n) → (u.half home).ptp.slavePort = some (portH h n) →
    (∀ (origin receive : Nat) v t2, (u.half home).ptp.nextSlave = none → v = servoDeadline home u →
      t2 = ((receive : Int) - signed 16 (rd (portRec h (v.half h) n) 74 2)).toNat →
      exec (.ptpSyncReceived h n false origin receive) s =
        .next (syncDone home (v.upd home (updPtp (fun q => { q with t1 := some origin, t2 := some t2, awaitFollowUp := false })))) ∧
      exec (.ptpSyncReceived h n true origin receive) s =
        .next (v.upd home (updPtp (fun q => { q with t1 := none, t2 := some t2, awaitFollowUp := true })))) ∧
    (∀ origin, (u.half home).ptp.awaitFollowUp = true →
      exec (.ptpFollowUpReceived h n origin) s =
        .next (syncDone home (u.upd home (updPtp (fun q => { q with t1 := some origin, awaitFollowUp := false }))))) ∧
    (∀ (receive t1 t2 t3 : Nat) (d : Int) v, (u.half home).ptp.t1 = some t1 → (u.half home).ptp.t2 = some t2 → (u.half home).ptp.t3 = some t3 →
      d = ((t2 : Int) - t1 + ((receive : Int) - t3)) / 2 →
      v = u.upd home (updPtp (fun q => { q with delay := d, offset := (t2 : Int) - t1 - d, delayKnown := true, t3 := none })) →
      (modeHost (v.half home) fnPtp (ptpH home) = false →
        exec (.ptpDelayRespReceived h n receive) s = .next (correctPhase home (-((t2 : Int) - t1 - d))
          (setFrequency home (Config.servoFrequency v.free) { v with free := v.free + 1 }))) ∧
      (∀ due, modeHost (v.half home) fnPtp (ptpH home) = true → due = t2 + logInterval (ptpField v home 22 1 0) →
        exec (.ptpDelayRespReceived h n receive) s = .next (asrRequest home
          { kind := 0x0B07, tag := 0, handle := ptpH home, sequence := 0, time := t2
            payload := le 8 t1 ++ le 8 t2 ++ le 8 t3 ++ le 8 receive ++ le 4 (unsigned 32 (v.half home).clk.freqAdj) } due
          (v.upd home (updPtp (fun q => { q with deadline := due, answered := false }))))))) ∧
  (∀ (h home : HalfId) (s u : State) (n : Nat) (p : PortSt), home = ptpHome s h → u = s.upd h (portRx n) → (s.half h).net[n]? = some p →
    (∀ receive : Nat, portHears h s n = true → p.ptp = .master →
      exec (.ptpDelayReqReceived h n receive) s = .next (emit h (.ptpDelayResp (portH h n)
        ((receive : Int) - signed 16 (rd (portRec h (u.half h) n) 74 2)).toNat) u)) ∧
    (∀ a, portHears h s n = true → (s.half home).alive = true → portH h n ∈ ptpPorts s home →
      exec (.ptpAnnounceReceived h n a) s = .next (bmca home (s.upd h (fun x =>
        portRx n (updPort n (fun p => { p with announce := some a, announceAt := x.clk.now }) x))))) ∧
    (∀ v, (s.half home).alive = true → p.announce ≠ none →
      p.announceAt + ptpField s home 25 1 3 * logInterval (ptpField s home 23 1 1) ≤ (s.half h).clk.now →
      v = s.upd h (updPort n (fun p => { p with announce := none })) →
      exec (.announceReceiptTimeout h n) s = .next (if (v.half home).ptp.slavePort = some (portH h n) then slaveLost home v else v)) ∧
    (portHears h s n = true → p.ptp = .master →
      (p.announceSentAt = 0 ∨ p.announceSentAt + logInterval (ptpField s home 23 1 1) ≤ (s.half h).clk.now) →
      exec (.ptpMasterInterval h n true) s = .next (emit h (.ptpAnnounce (portH h n))
        (s.upd h (updPort n (fun p => { p with announceSentAt := (s.half h).clk.now }))))) ∧
    (∀ v, portHears h s n = true → p.ptp = .master →
      (p.syncSentAt = 0 ∨ p.syncSentAt + logInterval (ptpField s home 22 1 0) ≤ (s.half h).clk.now) →
      v = emit h (.ptpSync (portH h n) (((s.half h).clk.now : Int) + signed 16 (rd (portRec h (s.half h) n) 72 2)).toNat)
        (s.upd h (updPort n (fun p => { p with syncSentAt := (s.half h).clk.now }))) →
      exec (.ptpMasterInterval h n false) s = .next (if (ptpFlags v home).testBit 1 then emit h (.ptpFollowUp (portH h n)) v else v)) ∧
    (∀ second : Nat, home = h → (s.half h).alive = true → (ptpFlags s h).testBit 2 = true → (s.half h).boot.board.ppsFitted = true →
      exec (.ppsInputEdge h second) s = .next
        (correctPhase h ((second : Int) * 1000000000 - signed 32 (ptpField s h 44 4 0) - ((s.half h).clk.now : Int)) s)) ∧
    (∀ t, (s.half h).ptp.holdoverSince = some t → (s.half h).ptp.state = .holdover → (s.half h).ptp.holdoverRaised = false →
      t + ptpHoldover s h * 1000000000 ≤ (s.half h).clk.now →
      exec (.holdoverExpired h) s = .next (event h 0x0508 sevWarning (ptpH h) (le 8 t)
        (s.upd h (updPtp (fun p => { p with holdoverRaised := true }))))))

/-- RTCP: a sender report gives an INPUT the TAI time of its RTP time; feedback for a flow's SSRC asks its stream for a refresh, but a FIR
seen before is only counted; a receiver report leaves its loss fields and a NACK is counted; both reports leave at their time (R95, R99,
R298, R299). The model's choices in it: logs 6, 9. -/
def Obligations.RtcpEvents : Prop :=
  ∀ (h : HalfId) (s : State) (x : Half), x = s.half h → x.alive = true →
    (∀ i ntp rtp, exec (.rtcpSenderReportReceived h i ntp rtp) s = .next (s.upd h (updInput i (fun n => { n with
      senderReport := some (((ntp : Int) + (s.half (ptpHome s h)).ptp.utcOffset * 1000000000).toNat, rtp) })))) ∧
    (∀ i g v, x.obj.flow? i = some g → flFlag (x.record (flowH h i)) 2 = true → v = s.upd h (count (28 + hIndex g.port % 2) 0x17 1) →
      (∀ f, f.mediaSsrc = g.ssrc → f.fir = false → exec (.rtcpFeedbackReceived h i f) s = .next
        (streamFeedback h (hIndex (flStream (x.record (flowH h i)))) (v.upd h (updFlow i (fun g => { g with
          counts := { g.counts with pli := sat32 g.counts.pli } }))))) ∧
      (∀ f, f.mediaSsrc = g.ssrc → f.fir = true → (∀ q ∈ g.firLast, q ≠ (f.sender, f.firSequence)) →
        exec (.rtcpFeedbackReceived h i f) s = .next (streamFeedback h (hIndex (flStream (x.record (flowH h i)))) (v.upd h (updFlow i (fun g =>
          { g with firLast := g.firLast.filter (fun p => p.1 != f.sender) ++ [(f.sender, f.firSequence)]
                   counts := { g.counts with fir := sat32 g.counts.fir } }))))) ∧
      (∀ f, f.mediaSsrc = g.ssrc → f.fir = true → (f.sender, f.firSequence) ∈ g.firLast →
        exec (.rtcpFeedbackReceived h i f) s = .next (v.upd h (updFlow i (fun g => { g with
          firLast := g.firLast.filter (fun p => p.1 != f.sender) ++ [(f.sender, f.firSequence)]
          counts := { g.counts with firRepeats := sat32 g.counts.firRepeats, fir := sat32 g.counts.fir } }))))) ∧
    (∀ i r, flFlag (x.record (flowH h i)) 2 = true → exec (.rtcpReceiverReportReceived h i r) s =
      .next (s.upd h (updFlow i (fun g => { g with counts :=
        if r.nack then { g.counts with nack := sat32 g.counts.nack }
        else { g.counts with reports := sat32 g.counts.reports, highestLoss := max g.counts.highestLoss r.fractionLost
                             cumulativeLost := r.cumulativeLost } })))) ∧
    (∀ i f, x.obj.flow? i = some f → flFlag (x.record (flowH h i)) 1 = true → f.path ≠ .standby → f.path ≠ .stopped → f.path ≠ .stranded →
      f.nextReport ≤ x.clk.now →
      exec (.senderReportTimer h i) s = .next (emit h (.senderReport (flowH h i) f.ssrc
          ((f.lastSentAt : Int) - (s.half (ptpHome s h)).ptp.utcOffset * 1000000000) (rtpTime (rd (x.record (flowH h i)) 68 4) f.lastSentAt)
          (cname x.boot.fuses.serial.toNat) (flDest (x.record (flowH h i)))
          (if rd (x.record (flowH h i)) 80 2 = 0 then rd (x.record (flowH h i)) 52 2 + 1 else rd (x.record (flowH h i)) 80 2))
        (({ s with free := s.free + 1 } : State).upd h (updFlow i (fun f => { f with nextReport := x.clk.now + reportInterval s.free }))))) ∧
    (∀ i n, x.obj.input? i = some n → (rd (x.record (inputH h i)) 74 2).testBit 1 = true → n.nextReport ≤ x.clk.now →
      exec (.receiverReportTimer h i) s = .next (emit h (.receiverReport (inputH h i))
        (({ s with free := s.free + 1 } : State).upd h (updInput i (fun n => { n with
          nextReport := x.clk.now + reportInterval s.free, counts := { n.counts with reports := sat32 n.counts.reports } })))))

/-- A port whose transmitter is free starts the packet that the order of R323 picks among those that may leave, whose gate is open and which
fit the rest of the window, and counts once a packet that does not fit; gate windows and gate lists change at their times; an undercoat
flow sends a picture each period (R305, R321 to R326). The model's choices in it: logs 6, 33, 34. -/
def Obligations.PacingEvents : Prop :=
  ∀ (h : HalfId) (s : State) (x : Half) (n : Nat) (q : PortSt), x = s.half h → x.net[n]? = some q →
    (∀ open_ fits may c v, x.boot.inReset = false → x.env.running ≠ none → changeDue x = false → x.bri.tetherStopped = false →
      x.bri.mediaStopped = false → q.link = .up → q.flags.retired = false → islandOn x (28 + n) = true → q.busyUntil < 100 * x.clk.now + 100 →
      may = (portHeads h x (portH h n)).filter (mayLeave s h n) → open_ = may.filter (fun c => (gateMask q x.clk.now).testBit c.st.cls) →
      fits = (fun c : Candidate => gateHolds 20 q c.st.cls x.clk.now (lineTime q x.clk.now + c.packet.wire * byteTime h x n)) →
      v = (open_.filter (fun c => !fits c && !c.packet.counted)).foldl (fun t c => t.upd h (fun y => count 30 0x11 1 (updFlowAt h c.flow
        (fun f => { f with queue := match f.queue with | k :: ks => { k with counted := true } :: ks | [] => [] }) y))) s →
      (pickPacket (open_.filter fits) = some c → exec (.packetStart h n) s = .next (startPacket h n c v)) ∧
      (pickPacket (open_.filter fits) = none → exec (.packetStart h n) s = .next v)) ∧
    (∀ g w, q.gate = some g → g.windowEnd ≤ x.clk.now → w = gateWindow g x.clk.now →
      exec (.gateWindowChange h n) s = .next (s.upd h (updPort n (fun p => { p with gate := some { g with windowEnd := w.2, mask := w.1 } })))) ∧
    (∀ g w, q.nextGate = some g → g.start ≤ x.clk.now → x.boot.inReset = false → w = gateWindow g x.clk.now →
      exec (.gateListStarted h n) s = .next (event h 0x050E sevInfo (gateH h g.list) (le 8 g.start ++ le 8 g.cycle ++ le 4 g.cause)
        (s.upd h (updPort n (fun p => { p with nextGate := none, gate := some { g with windowEnd := w.2, mask := w.1 } }))))) ∧
    (∀ flow f m tick r size limit k sizes (v : State) (y : Half), flowAt h x flow = some f → flowMirror h x flow f = some m →
      tick = nextPictureTick m x.clk.now → f.path = .undercoat → tick ≤ x.clk.now → removedAt x flow tick = false → x.boot.inReset = false →
      x.env.running ≠ none → x.bri.tetherStopped = false → r = flowRec h x flow → size = Config.undercoatBytes s.free % (257 + m.cols * m.rows / 4) →
      limit = max 1 (payloadLimit r) → k = max 1 (ceilDiv size limit) →
      sizes = (List.range k).map (fun j => wireBytes r (min limit (size - j * limit)) false) →
      y = count (28 + hIndex f.port % 2) 0x16 1 (updFlowAt h flow (fun f => { f with
          picture := f.picture + 1, lastTick := tick, undercoatPics := f.undercoatPics + 1, firstMissingCtu := 0
          frame := undercoatFrame m.codec f.frame, counts := { f.counts with undercoat := sat32 f.counts.undercoat } })
        (undercoatPackets h flow (f.picture + 1) tick sizes x)) →
      v = ({ s with free := s.free + 1 } : State).upd h (fun _ =>
        if hHalf flow = h ∧ (y.obj.flows.find? (fun g => flStream (y.record (flowH h g.index)) == flStream r)).any (fun g => g.index == f.index) = true
        then updEncode (hIndex (flStream r)) (fun e => { e with
          rate := (modelAdvance y.running (y.record (flStream r)) e.rate e.k (8 * size)).1, k := (e.k + 1) % 0x100000000 }) y
        else y) →
      exec (.undercoatPictureTick h flow) s = .next (emit h (.undercoatPicture flow tick (undercoatContent m.codec m.sets m.frame)) v))

/-! The spar link and lead. -/

/-- What a half's receiver sees of the link declares it down on 8 failed flits, 2 µs without acknowledgement or 2 µs without idle, and leaves
it up otherwise; it works again on its pin; after 3 µs of hold-off a follower whose partner's tether is alive takes lead (R21, R285, R449,
R459). The partner's tether: lost after it was seen alive, never seen 2 s after the own one started, or alive again; HALF_STOPPED,
TAKEOVER and STOP_ACK, and the time within which STOP_ACK has to come (R444, R448, R449, R458). The model's choices in it: logs 31, 32. -/
def Obligations.PartnerEvents : Prop :=
  (∀ (h : HalfId) (s : State) (x : Half), x = s.half h →
    (∀ events y, x.boot.inReset = false → x.bri.sparUp = true → y = events.foldl laneSees x →
      (laneFails y = none → exec (.sparDown h events) s = .next (settle h (s.upd h (fun _ => y)))) ∧
      (∀ cause v seen, laneFails y = some cause → seen = (y.bri.partnerSeen && !y.bri.partnerLost) →
        v = linkGone h (ptpSplit h (event h 0x0903 sevAlarm 0 (le 4 cause ++ le 4 (b2n seen)) (latchHw 6 h 30 false
          (s.upd h (fun _ => updBri (fun b => { b with sparUp := false, downSince := y.clk.now, outages := sat32 b.outages, holdoff := seen
                                                       unacked := [], crcRun := 0 })
            { y with obj := { y.obj with decodes := y.obj.decodes.map (fun d => { d with copies := [] }) } }))))) →
        exec (.sparDown h events) s = .next (settle h (if y.bri.takeoverSent = none then v else foreignSessions h v)))) ∧
    (∀ v w lead, x.boot.inReset = false → x.bri.sparUp = false → s.sparPhys = true → x.boot.stage = 7 →
      v = event h 0x0904 sevInfo 0 (le 8 (x.clk.now - x.bri.downSince)) (s.upd h (updBri (fun b => { b with
        sparUp := true, holdoff := false, idleAt := x.clk.now }))) →
      lead = (if v.east.bri.lead then HalfId.east else .west) →
      w = (if v.east.bri.lead = v.west.bri.lead then v else v.upd lead.other (fun y => { y with clk := (v.half lead).clk })) →
      exec (.sparUp h) s = .next (settle h (if v.sparWorks then rejoin .west (rejoin .east w) else v))) ∧
    (x.alive = true → x.bri.sparUp = false → x.bri.holdoff = true → x.bri.downSince + 3000 ≤ x.clk.now → x.bri.partnerLost = false →
      x.bri.tetherStopped = false →
      exec (.sparDownHoldoffExpiry h) s = .next (leadTrigger h 3 (s.upd h (updBri (fun b => { b with holdoff := false })))))) ∧
  (∀ (h : HalfId) (s : State) (x : Half), x = s.half h → x.alive = true →
    (x.bri.partnerSeen = true → x.bri.partnerLost = false → x.bri.partnerStopped = false → x.bri.tetherStopped = false →
      exec (.partnerTetherLost h) s = .next (settle h (partnerGone h 1 none
        (latchHw 6 h 41 false (s.upd h (updBri (fun b => { b with partnerLost := true, holdoff := false }))))))) ∧
    (∀ v, x.bri.tetherRun = true → x.bri.partnerSeen = false → x.bri.partnerAbsent = false → x.bri.tetherStart + 2000000000 ≤ x.clk.now →
      v = latchHw 6 h 41 false (s.upd h (updBri (fun b => { b with partnerAbsent := true }))) →
      ∀ w, w = event h 0x0902 sevAlarm 0 (le 4 3 ++ le 8 (v.half h).clk.now) v →
      exec (.partnerAbsent h) s = .next (settle h (if (w.half h).bri.lead || x.bri.tetherStopped then w else leadSet h true 2 6 w))) ∧
    (x.boot.inReset = false → (s.half h.other).bri.tetherRun = true → (x.bri.partnerSeen = false ∨ x.bri.partnerLost = true) →
      exec (.partnerSeenAlive h) s = .next (s.upd h (updBri (fun b => { b with
        partnerSeen := true, partnerLost := false, partnerAbsent := false, partnerStopped := false })))) ∧
    (∀ flows v, s.sparWorks = true → x.bri.partnerStopped = false → x.bri.tetherStopped = false →
      v = s.upd h (updBri (fun b => { b with partnerStopped := true })) →
      exec (.halfStoppedReceived h flows) s = .next (settle h (if x.bri.partnerLost then foreignSessions h v else partnerGone h 2 (some flows) v))) ∧
    (x.boot.inReset = false → s.sparWorks = true → x.bri.tetherStopped = false →
      exec (.takeoverReceived h) s = .next (emit h (.stopAck (flowSeqs h x)) (s.upd h (updBri (fun b => { b with mediaStopped := true }))))) ∧
    (∀ flows, s.sparWorks = true → x.bri.takeoverSent ≠ none →
      exec (.stopAckReceived h flows) s = .next (settle h (foreignSessions h (ownSessions h flows s)))) ∧
    (∀ t, x.bri.takeoverSent = some t → t + 2000 ≤ x.clk.now →
      exec (.takeoverReplyTimeout h) s = .next (settle h (foreignSessions h s))))

/-- What the link brings: the partner's claim and epoch, the last sequence number of a flow, an announced unit and its acknowledgement, the
mirrored state of a flow, and a copy of a packet, for which there may be no buffer (R302, R306, R308, R450, R457). A command that the
partner has forwarded takes its place on this half: a refresh, a rate change and feedback wait for their picture, a run command for its
time, a cue is armed or withdrawn (R186, R227, R576). The model's choices in it: logs 29, 33. -/
def Obligations.SparMessages : Prop :=
  (∀ (h : HalfId) (s : State) (x : Half), x = s.half h → x.boot.inReset = false →
    (∀ claim epoch v, x.bri.sparUp = true → v = s.upd h (updBri (fun b => { b with partnerEpoch := epoch })) →
      (claim = false → exec (.bridleClaimReceived h claim epoch) s = .next v) ∧
      (claim = true → x.bri.lead = false → exec (.bridleClaimReceived h claim epoch) s = .next (v.upd h (updBri (fun b => { b with epoch := epoch })))) ∧
      (claim = true → x.bri.lead = true → ∀ w, w = v.upd h (updBri (fun b => { b with conflicts := sat32 b.conflicts })) →
        exec (.bridleClaimReceived h claim epoch) s = .next (if hostLead h w then askLead h 4 w else conflictDo h w))) ∧
    (∀ r mine, s.sparWorks = true → mine = (x.obj.flows.map (fun f => flowH h f.index)).filter (fun f =>
        f == r.flow || flPartner (x.record f) == r.flow) →
      exec (.sequenceReportReceived h r) s = .next (s.upd h (fun y => mine.foldl (fun y f => updFlowAt h f (fun g =>
        if g.path = .standby then { g with reported := some r.lastSent, queue := queueAfter r.lastSent g.queue } else g) y) y))) ∧
    (∀ a y, s.sparWorks = true → hHalf a.flow ≠ h →
      y = (if (flowAt h x a.flow).isSome then x else { x with obj := { x.obj with foreign := x.obj.foreign ++ [{
        index := hIndex a.flow, path := .standby, port := 0, ssrc := 0, nextSeq := a.firstSeq, sentSeq := a.firstSeq - 1
        copyOf := (s.half h.other).record a.flow }] } }) →
      exec (.unitAnnouncementReceived h a) s = .next (emit h (.announcementAck a.flow)
        (s.upd h (fun _ => updFlowAt h a.flow (fun f => { f with acked := some a }) y)))) ∧
    (∀ flow, hHalf flow = h → exec (.unitAnnouncementAck h flow) s = .next (s.upd h (updFlowAt h flow (fun f => { f with
      acked := f.announced, queue := f.queue.map (fun p => { p with held := false }) })))) ∧
    (∀ flow m r p y, s.sparWorks = true → hHalf flow ≠ h → r = (s.half h.other).record flow → p = flowParams (s.half h.other) r →
      y = (if (flowAt h x flow).isSome then x else { x with obj := { x.obj with foreign := x.obj.foreign ++ [{
        index := hIndex flow, path := .standby, port := 0, ssrc := m.ssrc, nextSeq := m.nextSeq, sentSeq := m.nextSeq - 1 }] } }) →
      exec (.mirrorStateReceived h flow m) s = .next (s.upd h (fun _ => updFlowAt h flow (fun f => { f with
        mirror := some m, copyOf := r, cls := flowClass (s.half h.other) r, ssrc := m.ssrc, sets := m.sets
        bucket := if f.path = .standby then bucketNew p.1 p.2 y.clk.now else f.bucket
        nextSeq := if f.path = .standby then m.nextSeq else f.nextSeq
        frame := if f.path = .standby then m.frame else f.frame
        openFrame := if f.path = .standby then m.openFrame else f.openFrame }) y))) ∧
    (∀ flow seq picture f g k p v, s.sparWorks = true → hHalf flow ≠ h → flowAt h x flow = some f →
      flowAt h.other (s.half h.other) flow = some g → g.queue.find? (fun q => q.seq == seq) = some k → p = { k with held := false } →
      v = s.upd h.other (updFlowAt h.other flow (fun g => { g with queue := g.queue.filter (fun k => k.seq != seq) })) →
      exec (.partnerCopyReceived h flow seq picture none) s = .next v ∧
      ∀ bytes, exec (.partnerCopyReceived h flow seq picture (some bytes)) s = .next (v.upd h
        (updFlowAt h flow (fun f => { f with
          queue := f.queue ++ [p], nextSeq := seq + 1, picture := picture, lastTick := p.tick, pictureOpen := !p.pictureLast })))) ∧
    (∀ flow seq picture f g k p, s.sparWorks = true → hHalf flow = h → flowAt h x flow = some f →
      flowAt h.other (s.half h.other) (flPartner (x.record flow)) = some g → g.queue.find? (fun q => q.seq == seq) = some k →
      p = { k with held := false } →
      exec (.partnerCopyReceived h flow seq picture none) s = .next (s.upd h (updFlowAt h flow (fun f =>
        if seqAfter seq f.sentSeq = false ∨ f.path = .standby then f else { f with copyMissed := some picture, copies := [] }))) ∧
      ∀ bytes, exec (.partnerCopyReceived h flow seq picture (some bytes)) s = .next (s.upd h (updFlowAt h flow (fun f =>
        if seqAfter seq f.sentSeq = false ∨ f.path = .standby ∨ f.copyMissed.any (fun m => picture ≤ m) = true then f
        else if f.copyFrom = h then { f with copyMissed := none, copies := f.copies.filter (fun q => picture < q.picture + 2) ++ [p] }
        else { f with copyMissed := none, queue := f.queue ++ [p]
                      nextSeq := if (x.obj.encode? (hIndex (flStream (x.record flow)))).any (fun e =>
                        e.run == .halted || e.restartAt.any (fun t => decide (p.tick < t))) then seq + 1 else f.nextSeq }))))) ∧
  (∀ (h : HalfId) (s : State), (s.half h).alive = true → s.sparWorks = true →
    (∀ stream kind tick, exec (.sparForwardedCommand h (.encodeRefresh stream kind tick)) s =
      .next (s.upd h (addRefresh (hIndex stream) kind 1 tick))) ∧
    (∀ stream tick, exec (.sparForwardedCommand h (.feedback stream tick)) s = .next (s.upd h (addRefresh (hIndex stream) 1 2 tick))) ∧
    (∀ stream payload tick, exec (.sparForwardedCommand h (.encodeRate stream payload tick)) s = .next (s.upd h (fun x =>
      updEncode (hIndex stream) (fun e =>
        let before := e.rateWait.foldl (fun q w => rateApply (x.record stream) w.payload q) e.rate
        { e with rateWait := e.rateWait ++ [{ tick := tick, payload := payload, fwd := true,
                                              idr := rateForcesIdr (x.record stream) before (rateApply (x.record stream) payload before) }] }) x))) ∧
    (∀ object action tick d, d = ({ opcode := 0x0401 + action, entry := { handle := object }, due := tick, fwd := true } : Deferred) →
      exec (.sparForwardedCommand h (.run object action tick)) s =
        .next ((if action = 0 then s else cancelStarts h object s).upd h
          (fun x => { x with env := { x.env with deferred := x.env.deferred ++ [d] } }))) ∧
    (∀ group sequence t scene, exec (.sparForwardedCommand h (.cueArm group sequence t scene)) s = .next (s.upd h
      (cueArmHalf h { group := group, sequence := sequence, switchTime := t, scene := scene, partnerArmed := true }))) ∧
    (∀ group t, exec (.sparForwardedCommand h (.cueCancel group t)) s = .next (s.upd h (cueCancelHalf group t))))

/-! Faults and sequencers. -/

/-- A pin that rises latches its source, marked as injected where an armed checker meets it, which is then disarmed; a flit that fails its
parity latches source 29 and its request fails; a misuse of a crossing halts it and latches the source of its producer, and any other
operation is done; a decision that the host has not given within its window is taken by default; a watchdog that firmware has not kicked
latches source 49 (R20, R28, R434, R437, R441, R442, R446). Sequencers: at a safe point a unit that is to retire retires, one with a
suspension pending suspends, any other clears its safe-point counter; a running unit that fetches a word of good parity within 2,048
clocks runs it, and a word of bad parity is a machine check of cause 1 with the groups that fail; the word's type is the dispatch type of
R469; a reloaded store whose fetched bundle has its key, version and measurement and that reads back well brings its unit back, and the
round of 60 s reads back every idle unit (R468 to R470, R472, R476 to R479). The model's choices in it: logs 28, 66, 69. -/
def Obligations.FaultEvents : Prop :=
  (∀ (h : HalfId) (s : State),
    (∀ source, source < 44 ∨ 48 ≤ source → (∀ c, pinChecker source = some c → exec (.faultLatched h (.pin source)) s =
        .next (settle h (latchHw 6 h source (armedMask (s.half h) c != 0) (s.upd h (disarm c))))) ∧
      (pinChecker source = none → exec (.faultLatched h (.pin source)) s = .next (settle h (latchHw 6 h source false s)))) ∧
    (∀ k v, v = pinRises h 29 s →
      ((v.half h).fabric.scrim[k]? = none → exec (.faultLatched h (.flit k)) s = .next (settle h v)) ∧
      (∀ t, (v.half h).fabric.scrim[k]? = some t →
        exec (.faultLatched h (.flit k)) s = .next (settle h (requestFails h t (v.upd h (scrimLeaves t 0x11)))))) ∧
    (∀ p c op f, (s.half h).boot.inReset = false → f = crossingAt (s.half h) p c →
      (f.halted = true → exec (.faultLatched h (.crossing p c op)) s = .next (settle h s)) ∧
      (f.halted = false → crossingBad f op = true → exec (.faultLatched h (.crossing p c op)) s = .next (settle h
        (pinRises h (crossingSource p) (s.upd h (updCrossing p c (fun f => { f with halted := true })))))) ∧
      (f.halted = false → crossingBad f op = false →
        exec (.faultLatched h (.crossing p c op)) s = .next (settle h (crossingDo h p c op s)))) ∧
    (∀ source d, (s.half h).flt.decisions.find? (fun d => d.source == source) = some d → (s.half h).alive = true →
      d.time + (reactionOf h (s.half h) source).decide_ * 1000000 ≤ (s.half h).clk.now →
      exec (.reactionDefaulted h source) s = .next (settle h (event h 0x0804 sevWarning 0
        (le 4 source ++ le 4 (if retiresNow h (s.half h) source then 2 else 1)) (reactSecond h source (s.upd h (decided source)))))) ∧
    ((s.half h).alive = true → exec (.keelWatchdogExpiry h) s = .next (latchHw 6 h 49 false s))) ∧
  (∀ (h : HalfId) (s : State) (x : Half) (block src : Nat) (g : EngineSt), x = s.half h → blockSource block = some src → g = unitOf x src →
    x.alive = true →
    (∀ i, g.current = some i → g.halted = false → g.seq.halt = false →
      (g.toRetire ≠ 0 → exec (.safePoint h block) s = .next (settle h (retireEngine h src g.toRetire s))) ∧
      (g.toRetire = 0 → suspensionPending h x src i = true → exec (.safePoint h block) s =
        .next (settle h (s.upd h (fun y => suspendDo src i (if src < 8 then producerStops src y else y))))) ∧
      (g.toRetire = 0 → suspensionPending h x src i = false → exec (.safePoint h block) s =
        .next (settle h (s.upd h (updUnit src (fun g => { g with seq := { g.seq with clocks := 0 } })))))) ∧
    (∀ cond given type ctu stalled upset v q w i, g.current = some i → g.halted = false → (stalled && safePointActs h x src) = false →
      (8 ≤ src → src < 14 → given ≤ 4) → type = dispatchType h x src i ctu given →
      v = s.upd h (updUnit src (fun g => { g with seq := storeFlip src g.seq.address upset g.seq })) → q = (unitOf (v.half h) src).seq →
      w = storeWord src q.address q → (14 ≤ src ∨ armedMask (v.half h) src = 0) →
      (∀ next, badGroups w = 0 → nextAddress src q w (conditionOf h (v.half h) src i ctu w cond) type = .inr next →
        q.clocks + wordCycles w < 2048 →
        exec (.machineCheck h block cond given ctu stalled upset) s = .next (settle h (wordRuns h src w next ctu stalled v))) ∧
      (badGroups w ≠ 0 → ∀ r : TraceRec, r = { time := x.clk.now, address := q.address, next := 0, code := wordOp w, flags := 8, ctu := ctu % 65536 } →
        (v.half h).clk.now = x.clk.now →
        exec (.machineCheck h block cond given ctu stalled upset) s = .next (settle h
          (machineCheckDo h src 1 (badGroups w) false (v.upd h (traceWord (sourceBlock src) r false true)))))) ∧
    (∀ fetched since, g.seq.reloadSince = some since → x.bri.tetherStopped = false → g.flags.retired = false → awaitsHost x src = false →
      (fetched = none → reserveFrozen x = false) →
      (fetched.all (fetchedOk x src) = true → exec (.storeReloaded h block fetched 0) s = .next (settle h (restartSource h src
        (event h 0x0807 sevInfo 0 (le 4 block ++ le 4 (if fetched.isSome then 2 else 1) ++ le 8 (x.clk.now - since))
          (s.upd h (updUnit src (fun g => { g with seq := { g.seq with store := [], check := none, reloadSince := none } }))))))) ∧
      (∀ item n, fetched = some item → fetchedOk x src item = false → exec (.storeReloaded h block fetched n) s = .next (settle h
        (latchHw 6 h 37 false (s.upd h (updUnit src (fun g => { g with seq := { g.seq with reloadSince := none } })))))) ∧
      (fetched.all (fetchedOk x src) = true →
        exec (.storeReloaded h block fetched 2) s = .next (settle h (latchHw 6 h src false (latchHw 6 h src false s))))) ∧
    (∀ upset, x.bri.tetherStopped = false → (∀ t, x.flt.readback = some t → t + 60000000000 ≤ x.clk.now) →
      exec (.readbackRound h [(block, upset)]) s = .next (settle h ((List.range 18).foldl (readBackUnit h)
        (s.upd h (fun y => updUnit src (fun g => { g with seq := storeFlip src (upset.1 % 4096) upset.2 g.seq })
          { y with flt := { y.flt with readback := some y.clk.now } }))))))

/-! DRAM. -/

/-- The memory controller: issued requests enter the scrim and those that arrive join the queue, and the one that it chooses is issued; idle
pages close; a refresh that no level-3 request postpones refreshes one bank and those owed; a window's end clears the activate tables; MR4
sets the window from the fastest rate of the dies; a clear block's zero-fill ends with what waits for it (R19, R344 to R349, R358, R359).
The scrubber of an idle channel reads its next valid block: a clean one only moves the position, one single-bit error is corrected and
written back, a double-bit error is reported; with no block left the pass ends (R357, R358). The model's choices in it: logs 21, 59, 60. -/
def Obligations.DramEvents : Prop :=
  (∀ (h : HalfId) (s : State) (x : Half) (n : Nat) (c : ChannelSt), x = s.half h → x.dch[n]? = some c → n < 4 → x.boot.inReset = false →
    (∀ issued arrivals ecc v q, v = s.upd h (fun y => markLate h n (arrivals.foldl (scrimArrive n) (scrimIssue n issued y))) → (chanAt (v.half h) n).frozen = none →
      (chanAt (v.half h) n).flags.retired = false → islandOn (v.half h) (22 + n) = true →
      (dramChoose h (v.half h) n = some q → exec (.dramRequest h n { issued := issued, arrivals := arrivals } ecc) s = .next (settle h (dramIssue h n q ecc v))) ∧
      (dramChoose h (v.half h) n = none → exec (.dramRequest h n { issued := issued, arrivals := arrivals } ecc) s = .next (settle h v))) ∧
    (∀ bank, exec (.pageIdleTimeout h n bank) s = .next (s.upd h (fun y => updChannel n (fun c => { c with
      pages := c.pages.filter (fun p => !(p.1 == bank && decide (p.2.2 + idleTimer h y n ≤ y.clk.now))) }) y))) ∧
    (c.train.trained = true → c.flags.retired = false → c.lastRefresh + refreshInterval c.window ≤ x.clk.now →
      (∀ q ∈ c.queue, x.clk.now - q.arrival < latencyTarget h x n q.req.port) →
      ∀ banks, banks = (List.range (c.postponed + 1)).map (fun i => (c.refBank + i) % 128) →
      exec (.dramRefresh h n) s = .next (s.upd h (updChannel n (fun c => { c with
        postponed := 0, lastRefresh := x.clk.now, refBank := (c.refBank + banks.length) % 128
        pages := c.pages.filter (fun p => !banks.contains p.1) })))) ∧
    (c.train.trained = true → c.flags.retired = false → c.windowAt + c.window ≤ x.clk.now →
      exec (.refreshWindowEnd h n) s = .next (s.upd h (updChannel n (fun c => { c with tables := [], throttles := [], windowAt := x.clk.now })))) ∧
    (∀ rates temp rate, c.train.trained = true → c.flags.retired = false → c.lastPoll + 4000000 ≤ x.clk.now → rate = max 4 (maxOf rates) →
      exec (.mr4Poll h n rates temp) s = .next (s.upd h (updChannel n (fun c => { c with
        lastPoll := x.clk.now, window := 32000000 * 4 / rate, interval := refreshInterval (32000000 * 4 / rate)
        train := { c.train with temp := temp } })))) ∧
    (∀ block, onFrozen x (block * 65536) = false → exec (.zeroFillDone h block) s = .next (s.upd h (fillEnd block)))) ∧
  (∀ (h : HalfId) (s : State) (x : Half) (n word : Nat) (c : ChannelSt), x = s.half h → x.dch[n]? = some c → x.boot.inReset = false →
    c.train.trained = true → c.flags.retired = false → c.frozen = none → c.queue = [] → armedMask x (0x12 + n) = 0 → armedMask x (0x16 + n) = 0 →
    (∀ ecc b v, scrubNext x n c.scrub.position = some b → (ecc = .clean ∨ ecc = .queueParity) →
      v = s.upd h (updChannel n (fun c => { c with scrub := { c.scrub with
        position := b + 1, done := c.scrub.done + 1, written := c.scrub.written + 0 } })) →
      exec (.scrubStep h n ecc word) s = .next (settle h (if (scrubNext (v.half h) n (b + 1)).isNone then scrubLap h n v else v))) ∧
    (∀ b syn wrong check v, scrubNext x n c.scrub.position = some b →
      v = eccApply h n (b * 65536 + word % 8192 * 8) 10 2 (.double syn wrong check) false (s.upd h (updChannel n (fun c => { c with
        scrub := { c.scrub with position := b + 1, done := c.scrub.done + 1, written := c.scrub.written + 0 } }))) →
      exec (.scrubStep h n (.double syn wrong check) word) s = .next (settle h
        (if (chanAt (v.half h) n).frozen.isNone && (scrubNext (v.half h) n (b + 1)).isNone then scrubLap h n v else v))) ∧
    (∀ b syn v, scrubNext x n c.scrub.position = some b →
      v = dramCorrect h n (b * 65536 + word % 8192 * 8) syn 10 false (s.upd h (updChannel n (fun c => { c with scrub := { c.scrub with
        position := b + 1, done := c.scrub.done + 1, written := c.scrub.written + 1 } }))) →
      exec (.scrubStep h n (.single syn) word) s = .next (settle h
        (if (chanAt (v.half h) n).frozen.isNone && (scrubNext (v.half h) n (b + 1)).isNone then scrubLap h n v else v))) ∧
    (∀ ecc, scrubNext x n c.scrub.position = none → c.scrub.done ≠ 0 →
      exec (.scrubStep h n ecc word) s = .next (settle h (scrubLap h n s))))

/-- Training and evacuation: a retrain that is due runs by the hardware or is asked of the host, whose silence by the deadline lets the
hardware run it; sixteen lanes that all pass take the centres of their windows, and a failed retrain is reported and repeated after 1 ms
until the fourth latches source 22 + n; a region's copy ends in its new place, and the reserve is in its new place (R336, R350 to R355).
The model's choices in it: log 58. -/
def Obligations.TrainingEvents : Prop :=
  ∀ (h : HalfId) (s : State) (x : Half) (n : Nat) (t : TrainSt), x = s.half h → t = (chanAt x n).train →
    (mayRetrain x n = true → t.repeatAt = none → t.runAt = none →
      (∀ due, retrainDue h x n = some due → modeHost x fnRetrain (channelH h n) = false →
        exec (.retrainStart h n) s = .next (s.upd h (retrainRun n))) ∧
      (∀ due d, retrainDue h x n = some due → modeHost x fnRetrain (channelH h n) = true → t.asked = none → d = due + retrainNs h x n →
        exec (.retrainStart h n) s = .next (asrRequest h
          { kind := 0x0B08, tag := 0, handle := channelH h n, sequence := t.requests, time := d, payload := [] } d
          (s.upd h (updTrain n (fun q => { q with asked := some (q.requests, d), requests := (q.requests + 1) % 0x100000000 })))))) ∧
    (∀ k, mayRetrain x n = true → (t.repeatAt = some k ∨ t.runAt = some k) → k ≤ x.clk.now →
      exec (.retrainStart h n) s = .next (s.upd h (retrainRun n))) ∧
    (∀ lanes, t.retraining = true →
      (lanes.length = 16 → (∀ l ∈ lanes, sweepPass l = true) → exec (.retrainDone h n lanes) s = .next (settle h (s.upd h (updTrain n (fun q => { q with
        retraining := false, lanes := sweepTaps q.lanes lanes, last := x.clk.now, lastTemp := q.temp, fails := 0 }))))) ∧
      (∀ v k, lanes.length ≠ 16 ∨ (∃ l ∈ lanes, sweepPass l = false) → k = t.fails % 4 + 1 →
        v = event h 0x0605 sevWarning (channelH h n) (le 4 k ++ le 4 (packBits (lanes.map (fun l => !sweepPass l))) ++ le 4 (unsigned 32 t.temp))
          (s.upd h (updTrain n (fun q => { q with
            retraining := false, fails := k, last := x.clk.now, lastTemp := q.temp
            repeatAt := if k < 4 then some (x.clk.now + 1000000) else none }))) →
        (k < 4 → exec (.retrainDone h n lanes) s = .next (settle h v)) ∧
        (k = 4 → modeHost ((latchHw 6 h (22 + n) false v).half h) fnReaction (mkHandle 0x0E h (22 + n)) = false →
          exec (.retrainDone h n lanes) s = .next (settle h (evacBegin h n 0 (latchHw 6 h (22 + n) false v)))))) ∧
    (∀ seq d v, t.asked = some (seq, d) → d ≤ x.clk.now → v = assistLate h 0x0B08 0 (channelH h n) seq d 1 s →
      exec (.retrainDeadline h n) s = .next (if mayRetrain (v.half h) n then v.upd h (retrainRun n)
        else v.upd h (updTrain n (fun t => { t with asked := none })))) ∧
    (∀ c region v l rest, (∀ k, k < n → (chanAt x k).evac = none) → x.dch[n]? = some c → c.evac = some v → v.copying = true →
      v.left = (region, l) :: rest → exec (.regionCopyDone h region) s = .next (settle h (regionCopied h n s))) ∧
    (∀ old o c a started copied, x.dram.reserve = some (old, o) → x.dram.reserveMove = some (c, a, started, copied) →
      exec (.reserveMoved h) s = .next (settle h (event h 0x0611 sevWarning (channelH h c)
        (le 4 old ++ le 8 a ++ le 4 (if copied then 1 else 2) ++ le 8 (x.clk.now - started))
        (s.upd h (fun y => { y with dram := { y.dram with reserve := some (c, a), reserveMove := none } })))))

/-! Pools and DMA. -/

/-- The pool manager: an allocation that a pool can serve takes a buffer of the first such pool in the order of R375, an encode engine's from
its cluster's stop; one that none can is refused; an add raises a held buffer's count up to 255; a release of the last reference frees it;
a rebuilt list stands again; an unanswered supply request is reported late once (R372 to R376, R380). The model's choices in it: log 62. -/
def Obligations.PoolEvents : Prop :=
  ∀ (h : HalfId) (s : State) (x : Half), x = s.half h → x.boot.inReset = false →
    (∀ stop pool0 size n order, 1 ≤ n → n ≤ 255 → 1 ≤ size → size ≤ 0x400000 → order = poolOrder pool0 size →
      (∀ p, order.find? (poolServes x) = some p → p ≠ 0 → exec (.poolAllocate h stop pool0 size n) s = .next (poolTake h p stop n s)) ∧
      (order.find? (poolServes x) = some 0 →
        exec (.poolAllocate h stop pool0 size n) s = .next (poolTake h 0 stop n (s.upd h (count 26 0x15 1)))) ∧
      (order.find? (poolServes x) = none →
        exec (.poolAllocate h stop pool0 size n) s = .next (poolRefuse h (order.getD 0 1) stop size s))) ∧
    (∀ engine g size n p, x.enc[engine]? = some g → engine < 8 → g.flags.retired = false → 1 ≤ n → n ≤ 255 → 1 ≤ size → size ≤ 0x400000 →
      (poolOrder false size).find? (poolServes x) = some p → p ≠ 0 →
      exec (.poolAllocRetry h engine size n) s = .next (poolTake h p (encClusterOf engine) n s)) ∧
    (∀ stop a n p i c, poolOld x a = none → poolFind x a = some (p, i) → heldCount (poolOf x p) i = some c →
      (c + n ≤ 255 → exec (.poolAdd h stop a n) s =
        .next (s.upd h (updPool p (fun q => { q with held := mapWhere (fun e => e.1 == i) (fun _ => (i, c + n)) q.held })))) ∧
      (255 < c + n → exec (.poolAdd h stop a n) s = .next (poolCorrupt h p 3 a stop s)) ∧
      (∀ v, v = s.upd h (fun y => count 26 0x11 1 (updPool p (fun q => { q with releases := sat32 q.releases }) y)) →
        (c = 0 → exec (.poolRelease h stop a) s = .next (poolCorrupt h p 1 a stop s)) ∧
        (c = 1 → exec (.poolRelease h stop a) s = .next (poolFree h p i a v)) ∧
        (2 ≤ c → exec (.poolRelease h stop a) s = .next
          (v.upd h (updPool p (fun q => { q with held := mapWhere (fun e => e.1 == i) (fun _ => (i, c - 1)) q.held })))))) ∧
    (∀ p q, q = poolOf x p → q.rebuilding = true → (chanAt x (chanOf q.base)).frozen = none →
      exec (.poolRebuilt h p) s = .next (event h 0x060E sevInfo (mkHandle 0x0D h p) (le 4 (freeCount q) ++ le 4 (x.clk.now - q.rebuildSince))
        (s.upd h (fun y => count 26 0x14 1 (updPool p (fun q => { q with rebuilding := false, rebuilds := sat32 q.rebuilds }) (poolThread p y)))))) ∧
    (∀ p d, (poolOf x p).supplyAsked = some d → d ≤ x.clk.now →
      exec (.poolSupplyDeadline h p) s = .next (assistLate h 0x0B06 0 (mkHandle 0x0D h p) 0 d 1
        (s.upd h (updPool p (fun q => { q with supplyAsked := none })))))

/-- DMA channels: a fetched descriptor starts its transfer, one read again decides whether the chain goes on, and one that breaks the form of
R386 stops the channel; read data moves to its destination; a transfer ends with its counts and its next step; a bus error, or a read
unanswered for 10 ms, of a running channel stops all channels (R386 to R389). The model's choices in it: log 61. -/
def Obligations.DmaEvents : Prop :=
  ∀ (h : HalfId) (s : State) (x : Half) (n : Nat) (d : DmaChan), x = s.half h → x.dma.channels[n]? = some d →
    (∀ bytes w, (isDev d.cur = false ∨ onFrozen x (devPart d.cur) = false) →
      w = (if isDev d.cur = true ∨ d.outstanding = 0 then s else s.upd h (count 31 0x12 1)) →
      (∀ b source dest len control next, d.phase = .fetching → b = (if isDev d.cur then dmaSource h d.cur 32 [] (w.half h) else pad 32 bytes) →
        source = BitVec.ofNat 64 (rd b 0 8) → dest = BitVec.ofNat 64 (rd b 8 8) → len = rd b 16 4 → control = rd b 20 4 →
        next = BitVec.ofNat 64 (rd b 24 8) →
        (descFaulty source dest next control = true → exec (.dmaDescriptorFetched h n bytes) s = .next (descStop h n control w)) ∧
        (descFaulty source dest next control = false → (isDev source = true ∨ len = 0) →
          exec (.dmaDescriptorFetched h n bytes) s = .next (w.upd h (fun y => updChan n (fun d => { d with
            source := source, dest := dest, length := len, control := BitVec.ofNat 32 control, nextDesc := next
            phase := .writing, outstanding := 0, oldestRead := y.clk.now }) y))) ∧
        (descFaulty source dest next control = false → isDev source = false → len ≠ 0 →
          exec (.dmaDescriptorFetched h n bytes) s = .next (hostRead h n (BitVec.ofNat 64 (source.toNat / 64 * 64))
            ((source.toNat % 64 + len + 63) / 64 * 64) (d.noSnoop && control.testBit 2) (w.upd h (fun y => updChan n (fun d => { d with
              source := source, dest := dest, length := len, control := BitVec.ofNat 32 control, nextDesc := next
              phase := .moving, outstanding := 1, oldestRead := y.clk.now }) y))))) ∧
      (d.phase = .rechecking → exec (.dmaDescriptorFetched h n bytes) s = .next (descAgain h n bytes w))) ∧
    (∀ bytes w, w = s.upd h (count 31 0x12 1) →
      (d.outstanding = 0 → exec (.dmaReadCompletion h n bytes) s = .next w) ∧
      (d.outstanding ≠ 0 → d.running = false → exec (.dmaReadCompletion h n bytes) s = .next (w.upd h (fun y => updChan n (fun d => { d with
        outstanding := d.outstanding - 1, quiescing := d.outstanding != 1 || y.dma.errValid }) y))) ∧
      (d.outstanding ≠ 0 → d.running = true → d.phase = .moving → dmaMeetsError (w.half h) d = false →
        exec (.dmaReadCompletion h n bytes) s = .next ((dmaDeliver h d.dest (pad d.length bytes) w).upd h (fun y =>
          count 27 0x10 ((d.length + 63) / 64) (updChan n (fun d => { d with outstanding := 0, phase := .writing }) y))))) ∧
    (d.phase = .writing → dmaMeetsError x d = false →
      (isDev d.source = false → exec (.dmaDescriptorComplete h n) s = .next (descEnd h n s)) ∧
      (isDev d.source = true → exec (.dmaDescriptorComplete h n) s = .next (descEnd h n
        ((deniedUnits h x (devPart d.source) d.length).foldl (fun t u => bar4Deny h u t)
          (dmaDeliver h d.dest (dmaSource h d.source d.length [] x) s))))) ∧
    (∀ cause a desc, d.running = true → exec (.dmaBusError h n cause a desc) s =
      .next (dmaBusFail h cause a desc (s.upd h (updChan n (fun d => { d with outstanding := 0 }))))) ∧
    (d.outstanding ≠ 0 → d.oldestRead + 10000000 ≤ x.clk.now → ∀ t, t = s.upd h (updChan n (fun d => { d with outstanding := 0 })) →
      (d.running = true → d.phase = .moving → exec (.dmaCompletionTimeout h n) s = .next (dmaBusFail h 3 d.source false t)) ∧
      (d.running = true → d.phase ≠ .moving → exec (.dmaCompletionTimeout h n) s = .next (dmaBusFail h 3 d.cur true t)) ∧
      (d.running = false → exec (.dmaCompletionTimeout h n) s =
        .next (t.upd h (fun y => updChan n (fun d => { d with quiescing := y.dma.errValid }) y))))

/-! Interrupt entries, the reel, resets, power and the rest. -/

/-- A parity failure of an interrupt entry evaluates it at the keel, latches source 32, and clears an entry that the host owns, with an alarm;
a snapshot whose instant has come is written, and one whose write fails stops the reel with source 33 (R415, R426 to R430). The host link:
its loss while the half runs latches source 36 and its return evaluates the sources that wait at both controllers; an unmasked error
latches source 36; a hot reset clears the MSI-X table and the BAR4 size alone (R406, R555, R556). The model's choices in it: logs 64, 65. -/
def Obligations.EntryAndLinkEvents : Prop :=
  (∀ (h : HalfId) (s : State) (x : Half), x = s.half h →
    (∀ n v, n < 512 → icuReserved n = false → x.boot.inReset = false →
      v = icuEval h n ((latchHw 6 h 32 (armedMask x 0x1C != 0) (icuEval h n ((s.upd h (disarm 0x1C)).upd h (fun y => { y with icu := { y.icu with
        badParity := addNew n y.icu.badParity, paritySource := if y.icu.parityErr then y.icu.paritySource else n, parityErr := true } })))).upd h
          (fun y => { y with icu := { y.icu with
            badParity := y.icu.badParity.filter (fun k => k != n), cfg := if icuHostOwned n then y.icu.cfg.set n 0 else y.icu.cfg } })) →
      exec (.icuParityFailure h n) s = .next (if icuHostOwned n then event h 0x0830 sevAlarm 0 (le 2 n) v else v)) ∧
    (∀ r p instant, exposure h x = some r → x.ctr.reel.running = true → rd r 32 4 ≠ 0 → rd r 36 4 ≠ 0 →
      instant = x.clk.now / rd r 36 4 * rd r 36 4 → (x.ctr.reel.first = true ∨ x.ctr.reel.lastInstant < instant) →
      placedAt x (rd r 32 4 % 0x10000) = some p →
      (onFrozen x (placeAddr p) = false → exec (.counterSnapshot h true) s = .next (reelSnapshot h r (placeAddr p) instant s)) ∧
      exec (.counterSnapshot h false) s = .next (latchHw 6 h 33 false (s.upd h (fun y =>
        { y with ctr := { y.ctr with reel := { y.ctr.reel with running := false, stopped := true } } }))))) ∧
  (∀ (h : HalfId) (s : State) (x : Half), x = s.half h →
    (x.pcie.linkUp = true → x.boot.inReset = false → x.boot.stage = 7 → exec (.pcieLinkDown h) s =
      .next (settle h (latchHw 6 h 36 false (s.upd h (fun y => { y with pcie := { y.pcie with linkUp := false } }))))) ∧
    (∀ v w, x.pcie.linkUp = false → v = s.upd h (fun y => { y with pcie := { y.pcie with linkUp := true } }) →
      w = icuEvalAll .east (icuPending v.east.icu) v →
      exec (.pcieLinkUp h) s = .next (icuEvalAll .west (icuPending w.west.icu) w)) ∧
    exec (.pcieUncorrectableError h false) s = .next (settle h (latchHw 6 h 36 false s)) ∧
    exec (.pcieHotReset h) s = .next (s.upd h (fun y => { y with
      dram := { y.dram with bar4Size := 4294967296 }
      pcie := { y.pcie with msixMask := BitVec.allOnes 256, msixAddr := List.replicate 256 0, msixData := List.replicate 256 0 } })))

/-- The resets, each with its cause: PORST_N takes both halves, a pin its half, a delayed reset its half at its time, and a trial half 10 ms
after its tether has stopped; a released half boots unless a brown-out or a thermal shutdown holds it; a trial that has run 60 s confirms
itself (R486, R488, R497, R499, R502, R518, R532). The model's choices in it: logs 16, 27. -/
def Obligations.ResetEvents : Prop :=
  ∀ (h : HalfId) (s : State) (x : Half), x = s.half h →
    exec .porstAssert s = .next (enterReset .west 0 (enterReset .east 0 { s with porstLow := true })) ∧
    exec (.resetPinAssert h) s = .next (enterReset h 1 s) ∧
    (∀ f, x.boot.inReset = true → x.pwr.brownOut = false → x.pwr.shutdown = false →
      exec (.resetRelease h f) s = .next (bootHalf h f s)) ∧
    (∀ t, x.boot.resetAt = some t → t ≤ x.clk.now →
      (x.boot.resetKind ≠ 5 → exec (.halfResetDelayExpiry h) s = .next (enterReset h x.boot.resetKind s)) ∧
      (x.boot.resetKind = 5 → exec (.halfResetDelayExpiry h) s = .next ((enterReset h 5 s).upd h (fun y =>
        { y with pwr := { y.pwr with shutdown := true, coolSince := none } })))) ∧
    (∀ t, x.boot.trialResetAt = some t → t ≤ x.clk.now → exec (.trialReset h) s = .next (enterReset h 4 s)) ∧
    (x.alive = true → x.boot.trial = true → x.boot.trialBroken = false → x.boot.keelStart + 60000000000 ≤ x.clk.now →
      (slotOf s.flash x.boot.slotB).hold = false → exec (.trialAutoConfirm h) s = .next (confirmTrial h 1 s)) ∧
    (∀ core, exec (.brownOut h core) s = .next ((enterReset h 0 s).upd h (fun y => { y with pwr := { y.pwr with brownOut := true } }))) ∧
    exec (.brownOutRecovery h) s = .next (s.upd h (fun y => { y with pwr := { y.pwr with brownOut := false } })) ∧
    (∀ t, x.pwr.coolSince = some t → x.pwr.shutdown = true → t + 1000000000 ≤ x.clk.now →
      (x.pwr.shutdownTimes.filter (fun t => x.clk.now < t + 3600000000000)).length < 3 →
      exec (.thermalRelease h) s = .next (s.upd h (fun y => { y with pwr := { y.pwr with shutdown := false } })))

/-- Monitors: a voltage excursion of more than 10 µs latches source 39 with an alarm; a sample is kept, throttles its island with a warning,
and from 120 °C trips the half; a clock that trips halts its island with source 40 and an alarm, and retires its unit at the second trip
within 10 minutes, or the half where the island has none; a relocked clock runs again, and its unit with it (R518, R521, R530 to R532).
The model's choices in it: log 17. -/
def Obligations.MonitorEvents : Prop :=
  ∀ (h : HalfId) (s : State) (x : Half), x = s.half h →
    (∀ rail mv d, x.boot.inReset = false → 10000 < d → isExcursion x rail mv = true →
      exec (.voltageExcursion h rail mv d) s = .next (event h 0x080A sevAlarm 0 (le 4 rail ++ le 4 (unsigned 32 mv) ++ le 4 d)
        (latchHw 6 h 39 false (s.upd h (fun y => { y with pwr := { y.pwr with vmon := true } }))))) ∧
    (∀ k t v was now_ w, v = s.upd h (fun y => coolMark (updIsland k (sampled y t) y)) → was = x.pwr.islands.getD k {} →
      now_ = (v.half h).pwr.islands.getD k {} →
      w = (if was.throttled = false ∧ now_.throttled = true then
        event h 0x0808 sevWarning 0 (le 4 k ++ le 4 (unsigned 32 t) ++ le 4 now_.allowed) v else v) →
      (x.boot.inReset = true → exec (.thermalSample h k t) s = .next v) ∧
      (x.boot.inReset = false → t < 120 → exec (.thermalSample h k t) s = .next w) ∧
      (x.boot.inReset = false → 120 ≤ t → (x.boot.resetAt = none ∨ x.boot.resetKind ≠ 5) →
        exec (.thermalSample h k t) s = .next (thermalTrip h k t w))) ∧
    (∀ k khz i trips v, k < 36 → x.boot.inReset = false → monitorTrips x k khz = true → i = x.pwr.islands.getD k {} →
      trips = tripsWithin i x.clk.now →
      v = event h 0x080B sevAlarm 0 (le 4 k ++ le 4 khz ++ le 4 i.step ++ le 4 trips) (latchHw 6 h 40 false (s.upd h (islandHalt k))) →
      (trips < 2 → exec (.clockMonitorTrip h k khz) s = .next (settle h v)) ∧
      (2 ≤ trips → islandUnit k = none → exec (.clockMonitorTrip h k khz) s = .next (settle h (retireHalf h 1 v))) ∧
      (∀ src, 2 ≤ trips → islandUnit k = some src → sourceRetired (v.half h) src = false →
        exec (.clockMonitorTrip h k khz) s = .next (settle h (
          if src < 18 then v.upd h (updUnit src (fun g => { g with toRetire := 1 }))
          else if src < 22 then retireChannel h (src - 18) 1 v else retirePort h (src - 34) 1 v)))) ∧
    (∀ k i v, x.boot.inReset = false → i = x.pwr.islands.getD k {} → i.clockHalted = true →
      v = s.upd h (updIsland k (fun i => { i with clockHalted := false })) →
      (blockSource k = none → exec (.islandClockRelock h k) s = .next (settle h v)) ∧
      (∀ src g, blockSource k = some src → g = unitOf (v.half h) src → g.halted = true → g.toRetire = 0 → awaitsHost (v.half h) src = false →
        x.alive = true → x.bri.tetherStopped = false → exec (.islandClockRelock h k) s = .next (settle h (restartSource h src v))))

/-- Islands and age: the clock step of a powered island is full where its unit is urgent, and else follows its queues and its thermal cap,
once in 10 µs; an island idle for more than 1 ms with no reservation open powers off, gated, and powers up when it has work; life
accumulates each second and is stored every 24 h; every 24 h aging is measured, raises the voltage request by one step, and from 300 with
the request at its end warns (R27, R32 to R34, R529, R531, R535). The model's choices in it: log 68. -/
def Obligations.PowerEvents : Prop :=
  ∀ (h : HalfId) (s : State) (x : Half) (k : Nat) (i : IslandSt), x = s.half h → i = x.pwr.islands.getD k {} →
    (x.boot.inReset = false → i.powered = true →
      (islandUrgent x k = true → ∀ depth capacity, exec (.clockStepEvaluation h k depth capacity) s = .next (s.upd h (updIsland k (fun i => { i with step := 8 })))) ∧
      (islandUrgent x k = false → (∀ t, i.evaluated = some t → t + 10000 ≤ x.clk.now) →
        ∀ depth capacity, exec (.clockStepEvaluation h k depth capacity) s = .next (s.upd h (updIsland k (fun i => { i with
          step := min i.allowed (8 - halvings (queueDepth h x k depth) (queueRoom k capacity) 7), evaluated := some x.clk.now }))))) ∧
    (∀ t, x.boot.inReset = false → i.idleSince = some t → t + 1000000 < x.clk.now → k < 36 → i.powered = true → islandBusy h x k = false →
      neverOff h x k = false → holdsReservation x k = false →
      exec (.islandPowerOff h k) s = .next (s.upd h (updIsland k (fun i => { i with
        powered := false, gated := true, step := 0, idleSince := none })))) ∧
    (x.boot.inReset = false → i.powered = false → (∀ src, islandUnit k = some src → sourceRetired x src = false) →
      (islandBusy h x k = true ∨ k = 26 ∨ k = 31) →
      exec (.islandPowerUp h k) s = .next (s.upd h (fun y => count k 4 1 (updIsland k (fun i => { i with
        powered := true, gated := false, step := i.allowed, idleSince := none }) y)))) ∧
    (x.alive = true → x.pwr.lifeAt + 1000000000 ≤ x.clk.now → exec (.lifeAccumulation h) s = .next (s.upd h (fun y => { y with pwr := { y.pwr with
      life := y.pwr.life + lifeRate (hottest y.pwr), lifeAt := y.clk.now
      lifeSeconds := if y.pwr.lifeSeconds + 1 = 86400 then 0 else y.pwr.lifeSeconds + 1
      lifeStored := if y.pwr.lifeSeconds + 1 = 86400 then y.pwr.life + lifeRate (hottest y.pwr) else y.pwr.lifeStored } }))) ∧
    (∀ slow v w u, x.alive = true → x.pwr.agedAt + 86400000000000 ≤ x.clk.now →
      v = s.upd h (fun y => { y with pwr := { y.pwr with
        agedAt := y.clk.now
        islands := (y.pwr.islands.zip ((List.range 36).map (fun i => slow.getD i 0))).map (fun p => { p.1 with slowdown := p.2 }) } }) →
      w = worstSlowdown (v.half h).pwr →
      u = (if x.pwr.vreq < min 16 (x.pwr.setpoint + w.1 / 50) then
        event h 0x080C sevInfo 0 (le 4 x.pwr.vreq ++ le 4 (x.pwr.vreq + 1) ++ le 4 2) (v.upd h (fun y => { y with pwr := { y.pwr with
          vreq := x.pwr.vreq + 1, vreqOld := x.pwr.vreq, vreqAt := y.clk.now } })) else v) →
      (w.1 < 300 ∨ (u.half h).pwr.vreq ≠ 16 → exec (.agingMeasurement h slow) s = .next u) ∧
      (300 ≤ w.1 → (u.half h).pwr.vreq = 16 → exec (.agingMeasurement h slow) s =
        .next (event h 0x080D sevWarning 0 (le 4 w.2 ++ le 4 w.1 ++ le 4 (lifeUsed x.pwr)) u)))

/-- Time-driven output: the PPS pulse at a whole second, the slave port's Delay_Req at its interval, the default of a lead decision that has
not come in time, and the picture of a surface-fed stream at its tick (R160, R249, R288, R291, R454). The model's choices in it: logs 35,
36. -/
def Obligations.TimedEvents : Prop :=
  ∀ (h : HalfId) (s : State) (x : Half), x = s.half h →
    (∀ second, second = x.clk.now / 1000000000 → x.boot.inReset = false → (ptpFlags s h).testBit 3 = true → x.ptp.lastPps < second →
      exec (.ppsOutputPulse h) s = .next (emit h (.ppsPulse (second * 1000000000)) (s.upd h (fun y =>
        { updPtp (fun p => { p with lastPps := second }) y with pwr := { y.pwr with ppsUntil := second * 1000000000 + 100000 } })))) ∧
    (∀ n home, home = ptpHome s h → portHears h s n = true → (s.half home).alive = true → (s.half home).ptp.slavePort = some (portH h n) →
      (∀ t, (s.half home).ptp.lastDelayReq = some t → t + logInterval (ptpField s home 24 1 0) ≤ x.clk.now) →
      exec (.delayRequestInterval h n) s = .next (emit h (.ptpDelayReq (portH h n) x.clk.now) (s.upd home (updPtp (fun q => { q with
        t3 := some ((x.clk.now : Int) + signed 16 (rd (portRec h x n) 72 2)).toNat, lastDelayReq := some x.clk.now }))))) ∧
    (x.bri.deadline ≠ 0 → x.bri.deadline ≤ x.clk.now →
      exec (.leadDecisionDeadline h) s = .next (leadDefault h (assistLate h 0x0B09 0 0 0 x.bri.deadline 1 s))) ∧
    (∀ i e r t v src before ups sz own, x.alive = true → x.obj.encode? i = some e → x.env.pend = none → r = x.record (encodeH h i) →
      t = esTick x.running r e.nextTick → t ≤ x.clk.now → hType (esSource r) = 0x0A → src = hIndex (esSource r) → e.run = .running →
      v = surfaceApply h t src s → before = (if e.nextTick = e.firstTick then 0 else esTick (v.half h).running r (e.nextTick - esDivisor r)) →
      modeHost (v.half h) fnStencil (encodeH h i) = false → modeHost (v.half h) fnStencil (esSource r) = false →
      ups = (((v.half h).obj.surface? src).elim [] (fun q => q.applied)).filter (fun u => before < u.applied && u.applied ≤ t) →
      sz = sourceSize (v.half h).running (esSource r) →
      own = (ups.flatMap (fun u => u.rects.flatMap (unitsOf 8 (sz.1 / 8)))).foldl (fun acc b => addNew b acc) [] →
      exec (.encodeSurfaceTick h i) s = .next (v.upd h (fun y => surfaceTrim h src (updEncode i (fun q =>
        if q.run = .running ∨ (q.run = .draining ∧ t < q.drainAt) then { q with
          ready := q.ready ++ [{ tickTime := t, buffer := ((v.half h).obj.surface? src).elim 0 (fun m => m.current), blocks := scaleBlocks sz.1 sz.2 (esWidth r) (esHeight r) own, k := pictureAt q (esDivisor r) q.nextTick
                                 allChanged := ups.any (fun u => u.allChanged) || q.pendingAll }]
          pendingAll := false, nextTick := q.nextTick + esDivisor r }
        else { q with nextTick := q.nextTick + esDivisor r }) y))))

/-! Rules over the whole machine, and over the functions that many commands share. -/

/-- After reset the invariant holds: sparse memories in canonical form, bounded queues within their bounds, and the units of a DRL-6400. The
model's choices in it: log 5. -/
def Obligations.ResetHasInv : Prop :=
  State.reset.Inv

/-- Every step keeps the invariant, from every state that has it: the memories of the block stay in canonical form (R37, R359), the event and
notice backlogs stay within the sizes of R55, R56 and R82, and the block keeps the units of a DRL-6400. -/
def Obligations.StepKeepsInv : Prop :=
  ∀ s t : State, s.Inv → step s = .next t → t.Inv

/-- What commands may reach: none changes the queue or the lead preference strap; host memory changes only by a command that replies into a
host buffer, a deferred command or a DMA transfer; the flash only by a firmware command or by a reset or boot of a half (R384, R487, R497,
R501, R510). The model's choices in it: logs 2, 3. -/
def Obligations.CommandsStayInside : Prop :=
  ∀ (c : Instr) (s t : State), exec c s = .next t → t.pending = s.pending ∧ t.leadPref = s.leadPref ∧
    (writesHost c = false → t.hostMem = s.hostMem) ∧ (writesFlash c = false → t.flash = s.flash)

/-- An index write of a half, taken or refused, leaves the other half as it is, and of its own half only the index registers, the events, the
interrupt controller and the emissions change, while no checker is armed on interrupt entries (R37 to R39). The model's choices in it: log
7. -/
def Obligations.IndexWritesStayHome : Prop :=
  ∀ (h : HalfId) (v : W32) (c : Instr) (s t : State),
    c ∈ [.cmdqTailWrite h v, .cplqHeadWrite h v, .evtqHeadWrite h v, .asqTailWrite h v, .asrHeadWrite h v] → NoIcuCheck h s →
    exec c s = .next t →
    (t.half h.other).calm = (s.half h.other).calm ∧ ({ t.half h with ev := (s.half h).ev } : Half).calm = (s.half h).calm

/-- A sparse memory in canonical form: a byte written is the byte read, every other address reads as before, and two memories that read the
same at every address are equal. -/
def Obligations.MemoryReadsBack : Prop :=
  ∀ m n : Mem, Memory.wf m = true →
    (∀ a bytes b, memGet (memWrite a bytes m) b = if a ≤ b ∧ b < a + bytes.length then bytes.getD (b - a) 0 else memGet m b) ∧
    (Memory.wf n = true → (∀ a, memGet m a = memGet n a) → m = n)

/-- The event bucket refills linearly up to its burst: refilling it at a time and again later is refilling it once, and it never holds more
than the burst (R53). The model's choices in it: log 72. -/
def Obligations.BucketRefills : Prop :=
  ∀ (v : Events) (t t' : Nat), v.balanceAt ≤ t → t ≤ t' →
    evRefill t' (evRefill t v) = evRefill t' v ∧ (evRefill t v).balance ≤ v.burst * 1000000000

/-- The first tick that a start or a take-over takes is the least whose time, anchor + ⌊k × numerator / denominator⌋, is at or after the time
asked for (R153). -/
def Obligations.FirstTickIsLeast : Prop :=
  ∀ anchor num den t k : Nat, 0 < num → 0 < den → (firstTickFrom anchor num den t ≤ k ↔ t ≤ tickTime anchor num den k)

/-- The bands of a canvas's pipes are bands of ⌈rows / pipes⌉ rows that together take every tile row exactly once (R176). -/
def Obligations.BandsCoverRows : Prop :=
  ∀ (r : Record) (pipes : List Nat), pipes ≠ [] → pipes.Nodup →
    (∀ row, row < cvRows r → ∃ p ∈ pipes, ((bandRows r pipes p).1 ≤ row ∧ row < (bandRows r pipes p).2) ∧
      ∀ q ∈ pipes, (bandRows r pipes q).1 ≤ row → row < (bandRows r pipes q).2 → q = p) ∧
    (∀ p ∈ pipes, (bandRows r pipes p).2 ≤ (bandRows r pipes p).1 + ceilDiv (cvRows r) pipes.length)

/-- The rectangles of a change map are at most 16 and cover every set block (R117). -/
def Obligations.ChangeRectsCover : Prop :=
  ∀ (set : Nat → Nat → Bool) (w hgt : Nat), (changeRects set w hgt).length ≤ 16 ∧
    ∀ y x, y < hgt → x < w → set y x = true →
      ∃ q ∈ changeRects set w hgt, q.x ≤ x ∧ x < q.x + q.width ∧ q.y ≤ y ∧ y < q.y + q.height

/-- A refused index write leaves its register, sets its bit of RING_ERR and raises the warning RING_INDEX_REFUSED with the ring, the value
refused and the value before; it is refused exactly when the ring would hold more than its size or the index would move backwards (R39);
the host's write counts at the bridle (R416). -/
def Obligations.RefusedIndexWrites : Prop :=
  ∀ (h : HalfId) (v : W32) (s w : State) (r : Rings) (refused : Nat → W32 → State), r = (s.half h).rings → hostReach (s.half h) = true →
    w = s.upd h (count 31 0x10 1) →
    refused = (fun ring before => event h 0x0101 sevWarning 0 (le 4 ring ++ le 4 v.toNat ++ le 4 before.toNat) (icuRaise h 101
      (w.upd h (fun x => { x with rings := { x.rings with ringErr := setBit x.rings.ringErr ring true, refused := sat32 x.rings.refused } })))) →
    ((256 < ringFill v r.cmdqHead ∨ ringFill v r.cmdqHead < ringFill r.cmdqTail r.cmdqHead) →
      exec (.cmdqTailWrite h v) s = .next (refused 0 r.cmdqTail)) ∧
    ((256 < ringFill r.cplqTail v ∨ ringFill r.cplqTail r.cplqHead < ringFill r.cplqTail v) →
      exec (.cplqHeadWrite h v) s = .next (refused 1 r.cplqHead)) ∧
    ((1024 < ringFill r.evtqTail v ∨ ringFill r.evtqTail r.evtqHead < ringFill r.evtqTail v) →
      exec (.evtqHeadWrite h v) s = .next (refused 2 r.evtqHead)) ∧
    ((512 < ringFill v r.asqHead ∨ ringFill v r.asqHead < ringFill r.asqTail r.asqHead) →
      exec (.asqTailWrite h v) s = .next (refused 3 r.asqTail)) ∧
    ((512 < ringFill r.asrTail v ∨ ringFill r.asrTail r.asrHead < ringFill r.asrTail v) →
      exec (.asrHeadWrite h v) s = .next (refused 4 r.asrHead)) ∧
    (∀ ring before, ring < 5 → NoIcuCheck h s → ((refused ring before).half h).rings.cmdqTail = r.cmdqTail ∧
      ((refused ring before).half h).rings.cplqHead = r.cplqHead ∧ ((refused ring before).half h).rings.evtqHead = r.evtqHead ∧
      ((refused ring before).half h).rings.asqTail = r.asqTail ∧ ((refused ring before).half h).rings.asrHead = r.asrHead ∧
      ((refused ring before).half h).rings.ringErr.getLsbD ring = true)

/-- UNIT_RETIRE retires the unit that payload bytes 16 to 19 name, and with 0x0000_0000 the half itself; of a unit already retired it fails
with UNIT_RETIRED and changes nothing (R580). -/
def Obligations.RetireCommand : Prop :=
  ∀ (h : HalfId) (e : CmdEntry) (s u : State) (w : Handle), u = takeEntry h s → w = BitVec.ofNat 32 (fld e 16 4) → Taken h unitRetireSpec e none s →
    (∀ src, w ≠ 0 → handleSource h w = some src → sourceRetired (u.half h) src = false →
      exec (.unitRetire h e) s = .next (complete h 0x0805 e stOk false 0 [] (settle h (retireNow h src u)))) ∧
    (w = 0 → exec (.unitRetire h e) s = .next (complete h 0x0805 e stOk false 0 [] (retireHalf h 3 u))) ∧
    (∀ src, w ≠ 0 → handleSource h w = some src → sourceRetired (u.half h) src = true →
      exec (.unitRetire h e) s = .next (completeFail h 0x0805 e { status := stRetired, step := 8, offset := 16 } u))

/-- The fuse configuration digest of an attestation report covers 164 bytes: the four key hashes, the revocation bits with bit k for key k,
the counter, the board lock bit, the lock digest and the debug lock bit, in this order (R490). -/
def Obligations.FuseDigest : Prop :=
  ∀ (f : Fuses) (k0 k1 k2 k3 : BitVec 256), f.keyHash = [k0, k1, k2, k3] → f.counter < 256 →
    (fuseBytes f).length = 164 ∧
    (∀ bytes, bytes = digestBytes k0 ++ digestBytes k1 ++ digestBytes k2 ++ digestBytes k3 ++ [byte f.revocation.toNat] ++ [byte f.counter] ++
        [if f.boardLock then 1 else 0] ++ digestBytes f.boardDigest ++ [if f.debugLock then 1 else 0] →
      ∀ (h : HalfId) (e : CmdEntry) (s : State), (s.half h).boot.fuses = f → 32 ≤ e.payload.length →
        ((attestBody h e s).drop 232).take 32 = sha256 bytes)

/-- A half that enters reset loses every register, its envelope store, rings, objects, units with their retirements and control stores, valid
bits, fences, crossings and lead claim, and keeps its fuses; the partner half and the flash slots stay as they are (R487). The model's
choices in it: logs 5, 27. -/
def Obligations.HalfResetClears : Prop :=
  ∀ (h : HalfId) (kind : Nat) (s : State) (x y z : Half), x = s.half h → y = (enterReset h kind s).half h → z = {} →
    (y.rings = z.rings ∧ y.ev = z.ev ∧ y.asr = z.asr ∧ y.env = z.env ∧ y.obj = z.obj ∧ y.enc = z.enc ∧ y.dec = z.dec ∧ y.cmp = z.cmp ∧
      y.dch = z.dch ∧ y.net = z.net ∧ y.dram = z.dram ∧ y.pools = z.pools ∧ y.dma = z.dma ∧ y.icu = z.icu ∧ y.ctr = z.ctr ∧ y.flt = z.flt ∧
      y.bri = z.bri ∧ y.ptp = z.ptp ∧ y.fabric = z.fabric ∧ y.boot.inReset = true ∧ y.boot.fuses = x.boot.fuses) ∧
    (enterReset h kind s).half h.other = s.half h.other ∧
    (enterReset h kind s).flash.slotA = s.flash.slotA ∧ (enterReset h kind s).flash.slotB = s.flash.slotB ∧
    (enterReset h kind s).hostMem = s.hostMem
end

