-- ==== Sys2Proof/Laws/Memory.lean ====
section
/-!
SUPPORT. Memory.lean: every operation on a sparse memory keeps its canonical form.
-/
namespace Sys2Proof.Machine

theorem memWfFrom_mono {lo lo' : Nat} (hl : lo' ≤ lo) {m : Mem} (hm : memWfFrom lo m = true) : memWfFrom lo' m = true := by
  cases m with
  | nil => rfl
  | cons c m =>
    simp only [memWfFrom, Bool.and_eq_true, decide_eq_true_eq] at hm ⊢
    exact ⟨⟨Nat.le_trans hl hm.1.1, hm.1.2⟩, hm.2⟩

theorem memWfFrom_cons {lo k : Nat} {v : Byte} {m : Mem} :
    memWfFrom lo ((k, v) :: m) = true ↔ lo ≤ k ∧ v ≠ 0 ∧ memWfFrom (k + 1) m = true := by
  simp only [memWfFrom, Bool.and_eq_true, decide_eq_true_eq, bne_iff_ne, ne_eq, and_assoc]

theorem memSet_wfFrom {lo a : Nat} (b : Byte) {m : Mem} (hl : lo ≤ a) (hm : memWfFrom lo m = true) :
    memWfFrom lo (memSet a b m) = true := by
  induction m generalizing lo with
  | nil =>
    unfold memSet
    split
    · rfl
    · next hb => exact memWfFrom_cons.2 ⟨hl, hb, rfl⟩
  | cons c m ih =>
    obtain ⟨k, v⟩ := c
    obtain ⟨hk, hv, hm⟩ := memWfFrom_cons.1 hm
    unfold memSet
    split
    · next h =>
      split
      · exact memWfFrom_cons.2 ⟨hk, hv, hm⟩
      · next hb => exact memWfFrom_cons.2 ⟨hl, hb, memWfFrom_cons.2 ⟨h, hv, hm⟩⟩
    · split
      · next h =>
        subst h
        split
        · exact memWfFrom_mono (Nat.le_trans hk (Nat.le_succ _)) hm
        · next hb => exact memWfFrom_cons.2 ⟨hl, hb, hm⟩
      · next h h' => exact memWfFrom_cons.2 ⟨hk, hv, ih (by omega) hm⟩

theorem memSet_wf {m : Mem} (a : Nat) (b : Byte) (hm : Memory.wf m = true) : Memory.wf (memSet a b m) = true :=
  memSet_wfFrom b (Nat.zero_le a) hm

theorem memWrite_wf {m : Mem} (a : Nat) (bytes : List Byte) (hm : Memory.wf m = true) : Memory.wf (memWrite a bytes m) = true := by
  induction bytes generalizing a m with
  | nil => exact hm
  | cons b bs ih => exact ih _ (memSet_wf a b hm)

theorem memWriteEn_wf {m : Mem} (a : Nat) (bytes : List (Byte × Bool)) (hm : Memory.wf m = true) :
    Memory.wf (memWriteEn a bytes m) = true := by
  induction bytes generalizing a m with
  | nil => exact hm
  | cons b bs ih =>
    refine ih _ ?_
    split
    · exact memSet_wf a _ hm
    · exact hm

theorem memFilter_wfFrom {lo : Nat} (p : Host.Cell → Bool) {m : Mem} (hm : memWfFrom lo m = true) :
    memWfFrom lo (m.filter p) = true := by
  induction m generalizing lo with
  | nil => rfl
  | cons c m ih =>
    obtain ⟨k, v⟩ := c
    obtain ⟨hk, hv, hm⟩ := memWfFrom_cons.1 hm
    rw [List.filter_cons]
    split
    · exact memWfFrom_cons.2 ⟨hk, hv, ih hm⟩
    · exact ih (memWfFrom_mono (Nat.le_trans hk (Nat.le_succ _)) hm)

theorem memFilter_wf {m : Mem} (p : Host.Cell → Bool) (hm : Memory.wf m = true) : Memory.wf (m.filter p) = true :=
  memFilter_wfFrom p hm

theorem memClear_wf {m : Mem} (lo hi : Nat) (hm : Memory.wf m = true) : Memory.wf (memClear lo hi m) = true :=
  memFilter_wf _ hm

theorem ringPut_wf {m : Mem} (base size : Nat) (tail : W32) (bytes : List Byte) (hm : Memory.wf m = true) :
    Memory.wf (ringPut base size tail bytes m) = true :=
  memWrite_wf _ _ hm

theorem memFold_wf {α : Type} (f : Mem → α → Mem) (l : List α) {m : Mem}
    (hf : ∀ m a, Memory.wf m = true → Memory.wf (f m a) = true) (hm : Memory.wf m = true) : Memory.wf (l.foldl f m) = true := by
  induction l generalizing m with
  | nil => exact hm
  | cons a l ih => exact ih (hf _ _ hm)

end Sys2Proof.Machine
end

