-- ==== Sys2Proof/Laws/KeepsBase.lean ====
section
/-!
SUPPORT. KeepsBase.lean: every operation of the shared operations, doorbells, host DMA, pools, counters, boot and power keeps the invariant of Safety.lean; one lemma per function.
-/
namespace Sys2Proof.Machine

set_option linter.all false

theorem half_inv {s : State} (hs : s.Inv) (h : HalfId) : (s.half h).Inv := by
  cases h
  · exact hs.1
  · exact hs.2.1

theorem setHalf_inv {s : State} {h : HalfId} {x : Half} (hs : s.Inv) (hx : x.Inv) : (s.setHalf h x).Inv := by
  cases h
  · exact ⟨hx, hs.2⟩
  · exact ⟨hs.1, hx, hs.2.2⟩

theorem upd_inv {s : State} {h : HalfId} {f : Half → Half} (hf : ∀ x, x.Inv → (f x).Inv) (hs : s.Inv) : (s.upd h f).Inv :=
  setHalf_inv hs (hf _ (half_inv hs h))

theorem free_inv {s : State} {n : Nat} (hs : s.Inv) : ({ s with free := n } : State).Inv := hs

theorem foldl_inv {α : Type} {g : State → α → State} {l : List α} {s : State} (hg : ∀ s a, s.Inv → (g s a).Inv) (hs : s.Inv) :
    (l.foldl g s).Inv := by
  induction l generalizing s with
  | nil => exact hs
  | cons a l ih => exact ih (hg _ _ hs)

theorem foldlH_inv {α : Type} {g : Half → α → Half} {l : List α} {x : Half} (hg : ∀ x a, x.Inv → (g x a).Inv) (hx : x.Inv) :
    (l.foldl g x).Inv := by
  induction l generalizing x with
  | nil => exact hx
  | cons a l ih => exact ih (hg _ _ hx)

theorem foldl_fst_inv {α β : Type} {g : State × β → α → State × β} {l : List α} {p : State × β}
    (hg : ∀ p a, p.1.Inv → (g p a).1.Inv) (hp : p.1.Inv) : (l.foldl g p).1.Inv := by
  induction l generalizing p with
  | nil => exact hp
  | cons a l ih => exact ih (hg _ _ hp)

theorem upd_inv_at {s : State} {h : HalfId} {f : Half → Half} (hf : (f (s.half h)).Inv) (hs : s.Inv) : (s.upd h f).Inv :=
  setHalf_inv hs hf

theorem mem_inv {x : Half} {r : Rings} (hr : Memory.wf r.mem = true) (hx : x.Inv) : ({ x with rings := r } : Half).Inv :=
  ⟨⟨hr, hx.1.2⟩, hx.2⟩

theorem dram_inv {x : Half} {d : DramSt} (hd : Memory.wf d.data = true) (hx : x.Inv) : ({ x with dram := d } : Half).Inv :=
  ⟨⟨hx.1.1, hd⟩, hx.2⟩

theorem ev_inv {x : Half} {v : Events} (hw : v.warnings.length ≤ 256) (hi : v.infos.length ≤ 512) (ha : v.alarms.length ≤ 256)
    (hx : x.Inv) : ({ x with ev := v } : Half).Inv :=
  ⟨hx.1, ⟨hw, hi, ha, hx.2.1.2.2.2⟩, hx.2.2⟩

theorem notices_inv {x : Half} {a : AsrState} (hn : a.notices.length ≤ 256) (hx : x.Inv) : ({ x with asr := a } : Half).Inv :=
  ⟨hx.1, ⟨hx.2.1.1, hx.2.1.2.1, hx.2.1.2.2.1, hn⟩, hx.2.2⟩

theorem putWarning_inv {x : Half} (e : EventRec) (hx : x.Inv) : ({ x with ev := putWarning e x.ev } : Half).Inv := by
  obtain ⟨hw, hi, ha, -⟩ := hx.2.1
  unfold putWarning
  dsimp only
  split
  · exact ev_inv (by simpa only [mapWhere, List.length_map] using hw) hi ha hx
  split
  · exact ev_inv hw hi ha hx
  · refine ev_inv ?_ hi ha hx
    simp only [List.length_append, List.length_cons, List.length_nil]
    omega

theorem putInfo_inv {x : Half} (e : EventRec) (hx : x.Inv) : ({ x with ev := putInfo e x.ev } : Half).Inv := by
  obtain ⟨hw, hi, ha, -⟩ := hx.2.1
  unfold putInfo
  split <;> refine ev_inv hw ?_ ha hx <;> simp only [List.length_append, List.length_drop, List.length_cons, List.length_nil] <;> omega

theorem alarmPut_inv {x : Half} {a : AlarmRec} {v : Events} (hv : alarmPut a x.ev = some v) (hx : x.Inv) : ({ x with ev := v } : Half).Inv := by
  obtain ⟨hw, hi, ha, -⟩ := hx.2.1
  unfold alarmPut at hv
  split at hv
  · obtain rfl := Option.some.inj hv
    exact ev_inv hw hi (by simpa only [mapWhere, List.length_map] using ha) hx
  split at hv
  · obtain rfl := Option.some.inj hv
    refine ev_inv hw hi ?_ hx
    simp only [List.length_append, List.length_cons, List.length_nil]
    omega
  · cases hv

theorem evSpent_inv {x : Half} {r : Rings} (b : Nat) (hr : Memory.wf r.mem = true) (hx : x.Inv) :
    ({ x with ev := { x.ev with balance := b }, rings := r } : Half).Inv :=
  ⟨⟨hr, hx.1.2⟩, hx.2⟩

theorem evFilled_inv {x : Half} (b n : Nat) (hx : x.Inv) : ({ x with ev := { x.ev with balance := b, balanceAt := n } } : Half).Inv := hx

theorem evRefill_inv {x : Half} {n : Nat} (hx : x.Inv) : ({ x with ev := evRefill n x.ev } : Half).Inv := evFilled_inv _ _ hx

theorem ctrPlus_inv {x : Half} {c : CounterSt} (hc : c.blocks.length = 36) (hx : x.Inv) : ({ x with ctr := c } : Half).Inv := by
  obtain ⟨hm, hq, u1, u2, u3, u4, u5, u6, u7, u8, -, u10⟩ := hx
  exact ⟨hm, hq, u1, u2, u3, u4, u5, u6, u7, u8, hc, u10⟩

theorem obj_inv {x : Half} {o : Objects} (hx : x.Inv) : ({ x with obj := o } : Half).Inv := hx

theorem blocks_len {x : Half} (hx : x.Inv) : x.ctr.blocks.length = 36 := by
  obtain ⟨-, -, -, -, -, -, -, -, -, -, h, -⟩ := hx
  exact h

theorem islands_len {x : Half} (hx : x.Inv) : x.pwr.islands.length = 36 := by
  obtain ⟨-, -, -, -, -, -, -, -, -, -, -, h⟩ := hx
  exact h

theorem id_inv {s : State} (hs : s.Inv) : (id s).Inv := hs

theorem idH_inv {x : Half} (hx : x.Inv) : (id x).Inv := hx


theorem ite_inv {c : Prop} [Decidable c] {a b : State} (ha : a.Inv) (hb : b.Inv) : (if c then a else b).Inv := by
  split
  · exact ha
  · exact hb

theorem iteH_inv {c : Prop} [Decidable c] {a b : Half} (ha : a.Inv) (hb : b.Inv) : (if c then a else b).Inv := by
  split
  · exact ha
  · exact hb
/-! Ops.lean -/

theorem emit_inv {h : HalfId} {m : Emit} {s : State} (hs : s.Inv) :
    (emit h m s).Inv := by
  unfold emit
  repeat' (first | with_reducible assumption | with_reducible refine upd_inv (fun x hx => ?_) ?_ | with_reducible refine half_inv ?_ _ | dsimp only | split | (obtain ⟨⟨m1, m2⟩, ⟨q1, q2, q3, q4⟩, u1, u2, u3, u4, u5, u6, u7, u8, u9, u10⟩ := hx; refine ⟨⟨?_, ?_⟩, ⟨?_, ?_, ?_, ?_⟩, ?_, ?_, ?_, ?_, ?_, ?_, ?_, ?_, ?_, ?_⟩ <;> first | with_reducible assumption | (dsimp only; with_reducible assumption) | with_reducible exact ringPut_wf _ _ _ _ m1 | (simp only [List.length_modify, List.length_map, List.length_set]; with_reducible assumption)))

theorem State.tick1_inv {s : State} (hs : s.Inv) :
    (State.tick1 s).Inv := by
  unfold State.tick1
  repeat' (first | with_reducible assumption | with_reducible refine free_inv ?_ | with_reducible refine half_inv ?_ _ | dsimp only | split | (obtain ⟨⟨m1, m2⟩, ⟨q1, q2, q3, q4⟩, u1, u2, u3, u4, u5, u6, u7, u8, u9, u10⟩ := hx; refine ⟨⟨?_, ?_⟩, ⟨?_, ?_, ?_, ?_⟩, ?_, ?_, ?_, ?_, ?_, ?_, ?_, ?_, ?_, ?_⟩ <;> first | with_reducible assumption | (dsimp only; with_reducible assumption) | with_reducible exact ringPut_wf _ _ _ _ m1 | (simp only [List.length_modify, List.length_map, List.length_set]; with_reducible assumption)))

theorem counterRetires_inv {blk : Nat} {x : Half} (hx : x.Inv) :
    (counterRetires blk x).Inv := by
  unfold counterRetires
  repeat' (first | with_reducible assumption | with_reducible refine half_inv ?_ _ | dsimp only | split | (obtain ⟨⟨m1, m2⟩, ⟨q1, q2, q3, q4⟩, u1, u2, u3, u4, u5, u6, u7, u8, u9, u10⟩ := hx; refine ⟨⟨?_, ?_⟩, ⟨?_, ?_, ?_, ?_⟩, ?_, ?_, ?_, ?_, ?_, ?_, ?_, ?_, ?_, ?_⟩ <;> first | with_reducible assumption | (dsimp only; with_reducible assumption) | with_reducible exact ringPut_wf _ _ _ _ m1 | (simp only [List.length_modify, List.length_map, List.length_set]; with_reducible assumption)))

theorem count_inv {blk code n : Nat} {x : Half} (hx : x.Inv) :
    (count blk code n x).Inv := by
  unfold count
  repeat' (first | with_reducible assumption | with_reducible refine foldl_inv (fun s a hs => ?_) ?_ | with_reducible refine foldlH_inv (fun x a hx => ?_) ?_ | with_reducible refine foldl_fst_inv (fun s a hs => ?_) ?_ | with_reducible refine half_inv ?_ _ | dsimp only | split | (obtain ⟨⟨m1, m2⟩, ⟨q1, q2, q3, q4⟩, u1, u2, u3, u4, u5, u6, u7, u8, u9, u10⟩ := hx; refine ⟨⟨?_, ?_⟩, ⟨?_, ?_, ?_, ?_⟩, ?_, ?_, ?_, ?_, ?_, ?_, ?_, ?_, ?_, ?_⟩ <;> first | with_reducible assumption | (dsimp only; with_reducible assumption) | with_reducible exact ringPut_wf _ _ _ _ m1 | (simp only [List.length_modify, List.length_map, List.length_set]; with_reducible assumption)))

theorem msixPost_inv {ep : HalfId} {vec : Nat} {s : State} (hs : s.Inv) :
    (msixPost ep vec s).Inv := by
  unfold msixPost
  repeat' (first | with_reducible assumption | with_reducible refine emit_inv ?_ | with_reducible refine count_inv ?_ | with_reducible refine upd_inv (fun x hx => ?_) ?_ | with_reducible refine half_inv ?_ _ | dsimp only | split | (obtain ⟨⟨m1, m2⟩, ⟨q1, q2, q3, q4⟩, u1, u2, u3, u4, u5, u6, u7, u8, u9, u10⟩ := hx; refine ⟨⟨?_, ?_⟩, ⟨?_, ?_, ?_, ?_⟩, ?_, ?_, ?_, ?_, ?_, ?_, ?_, ?_, ?_, ?_⟩ <;> first | with_reducible assumption | (dsimp only; with_reducible assumption) | with_reducible exact ringPut_wf _ _ _ _ m1 | (simp only [List.length_modify, List.length_map, List.length_set]; with_reducible assumption)))

theorem icuToKeel_inv {n : Nat} {x : Half} (hx : x.Inv) : ({ x with icu := icuToKeel n x.icu } : Half).Inv := by
  unfold icuToKeel
  dsimp only
  split
  · unfold icuWake
    dsimp only
    split
    · exact hx
    · exact hx
  · exact hx

theorem icuEval_inv {h : HalfId} {n : Nat} {s : State} (hs : s.Inv) : (icuEval h n s).Inv := by
  unfold icuEval
  extract_lets c
  split
  · exact upd_inv (fun x hx => hx) hs
  · exact upd_inv (fun x hx => count_inv (icuToKeel_inv hx)) hs
  · extract_lets ep
    split
    · exact hs
    · exact msixPost_inv (upd_inv (fun x hx => count_inv hx) hs)

theorem icuEvalAll_inv {h : HalfId} {ns : List Nat} {s : State} (hs : s.Inv) :
    (icuEvalAll h ns s).Inv := by
  unfold icuEvalAll
  repeat' (first | with_reducible assumption | with_reducible refine icuEval_inv ?_ | with_reducible refine foldl_inv (fun s a hs => ?_) ?_ | with_reducible refine foldlH_inv (fun x a hx => ?_) ?_ | with_reducible refine foldl_fst_inv (fun s a hs => ?_) ?_ | with_reducible refine half_inv ?_ _ | dsimp only | split | (obtain ⟨⟨m1, m2⟩, ⟨q1, q2, q3, q4⟩, u1, u2, u3, u4, u5, u6, u7, u8, u9, u10⟩ := hx; refine ⟨⟨?_, ?_⟩, ⟨?_, ?_, ?_, ?_⟩, ?_, ?_, ?_, ?_, ?_, ?_, ?_, ?_, ?_, ?_⟩ <;> first | with_reducible assumption | (dsimp only; with_reducible assumption) | with_reducible exact ringPut_wf _ _ _ _ m1 | (simp only [List.length_modify, List.length_map, List.length_set]; with_reducible assumption)))

theorem icuRaise0_inv {h : HalfId} {n : Nat} {s : State} (hs : s.Inv) :
    (icuRaise0 h n s).Inv := by
  unfold icuRaise0
  repeat' (first | with_reducible assumption | with_reducible refine icuEval_inv ?_ | with_reducible refine upd_inv (fun x hx => ?_) ?_ | with_reducible refine half_inv ?_ _ | dsimp only | split | (obtain ⟨⟨m1, m2⟩, ⟨q1, q2, q3, q4⟩, u1, u2, u3, u4, u5, u6, u7, u8, u9, u10⟩ := hx; refine ⟨⟨?_, ?_⟩, ⟨?_, ?_, ?_, ?_⟩, ?_, ?_, ?_, ?_, ?_, ?_, ?_, ?_, ?_, ?_⟩ <;> first | with_reducible assumption | (dsimp only; with_reducible assumption) | with_reducible exact ringPut_wf _ _ _ _ m1 | (simp only [List.length_modify, List.length_map, List.length_set]; with_reducible assumption)))

theorem icuWithdraw_inv {h : HalfId} {n : Nat} {s : State} (hs : s.Inv) :
    (icuWithdraw h n s).Inv := by
  unfold icuWithdraw
  repeat' (first | with_reducible assumption | with_reducible refine icuEval_inv ?_ | with_reducible refine upd_inv (fun x hx => ?_) ?_ | with_reducible refine half_inv ?_ _ | dsimp only | split | (obtain ⟨⟨m1, m2⟩, ⟨q1, q2, q3, q4⟩, u1, u2, u3, u4, u5, u6, u7, u8, u9, u10⟩ := hx; refine ⟨⟨?_, ?_⟩, ⟨?_, ?_, ?_, ?_⟩, ?_, ?_, ?_, ?_, ?_, ?_, ?_, ?_, ?_, ?_⟩ <;> first | with_reducible assumption | (dsimp only; with_reducible assumption) | with_reducible exact ringPut_wf _ _ _ _ m1 | (simp only [List.length_modify, List.length_map, List.length_set]; with_reducible assumption)))

theorem evWrite_inv {h : HalfId} {e : EventRec} {mark : Bool} {s : State} (hs : s.Inv) : (evWrite h e mark s).Inv :=
  icuRaise0_inv (upd_inv (fun x hx => count_inv (evSpent_inv _ (ringPut_wf _ _ _ _ hx.1.1) hx)) hs)

theorem alarmOverflow_inv {h : HalfId} {e : EventRec} {s : State} (hs : s.Inv) : (alarmOverflow h e s).Inv :=
  upd_inv (fun x hx => hx) hs

theorem alarmNow_inv {h : HalfId} {s : State} {e : EventRec} (hs : s.Inv) : (alarmNow h s e).Inv := by
  have h1 : (s.upd h (fun x => { x with ev := evRefill x.clk.now x.ev })).Inv := upd_inv (fun x hx => evRefill_inv hx) hs
  unfold alarmNow
  extract_lets u x
  split
  · exact evWrite_inv (upd_inv (fun x hx => hx) h1)
  · exact upd_inv (fun x hx => hx) h1

theorem instantOut_inv {h : HalfId} {s : State} (hs : s.Inv) :
    (instantOut h s).Inv := by
  unfold instantOut
  repeat' (first | with_reducible assumption | with_reducible refine alarmNow_inv ?_ | with_reducible refine upd_inv (fun x hx => ?_) ?_ | with_reducible refine foldl_inv (fun s a hs => ?_) ?_ | with_reducible refine foldlH_inv (fun x a hx => ?_) ?_ | with_reducible refine foldl_fst_inv (fun s a hs => ?_) ?_ | with_reducible refine half_inv ?_ _ | dsimp only | split | (obtain ⟨⟨m1, m2⟩, ⟨q1, q2, q3, q4⟩, u1, u2, u3, u4, u5, u6, u7, u8, u9, u10⟩ := hx; refine ⟨⟨?_, ?_⟩, ⟨?_, ?_, ?_, ?_⟩, ?_, ?_, ?_, ?_, ?_, ?_, ?_, ?_, ?_, ?_⟩ <;> first | with_reducible assumption | (dsimp only; with_reducible assumption) | with_reducible exact ringPut_wf _ _ _ _ m1 | (simp only [List.length_modify, List.length_map, List.length_set]; with_reducible assumption)))

theorem alarmRaise0_inv {h : HalfId} {slot : Nat} {e : EventRec} {s : State} (hs : s.Inv) : (alarmRaise0 h slot e s).1.Inv := by
  have h1 : (s.upd h (fun x => { x with ev := alarmCount slot x.ev })).Inv := upd_inv (fun x hx => hx) hs
  unfold alarmRaise0
  extract_lets u
  split
  · next v hv => exact upd_inv_at (alarmPut_inv hv (half_inv h1 h)) h1
  · exact alarmOverflow_inv h1

theorem stopTether_inv {h : HalfId} {s : State} (hs : s.Inv) :
    (stopTether h s).Inv := by
  unfold stopTether
  repeat' (first | with_reducible assumption | with_reducible refine emit_inv ?_ | with_reducible refine icuRaise0_inv ?_ | with_reducible refine upd_inv (fun x hx => ?_) ?_ | with_reducible refine half_inv ?_ _ | dsimp only | split | (obtain ⟨⟨m1, m2⟩, ⟨q1, q2, q3, q4⟩, u1, u2, u3, u4, u5, u6, u7, u8, u9, u10⟩ := hx; refine ⟨⟨?_, ?_⟩, ⟨?_, ?_, ?_, ?_⟩, ?_, ?_, ?_, ?_, ?_, ?_, ?_, ?_, ?_, ?_⟩ <;> first | with_reducible assumption | (dsimp only; with_reducible assumption) | with_reducible exact ringPut_wf _ _ _ _ m1 | (simp only [List.length_modify, List.length_map, List.length_set]; with_reducible assumption)))

theorem freezeRec_inv {n : Nat} {f : FrozenRec} {x : Half} (hx : x.Inv) :
    (freezeRec n f x).Inv := by
  unfold freezeRec
  repeat' (first | with_reducible assumption | with_reducible refine half_inv ?_ _ | dsimp only | split | (obtain ⟨⟨m1, m2⟩, ⟨q1, q2, q3, q4⟩, u1, u2, u3, u4, u5, u6, u7, u8, u9, u10⟩ := hx; refine ⟨⟨?_, ?_⟩, ⟨?_, ?_, ?_, ?_⟩, ?_, ?_, ?_, ?_, ?_, ?_, ?_, ?_, ?_, ?_⟩ <;> first | with_reducible assumption | (dsimp only; with_reducible assumption) | with_reducible exact ringPut_wf _ _ _ _ m1 | (simp only [List.length_modify, List.length_map, List.length_set]; with_reducible assumption)))

theorem latchBit_inv {src : Nat} {x : Half} (hx : x.Inv) : (latchBit src x).Inv := by
  unfold latchBit
  split
  · exact (count_inv hx : (count _ 7 1 x).Inv)
  · exact hx

theorem latchHw_inv {fuel : Nat} {h : HalfId} {src : Nat} {injected : Bool} {s : State} (hs : s.Inv) :
    (latchHw fuel h src injected s).Inv := by
  induction fuel generalizing src injected s with
  | zero => exact hs
  | succ fuel ih =>
    unfold latchHw
    repeat' (first
      | with_reducible assumption
      | with_reducible refine stopTether_inv ?_
      | with_reducible refine icuRaise0_inv ?_
      | with_reducible refine alarmRaise0_inv ?_
      | with_reducible refine ih ?_
      | with_reducible refine upd_inv (fun x hx => ?_) ?_
      | with_reducible refine foldl_inv (fun s a hs => ?_) ?_
      | with_reducible refine latchBit_inv ?_
      | with_reducible refine freezeRec_inv ?_
      | dsimp only
      | split
      | (obtain ⟨⟨m1, m2⟩, ⟨q1, q2, q3, q4⟩, u1, u2, u3, u4, u5, u6, u7, u8, u9, u10⟩ := hx; refine ⟨⟨?_, ?_⟩, ⟨?_, ?_, ?_, ?_⟩, ?_, ?_, ?_, ?_, ?_, ?_, ?_, ?_, ?_, ?_⟩ <;> first | with_reducible assumption | (dsimp only; with_reducible assumption) | with_reducible exact ringPut_wf _ _ _ _ m1 | (simp only [List.length_modify, List.length_map, List.length_set]; with_reducible assumption)))

theorem disarm_inv {checker : Nat} {x : Half} (hx : x.Inv) :
    (disarm checker x).Inv := by
  unfold disarm
  repeat' (first | with_reducible assumption | with_reducible refine half_inv ?_ _ | dsimp only | split | (obtain ⟨⟨m1, m2⟩, ⟨q1, q2, q3, q4⟩, u1, u2, u3, u4, u5, u6, u7, u8, u9, u10⟩ := hx; refine ⟨⟨?_, ?_⟩, ⟨?_, ?_, ?_, ?_⟩, ?_, ?_, ?_, ?_, ?_, ?_, ?_, ?_, ?_, ?_⟩ <;> first | with_reducible assumption | (dsimp only; with_reducible assumption) | with_reducible exact ringPut_wf _ _ _ _ m1 | (simp only [List.length_modify, List.length_map, List.length_set]; with_reducible assumption)))

theorem alarmEvent_inv {h : HalfId} {slot : Nat} {e : EventRec} {s : State} (hs : s.Inv) :
    (alarmEvent h slot e s).Inv := by
  unfold alarmEvent
  repeat' (first | with_reducible assumption | with_reducible refine alarmRaise0_inv ?_ | with_reducible refine latchHw_inv ?_ | with_reducible refine half_inv ?_ _ | dsimp only | split | (obtain ⟨⟨m1, m2⟩, ⟨q1, q2, q3, q4⟩, u1, u2, u3, u4, u5, u6, u7, u8, u9, u10⟩ := hx; refine ⟨⟨?_, ?_⟩, ⟨?_, ?_, ?_, ?_⟩, ?_, ?_, ?_, ?_, ?_, ?_, ?_, ?_, ?_, ?_⟩ <;> first | with_reducible assumption | (dsimp only; with_reducible assumption) | with_reducible exact ringPut_wf _ _ _ _ m1 | (simp only [List.length_modify, List.length_map, List.length_set]; with_reducible assumption)))

theorem event_inv {h : HalfId} {code sev : Nat} {src : Handle} {detail : List Byte} {s : State} (hs : s.Inv) :
    (event h code sev src detail s).Inv := by
  unfold event
  extract_lets e
  split
  · exact alarmEvent_inv hs
  · refine upd_inv (fun x hx => count_inv ?_) hs
    split
    · exact putWarning_inv e hx
    · exact putInfo_inv e hx

theorem icuParityFail_inv {h : HalfId} {n : Nat} {injected : Bool} {s : State} (hs : s.Inv) :
    (icuParityFail h n injected s).Inv := by
  unfold icuParityFail
  repeat' (first | with_reducible assumption | with_reducible refine icuEval_inv ?_ | with_reducible refine latchHw_inv ?_ | with_reducible refine event_inv ?_ | with_reducible refine upd_inv (fun x hx => ?_) ?_ | with_reducible refine half_inv ?_ _ | dsimp only | split | (obtain ⟨⟨m1, m2⟩, ⟨q1, q2, q3, q4⟩, u1, u2, u3, u4, u5, u6, u7, u8, u9, u10⟩ := hx; refine ⟨⟨?_, ?_⟩, ⟨?_, ?_, ?_, ?_⟩, ?_, ?_, ?_, ?_, ?_, ?_, ?_, ?_, ?_, ?_⟩ <;> first | with_reducible assumption | (dsimp only; with_reducible assumption) | with_reducible exact ringPut_wf _ _ _ _ m1 | (simp only [List.length_modify, List.length_map, List.length_set]; with_reducible assumption)))

theorem icuRaise_inv {h : HalfId} {n : Nat} {s : State} (hs : s.Inv) :
    (icuRaise h n s).Inv := by
  unfold icuRaise
  repeat' (first | with_reducible assumption | with_reducible refine icuRaise0_inv ?_ | with_reducible refine disarm_inv ?_ | with_reducible refine icuParityFail_inv ?_ | with_reducible refine upd_inv (fun x hx => ?_) ?_ | with_reducible refine half_inv ?_ _ | dsimp only | split | (obtain ⟨⟨m1, m2⟩, ⟨q1, q2, q3, q4⟩, u1, u2, u3, u4, u5, u6, u7, u8, u9, u10⟩ := hx; refine ⟨⟨?_, ?_⟩, ⟨?_, ?_, ?_, ?_⟩, ?_, ?_, ?_, ?_, ?_, ?_, ?_, ?_, ?_, ?_⟩ <;> first | with_reducible assumption | (dsimp only; with_reducible assumption) | with_reducible exact ringPut_wf _ _ _ _ m1 | (simp only [List.length_modify, List.length_map, List.length_set]; with_reducible assumption)))

theorem complete_inv {h : HalfId} {op : Nat} {e : CmdEntry} {status : Nat} {buffer : Bool} {result : Handle} {bytes : List Byte} {s : State} (hs : s.Inv) :
    (complete h op e status buffer result bytes s).Inv := by
  unfold complete
  repeat' (first | with_reducible assumption | with_reducible refine icuRaise_inv ?_ | with_reducible refine upd_inv (fun x hx => ?_) ?_ | with_reducible refine half_inv ?_ _ | dsimp only | split | (obtain ⟨⟨m1, m2⟩, ⟨q1, q2, q3, q4⟩, u1, u2, u3, u4, u5, u6, u7, u8, u9, u10⟩ := hx; refine ⟨⟨?_, ?_⟩, ⟨?_, ?_, ?_, ?_⟩, ?_, ?_, ?_, ?_, ?_, ?_, ?_, ?_, ?_, ?_⟩ <;> first | with_reducible assumption | (dsimp only; with_reducible assumption) | with_reducible exact ringPut_wf _ _ _ _ m1 | (simp only [List.length_modify, List.length_map, List.length_set]; with_reducible assumption)))

theorem takeEntry_inv {h : HalfId} {s : State} (hs : s.Inv) :
    (takeEntry h s).Inv := by
  unfold takeEntry
  repeat' (first | with_reducible assumption | with_reducible refine count_inv ?_ | with_reducible refine icuWithdraw_inv ?_ | with_reducible refine upd_inv (fun x hx => ?_) ?_ | with_reducible refine half_inv ?_ _ | dsimp only | split | (obtain ⟨⟨m1, m2⟩, ⟨q1, q2, q3, q4⟩, u1, u2, u3, u4, u5, u6, u7, u8, u9, u10⟩ := hx; refine ⟨⟨?_, ?_⟩, ⟨?_, ?_, ?_, ?_⟩, ?_, ?_, ?_, ?_, ?_, ?_, ?_, ?_, ?_, ?_⟩ <;> first | with_reducible assumption | (dsimp only; with_reducible assumption) | with_reducible exact ringPut_wf _ _ _ _ m1 | (simp only [List.length_modify, List.length_map, List.length_set]; with_reducible assumption)))

theorem takeAssist_inv {h : HalfId} {s : State} (hs : s.Inv) :
    (takeAssist h s).Inv := by
  unfold takeAssist
  repeat' (first | with_reducible assumption | with_reducible refine icuWithdraw_inv ?_ | with_reducible refine upd_inv (fun x hx => ?_) ?_ | with_reducible refine half_inv ?_ _ | dsimp only | split | (obtain ⟨⟨m1, m2⟩, ⟨q1, q2, q3, q4⟩, u1, u2, u3, u4, u5, u6, u7, u8, u9, u10⟩ := hx; refine ⟨⟨?_, ?_⟩, ⟨?_, ?_, ?_, ?_⟩, ?_, ?_, ?_, ?_, ?_, ?_, ?_, ?_, ?_, ?_⟩ <;> first | with_reducible assumption | (dsimp only; with_reducible assumption) | with_reducible exact ringPut_wf _ _ _ _ m1 | (simp only [List.length_modify, List.length_map, List.length_set]; with_reducible assumption)))

theorem hostWrite_inv {a : Nat} {bytes : List Byte} {s : State} (hs : s.Inv) : (hostWrite a bytes s).Inv :=
  ⟨hs.1, hs.2.1, memWrite_wf _ _ hs.2.2.1, hs.2.2.2⟩

theorem asrWrite_inv {h : HalfId} {a : AsrEntry} {s : State} (hs : s.Inv) :
    (asrWrite h a s).Inv := by
  unfold asrWrite
  repeat' (first | with_reducible assumption | with_reducible refine icuRaise_inv ?_ | with_reducible refine upd_inv (fun x hx => ?_) ?_ | with_reducible refine half_inv ?_ _ | dsimp only | split | (obtain ⟨⟨m1, m2⟩, ⟨q1, q2, q3, q4⟩, u1, u2, u3, u4, u5, u6, u7, u8, u9, u10⟩ := hx; refine ⟨⟨?_, ?_⟩, ⟨?_, ?_, ?_, ?_⟩, ?_, ?_, ?_, ?_, ?_, ?_, ?_, ?_, ?_, ?_⟩ <;> first | with_reducible assumption | (dsimp only; with_reducible assumption) | with_reducible exact ringPut_wf _ _ _ _ m1 | (simp only [List.length_modify, List.length_map, List.length_set]; with_reducible assumption)))

theorem assistLate_inv {h : HalfId} {kind tag : Nat} {obj : Handle} {sequence time cause : Nat} {s : State} (hs : s.Inv) :
    (assistLate h kind tag obj sequence time cause s).Inv := by
  unfold assistLate
  repeat' (first | with_reducible assumption | with_reducible refine count_inv ?_ | with_reducible refine event_inv ?_ | with_reducible refine upd_inv (fun x hx => ?_) ?_ | with_reducible refine half_inv ?_ _ | dsimp only | split | (obtain ⟨⟨m1, m2⟩, ⟨q1, q2, q3, q4⟩, u1, u2, u3, u4, u5, u6, u7, u8, u9, u10⟩ := hx; refine ⟨⟨?_, ?_⟩, ⟨?_, ?_, ?_, ?_⟩, ?_, ?_, ?_, ?_, ?_, ?_, ?_, ?_, ?_, ?_⟩ <;> first | with_reducible assumption | (dsimp only; with_reducible assumption) | with_reducible exact ringPut_wf _ _ _ _ m1 | (simp only [List.length_modify, List.length_map, List.length_set]; with_reducible assumption)))

theorem assistUnexpected_inv {h : HalfId} {kind tag : Nat} {obj : Handle} {cause : Nat} {s : State} (hs : s.Inv) :
    (assistUnexpected h kind tag obj cause s).Inv := by
  unfold assistUnexpected
  repeat' (first | with_reducible assumption | with_reducible refine event_inv ?_ | with_reducible refine upd_inv (fun x hx => ?_) ?_ | with_reducible refine half_inv ?_ _ | dsimp only | split | (obtain ⟨⟨m1, m2⟩, ⟨q1, q2, q3, q4⟩, u1, u2, u3, u4, u5, u6, u7, u8, u9, u10⟩ := hx; refine ⟨⟨?_, ?_⟩, ⟨?_, ?_, ?_, ?_⟩, ?_, ?_, ?_, ?_, ?_, ?_, ?_, ?_, ?_, ?_⟩ <;> first | with_reducible assumption | (dsimp only; with_reducible assumption) | with_reducible exact ringPut_wf _ _ _ _ m1 | (simp only [List.length_modify, List.length_map, List.length_set]; with_reducible assumption)))

theorem asrNotice_inv {h : HalfId} {a : AsrEntry} {s : State} (hs : s.Inv) : (asrNotice h a s).Inv := by
  unfold asrNotice
  extract_lets x
  split
  · exact asrWrite_inv hs
  split
  · next hn =>
    refine upd_inv_at (notices_inv ?_ (half_inv hs h)) hs
    simp only [List.length_append, List.length_cons, List.length_nil]
    rw [Bool.and_eq_true, decide_eq_true_eq] at hn
    exact hn.1
  · exact upd_inv (fun x hx => hx) hs

theorem asrRequest_inv {h : HalfId} {a : AsrEntry} {deadline : Nat} {s : State} (hs : s.Inv) :
    (asrRequest h a deadline s).Inv := by
  unfold asrRequest
  repeat' (first | with_reducible assumption | with_reducible refine asrWrite_inv ?_ | with_reducible refine upd_inv (fun x hx => ?_) ?_ | with_reducible refine half_inv ?_ _ | dsimp only | split | (obtain ⟨⟨m1, m2⟩, ⟨q1, q2, q3, q4⟩, u1, u2, u3, u4, u5, u6, u7, u8, u9, u10⟩ := hx; refine ⟨⟨?_, ?_⟩, ⟨?_, ?_, ?_, ?_⟩, ?_, ?_, ?_, ?_, ?_, ?_, ?_, ?_, ?_, ?_⟩ <;> first | with_reducible assumption | (dsimp only; with_reducible assumption) | with_reducible exact ringPut_wf _ _ _ _ m1 | (simp only [List.length_modify, List.length_map, List.length_set]; with_reducible assumption)))

theorem dmaDropAll_length (n : Nat) (cs : List DmaChan) : (dmaDropAll n cs).length = cs.length := by
  induction cs generalizing n with
  | nil => rfl
  | cons c cs ih => simp only [dmaDropAll, List.length_cons, ih]

theorem dmaBusFail_inv {h : HalfId} {cause : Nat} {address : W64} {descriptor : Bool} {s : State} (hs : s.Inv) :
    (dmaBusFail h cause address descriptor s).Inv := by
  unfold dmaBusFail
  refine event_inv (latchHw_inv (foldl_inv (fun s a hs => icuRaise_inv hs) (free_inv (upd_inv (fun x hx => ?_) hs))))
  obtain ⟨hm, hq, u1, u2, u3, u4, u5, u6, u7, u8⟩ := hx
  exact ⟨hm, hq, u1, u2, u3, u4, u5, u6, (dmaDropAll_length _ _).trans u7, u8⟩

/-! Operands.lean -/

theorem Reply.ok_inv {result : List Byte} {s : State} (hs : s.Inv) : (Reply.ok result s).state.Inv := hs

theorem Reply.later_inv {result : List Byte} {s : State} (hs : s.Inv) : (Reply.later result s).state.Inv := hs

theorem Reply.fail_inv {f : Fail} {s : State} (hs : s.Inv) : (Reply.fail f s).state.Inv := hs

theorem Reply.wait_inv {s : State} (hs : s.Inv) : (Reply.wait s).state.Inv := hs

theorem completeFail_inv {h : HalfId} {op : Nat} {e : CmdEntry} {f : Fail} {s : State} (hs : s.Inv) :
    (completeFail h op e f s).Inv := by
  unfold completeFail
  repeat' (first | with_reducible assumption | with_reducible refine complete_inv ?_ | with_reducible refine half_inv ?_ _ | dsimp only | split | (obtain ⟨⟨m1, m2⟩, ⟨q1, q2, q3, q4⟩, u1, u2, u3, u4, u5, u6, u7, u8, u9, u10⟩ := hx; refine ⟨⟨?_, ?_⟩, ⟨?_, ?_, ?_, ?_⟩, ?_, ?_, ?_, ?_, ?_, ?_, ?_, ?_, ?_, ?_⟩ <;> first | with_reducible assumption | (dsimp only; with_reducible assumption) | with_reducible exact ringPut_wf _ _ _ _ m1 | (simp only [List.length_modify, List.length_map, List.length_set]; with_reducible assumption)))

theorem finish_inv {h : HalfId} {op : Nat} {e : CmdEntry} {r : Reply} (hr : r.state.Inv) : (finish h op e r).Inv := by
  cases r
  · exact completeFail_inv hr
  · exact complete_inv hr
  · exact hr

theorem runCmd_inv {h : HalfId} {o : OpSpec} {e : CmdEntry} {r : Option RefFetch} {s : State} {body : State → Reply}
    (hb : ∀ u, u.Inv → (body u).state.Inv) (hs : s.Inv) : (runCmd h o e r s body).Inv := by
  unfold runCmd
  repeat' (first
    | with_reducible assumption
    | with_reducible refine completeFail_inv ?_
    | with_reducible refine dmaBusFail_inv ?_
    | with_reducible refine takeEntry_inv ?_
    | with_reducible refine finish_inv ?_
    | with_reducible refine hb _ ?_
    | dsimp only
    | dsimp only | split)

theorem takeUnknown_inv {h : HalfId} {s : State} (hs : s.Inv) :
    (takeUnknown h s).Inv := by
  unfold takeUnknown
  repeat' (first | with_reducible assumption | with_reducible refine takeEntry_inv ?_ | with_reducible refine completeFail_inv ?_ | with_reducible refine half_inv ?_ _ | dsimp only | split | (obtain ⟨⟨m1, m2⟩, ⟨q1, q2, q3, q4⟩, u1, u2, u3, u4, u5, u6, u7, u8, u9, u10⟩ := hx; refine ⟨⟨?_, ?_⟩, ⟨?_, ?_, ?_, ?_⟩, ?_, ?_, ?_, ?_, ?_, ?_, ?_, ?_, ?_, ?_⟩ <;> first | with_reducible assumption | (dsimp only; with_reducible assumption) | with_reducible exact ringPut_wf _ _ _ _ m1 | (simp only [List.length_modify, List.length_map, List.length_set]; with_reducible assumption)))

theorem guarded_inv {cs : List (Option Fail)} {s : State} {k : State → Reply} (hk : (k s).state.Inv) (hs : s.Inv) :
    (guarded cs s k).state.Inv := by
  unfold guarded
  split
  · exact hs
  · exact hk

theorem replyBuffer_inv {h : HalfId} {address : Nat} {bytes : List Byte} {b : BusResult} {result : List Byte} {after : State → State}
    {s : State} (ha : ∀ u, u.Inv → (after u).Inv) (hs : s.Inv) : (replyBuffer h address bytes b result after s).state.Inv := by
  unfold replyBuffer
  split
  · exact dmaBusFail_inv hs
  · exact ha _ (hostWrite_inv hs)

theorem updInput_inv {i : Nat} {f : InputSt → InputSt} {x : Half} (hx : x.Inv) :
    (updInput i f x).Inv := by
  unfold updInput
  repeat' (first | with_reducible assumption | with_reducible refine half_inv ?_ _ | dsimp only | split | (obtain ⟨⟨m1, m2⟩, ⟨q1, q2, q3, q4⟩, u1, u2, u3, u4, u5, u6, u7, u8, u9, u10⟩ := hx; refine ⟨⟨?_, ?_⟩, ⟨?_, ?_, ?_, ?_⟩, ?_, ?_, ?_, ?_, ?_, ?_, ?_, ?_, ?_, ?_⟩ <;> first | with_reducible assumption | (dsimp only; with_reducible assumption) | with_reducible exact ringPut_wf _ _ _ _ m1 | (simp only [List.length_modify, List.length_map, List.length_set]; with_reducible assumption)))

theorem updDecode_inv {i : Nat} {f : DecodeSt → DecodeSt} {x : Half} (hx : x.Inv) :
    (updDecode i f x).Inv := by
  unfold updDecode
  repeat' (first | with_reducible assumption | with_reducible refine half_inv ?_ _ | dsimp only | split | (obtain ⟨⟨m1, m2⟩, ⟨q1, q2, q3, q4⟩, u1, u2, u3, u4, u5, u6, u7, u8, u9, u10⟩ := hx; refine ⟨⟨?_, ?_⟩, ⟨?_, ?_, ?_, ?_⟩, ?_, ?_, ?_, ?_, ?_, ?_, ?_, ?_, ?_, ?_⟩ <;> first | with_reducible assumption | (dsimp only; with_reducible assumption) | with_reducible exact ringPut_wf _ _ _ _ m1 | (simp only [List.length_modify, List.length_map, List.length_set]; with_reducible assumption)))

theorem updSurface_inv {i : Nat} {f : SurfaceSt → SurfaceSt} {x : Half} (hx : x.Inv) :
    (updSurface i f x).Inv := by
  unfold updSurface
  repeat' (first | with_reducible assumption | with_reducible refine half_inv ?_ _ | dsimp only | split | (obtain ⟨⟨m1, m2⟩, ⟨q1, q2, q3, q4⟩, u1, u2, u3, u4, u5, u6, u7, u8, u9, u10⟩ := hx; refine ⟨⟨?_, ?_⟩, ⟨?_, ?_, ?_, ?_⟩, ?_, ?_, ?_, ?_, ?_, ?_, ?_, ?_, ?_, ?_⟩ <;> first | with_reducible assumption | (dsimp only; with_reducible assumption) | with_reducible exact ringPut_wf _ _ _ _ m1 | (simp only [List.length_modify, List.length_map, List.length_set]; with_reducible assumption)))

theorem updCanvas_inv {i : Nat} {f : CanvasSt → CanvasSt} {x : Half} (hx : x.Inv) :
    (updCanvas i f x).Inv := by
  unfold updCanvas
  repeat' (first | with_reducible assumption | with_reducible refine half_inv ?_ _ | dsimp only | split | (obtain ⟨⟨m1, m2⟩, ⟨q1, q2, q3, q4⟩, u1, u2, u3, u4, u5, u6, u7, u8, u9, u10⟩ := hx; refine ⟨⟨?_, ?_⟩, ⟨?_, ?_, ?_, ?_⟩, ?_, ?_, ?_, ?_, ?_, ?_, ?_, ?_, ?_, ?_⟩ <;> first | with_reducible assumption | (dsimp only; with_reducible assumption) | with_reducible exact ringPut_wf _ _ _ _ m1 | (simp only [List.length_modify, List.length_map, List.length_set]; with_reducible assumption)))

theorem updEncode_inv {i : Nat} {f : EncodeSt → EncodeSt} {x : Half} (hx : x.Inv) :
    (updEncode i f x).Inv := by
  unfold updEncode
  repeat' (first | with_reducible assumption | with_reducible refine half_inv ?_ _ | dsimp only | split | (obtain ⟨⟨m1, m2⟩, ⟨q1, q2, q3, q4⟩, u1, u2, u3, u4, u5, u6, u7, u8, u9, u10⟩ := hx; refine ⟨⟨?_, ?_⟩, ⟨?_, ?_, ?_, ?_⟩, ?_, ?_, ?_, ?_, ?_, ?_, ?_, ?_, ?_, ?_⟩ <;> first | with_reducible assumption | (dsimp only; with_reducible assumption) | with_reducible exact ringPut_wf _ _ _ _ m1 | (simp only [List.length_modify, List.length_map, List.length_set]; with_reducible assumption)))

theorem updShaper_inv {i : Nat} {f : ShaperSt → ShaperSt} {x : Half} (hx : x.Inv) :
    (updShaper i f x).Inv := by
  unfold updShaper
  repeat' (first | with_reducible assumption | with_reducible refine half_inv ?_ _ | dsimp only | split | (obtain ⟨⟨m1, m2⟩, ⟨q1, q2, q3, q4⟩, u1, u2, u3, u4, u5, u6, u7, u8, u9, u10⟩ := hx; refine ⟨⟨?_, ?_⟩, ⟨?_, ?_, ?_, ?_⟩, ?_, ?_, ?_, ?_, ?_, ?_, ?_, ?_, ?_, ?_⟩ <;> first | with_reducible assumption | (dsimp only; with_reducible assumption) | with_reducible exact ringPut_wf _ _ _ _ m1 | (simp only [List.length_modify, List.length_map, List.length_set]; with_reducible assumption)))

theorem updFlow_inv {i : Nat} {f : FlowSt → FlowSt} {x : Half} (hx : x.Inv) :
    (updFlow i f x).Inv := by
  unfold updFlow
  repeat' (first | with_reducible assumption | with_reducible refine half_inv ?_ _ | dsimp only | split | (obtain ⟨⟨m1, m2⟩, ⟨q1, q2, q3, q4⟩, u1, u2, u3, u4, u5, u6, u7, u8, u9, u10⟩ := hx; refine ⟨⟨?_, ?_⟩, ⟨?_, ?_, ?_, ?_⟩, ?_, ?_, ?_, ?_, ?_, ?_, ?_, ?_, ?_, ?_⟩ <;> first | with_reducible assumption | (dsimp only; with_reducible assumption) | with_reducible exact ringPut_wf _ _ _ _ m1 | (simp only [List.length_modify, List.length_map, List.length_set]; with_reducible assumption)))

theorem deferredDone_inv {h : HalfId} {op tag seq : Nat} {obj : Handle} {status flags time : Nat} {s : State} (hs : s.Inv) :
    (deferredDone h op tag seq obj status flags time s).Inv := by
  unfold deferredDone
  repeat' (first | with_reducible assumption | with_reducible refine event_inv ?_ | with_reducible refine half_inv ?_ _ | dsimp only | split | (obtain ⟨⟨m1, m2⟩, ⟨q1, q2, q3, q4⟩, u1, u2, u3, u4, u5, u6, u7, u8, u9, u10⟩ := hx; refine ⟨⟨?_, ?_⟩, ⟨?_, ?_, ?_, ?_⟩, ?_, ?_, ?_, ?_, ?_, ?_, ?_, ?_, ?_, ?_⟩ <;> first | with_reducible assumption | (dsimp only; with_reducible assumption) | with_reducible exact ringPut_wf _ _ _ _ m1 | (simp only [List.length_modify, List.length_map, List.length_set]; with_reducible assumption)))

theorem deferredEnd_inv {h : HalfId} {d : Deferred} {status flags : Nat} {s : State} (hs : s.Inv) :
    (deferredEnd h d status flags s).Inv := by
  unfold deferredEnd
  repeat' (first | with_reducible assumption | with_reducible refine deferredDone_inv ?_ | with_reducible refine half_inv ?_ _ | dsimp only | split | (obtain ⟨⟨m1, m2⟩, ⟨q1, q2, q3, q4⟩, u1, u2, u3, u4, u5, u6, u7, u8, u9, u10⟩ := hx; refine ⟨⟨?_, ?_⟩, ⟨?_, ?_, ?_, ?_⟩, ?_, ?_, ?_, ?_, ?_, ?_, ?_, ?_, ?_, ?_⟩ <;> first | with_reducible assumption | (dsimp only; with_reducible assumption) | with_reducible exact ringPut_wf _ _ _ _ m1 | (simp only [List.length_modify, List.length_map, List.length_set]; with_reducible assumption)))

theorem failoverWrite_inv {h : HalfId} {rs : List Record} {s : State} (hs : s.Inv) :
    (failoverWrite h rs s).Inv := by
  unfold failoverWrite
  repeat' (first | with_reducible assumption | with_reducible refine upd_inv (fun x hx => ?_) ?_ | with_reducible refine half_inv ?_ _ | dsimp only | split | (obtain ⟨⟨m1, m2⟩, ⟨q1, q2, q3, q4⟩, u1, u2, u3, u4, u5, u6, u7, u8, u9, u10⟩ := hx; refine ⟨⟨?_, ?_⟩, ⟨?_, ?_, ?_, ?_⟩, ?_, ?_, ?_, ?_, ?_, ?_, ?_, ?_, ?_, ?_⟩ <;> first | with_reducible assumption | (dsimp only; with_reducible assumption) | with_reducible exact ringPut_wf _ _ _ _ m1 | (simp only [List.length_modify, List.length_map, List.length_set]; with_reducible assumption)))

theorem takeoverCheck_inv {h : HalfId} {s : State} (hs : s.Inv) :
    (takeoverCheck h s).Inv := by
  unfold takeoverCheck
  repeat' (first | with_reducible assumption | with_reducible refine event_inv ?_ | with_reducible refine deferredDone_inv ?_ | with_reducible refine failoverWrite_inv ?_ | with_reducible refine upd_inv (fun x hx => ?_) ?_ | with_reducible refine half_inv ?_ _ | dsimp only | split | (obtain ⟨⟨m1, m2⟩, ⟨q1, q2, q3, q4⟩, u1, u2, u3, u4, u5, u6, u7, u8, u9, u10⟩ := hx; refine ⟨⟨?_, ?_⟩, ⟨?_, ?_, ?_, ?_⟩, ?_, ?_, ?_, ?_, ?_, ?_, ?_, ?_, ?_, ?_⟩ <;> first | with_reducible assumption | (dsimp only; with_reducible assumption) | with_reducible exact ringPut_wf _ _ _ _ m1 | (simp only [List.length_modify, List.length_map, List.length_set]; with_reducible assumption)))

theorem leaveTakeover_inv {obj : Handle} {x : Half} (hx : x.Inv) :
    (leaveTakeover obj x).Inv := by
  unfold leaveTakeover
  repeat' (first | with_reducible assumption | with_reducible refine half_inv ?_ _ | dsimp only | split | (obtain ⟨⟨m1, m2⟩, ⟨q1, q2, q3, q4⟩, u1, u2, u3, u4, u5, u6, u7, u8, u9, u10⟩ := hx; refine ⟨⟨?_, ?_⟩, ⟨?_, ?_, ?_, ?_⟩, ?_, ?_, ?_, ?_, ?_, ?_, ?_, ?_, ?_, ?_⟩ <;> first | with_reducible assumption | (dsimp only; with_reducible assumption) | with_reducible exact ringPut_wf _ _ _ _ m1 | (simp only [List.length_modify, List.length_map, List.length_set]; with_reducible assumption)))

theorem dropObject_inv {obj : Handle} {x : Half} (hx : x.Inv) :
    (dropObject obj x).Inv := by
  unfold dropObject
  repeat' (first | with_reducible assumption | with_reducible refine half_inv ?_ _ | dsimp only | split | (obtain ⟨⟨m1, m2⟩, ⟨q1, q2, q3, q4⟩, u1, u2, u3, u4, u5, u6, u7, u8, u9, u10⟩ := hx; refine ⟨⟨?_, ?_⟩, ⟨?_, ?_, ?_, ?_⟩, ?_, ?_, ?_, ?_, ?_, ?_, ?_, ?_, ?_, ?_⟩ <;> first | with_reducible assumption | (dsimp only; with_reducible assumption) | with_reducible exact ringPut_wf _ _ _ _ m1 | (simp only [List.length_modify, List.length_map, List.length_set]; with_reducible assumption)))

theorem removeIdle_inv {h : HalfId} {s : State} (hs : s.Inv) :
    (removeIdle h s).Inv := by
  unfold removeIdle
  repeat' (first | with_reducible assumption | with_reducible refine takeoverCheck_inv ?_ | with_reducible refine leaveTakeover_inv ?_ | with_reducible refine dropObject_inv ?_ | with_reducible refine upd_inv (fun x hx => ?_) ?_ | with_reducible refine foldl_inv (fun s a hs => ?_) ?_ | with_reducible refine foldlH_inv (fun x a hx => ?_) ?_ | with_reducible refine foldl_fst_inv (fun s a hs => ?_) ?_ | with_reducible refine half_inv ?_ _ | dsimp only | split | (obtain ⟨⟨m1, m2⟩, ⟨q1, q2, q3, q4⟩, u1, u2, u3, u4, u5, u6, u7, u8, u9, u10⟩ := hx; refine ⟨⟨?_, ?_⟩, ⟨?_, ?_, ?_, ?_⟩, ?_, ?_, ?_, ?_, ?_, ?_, ?_, ?_, ?_, ?_⟩ <;> first | with_reducible assumption | (dsimp only; with_reducible assumption) | with_reducible exact ringPut_wf _ _ _ _ m1 | (simp only [List.length_modify, List.length_map, List.length_set]; with_reducible assumption)))

/-! Clock.lean -/

theorem keelIdle_inv {x : Half} (hx : x.Inv) :
    (keelIdle x).Inv := by
  unfold keelIdle
  repeat' (first | with_reducible assumption | with_reducible refine half_inv ?_ _ | dsimp only | split | (obtain ⟨⟨m1, m2⟩, ⟨q1, q2, q3, q4⟩, u1, u2, u3, u4, u5, u6, u7, u8, u9, u10⟩ := hx; refine ⟨⟨?_, ?_⟩, ⟨?_, ?_, ?_, ?_⟩, ?_, ?_, ?_, ?_, ?_, ?_, ?_, ?_, ?_, ?_⟩ <;> first | with_reducible assumption | (dsimp only; with_reducible assumption) | with_reducible exact ringPut_wf _ _ _ _ m1 | (simp only [List.length_modify, List.length_map, List.length_set]; with_reducible assumption)))

theorem deviceTick_inv {s : State} (hs : s.Inv) : (deviceTick s).Inv := by
  unfold deviceTick
  split
  · exact hs
  · exact ⟨keelIdle_inv hs.1, keelIdle_inv hs.2.1, hs.2.2⟩

/-! Doorbells.lean -/

theorem regError_inv {bit : Nat} {x : Half} (hx : x.Inv) :
    (regError bit x).Inv := by
  unfold regError
  repeat' (first | with_reducible assumption | with_reducible refine half_inv ?_ _ | dsimp only | split | (obtain ⟨⟨m1, m2⟩, ⟨q1, q2, q3, q4⟩, u1, u2, u3, u4, u5, u6, u7, u8, u9, u10⟩ := hx; refine ⟨⟨?_, ?_⟩, ⟨?_, ?_, ?_, ?_⟩, ?_, ?_, ?_, ?_, ?_, ?_, ?_, ?_, ?_, ?_⟩ <;> first | with_reducible assumption | (dsimp only; with_reducible assumption) | with_reducible exact ringPut_wf _ _ _ _ m1 | (simp only [List.length_modify, List.length_map, List.length_set]; with_reducible assumption)))

theorem ringRefused_inv {h : HalfId} {ring : Nat} {value before : W32} {s : State} (hs : s.Inv) :
    (ringRefused h ring value before s).Inv := by
  unfold ringRefused
  repeat' (first | with_reducible assumption | with_reducible refine event_inv ?_ | with_reducible refine icuRaise_inv ?_ | with_reducible refine upd_inv (fun x hx => ?_) ?_ | with_reducible refine half_inv ?_ _ | dsimp only | split | (obtain ⟨⟨m1, m2⟩, ⟨q1, q2, q3, q4⟩, u1, u2, u3, u4, u5, u6, u7, u8, u9, u10⟩ := hx; refine ⟨⟨?_, ?_⟩, ⟨?_, ?_, ?_, ?_⟩, ?_, ?_, ?_, ?_, ?_, ?_, ?_, ?_, ?_, ?_⟩ <;> first | with_reducible assumption | (dsimp only; with_reducible assumption) | with_reducible exact ringPut_wf _ _ _ _ m1 | (simp only [List.length_modify, List.length_map, List.length_set]; with_reducible assumption)))

theorem writeCmdqTail_inv {h : HalfId} {v : W32} {s : State} (hs : s.Inv) :
    (writeCmdqTail h v s).Inv := by
  unfold writeCmdqTail
  repeat' (first | with_reducible assumption | with_reducible refine icuWithdraw_inv ?_ | with_reducible refine icuRaise_inv ?_ | with_reducible refine ringRefused_inv ?_ | with_reducible refine upd_inv (fun x hx => ?_) ?_ | with_reducible refine half_inv ?_ _ | dsimp only | split | (obtain ⟨⟨m1, m2⟩, ⟨q1, q2, q3, q4⟩, u1, u2, u3, u4, u5, u6, u7, u8, u9, u10⟩ := hx; refine ⟨⟨?_, ?_⟩, ⟨?_, ?_, ?_, ?_⟩, ?_, ?_, ?_, ?_, ?_, ?_, ?_, ?_, ?_, ?_⟩ <;> first | with_reducible assumption | (dsimp only; with_reducible assumption) | with_reducible exact ringPut_wf _ _ _ _ m1 | (simp only [List.length_modify, List.length_map, List.length_set]; with_reducible assumption)))

theorem writeCplqHead_inv {h : HalfId} {v : W32} {s : State} (hs : s.Inv) :
    (writeCplqHead h v s).Inv := by
  unfold writeCplqHead
  repeat' (first | with_reducible assumption | with_reducible refine icuWithdraw_inv ?_ | with_reducible refine ringRefused_inv ?_ | with_reducible refine upd_inv (fun x hx => ?_) ?_ | with_reducible refine half_inv ?_ _ | dsimp only | split | (obtain ⟨⟨m1, m2⟩, ⟨q1, q2, q3, q4⟩, u1, u2, u3, u4, u5, u6, u7, u8, u9, u10⟩ := hx; refine ⟨⟨?_, ?_⟩, ⟨?_, ?_, ?_, ?_⟩, ?_, ?_, ?_, ?_, ?_, ?_, ?_, ?_, ?_, ?_⟩ <;> first | with_reducible assumption | (dsimp only; with_reducible assumption) | with_reducible exact ringPut_wf _ _ _ _ m1 | (simp only [List.length_modify, List.length_map, List.length_set]; with_reducible assumption)))

theorem writeEvtqHead_inv {h : HalfId} {v : W32} {s : State} (hs : s.Inv) :
    (writeEvtqHead h v s).Inv := by
  unfold writeEvtqHead
  repeat' (first | with_reducible assumption | with_reducible refine icuWithdraw_inv ?_ | with_reducible refine ringRefused_inv ?_ | with_reducible refine upd_inv (fun x hx => ?_) ?_ | with_reducible refine half_inv ?_ _ | dsimp only | split | (obtain ⟨⟨m1, m2⟩, ⟨q1, q2, q3, q4⟩, u1, u2, u3, u4, u5, u6, u7, u8, u9, u10⟩ := hx; refine ⟨⟨?_, ?_⟩, ⟨?_, ?_, ?_, ?_⟩, ?_, ?_, ?_, ?_, ?_, ?_, ?_, ?_, ?_, ?_⟩ <;> first | with_reducible assumption | (dsimp only; with_reducible assumption) | with_reducible exact ringPut_wf _ _ _ _ m1 | (simp only [List.length_modify, List.length_map, List.length_set]; with_reducible assumption)))

theorem writeAsqTail_inv {h : HalfId} {v : W32} {s : State} (hs : s.Inv) :
    (writeAsqTail h v s).Inv := by
  unfold writeAsqTail
  repeat' (first | with_reducible assumption | with_reducible refine icuWithdraw_inv ?_ | with_reducible refine icuRaise_inv ?_ | with_reducible refine ringRefused_inv ?_ | with_reducible refine upd_inv (fun x hx => ?_) ?_ | with_reducible refine half_inv ?_ _ | dsimp only | split | (obtain ⟨⟨m1, m2⟩, ⟨q1, q2, q3, q4⟩, u1, u2, u3, u4, u5, u6, u7, u8, u9, u10⟩ := hx; refine ⟨⟨?_, ?_⟩, ⟨?_, ?_, ?_, ?_⟩, ?_, ?_, ?_, ?_, ?_, ?_, ?_, ?_, ?_, ?_⟩ <;> first | with_reducible assumption | (dsimp only; with_reducible assumption) | with_reducible exact ringPut_wf _ _ _ _ m1 | (simp only [List.length_modify, List.length_map, List.length_set]; with_reducible assumption)))

theorem writeAsrHead_inv {h : HalfId} {v : W32} {s : State} (hs : s.Inv) :
    (writeAsrHead h v s).Inv := by
  unfold writeAsrHead
  repeat' (first | with_reducible assumption | with_reducible refine icuWithdraw_inv ?_ | with_reducible refine ringRefused_inv ?_ | with_reducible refine upd_inv (fun x hx => ?_) ?_ | with_reducible refine half_inv ?_ _ | dsimp only | split | (obtain ⟨⟨m1, m2⟩, ⟨q1, q2, q3, q4⟩, u1, u2, u3, u4, u5, u6, u7, u8, u9, u10⟩ := hx; refine ⟨⟨?_, ?_⟩, ⟨?_, ?_, ?_, ?_⟩, ?_, ?_, ?_, ?_, ?_, ?_, ?_, ?_, ?_, ?_⟩ <;> first | with_reducible assumption | (dsimp only; with_reducible assumption) | with_reducible exact ringPut_wf _ _ _ _ m1 | (simp only [List.length_modify, List.length_map, List.length_set]; with_reducible assumption)))

theorem hostWriteTo_inv {h : HalfId} {f : State → State} {s : State} (hf : ∀ u, u.Inv → (f u).Inv) (hs : s.Inv) :
    (hostWriteTo h f s).Inv := by
  unfold hostWriteTo
  split
  · exact hf _ (upd_inv (fun x hx => count_inv hx) hs)
  · exact hs

theorem icuPutEntry_inv {h : HalfId} {n : Nat} {v : Nat} {s : State} (hs : s.Inv) :
    (icuPutEntry h n v s).Inv := by
  unfold icuPutEntry
  repeat' (first | with_reducible assumption | with_reducible refine icuEval_inv ?_ | with_reducible refine upd_inv (fun x hx => ?_) ?_ | with_reducible refine half_inv ?_ _ | dsimp only | split | (obtain ⟨⟨m1, m2⟩, ⟨q1, q2, q3, q4⟩, u1, u2, u3, u4, u5, u6, u7, u8, u9, u10⟩ := hx; refine ⟨⟨?_, ?_⟩, ⟨?_, ?_, ?_, ?_⟩, ?_, ?_, ?_, ?_, ?_, ?_, ?_, ?_, ?_, ?_⟩ <;> first | with_reducible assumption | (dsimp only; with_reducible assumption) | with_reducible exact ringPut_wf _ _ _ _ m1 | (simp only [List.length_modify, List.length_map, List.length_set]; with_reducible assumption)))

theorem icuHostEntry_inv {endpoint icu : HalfId} {n : Nat} {v : Nat} {s : State} (hs : s.Inv) :
    (icuHostEntry endpoint icu n v s).Inv := by
  unfold icuHostEntry
  repeat' (first | with_reducible assumption | with_reducible refine regError_inv ?_ | with_reducible refine icuPutEntry_inv ?_ | with_reducible refine upd_inv (fun x hx => ?_) ?_ | with_reducible refine half_inv ?_ _ | dsimp only | split | (obtain ⟨⟨m1, m2⟩, ⟨q1, q2, q3, q4⟩, u1, u2, u3, u4, u5, u6, u7, u8, u9, u10⟩ := hx; refine ⟨⟨?_, ?_⟩, ⟨?_, ?_, ?_, ?_⟩, ?_, ?_, ?_, ?_, ?_, ?_, ?_, ?_, ?_, ?_⟩ <;> first | with_reducible assumption | (dsimp only; with_reducible assumption) | with_reducible exact ringPut_wf _ _ _ _ m1 | (simp only [List.length_modify, List.length_map, List.length_set]; with_reducible assumption)))

theorem icuTake_inv {h : HalfId} {n : Nat} {s : State} (hs : s.Inv) :
    (icuTake h n s).1.Inv := by
  unfold icuTake
  repeat' (first | with_reducible assumption | with_reducible refine count_inv ?_ | with_reducible refine icuWithdraw_inv ?_ | with_reducible refine upd_inv (fun x hx => ?_) ?_ | with_reducible refine half_inv ?_ _ | dsimp only | split | (obtain ⟨⟨m1, m2⟩, ⟨q1, q2, q3, q4⟩, u1, u2, u3, u4, u5, u6, u7, u8, u9, u10⟩ := hx; refine ⟨⟨?_, ?_⟩, ⟨?_, ?_, ?_, ?_⟩, ?_, ?_, ?_, ?_, ?_, ?_, ?_, ?_, ?_, ?_⟩ <;> first | with_reducible assumption | (dsimp only; with_reducible assumption) | with_reducible exact ringPut_wf _ _ _ _ m1 | (simp only [List.length_modify, List.length_map, List.length_set]; with_reducible assumption)))

theorem icuServe_inv {r : Requester} {h : HalfId} {n : Nat} {s : State} (hs : s.Inv) :
    (icuServe r h n s).Inv := by
  unfold icuServe
  repeat' (first | with_reducible assumption | with_reducible refine upd_inv (fun x hx => ?_) ?_ | with_reducible refine half_inv ?_ _ | dsimp only | split | (obtain ⟨⟨m1, m2⟩, ⟨q1, q2, q3, q4⟩, u1, u2, u3, u4, u5, u6, u7, u8, u9, u10⟩ := hx; refine ⟨⟨?_, ?_⟩, ⟨?_, ?_, ?_, ?_⟩, ?_, ?_, ?_, ?_, ?_, ?_, ?_, ?_, ?_, ?_⟩ <;> first | with_reducible assumption | (dsimp only; with_reducible assumption) | with_reducible exact ringPut_wf _ _ _ _ m1 | (simp only [List.length_modify, List.length_map, List.length_set]; with_reducible assumption)))

theorem icuResult_inv {r : Requester} {h : HalfId} {v : Nat} {s : State} (hs : s.Inv) :
    (icuResult r h v s).Inv := by
  unfold icuResult
  repeat' (first | with_reducible assumption | with_reducible refine upd_inv (fun x hx => ?_) ?_ | with_reducible refine half_inv ?_ _ | dsimp only | split | (obtain ⟨⟨m1, m2⟩, ⟨q1, q2, q3, q4⟩, u1, u2, u3, u4, u5, u6, u7, u8, u9, u10⟩ := hx; refine ⟨⟨?_, ?_⟩, ⟨?_, ?_, ?_, ?_⟩, ?_, ?_, ?_, ?_, ?_, ?_, ?_, ?_, ?_, ?_⟩ <;> first | with_reducible assumption | (dsimp only; with_reducible assumption) | with_reducible exact ringPut_wf _ _ _ _ m1 | (simp only [List.length_modify, List.length_map, List.length_set]; with_reducible assumption)))

theorem icuClaimWrite_inv {r : Requester} {icu : HalfId} {number : W32} {s : State} (hs : s.Inv) :
    (icuClaimWrite r icu number s).Inv := by
  unfold icuClaimWrite
  repeat' (first | with_reducible assumption | with_reducible refine regError_inv ?_ | with_reducible refine icuTake_inv ?_ | with_reducible refine icuServe_inv ?_ | with_reducible refine icuResult_inv ?_ | with_reducible refine upd_inv (fun x hx => ?_) ?_ | with_reducible refine half_inv ?_ _ | dsimp only | split | (obtain ⟨⟨m1, m2⟩, ⟨q1, q2, q3, q4⟩, u1, u2, u3, u4, u5, u6, u7, u8, u9, u10⟩ := hx; refine ⟨⟨?_, ?_⟩, ⟨?_, ?_, ?_, ?_⟩, ?_, ?_, ?_, ?_, ?_, ?_, ?_, ?_, ?_, ?_⟩ <;> first | with_reducible assumption | (dsimp only; with_reducible assumption) | with_reducible exact ringPut_wf _ _ _ _ m1 | (simp only [List.length_modify, List.length_map, List.length_set]; with_reducible assumption)))

theorem icuSetWrite_inv {r : Requester} {icu : HalfId} {number : W32} {s : State} (hs : s.Inv) :
    (icuSetWrite r icu number s).Inv := by
  unfold icuSetWrite
  repeat' (first | with_reducible assumption | with_reducible refine icuRaise_inv ?_ | with_reducible refine regError_inv ?_ | with_reducible refine upd_inv (fun x hx => ?_) ?_ | with_reducible refine half_inv ?_ _ | dsimp only | split | (obtain ⟨⟨m1, m2⟩, ⟨q1, q2, q3, q4⟩, u1, u2, u3, u4, u5, u6, u7, u8, u9, u10⟩ := hx; refine ⟨⟨?_, ?_⟩, ⟨?_, ?_, ?_, ?_⟩, ?_, ?_, ?_, ?_, ?_, ?_, ?_, ?_, ?_, ?_⟩ <;> first | with_reducible assumption | (dsimp only; with_reducible assumption) | with_reducible exact ringPut_wf _ _ _ _ m1 | (simp only [List.length_modify, List.length_map, List.length_set]; with_reducible assumption)))

theorem msixMaskWrite_inv {h : HalfId} {v : Nat} {mask : Bool} {s : State} (hs : s.Inv) :
    (msixMaskWrite h v mask s).Inv := by
  unfold msixMaskWrite
  repeat' (first | with_reducible assumption | with_reducible refine emit_inv ?_ | with_reducible refine upd_inv (fun x hx => ?_) ?_ | with_reducible refine half_inv ?_ _ | dsimp only | split | (obtain ⟨⟨m1, m2⟩, ⟨q1, q2, q3, q4⟩, u1, u2, u3, u4, u5, u6, u7, u8, u9, u10⟩ := hx; refine ⟨⟨?_, ?_⟩, ⟨?_, ?_, ?_, ?_⟩, ?_, ?_, ?_, ?_, ?_, ?_, ?_, ?_, ?_, ?_⟩ <;> first | with_reducible assumption | (dsimp only; with_reducible assumption) | with_reducible exact ringPut_wf _ _ _ _ m1 | (simp only [List.length_modify, List.length_map, List.length_set]; with_reducible assumption)))

/-! HostDma.lean -/

theorem fillEnd_inv {block : Nat} {x : Half} (hx : x.Inv) : (fillEnd block x).Inv := by
  unfold fillEnd
  split
  · exact hx
  · refine dram_inv (memFold_wf _ _ (fun m a hm => ?_) hx.1.2) hx
    split
    · exact memWriteEn_wf _ _ hm
    · exact hm

theorem picSpread_inv {x : Half} {p : StoredPic} (hx : x.Inv) : (picSpread x p).Inv :=
  dram_inv (memFold_wf _ _ (fun _ _ hm => memWrite_wf _ _ hm) hx.1.2) hx

theorem picsEnd_inv {a n : Nat} {x : Half} (hx : x.Inv) :
    (picsEnd a n x).Inv := by
  unfold picsEnd
  repeat' (first | with_reducible assumption | with_reducible refine picSpread_inv ?_ | with_reducible refine foldl_inv (fun s a hs => ?_) ?_ | with_reducible refine foldlH_inv (fun x a hx => ?_) ?_ | with_reducible refine foldl_fst_inv (fun s a hs => ?_) ?_ | with_reducible refine half_inv ?_ _ | dsimp only | split | (obtain ⟨⟨m1, m2⟩, ⟨q1, q2, q3, q4⟩, u1, u2, u3, u4, u5, u6, u7, u8, u9, u10⟩ := hx; refine ⟨⟨?_, ?_⟩, ⟨?_, ?_, ?_, ?_⟩, ?_, ?_, ?_, ?_, ?_, ?_, ?_, ?_, ?_, ?_⟩ <;> first | with_reducible assumption | (dsimp only; with_reducible assumption) | with_reducible exact ringPut_wf _ _ _ _ m1 | (simp only [List.length_modify, List.length_map, List.length_set]; with_reducible assumption)))

theorem picStore_inv {p : StoredPic} {x : Half} (hx : x.Inv) :
    (picStore p x).Inv := by
  unfold picStore
  repeat' (first | with_reducible assumption | with_reducible refine half_inv ?_ _ | dsimp only | split | (obtain ⟨⟨m1, m2⟩, ⟨q1, q2, q3, q4⟩, u1, u2, u3, u4, u5, u6, u7, u8, u9, u10⟩ := hx; refine ⟨⟨?_, ?_⟩, ⟨?_, ?_, ?_, ?_⟩, ?_, ?_, ?_, ?_, ?_, ?_, ?_, ?_, ?_, ?_⟩ <;> first | with_reducible assumption | (dsimp only; with_reducible assumption) | with_reducible exact ringPut_wf _ _ _ _ m1 | (simp only [List.length_modify, List.length_map, List.length_set]; with_reducible assumption)))

theorem fillsEnd_inv {a n : Nat} {x : Half} (hx : x.Inv) :
    (fillsEnd a n x).Inv := by
  unfold fillsEnd
  repeat' (first | with_reducible assumption | with_reducible refine fillEnd_inv ?_ | with_reducible refine picsEnd_inv ?_ | with_reducible refine foldl_inv (fun s a hs => ?_) ?_ | with_reducible refine foldlH_inv (fun x a hx => ?_) ?_ | with_reducible refine foldl_fst_inv (fun s a hs => ?_) ?_ | with_reducible refine half_inv ?_ _ | dsimp only | split | (obtain ⟨⟨m1, m2⟩, ⟨q1, q2, q3, q4⟩, u1, u2, u3, u4, u5, u6, u7, u8, u9, u10⟩ := hx; refine ⟨⟨?_, ?_⟩, ⟨?_, ?_, ?_, ?_⟩, ?_, ?_, ?_, ?_, ?_, ?_, ?_, ?_, ?_, ?_⟩ <;> first | with_reducible assumption | (dsimp only; with_reducible assumption) | with_reducible exact ringPut_wf _ _ _ _ m1 | (simp only [List.length_modify, List.length_map, List.length_set]; with_reducible assumption)))

theorem devWrite_inv {a : Nat} {bytes : List Byte} {x : Half} (hx : x.Inv) : (devWrite a bytes x).Inv :=
  dram_inv (memWrite_wf _ _ (fillsEnd_inv hx).1.2) (fillsEnd_inv hx)

theorem devClear_inv {a n : Nat} {x : Half} (hx : x.Inv) : (devClear a n x).Inv :=
  dram_inv (memClear_wf _ _ (picsEnd_inv hx).1.2) (picsEnd_inv hx)

theorem bar4Deny_inv {h : HalfId} {a : Nat} {s : State} (hs : s.Inv) :
    (bar4Deny h a s).Inv := by
  unfold bar4Deny
  repeat' (first | with_reducible assumption | with_reducible refine event_inv ?_ | with_reducible refine upd_inv (fun x hx => ?_) ?_ | with_reducible refine half_inv ?_ _ | dsimp only | split | (obtain ⟨⟨m1, m2⟩, ⟨q1, q2, q3, q4⟩, u1, u2, u3, u4, u5, u6, u7, u8, u9, u10⟩ := hx; refine ⟨⟨?_, ?_⟩, ⟨?_, ?_, ?_, ?_⟩, ?_, ?_, ?_, ?_, ?_, ?_, ?_, ?_, ?_, ?_⟩ <;> first | with_reducible assumption | (dsimp only; with_reducible assumption) | with_reducible exact ringPut_wf _ _ _ _ m1 | (simp only [List.length_modify, List.length_map, List.length_set]; with_reducible assumption)))

theorem errorResponse_inv {a : Nat} {x : Half} (hx : x.Inv) :
    (errorResponse a x).Inv := by
  unfold errorResponse
  repeat' (first | with_reducible assumption | with_reducible refine count_inv ?_ | with_reducible refine half_inv ?_ _ | dsimp only | split | (obtain ⟨⟨m1, m2⟩, ⟨q1, q2, q3, q4⟩, u1, u2, u3, u4, u5, u6, u7, u8, u9, u10⟩ := hx; refine ⟨⟨?_, ?_⟩, ⟨?_, ?_, ?_, ?_⟩, ?_, ?_, ?_, ?_, ?_, ?_, ?_, ?_, ?_, ?_⟩ <;> first | with_reducible assumption | (dsimp only; with_reducible assumption) | with_reducible exact ringPut_wf _ _ _ _ m1 | (simp only [List.length_modify, List.length_map, List.length_set]; with_reducible assumption)))

theorem bar4Do_inv {h : HalfId} {op : Bar4Op} {s : State} (hs : s.Inv) : (bar4Do h op s).Inv := by
  unfold bar4Do
  extract_lets x
  split <;> extract_lets a
  · split
    · exact hs
    split
    · exact bar4Deny_inv (upd_inv (fun x hx => hx) hs)
    split
    · exact State.tick1_inv (upd_inv (fun x hx => (errorResponse_inv hx : (errorResponse a x).Inv)) hs)
    · exact upd_inv (fun x hx => (fillsEnd_inv hx : (fillsEnd a _ x).Inv)) hs
  · split
    · exact hs
    split
    · exact bar4Deny_inv hs
    split
    · exact upd_inv (fun x hx => errorResponse_inv hx) hs
    · exact upd_inv (fun x hx => devWrite_inv hx) hs

theorem bar2Do_inv {o : Nat} {bytes : List Byte} {x : Half} (hx : x.Inv) : (bar2Do o bytes x).Inv := by
  have h1 : ∀ l, ({ x with rings := { x.rings with mem := memWriteEn o l x.rings.mem } } : Half).Inv :=
    fun l => mem_inv (memWriteEn_wf _ _ hx.1.1) hx
  unfold bar2Do
  dsimp only
  split
  · exact regError_inv (h1 _)
  · exact h1 _

theorem updChan_inv {c : Nat} {f : DmaChan → DmaChan} {x : Half} (hx : x.Inv) :
    (updChan c f x).Inv := by
  unfold updChan
  repeat' (first | with_reducible assumption | with_reducible refine half_inv ?_ _ | dsimp only | split | (obtain ⟨⟨m1, m2⟩, ⟨q1, q2, q3, q4⟩, u1, u2, u3, u4, u5, u6, u7, u8, u9, u10⟩ := hx; refine ⟨⟨?_, ?_⟩, ⟨?_, ?_, ?_, ?_⟩, ?_, ?_, ?_, ?_, ?_, ?_, ?_, ?_, ?_, ?_⟩ <;> first | with_reducible assumption | (dsimp only; with_reducible assumption) | with_reducible exact ringPut_wf _ _ _ _ m1 | (simp only [List.length_modify, List.length_map, List.length_set]; with_reducible assumption)))

theorem hostRead_inv {h : HalfId} {c : Nat} {a : W64} {n : Nat} {noSnoop : Bool} {s : State} (hs : s.Inv) :
    (hostRead h c a n noSnoop s).Inv := by
  unfold hostRead
  repeat' (first | with_reducible assumption | with_reducible refine emit_inv ?_ | with_reducible refine foldl_inv (fun s a hs => ?_) ?_ | with_reducible refine foldlH_inv (fun x a hx => ?_) ?_ | with_reducible refine foldl_fst_inv (fun s a hs => ?_) ?_ | with_reducible refine half_inv ?_ _ | dsimp only | split | (obtain ⟨⟨m1, m2⟩, ⟨q1, q2, q3, q4⟩, u1, u2, u3, u4, u5, u6, u7, u8, u9, u10⟩ := hx; refine ⟨⟨?_, ?_⟩, ⟨?_, ?_, ?_, ?_⟩, ?_, ?_, ?_, ?_, ?_, ?_, ?_, ?_, ?_, ?_⟩ <;> first | with_reducible assumption | (dsimp only; with_reducible assumption) | with_reducible exact ringPut_wf _ _ _ _ m1 | (simp only [List.length_modify, List.length_map, List.length_set]; with_reducible assumption)))

theorem readDescriptor_inv {h : HalfId} {c : Nat} {a : W64} {s : State} (hs : s.Inv) :
    (readDescriptor h c a s).Inv := by
  unfold readDescriptor
  repeat' (first | with_reducible assumption | with_reducible refine updChan_inv ?_ | with_reducible refine hostRead_inv ?_ | with_reducible refine upd_inv (fun x hx => ?_) ?_ | with_reducible refine half_inv ?_ _ | dsimp only | split | (obtain ⟨⟨m1, m2⟩, ⟨q1, q2, q3, q4⟩, u1, u2, u3, u4, u5, u6, u7, u8, u9, u10⟩ := hx; refine ⟨⟨?_, ?_⟩, ⟨?_, ?_, ?_, ?_⟩, ?_, ?_, ?_, ?_, ?_, ?_, ?_, ?_, ?_, ?_⟩ <;> first | with_reducible assumption | (dsimp only; with_reducible assumption) | with_reducible exact ringPut_wf _ _ _ _ m1 | (simp only [List.length_modify, List.length_map, List.length_set]; with_reducible assumption)))

theorem readAgain_inv {h : HalfId} {c : Nat} {s : State} (hs : s.Inv) :
    (readAgain h c s).Inv := by
  unfold readAgain
  repeat' (first | with_reducible assumption | with_reducible refine count_inv ?_ | with_reducible refine updChan_inv ?_ | with_reducible refine hostRead_inv ?_ | with_reducible refine upd_inv (fun x hx => ?_) ?_ | with_reducible refine half_inv ?_ _ | dsimp only | split | (obtain ⟨⟨m1, m2⟩, ⟨q1, q2, q3, q4⟩, u1, u2, u3, u4, u5, u6, u7, u8, u9, u10⟩ := hx; refine ⟨⟨?_, ?_⟩, ⟨?_, ?_, ?_, ?_⟩, ?_, ?_, ?_, ?_, ?_, ?_, ?_, ?_, ?_, ?_⟩ <;> first | with_reducible assumption | (dsimp only; with_reducible assumption) | with_reducible exact ringPut_wf _ _ _ _ m1 | (simp only [List.length_modify, List.length_map, List.length_set]; with_reducible assumption)))

theorem dmaKickDo_inv {h : HalfId} {c : Nat} {s : State} (hs : s.Inv) :
    (dmaKickDo h c s).Inv := by
  unfold dmaKickDo
  repeat' (first | with_reducible assumption | with_reducible refine count_inv ?_ | with_reducible refine regError_inv ?_ | with_reducible refine updChan_inv ?_ | with_reducible refine readDescriptor_inv ?_ | with_reducible refine readAgain_inv ?_ | with_reducible refine upd_inv (fun x hx => ?_) ?_ | with_reducible refine half_inv ?_ _ | dsimp only | split | (obtain ⟨⟨m1, m2⟩, ⟨q1, q2, q3, q4⟩, u1, u2, u3, u4, u5, u6, u7, u8, u9, u10⟩ := hx; refine ⟨⟨?_, ?_⟩, ⟨?_, ?_, ?_, ?_⟩, ?_, ?_, ?_, ?_, ?_, ?_, ?_, ?_, ?_, ?_⟩ <;> first | with_reducible assumption | (dsimp only; with_reducible assumption) | with_reducible exact ringPut_wf _ _ _ _ m1 | (simp only [List.length_modify, List.length_map, List.length_set]; with_reducible assumption)))

theorem dmaChainDo_inv {h : HalfId} {c : Nat} {a : W64} {s : State} (hs : s.Inv) :
    (dmaChainDo h c a s).Inv := by
  unfold dmaChainDo
  repeat' (first | with_reducible assumption | with_reducible refine regError_inv ?_ | with_reducible refine updChan_inv ?_ | with_reducible refine upd_inv (fun x hx => ?_) ?_ | with_reducible refine half_inv ?_ _ | dsimp only | split | (obtain ⟨⟨m1, m2⟩, ⟨q1, q2, q3, q4⟩, u1, u2, u3, u4, u5, u6, u7, u8, u9, u10⟩ := hx; refine ⟨⟨?_, ?_⟩, ⟨?_, ?_, ?_, ?_⟩, ?_, ?_, ?_, ?_, ?_, ?_, ?_, ?_, ?_, ?_⟩ <;> first | with_reducible assumption | (dsimp only; with_reducible assumption) | with_reducible exact ringPut_wf _ _ _ _ m1 | (simp only [List.length_modify, List.length_map, List.length_set]; with_reducible assumption)))

theorem dmaCtrlDo_inv {h : HalfId} {c : Nat} {en noSnoop : Bool} {s : State} (hs : s.Inv) :
    (dmaCtrlDo h c en noSnoop s).Inv := by
  unfold dmaCtrlDo
  repeat' (first | with_reducible assumption | with_reducible refine regError_inv ?_ | with_reducible refine updChan_inv ?_ | with_reducible refine upd_inv (fun x hx => ?_) ?_ | with_reducible refine half_inv ?_ _ | dsimp only | split | (obtain ⟨⟨m1, m2⟩, ⟨q1, q2, q3, q4⟩, u1, u2, u3, u4, u5, u6, u7, u8, u9, u10⟩ := hx; refine ⟨⟨?_, ?_⟩, ⟨?_, ?_, ?_, ?_⟩, ?_, ?_, ?_, ?_, ?_, ?_, ?_, ?_, ?_, ?_⟩ <;> first | with_reducible assumption | (dsimp only; with_reducible assumption) | with_reducible exact ringPut_wf _ _ _ _ m1 | (simp only [List.length_modify, List.length_map, List.length_set]; with_reducible assumption)))

theorem dmaDisableDo_inv {h : HalfId} {c : Nat} {s : State} (hs : s.Inv) : (dmaDisableDo h c s).Inv := by
  unfold dmaDisableDo
  split
  · exact upd_inv (fun x hx => regError_inv hx) hs
  · exact free_inv (upd_inv (fun x hx => updChan_inv hx) hs)

theorem dmaErrClearDo_inv {h : HalfId} {s : State} (hs : s.Inv) :
    (dmaErrClearDo h s).Inv := by
  unfold dmaErrClearDo
  repeat' (first | with_reducible assumption | with_reducible refine upd_inv (fun x hx => ?_) ?_ | with_reducible refine half_inv ?_ _ | dsimp only | split | (obtain ⟨⟨m1, m2⟩, ⟨q1, q2, q3, q4⟩, u1, u2, u3, u4, u5, u6, u7, u8, u9, u10⟩ := hx; refine ⟨⟨?_, ?_⟩, ⟨?_, ?_, ?_, ?_⟩, ?_, ?_, ?_, ?_, ?_, ?_, ?_, ?_, ?_, ?_⟩ <;> first | with_reducible assumption | (dsimp only; with_reducible assumption) | with_reducible exact ringPut_wf _ _ _ _ m1 | (simp only [List.length_modify, List.length_map, List.length_set]; with_reducible assumption)))

theorem descStop_inv {h : HalfId} {c : Nat} {control : Nat} {s : State} (hs : s.Inv) :
    (descStop h c control s).Inv := by
  unfold descStop
  repeat' (first | with_reducible assumption | with_reducible refine event_inv ?_ | with_reducible refine icuRaise_inv ?_ | with_reducible refine updChan_inv ?_ | with_reducible refine upd_inv (fun x hx => ?_) ?_ | with_reducible refine half_inv ?_ _ | dsimp only | split | (obtain ⟨⟨m1, m2⟩, ⟨q1, q2, q3, q4⟩, u1, u2, u3, u4, u5, u6, u7, u8, u9, u10⟩ := hx; refine ⟨⟨?_, ?_⟩, ⟨?_, ?_, ?_, ?_⟩, ?_, ?_, ?_, ?_, ?_, ?_, ?_, ?_, ?_, ?_⟩ <;> first | with_reducible assumption | (dsimp only; with_reducible assumption) | with_reducible exact ringPut_wf _ _ _ _ m1 | (simp only [List.length_modify, List.length_map, List.length_set]; with_reducible assumption)))

theorem dmaDeliver_inv {h : HalfId} {a : W64} {bytes : List Byte} {s : State} (hs : s.Inv) : (dmaDeliver h a bytes s).Inv := by
  unfold dmaDeliver
  split
  · exact hs
  split
  · refine foldl_inv (fun s a hs => bar4Deny_inv hs) (upd_inv (fun x hx => ?_) hs)
    exact dram_inv (memWriteEn_wf _ _ (fillsEnd_inv hx).1.2) (fillsEnd_inv hx)
  · exact hostWrite_inv hs

theorem descStart_inv {h : HalfId} {c : Nat} {bytes : List Byte} {s : State} (hs : s.Inv) :
    (descStart h c bytes s).Inv := by
  unfold descStart
  repeat' (first | with_reducible assumption | with_reducible refine updChan_inv ?_ | with_reducible refine hostRead_inv ?_ | with_reducible refine descStop_inv ?_ | with_reducible refine upd_inv (fun x hx => ?_) ?_ | with_reducible refine half_inv ?_ _ | dsimp only | split | (obtain ⟨⟨m1, m2⟩, ⟨q1, q2, q3, q4⟩, u1, u2, u3, u4, u5, u6, u7, u8, u9, u10⟩ := hx; refine ⟨⟨?_, ?_⟩, ⟨?_, ?_, ?_, ?_⟩, ?_, ?_, ?_, ?_, ?_, ?_, ?_, ?_, ?_, ?_⟩ <;> first | with_reducible assumption | (dsimp only; with_reducible assumption) | with_reducible exact ringPut_wf _ _ _ _ m1 | (simp only [List.length_modify, List.length_map, List.length_set]; with_reducible assumption)))

theorem descAgain_inv {h : HalfId} {c : Nat} {bytes : List Byte} {s : State} (hs : s.Inv) :
    (descAgain h c bytes s).Inv := by
  unfold descAgain
  repeat' (first | with_reducible assumption | with_reducible refine updChan_inv ?_ | with_reducible refine readDescriptor_inv ?_ | with_reducible refine descStop_inv ?_ | with_reducible refine upd_inv (fun x hx => ?_) ?_ | with_reducible refine half_inv ?_ _ | dsimp only | split | (obtain ⟨⟨m1, m2⟩, ⟨q1, q2, q3, q4⟩, u1, u2, u3, u4, u5, u6, u7, u8, u9, u10⟩ := hx; refine ⟨⟨?_, ?_⟩, ⟨?_, ?_, ?_, ?_⟩, ?_, ?_, ?_, ?_, ?_, ?_, ?_, ?_, ?_, ?_⟩ <;> first | with_reducible assumption | (dsimp only; with_reducible assumption) | with_reducible exact ringPut_wf _ _ _ _ m1 | (simp only [List.length_modify, List.length_map, List.length_set]; with_reducible assumption)))

theorem readArrives_inv {h : HalfId} {c : Nat} {bytes : List Byte} {s : State} (hs : s.Inv) :
    (readArrives h c bytes s).Inv := by
  unfold readArrives
  repeat' (first | with_reducible assumption | with_reducible refine count_inv ?_ | with_reducible refine dmaBusFail_inv ?_ | with_reducible refine errorResponse_inv ?_ | with_reducible refine updChan_inv ?_ | with_reducible refine dmaDeliver_inv ?_ | with_reducible refine upd_inv (fun x hx => ?_) ?_ | with_reducible refine half_inv ?_ _ | dsimp only | split | (obtain ⟨⟨m1, m2⟩, ⟨q1, q2, q3, q4⟩, u1, u2, u3, u4, u5, u6, u7, u8, u9, u10⟩ := hx; refine ⟨⟨?_, ?_⟩, ⟨?_, ?_, ?_, ?_⟩, ?_, ?_, ?_, ?_, ?_, ?_, ?_, ?_, ?_, ?_⟩ <;> first | with_reducible assumption | (dsimp only; with_reducible assumption) | with_reducible exact ringPut_wf _ _ _ _ m1 | (simp only [List.length_modify, List.length_map, List.length_set]; with_reducible assumption)))

theorem descEnd_inv {h : HalfId} {c : Nat} {s : State} (hs : s.Inv) :
    (descEnd h c s).Inv := by
  unfold descEnd
  repeat' (first | with_reducible assumption | with_reducible refine emit_inv ?_ | with_reducible refine count_inv ?_ | with_reducible refine icuRaise_inv ?_ | with_reducible refine updChan_inv ?_ | with_reducible refine readDescriptor_inv ?_ | with_reducible refine readAgain_inv ?_ | with_reducible refine upd_inv (fun x hx => ?_) ?_ | with_reducible refine half_inv ?_ _ | dsimp only | split | (obtain ⟨⟨m1, m2⟩, ⟨q1, q2, q3, q4⟩, u1, u2, u3, u4, u5, u6, u7, u8, u9, u10⟩ := hx; refine ⟨⟨?_, ?_⟩, ⟨?_, ?_, ?_, ?_⟩, ?_, ?_, ?_, ?_, ?_, ?_, ?_, ?_, ?_, ?_⟩ <;> first | with_reducible assumption | (dsimp only; with_reducible assumption) | with_reducible exact ringPut_wf _ _ _ _ m1 | (simp only [List.length_modify, List.length_map, List.length_set]; with_reducible assumption)))

/-! Pools.lean -/

theorem updPool_inv {p : Nat} {f : PoolSt → PoolSt} {x : Half} (hx : x.Inv) :
    (updPool p f x).Inv := by
  unfold updPool
  repeat' (first | with_reducible assumption | with_reducible refine half_inv ?_ _ | dsimp only | split | (obtain ⟨⟨m1, m2⟩, ⟨q1, q2, q3, q4⟩, u1, u2, u3, u4, u5, u6, u7, u8, u9, u10⟩ := hx; refine ⟨⟨?_, ?_⟩, ⟨?_, ?_, ?_, ?_⟩, ?_, ?_, ?_, ?_, ?_, ?_, ?_, ?_, ?_, ?_⟩ <;> first | with_reducible assumption | (dsimp only; with_reducible assumption) | with_reducible exact ringPut_wf _ _ _ _ m1 | (simp only [List.length_modify, List.length_map, List.length_set]; with_reducible assumption)))

theorem threadList_inv {p : Nat} {q : PoolSt} {l : List Nat} {x : Half} (hx : x.Inv) : (threadList p q l x).1.Inv := by
  induction l with
  | nil => exact hx
  | cons i l ih => exact devWrite_inv ih

theorem poolThread_inv {p : Nat} {x : Half} (hx : x.Inv) : (poolThread p x).Inv :=
  updPool_inv (threadList_inv hx)

theorem poolWater_inv {h : HalfId} {p : Nat} {s : State} (hs : s.Inv) :
    (poolWater h p s).Inv := by
  unfold poolWater
  repeat' (first | with_reducible assumption | with_reducible refine event_inv ?_ | with_reducible refine updPool_inv ?_ | with_reducible refine upd_inv (fun x hx => ?_) ?_ | with_reducible refine half_inv ?_ _ | dsimp only | split | (obtain ⟨⟨m1, m2⟩, ⟨q1, q2, q3, q4⟩, u1, u2, u3, u4, u5, u6, u7, u8, u9, u10⟩ := hx; refine ⟨⟨?_, ?_⟩, ⟨?_, ?_, ?_, ?_⟩, ?_, ?_, ?_, ?_, ?_, ?_, ?_, ?_, ?_, ?_⟩ <;> first | with_reducible assumption | (dsimp only; with_reducible assumption) | with_reducible exact ringPut_wf _ _ _ _ m1 | (simp only [List.length_modify, List.length_map, List.length_set]; with_reducible assumption)))

theorem poolAskSupply_inv {h : HalfId} {p : Nat} {s : State} (hs : s.Inv) :
    (poolAskSupply h p s).Inv := by
  unfold poolAskSupply
  repeat' (first | with_reducible assumption | with_reducible refine asrRequest_inv ?_ | with_reducible refine updPool_inv ?_ | with_reducible refine upd_inv (fun x hx => ?_) ?_ | with_reducible refine half_inv ?_ _ | dsimp only | split | (obtain ⟨⟨m1, m2⟩, ⟨q1, q2, q3, q4⟩, u1, u2, u3, u4, u5, u6, u7, u8, u9, u10⟩ := hx; refine ⟨⟨?_, ?_⟩, ⟨?_, ?_, ?_, ?_⟩, ?_, ?_, ?_, ?_, ?_, ?_, ?_, ?_, ?_, ?_⟩ <;> first | with_reducible assumption | (dsimp only; with_reducible assumption) | with_reducible exact ringPut_wf _ _ _ _ m1 | (simp only [List.length_modify, List.length_map, List.length_set]; with_reducible assumption)))

theorem poolListCorrupt_inv {h : HalfId} {p next stop : Nat} {s : State} (hs : s.Inv) :
    (poolListCorrupt h p next stop s).Inv := by
  unfold poolListCorrupt
  repeat' (first | with_reducible assumption | with_reducible refine latchHw_inv ?_ | with_reducible refine event_inv ?_ | with_reducible refine updPool_inv ?_ | with_reducible refine upd_inv (fun x hx => ?_) ?_ | with_reducible refine half_inv ?_ _ | dsimp only | split | (obtain ⟨⟨m1, m2⟩, ⟨q1, q2, q3, q4⟩, u1, u2, u3, u4, u5, u6, u7, u8, u9, u10⟩ := hx; refine ⟨⟨?_, ?_⟩, ⟨?_, ?_, ?_, ?_⟩, ?_, ?_, ?_, ?_, ?_, ?_, ?_, ?_, ?_, ?_⟩ <;> first | with_reducible assumption | (dsimp only; with_reducible assumption) | with_reducible exact ringPut_wf _ _ _ _ m1 | (simp only [List.length_modify, List.length_map, List.length_set]; with_reducible assumption)))

theorem poolPrefetch_inv {h : HalfId} {p stop n : Nat} {s : State} (hs : s.Inv) : (poolPrefetch h p stop n s).Inv := by
  induction n generalizing s with
  | zero => exact hs
  | succ n ih =>
    unfold poolPrefetch
    extract_lets x q next
    split
    · exact hs
    split
    · exact ih (upd_inv (fun x hx => updPool_inv hx) hs)
    · exact poolListCorrupt_inv hs

theorem poolTake_inv {h : HalfId} {p stop n : Nat} {s : State} (hs : s.Inv) : (poolTake h p stop n s).Inv := by
  unfold poolTake
  extract_lets +onlyGivenNames x q grant
  have hg : ∀ a u, u.Inv → (grant a u).Inv := fun a u hu => upd_inv (fun x hx => count_inv (updPool_inv hx)) hu
  split
  · split
    · exact hs
    · exact poolAskSupply_inv (poolWater_inv (hg _ _ (upd_inv (fun x hx => updPool_inv hx) hs)))
  · extract_lets a next u
    have hu : u.Inv := poolWater_inv (hg _ _ (upd_inv (fun x hx => updPool_inv hx) hs))
    split
    · exact poolPrefetch_inv hu
    · exact poolListCorrupt_inv hu

theorem poolRefuse_inv {h : HalfId} {p stop size : Nat} {s : State} (hs : s.Inv) :
    (poolRefuse h p stop size s).Inv := by
  unfold poolRefuse
  repeat' (first | with_reducible assumption | with_reducible refine count_inv ?_ | with_reducible refine event_inv ?_ | with_reducible refine updPool_inv ?_ | with_reducible refine upd_inv (fun x hx => ?_) ?_ | with_reducible refine half_inv ?_ _ | dsimp only | split | (obtain ⟨⟨m1, m2⟩, ⟨q1, q2, q3, q4⟩, u1, u2, u3, u4, u5, u6, u7, u8, u9, u10⟩ := hx; refine ⟨⟨?_, ?_⟩, ⟨?_, ?_, ?_, ?_⟩, ?_, ?_, ?_, ?_, ?_, ?_, ?_, ?_, ?_, ?_⟩ <;> first | with_reducible assumption | (dsimp only; with_reducible assumption) | with_reducible exact ringPut_wf _ _ _ _ m1 | (simp only [List.length_modify, List.length_map, List.length_set]; with_reducible assumption)))

theorem poolAlloc_inv {h : HalfId} {stop : Nat} {pool0 : Bool} {size n : Nat} {s : State} (hs : s.Inv) :
    (poolAlloc h stop pool0 size n s).1.Inv := by
  unfold poolAlloc
  repeat' (first | with_reducible assumption | with_reducible refine count_inv ?_ | with_reducible refine poolTake_inv ?_ | with_reducible refine poolRefuse_inv ?_ | with_reducible refine upd_inv (fun x hx => ?_) ?_ | with_reducible refine half_inv ?_ _ | dsimp only | split | (obtain ⟨⟨m1, m2⟩, ⟨q1, q2, q3, q4⟩, u1, u2, u3, u4, u5, u6, u7, u8, u9, u10⟩ := hx; refine ⟨⟨?_, ?_⟩, ⟨?_, ?_, ?_, ?_⟩, ?_, ?_, ?_, ?_, ?_, ?_, ?_, ?_, ?_, ?_⟩ <;> first | with_reducible assumption | (dsimp only; with_reducible assumption) | with_reducible exact ringPut_wf _ _ _ _ m1 | (simp only [List.length_modify, List.length_map, List.length_set]; with_reducible assumption)))

theorem poolCorrupt_inv {h : HalfId} {p cause address stop : Nat} {s : State} (hs : s.Inv) :
    (poolCorrupt h p cause address stop s).Inv := by
  unfold poolCorrupt
  repeat' (first | with_reducible assumption | with_reducible refine count_inv ?_ | with_reducible refine latchHw_inv ?_ | with_reducible refine event_inv ?_ | with_reducible refine updPool_inv ?_ | with_reducible refine upd_inv (fun x hx => ?_) ?_ | with_reducible refine half_inv ?_ _ | dsimp only | split | (obtain ⟨⟨m1, m2⟩, ⟨q1, q2, q3, q4⟩, u1, u2, u3, u4, u5, u6, u7, u8, u9, u10⟩ := hx; refine ⟨⟨?_, ?_⟩, ⟨?_, ?_, ?_, ?_⟩, ?_, ?_, ?_, ?_, ?_, ?_, ?_, ?_, ?_, ?_⟩ <;> first | with_reducible assumption | (dsimp only; with_reducible assumption) | with_reducible exact ringPut_wf _ _ _ _ m1 | (simp only [List.length_modify, List.length_map, List.length_set]; with_reducible assumption)))

theorem poolAddDo_inv {h : HalfId} {stop a n : Nat} {s : State} (hs : s.Inv) :
    (poolAddDo h stop a n s).Inv := by
  unfold poolAddDo
  repeat' (first | with_reducible assumption | with_reducible refine updPool_inv ?_ | with_reducible refine poolCorrupt_inv ?_ | with_reducible refine upd_inv (fun x hx => ?_) ?_ | with_reducible refine half_inv ?_ _ | dsimp only | split | (obtain ⟨⟨m1, m2⟩, ⟨q1, q2, q3, q4⟩, u1, u2, u3, u4, u5, u6, u7, u8, u9, u10⟩ := hx; refine ⟨⟨?_, ?_⟩, ⟨?_, ?_, ?_, ?_⟩, ?_, ?_, ?_, ?_, ?_, ?_, ?_, ?_, ?_, ?_⟩ <;> first | with_reducible assumption | (dsimp only; with_reducible assumption) | with_reducible exact ringPut_wf _ _ _ _ m1 | (simp only [List.length_modify, List.length_map, List.length_set]; with_reducible assumption)))

theorem poolReturn_inv {h : HalfId} {p a : Nat} {s : State} (hs : s.Inv) : (poolReturn h p a s).Inv := by
  unfold poolReturn
  extract_lets x q idx release joins
  have hr : ∀ u, u.Inv → (release u).Inv := fun u hu => upd_inv (fun x hx => updPool_inv hx) hu
  split
  · exact hr _ (asrWrite_inv hs)
  split
  · refine hr _ (upd_inv (fun x hx => notices_inv ?_ hx) hs)
    simpa only [mapWhere, List.length_map] using hx.2.1.2.2.2
  split
  · next hn =>
    refine hr _ (upd_inv_at (notices_inv ?_ (half_inv hs h)) hs)
    simp only [List.length_append, List.length_cons, List.length_nil]
    exact hn
  split
  · exact hr _ (upd_inv (fun x hx => updPool_inv hx) hs)
  · exact upd_inv (fun x hx => updPool_inv hx) hs

theorem poolFree_inv {h : HalfId} {p i a : Nat} {s : State} (hs : s.Inv) :
    (poolFree h p i a s).Inv := by
  unfold poolFree
  repeat' (first | with_reducible assumption | with_reducible refine devWrite_inv ?_ | with_reducible refine updPool_inv ?_ | with_reducible refine poolWater_inv ?_ | with_reducible refine poolReturn_inv ?_ | with_reducible refine upd_inv (fun x hx => ?_) ?_ | with_reducible refine half_inv ?_ _ | dsimp only | split | (obtain ⟨⟨m1, m2⟩, ⟨q1, q2, q3, q4⟩, u1, u2, u3, u4, u5, u6, u7, u8, u9, u10⟩ := hx; refine ⟨⟨?_, ?_⟩, ⟨?_, ?_, ?_, ?_⟩, ?_, ?_, ?_, ?_, ?_, ?_, ?_, ?_, ?_, ?_⟩ <;> first | with_reducible assumption | (dsimp only; with_reducible assumption) | with_reducible exact ringPut_wf _ _ _ _ m1 | (simp only [List.length_modify, List.length_map, List.length_set]; with_reducible assumption)))

theorem poolReleaseDo_inv {h : HalfId} {stop a : Nat} {s : State} (hs : s.Inv) :
    (poolReleaseDo h stop a s).Inv := by
  unfold poolReleaseDo
  repeat' (first | with_reducible assumption | with_reducible refine count_inv ?_ | with_reducible refine updPool_inv ?_ | with_reducible refine poolCorrupt_inv ?_ | with_reducible refine poolFree_inv ?_ | with_reducible refine upd_inv (fun x hx => ?_) ?_ | with_reducible refine half_inv ?_ _ | dsimp only | split | (obtain ⟨⟨m1, m2⟩, ⟨q1, q2, q3, q4⟩, u1, u2, u3, u4, u5, u6, u7, u8, u9, u10⟩ := hx; refine ⟨⟨?_, ?_⟩, ⟨?_, ?_, ?_, ?_⟩, ?_, ?_, ?_, ?_, ?_, ?_, ?_, ?_, ?_, ?_⟩ <;> first | with_reducible assumption | (dsimp only; with_reducible assumption) | with_reducible exact ringPut_wf _ _ _ _ m1 | (simp only [List.length_modify, List.length_map, List.length_set]; with_reducible assumption)))

theorem runAssist_inv {h : HalfId} {kind function : Nat} {a : AssistEntry} {s : State} {body : List Byte → State → State}
    (hb : ∀ p u, u.Inv → (body p u).Inv) (hs : s.Inv) : (runAssist h kind function a s body).Inv := by
  unfold runAssist
  repeat' (first
    | with_reducible assumption
    | with_reducible refine takeAssist_inv ?_
    | with_reducible refine assistLate_inv ?_
    | with_reducible refine assistUnexpected_inv ?_
    | with_reducible refine hb _ _ ?_
    | dsimp only
    | dsimp only | split)

theorem poolSupplyOne_inv {h : HalfId} {p : Nat} {s : State} {a : Nat} (hs : s.Inv) :
    (poolSupplyOne h p s a).Inv := by
  unfold poolSupplyOne
  repeat' (first | with_reducible assumption | with_reducible refine updPool_inv ?_ | with_reducible refine poolCorrupt_inv ?_ | with_reducible refine upd_inv (fun x hx => ?_) ?_ | with_reducible refine half_inv ?_ _ | dsimp only | split | (obtain ⟨⟨m1, m2⟩, ⟨q1, q2, q3, q4⟩, u1, u2, u3, u4, u5, u6, u7, u8, u9, u10⟩ := hx; refine ⟨⟨?_, ?_⟩, ⟨?_, ?_, ?_, ?_⟩, ?_, ?_, ?_, ?_, ?_, ?_, ?_, ?_, ?_, ?_⟩ <;> first | with_reducible assumption | (dsimp only; with_reducible assumption) | with_reducible exact ringPut_wf _ _ _ _ m1 | (simp only [List.length_modify, List.length_map, List.length_set]; with_reducible assumption)))

/-! Counters.lean -/

theorem reelStop_inv {h : HalfId} {s : State} (hs : s.Inv) :
    (reelStop h s).Inv := by
  unfold reelStop
  repeat' (first | with_reducible assumption | with_reducible refine latchHw_inv ?_ | with_reducible refine upd_inv (fun x hx => ?_) ?_ | with_reducible refine half_inv ?_ _ | dsimp only | split | (obtain ⟨⟨m1, m2⟩, ⟨q1, q2, q3, q4⟩, u1, u2, u3, u4, u5, u6, u7, u8, u9, u10⟩ := hx; refine ⟨⟨?_, ?_⟩, ⟨?_, ?_, ?_, ?_⟩, ?_, ?_, ?_, ?_, ?_, ?_, ?_, ?_, ?_, ?_⟩ <;> first | with_reducible assumption | (dsimp only; with_reducible assumption) | with_reducible exact ringPut_wf _ _ _ _ m1 | (simp only [List.length_modify, List.length_map, List.length_set]; with_reducible assumption)))

theorem reelSnapshot_inv {h : HalfId} {r : Record} {a instant : Nat} {s : State} (hs : s.Inv) : (reelSnapshot h r a instant s).Inv := by
  unfold reelSnapshot
  extract_lets x reel period ring mask size missed skipped n flags record at_ status u notify
  have hu : u.Inv := by
    refine upd_inv (fun y hy => ?_) hs
    exact ctrPlus_inv (blocks_len hy) (devWrite_inv (devWrite_inv hy))
  split
  · exact icuRaise_inv hu
  · exact hu

/-! Boot.lean -/

theorem resetHalf_inv {kind : Nat} {x : Half} (hx : x.Inv) : (resetHalf kind x).Inv :=
  ⟨⟨rfl, rfl⟩, ⟨Nat.zero_le _, Nat.zero_le _, Nat.zero_le _, Nat.zero_le _⟩, rfl, rfl, rfl, rfl, rfl, rfl, rfl, by
    exact List.length_replicate, rfl, (List.length_map _).trans (islands_len hx)⟩

theorem enterReset_inv {h : HalfId} {kind : Nat} {s : State} (hs : s.Inv) : (enterReset h kind s).Inv := by
  have h1 : (s.upd h (resetHalf kind)).Inv := upd_inv (fun x hx => resetHalf_inv hx) hs
  unfold enterReset
  extract_lets u
  split
  · exact h1
  · exact h1

theorem resetSoon_inv {h : HalfId} {kind : Nat} {s : State} (hs : s.Inv) :
    (resetSoon h kind s).Inv := by
  unfold resetSoon
  repeat' (first | with_reducible assumption | with_reducible refine stopTether_inv ?_ | with_reducible refine upd_inv (fun x hx => ?_) ?_ | with_reducible refine half_inv ?_ _ | dsimp only | split | (obtain ⟨⟨m1, m2⟩, ⟨q1, q2, q3, q4⟩, u1, u2, u3, u4, u5, u6, u7, u8, u9, u10⟩ := hx; refine ⟨⟨?_, ?_⟩, ⟨?_, ?_, ?_, ?_⟩, ?_, ?_, ?_, ?_, ?_, ?_, ?_, ?_, ?_, ?_⟩ <;> first | with_reducible assumption | (dsimp only; with_reducible assumption) | with_reducible exact ringPut_wf _ _ _ _ m1 | (simp only [List.length_modify, List.length_map, List.length_set]; with_reducible assumption)))

theorem primerLatch_inv {h : HalfId} {s : State} (hs : s.Inv) :
    (primerLatch h s).Inv := by
  unfold primerLatch
  repeat' (first | with_reducible assumption | with_reducible refine icuRaise0_inv ?_ | with_reducible refine latchBit_inv ?_ | with_reducible refine alarmEvent_inv ?_ | with_reducible refine upd_inv (fun x hx => ?_) ?_ | with_reducible refine half_inv ?_ _ | dsimp only | split | (obtain ⟨⟨m1, m2⟩, ⟨q1, q2, q3, q4⟩, u1, u2, u3, u4, u5, u6, u7, u8, u9, u10⟩ := hx; refine ⟨⟨?_, ?_⟩, ⟨?_, ?_, ?_, ?_⟩, ?_, ?_, ?_, ?_, ?_, ?_, ?_, ?_, ?_, ?_⟩ <;> first | with_reducible assumption | (dsimp only; with_reducible assumption) | with_reducible exact ringPut_wf _ _ _ _ m1 | (simp only [List.length_modify, List.length_map, List.length_set]; with_reducible assumption)))

theorem primerHalt_inv {h : HalfId} {code : Nat} {s : State} (hs : s.Inv) :
    (primerHalt h code s).Inv := by
  unfold primerHalt
  repeat' (first | with_reducible assumption | with_reducible refine primerLatch_inv ?_ | with_reducible refine upd_inv (fun x hx => ?_) ?_ | with_reducible refine half_inv ?_ _ | dsimp only | split | (obtain ⟨⟨m1, m2⟩, ⟨q1, q2, q3, q4⟩, u1, u2, u3, u4, u5, u6, u7, u8, u9, u10⟩ := hx; refine ⟨⟨?_, ?_⟩, ⟨?_, ?_, ?_, ?_⟩, ?_, ?_, ?_, ?_, ?_, ?_, ?_, ?_, ?_, ?_⟩ <;> first | with_reducible assumption | (dsimp only; with_reducible assumption) | with_reducible exact ringPut_wf _ _ _ _ m1 | (simp only [List.length_modify, List.length_map, List.length_set]; with_reducible assumption)))

theorem startTraining_inv {h : HalfId} {f : BootFacts} {board : BoardDesc} {s : State} (hs : s.Inv) :
    (startTraining h f board s).Inv := by
  unfold startTraining
  repeat' (first | with_reducible assumption | with_reducible refine counterRetires_inv ?_ | with_reducible refine latchHw_inv ?_ | with_reducible refine event_inv ?_ | with_reducible refine upd_inv (fun x hx => ?_) ?_ | with_reducible refine foldl_inv (fun s a hs => ?_) ?_ | with_reducible refine foldlH_inv (fun x a hx => ?_) ?_ | with_reducible refine foldl_fst_inv (fun s a hs => ?_) ?_ | with_reducible refine half_inv ?_ _ | dsimp only | split | (obtain ⟨⟨m1, m2⟩, ⟨q1, q2, q3, q4⟩, u1, u2, u3, u4, u5, u6, u7, u8, u9, u10⟩ := hx; refine ⟨⟨?_, ?_⟩, ⟨?_, ?_, ?_, ?_⟩, ?_, ?_, ?_, ?_, ?_, ?_, ?_, ?_, ?_, ?_⟩ <;> first | with_reducible assumption | (dsimp only; with_reducible assumption) | with_reducible exact ringPut_wf _ _ _ _ m1 | (simp only [List.length_modify, List.length_map, List.length_set]; with_reducible assumption)))

theorem keelStart_inv {h : HalfId} {b trial other : Bool} {s : State} (hs : s.Inv) : (keelStart h b trial other s).Inv := by
  unfold keelStart
  refine upd_inv (fun x hx => ?_) hs
  obtain ⟨hm, hq, u1, u2, u3, u4, u5, u6, u7, -, u9⟩ := hx
  refine ⟨hm, hq, u1, u2, u3, u4, u5, u6, (List.length_modify _ _ _).trans u7, ?_, u9⟩
  simp only [List.length_map, List.length_range]

theorem joinLead_inv {h : HalfId} {s : State} (hs : s.Inv) :
    (joinLead h s).Inv := by
  unfold joinLead
  repeat' (first | with_reducible assumption | with_reducible refine event_inv ?_ | with_reducible refine icuRaise_inv ?_ | with_reducible refine upd_inv (fun x hx => ?_) ?_ | with_reducible refine half_inv ?_ _ | dsimp only | split | (obtain ⟨⟨m1, m2⟩, ⟨q1, q2, q3, q4⟩, u1, u2, u3, u4, u5, u6, u7, u8, u9, u10⟩ := hx; refine ⟨⟨?_, ?_⟩, ⟨?_, ?_, ?_, ?_⟩, ?_, ?_, ?_, ?_, ?_, ?_, ?_, ?_, ?_, ?_⟩ <;> first | with_reducible assumption | (dsimp only; with_reducible assumption) | with_reducible exact ringPut_wf _ _ _ _ m1 | (simp only [List.length_modify, List.length_map, List.length_set]; with_reducible assumption)))

theorem setSlot_inv {s : State} {b : Bool} {v : Slot} (hv : Memory.wf v.data = true) (hs : s.Inv) :
    ({ s with flash := setSlot s.flash b v } : State).Inv := by
  obtain ⟨h1, h2, h3, h4, h5⟩ := hs
  cases b
  · exact ⟨h1, h2, h3, hv, h5⟩
  · exact ⟨h1, h2, h3, h4, hv⟩

theorem slotOf_wf {s : State} (b : Bool) (hs : s.Inv) : Memory.wf (slotOf s.flash b).data = true := by
  cases b
  · exact hs.2.2.2.1
  · exact hs.2.2.2.2

theorem setTried_data (h : HalfId) (v : Slot) : (setTried h v).data = v.data := by cases h <;> rfl

theorem setConfirmed_data (h : HalfId) (v : Slot) : (setConfirmed h v).data = v.data := by cases h <;> rfl

theorem retireTrial_data (h : HalfId) (v : Slot) : (retireTrial h v).data = v.data := by
  unfold retireTrial
  split <;> rfl

theorem bootHalf_inv {h : HalfId} {f : BootFacts} {s : State} (hs : s.Inv) : (bootHalf h f s).Inv := by
  unfold bootHalf
  extract_lets +onlyGivenNames clk s1 s2 reverted revA revB fl s3 fz failA failB skip s4
  have h1 : s1.Inv := by
    dsimp only [s1]
    split
    · exact hs
    · exact hs
  have h2 : s2.Inv := upd_inv (fun x hx => hx) h1
  have h3 : s3.Inv := by
    refine ⟨h2.1, h2.2.1, h2.2.2.1, ?_, ?_⟩
    · exact (congrArg Memory.wf (retireTrial_data h _)).trans h2.2.2.2.1
    · exact (congrArg Memory.wf (retireTrial_data h _)).trans h2.2.2.2.2
  have hk : ∀ c u, u.Inv → (skip c u).Inv := by
    intro c u hu
    dsimp only [skip]
    split
    · exact hu
    · exact upd_inv (fun x hx => hx) (primerLatch_inv hu)
  have h4 : s4.Inv := hk _ _ (hk _ _ h3)
  split
  · exact primerHalt_inv h4
  · next b trial hb =>
    extract_lets +onlyGivenNames s5 own far ownFail ownOk
    have h5 : s5.Inv := by
      dsimp only [s5]
      split
      · exact setSlot_inv ((congrArg Memory.wf (setTried_data h _)).trans (slotOf_wf b h4)) h4
      · exact h4
    split
    · exact primerHalt_inv h5
    · extract_lets +onlyGivenNames board s6
      have h6 : s6.Inv := by
        dsimp only [s6]
        split
        · exact h5
        · exact upd_inv (fun x hx => hx) h5
      split
      · exact primerHalt_inv h6
      · extract_lets +onlyGivenNames s7
        have h7 : s7.Inv := startTraining_inv h6
        split
        · exact primerHalt_inv h7
        · extract_lets +onlyGivenNames s8 s9 reject revert s10 x s11 s12
          have h9 : s9.Inv := joinLead_inv (keelStart_inv h7)
          have hj : ∀ n c u, u.Inv → (reject n c u).Inv := by
            intro n c u hu
            dsimp only [reject]
            split
            · exact hu
            · exact event_inv hu
          have hv : ∀ n c u, u.Inv → (revert n c u).Inv := by
            intro n c u hu
            dsimp only [revert]
            split
            · exact event_inv hu
            · exact hu
          have h10 : s10.Inv := hj _ _ _ (hj _ _ _ (hv _ _ _ (hv _ _ _ h9)))
          have h11 : s11.Inv := by
            dsimp only [s11]
            split
            · exact event_inv h10
            · exact h10
          exact State.tick1_inv (event_inv (event_inv h11))

theorem confirmTrial_inv {h : HalfId} {how : Nat} {s : State} (hs : s.Inv) : (confirmTrial h how s).Inv :=
  event_inv (upd_inv (fun x hx => hx) (setSlot_inv ((congrArg Memory.wf (setConfirmed_data h _)).trans (slotOf_wf _ hs)) hs))

theorem burnUntil_inv {h w : HalfId} {step : Nat} {s : State} (hs : s.Inv) :
    (burnUntil h w step s).Inv := by
  unfold burnUntil
  repeat' (first | with_reducible assumption | with_reducible refine upd_inv (fun x hx => ?_) ?_ | with_reducible refine half_inv ?_ _ | dsimp only | split | (obtain ⟨⟨m1, m2⟩, ⟨q1, q2, q3, q4⟩, u1, u2, u3, u4, u5, u6, u7, u8, u9, u10⟩ := hx; refine ⟨⟨?_, ?_⟩, ⟨?_, ?_, ?_, ?_⟩, ?_, ?_, ?_, ?_, ?_, ?_, ?_, ?_, ?_, ?_⟩ <;> first | with_reducible assumption | (dsimp only; with_reducible assumption) | with_reducible exact ringPut_wf _ _ _ _ m1 | (simp only [List.length_modify, List.length_map, List.length_set]; with_reducible assumption)))

theorem burnLocks_inv {v : Nat} {x : Half} (hx : x.Inv) :
    (burnLocks v x).Inv := by
  unfold burnLocks
  repeat' (first | with_reducible assumption | with_reducible refine half_inv ?_ _ | dsimp only | split | (obtain ⟨⟨m1, m2⟩, ⟨q1, q2, q3, q4⟩, u1, u2, u3, u4, u5, u6, u7, u8, u9, u10⟩ := hx; refine ⟨⟨?_, ?_⟩, ⟨?_, ?_, ?_, ?_⟩, ?_, ?_, ?_, ?_, ?_, ?_, ?_, ?_, ?_, ?_⟩ <;> first | with_reducible assumption | (dsimp only; with_reducible assumption) | with_reducible exact ringPut_wf _ _ _ _ m1 | (simp only [List.length_modify, List.length_map, List.length_set]; with_reducible assumption)))

/-! Power.lean -/

theorem updIsland_inv {i : Nat} {f : IslandSt → IslandSt} {x : Half} (hx : x.Inv) :
    (updIsland i f x).Inv := by
  unfold updIsland
  repeat' (first | with_reducible assumption | with_reducible refine half_inv ?_ _ | dsimp only | split | (obtain ⟨⟨m1, m2⟩, ⟨q1, q2, q3, q4⟩, u1, u2, u3, u4, u5, u6, u7, u8, u9, u10⟩ := hx; refine ⟨⟨?_, ?_⟩, ⟨?_, ?_, ?_, ?_⟩, ?_, ?_, ?_, ?_, ?_, ?_, ?_, ?_, ?_, ?_⟩ <;> first | with_reducible assumption | (dsimp only; with_reducible assumption) | with_reducible exact ringPut_wf _ _ _ _ m1 | (simp only [List.length_modify, List.length_map, List.length_set]; with_reducible assumption)))

theorem thermalTrip_inv {h : HalfId} {island : Nat} {celsius : Int} {s : State} (hs : s.Inv) :
    (thermalTrip h island celsius s).Inv := by
  unfold thermalTrip
  repeat' (first | with_reducible assumption | with_reducible refine latchHw_inv ?_ | with_reducible refine upd_inv (fun x hx => ?_) ?_ | with_reducible refine half_inv ?_ _ | dsimp only | split | (obtain ⟨⟨m1, m2⟩, ⟨q1, q2, q3, q4⟩, u1, u2, u3, u4, u5, u6, u7, u8, u9, u10⟩ := hx; refine ⟨⟨?_, ?_⟩, ⟨?_, ?_, ?_, ?_⟩, ?_, ?_, ?_, ?_, ?_, ?_, ?_, ?_, ?_, ?_⟩ <;> first | with_reducible assumption | (dsimp only; with_reducible assumption) | with_reducible exact ringPut_wf _ _ _ _ m1 | (simp only [List.length_modify, List.length_map, List.length_set]; with_reducible assumption)))

theorem coolMark_inv {x : Half} (hx : x.Inv) :
    (coolMark x).Inv := by
  unfold coolMark
  repeat' (first | with_reducible assumption | with_reducible refine half_inv ?_ _ | dsimp only | split | (obtain ⟨⟨m1, m2⟩, ⟨q1, q2, q3, q4⟩, u1, u2, u3, u4, u5, u6, u7, u8, u9, u10⟩ := hx; refine ⟨⟨?_, ?_⟩, ⟨?_, ?_, ?_, ?_⟩, ?_, ?_, ?_, ?_, ?_, ?_, ?_, ?_, ?_, ?_⟩ <;> first | with_reducible assumption | (dsimp only; with_reducible assumption) | with_reducible exact ringPut_wf _ _ _ _ m1 | (simp only [List.length_modify, List.length_map, List.length_set]; with_reducible assumption)))

/-! Fabric.lean -/

theorem scrimIssue_inv {channel : Nat} {qs : List DramReq} {x : Half} (hx : x.Inv) :
    (scrimIssue channel qs x).Inv := by
  unfold scrimIssue
  repeat' (first | with_reducible assumption | with_reducible refine half_inv ?_ _ | dsimp only | split | (obtain ⟨⟨m1, m2⟩, ⟨q1, q2, q3, q4⟩, u1, u2, u3, u4, u5, u6, u7, u8, u9, u10⟩ := hx; refine ⟨⟨?_, ?_⟩, ⟨?_, ?_, ?_, ?_⟩, ?_, ?_, ?_, ?_, ?_, ?_, ?_, ?_, ?_, ?_⟩ <;> first | with_reducible assumption | (dsimp only; with_reducible assumption) | with_reducible exact ringPut_wf _ _ _ _ m1 | (simp only [List.length_modify, List.length_map, List.length_set]; with_reducible assumption)))

theorem scrimLeaves_inv {t : ScrimTxn} {code : Nat} {x : Half} (hx : x.Inv) :
    (scrimLeaves t code x).Inv := by
  unfold scrimLeaves
  repeat' (first | with_reducible assumption | with_reducible refine count_inv ?_ | with_reducible refine half_inv ?_ _ | dsimp only | split | (obtain ⟨⟨m1, m2⟩, ⟨q1, q2, q3, q4⟩, u1, u2, u3, u4, u5, u6, u7, u8, u9, u10⟩ := hx; refine ⟨⟨?_, ?_⟩, ⟨?_, ?_, ?_, ?_⟩, ?_, ?_, ?_, ?_, ?_, ?_, ?_, ?_, ?_, ?_⟩ <;> first | with_reducible assumption | (dsimp only; with_reducible assumption) | with_reducible exact ringPut_wf _ _ _ _ m1 | (simp only [List.length_modify, List.length_map, List.length_set]; with_reducible assumption)))

theorem updCrossing_inv {p c : Nat} {g : FifoSt → FifoSt} {x : Half} (hx : x.Inv) :
    (updCrossing p c g x).Inv := by
  unfold updCrossing
  repeat' (first | with_reducible assumption | with_reducible refine half_inv ?_ _ | dsimp only | split | (obtain ⟨⟨m1, m2⟩, ⟨q1, q2, q3, q4⟩, u1, u2, u3, u4, u5, u6, u7, u8, u9, u10⟩ := hx; refine ⟨⟨?_, ?_⟩, ⟨?_, ?_, ?_, ?_⟩, ?_, ?_, ?_, ?_, ?_, ?_, ?_, ?_, ?_, ?_⟩ <;> first | with_reducible assumption | (dsimp only; with_reducible assumption) | with_reducible exact ringPut_wf _ _ _ _ m1 | (simp only [List.length_modify, List.length_map, List.length_set]; with_reducible assumption)))

theorem crossingDo_inv {h : HalfId} {p c : Nat} {op : FifoOp} {s : State} (hs : s.Inv) :
    (crossingDo h p c op s).Inv := by
  unfold crossingDo
  repeat' (first | with_reducible assumption | with_reducible refine State.tick1_inv ?_ | with_reducible refine count_inv ?_ | with_reducible refine updCrossing_inv ?_ | with_reducible refine upd_inv (fun x hx => ?_) ?_ | with_reducible refine half_inv ?_ _ | dsimp only | split | (obtain ⟨⟨m1, m2⟩, ⟨q1, q2, q3, q4⟩, u1, u2, u3, u4, u5, u6, u7, u8, u9, u10⟩ := hx; refine ⟨⟨?_, ?_⟩, ⟨?_, ?_, ?_, ?_⟩, ?_, ?_, ?_, ?_, ?_, ?_, ?_, ?_, ?_, ?_⟩ <;> first | with_reducible assumption | (dsimp only; with_reducible assumption) | with_reducible exact ringPut_wf _ _ _ _ m1 | (simp only [List.length_modify, List.length_map, List.length_set]; with_reducible assumption)))

theorem crossingMeets_inv {h : HalfId} {p c : Nat} {op : FifoOp} {s : State} (hs : s.Inv) :
    (crossingMeets h p c op s).1.Inv := by
  unfold crossingMeets
  repeat' (first | with_reducible assumption | with_reducible refine updCrossing_inv ?_ | with_reducible refine crossingDo_inv ?_ | with_reducible refine upd_inv (fun x hx => ?_) ?_ | with_reducible refine half_inv ?_ _ | dsimp only | split | (obtain ⟨⟨m1, m2⟩, ⟨q1, q2, q3, q4⟩, u1, u2, u3, u4, u5, u6, u7, u8, u9, u10⟩ := hx; refine ⟨⟨?_, ?_⟩, ⟨?_, ?_, ?_, ?_⟩, ?_, ?_, ?_, ?_, ?_, ?_, ?_, ?_, ?_, ?_⟩ <;> first | with_reducible assumption | (dsimp only; with_reducible assumption) | with_reducible exact ringPut_wf _ _ _ _ m1 | (simp only [List.length_modify, List.length_map, List.length_set]; with_reducible assumption)))

theorem producerStops_inv {p : Nat} {x : Half} (hx : x.Inv) :
    (producerStops p x).Inv := by
  unfold producerStops
  repeat' (first | with_reducible assumption | with_reducible refine half_inv ?_ _ | dsimp only | split | (obtain ⟨⟨m1, m2⟩, ⟨q1, q2, q3, q4⟩, u1, u2, u3, u4, u5, u6, u7, u8, u9, u10⟩ := hx; refine ⟨⟨?_, ?_⟩, ⟨?_, ?_, ?_, ?_⟩, ?_, ?_, ?_, ?_, ?_, ?_, ?_, ?_, ?_, ?_⟩ <;> first | with_reducible assumption | (dsimp only; with_reducible assumption) | with_reducible exact ringPut_wf _ _ _ _ m1 | (simp only [List.length_modify, List.length_map, List.length_set]; with_reducible assumption)))

theorem producerRestarts_inv {p : Nat} {x : Half} (hx : x.Inv) :
    (producerRestarts p x).Inv := by
  unfold producerRestarts
  repeat' (first | with_reducible assumption | with_reducible refine half_inv ?_ _ | dsimp only | split | (obtain ⟨⟨m1, m2⟩, ⟨q1, q2, q3, q4⟩, u1, u2, u3, u4, u5, u6, u7, u8, u9, u10⟩ := hx; refine ⟨⟨?_, ?_⟩, ⟨?_, ?_, ?_, ?_⟩, ?_, ?_, ?_, ?_, ?_, ?_, ?_, ?_, ?_, ?_⟩ <;> first | with_reducible assumption | (dsimp only; with_reducible assumption) | with_reducible exact ringPut_wf _ _ _ _ m1 | (simp only [List.length_modify, List.length_map, List.length_set]; with_reducible assumption)))

theorem packetBegins_inv {p c : Nat} {x : Half} (hx : x.Inv) :
    (packetBegins p c x).Inv := by
  unfold packetBegins
  repeat' (first | with_reducible assumption | with_reducible refine updCrossing_inv ?_ | with_reducible refine half_inv ?_ _ | dsimp only | split | (obtain ⟨⟨m1, m2⟩, ⟨q1, q2, q3, q4⟩, u1, u2, u3, u4, u5, u6, u7, u8, u9, u10⟩ := hx; refine ⟨⟨?_, ?_⟩, ⟨?_, ?_, ?_, ?_⟩, ?_, ?_, ?_, ?_, ?_, ?_, ?_, ?_, ?_, ?_⟩ <;> first | with_reducible assumption | (dsimp only; with_reducible assumption) | with_reducible exact ringPut_wf _ _ _ _ m1 | (simp only [List.length_modify, List.length_map, List.length_set]; with_reducible assumption)))

theorem packetCrosses_inv {p c : Nat} {items : List Nat} {x : Half} (hx : x.Inv) :
    (packetCrosses p c items x).Inv := by
  unfold packetCrosses
  repeat' (first | with_reducible assumption | with_reducible refine count_inv ?_ | with_reducible refine updCrossing_inv ?_ | with_reducible refine packetBegins_inv ?_ | with_reducible refine foldl_inv (fun s a hs => ?_) ?_ | with_reducible refine foldlH_inv (fun x a hx => ?_) ?_ | with_reducible refine foldl_fst_inv (fun s a hs => ?_) ?_ | with_reducible refine half_inv ?_ _ | dsimp only | split | (obtain ⟨⟨m1, m2⟩, ⟨q1, q2, q3, q4⟩, u1, u2, u3, u4, u5, u6, u7, u8, u9, u10⟩ := hx; refine ⟨⟨?_, ?_⟩, ⟨?_, ?_, ?_, ?_⟩, ?_, ?_, ?_, ?_, ?_, ?_, ?_, ?_, ?_, ?_⟩ <;> first | with_reducible assumption | (dsimp only; with_reducible assumption) | with_reducible exact ringPut_wf _ _ _ _ m1 | (simp only [List.length_modify, List.length_map, List.length_set]; with_reducible assumption)))

end Sys2Proof.Machine
end

