-- ==== Sys2Proof/Laws/KeepsMedia.lean ====
section
/-!
SUPPORT. KeepsMedia.lean: every operation of decoding, composition and encoding keeps the invariant of Safety.lean; one lemma per function.
-/
namespace Sys2Proof.Machine

set_option linter.all false
set_option linter.unusedTactic false
set_option linter.unreachableTactic false

/-! Decoding.lean -/

theorem unitArrived_inv {h : HalfId} {i ts last : Nat} {s : State} (hs : s.Inv) :
    (unitArrived h i ts last s).Inv := by
  unfold unitArrived
  repeat' (first | with_reducible assumption | with_reducible refine event_inv ?_ | with_reducible refine updInput_inv ?_ | with_reducible refine upd_inv (fun x hx => ?_) ?_ | with_reducible refine half_inv ?_ _ | dsimp only | split | (obtain ⟨⟨m1, m2⟩, ⟨q1, q2, q3, q4⟩, u1, u2, u3, u4, u5, u6, u7, u8, u9, u10⟩ := hx; refine ⟨⟨?_, ?_⟩, ⟨?_, ?_, ?_, ?_⟩, ?_, ?_, ?_, ?_, ?_, ?_, ?_, ?_, ?_, ?_⟩ <;> first | with_reducible assumption | (dsimp only; with_reducible assumption) | with_reducible exact ringPut_wf _ _ _ _ m1 | (simp only [List.length_modify, List.length_map, List.length_set]; with_reducible assumption)))

theorem noteUnit_inv {h : HalfId} {i ts : Nat} {marker : Bool} {s : State} (hs : s.Inv) :
    (noteUnit h i ts marker s).Inv := by
  unfold noteUnit
  repeat' (first | with_reducible assumption | with_reducible refine updInput_inv ?_ | with_reducible refine unitArrived_inv ?_ | with_reducible refine upd_inv (fun x hx => ?_) ?_ | with_reducible refine half_inv ?_ _ | dsimp only | split | (obtain ⟨⟨m1, m2⟩, ⟨q1, q2, q3, q4⟩, u1, u2, u3, u4, u5, u6, u7, u8, u9, u10⟩ := hx; refine ⟨⟨?_, ?_⟩, ⟨?_, ?_, ?_, ?_⟩, ?_, ?_, ?_, ?_, ?_, ?_, ?_, ?_, ?_, ?_⟩ <;> first | with_reducible assumption | (dsimp only; with_reducible assumption) | with_reducible exact ringPut_wf _ _ _ _ m1 | (simp only [List.length_modify, List.length_map, List.length_set]; with_reducible assumption)))

theorem jitterOverflow_inv {h : HalfId} {i : Nat} {n : InputSt} {s : State} (hs : s.Inv) :
    (jitterOverflow h i n s).Inv := by
  unfold jitterOverflow
  repeat' (first | with_reducible assumption | with_reducible refine count_inv ?_ | with_reducible refine event_inv ?_ | with_reducible refine updInput_inv ?_ | with_reducible refine upd_inv (fun x hx => ?_) ?_ | with_reducible refine half_inv ?_ _ | dsimp only | split | (obtain ⟨⟨m1, m2⟩, ⟨q1, q2, q3, q4⟩, u1, u2, u3, u4, u5, u6, u7, u8, u9, u10⟩ := hx; refine ⟨⟨?_, ?_⟩, ⟨?_, ?_, ?_, ?_⟩, ?_, ?_, ?_, ?_, ?_, ?_, ?_, ?_, ?_, ?_⟩ <;> first | with_reducible assumption | (dsimp only; with_reducible assumption) | with_reducible exact ringPut_wf _ _ _ _ m1 | (simp only [List.length_modify, List.length_map, List.length_set]; with_reducible assumption)))

theorem damageAdd_inv {h : HalfId} {c k n : Nat} {x : Half} (hx : x.Inv) :
    (damageAdd h c k n x).Inv := by
  unfold damageAdd
  repeat' (first | with_reducible assumption | with_reducible refine updDecode_inv ?_ | with_reducible refine half_inv ?_ _ | dsimp only | split | (obtain ⟨⟨m1, m2⟩, ⟨q1, q2, q3, q4⟩, u1, u2, u3, u4, u5, u6, u7, u8, u9, u10⟩ := hx; refine ⟨⟨?_, ?_⟩, ⟨?_, ?_, ?_, ?_⟩, ?_, ?_, ?_, ?_, ?_, ?_, ?_, ?_, ?_, ?_⟩ <;> first | with_reducible assumption | (dsimp only; with_reducible assumption) | with_reducible exact ringPut_wf _ _ _ _ m1 | (simp only [List.length_modify, List.length_map, List.length_set]; with_reducible assumption)))

theorem decPreempt_inv {h : HalfId} {c : Nat} {x : Half} (hx : x.Inv) :
    (decPreempt h c x).Inv := by
  unfold decPreempt
  repeat' (first | with_reducible assumption | with_reducible refine foldl_inv (fun s a hs => ?_) ?_ | with_reducible refine foldlH_inv (fun x a hx => ?_) ?_ | with_reducible refine foldl_fst_inv (fun s a hs => ?_) ?_ | with_reducible refine half_inv ?_ _ | dsimp only | split | (obtain ⟨⟨m1, m2⟩, ⟨q1, q2, q3, q4⟩, u1, u2, u3, u4, u5, u6, u7, u8, u9, u10⟩ := hx; refine ⟨⟨?_, ?_⟩, ⟨?_, ?_, ?_, ?_⟩, ?_, ?_, ?_, ?_, ?_, ?_, ?_, ?_, ?_, ?_⟩ <;> first | with_reducible assumption | (dsimp only; with_reducible assumption) | with_reducible exact ringPut_wf _ _ _ _ m1 | (simp only [List.length_modify, List.length_map, List.length_set]; with_reducible assumption)))

theorem pushUnit_inv {h : HalfId} {c : Nat} {a : AccessUnit} {s : State} (hs : s.Inv) :
    (pushUnit h c a s).Inv := by
  unfold pushUnit
  repeat' (first | with_reducible assumption | with_reducible refine updDecode_inv ?_ | with_reducible refine damageAdd_inv ?_ | with_reducible refine decPreempt_inv ?_ | with_reducible refine upd_inv (fun x hx => ?_) ?_ | with_reducible refine half_inv ?_ _ | dsimp only | split | (obtain ⟨⟨m1, m2⟩, ⟨q1, q2, q3, q4⟩, u1, u2, u3, u4, u5, u6, u7, u8, u9, u10⟩ := hx; refine ⟨⟨?_, ?_⟩, ⟨?_, ?_, ?_, ?_⟩, ?_, ?_, ?_, ?_, ?_, ?_, ?_, ?_, ?_, ?_⟩ <;> first | with_reducible assumption | (dsimp only; with_reducible assumption) | with_reducible exact ringPut_wf _ _ _ _ m1 | (simp only [List.length_modify, List.length_map, List.length_set]; with_reducible assumption)))

theorem copyUnit_inv {h : HalfId} {stream : Handle} {r : Record} {a : AccessUnit} {s : State} (hs : s.Inv) :
    (copyUnit h stream r a s).Inv := by
  unfold copyUnit
  repeat' (first | with_reducible assumption | with_reducible refine emit_inv ?_ | with_reducible refine updDecode_inv ?_ | with_reducible refine upd_inv (fun x hx => ?_) ?_ | with_reducible refine half_inv ?_ _ | dsimp only | split | (obtain ⟨⟨m1, m2⟩, ⟨q1, q2, q3, q4⟩, u1, u2, u3, u4, u5, u6, u7, u8, u9, u10⟩ := hx; refine ⟨⟨?_, ?_⟩, ⟨?_, ?_, ?_, ?_⟩, ?_, ?_, ?_, ?_, ?_, ?_, ?_, ?_, ?_, ?_⟩ <;> first | with_reducible assumption | (dsimp only; with_reducible assumption) | with_reducible exact ringPut_wf _ _ _ _ m1 | (simp only [List.length_modify, List.length_map, List.length_set]; with_reducible assumption)))

theorem streamEnd_inv {h : HalfId} {c : Nat} {s : State} (hs : s.Inv) :
    (streamEnd h c s).Inv := by
  unfold streamEnd
  repeat' (first | with_reducible assumption | with_reducible refine event_inv ?_ | with_reducible refine half_inv ?_ _ | dsimp only | split | (obtain ⟨⟨m1, m2⟩, ⟨q1, q2, q3, q4⟩, u1, u2, u3, u4, u5, u6, u7, u8, u9, u10⟩ := hx; refine ⟨⟨?_, ?_⟩, ⟨?_, ?_, ?_, ?_⟩, ?_, ?_, ?_, ?_, ?_, ?_, ?_, ?_, ?_, ?_⟩ <;> first | with_reducible assumption | (dsimp only; with_reducible assumption) | with_reducible exact ringPut_wf _ _ _ _ m1 | (simp only [List.length_modify, List.length_map, List.length_set]; with_reducible assumption)))

theorem endFeed_inv {h : HalfId} {i : Nat} {s : State} (hs : s.Inv) :
    (endFeed h i s).Inv := by
  unfold endFeed
  repeat' (first | with_reducible assumption | with_reducible refine updDecode_inv ?_ | with_reducible refine streamEnd_inv ?_ | with_reducible refine upd_inv (fun x hx => ?_) ?_ | with_reducible refine half_inv ?_ _ | dsimp only | split | (obtain ⟨⟨m1, m2⟩, ⟨q1, q2, q3, q4⟩, u1, u2, u3, u4, u5, u6, u7, u8, u9, u10⟩ := hx; refine ⟨⟨?_, ?_⟩, ⟨?_, ?_, ?_, ?_⟩, ?_, ?_, ?_, ?_, ?_, ?_, ?_, ?_, ?_, ?_⟩ <;> first | with_reducible assumption | (dsimp only; with_reducible assumption) | with_reducible exact ringPut_wf _ _ _ _ m1 | (simp only [List.length_modify, List.length_map, List.length_set]; with_reducible assumption)))

theorem feedStatus_inv {h : HalfId} {c : Nat} {a : AccessUnit} {s : State} (hs : s.Inv) :
    (feedStatus h c a s).Inv := by
  unfold feedStatus
  repeat' (first | with_reducible assumption | with_reducible refine updDecode_inv ?_ | with_reducible refine devWrite_inv ?_ | with_reducible refine upd_inv (fun x hx => ?_) ?_ | with_reducible refine half_inv ?_ _ | dsimp only | split | (obtain ⟨⟨m1, m2⟩, ⟨q1, q2, q3, q4⟩, u1, u2, u3, u4, u5, u6, u7, u8, u9, u10⟩ := hx; refine ⟨⟨?_, ?_⟩, ⟨?_, ?_, ?_, ?_⟩, ?_, ?_, ?_, ?_, ?_, ?_, ?_, ?_, ?_, ?_⟩ <;> first | with_reducible assumption | (dsimp only; with_reducible assumption) | with_reducible exact ringPut_wf _ _ _ _ m1 | (simp only [List.length_modify, List.length_map, List.length_set]; with_reducible assumption)))

/-! Pictures.lean -/

theorem writeDescriptor_inv {h : HalfId} {c : Nat} {p : DecodedPic} {x : Half} (hx : x.Inv) :
    (writeDescriptor h c p x).Inv := by
  unfold writeDescriptor
  repeat' (first | with_reducible assumption | with_reducible refine devWrite_inv ?_ | with_reducible refine half_inv ?_ _ | dsimp only | split | (obtain ⟨⟨m1, m2⟩, ⟨q1, q2, q3, q4⟩, u1, u2, u3, u4, u5, u6, u7, u8, u9, u10⟩ := hx; refine ⟨⟨?_, ?_⟩, ⟨?_, ?_, ?_, ?_⟩, ?_, ?_, ?_, ?_, ?_, ?_, ?_, ?_, ?_, ?_⟩ <;> first | with_reducible assumption | (dsimp only; with_reducible assumption) | with_reducible exact ringPut_wf _ _ _ _ m1 | (simp only [List.length_modify, List.length_map, List.length_set]; with_reducible assumption)))

theorem storePicture_inv {h : HalfId} {c : Nat} {linear : Bool} {free : Nat} {p : DecodedPic} {x : Half} (hx : x.Inv) :
    (storePicture h c linear free p x).Inv := by
  unfold storePicture
  repeat' (first | with_reducible assumption | with_reducible refine picStore_inv ?_ | with_reducible refine writeDescriptor_inv ?_ | with_reducible refine half_inv ?_ _ | dsimp only | split | (obtain ⟨⟨m1, m2⟩, ⟨q1, q2, q3, q4⟩, u1, u2, u3, u4, u5, u6, u7, u8, u9, u10⟩ := hx; refine ⟨⟨?_, ?_⟩, ⟨?_, ?_, ?_, ?_⟩, ?_, ?_, ?_, ?_, ?_, ?_, ?_, ?_, ?_, ?_⟩ <;> first | with_reducible assumption | (dsimp only; with_reducible assumption) | with_reducible exact ringPut_wf _ _ _ _ m1 | (simp only [List.length_modify, List.length_map, List.length_set]; with_reducible assumption)))

theorem requestSend_inv {h : HalfId} {i : Nat} {fir : Bool} {rep : Nat} {s : State} (hs : s.Inv) :
    (requestSend h i fir rep s).Inv := by
  unfold requestSend
  repeat' (first | with_reducible assumption | with_reducible refine emit_inv ?_ | with_reducible refine event_inv ?_ | with_reducible refine updInput_inv ?_ | with_reducible refine damageAdd_inv ?_ | with_reducible refine upd_inv (fun x hx => ?_) ?_ | with_reducible refine half_inv ?_ _ | dsimp only | split | (obtain ⟨⟨m1, m2⟩, ⟨q1, q2, q3, q4⟩, u1, u2, u3, u4, u5, u6, u7, u8, u9, u10⟩ := hx; refine ⟨⟨?_, ?_⟩, ⟨?_, ?_, ?_, ?_⟩, ?_, ?_, ?_, ?_, ?_, ?_, ?_, ?_, ?_, ?_⟩ <;> first | with_reducible assumption | (dsimp only; with_reducible assumption) | with_reducible exact ringPut_wf _ _ _ _ m1 | (simp only [List.length_modify, List.length_map, List.length_set]; with_reducible assumption)))

theorem refreshTrigger_inv {h : HalfId} {i : Nat} {s : State} (hs : s.Inv) :
    (refreshTrigger h i s).Inv := by
  unfold refreshTrigger
  repeat' (first | with_reducible assumption | with_reducible refine updInput_inv ?_ | with_reducible refine requestSend_inv ?_ | with_reducible refine upd_inv (fun x hx => ?_) ?_ | with_reducible refine half_inv ?_ _ | dsimp only | split | (obtain ⟨⟨m1, m2⟩, ⟨q1, q2, q3, q4⟩, u1, u2, u3, u4, u5, u6, u7, u8, u9, u10⟩ := hx; refine ⟨⟨?_, ?_⟩, ⟨?_, ?_, ?_, ?_⟩, ?_, ?_, ?_, ?_, ?_, ?_, ?_, ?_, ?_, ?_⟩ <;> first | with_reducible assumption | (dsimp only; with_reducible assumption) | with_reducible exact ringPut_wf _ _ _ _ m1 | (simp only [List.length_modify, List.length_map, List.length_set]; with_reducible assumption)))

theorem requestOnce_inv {h : HalfId} {i : Nat} {fir : Bool} {s : State} (hs : s.Inv) :
    (requestOnce h i fir s).Inv := by
  unfold requestOnce
  repeat' (first | with_reducible assumption | with_reducible refine updInput_inv ?_ | with_reducible refine requestSend_inv ?_ | with_reducible refine upd_inv (fun x hx => ?_) ?_ | with_reducible refine half_inv ?_ _ | dsimp only | split | (obtain ⟨⟨m1, m2⟩, ⟨q1, q2, q3, q4⟩, u1, u2, u3, u4, u5, u6, u7, u8, u9, u10⟩ := hx; refine ⟨⟨?_, ?_⟩, ⟨?_, ?_, ?_, ?_⟩, ?_, ?_, ?_, ?_, ?_, ?_, ?_, ?_, ?_, ?_⟩ <;> first | with_reducible assumption | (dsimp only; with_reducible assumption) | with_reducible exact ringPut_wf _ _ _ _ m1 | (simp only [List.length_modify, List.length_map, List.length_set]; with_reducible assumption)))

theorem refreshStop_inv {h : HalfId} {input : Handle} {x : Half} (hx : x.Inv) :
    (refreshStop h input x).Inv := by
  unfold refreshStop
  repeat' (first | with_reducible assumption | with_reducible refine updInput_inv ?_ | with_reducible refine half_inv ?_ _ | dsimp only | split | (obtain ⟨⟨m1, m2⟩, ⟨q1, q2, q3, q4⟩, u1, u2, u3, u4, u5, u6, u7, u8, u9, u10⟩ := hx; refine ⟨⟨?_, ?_⟩, ⟨?_, ?_, ?_, ?_⟩, ?_, ?_, ?_, ?_, ?_, ?_, ?_, ?_, ?_, ?_⟩ <;> first | with_reducible assumption | (dsimp only; with_reducible assumption) | with_reducible exact ringPut_wf _ _ _ _ m1 | (simp only [List.length_modify, List.length_map, List.length_set]; with_reducible assumption)))

theorem trimAvailable_inv {h : HalfId} {c : Nat} {x : Half} (hx : x.Inv) :
    (trimAvailable h c x).Inv := by
  unfold trimAvailable
  repeat' (first | with_reducible assumption | with_reducible refine updDecode_inv ?_ | with_reducible refine half_inv ?_ _ | dsimp only | split | (obtain ⟨⟨m1, m2⟩, ⟨q1, q2, q3, q4⟩, u1, u2, u3, u4, u5, u6, u7, u8, u9, u10⟩ := hx; refine ⟨⟨?_, ?_⟩, ⟨?_, ?_, ?_, ?_⟩, ?_, ?_, ?_, ?_, ?_, ?_, ?_, ?_, ?_, ?_⟩ <;> first | with_reducible assumption | (dsimp only; with_reducible assumption) | with_reducible exact ringPut_wf _ _ _ _ m1 | (simp only [List.length_modify, List.length_map, List.length_set]; with_reducible assumption)))

theorem dropWaiting_inv {c seq : Nat} {x : Half} (hx : x.Inv) :
    (dropWaiting c seq x).Inv := by
  unfold dropWaiting
  repeat' (first | with_reducible assumption | with_reducible refine updDecode_inv ?_ | with_reducible refine half_inv ?_ _ | dsimp only | split | (obtain ⟨⟨m1, m2⟩, ⟨q1, q2, q3, q4⟩, u1, u2, u3, u4, u5, u6, u7, u8, u9, u10⟩ := hx; refine ⟨⟨?_, ?_⟩, ⟨?_, ?_, ?_, ?_⟩, ?_, ?_, ?_, ?_, ?_, ?_, ?_, ?_, ?_, ?_⟩ <;> first | with_reducible assumption | (dsimp only; with_reducible assumption) | with_reducible exact ringPut_wf _ _ _ _ m1 | (simp only [List.length_modify, List.length_map, List.length_set]; with_reducible assumption)))

theorem makeAvailable_inv {h : HalfId} {c : Nat} {p : DecodedPic} {x : Half} (hx : x.Inv) :
    (makeAvailable h c p x).Inv := by
  unfold makeAvailable
  repeat' (first | with_reducible assumption | with_reducible refine updDecode_inv ?_ | with_reducible refine writeDescriptor_inv ?_ | with_reducible refine trimAvailable_inv ?_ | with_reducible refine dropWaiting_inv ?_ | with_reducible refine half_inv ?_ _ | dsimp only | split | (obtain ⟨⟨m1, m2⟩, ⟨q1, q2, q3, q4⟩, u1, u2, u3, u4, u5, u6, u7, u8, u9, u10⟩ := hx; refine ⟨⟨?_, ?_⟩, ⟨?_, ?_, ?_, ?_⟩, ?_, ?_, ?_, ?_, ?_, ?_, ?_, ?_, ?_, ?_⟩ <;> first | with_reducible assumption | (dsimp only; with_reducible assumption) | with_reducible exact ringPut_wf _ _ _ _ m1 | (simp only [List.length_modify, List.length_map, List.length_set]; with_reducible assumption)))

theorem holdPicture_inv {h : HalfId} {c : Nat} {p : DecodedPic} {x : Half} (hx : x.Inv) :
    (holdPicture h c p x).Inv := by
  unfold holdPicture
  repeat' (first | with_reducible assumption | with_reducible refine updDecode_inv ?_ | with_reducible refine damageAdd_inv ?_ | with_reducible refine dropWaiting_inv ?_ | with_reducible refine half_inv ?_ _ | dsimp only | split | (obtain ⟨⟨m1, m2⟩, ⟨q1, q2, q3, q4⟩, u1, u2, u3, u4, u5, u6, u7, u8, u9, u10⟩ := hx; refine ⟨⟨?_, ?_⟩, ⟨?_, ?_, ?_, ?_⟩, ?_, ?_, ?_, ?_, ?_, ?_, ?_, ?_, ?_, ?_⟩ <;> first | with_reducible assumption | (dsimp only; with_reducible assumption) | with_reducible exact ringPut_wf _ _ _ _ m1 | (simp only [List.length_modify, List.length_map, List.length_set]; with_reducible assumption)))

theorem keepPassed_inv {h : HalfId} {c : Nat} {p : DecodedPic} {x : Half} (hx : x.Inv) :
    (keepPassed h c p x).Inv := by
  unfold keepPassed
  repeat' (first | with_reducible assumption | with_reducible refine updDecode_inv ?_ | with_reducible refine trimAvailable_inv ?_ | with_reducible refine dropWaiting_inv ?_ | with_reducible refine half_inv ?_ _ | dsimp only | split | (obtain ⟨⟨m1, m2⟩, ⟨q1, q2, q3, q4⟩, u1, u2, u3, u4, u5, u6, u7, u8, u9, u10⟩ := hx; refine ⟨⟨?_, ?_⟩, ⟨?_, ?_, ?_, ?_⟩, ?_, ?_, ?_, ?_, ?_, ?_, ?_, ?_, ?_, ?_⟩ <;> first | with_reducible assumption | (dsimp only; with_reducible assumption) | with_reducible exact ringPut_wf _ _ _ _ m1 | (simp only [List.length_modify, List.length_map, List.length_set]; with_reducible assumption)))

theorem showPicture_inv {h : HalfId} {c : Nat} {p : DecodedPic} {x : Half} (hx : x.Inv) :
    (showPicture h c p x).Inv := by
  unfold showPicture
  repeat' (first | with_reducible assumption | with_reducible refine updDecode_inv ?_ | with_reducible refine dropWaiting_inv ?_ | with_reducible refine makeAvailable_inv ?_ | with_reducible refine keepPassed_inv ?_ | with_reducible refine half_inv ?_ _ | dsimp only | split | (obtain ⟨⟨m1, m2⟩, ⟨q1, q2, q3, q4⟩, u1, u2, u3, u4, u5, u6, u7, u8, u9, u10⟩ := hx; refine ⟨⟨?_, ?_⟩, ⟨?_, ?_, ?_, ?_⟩, ?_, ?_, ?_, ?_, ?_, ?_, ?_, ?_, ?_, ?_⟩ <;> first | with_reducible assumption | (dsimp only; with_reducible assumption) | with_reducible exact ringPut_wf _ _ _ _ m1 | (simp only [List.length_modify, List.length_map, List.length_set]; with_reducible assumption)))

theorem byPolicy_inv {h : HalfId} {c : Nat} {p : DecodedPic} {x : Half} (hx : x.Inv) :
    (byPolicy h c p x).Inv := by
  unfold byPolicy
  repeat' (first | with_reducible assumption | with_reducible refine holdPicture_inv ?_ | with_reducible refine showPicture_inv ?_ | with_reducible refine half_inv ?_ _ | dsimp only | split | (obtain ⟨⟨m1, m2⟩, ⟨q1, q2, q3, q4⟩, u1, u2, u3, u4, u5, u6, u7, u8, u9, u10⟩ := hx; refine ⟨⟨?_, ?_⟩, ⟨?_, ?_, ?_, ?_⟩, ?_, ?_, ?_, ?_, ?_, ?_, ?_, ?_, ?_, ?_⟩ <;> first | with_reducible assumption | (dsimp only; with_reducible assumption) | with_reducible exact ringPut_wf _ _ _ _ m1 | (simp only [List.length_modify, List.length_map, List.length_set]; with_reducible assumption)))

theorem rejectSets_inv {h : HalfId} {c : Nat} {l : List ParamUnit} {s : State} (hs : s.Inv) :
    (rejectSets h c l s).Inv := by
  unfold rejectSets
  repeat' (first | with_reducible assumption | with_reducible refine event_inv ?_ | with_reducible refine damageAdd_inv ?_ | with_reducible refine upd_inv (fun x hx => ?_) ?_ | with_reducible refine foldl_inv (fun s a hs => ?_) ?_ | with_reducible refine foldlH_inv (fun x a hx => ?_) ?_ | with_reducible refine foldl_fst_inv (fun s a hs => ?_) ?_ | with_reducible refine half_inv ?_ _ | dsimp only | split | (obtain ⟨⟨m1, m2⟩, ⟨q1, q2, q3, q4⟩, u1, u2, u3, u4, u5, u6, u7, u8, u9, u10⟩ := hx; refine ⟨⟨?_, ?_⟩, ⟨?_, ?_, ?_, ?_⟩, ?_, ?_, ?_, ?_, ?_, ?_, ?_, ?_, ?_, ?_⟩ <;> first | with_reducible assumption | (dsimp only; with_reducible assumption) | with_reducible exact ringPut_wf _ _ _ _ m1 | (simp only [List.length_modify, List.length_map, List.length_set]; with_reducible assumption)))

theorem reportStandIns_inv {h : HalfId} {c seq : Nat} {l : List RefPic} {s : State} (hs : s.Inv) :
    (reportStandIns h c seq l s).Inv := by
  unfold reportStandIns
  repeat' (first | with_reducible assumption | with_reducible refine event_inv ?_ | with_reducible refine damageAdd_inv ?_ | with_reducible refine upd_inv (fun x hx => ?_) ?_ | with_reducible refine foldl_inv (fun s a hs => ?_) ?_ | with_reducible refine foldlH_inv (fun x a hx => ?_) ?_ | with_reducible refine foldl_fst_inv (fun s a hs => ?_) ?_ | with_reducible refine half_inv ?_ _ | dsimp only | split | (obtain ⟨⟨m1, m2⟩, ⟨q1, q2, q3, q4⟩, u1, u2, u3, u4, u5, u6, u7, u8, u9, u10⟩ := hx; refine ⟨⟨?_, ?_⟩, ⟨?_, ?_, ?_, ?_⟩, ?_, ?_, ?_, ?_, ?_, ?_, ?_, ?_, ?_, ?_⟩ <;> first | with_reducible assumption | (dsimp only; with_reducible assumption) | with_reducible exact ringPut_wf _ _ _ _ m1 | (simp only [List.length_modify, List.length_map, List.length_set]; with_reducible assumption)))

theorem reliability_inv {h : HalfId} {c : Nat} {unsound : Bool} {close : Nat} {s : State} (hs : s.Inv) :
    (reliability h c unsound close s).Inv := by
  unfold reliability
  repeat' (first | with_reducible assumption | with_reducible refine event_inv ?_ | with_reducible refine updDecode_inv ?_ | with_reducible refine refreshStop_inv ?_ | with_reducible refine upd_inv (fun x hx => ?_) ?_ | with_reducible refine half_inv ?_ _ | dsimp only | split | (obtain ⟨⟨m1, m2⟩, ⟨q1, q2, q3, q4⟩, u1, u2, u3, u4, u5, u6, u7, u8, u9, u10⟩ := hx; refine ⟨⟨?_, ?_⟩, ⟨?_, ?_, ?_, ?_⟩, ?_, ?_, ?_, ?_, ?_, ?_, ?_, ?_, ?_, ?_⟩ <;> first | with_reducible assumption | (dsimp only; with_reducible assumption) | with_reducible exact ringPut_wf _ _ _ _ m1 | (simp only [List.length_modify, List.length_map, List.length_set]; with_reducible assumption)))

theorem concealRequest_inv {h : HalfId} {c : Nat} {standIns : List RefPic} {p : DecodedPic} {s : State} (hs : s.Inv) :
    (concealRequest h c standIns p s).Inv := by
  unfold concealRequest
  repeat' (first | with_reducible assumption | with_reducible refine asrRequest_inv ?_ | with_reducible refine half_inv ?_ _ | dsimp only | split | (obtain ⟨⟨m1, m2⟩, ⟨q1, q2, q3, q4⟩, u1, u2, u3, u4, u5, u6, u7, u8, u9, u10⟩ := hx; refine ⟨⟨?_, ?_⟩, ⟨?_, ?_, ?_, ?_⟩, ?_, ?_, ?_, ?_, ?_, ?_, ?_, ?_, ?_, ?_⟩ <;> first | with_reducible assumption | (dsimp only; with_reducible assumption) | with_reducible exact ringPut_wf _ _ _ _ m1 | (simp only [List.length_modify, List.length_map, List.length_set]; with_reducible assumption)))

theorem unasked_inv {h : HalfId} {c : Nat} {p : DecodedPic} {x : Half} (hx : x.Inv) :
    (unasked h c p x).Inv := by
  unfold unasked
  repeat' (first | with_reducible assumption | with_reducible refine holdPicture_inv ?_ | with_reducible refine showPicture_inv ?_ | with_reducible refine byPolicy_inv ?_ | with_reducible refine half_inv ?_ _ | dsimp only | split | (obtain ⟨⟨m1, m2⟩, ⟨q1, q2, q3, q4⟩, u1, u2, u3, u4, u5, u6, u7, u8, u9, u10⟩ := hx; refine ⟨⟨?_, ?_⟩, ⟨?_, ?_, ?_, ?_⟩, ?_, ?_, ?_, ?_, ?_, ?_, ?_, ?_, ?_, ?_⟩ <;> first | with_reducible assumption | (dsimp only; with_reducible assumption) | with_reducible exact ringPut_wf _ _ _ _ m1 | (simp only [List.length_modify, List.length_map, List.length_set]; with_reducible assumption)))

theorem placePicture_inv {h : HalfId} {c : Nat} {standIns : List RefPic} {p : DecodedPic} {asked : Bool} {s : State}
    (hs : s.Inv) : (placePicture h c standIns p asked s).Inv := by
  unfold placePicture
  extract_lets x
  split
  · exact hs
  · next d hd =>
    extract_lets passed u q q2
    have hu : u.Inv := by
      refine ite_inv (upd_inv (fun x hx => ?_) hs) hs
      cases d.engines.head?
      · exact updDecode_inv hx
      · exact count_inv (updDecode_inv hx)
    exact ite_inv (concealRequest_inv (upd_inv (fun x hx => updDecode_inv hx) hu)) (upd_inv (fun x hx => unasked_inv hx) hu)

theorem countDecoded_inv {h : HalfId} {c e : Nat} {f : DecodeFacts} {u : Decoded} {codes : List Nat} {reliable : Bool} {x : Half} (hx : x.Inv) :
    (countDecoded h c e f u codes reliable x).Inv := by
  unfold countDecoded
  repeat' (first | with_reducible assumption | with_reducible refine count_inv ?_ | with_reducible refine damageAdd_inv ?_ | with_reducible refine half_inv ?_ _ | dsimp only | split | (obtain ⟨⟨m1, m2⟩, ⟨q1, q2, q3, q4⟩, u1, u2, u3, u4, u5, u6, u7, u8, u9, u10⟩ := hx; refine ⟨⟨?_, ?_⟩, ⟨?_, ?_, ?_, ?_⟩, ?_, ?_, ?_, ?_, ?_, ?_, ?_, ?_, ?_, ?_⟩ <;> first | with_reducible assumption | (dsimp only; with_reducible assumption) | with_reducible exact ringPut_wf _ _ _ _ m1 | (simp only [List.length_modify, List.length_map, List.length_set]; with_reducible assumption)))

theorem outputPicture_inv {h : HalfId} {c e : Nat} {p : ParamFacts} {a : AccessUnit} {f : DecodeFacts} {u : Decoded}
    {out : Content × List Nat × Nat} {s : State} (hs : s.Inv) : (outputPicture h c e p a f u out s).Inv := by
  unfold outputPicture
  extract_lets r codec now codes bad clean s1 grain times region q direct inherited input
  have h1 : s1.Inv := reliability_inv hs
  split
  · exact h1
  · extract_lets resized all p0 p1 s2 s3 s4 s5 s6 s7 s8
    have h3 : s3.Inv := State.tick1_inv (upd_inv (fun x hx => storePicture_inv hx) h1)
    have h4 : s4.Inv := upd_inv (fun x hx => updDecode_inv (iteH_inv (count_inv (countDecoded_inv hx)) (countDecoded_inv hx))) h3
    have h5 : s5.Inv := ite_inv (event_inv h4) h4
    have h6 : s6.Inv := ite_inv (event_inv h5) h5
    have h7 : s7.Inv := ite_inv (upd_inv (fun x hx => refreshStop_inv hx) h6) h6
    have h8 : s8.Inv := ite_inv (refreshTrigger_inv h7) h7
    exact placePicture_inv h8

theorem finishDecoded_inv {h : HalfId} {c e : Nat} {d : DecodeSt} {p : ParamFacts} {a : AccessUnit} {f : DecodeFacts} {s : State} (hs : s.Inv) :
    (finishDecoded h c e d p a f s).Inv := by
  unfold finishDecoded
  repeat' (first | with_reducible assumption | with_reducible refine updDecode_inv ?_ | with_reducible refine reportStandIns_inv ?_ | with_reducible refine countDecoded_inv ?_ | with_reducible refine outputPicture_inv ?_ | with_reducible refine upd_inv (fun x hx => ?_) ?_ | with_reducible refine half_inv ?_ _ | dsimp only | split | (obtain ⟨⟨m1, m2⟩, ⟨q1, q2, q3, q4⟩, u1, u2, u3, u4, u5, u6, u7, u8, u9, u10⟩ := hx; refine ⟨⟨?_, ?_⟩, ⟨?_, ?_, ?_, ?_⟩, ?_, ?_, ?_, ?_, ?_, ?_, ?_, ?_, ?_, ?_⟩ <;> first | with_reducible assumption | (dsimp only; with_reducible assumption) | with_reducible exact ringPut_wf _ _ _ _ m1 | (simp only [List.length_modify, List.length_map, List.length_set]; with_reducible assumption)))

theorem decRelease_inv {d : DecodeSt} {x : Half} (hx : x.Inv) :
    (decRelease d x).Inv := by
  unfold decRelease
  repeat' (first | with_reducible assumption | with_reducible refine half_inv ?_ _ | dsimp only | split | (obtain ⟨⟨m1, m2⟩, ⟨q1, q2, q3, q4⟩, u1, u2, u3, u4, u5, u6, u7, u8, u9, u10⟩ := hx; refine ⟨⟨?_, ?_⟩, ⟨?_, ?_, ?_, ?_⟩, ?_, ?_, ?_, ?_, ?_, ?_, ?_, ?_, ?_, ?_⟩ <;> first | with_reducible assumption | (dsimp only; with_reducible assumption) | with_reducible exact ringPut_wf _ _ _ _ m1 | (simp only [List.length_modify, List.length_map, List.length_set]; with_reducible assumption)))

theorem concealDefault_inv {h : HalfId} {c : Nat} {p : DecodedPic} {s : State} (hs : s.Inv) :
    (concealDefault h c p s).Inv := by
  unfold concealDefault
  repeat' (first | with_reducible assumption | with_reducible refine byPolicy_inv ?_ | with_reducible refine upd_inv (fun x hx => ?_) ?_ | with_reducible refine half_inv ?_ _ | dsimp only | split | (obtain ⟨⟨m1, m2⟩, ⟨q1, q2, q3, q4⟩, u1, u2, u3, u4, u5, u6, u7, u8, u9, u10⟩ := hx; refine ⟨⟨?_, ?_⟩, ⟨?_, ?_, ?_, ?_⟩, ?_, ?_, ?_, ?_, ?_, ?_, ?_, ?_, ?_, ?_⟩ <;> first | with_reducible assumption | (dsimp only; with_reducible assumption) | with_reducible exact ringPut_wf _ _ _ _ m1 | (simp only [List.length_modify, List.length_map, List.length_set]; with_reducible assumption)))

theorem concealLate_inv {h : HalfId} {c : Nat} {p : DecodedPic} {cause : Nat} {s : State} (hs : s.Inv) :
    (concealLate h c p cause s).Inv := by
  unfold concealLate
  repeat' (first | with_reducible assumption | with_reducible refine assistLate_inv ?_ | with_reducible refine concealDefault_inv ?_ | with_reducible refine half_inv ?_ _ | dsimp only | split | (obtain ⟨⟨m1, m2⟩, ⟨q1, q2, q3, q4⟩, u1, u2, u3, u4, u5, u6, u7, u8, u9, u10⟩ := hx; refine ⟨⟨?_, ?_⟩, ⟨?_, ?_, ?_, ?_⟩, ?_, ?_, ?_, ?_, ?_, ?_, ?_, ?_, ?_, ?_⟩ <;> first | with_reducible assumption | (dsimp only; with_reducible assumption) | with_reducible exact ringPut_wf _ _ _ _ m1 | (simp only [List.length_modify, List.length_map, List.length_set]; with_reducible assumption)))

theorem concealAct_inv {h : HalfId} {c : Nat} {p : DecodedPic} {action at_ pitch : Nat} {s : State} (hs : s.Inv) :
    (concealAct h c p action at_ pitch s).Inv := by
  unfold concealAct
  repeat' (first | with_reducible assumption | with_reducible refine State.tick1_inv ?_ | with_reducible refine asrNotice_inv ?_ | with_reducible refine updDecode_inv ?_ | with_reducible refine damageAdd_inv ?_ | with_reducible refine storePicture_inv ?_ | with_reducible refine holdPicture_inv ?_ | with_reducible refine showPicture_inv ?_ | with_reducible refine byPolicy_inv ?_ | with_reducible refine upd_inv (fun x hx => ?_) ?_ | with_reducible refine half_inv ?_ _ | dsimp only | split | (obtain ⟨⟨m1, m2⟩, ⟨q1, q2, q3, q4⟩, u1, u2, u3, u4, u5, u6, u7, u8, u9, u10⟩ := hx; refine ⟨⟨?_, ?_⟩, ⟨?_, ?_, ?_, ?_⟩, ?_, ?_, ?_, ?_, ?_, ?_, ?_, ?_, ?_, ?_⟩ <;> first | with_reducible assumption | (dsimp only; with_reducible assumption) | with_reducible exact ringPut_wf _ _ _ _ m1 | (simp only [List.length_modify, List.length_map, List.length_set]; with_reducible assumption)))

/-! Composing.lean -/

theorem surfaceWrite_inv {h : HalfId} {i : Nat} {x : Half} (hx : x.Inv) :
    (surfaceWrite h i x).Inv := by
  unfold surfaceWrite
  repeat' (first | with_reducible assumption | with_reducible refine devWrite_inv ?_ | with_reducible refine half_inv ?_ _ | dsimp only | split | (obtain ⟨⟨m1, m2⟩, ⟨q1, q2, q3, q4⟩, u1, u2, u3, u4, u5, u6, u7, u8, u9, u10⟩ := hx; refine ⟨⟨?_, ?_⟩, ⟨?_, ?_, ?_, ?_⟩, ?_, ?_, ?_, ?_, ?_, ?_, ?_, ?_, ?_, ?_⟩ <;> first | with_reducible assumption | (dsimp only; with_reducible assumption) | with_reducible exact ringPut_wf _ _ _ _ m1 | (simp only [List.length_modify, List.length_map, List.length_set]; with_reducible assumption)))

theorem surfaceRelease_inv {h : HalfId} {i : Nat} {s : State} (hs : s.Inv) :
    (surfaceRelease h i s).Inv := by
  unfold surfaceRelease
  repeat' (first | with_reducible assumption | with_reducible refine updSurface_inv ?_ | with_reducible refine surfaceWrite_inv ?_ | with_reducible refine upd_inv (fun x hx => ?_) ?_ | with_reducible refine half_inv ?_ _ | dsimp only | split | (obtain ⟨⟨m1, m2⟩, ⟨q1, q2, q3, q4⟩, u1, u2, u3, u4, u5, u6, u7, u8, u9, u10⟩ := hx; refine ⟨⟨?_, ?_⟩, ⟨?_, ?_, ?_, ?_⟩, ?_, ?_, ?_, ?_, ?_, ?_, ?_, ?_, ?_, ?_⟩ <;> first | with_reducible assumption | (dsimp only; with_reducible assumption) | with_reducible exact ringPut_wf _ _ _ _ m1 | (simp only [List.length_modify, List.length_map, List.length_set]; with_reducible assumption)))

theorem releaseBoth_inv {h : HalfId} {i : Nat} {s : State} (hs : s.Inv) :
    (releaseBoth h i s).Inv := by
  unfold releaseBoth
  repeat' (first | with_reducible assumption | with_reducible refine surfaceRelease_inv ?_ | with_reducible refine half_inv ?_ _ | dsimp only | split | (obtain ⟨⟨m1, m2⟩, ⟨q1, q2, q3, q4⟩, u1, u2, u3, u4, u5, u6, u7, u8, u9, u10⟩ := hx; refine ⟨⟨?_, ?_⟩, ⟨?_, ?_, ?_, ?_⟩, ?_, ?_, ?_, ?_, ?_, ?_, ?_, ?_, ?_, ?_⟩ <;> first | with_reducible assumption | (dsimp only; with_reducible assumption) | with_reducible exact ringPut_wf _ _ _ _ m1 | (simp only [List.length_modify, List.length_map, List.length_set]; with_reducible assumption)))

theorem surfaceApply_inv {h : HalfId} {t i : Nat} {s : State} (hs : s.Inv) :
    (surfaceApply h t i s).Inv := by
  unfold surfaceApply
  repeat' (first | with_reducible assumption | with_reducible refine event_inv ?_ | with_reducible refine updSurface_inv ?_ | with_reducible refine surfaceWrite_inv ?_ | with_reducible refine releaseBoth_inv ?_ | with_reducible refine upd_inv (fun x hx => ?_) ?_ | with_reducible refine foldl_inv (fun s a hs => ?_) ?_ | with_reducible refine foldlH_inv (fun x a hx => ?_) ?_ | with_reducible refine foldl_fst_inv (fun s a hs => ?_) ?_ | with_reducible refine half_inv ?_ _ | dsimp only | split | (obtain ⟨⟨m1, m2⟩, ⟨q1, q2, q3, q4⟩, u1, u2, u3, u4, u5, u6, u7, u8, u9, u10⟩ := hx; refine ⟨⟨?_, ?_⟩, ⟨?_, ?_, ?_, ?_⟩, ?_, ?_, ?_, ?_, ?_, ?_, ?_, ?_, ?_, ?_⟩ <;> first | with_reducible assumption | (dsimp only; with_reducible assumption) | with_reducible exact ringPut_wf _ _ _ _ m1 | (simp only [List.length_modify, List.length_map, List.length_set]; with_reducible assumption)))

theorem surfaceTrim_inv {h : HalfId} {i : Nat} {x : Half} (hx : x.Inv) :
    (surfaceTrim h i x).Inv := by
  unfold surfaceTrim
  repeat' (first | with_reducible assumption | with_reducible refine updSurface_inv ?_ | with_reducible refine foldl_inv (fun s a hs => ?_) ?_ | with_reducible refine foldlH_inv (fun x a hx => ?_) ?_ | with_reducible refine foldl_fst_inv (fun s a hs => ?_) ?_ | with_reducible refine half_inv ?_ _ | dsimp only | split | (obtain ⟨⟨m1, m2⟩, ⟨q1, q2, q3, q4⟩, u1, u2, u3, u4, u5, u6, u7, u8, u9, u10⟩ := hx; refine ⟨⟨?_, ?_⟩, ⟨?_, ?_, ?_, ?_⟩, ?_, ?_, ?_, ?_, ?_, ?_, ?_, ?_, ?_, ?_⟩ <;> first | with_reducible assumption | (dsimp only; with_reducible assumption) | with_reducible exact ringPut_wf _ _ _ _ m1 | (simp only [List.length_modify, List.length_map, List.length_set]; with_reducible assumption)))

theorem surfaceCopy_inv {h : HalfId} {i partner : Nat} {u : SurfUpdate} {s : State} (hs : s.Inv) :
    (surfaceCopy h i partner u s).Inv := by
  unfold surfaceCopy
  repeat' (first | with_reducible assumption | with_reducible refine devWrite_inv ?_ | with_reducible refine upd_inv (fun x hx => ?_) ?_ | with_reducible refine foldl_inv (fun s a hs => ?_) ?_ | with_reducible refine foldlH_inv (fun x a hx => ?_) ?_ | with_reducible refine foldl_fst_inv (fun s a hs => ?_) ?_ | with_reducible refine half_inv ?_ _ | dsimp only | split | (obtain ⟨⟨m1, m2⟩, ⟨q1, q2, q3, q4⟩, u1, u2, u3, u4, u5, u6, u7, u8, u9, u10⟩ := hx; refine ⟨⟨?_, ?_⟩, ⟨?_, ?_, ?_, ?_⟩, ?_, ?_, ?_, ?_, ?_, ?_, ?_, ?_, ?_, ?_⟩ <;> first | with_reducible assumption | (dsimp only; with_reducible assumption) | with_reducible exact ringPut_wf _ _ _ _ m1 | (simp only [List.length_modify, List.length_map, List.length_set]; with_reducible assumption)))

theorem cueArmHalf_inv {h : HalfId} {q : Cue} {x : Half} (hx : x.Inv) :
    (cueArmHalf h q x).Inv := by
  unfold cueArmHalf
  repeat' (first | with_reducible assumption | with_reducible refine half_inv ?_ _ | dsimp only | split | (obtain ⟨⟨m1, m2⟩, ⟨q1, q2, q3, q4⟩, u1, u2, u3, u4, u5, u6, u7, u8, u9, u10⟩ := hx; refine ⟨⟨?_, ?_⟩, ⟨?_, ?_, ?_, ?_⟩, ?_, ?_, ?_, ?_, ?_, ?_, ?_, ?_, ?_, ?_⟩ <;> first | with_reducible assumption | (dsimp only; with_reducible assumption) | with_reducible exact ringPut_wf _ _ _ _ m1 | (simp only [List.length_modify, List.length_map, List.length_set]; with_reducible assumption)))

theorem cueCancelHalf_inv {group : W32} {time : Nat} {x : Half} (hx : x.Inv) :
    (cueCancelHalf group time x).Inv := by
  unfold cueCancelHalf
  repeat' (first | with_reducible assumption | with_reducible refine half_inv ?_ _ | dsimp only | split | (obtain ⟨⟨m1, m2⟩, ⟨q1, q2, q3, q4⟩, u1, u2, u3, u4, u5, u6, u7, u8, u9, u10⟩ := hx; refine ⟨⟨?_, ?_⟩, ⟨?_, ?_, ?_, ?_⟩, ?_, ?_, ?_, ?_, ?_, ?_, ?_, ?_, ?_, ?_⟩ <;> first | with_reducible assumption | (dsimp only; with_reducible assumption) | with_reducible exact ringPut_wf _ _ _ _ m1 | (simp only [List.length_modify, List.length_map, List.length_set]; with_reducible assumption)))

theorem storeCanvas_inv {r : Record} {c : Content} {tiles table : List Nat} {seq : Nat} {stencil : List Byte} {x : Half} (hx : x.Inv) :
    (storeCanvas r c tiles table seq stencil x).Inv := by
  unfold storeCanvas
  repeat' (first | with_reducible assumption | with_reducible refine picStore_inv ?_ | with_reducible refine devWrite_inv ?_ | with_reducible refine foldl_inv (fun s a hs => ?_) ?_ | with_reducible refine foldlH_inv (fun x a hx => ?_) ?_ | with_reducible refine foldl_fst_inv (fun s a hs => ?_) ?_ | with_reducible refine half_inv ?_ _ | dsimp only | split | (obtain ⟨⟨m1, m2⟩, ⟨q1, q2, q3, q4⟩, u1, u2, u3, u4, u5, u6, u7, u8, u9, u10⟩ := hx; refine ⟨⟨?_, ?_⟩, ⟨?_, ?_, ?_, ?_⟩, ?_, ?_, ?_, ?_, ?_, ?_, ?_, ?_, ?_, ?_⟩ <;> first | with_reducible assumption | (dsimp only; with_reducible assumption) | with_reducible exact ringPut_wf _ _ _ _ m1 | (simp only [List.length_modify, List.length_map, List.length_set]; with_reducible assumption)))

theorem handPicture_inv {h : HalfId} {i tick time seq : Nat} {blocks : List Nat} {all cue repeated : Bool} {s : State} (hs : s.Inv) :
    (handPicture h i tick time seq blocks all cue repeated s).1.Inv := by
  unfold handPicture
  repeat' (first | with_reducible assumption | with_reducible refine updEncode_inv ?_ | with_reducible refine upd_inv (fun x hx => ?_) ?_ | with_reducible refine foldl_inv (fun s a hs => ?_) ?_ | with_reducible refine foldlH_inv (fun x a hx => ?_) ?_ | with_reducible refine foldl_fst_inv (fun s a hs => ?_) ?_ | with_reducible refine half_inv ?_ _ | dsimp only | split | (obtain ⟨⟨m1, m2⟩, ⟨q1, q2, q3, q4⟩, u1, u2, u3, u4, u5, u6, u7, u8, u9, u10⟩ := hx; refine ⟨⟨?_, ?_⟩, ⟨?_, ?_, ?_, ?_⟩, ?_, ?_, ?_, ?_, ?_, ?_, ?_, ?_, ?_, ?_⟩ <;> first | with_reducible assumption | (dsimp only; with_reducible assumption) | with_reducible exact ringPut_wf _ _ _ _ m1 | (simp only [List.length_modify, List.length_map, List.length_set]; with_reducible assumption)))

theorem releasePicture_inv {i seq reader : Nat} {x : Half} (hx : x.Inv) :
    (releasePicture i seq reader x).Inv := by
  unfold releasePicture
  repeat' (first | with_reducible assumption | with_reducible refine updCanvas_inv ?_ | with_reducible refine half_inv ?_ _ | dsimp only | split | (obtain ⟨⟨m1, m2⟩, ⟨q1, q2, q3, q4⟩, u1, u2, u3, u4, u5, u6, u7, u8, u9, u10⟩ := hx; refine ⟨⟨?_, ?_⟩, ⟨?_, ?_, ?_, ?_⟩, ?_, ?_, ?_, ?_, ?_, ?_, ?_, ?_, ?_, ?_⟩ <;> first | with_reducible assumption | (dsimp only; with_reducible assumption) | with_reducible exact ringPut_wf _ _ _ _ m1 | (simp only [List.length_modify, List.length_map, List.length_set]; with_reducible assumption)))

theorem handRepeat_inv {h : HalfId} {i tick time : Nat} {s : State} (hs : s.Inv) :
    (handRepeat h i tick time s).Inv := by
  unfold handRepeat
  repeat' (first | with_reducible assumption | with_reducible refine updCanvas_inv ?_ | with_reducible refine storeCanvas_inv ?_ | with_reducible refine handPicture_inv ?_ | with_reducible refine upd_inv (fun x hx => ?_) ?_ | with_reducible refine half_inv ?_ _ | dsimp only | split | (obtain ⟨⟨m1, m2⟩, ⟨q1, q2, q3, q4⟩, u1, u2, u3, u4, u5, u6, u7, u8, u9, u10⟩ := hx; refine ⟨⟨?_, ?_⟩, ⟨?_, ?_, ?_, ?_⟩, ?_, ?_, ?_, ?_, ?_, ?_, ?_, ?_, ?_, ?_⟩ <;> first | with_reducible assumption | (dsimp only; with_reducible assumption) | with_reducible exact ringPut_wf _ _ _ _ m1 | (simp only [List.length_modify, List.length_map, List.length_set]; with_reducible assumption)))

theorem repeatPicture_inv {h : HalfId} {i tick time : Nat} {s : State} (hs : s.Inv) :
    (repeatPicture h i tick time s).Inv := by
  unfold repeatPicture
  repeat' (first | with_reducible assumption | with_reducible refine updCanvas_inv ?_ | with_reducible refine handRepeat_inv ?_ | with_reducible refine upd_inv (fun x hx => ?_) ?_ | with_reducible refine half_inv ?_ _ | dsimp only | split | (obtain ⟨⟨m1, m2⟩, ⟨q1, q2, q3, q4⟩, u1, u2, u3, u4, u5, u6, u7, u8, u9, u10⟩ := hx; refine ⟨⟨?_, ?_⟩, ⟨?_, ?_, ?_, ?_⟩, ?_, ?_, ?_, ?_, ?_, ?_, ?_, ?_, ?_, ?_⟩ <;> first | with_reducible assumption | (dsimp only; with_reducible assumption) | with_reducible exact ringPut_wf _ _ _ _ m1 | (simp only [List.length_modify, List.length_map, List.length_set]; with_reducible assumption)))

theorem flushRepeats_inv {h : HalfId} {i : Nat} {s : State} (hs : s.Inv) :
    (flushRepeats h i s).Inv := by
  unfold flushRepeats
  repeat' (first | with_reducible assumption | with_reducible refine updCanvas_inv ?_ | with_reducible refine handRepeat_inv ?_ | with_reducible refine upd_inv (fun x hx => ?_) ?_ | with_reducible refine foldl_inv (fun s a hs => ?_) ?_ | with_reducible refine foldlH_inv (fun x a hx => ?_) ?_ | with_reducible refine foldl_fst_inv (fun s a hs => ?_) ?_ | with_reducible refine half_inv ?_ _ | dsimp only | split | (obtain ⟨⟨m1, m2⟩, ⟨q1, q2, q3, q4⟩, u1, u2, u3, u4, u5, u6, u7, u8, u9, u10⟩ := hx; refine ⟨⟨?_, ?_⟩, ⟨?_, ?_, ?_, ?_⟩, ?_, ?_, ?_, ?_, ?_, ?_, ?_, ?_, ?_, ?_⟩ <;> first | with_reducible assumption | (dsimp only; with_reducible assumption) | with_reducible exact ringPut_wf _ _ _ _ m1 | (simp only [List.length_modify, List.length_map, List.length_set]; with_reducible assumption)))

theorem leaveGroups_inv {x : Half} (hx : x.Inv) :
    (leaveGroups x).Inv := by
  unfold leaveGroups
  repeat' (first | with_reducible assumption | with_reducible refine half_inv ?_ _ | dsimp only | split | (obtain ⟨⟨m1, m2⟩, ⟨q1, q2, q3, q4⟩, u1, u2, u3, u4, u5, u6, u7, u8, u9, u10⟩ := hx; refine ⟨⟨?_, ?_⟩, ⟨?_, ?_, ?_, ?_⟩, ?_, ?_, ?_, ?_, ?_, ?_, ?_, ?_, ?_, ?_⟩ <;> first | with_reducible assumption | (dsimp only; with_reducible assumption) | with_reducible exact ringPut_wf _ _ _ _ m1 | (simp only [List.length_modify, List.length_map, List.length_set]; with_reducible assumption)))

theorem switchEncode_inv {h : HalfId} {p : PendingEnv} {t : Nat} {obj : Handle} {x : Half} (hx : x.Inv) : (switchEncode h p t obj x).Inv := by
  have h1 : (leaveGroups (leaveTakeover obj x)).Inv := leaveGroups_inv (leaveTakeover_inv hx)
  unfold switchEncode
  extract_lets +onlyGivenNames i old y
  split
  · exact h1
  · exact updEncode_inv (obj_inv h1)

theorem switchCanvas_inv {h : HalfId} {i t : Nat} {p : PendingEnv} {x : Half} (hx : x.Inv) : (switchCanvas h i t p x).Inv := by
  unfold switchCanvas
  extract_lets +onlyGivenNames obj old layers y
  have h1 : y.Inv := foldlH_inv (fun x l hx => switchEncode_inv hx) hx
  split
  · exact h1
  · exact updCanvas_inv (obj_inv (foldlH_inv (fun x l hx => leaveTakeover_inv hx) h1))

theorem applyCues_inv {h : HalfId} {i t : Nat} {s : State} (hs : s.Inv) :
    (applyCues h i t s).1.Inv := by
  unfold applyCues
  repeat' (first | with_reducible assumption | with_reducible refine event_inv ?_ | with_reducible refine updCanvas_inv ?_ | with_reducible refine upd_inv (fun x hx => ?_) ?_ | with_reducible refine foldl_inv (fun s a hs => ?_) ?_ | with_reducible refine foldlH_inv (fun x a hx => ?_) ?_ | with_reducible refine foldl_fst_inv (fun s a hs => ?_) ?_ | with_reducible refine half_inv ?_ _ | dsimp only | split | (obtain ⟨⟨m1, m2⟩, ⟨q1, q2, q3, q4⟩, u1, u2, u3, u4, u5, u6, u7, u8, u9, u10⟩ := hx; refine ⟨⟨?_, ?_⟩, ⟨?_, ?_, ?_, ?_⟩, ?_, ?_, ?_, ?_, ?_, ?_, ?_, ?_, ?_, ?_⟩ <;> first | with_reducible assumption | (dsimp only; with_reducible assumption) | with_reducible exact ringPut_wf _ _ _ _ m1 | (simp only [List.length_modify, List.length_map, List.length_set]; with_reducible assumption)))

theorem canvasOverrun_inv {h : HalfId} {i t cause : Nat} {pipes : List Nat} {s : State} (hs : s.Inv) :
    (canvasOverrun h i t cause pipes s).Inv := by
  unfold canvasOverrun
  repeat' (first | with_reducible assumption | with_reducible refine count_inv ?_ | with_reducible refine event_inv ?_ | with_reducible refine upd_inv (fun x hx => ?_) ?_ | with_reducible refine half_inv ?_ _ | dsimp only | split | (obtain ⟨⟨m1, m2⟩, ⟨q1, q2, q3, q4⟩, u1, u2, u3, u4, u5, u6, u7, u8, u9, u10⟩ := hx; refine ⟨⟨?_, ?_⟩, ⟨?_, ?_, ?_, ?_⟩, ?_, ?_, ?_, ?_, ?_, ?_, ?_, ?_, ?_, ?_⟩ <;> first | with_reducible assumption | (dsimp only; with_reducible assumption) | with_reducible exact ringPut_wf _ _ _ _ m1 | (simp only [List.length_modify, List.length_map, List.length_set]; with_reducible assumption)))

theorem tickJob_inv {h : HalfId} {i k t oldScene : Nat} {cue : Bool} {s : State} (hs : s.Inv) :
    (tickJob h i k t oldScene cue s).1.Inv := by
  unfold tickJob
  repeat' (first | with_reducible assumption | with_reducible refine event_inv ?_ | with_reducible refine updCanvas_inv ?_ | with_reducible refine upd_inv (fun x hx => ?_) ?_ | with_reducible refine foldl_inv (fun s a hs => ?_) ?_ | with_reducible refine foldlH_inv (fun x a hx => ?_) ?_ | with_reducible refine foldl_fst_inv (fun s a hs => ?_) ?_ | with_reducible refine half_inv ?_ _ | dsimp only | split | (obtain ⟨⟨m1, m2⟩, ⟨q1, q2, q3, q4⟩, u1, u2, u3, u4, u5, u6, u7, u8, u9, u10⟩ := hx; refine ⟨⟨?_, ?_⟩, ⟨?_, ?_, ?_, ?_⟩, ?_, ?_, ?_, ?_, ?_, ?_, ?_, ?_, ?_, ?_⟩ <;> first | with_reducible assumption | (dsimp only; with_reducible assumption) | with_reducible exact ringPut_wf _ _ _ _ m1 | (simp only [List.length_modify, List.length_map, List.length_set]; with_reducible assumption)))

theorem runTick_inv {h : HalfId} {i k t : Nat} {s : State} (hs : s.Inv) :
    (runTick h i k t s).Inv := by
  unfold runTick
  repeat' (first | with_reducible assumption | with_reducible refine updCanvas_inv ?_ | with_reducible refine surfaceApply_inv ?_ | with_reducible refine repeatPicture_inv ?_ | with_reducible refine applyCues_inv ?_ | with_reducible refine canvasOverrun_inv ?_ | with_reducible refine tickJob_inv ?_ | with_reducible refine upd_inv (fun x hx => ?_) ?_ | with_reducible refine foldl_inv (fun s a hs => ?_) ?_ | with_reducible refine foldlH_inv (fun x a hx => ?_) ?_ | with_reducible refine foldl_fst_inv (fun s a hs => ?_) ?_ | with_reducible refine half_inv ?_ _ | dsimp only | split | (obtain ⟨⟨m1, m2⟩, ⟨q1, q2, q3, q4⟩, u1, u2, u3, u4, u5, u6, u7, u8, u9, u10⟩ := hx; refine ⟨⟨?_, ?_⟩, ⟨?_, ?_, ?_, ?_⟩, ?_, ?_, ?_, ?_, ?_, ?_, ?_, ?_, ?_, ?_⟩ <;> first | with_reducible assumption | (dsimp only; with_reducible assumption) | with_reducible exact ringPut_wf _ _ _ _ m1 | (simp only [List.length_modify, List.length_map, List.length_set]; with_reducible assumption)))

theorem pipeTake_inv {pipe i : Nat} {resumed : Bool} {x : Half} (hx : x.Inv) :
    (pipeTake pipe i resumed x).Inv := by
  unfold pipeTake
  repeat' (first | with_reducible assumption | with_reducible refine updCanvas_inv ?_ | with_reducible refine half_inv ?_ _ | dsimp only | split | (obtain ⟨⟨m1, m2⟩, ⟨q1, q2, q3, q4⟩, u1, u2, u3, u4, u5, u6, u7, u8, u9, u10⟩ := hx; refine ⟨⟨?_, ?_⟩, ⟨?_, ?_, ?_, ?_⟩, ?_, ?_, ?_, ?_, ?_, ?_, ?_, ?_, ?_, ?_⟩ <;> first | with_reducible assumption | (dsimp only; with_reducible assumption) | with_reducible exact ringPut_wf _ _ _ _ m1 | (simp only [List.length_modify, List.length_map, List.length_set]; with_reducible assumption)))

theorem finishJob_inv {h : HalfId} {i : Nat} {j : Job} {s : State} (hs : s.Inv) :
    (finishJob h i j s).Inv := by
  unfold finishJob
  repeat' (first | with_reducible assumption | with_reducible refine event_inv ?_ | with_reducible refine updCanvas_inv ?_ | with_reducible refine removeIdle_inv ?_ | with_reducible refine releaseBoth_inv ?_ | with_reducible refine storeCanvas_inv ?_ | with_reducible refine handPicture_inv ?_ | with_reducible refine flushRepeats_inv ?_ | with_reducible refine upd_inv (fun x hx => ?_) ?_ | with_reducible refine foldl_inv (fun s a hs => ?_) ?_ | with_reducible refine foldlH_inv (fun x a hx => ?_) ?_ | with_reducible refine foldl_fst_inv (fun s a hs => ?_) ?_ | with_reducible refine half_inv ?_ _ | dsimp only | split | (obtain ⟨⟨m1, m2⟩, ⟨q1, q2, q3, q4⟩, u1, u2, u3, u4, u5, u6, u7, u8, u9, u10⟩ := hx; refine ⟨⟨?_, ?_⟩, ⟨?_, ?_, ?_, ?_⟩, ?_, ?_, ?_, ?_, ?_, ?_, ?_, ?_, ?_, ?_⟩ <;> first | with_reducible assumption | (dsimp only; with_reducible assumption) | with_reducible exact ringPut_wf _ _ _ _ m1 | (simp only [List.length_modify, List.length_map, List.length_set]; with_reducible assumption)))

/-! Encoding.lean -/

theorem updCluster_inv {k : Nat} {f : EncCluster → EncCluster} {x : Half} (hx : x.Inv) :
    (updCluster k f x).Inv := by
  unfold updCluster
  repeat' (first | with_reducible assumption | with_reducible refine half_inv ?_ _ | dsimp only | split | (obtain ⟨⟨m1, m2⟩, ⟨q1, q2, q3, q4⟩, u1, u2, u3, u4, u5, u6, u7, u8, u9, u10⟩ := hx; refine ⟨⟨?_, ?_⟩, ⟨?_, ?_, ?_, ?_⟩, ?_, ?_, ?_, ?_, ?_, ?_, ?_, ?_, ?_, ?_⟩ <;> first | with_reducible assumption | (dsimp only; with_reducible assumption) | with_reducible exact ringPut_wf _ _ _ _ m1 | (simp only [List.length_modify, List.length_map, List.length_set]; with_reducible assumption)))

theorem surgePicture_inv {h : HalfId} {k deferred : Nat} {s : State} (hs : s.Inv) :
    (surgePicture h k deferred s).Inv := by
  unfold surgePicture
  repeat' (first | with_reducible assumption | with_reducible refine event_inv ?_ | with_reducible refine updCluster_inv ?_ | with_reducible refine upd_inv (fun x hx => ?_) ?_ | with_reducible refine half_inv ?_ _ | dsimp only | split | (obtain ⟨⟨m1, m2⟩, ⟨q1, q2, q3, q4⟩, u1, u2, u3, u4, u5, u6, u7, u8, u9, u10⟩ := hx; refine ⟨⟨?_, ?_⟩, ⟨?_, ?_, ?_, ?_⟩, ?_, ?_, ?_, ?_, ?_, ?_, ?_, ?_, ?_, ?_⟩ <;> first | with_reducible assumption | (dsimp only; with_reducible assumption) | with_reducible exact ringPut_wf _ _ _ _ m1 | (simp only [List.length_modify, List.length_map, List.length_set]; with_reducible assumption)))

theorem markDefault_inv {h : HalfId} {r : Record} {kind time : Nat} {s : State} (hs : s.Inv) :
    (markDefault h r kind time s).Inv := by
  unfold markDefault
  repeat' (first | with_reducible assumption | with_reducible refine updEncode_inv ?_ | with_reducible refine upd_inv (fun x hx => ?_) ?_ | with_reducible refine half_inv ?_ _ | dsimp only | split | (obtain ⟨⟨m1, m2⟩, ⟨q1, q2, q3, q4⟩, u1, u2, u3, u4, u5, u6, u7, u8, u9, u10⟩ := hx; refine ⟨⟨?_, ?_⟩, ⟨?_, ?_, ?_, ?_⟩, ?_, ?_, ?_, ?_, ?_, ?_, ?_, ?_, ?_, ?_⟩ <;> first | with_reducible assumption | (dsimp only; with_reducible assumption) | with_reducible exact ringPut_wf _ _ _ _ m1 | (simp only [List.length_modify, List.length_map, List.length_set]; with_reducible assumption)))

theorem takeHeld_inv {h : HalfId} {kind : Nat} {stream : Handle} {a : AssistEntry} {bad : Bool} {p : List Byte} {s : State} (hs : s.Inv) :
    (takeHeld h kind stream a bad p s).Inv := by
  unfold takeHeld
  repeat' (first | with_reducible assumption | with_reducible refine assistLate_inv ?_ | with_reducible refine updEncode_inv ?_ | with_reducible refine markDefault_inv ?_ | with_reducible refine upd_inv (fun x hx => ?_) ?_ | with_reducible refine half_inv ?_ _ | dsimp only | split | (obtain ⟨⟨m1, m2⟩, ⟨q1, q2, q3, q4⟩, u1, u2, u3, u4, u5, u6, u7, u8, u9, u10⟩ := hx; refine ⟨⟨?_, ?_⟩, ⟨?_, ?_, ?_, ?_⟩, ?_, ?_, ?_, ?_, ?_, ?_, ?_, ?_, ?_, ?_⟩ <;> first | with_reducible assumption | (dsimp only; with_reducible assumption) | with_reducible exact ringPut_wf _ _ _ _ m1 | (simp only [List.length_modify, List.length_map, List.length_set]; with_reducible assumption)))

theorem encResume_inv {engine i : Nat} {x : Half} (hx : x.Inv) :
    (encResume engine i x).Inv := by
  unfold encResume
  repeat' (first | with_reducible assumption | with_reducible refine half_inv ?_ _ | dsimp only | split | (obtain ⟨⟨m1, m2⟩, ⟨q1, q2, q3, q4⟩, u1, u2, u3, u4, u5, u6, u7, u8, u9, u10⟩ := hx; refine ⟨⟨?_, ?_⟩, ⟨?_, ?_, ?_, ?_⟩, ?_, ?_, ?_, ?_, ?_, ?_, ?_, ?_, ?_, ?_⟩ <;> first | with_reducible assumption | (dsimp only; with_reducible assumption) | with_reducible exact ringPut_wf _ _ _ _ m1 | (simp only [List.length_modify, List.length_map, List.length_set]; with_reducible assumption)))

theorem unitsBegin_inv {es : List Nat} {x : Half} (hx : x.Inv) :
    (unitsBegin es x).Inv := by
  unfold unitsBegin
  repeat' (first | with_reducible assumption | with_reducible refine packetBegins_inv ?_ | with_reducible refine foldl_inv (fun s a hs => ?_) ?_ | with_reducible refine foldlH_inv (fun x a hx => ?_) ?_ | with_reducible refine foldl_fst_inv (fun s a hs => ?_) ?_ | with_reducible refine half_inv ?_ _ | dsimp only | split | (obtain ⟨⟨m1, m2⟩, ⟨q1, q2, q3, q4⟩, u1, u2, u3, u4, u5, u6, u7, u8, u9, u10⟩ := hx; refine ⟨⟨?_, ?_⟩, ⟨?_, ?_, ?_, ?_⟩, ?_, ?_, ?_, ?_, ?_, ?_, ?_, ?_, ?_, ?_⟩ <;> first | with_reducible assumption | (dsimp only; with_reducible assumption) | with_reducible exact ringPut_wf _ _ _ _ m1 | (simp only [List.length_modify, List.length_map, List.length_set]; with_reducible assumption)))

theorem rateDue_inv {h : HalfId} {i tick : Nat} {s : State} (hs : s.Inv) :
    (rateDue h i tick s).1.Inv := by
  unfold rateDue
  repeat' (first | with_reducible assumption | with_reducible refine event_inv ?_ | with_reducible refine updEncode_inv ?_ | with_reducible refine upd_inv (fun x hx => ?_) ?_ | with_reducible refine foldl_inv (fun s a hs => ?_) ?_ | with_reducible refine foldlH_inv (fun x a hx => ?_) ?_ | with_reducible refine foldl_fst_inv (fun s a hs => ?_) ?_ | with_reducible refine half_inv ?_ _ | dsimp only | split | (obtain ⟨⟨m1, m2⟩, ⟨q1, q2, q3, q4⟩, u1, u2, u3, u4, u5, u6, u7, u8, u9, u10⟩ := hx; refine ⟨⟨?_, ?_⟩, ⟨?_, ?_, ?_, ?_⟩, ?_, ?_, ?_, ?_, ?_, ?_, ?_, ?_, ?_, ?_⟩ <;> first | with_reducible assumption | (dsimp only; with_reducible assumption) | with_reducible exact ringPut_wf _ _ _ _ m1 | (simp only [List.length_modify, List.length_map, List.length_set]; with_reducible assumption)))

theorem foldModify_length {α : Type} (f : α → α) (ks : List Nat) (gs : List α) :
    (ks.foldl (fun gs k => gs.modify k f) gs).length = gs.length := by
  induction ks generalizing gs with
  | nil => rfl
  | cons k ks ih => exact (ih _).trans (List.length_modify _ _ _)

theorem enc_inv {x : Half} {l : List EngineSt} (hl : l.length = x.enc.length) (hx : x.Inv) : ({ x with enc := l } : Half).Inv := by
  obtain ⟨hm, hq, u1, hu⟩ := hx
  exact ⟨hm, hq, hl.trans u1, hu⟩

theorem startPicture_inv {h : HalfId} {engine i : Nat} {f : EncodeFacts} {s : State} (hs : s.Inv) : (startPicture h engine i f s).Inv := by
  unfold startPicture
  split
  · exact hs
  split
  · exact hs
  extract_lets sx now obj tick s1 s2 s3 q0 s4 x rs r e period behind repeated cause idr due sweep phase cols ctus whole blocks setCtus inCol old
    fixed ws ms gone pl plan fullSet intraCtu host past data hints motionMissing clean searched sp lead weight deltas cs ck skims bi q cap own asked t
    beta fit x1 qk under flat base qp w keptFull flat2 carried carriedCtus ages mean deferredN flags starts columns searches p mark share leads s5 s6 s7 s8 s9 s10 s11
  have h1 : s1.Inv := ite_inv (upd_inv (fun x hx => updEncode_inv hx) hs) hs
  have h2 : s2.Inv := ite_inv (event_inv h1) h1
  have h4 : s4.Inv := rateDue_inv (upd_inv (fun x hx => updEncode_inv hx) h2)
  refine ite_inv hs ?_
  have h5 : s5.Inv := upd_inv (fun x hx => updEncode_inv (unitsBegin_inv (enc_inv (foldModify_length _ _ _) (obj_inv hx)))) (State.tick1_inv h4)
  have h6 : s6.Inv := ite_inv (event_inv h5) h5
  have h7 : s7.Inv := foldl_inv (fun s a hs => event_inv hs) h6
  have h8 : s8.Inv := ite_inv (markDefault_inv h7) h7
  have h9 : s9.Inv := ite_inv (markDefault_inv h8) h8
  have h10 : s10.Inv := ite_inv (assistLate_inv h9) h9
  have h11 : s11.Inv := ite_inv (assistLate_inv h10) h10
  exact ite_inv (surgePicture_inv h11) h11

theorem rateOffer_inv {h : HalfId} {i : Nat} {p : EncPlan} {s : State} (hs : s.Inv) :
    (rateOffer h i p s).Inv := by
  unfold rateOffer
  repeat' (first | with_reducible assumption | with_reducible refine asrRequest_inv ?_ | with_reducible refine half_inv ?_ _ | dsimp only | split | (obtain ⟨⟨m1, m2⟩, ⟨q1, q2, q3, q4⟩, u1, u2, u3, u4, u5, u6, u7, u8, u9, u10⟩ := hx; refine ⟨⟨?_, ?_⟩, ⟨?_, ?_, ?_, ?_⟩, ?_, ?_, ?_, ?_, ?_, ?_, ?_, ?_, ?_, ?_⟩ <;> first | with_reducible assumption | (dsimp only; with_reducible assumption) | with_reducible exact ringPut_wf _ _ _ _ m1 | (simp only [List.length_modify, List.length_map, List.length_set]; with_reducible assumption)))

theorem twinRestartFor_inv {h : HalfId} {i base cause : Nat} {s : State} (hs : s.Inv) :
    (twinRestartFor h i base cause s).Inv := by
  unfold twinRestartFor
  repeat' (first | with_reducible assumption | with_reducible refine event_inv ?_ | with_reducible refine updEncode_inv ?_ | with_reducible refine upd_inv (fun x hx => ?_) ?_ | with_reducible refine half_inv ?_ _ | dsimp only | split | (obtain ⟨⟨m1, m2⟩, ⟨q1, q2, q3, q4⟩, u1, u2, u3, u4, u5, u6, u7, u8, u9, u10⟩ := hx; refine ⟨⟨?_, ?_⟩, ⟨?_, ?_, ?_, ?_⟩, ?_, ?_, ?_, ?_, ?_, ?_, ?_, ?_, ?_, ?_⟩ <;> first | with_reducible assumption | (dsimp only; with_reducible assumption) | with_reducible exact ringPut_wf _ _ _ _ m1 | (simp only [List.length_modify, List.length_map, List.length_set]; with_reducible assumption)))

theorem twinRestartAt_inv {h : HalfId} {i base : Nat} {s : State} (hs : s.Inv) :
    (twinRestartAt h i base s).Inv := by
  unfold twinRestartAt
  repeat' (first | with_reducible assumption | with_reducible refine twinRestartFor_inv ?_ | with_reducible refine half_inv ?_ _ | dsimp only | split | (obtain ⟨⟨m1, m2⟩, ⟨q1, q2, q3, q4⟩, u1, u2, u3, u4, u5, u6, u7, u8, u9, u10⟩ := hx; refine ⟨⟨?_, ?_⟩, ⟨?_, ?_, ?_, ?_⟩, ?_, ?_, ?_, ?_, ?_, ?_, ?_, ?_, ?_, ?_⟩ <;> first | with_reducible assumption | (dsimp only; with_reducible assumption) | with_reducible exact ringPut_wf _ _ _ _ m1 | (simp only [List.length_modify, List.length_map, List.length_set]; with_reducible assumption)))

theorem twinRestart_inv {h : HalfId} {i : Nat} {s : State} (hs : s.Inv) :
    (twinRestart h i s).Inv := by
  unfold twinRestart
  repeat' (first | with_reducible assumption | with_reducible refine twinRestartAt_inv ?_ | with_reducible refine half_inv ?_ _ | dsimp only | split | (obtain ⟨⟨m1, m2⟩, ⟨q1, q2, q3, q4⟩, u1, u2, u3, u4, u5, u6, u7, u8, u9, u10⟩ := hx; refine ⟨⟨?_, ?_⟩, ⟨?_, ?_, ?_, ?_⟩, ?_, ?_, ?_, ?_, ?_, ?_, ?_, ?_, ?_, ?_⟩ <;> first | with_reducible assumption | (dsimp only; with_reducible assumption) | with_reducible exact ringPut_wf _ _ _ _ m1 | (simp only [List.length_modify, List.length_map, List.length_set]; with_reducible assumption)))

theorem twinCompare_inv {h : HalfId} {i : Nat} {k own other : W32} {s : State} (hs : s.Inv) :
    (twinCompare h i k own other s).Inv := by
  unfold twinCompare
  repeat' (first | with_reducible assumption | with_reducible refine event_inv ?_ | with_reducible refine updEncode_inv ?_ | with_reducible refine twinRestart_inv ?_ | with_reducible refine upd_inv (fun x hx => ?_) ?_ | with_reducible refine half_inv ?_ _ | dsimp only | split | (obtain ⟨⟨m1, m2⟩, ⟨q1, q2, q3, q4⟩, u1, u2, u3, u4, u5, u6, u7, u8, u9, u10⟩ := hx; refine ⟨⟨?_, ?_⟩, ⟨?_, ?_, ?_, ?_⟩, ?_, ?_, ?_, ?_, ?_, ?_, ?_, ?_, ?_, ?_⟩ <;> first | with_reducible assumption | (dsimp only; with_reducible assumption) | with_reducible exact ringPut_wf _ _ _ _ m1 | (simp only [List.length_modify, List.length_map, List.length_set]; with_reducible assumption)))

theorem gangStalls_inv {h : HalfId} {i : Nat} {p : EncPlan} {s : State} (hs : s.Inv) :
    (gangStalls h i p s).Inv := by
  unfold gangStalls
  repeat' (first | with_reducible assumption | with_reducible refine event_inv ?_ | with_reducible refine updEncode_inv ?_ | with_reducible refine upd_inv (fun x hx => ?_) ?_ | with_reducible refine foldl_inv (fun s a hs => ?_) ?_ | with_reducible refine foldlH_inv (fun x a hx => ?_) ?_ | with_reducible refine foldl_fst_inv (fun s a hs => ?_) ?_ | with_reducible refine half_inv ?_ _ | dsimp only | split | (obtain ⟨⟨m1, m2⟩, ⟨q1, q2, q3, q4⟩, u1, u2, u3, u4, u5, u6, u7, u8, u9, u10⟩ := hx; refine ⟨⟨?_, ?_⟩, ⟨?_, ?_, ?_, ?_⟩, ?_, ?_, ?_, ?_, ?_, ?_, ?_, ?_, ?_, ?_⟩ <;> first | with_reducible assumption | (dsimp only; with_reducible assumption) | with_reducible exact ringPut_wf _ _ _ _ m1 | (simp only [List.length_modify, List.length_map, List.length_set]; with_reducible assumption)))

theorem enginesFree_inv {i : Nat} {x : Half} (hx : x.Inv) : (enginesFree i x).Inv :=
  enc_inv (List.length_map _) (foldlH_inv (fun x k hx => producerStops_inv hx) hx)

theorem countEncoded_inv {engine : Nat} {p : EncPlan} {x : Half} (hx : x.Inv) : (countEncoded engine p x).Inv := by
  unfold countEncoded
  extract_lets n x1 x2 x3
  have h1 : x1.Inv := foldlH_inv (fun x d hx => count_inv hx) hx
  have h3 : x3.Inv := count_inv (count_inv (count_inv (count_inv (count_inv (count_inv h1)))))
  exact count_inv (count_inv (count_inv (foldlH_inv (fun x q hx => count_inv hx) h3)))

theorem encodeDone_inv {h : HalfId} {engine : Nat} {e : EncodeSt} {p : EncPlan} {after : RateSt × Nat} {left : Int} {late : Bool} {x : Half}
    (hx : x.Inv) : (encodeDone h engine e p after left late x).Inv := by
  unfold encodeDone
  extract_lets i obj r now k x1 x2 x3 x4 x5
  have h2 : x2.Inv := iteH_inv (releasePicture_inv (updEncode_inv (enginesFree_inv hx))) (updEncode_inv (enginesFree_inv hx))
  have h3 : x3.Inv := by
    show Half.Inv (match placedAt x2 (rd r 68 4 % 0x10000) with
      | some q => devWrite (placeAddr q + e.k % 1024 * 64) (statsBytes obj e.k (p.handedAt.getD now) p left late) x2
      | none => x2)
    split
    · exact devWrite_inv h2
    · exact h2
  have h4 : x4.Inv := iteH_inv (updCluster_inv h3) h3
  exact countEncoded_inv (iteH_inv (updCluster_inv h4) h4)

theorem addDeferred_inv {h : HalfId} {op : Nat} {e : CmdEntry} {due : Nat} {s : State} (hs : s.Inv) :
    (addDeferred h op e due s).Inv := by
  unfold addDeferred
  repeat' (first | with_reducible assumption | with_reducible refine upd_inv (fun x hx => ?_) ?_ | with_reducible refine half_inv ?_ _ | dsimp only | split | (obtain ⟨⟨m1, m2⟩, ⟨q1, q2, q3, q4⟩, u1, u2, u3, u4, u5, u6, u7, u8, u9, u10⟩ := hx; refine ⟨⟨?_, ?_⟩, ⟨?_, ?_, ?_, ?_⟩, ?_, ?_, ?_, ?_, ?_, ?_, ?_, ?_, ?_, ?_⟩ <;> first | with_reducible assumption | (dsimp only; with_reducible assumption) | with_reducible exact ringPut_wf _ _ _ _ m1 | (simp only [List.length_modify, List.length_map, List.length_set]; with_reducible assumption)))

theorem addRefresh_inv {i kind cause tick : Nat} {x : Half} (hx : x.Inv) :
    (addRefresh i kind cause tick x).Inv := by
  unfold addRefresh
  repeat' (first | with_reducible assumption | with_reducible refine updEncode_inv ?_ | with_reducible refine half_inv ?_ _ | dsimp only | split | (obtain ⟨⟨m1, m2⟩, ⟨q1, q2, q3, q4⟩, u1, u2, u3, u4, u5, u6, u7, u8, u9, u10⟩ := hx; refine ⟨⟨?_, ?_⟩, ⟨?_, ?_, ?_, ?_⟩, ?_, ?_, ?_, ?_, ?_, ?_, ?_, ?_, ?_, ?_⟩ <;> first | with_reducible assumption | (dsimp only; with_reducible assumption) | with_reducible exact ringPut_wf _ _ _ _ m1 | (simp only [List.length_modify, List.length_map, List.length_set]; with_reducible assumption)))

theorem streamFeedback_inv {h : HalfId} {i : Nat} {s : State} (hs : s.Inv) :
    (streamFeedback h i s).Inv := by
  unfold streamFeedback
  repeat' (first | with_reducible assumption | with_reducible refine emit_inv ?_ | with_reducible refine updEncode_inv ?_ | with_reducible refine addRefresh_inv ?_ | with_reducible refine upd_inv (fun x hx => ?_) ?_ | with_reducible refine half_inv ?_ _ | dsimp only | split | (obtain ⟨⟨m1, m2⟩, ⟨q1, q2, q3, q4⟩, u1, u2, u3, u4, u5, u6, u7, u8, u9, u10⟩ := hx; refine ⟨⟨?_, ?_⟩, ⟨?_, ?_, ?_, ?_⟩, ?_, ?_, ?_, ?_, ?_, ?_, ?_, ?_, ?_, ?_⟩ <;> first | with_reducible assumption | (dsimp only; with_reducible assumption) | with_reducible exact ringPut_wf _ _ _ _ m1 | (simp only [List.length_modify, List.length_map, List.length_set]; with_reducible assumption)))

end Sys2Proof.Machine
end

