-- ==== Sys2Proof/Laws/KeepsNet.lean ====
section
/-!
SUPPORT. KeepsNet.lean: every operation of flows, pacing, ports and the PTP clock keeps the invariant of Safety.lean; one lemma per function.
-/
namespace Sys2Proof.Machine

set_option linter.all false
set_option linter.unusedTactic false
set_option linter.unreachableTactic false

/-! Flows.lean -/

theorem updFlowAt_inv {h : HalfId} {f : Handle} {g : FlowSt → FlowSt} {x : Half} (hx : x.Inv) :
    (updFlowAt h f g x).Inv := by
  unfold updFlowAt
  repeat' (first | with_reducible assumption | with_reducible refine updFlow_inv ?_ | with_reducible refine half_inv ?_ _ | dsimp only | split | (obtain ⟨⟨m1, m2⟩, ⟨q1, q2, q3, q4⟩, u1, u2, u3, u4, u5, u6, u7, u8, u9, u10⟩ := hx; refine ⟨⟨?_, ?_⟩, ⟨?_, ?_, ?_, ?_⟩, ?_, ?_, ?_, ?_, ?_, ?_, ?_, ?_, ?_, ?_⟩ <;> first | with_reducible assumption | (dsimp only; with_reducible assumption) | with_reducible exact ringPut_wf _ _ _ _ m1 | (simp only [List.length_modify, List.length_map, List.length_set]; with_reducible assumption)))

theorem updPort_inv {n : Nat} {f : PortSt → PortSt} {x : Half} (hx : x.Inv) :
    (updPort n f x).Inv := by
  unfold updPort
  repeat' (first | with_reducible assumption | with_reducible refine half_inv ?_ _ | dsimp only | split | (obtain ⟨⟨m1, m2⟩, ⟨q1, q2, q3, q4⟩, u1, u2, u3, u4, u5, u6, u7, u8, u9, u10⟩ := hx; refine ⟨⟨?_, ?_⟩, ⟨?_, ?_, ?_, ?_⟩, ?_, ?_, ?_, ?_, ?_, ?_, ?_, ?_, ?_, ?_⟩ <;> first | with_reducible assumption | (dsimp only; with_reducible assumption) | with_reducible exact ringPut_wf _ _ _ _ m1 | (simp only [List.length_modify, List.length_map, List.length_set]; with_reducible assumption)))

theorem chargeBucket_inv {h : HalfId} {flow : Handle} {f : FlowSt} {wire : Nat} {x : Half} (hx : x.Inv) :
    (chargeBucket h flow f wire x).Inv := by
  unfold chargeBucket
  repeat' (first | with_reducible assumption | with_reducible refine updShaper_inv ?_ | with_reducible refine updFlowAt_inv ?_ | with_reducible refine half_inv ?_ _ | dsimp only | split | (obtain ⟨⟨m1, m2⟩, ⟨q1, q2, q3, q4⟩, u1, u2, u3, u4, u5, u6, u7, u8, u9, u10⟩ := hx; refine ⟨⟨?_, ?_⟩, ⟨?_, ?_, ?_, ?_⟩, ?_, ?_, ?_, ?_, ?_, ?_, ?_, ?_, ?_, ?_⟩ <;> first | with_reducible assumption | (dsimp only; with_reducible assumption) | with_reducible exact ringPut_wf _ _ _ _ m1 | (simp only [List.length_modify, List.length_map, List.length_set]; with_reducible assumption)))

theorem undercoatEvent_inv {h : HalfId} {flow : Handle} {way cause : Nat} {seq : W16} {n : Nat} {s : State} (hs : s.Inv) :
    (undercoatEvent h flow way cause seq n s).Inv := by
  unfold undercoatEvent
  repeat' (first | with_reducible assumption | with_reducible refine event_inv ?_ | with_reducible refine half_inv ?_ _ | dsimp only | split | (obtain ⟨⟨m1, m2⟩, ⟨q1, q2, q3, q4⟩, u1, u2, u3, u4, u5, u6, u7, u8, u9, u10⟩ := hx; refine ⟨⟨?_, ?_⟩, ⟨?_, ?_, ?_, ?_⟩, ?_, ?_, ?_, ?_, ?_, ?_, ?_, ?_, ?_, ?_⟩ <;> first | with_reducible assumption | (dsimp only; with_reducible assumption) | with_reducible exact ringPut_wf _ _ _ _ m1 | (simp only [List.length_modify, List.length_map, List.length_set]; with_reducible assumption)))

theorem undercoatPackets_inv {h : HalfId} {flow : Handle} {picture tick : Nat} {sizes : List Nat} {x : Half} (hx : x.Inv) :
    (undercoatPackets h flow picture tick sizes x).Inv := by
  unfold undercoatPackets
  repeat' (first | with_reducible assumption | with_reducible refine updFlowAt_inv ?_ | with_reducible refine half_inv ?_ _ | dsimp only | split | (obtain ⟨⟨m1, m2⟩, ⟨q1, q2, q3, q4⟩, u1, u2, u3, u4, u5, u6, u7, u8, u9, u10⟩ := hx; refine ⟨⟨?_, ?_⟩, ⟨?_, ?_, ?_, ?_⟩, ?_, ?_, ?_, ?_, ?_, ?_, ?_, ?_, ?_, ?_⟩ <;> first | with_reducible assumption | (dsimp only; with_reducible assumption) | with_reducible exact ringPut_wf _ _ _ _ m1 | (simp only [List.length_modify, List.length_map, List.length_set]; with_reducible assumption)))

theorem finishOpen_inv {h : HalfId} {flow : Handle} {s : State} (hs : s.Inv) : (finishOpen h flow s).Inv := by
  unfold finishOpen
  split
  · exact hs
  split
  · exact hs
  split
  · exact hs
  split
  · exact upd_inv (fun x hx => updFlowAt_inv hx) hs
  · exact upd_inv (fun x hx => updFlowAt_inv hx) (free_inv (upd_inv (fun x hx => undercoatPackets_inv hx) (emit_inv hs)))

theorem enterUndercoat_inv {h : HalfId} {flow : Handle} {cause : Nat} {s : State} (hs : s.Inv) :
    (enterUndercoat h flow cause s).Inv := by
  unfold enterUndercoat
  repeat' (first | with_reducible assumption | with_reducible refine updFlowAt_inv ?_ | with_reducible refine undercoatEvent_inv ?_ | with_reducible refine finishOpen_inv ?_ | with_reducible refine upd_inv (fun x hx => ?_) ?_ | with_reducible refine half_inv ?_ _ | dsimp only | split | (obtain ⟨⟨m1, m2⟩, ⟨q1, q2, q3, q4⟩, u1, u2, u3, u4, u5, u6, u7, u8, u9, u10⟩ := hx; refine ⟨⟨?_, ?_⟩, ⟨?_, ?_, ?_, ?_⟩, ?_, ?_, ?_, ?_, ?_, ?_, ?_, ?_, ?_, ?_⟩ <;> first | with_reducible assumption | (dsimp only; with_reducible assumption) | with_reducible exact ringPut_wf _ _ _ _ m1 | (simp only [List.length_modify, List.length_map, List.length_set]; with_reducible assumption)))

theorem leaveUndercoat_inv {h : HalfId} {flow : Handle} {s : State} (hs : s.Inv) :
    (leaveUndercoat h flow s).Inv := by
  unfold leaveUndercoat
  repeat' (first | with_reducible assumption | with_reducible refine updFlowAt_inv ?_ | with_reducible refine undercoatEvent_inv ?_ | with_reducible refine upd_inv (fun x hx => ?_) ?_ | with_reducible refine half_inv ?_ _ | dsimp only | split | (obtain ⟨⟨m1, m2⟩, ⟨q1, q2, q3, q4⟩, u1, u2, u3, u4, u5, u6, u7, u8, u9, u10⟩ := hx; refine ⟨⟨?_, ?_⟩, ⟨?_, ?_, ?_, ?_⟩, ?_, ?_, ?_, ?_, ?_, ?_, ?_, ?_, ?_, ?_⟩ <;> first | with_reducible assumption | (dsimp only; with_reducible assumption) | with_reducible exact ringPut_wf _ _ _ _ m1 | (simp only [List.length_modify, List.length_map, List.length_set]; with_reducible assumption)))

theorem strand_inv {h : HalfId} {flow : Handle} {cause : Nat} {s : State} (hs : s.Inv) :
    (strand h flow cause s).Inv := by
  unfold strand
  repeat' (first | with_reducible assumption | with_reducible refine event_inv ?_ | with_reducible refine updFlowAt_inv ?_ | with_reducible refine upd_inv (fun x hx => ?_) ?_ | with_reducible refine half_inv ?_ _ | dsimp only | split | (obtain ⟨⟨m1, m2⟩, ⟨q1, q2, q3, q4⟩, u1, u2, u3, u4, u5, u6, u7, u8, u9, u10⟩ := hx; refine ⟨⟨?_, ?_⟩, ⟨?_, ?_, ?_, ?_⟩, ?_, ?_, ?_, ?_, ?_, ?_, ?_, ?_, ?_, ?_⟩ <;> first | with_reducible assumption | (dsimp only; with_reducible assumption) | with_reducible exact ringPut_wf _ _ _ _ m1 | (simp only [List.length_modify, List.length_map, List.length_set]; with_reducible assumption)))

theorem movedEvent_inv {h : HalfId} {flow src dst : Handle} {cause : Nat} {seq : W16} {s : State} (hs : s.Inv) :
    (movedEvent h flow src dst cause seq s).Inv := by
  unfold movedEvent
  repeat' (first | with_reducible assumption | with_reducible refine event_inv ?_ | with_reducible refine half_inv ?_ _ | dsimp only | split | (obtain ⟨⟨m1, m2⟩, ⟨q1, q2, q3, q4⟩, u1, u2, u3, u4, u5, u6, u7, u8, u9, u10⟩ := hx; refine ⟨⟨?_, ?_⟩, ⟨?_, ?_, ?_, ?_⟩, ?_, ?_, ?_, ?_, ?_, ?_, ?_, ?_, ?_, ?_⟩ <;> first | with_reducible assumption | (dsimp only; with_reducible assumption) | with_reducible exact ringPut_wf _ _ _ _ m1 | (simp only [List.length_modify, List.length_map, List.length_set]; with_reducible assumption)))

theorem flowTo_inv {h : HalfId} {flow dst : Handle} {cause : Nat} {s : State} (hs : s.Inv) :
    (flowTo h flow dst cause s).Inv := by
  unfold flowTo
  repeat' (first | with_reducible assumption | with_reducible refine updFlowAt_inv ?_ | with_reducible refine movedEvent_inv ?_ | with_reducible refine upd_inv (fun x hx => ?_) ?_ | with_reducible refine half_inv ?_ _ | dsimp only | split | (obtain ⟨⟨m1, m2⟩, ⟨q1, q2, q3, q4⟩, u1, u2, u3, u4, u5, u6, u7, u8, u9, u10⟩ := hx; refine ⟨⟨?_, ?_⟩, ⟨?_, ?_, ?_, ?_⟩, ?_, ?_, ?_, ?_, ?_, ?_, ?_, ?_, ?_, ?_⟩ <;> first | with_reducible assumption | (dsimp only; with_reducible assumption) | with_reducible exact ringPut_wf _ _ _ _ m1 | (simp only [List.length_modify, List.length_map, List.length_set]; with_reducible assumption)))

theorem activate_inv {h : HalfId} {flow : Handle} {s : State} (hs : s.Inv) :
    (activate h flow s).Inv := by
  unfold activate
  repeat' (first | with_reducible assumption | with_reducible refine count_inv ?_ | with_reducible refine event_inv ?_ | with_reducible refine updFlowAt_inv ?_ | with_reducible refine upd_inv (fun x hx => ?_) ?_ | with_reducible refine half_inv ?_ _ | dsimp only | split | (obtain ⟨⟨m1, m2⟩, ⟨q1, q2, q3, q4⟩, u1, u2, u3, u4, u5, u6, u7, u8, u9, u10⟩ := hx; refine ⟨⟨?_, ?_⟩, ⟨?_, ?_, ?_, ?_⟩, ?_, ?_, ?_, ?_, ?_, ?_, ?_, ?_, ?_, ?_⟩ <;> first | with_reducible assumption | (dsimp only; with_reducible assumption) | with_reducible exact ringPut_wf _ _ _ _ m1 | (simp only [List.length_modify, List.length_map, List.length_set]; with_reducible assumption)))

theorem twinSwitch_inv {h : HalfId} {flow : Handle} {s : State} (hs : s.Inv) :
    (twinSwitch h flow s).Inv := by
  unfold twinSwitch
  repeat' (first | with_reducible assumption | with_reducible refine count_inv ?_ | with_reducible refine event_inv ?_ | with_reducible refine updFlowAt_inv ?_ | with_reducible refine upd_inv (fun x hx => ?_) ?_ | with_reducible refine half_inv ?_ _ | dsimp only | split | (obtain ⟨⟨m1, m2⟩, ⟨q1, q2, q3, q4⟩, u1, u2, u3, u4, u5, u6, u7, u8, u9, u10⟩ := hx; refine ⟨⟨?_, ?_⟩, ⟨?_, ?_, ?_, ?_⟩, ?_, ?_, ?_, ?_, ?_, ?_, ?_, ?_, ?_, ?_⟩ <;> first | with_reducible assumption | (dsimp only; with_reducible assumption) | with_reducible exact ringPut_wf _ _ _ _ m1 | (simp only [List.length_modify, List.length_map, List.length_set]; with_reducible assumption)))

theorem moveFlow_inv {h : HalfId} {flow : Handle} {cause : Nat} {s : State} (hs : s.Inv) :
    (moveFlow h flow cause s).Inv := by
  unfold moveFlow
  repeat' (first | with_reducible assumption | with_reducible refine updFlowAt_inv ?_ | with_reducible refine strand_inv ?_ | with_reducible refine flowTo_inv ?_ | with_reducible refine activate_inv ?_ | with_reducible refine upd_inv (fun x hx => ?_) ?_ | with_reducible refine half_inv ?_ _ | dsimp only | split | (obtain ⟨⟨m1, m2⟩, ⟨q1, q2, q3, q4⟩, u1, u2, u3, u4, u5, u6, u7, u8, u9, u10⟩ := hx; refine ⟨⟨?_, ?_⟩, ⟨?_, ?_, ?_, ?_⟩, ?_, ?_, ?_, ?_, ?_, ?_, ?_, ?_, ?_, ?_⟩ <;> first | with_reducible assumption | (dsimp only; with_reducible assumption) | with_reducible exact ringPut_wf _ _ _ _ m1 | (simp only [List.length_modify, List.length_map, List.length_set]; with_reducible assumption)))

theorem portLost_inv {h : HalfId} {n : Nat} {s : State} (hs : s.Inv) :
    (portLost h n s).Inv := by
  unfold portLost
  repeat' (first | with_reducible assumption | with_reducible refine moveFlow_inv ?_ | with_reducible refine foldl_inv (fun s a hs => ?_) ?_ | with_reducible refine foldlH_inv (fun x a hx => ?_) ?_ | with_reducible refine foldl_fst_inv (fun s a hs => ?_) ?_ | with_reducible refine half_inv ?_ _ | dsimp only | split | (obtain ⟨⟨m1, m2⟩, ⟨q1, q2, q3, q4⟩, u1, u2, u3, u4, u5, u6, u7, u8, u9, u10⟩ := hx; refine ⟨⟨?_, ?_⟩, ⟨?_, ?_, ?_, ?_⟩, ?_, ?_, ?_, ?_, ?_, ?_, ?_, ?_, ?_, ?_⟩ <;> first | with_reducible assumption | (dsimp only; with_reducible assumption) | with_reducible exact ringPut_wf _ _ _ _ m1 | (simp only [List.length_modify, List.length_map, List.length_set]; with_reducible assumption)))

theorem pairRenumber_inv {h : HalfId} {flow : Handle} {sent : W16} {s : State} (hs : s.Inv) :
    (pairRenumber h flow sent s).Inv := by
  unfold pairRenumber
  repeat' (first | with_reducible assumption | with_reducible refine updFlowAt_inv ?_ | with_reducible refine upd_inv (fun x hx => ?_) ?_ | with_reducible refine half_inv ?_ _ | dsimp only | split | (obtain ⟨⟨m1, m2⟩, ⟨q1, q2, q3, q4⟩, u1, u2, u3, u4, u5, u6, u7, u8, u9, u10⟩ := hx; refine ⟨⟨?_, ?_⟩, ⟨?_, ?_, ?_, ?_⟩, ?_, ?_, ?_, ?_, ?_, ?_, ?_, ?_, ?_, ?_⟩ <;> first | with_reducible assumption | (dsimp only; with_reducible assumption) | with_reducible exact ringPut_wf _ _ _ _ m1 | (simp only [List.length_modify, List.length_map, List.length_set]; with_reducible assumption)))

theorem flowResumes_inv {h : HalfId} {flow p : Handle} {s : State} (hs : s.Inv) :
    (flowResumes h flow p s).Inv := by
  unfold flowResumes
  repeat' (first | with_reducible assumption | with_reducible refine updFlowAt_inv ?_ | with_reducible refine flowTo_inv ?_ | with_reducible refine pairRenumber_inv ?_ | with_reducible refine upd_inv (fun x hx => ?_) ?_ | with_reducible refine half_inv ?_ _ | dsimp only | split | (obtain ⟨⟨m1, m2⟩, ⟨q1, q2, q3, q4⟩, u1, u2, u3, u4, u5, u6, u7, u8, u9, u10⟩ := hx; refine ⟨⟨?_, ?_⟩, ⟨?_, ?_, ?_, ?_⟩, ?_, ?_, ?_, ?_, ?_, ?_, ?_, ?_, ?_, ?_⟩ <;> first | with_reducible assumption | (dsimp only; with_reducible assumption) | with_reducible exact ringPut_wf _ _ _ _ m1 | (simp only [List.length_modify, List.length_map, List.length_set]; with_reducible assumption)))

theorem standbyResumes_inv {h : HalfId} {flow : Handle} {s : State} (hs : s.Inv) :
    (standbyResumes h flow s).Inv := by
  unfold standbyResumes
  repeat' (first | with_reducible assumption | with_reducible refine updFlowAt_inv ?_ | with_reducible refine activate_inv ?_ | with_reducible refine pairRenumber_inv ?_ | with_reducible refine upd_inv (fun x hx => ?_) ?_ | with_reducible refine half_inv ?_ _ | dsimp only | split | (obtain ⟨⟨m1, m2⟩, ⟨q1, q2, q3, q4⟩, u1, u2, u3, u4, u5, u6, u7, u8, u9, u10⟩ := hx; refine ⟨⟨?_, ?_⟩, ⟨?_, ?_, ?_, ?_⟩, ?_, ?_, ?_, ?_, ?_, ?_, ?_, ?_, ?_, ?_⟩ <;> first | with_reducible assumption | (dsimp only; with_reducible assumption) | with_reducible exact ringPut_wf _ _ _ _ m1 | (simp only [List.length_modify, List.length_map, List.length_set]; with_reducible assumption)))

theorem portBack_inv {h : HalfId} {n : Nat} {s : State} (hs : s.Inv) :
    (portBack h n s).Inv := by
  unfold portBack
  repeat' (first | with_reducible assumption | with_reducible refine flowResumes_inv ?_ | with_reducible refine standbyResumes_inv ?_ | with_reducible refine foldl_inv (fun s a hs => ?_) ?_ | with_reducible refine foldlH_inv (fun x a hx => ?_) ?_ | with_reducible refine foldl_fst_inv (fun s a hs => ?_) ?_ | with_reducible refine half_inv ?_ _ | dsimp only | split | (obtain ⟨⟨m1, m2⟩, ⟨q1, q2, q3, q4⟩, u1, u2, u3, u4, u5, u6, u7, u8, u9, u10⟩ := hx; refine ⟨⟨?_, ?_⟩, ⟨?_, ?_, ?_, ?_⟩, ?_, ?_, ?_, ?_, ?_, ?_, ?_, ?_, ?_, ?_⟩ <;> first | with_reducible assumption | (dsimp only; with_reducible assumption) | with_reducible exact ringPut_wf _ _ _ _ m1 | (simp only [List.length_modify, List.length_map, List.length_set]; with_reducible assumption)))

theorem sourceLost_inv {h : HalfId} {stream : Handle} {cause : Nat} {s : State} (hs : s.Inv) :
    (sourceLost h stream cause s).Inv := by
  unfold sourceLost
  repeat' (first | with_reducible assumption | with_reducible refine enterUndercoat_inv ?_ | with_reducible refine twinSwitch_inv ?_ | with_reducible refine foldl_inv (fun s a hs => ?_) ?_ | with_reducible refine foldlH_inv (fun x a hx => ?_) ?_ | with_reducible refine foldl_fst_inv (fun s a hs => ?_) ?_ | with_reducible refine half_inv ?_ _ | dsimp only | split | (obtain ⟨⟨m1, m2⟩, ⟨q1, q2, q3, q4⟩, u1, u2, u3, u4, u5, u6, u7, u8, u9, u10⟩ := hx; refine ⟨⟨?_, ?_⟩, ⟨?_, ?_, ?_, ?_⟩, ?_, ?_, ?_, ?_, ?_, ?_, ?_, ?_, ?_, ?_⟩ <;> first | with_reducible assumption | (dsimp only; with_reducible assumption) | with_reducible exact ringPut_wf _ _ _ _ m1 | (simp only [List.length_modify, List.length_map, List.length_set]; with_reducible assumption)))

/-! Pacing.lean -/

theorem switchFlow_inv {h : HalfId} {p : PendingEnv} {flow : Handle} {s : State} (hs : s.Inv) : (switchFlow h p flow s).Inv := by
  unfold switchFlow
  extract_lets +onlyGivenNames old s1
  have h1 : s1.Inv := upd_inv (fun x hx => leaveTakeover_inv hx) hs
  split
  · exact h1
  · extract_lets +onlyGivenNames x active fresh same prm s2 s3
    have h2 : s2.Inv := upd_inv (fun x hx => updFlowAt_inv hx) (free_inv h1)
    refine takeoverCheck_inv ?_
    dsimp only [s3]
    split
    · exact moveFlow_inv h2
    · exact h2

theorem markBacklog_inv {h : HalfId} {p : Handle} {c : Nat} {x : Half} (hx : x.Inv) :
    (markBacklog h p c x).Inv := by
  unfold markBacklog
  repeat' (first | with_reducible assumption | with_reducible refine updPort_inv ?_ | with_reducible refine half_inv ?_ _ | dsimp only | split | (obtain ⟨⟨m1, m2⟩, ⟨q1, q2, q3, q4⟩, u1, u2, u3, u4, u5, u6, u7, u8, u9, u10⟩ := hx; refine ⟨⟨?_, ?_⟩, ⟨?_, ?_, ?_, ?_⟩, ?_, ?_, ?_, ?_, ?_, ?_, ?_, ?_, ?_, ?_⟩ <;> first | with_reducible assumption | (dsimp only; with_reducible assumption) | with_reducible exact ringPut_wf _ _ _ _ m1 | (simp only [List.length_modify, List.length_map, List.length_set]; with_reducible assumption)))

theorem dropUnit_inv {h : HalfId} {flow : Handle} {n : Nat} {unresolved : Bool} {s : State} (hs : s.Inv) :
    (dropUnit h flow n unresolved s).Inv := by
  unfold dropUnit
  repeat' (first | with_reducible assumption | with_reducible refine updFlowAt_inv ?_ | with_reducible refine upd_inv (fun x hx => ?_) ?_ | with_reducible refine half_inv ?_ _ | dsimp only | split | (obtain ⟨⟨m1, m2⟩, ⟨q1, q2, q3, q4⟩, u1, u2, u3, u4, u5, u6, u7, u8, u9, u10⟩ := hx; refine ⟨⟨?_, ?_⟩, ⟨?_, ?_, ?_, ?_⟩, ?_, ?_, ?_, ?_, ?_, ?_, ?_, ?_, ?_, ?_⟩ <;> first | with_reducible assumption | (dsimp only; with_reducible assumption) | with_reducible exact ringPut_wf _ _ _ _ m1 | (simp only [List.length_modify, List.length_map, List.length_set]; with_reducible assumption)))

theorem unresolvedEvent_inv {h : HalfId} {flow : Handle} {n : Nat} {r : Record} {s : State} (hs : s.Inv) :
    (unresolvedEvent h flow n r s).Inv := by
  unfold unresolvedEvent
  repeat' (first | with_reducible assumption | with_reducible refine event_inv ?_ | with_reducible refine updFlowAt_inv ?_ | with_reducible refine upd_inv (fun x hx => ?_) ?_ | with_reducible refine half_inv ?_ _ | dsimp only | split | (obtain ⟨⟨m1, m2⟩, ⟨q1, q2, q3, q4⟩, u1, u2, u3, u4, u5, u6, u7, u8, u9, u10⟩ := hx; refine ⟨⟨?_, ?_⟩, ⟨?_, ?_, ?_, ?_⟩, ?_, ?_, ?_, ?_, ?_, ?_, ?_, ?_, ?_, ?_⟩ <;> first | with_reducible assumption | (dsimp only; with_reducible assumption) | with_reducible exact ringPut_wf _ _ _ _ m1 | (simp only [List.length_modify, List.length_map, List.length_set]; with_reducible assumption)))

theorem scheduleCheck_inv {h : HalfId} {flow : Handle} {picture tick : Nat} {s : State} (hs : s.Inv) :
    (scheduleCheck h flow picture tick s).Inv := by
  unfold scheduleCheck
  repeat' (first | with_reducible assumption | with_reducible refine assistLate_inv ?_ | with_reducible refine half_inv ?_ _ | dsimp only | split | (obtain ⟨⟨m1, m2⟩, ⟨q1, q2, q3, q4⟩, u1, u2, u3, u4, u5, u6, u7, u8, u9, u10⟩ := hx; refine ⟨⟨?_, ?_⟩, ⟨?_, ?_, ?_, ?_⟩, ?_, ?_, ?_, ?_, ?_, ?_, ?_, ?_, ?_, ?_⟩ <;> first | with_reducible assumption | (dsimp only; with_reducible assumption) | with_reducible exact ringPut_wf _ _ _ _ m1 | (simp only [List.length_modify, List.length_map, List.length_set]; with_reducible assumption)))

theorem flowUnit_inv {h : HalfId} {flow : Handle} {k : Nat} {p : EncPlan} {u : CodedUnit} {s : State} (hs : s.Inv) :
    (flowUnit h flow k p u s).Inv := by
  unfold flowUnit
  split
  · exact hs
  extract_lets +onlyGivenNames first
  split
  · exact hs
  extract_lets +onlyGivenNames s1 s2 s3 x
  have h1 : s1.Inv := by
    dsimp only [s1]
    split
    · exact leaveUndercoat_inv hs
    · exact hs
  have h2 : s2.Inv := by
    show State.Inv (match (if first then pendTouches (s1.half h) flow else none) with
      | some q => if q.armed && q.takeTime ≤ p.tickTime then switchFlow h q flow s1 else s1
      | none => s1)
    split
    · split
      · exact switchFlow_inv h1
      · exact h1
    · exact h1
  have h3 : s3.Inv := by
    dsimp only [s3]
    split
    · exact upd_inv (fun x hx => updFlowAt_inv hx) h2
    · exact h2
  split
  · exact h3
  extract_lets +onlyGivenNames r port sizes
  split
  · exact h3
  split
  · exact dropUnit_inv (upd_inv (fun x hx => updFlowAt_inv hx) h3)
  split
  · exact unresolvedEvent_inv (dropUnit_inv h3)
  · extract_lets cueFlag left ann forms pk a young s4 s5 s6 copy
    have h4 : s4.Inv := upd_inv (fun x hx => markBacklog_inv (updFlowAt_inv hx)) h3
    have h5 : s5.Inv := by
      dsimp only [s5]
      split
      · exact scheduleCheck_inv h4
      · exact h4
    have h6 : s6.Inv := by
      dsimp only [s6]
      split
      · exact emit_inv h5
      · exact h5
    split
    · exact foldl_inv (fun s q hs => emit_inv hs) h6
    · exact h6

theorem handUnit_inv {h : HalfId} {e : EncodeSt} {p : EncPlan} {engine : Nat} {s : State} {u : CodedUnit} (hs : s.Inv) :
    (handUnit h e p engine s u).Inv := by
  unfold handUnit
  repeat' (first | with_reducible assumption | with_reducible refine count_inv ?_ | with_reducible refine updEncode_inv ?_ | with_reducible refine packetBegins_inv ?_ | with_reducible refine packetCrosses_inv ?_ | with_reducible refine flowUnit_inv ?_ | with_reducible refine upd_inv (fun x hx => ?_) ?_ | with_reducible refine foldl_inv (fun s a hs => ?_) ?_ | with_reducible refine foldlH_inv (fun x a hx => ?_) ?_ | with_reducible refine foldl_fst_inv (fun s a hs => ?_) ?_ | with_reducible refine half_inv ?_ _ | dsimp only | split | (obtain ⟨⟨m1, m2⟩, ⟨q1, q2, q3, q4⟩, u1, u2, u3, u4, u5, u6, u7, u8, u9, u10⟩ := hx; refine ⟨⟨?_, ?_⟩, ⟨?_, ?_, ?_, ?_⟩, ?_, ?_, ?_, ?_, ?_, ?_, ?_, ?_, ?_, ?_⟩ <;> first | with_reducible assumption | (dsimp only; with_reducible assumption) | with_reducible exact ringPut_wf _ _ _ _ m1 | (simp only [List.length_modify, List.length_map, List.length_set]; with_reducible assumption)))

theorem markLatency_inv {h : HalfId} {c : Candidate} {s : State} (hs : s.Inv) :
    (markLatency h c s).Inv := by
  unfold markLatency
  repeat' (first | with_reducible assumption | with_reducible refine event_inv ?_ | with_reducible refine updFlowAt_inv ?_ | with_reducible refine upd_inv (fun x hx => ?_) ?_ | with_reducible refine half_inv ?_ _ | dsimp only | split | (obtain ⟨⟨m1, m2⟩, ⟨q1, q2, q3, q4⟩, u1, u2, u3, u4, u5, u6, u7, u8, u9, u10⟩ := hx; refine ⟨⟨?_, ?_⟩, ⟨?_, ?_, ?_, ?_⟩, ?_, ?_, ?_, ?_, ?_, ?_, ?_, ?_, ?_, ?_⟩ <;> first | with_reducible assumption | (dsimp only; with_reducible assumption) | with_reducible exact ringPut_wf _ _ _ _ m1 | (simp only [List.length_modify, List.length_map, List.length_set]; with_reducible assumption)))

theorem moveNow_inv {h : HalfId} {flow : Handle} {s : State} (hs : s.Inv) :
    (moveNow h flow s).Inv := by
  unfold moveNow
  repeat' (first | with_reducible assumption | with_reducible refine updFlowAt_inv ?_ | with_reducible refine flowTo_inv ?_ | with_reducible refine upd_inv (fun x hx => ?_) ?_ | with_reducible refine half_inv ?_ _ | dsimp only | split | (obtain ⟨⟨m1, m2⟩, ⟨q1, q2, q3, q4⟩, u1, u2, u3, u4, u5, u6, u7, u8, u9, u10⟩ := hx; refine ⟨⟨?_, ?_⟩, ⟨?_, ?_, ?_, ?_⟩, ?_, ?_, ?_, ?_, ?_, ?_, ?_, ?_, ?_, ?_⟩ <;> first | with_reducible assumption | (dsimp only; with_reducible assumption) | with_reducible exact ringPut_wf _ _ _ _ m1 | (simp only [List.length_modify, List.length_map, List.length_set]; with_reducible assumption)))

theorem pictureSent_inv {h : HalfId} {flow : Handle} {s : State} (hs : s.Inv) :
    (pictureSent h flow s).Inv := by
  unfold pictureSent
  repeat' (first | with_reducible assumption | with_reducible refine emit_inv ?_ | with_reducible refine twinSwitch_inv ?_ | with_reducible refine moveNow_inv ?_ | with_reducible refine half_inv ?_ _ | dsimp only | split | (obtain ⟨⟨m1, m2⟩, ⟨q1, q2, q3, q4⟩, u1, u2, u3, u4, u5, u6, u7, u8, u9, u10⟩ := hx; refine ⟨⟨?_, ?_⟩, ⟨?_, ?_, ?_, ?_⟩, ?_, ?_, ?_, ?_, ?_, ?_, ?_, ?_, ?_, ?_⟩ <;> first | with_reducible assumption | (dsimp only; with_reducible assumption) | with_reducible exact ringPut_wf _ _ _ _ m1 | (simp only [List.length_modify, List.length_map, List.length_set]; with_reducible assumption)))

theorem startPacket_inv {h : HalfId} {n : Nat} {c : Candidate} {s : State} (hs : s.Inv) :
    (startPacket h n c s).Inv := by
  unfold startPacket
  repeat' (first | with_reducible assumption | with_reducible refine emit_inv ?_ | with_reducible refine count_inv ?_ | with_reducible refine removeIdle_inv ?_ | with_reducible refine updFlowAt_inv ?_ | with_reducible refine updPort_inv ?_ | with_reducible refine chargeBucket_inv ?_ | with_reducible refine markLatency_inv ?_ | with_reducible refine pictureSent_inv ?_ | with_reducible refine upd_inv (fun x hx => ?_) ?_ | with_reducible refine half_inv ?_ _ | dsimp only | split | (obtain ⟨⟨m1, m2⟩, ⟨q1, q2, q3, q4⟩, u1, u2, u3, u4, u5, u6, u7, u8, u9, u10⟩ := hx; refine ⟨⟨?_, ?_⟩, ⟨?_, ?_, ?_, ?_⟩, ?_, ?_, ?_, ?_, ?_, ?_, ?_, ?_, ?_, ?_⟩ <;> first | with_reducible assumption | (dsimp only; with_reducible assumption) | with_reducible exact ringPut_wf _ _ _ _ m1 | (simp only [List.length_modify, List.length_map, List.length_set]; with_reducible assumption)))

theorem gateArm_inv {r : Record} {base t cause : Nat} {x : Half} (hx : x.Inv) :
    (gateArm r base t cause x).1.Inv := by
  unfold gateArm
  repeat' (first | with_reducible assumption | with_reducible refine updPort_inv ?_ | with_reducible refine half_inv ?_ _ | dsimp only | split | (obtain ⟨⟨m1, m2⟩, ⟨q1, q2, q3, q4⟩, u1, u2, u3, u4, u5, u6, u7, u8, u9, u10⟩ := hx; refine ⟨⟨?_, ?_⟩, ⟨?_, ?_, ?_, ?_⟩, ?_, ?_, ?_, ?_, ?_, ?_, ?_, ?_, ?_, ?_⟩ <;> first | with_reducible assumption | (dsimp only; with_reducible assumption) | with_reducible exact ringPut_wf _ _ _ _ m1 | (simp only [List.length_modify, List.length_map, List.length_set]; with_reducible assumption)))

theorem shaperApply_inv {h : HalfId} {sh : Handle} {rate burst limit : Nat} {s : State} (hs : s.Inv) :
    (shaperApply h sh rate burst limit s).Inv := by
  unfold shaperApply
  repeat' (first | with_reducible assumption | with_reducible refine event_inv ?_ | with_reducible refine updShaper_inv ?_ | with_reducible refine updFlowAt_inv ?_ | with_reducible refine upd_inv (fun x hx => ?_) ?_ | with_reducible refine foldl_inv (fun s a hs => ?_) ?_ | with_reducible refine foldlH_inv (fun x a hx => ?_) ?_ | with_reducible refine foldl_fst_inv (fun s a hs => ?_) ?_ | with_reducible refine half_inv ?_ _ | dsimp only | split | (obtain ⟨⟨m1, m2⟩, ⟨q1, q2, q3, q4⟩, u1, u2, u3, u4, u5, u6, u7, u8, u9, u10⟩ := hx; refine ⟨⟨?_, ?_⟩, ⟨?_, ?_, ?_, ?_⟩, ?_, ?_, ?_, ?_, ?_, ?_, ?_, ?_, ?_, ?_⟩ <;> first | with_reducible assumption | (dsimp only; with_reducible assumption) | with_reducible exact ringPut_wf _ _ _ _ m1 | (simp only [List.length_modify, List.length_map, List.length_set]; with_reducible assumption)))

theorem shaperSetDo_inv {h : HalfId} {e : CmdEntry} {s : State} (hs : s.Inv) :
    (shaperSetDo h e s).Inv := by
  unfold shaperSetDo
  repeat' (first | with_reducible assumption | with_reducible refine shaperApply_inv ?_ | with_reducible refine half_inv ?_ _ | dsimp only | split | (obtain ⟨⟨m1, m2⟩, ⟨q1, q2, q3, q4⟩, u1, u2, u3, u4, u5, u6, u7, u8, u9, u10⟩ := hx; refine ⟨⟨?_, ?_⟩, ⟨?_, ?_, ?_, ?_⟩, ?_, ?_, ?_, ?_, ?_, ?_, ?_, ?_, ?_, ?_⟩ <;> first | with_reducible assumption | (dsimp only; with_reducible assumption) | with_reducible exact ringPut_wf _ _ _ _ m1 | (simp only [List.length_modify, List.length_map, List.length_set]; with_reducible assumption)))

/-! Ports.lean -/

theorem adaptStart_inv {n : Nat} {x : Half} (hx : x.Inv) :
    (adaptStart n x).Inv := by
  unfold adaptStart
  repeat' (first | with_reducible assumption | with_reducible refine updPort_inv ?_ | with_reducible refine half_inv ?_ _ | dsimp only | split | (obtain ⟨⟨m1, m2⟩, ⟨q1, q2, q3, q4⟩, u1, u2, u3, u4, u5, u6, u7, u8, u9, u10⟩ := hx; refine ⟨⟨?_, ?_⟩, ⟨?_, ?_, ?_, ?_⟩, ?_, ?_, ?_, ?_, ?_, ?_, ?_, ?_, ?_, ?_⟩ <;> first | with_reducible assumption | (dsimp only; with_reducible assumption) | with_reducible exact ringPut_wf _ _ _ _ m1 | (simp only [List.length_modify, List.length_map, List.length_set]; with_reducible assumption)))

theorem resolveAll_inv {h : HalfId} {n : Nat} {s : State} (hs : s.Inv) :
    (resolveAll h n s).Inv := by
  unfold resolveAll
  repeat' (first | with_reducible assumption | with_reducible refine emit_inv ?_ | with_reducible refine updPort_inv ?_ | with_reducible refine upd_inv (fun x hx => ?_) ?_ | with_reducible refine foldl_inv (fun s a hs => ?_) ?_ | with_reducible refine foldlH_inv (fun x a hx => ?_) ?_ | with_reducible refine foldl_fst_inv (fun s a hs => ?_) ?_ | with_reducible refine half_inv ?_ _ | dsimp only | split | (obtain ⟨⟨m1, m2⟩, ⟨q1, q2, q3, q4⟩, u1, u2, u3, u4, u5, u6, u7, u8, u9, u10⟩ := hx; refine ⟨⟨?_, ?_⟩, ⟨?_, ?_, ?_, ?_⟩, ?_, ?_, ?_, ?_, ?_, ?_, ?_, ?_, ?_, ?_⟩ <;> first | with_reducible assumption | (dsimp only; with_reducible assumption) | with_reducible exact ringPut_wf _ _ _ _ m1 | (simp only [List.length_modify, List.length_map, List.length_set]; with_reducible assumption)))

theorem reportGroups_inv {h : HalfId} {n : Nat} {leave old : Bool} {groups : List (Nat × Nat)} {s : State} (hs : s.Inv) :
    (reportGroups h n leave old groups s).Inv := by
  unfold reportGroups
  repeat' (first | with_reducible assumption | with_reducible refine emit_inv ?_ | with_reducible refine foldl_inv (fun s a hs => ?_) ?_ | with_reducible refine foldlH_inv (fun x a hx => ?_) ?_ | with_reducible refine foldl_fst_inv (fun s a hs => ?_) ?_ | with_reducible refine half_inv ?_ _ | dsimp only | split | (obtain ⟨⟨m1, m2⟩, ⟨q1, q2, q3, q4⟩, u1, u2, u3, u4, u5, u6, u7, u8, u9, u10⟩ := hx; refine ⟨⟨?_, ?_⟩, ⟨?_, ?_, ?_, ?_⟩, ?_, ?_, ?_, ?_, ?_, ?_, ?_, ?_, ?_, ?_⟩ <;> first | with_reducible assumption | (dsimp only; with_reducible assumption) | with_reducible exact ringPut_wf _ _ _ _ m1 | (simp only [List.length_modify, List.length_map, List.length_set]; with_reducible assumption)))

theorem unsolicited_inv {h : HalfId} {n : Nat} {leave : Bool} {groups : List (Nat × Nat)} {s : State} (hs : s.Inv) :
    (unsolicited h n leave groups s).Inv := by
  unfold unsolicited
  repeat' (first | with_reducible assumption | with_reducible refine reportGroups_inv ?_ | with_reducible refine half_inv ?_ _ | dsimp only | split | (obtain ⟨⟨m1, m2⟩, ⟨q1, q2, q3, q4⟩, u1, u2, u3, u4, u5, u6, u7, u8, u9, u10⟩ := hx; refine ⟨⟨?_, ?_⟩, ⟨?_, ?_, ?_, ?_⟩, ?_, ?_, ?_, ?_, ?_, ?_, ?_, ?_, ?_, ?_⟩ <;> first | with_reducible assumption | (dsimp only; with_reducible assumption) | with_reducible exact ringPut_wf _ _ _ _ m1 | (simp only [List.length_modify, List.length_map, List.length_set]; with_reducible assumption)))

theorem protocolsStart_inv {h : HalfId} {n : Nat} {s : State} (hs : s.Inv) :
    (protocolsStart h n s).Inv := by
  unfold protocolsStart
  repeat' (first | with_reducible assumption | with_reducible refine emit_inv ?_ | with_reducible refine updPort_inv ?_ | with_reducible refine resolveAll_inv ?_ | with_reducible refine unsolicited_inv ?_ | with_reducible refine upd_inv (fun x hx => ?_) ?_ | with_reducible refine half_inv ?_ _ | dsimp only | split | (obtain ⟨⟨m1, m2⟩, ⟨q1, q2, q3, q4⟩, u1, u2, u3, u4, u5, u6, u7, u8, u9, u10⟩ := hx; refine ⟨⟨?_, ?_⟩, ⟨?_, ?_, ?_, ?_⟩, ?_, ?_, ?_, ?_, ?_, ?_, ?_, ?_, ?_, ?_⟩ <;> first | with_reducible assumption | (dsimp only; with_reducible assumption) | with_reducible exact ringPut_wf _ _ _ _ m1 | (simp only [List.length_modify, List.length_map, List.length_set]; with_reducible assumption)))

theorem leaveUp_inv {h : HalfId} {n cause : Nat} {s : State} (hs : s.Inv) :
    (leaveUp h n cause s).Inv := by
  unfold leaveUp
  repeat' (first | with_reducible assumption | with_reducible refine event_inv ?_ | with_reducible refine updPort_inv ?_ | with_reducible refine portLost_inv ?_ | with_reducible refine upd_inv (fun x hx => ?_) ?_ | with_reducible refine half_inv ?_ _ | dsimp only | split | (obtain ⟨⟨m1, m2⟩, ⟨q1, q2, q3, q4⟩, u1, u2, u3, u4, u5, u6, u7, u8, u9, u10⟩ := hx; refine ⟨⟨?_, ?_⟩, ⟨?_, ?_, ?_, ?_⟩, ?_, ?_, ?_, ?_, ?_, ?_, ?_, ?_, ?_, ?_⟩ <;> first | with_reducible assumption | (dsimp only; with_reducible assumption) | with_reducible exact ringPut_wf _ _ _ _ m1 | (simp only [List.length_modify, List.length_map, List.length_set]; with_reducible assumption)))

theorem portRx_inv {n : Nat} {x : Half} (hx : x.Inv) :
    (portRx n x).Inv := by
  unfold portRx
  repeat' (first | with_reducible assumption | with_reducible refine count_inv ?_ | with_reducible refine updPort_inv ?_ | with_reducible refine half_inv ?_ _ | dsimp only | split | (obtain ⟨⟨m1, m2⟩, ⟨q1, q2, q3, q4⟩, u1, u2, u3, u4, u5, u6, u7, u8, u9, u10⟩ := hx; refine ⟨⟨?_, ?_⟩, ⟨?_, ?_, ?_, ?_⟩, ?_, ?_, ?_, ?_, ?_, ?_, ?_, ?_, ?_, ?_⟩ <;> first | with_reducible assumption | (dsimp only; with_reducible assumption) | with_reducible exact ringPut_wf _ _ _ _ m1 | (simp only [List.length_modify, List.length_map, List.length_set]; with_reducible assumption)))

theorem portDrop_inv {n : Nat} {x : Half} (hx : x.Inv) :
    (portDrop n x).Inv := by
  unfold portDrop
  repeat' (first | with_reducible assumption | with_reducible refine count_inv ?_ | with_reducible refine updPort_inv ?_ | with_reducible refine half_inv ?_ _ | dsimp only | split | (obtain ⟨⟨m1, m2⟩, ⟨q1, q2, q3, q4⟩, u1, u2, u3, u4, u5, u6, u7, u8, u9, u10⟩ := hx; refine ⟨⟨?_, ?_⟩, ⟨?_, ?_, ?_, ?_⟩, ?_, ?_, ?_, ?_, ?_, ?_, ?_, ?_, ?_, ?_⟩ <;> first | with_reducible assumption | (dsimp only; with_reducible assumption) | with_reducible exact ringPut_wf _ _ _ _ m1 | (simp only [List.length_modify, List.length_map, List.length_set]; with_reducible assumption)))

theorem learn_inv {n ip mac : Nat} {x : Half} (hx : x.Inv) :
    (learn n ip mac x).Inv := by
  unfold learn
  repeat' (first | with_reducible assumption | with_reducible refine updPort_inv ?_ | with_reducible refine half_inv ?_ _ | dsimp only | split | (obtain ⟨⟨m1, m2⟩, ⟨q1, q2, q3, q4⟩, u1, u2, u3, u4, u5, u6, u7, u8, u9, u10⟩ := hx; refine ⟨⟨?_, ?_⟩, ⟨?_, ?_, ?_, ?_⟩, ?_, ?_, ?_, ?_, ?_, ?_, ?_, ?_, ?_, ?_⟩ <;> first | with_reducible assumption | (dsimp only; with_reducible assumption) | with_reducible exact ringPut_wf _ _ _ _ m1 | (simp only [List.length_modify, List.length_map, List.length_set]; with_reducible assumption)))

/-! Ptp.lean -/

theorem updPtp_inv {f : PtpSt → PtpSt} {x : Half} (hx : x.Inv) :
    (updPtp f x).Inv := by
  unfold updPtp
  repeat' (first | with_reducible assumption | with_reducible refine half_inv ?_ _ | dsimp only | split | (obtain ⟨⟨m1, m2⟩, ⟨q1, q2, q3, q4⟩, u1, u2, u3, u4, u5, u6, u7, u8, u9, u10⟩ := hx; refine ⟨⟨?_, ?_⟩, ⟨?_, ?_, ?_, ?_⟩, ?_, ?_, ?_, ?_, ?_, ?_, ?_, ?_, ?_, ?_⟩ <;> first | with_reducible assumption | (dsimp only; with_reducible assumption) | with_reducible exact ringPut_wf _ _ _ _ m1 | (simp only [List.length_modify, List.length_map, List.length_set]; with_reducible assumption)))

theorem ptpTo_inv {h : HalfId} {st : PtpState} {s : State} (hs : s.Inv) :
    (ptpTo h st s).Inv := by
  unfold ptpTo
  repeat' (first | with_reducible assumption | with_reducible refine event_inv ?_ | with_reducible refine updPtp_inv ?_ | with_reducible refine upd_inv (fun x hx => ?_) ?_ | with_reducible refine half_inv ?_ _ | dsimp only | split | (obtain ⟨⟨m1, m2⟩, ⟨q1, q2, q3, q4⟩, u1, u2, u3, u4, u5, u6, u7, u8, u9, u10⟩ := hx; refine ⟨⟨?_, ?_⟩, ⟨?_, ?_, ?_, ?_⟩, ?_, ?_, ?_, ?_, ?_, ?_, ?_, ?_, ?_, ?_⟩ <;> first | with_reducible assumption | (dsimp only; with_reducible assumption) | with_reducible exact ringPut_wf _ _ _ _ m1 | (simp only [List.length_modify, List.length_map, List.length_set]; with_reducible assumption)))

theorem setPortStates_inv {h : HalfId} {slave : Option Handle} {master : Bool} {s : State} (hs : s.Inv) :
    (setPortStates h slave master s).Inv := by
  unfold setPortStates
  repeat' (first | with_reducible assumption | with_reducible refine updPort_inv ?_ | with_reducible refine upd_inv (fun x hx => ?_) ?_ | with_reducible refine foldl_inv (fun s a hs => ?_) ?_ | with_reducible refine foldlH_inv (fun x a hx => ?_) ?_ | with_reducible refine foldl_fst_inv (fun s a hs => ?_) ?_ | with_reducible refine half_inv ?_ _ | dsimp only | split | (obtain ⟨⟨m1, m2⟩, ⟨q1, q2, q3, q4⟩, u1, u2, u3, u4, u5, u6, u7, u8, u9, u10⟩ := hx; refine ⟨⟨?_, ?_⟩, ⟨?_, ?_, ?_, ?_⟩, ?_, ?_, ?_, ?_, ?_, ?_, ?_, ?_, ?_, ?_⟩ <;> first | with_reducible assumption | (dsimp only; with_reducible assumption) | with_reducible exact ringPut_wf _ _ _ _ m1 | (simp only [List.length_modify, List.length_map, List.length_set]; with_reducible assumption)))

theorem becomeSlave_inv {h : HalfId} {p : Handle} {a : Announce} {s : State} (hs : s.Inv) :
    (becomeSlave h p a s).Inv := by
  unfold becomeSlave
  repeat' (first | with_reducible assumption | with_reducible refine updPtp_inv ?_ | with_reducible refine ptpTo_inv ?_ | with_reducible refine setPortStates_inv ?_ | with_reducible refine upd_inv (fun x hx => ?_) ?_ | with_reducible refine half_inv ?_ _ | dsimp only | split | (obtain ⟨⟨m1, m2⟩, ⟨q1, q2, q3, q4⟩, u1, u2, u3, u4, u5, u6, u7, u8, u9, u10⟩ := hx; refine ⟨⟨?_, ?_⟩, ⟨?_, ?_, ?_, ?_⟩, ?_, ?_, ?_, ?_, ?_, ?_, ?_, ?_, ?_, ?_⟩ <;> first | with_reducible assumption | (dsimp only; with_reducible assumption) | with_reducible exact ringPut_wf _ _ _ _ m1 | (simp only [List.length_modify, List.length_map, List.length_set]; with_reducible assumption)))

theorem bmca_inv {h : HalfId} {s : State} (hs : s.Inv) :
    (bmca h s).Inv := by
  unfold bmca
  repeat' (first | with_reducible assumption | with_reducible refine updPtp_inv ?_ | with_reducible refine ptpTo_inv ?_ | with_reducible refine setPortStates_inv ?_ | with_reducible refine becomeSlave_inv ?_ | with_reducible refine upd_inv (fun x hx => ?_) ?_ | with_reducible refine half_inv ?_ _ | dsimp only | split | (obtain ⟨⟨m1, m2⟩, ⟨q1, q2, q3, q4⟩, u1, u2, u3, u4, u5, u6, u7, u8, u9, u10⟩ := hx; refine ⟨⟨?_, ?_⟩, ⟨?_, ?_, ?_, ?_⟩, ?_, ?_, ?_, ?_, ?_, ?_, ?_, ?_, ?_, ?_⟩ <;> first | with_reducible assumption | (dsimp only; with_reducible assumption) | with_reducible exact ringPut_wf _ _ _ _ m1 | (simp only [List.length_modify, List.length_map, List.length_set]; with_reducible assumption)))

theorem slaveLost_inv {h : HalfId} {s : State} (hs : s.Inv) :
    (slaveLost h s).Inv := by
  unfold slaveLost
  repeat' (first | with_reducible assumption | with_reducible refine updPtp_inv ?_ | with_reducible refine ptpTo_inv ?_ | with_reducible refine upd_inv (fun x hx => ?_) ?_ | with_reducible refine half_inv ?_ _ | dsimp only | split | (obtain ⟨⟨m1, m2⟩, ⟨q1, q2, q3, q4⟩, u1, u2, u3, u4, u5, u6, u7, u8, u9, u10⟩ := hx; refine ⟨⟨?_, ?_⟩, ⟨?_, ?_, ?_, ?_⟩, ?_, ?_, ?_, ?_, ?_, ?_, ?_, ?_, ?_, ?_⟩ <;> first | with_reducible assumption | (dsimp only; with_reducible assumption) | with_reducible exact ringPut_wf _ _ _ _ m1 | (simp only [List.length_modify, List.length_map, List.length_set]; with_reducible assumption)))

theorem ptpLost_inv {h : HalfId} {n : Nat} {s : State} (hs : s.Inv) :
    (ptpLost h n s).Inv := by
  unfold ptpLost
  repeat' (first | with_reducible assumption | with_reducible refine slaveLost_inv ?_ | with_reducible refine half_inv ?_ _ | dsimp only | split | (obtain ⟨⟨m1, m2⟩, ⟨q1, q2, q3, q4⟩, u1, u2, u3, u4, u5, u6, u7, u8, u9, u10⟩ := hx; refine ⟨⟨?_, ?_⟩, ⟨?_, ?_, ?_, ?_⟩, ?_, ?_, ?_, ?_, ?_, ?_, ?_, ?_, ?_, ?_⟩ <;> first | with_reducible assumption | (dsimp only; with_reducible assumption) | with_reducible exact ringPut_wf _ _ _ _ m1 | (simp only [List.length_modify, List.length_map, List.length_set]; with_reducible assumption)))

theorem restartPort_inv {h : HalfId} {n cause : Nat} {s : State} (hs : s.Inv) :
    (restartPort h n cause s).Inv := by
  unfold restartPort
  repeat' (first | with_reducible assumption | with_reducible refine producerRestarts_inv ?_ | with_reducible refine updPort_inv ?_ | with_reducible refine leaveUp_inv ?_ | with_reducible refine ptpLost_inv ?_ | with_reducible refine upd_inv (fun x hx => ?_) ?_ | with_reducible refine half_inv ?_ _ | dsimp only | split | (obtain ⟨⟨m1, m2⟩, ⟨q1, q2, q3, q4⟩, u1, u2, u3, u4, u5, u6, u7, u8, u9, u10⟩ := hx; refine ⟨⟨?_, ?_⟩, ⟨?_, ?_, ?_, ?_⟩, ?_, ?_, ?_, ?_, ?_, ?_, ?_, ?_, ?_, ?_⟩ <;> first | with_reducible assumption | (dsimp only; with_reducible assumption) | with_reducible exact ringPut_wf _ _ _ _ m1 | (simp only [List.length_modify, List.length_map, List.length_set]; with_reducible assumption)))

theorem updClock_inv {f : Clock → Clock} {x : Half} (hx : x.Inv) :
    (updClock f x).Inv := by
  unfold updClock
  repeat' (first | with_reducible assumption | with_reducible refine half_inv ?_ _ | dsimp only | split | (obtain ⟨⟨m1, m2⟩, ⟨q1, q2, q3, q4⟩, u1, u2, u3, u4, u5, u6, u7, u8, u9, u10⟩ := hx; refine ⟨⟨?_, ?_⟩, ⟨?_, ?_, ?_, ?_⟩, ?_, ?_, ?_, ?_, ?_, ?_, ?_, ?_, ?_, ?_⟩ <;> first | with_reducible assumption | (dsimp only; with_reducible assumption) | with_reducible exact ringPut_wf _ _ _ _ m1 | (simp only [List.length_modify, List.length_map, List.length_set]; with_reducible assumption)))

theorem setFrequency_inv {h : HalfId} {v : Int} {s : State} (hs : s.Inv) :
    (setFrequency h v s).Inv := by
  unfold setFrequency
  repeat' (first | with_reducible assumption | with_reducible refine updClock_inv ?_ | with_reducible refine upd_inv (fun x hx => ?_) ?_ | with_reducible refine foldl_inv (fun s a hs => ?_) ?_ | with_reducible refine foldlH_inv (fun x a hx => ?_) ?_ | with_reducible refine foldl_fst_inv (fun s a hs => ?_) ?_ | with_reducible refine half_inv ?_ _ | dsimp only | split | (obtain ⟨⟨m1, m2⟩, ⟨q1, q2, q3, q4⟩, u1, u2, u3, u4, u5, u6, u7, u8, u9, u10⟩ := hx; refine ⟨⟨?_, ?_⟩, ⟨?_, ?_, ?_, ?_⟩, ?_, ?_, ?_, ?_, ?_, ?_, ?_, ?_, ?_, ?_⟩ <;> first | with_reducible assumption | (dsimp only; with_reducible assumption) | with_reducible exact ringPut_wf _ _ _ _ m1 | (simp only [List.length_modify, List.length_map, List.length_set]; with_reducible assumption)))

theorem stepClock_inv {h : HalfId} {d : Int} {s : State} (hs : s.Inv) : (stepClock h d s).Inv := by
  unfold stepClock
  refine event_inv (upd_inv (fun x hx => updPtp_inv hx) (foldl_inv (fun s w hs => upd_inv (fun x hx => ?_) hs) hs))
  exact ctrPlus_inv (blocks_len hx) (updClock_inv hx)

theorem correctPhase_inv {h : HalfId} {d : Int} {s : State} (hs : s.Inv) :
    (correctPhase h d s).Inv := by
  unfold correctPhase
  repeat' (first | with_reducible assumption | with_reducible refine updClock_inv ?_ | with_reducible refine stepClock_inv ?_ | with_reducible refine upd_inv (fun x hx => ?_) ?_ | with_reducible refine foldl_inv (fun s a hs => ?_) ?_ | with_reducible refine foldlH_inv (fun x a hx => ?_) ?_ | with_reducible refine foldl_fst_inv (fun s a hs => ?_) ?_ | with_reducible refine half_inv ?_ _ | dsimp only | split | (obtain ⟨⟨m1, m2⟩, ⟨q1, q2, q3, q4⟩, u1, u2, u3, u4, u5, u6, u7, u8, u9, u10⟩ := hx; refine ⟨⟨?_, ?_⟩, ⟨?_, ?_, ?_, ?_⟩, ?_, ?_, ?_, ?_, ?_, ?_, ?_, ?_, ?_, ?_⟩ <;> first | with_reducible assumption | (dsimp only; with_reducible assumption) | with_reducible exact ringPut_wf _ _ _ _ m1 | (simp only [List.length_modify, List.length_map, List.length_set]; with_reducible assumption)))

theorem syncDone_inv {h : HalfId} {s : State} (hs : s.Inv) :
    (syncDone h s).Inv := by
  unfold syncDone
  repeat' (first | with_reducible assumption | with_reducible refine updPtp_inv ?_ | with_reducible refine ptpTo_inv ?_ | with_reducible refine stepClock_inv ?_ | with_reducible refine upd_inv (fun x hx => ?_) ?_ | with_reducible refine half_inv ?_ _ | dsimp only | split | (obtain ⟨⟨m1, m2⟩, ⟨q1, q2, q3, q4⟩, u1, u2, u3, u4, u5, u6, u7, u8, u9, u10⟩ := hx; refine ⟨⟨?_, ?_⟩, ⟨?_, ?_, ?_, ?_⟩, ?_, ?_, ?_, ?_, ?_, ?_, ?_, ?_, ?_, ?_⟩ <;> first | with_reducible assumption | (dsimp only; with_reducible assumption) | with_reducible exact ringPut_wf _ _ _ _ m1 | (simp only [List.length_modify, List.length_map, List.length_set]; with_reducible assumption)))

theorem servoDeadline_inv {h : HalfId} {s : State} (hs : s.Inv) :
    (servoDeadline h s).Inv := by
  unfold servoDeadline
  repeat' (first | with_reducible assumption | with_reducible refine assistLate_inv ?_ | with_reducible refine updPtp_inv ?_ | with_reducible refine upd_inv (fun x hx => ?_) ?_ | with_reducible refine half_inv ?_ _ | dsimp only | split | (obtain ⟨⟨m1, m2⟩, ⟨q1, q2, q3, q4⟩, u1, u2, u3, u4, u5, u6, u7, u8, u9, u10⟩ := hx; refine ⟨⟨?_, ?_⟩, ⟨?_, ?_, ?_, ?_⟩, ?_, ?_, ?_, ?_, ?_, ?_, ?_, ?_, ?_, ?_⟩ <;> first | with_reducible assumption | (dsimp only; with_reducible assumption) | with_reducible exact ringPut_wf _ _ _ _ m1 | (simp only [List.length_modify, List.length_map, List.length_set]; with_reducible assumption)))

end Sys2Proof.Machine
end

