-- ==== Sys2Proof/Laws/KeepsPlan.lean ====
section
/-!
SUPPORT. KeepsPlan.lean: every operation of envelopes, take-overs, retirement and evacuation keeps the invariant of Safety.lean; one lemma per function.
-/
namespace Sys2Proof.Machine

set_option linter.all false
set_option linter.unusedTactic false
set_option linter.unreachableTactic false

/-! Envelope.lean -/

theorem updEnv_inv {f : EnvStore → EnvStore} {x : Half} (hx : x.Inv) :
    (updEnv f x).Inv := by
  unfold updEnv
  repeat' (first | with_reducible assumption | with_reducible refine half_inv ?_ _ | dsimp only | split | (obtain ⟨⟨m1, m2⟩, ⟨q1, q2, q3, q4⟩, u1, u2, u3, u4, u5, u6, u7, u8, u9, u10⟩ := hx; refine ⟨⟨?_, ?_⟩, ⟨?_, ?_, ?_, ?_⟩, ?_, ?_, ?_, ?_, ?_, ?_, ?_, ?_, ?_, ?_⟩ <;> first | with_reducible assumption | (dsimp only; with_reducible assumption) | with_reducible exact ringPut_wf _ _ _ _ m1 | (simp only [List.length_modify, List.length_map, List.length_set]; with_reducible assumption)))

theorem commitBad_inv {rs : List Record} {status reason : Nat} {obj : Option Handle} {detail : List Byte} {s : State} (hs : s.Inv) :
    (commitBad rs status reason obj detail s).state.Inv := by
  unfold commitBad
  split <;> exact hs

theorem pendSet_inv {h : HalfId} {p : PendingEnv} {s : State} (hs : s.Inv) :
    (pendSet h p s).Inv := by
  unfold pendSet
  repeat' (first | with_reducible assumption | with_reducible refine updEnv_inv ?_ | with_reducible refine upd_inv (fun x hx => ?_) ?_ | with_reducible refine half_inv ?_ _ | dsimp only | split | (obtain ⟨⟨m1, m2⟩, ⟨q1, q2, q3, q4⟩, u1, u2, u3, u4, u5, u6, u7, u8, u9, u10⟩ := hx; refine ⟨⟨?_, ?_⟩, ⟨?_, ?_, ?_, ?_⟩, ?_, ?_, ?_, ?_, ?_, ?_, ?_, ?_, ?_, ?_⟩ <;> first | with_reducible assumption | (dsimp only; with_reducible assumption) | with_reducible exact ringPut_wf _ _ _ _ m1 | (simp only [List.length_modify, List.length_map, List.length_set]; with_reducible assumption)))

theorem commitFit_inv {h : HalfId} {e : CmdEntry} {rs : List Record} {s : State} (hs : s.Inv) :
    (commitFit h e rs s).state.Inv := by
  unfold commitFit
  repeat' (first | with_reducible assumption | with_reducible refine Reply.ok_inv ?_ | with_reducible refine Reply.later_inv ?_ | with_reducible refine commitBad_inv ?_ | with_reducible refine pendSet_inv ?_ | with_reducible refine Reply.fail_inv ?_ | with_reducible refine Reply.wait_inv ?_ | with_reducible refine half_inv ?_ _ | dsimp only | split | (obtain ⟨⟨m1, m2⟩, ⟨q1, q2, q3, q4⟩, u1, u2, u3, u4, u5, u6, u7, u8, u9, u10⟩ := hx; refine ⟨⟨?_, ?_⟩, ⟨?_, ?_, ?_, ?_⟩, ?_, ?_, ?_, ?_, ?_, ?_, ?_, ?_, ?_, ?_⟩ <;> first | with_reducible assumption | (dsimp only; with_reducible assumption) | with_reducible exact ringPut_wf _ _ _ _ m1 | (simp only [List.length_modify, List.length_map, List.length_set]; with_reducible assumption)))

theorem groupEvent_inv {h : HalfId} {group : W32} {status reason : Nat} {failed : HalfId} {obj : Handle} {time : Nat} {detail : List Byte} {s : State} (hs : s.Inv) :
    (groupEvent h group status reason failed obj time detail s).Inv := by
  unfold groupEvent
  repeat' (first | with_reducible assumption | with_reducible refine event_inv ?_ | with_reducible refine half_inv ?_ _ | dsimp only | split | (obtain ⟨⟨m1, m2⟩, ⟨q1, q2, q3, q4⟩, u1, u2, u3, u4, u5, u6, u7, u8, u9, u10⟩ := hx; refine ⟨⟨?_, ?_⟩, ⟨?_, ?_, ?_, ?_⟩, ?_, ?_, ?_, ?_, ?_, ?_, ?_, ?_, ?_, ?_⟩ <;> first | with_reducible assumption | (dsimp only; with_reducible assumption) | with_reducible exact ringPut_wf _ _ _ _ m1 | (simp only [List.length_modify, List.length_map, List.length_set]; with_reducible assumption)))

theorem groupDrop_inv {group : W32} {s : State} (hs : s.Inv) :
    (groupDrop group s).Inv := by
  unfold groupDrop
  repeat' (first | with_reducible assumption | with_reducible refine updEnv_inv ?_ | with_reducible refine upd_inv (fun x hx => ?_) ?_ | with_reducible refine half_inv ?_ _ | dsimp only | split | (obtain ⟨⟨m1, m2⟩, ⟨q1, q2, q3, q4⟩, u1, u2, u3, u4, u5, u6, u7, u8, u9, u10⟩ := hx; refine ⟨⟨?_, ?_⟩, ⟨?_, ?_, ?_, ?_⟩, ?_, ?_, ?_, ?_, ?_, ?_, ?_, ?_, ?_, ?_⟩ <;> first | with_reducible assumption | (dsimp only; with_reducible assumption) | with_reducible exact ringPut_wf _ _ _ _ m1 | (simp only [List.length_modify, List.length_map, List.length_set]; with_reducible assumption)))

theorem groupResolve_inv {h : HalfId} {a b : GroupWait} {s : State} (hs : s.Inv) :
    (groupResolve h a b s).Inv := by
  unfold groupResolve
  repeat' (first | with_reducible assumption | with_reducible refine Reply.ok_inv ?_ | with_reducible refine pendSet_inv ?_ | with_reducible refine groupEvent_inv ?_ | with_reducible refine groupDrop_inv ?_ | with_reducible refine half_inv ?_ _ | dsimp only | split | (obtain ⟨⟨m1, m2⟩, ⟨q1, q2, q3, q4⟩, u1, u2, u3, u4, u5, u6, u7, u8, u9, u10⟩ := hx; refine ⟨⟨?_, ?_⟩, ⟨?_, ?_, ?_, ?_⟩, ?_, ?_, ?_, ?_, ?_, ?_, ?_, ?_, ?_, ?_⟩ <;> first | with_reducible assumption | (dsimp only; with_reducible assumption) | with_reducible exact ringPut_wf _ _ _ _ m1 | (simp only [List.length_modify, List.length_map, List.length_set]; with_reducible assumption)))

theorem pendDrop_inv {x : Half} (hx : x.Inv) :
    (pendDrop x).Inv := by
  unfold pendDrop
  repeat' (first | with_reducible assumption | with_reducible refine dropObject_inv ?_ | with_reducible refine updEnv_inv ?_ | with_reducible refine foldl_inv (fun s a hs => ?_) ?_ | with_reducible refine foldlH_inv (fun x a hx => ?_) ?_ | with_reducible refine foldl_fst_inv (fun s a hs => ?_) ?_ | with_reducible refine half_inv ?_ _ | dsimp only | split | (obtain ⟨⟨m1, m2⟩, ⟨q1, q2, q3, q4⟩, u1, u2, u3, u4, u5, u6, u7, u8, u9, u10⟩ := hx; refine ⟨⟨?_, ?_⟩, ⟨?_, ?_, ?_, ?_⟩, ?_, ?_, ?_, ?_, ?_, ?_, ?_, ?_, ?_, ?_⟩ <;> first | with_reducible assumption | (dsimp only; with_reducible assumption) | with_reducible exact ringPut_wf _ _ _ _ m1 | (simp only [List.length_modify, List.length_map, List.length_set]; with_reducible assumption)))

theorem withdraw_inv {w : HalfId} {s : State} (hs : s.Inv) :
    (withdraw w s).Inv := by
  unfold withdraw
  repeat' (first | with_reducible assumption | with_reducible refine deferredDone_inv ?_ | with_reducible refine pendDrop_inv ?_ | with_reducible refine upd_inv (fun x hx => ?_) ?_ | with_reducible refine half_inv ?_ _ | dsimp only | split | (obtain ⟨⟨m1, m2⟩, ⟨q1, q2, q3, q4⟩, u1, u2, u3, u4, u5, u6, u7, u8, u9, u10⟩ := hx; refine ⟨⟨?_, ?_⟩, ⟨?_, ?_, ?_, ?_⟩, ?_, ?_, ?_, ?_, ?_, ?_, ?_, ?_, ?_, ?_⟩ <;> first | with_reducible assumption | (dsimp only; with_reducible assumption) | with_reducible exact ringPut_wf _ _ _ _ m1 | (simp only [List.length_modify, List.length_map, List.length_set]; with_reducible assumption)))

/-! Takeover.lean -/

theorem placeholder_inv {h : HalfId} {p : PendingEnv} {x : Half} {r : Record} (hx : x.Inv) :
    (placeholder h p x r).Inv := by
  unfold placeholder
  repeat' (first | with_reducible assumption | with_reducible refine half_inv ?_ _ | dsimp only | split | (obtain ⟨⟨m1, m2⟩, ⟨q1, q2, q3, q4⟩, u1, u2, u3, u4, u5, u6, u7, u8, u9, u10⟩ := hx; refine ⟨⟨?_, ?_⟩, ⟨?_, ?_, ?_, ?_⟩, ?_, ?_, ?_, ?_, ?_, ?_, ?_, ?_, ?_, ?_⟩ <;> first | with_reducible assumption | (dsimp only; with_reducible assumption) | with_reducible exact ringPut_wf _ _ _ _ m1 | (simp only [List.length_modify, List.length_map, List.length_set]; with_reducible assumption)))

theorem armDo_inv {h : HalfId} {x : Half} (hx : x.Inv) :
    (armDo h x).Inv := by
  unfold armDo
  repeat' (first | with_reducible assumption | with_reducible refine updEnv_inv ?_ | with_reducible refine placeholder_inv ?_ | with_reducible refine foldl_inv (fun s a hs => ?_) ?_ | with_reducible refine foldlH_inv (fun x a hx => ?_) ?_ | with_reducible refine foldl_fst_inv (fun s a hs => ?_) ?_ | with_reducible refine half_inv ?_ _ | dsimp only | split | (obtain ⟨⟨m1, m2⟩, ⟨q1, q2, q3, q4⟩, u1, u2, u3, u4, u5, u6, u7, u8, u9, u10⟩ := hx; refine ⟨⟨?_, ?_⟩, ⟨?_, ?_, ?_, ?_⟩, ?_, ?_, ?_, ?_, ?_, ?_, ?_, ?_, ?_, ?_⟩ <;> first | with_reducible assumption | (dsimp only; with_reducible assumption) | with_reducible exact ringPut_wf _ _ _ _ m1 | (simp only [List.length_modify, List.length_map, List.length_set]; with_reducible assumption)))

theorem crcCancel_inv {h : HalfId} {obj : Handle} {s : State} (hs : s.Inv) :
    (crcCancel h obj s).Inv := by
  unfold crcCancel
  repeat' (first | with_reducible assumption | with_reducible refine deferredDone_inv ?_ | with_reducible refine groupEvent_inv ?_ | with_reducible refine pendDrop_inv ?_ | with_reducible refine upd_inv (fun x hx => ?_) ?_ | with_reducible refine foldl_inv (fun s a hs => ?_) ?_ | with_reducible refine foldlH_inv (fun x a hx => ?_) ?_ | with_reducible refine foldl_fst_inv (fun s a hs => ?_) ?_ | with_reducible refine half_inv ?_ _ | dsimp only | split | (obtain ⟨⟨m1, m2⟩, ⟨q1, q2, q3, q4⟩, u1, u2, u3, u4, u5, u6, u7, u8, u9, u10⟩ := hx; refine ⟨⟨?_, ?_⟩, ⟨?_, ?_, ?_, ?_⟩, ?_, ?_, ?_, ?_, ?_, ?_, ?_, ?_, ?_, ?_⟩ <;> first | with_reducible assumption | (dsimp only; with_reducible assumption) | with_reducible exact ringPut_wf _ _ _ _ m1 | (simp only [List.length_modify, List.length_map, List.length_set]; with_reducible assumption)))

theorem crcCheck_inv {h : HalfId} {s : State} (hs : s.Inv) :
    (crcCheck h s).Inv := by
  unfold crcCheck
  repeat' (first | with_reducible assumption | with_reducible refine latchHw_inv ?_ | with_reducible refine crcCancel_inv ?_ | with_reducible refine half_inv ?_ _ | dsimp only | split | (obtain ⟨⟨m1, m2⟩, ⟨q1, q2, q3, q4⟩, u1, u2, u3, u4, u5, u6, u7, u8, u9, u10⟩ := hx; refine ⟨⟨?_, ?_⟩, ⟨?_, ?_, ?_, ?_⟩, ?_, ?_, ?_, ?_, ?_, ?_, ?_, ?_, ?_, ?_⟩ <;> first | with_reducible assumption | (dsimp only; with_reducible assumption) | with_reducible exact ringPut_wf _ _ _ _ m1 | (simp only [List.length_modify, List.length_map, List.length_set]; with_reducible assumption)))

theorem supersede_inv {h : HalfId} {p : PendingEnv} {s : State} (hs : s.Inv) :
    (supersede h p s).Inv := by
  unfold supersede
  repeat' (first | with_reducible assumption | with_reducible refine deferredEnd_inv ?_ | with_reducible refine updEnv_inv ?_ | with_reducible refine upd_inv (fun x hx => ?_) ?_ | with_reducible refine foldl_inv (fun s a hs => ?_) ?_ | with_reducible refine foldlH_inv (fun x a hx => ?_) ?_ | with_reducible refine foldl_fst_inv (fun s a hs => ?_) ?_ | with_reducible refine half_inv ?_ _ | dsimp only | split | (obtain ⟨⟨m1, m2⟩, ⟨q1, q2, q3, q4⟩, u1, u2, u3, u4, u5, u6, u7, u8, u9, u10⟩ := hx; refine ⟨⟨?_, ?_⟩, ⟨?_, ?_, ?_, ?_⟩, ?_, ?_, ?_, ?_, ?_, ?_, ?_, ?_, ?_, ?_⟩ <;> first | with_reducible assumption | (dsimp only; with_reducible assumption) | with_reducible exact ringPut_wf _ _ _ _ m1 | (simp only [List.length_modify, List.length_map, List.length_set]; with_reducible assumption)))

theorem regionsSwitch_inv {h : HalfId} {p : PendingEnv} {x : Half} (hx : x.Inv) :
    (regionsSwitch h p x).Inv := by
  unfold regionsSwitch
  repeat' (first | with_reducible assumption | with_reducible refine devClear_inv ?_ | with_reducible refine foldl_inv (fun s a hs => ?_) ?_ | with_reducible refine foldlH_inv (fun x a hx => ?_) ?_ | with_reducible refine foldl_fst_inv (fun s a hs => ?_) ?_ | with_reducible refine half_inv ?_ _ | dsimp only | split | (obtain ⟨⟨m1, m2⟩, ⟨q1, q2, q3, q4⟩, u1, u2, u3, u4, u5, u6, u7, u8, u9, u10⟩ := hx; refine ⟨⟨?_, ?_⟩, ⟨?_, ?_, ?_, ?_⟩, ?_, ?_, ?_, ?_, ?_, ?_, ?_, ?_, ?_, ?_⟩ <;> first | with_reducible assumption | (dsimp only; with_reducible assumption) | with_reducible exact ringPut_wf _ _ _ _ m1 | (simp only [List.length_modify, List.length_map, List.length_set]; with_reducible assumption)))

theorem poolThreadAs_inv {p : Nat} {l : List Nat} {x : Half} (hx : x.Inv) : (poolThreadAs p l x).Inv :=
  updPool_inv (threadList_inv hx)

theorem poolBegin_inv {p base : Nat} {r : Record} {x : Half} (hx : x.Inv) :
    (poolBegin p base r x).Inv := by
  unfold poolBegin
  repeat' (first | with_reducible assumption | with_reducible refine count_inv ?_ | with_reducible refine updPool_inv ?_ | with_reducible refine poolThread_inv ?_ | with_reducible refine half_inv ?_ _ | dsimp only | split | (obtain ⟨⟨m1, m2⟩, ⟨q1, q2, q3, q4⟩, u1, u2, u3, u4, u5, u6, u7, u8, u9, u10⟩ := hx; refine ⟨⟨?_, ?_⟩, ⟨?_, ?_, ?_, ?_⟩, ?_, ?_, ?_, ?_, ?_, ?_, ?_, ?_, ?_, ?_⟩ <;> first | with_reducible assumption | (dsimp only; with_reducible assumption) | with_reducible exact ringPut_wf _ _ _ _ m1 | (simp only [List.length_modify, List.length_map, List.length_set]; with_reducible assumption)))

theorem poolResize_inv {p : Nat} {r : Record} {x : Half} (hx : x.Inv) :
    (poolResize p r x).Inv := by
  unfold poolResize
  repeat' (first | with_reducible assumption | with_reducible refine count_inv ?_ | with_reducible refine updPool_inv ?_ | with_reducible refine poolThreadAs_inv ?_ | with_reducible refine half_inv ?_ _ | dsimp only | split | (obtain ⟨⟨m1, m2⟩, ⟨q1, q2, q3, q4⟩, u1, u2, u3, u4, u5, u6, u7, u8, u9, u10⟩ := hx; refine ⟨⟨?_, ?_⟩, ⟨?_, ?_, ?_, ?_⟩, ?_, ?_, ?_, ?_, ?_, ?_, ?_, ?_, ?_, ?_⟩ <;> first | with_reducible assumption | (dsimp only; with_reducible assumption) | with_reducible exact ringPut_wf _ _ _ _ m1 | (simp only [List.length_modify, List.length_map, List.length_set]; with_reducible assumption)))

theorem poolMode_inv {h : HalfId} {p : Nat} {host : Bool} {s : State} (hs : s.Inv) :
    (poolMode h p host s).Inv := by
  unfold poolMode
  repeat' (first | with_reducible assumption | with_reducible refine updPool_inv ?_ | with_reducible refine poolThread_inv ?_ | with_reducible refine poolReturn_inv ?_ | with_reducible refine upd_inv (fun x hx => ?_) ?_ | with_reducible refine foldl_inv (fun s a hs => ?_) ?_ | with_reducible refine foldlH_inv (fun x a hx => ?_) ?_ | with_reducible refine foldl_fst_inv (fun s a hs => ?_) ?_ | with_reducible refine half_inv ?_ _ | dsimp only | split | (obtain ⟨⟨m1, m2⟩, ⟨q1, q2, q3, q4⟩, u1, u2, u3, u4, u5, u6, u7, u8, u9, u10⟩ := hx; refine ⟨⟨?_, ?_⟩, ⟨?_, ?_, ?_, ?_⟩, ?_, ?_, ?_, ?_, ?_, ?_, ?_, ?_, ?_, ?_⟩ <;> first | with_reducible assumption | (dsimp only; with_reducible assumption) | with_reducible exact ringPut_wf _ _ _ _ m1 | (simp only [List.length_modify, List.length_map, List.length_set]; with_reducible assumption)))

theorem poolSwitch_inv {h : HalfId} {p : PendingEnv} {old : List Record} {n : Nat} {s : State} (hs : s.Inv) :
    (poolSwitch h p old n s).Inv := by
  unfold poolSwitch
  repeat' (first | with_reducible assumption | with_reducible refine count_inv ?_ | with_reducible refine updPool_inv ?_ | with_reducible refine poolBegin_inv ?_ | with_reducible refine poolResize_inv ?_ | with_reducible refine poolMode_inv ?_ | with_reducible refine upd_inv (fun x hx => ?_) ?_ | with_reducible refine half_inv ?_ _ | dsimp only | split | (obtain ⟨⟨m1, m2⟩, ⟨q1, q2, q3, q4⟩, u1, u2, u3, u4, u5, u6, u7, u8, u9, u10⟩ := hx; refine ⟨⟨?_, ?_⟩, ⟨?_, ?_, ?_, ?_⟩, ?_, ?_, ?_, ?_, ?_, ?_, ?_, ?_, ?_, ?_⟩ <;> first | with_reducible assumption | (dsimp only; with_reducible assumption) | with_reducible exact ringPut_wf _ _ _ _ m1 | (simp only [List.length_modify, List.length_map, List.length_set]; with_reducible assumption)))

theorem portSwitch_inv {h : HalfId} {p : PendingEnv} {n : Nat} {s : State} (hs : s.Inv) :
    (portSwitch h p n s).Inv := by
  unfold portSwitch
  repeat' (first | with_reducible assumption | with_reducible refine updPort_inv ?_ | with_reducible refine protocolsStart_inv ?_ | with_reducible refine restartPort_inv ?_ | with_reducible refine upd_inv (fun x hx => ?_) ?_ | with_reducible refine half_inv ?_ _ | dsimp only | split | (obtain ⟨⟨m1, m2⟩, ⟨q1, q2, q3, q4⟩, u1, u2, u3, u4, u5, u6, u7, u8, u9, u10⟩ := hx; refine ⟨⟨?_, ?_⟩, ⟨?_, ?_, ?_, ?_⟩, ?_, ?_, ?_, ?_, ?_, ?_, ?_, ?_, ?_, ?_⟩ <;> first | with_reducible assumption | (dsimp only; with_reducible assumption) | with_reducible exact ringPut_wf _ _ _ _ m1 | (simp only [List.length_modify, List.length_map, List.length_set]; with_reducible assumption)))

theorem groupsLeft_inv {h : HalfId} {p : PendingEnv} {old : List Record} {s : State} (hs : s.Inv) :
    (groupsLeft h p old s).Inv := by
  unfold groupsLeft
  repeat' (first | with_reducible assumption | with_reducible refine unsolicited_inv ?_ | with_reducible refine foldl_inv (fun s a hs => ?_) ?_ | with_reducible refine foldlH_inv (fun x a hx => ?_) ?_ | with_reducible refine foldl_fst_inv (fun s a hs => ?_) ?_ | with_reducible refine half_inv ?_ _ | dsimp only | split | (obtain ⟨⟨m1, m2⟩, ⟨q1, q2, q3, q4⟩, u1, u2, u3, u4, u5, u6, u7, u8, u9, u10⟩ := hx; refine ⟨⟨?_, ?_⟩, ⟨?_, ?_, ?_, ?_⟩, ?_, ?_, ?_, ?_, ?_, ?_, ?_, ?_, ?_, ?_⟩ <;> first | with_reducible assumption | (dsimp only; with_reducible assumption) | with_reducible exact ringPut_wf _ _ _ _ m1 | (simp only [List.length_modify, List.length_map, List.length_set]; with_reducible assumption)))

theorem inputsSwitch_inv {h : HalfId} {p : PendingEnv} {s : State} (hs : s.Inv) :
    (inputsSwitch h p s).Inv := by
  unfold inputsSwitch
  repeat' (first | with_reducible assumption | with_reducible refine State.tick1_inv ?_ | with_reducible refine unsolicited_inv ?_ | with_reducible refine upd_inv (fun x hx => ?_) ?_ | with_reducible refine foldl_inv (fun s a hs => ?_) ?_ | with_reducible refine foldlH_inv (fun x a hx => ?_) ?_ | with_reducible refine foldl_fst_inv (fun s a hs => ?_) ?_ | with_reducible refine half_inv ?_ _ | dsimp only | split | (obtain ⟨⟨m1, m2⟩, ⟨q1, q2, q3, q4⟩, u1, u2, u3, u4, u5, u6, u7, u8, u9, u10⟩ := hx; refine ⟨⟨?_, ?_⟩, ⟨?_, ?_, ?_, ?_⟩, ?_, ?_, ?_, ?_, ?_, ?_, ?_, ?_, ?_, ?_⟩ <;> first | with_reducible assumption | (dsimp only; with_reducible assumption) | with_reducible exact ringPut_wf _ _ _ _ m1 | (simp only [List.length_modify, List.length_map, List.length_set]; with_reducible assumption)))

theorem surfacesSwitch_inv {h : HalfId} {p : PendingEnv} {x : Half} (hx : x.Inv) :
    (surfacesSwitch h p x).Inv := by
  unfold surfacesSwitch
  repeat' (first | with_reducible assumption | with_reducible refine surfaceWrite_inv ?_ | with_reducible refine foldl_inv (fun s a hs => ?_) ?_ | with_reducible refine foldlH_inv (fun x a hx => ?_) ?_ | with_reducible refine foldl_fst_inv (fun s a hs => ?_) ?_ | with_reducible refine half_inv ?_ _ | dsimp only | split | (obtain ⟨⟨m1, m2⟩, ⟨q1, q2, q3, q4⟩, u1, u2, u3, u4, u5, u6, u7, u8, u9, u10⟩ := hx; refine ⟨⟨?_, ?_⟩, ⟨?_, ?_, ?_, ?_⟩, ?_, ?_, ?_, ?_, ?_, ?_, ?_, ?_, ?_, ?_⟩ <;> first | with_reducible assumption | (dsimp only; with_reducible assumption) | with_reducible exact ringPut_wf _ _ _ _ m1 | (simp only [List.length_modify, List.length_map, List.length_set]; with_reducible assumption)))

theorem shapersSwitch_inv {h : HalfId} {p : PendingEnv} {old : List Record} {s : State} (hs : s.Inv) :
    (shapersSwitch h p old s).Inv := by
  unfold shapersSwitch
  repeat' (first | with_reducible assumption | with_reducible refine shaperApply_inv ?_ | with_reducible refine upd_inv (fun x hx => ?_) ?_ | with_reducible refine foldl_inv (fun s a hs => ?_) ?_ | with_reducible refine foldlH_inv (fun x a hx => ?_) ?_ | with_reducible refine foldl_fst_inv (fun s a hs => ?_) ?_ | with_reducible refine half_inv ?_ _ | dsimp only | split | (obtain ⟨⟨m1, m2⟩, ⟨q1, q2, q3, q4⟩, u1, u2, u3, u4, u5, u6, u7, u8, u9, u10⟩ := hx; refine ⟨⟨?_, ?_⟩, ⟨?_, ?_, ?_, ?_⟩, ?_, ?_, ?_, ?_, ?_, ?_, ?_, ?_, ?_, ?_⟩ <;> first | with_reducible assumption | (dsimp only; with_reducible assumption) | with_reducible exact ringPut_wf _ _ _ _ m1 | (simp only [List.length_modify, List.length_map, List.length_set]; with_reducible assumption)))

theorem gatesSwitch_inv {p : PendingEnv} {old : List Record} {armedBefore : Bool} {x : Half} (hx : x.Inv) :
    (gatesSwitch p old armedBefore x).Inv := by
  unfold gatesSwitch
  repeat' (first | with_reducible assumption | with_reducible refine updPort_inv ?_ | with_reducible refine gateArm_inv ?_ | with_reducible refine foldl_inv (fun s a hs => ?_) ?_ | with_reducible refine foldlH_inv (fun x a hx => ?_) ?_ | with_reducible refine foldl_fst_inv (fun s a hs => ?_) ?_ | with_reducible refine half_inv ?_ _ | dsimp only | split | (obtain ⟨⟨m1, m2⟩, ⟨q1, q2, q3, q4⟩, u1, u2, u3, u4, u5, u6, u7, u8, u9, u10⟩ := hx; refine ⟨⟨?_, ?_⟩, ⟨?_, ?_, ?_, ?_⟩, ?_, ?_, ?_, ?_, ?_, ?_, ?_, ?_, ?_, ?_⟩ <;> first | with_reducible assumption | (dsimp only; with_reducible assumption) | with_reducible exact ringPut_wf _ _ _ _ m1 | (simp only [List.length_modify, List.length_map, List.length_set]; with_reducible assumption)))

theorem ptpSwitch_inv {h : HalfId} {p : PendingEnv} {s : State} (hs : s.Inv) :
    (ptpSwitch h p s).Inv := by
  unfold ptpSwitch
  repeat' (first | with_reducible assumption | with_reducible refine bmca_inv ?_ | with_reducible refine slaveLost_inv ?_ | with_reducible refine half_inv ?_ _ | dsimp only | split | (obtain ⟨⟨m1, m2⟩, ⟨q1, q2, q3, q4⟩, u1, u2, u3, u4, u5, u6, u7, u8, u9, u10⟩ := hx; refine ⟨⟨?_, ?_⟩, ⟨?_, ?_, ?_, ?_⟩, ?_, ?_, ?_, ?_, ?_, ?_, ?_, ?_, ?_, ?_⟩ <;> first | with_reducible assumption | (dsimp only; with_reducible assumption) | with_reducible exact ringPut_wf _ _ _ _ m1 | (simp only [List.length_modify, List.length_map, List.length_set]; with_reducible assumption)))

theorem reelSwitch_inv {h : HalfId} {p : PendingEnv} {old : List Record} {x : Half} (hx : x.Inv) :
    (reelSwitch h p old x).Inv := by
  unfold reelSwitch
  repeat' (first | with_reducible assumption | with_reducible refine devWrite_inv ?_ | with_reducible refine half_inv ?_ _ | dsimp only | split | (obtain ⟨⟨m1, m2⟩, ⟨q1, q2, q3, q4⟩, u1, u2, u3, u4, u5, u6, u7, u8, u9, u10⟩ := hx; refine ⟨⟨?_, ?_⟩, ⟨?_, ?_, ?_, ?_⟩, ?_, ?_, ?_, ?_, ?_, ?_, ?_, ?_, ?_, ?_⟩ <;> first | with_reducible assumption | (dsimp only; with_reducible assumption) | with_reducible exact ringPut_wf _ _ _ _ m1 | (simp only [List.length_modify, List.length_map, List.length_set]; with_reducible assumption)))

theorem clusterSet_inv {rs : List Record} {placed : List Placed} {k : Nat} {x : Half} (hx : x.Inv) :
    (clusterSet rs placed k x).Inv := by
  unfold clusterSet
  repeat' (first | with_reducible assumption | with_reducible refine updCluster_inv ?_ | with_reducible refine foldl_inv (fun s a hs => ?_) ?_ | with_reducible refine foldlH_inv (fun x a hx => ?_) ?_ | with_reducible refine foldl_fst_inv (fun s a hs => ?_) ?_ | with_reducible refine half_inv ?_ _ | dsimp only | split | (obtain ⟨⟨m1, m2⟩, ⟨q1, q2, q3, q4⟩, u1, u2, u3, u4, u5, u6, u7, u8, u9, u10⟩ := hx; refine ⟨⟨?_, ?_⟩, ⟨?_, ?_, ?_, ?_⟩, ?_, ?_, ?_, ?_, ?_, ?_, ?_, ?_, ?_, ?_⟩ <;> first | with_reducible assumption | (dsimp only; with_reducible assumption) | with_reducible exact ringPut_wf _ _ _ _ m1 | (simp only [List.length_modify, List.length_map, List.length_set]; with_reducible assumption)))

theorem gangsSwitch_inv {x : Half} (hx : x.Inv) : (gangsSwitch x).Inv := obj_inv hx

theorem clustersSwitch_inv {p : PendingEnv} {x : Half} (hx : x.Inv) :
    (clustersSwitch p x).Inv := by
  unfold clustersSwitch
  repeat' (first | with_reducible assumption | with_reducible refine clusterSet_inv ?_ | with_reducible refine gangsSwitch_inv ?_ | with_reducible refine foldl_inv (fun s a hs => ?_) ?_ | with_reducible refine foldlH_inv (fun x a hx => ?_) ?_ | with_reducible refine foldl_fst_inv (fun s a hs => ?_) ?_ | with_reducible refine half_inv ?_ _ | dsimp only | split | (obtain ⟨⟨m1, m2⟩, ⟨q1, q2, q3, q4⟩, u1, u2, u3, u4, u5, u6, u7, u8, u9, u10⟩ := hx; refine ⟨⟨?_, ?_⟩, ⟨?_, ?_, ?_, ?_⟩, ?_, ?_, ?_, ?_, ?_, ?_, ?_, ?_, ?_, ?_⟩ <;> first | with_reducible assumption | (dsimp only; with_reducible assumption) | with_reducible exact ringPut_wf _ _ _ _ m1 | (simp only [List.length_modify, List.length_map, List.length_set]; with_reducible assumption)))

theorem decodeNow_inv {p : PendingEnv} {x : Half} {obj : Handle} (hx : x.Inv) :
    (decodeNow p x obj).Inv := by
  unfold decodeNow
  repeat' (first | with_reducible assumption | with_reducible refine updDecode_inv ?_ | with_reducible refine leaveTakeover_inv ?_ | with_reducible refine half_inv ?_ _ | dsimp only | split | (obtain ⟨⟨m1, m2⟩, ⟨q1, q2, q3, q4⟩, u1, u2, u3, u4, u5, u6, u7, u8, u9, u10⟩ := hx; refine ⟨⟨?_, ?_⟩, ⟨?_, ?_, ?_, ?_⟩, ?_, ?_, ?_, ?_, ?_, ?_, ?_, ?_, ?_, ?_⟩ <;> first | with_reducible assumption | (dsimp only; with_reducible assumption) | with_reducible exact ringPut_wf _ _ _ _ m1 | (simp only [List.length_modify, List.length_map, List.length_set]; with_reducible assumption)))

theorem flowNow_inv {h : HalfId} {p : PendingEnv} {obj : Handle} {s : State} (hs : s.Inv) :
    (flowNow h p obj s).Inv := by
  unfold flowNow
  repeat' (first | with_reducible assumption | with_reducible refine switchFlow_inv ?_ | with_reducible refine half_inv ?_ _ | dsimp only | split | (obtain ⟨⟨m1, m2⟩, ⟨q1, q2, q3, q4⟩, u1, u2, u3, u4, u5, u6, u7, u8, u9, u10⟩ := hx; refine ⟨⟨?_, ?_⟩, ⟨?_, ?_, ?_, ?_⟩, ?_, ?_, ?_, ?_, ?_, ?_, ?_, ?_, ?_, ?_⟩ <;> first | with_reducible assumption | (dsimp only; with_reducible assumption) | with_reducible exact ringPut_wf _ _ _ _ m1 | (simp only [List.length_modify, List.length_map, List.length_set]; with_reducible assumption)))

theorem takeoverBegin_inv {h : HalfId} {p0 : PendingEnv} {s : State} (hs : s.Inv) :
    (takeoverBegin h p0 s).Inv := by
  unfold takeoverBegin
  repeat' (first | with_reducible assumption | with_reducible refine dropObject_inv ?_ | with_reducible refine removeIdle_inv ?_ | with_reducible refine leaveGroups_inv ?_ | with_reducible refine updEnv_inv ?_ | with_reducible refine armDo_inv ?_ | with_reducible refine supersede_inv ?_ | with_reducible refine regionsSwitch_inv ?_ | with_reducible refine poolSwitch_inv ?_ | with_reducible refine portSwitch_inv ?_ | with_reducible refine groupsLeft_inv ?_ | with_reducible refine inputsSwitch_inv ?_ | with_reducible refine surfacesSwitch_inv ?_ | with_reducible refine shapersSwitch_inv ?_ | with_reducible refine gatesSwitch_inv ?_ | with_reducible refine ptpSwitch_inv ?_ | with_reducible refine reelSwitch_inv ?_ | with_reducible refine clustersSwitch_inv ?_ | with_reducible refine decodeNow_inv ?_ | with_reducible refine flowNow_inv ?_ | with_reducible refine upd_inv (fun x hx => ?_) ?_ | with_reducible refine foldl_inv (fun s a hs => ?_) ?_ | with_reducible refine foldlH_inv (fun x a hx => ?_) ?_ | with_reducible refine foldl_fst_inv (fun s a hs => ?_) ?_ | with_reducible refine half_inv ?_ _ | dsimp only | split | (obtain ⟨⟨m1, m2⟩, ⟨q1, q2, q3, q4⟩, u1, u2, u3, u4, u5, u6, u7, u8, u9, u10⟩ := hx; refine ⟨⟨?_, ?_⟩, ⟨?_, ?_, ?_, ?_⟩, ?_, ?_, ?_, ?_, ?_, ?_, ?_, ?_, ?_, ?_⟩ <;> first | with_reducible assumption | (dsimp only; with_reducible assumption) | with_reducible exact ringPut_wf _ _ _ _ m1 | (simp only [List.length_modify, List.length_map, List.length_set]; with_reducible assumption)))

/-! Retire.lean -/

theorem dropPicture_inv {h : HalfId} {i : Nat} {x : Half} (hx : x.Inv) : (dropPicture h i x).Inv := by
  unfold dropPicture
  extract_lets src x1 x2 x3
  have h1 : x1.Inv := foldlH_inv (fun x a hx => producerStops_inv hx) hx
  have h2 : x2.Inv := enc_inv (List.length_map _) h1
  exact updEncode_inv (iteH_inv (updCanvas_inv h2) h2)

theorem haltStream_inv {h : HalfId} {i cause : Nat} {s : State} (hs : s.Inv) :
    (haltStream h i cause s).Inv := by
  unfold haltStream
  repeat' (first | with_reducible assumption | with_reducible refine updEncode_inv ?_ | with_reducible refine sourceLost_inv ?_ | with_reducible refine dropPicture_inv ?_ | with_reducible refine upd_inv (fun x hx => ?_) ?_ | with_reducible refine half_inv ?_ _ | dsimp only | split | (obtain ⟨⟨m1, m2⟩, ⟨q1, q2, q3, q4⟩, u1, u2, u3, u4, u5, u6, u7, u8, u9, u10⟩ := hx; refine ⟨⟨?_, ?_⟩, ⟨?_, ?_, ?_, ?_⟩, ?_, ?_, ?_, ?_, ?_, ?_, ?_, ?_, ?_, ?_⟩ <;> first | with_reducible assumption | (dsimp only; with_reducible assumption) | with_reducible exact ringPut_wf _ _ _ _ m1 | (simp only [List.length_modify, List.length_map, List.length_set]; with_reducible assumption)))

theorem redoDecode_inv {c : Nat} {x : Half} (hx : x.Inv) :
    (redoDecode c x).Inv := by
  unfold redoDecode
  repeat' (first | with_reducible assumption | with_reducible refine updDecode_inv ?_ | with_reducible refine half_inv ?_ _ | dsimp only | split | (obtain ⟨⟨m1, m2⟩, ⟨q1, q2, q3, q4⟩, u1, u2, u3, u4, u5, u6, u7, u8, u9, u10⟩ := hx; refine ⟨⟨?_, ?_⟩, ⟨?_, ?_, ?_, ?_⟩, ?_, ?_, ?_, ?_, ?_, ?_, ?_, ?_, ?_, ?_⟩ <;> first | with_reducible assumption | (dsimp only; with_reducible assumption) | with_reducible exact ringPut_wf _ _ _ _ m1 | (simp only [List.length_modify, List.length_map, List.length_set]; with_reducible assumption)))

theorem haltDecode_inv {c : Nat} {wipe : Bool} {x : Half} (hx : x.Inv) :
    (haltDecode c wipe x).Inv := by
  unfold haltDecode
  repeat' (first | with_reducible assumption | with_reducible refine updDecode_inv ?_ | with_reducible refine redoDecode_inv ?_ | with_reducible refine half_inv ?_ _ | dsimp only | split | (obtain ⟨⟨m1, m2⟩, ⟨q1, q2, q3, q4⟩, u1, u2, u3, u4, u5, u6, u7, u8, u9, u10⟩ := hx; refine ⟨⟨?_, ?_⟩, ⟨?_, ?_, ?_, ?_⟩, ?_, ?_, ?_, ?_, ?_, ?_, ?_, ?_, ?_, ?_⟩ <;> first | with_reducible assumption | (dsimp only; with_reducible assumption) | with_reducible exact ringPut_wf _ _ _ _ m1 | (simp only [List.length_modify, List.length_map, List.length_set]; with_reducible assumption)))

theorem dropJobs_inv {i : Nat} {x : Half} (hx : x.Inv) :
    (dropJobs i x).Inv := by
  unfold dropJobs
  repeat' (first | with_reducible assumption | with_reducible refine updCanvas_inv ?_ | with_reducible refine half_inv ?_ _ | dsimp only | split | (obtain ⟨⟨m1, m2⟩, ⟨q1, q2, q3, q4⟩, u1, u2, u3, u4, u5, u6, u7, u8, u9, u10⟩ := hx; refine ⟨⟨?_, ?_⟩, ⟨?_, ?_, ?_, ?_⟩, ?_, ?_, ?_, ?_, ?_, ?_, ?_, ?_, ?_, ?_⟩ <;> first | with_reducible assumption | (dsimp only; with_reducible assumption) | with_reducible exact ringPut_wf _ _ _ _ m1 | (simp only [List.length_modify, List.length_map, List.length_set]; with_reducible assumption)))

theorem haltCanvas_inv {h : HalfId} {i : Nat} {s : State} (hs : s.Inv) :
    (haltCanvas h i s).Inv := by
  unfold haltCanvas
  repeat' (first | with_reducible assumption | with_reducible refine updCanvas_inv ?_ | with_reducible refine haltStream_inv ?_ | with_reducible refine dropJobs_inv ?_ | with_reducible refine upd_inv (fun x hx => ?_) ?_ | with_reducible refine foldl_inv (fun s a hs => ?_) ?_ | with_reducible refine foldlH_inv (fun x a hx => ?_) ?_ | with_reducible refine foldl_fst_inv (fun s a hs => ?_) ?_ | with_reducible refine half_inv ?_ _ | dsimp only | split | (obtain ⟨⟨m1, m2⟩, ⟨q1, q2, q3, q4⟩, u1, u2, u3, u4, u5, u6, u7, u8, u9, u10⟩ := hx; refine ⟨⟨?_, ?_⟩, ⟨?_, ?_, ?_, ?_⟩, ?_, ?_, ?_, ?_, ?_, ?_, ?_, ?_, ?_, ?_⟩ <;> first | with_reducible assumption | (dsimp only; with_reducible assumption) | with_reducible exact ringPut_wf _ _ _ _ m1 | (simp only [List.length_modify, List.length_map, List.length_set]; with_reducible assumption)))

theorem twinPair_inv {h : HalfId} {i base : Nat} {s : State} (hs : s.Inv) :
    (twinPair h i base s).Inv := by
  unfold twinPair
  repeat' (first | with_reducible assumption | with_reducible refine twinRestartAt_inv ?_ | with_reducible refine half_inv ?_ _ | dsimp only | split | (obtain ⟨⟨m1, m2⟩, ⟨q1, q2, q3, q4⟩, u1, u2, u3, u4, u5, u6, u7, u8, u9, u10⟩ := hx; refine ⟨⟨?_, ?_⟩, ⟨?_, ?_, ?_, ?_⟩, ?_, ?_, ?_, ?_, ?_, ?_, ?_, ?_, ?_, ?_⟩ <;> first | with_reducible assumption | (dsimp only; with_reducible assumption) | with_reducible exact ringPut_wf _ _ _ _ m1 | (simp only [List.length_modify, List.length_map, List.length_set]; with_reducible assumption)))

theorem restartStream_inv {h : HalfId} {i base : Nat} {s : State} (hs : s.Inv) :
    (restartStream h i base s).Inv := by
  unfold restartStream
  repeat' (first | with_reducible assumption | with_reducible refine updEncode_inv ?_ | with_reducible refine twinPair_inv ?_ | with_reducible refine upd_inv (fun x hx => ?_) ?_ | with_reducible refine guarded_inv ?_ ?_ | with_reducible refine half_inv ?_ _ | dsimp only | split | (obtain ⟨⟨m1, m2⟩, ⟨q1, q2, q3, q4⟩, u1, u2, u3, u4, u5, u6, u7, u8, u9, u10⟩ := hx; refine ⟨⟨?_, ?_⟩, ⟨?_, ?_, ?_, ?_⟩, ?_, ?_, ?_, ?_, ?_, ?_, ?_, ?_, ?_, ?_⟩ <;> first | with_reducible assumption | (dsimp only; with_reducible assumption) | with_reducible exact ringPut_wf _ _ _ _ m1 | (simp only [List.length_modify, List.length_map, List.length_set]; with_reducible assumption)))

theorem resumeDecode_inv {c : Nat} {x : Half} (hx : x.Inv) :
    (resumeDecode c x).Inv := by
  unfold resumeDecode
  repeat' (first | with_reducible assumption | with_reducible refine updDecode_inv ?_ | with_reducible refine half_inv ?_ _ | dsimp only | split | (obtain ⟨⟨m1, m2⟩, ⟨q1, q2, q3, q4⟩, u1, u2, u3, u4, u5, u6, u7, u8, u9, u10⟩ := hx; refine ⟨⟨?_, ?_⟩, ⟨?_, ?_, ?_, ?_⟩, ?_, ?_, ?_, ?_, ?_, ?_, ?_, ?_, ?_, ?_⟩ <;> first | with_reducible assumption | (dsimp only; with_reducible assumption) | with_reducible exact ringPut_wf _ _ _ _ m1 | (simp only [List.length_modify, List.length_map, List.length_set]; with_reducible assumption)))

theorem restartDecode_inv {h : HalfId} {c : Nat} {s : State} (hs : s.Inv) :
    (restartDecode h c s).Inv := by
  unfold restartDecode
  repeat' (first | with_reducible assumption | with_reducible refine updDecode_inv ?_ | with_reducible refine requestOnce_inv ?_ | with_reducible refine resumeDecode_inv ?_ | with_reducible refine upd_inv (fun x hx => ?_) ?_ | with_reducible refine half_inv ?_ _ | dsimp only | split | (obtain ⟨⟨m1, m2⟩, ⟨q1, q2, q3, q4⟩, u1, u2, u3, u4, u5, u6, u7, u8, u9, u10⟩ := hx; refine ⟨⟨?_, ?_⟩, ⟨?_, ?_, ?_, ?_⟩, ?_, ?_, ?_, ?_, ?_, ?_, ?_, ?_, ?_, ?_⟩ <;> first | with_reducible assumption | (dsimp only; with_reducible assumption) | with_reducible exact ringPut_wf _ _ _ _ m1 | (simp only [List.length_modify, List.length_map, List.length_set]; with_reducible assumption)))

theorem restartCanvas_inv {h : HalfId} {i base : Nat} {fresh : Bool} {x : Half} (hx : x.Inv) :
    (restartCanvas h i base fresh x).Inv := by
  unfold restartCanvas
  repeat' (first | with_reducible assumption | with_reducible refine updCanvas_inv ?_ | with_reducible refine half_inv ?_ _ | dsimp only | split | (obtain ⟨⟨m1, m2⟩, ⟨q1, q2, q3, q4⟩, u1, u2, u3, u4, u5, u6, u7, u8, u9, u10⟩ := hx; refine ⟨⟨?_, ?_⟩, ⟨?_, ?_, ?_, ?_⟩, ?_, ?_, ?_, ?_, ?_, ?_, ?_, ?_, ?_, ?_⟩ <;> first | with_reducible assumption | (dsimp only; with_reducible assumption) | with_reducible exact ringPut_wf _ _ _ _ m1 | (simp only [List.length_modify, List.length_map, List.length_set]; with_reducible assumption)))

theorem haltUser_inv {h : HalfId} {g : Nat} {obj : Handle} {s : State} (hs : s.Inv) :
    (haltUser h g obj s).Inv := by
  unfold haltUser
  repeat' (first | with_reducible assumption | with_reducible refine haltStream_inv ?_ | with_reducible refine haltDecode_inv ?_ | with_reducible refine haltCanvas_inv ?_ | with_reducible refine upd_inv (fun x hx => ?_) ?_ | with_reducible refine half_inv ?_ _ | dsimp only | split | (obtain ⟨⟨m1, m2⟩, ⟨q1, q2, q3, q4⟩, u1, u2, u3, u4, u5, u6, u7, u8, u9, u10⟩ := hx; refine ⟨⟨?_, ?_⟩, ⟨?_, ?_, ?_, ?_⟩, ?_, ?_, ?_, ?_, ?_, ?_, ?_, ?_, ?_, ?_⟩ <;> first | with_reducible assumption | (dsimp only; with_reducible assumption) | with_reducible exact ringPut_wf _ _ _ _ m1 | (simp only [List.length_modify, List.length_map, List.length_set]; with_reducible assumption)))

theorem restartUser_inv {h : HalfId} {base : Nat} {obj : Handle} {s : State} (hs : s.Inv) :
    (restartUser h base obj s).Inv := by
  unfold restartUser
  repeat' (first | with_reducible assumption | with_reducible refine restartStream_inv ?_ | with_reducible refine restartDecode_inv ?_ | with_reducible refine restartCanvas_inv ?_ | with_reducible refine upd_inv (fun x hx => ?_) ?_ | with_reducible refine half_inv ?_ _ | dsimp only | split | (obtain ⟨⟨m1, m2⟩, ⟨q1, q2, q3, q4⟩, u1, u2, u3, u4, u5, u6, u7, u8, u9, u10⟩ := hx; refine ⟨⟨?_, ?_⟩, ⟨?_, ?_, ?_, ?_⟩, ?_, ?_, ?_, ?_, ?_, ?_, ?_, ?_, ?_, ?_⟩ <;> first | with_reducible assumption | (dsimp only; with_reducible assumption) | with_reducible exact ringPut_wf _ _ _ _ m1 | (simp only [List.length_modify, List.length_map, List.length_set]; with_reducible assumption)))

theorem resumeUser_inv {h : HalfId} {base : Nat} {obj : Handle} {s : State} (hs : s.Inv) :
    (resumeUser h base obj s).Inv := by
  unfold resumeUser
  repeat' (first | with_reducible assumption | with_reducible refine restartStream_inv ?_ | with_reducible refine resumeDecode_inv ?_ | with_reducible refine restartCanvas_inv ?_ | with_reducible refine upd_inv (fun x hx => ?_) ?_ | with_reducible refine half_inv ?_ _ | dsimp only | split | (obtain ⟨⟨m1, m2⟩, ⟨q1, q2, q3, q4⟩, u1, u2, u3, u4, u5, u6, u7, u8, u9, u10⟩ := hx; refine ⟨⟨?_, ?_⟩, ⟨?_, ?_, ?_, ?_⟩, ?_, ?_, ?_, ?_, ?_, ?_, ?_, ?_, ?_, ?_⟩ <;> first | with_reducible assumption | (dsimp only; with_reducible assumption) | with_reducible exact ringPut_wf _ _ _ _ m1 | (simp only [List.length_modify, List.length_map, List.length_set]; with_reducible assumption)))

theorem holdObject_inv {obj : Handle} {t : Option Nat} {x : Half} (hx : x.Inv) :
    (holdObject obj t x).Inv := by
  unfold holdObject
  repeat' (first | with_reducible assumption | with_reducible refine updDecode_inv ?_ | with_reducible refine updCanvas_inv ?_ | with_reducible refine updEncode_inv ?_ | with_reducible refine half_inv ?_ _ | dsimp only | split | (obtain ⟨⟨m1, m2⟩, ⟨q1, q2, q3, q4⟩, u1, u2, u3, u4, u5, u6, u7, u8, u9, u10⟩ := hx; refine ⟨⟨?_, ?_⟩, ⟨?_, ?_, ?_, ?_⟩, ?_, ?_, ?_, ?_, ?_, ?_, ?_, ?_, ?_, ?_⟩ <;> first | with_reducible assumption | (dsimp only; with_reducible assumption) | with_reducible exact ringPut_wf _ _ _ _ m1 | (simp only [List.length_modify, List.length_map, List.length_set]; with_reducible assumption)))

theorem shedEvent_inv {h : HalfId} {check : Nat} {dep obj : Handle} {s : State} (hs : s.Inv) :
    (shedEvent h check dep obj s).Inv := by
  unfold shedEvent
  repeat' (first | with_reducible assumption | with_reducible refine event_inv ?_ | with_reducible refine half_inv ?_ _ | dsimp only | split | (obtain ⟨⟨m1, m2⟩, ⟨q1, q2, q3, q4⟩, u1, u2, u3, u4, u5, u6, u7, u8, u9, u10⟩ := hx; refine ⟨⟨?_, ?_⟩, ⟨?_, ?_, ?_, ?_⟩, ?_, ?_, ?_, ?_, ?_, ?_, ?_, ?_, ?_, ?_⟩ <;> first | with_reducible assumption | (dsimp only; with_reducible assumption) | with_reducible exact ringPut_wf _ _ _ _ m1 | (simp only [List.length_modify, List.length_map, List.length_set]; with_reducible assumption)))

theorem shedStream_inv {h : HalfId} {check : Nat} {dep : Handle} {i : Nat} {s : State} (hs : s.Inv) :
    (shedStream h check dep i s).Inv := by
  unfold shedStream
  repeat' (first | with_reducible assumption | with_reducible refine updEncode_inv ?_ | with_reducible refine sourceLost_inv ?_ | with_reducible refine dropPicture_inv ?_ | with_reducible refine shedEvent_inv ?_ | with_reducible refine upd_inv (fun x hx => ?_) ?_ | with_reducible refine half_inv ?_ _ | dsimp only | split | (obtain ⟨⟨m1, m2⟩, ⟨q1, q2, q3, q4⟩, u1, u2, u3, u4, u5, u6, u7, u8, u9, u10⟩ := hx; refine ⟨⟨?_, ?_⟩, ⟨?_, ?_, ?_, ?_⟩, ?_, ?_, ?_, ?_, ?_, ?_, ?_, ?_, ?_, ?_⟩ <;> first | with_reducible assumption | (dsimp only; with_reducible assumption) | with_reducible exact ringPut_wf _ _ _ _ m1 | (simp only [List.length_modify, List.length_map, List.length_set]; with_reducible assumption)))

theorem shedObject_inv {h : HalfId} {check : Nat} {obj : Handle} {s : State} (hs : s.Inv) :
    (shedObject h check obj s).Inv := by
  unfold shedObject
  repeat' (first | with_reducible assumption | with_reducible refine updDecode_inv ?_ | with_reducible refine updCanvas_inv ?_ | with_reducible refine redoDecode_inv ?_ | with_reducible refine dropJobs_inv ?_ | with_reducible refine shedEvent_inv ?_ | with_reducible refine shedStream_inv ?_ | with_reducible refine upd_inv (fun x hx => ?_) ?_ | with_reducible refine foldl_inv (fun s a hs => ?_) ?_ | with_reducible refine foldlH_inv (fun x a hx => ?_) ?_ | with_reducible refine foldl_fst_inv (fun s a hs => ?_) ?_ | with_reducible refine half_inv ?_ _ | dsimp only | split | (obtain ⟨⟨m1, m2⟩, ⟨q1, q2, q3, q4⟩, u1, u2, u3, u4, u5, u6, u7, u8, u9, u10⟩ := hx; refine ⟨⟨?_, ?_⟩, ⟨?_, ?_, ?_, ?_⟩, ?_, ?_, ?_, ?_, ?_, ?_, ?_, ?_, ?_, ?_⟩ <;> first | with_reducible assumption | (dsimp only; with_reducible assumption) | with_reducible exact ringPut_wf _ _ _ _ m1 | (simp only [List.length_modify, List.length_map, List.length_set]; with_reducible assumption)))

theorem shedUntil_inv {h : HalfId} {check : Nat} {types : List Nat} {ok : Half → Bool} {n : Nat} {s : State} (hs : s.Inv) :
    (shedUntil h check types ok n s).Inv := by
  induction n generalizing s with
  | zero => exact hs
  | succ n ih =>
    unfold shedUntil
    repeat' (first | with_reducible assumption | with_reducible refine ih ?_ | with_reducible refine shedObject_inv ?_ | dsimp only | split)

theorem checkOrShed_inv {h : HalfId} {check : Nat} {types : List Nat} {ok : Half → Bool} {charge limit : Half → Nat} {s : State}
    (hs : s.Inv) : (checkOrShed h check types ok charge limit s).Inv := by
  unfold checkOrShed
  repeat' (first | with_reducible assumption | with_reducible refine event_inv ?_ | with_reducible refine shedUntil_inv ?_ | dsimp only | split)

theorem moveDecode_inv {p : Placed} {x : Half} (hx : x.Inv) :
    (moveDecode p x).Inv := by
  unfold moveDecode
  repeat' (first | with_reducible assumption | with_reducible refine updDecode_inv ?_ | with_reducible refine half_inv ?_ _ | dsimp only | split | (obtain ⟨⟨m1, m2⟩, ⟨q1, q2, q3, q4⟩, u1, u2, u3, u4, u5, u6, u7, u8, u9, u10⟩ := hx; refine ⟨⟨?_, ?_⟩, ⟨?_, ?_, ?_, ?_⟩, ?_, ?_, ?_, ?_, ?_, ?_, ?_, ?_, ?_, ?_⟩ <;> first | with_reducible assumption | (dsimp only; with_reducible assumption) | with_reducible exact ringPut_wf _ _ _ _ m1 | (simp only [List.length_modify, List.length_map, List.length_set]; with_reducible assumption)))

theorem moveCanvas_inv {p : Placed} {x : Half} (hx : x.Inv) :
    (moveCanvas p x).Inv := by
  unfold moveCanvas
  repeat' (first | with_reducible assumption | with_reducible refine updCanvas_inv ?_ | with_reducible refine half_inv ?_ _ | dsimp only | split | (obtain ⟨⟨m1, m2⟩, ⟨q1, q2, q3, q4⟩, u1, u2, u3, u4, u5, u6, u7, u8, u9, u10⟩ := hx; refine ⟨⟨?_, ?_⟩, ⟨?_, ?_, ?_, ?_⟩, ?_, ?_, ?_, ?_, ?_, ?_, ?_, ?_, ?_, ?_⟩ <;> first | with_reducible assumption | (dsimp only; with_reducible assumption) | with_reducible exact ringPut_wf _ _ _ _ m1 | (simp only [List.length_modify, List.length_map, List.length_set]; with_reducible assumption)))

theorem moveEncode_inv {h : HalfId} {p : Placed} {s : State} (hs : s.Inv) :
    (moveEncode h p s).Inv := by
  unfold moveEncode
  repeat' (first | with_reducible assumption | with_reducible refine updEncode_inv ?_ | with_reducible refine twinPair_inv ?_ | with_reducible refine upd_inv (fun x hx => ?_) ?_ | with_reducible refine half_inv ?_ _ | dsimp only | split | (obtain ⟨⟨m1, m2⟩, ⟨q1, q2, q3, q4⟩, u1, u2, u3, u4, u5, u6, u7, u8, u9, u10⟩ := hx; refine ⟨⟨?_, ?_⟩, ⟨?_, ?_, ?_, ?_⟩, ?_, ?_, ?_, ?_, ?_, ?_, ?_, ?_, ?_, ?_⟩ <;> first | with_reducible assumption | (dsimp only; with_reducible assumption) | with_reducible exact ringPut_wf _ _ _ _ m1 | (simp only [List.length_modify, List.length_map, List.length_set]; with_reducible assumption)))

theorem rePlace_inv {h : HalfId} {s : State} (hs : s.Inv) :
    (rePlace h s).Inv := by
  unfold rePlace
  repeat' (first | with_reducible assumption | with_reducible refine clusterSet_inv ?_ | with_reducible refine checkOrShed_inv ?_ | with_reducible refine moveDecode_inv ?_ | with_reducible refine moveCanvas_inv ?_ | with_reducible refine moveEncode_inv ?_ | with_reducible refine upd_inv (fun x hx => ?_) ?_ | with_reducible refine foldl_inv (fun s a hs => ?_) ?_ | with_reducible refine foldlH_inv (fun x a hx => ?_) ?_ | with_reducible refine foldl_fst_inv (fun s a hs => ?_) ?_ | with_reducible refine half_inv ?_ _ | dsimp only | split | (obtain ⟨⟨m1, m2⟩, ⟨q1, q2, q3, q4⟩, u1, u2, u3, u4, u5, u6, u7, u8, u9, u10⟩ := hx; refine ⟨⟨?_, ?_⟩, ⟨?_, ?_, ?_, ?_⟩, ?_, ?_, ?_, ?_, ?_, ?_, ?_, ?_, ?_, ?_⟩ <;> first | with_reducible assumption | (dsimp only; with_reducible assumption) | with_reducible exact ringPut_wf _ _ _ _ m1 | (simp only [List.length_modify, List.length_map, List.length_set]; with_reducible assumption)))

theorem updUnit_inv {src : Nat} {f : EngineSt → EngineSt} {x : Half} (hx : x.Inv) :
    (updUnit src f x).Inv := by
  unfold updUnit
  repeat' (first | with_reducible assumption | with_reducible refine half_inv ?_ _ | dsimp only | split | (obtain ⟨⟨m1, m2⟩, ⟨q1, q2, q3, q4⟩, u1, u2, u3, u4, u5, u6, u7, u8, u9, u10⟩ := hx; refine ⟨⟨?_, ?_⟩, ⟨?_, ?_, ?_, ?_⟩, ?_, ?_, ?_, ?_, ?_, ?_, ?_, ?_, ?_, ?_⟩ <;> first | with_reducible assumption | (dsimp only; with_reducible assumption) | with_reducible exact ringPut_wf _ _ _ _ m1 | (simp only [List.length_modify, List.length_map, List.length_set]; with_reducible assumption)))

theorem workHalt_inv {h : HalfId} {src : Nat} {s : State} (hs : s.Inv) :
    (workHalt h src s).Inv := by
  unfold workHalt
  repeat' (first | with_reducible assumption | with_reducible refine updCanvas_inv ?_ | with_reducible refine haltStream_inv ?_ | with_reducible refine redoDecode_inv ?_ | with_reducible refine updUnit_inv ?_ | with_reducible refine upd_inv (fun x hx => ?_) ?_ | with_reducible refine foldl_inv (fun s a hs => ?_) ?_ | with_reducible refine foldlH_inv (fun x a hx => ?_) ?_ | with_reducible refine foldl_fst_inv (fun s a hs => ?_) ?_ | with_reducible refine half_inv ?_ _ | dsimp only | split | (obtain ⟨⟨m1, m2⟩, ⟨q1, q2, q3, q4⟩, u1, u2, u3, u4, u5, u6, u7, u8, u9, u10⟩ := hx; refine ⟨⟨?_, ?_⟩, ⟨?_, ?_, ?_, ?_⟩, ?_, ?_, ?_, ?_, ?_, ?_, ?_, ?_, ?_, ?_⟩ <;> first | with_reducible assumption | (dsimp only; with_reducible assumption) | with_reducible exact ringPut_wf _ _ _ _ m1 | (simp only [List.length_modify, List.length_map, List.length_set]; with_reducible assumption)))

theorem unitDown_inv {h : HalfId} {src : Nat} {s : State} (hs : s.Inv) :
    (unitDown h src s).Inv := by
  unfold unitDown
  repeat' (first | with_reducible assumption | with_reducible refine updUnit_inv ?_ | with_reducible refine workHalt_inv ?_ | with_reducible refine upd_inv (fun x hx => ?_) ?_ | with_reducible refine half_inv ?_ _ | dsimp only | split | (obtain ⟨⟨m1, m2⟩, ⟨q1, q2, q3, q4⟩, u1, u2, u3, u4, u5, u6, u7, u8, u9, u10⟩ := hx; refine ⟨⟨?_, ?_⟩, ⟨?_, ?_, ?_, ?_⟩, ?_, ?_, ?_, ?_, ?_, ?_, ?_, ?_, ?_, ?_⟩ <;> first | with_reducible assumption | (dsimp only; with_reducible assumption) | with_reducible exact ringPut_wf _ _ _ _ m1 | (simp only [List.length_modify, List.length_map, List.length_set]; with_reducible assumption)))

theorem unitResume_inv {h : HalfId} {src : Nat} {s : State} (hs : s.Inv) :
    (unitResume h src s).Inv := by
  unfold unitResume
  repeat' (first | with_reducible assumption | with_reducible refine event_inv ?_ | with_reducible refine producerRestarts_inv ?_ | with_reducible refine restartStream_inv ?_ | with_reducible refine updUnit_inv ?_ | with_reducible refine upd_inv (fun x hx => ?_) ?_ | with_reducible refine foldl_inv (fun s a hs => ?_) ?_ | with_reducible refine foldlH_inv (fun x a hx => ?_) ?_ | with_reducible refine foldl_fst_inv (fun s a hs => ?_) ?_ | with_reducible refine guarded_inv ?_ ?_ | with_reducible refine half_inv ?_ _ | dsimp only | split | (obtain ⟨⟨m1, m2⟩, ⟨q1, q2, q3, q4⟩, u1, u2, u3, u4, u5, u6, u7, u8, u9, u10⟩ := hx; refine ⟨⟨?_, ?_⟩, ⟨?_, ?_, ?_, ?_⟩, ?_, ?_, ?_, ?_, ?_, ?_, ?_, ?_, ?_, ?_⟩ <;> first | with_reducible assumption | (dsimp only; with_reducible assumption) | with_reducible exact ringPut_wf _ _ _ _ m1 | (simp only [List.length_modify, List.length_map, List.length_set]; with_reducible assumption)))

theorem retiredEvent_inv {h : HalfId} {unit : Handle} {cause : Nat} {s : State} (hs : s.Inv) :
    (retiredEvent h unit cause s).Inv := by
  unfold retiredEvent
  repeat' (first | with_reducible assumption | with_reducible refine event_inv ?_ | with_reducible refine half_inv ?_ _ | dsimp only | split | (obtain ⟨⟨m1, m2⟩, ⟨q1, q2, q3, q4⟩, u1, u2, u3, u4, u5, u6, u7, u8, u9, u10⟩ := hx; refine ⟨⟨?_, ?_⟩, ⟨?_, ?_, ?_, ?_⟩, ?_, ?_, ?_, ?_, ?_, ?_, ?_, ?_, ?_, ?_⟩ <;> first | with_reducible assumption | (dsimp only; with_reducible assumption) | with_reducible exact ringPut_wf _ _ _ _ m1 | (simp only [List.length_modify, List.length_map, List.length_set]; with_reducible assumption)))

theorem retireEngine_inv {h : HalfId} {src cause : Nat} {s : State} (hs : s.Inv) :
    (retireEngine h src cause s).Inv := by
  unfold retireEngine
  repeat' (first | with_reducible assumption | with_reducible refine counterRetires_inv ?_ | with_reducible refine disarm_inv ?_ | with_reducible refine updIsland_inv ?_ | with_reducible refine producerStops_inv ?_ | with_reducible refine haltStream_inv ?_ | with_reducible refine redoDecode_inv ?_ | with_reducible refine restartStream_inv ?_ | with_reducible refine rePlace_inv ?_ | with_reducible refine updUnit_inv ?_ | with_reducible refine workHalt_inv ?_ | with_reducible refine retiredEvent_inv ?_ | with_reducible refine upd_inv (fun x hx => ?_) ?_ | with_reducible refine foldl_inv (fun s a hs => ?_) ?_ | with_reducible refine foldlH_inv (fun x a hx => ?_) ?_ | with_reducible refine foldl_fst_inv (fun s a hs => ?_) ?_ | with_reducible refine half_inv ?_ _ | dsimp only | split | (obtain ⟨⟨m1, m2⟩, ⟨q1, q2, q3, q4⟩, u1, u2, u3, u4, u5, u6, u7, u8, u9, u10⟩ := hx; refine ⟨⟨?_, ?_⟩, ⟨?_, ?_, ?_, ?_⟩, ?_, ?_, ?_, ?_, ?_, ?_, ?_, ?_, ?_, ?_⟩ <;> first | with_reducible assumption | (dsimp only; with_reducible assumption) | with_reducible exact ringPut_wf _ _ _ _ m1 | (simp only [List.length_modify, List.length_map, List.length_set]; with_reducible assumption)))

theorem retirePort_inv {h : HalfId} {n cause : Nat} {s : State} (hs : s.Inv) :
    (retirePort h n cause s).Inv := by
  unfold retirePort
  repeat' (first | with_reducible assumption | with_reducible refine counterRetires_inv ?_ | with_reducible refine updPort_inv ?_ | with_reducible refine restartPort_inv ?_ | with_reducible refine retiredEvent_inv ?_ | with_reducible refine upd_inv (fun x hx => ?_) ?_ | with_reducible refine half_inv ?_ _ | dsimp only | split | (obtain ⟨⟨m1, m2⟩, ⟨q1, q2, q3, q4⟩, u1, u2, u3, u4, u5, u6, u7, u8, u9, u10⟩ := hx; refine ⟨⟨?_, ?_⟩, ⟨?_, ?_, ?_, ?_⟩, ?_, ?_, ?_, ?_, ?_, ?_, ?_, ?_, ?_, ?_⟩ <;> first | with_reducible assumption | (dsimp only; with_reducible assumption) | with_reducible exact ringPut_wf _ _ _ _ m1 | (simp only [List.length_modify, List.length_map, List.length_set]; with_reducible assumption)))

/-! Evacuate.lean -/

theorem updChannel_inv {n : Nat} {f : ChannelSt → ChannelSt} {x : Half} (hx : x.Inv) :
    (updChannel n f x).Inv := by
  unfold updChannel
  repeat' (first | with_reducible assumption | with_reducible refine half_inv ?_ _ | dsimp only | split | (obtain ⟨⟨m1, m2⟩, ⟨q1, q2, q3, q4⟩, u1, u2, u3, u4, u5, u6, u7, u8, u9, u10⟩ := hx; refine ⟨⟨?_, ?_⟩, ⟨?_, ?_, ?_, ?_⟩, ?_, ?_, ?_, ?_, ?_, ?_, ?_, ?_, ?_, ?_⟩ <;> first | with_reducible assumption | (dsimp only; with_reducible assumption) | with_reducible exact ringPut_wf _ _ _ _ m1 | (simp only [List.length_modify, List.length_map, List.length_set]; with_reducible assumption)))

theorem shedUsers_inv {h : HalfId} {gs : List Nat} {s : State} (hs : s.Inv) :
    (shedUsers h gs s).1.Inv := by
  unfold shedUsers
  repeat' (first | with_reducible assumption | with_reducible refine shedObject_inv ?_ | with_reducible refine foldl_inv (fun s a hs => ?_) ?_ | with_reducible refine foldlH_inv (fun x a hx => ?_) ?_ | with_reducible refine foldl_fst_inv (fun s a hs => ?_) ?_ | with_reducible refine half_inv ?_ _ | dsimp only | split | (obtain ⟨⟨m1, m2⟩, ⟨q1, q2, q3, q4⟩, u1, u2, u3, u4, u5, u6, u7, u8, u9, u10⟩ := hx; refine ⟨⟨?_, ?_⟩, ⟨?_, ?_, ?_, ?_⟩, ?_, ?_, ?_, ?_, ?_, ?_, ?_, ?_, ?_, ?_⟩ <;> first | with_reducible assumption | (dsimp only; with_reducible assumption) | with_reducible exact ringPut_wf _ _ _ _ m1 | (simp only [List.length_modify, List.length_map, List.length_set]; with_reducible assumption)))

theorem bandwidthCheck_inv {h : HalfId} {s : State} (hs : s.Inv) :
    (bandwidthCheck h s).Inv := by
  unfold bandwidthCheck
  repeat' (first | with_reducible assumption | with_reducible refine checkOrShed_inv ?_ | with_reducible refine half_inv ?_ _ | dsimp only | split | (obtain ⟨⟨m1, m2⟩, ⟨q1, q2, q3, q4⟩, u1, u2, u3, u4, u5, u6, u7, u8, u9, u10⟩ := hx; refine ⟨⟨?_, ?_⟩, ⟨?_, ?_, ?_, ?_⟩, ?_, ?_, ?_, ?_, ?_, ?_, ?_, ?_, ?_, ?_⟩ <;> first | with_reducible assumption | (dsimp only; with_reducible assumption) | with_reducible exact ringPut_wf _ _ _ _ m1 | (simp only [List.length_modify, List.length_map, List.length_set]; with_reducible assumption)))

theorem moveRegion_inv {h : HalfId} {q : Placement} {c off : Nat} {x : Half} (hx : x.Inv) : (moveRegion h q c off x).Inv := by
  unfold moveRegion
  extract_lets +onlyGivenNames a b y mine blocks z src w
  have hz : z.Inv := devClear_inv (devClear_inv (fillsEnd_inv hx))
  have hw : w.Inv := dram_inv (memFold_wf _ _ (fun m a hm => memSet_wf _ _ hm) hz.1.2) hz
  refine foldlH_inv (fun x p hx => ?_) hw
  dsimp only
  split
  · exact updPool_inv hx
  · exact poolThread_inv (updPool_inv hx)

theorem freshRegion_inv {h : HalfId} {q : Placement} {c off : Nat} {x : Half} (hx : x.Inv) :
    (freshRegion h q c off x).Inv := by
  unfold freshRegion
  repeat' (first | with_reducible assumption | with_reducible refine devClear_inv ?_ | with_reducible refine poolBegin_inv ?_ | with_reducible refine foldl_inv (fun s a hs => ?_) ?_ | with_reducible refine foldlH_inv (fun x a hx => ?_) ?_ | with_reducible refine foldl_fst_inv (fun s a hs => ?_) ?_ | with_reducible refine half_inv ?_ _ | dsimp only | split | (obtain ⟨⟨m1, m2⟩, ⟨q1, q2, q3, q4⟩, u1, u2, u3, u4, u5, u6, u7, u8, u9, u10⟩ := hx; refine ⟨⟨?_, ?_⟩, ⟨?_, ?_, ?_, ?_⟩, ?_, ?_, ?_, ?_, ?_, ?_, ?_, ?_, ?_, ?_⟩ <;> first | with_reducible assumption | (dsimp only; with_reducible assumption) | with_reducible exact ringPut_wf _ _ _ _ m1 | (simp only [List.length_modify, List.length_map, List.length_set]; with_reducible assumption)))

theorem releaseRegion_inv {h : HalfId} {q : Placement} {x : Half} (hx : x.Inv) :
    (releaseRegion h q x).Inv := by
  unfold releaseRegion
  repeat' (first | with_reducible assumption | with_reducible refine devClear_inv ?_ | with_reducible refine updPool_inv ?_ | with_reducible refine foldl_inv (fun s a hs => ?_) ?_ | with_reducible refine foldlH_inv (fun x a hx => ?_) ?_ | with_reducible refine foldl_fst_inv (fun s a hs => ?_) ?_ | with_reducible refine half_inv ?_ _ | dsimp only | split | (obtain ⟨⟨m1, m2⟩, ⟨q1, q2, q3, q4⟩, u1, u2, u3, u4, u5, u6, u7, u8, u9, u10⟩ := hx; refine ⟨⟨?_, ?_⟩, ⟨?_, ?_, ?_, ?_⟩, ?_, ?_, ?_, ?_, ?_, ?_, ?_, ?_, ?_, ?_⟩ <;> first | with_reducible assumption | (dsimp only; with_reducible assumption) | with_reducible exact ringPut_wf _ _ _ _ m1 | (simp only [List.length_modify, List.length_map, List.length_set]; with_reducible assumption)))

theorem regionsLost_inv {h : HalfId} {plan : List (Placement × Option (Nat × Nat))} {s : State} (hs : s.Inv) :
    (regionsLost h plan s).Inv := by
  unfold regionsLost
  repeat' (first | with_reducible assumption | with_reducible refine haltUser_inv ?_ | with_reducible refine restartUser_inv ?_ | with_reducible refine shedUsers_inv ?_ | with_reducible refine freshRegion_inv ?_ | with_reducible refine releaseRegion_inv ?_ | with_reducible refine upd_inv (fun x hx => ?_) ?_ | with_reducible refine foldl_inv (fun s a hs => ?_) ?_ | with_reducible refine foldlH_inv (fun x a hx => ?_) ?_ | with_reducible refine foldl_fst_inv (fun s a hs => ?_) ?_ | with_reducible refine half_inv ?_ _ | dsimp only | split | (obtain ⟨⟨m1, m2⟩, ⟨q1, q2, q3, q4⟩, u1, u2, u3, u4, u5, u6, u7, u8, u9, u10⟩ := hx; refine ⟨⟨?_, ?_⟩, ⟨?_, ?_, ?_, ?_⟩, ?_, ?_, ?_, ?_, ?_, ?_, ?_, ?_, ?_, ?_⟩ <;> first | with_reducible assumption | (dsimp only; with_reducible assumption) | with_reducible exact ringPut_wf _ _ _ _ m1 | (simp only [List.length_modify, List.length_map, List.length_set]; with_reducible assumption)))

theorem channelOut_inv {n : Nat} {x : Half} (hx : x.Inv) :
    (channelOut n x).Inv := by
  unfold channelOut
  repeat' (first | with_reducible assumption | with_reducible refine counterRetires_inv ?_ | with_reducible refine disarm_inv ?_ | with_reducible refine updIsland_inv ?_ | with_reducible refine updChannel_inv ?_ | with_reducible refine half_inv ?_ _ | dsimp only | split | (obtain ⟨⟨m1, m2⟩, ⟨q1, q2, q3, q4⟩, u1, u2, u3, u4, u5, u6, u7, u8, u9, u10⟩ := hx; refine ⟨⟨?_, ?_⟩, ⟨?_, ?_, ?_, ?_⟩, ?_, ?_, ?_, ?_, ?_, ?_, ?_, ?_, ?_, ?_⟩ <;> first | with_reducible assumption | (dsimp only; with_reducible assumption) | with_reducible exact ringPut_wf _ _ _ _ m1 | (simp only [List.length_modify, List.length_map, List.length_set]; with_reducible assumption)))

theorem retireHalf_inv {h : HalfId} {cause : Nat} {s : State} (hs : s.Inv) :
    (retireHalf h cause s).Inv := by
  unfold retireHalf
  repeat' (first | with_reducible assumption | with_reducible refine stopTether_inv ?_ | with_reducible refine retiredEvent_inv ?_ | with_reducible refine half_inv ?_ _ | dsimp only | split | (obtain ⟨⟨m1, m2⟩, ⟨q1, q2, q3, q4⟩, u1, u2, u3, u4, u5, u6, u7, u8, u9, u10⟩ := hx; refine ⟨⟨?_, ?_⟩, ⟨?_, ?_, ?_, ?_⟩, ?_, ?_, ?_, ?_, ?_, ?_, ?_, ?_, ?_, ?_⟩ <;> first | with_reducible assumption | (dsimp only; with_reducible assumption) | with_reducible exact ringPut_wf _ _ _ _ m1 | (simp only [List.length_modify, List.length_map, List.length_set]; with_reducible assumption)))

theorem evacTurn_inv {h : HalfId} {n : Nat} {x : Half} (hx : x.Inv) :
    (evacTurn h n x).Inv := by
  unfold evacTurn
  repeat' (first | with_reducible assumption | with_reducible refine holdObject_inv ?_ | with_reducible refine updChannel_inv ?_ | with_reducible refine foldl_inv (fun s a hs => ?_) ?_ | with_reducible refine foldlH_inv (fun x a hx => ?_) ?_ | with_reducible refine foldl_fst_inv (fun s a hs => ?_) ?_ | with_reducible refine half_inv ?_ _ | dsimp only | split | (obtain ⟨⟨m1, m2⟩, ⟨q1, q2, q3, q4⟩, u1, u2, u3, u4, u5, u6, u7, u8, u9, u10⟩ := hx; refine ⟨⟨?_, ?_⟩, ⟨?_, ?_, ?_, ?_⟩, ?_, ?_, ?_, ?_, ?_, ?_, ?_, ?_, ?_, ?_⟩ <;> first | with_reducible assumption | (dsimp only; with_reducible assumption) | with_reducible exact ringPut_wf _ _ _ _ m1 | (simp only [List.length_modify, List.length_map, List.length_set]; with_reducible assumption)))

theorem reserveLeave_inv {h : HalfId} {n : Nat} {copied : Bool} {s : State} (hs : s.Inv) :
    (reserveLeave h n copied s).Inv := by
  unfold reserveLeave
  repeat' (first | with_reducible assumption | with_reducible refine updChannel_inv ?_ | with_reducible refine shedUsers_inv ?_ | with_reducible refine releaseRegion_inv ?_ | with_reducible refine retireHalf_inv ?_ | with_reducible refine evacTurn_inv ?_ | with_reducible refine upd_inv (fun x hx => ?_) ?_ | with_reducible refine foldl_inv (fun s a hs => ?_) ?_ | with_reducible refine foldlH_inv (fun x a hx => ?_) ?_ | with_reducible refine foldl_fst_inv (fun s a hs => ?_) ?_ | with_reducible refine half_inv ?_ _ | dsimp only | split | (obtain ⟨⟨m1, m2⟩, ⟨q1, q2, q3, q4⟩, u1, u2, u3, u4, u5, u6, u7, u8, u9, u10⟩ := hx; refine ⟨⟨?_, ?_⟩, ⟨?_, ?_, ?_, ?_⟩, ?_, ?_, ?_, ?_, ?_, ?_, ?_, ?_, ?_, ?_⟩ <;> first | with_reducible assumption | (dsimp only; with_reducible assumption) | with_reducible exact ringPut_wf _ _ _ _ m1 | (simp only [List.length_modify, List.length_map, List.length_set]; with_reducible assumption)))

theorem evacBegin_inv {h : HalfId} {n purpose : Nat} {s : State} (hs : s.Inv) :
    (evacBegin h n purpose s).Inv := by
  unfold evacBegin
  repeat' (first | with_reducible assumption | with_reducible refine event_inv ?_ | with_reducible refine updChannel_inv ?_ | with_reducible refine shedUsers_inv ?_ | with_reducible refine bandwidthCheck_inv ?_ | with_reducible refine evacTurn_inv ?_ | with_reducible refine reserveLeave_inv ?_ | with_reducible refine upd_inv (fun x hx => ?_) ?_ | with_reducible refine half_inv ?_ _ | dsimp only | split | (obtain ⟨⟨m1, m2⟩, ⟨q1, q2, q3, q4⟩, u1, u2, u3, u4, u5, u6, u7, u8, u9, u10⟩ := hx; refine ⟨⟨?_, ?_⟩, ⟨?_, ?_, ?_, ?_⟩, ?_, ?_, ?_, ?_, ?_, ?_, ?_, ?_, ?_, ?_⟩ <;> first | with_reducible assumption | (dsimp only; with_reducible assumption) | with_reducible exact ringPut_wf _ _ _ _ m1 | (simp only [List.length_modify, List.length_map, List.length_set]; with_reducible assumption)))

theorem evacEnd_inv {h : HalfId} {n : Nat} {v : EvacSt} {s : State} (hs : s.Inv) :
    (evacEnd h n v s).Inv := by
  unfold evacEnd
  repeat' (first | with_reducible assumption | with_reducible refine event_inv ?_ | with_reducible refine updChannel_inv ?_ | with_reducible refine releaseRegion_inv ?_ | with_reducible refine channelOut_inv ?_ | with_reducible refine reserveLeave_inv ?_ | with_reducible refine upd_inv (fun x hx => ?_) ?_ | with_reducible refine foldl_inv (fun s a hs => ?_) ?_ | with_reducible refine foldlH_inv (fun x a hx => ?_) ?_ | with_reducible refine foldl_fst_inv (fun s a hs => ?_) ?_ | with_reducible refine half_inv ?_ _ | dsimp only | split | (obtain ⟨⟨m1, m2⟩, ⟨q1, q2, q3, q4⟩, u1, u2, u3, u4, u5, u6, u7, u8, u9, u10⟩ := hx; refine ⟨⟨?_, ?_⟩, ⟨?_, ?_, ?_, ?_⟩, ?_, ?_, ?_, ?_, ?_, ?_, ?_, ?_, ?_, ?_⟩ <;> first | with_reducible assumption | (dsimp only; with_reducible assumption) | with_reducible exact ringPut_wf _ _ _ _ m1 | (simp only [List.length_modify, List.length_map, List.length_set]; with_reducible assumption)))

theorem evacAdvance_inv {h : HalfId} {n : Nat} {s : State} (hs : s.Inv) :
    (evacAdvance h n s).Inv := by
  unfold evacAdvance
  repeat' (first | with_reducible assumption | with_reducible refine updDecode_inv ?_ | with_reducible refine updCanvas_inv ?_ | with_reducible refine haltStream_inv ?_ | with_reducible refine updChannel_inv ?_ | with_reducible refine evacEnd_inv ?_ | with_reducible refine upd_inv (fun x hx => ?_) ?_ | with_reducible refine foldl_inv (fun s a hs => ?_) ?_ | with_reducible refine foldlH_inv (fun x a hx => ?_) ?_ | with_reducible refine foldl_fst_inv (fun s a hs => ?_) ?_ | with_reducible refine half_inv ?_ _ | dsimp only | split | (obtain ⟨⟨m1, m2⟩, ⟨q1, q2, q3, q4⟩, u1, u2, u3, u4, u5, u6, u7, u8, u9, u10⟩ := hx; refine ⟨⟨?_, ?_⟩, ⟨?_, ?_, ?_, ?_⟩, ?_, ?_, ?_, ?_, ?_, ?_, ?_, ?_, ?_, ?_⟩ <;> first | with_reducible assumption | (dsimp only; with_reducible assumption) | with_reducible exact ringPut_wf _ _ _ _ m1 | (simp only [List.length_modify, List.length_map, List.length_set]; with_reducible assumption)))

theorem regionCopied_inv {h : HalfId} {n : Nat} {s : State} (hs : s.Inv) :
    (regionCopied h n s).Inv := by
  unfold regionCopied
  repeat' (first | with_reducible assumption | with_reducible refine resumeUser_inv ?_ | with_reducible refine updChannel_inv ?_ | with_reducible refine moveRegion_inv ?_ | with_reducible refine evacTurn_inv ?_ | with_reducible refine evacAdvance_inv ?_ | with_reducible refine upd_inv (fun x hx => ?_) ?_ | with_reducible refine foldl_inv (fun s a hs => ?_) ?_ | with_reducible refine foldlH_inv (fun x a hx => ?_) ?_ | with_reducible refine foldl_fst_inv (fun s a hs => ?_) ?_ | with_reducible refine half_inv ?_ _ | dsimp only | split | (obtain ⟨⟨m1, m2⟩, ⟨q1, q2, q3, q4⟩, u1, u2, u3, u4, u5, u6, u7, u8, u9, u10⟩ := hx; refine ⟨⟨?_, ?_⟩, ⟨?_, ?_, ?_, ?_⟩, ?_, ?_, ?_, ?_, ?_, ?_, ?_, ?_, ?_, ?_⟩ <;> first | with_reducible assumption | (dsimp only; with_reducible assumption) | with_reducible exact ringPut_wf _ _ _ _ m1 | (simp only [List.length_modify, List.length_map, List.length_set]; with_reducible assumption)))

theorem frozenReact_inv {h : HalfId} {n : Nat} {s : State} (hs : s.Inv) :
    (frozenReact h n s).Inv := by
  unfold frozenReact
  repeat' (first | with_reducible assumption | with_reducible refine event_inv ?_ | with_reducible refine haltUser_inv ?_ | with_reducible refine holdObject_inv ?_ | with_reducible refine updChannel_inv ?_ | with_reducible refine bandwidthCheck_inv ?_ | with_reducible refine regionsLost_inv ?_ | with_reducible refine channelOut_inv ?_ | with_reducible refine reserveLeave_inv ?_ | with_reducible refine upd_inv (fun x hx => ?_) ?_ | with_reducible refine foldl_inv (fun s a hs => ?_) ?_ | with_reducible refine foldlH_inv (fun x a hx => ?_) ?_ | with_reducible refine foldl_fst_inv (fun s a hs => ?_) ?_ | with_reducible refine half_inv ?_ _ | dsimp only | split | (obtain ⟨⟨m1, m2⟩, ⟨q1, q2, q3, q4⟩, u1, u2, u3, u4, u5, u6, u7, u8, u9, u10⟩ := hx; refine ⟨⟨?_, ?_⟩, ⟨?_, ?_, ?_, ?_⟩, ?_, ?_, ?_, ?_, ?_, ?_, ?_, ?_, ?_, ?_⟩ <;> first | with_reducible assumption | (dsimp only; with_reducible assumption) | with_reducible exact ringPut_wf _ _ _ _ m1 | (simp only [List.length_modify, List.length_map, List.length_set]; with_reducible assumption)))

theorem retireChannel_inv {h : HalfId} {n cause : Nat} {s : State} (hs : s.Inv) :
    (retireChannel h n cause s).Inv := by
  unfold retireChannel
  repeat' (first | with_reducible assumption | with_reducible refine stopTether_inv ?_ | with_reducible refine rePlace_inv ?_ | with_reducible refine retiredEvent_inv ?_ | with_reducible refine regionsLost_inv ?_ | with_reducible refine channelOut_inv ?_ | with_reducible refine reserveLeave_inv ?_ | with_reducible refine upd_inv (fun x hx => ?_) ?_ | with_reducible refine half_inv ?_ _ | dsimp only | split | (obtain ⟨⟨m1, m2⟩, ⟨q1, q2, q3, q4⟩, u1, u2, u3, u4, u5, u6, u7, u8, u9, u10⟩ := hx; refine ⟨⟨?_, ?_⟩, ⟨?_, ?_, ?_, ?_⟩, ?_, ?_, ?_, ?_, ?_, ?_, ?_, ?_, ?_, ?_⟩ <;> first | with_reducible assumption | (dsimp only; with_reducible assumption) | with_reducible exact ringPut_wf _ _ _ _ m1 | (simp only [List.length_modify, List.length_map, List.length_set]; with_reducible assumption)))

theorem retireSource_inv {h : HalfId} {src cause : Nat} {s : State} (hs : s.Inv) :
    (retireSource h src cause s).Inv := by
  unfold retireSource
  repeat' (first | with_reducible assumption | with_reducible refine retireEngine_inv ?_ | with_reducible refine retirePort_inv ?_ | with_reducible refine evacBegin_inv ?_ | with_reducible refine retireChannel_inv ?_ | with_reducible refine half_inv ?_ _ | dsimp only | split | (obtain ⟨⟨m1, m2⟩, ⟨q1, q2, q3, q4⟩, u1, u2, u3, u4, u5, u6, u7, u8, u9, u10⟩ := hx; refine ⟨⟨?_, ?_⟩, ⟨?_, ?_, ?_, ?_⟩, ?_, ?_, ?_, ?_, ?_, ?_, ?_, ?_, ?_, ?_⟩ <;> first | with_reducible assumption | (dsimp only; with_reducible assumption) | with_reducible exact ringPut_wf _ _ _ _ m1 | (simp only [List.length_modify, List.length_map, List.length_set]; with_reducible assumption)))

theorem restartSource_inv {h : HalfId} {src : Nat} {s : State} (hs : s.Inv) :
    (restartSource h src s).Inv := by
  unfold restartSource
  repeat' (first | with_reducible assumption | with_reducible refine unitResume_inv ?_ | with_reducible refine half_inv ?_ _ | dsimp only | split | (obtain ⟨⟨m1, m2⟩, ⟨q1, q2, q3, q4⟩, u1, u2, u3, u4, u5, u6, u7, u8, u9, u10⟩ := hx; refine ⟨⟨?_, ?_⟩, ⟨?_, ?_, ?_, ?_⟩, ?_, ?_, ?_, ?_, ?_, ?_, ?_, ?_, ?_, ?_⟩ <;> first | with_reducible assumption | (dsimp only; with_reducible assumption) | with_reducible exact ringPut_wf _ _ _ _ m1 | (simp only [List.length_modify, List.length_map, List.length_set]; with_reducible assumption)))

theorem reactSecond_inv {h : HalfId} {src : Nat} {s : State} (hs : s.Inv) :
    (reactSecond h src s).Inv := by
  unfold reactSecond
  repeat' (first | with_reducible assumption | with_reducible refine retireSource_inv ?_ | with_reducible refine restartSource_inv ?_ | with_reducible refine half_inv ?_ _ | dsimp only | split | (obtain ⟨⟨m1, m2⟩, ⟨q1, q2, q3, q4⟩, u1, u2, u3, u4, u5, u6, u7, u8, u9, u10⟩ := hx; refine ⟨⟨?_, ?_⟩, ⟨?_, ?_, ?_, ?_⟩, ?_, ?_, ?_, ?_, ?_, ?_, ?_, ?_, ?_, ?_⟩ <;> first | with_reducible assumption | (dsimp only; with_reducible assumption) | with_reducible exact ringPut_wf _ _ _ _ m1 | (simp only [List.length_modify, List.length_map, List.length_set]; with_reducible assumption)))

theorem react_inv {h : HalfId} {src : Nat} {s : State} (hs : s.Inv) :
    (react h src s).Inv := by
  unfold react
  repeat' (first | with_reducible assumption | with_reducible refine reactSecond_inv ?_ | with_reducible refine upd_inv (fun x hx => ?_) ?_ | with_reducible refine half_inv ?_ _ | dsimp only | split | (obtain ⟨⟨m1, m2⟩, ⟨q1, q2, q3, q4⟩, u1, u2, u3, u4, u5, u6, u7, u8, u9, u10⟩ := hx; refine ⟨⟨?_, ?_⟩, ⟨?_, ?_, ?_, ?_⟩, ?_, ?_, ?_, ?_, ?_, ?_, ?_, ?_, ?_, ?_⟩ <;> first | with_reducible assumption | (dsimp only; with_reducible assumption) | with_reducible exact ringPut_wf _ _ _ _ m1 | (simp only [List.length_modify, List.length_map, List.length_set]; with_reducible assumption)))

theorem quiesceUnit_inv {h : HalfId} {src : Nat} {x : Half} (hx : x.Inv) :
    (quiesceUnit h src x).Inv := by
  unfold quiesceUnit
  repeat' (first | with_reducible assumption | with_reducible refine updUnit_inv ?_ | with_reducible refine half_inv ?_ _ | dsimp only | split | (obtain ⟨⟨m1, m2⟩, ⟨q1, q2, q3, q4⟩, u1, u2, u3, u4, u5, u6, u7, u8, u9, u10⟩ := hx; refine ⟨⟨?_, ?_⟩, ⟨?_, ?_, ?_, ?_⟩, ?_, ?_, ?_, ?_, ?_, ?_, ?_, ?_, ?_, ?_⟩ <;> first | with_reducible assumption | (dsimp only; with_reducible assumption) | with_reducible exact ringPut_wf _ _ _ _ m1 | (simp only [List.length_modify, List.length_map, List.length_set]; with_reducible assumption)))

theorem quiescePort_inv {n : Nat} {x : Half} (hx : x.Inv) :
    (quiescePort n x).Inv := by
  unfold quiescePort
  repeat' (first | with_reducible assumption | with_reducible refine updPort_inv ?_ | with_reducible refine half_inv ?_ _ | dsimp only | split | (obtain ⟨⟨m1, m2⟩, ⟨q1, q2, q3, q4⟩, u1, u2, u3, u4, u5, u6, u7, u8, u9, u10⟩ := hx; refine ⟨⟨?_, ?_⟩, ⟨?_, ?_, ?_, ?_⟩, ?_, ?_, ?_, ?_, ?_, ?_, ?_, ?_, ?_, ?_⟩ <;> first | with_reducible assumption | (dsimp only; with_reducible assumption) | with_reducible exact ringPut_wf _ _ _ _ m1 | (simp only [List.length_modify, List.length_map, List.length_set]; with_reducible assumption)))

theorem haltIdle_inv {h : HalfId} {src : Nat} {s : State} (hs : s.Inv) :
    (haltIdle h src s).Inv := by
  unfold haltIdle
  repeat' (first | with_reducible assumption | with_reducible refine unitDown_inv ?_ | with_reducible refine react_inv ?_ | with_reducible refine half_inv ?_ _ | dsimp only | split | (obtain ⟨⟨m1, m2⟩, ⟨q1, q2, q3, q4⟩, u1, u2, u3, u4, u5, u6, u7, u8, u9, u10⟩ := hx; refine ⟨⟨?_, ?_⟩, ⟨?_, ?_, ?_, ?_⟩, ?_, ?_, ?_, ?_, ?_, ?_, ?_, ?_, ?_, ?_⟩ <;> first | with_reducible assumption | (dsimp only; with_reducible assumption) | with_reducible exact ringPut_wf _ _ _ _ m1 | (simp only [List.length_modify, List.length_map, List.length_set]; with_reducible assumption)))

theorem settle_inv {h : HalfId} {s : State} (hs : s.Inv) :
    (settle h s).Inv := by
  unfold settle
  repeat' (first | with_reducible assumption | with_reducible refine retireEngine_inv ?_ | with_reducible refine evacAdvance_inv ?_ | with_reducible refine frozenReact_inv ?_ | with_reducible refine react_inv ?_ | with_reducible refine quiesceUnit_inv ?_ | with_reducible refine quiescePort_inv ?_ | with_reducible refine haltIdle_inv ?_ | with_reducible refine upd_inv (fun x hx => ?_) ?_ | with_reducible refine foldl_inv (fun s a hs => ?_) ?_ | with_reducible refine foldlH_inv (fun x a hx => ?_) ?_ | with_reducible refine foldl_fst_inv (fun s a hs => ?_) ?_ | with_reducible refine half_inv ?_ _ | dsimp only | split | (obtain ⟨⟨m1, m2⟩, ⟨q1, q2, q3, q4⟩, u1, u2, u3, u4, u5, u6, u7, u8, u9, u10⟩ := hx; refine ⟨⟨?_, ?_⟩, ⟨?_, ?_, ?_, ?_⟩, ?_, ?_, ?_, ?_, ?_, ?_, ?_, ?_, ?_, ?_⟩ <;> first | with_reducible assumption | (dsimp only; with_reducible assumption) | with_reducible exact ringPut_wf _ _ _ _ m1 | (simp only [List.length_modify, List.length_map, List.length_set]; with_reducible assumption)))

end Sys2Proof.Machine
end

