-- ==== Sys2Proof/Laws/KeepsRest.lean ====
section
/-!
SUPPORT. KeepsRest.lean: every operation of DRAM, faults, sequencers, the bridle, streams, queries, delivery and registers keeps the invariant of Safety.lean; one lemma per function.
-/
namespace Sys2Proof.Machine

set_option linter.all false
set_option linter.unusedTactic false
set_option linter.unreachableTactic false

/-! Dram.lean -/

theorem joinFill_inv {block a : Nat} {q : DramReq} {x : Half} (hx : x.Inv) :
    (joinFill block a q x).Inv := by
  unfold joinFill
  repeat' (first | with_reducible assumption | with_reducible refine half_inv ?_ _ | dsimp only | split | (obtain ⟨⟨m1, m2⟩, ⟨q1, q2, q3, q4⟩, u1, u2, u3, u4, u5, u6, u7, u8, u9, u10⟩ := hx; refine ⟨⟨?_, ?_⟩, ⟨?_, ?_, ?_, ?_⟩, ?_, ?_, ?_, ?_, ?_, ?_, ?_, ?_, ?_, ?_⟩ <;> first | with_reducible assumption | (dsimp only; with_reducible assumption) | with_reducible exact ringPut_wf _ _ _ _ m1 | (simp only [List.length_modify, List.length_map, List.length_set]; with_reducible assumption)))

theorem errorHalts_inv {q : DramReq} {x : Half} (hx : x.Inv) :
    (errorHalts q x).Inv := by
  unfold errorHalts
  repeat' (first | with_reducible assumption | with_reducible refine updUnit_inv ?_ | with_reducible refine half_inv ?_ _ | dsimp only | split | (obtain ⟨⟨m1, m2⟩, ⟨q1, q2, q3, q4⟩, u1, u2, u3, u4, u5, u6, u7, u8, u9, u10⟩ := hx; refine ⟨⟨?_, ?_⟩, ⟨?_, ?_, ?_, ?_⟩, ?_, ?_, ?_, ?_, ?_, ?_, ?_, ?_, ?_, ?_⟩ <;> first | with_reducible assumption | (dsimp only; with_reducible assumption) | with_reducible exact ringPut_wf _ _ _ _ m1 | (simp only [List.length_modify, List.length_map, List.length_set]; with_reducible assumption)))

theorem dramArrive_inv {n : Nat} {x : Half} {q : DramReq} (hx : x.Inv) :
    (dramArrive n x q).Inv := by
  unfold dramArrive
  repeat' (first | with_reducible assumption | with_reducible refine errorResponse_inv ?_ | with_reducible refine updChannel_inv ?_ | with_reducible refine joinFill_inv ?_ | with_reducible refine errorHalts_inv ?_ | with_reducible refine half_inv ?_ _ | dsimp only | split | (obtain ⟨⟨m1, m2⟩, ⟨q1, q2, q3, q4⟩, u1, u2, u3, u4, u5, u6, u7, u8, u9, u10⟩ := hx; refine ⟨⟨?_, ?_⟩, ⟨?_, ?_, ?_, ?_⟩, ?_, ?_, ?_, ?_, ?_, ?_, ?_, ?_, ?_, ?_⟩ <;> first | with_reducible assumption | (dsimp only; with_reducible assumption) | with_reducible exact ringPut_wf _ _ _ _ m1 | (simp only [List.length_modify, List.length_map, List.length_set]; with_reducible assumption)))

theorem markLate_inv {h : HalfId} {n : Nat} {x : Half} (hx : x.Inv) :
    (markLate h n x).Inv := by
  unfold markLate
  repeat' (first | with_reducible assumption | with_reducible refine count_inv ?_ | with_reducible refine updChannel_inv ?_ | with_reducible refine foldl_inv (fun s a hs => ?_) ?_ | with_reducible refine foldlH_inv (fun x a hx => ?_) ?_ | with_reducible refine foldl_fst_inv (fun s a hs => ?_) ?_ | with_reducible refine half_inv ?_ _ | dsimp only | split | (obtain ⟨⟨m1, m2⟩, ⟨q1, q2, q3, q4⟩, u1, u2, u3, u4, u5, u6, u7, u8, u9, u10⟩ := hx; refine ⟨⟨?_, ?_⟩, ⟨?_, ?_, ?_, ?_⟩, ?_, ?_, ?_, ?_, ?_, ?_, ?_, ?_, ?_, ?_⟩ <;> first | with_reducible assumption | (dsimp only; with_reducible assumption) | with_reducible exact ringPut_wf _ _ _ _ m1 | (simp only [List.length_modify, List.length_map, List.length_set]; with_reducible assumption)))

theorem rollingActivate_inv {h : HalfId} {n bank : Nat} {s : State} (hs : s.Inv) :
    (rollingActivate h n bank s).Inv := by
  unfold rollingActivate
  repeat' (first | with_reducible assumption | with_reducible refine emit_inv ?_ | with_reducible refine updChannel_inv ?_ | with_reducible refine upd_inv (fun x hx => ?_) ?_ | with_reducible refine half_inv ?_ _ | dsimp only | split | (obtain ⟨⟨m1, m2⟩, ⟨q1, q2, q3, q4⟩, u1, u2, u3, u4, u5, u6, u7, u8, u9, u10⟩ := hx; refine ⟨⟨?_, ?_⟩, ⟨?_, ?_, ?_, ?_⟩, ?_, ?_, ?_, ?_, ?_, ?_, ?_, ?_, ?_, ?_⟩ <;> first | with_reducible assumption | (dsimp only; with_reducible assumption) | with_reducible exact ringPut_wf _ _ _ _ m1 | (simp only [List.length_modify, List.length_map, List.length_set]; with_reducible assumption)))

theorem dramActivate_inv {h : HalfId} {n port bank row : Nat} {s : State} (hs : s.Inv) :
    (dramActivate h n port bank row s).Inv := by
  unfold dramActivate
  repeat' (first | with_reducible assumption | with_reducible refine emit_inv ?_ | with_reducible refine count_inv ?_ | with_reducible refine event_inv ?_ | with_reducible refine updChannel_inv ?_ | with_reducible refine rollingActivate_inv ?_ | with_reducible refine upd_inv (fun x hx => ?_) ?_ | with_reducible refine half_inv ?_ _ | dsimp only | split | (obtain ⟨⟨m1, m2⟩, ⟨q1, q2, q3, q4⟩, u1, u2, u3, u4, u5, u6, u7, u8, u9, u10⟩ := hx; refine ⟨⟨?_, ?_⟩, ⟨?_, ?_, ?_, ?_⟩, ?_, ?_, ?_, ?_, ?_, ?_, ?_, ?_, ?_, ?_⟩ <;> first | with_reducible assumption | (dsimp only; with_reducible assumption) | with_reducible exact ringPut_wf _ _ _ _ m1 | (simp only [List.length_modify, List.length_map, List.length_set]; with_reducible assumption)))

theorem infoCoalesced_inv {h : HalfId} {code : Nat} {src : Handle} {detail : List Byte} {s : State} (hs : s.Inv) :
    (infoCoalesced h code src detail s).Inv := by
  unfold infoCoalesced
  extract_lets same
  split
  · refine upd_inv (fun x hx => ev_inv hx.2.1.1 ?_ hx.2.1.2.2.1 hx) hs
    simpa only [mapWhere, List.length_map] using hx.2.1.2.1
  · exact event_inv hs

theorem dramCorrect_inv {h : HalfId} {n address syndrome requester : Nat} {injected : Bool} {s : State} (hs : s.Inv) :
    (dramCorrect h n address syndrome requester injected s).Inv := by
  unfold dramCorrect
  repeat' (first | with_reducible assumption | with_reducible refine count_inv ?_ | with_reducible refine latchHw_inv ?_ | with_reducible refine event_inv ?_ | with_reducible refine updChannel_inv ?_ | with_reducible refine infoCoalesced_inv ?_ | with_reducible refine upd_inv (fun x hx => ?_) ?_ | with_reducible refine half_inv ?_ _ | dsimp only | split | (obtain ⟨⟨m1, m2⟩, ⟨q1, q2, q3, q4⟩, u1, u2, u3, u4, u5, u6, u7, u8, u9, u10⟩ := hx; refine ⟨⟨?_, ?_⟩, ⟨?_, ?_, ?_, ?_⟩, ?_, ?_, ?_, ?_, ?_, ?_, ?_, ?_, ?_, ?_⟩ <;> first | with_reducible assumption | (dsimp only; with_reducible assumption) | with_reducible exact ringPut_wf _ _ _ _ m1 | (simp only [List.length_modify, List.length_map, List.length_set]; with_reducible assumption)))

theorem dramFreeze_inv {h : HalfId} {n : Nat} {f : FrozenRec} {injected : Bool} {s : State} (hs : s.Inv) :
    (dramFreeze h n f injected s).Inv := by
  unfold dramFreeze
  repeat' (first | with_reducible assumption | with_reducible refine freezeRec_inv ?_ | with_reducible refine latchHw_inv ?_ | with_reducible refine upd_inv (fun x hx => ?_) ?_ | with_reducible refine half_inv ?_ _ | dsimp only | split | (obtain ⟨⟨m1, m2⟩, ⟨q1, q2, q3, q4⟩, u1, u2, u3, u4, u5, u6, u7, u8, u9, u10⟩ := hx; refine ⟨⟨?_, ?_⟩, ⟨?_, ?_, ?_, ?_⟩, ?_, ?_, ?_, ?_, ?_, ?_, ?_, ?_, ?_, ?_⟩ <;> first | with_reducible assumption | (dsimp only; with_reducible assumption) | with_reducible exact ringPut_wf _ _ _ _ m1 | (simp only [List.length_modify, List.length_map, List.length_set]; with_reducible assumption)))

theorem eccApply_inv {h : HalfId} {n address requester : Nat} {cause : Nat} {ecc : EccOutcome} {injected : Bool} {s : State} (hs : s.Inv) :
    (eccApply h n address requester cause ecc injected s).Inv := by
  unfold eccApply
  repeat' (first | with_reducible assumption | with_reducible refine dramCorrect_inv ?_ | with_reducible refine dramFreeze_inv ?_ | with_reducible refine half_inv ?_ _ | dsimp only | split | (obtain ⟨⟨m1, m2⟩, ⟨q1, q2, q3, q4⟩, u1, u2, u3, u4, u5, u6, u7, u8, u9, u10⟩ := hx; refine ⟨⟨?_, ?_⟩, ⟨?_, ?_, ?_, ?_⟩, ?_, ?_, ?_, ?_, ?_, ?_, ?_, ?_, ?_, ?_⟩ <;> first | with_reducible assumption | (dsimp only; with_reducible assumption) | with_reducible exact ringPut_wf _ _ _ _ m1 | (simp only [List.length_modify, List.length_map, List.length_set]; with_reducible assumption)))

theorem dramIssue_inv {h : HalfId} {n : Nat} {q : QueuedReq} {ecc : EccOutcome} {s : State} (hs : s.Inv) : (dramIssue h n q ecc s).Inv := by
  unfold dramIssue
  extract_lets +onlyGivenNames x a bank row hit s1 s2 full
  have h1 : s1.Inv := upd_inv (fun x hx => count_inv (count_inv (updChannel_inv hx))) hs
  have h2 : s2.Inv := by
    dsimp only [s2]
    split
    · exact h1
    · exact dramActivate_inv h1
  split
  · extract_lets +onlyGivenNames parity s3
    have h3 : s3.Inv := by
      dsimp only [s3]
      split
      · refine eccApply_inv (upd_inv (fun x hx => ?_) h2)
        split
        · exact disarm_inv hx
        · exact hx
      · exact h2
    split
    · exact h3
    · exact upd_inv (fun x hx => dram_inv (memWriteEn_wf _ _ (picsEnd_inv hx).1.2) (picsEnd_inv hx)) h3
  · extract_lets +onlyGivenNames m s3
    have h3 : s3.Inv := by
      dsimp only [s3]
      split
      · exact upd_inv (fun x hx => disarm_inv hx) h2
      · exact h2
    exact eccApply_inv h3

theorem scrimArrive_inv {channel : Nat} {x : Half} {k : Nat} (hx : x.Inv) :
    (scrimArrive channel x k).Inv := by
  unfold scrimArrive
  repeat' (first | with_reducible assumption | with_reducible refine scrimLeaves_inv ?_ | with_reducible refine dramArrive_inv ?_ | with_reducible refine half_inv ?_ _ | dsimp only | split | (obtain ⟨⟨m1, m2⟩, ⟨q1, q2, q3, q4⟩, u1, u2, u3, u4, u5, u6, u7, u8, u9, u10⟩ := hx; refine ⟨⟨?_, ?_⟩, ⟨?_, ?_, ?_, ?_⟩, ?_, ?_, ?_, ?_, ?_, ?_, ?_, ?_, ?_, ?_⟩ <;> first | with_reducible assumption | (dsimp only; with_reducible assumption) | with_reducible exact ringPut_wf _ _ _ _ m1 | (simp only [List.length_modify, List.length_map, List.length_set]; with_reducible assumption)))

theorem scrubLap_inv {h : HalfId} {n : Nat} {s : State} (hs : s.Inv) :
    (scrubLap h n s).Inv := by
  unfold scrubLap
  repeat' (first | with_reducible assumption | with_reducible refine event_inv ?_ | with_reducible refine updChannel_inv ?_ | with_reducible refine upd_inv (fun x hx => ?_) ?_ | with_reducible refine half_inv ?_ _ | dsimp only | split | (obtain ⟨⟨m1, m2⟩, ⟨q1, q2, q3, q4⟩, u1, u2, u3, u4, u5, u6, u7, u8, u9, u10⟩ := hx; refine ⟨⟨?_, ?_⟩, ⟨?_, ?_, ?_, ?_⟩, ?_, ?_, ?_, ?_, ?_, ?_, ?_, ?_, ?_, ?_⟩ <;> first | with_reducible assumption | (dsimp only; with_reducible assumption) | with_reducible exact ringPut_wf _ _ _ _ m1 | (simp only [List.length_modify, List.length_map, List.length_set]; with_reducible assumption)))

theorem updTrain_inv {n : Nat} {f : TrainSt → TrainSt} {x : Half} (hx : x.Inv) :
    (updTrain n f x).Inv := by
  unfold updTrain
  repeat' (first | with_reducible assumption | with_reducible refine updChannel_inv ?_ | with_reducible refine half_inv ?_ _ | dsimp only | split | (obtain ⟨⟨m1, m2⟩, ⟨q1, q2, q3, q4⟩, u1, u2, u3, u4, u5, u6, u7, u8, u9, u10⟩ := hx; refine ⟨⟨?_, ?_⟩, ⟨?_, ?_, ?_, ?_⟩, ?_, ?_, ?_, ?_, ?_, ?_, ?_, ?_, ?_, ?_⟩ <;> first | with_reducible assumption | (dsimp only; with_reducible assumption) | with_reducible exact ringPut_wf _ _ _ _ m1 | (simp only [List.length_modify, List.length_map, List.length_set]; with_reducible assumption)))

theorem retrainRun_inv {n : Nat} {x : Half} (hx : x.Inv) :
    (retrainRun n x).Inv := by
  unfold retrainRun
  repeat' (first | with_reducible assumption | with_reducible refine updTrain_inv ?_ | with_reducible refine half_inv ?_ _ | dsimp only | split | (obtain ⟨⟨m1, m2⟩, ⟨q1, q2, q3, q4⟩, u1, u2, u3, u4, u5, u6, u7, u8, u9, u10⟩ := hx; refine ⟨⟨?_, ?_⟩, ⟨?_, ?_, ?_, ?_⟩, ?_, ?_, ?_, ?_, ?_, ?_, ?_, ?_, ?_, ?_⟩ <;> first | with_reducible assumption | (dsimp only; with_reducible assumption) | with_reducible exact ringPut_wf _ _ _ _ m1 | (simp only [List.length_modify, List.length_map, List.length_set]; with_reducible assumption)))

theorem leaveBlocks_inv {h : HalfId} {n : Nat} {s : State} (hs : s.Inv) :
    (leaveBlocks h n s).Inv := by
  unfold leaveBlocks
  repeat' (first | with_reducible assumption | with_reducible refine updChannel_inv ?_ | with_reducible refine shedUsers_inv ?_ | with_reducible refine releaseRegion_inv ?_ | with_reducible refine evacTurn_inv ?_ | with_reducible refine upd_inv (fun x hx => ?_) ?_ | with_reducible refine foldl_inv (fun s a hs => ?_) ?_ | with_reducible refine foldlH_inv (fun x a hx => ?_) ?_ | with_reducible refine foldl_fst_inv (fun s a hs => ?_) ?_ | with_reducible refine half_inv ?_ _ | dsimp only | split | (obtain ⟨⟨m1, m2⟩, ⟨q1, q2, q3, q4⟩, u1, u2, u3, u4, u5, u6, u7, u8, u9, u10⟩ := hx; refine ⟨⟨?_, ?_⟩, ⟨?_, ?_, ?_, ?_⟩, ?_, ?_, ?_, ?_, ?_, ?_, ?_, ?_, ?_, ?_⟩ <;> first | with_reducible assumption | (dsimp only; with_reducible assumption) | with_reducible exact ringPut_wf _ _ _ _ m1 | (simp only [List.length_modify, List.length_map, List.length_set]; with_reducible assumption)))

theorem reelThaw_inv {h : HalfId} {n : Nat} {x : Half} (hx : x.Inv) :
    (reelThaw h n x).Inv := by
  unfold reelThaw
  repeat' (first | with_reducible assumption | with_reducible refine half_inv ?_ _ | dsimp only | split | (obtain ⟨⟨m1, m2⟩, ⟨q1, q2, q3, q4⟩, u1, u2, u3, u4, u5, u6, u7, u8, u9, u10⟩ := hx; refine ⟨⟨?_, ?_⟩, ⟨?_, ?_, ?_, ?_⟩, ?_, ?_, ?_, ?_, ?_, ?_, ?_, ?_, ?_, ?_⟩ <;> first | with_reducible assumption | (dsimp only; with_reducible assumption) | with_reducible exact ringPut_wf _ _ _ _ m1 | (simp only [List.length_modify, List.length_map, List.length_set]; with_reducible assumption)))

theorem poolsThaw_inv {n : Nat} {x : Half} (hx : x.Inv) :
    (poolsThaw n x).Inv := by
  unfold poolsThaw
  repeat' (first | with_reducible assumption | with_reducible refine updPool_inv ?_ | with_reducible refine foldl_inv (fun s a hs => ?_) ?_ | with_reducible refine foldlH_inv (fun x a hx => ?_) ?_ | with_reducible refine foldl_fst_inv (fun s a hs => ?_) ?_ | with_reducible refine half_inv ?_ _ | dsimp only | split | (obtain ⟨⟨m1, m2⟩, ⟨q1, q2, q3, q4⟩, u1, u2, u3, u4, u5, u6, u7, u8, u9, u10⟩ := hx; refine ⟨⟨?_, ?_⟩, ⟨?_, ?_, ?_, ?_⟩, ?_, ?_, ?_, ?_, ?_, ?_, ?_, ?_, ?_, ?_⟩ <;> first | with_reducible assumption | (dsimp only; with_reducible assumption) | with_reducible exact ringPut_wf _ _ _ _ m1 | (simp only [List.length_modify, List.length_map, List.length_set]; with_reducible assumption)))

theorem thaw_inv {h : HalfId} {n : Nat} {f : FrozenRec} {s : State} (hs : s.Inv) :
    (thaw h n f s).Inv := by
  unfold thaw
  repeat' (first | with_reducible assumption | with_reducible refine event_inv ?_ | with_reducible refine restartUser_inv ?_ | with_reducible refine updChannel_inv ?_ | with_reducible refine reelThaw_inv ?_ | with_reducible refine poolsThaw_inv ?_ | with_reducible refine upd_inv (fun x hx => ?_) ?_ | with_reducible refine foldl_inv (fun s a hs => ?_) ?_ | with_reducible refine foldlH_inv (fun x a hx => ?_) ?_ | with_reducible refine foldl_fst_inv (fun s a hs => ?_) ?_ | with_reducible refine half_inv ?_ _ | dsimp only | split | (obtain ⟨⟨m1, m2⟩, ⟨q1, q2, q3, q4⟩, u1, u2, u3, u4, u5, u6, u7, u8, u9, u10⟩ := hx; refine ⟨⟨?_, ?_⟩, ⟨?_, ?_, ?_, ?_⟩, ?_, ?_, ?_, ?_, ?_, ?_, ?_, ?_, ?_, ?_⟩ <;> first | with_reducible assumption | (dsimp only; with_reducible assumption) | with_reducible exact ringPut_wf _ _ _ _ m1 | (simp only [List.length_modify, List.length_map, List.length_set]; with_reducible assumption)))

/-! Faults.lean -/

theorem pinRises_inv {h : HalfId} {source : Nat} {s : State} (hs : s.Inv) :
    (pinRises h source s).Inv := by
  unfold pinRises
  repeat' (first | with_reducible assumption | with_reducible refine latchHw_inv ?_ | with_reducible refine disarm_inv ?_ | with_reducible refine upd_inv (fun x hx => ?_) ?_ | with_reducible refine half_inv ?_ _ | dsimp only | split | (obtain ⟨⟨m1, m2⟩, ⟨q1, q2, q3, q4⟩, u1, u2, u3, u4, u5, u6, u7, u8, u9, u10⟩ := hx; refine ⟨⟨?_, ?_⟩, ⟨?_, ?_, ?_, ?_⟩, ?_, ?_, ?_, ?_, ?_, ?_, ?_, ?_, ?_, ?_⟩ <;> first | with_reducible assumption | (dsimp only; with_reducible assumption) | with_reducible exact ringPut_wf _ _ _ _ m1 | (simp only [List.length_modify, List.length_map, List.length_set]; with_reducible assumption)))

theorem requestFails_inv {h : HalfId} {t : ScrimTxn} {s : State} (hs : s.Inv) :
    (requestFails h t s).Inv := by
  unfold requestFails
  repeat' (first | with_reducible assumption | with_reducible refine emit_inv ?_ | with_reducible refine State.tick1_inv ?_ | with_reducible refine dmaBusFail_inv ?_ | with_reducible refine reelStop_inv ?_ | with_reducible refine updUnit_inv ?_ | with_reducible refine upd_inv (fun x hx => ?_) ?_ | with_reducible refine half_inv ?_ _ | dsimp only | split | (obtain ⟨⟨m1, m2⟩, ⟨q1, q2, q3, q4⟩, u1, u2, u3, u4, u5, u6, u7, u8, u9, u10⟩ := hx; refine ⟨⟨?_, ?_⟩, ⟨?_, ?_, ?_, ?_⟩, ?_, ?_, ?_, ?_, ?_, ?_, ?_, ?_, ?_, ?_⟩ <;> first | with_reducible assumption | (dsimp only; with_reducible assumption) | with_reducible exact ringPut_wf _ _ _ _ m1 | (simp only [List.length_modify, List.length_map, List.length_set]; with_reducible assumption)))

theorem flitFails_inv {h : HalfId} {k : Nat} {s : State} (hs : s.Inv) :
    (flitFails h k s).Inv := by
  unfold flitFails
  repeat' (first | with_reducible assumption | with_reducible refine scrimLeaves_inv ?_ | with_reducible refine pinRises_inv ?_ | with_reducible refine requestFails_inv ?_ | with_reducible refine upd_inv (fun x hx => ?_) ?_ | with_reducible refine half_inv ?_ _ | dsimp only | split | (obtain ⟨⟨m1, m2⟩, ⟨q1, q2, q3, q4⟩, u1, u2, u3, u4, u5, u6, u7, u8, u9, u10⟩ := hx; refine ⟨⟨?_, ?_⟩, ⟨?_, ?_, ?_, ?_⟩, ?_, ?_, ?_, ?_, ?_, ?_, ?_, ?_, ?_, ?_⟩ <;> first | with_reducible assumption | (dsimp only; with_reducible assumption) | with_reducible exact ringPut_wf _ _ _ _ m1 | (simp only [List.length_modify, List.length_map, List.length_set]; with_reducible assumption)))

theorem faultTaken_inv {h : HalfId} {flags n : Nat} {s : State} (hs : s.Inv) : (faultTaken h flags n s).Inv := by
  unfold faultTaken
  refine upd_inv (fun x hx => ev_inv hx.2.1.1 hx.2.1.2.1 ?_ hx) hs
  have ha := hx.2.1.2.2.1
  split
  · rw [List.length_drop]
    omega
  · exact ha

theorem decided_inv {source : Nat} {x : Half} (hx : x.Inv) :
    (decided source x).Inv := by
  unfold decided
  repeat' (first | with_reducible assumption | with_reducible refine half_inv ?_ _ | dsimp only | split | (obtain ⟨⟨m1, m2⟩, ⟨q1, q2, q3, q4⟩, u1, u2, u3, u4, u5, u6, u7, u8, u9, u10⟩ := hx; refine ⟨⟨?_, ?_⟩, ⟨?_, ?_, ?_, ?_⟩, ?_, ?_, ?_, ?_, ?_, ?_, ?_, ?_, ?_, ?_⟩ <;> first | with_reducible assumption | (dsimp only; with_reducible assumption) | with_reducible exact ringPut_wf _ _ _ _ m1 | (simp only [List.length_modify, List.length_map, List.length_set]; with_reducible assumption)))

theorem retireNow_inv {h : HalfId} {src : Nat} {s : State} (hs : s.Inv) :
    (retireNow h src s).Inv := by
  unfold retireNow
  repeat' (first | with_reducible assumption | with_reducible refine updUnit_inv ?_ | with_reducible refine retirePort_inv ?_ | with_reducible refine retireChannel_inv ?_ | with_reducible refine upd_inv (fun x hx => ?_) ?_ | with_reducible refine half_inv ?_ _ | dsimp only | split | (obtain ⟨⟨m1, m2⟩, ⟨q1, q2, q3, q4⟩, u1, u2, u3, u4, u5, u6, u7, u8, u9, u10⟩ := hx; refine ⟨⟨?_, ?_⟩, ⟨?_, ?_, ?_, ?_⟩, ?_, ?_, ?_, ?_, ?_, ?_, ?_, ?_, ?_, ?_⟩ <;> first | with_reducible assumption | (dsimp only; with_reducible assumption) | with_reducible exact ringPut_wf _ _ _ _ m1 | (simp only [List.length_modify, List.length_map, List.length_set]; with_reducible assumption)))

theorem updFlags_inv {k : UnitKind} {i : Nat} {f : UnitFlags → UnitFlags} {x : Half} (hx : x.Inv) :
    (updFlags k i f x).Inv := by
  unfold updFlags
  repeat' (first | with_reducible assumption | with_reducible refine half_inv ?_ _ | dsimp only | split | (obtain ⟨⟨m1, m2⟩, ⟨q1, q2, q3, q4⟩, u1, u2, u3, u4, u5, u6, u7, u8, u9, u10⟩ := hx; refine ⟨⟨?_, ?_⟩, ⟨?_, ?_, ?_, ?_⟩, ?_, ?_, ?_, ?_, ?_, ?_, ?_, ?_, ?_, ?_⟩ <;> first | with_reducible assumption | (dsimp only; with_reducible assumption) | with_reducible exact ringPut_wf _ _ _ _ m1 | (simp only [List.length_modify, List.length_map, List.length_set]; with_reducible assumption)))

theorem holdPort_inv {h : HalfId} {n : Nat} {s : State} (hs : s.Inv) :
    (holdPort h n s).Inv := by
  unfold holdPort
  repeat' (first | with_reducible assumption | with_reducible refine updPort_inv ?_ | with_reducible refine restartPort_inv ?_ | with_reducible refine upd_inv (fun x hx => ?_) ?_ | with_reducible refine half_inv ?_ _ | dsimp only | split | (obtain ⟨⟨m1, m2⟩, ⟨q1, q2, q3, q4⟩, u1, u2, u3, u4, u5, u6, u7, u8, u9, u10⟩ := hx; refine ⟨⟨?_, ?_⟩, ⟨?_, ?_, ?_, ?_⟩, ?_, ?_, ?_, ?_, ?_, ?_, ?_, ?_, ?_, ?_⟩ <;> first | with_reducible assumption | (dsimp only; with_reducible assumption) | with_reducible exact ringPut_wf _ _ _ _ m1 | (simp only [List.length_modify, List.length_map, List.length_set]; with_reducible assumption)))

theorem holdUnit_inv {h : HalfId} {k : UnitKind} {i : Nat} {s : State} (hs : s.Inv) :
    (holdUnit h k i s).Inv := by
  unfold holdUnit
  repeat' (first | with_reducible assumption | with_reducible refine rePlace_inv ?_ | with_reducible refine updUnit_inv ?_ | with_reducible refine evacBegin_inv ?_ | with_reducible refine updFlags_inv ?_ | with_reducible refine holdPort_inv ?_ | with_reducible refine upd_inv (fun x hx => ?_) ?_ | with_reducible refine half_inv ?_ _ | dsimp only | split | (obtain ⟨⟨m1, m2⟩, ⟨q1, q2, q3, q4⟩, u1, u2, u3, u4, u5, u6, u7, u8, u9, u10⟩ := hx; refine ⟨⟨?_, ?_⟩, ⟨?_, ?_, ?_, ?_⟩, ?_, ?_, ?_, ?_, ?_, ?_, ?_, ?_, ?_, ?_⟩ <;> first | with_reducible assumption | (dsimp only; with_reducible assumption) | with_reducible exact ringPut_wf _ _ _ _ m1 | (simp only [List.length_modify, List.length_map, List.length_set]; with_reducible assumption)))

theorem enableClear_inv {h : HalfId} {k : UnitKind} {i : Nat} {s : State} (hs : s.Inv) :
    (enableClear h k i s).Inv := by
  unfold enableClear
  repeat' (first | with_reducible assumption | with_reducible refine regError_inv ?_ | with_reducible refine updFlags_inv ?_ | with_reducible refine holdUnit_inv ?_ | with_reducible refine upd_inv (fun x hx => ?_) ?_ | with_reducible refine half_inv ?_ _ | dsimp only | split | (obtain ⟨⟨m1, m2⟩, ⟨q1, q2, q3, q4⟩, u1, u2, u3, u4, u5, u6, u7, u8, u9, u10⟩ := hx; refine ⟨⟨?_, ?_⟩, ⟨?_, ?_, ?_, ?_⟩, ?_, ?_, ?_, ?_, ?_, ?_, ?_, ?_, ?_, ?_⟩ <;> first | with_reducible assumption | (dsimp only; with_reducible assumption) | with_reducible exact ringPut_wf _ _ _ _ m1 | (simp only [List.length_modify, List.length_map, List.length_set]; with_reducible assumption)))

theorem enableSet_inv {h : HalfId} {k : UnitKind} {i : Nat} {s : State} (hs : s.Inv) :
    (enableSet h k i s).Inv := by
  unfold enableSet
  repeat' (first | with_reducible assumption | with_reducible refine regError_inv ?_ | with_reducible refine updPort_inv ?_ | with_reducible refine adaptStart_inv ?_ | with_reducible refine updFlags_inv ?_ | with_reducible refine upd_inv (fun x hx => ?_) ?_ | with_reducible refine half_inv ?_ _ | dsimp only | split | (obtain ⟨⟨m1, m2⟩, ⟨q1, q2, q3, q4⟩, u1, u2, u3, u4, u5, u6, u7, u8, u9, u10⟩ := hx; refine ⟨⟨?_, ?_⟩, ⟨?_, ?_, ?_, ?_⟩, ?_, ?_, ?_, ?_, ?_, ?_, ?_, ?_, ?_, ?_⟩ <;> first | with_reducible assumption | (dsimp only; with_reducible assumption) | with_reducible exact ringPut_wf _ _ _ _ m1 | (simp only [List.length_modify, List.length_map, List.length_set]; with_reducible assumption)))

theorem islandHalt_inv {block : Nat} {x : Half} (hx : x.Inv) :
    (islandHalt block x).Inv := by
  unfold islandHalt
  repeat' (first | with_reducible assumption | with_reducible refine updIsland_inv ?_ | with_reducible refine updUnit_inv ?_ | with_reducible refine half_inv ?_ _ | dsimp only | split | (obtain ⟨⟨m1, m2⟩, ⟨q1, q2, q3, q4⟩, u1, u2, u3, u4, u5, u6, u7, u8, u9, u10⟩ := hx; refine ⟨⟨?_, ?_⟩, ⟨?_, ?_, ?_, ?_⟩, ?_, ?_, ?_, ?_, ?_, ?_, ?_, ?_, ?_, ?_⟩ <;> first | with_reducible assumption | (dsimp only; with_reducible assumption) | with_reducible exact ringPut_wf _ _ _ _ m1 | (simp only [List.length_modify, List.length_map, List.length_set]; with_reducible assumption)))

theorem markIdle_inv {h : HalfId} {x : Half} (hx : x.Inv) : (markIdle h x).Inv := by
  obtain ⟨hm, hq, u1, u2, u3, u4, u5, u6, u7, u8, u9, u10⟩ := hx
  refine ⟨hm, hq, u1, u2, u3, u4, u5, u6, u7, u8, u9, ?_⟩
  simp only [markIdle, List.length_map, List.length_zipIdx]
  exact u10

theorem clockCounts_inv {x : Half} {block : Nat} (hx : x.Inv) :
    (clockCounts x block).Inv := by
  unfold clockCounts
  repeat' (first | with_reducible assumption | with_reducible refine count_inv ?_ | with_reducible refine half_inv ?_ _ | dsimp only | split | (obtain ⟨⟨m1, m2⟩, ⟨q1, q2, q3, q4⟩, u1, u2, u3, u4, u5, u6, u7, u8, u9, u10⟩ := hx; refine ⟨⟨?_, ?_⟩, ⟨?_, ?_, ?_, ?_⟩, ?_, ?_, ?_, ?_, ?_, ?_, ?_, ?_, ?_, ?_⟩ <;> first | with_reducible assumption | (dsimp only; with_reducible assumption) | with_reducible exact ringPut_wf _ _ _ _ m1 | (simp only [List.length_modify, List.length_map, List.length_set]; with_reducible assumption)))

theorem checkersMeet_inv {h : HalfId} {s : State} (hs : s.Inv) :
    (checkersMeet h s).Inv := by
  unfold checkersMeet
  repeat' (first | with_reducible assumption | with_reducible refine count_inv ?_ | with_reducible refine disarm_inv ?_ | with_reducible refine pinRises_inv ?_ | with_reducible refine upd_inv (fun x hx => ?_) ?_ | with_reducible refine foldl_inv (fun s a hs => ?_) ?_ | with_reducible refine foldlH_inv (fun x a hx => ?_) ?_ | with_reducible refine foldl_fst_inv (fun s a hs => ?_) ?_ | with_reducible refine half_inv ?_ _ | dsimp only | split | (obtain ⟨⟨m1, m2⟩, ⟨q1, q2, q3, q4⟩, u1, u2, u3, u4, u5, u6, u7, u8, u9, u10⟩ := hx; refine ⟨⟨?_, ?_⟩, ⟨?_, ?_, ?_, ?_⟩, ?_, ?_, ?_, ?_, ?_, ?_, ?_, ?_, ?_, ?_⟩ <;> first | with_reducible assumption | (dsimp only; with_reducible assumption) | with_reducible exact ringPut_wf _ _ _ _ m1 | (simp only [List.length_modify, List.length_map, List.length_set]; with_reducible assumption)))

theorem heldChannels_inv {h : HalfId} {s : State} (hs : s.Inv) :
    (heldChannels h s).Inv := by
  unfold heldChannels
  repeat' (first | with_reducible assumption | with_reducible refine evacBegin_inv ?_ | with_reducible refine foldl_inv (fun s a hs => ?_) ?_ | with_reducible refine foldlH_inv (fun x a hx => ?_) ?_ | with_reducible refine foldl_fst_inv (fun s a hs => ?_) ?_ | with_reducible refine half_inv ?_ _ | dsimp only | split | (obtain ⟨⟨m1, m2⟩, ⟨q1, q2, q3, q4⟩, u1, u2, u3, u4, u5, u6, u7, u8, u9, u10⟩ := hx; refine ⟨⟨?_, ?_⟩, ⟨?_, ?_, ?_, ?_⟩, ?_, ?_, ?_, ?_, ?_, ?_, ?_, ?_, ?_, ?_⟩ <;> first | with_reducible assumption | (dsimp only; with_reducible assumption) | with_reducible exact ringPut_wf _ _ _ _ m1 | (simp only [List.length_modify, List.length_map, List.length_set]; with_reducible assumption)))

/-! Sequencers.lean -/

theorem trace_inv {x : Half} {t : Option TraceSt} {b : List CtrBlock} {r : ReelSt} (hb : b.length = 36) (hx : x.Inv) :
    ({ x with ctr := { blocks := b, reel := r, trace := t } } : Half).Inv :=
  ctrPlus_inv hb hx

theorem tracePut_inv {rec_ : TraceRec} {t : TraceSt} {x : Half} (hx : x.Inv) : (tracePut rec_ t x).Inv := by
  have hb := (blocks_len hx)
  unfold tracePut
  split
  · exact trace_inv hb hx
  split
  · exact trace_inv hb hx
  · have hd := devWrite_inv (a := ‹Nat› + 64 + 16 * (t.written % max 1 (traceRoom t))) (bytes := traceBytes rec_) hx
    exact trace_inv (blocks_len hd) (devWrite_inv hd)

theorem traceWord_inv {block : Nat} {rec_ : TraceRec} {taken check : Bool} {x : Half} (hx : x.Inv) :
    (traceWord block rec_ taken check x).Inv := by
  unfold traceWord
  split
  · exact hx
  split
  · exact hx
  · extract_lets t src y ends
    have hy : y.Inv := by
      dsimp only [y]
      split
      · exact tracePut_inv hx
      · exact trace_inv (blocks_len hx) hx
    split
    · exact trace_inv (blocks_len hy) hy
    · exact hy

theorem suspendDo_inv {src i : Nat} {x : Half} (hx : x.Inv) :
    (suspendDo src i x).Inv := by
  unfold suspendDo
  repeat' (first | with_reducible assumption | with_reducible refine count_inv ?_ | with_reducible refine half_inv ?_ _ | dsimp only | split | (obtain ⟨⟨m1, m2⟩, ⟨q1, q2, q3, q4⟩, u1, u2, u3, u4, u5, u6, u7, u8, u9, u10⟩ := hx; refine ⟨⟨?_, ?_⟩, ⟨?_, ?_, ?_, ?_⟩, ?_, ?_, ?_, ?_, ?_, ?_, ?_, ?_, ?_, ?_⟩ <;> first | with_reducible assumption | (dsimp only; with_reducible assumption) | with_reducible exact ringPut_wf _ _ _ _ m1 | (simp only [List.length_modify, List.length_map, List.length_set]; with_reducible assumption)))

theorem safePointDo_inv {h : HalfId} {src : Nat} {s : State} (hs : s.Inv) :
    (safePointDo h src s).Inv := by
  unfold safePointDo
  repeat' (first | with_reducible assumption | with_reducible refine producerStops_inv ?_ | with_reducible refine updUnit_inv ?_ | with_reducible refine unitDown_inv ?_ | with_reducible refine retireEngine_inv ?_ | with_reducible refine react_inv ?_ | with_reducible refine suspendDo_inv ?_ | with_reducible refine upd_inv (fun x hx => ?_) ?_ | with_reducible refine half_inv ?_ _ | dsimp only | split | (obtain ⟨⟨m1, m2⟩, ⟨q1, q2, q3, q4⟩, u1, u2, u3, u4, u5, u6, u7, u8, u9, u10⟩ := hx; refine ⟨⟨?_, ?_⟩, ⟨?_, ?_, ?_, ?_⟩, ?_, ?_, ?_, ?_, ?_, ?_, ?_, ?_, ?_, ?_⟩ <;> first | with_reducible assumption | (dsimp only; with_reducible assumption) | with_reducible exact ringPut_wf _ _ _ _ m1 | (simp only [List.length_modify, List.length_map, List.length_set]; with_reducible assumption)))

theorem machineCheckDo_inv {h : HalfId} {src cause groups : Nat} {injected : Bool} {s : State} (hs : s.Inv) :
    (machineCheckDo h src cause groups injected s).Inv := by
  unfold machineCheckDo
  repeat' (first | with_reducible assumption | with_reducible refine latchHw_inv ?_ | with_reducible refine event_inv ?_ | with_reducible refine updUnit_inv ?_ | with_reducible refine unitDown_inv ?_ | with_reducible refine upd_inv (fun x hx => ?_) ?_ | with_reducible refine half_inv ?_ _ | dsimp only | split | (obtain ⟨⟨m1, m2⟩, ⟨q1, q2, q3, q4⟩, u1, u2, u3, u4, u5, u6, u7, u8, u9, u10⟩ := hx; refine ⟨⟨?_, ?_⟩, ⟨?_, ?_, ?_, ?_⟩, ?_, ?_, ?_, ?_, ?_, ?_, ?_, ?_, ?_, ?_⟩ <;> first | with_reducible assumption | (dsimp only; with_reducible assumption) | with_reducible exact ringPut_wf _ _ _ _ m1 | (simp only [List.length_modify, List.length_map, List.length_set]; with_reducible assumption)))

theorem wordRuns_inv {h : HalfId} {src : Nat} {w : BitVec 152} {next : Nat × List Nat} {ctu : Nat} {stalled : Bool} {s : State} (hs : s.Inv) :
    (wordRuns h src w next ctu stalled s).Inv := by
  unfold wordRuns
  repeat' (first | with_reducible assumption | with_reducible refine updUnit_inv ?_ | with_reducible refine traceWord_inv ?_ | with_reducible refine safePointDo_inv ?_ | with_reducible refine upd_inv (fun x hx => ?_) ?_ | with_reducible refine half_inv ?_ _ | dsimp only | split | (obtain ⟨⟨m1, m2⟩, ⟨q1, q2, q3, q4⟩, u1, u2, u3, u4, u5, u6, u7, u8, u9, u10⟩ := hx; refine ⟨⟨?_, ?_⟩, ⟨?_, ?_, ?_, ?_⟩, ?_, ?_, ?_, ?_, ?_, ?_, ?_, ?_, ?_, ?_⟩ <;> first | with_reducible assumption | (dsimp only; with_reducible assumption) | with_reducible exact ringPut_wf _ _ _ _ m1 | (simp only [List.length_modify, List.length_map, List.length_set]; with_reducible assumption)))

theorem fetchDo_inv {h : HalfId} {src : Nat} {condition : Bool} {ctuType ctu : Nat} {stalled : Bool} {s : State} (hs : s.Inv) :
    (fetchDo h src condition ctuType ctu stalled s).Inv := by
  unfold fetchDo
  repeat' (first | with_reducible assumption | with_reducible refine disarm_inv ?_ | with_reducible refine traceWord_inv ?_ | with_reducible refine machineCheckDo_inv ?_ | with_reducible refine wordRuns_inv ?_ | with_reducible refine upd_inv (fun x hx => ?_) ?_ | with_reducible refine half_inv ?_ _ | dsimp only | split | (obtain ⟨⟨m1, m2⟩, ⟨q1, q2, q3, q4⟩, u1, u2, u3, u4, u5, u6, u7, u8, u9, u10⟩ := hx; refine ⟨⟨?_, ?_⟩, ⟨?_, ?_, ?_, ?_⟩, ?_, ?_, ?_, ?_, ?_, ?_, ?_, ?_, ?_, ?_⟩ <;> first | with_reducible assumption | (dsimp only; with_reducible assumption) | with_reducible exact ringPut_wf _ _ _ _ m1 | (simp only [List.length_modify, List.length_map, List.length_set]; with_reducible assumption)))

theorem readBackUnit_inv {h : HalfId} {s : State} {src : Nat} (hs : s.Inv) :
    (readBackUnit h s src).Inv := by
  unfold readBackUnit
  repeat' (first | with_reducible assumption | with_reducible refine latchHw_inv ?_ | with_reducible refine disarm_inv ?_ | with_reducible refine updUnit_inv ?_ | with_reducible refine upd_inv (fun x hx => ?_) ?_ | with_reducible refine half_inv ?_ _ | dsimp only | split | (obtain ⟨⟨m1, m2⟩, ⟨q1, q2, q3, q4⟩, u1, u2, u3, u4, u5, u6, u7, u8, u9, u10⟩ := hx; refine ⟨⟨?_, ?_⟩, ⟨?_, ?_, ?_, ?_⟩, ?_, ?_, ?_, ?_, ?_, ?_, ?_, ?_, ?_, ?_⟩ <;> first | with_reducible assumption | (dsimp only; with_reducible assumption) | with_reducible exact ringPut_wf _ _ _ _ m1 | (simp only [List.length_modify, List.length_map, List.length_set]; with_reducible assumption)))

/-! Bridle.lean -/

theorem updBri_inv {f : BridleSt → BridleSt} {x : Half} (hx : x.Inv) :
    (updBri f x).Inv := by
  unfold updBri
  repeat' (first | with_reducible assumption | with_reducible refine half_inv ?_ _ | dsimp only | split | (obtain ⟨⟨m1, m2⟩, ⟨q1, q2, q3, q4⟩, u1, u2, u3, u4, u5, u6, u7, u8, u9, u10⟩ := hx; refine ⟨⟨?_, ?_⟩, ⟨?_, ?_, ?_, ?_⟩, ?_, ?_, ?_, ?_, ?_, ?_, ?_, ?_, ?_, ?_⟩ <;> first | with_reducible assumption | (dsimp only; with_reducible assumption) | with_reducible exact ringPut_wf _ _ _ _ m1 | (simp only [List.length_modify, List.length_map, List.length_set]; with_reducible assumption)))

theorem ptpTakes_inv {h : HalfId} {s : State} (hs : s.Inv) :
    (ptpTakes h s).Inv := by
  unfold ptpTakes
  repeat' (first | with_reducible assumption | with_reducible refine updPtp_inv ?_ | with_reducible refine slaveLost_inv ?_ | with_reducible refine upd_inv (fun x hx => ?_) ?_ | with_reducible refine half_inv ?_ _ | dsimp only | split | (obtain ⟨⟨m1, m2⟩, ⟨q1, q2, q3, q4⟩, u1, u2, u3, u4, u5, u6, u7, u8, u9, u10⟩ := hx; refine ⟨⟨?_, ?_⟩, ⟨?_, ?_, ?_, ?_⟩, ?_, ?_, ?_, ?_, ?_, ?_, ?_, ?_, ?_, ?_⟩ <;> first | with_reducible assumption | (dsimp only; with_reducible assumption) | with_reducible exact ringPut_wf _ _ _ _ m1 | (simp only [List.length_modify, List.length_map, List.length_set]; with_reducible assumption)))

theorem ptpSplit_inv {h : HalfId} {s : State} (hs : s.Inv) :
    (ptpSplit h s).Inv := by
  unfold ptpSplit
  repeat' (first | with_reducible assumption | with_reducible refine slaveLost_inv ?_ | with_reducible refine ptpTakes_inv ?_ | with_reducible refine half_inv ?_ _ | dsimp only | split | (obtain ⟨⟨m1, m2⟩, ⟨q1, q2, q3, q4⟩, u1, u2, u3, u4, u5, u6, u7, u8, u9, u10⟩ := hx; refine ⟨⟨?_, ?_⟩, ⟨?_, ?_, ?_, ?_⟩, ?_, ?_, ?_, ?_, ?_, ?_, ?_, ?_, ?_, ?_⟩ <;> first | with_reducible assumption | (dsimp only; with_reducible assumption) | with_reducible exact ringPut_wf _ _ _ _ m1 | (simp only [List.length_modify, List.length_map, List.length_set]; with_reducible assumption)))

theorem leadSet_inv {h : HalfId} {lead : Bool} {epoch : W32} {cause : Nat} {s : State} (hs : s.Inv) :
    (leadSet h lead epoch cause s).Inv := by
  unfold leadSet
  repeat' (first | with_reducible assumption | with_reducible refine event_inv ?_ | with_reducible refine icuRaise_inv ?_ | with_reducible refine updBri_inv ?_ | with_reducible refine upd_inv (fun x hx => ?_) ?_ | with_reducible refine half_inv ?_ _ | dsimp only | split | (obtain ⟨⟨m1, m2⟩, ⟨q1, q2, q3, q4⟩, u1, u2, u3, u4, u5, u6, u7, u8, u9, u10⟩ := hx; refine ⟨⟨?_, ?_⟩, ⟨?_, ?_, ?_, ?_⟩, ?_, ?_, ?_, ?_, ?_, ?_, ?_, ?_, ?_, ?_⟩ <;> first | with_reducible assumption | (dsimp only; with_reducible assumption) | with_reducible exact ringPut_wf _ _ _ _ m1 | (simp only [List.length_modify, List.length_map, List.length_set]; with_reducible assumption)))

theorem takeLead_inv {h : HalfId} {cause : Nat} {s : State} (hs : s.Inv) :
    (takeLead h cause s).Inv := by
  unfold takeLead
  repeat' (first | with_reducible assumption | with_reducible refine latchHw_inv ?_ | with_reducible refine ptpTakes_inv ?_ | with_reducible refine leadSet_inv ?_ | with_reducible refine half_inv ?_ _ | dsimp only | split | (obtain ⟨⟨m1, m2⟩, ⟨q1, q2, q3, q4⟩, u1, u2, u3, u4, u5, u6, u7, u8, u9, u10⟩ := hx; refine ⟨⟨?_, ?_⟩, ⟨?_, ?_, ?_, ?_⟩, ?_, ?_, ?_, ?_, ?_, ?_, ?_, ?_, ?_, ?_⟩ <;> first | with_reducible assumption | (dsimp only; with_reducible assumption) | with_reducible exact ringPut_wf _ _ _ _ m1 | (simp only [List.length_modify, List.length_map, List.length_set]; with_reducible assumption)))

theorem askLead_inv {h : HalfId} {cause : Nat} {s : State} (hs : s.Inv) :
    (askLead h cause s).Inv := by
  unfold askLead
  repeat' (first | with_reducible assumption | with_reducible refine asrRequest_inv ?_ | with_reducible refine updBri_inv ?_ | with_reducible refine upd_inv (fun x hx => ?_) ?_ | with_reducible refine half_inv ?_ _ | dsimp only | split | (obtain ⟨⟨m1, m2⟩, ⟨q1, q2, q3, q4⟩, u1, u2, u3, u4, u5, u6, u7, u8, u9, u10⟩ := hx; refine ⟨⟨?_, ?_⟩, ⟨?_, ?_, ?_, ?_⟩, ?_, ?_, ?_, ?_, ?_, ?_, ?_, ?_, ?_, ?_⟩ <;> first | with_reducible assumption | (dsimp only; with_reducible assumption) | with_reducible exact ringPut_wf _ _ _ _ m1 | (simp only [List.length_modify, List.length_map, List.length_set]; with_reducible assumption)))

theorem leadTrigger_inv {h : HalfId} {cause : Nat} {s : State} (hs : s.Inv) :
    (leadTrigger h cause s).Inv := by
  unfold leadTrigger
  repeat' (first | with_reducible assumption | with_reducible refine takeLead_inv ?_ | with_reducible refine askLead_inv ?_ | with_reducible refine half_inv ?_ _ | dsimp only | split | (obtain ⟨⟨m1, m2⟩, ⟨q1, q2, q3, q4⟩, u1, u2, u3, u4, u5, u6, u7, u8, u9, u10⟩ := hx; refine ⟨⟨?_, ?_⟩, ⟨?_, ?_, ?_, ?_⟩, ?_, ?_, ?_, ?_, ?_, ?_, ?_, ?_, ?_, ?_⟩ <;> first | with_reducible assumption | (dsimp only; with_reducible assumption) | with_reducible exact ringPut_wf _ _ _ _ m1 | (simp only [List.length_modify, List.length_map, List.length_set]; with_reducible assumption)))

theorem conflictDo_inv {h : HalfId} {s : State} (hs : s.Inv) :
    (conflictDo h s).Inv := by
  unfold conflictDo
  repeat' (first | with_reducible assumption | with_reducible refine latchHw_inv ?_ | with_reducible refine event_inv ?_ | with_reducible refine updBri_inv ?_ | with_reducible refine leadSet_inv ?_ | with_reducible refine upd_inv (fun x hx => ?_) ?_ | with_reducible refine half_inv ?_ _ | dsimp only | split | (obtain ⟨⟨m1, m2⟩, ⟨q1, q2, q3, q4⟩, u1, u2, u3, u4, u5, u6, u7, u8, u9, u10⟩ := hx; refine ⟨⟨?_, ?_⟩, ⟨?_, ?_, ?_, ?_⟩, ?_, ?_, ?_, ?_, ?_, ?_, ?_, ?_, ?_, ?_⟩ <;> first | with_reducible assumption | (dsimp only; with_reducible assumption) | with_reducible exact ringPut_wf _ _ _ _ m1 | (simp only [List.length_modify, List.length_map, List.length_set]; with_reducible assumption)))

theorem assignLead_inv {h lead : HalfId} {epoch : W32} {s : State} (hs : s.Inv) :
    (assignLead h lead epoch s).Inv := by
  unfold assignLead
  repeat' (first | with_reducible assumption | with_reducible refine updBri_inv ?_ | with_reducible refine ptpTakes_inv ?_ | with_reducible refine leadSet_inv ?_ | with_reducible refine upd_inv (fun x hx => ?_) ?_ | with_reducible refine half_inv ?_ _ | dsimp only | split | (obtain ⟨⟨m1, m2⟩, ⟨q1, q2, q3, q4⟩, u1, u2, u3, u4, u5, u6, u7, u8, u9, u10⟩ := hx; refine ⟨⟨?_, ?_⟩, ⟨?_, ?_, ?_, ?_⟩, ?_, ?_, ?_, ?_, ?_, ?_, ?_, ?_, ?_, ?_⟩ <;> first | with_reducible assumption | (dsimp only; with_reducible assumption) | with_reducible exact ringPut_wf _ _ _ _ m1 | (simp only [List.length_modify, List.length_map, List.length_set]; with_reducible assumption)))

theorem leadDefault_inv {h : HalfId} {s : State} (hs : s.Inv) :
    (leadDefault h s).Inv := by
  unfold leadDefault
  repeat' (first | with_reducible assumption | with_reducible refine updBri_inv ?_ | with_reducible refine takeLead_inv ?_ | with_reducible refine conflictDo_inv ?_ | with_reducible refine upd_inv (fun x hx => ?_) ?_ | with_reducible refine half_inv ?_ _ | dsimp only | split | (obtain ⟨⟨m1, m2⟩, ⟨q1, q2, q3, q4⟩, u1, u2, u3, u4, u5, u6, u7, u8, u9, u10⟩ := hx; refine ⟨⟨?_, ?_⟩, ⟨?_, ?_, ?_, ?_⟩, ?_, ?_, ?_, ?_, ?_, ?_, ?_, ?_, ?_, ?_⟩ <;> first | with_reducible assumption | (dsimp only; with_reducible assumption) | with_reducible exact ringPut_wf _ _ _ _ m1 | (simp only [List.length_modify, List.length_map, List.length_set]; with_reducible assumption)))

theorem ownSessions_inv {h : HalfId} {flows : List FlowSeq} {s : State} (hs : s.Inv) :
    (ownSessions h flows s).Inv := by
  unfold ownSessions
  repeat' (first | with_reducible assumption | with_reducible refine updFlowAt_inv ?_ | with_reducible refine activate_inv ?_ | with_reducible refine twinSwitch_inv ?_ | with_reducible refine moveFlow_inv ?_ | with_reducible refine upd_inv (fun x hx => ?_) ?_ | with_reducible refine foldl_inv (fun s a hs => ?_) ?_ | with_reducible refine foldlH_inv (fun x a hx => ?_) ?_ | with_reducible refine foldl_fst_inv (fun s a hs => ?_) ?_ | with_reducible refine half_inv ?_ _ | dsimp only | split | (obtain ⟨⟨m1, m2⟩, ⟨q1, q2, q3, q4⟩, u1, u2, u3, u4, u5, u6, u7, u8, u9, u10⟩ := hx; refine ⟨⟨?_, ?_⟩, ⟨?_, ?_, ?_, ?_⟩, ?_, ?_, ?_, ?_, ?_, ?_, ?_, ?_, ?_, ?_⟩ <;> first | with_reducible assumption | (dsimp only; with_reducible assumption) | with_reducible exact ringPut_wf _ _ _ _ m1 | (simp only [List.length_modify, List.length_map, List.length_set]; with_reducible assumption)))

theorem takeSession_inv {h : HalfId} {f : FlowSt} {s : State} (hs : s.Inv) :
    (takeSession h f s).Inv := by
  unfold takeSession
  repeat' (first | with_reducible assumption | with_reducible refine updFlowAt_inv ?_ | with_reducible refine enterUndercoat_inv ?_ | with_reducible refine strand_inv ?_ | with_reducible refine movedEvent_inv ?_ | with_reducible refine upd_inv (fun x hx => ?_) ?_ | with_reducible refine half_inv ?_ _ | dsimp only | split | (obtain ⟨⟨m1, m2⟩, ⟨q1, q2, q3, q4⟩, u1, u2, u3, u4, u5, u6, u7, u8, u9, u10⟩ := hx; refine ⟨⟨?_, ?_⟩, ⟨?_, ?_, ?_, ?_⟩, ?_, ?_, ?_, ?_, ?_, ?_, ?_, ?_, ?_, ?_⟩ <;> first | with_reducible assumption | (dsimp only; with_reducible assumption) | with_reducible exact ringPut_wf _ _ _ _ m1 | (simp only [List.length_modify, List.length_map, List.length_set]; with_reducible assumption)))

theorem foreignSessions_inv {h : HalfId} {s : State} (hs : s.Inv) :
    (foreignSessions h s).Inv := by
  unfold foreignSessions
  repeat' (first | with_reducible assumption | with_reducible refine updBri_inv ?_ | with_reducible refine takeSession_inv ?_ | with_reducible refine upd_inv (fun x hx => ?_) ?_ | with_reducible refine foldl_inv (fun s a hs => ?_) ?_ | with_reducible refine foldlH_inv (fun x a hx => ?_) ?_ | with_reducible refine foldl_fst_inv (fun s a hs => ?_) ?_ | with_reducible refine half_inv ?_ _ | dsimp only | split | (obtain ⟨⟨m1, m2⟩, ⟨q1, q2, q3, q4⟩, u1, u2, u3, u4, u5, u6, u7, u8, u9, u10⟩ := hx; refine ⟨⟨?_, ?_⟩, ⟨?_, ?_, ?_, ?_⟩, ?_, ?_, ?_, ?_, ?_, ?_, ?_, ?_, ?_, ?_⟩ <;> first | with_reducible assumption | (dsimp only; with_reducible assumption) | with_reducible exact ringPut_wf _ _ _ _ m1 | (simp only [List.length_modify, List.length_map, List.length_set]; with_reducible assumption)))

theorem partnerGone_inv {h : HalfId} {cause : Nat} {stopped : Option (List FlowSeq)} {s : State} (hs : s.Inv) :
    (partnerGone h cause stopped s).Inv := by
  unfold partnerGone
  repeat' (first | with_reducible assumption | with_reducible refine emit_inv ?_ | with_reducible refine event_inv ?_ | with_reducible refine updBri_inv ?_ | with_reducible refine leadTrigger_inv ?_ | with_reducible refine ownSessions_inv ?_ | with_reducible refine foreignSessions_inv ?_ | with_reducible refine upd_inv (fun x hx => ?_) ?_ | with_reducible refine half_inv ?_ _ | dsimp only | split | (obtain ⟨⟨m1, m2⟩, ⟨q1, q2, q3, q4⟩, u1, u2, u3, u4, u5, u6, u7, u8, u9, u10⟩ := hx; refine ⟨⟨?_, ?_⟩, ⟨?_, ?_, ?_, ?_⟩, ?_, ?_, ?_, ?_, ?_, ?_, ?_, ?_, ?_, ?_⟩ <;> first | with_reducible assumption | (dsimp only; with_reducible assumption) | with_reducible exact ringPut_wf _ _ _ _ m1 | (simp only [List.length_modify, List.length_map, List.length_set]; with_reducible assumption)))

theorem linkGone_inv {h : HalfId} {s : State} (hs : s.Inv) :
    (linkGone h s).Inv := by
  unfold linkGone
  repeat' (first | with_reducible assumption | with_reducible refine strand_inv ?_ | with_reducible refine twinSwitch_inv ?_ | with_reducible refine upd_inv (fun x hx => ?_) ?_ | with_reducible refine foldl_inv (fun s a hs => ?_) ?_ | with_reducible refine foldlH_inv (fun x a hx => ?_) ?_ | with_reducible refine foldl_fst_inv (fun s a hs => ?_) ?_ | with_reducible refine half_inv ?_ _ | dsimp only | split | (obtain ⟨⟨m1, m2⟩, ⟨q1, q2, q3, q4⟩, u1, u2, u3, u4, u5, u6, u7, u8, u9, u10⟩ := hx; refine ⟨⟨?_, ?_⟩, ⟨?_, ?_, ?_, ?_⟩, ?_, ?_, ?_, ?_, ?_, ?_, ?_, ?_, ?_, ?_⟩ <;> first | with_reducible assumption | (dsimp only; with_reducible assumption) | with_reducible exact ringPut_wf _ _ _ _ m1 | (simp only [List.length_modify, List.length_map, List.length_set]; with_reducible assumption)))

theorem laneSees_inv {x : Half} {e : LaneEvent} (hx : x.Inv) : (laneSees x e).Inv := by
  cases e
  · exact iteH_inv hx (count_inv hx)
  · exact hx
  · exact count_inv hx
  · exact count_inv hx
  · exact count_inv hx

theorem flowBack_inv {h : HalfId} {fl : Handle} {s : State} (hs : s.Inv) :
    (flowBack h fl s).Inv := by
  unfold flowBack
  repeat' (first | with_reducible assumption | with_reducible refine updFlowAt_inv ?_ | with_reducible refine flowTo_inv ?_ | with_reducible refine upd_inv (fun x hx => ?_) ?_ | with_reducible refine half_inv ?_ _ | dsimp only | split | (obtain ⟨⟨m1, m2⟩, ⟨q1, q2, q3, q4⟩, u1, u2, u3, u4, u5, u6, u7, u8, u9, u10⟩ := hx; refine ⟨⟨?_, ?_⟩, ⟨?_, ?_, ?_, ?_⟩, ?_, ?_, ?_, ?_, ?_, ?_, ?_, ?_, ?_, ?_⟩ <;> first | with_reducible assumption | (dsimp only; with_reducible assumption) | with_reducible exact ringPut_wf _ _ _ _ m1 | (simp only [List.length_modify, List.length_map, List.length_set]; with_reducible assumption)))

theorem rejoin_inv {h : HalfId} {s : State} (hs : s.Inv) :
    (rejoin h s).Inv := by
  unfold rejoin
  repeat' (first | with_reducible assumption | with_reducible refine emit_inv ?_ | with_reducible refine updDecode_inv ?_ | with_reducible refine requestOnce_inv ?_ | with_reducible refine redoDecode_inv ?_ | with_reducible refine flowBack_inv ?_ | with_reducible refine upd_inv (fun x hx => ?_) ?_ | with_reducible refine foldl_inv (fun s a hs => ?_) ?_ | with_reducible refine foldlH_inv (fun x a hx => ?_) ?_ | with_reducible refine foldl_fst_inv (fun s a hs => ?_) ?_ | with_reducible refine half_inv ?_ _ | dsimp only | split | (obtain ⟨⟨m1, m2⟩, ⟨q1, q2, q3, q4⟩, u1, u2, u3, u4, u5, u6, u7, u8, u9, u10⟩ := hx; refine ⟨⟨?_, ?_⟩, ⟨?_, ?_, ?_, ?_⟩, ?_, ?_, ?_, ?_, ?_, ?_, ?_, ?_, ?_, ?_⟩ <;> first | with_reducible assumption | (dsimp only; with_reducible assumption) | with_reducible exact ringPut_wf _ _ _ _ m1 | (simp only [List.length_modify, List.length_map, List.length_set]; with_reducible assumption)))

theorem rejoinDue_inv {h : HalfId} {s : State} (hs : s.Inv) :
    (rejoinDue h s).Inv := by
  unfold rejoinDue
  repeat' (first | with_reducible assumption | with_reducible refine updEncode_inv ?_ | with_reducible refine twinRestartFor_inv ?_ | with_reducible refine rejoin_inv ?_ | with_reducible refine upd_inv (fun x hx => ?_) ?_ | with_reducible refine foldl_inv (fun s a hs => ?_) ?_ | with_reducible refine foldlH_inv (fun x a hx => ?_) ?_ | with_reducible refine foldl_fst_inv (fun s a hs => ?_) ?_ | with_reducible refine guarded_inv ?_ ?_ | with_reducible refine half_inv ?_ _ | dsimp only | split | (obtain ⟨⟨m1, m2⟩, ⟨q1, q2, q3, q4⟩, u1, u2, u3, u4, u5, u6, u7, u8, u9, u10⟩ := hx; refine ⟨⟨?_, ?_⟩, ⟨?_, ?_, ?_, ?_⟩, ?_, ?_, ?_, ?_, ?_, ?_, ?_, ?_, ?_, ?_⟩ <;> first | with_reducible assumption | (dsimp only; with_reducible assumption) | with_reducible exact ringPut_wf _ _ _ _ m1 | (simp only [List.length_modify, List.length_map, List.length_set]; with_reducible assumption)))

theorem seqReports_inv {h : HalfId} {s : State} (hs : s.Inv) :
    (seqReports h s).Inv := by
  unfold seqReports
  repeat' (first | with_reducible assumption | with_reducible refine emit_inv ?_ | with_reducible refine foldl_inv (fun s a hs => ?_) ?_ | with_reducible refine foldlH_inv (fun x a hx => ?_) ?_ | with_reducible refine foldl_fst_inv (fun s a hs => ?_) ?_ | with_reducible refine half_inv ?_ _ | dsimp only | split | (obtain ⟨⟨m1, m2⟩, ⟨q1, q2, q3, q4⟩, u1, u2, u3, u4, u5, u6, u7, u8, u9, u10⟩ := hx; refine ⟨⟨?_, ?_⟩, ⟨?_, ?_, ?_, ?_⟩, ?_, ?_, ?_, ?_, ?_, ?_, ?_, ?_, ?_, ?_⟩ <;> first | with_reducible assumption | (dsimp only; with_reducible assumption) | with_reducible exact ringPut_wf _ _ _ _ m1 | (simp only [List.length_modify, List.length_map, List.length_set]; with_reducible assumption)))

theorem halfIdle_inv {h : HalfId} {s : State} (hs : s.Inv) :
    (halfIdle h s).Inv := by
  unfold halfIdle
  repeat' (first | with_reducible assumption | with_reducible refine instantOut_inv ?_ | with_reducible refine takeUnknown_inv ?_ | with_reducible refine settle_inv ?_ | with_reducible refine markIdle_inv ?_ | with_reducible refine clockCounts_inv ?_ | with_reducible refine checkersMeet_inv ?_ | with_reducible refine heldChannels_inv ?_ | with_reducible refine rejoinDue_inv ?_ | with_reducible refine seqReports_inv ?_ | with_reducible refine upd_inv (fun x hx => ?_) ?_ | with_reducible refine foldl_inv (fun s a hs => ?_) ?_ | with_reducible refine foldlH_inv (fun x a hx => ?_) ?_ | with_reducible refine foldl_fst_inv (fun s a hs => ?_) ?_ | with_reducible refine half_inv ?_ _ | dsimp only | split | (obtain ⟨⟨m1, m2⟩, ⟨q1, q2, q3, q4⟩, u1, u2, u3, u4, u5, u6, u7, u8, u9, u10⟩ := hx; refine ⟨⟨?_, ?_⟩, ⟨?_, ?_, ?_, ?_⟩, ?_, ?_, ?_, ?_, ?_, ?_, ?_, ?_, ?_, ?_⟩ <;> first | with_reducible assumption | (dsimp only; with_reducible assumption) | with_reducible exact ringPut_wf _ _ _ _ m1 | (simp only [List.length_modify, List.length_map, List.length_set]; with_reducible assumption)))

theorem idleStep_inv {s : State} (hs : s.Inv) :
    (idleStep s).Inv := by
  unfold idleStep
  repeat' (first | with_reducible assumption | with_reducible refine deviceTick_inv ?_ | with_reducible refine halfIdle_inv ?_ | with_reducible refine half_inv ?_ _ | dsimp only | split | (obtain ⟨⟨m1, m2⟩, ⟨q1, q2, q3, q4⟩, u1, u2, u3, u4, u5, u6, u7, u8, u9, u10⟩ := hx; refine ⟨⟨?_, ?_⟩, ⟨?_, ?_, ?_, ?_⟩, ?_, ?_, ?_, ?_, ?_, ?_, ?_, ?_, ?_, ?_⟩ <;> first | with_reducible assumption | (dsimp only; with_reducible assumption) | with_reducible exact ringPut_wf _ _ _ _ m1 | (simp only [List.length_modify, List.length_map, List.length_set]; with_reducible assumption)))

/-! Streams.lean -/

theorem startEncode_inv {h : HalfId} {obj : Handle} {base : Nat} {s : State} (hs : s.Inv) :
    (startEncode h obj base s).Inv := by
  unfold startEncode
  repeat' (first | with_reducible assumption | with_reducible refine updEncode_inv ?_ | with_reducible refine updFlowAt_inv ?_ | with_reducible refine upd_inv (fun x hx => ?_) ?_ | with_reducible refine foldl_inv (fun s a hs => ?_) ?_ | with_reducible refine foldlH_inv (fun x a hx => ?_) ?_ | with_reducible refine foldl_fst_inv (fun s a hs => ?_) ?_ | with_reducible refine half_inv ?_ _ | dsimp only | split | (obtain ⟨⟨m1, m2⟩, ⟨q1, q2, q3, q4⟩, u1, u2, u3, u4, u5, u6, u7, u8, u9, u10⟩ := hx; refine ⟨⟨?_, ?_⟩, ⟨?_, ?_, ?_, ?_⟩, ?_, ?_, ?_, ?_, ?_, ?_, ?_, ?_, ?_, ?_⟩ <;> first | with_reducible assumption | (dsimp only; with_reducible assumption) | with_reducible exact ringPut_wf _ _ _ _ m1 | (simp only [List.length_modify, List.length_map, List.length_set]; with_reducible assumption)))

theorem startDecode_inv {h : HalfId} {obj : Handle} {s : State} (hs : s.Inv) :
    (startDecode h obj s).Inv := by
  unfold startDecode
  repeat' (first | with_reducible assumption | with_reducible refine updDecode_inv ?_ | with_reducible refine requestOnce_inv ?_ | with_reducible refine upd_inv (fun x hx => ?_) ?_ | with_reducible refine half_inv ?_ _ | dsimp only | split | (obtain ⟨⟨m1, m2⟩, ⟨q1, q2, q3, q4⟩, u1, u2, u3, u4, u5, u6, u7, u8, u9, u10⟩ := hx; refine ⟨⟨?_, ?_⟩, ⟨?_, ?_, ?_, ?_⟩, ?_, ?_, ?_, ?_, ?_, ?_, ?_, ?_, ?_, ?_⟩ <;> first | with_reducible assumption | (dsimp only; with_reducible assumption) | with_reducible exact ringPut_wf _ _ _ _ m1 | (simp only [List.length_modify, List.length_map, List.length_set]; with_reducible assumption)))

theorem startCanvas_inv {obj : Handle} {base : Nat} {x : Half} (hx : x.Inv) :
    (startCanvas obj base x).Inv := by
  unfold startCanvas
  repeat' (first | with_reducible assumption | with_reducible refine updCanvas_inv ?_ | with_reducible refine half_inv ?_ _ | dsimp only | split | (obtain ⟨⟨m1, m2⟩, ⟨q1, q2, q3, q4⟩, u1, u2, u3, u4, u5, u6, u7, u8, u9, u10⟩ := hx; refine ⟨⟨?_, ?_⟩, ⟨?_, ?_, ?_, ?_⟩, ?_, ?_, ?_, ?_, ?_, ?_, ?_, ?_, ?_, ?_⟩ <;> first | with_reducible assumption | (dsimp only; with_reducible assumption) | with_reducible exact ringPut_wf _ _ _ _ m1 | (simp only [List.length_modify, List.length_map, List.length_set]; with_reducible assumption)))

theorem startFlow_inv {h : HalfId} {obj : Handle} {base : Nat} {s : State} (hs : s.Inv) :
    (startFlow h obj base s).Inv := by
  unfold startFlow
  repeat' (first | with_reducible assumption | with_reducible refine updFlow_inv ?_ | with_reducible refine addRefresh_inv ?_ | with_reducible refine upd_inv (fun x hx => ?_) ?_ | with_reducible refine half_inv ?_ _ | dsimp only | split | (obtain ⟨⟨m1, m2⟩, ⟨q1, q2, q3, q4⟩, u1, u2, u3, u4, u5, u6, u7, u8, u9, u10⟩ := hx; refine ⟨⟨?_, ?_⟩, ⟨?_, ?_, ?_, ?_⟩, ?_, ?_, ?_, ?_, ?_, ?_, ?_, ?_, ?_, ?_⟩ <;> first | with_reducible assumption | (dsimp only; with_reducible assumption) | with_reducible exact ringPut_wf _ _ _ _ m1 | (simp only [List.length_modify, List.length_map, List.length_set]; with_reducible assumption)))

theorem startObject_inv {h : HalfId} {base : Nat} {obj : Handle} {s : State} (hs : s.Inv) :
    (startObject h base obj s).Inv := by
  unfold startObject
  repeat' (first | with_reducible assumption | with_reducible refine startEncode_inv ?_ | with_reducible refine startDecode_inv ?_ | with_reducible refine startCanvas_inv ?_ | with_reducible refine startFlow_inv ?_ | with_reducible refine upd_inv (fun x hx => ?_) ?_ | with_reducible refine half_inv ?_ _ | dsimp only | split | (obtain ⟨⟨m1, m2⟩, ⟨q1, q2, q3, q4⟩, u1, u2, u3, u4, u5, u6, u7, u8, u9, u10⟩ := hx; refine ⟨⟨?_, ?_⟩, ⟨?_, ?_, ?_, ?_⟩, ?_, ?_, ?_, ?_, ?_, ?_, ?_, ?_, ?_, ?_⟩ <;> first | with_reducible assumption | (dsimp only; with_reducible assumption) | with_reducible exact ringPut_wf _ _ _ _ m1 | (simp only [List.length_modify, List.length_map, List.length_set]; with_reducible assumption)))

theorem streamStops_inv {h : HalfId} {fl : Handle} {s : State} (hs : s.Inv) :
    (streamStops h fl s).Inv := by
  unfold streamStops
  repeat' (first | with_reducible assumption | with_reducible refine emit_inv ?_ | with_reducible refine updFlowAt_inv ?_ | with_reducible refine finishOpen_inv ?_ | with_reducible refine enterUndercoat_inv ?_ | with_reducible refine upd_inv (fun x hx => ?_) ?_ | with_reducible refine half_inv ?_ _ | dsimp only | split | (obtain ⟨⟨m1, m2⟩, ⟨q1, q2, q3, q4⟩, u1, u2, u3, u4, u5, u6, u7, u8, u9, u10⟩ := hx; refine ⟨⟨?_, ?_⟩, ⟨?_, ?_, ?_, ?_⟩, ?_, ?_, ?_, ?_, ?_, ?_, ?_, ?_, ?_, ?_⟩ <;> first | with_reducible assumption | (dsimp only; with_reducible assumption) | with_reducible exact ringPut_wf _ _ _ _ m1 | (simp only [List.length_modify, List.length_map, List.length_set]; with_reducible assumption)))

theorem stopEncode_inv {h : HalfId} {obj : Handle} {s : State} (hs : s.Inv) :
    (stopEncode h obj s).Inv := by
  unfold stopEncode
  repeat' (first | with_reducible assumption | with_reducible refine updEncode_inv ?_ | with_reducible refine dropPicture_inv ?_ | with_reducible refine rejoin_inv ?_ | with_reducible refine streamStops_inv ?_ | with_reducible refine upd_inv (fun x hx => ?_) ?_ | with_reducible refine foldl_inv (fun s a hs => ?_) ?_ | with_reducible refine foldlH_inv (fun x a hx => ?_) ?_ | with_reducible refine foldl_fst_inv (fun s a hs => ?_) ?_ | with_reducible refine half_inv ?_ _ | dsimp only | split | (obtain ⟨⟨m1, m2⟩, ⟨q1, q2, q3, q4⟩, u1, u2, u3, u4, u5, u6, u7, u8, u9, u10⟩ := hx; refine ⟨⟨?_, ?_⟩, ⟨?_, ?_, ?_, ?_⟩, ?_, ?_, ?_, ?_, ?_, ?_, ?_, ?_, ?_, ?_⟩ <;> first | with_reducible assumption | (dsimp only; with_reducible assumption) | with_reducible exact ringPut_wf _ _ _ _ m1 | (simp only [List.length_modify, List.length_map, List.length_set]; with_reducible assumption)))

theorem stopDecode_inv {obj : Handle} {x : Half} (hx : x.Inv) :
    (stopDecode obj x).Inv := by
  unfold stopDecode
  repeat' (first | with_reducible assumption | with_reducible refine updDecode_inv ?_ | with_reducible refine half_inv ?_ _ | dsimp only | split | (obtain ⟨⟨m1, m2⟩, ⟨q1, q2, q3, q4⟩, u1, u2, u3, u4, u5, u6, u7, u8, u9, u10⟩ := hx; refine ⟨⟨?_, ?_⟩, ⟨?_, ?_, ?_, ?_⟩, ?_, ?_, ?_, ?_, ?_, ?_, ?_, ?_, ?_, ?_⟩ <;> first | with_reducible assumption | (dsimp only; with_reducible assumption) | with_reducible exact ringPut_wf _ _ _ _ m1 | (simp only [List.length_modify, List.length_map, List.length_set]; with_reducible assumption)))

theorem stopCanvas_inv {h : HalfId} {obj : Handle} {s : State} (hs : s.Inv) :
    (stopCanvas h obj s).Inv := by
  unfold stopCanvas
  repeat' (first | with_reducible assumption | with_reducible refine updCanvas_inv ?_ | with_reducible refine repeatPicture_inv ?_ | with_reducible refine upd_inv (fun x hx => ?_) ?_ | with_reducible refine foldl_inv (fun s a hs => ?_) ?_ | with_reducible refine foldlH_inv (fun x a hx => ?_) ?_ | with_reducible refine foldl_fst_inv (fun s a hs => ?_) ?_ | with_reducible refine half_inv ?_ _ | dsimp only | split | (obtain ⟨⟨m1, m2⟩, ⟨q1, q2, q3, q4⟩, u1, u2, u3, u4, u5, u6, u7, u8, u9, u10⟩ := hx; refine ⟨⟨?_, ?_⟩, ⟨?_, ?_, ?_, ?_⟩, ?_, ?_, ?_, ?_, ?_, ?_, ?_, ?_, ?_, ?_⟩ <;> first | with_reducible assumption | (dsimp only; with_reducible assumption) | with_reducible exact ringPut_wf _ _ _ _ m1 | (simp only [List.length_modify, List.length_map, List.length_set]; with_reducible assumption)))

theorem stopFlow_inv {h : HalfId} {obj : Handle} {s : State} (hs : s.Inv) :
    (stopFlow h obj s).Inv := by
  unfold stopFlow
  repeat' (first | with_reducible assumption | with_reducible refine emit_inv ?_ | with_reducible refine updFlowAt_inv ?_ | with_reducible refine finishOpen_inv ?_ | with_reducible refine upd_inv (fun x hx => ?_) ?_ | with_reducible refine half_inv ?_ _ | dsimp only | split | (obtain ⟨⟨m1, m2⟩, ⟨q1, q2, q3, q4⟩, u1, u2, u3, u4, u5, u6, u7, u8, u9, u10⟩ := hx; refine ⟨⟨?_, ?_⟩, ⟨?_, ?_, ?_, ?_⟩, ?_, ?_, ?_, ?_, ?_, ?_, ?_, ?_, ?_, ?_⟩ <;> first | with_reducible assumption | (dsimp only; with_reducible assumption) | with_reducible exact ringPut_wf _ _ _ _ m1 | (simp only [List.length_modify, List.length_map, List.length_set]; with_reducible assumption)))

theorem stopObject_inv {h : HalfId} {obj : Handle} {s : State} (hs : s.Inv) :
    (stopObject h obj s).Inv := by
  unfold stopObject
  repeat' (first | with_reducible assumption | with_reducible refine stopEncode_inv ?_ | with_reducible refine stopDecode_inv ?_ | with_reducible refine stopCanvas_inv ?_ | with_reducible refine stopFlow_inv ?_ | with_reducible refine upd_inv (fun x hx => ?_) ?_ | with_reducible refine half_inv ?_ _ | dsimp only | split | (obtain ⟨⟨m1, m2⟩, ⟨q1, q2, q3, q4⟩, u1, u2, u3, u4, u5, u6, u7, u8, u9, u10⟩ := hx; refine ⟨⟨?_, ?_⟩, ⟨?_, ?_, ?_, ?_⟩, ?_, ?_, ?_, ?_, ?_, ?_, ?_, ?_, ?_, ?_⟩ <;> first | with_reducible assumption | (dsimp only; with_reducible assumption) | with_reducible exact ringPut_wf _ _ _ _ m1 | (simp only [List.length_modify, List.length_map, List.length_set]; with_reducible assumption)))

theorem drainObject_inv {t : Nat} {obj : Handle} {x : Half} (hx : x.Inv) :
    (drainObject t obj x).Inv := by
  unfold drainObject
  repeat' (first | with_reducible assumption | with_reducible refine updDecode_inv ?_ | with_reducible refine updCanvas_inv ?_ | with_reducible refine updEncode_inv ?_ | with_reducible refine updFlow_inv ?_ | with_reducible refine half_inv ?_ _ | dsimp only | split | (obtain ⟨⟨m1, m2⟩, ⟨q1, q2, q3, q4⟩, u1, u2, u3, u4, u5, u6, u7, u8, u9, u10⟩ := hx; refine ⟨⟨?_, ?_⟩, ⟨?_, ?_, ?_, ?_⟩, ?_, ?_, ?_, ?_, ?_, ?_, ?_, ?_, ?_, ?_⟩ <;> first | with_reducible assumption | (dsimp only; with_reducible assumption) | with_reducible exact ringPut_wf _ _ _ _ m1 | (simp only [List.length_modify, List.length_map, List.length_set]; with_reducible assumption)))

theorem endDrains_inv {h : HalfId} {obj : Handle} {s : State} (hs : s.Inv) :
    (endDrains h obj s).Inv := by
  unfold endDrains
  repeat' (first | with_reducible assumption | with_reducible refine deferredEnd_inv ?_ | with_reducible refine updEnv_inv ?_ | with_reducible refine upd_inv (fun x hx => ?_) ?_ | with_reducible refine foldl_inv (fun s a hs => ?_) ?_ | with_reducible refine foldlH_inv (fun x a hx => ?_) ?_ | with_reducible refine foldl_fst_inv (fun s a hs => ?_) ?_ | with_reducible refine half_inv ?_ _ | dsimp only | split | (obtain ⟨⟨m1, m2⟩, ⟨q1, q2, q3, q4⟩, u1, u2, u3, u4, u5, u6, u7, u8, u9, u10⟩ := hx; refine ⟨⟨?_, ?_⟩, ⟨?_, ?_, ?_, ?_⟩, ?_, ?_, ?_, ?_, ?_, ?_, ?_, ?_, ?_, ?_⟩ <;> first | with_reducible assumption | (dsimp only; with_reducible assumption) | with_reducible exact ringPut_wf _ _ _ _ m1 | (simp only [List.length_modify, List.length_map, List.length_set]; with_reducible assumption)))

theorem cancelStarts_inv {h : HalfId} {obj : Handle} {s : State} (hs : s.Inv) :
    (cancelStarts h obj s).Inv := by
  unfold cancelStarts
  repeat' (first | with_reducible assumption | with_reducible refine deferredEnd_inv ?_ | with_reducible refine updEnv_inv ?_ | with_reducible refine upd_inv (fun x hx => ?_) ?_ | with_reducible refine foldl_inv (fun s a hs => ?_) ?_ | with_reducible refine foldlH_inv (fun x a hx => ?_) ?_ | with_reducible refine foldl_fst_inv (fun s a hs => ?_) ?_ | with_reducible refine half_inv ?_ _ | dsimp only | split | (obtain ⟨⟨m1, m2⟩, ⟨q1, q2, q3, q4⟩, u1, u2, u3, u4, u5, u6, u7, u8, u9, u10⟩ := hx; refine ⟨⟨?_, ?_⟩, ⟨?_, ?_, ?_, ?_⟩, ?_, ?_, ?_, ?_, ?_, ?_, ?_, ?_, ?_, ?_⟩ <;> first | with_reducible assumption | (dsimp only; with_reducible assumption) | with_reducible exact ringPut_wf _ _ _ _ m1 | (simp only [List.length_modify, List.length_map, List.length_set]; with_reducible assumption)))

theorem runDo_inv {h : HalfId} {action base : Nat} {obj : Handle} {s : State} (hs : s.Inv) :
    (runDo h action base obj s).Inv := by
  unfold runDo
  repeat' (first | with_reducible assumption | with_reducible refine startObject_inv ?_ | with_reducible refine stopObject_inv ?_ | with_reducible refine drainObject_inv ?_ | with_reducible refine upd_inv (fun x hx => ?_) ?_ | with_reducible refine half_inv ?_ _ | dsimp only | split | (obtain ⟨⟨m1, m2⟩, ⟨q1, q2, q3, q4⟩, u1, u2, u3, u4, u5, u6, u7, u8, u9, u10⟩ := hx; refine ⟨⟨?_, ?_⟩, ⟨?_, ?_, ?_, ?_⟩, ?_, ?_, ?_, ?_, ?_, ?_, ?_, ?_, ?_, ?_⟩ <;> first | with_reducible assumption | (dsimp only; with_reducible assumption) | with_reducible exact ringPut_wf _ _ _ _ m1 | (simp only [List.length_modify, List.length_map, List.length_set]; with_reducible assumption)))

theorem runLater_inv {h : HalfId} {op action : Nat} {e : CmdEntry} {t : Nat} {s : State} (hs : s.Inv) :
    (runLater h op action e t s).Inv := by
  unfold runLater
  repeat' (first | with_reducible assumption | with_reducible refine emit_inv ?_ | with_reducible refine addDeferred_inv ?_ | with_reducible refine foldl_inv (fun s a hs => ?_) ?_ | with_reducible refine foldlH_inv (fun x a hx => ?_) ?_ | with_reducible refine foldl_fst_inv (fun s a hs => ?_) ?_ | with_reducible refine half_inv ?_ _ | dsimp only | split | (obtain ⟨⟨m1, m2⟩, ⟨q1, q2, q3, q4⟩, u1, u2, u3, u4, u5, u6, u7, u8, u9, u10⟩ := hx; refine ⟨⟨?_, ?_⟩, ⟨?_, ?_, ?_, ?_⟩, ?_, ?_, ?_, ?_, ?_, ?_, ?_, ?_, ?_, ?_⟩ <;> first | with_reducible assumption | (dsimp only; with_reducible assumption) | with_reducible exact ringPut_wf _ _ _ _ m1 | (simp only [List.length_modify, List.length_map, List.length_set]; with_reducible assumption)))

theorem runBody_inv {h : HalfId} {op action : Nat} {e : CmdEntry} {s : State} (hs : s.Inv) :
    (runBody h op action e s).state.Inv := by
  unfold runBody
  repeat' (first | with_reducible assumption | with_reducible refine Reply.ok_inv ?_ | with_reducible refine Reply.later_inv ?_ | with_reducible refine addDeferred_inv ?_ | with_reducible refine updEnv_inv ?_ | with_reducible refine endDrains_inv ?_ | with_reducible refine cancelStarts_inv ?_ | with_reducible refine runDo_inv ?_ | with_reducible refine runLater_inv ?_ | with_reducible refine Reply.fail_inv ?_ | with_reducible refine Reply.wait_inv ?_ | with_reducible refine upd_inv (fun x hx => ?_) ?_ | with_reducible refine foldl_inv (fun s a hs => ?_) ?_ | with_reducible refine foldlH_inv (fun x a hx => ?_) ?_ | with_reducible refine foldl_fst_inv (fun s a hs => ?_) ?_ | with_reducible refine guarded_inv ?_ ?_ | with_reducible refine half_inv ?_ _ | dsimp only | split | (obtain ⟨⟨m1, m2⟩, ⟨q1, q2, q3, q4⟩, u1, u2, u3, u4, u5, u6, u7, u8, u9, u10⟩ := hx; refine ⟨⟨?_, ?_⟩, ⟨?_, ?_, ?_, ?_⟩, ?_, ?_, ?_, ?_, ?_, ?_, ?_, ?_, ?_, ?_⟩ <;> first | with_reducible assumption | (dsimp only; with_reducible assumption) | with_reducible exact ringPut_wf _ _ _ _ m1 | (simp only [List.length_modify, List.length_map, List.length_set]; with_reducible assumption)))

theorem deferredOut_inv {h : HalfId} {d : Deferred} {status flags : Nat} {s : State} (hs : s.Inv) :
    (deferredOut h d status flags s).Inv := by
  unfold deferredOut
  repeat' (first | with_reducible assumption | with_reducible refine deferredEnd_inv ?_ | with_reducible refine updEnv_inv ?_ | with_reducible refine upd_inv (fun x hx => ?_) ?_ | with_reducible refine half_inv ?_ _ | dsimp only | split | (obtain ⟨⟨m1, m2⟩, ⟨q1, q2, q3, q4⟩, u1, u2, u3, u4, u5, u6, u7, u8, u9, u10⟩ := hx; refine ⟨⟨?_, ?_⟩, ⟨?_, ?_, ?_, ?_⟩, ?_, ?_, ?_, ?_, ?_, ?_, ?_, ?_, ?_, ?_⟩ <;> first | with_reducible assumption | (dsimp only; with_reducible assumption) | with_reducible exact ringPut_wf _ _ _ _ m1 | (simp only [List.length_modify, List.length_map, List.length_set]; with_reducible assumption)))

theorem runDue_inv {h : HalfId} {d : Deferred} {action : Nat} {s : State} (hs : s.Inv) :
    (runDue h d action s).Inv := by
  unfold runDue
  repeat' (first | with_reducible assumption | with_reducible refine updEnv_inv ?_ | with_reducible refine stopObject_inv ?_ | with_reducible refine endDrains_inv ?_ | with_reducible refine runDo_inv ?_ | with_reducible refine deferredOut_inv ?_ | with_reducible refine upd_inv (fun x hx => ?_) ?_ | with_reducible refine foldl_inv (fun s a hs => ?_) ?_ | with_reducible refine foldlH_inv (fun x a hx => ?_) ?_ | with_reducible refine foldl_fst_inv (fun s a hs => ?_) ?_ | with_reducible refine half_inv ?_ _ | dsimp only | split | (obtain ⟨⟨m1, m2⟩, ⟨q1, q2, q3, q4⟩, u1, u2, u3, u4, u5, u6, u7, u8, u9, u10⟩ := hx; refine ⟨⟨?_, ?_⟩, ⟨?_, ?_, ?_, ?_⟩, ?_, ?_, ?_, ?_, ?_, ?_, ?_, ?_, ?_, ?_⟩ <;> first | with_reducible assumption | (dsimp only; with_reducible assumption) | with_reducible exact ringPut_wf _ _ _ _ m1 | (simp only [List.length_modify, List.length_map, List.length_set]; with_reducible assumption)))

theorem forwardedDo_inv {h : HalfId} {c : Forwarded} {s : State} (hs : s.Inv) :
    (forwardedDo h c s).Inv := by
  unfold forwardedDo
  repeat' (first | with_reducible assumption | with_reducible refine updEncode_inv ?_ | with_reducible refine cueArmHalf_inv ?_ | with_reducible refine cueCancelHalf_inv ?_ | with_reducible refine addRefresh_inv ?_ | with_reducible refine updEnv_inv ?_ | with_reducible refine cancelStarts_inv ?_ | with_reducible refine upd_inv (fun x hx => ?_) ?_ | with_reducible refine foldl_inv (fun s a hs => ?_) ?_ | with_reducible refine foldlH_inv (fun x a hx => ?_) ?_ | with_reducible refine foldl_fst_inv (fun s a hs => ?_) ?_ | with_reducible refine half_inv ?_ _ | dsimp only | split | (obtain ⟨⟨m1, m2⟩, ⟨q1, q2, q3, q4⟩, u1, u2, u3, u4, u5, u6, u7, u8, u9, u10⟩ := hx; refine ⟨⟨?_, ?_⟩, ⟨?_, ?_, ?_, ?_⟩, ?_, ?_, ?_, ?_, ?_, ?_, ?_, ?_, ?_, ?_⟩ <;> first | with_reducible assumption | (dsimp only; with_reducible assumption) | with_reducible exact ringPut_wf _ _ _ _ m1 | (simp only [List.length_modify, List.length_map, List.length_set]; with_reducible assumption)))

/-! Queries.lean -/

theorem runQuery_inv {h : HalfId} {op : Nat} {rule : HandleRule} {top : Nat} {e : CmdEntry} {b : BusResult}
    {body : State → Option QueryBody} {clear : State → State} {s : State} (hc : ∀ u, u.Inv → (clear u).Inv) (hs : s.Inv) :
    (runQuery h op rule top e b body clear s).Inv := by
  unfold runQuery
  refine runCmd_inv (fun u hu => guarded_inv ?_ hu) hs
  split
  · exact hu
  · refine replyBuffer_inv (fun v hv => ?_) hu
    split
    · exact hc _ hv
    · exact hv

theorem surgeClear_inv {h : HalfId} {s : State} (hs : s.Inv) :
    (surgeClear h s).Inv := by
  unfold surgeClear
  repeat' (first | with_reducible assumption | with_reducible refine upd_inv (fun x hx => ?_) ?_ | with_reducible refine half_inv ?_ _ | dsimp only | split | (obtain ⟨⟨m1, m2⟩, ⟨q1, q2, q3, q4⟩, u1, u2, u3, u4, u5, u6, u7, u8, u9, u10⟩ := hx; refine ⟨⟨?_, ?_⟩, ⟨?_, ?_, ?_, ?_⟩, ?_, ?_, ?_, ?_, ?_, ?_, ?_, ?_, ?_, ?_⟩ <;> first | with_reducible assumption | (dsimp only; with_reducible assumption) | with_reducible exact ringPut_wf _ _ _ _ m1 | (simp only [List.length_modify, List.length_map, List.length_set]; with_reducible assumption)))

/-! Delivery.lean -/

theorem poolListTurn_inv {p : Nat} {x : Half} (hx : x.Inv) :
    (poolListTurn p x).Inv := by
  unfold poolListTurn
  repeat' (first | with_reducible assumption | with_reducible refine updPool_inv ?_ | with_reducible refine half_inv ?_ _ | dsimp only | split | (obtain ⟨⟨m1, m2⟩, ⟨q1, q2, q3, q4⟩, u1, u2, u3, u4, u5, u6, u7, u8, u9, u10⟩ := hx; refine ⟨⟨?_, ?_⟩, ⟨?_, ?_, ?_, ?_⟩, ?_, ?_, ?_, ?_, ?_, ?_, ?_, ?_, ?_, ?_⟩ <;> first | with_reducible assumption | (dsimp only; with_reducible assumption) | with_reducible exact ringPut_wf _ _ _ _ m1 | (simp only [List.length_modify, List.length_map, List.length_set]; with_reducible assumption)))

theorem nextAssist_inv {h : HalfId} {x y : Half} {a : AsrEntry} (hn : nextAssist h x = some (a, y)) (hx : x.Inv) : y.Inv := by
  unfold nextAssist at hn
  split at hn
  · next n ns hl =>
    obtain ⟨-, rfl⟩ := Prod.mk.inj (Option.some.inj hn)
    have hq := hx.2.1.2.2.2
    rw [‹x.asr.notices = _›] at hq
    refine notices_inv ?_ hx
    simp only [List.length_append, List.length_take, List.length_cons] at hq ⊢
    omega
  · obtain ⟨-, rfl⟩ := Prod.mk.inj (Option.some.inj hn)
    exact notices_inv hx.2.1.2.2.2 hx
  · split at hn
    · obtain ⟨-, rfl⟩ := Prod.mk.inj (Option.some.inj hn)
      exact updPool_inv (updPool_inv hx)
    · split at hn
      · obtain ⟨-, rfl⟩ := Prod.mk.inj (Option.some.inj hn)
        exact notices_inv hx.2.1.2.2.2 hx
      · cases hn

theorem drainAssist_inv {n : Nat} {h : HalfId} {s : State} (hs : s.Inv) : (drainAssist n h s).Inv := by
  induction n generalizing s with
  | zero => exact hs
  | succ n ih =>
    unfold drainAssist
    split
    · exact hs
    split
    · exact hs
    · next a y hn => exact ih (asrWrite_inv (upd_inv_at (nextAssist_inv hn (half_inv hs h)) hs))

theorem requestDefault_inv {h : HalfId} {a : AsrEntry} {s : State} (hs : s.Inv) :
    (requestDefault h a s).Inv := by
  unfold requestDefault
  repeat' (first | with_reducible assumption | with_reducible refine assistLate_inv ?_ | with_reducible refine updEncode_inv ?_ | with_reducible refine removeIdle_inv ?_ | with_reducible refine updPool_inv ?_ | with_reducible refine concealLate_inv ?_ | with_reducible refine markDefault_inv ?_ | with_reducible refine updPtp_inv ?_ | with_reducible refine updTrain_inv ?_ | with_reducible refine retrainRun_inv ?_ | with_reducible refine leadDefault_inv ?_ | with_reducible refine upd_inv (fun x hx => ?_) ?_ | with_reducible refine half_inv ?_ _ | dsimp only | split | (obtain ⟨⟨m1, m2⟩, ⟨q1, q2, q3, q4⟩, u1, u2, u3, u4, u5, u6, u7, u8, u9, u10⟩ := hx; refine ⟨⟨?_, ?_⟩, ⟨?_, ?_, ?_, ?_⟩, ?_, ?_, ?_, ?_, ?_, ?_, ?_, ?_, ?_, ?_⟩ <;> first | with_reducible assumption | (dsimp only; with_reducible assumption) | with_reducible exact ringPut_wf _ _ _ _ m1 | (simp only [List.length_modify, List.length_map, List.length_set]; with_reducible assumption)))

/-! Registers.lean -/

theorem dmaStatusClear_inv {h : HalfId} {c v : Nat} {s : State} (hs : s.Inv) :
    (dmaStatusClear h c v s).Inv := by
  unfold dmaStatusClear
  repeat' (first | with_reducible assumption | with_reducible refine updChan_inv ?_ | with_reducible refine upd_inv (fun x hx => ?_) ?_ | with_reducible refine half_inv ?_ _ | dsimp only | split | (obtain ⟨⟨m1, m2⟩, ⟨q1, q2, q3, q4⟩, u1, u2, u3, u4, u5, u6, u7, u8, u9, u10⟩ := hx; refine ⟨⟨?_, ?_⟩, ⟨?_, ?_, ?_, ?_⟩, ?_, ?_, ?_, ?_, ?_, ?_, ?_, ?_, ?_, ?_⟩ <;> first | with_reducible assumption | (dsimp only; with_reducible assumption) | with_reducible exact ringPut_wf _ _ _ _ m1 | (simp only [List.length_modify, List.length_map, List.length_set]; with_reducible assumption)))

theorem unitEnableWrite_inv {h : HalfId} {k : UnitKind} {v : Nat} {s : State} (hs : s.Inv) :
    (unitEnableWrite h k v s).Inv := by
  unfold unitEnableWrite
  repeat' (first | with_reducible assumption | with_reducible refine updFlags_inv ?_ | with_reducible refine enableClear_inv ?_ | with_reducible refine enableSet_inv ?_ | with_reducible refine upd_inv (fun x hx => ?_) ?_ | with_reducible refine foldl_inv (fun s a hs => ?_) ?_ | with_reducible refine foldlH_inv (fun x a hx => ?_) ?_ | with_reducible refine foldl_fst_inv (fun s a hs => ?_) ?_ | with_reducible refine half_inv ?_ _ | dsimp only | split | (obtain ⟨⟨m1, m2⟩, ⟨q1, q2, q3, q4⟩, u1, u2, u3, u4, u5, u6, u7, u8, u9, u10⟩ := hx; refine ⟨⟨?_, ?_⟩, ⟨?_, ?_, ?_, ?_⟩, ?_, ?_, ?_, ?_, ?_, ?_, ?_, ?_, ?_, ?_⟩ <;> first | with_reducible assumption | (dsimp only; with_reducible assumption) | with_reducible exact ringPut_wf _ _ _ _ m1 | (simp only [List.length_modify, List.length_map, List.length_set]; with_reducible assumption)))

theorem dmaWordWrite_inv {h : HalfId} {c off v : Nat} {s : State} (hs : s.Inv) :
    (dmaWordWrite h c off v s).Inv := by
  unfold dmaWordWrite
  repeat' (first | with_reducible assumption | with_reducible refine regError_inv ?_ | with_reducible refine updChan_inv ?_ | with_reducible refine dmaKickDo_inv ?_ | with_reducible refine dmaCtrlDo_inv ?_ | with_reducible refine dmaDisableDo_inv ?_ | with_reducible refine dmaStatusClear_inv ?_ | with_reducible refine upd_inv (fun x hx => ?_) ?_ | with_reducible refine half_inv ?_ _ | dsimp only | split | (obtain ⟨⟨m1, m2⟩, ⟨q1, q2, q3, q4⟩, u1, u2, u3, u4, u5, u6, u7, u8, u9, u10⟩ := hx; refine ⟨⟨?_, ?_⟩, ⟨?_, ?_, ?_, ?_⟩, ?_, ?_, ?_, ?_, ?_, ?_, ?_, ?_, ?_, ?_⟩ <;> first | with_reducible assumption | (dsimp only; with_reducible assumption) | with_reducible exact ringPut_wf _ _ _ _ m1 | (simp only [List.length_modify, List.length_map, List.length_set]; with_reducible assumption)))

theorem icuWordWrite_inv {endpoint icu : HalfId} {off v : Nat} {s : State} (hs : s.Inv) :
    (icuWordWrite endpoint icu off v s).Inv := by
  unfold icuWordWrite
  repeat' (first | with_reducible assumption | with_reducible refine regError_inv ?_ | with_reducible refine icuHostEntry_inv ?_ | with_reducible refine icuClaimWrite_inv ?_ | with_reducible refine icuSetWrite_inv ?_ | with_reducible refine upd_inv (fun x hx => ?_) ?_ | with_reducible refine half_inv ?_ _ | dsimp only | split | (obtain ⟨⟨m1, m2⟩, ⟨q1, q2, q3, q4⟩, u1, u2, u3, u4, u5, u6, u7, u8, u9, u10⟩ := hx; refine ⟨⟨?_, ?_⟩, ⟨?_, ?_, ?_, ?_⟩, ?_, ?_, ?_, ?_, ?_, ?_, ?_, ?_, ?_, ?_⟩ <;> first | with_reducible assumption | (dsimp only; with_reducible assumption) | with_reducible exact ringPut_wf _ _ _ _ m1 | (simp only [List.length_modify, List.length_map, List.length_set]; with_reducible assumption)))

theorem msixWordWrite_inv {h : HalfId} {off v : Nat} {s : State} (hs : s.Inv) :
    (msixWordWrite h off v s).Inv := by
  unfold msixWordWrite
  repeat' (first | with_reducible assumption | with_reducible refine msixMaskWrite_inv ?_ | with_reducible refine upd_inv (fun x hx => ?_) ?_ | with_reducible refine half_inv ?_ _ | dsimp only | split | (obtain ⟨⟨m1, m2⟩, ⟨q1, q2, q3, q4⟩, u1, u2, u3, u4, u5, u6, u7, u8, u9, u10⟩ := hx; refine ⟨⟨?_, ?_⟩, ⟨?_, ?_, ?_, ?_⟩, ?_, ?_, ?_, ?_, ?_, ?_, ?_, ?_, ?_, ?_⟩ <;> first | with_reducible assumption | (dsimp only; with_reducible assumption) | with_reducible exact ringPut_wf _ _ _ _ m1 | (simp only [List.length_modify, List.length_map, List.length_set]; with_reducible assumption)))

theorem wordWrite_inv {h : HalfId} {off v : Nat} {s : State} (hs : s.Inv) :
    (wordWrite h off v s).Inv := by
  unfold wordWrite
  repeat' (first | with_reducible assumption | with_reducible refine regError_inv ?_ | with_reducible refine writeCmdqTail_inv ?_ | with_reducible refine writeCplqHead_inv ?_ | with_reducible refine writeEvtqHead_inv ?_ | with_reducible refine writeAsqTail_inv ?_ | with_reducible refine writeAsrHead_inv ?_ | with_reducible refine dmaErrClearDo_inv ?_ | with_reducible refine unitEnableWrite_inv ?_ | with_reducible refine dmaWordWrite_inv ?_ | with_reducible refine icuWordWrite_inv ?_ | with_reducible refine msixWordWrite_inv ?_ | with_reducible refine upd_inv (fun x hx => ?_) ?_ | with_reducible refine half_inv ?_ _ | dsimp only | split | (obtain ⟨⟨m1, m2⟩, ⟨q1, q2, q3, q4⟩, u1, u2, u3, u4, u5, u6, u7, u8, u9, u10⟩ := hx; refine ⟨⟨?_, ?_⟩, ⟨?_, ?_, ?_, ?_⟩, ?_, ?_, ?_, ?_, ?_, ?_, ?_, ?_, ?_, ?_⟩ <;> first | with_reducible assumption | (dsimp only; with_reducible assumption) | with_reducible exact ringPut_wf _ _ _ _ m1 | (simp only [List.length_modify, List.length_map, List.length_set]; with_reducible assumption)))

theorem longWrite_inv {h : HalfId} {off v : Nat} {s : State} (hs : s.Inv) :
    (longWrite h off v s).Inv := by
  unfold longWrite
  repeat' (first | with_reducible assumption | with_reducible refine dmaChainDo_inv ?_ | with_reducible refine wordWrite_inv ?_ | with_reducible refine upd_inv (fun x hx => ?_) ?_ | with_reducible refine half_inv ?_ _ | dsimp only | split | (obtain ⟨⟨m1, m2⟩, ⟨q1, q2, q3, q4⟩, u1, u2, u3, u4, u5, u6, u7, u8, u9, u10⟩ := hx; refine ⟨⟨?_, ?_⟩, ⟨?_, ?_, ?_, ?_⟩, ?_, ?_, ?_, ?_, ?_, ?_, ?_, ?_, ?_, ?_⟩ <;> first | with_reducible assumption | (dsimp only; with_reducible assumption) | with_reducible exact ringPut_wf _ _ _ _ m1 | (simp only [List.length_modify, List.length_map, List.length_set]; with_reducible assumption)))

theorem registerDo_inv {h : HalfId} {off width v : Nat} {s : State} (hs : s.Inv) :
    (registerDo h off width v s).Inv := by
  unfold registerDo
  repeat' (first | with_reducible assumption | with_reducible refine regError_inv ?_ | with_reducible refine wordWrite_inv ?_ | with_reducible refine longWrite_inv ?_ | with_reducible refine upd_inv (fun x hx => ?_) ?_ | with_reducible refine half_inv ?_ _ | dsimp only | split | (obtain ⟨⟨m1, m2⟩, ⟨q1, q2, q3, q4⟩, u1, u2, u3, u4, u5, u6, u7, u8, u9, u10⟩ := hx; refine ⟨⟨?_, ?_⟩, ⟨?_, ?_, ?_, ?_⟩, ?_, ?_, ?_, ?_, ?_, ?_, ?_, ?_, ?_, ?_⟩ <;> first | with_reducible assumption | (dsimp only; with_reducible assumption) | with_reducible exact ringPut_wf _ _ _ _ m1 | (simp only [List.length_modify, List.length_map, List.length_set]; with_reducible assumption)))

end Sys2Proof.Machine
end

