-- ==== Sys2Proof/Laws/KeepsExec.lean ====
section
/-!
SUPPORT. KeepsExec.lean: every command keeps the invariant of Safety.lean; one lemma per meaning.
-/
namespace Sys2Proof.Machine

set_option linter.all false

/-! Doorbells.lean -/

theorem execCmdqTailWrite_inv {h : HalfId} {value : W32} {s : State} {t : State} (hs : s.Inv)
    (ht : execCmdqTailWrite h value s = .next t) : t.Inv := by
  unfold execCmdqTailWrite at ht
  injection ht with ht
  rw [← ht]
  clear ht
  repeat' (first | with_reducible assumption | with_reducible refine writeCmdqTail_inv ?_ | with_reducible refine hostWriteTo_inv (fun s hs => ?_) ?_ | with_reducible refine half_inv ?_ _ | dsimp only | split | (obtain ⟨⟨m1, m2⟩, ⟨q1, q2, q3, q4⟩, u1, u2, u3, u4, u5, u6, u7, u8, u9, u10⟩ := hx; refine ⟨⟨?_, ?_⟩, ⟨?_, ?_, ?_, ?_⟩, ?_, ?_, ?_, ?_, ?_, ?_, ?_, ?_, ?_, ?_⟩ <;> first | with_reducible assumption | (dsimp only; with_reducible assumption) | with_reducible exact ringPut_wf _ _ _ _ m1 | (simp only [List.length_modify, List.length_map, List.length_set]; with_reducible assumption)))

theorem execCplqHeadWrite_inv {h : HalfId} {value : W32} {s : State} {t : State} (hs : s.Inv)
    (ht : execCplqHeadWrite h value s = .next t) : t.Inv := by
  unfold execCplqHeadWrite at ht
  injection ht with ht
  rw [← ht]
  clear ht
  repeat' (first | with_reducible assumption | with_reducible refine writeCplqHead_inv ?_ | with_reducible refine hostWriteTo_inv (fun s hs => ?_) ?_ | with_reducible refine half_inv ?_ _ | dsimp only | split | (obtain ⟨⟨m1, m2⟩, ⟨q1, q2, q3, q4⟩, u1, u2, u3, u4, u5, u6, u7, u8, u9, u10⟩ := hx; refine ⟨⟨?_, ?_⟩, ⟨?_, ?_, ?_, ?_⟩, ?_, ?_, ?_, ?_, ?_, ?_, ?_, ?_, ?_, ?_⟩ <;> first | with_reducible assumption | (dsimp only; with_reducible assumption) | with_reducible exact ringPut_wf _ _ _ _ m1 | (simp only [List.length_modify, List.length_map, List.length_set]; with_reducible assumption)))

theorem execEvtqHeadWrite_inv {h : HalfId} {value : W32} {s : State} {t : State} (hs : s.Inv)
    (ht : execEvtqHeadWrite h value s = .next t) : t.Inv := by
  unfold execEvtqHeadWrite at ht
  injection ht with ht
  rw [← ht]
  clear ht
  repeat' (first | with_reducible assumption | with_reducible refine writeEvtqHead_inv ?_ | with_reducible refine hostWriteTo_inv (fun s hs => ?_) ?_ | with_reducible refine half_inv ?_ _ | dsimp only | split | (obtain ⟨⟨m1, m2⟩, ⟨q1, q2, q3, q4⟩, u1, u2, u3, u4, u5, u6, u7, u8, u9, u10⟩ := hx; refine ⟨⟨?_, ?_⟩, ⟨?_, ?_, ?_, ?_⟩, ?_, ?_, ?_, ?_, ?_, ?_, ?_, ?_, ?_, ?_⟩ <;> first | with_reducible assumption | (dsimp only; with_reducible assumption) | with_reducible exact ringPut_wf _ _ _ _ m1 | (simp only [List.length_modify, List.length_map, List.length_set]; with_reducible assumption)))

theorem execAsqTailWrite_inv {h : HalfId} {value : W32} {s : State} {t : State} (hs : s.Inv)
    (ht : execAsqTailWrite h value s = .next t) : t.Inv := by
  unfold execAsqTailWrite at ht
  injection ht with ht
  rw [← ht]
  clear ht
  repeat' (first | with_reducible assumption | with_reducible refine writeAsqTail_inv ?_ | with_reducible refine hostWriteTo_inv (fun s hs => ?_) ?_ | with_reducible refine half_inv ?_ _ | dsimp only | split | (obtain ⟨⟨m1, m2⟩, ⟨q1, q2, q3, q4⟩, u1, u2, u3, u4, u5, u6, u7, u8, u9, u10⟩ := hx; refine ⟨⟨?_, ?_⟩, ⟨?_, ?_, ?_, ?_⟩, ?_, ?_, ?_, ?_, ?_, ?_, ?_, ?_, ?_, ?_⟩ <;> first | with_reducible assumption | (dsimp only; with_reducible assumption) | with_reducible exact ringPut_wf _ _ _ _ m1 | (simp only [List.length_modify, List.length_map, List.length_set]; with_reducible assumption)))

theorem execAsrHeadWrite_inv {h : HalfId} {value : W32} {s : State} {t : State} (hs : s.Inv)
    (ht : execAsrHeadWrite h value s = .next t) : t.Inv := by
  unfold execAsrHeadWrite at ht
  injection ht with ht
  rw [← ht]
  clear ht
  repeat' (first | with_reducible assumption | with_reducible refine writeAsrHead_inv ?_ | with_reducible refine hostWriteTo_inv (fun s hs => ?_) ?_ | with_reducible refine half_inv ?_ _ | dsimp only | split | (obtain ⟨⟨m1, m2⟩, ⟨q1, q2, q3, q4⟩, u1, u2, u3, u4, u5, u6, u7, u8, u9, u10⟩ := hx; refine ⟨⟨?_, ?_⟩, ⟨?_, ?_, ?_, ?_⟩, ?_, ?_, ?_, ?_, ?_, ?_, ?_, ?_, ?_, ?_⟩ <;> first | with_reducible assumption | (dsimp only; with_reducible assumption) | with_reducible exact ringPut_wf _ _ _ _ m1 | (simp only [List.length_modify, List.length_map, List.length_set]; with_reducible assumption)))

theorem execIcuSrcCfgWrite_inv {endpoint icu : HalfId} {source : Nat} {value : W32} {s : State} {t : State} (hs : s.Inv)
    (ht : execIcuSrcCfgWrite endpoint icu source value s = .next t) : t.Inv := by
  unfold execIcuSrcCfgWrite at ht
  injection ht with ht
  rw [← ht]
  clear ht
  repeat' (first | with_reducible assumption | with_reducible refine icuHostEntry_inv ?_ | with_reducible refine hostWriteTo_inv (fun s hs => ?_) ?_ | with_reducible refine half_inv ?_ _ | dsimp only | split | (obtain ⟨⟨m1, m2⟩, ⟨q1, q2, q3, q4⟩, u1, u2, u3, u4, u5, u6, u7, u8, u9, u10⟩ := hx; refine ⟨⟨?_, ?_⟩, ⟨?_, ?_, ?_, ?_⟩, ?_, ?_, ?_, ?_, ?_, ?_, ?_, ?_, ?_, ?_⟩ <;> first | with_reducible assumption | (dsimp only; with_reducible assumption) | with_reducible exact ringPut_wf _ _ _ _ m1 | (simp only [List.length_modify, List.length_map, List.length_set]; with_reducible assumption)))

theorem execIcuSet_inv {r : Requester} {icu : HalfId} {number : W32} {s : State} {t : State} (hs : s.Inv)
    (ht : execIcuSet r icu number s = .next t) : t.Inv := by
  unfold execIcuSet at ht
  injection ht with ht
  rw [← ht]
  clear ht
  repeat' (first | with_reducible assumption | with_reducible refine icuSetWrite_inv ?_ | with_reducible refine hostWriteTo_inv (fun s hs => ?_) ?_ | with_reducible refine half_inv ?_ _ | dsimp only | split | (obtain ⟨⟨m1, m2⟩, ⟨q1, q2, q3, q4⟩, u1, u2, u3, u4, u5, u6, u7, u8, u9, u10⟩ := hx; refine ⟨⟨?_, ?_⟩, ⟨?_, ?_, ?_, ?_⟩, ?_, ?_, ?_, ?_, ?_, ?_, ?_, ?_, ?_, ?_⟩ <;> first | with_reducible assumption | (dsimp only; with_reducible assumption) | with_reducible exact ringPut_wf _ _ _ _ m1 | (simp only [List.length_modify, List.length_map, List.length_set]; with_reducible assumption)))

theorem execIcuClaim_inv {r : Requester} {icu : HalfId} {number : W32} {s : State} {t : State} (hs : s.Inv)
    (ht : execIcuClaim r icu number s = .next t) : t.Inv := by
  unfold execIcuClaim at ht
  injection ht with ht
  rw [← ht]
  clear ht
  repeat' (first | with_reducible assumption | with_reducible refine icuClaimWrite_inv ?_ | with_reducible refine hostWriteTo_inv (fun s hs => ?_) ?_ | with_reducible refine half_inv ?_ _ | dsimp only | split | (obtain ⟨⟨m1, m2⟩, ⟨q1, q2, q3, q4⟩, u1, u2, u3, u4, u5, u6, u7, u8, u9, u10⟩ := hx; refine ⟨⟨?_, ?_⟩, ⟨?_, ?_, ?_, ?_⟩, ?_, ?_, ?_, ?_, ?_, ?_, ?_, ?_, ?_, ?_⟩ <;> first | with_reducible assumption | (dsimp only; with_reducible assumption) | with_reducible exact ringPut_wf _ _ _ _ m1 | (simp only [List.length_modify, List.length_map, List.length_set]; with_reducible assumption)))

theorem execIcuPartnerClaimDone_inv {endpoint : HalfId} {s : State} {t : State} (hs : s.Inv)
    (ht : execIcuPartnerClaimDone endpoint s = .next t) : t.Inv := by
  unfold execIcuPartnerClaimDone at ht
  injection ht with ht
  rw [← ht]
  clear ht
  repeat' (first | with_reducible assumption | with_reducible refine icuTake_inv ?_ | with_reducible refine icuResult_inv ?_ | with_reducible refine upd_inv (fun x hx => ?_) ?_ | with_reducible refine half_inv ?_ _ | dsimp only | split | (obtain ⟨⟨m1, m2⟩, ⟨q1, q2, q3, q4⟩, u1, u2, u3, u4, u5, u6, u7, u8, u9, u10⟩ := hx; refine ⟨⟨?_, ?_⟩, ⟨?_, ?_, ?_, ?_⟩, ?_, ?_, ?_, ?_, ?_, ?_, ?_, ?_, ?_, ?_⟩ <;> first | with_reducible assumption | (dsimp only; with_reducible assumption) | with_reducible exact ringPut_wf _ _ _ _ m1 | (simp only [List.length_modify, List.length_map, List.length_set]; with_reducible assumption)))

theorem execMsixUnmask_inv {h : HalfId} {vector : Nat} {s : State} {t : State} (hs : s.Inv)
    (ht : execMsixUnmask h vector s = .next t) : t.Inv := by
  unfold execMsixUnmask at ht
  injection ht with ht
  rw [← ht]
  clear ht
  repeat' (first | with_reducible assumption | with_reducible refine msixMaskWrite_inv ?_ | with_reducible refine hostWriteTo_inv (fun s hs => ?_) ?_ | with_reducible refine half_inv ?_ _ | dsimp only | split | (obtain ⟨⟨m1, m2⟩, ⟨q1, q2, q3, q4⟩, u1, u2, u3, u4, u5, u6, u7, u8, u9, u10⟩ := hx; refine ⟨⟨?_, ?_⟩, ⟨?_, ?_, ?_, ?_⟩, ?_, ?_, ?_, ?_, ?_, ?_, ?_, ?_, ?_, ?_⟩ <;> first | with_reducible assumption | (dsimp only; with_reducible assumption) | with_reducible exact ringPut_wf _ _ _ _ m1 | (simp only [List.length_modify, List.length_map, List.length_set]; with_reducible assumption)))

theorem execIcuParityFailure_inv {h : HalfId} {source : Nat} {s : State} {t : State} (hs : s.Inv)
    (ht : execIcuParityFailure h source s = .next t) : t.Inv := by
  unfold execIcuParityFailure at ht
  injection ht with ht
  rw [← ht]
  clear ht
  repeat' (first | with_reducible assumption | with_reducible refine disarm_inv ?_ | with_reducible refine icuParityFail_inv ?_ | with_reducible refine upd_inv (fun x hx => ?_) ?_ | with_reducible refine half_inv ?_ _ | dsimp only | split | (obtain ⟨⟨m1, m2⟩, ⟨q1, q2, q3, q4⟩, u1, u2, u3, u4, u5, u6, u7, u8, u9, u10⟩ := hx; refine ⟨⟨?_, ?_⟩, ⟨?_, ?_, ?_, ?_⟩, ?_, ?_, ?_, ?_, ?_, ?_, ?_, ?_, ?_, ?_⟩ <;> first | with_reducible assumption | (dsimp only; with_reducible assumption) | with_reducible exact ringPut_wf _ _ _ _ m1 | (simp only [List.length_modify, List.length_map, List.length_set]; with_reducible assumption)))

/-! HostDma.lean -/

theorem execBar4Access_inv {h : HalfId} {op : Bar4Op} {s : State} {t : State} (hs : s.Inv)
    (ht : execBar4Access h op s = .next t) : t.Inv := by
  unfold execBar4Access at ht
  injection ht with ht
  rw [← ht]
  clear ht
  repeat' (first | with_reducible assumption | with_reducible refine count_inv ?_ | with_reducible refine bar4Do_inv ?_ | with_reducible refine upd_inv (fun x hx => ?_) ?_ | with_reducible refine hostWriteTo_inv (fun s hs => ?_) ?_ | with_reducible refine half_inv ?_ _ | dsimp only | split | (obtain ⟨⟨m1, m2⟩, ⟨q1, q2, q3, q4⟩, u1, u2, u3, u4, u5, u6, u7, u8, u9, u10⟩ := hx; refine ⟨⟨?_, ?_⟩, ⟨?_, ?_, ?_, ?_⟩, ?_, ?_, ?_, ?_, ?_, ?_, ?_, ?_, ?_, ?_⟩ <;> first | with_reducible assumption | (dsimp only; with_reducible assumption) | with_reducible exact ringPut_wf _ _ _ _ m1 | (simp only [List.length_modify, List.length_map, List.length_set]; with_reducible assumption)))

theorem execBar2Write_inv {h : HalfId} {offset : Nat} {bytes : List Byte} {s : State} {t : State} (hs : s.Inv)
    (ht : execBar2Write h offset bytes s = .next t) : t.Inv := by
  unfold execBar2Write at ht
  injection ht with ht
  rw [← ht]
  clear ht
  repeat' (first | with_reducible assumption | with_reducible refine bar2Do_inv ?_ | with_reducible refine upd_inv (fun x hx => ?_) ?_ | with_reducible refine hostWriteTo_inv (fun s hs => ?_) ?_ | with_reducible refine half_inv ?_ _ | dsimp only | split | (obtain ⟨⟨m1, m2⟩, ⟨q1, q2, q3, q4⟩, u1, u2, u3, u4, u5, u6, u7, u8, u9, u10⟩ := hx; refine ⟨⟨?_, ?_⟩, ⟨?_, ?_, ?_, ?_⟩, ?_, ?_, ?_, ?_, ?_, ?_, ?_, ?_, ?_, ?_⟩ <;> first | with_reducible assumption | (dsimp only; with_reducible assumption) | with_reducible exact ringPut_wf _ _ _ _ m1 | (simp only [List.length_modify, List.length_map, List.length_set]; with_reducible assumption)))

theorem execDmaKick_inv {h : HalfId} {channel : Nat} {s : State} {t : State} (hs : s.Inv)
    (ht : execDmaKick h channel s = .next t) : t.Inv := by
  unfold execDmaKick at ht
  injection ht with ht
  rw [← ht]
  clear ht
  repeat' (first | with_reducible assumption | with_reducible refine dmaKickDo_inv ?_ | with_reducible refine hostWriteTo_inv (fun s hs => ?_) ?_ | with_reducible refine half_inv ?_ _ | dsimp only | split | (obtain ⟨⟨m1, m2⟩, ⟨q1, q2, q3, q4⟩, u1, u2, u3, u4, u5, u6, u7, u8, u9, u10⟩ := hx; refine ⟨⟨?_, ?_⟩, ⟨?_, ?_, ?_, ?_⟩, ?_, ?_, ?_, ?_, ?_, ?_, ?_, ?_, ?_, ?_⟩ <;> first | with_reducible assumption | (dsimp only; with_reducible assumption) | with_reducible exact ringPut_wf _ _ _ _ m1 | (simp only [List.length_modify, List.length_map, List.length_set]; with_reducible assumption)))

theorem execDmaChainWrite_inv {h : HalfId} {channel : Nat} {address : W64} {s : State} {t : State} (hs : s.Inv)
    (ht : execDmaChainWrite h channel address s = .next t) : t.Inv := by
  unfold execDmaChainWrite at ht
  injection ht with ht
  rw [← ht]
  clear ht
  repeat' (first | with_reducible assumption | with_reducible refine dmaChainDo_inv ?_ | with_reducible refine hostWriteTo_inv (fun s hs => ?_) ?_ | with_reducible refine half_inv ?_ _ | dsimp only | split | (obtain ⟨⟨m1, m2⟩, ⟨q1, q2, q3, q4⟩, u1, u2, u3, u4, u5, u6, u7, u8, u9, u10⟩ := hx; refine ⟨⟨?_, ?_⟩, ⟨?_, ?_, ?_, ?_⟩, ?_, ?_, ?_, ?_, ?_, ?_, ?_, ?_, ?_, ?_⟩ <;> first | with_reducible assumption | (dsimp only; with_reducible assumption) | with_reducible exact ringPut_wf _ _ _ _ m1 | (simp only [List.length_modify, List.length_map, List.length_set]; with_reducible assumption)))

theorem execDmaEnable_inv {h : HalfId} {channel : Nat} {enable noSnoop : Bool} {s : State} {t : State} (hs : s.Inv)
    (ht : execDmaEnable h channel enable noSnoop s = .next t) : t.Inv := by
  unfold execDmaEnable at ht
  injection ht with ht
  rw [← ht]
  clear ht
  repeat' (first | with_reducible assumption | with_reducible refine dmaCtrlDo_inv ?_ | with_reducible refine hostWriteTo_inv (fun s hs => ?_) ?_ | with_reducible refine half_inv ?_ _ | dsimp only | split | (obtain ⟨⟨m1, m2⟩, ⟨q1, q2, q3, q4⟩, u1, u2, u3, u4, u5, u6, u7, u8, u9, u10⟩ := hx; refine ⟨⟨?_, ?_⟩, ⟨?_, ?_, ?_, ?_⟩, ?_, ?_, ?_, ?_, ?_, ?_, ?_, ?_, ?_, ?_⟩ <;> first | with_reducible assumption | (dsimp only; with_reducible assumption) | with_reducible exact ringPut_wf _ _ _ _ m1 | (simp only [List.length_modify, List.length_map, List.length_set]; with_reducible assumption)))

theorem execDmaDisable_inv {h : HalfId} {channel : Nat} {s : State} {t : State} (hs : s.Inv)
    (ht : execDmaDisable h channel s = .next t) : t.Inv := by
  unfold execDmaDisable at ht
  injection ht with ht
  rw [← ht]
  clear ht
  repeat' (first | with_reducible assumption | with_reducible refine dmaDisableDo_inv ?_ | with_reducible refine hostWriteTo_inv (fun s hs => ?_) ?_ | with_reducible refine half_inv ?_ _ | dsimp only | split | (obtain ⟨⟨m1, m2⟩, ⟨q1, q2, q3, q4⟩, u1, u2, u3, u4, u5, u6, u7, u8, u9, u10⟩ := hx; refine ⟨⟨?_, ?_⟩, ⟨?_, ?_, ?_, ?_⟩, ?_, ?_, ?_, ?_, ?_, ?_, ?_, ?_, ?_, ?_⟩ <;> first | with_reducible assumption | (dsimp only; with_reducible assumption) | with_reducible exact ringPut_wf _ _ _ _ m1 | (simp only [List.length_modify, List.length_map, List.length_set]; with_reducible assumption)))

theorem execDmaErrClear_inv {h : HalfId} {s : State} {t : State} (hs : s.Inv)
    (ht : execDmaErrClear h s = .next t) : t.Inv := by
  unfold execDmaErrClear at ht
  injection ht with ht
  rw [← ht]
  clear ht
  repeat' (first | with_reducible assumption | with_reducible refine dmaErrClearDo_inv ?_ | with_reducible refine hostWriteTo_inv (fun s hs => ?_) ?_ | with_reducible refine half_inv ?_ _ | dsimp only | split | (obtain ⟨⟨m1, m2⟩, ⟨q1, q2, q3, q4⟩, u1, u2, u3, u4, u5, u6, u7, u8, u9, u10⟩ := hx; refine ⟨⟨?_, ?_⟩, ⟨?_, ?_, ?_, ?_⟩, ?_, ?_, ?_, ?_, ?_, ?_, ?_, ?_, ?_, ?_⟩ <;> first | with_reducible assumption | (dsimp only; with_reducible assumption) | with_reducible exact ringPut_wf _ _ _ _ m1 | (simp only [List.length_modify, List.length_map, List.length_set]; with_reducible assumption)))

theorem execDmaDescriptorFetched_inv {h : HalfId} {channel : Nat} {bytes : List Byte} {s : State} {t : State} (hs : s.Inv)
    (ht : execDmaDescriptorFetched h channel bytes s = .next t) : t.Inv := by
  unfold execDmaDescriptorFetched at ht
  injection ht with ht
  rw [← ht]
  clear ht
  repeat' (first | with_reducible assumption | with_reducible refine count_inv ?_ | with_reducible refine dmaBusFail_inv ?_ | with_reducible refine errorResponse_inv ?_ | with_reducible refine descStart_inv ?_ | with_reducible refine descAgain_inv ?_ | with_reducible refine upd_inv (fun x hx => ?_) ?_ | with_reducible refine half_inv ?_ _ | dsimp only | split | (obtain ⟨⟨m1, m2⟩, ⟨q1, q2, q3, q4⟩, u1, u2, u3, u4, u5, u6, u7, u8, u9, u10⟩ := hx; refine ⟨⟨?_, ?_⟩, ⟨?_, ?_, ?_, ?_⟩, ?_, ?_, ?_, ?_, ?_, ?_, ?_, ?_, ?_, ?_⟩ <;> first | with_reducible assumption | (dsimp only; with_reducible assumption) | with_reducible exact ringPut_wf _ _ _ _ m1 | (simp only [List.length_modify, List.length_map, List.length_set]; with_reducible assumption)))

theorem execDmaReadCompletion_inv {h : HalfId} {channel : Nat} {bytes : List Byte} {s : State} {t : State} (hs : s.Inv)
    (ht : execDmaReadCompletion h channel bytes s = .next t) : t.Inv := by
  unfold execDmaReadCompletion at ht
  injection ht with ht
  rw [← ht]
  clear ht
  repeat' (first | with_reducible assumption | with_reducible refine readArrives_inv ?_ | with_reducible refine half_inv ?_ _ | dsimp only | split | (obtain ⟨⟨m1, m2⟩, ⟨q1, q2, q3, q4⟩, u1, u2, u3, u4, u5, u6, u7, u8, u9, u10⟩ := hx; refine ⟨⟨?_, ?_⟩, ⟨?_, ?_, ?_, ?_⟩, ?_, ?_, ?_, ?_, ?_, ?_, ?_, ?_, ?_, ?_⟩ <;> first | with_reducible assumption | (dsimp only; with_reducible assumption) | with_reducible exact ringPut_wf _ _ _ _ m1 | (simp only [List.length_modify, List.length_map, List.length_set]; with_reducible assumption)))

theorem execDmaDescriptorComplete_inv {h : HalfId} {channel : Nat} {s : State} {t : State} (hs : s.Inv)
    (ht : execDmaDescriptorComplete h channel s = .next t) : t.Inv := by
  unfold execDmaDescriptorComplete at ht
  injection ht with ht
  rw [← ht]
  clear ht
  repeat' (first | with_reducible assumption | with_reducible refine dmaBusFail_inv ?_ | with_reducible refine bar4Deny_inv ?_ | with_reducible refine errorResponse_inv ?_ | with_reducible refine dmaDeliver_inv ?_ | with_reducible refine descEnd_inv ?_ | with_reducible refine upd_inv (fun x hx => ?_) ?_ | with_reducible refine foldl_inv (fun s a hs => ?_) ?_ | with_reducible refine foldlH_inv (fun x a hx => ?_) ?_ | with_reducible refine foldl_fst_inv (fun s a hs => ?_) ?_ | with_reducible refine half_inv ?_ _ | dsimp only | split | (obtain ⟨⟨m1, m2⟩, ⟨q1, q2, q3, q4⟩, u1, u2, u3, u4, u5, u6, u7, u8, u9, u10⟩ := hx; refine ⟨⟨?_, ?_⟩, ⟨?_, ?_, ?_, ?_⟩, ?_, ?_, ?_, ?_, ?_, ?_, ?_, ?_, ?_, ?_⟩ <;> first | with_reducible assumption | (dsimp only; with_reducible assumption) | with_reducible exact ringPut_wf _ _ _ _ m1 | (simp only [List.length_modify, List.length_map, List.length_set]; with_reducible assumption)))

theorem execDmaBusError_inv {h : HalfId} {channel cause : Nat} {address : W64} {descriptor : Bool} {s : State} {t : State} (hs : s.Inv)
    (ht : execDmaBusError h channel cause address descriptor s = .next t) : t.Inv := by
  unfold execDmaBusError at ht
  injection ht with ht
  rw [← ht]
  clear ht
  repeat' (first | with_reducible assumption | with_reducible refine dmaBusFail_inv ?_ | with_reducible refine updChan_inv ?_ | with_reducible refine upd_inv (fun x hx => ?_) ?_ | with_reducible refine half_inv ?_ _ | dsimp only | split | (obtain ⟨⟨m1, m2⟩, ⟨q1, q2, q3, q4⟩, u1, u2, u3, u4, u5, u6, u7, u8, u9, u10⟩ := hx; refine ⟨⟨?_, ?_⟩, ⟨?_, ?_, ?_, ?_⟩, ?_, ?_, ?_, ?_, ?_, ?_, ?_, ?_, ?_, ?_⟩ <;> first | with_reducible assumption | (dsimp only; with_reducible assumption) | with_reducible exact ringPut_wf _ _ _ _ m1 | (simp only [List.length_modify, List.length_map, List.length_set]; with_reducible assumption)))

theorem execDmaCompletionTimeout_inv {h : HalfId} {channel : Nat} {s : State} {t : State} (hs : s.Inv)
    (ht : execDmaCompletionTimeout h channel s = .next t) : t.Inv := by
  unfold execDmaCompletionTimeout at ht
  injection ht with ht
  rw [← ht]
  clear ht
  repeat' (first | with_reducible assumption | with_reducible refine dmaBusFail_inv ?_ | with_reducible refine updChan_inv ?_ | with_reducible refine upd_inv (fun x hx => ?_) ?_ | with_reducible refine half_inv ?_ _ | dsimp only | split | (obtain ⟨⟨m1, m2⟩, ⟨q1, q2, q3, q4⟩, u1, u2, u3, u4, u5, u6, u7, u8, u9, u10⟩ := hx; refine ⟨⟨?_, ?_⟩, ⟨?_, ?_, ?_, ?_⟩, ?_, ?_, ?_, ?_, ?_, ?_, ?_, ?_, ?_, ?_⟩ <;> first | with_reducible assumption | (dsimp only; with_reducible assumption) | with_reducible exact ringPut_wf _ _ _ _ m1 | (simp only [List.length_modify, List.length_map, List.length_set]; with_reducible assumption)))

/-! Pools.lean -/

theorem execPoolAllocate_inv {h : HalfId} {stop : Nat} {pool0 : Bool} {size count : Nat} {s : State} {t : State} (hs : s.Inv)
    (ht : execPoolAllocate h stop pool0 size count s = .next t) : t.Inv := by
  unfold execPoolAllocate at ht
  injection ht with ht
  rw [← ht]
  clear ht
  repeat' (first | with_reducible assumption | with_reducible refine count_inv ?_ | with_reducible refine poolAlloc_inv ?_ | with_reducible refine half_inv ?_ _ | dsimp only | split | (obtain ⟨⟨m1, m2⟩, ⟨q1, q2, q3, q4⟩, u1, u2, u3, u4, u5, u6, u7, u8, u9, u10⟩ := hx; refine ⟨⟨?_, ?_⟩, ⟨?_, ?_, ?_, ?_⟩, ?_, ?_, ?_, ?_, ?_, ?_, ?_, ?_, ?_, ?_⟩ <;> first | with_reducible assumption | (dsimp only; with_reducible assumption) | with_reducible exact ringPut_wf _ _ _ _ m1 | (simp only [List.length_modify, List.length_map, List.length_set]; with_reducible assumption)))

theorem execPoolAdd_inv {h : HalfId} {stop address count : Nat} {s : State} {t : State} (hs : s.Inv)
    (ht : execPoolAdd h stop address count s = .next t) : t.Inv := by
  unfold execPoolAdd at ht
  injection ht with ht
  rw [← ht]
  clear ht
  repeat' (first | with_reducible assumption | with_reducible refine count_inv ?_ | with_reducible refine poolAddDo_inv ?_ | with_reducible refine half_inv ?_ _ | dsimp only | split | (obtain ⟨⟨m1, m2⟩, ⟨q1, q2, q3, q4⟩, u1, u2, u3, u4, u5, u6, u7, u8, u9, u10⟩ := hx; refine ⟨⟨?_, ?_⟩, ⟨?_, ?_, ?_, ?_⟩, ?_, ?_, ?_, ?_, ?_, ?_, ?_, ?_, ?_, ?_⟩ <;> first | with_reducible assumption | (dsimp only; with_reducible assumption) | with_reducible exact ringPut_wf _ _ _ _ m1 | (simp only [List.length_modify, List.length_map, List.length_set]; with_reducible assumption)))

theorem execPoolRelease_inv {h : HalfId} {stop address : Nat} {s : State} {t : State} (hs : s.Inv)
    (ht : execPoolRelease h stop address s = .next t) : t.Inv := by
  unfold execPoolRelease at ht
  injection ht with ht
  rw [← ht]
  clear ht
  repeat' (first | with_reducible assumption | with_reducible refine poolReleaseDo_inv ?_ | with_reducible refine half_inv ?_ _ | dsimp only | split | (obtain ⟨⟨m1, m2⟩, ⟨q1, q2, q3, q4⟩, u1, u2, u3, u4, u5, u6, u7, u8, u9, u10⟩ := hx; refine ⟨⟨?_, ?_⟩, ⟨?_, ?_, ?_, ?_⟩, ?_, ?_, ?_, ?_, ?_, ?_, ?_, ?_, ?_, ?_⟩ <;> first | with_reducible assumption | (dsimp only; with_reducible assumption) | with_reducible exact ringPut_wf _ _ _ _ m1 | (simp only [List.length_modify, List.length_map, List.length_set]; with_reducible assumption)))

theorem execPoolRebuilt_inv {h : HalfId} {pool : Nat} {s : State} {t : State} (hs : s.Inv)
    (ht : execPoolRebuilt h pool s = .next t) : t.Inv := by
  unfold execPoolRebuilt at ht
  injection ht with ht
  rw [← ht]
  clear ht
  repeat' (first | with_reducible assumption | with_reducible refine count_inv ?_ | with_reducible refine event_inv ?_ | with_reducible refine updPool_inv ?_ | with_reducible refine poolThread_inv ?_ | with_reducible refine upd_inv (fun x hx => ?_) ?_ | with_reducible refine half_inv ?_ _ | dsimp only | split | (obtain ⟨⟨m1, m2⟩, ⟨q1, q2, q3, q4⟩, u1, u2, u3, u4, u5, u6, u7, u8, u9, u10⟩ := hx; refine ⟨⟨?_, ?_⟩, ⟨?_, ?_, ?_, ?_⟩, ?_, ?_, ?_, ?_, ?_, ?_, ?_, ?_, ?_, ?_⟩ <;> first | with_reducible assumption | (dsimp only; with_reducible assumption) | with_reducible exact ringPut_wf _ _ _ _ m1 | (simp only [List.length_modify, List.length_map, List.length_set]; with_reducible assumption)))

theorem execPoolSupplyDeadline_inv {h : HalfId} {pool : Nat} {s : State} {t : State} (hs : s.Inv)
    (ht : execPoolSupplyDeadline h pool s = .next t) : t.Inv := by
  unfold execPoolSupplyDeadline at ht
  injection ht with ht
  rw [← ht]
  clear ht
  repeat' (first | with_reducible assumption | with_reducible refine assistLate_inv ?_ | with_reducible refine updPool_inv ?_ | with_reducible refine upd_inv (fun x hx => ?_) ?_ | with_reducible refine half_inv ?_ _ | dsimp only | split | (obtain ⟨⟨m1, m2⟩, ⟨q1, q2, q3, q4⟩, u1, u2, u3, u4, u5, u6, u7, u8, u9, u10⟩ := hx; refine ⟨⟨?_, ?_⟩, ⟨?_, ?_, ?_, ?_⟩, ?_, ?_, ?_, ?_, ?_, ?_, ?_, ?_, ?_, ?_⟩ <;> first | with_reducible assumption | (dsimp only; with_reducible assumption) | with_reducible exact ringPut_wf _ _ _ _ m1 | (simp only [List.length_modify, List.length_map, List.length_set]; with_reducible assumption)))

theorem execPoolFreeListSupply_inv {h : HalfId} {a : AssistEntry} {s : State} {t : State} (hs : s.Inv)
    (ht : execPoolFreeListSupply h a s = .next t) : t.Inv := by
  unfold execPoolFreeListSupply at ht
  injection ht with ht
  rw [← ht]
  clear ht
  repeat' (first | with_reducible assumption | with_reducible refine assistLate_inv ?_ | with_reducible refine updPool_inv ?_ | with_reducible refine poolSupplyOne_inv ?_ | with_reducible refine upd_inv (fun x hx => ?_) ?_ | with_reducible refine foldl_inv (fun s a hs => ?_) ?_ | with_reducible refine foldlH_inv (fun x a hx => ?_) ?_ | with_reducible refine foldl_fst_inv (fun s a hs => ?_) ?_ | with_reducible refine runAssist_inv (fun p s hs => ?_) ?_ | with_reducible refine half_inv ?_ _ | dsimp only | split | (obtain ⟨⟨m1, m2⟩, ⟨q1, q2, q3, q4⟩, u1, u2, u3, u4, u5, u6, u7, u8, u9, u10⟩ := hx; refine ⟨⟨?_, ?_⟩, ⟨?_, ?_, ?_, ?_⟩, ?_, ?_, ?_, ?_, ?_, ?_, ?_, ?_, ?_, ?_⟩ <;> first | with_reducible assumption | (dsimp only; with_reducible assumption) | with_reducible exact ringPut_wf _ _ _ _ m1 | (simp only [List.length_modify, List.length_map, List.length_set]; with_reducible assumption)))

/-! Counters.lean -/

theorem execCounterProgram_inv {h : HalfId} {e : CmdEntry} {s : State} {t : State} (hs : s.Inv)
    (ht : execCounterProgram h e s = .next t) : t.Inv := by
  unfold execCounterProgram at ht
  injection ht with ht
  rw [← ht]
  clear ht
  repeat' (first | with_reducible assumption | with_reducible refine Reply.ok_inv ?_ | with_reducible refine upd_inv (fun x hx => ?_) ?_ | with_reducible refine guarded_inv ?_ ?_ | with_reducible refine runCmd_inv (fun s hs => ?_) ?_ | with_reducible refine half_inv ?_ _ | dsimp only | split | (obtain ⟨⟨m1, m2⟩, ⟨q1, q2, q3, q4⟩, u1, u2, u3, u4, u5, u6, u7, u8, u9, u10⟩ := hx; refine ⟨⟨?_, ?_⟩, ⟨?_, ?_, ?_, ?_⟩, ?_, ?_, ?_, ?_, ?_, ?_, ?_, ?_, ?_, ?_⟩ <;> first | with_reducible assumption | (dsimp only; with_reducible assumption) | with_reducible exact ringPut_wf _ _ _ _ m1 | (simp only [List.length_modify, List.length_map, List.length_set]; with_reducible assumption)))

theorem execCounterRead_inv {h : HalfId} {e : CmdEntry} {s : State} {t : State} (hs : s.Inv)
    (ht : execCounterRead h e s = .next t) : t.Inv := by
  unfold execCounterRead at ht
  injection ht with ht
  rw [← ht]
  clear ht
  repeat' (first | with_reducible assumption | with_reducible refine Reply.ok_inv ?_ | with_reducible refine guarded_inv ?_ ?_ | with_reducible refine runCmd_inv (fun s hs => ?_) ?_ | with_reducible refine half_inv ?_ _ | dsimp only | split | (obtain ⟨⟨m1, m2⟩, ⟨q1, q2, q3, q4⟩, u1, u2, u3, u4, u5, u6, u7, u8, u9, u10⟩ := hx; refine ⟨⟨?_, ?_⟩, ⟨?_, ?_, ?_, ?_⟩, ?_, ?_, ?_, ?_, ?_, ?_, ?_, ?_, ?_, ?_⟩ <;> first | with_reducible assumption | (dsimp only; with_reducible assumption) | with_reducible exact ringPut_wf _ _ _ _ m1 | (simp only [List.length_modify, List.length_map, List.length_set]; with_reducible assumption)))

theorem execCounterSnapshot_inv {h : HalfId} {writeOk : Bool} {s : State} {t : State} (hs : s.Inv)
    (ht : execCounterSnapshot h writeOk s = .next t) : t.Inv := by
  unfold execCounterSnapshot at ht
  injection ht with ht
  rw [← ht]
  clear ht
  repeat' (first | with_reducible assumption | with_reducible refine reelStop_inv ?_ | with_reducible refine reelSnapshot_inv ?_ | with_reducible refine half_inv ?_ _ | dsimp only | split | (obtain ⟨⟨m1, m2⟩, ⟨q1, q2, q3, q4⟩, u1, u2, u3, u4, u5, u6, u7, u8, u9, u10⟩ := hx; refine ⟨⟨?_, ?_⟩, ⟨?_, ?_, ?_, ?_⟩, ?_, ?_, ?_, ?_, ?_, ?_, ?_, ?_, ?_, ?_⟩ <;> first | with_reducible assumption | (dsimp only; with_reducible assumption) | with_reducible exact ringPut_wf _ _ _ _ m1 | (simp only [List.length_modify, List.length_map, List.length_set]; with_reducible assumption)))

/-! Boot.lean -/

theorem execPorstAssert_inv {s : State} {t : State} (hs : s.Inv) (ht : execPorstAssert s = .next t) : t.Inv := by
  have h1 : ({ s with porstLow := true } : State).Inv := hs
  unfold execPorstAssert at ht
  injection ht with ht
  exact ht ▸ enterReset_inv (enterReset_inv h1)

theorem execResetPinAssert_inv {h : HalfId} {s : State} {t : State} (hs : s.Inv)
    (ht : execResetPinAssert h s = .next t) : t.Inv := by
  unfold execResetPinAssert at ht
  injection ht with ht
  rw [← ht]
  clear ht
  repeat' (first | with_reducible assumption | with_reducible refine enterReset_inv ?_ | with_reducible refine half_inv ?_ _ | dsimp only | split | (obtain ⟨⟨m1, m2⟩, ⟨q1, q2, q3, q4⟩, u1, u2, u3, u4, u5, u6, u7, u8, u9, u10⟩ := hx; refine ⟨⟨?_, ?_⟩, ⟨?_, ?_, ?_, ?_⟩, ?_, ?_, ?_, ?_, ?_, ?_, ?_, ?_, ?_, ?_⟩ <;> first | with_reducible assumption | (dsimp only; with_reducible assumption) | with_reducible exact ringPut_wf _ _ _ _ m1 | (simp only [List.length_modify, List.length_map, List.length_set]; with_reducible assumption)))

theorem execHalfResetDelayExpiry_inv {h : HalfId} {s : State} {t : State} (hs : s.Inv)
    (ht : execHalfResetDelayExpiry h s = .next t) : t.Inv := by
  unfold execHalfResetDelayExpiry at ht
  injection ht with ht
  rw [← ht]
  clear ht
  repeat' (first | with_reducible assumption | with_reducible refine enterReset_inv ?_ | with_reducible refine upd_inv (fun x hx => ?_) ?_ | with_reducible refine half_inv ?_ _ | dsimp only | split | (obtain ⟨⟨m1, m2⟩, ⟨q1, q2, q3, q4⟩, u1, u2, u3, u4, u5, u6, u7, u8, u9, u10⟩ := hx; refine ⟨⟨?_, ?_⟩, ⟨?_, ?_, ?_, ?_⟩, ?_, ?_, ?_, ?_, ?_, ?_, ?_, ?_, ?_, ?_⟩ <;> first | with_reducible assumption | (dsimp only; with_reducible assumption) | with_reducible exact ringPut_wf _ _ _ _ m1 | (simp only [List.length_modify, List.length_map, List.length_set]; with_reducible assumption)))

theorem execTrialReset_inv {h : HalfId} {s : State} {t : State} (hs : s.Inv)
    (ht : execTrialReset h s = .next t) : t.Inv := by
  unfold execTrialReset at ht
  injection ht with ht
  rw [← ht]
  clear ht
  repeat' (first | with_reducible assumption | with_reducible refine enterReset_inv ?_ | with_reducible refine half_inv ?_ _ | dsimp only | split | (obtain ⟨⟨m1, m2⟩, ⟨q1, q2, q3, q4⟩, u1, u2, u3, u4, u5, u6, u7, u8, u9, u10⟩ := hx; refine ⟨⟨?_, ?_⟩, ⟨?_, ?_, ?_, ?_⟩, ?_, ?_, ?_, ?_, ?_, ?_, ?_, ?_, ?_, ?_⟩ <;> first | with_reducible assumption | (dsimp only; with_reducible assumption) | with_reducible exact ringPut_wf _ _ _ _ m1 | (simp only [List.length_modify, List.length_map, List.length_set]; with_reducible assumption)))

theorem execHalfReset_inv {h : HalfId} {e : CmdEntry} {s : State} {t : State} (hs : s.Inv)
    (ht : execHalfReset h e s = .next t) : t.Inv := by
  unfold execHalfReset at ht
  injection ht with ht
  rw [← ht]
  clear ht
  repeat' (first | with_reducible assumption | with_reducible refine Reply.ok_inv ?_ | with_reducible refine resetSoon_inv ?_ | with_reducible refine guarded_inv ?_ ?_ | with_reducible refine runCmd_inv (fun s hs => ?_) ?_ | with_reducible refine half_inv ?_ _ | dsimp only | split | (obtain ⟨⟨m1, m2⟩, ⟨q1, q2, q3, q4⟩, u1, u2, u3, u4, u5, u6, u7, u8, u9, u10⟩ := hx; refine ⟨⟨?_, ?_⟩, ⟨?_, ?_, ?_, ?_⟩, ?_, ?_, ?_, ?_, ?_, ?_, ?_, ?_, ?_, ?_⟩ <;> first | with_reducible assumption | (dsimp only; with_reducible assumption) | with_reducible exact ringPut_wf _ _ _ _ m1 | (simp only [List.length_modify, List.length_map, List.length_set]; with_reducible assumption)))

theorem execResetRelease_inv {h : HalfId} {f : BootFacts} {s : State} {t : State} (hs : s.Inv)
    (ht : execResetRelease h f s = .next t) : t.Inv := by
  unfold execResetRelease at ht
  injection ht with ht
  rw [← ht]
  clear ht
  repeat' (first | with_reducible assumption | with_reducible refine bootHalf_inv ?_ | with_reducible refine half_inv ?_ _ | dsimp only | split | (obtain ⟨⟨m1, m2⟩, ⟨q1, q2, q3, q4⟩, u1, u2, u3, u4, u5, u6, u7, u8, u9, u10⟩ := hx; refine ⟨⟨?_, ?_⟩, ⟨?_, ?_, ?_, ?_⟩, ?_, ?_, ?_, ?_, ?_, ?_, ?_, ?_, ?_, ?_⟩ <;> first | with_reducible assumption | (dsimp only; with_reducible assumption) | with_reducible exact ringPut_wf _ _ _ _ m1 | (simp only [List.length_modify, List.length_map, List.length_set]; with_reducible assumption)))

theorem execTrialAutoConfirm_inv {h : HalfId} {s : State} {t : State} (hs : s.Inv)
    (ht : execTrialAutoConfirm h s = .next t) : t.Inv := by
  unfold execTrialAutoConfirm at ht
  injection ht with ht
  rw [← ht]
  clear ht
  repeat' (first | with_reducible assumption | with_reducible refine confirmTrial_inv ?_ | with_reducible refine half_inv ?_ _ | dsimp only | split | (obtain ⟨⟨m1, m2⟩, ⟨q1, q2, q3, q4⟩, u1, u2, u3, u4, u5, u6, u7, u8, u9, u10⟩ := hx; refine ⟨⟨?_, ?_⟩, ⟨?_, ?_, ?_, ?_⟩, ?_, ?_, ?_, ?_, ?_, ?_, ?_, ?_, ?_, ?_⟩ <;> first | with_reducible assumption | (dsimp only; with_reducible assumption) | with_reducible exact ringPut_wf _ _ _ _ m1 | (simp only [List.length_modify, List.length_map, List.length_set]; with_reducible assumption)))

theorem execFwConfirm_inv {h : HalfId} {e : CmdEntry} {s : State} {t : State} (hs : s.Inv)
    (ht : execFwConfirm h e s = .next t) : t.Inv := by
  unfold execFwConfirm at ht
  injection ht with ht
  rw [← ht]
  clear ht
  repeat' (first | with_reducible assumption | with_reducible refine Reply.ok_inv ?_ | with_reducible refine confirmTrial_inv ?_ | with_reducible refine guarded_inv ?_ ?_ | with_reducible refine runCmd_inv (fun s hs => ?_) ?_ | with_reducible refine half_inv ?_ _ | dsimp only | split | (obtain ⟨⟨m1, m2⟩, ⟨q1, q2, q3, q4⟩, u1, u2, u3, u4, u5, u6, u7, u8, u9, u10⟩ := hx; refine ⟨⟨?_, ?_⟩, ⟨?_, ?_, ?_, ?_⟩, ?_, ?_, ?_, ?_, ?_, ?_, ?_, ?_, ?_, ?_⟩ <;> first | with_reducible assumption | (dsimp only; with_reducible assumption) | with_reducible exact ringPut_wf _ _ _ _ m1 | (simp only [List.length_modify, List.length_map, List.length_set]; with_reducible assumption)))

theorem execKeelWatchdogExpiry_inv {h : HalfId} {s : State} {t : State} (hs : s.Inv)
    (ht : execKeelWatchdogExpiry h s = .next t) : t.Inv := by
  unfold execKeelWatchdogExpiry at ht
  injection ht with ht
  rw [← ht]
  clear ht
  repeat' (first | with_reducible assumption | with_reducible refine latchHw_inv ?_ | with_reducible refine half_inv ?_ _ | dsimp only | split | (obtain ⟨⟨m1, m2⟩, ⟨q1, q2, q3, q4⟩, u1, u2, u3, u4, u5, u6, u7, u8, u9, u10⟩ := hx; refine ⟨⟨?_, ?_⟩, ⟨?_, ?_, ?_, ?_⟩, ?_, ?_, ?_, ?_, ?_, ?_, ?_, ?_, ?_, ?_⟩ <;> first | with_reducible assumption | (dsimp only; with_reducible assumption) | with_reducible exact ringPut_wf _ _ _ _ m1 | (simp only [List.length_modify, List.length_map, List.length_set]; with_reducible assumption)))

theorem execFwStage_inv {h : HalfId} {e : CmdEntry} {r : RefFetch} {s : State} {t : State} (hs : s.Inv)
    (ht : execFwStage h e r s = .next t) : t.Inv := by
  unfold execFwStage at ht
  injection ht with ht
  rw [← ht]
  clear ht
  refine runCmd_inv (fun u hu => ?_) hs
  extract_lets off flags first last len target staged
  refine guarded_inv ?_ hu
  have key : ∀ (b : Bool) (v : Slot) (st : Option HalfId), Memory.wf v.data = true →
      ({ u with flash := { setSlot u.flash b v with staging := st } } : State).Inv := fun b v st hv => setSlot_inv hv hu
  clear_value staged target
  cases target with
  | none => exact hu
  | some b =>
    refine key b _ _ (memWrite_wf _ _ ?_)
    split
    · rfl
    · exact slotOf_wf b hu

theorem execFwVerify_inv {h : HalfId} {e : CmdEntry} {s : State} {t : State} (hs : s.Inv)
    (ht : execFwVerify h e s = .next t) : t.Inv := by
  unfold execFwVerify at ht
  injection ht with ht
  rw [← ht]
  clear ht
  refine runCmd_inv (fun u hu => guarded_inv ?_ hu) hs
  split
  · exact hu
  · next b hb =>
    extract_lets slot bundle counter code
    split
    · exact hu
    · exact setSlot_inv (slotOf_wf b hu) hu

theorem execFwSecurityCommit_inv {h : HalfId} {b : BurnEntry} {s : State} {t : State} (hs : s.Inv)
    (ht : execFwSecurityCommit h b s = .next t) : t.Inv := by
  unfold execFwSecurityCommit at ht
  injection ht with ht
  rw [← ht]
  clear ht
  repeat' (first | with_reducible assumption | with_reducible refine event_inv ?_ | with_reducible refine Reply.ok_inv ?_ | with_reducible refine burnUntil_inv ?_ | with_reducible refine Reply.fail_inv ?_ | with_reducible refine upd_inv (fun x hx => ?_) ?_ | with_reducible refine guarded_inv ?_ ?_ | with_reducible refine runCmd_inv (fun s hs => ?_) ?_ | with_reducible refine half_inv ?_ _ | dsimp only | split | (obtain ⟨⟨m1, m2⟩, ⟨q1, q2, q3, q4⟩, u1, u2, u3, u4, u5, u6, u7, u8, u9, u10⟩ := hx; refine ⟨⟨?_, ?_⟩, ⟨?_, ?_, ?_, ?_⟩, ?_, ?_, ?_, ?_, ?_, ?_, ?_, ?_, ?_, ?_⟩ <;> first | with_reducible assumption | (dsimp only; with_reducible assumption) | with_reducible exact ringPut_wf _ _ _ _ m1 | (simp only [List.length_modify, List.length_map, List.length_set]; with_reducible assumption)))

theorem execFuseLock_inv {h : HalfId} {e : CmdEntry} {s : State} {t : State} (hs : s.Inv)
    (ht : execFuseLock h e s = .next t) : t.Inv := by
  unfold execFuseLock at ht
  injection ht with ht
  rw [← ht]
  clear ht
  repeat' (first | with_reducible assumption | with_reducible refine event_inv ?_ | with_reducible refine Reply.ok_inv ?_ | with_reducible refine burnLocks_inv ?_ | with_reducible refine upd_inv (fun x hx => ?_) ?_ | with_reducible refine guarded_inv ?_ ?_ | with_reducible refine runCmd_inv (fun s hs => ?_) ?_ | with_reducible refine half_inv ?_ _ | dsimp only | split | (obtain ⟨⟨m1, m2⟩, ⟨q1, q2, q3, q4⟩, u1, u2, u3, u4, u5, u6, u7, u8, u9, u10⟩ := hx; refine ⟨⟨?_, ?_⟩, ⟨?_, ?_, ?_, ?_⟩, ?_, ?_, ?_, ?_, ?_, ?_, ?_, ?_, ?_, ?_⟩ <;> first | with_reducible assumption | (dsimp only; with_reducible assumption) | with_reducible exact ringPut_wf _ _ _ _ m1 | (simp only [List.length_modify, List.length_map, List.length_set]; with_reducible assumption)))

theorem execAttest_inv {h : HalfId} {e : CmdEntry} {b : BusResult} {s : State} {t : State} (hs : s.Inv)
    (ht : execAttest h e b s = .next t) : t.Inv := by
  unfold execAttest at ht
  injection ht with ht
  rw [← ht]
  clear ht
  repeat' (first | with_reducible assumption | with_reducible refine guarded_inv ?_ ?_ | with_reducible refine runCmd_inv (fun s hs => ?_) ?_ | with_reducible refine replyBuffer_inv (fun s hs => ?_) ?_ | with_reducible refine half_inv ?_ _ | with_reducible refine id_inv ?_ | with_reducible refine idH_inv ?_ | dsimp only | split | (obtain ⟨⟨m1, m2⟩, ⟨q1, q2, q3, q4⟩, u1, u2, u3, u4, u5, u6, u7, u8, u9, u10⟩ := hx; refine ⟨⟨?_, ?_⟩, ⟨?_, ?_, ?_, ?_⟩, ?_, ?_, ?_, ?_, ?_, ?_, ?_, ?_, ?_, ?_⟩ <;> first | with_reducible assumption | (dsimp only; with_reducible assumption) | with_reducible exact ringPut_wf _ _ _ _ m1 | (simp only [List.length_modify, List.length_map, List.length_set]; with_reducible assumption)))

theorem execCertRead_inv {h : HalfId} {e : CmdEntry} {b : BusResult} {s : State} {t : State} (hs : s.Inv)
    (ht : execCertRead h e b s = .next t) : t.Inv := by
  unfold execCertRead at ht
  injection ht with ht
  rw [← ht]
  clear ht
  repeat' (first | with_reducible assumption | with_reducible refine guarded_inv ?_ ?_ | with_reducible refine runCmd_inv (fun s hs => ?_) ?_ | with_reducible refine replyBuffer_inv (fun s hs => ?_) ?_ | with_reducible refine half_inv ?_ _ | with_reducible refine id_inv ?_ | with_reducible refine idH_inv ?_ | dsimp only | split | (obtain ⟨⟨m1, m2⟩, ⟨q1, q2, q3, q4⟩, u1, u2, u3, u4, u5, u6, u7, u8, u9, u10⟩ := hx; refine ⟨⟨?_, ?_⟩, ⟨?_, ?_, ?_, ?_⟩, ?_, ?_, ?_, ?_, ?_, ?_, ?_, ?_, ?_, ?_⟩ <;> first | with_reducible assumption | (dsimp only; with_reducible assumption) | with_reducible exact ringPut_wf _ _ _ _ m1 | (simp only [List.length_modify, List.length_map, List.length_set]; with_reducible assumption)))

theorem execIdentify_inv {h : HalfId} {e : CmdEntry} {s : State} {t : State} (hs : s.Inv)
    (ht : execIdentify h e s = .next t) : t.Inv := by
  unfold execIdentify at ht
  injection ht with ht
  rw [← ht]
  clear ht
  repeat' (first | with_reducible assumption | with_reducible refine Reply.ok_inv ?_ | with_reducible refine guarded_inv ?_ ?_ | with_reducible refine runCmd_inv (fun s hs => ?_) ?_ | with_reducible refine half_inv ?_ _ | dsimp only | split | (obtain ⟨⟨m1, m2⟩, ⟨q1, q2, q3, q4⟩, u1, u2, u3, u4, u5, u6, u7, u8, u9, u10⟩ := hx; refine ⟨⟨?_, ?_⟩, ⟨?_, ?_, ?_, ?_⟩, ?_, ?_, ?_, ?_, ?_, ?_, ?_, ?_, ?_, ?_⟩ <;> first | with_reducible assumption | (dsimp only; with_reducible assumption) | with_reducible exact ringPut_wf _ _ _ _ m1 | (simp only [List.length_modify, List.length_map, List.length_set]; with_reducible assumption)))

theorem evRefill_eq (n : Nat) (v : Events) : ∃ b t, evRefill n v = { v with balance := b, balanceAt := t } := ⟨_, _, rfl⟩

theorem evRate_inv' {x : Half} {w : Events} {rate burst balance : Nat} (hw : ∃ b t, w = { x.ev with balance := b, balanceAt := t }) (hx : x.Inv) :
    ({ x with ev := { w with rate := rate, burst := burst, balance := balance } } : Half).Inv := by
  obtain ⟨b, t, rfl⟩ := hw
  exact ev_inv hx.2.1.1 hx.2.1.2.1 hx.2.1.2.2.1 hx

theorem evRate_inv {x : Half} {rate burst balance n : Nat} (hx : x.Inv) :
    ({ x with ev := { evRefill n x.ev with rate := rate, burst := burst, balance := balance } } : Half).Inv :=
  evRate_inv' (evRefill_eq _ _) hx

theorem execEventRateSet_inv {h : HalfId} {e : CmdEntry} {s : State} {t : State} (hs : s.Inv)
    (ht : execEventRateSet h e s = .next t) : t.Inv := by
  unfold execEventRateSet at ht
  injection ht with ht
  rw [← ht]
  clear ht
  refine runCmd_inv (fun u hu => ?_) hs
  extract_lets +onlyGivenNames rate burst
  exact guarded_inv (Reply.ok_inv (upd_inv (fun x hx => evRate_inv hx) hu)) hu

/-! Power.lean -/

theorem execBrownOut_inv {h : HalfId} {_core : Bool} {s : State} {t : State} (hs : s.Inv)
    (ht : execBrownOut h _core s = .next t) : t.Inv := by
  unfold execBrownOut at ht
  injection ht with ht
  rw [← ht]
  clear ht
  repeat' (first | with_reducible assumption | with_reducible refine enterReset_inv ?_ | with_reducible refine upd_inv (fun x hx => ?_) ?_ | with_reducible refine half_inv ?_ _ | dsimp only | split | (obtain ⟨⟨m1, m2⟩, ⟨q1, q2, q3, q4⟩, u1, u2, u3, u4, u5, u6, u7, u8, u9, u10⟩ := hx; refine ⟨⟨?_, ?_⟩, ⟨?_, ?_, ?_, ?_⟩, ?_, ?_, ?_, ?_, ?_, ?_, ?_, ?_, ?_, ?_⟩ <;> first | with_reducible assumption | (dsimp only; with_reducible assumption) | with_reducible exact ringPut_wf _ _ _ _ m1 | (simp only [List.length_modify, List.length_map, List.length_set]; with_reducible assumption)))

theorem execBrownOutRecovery_inv {h : HalfId} {s : State} {t : State} (hs : s.Inv)
    (ht : execBrownOutRecovery h s = .next t) : t.Inv := by
  unfold execBrownOutRecovery at ht
  injection ht with ht
  rw [← ht]
  clear ht
  repeat' (first | with_reducible assumption | with_reducible refine upd_inv (fun x hx => ?_) ?_ | with_reducible refine half_inv ?_ _ | dsimp only | split | (obtain ⟨⟨m1, m2⟩, ⟨q1, q2, q3, q4⟩, u1, u2, u3, u4, u5, u6, u7, u8, u9, u10⟩ := hx; refine ⟨⟨?_, ?_⟩, ⟨?_, ?_, ?_, ?_⟩, ?_, ?_, ?_, ?_, ?_, ?_, ?_, ?_, ?_, ?_⟩ <;> first | with_reducible assumption | (dsimp only; with_reducible assumption) | with_reducible exact ringPut_wf _ _ _ _ m1 | (simp only [List.length_modify, List.length_map, List.length_set]; with_reducible assumption)))

theorem execVoltageExcursion_inv {h : HalfId} {rail : Nat} {millivolts : Int} {duration : Nat} {s : State} {t : State} (hs : s.Inv)
    (ht : execVoltageExcursion h rail millivolts duration s = .next t) : t.Inv := by
  unfold execVoltageExcursion at ht
  injection ht with ht
  rw [← ht]
  clear ht
  repeat' (first | with_reducible assumption | with_reducible refine latchHw_inv ?_ | with_reducible refine event_inv ?_ | with_reducible refine upd_inv (fun x hx => ?_) ?_ | with_reducible refine half_inv ?_ _ | dsimp only | split | (obtain ⟨⟨m1, m2⟩, ⟨q1, q2, q3, q4⟩, u1, u2, u3, u4, u5, u6, u7, u8, u9, u10⟩ := hx; refine ⟨⟨?_, ?_⟩, ⟨?_, ?_, ?_, ?_⟩, ?_, ?_, ?_, ?_, ?_, ?_, ?_, ?_, ?_, ?_⟩ <;> first | with_reducible assumption | (dsimp only; with_reducible assumption) | with_reducible exact ringPut_wf _ _ _ _ m1 | (simp only [List.length_modify, List.length_map, List.length_set]; with_reducible assumption)))

theorem execThermalSample_inv {h : HalfId} {island : Nat} {celsius : Int} {s : State} {t : State} (hs : s.Inv)
    (ht : execThermalSample h island celsius s = .next t) : t.Inv := by
  unfold execThermalSample at ht
  injection ht with ht
  rw [← ht]
  clear ht
  repeat' (first | with_reducible assumption | with_reducible refine event_inv ?_ | with_reducible refine updIsland_inv ?_ | with_reducible refine thermalTrip_inv ?_ | with_reducible refine coolMark_inv ?_ | with_reducible refine upd_inv (fun x hx => ?_) ?_ | with_reducible refine half_inv ?_ _ | dsimp only | split | (obtain ⟨⟨m1, m2⟩, ⟨q1, q2, q3, q4⟩, u1, u2, u3, u4, u5, u6, u7, u8, u9, u10⟩ := hx; refine ⟨⟨?_, ?_⟩, ⟨?_, ?_, ?_, ?_⟩, ?_, ?_, ?_, ?_, ?_, ?_, ?_, ?_, ?_, ?_⟩ <;> first | with_reducible assumption | (dsimp only; with_reducible assumption) | with_reducible exact ringPut_wf _ _ _ _ m1 | (simp only [List.length_modify, List.length_map, List.length_set]; with_reducible assumption)))

theorem execThermalRelease_inv {h : HalfId} {s : State} {t : State} (hs : s.Inv)
    (ht : execThermalRelease h s = .next t) : t.Inv := by
  unfold execThermalRelease at ht
  injection ht with ht
  rw [← ht]
  clear ht
  repeat' (first | with_reducible assumption | with_reducible refine upd_inv (fun x hx => ?_) ?_ | with_reducible refine half_inv ?_ _ | dsimp only | split | (obtain ⟨⟨m1, m2⟩, ⟨q1, q2, q3, q4⟩, u1, u2, u3, u4, u5, u6, u7, u8, u9, u10⟩ := hx; refine ⟨⟨?_, ?_⟩, ⟨?_, ?_, ?_, ?_⟩, ?_, ?_, ?_, ?_, ?_, ?_, ?_, ?_, ?_, ?_⟩ <;> first | with_reducible assumption | (dsimp only; with_reducible assumption) | with_reducible exact ringPut_wf _ _ _ _ m1 | (simp only [List.length_modify, List.length_map, List.length_set]; with_reducible assumption)))

theorem execLifeAccumulation_inv {h : HalfId} {s : State} {t : State} (hs : s.Inv)
    (ht : execLifeAccumulation h s = .next t) : t.Inv := by
  unfold execLifeAccumulation at ht
  injection ht with ht
  rw [← ht]
  clear ht
  repeat' (first | with_reducible assumption | with_reducible refine upd_inv (fun x hx => ?_) ?_ | with_reducible refine half_inv ?_ _ | dsimp only | split | (obtain ⟨⟨m1, m2⟩, ⟨q1, q2, q3, q4⟩, u1, u2, u3, u4, u5, u6, u7, u8, u9, u10⟩ := hx; refine ⟨⟨?_, ?_⟩, ⟨?_, ?_, ?_, ?_⟩, ?_, ?_, ?_, ?_, ?_, ?_, ?_, ?_, ?_, ?_⟩ <;> first | with_reducible assumption | (dsimp only; with_reducible assumption) | with_reducible exact ringPut_wf _ _ _ _ m1 | (simp only [List.length_modify, List.length_map, List.length_set]; with_reducible assumption)))

theorem islands_inv {x : Half} {p : PowerSt} (hp : p.islands.length = 36) (hx : x.Inv) : ({ x with pwr := p } : Half).Inv := by
  obtain ⟨hm, hq, u1, u2, u3, u4, u5, u6, u7, u8, u9, -⟩ := hx
  exact ⟨hm, hq, u1, u2, u3, u4, u5, u6, u7, u8, u9, hp⟩

theorem execAgingMeasurement_inv {h : HalfId} {slowdowns : List Nat} {s : State} {t : State} (hs : s.Inv)
    (ht : execAgingMeasurement h slowdowns s = .next t) : t.Inv := by
  unfold execAgingMeasurement at ht
  injection ht with ht
  rw [← ht]
  clear ht
  extract_lets +onlyGivenNames x
  split
  · exact hs
  · extract_lets +onlyGivenNames s1 p w s2
    have h1 : s1.Inv := by
      refine upd_inv (fun x hx => islands_inv ?_ hx) hs
      simp only [List.length_map, List.length_zip, List.length_range, islands_len hx, Nat.min_self]
    have h2 : s2.Inv := by
      dsimp only [s2]
      split
      · exact event_inv (upd_inv (fun x hx => islands_inv (islands_len hx) hx) h1)
      · exact h1
    split
    · exact event_inv h2
    · exact h2

/-! Decoding.lean -/

theorem execRtpPacketReceived_inv {h : HalfId} {input : Nat} {p : RtpPacket} {s : State} {t : State} (hs : s.Inv)
    (ht : execRtpPacketReceived h input p s = .next t) : t.Inv := by
  unfold execRtpPacketReceived at ht
  injection ht with ht
  rw [← ht]
  clear ht
  repeat' (first | with_reducible assumption | with_reducible refine count_inv ?_ | with_reducible refine updInput_inv ?_ | with_reducible refine noteUnit_inv ?_ | with_reducible refine jitterOverflow_inv ?_ | with_reducible refine upd_inv (fun x hx => ?_) ?_ | with_reducible refine half_inv ?_ _ | dsimp only | split | (obtain ⟨⟨m1, m2⟩, ⟨q1, q2, q3, q4⟩, u1, u2, u3, u4, u5, u6, u7, u8, u9, u10⟩ := hx; refine ⟨⟨?_, ?_⟩, ⟨?_, ?_, ?_, ?_⟩, ?_, ?_, ?_, ?_, ?_, ?_, ?_, ?_, ?_, ?_⟩ <;> first | with_reducible assumption | (dsimp only; with_reducible assumption) | with_reducible exact ringPut_wf _ _ _ _ m1 | (simp only [List.length_modify, List.length_map, List.length_set]; with_reducible assumption)))

theorem execAccessUnitRelease_inv {h : HalfId} {input : Nat} {s : State} {t : State} (hs : s.Inv)
    (ht : execAccessUnitRelease h input s = .next t) : t.Inv := by
  unfold execAccessUnitRelease at ht
  injection ht with ht
  rw [← ht]
  clear ht
  repeat' (first | with_reducible assumption | with_reducible refine State.tick1_inv ?_ | with_reducible refine updInput_inv ?_ | with_reducible refine pushUnit_inv ?_ | with_reducible refine copyUnit_inv ?_ | with_reducible refine upd_inv (fun x hx => ?_) ?_ | with_reducible refine foldl_inv (fun s a hs => ?_) ?_ | with_reducible refine foldlH_inv (fun x a hx => ?_) ?_ | with_reducible refine foldl_fst_inv (fun s a hs => ?_) ?_ | with_reducible refine half_inv ?_ _ | dsimp only | split | (obtain ⟨⟨m1, m2⟩, ⟨q1, q2, q3, q4⟩, u1, u2, u3, u4, u5, u6, u7, u8, u9, u10⟩ := hx; refine ⟨⟨?_, ?_⟩, ⟨?_, ?_, ?_, ?_⟩, ?_, ?_, ?_, ?_, ?_, ?_, ?_, ?_, ?_, ?_⟩ <;> first | with_reducible assumption | (dsimp only; with_reducible assumption) | with_reducible exact ringPut_wf _ _ _ _ m1 | (simp only [List.length_modify, List.length_map, List.length_set]; with_reducible assumption)))

theorem execGuardedAccessUnitCopy_inv {h : HalfId} {context presentation : Nat} {incomplete badStructure : Bool} {s : State} {t : State} (hs : s.Inv)
    (ht : execGuardedAccessUnitCopy h context presentation incomplete badStructure s = .next t) : t.Inv := by
  unfold execGuardedAccessUnitCopy at ht
  injection ht with ht
  rw [← ht]
  clear ht
  repeat' (first | with_reducible assumption | with_reducible refine updDecode_inv ?_ | with_reducible refine pushUnit_inv ?_ | with_reducible refine upd_inv (fun x hx => ?_) ?_ | with_reducible refine half_inv ?_ _ | dsimp only | split | (obtain ⟨⟨m1, m2⟩, ⟨q1, q2, q3, q4⟩, u1, u2, u3, u4, u5, u6, u7, u8, u9, u10⟩ := hx; refine ⟨⟨?_, ?_⟩, ⟨?_, ?_, ?_, ?_⟩, ?_, ?_, ?_, ?_, ?_, ?_, ?_, ?_, ?_, ?_⟩ <;> first | with_reducible assumption | (dsimp only; with_reducible assumption) | with_reducible exact ringPut_wf _ _ _ _ m1 | (simp only [List.length_modify, List.length_map, List.length_set]; with_reducible assumption)))

theorem execDecodeFeed_inv {h : HalfId} {e : CmdEntry} {s : State} {t : State} (hs : s.Inv)
    (ht : execDecodeFeed h e s = .next t) : t.Inv := by
  unfold execDecodeFeed at ht
  injection ht with ht
  rw [← ht]
  clear ht
  repeat' (first | with_reducible assumption | with_reducible refine State.tick1_inv ?_ | with_reducible refine Reply.ok_inv ?_ | with_reducible refine updDecode_inv ?_ | with_reducible refine pushUnit_inv ?_ | with_reducible refine copyUnit_inv ?_ | with_reducible refine endFeed_inv ?_ | with_reducible refine upd_inv (fun x hx => ?_) ?_ | with_reducible refine guarded_inv ?_ ?_ | with_reducible refine runCmd_inv (fun s hs => ?_) ?_ | with_reducible refine half_inv ?_ _ | dsimp only | split | (obtain ⟨⟨m1, m2⟩, ⟨q1, q2, q3, q4⟩, u1, u2, u3, u4, u5, u6, u7, u8, u9, u10⟩ := hx; refine ⟨⟨?_, ?_⟩, ⟨?_, ?_, ?_, ?_⟩, ?_, ?_, ?_, ?_, ?_, ?_, ?_, ?_, ?_, ?_⟩ <;> first | with_reducible assumption | (dsimp only; with_reducible assumption) | with_reducible exact ringPut_wf _ _ _ _ m1 | (simp only [List.length_modify, List.length_map, List.length_set]; with_reducible assumption)))

theorem foldModifyDec_length (f : Nat → EngineSt → EngineSt) (ks : List Nat) (l : List EngineSt) :
    (ks.foldl (fun gs k => gs.modify k (f k)) l).length = l.length := by
  induction ks generalizing l with
  | nil => rfl
  | cons k ks ih => exact (ih _).trans (List.length_modify _ _ _)

theorem dec_inv {x : Half} {e : List EngineSt} (he : e.length = x.dec.length) (hx : x.Inv) : ({ x with dec := e } : Half).Inv :=
  ⟨hx.1, hx.2.1, hx.2.2.1, he.trans hx.2.2.2.1, hx.2.2.2.2⟩

theorem execDecodePictureStart_inv {h : HalfId} {p : EnginePicture} {s : State} {t : State} (hs : s.Inv)
    (ht : execDecodePictureStart h p s = .next t) : t.Inv := by
  unfold execDecodePictureStart at ht
  injection ht with ht
  rw [← ht]
  clear ht
  extract_lets +onlyGivenNames x
  split
  · exact hs
  split
  · exact hs
  split
  · exact hs
  · extract_lets +onlyGivenNames resumed u on switching a2
    refine takeoverCheck_inv (upd_inv (fun x hx => ?_) hs)
    extract_lets +onlyGivenNames y z
    have hz : z.Inv := by
      refine updDecode_inv ?_
      dsimp only [y]
      split
      · exact updDecode_inv (leaveTakeover_inv hx)
      · exact hx
    exact dec_inv (foldModifyDec_length (fun _ => _) _ _) hz

/-! Pictures.lean -/

theorem execRefreshRequestRepeat_inv {h : HalfId} {input : Nat} {s : State} {t : State} (hs : s.Inv)
    (ht : execRefreshRequestRepeat h input s = .next t) : t.Inv := by
  unfold execRefreshRequestRepeat at ht
  injection ht with ht
  rw [← ht]
  clear ht
  repeat' (first | with_reducible assumption | with_reducible refine event_inv ?_ | with_reducible refine updInput_inv ?_ | with_reducible refine requestSend_inv ?_ | with_reducible refine upd_inv (fun x hx => ?_) ?_ | with_reducible refine half_inv ?_ _ | dsimp only | split | (obtain ⟨⟨m1, m2⟩, ⟨q1, q2, q3, q4⟩, u1, u2, u3, u4, u5, u6, u7, u8, u9, u10⟩ := hx; refine ⟨⟨?_, ?_⟩, ⟨?_, ?_, ?_, ?_⟩, ?_, ?_, ?_, ?_, ?_, ?_, ?_, ?_, ?_, ?_⟩ <;> first | with_reducible assumption | (dsimp only; with_reducible assumption) | with_reducible exact ringPut_wf _ _ _ _ m1 | (simp only [List.length_modify, List.length_map, List.length_set]; with_reducible assumption)))

theorem execPictureAvailable_inv {h : HalfId} {context : Nat} {s : State} {t : State} (hs : s.Inv)
    (ht : execPictureAvailable h context s = .next t) : t.Inv := by
  unfold execPictureAvailable at ht
  injection ht with ht
  rw [← ht]
  clear ht
  repeat' (first | with_reducible assumption | with_reducible refine removeIdle_inv ?_ | with_reducible refine makeAvailable_inv ?_ | with_reducible refine upd_inv (fun x hx => ?_) ?_ | with_reducible refine half_inv ?_ _ | dsimp only | split | (obtain ⟨⟨m1, m2⟩, ⟨q1, q2, q3, q4⟩, u1, u2, u3, u4, u5, u6, u7, u8, u9, u10⟩ := hx; refine ⟨⟨?_, ?_⟩, ⟨?_, ?_, ?_, ?_⟩, ?_, ?_, ?_, ?_, ?_, ?_, ?_, ?_, ?_, ?_⟩ <;> first | with_reducible assumption | (dsimp only; with_reducible assumption) | with_reducible exact ringPut_wf _ _ _ _ m1 | (simp only [List.length_modify, List.length_map, List.length_set]; with_reducible assumption)))

theorem execBulkStarved_inv {h : HalfId} {context : Nat} {s : State} {t : State} (hs : s.Inv)
    (ht : execBulkStarved h context s = .next t) : t.Inv := by
  unfold execBulkStarved at ht
  injection ht with ht
  rw [← ht]
  clear ht
  repeat' (first | with_reducible assumption | with_reducible refine event_inv ?_ | with_reducible refine updDecode_inv ?_ | with_reducible refine upd_inv (fun x hx => ?_) ?_ | with_reducible refine half_inv ?_ _ | dsimp only | split | (obtain ⟨⟨m1, m2⟩, ⟨q1, q2, q3, q4⟩, u1, u2, u3, u4, u5, u6, u7, u8, u9, u10⟩ := hx; refine ⟨⟨?_, ?_⟩, ⟨?_, ?_, ?_, ?_⟩, ?_, ?_, ?_, ?_, ?_, ?_, ?_, ?_, ?_, ?_⟩ <;> first | with_reducible assumption | (dsimp only; with_reducible assumption) | with_reducible exact ringPut_wf _ _ _ _ m1 | (simp only [List.length_modify, List.length_map, List.length_set]; with_reducible assumption)))

theorem execDecodePictureComplete_inv {h : HalfId} {engine : Nat} {f : DecodeFacts} {s : State} {t : State} (hs : s.Inv)
    (ht : execDecodePictureComplete h engine f s = .next t) : t.Inv := by
  unfold execDecodePictureComplete at ht
  injection ht with ht
  rw [← ht]
  clear ht
  repeat' (first | with_reducible assumption | with_reducible refine event_inv ?_ | with_reducible refine updDecode_inv ?_ | with_reducible refine removeIdle_inv ?_ | with_reducible refine damageAdd_inv ?_ | with_reducible refine streamEnd_inv ?_ | with_reducible refine feedStatus_inv ?_ | with_reducible refine rejectSets_inv ?_ | with_reducible refine finishDecoded_inv ?_ | with_reducible refine decRelease_inv ?_ | with_reducible refine upd_inv (fun x hx => ?_) ?_ | with_reducible refine half_inv ?_ _ | dsimp only | split | (obtain ⟨⟨m1, m2⟩, ⟨q1, q2, q3, q4⟩, u1, u2, u3, u4, u5, u6, u7, u8, u9, u10⟩ := hx; refine ⟨⟨?_, ?_⟩, ⟨?_, ?_, ?_, ?_⟩, ?_, ?_, ?_, ?_, ?_, ?_, ?_, ?_, ?_, ?_⟩ <;> first | with_reducible assumption | (dsimp only; with_reducible assumption) | with_reducible exact ringPut_wf _ _ _ _ m1 | (simp only [List.length_modify, List.length_map, List.length_set]; with_reducible assumption)))

theorem execConcealmentDeadline_inv {h : HalfId} {context : Nat} {s : State} {t : State} (hs : s.Inv)
    (ht : execConcealmentDeadline h context s = .next t) : t.Inv := by
  unfold execConcealmentDeadline at ht
  injection ht with ht
  rw [← ht]
  clear ht
  repeat' (first | with_reducible assumption | with_reducible refine removeIdle_inv ?_ | with_reducible refine concealLate_inv ?_ | with_reducible refine half_inv ?_ _ | dsimp only | split | (obtain ⟨⟨m1, m2⟩, ⟨q1, q2, q3, q4⟩, u1, u2, u3, u4, u5, u6, u7, u8, u9, u10⟩ := hx; refine ⟨⟨?_, ?_⟩, ⟨?_, ?_, ?_, ?_⟩, ?_, ?_, ?_, ?_, ?_, ?_, ?_, ?_, ?_, ?_⟩ <;> first | with_reducible assumption | (dsimp only; with_reducible assumption) | with_reducible exact ringPut_wf _ _ _ _ m1 | (simp only [List.length_modify, List.length_map, List.length_set]; with_reducible assumption)))

theorem execConcealmentInstruction_inv {h : HalfId} {a : AssistEntry} {s : State} {t : State} (hs : s.Inv)
    (ht : execConcealmentInstruction h a s = .next t) : t.Inv := by
  unfold execConcealmentInstruction at ht
  injection ht with ht
  rw [← ht]
  clear ht
  repeat' (first | with_reducible assumption | with_reducible refine assistLate_inv ?_ | with_reducible refine removeIdle_inv ?_ | with_reducible refine requestOnce_inv ?_ | with_reducible refine concealDefault_inv ?_ | with_reducible refine concealAct_inv ?_ | with_reducible refine runAssist_inv (fun p s hs => ?_) ?_ | with_reducible refine half_inv ?_ _ | dsimp only | split | (obtain ⟨⟨m1, m2⟩, ⟨q1, q2, q3, q4⟩, u1, u2, u3, u4, u5, u6, u7, u8, u9, u10⟩ := hx; refine ⟨⟨?_, ?_⟩, ⟨?_, ?_, ?_, ?_⟩, ?_, ?_, ?_, ?_, ?_, ?_, ?_, ?_, ?_, ?_⟩ <;> first | with_reducible assumption | (dsimp only; with_reducible assumption) | with_reducible exact ringPut_wf _ _ _ _ m1 | (simp only [List.length_modify, List.length_map, List.length_set]; with_reducible assumption)))

/-! Composing.lean -/

theorem execSurfaceUpdate_inv {h : HalfId} {e : CmdEntry} {s : State} {t : State} (hs : s.Inv)
    (ht : execSurfaceUpdate h e s = .next t) : t.Inv := by
  unfold execSurfaceUpdate at ht
  injection ht with ht
  rw [← ht]
  clear ht
  repeat' (first | with_reducible assumption | with_reducible refine emit_inv ?_ | with_reducible refine Reply.ok_inv ?_ | with_reducible refine updSurface_inv ?_ | with_reducible refine Reply.wait_inv ?_ | with_reducible refine upd_inv (fun x hx => ?_) ?_ | with_reducible refine guarded_inv ?_ ?_ | with_reducible refine runCmd_inv (fun s hs => ?_) ?_ | with_reducible refine half_inv ?_ _ | dsimp only | split | (obtain ⟨⟨m1, m2⟩, ⟨q1, q2, q3, q4⟩, u1, u2, u3, u4, u5, u6, u7, u8, u9, u10⟩ := hx; refine ⟨⟨?_, ?_⟩, ⟨?_, ?_, ?_, ?_⟩, ?_, ?_, ?_, ?_, ?_, ?_, ?_, ?_, ?_, ?_⟩ <;> first | with_reducible assumption | (dsimp only; with_reducible assumption) | with_reducible exact ringPut_wf _ _ _ _ m1 | (simp only [List.length_modify, List.length_map, List.length_set]; with_reducible assumption)))

theorem execSurfaceCopyDone_inv {h : HalfId} {surface : Nat} {s : State} {t : State} (hs : s.Inv)
    (ht : execSurfaceCopyDone h surface s = .next t) : t.Inv := by
  unfold execSurfaceCopyDone at ht
  injection ht with ht
  rw [← ht]
  clear ht
  repeat' (first | with_reducible assumption | with_reducible refine complete_inv ?_ | with_reducible refine updSurface_inv ?_ | with_reducible refine surfaceCopy_inv ?_ | with_reducible refine upd_inv (fun x hx => ?_) ?_ | with_reducible refine half_inv ?_ _ | dsimp only | split | (obtain ⟨⟨m1, m2⟩, ⟨q1, q2, q3, q4⟩, u1, u2, u3, u4, u5, u6, u7, u8, u9, u10⟩ := hx; refine ⟨⟨?_, ?_⟩, ⟨?_, ?_, ?_, ?_⟩, ?_, ?_, ?_, ?_, ?_, ?_, ?_, ?_, ?_, ?_⟩ <;> first | with_reducible assumption | (dsimp only; with_reducible assumption) | with_reducible exact ringPut_wf _ _ _ _ m1 | (simp only [List.length_modify, List.length_map, List.length_set]; with_reducible assumption)))

theorem execCueArm_inv {h : HalfId} {e : CmdEntry} {s : State} {t : State} (hs : s.Inv)
    (ht : execCueArm h e s = .next t) : t.Inv := by
  unfold execCueArm at ht
  injection ht with ht
  rw [← ht]
  clear ht
  repeat' (first | with_reducible assumption | with_reducible refine emit_inv ?_ | with_reducible refine Reply.ok_inv ?_ | with_reducible refine cueArmHalf_inv ?_ | with_reducible refine upd_inv (fun x hx => ?_) ?_ | with_reducible refine guarded_inv ?_ ?_ | with_reducible refine runCmd_inv (fun s hs => ?_) ?_ | with_reducible refine half_inv ?_ _ | dsimp only | split | (obtain ⟨⟨m1, m2⟩, ⟨q1, q2, q3, q4⟩, u1, u2, u3, u4, u5, u6, u7, u8, u9, u10⟩ := hx; refine ⟨⟨?_, ?_⟩, ⟨?_, ?_, ?_, ?_⟩, ?_, ?_, ?_, ?_, ?_, ?_, ?_, ?_, ?_, ?_⟩ <;> first | with_reducible assumption | (dsimp only; with_reducible assumption) | with_reducible exact ringPut_wf _ _ _ _ m1 | (simp only [List.length_modify, List.length_map, List.length_set]; with_reducible assumption)))

theorem execCueCancel_inv {h : HalfId} {e : CmdEntry} {s : State} {t : State} (hs : s.Inv)
    (ht : execCueCancel h e s = .next t) : t.Inv := by
  unfold execCueCancel at ht
  injection ht with ht
  rw [← ht]
  clear ht
  repeat' (first | with_reducible assumption | with_reducible refine emit_inv ?_ | with_reducible refine Reply.ok_inv ?_ | with_reducible refine cueCancelHalf_inv ?_ | with_reducible refine upd_inv (fun x hx => ?_) ?_ | with_reducible refine guarded_inv ?_ ?_ | with_reducible refine runCmd_inv (fun s hs => ?_) ?_ | with_reducible refine half_inv ?_ _ | dsimp only | split | (obtain ⟨⟨m1, m2⟩, ⟨q1, q2, q3, q4⟩, u1, u2, u3, u4, u5, u6, u7, u8, u9, u10⟩ := hx; refine ⟨⟨?_, ?_⟩, ⟨?_, ?_, ?_, ?_⟩, ?_, ?_, ?_, ?_, ?_, ?_, ?_, ?_, ?_, ?_⟩ <;> first | with_reducible assumption | (dsimp only; with_reducible assumption) | with_reducible exact ringPut_wf _ _ _ _ m1 | (simp only [List.length_modify, List.length_map, List.length_set]; with_reducible assumption)))

theorem execCanvasTick_inv {h : HalfId} {canvas : Nat} {s : State} {t : State} (hs : s.Inv)
    (ht : execCanvasTick h canvas s = .next t) : t.Inv := by
  unfold execCanvasTick at ht
  injection ht with ht
  rw [← ht]
  clear ht
  repeat' (first | with_reducible assumption | with_reducible refine updCanvas_inv ?_ | with_reducible refine takeoverCheck_inv ?_ | with_reducible refine surfaceTrim_inv ?_ | with_reducible refine repeatPicture_inv ?_ | with_reducible refine switchCanvas_inv ?_ | with_reducible refine runTick_inv ?_ | with_reducible refine upd_inv (fun x hx => ?_) ?_ | with_reducible refine foldl_inv (fun s a hs => ?_) ?_ | with_reducible refine foldlH_inv (fun x a hx => ?_) ?_ | with_reducible refine foldl_fst_inv (fun s a hs => ?_) ?_ | with_reducible refine half_inv ?_ _ | dsimp only | split | (obtain ⟨⟨m1, m2⟩, ⟨q1, q2, q3, q4⟩, u1, u2, u3, u4, u5, u6, u7, u8, u9, u10⟩ := hx; refine ⟨⟨?_, ?_⟩, ⟨?_, ?_, ?_, ?_⟩, ?_, ?_, ?_, ?_, ?_, ?_, ?_, ?_, ?_, ?_⟩ <;> first | with_reducible assumption | (dsimp only; with_reducible assumption) | with_reducible exact ringPut_wf _ _ _ _ m1 | (simp only [List.length_modify, List.length_map, List.length_set]; with_reducible assumption)))

theorem execCompositionJobStart_inv {h : HalfId} {pipe : Nat} {s : State} {t : State} (hs : s.Inv)
    (ht : execCompositionJobStart h pipe s = .next t) : t.Inv := by
  unfold execCompositionJobStart at ht
  injection ht with ht
  rw [← ht]
  clear ht
  repeat' (first | with_reducible assumption | with_reducible refine count_inv ?_ | with_reducible refine pipeTake_inv ?_ | with_reducible refine upd_inv (fun x hx => ?_) ?_ | with_reducible refine half_inv ?_ _ | dsimp only | split | (obtain ⟨⟨m1, m2⟩, ⟨q1, q2, q3, q4⟩, u1, u2, u3, u4, u5, u6, u7, u8, u9, u10⟩ := hx; refine ⟨⟨?_, ?_⟩, ⟨?_, ?_, ?_, ?_⟩, ?_, ?_, ?_, ?_, ?_, ?_, ?_, ?_, ?_, ?_⟩ <;> first | with_reducible assumption | (dsimp only; with_reducible assumption) | with_reducible exact ringPut_wf _ _ _ _ m1 | (simp only [List.length_modify, List.length_map, List.length_set]; with_reducible assumption)))

theorem execCompositionJobComplete_inv {h : HalfId} {pipe : Nat} {changedBlocks : List Nat} {s : State} {t : State} (hs : s.Inv)
    (ht : execCompositionJobComplete h pipe changedBlocks s = .next t) : t.Inv := by
  unfold execCompositionJobComplete at ht
  injection ht with ht
  rw [← ht]
  clear ht
  repeat' (first | with_reducible assumption | with_reducible refine count_inv ?_ | with_reducible refine updCanvas_inv ?_ | with_reducible refine finishJob_inv ?_ | with_reducible refine upd_inv (fun x hx => ?_) ?_ | with_reducible refine half_inv ?_ _ | dsimp only | split | (obtain ⟨⟨m1, m2⟩, ⟨q1, q2, q3, q4⟩, u1, u2, u3, u4, u5, u6, u7, u8, u9, u10⟩ := hx; refine ⟨⟨?_, ?_⟩, ⟨?_, ?_, ?_, ?_⟩, ?_, ?_, ?_, ?_, ?_, ?_, ?_, ?_, ?_, ?_⟩ <;> first | with_reducible assumption | (dsimp only; with_reducible assumption) | with_reducible exact ringPut_wf _ _ _ _ m1 | (simp only [List.length_modify, List.length_map, List.length_set]; with_reducible assumption)))

/-! Encoding.lean -/

theorem execRateAssist_inv {h : HalfId} {a : AssistEntry} {s : State} {t : State} (hs : s.Inv)
    (ht : execRateAssist h a s = .next t) : t.Inv := by
  unfold execRateAssist at ht
  injection ht with ht
  rw [← ht]
  clear ht
  repeat' (first | with_reducible assumption | with_reducible refine takeHeld_inv ?_ | with_reducible refine runAssist_inv (fun p s hs => ?_) ?_ | with_reducible refine half_inv ?_ _ | dsimp only | split | (obtain ⟨⟨m1, m2⟩, ⟨q1, q2, q3, q4⟩, u1, u2, u3, u4, u5, u6, u7, u8, u9, u10⟩ := hx; refine ⟨⟨?_, ?_⟩, ⟨?_, ?_, ?_, ?_⟩, ?_, ?_, ?_, ?_, ?_, ?_, ?_, ?_, ?_, ?_⟩ <;> first | with_reducible assumption | (dsimp only; with_reducible assumption) | with_reducible exact ringPut_wf _ _ _ _ m1 | (simp only [List.length_modify, List.length_map, List.length_set]; with_reducible assumption)))

theorem execCoarseMotionHints_inv {h : HalfId} {a : AssistEntry} {s : State} {t : State} (hs : s.Inv)
    (ht : execCoarseMotionHints h a s = .next t) : t.Inv := by
  unfold execCoarseMotionHints at ht
  injection ht with ht
  rw [← ht]
  clear ht
  repeat' (first | with_reducible assumption | with_reducible refine takeHeld_inv ?_ | with_reducible refine runAssist_inv (fun p s hs => ?_) ?_ | with_reducible refine half_inv ?_ _ | dsimp only | split | (obtain ⟨⟨m1, m2⟩, ⟨q1, q2, q3, q4⟩, u1, u2, u3, u4, u5, u6, u7, u8, u9, u10⟩ := hx; refine ⟨⟨?_, ?_⟩, ⟨?_, ?_, ?_, ?_⟩, ?_, ?_, ?_, ?_, ?_, ?_, ?_, ?_, ?_, ?_⟩ <;> first | with_reducible assumption | (dsimp only; with_reducible assumption) | with_reducible exact ringPut_wf _ _ _ _ m1 | (simp only [List.length_modify, List.length_map, List.length_set]; with_reducible assumption)))

theorem execHostStencil_inv {h : HalfId} {a : AssistEntry} {s : State} {t : State} (hs : s.Inv)
    (ht : execHostStencil h a s = .next t) : t.Inv := by
  unfold execHostStencil at ht
  injection ht with ht
  rw [← ht]
  clear ht
  repeat' (first | with_reducible assumption | with_reducible refine takeHeld_inv ?_ | with_reducible refine foldl_inv (fun s a hs => ?_) ?_ | with_reducible refine foldlH_inv (fun x a hx => ?_) ?_ | with_reducible refine foldl_fst_inv (fun s a hs => ?_) ?_ | with_reducible refine runAssist_inv (fun p s hs => ?_) ?_ | with_reducible refine half_inv ?_ _ | dsimp only | split | (obtain ⟨⟨m1, m2⟩, ⟨q1, q2, q3, q4⟩, u1, u2, u3, u4, u5, u6, u7, u8, u9, u10⟩ := hx; refine ⟨⟨?_, ?_⟩, ⟨?_, ?_, ?_, ?_⟩, ?_, ?_, ?_, ?_, ?_, ?_, ?_, ?_, ?_, ?_⟩ <;> first | with_reducible assumption | (dsimp only; with_reducible assumption) | with_reducible exact ringPut_wf _ _ _ _ m1 | (simp only [List.length_modify, List.length_map, List.length_set]; with_reducible assumption)))

theorem execEncodeSurfaceTick_inv {h : HalfId} {stream : Nat} {s : State} {t : State} (hs : s.Inv)
    (ht : execEncodeSurfaceTick h stream s = .next t) : t.Inv := by
  unfold execEncodeSurfaceTick at ht
  injection ht with ht
  rw [← ht]
  clear ht
  repeat' (first | with_reducible assumption | with_reducible refine assistLate_inv ?_ | with_reducible refine updEncode_inv ?_ | with_reducible refine takeoverCheck_inv ?_ | with_reducible refine surfaceApply_inv ?_ | with_reducible refine surfaceTrim_inv ?_ | with_reducible refine switchEncode_inv ?_ | with_reducible refine markDefault_inv ?_ | with_reducible refine upd_inv (fun x hx => ?_) ?_ | with_reducible refine foldl_inv (fun s a hs => ?_) ?_ | with_reducible refine foldlH_inv (fun x a hx => ?_) ?_ | with_reducible refine foldl_fst_inv (fun s a hs => ?_) ?_ | with_reducible refine half_inv ?_ _ | dsimp only | split | (obtain ⟨⟨m1, m2⟩, ⟨q1, q2, q3, q4⟩, u1, u2, u3, u4, u5, u6, u7, u8, u9, u10⟩ := hx; refine ⟨⟨?_, ?_⟩, ⟨?_, ?_, ?_, ?_⟩, ?_, ?_, ?_, ?_, ?_, ?_, ?_, ?_, ?_, ?_⟩ <;> first | with_reducible assumption | (dsimp only; with_reducible assumption) | with_reducible exact ringPut_wf _ _ _ _ m1 | (simp only [List.length_modify, List.length_map, List.length_set]; with_reducible assumption)))

theorem execEncodePictureStart_inv {h : HalfId} {engine : Nat} {f : EncodeFacts} {s : State} {t : State} (hs : s.Inv)
    (ht : execEncodePictureStart h engine f s = .next t) : t.Inv := by
  unfold execEncodePictureStart at ht
  injection ht with ht
  rw [← ht]
  clear ht
  repeat' (first | with_reducible assumption | with_reducible refine encResume_inv ?_ | with_reducible refine unitsBegin_inv ?_ | with_reducible refine startPicture_inv ?_ | with_reducible refine upd_inv (fun x hx => ?_) ?_ | with_reducible refine half_inv ?_ _ | dsimp only | split | (obtain ⟨⟨m1, m2⟩, ⟨q1, q2, q3, q4⟩, u1, u2, u3, u4, u5, u6, u7, u8, u9, u10⟩ := hx; refine ⟨⟨?_, ?_⟩, ⟨?_, ?_, ?_, ?_⟩, ?_, ?_, ?_, ?_, ?_, ?_, ?_, ?_, ?_, ?_⟩ <;> first | with_reducible assumption | (dsimp only; with_reducible assumption) | with_reducible exact ringPut_wf _ _ _ _ m1 | (simp only [List.length_modify, List.length_map, List.length_set]; with_reducible assumption)))

theorem execTwinCrcExchange_inv {h : HalfId} {stream : Nat} {picture crc : W32} {s : State} {t : State} (hs : s.Inv)
    (ht : execTwinCrcExchange h stream picture crc s = .next t) : t.Inv := by
  unfold execTwinCrcExchange at ht
  injection ht with ht
  rw [← ht]
  clear ht
  repeat' (first | with_reducible assumption | with_reducible refine updEncode_inv ?_ | with_reducible refine twinCompare_inv ?_ | with_reducible refine upd_inv (fun x hx => ?_) ?_ | with_reducible refine half_inv ?_ _ | dsimp only | split | (obtain ⟨⟨m1, m2⟩, ⟨q1, q2, q3, q4⟩, u1, u2, u3, u4, u5, u6, u7, u8, u9, u10⟩ := hx; refine ⟨⟨?_, ?_⟩, ⟨?_, ?_, ?_, ?_⟩, ?_, ?_, ?_, ?_, ?_, ?_, ?_, ?_, ?_, ?_⟩ <;> first | with_reducible assumption | (dsimp only; with_reducible assumption) | with_reducible exact ringPut_wf _ _ _ _ m1 | (simp only [List.length_modify, List.length_map, List.length_set]; with_reducible assumption)))

theorem execEncodePictureComplete_inv {h : HalfId} {engine : Nat} {s : State} {t : State} (hs : s.Inv)
    (ht : execEncodePictureComplete h engine s = .next t) : t.Inv := by
  unfold execEncodePictureComplete at ht
  injection ht with ht
  rw [← ht]
  clear ht
  extract_lets +onlyGivenNames x0
  split
  · exact hs
  split
  · exact hs
  split
  · exact hs
  extract_lets i obj rs r now period after p left rep late s1 s2 s3 s4 s5 kk s6
  have h1 : s1.Inv := upd_inv (fun x hx => encodeDone_inv hx) hs
  have h2 : s2.Inv := by
    dsimp only [s2]
    split
    · exact event_inv h1
    · exact h1
  have h3 : s3.Inv := by
    dsimp only [s3]
    split
    · exact event_inv h2
    · exact h2
  have h4 : s4.Inv := gangStalls_inv h3
  have h5 : s5.Inv := rateOffer_inv h4
  have h6 : s6.Inv := emit_inv h5
  refine removeIdle_inv ?_
  split
  · split
    · exact twinCompare_inv h6
    · exact h6
  · exact h5

theorem execEncodeLateRepeat_inv {h : HalfId} {stream : Nat} {s : State} {t : State} (hs : s.Inv)
    (ht : execEncodeLateRepeat h stream s = .next t) : t.Inv := by
  unfold execEncodeLateRepeat at ht
  injection ht with ht
  rw [← ht]
  clear ht
  repeat' (first | with_reducible assumption | with_reducible refine updEncode_inv ?_ | with_reducible refine upd_inv (fun x hx => ?_) ?_ | with_reducible refine half_inv ?_ _ | dsimp only | split | (obtain ⟨⟨m1, m2⟩, ⟨q1, q2, q3, q4⟩, u1, u2, u3, u4, u5, u6, u7, u8, u9, u10⟩ := hx; refine ⟨⟨?_, ?_⟩, ⟨?_, ?_, ?_, ?_⟩, ?_, ?_, ?_, ?_, ?_, ?_, ?_, ?_, ?_, ?_⟩ <;> first | with_reducible assumption | (dsimp only; with_reducible assumption) | with_reducible exact ringPut_wf _ _ _ _ m1 | (simp only [List.length_modify, List.length_map, List.length_set]; with_reducible assumption)))

theorem execRefreshAbsorbed_inv {h : HalfId} {stream : Nat} {s : State} {t : State} (hs : s.Inv)
    (ht : execRefreshAbsorbed h stream s = .next t) : t.Inv := by
  unfold execRefreshAbsorbed at ht
  injection ht with ht
  rw [← ht]
  clear ht
  repeat' (first | with_reducible assumption | with_reducible refine event_inv ?_ | with_reducible refine updEncode_inv ?_ | with_reducible refine upd_inv (fun x hx => ?_) ?_ | with_reducible refine half_inv ?_ _ | dsimp only | split | (obtain ⟨⟨m1, m2⟩, ⟨q1, q2, q3, q4⟩, u1, u2, u3, u4, u5, u6, u7, u8, u9, u10⟩ := hx; refine ⟨⟨?_, ?_⟩, ⟨?_, ?_, ?_, ?_⟩, ?_, ?_, ?_, ?_, ?_, ?_, ?_, ?_, ?_, ?_⟩ <;> first | with_reducible assumption | (dsimp only; with_reducible assumption) | with_reducible exact ringPut_wf _ _ _ _ m1 | (simp only [List.length_modify, List.length_map, List.length_set]; with_reducible assumption)))

theorem execSurgeEnded_inv {h : HalfId} {cluster : Nat} {s : State} {t : State} (hs : s.Inv)
    (ht : execSurgeEnded h cluster s = .next t) : t.Inv := by
  unfold execSurgeEnded at ht
  injection ht with ht
  rw [← ht]
  clear ht
  repeat' (first | with_reducible assumption | with_reducible refine event_inv ?_ | with_reducible refine updCluster_inv ?_ | with_reducible refine upd_inv (fun x hx => ?_) ?_ | with_reducible refine half_inv ?_ _ | dsimp only | split | (obtain ⟨⟨m1, m2⟩, ⟨q1, q2, q3, q4⟩, u1, u2, u3, u4, u5, u6, u7, u8, u9, u10⟩ := hx; refine ⟨⟨?_, ?_⟩, ⟨?_, ?_, ?_, ?_⟩, ?_, ?_, ?_, ?_, ?_, ?_, ?_, ?_, ?_, ?_⟩ <;> first | with_reducible assumption | (dsimp only; with_reducible assumption) | with_reducible exact ringPut_wf _ _ _ _ m1 | (simp only [List.length_modify, List.length_map, List.length_set]; with_reducible assumption)))

theorem execSurgeSustained_inv {h : HalfId} {cluster : Nat} {s : State} {t : State} (hs : s.Inv)
    (ht : execSurgeSustained h cluster s = .next t) : t.Inv := by
  unfold execSurgeSustained at ht
  injection ht with ht
  rw [← ht]
  clear ht
  repeat' (first | with_reducible assumption | with_reducible refine event_inv ?_ | with_reducible refine updCluster_inv ?_ | with_reducible refine upd_inv (fun x hx => ?_) ?_ | with_reducible refine half_inv ?_ _ | dsimp only | split | (obtain ⟨⟨m1, m2⟩, ⟨q1, q2, q3, q4⟩, u1, u2, u3, u4, u5, u6, u7, u8, u9, u10⟩ := hx; refine ⟨⟨?_, ?_⟩, ⟨?_, ?_, ?_, ?_⟩, ?_, ?_, ?_, ?_, ?_, ?_, ?_, ?_, ?_, ?_⟩ <;> first | with_reducible assumption | (dsimp only; with_reducible assumption) | with_reducible exact ringPut_wf _ _ _ _ m1 | (simp only [List.length_modify, List.length_map, List.length_set]; with_reducible assumption)))

theorem execEncodeRefresh_inv {h : HalfId} {e : CmdEntry} {s : State} {t : State} (hs : s.Inv)
    (ht : execEncodeRefresh h e s = .next t) : t.Inv := by
  unfold execEncodeRefresh at ht
  injection ht with ht
  rw [← ht]
  clear ht
  repeat' (first | with_reducible assumption | with_reducible refine emit_inv ?_ | with_reducible refine Reply.ok_inv ?_ | with_reducible refine Reply.later_inv ?_ | with_reducible refine addDeferred_inv ?_ | with_reducible refine addRefresh_inv ?_ | with_reducible refine upd_inv (fun x hx => ?_) ?_ | with_reducible refine guarded_inv ?_ ?_ | with_reducible refine runCmd_inv (fun s hs => ?_) ?_ | with_reducible refine half_inv ?_ _ | dsimp only | split | (obtain ⟨⟨m1, m2⟩, ⟨q1, q2, q3, q4⟩, u1, u2, u3, u4, u5, u6, u7, u8, u9, u10⟩ := hx; refine ⟨⟨?_, ?_⟩, ⟨?_, ?_, ?_, ?_⟩, ?_, ?_, ?_, ?_, ?_, ?_, ?_, ?_, ?_, ?_⟩ <;> first | with_reducible assumption | (dsimp only; with_reducible assumption) | with_reducible exact ringPut_wf _ _ _ _ m1 | (simp only [List.length_modify, List.length_map, List.length_set]; with_reducible assumption)))

theorem execEncodeRate_inv {h : HalfId} {e : CmdEntry} {s : State} {t : State} (hs : s.Inv)
    (ht : execEncodeRate h e s = .next t) : t.Inv := by
  unfold execEncodeRate at ht
  injection ht with ht
  rw [← ht]
  clear ht
  repeat' (first | with_reducible assumption | with_reducible refine emit_inv ?_ | with_reducible refine Reply.ok_inv ?_ | with_reducible refine Reply.later_inv ?_ | with_reducible refine updEncode_inv ?_ | with_reducible refine addDeferred_inv ?_ | with_reducible refine upd_inv (fun x hx => ?_) ?_ | with_reducible refine foldl_inv (fun s a hs => ?_) ?_ | with_reducible refine foldlH_inv (fun x a hx => ?_) ?_ | with_reducible refine foldl_fst_inv (fun s a hs => ?_) ?_ | with_reducible refine guarded_inv ?_ ?_ | with_reducible refine runCmd_inv (fun s hs => ?_) ?_ | with_reducible refine half_inv ?_ _ | dsimp only | split | (obtain ⟨⟨m1, m2⟩, ⟨q1, q2, q3, q4⟩, u1, u2, u3, u4, u5, u6, u7, u8, u9, u10⟩ := hx; refine ⟨⟨?_, ?_⟩, ⟨?_, ?_, ?_, ?_⟩, ?_, ?_, ?_, ?_, ?_, ?_, ?_, ?_, ?_, ?_⟩ <;> first | with_reducible assumption | (dsimp only; with_reducible assumption) | with_reducible exact ringPut_wf _ _ _ _ m1 | (simp only [List.length_modify, List.length_map, List.length_set]; with_reducible assumption)))

/-! Flows.lean -/

theorem execUndercoatPictureTick_inv {h : HalfId} {flow : Handle} {s : State} {t : State} (hs : s.Inv)
    (ht : execUndercoatPictureTick h flow s = .next t) : t.Inv := by
  unfold execUndercoatPictureTick at ht
  injection ht with ht
  rw [← ht]
  clear ht
  extract_lets +onlyGivenNames x
  split
  · exact hs
  split
  · exact hs
  extract_lets +onlyGivenNames tick
  split
  · exact hs
  · extract_lets +onlyGivenNames r size limit n sizes stream s1
    refine emit_inv (upd_inv (fun x hx => ?_) (free_inv hs))
    dsimp only
    split
    · exact updEncode_inv (count_inv (updFlowAt_inv (undercoatPackets_inv hx)))
    · exact count_inv (updFlowAt_inv (undercoatPackets_inv hx))

/-! Pacing.lean -/

theorem execEncodedUnitHandoff_inv {h : HalfId} {stream : Nat} {u : CodedUnit} {s : State} {t : State} (hs : s.Inv)
    (ht : execEncodedUnitHandoff h stream u s = .next t) : t.Inv := by
  unfold execEncodedUnitHandoff at ht
  injection ht with ht
  rw [← ht]
  clear ht
  repeat' (first | with_reducible assumption | with_reducible refine updEncode_inv ?_ | with_reducible refine handUnit_inv ?_ | with_reducible refine upd_inv (fun x hx => ?_) ?_ | with_reducible refine foldl_inv (fun s a hs => ?_) ?_ | with_reducible refine foldlH_inv (fun x a hx => ?_) ?_ | with_reducible refine foldl_fst_inv (fun s a hs => ?_) ?_ | with_reducible refine half_inv ?_ _ | dsimp only | split | (obtain ⟨⟨m1, m2⟩, ⟨q1, q2, q3, q4⟩, u1, u2, u3, u4, u5, u6, u7, u8, u9, u10⟩ := hx; refine ⟨⟨?_, ?_⟩, ⟨?_, ?_, ?_, ?_⟩, ?_, ?_, ?_, ?_, ?_, ?_, ?_, ?_, ?_, ?_⟩ <;> first | with_reducible assumption | (dsimp only; with_reducible assumption) | with_reducible exact ringPut_wf _ _ _ _ m1 | (simp only [List.length_modify, List.length_map, List.length_set]; with_reducible assumption)))

theorem execPacketStart_inv {h : HalfId} {port : Nat} {s : State} {t : State} (hs : s.Inv)
    (ht : execPacketStart h port s = .next t) : t.Inv := by
  unfold execPacketStart at ht
  injection ht with ht
  rw [← ht]
  clear ht
  repeat' (first | with_reducible assumption | with_reducible refine count_inv ?_ | with_reducible refine updFlowAt_inv ?_ | with_reducible refine startPacket_inv ?_ | with_reducible refine upd_inv (fun x hx => ?_) ?_ | with_reducible refine foldl_inv (fun s a hs => ?_) ?_ | with_reducible refine foldlH_inv (fun x a hx => ?_) ?_ | with_reducible refine foldl_fst_inv (fun s a hs => ?_) ?_ | with_reducible refine half_inv ?_ _ | dsimp only | split | (obtain ⟨⟨m1, m2⟩, ⟨q1, q2, q3, q4⟩, u1, u2, u3, u4, u5, u6, u7, u8, u9, u10⟩ := hx; refine ⟨⟨?_, ?_⟩, ⟨?_, ?_, ?_, ?_⟩, ?_, ?_, ?_, ?_, ?_, ?_, ?_, ?_, ?_, ?_⟩ <;> first | with_reducible assumption | (dsimp only; with_reducible assumption) | with_reducible exact ringPut_wf _ _ _ _ m1 | (simp only [List.length_modify, List.length_map, List.length_set]; with_reducible assumption)))

theorem execGateListStarted_inv {h : HalfId} {port : Nat} {s : State} {t : State} (hs : s.Inv)
    (ht : execGateListStarted h port s = .next t) : t.Inv := by
  unfold execGateListStarted at ht
  injection ht with ht
  rw [← ht]
  clear ht
  repeat' (first | with_reducible assumption | with_reducible refine event_inv ?_ | with_reducible refine updPort_inv ?_ | with_reducible refine upd_inv (fun x hx => ?_) ?_ | with_reducible refine half_inv ?_ _ | dsimp only | split | (obtain ⟨⟨m1, m2⟩, ⟨q1, q2, q3, q4⟩, u1, u2, u3, u4, u5, u6, u7, u8, u9, u10⟩ := hx; refine ⟨⟨?_, ?_⟩, ⟨?_, ?_, ?_, ?_⟩, ?_, ?_, ?_, ?_, ?_, ?_, ?_, ?_, ?_, ?_⟩ <;> first | with_reducible assumption | (dsimp only; with_reducible assumption) | with_reducible exact ringPut_wf _ _ _ _ m1 | (simp only [List.length_modify, List.length_map, List.length_set]; with_reducible assumption)))

theorem execGateWindowChange_inv {h : HalfId} {port : Nat} {s : State} {t : State} (hs : s.Inv)
    (ht : execGateWindowChange h port s = .next t) : t.Inv := by
  unfold execGateWindowChange at ht
  injection ht with ht
  rw [← ht]
  clear ht
  repeat' (first | with_reducible assumption | with_reducible refine updPort_inv ?_ | with_reducible refine upd_inv (fun x hx => ?_) ?_ | with_reducible refine half_inv ?_ _ | dsimp only | split | (obtain ⟨⟨m1, m2⟩, ⟨q1, q2, q3, q4⟩, u1, u2, u3, u4, u5, u6, u7, u8, u9, u10⟩ := hx; refine ⟨⟨?_, ?_⟩, ⟨?_, ?_, ?_, ?_⟩, ?_, ?_, ?_, ?_, ?_, ?_, ?_, ?_, ?_, ?_⟩ <;> first | with_reducible assumption | (dsimp only; with_reducible assumption) | with_reducible exact ringPut_wf _ _ _ _ m1 | (simp only [List.length_modify, List.length_map, List.length_set]; with_reducible assumption)))

theorem execGateRebase_inv {h : HalfId} {e : CmdEntry} {s : State} {t : State} (hs : s.Inv)
    (ht : execGateRebase h e s = .next t) : t.Inv := by
  unfold execGateRebase at ht
  injection ht with ht
  rw [← ht]
  clear ht
  repeat' (first | with_reducible assumption | with_reducible refine Reply.ok_inv ?_ | with_reducible refine Reply.later_inv ?_ | with_reducible refine addDeferred_inv ?_ | with_reducible refine updPort_inv ?_ | with_reducible refine gateArm_inv ?_ | with_reducible refine upd_inv (fun x hx => ?_) ?_ | with_reducible refine guarded_inv ?_ ?_ | with_reducible refine runCmd_inv (fun s hs => ?_) ?_ | with_reducible refine half_inv ?_ _ | dsimp only | split | (obtain ⟨⟨m1, m2⟩, ⟨q1, q2, q3, q4⟩, u1, u2, u3, u4, u5, u6, u7, u8, u9, u10⟩ := hx; refine ⟨⟨?_, ?_⟩, ⟨?_, ?_, ?_, ?_⟩, ?_, ?_, ?_, ?_, ?_, ?_, ?_, ?_, ?_, ?_⟩ <;> first | with_reducible assumption | (dsimp only; with_reducible assumption) | with_reducible exact ringPut_wf _ _ _ _ m1 | (simp only [List.length_modify, List.length_map, List.length_set]; with_reducible assumption)))

theorem execShaperSet_inv {h : HalfId} {e : CmdEntry} {s : State} {t : State} (hs : s.Inv)
    (ht : execShaperSet h e s = .next t) : t.Inv := by
  unfold execShaperSet at ht
  injection ht with ht
  rw [← ht]
  clear ht
  repeat' (first | with_reducible assumption | with_reducible refine Reply.ok_inv ?_ | with_reducible refine Reply.later_inv ?_ | with_reducible refine addDeferred_inv ?_ | with_reducible refine shaperSetDo_inv ?_ | with_reducible refine guarded_inv ?_ ?_ | with_reducible refine runCmd_inv (fun s hs => ?_) ?_ | with_reducible refine half_inv ?_ _ | dsimp only | split | (obtain ⟨⟨m1, m2⟩, ⟨q1, q2, q3, q4⟩, u1, u2, u3, u4, u5, u6, u7, u8, u9, u10⟩ := hx; refine ⟨⟨?_, ?_⟩, ⟨?_, ?_, ?_, ?_⟩, ?_, ?_, ?_, ?_, ?_, ?_, ?_, ?_, ?_, ?_⟩ <;> first | with_reducible assumption | (dsimp only; with_reducible assumption) | with_reducible exact ringPut_wf _ _ _ _ m1 | (simp only [List.length_modify, List.length_map, List.length_set]; with_reducible assumption)))

theorem execFlowMove_inv {h : HalfId} {e : CmdEntry} {s : State} {t : State} (hs : s.Inv)
    (ht : execFlowMove h e s = .next t) : t.Inv := by
  unfold execFlowMove at ht
  injection ht with ht
  rw [← ht]
  clear ht
  repeat' (first | with_reducible assumption | with_reducible refine Reply.ok_inv ?_ | with_reducible refine updFlowAt_inv ?_ | with_reducible refine moveNow_inv ?_ | with_reducible refine upd_inv (fun x hx => ?_) ?_ | with_reducible refine guarded_inv ?_ ?_ | with_reducible refine runCmd_inv (fun s hs => ?_) ?_ | with_reducible refine half_inv ?_ _ | dsimp only | split | (obtain ⟨⟨m1, m2⟩, ⟨q1, q2, q3, q4⟩, u1, u2, u3, u4, u5, u6, u7, u8, u9, u10⟩ := hx; refine ⟨⟨?_, ?_⟩, ⟨?_, ?_, ?_, ?_⟩, ?_, ?_, ?_, ?_, ?_, ?_, ?_, ?_, ?_, ?_⟩ <;> first | with_reducible assumption | (dsimp only; with_reducible assumption) | with_reducible exact ringPut_wf _ _ _ _ m1 | (simp only [List.length_modify, List.length_map, List.length_set]; with_reducible assumption)))

theorem execPacketReleaseTimes_inv {h : HalfId} {a : AssistEntry} {s : State} {t : State} (hs : s.Inv)
    (ht : execPacketReleaseTimes h a s = .next t) : t.Inv := by
  unfold execPacketReleaseTimes at ht
  injection ht with ht
  rw [← ht]
  clear ht
  repeat' (first | with_reducible assumption | with_reducible refine assistLate_inv ?_ | with_reducible refine updFlowAt_inv ?_ | with_reducible refine upd_inv (fun x hx => ?_) ?_ | with_reducible refine runAssist_inv (fun p s hs => ?_) ?_ | with_reducible refine half_inv ?_ _ | dsimp only | split | (obtain ⟨⟨m1, m2⟩, ⟨q1, q2, q3, q4⟩, u1, u2, u3, u4, u5, u6, u7, u8, u9, u10⟩ := hx; refine ⟨⟨?_, ?_⟩, ⟨?_, ?_, ?_, ?_⟩, ?_, ?_, ?_, ?_, ?_, ?_, ?_, ?_, ?_, ?_⟩ <;> first | with_reducible assumption | (dsimp only; with_reducible assumption) | with_reducible exact ringPut_wf _ _ _ _ m1 | (simp only [List.length_modify, List.length_map, List.length_set]; with_reducible assumption)))

theorem execMirrorStateReceived_inv {h : HalfId} {flow : Handle} {m : Mirror} {s : State} {t : State} (hs : s.Inv)
    (ht : execMirrorStateReceived h flow m s = .next t) : t.Inv := by
  unfold execMirrorStateReceived at ht
  injection ht with ht
  rw [← ht]
  clear ht
  repeat' (first | with_reducible assumption | with_reducible refine updFlowAt_inv ?_ | with_reducible refine upd_inv (fun x hx => ?_) ?_ | with_reducible refine half_inv ?_ _ | dsimp only | split | (obtain ⟨⟨m1, m2⟩, ⟨q1, q2, q3, q4⟩, u1, u2, u3, u4, u5, u6, u7, u8, u9, u10⟩ := hx; refine ⟨⟨?_, ?_⟩, ⟨?_, ?_, ?_, ?_⟩, ?_, ?_, ?_, ?_, ?_, ?_, ?_, ?_, ?_, ?_⟩ <;> first | with_reducible assumption | (dsimp only; with_reducible assumption) | with_reducible exact ringPut_wf _ _ _ _ m1 | (simp only [List.length_modify, List.length_map, List.length_set]; with_reducible assumption)))

theorem execPartnerCopyReceived_inv {h : HalfId} {flow : Handle} {seq : W16} {picture : Nat} {bytes : Option Nat} {s : State} {t : State} (hs : s.Inv)
    (ht : execPartnerCopyReceived h flow seq picture bytes s = .next t) : t.Inv := by
  unfold execPartnerCopyReceived at ht
  injection ht with ht
  rw [← ht]
  clear ht
  repeat' (first | with_reducible assumption | with_reducible refine updFlowAt_inv ?_ | with_reducible refine upd_inv (fun x hx => ?_) ?_ | with_reducible refine half_inv ?_ _ | dsimp only | split | (obtain ⟨⟨m1, m2⟩, ⟨q1, q2, q3, q4⟩, u1, u2, u3, u4, u5, u6, u7, u8, u9, u10⟩ := hx; refine ⟨⟨?_, ?_⟩, ⟨?_, ?_, ?_, ?_⟩, ?_, ?_, ?_, ?_, ?_, ?_, ?_, ?_, ?_, ?_⟩ <;> first | with_reducible assumption | (dsimp only; with_reducible assumption) | with_reducible exact ringPut_wf _ _ _ _ m1 | (simp only [List.length_modify, List.length_map, List.length_set]; with_reducible assumption)))

theorem execUnitAnnouncementReceived_inv {h : HalfId} {a : UnitAnnouncement} {s : State} {t : State} (hs : s.Inv)
    (ht : execUnitAnnouncementReceived h a s = .next t) : t.Inv := by
  unfold execUnitAnnouncementReceived at ht
  injection ht with ht
  rw [← ht]
  clear ht
  repeat' (first | with_reducible assumption | with_reducible refine emit_inv ?_ | with_reducible refine updFlowAt_inv ?_ | with_reducible refine upd_inv (fun x hx => ?_) ?_ | with_reducible refine half_inv ?_ _ | dsimp only | split | (obtain ⟨⟨m1, m2⟩, ⟨q1, q2, q3, q4⟩, u1, u2, u3, u4, u5, u6, u7, u8, u9, u10⟩ := hx; refine ⟨⟨?_, ?_⟩, ⟨?_, ?_, ?_, ?_⟩, ?_, ?_, ?_, ?_, ?_, ?_, ?_, ?_, ?_, ?_⟩ <;> first | with_reducible assumption | (dsimp only; with_reducible assumption) | with_reducible exact ringPut_wf _ _ _ _ m1 | (simp only [List.length_modify, List.length_map, List.length_set]; with_reducible assumption)))

theorem execUnitAnnouncementAck_inv {h : HalfId} {flow : Handle} {s : State} {t : State} (hs : s.Inv)
    (ht : execUnitAnnouncementAck h flow s = .next t) : t.Inv := by
  unfold execUnitAnnouncementAck at ht
  injection ht with ht
  rw [← ht]
  clear ht
  repeat' (first | with_reducible assumption | with_reducible refine updFlowAt_inv ?_ | with_reducible refine upd_inv (fun x hx => ?_) ?_ | with_reducible refine half_inv ?_ _ | dsimp only | split | (obtain ⟨⟨m1, m2⟩, ⟨q1, q2, q3, q4⟩, u1, u2, u3, u4, u5, u6, u7, u8, u9, u10⟩ := hx; refine ⟨⟨?_, ?_⟩, ⟨?_, ?_, ?_, ?_⟩, ?_, ?_, ?_, ?_, ?_, ?_, ?_, ?_, ?_, ?_⟩ <;> first | with_reducible assumption | (dsimp only; with_reducible assumption) | with_reducible exact ringPut_wf _ _ _ _ m1 | (simp only [List.length_modify, List.length_map, List.length_set]; with_reducible assumption)))

theorem execSequenceReportReceived_inv {h : HalfId} {r : FlowSeq} {s : State} {t : State} (hs : s.Inv)
    (ht : execSequenceReportReceived h r s = .next t) : t.Inv := by
  unfold execSequenceReportReceived at ht
  injection ht with ht
  rw [← ht]
  clear ht
  repeat' (first | with_reducible assumption | with_reducible refine updFlowAt_inv ?_ | with_reducible refine upd_inv (fun x hx => ?_) ?_ | with_reducible refine foldl_inv (fun s a hs => ?_) ?_ | with_reducible refine foldlH_inv (fun x a hx => ?_) ?_ | with_reducible refine foldl_fst_inv (fun s a hs => ?_) ?_ | with_reducible refine half_inv ?_ _ | dsimp only | split | (obtain ⟨⟨m1, m2⟩, ⟨q1, q2, q3, q4⟩, u1, u2, u3, u4, u5, u6, u7, u8, u9, u10⟩ := hx; refine ⟨⟨?_, ?_⟩, ⟨?_, ?_, ?_, ?_⟩, ?_, ?_, ?_, ?_, ?_, ?_, ?_, ?_, ?_, ?_⟩ <;> first | with_reducible assumption | (dsimp only; with_reducible assumption) | with_reducible exact ringPut_wf _ _ _ _ m1 | (simp only [List.length_modify, List.length_map, List.length_set]; with_reducible assumption)))

/-! Ports.lean -/

theorem execLinkSignalDetected_inv {h : HalfId} {port : Nat} {s : State} {t : State} (hs : s.Inv)
    (ht : execLinkSignalDetected h port s = .next t) : t.Inv := by
  unfold execLinkSignalDetected at ht
  injection ht with ht
  rw [← ht]
  clear ht
  repeat' (first | with_reducible assumption | with_reducible refine updPort_inv ?_ | with_reducible refine adaptStart_inv ?_ | with_reducible refine upd_inv (fun x hx => ?_) ?_ | with_reducible refine half_inv ?_ _ | dsimp only | split | (obtain ⟨⟨m1, m2⟩, ⟨q1, q2, q3, q4⟩, u1, u2, u3, u4, u5, u6, u7, u8, u9, u10⟩ := hx; refine ⟨⟨?_, ?_⟩, ⟨?_, ?_, ?_, ?_⟩, ?_, ?_, ?_, ?_, ?_, ?_, ?_, ?_, ?_, ?_⟩ <;> first | with_reducible assumption | (dsimp only; with_reducible assumption) | with_reducible exact ringPut_wf _ _ _ _ m1 | (simp only [List.length_modify, List.length_map, List.length_set]; with_reducible assumption)))

theorem execLinkUp_inv {h : HalfId} {port : Nat} {s : State} {t : State} (hs : s.Inv)
    (ht : execLinkUp h port s = .next t) : t.Inv := by
  unfold execLinkUp at ht
  injection ht with ht
  rw [← ht]
  clear ht
  repeat' (first | with_reducible assumption | with_reducible refine event_inv ?_ | with_reducible refine updPort_inv ?_ | with_reducible refine portBack_inv ?_ | with_reducible refine protocolsStart_inv ?_ | with_reducible refine upd_inv (fun x hx => ?_) ?_ | with_reducible refine half_inv ?_ _ | dsimp only | split | (obtain ⟨⟨m1, m2⟩, ⟨q1, q2, q3, q4⟩, u1, u2, u3, u4, u5, u6, u7, u8, u9, u10⟩ := hx; refine ⟨⟨?_, ?_⟩, ⟨?_, ?_, ?_, ?_⟩, ?_, ?_, ?_, ?_, ?_, ?_, ?_, ?_, ?_, ?_⟩ <;> first | with_reducible assumption | (dsimp only; with_reducible assumption) | with_reducible exact ringPut_wf _ _ _ _ m1 | (simp only [List.length_modify, List.length_map, List.length_set]; with_reducible assumption)))

theorem execArpReceived_inv {h : HalfId} {port : Nat} {f : ArpFrame} {s : State} {t : State} (hs : s.Inv)
    (ht : execArpReceived h port f s = .next t) : t.Inv := by
  unfold execArpReceived at ht
  injection ht with ht
  rw [← ht]
  clear ht
  repeat' (first | with_reducible assumption | with_reducible refine emit_inv ?_ | with_reducible refine portRx_inv ?_ | with_reducible refine portDrop_inv ?_ | with_reducible refine learn_inv ?_ | with_reducible refine upd_inv (fun x hx => ?_) ?_ | with_reducible refine half_inv ?_ _ | dsimp only | split | (obtain ⟨⟨m1, m2⟩, ⟨q1, q2, q3, q4⟩, u1, u2, u3, u4, u5, u6, u7, u8, u9, u10⟩ := hx; refine ⟨⟨?_, ?_⟩, ⟨?_, ?_, ?_, ?_⟩, ?_, ?_, ?_, ?_, ?_, ?_, ?_, ?_, ?_, ?_⟩ <;> first | with_reducible assumption | (dsimp only; with_reducible assumption) | with_reducible exact ringPut_wf _ _ _ _ m1 | (simp only [List.length_modify, List.length_map, List.length_set]; with_reducible assumption)))

theorem execArpRefresh_inv {h : HalfId} {port : Nat} {s : State} {t : State} (hs : s.Inv)
    (ht : execArpRefresh h port s = .next t) : t.Inv := by
  unfold execArpRefresh at ht
  injection ht with ht
  rw [← ht]
  clear ht
  repeat' (first | with_reducible assumption | with_reducible refine resolveAll_inv ?_ | with_reducible refine half_inv ?_ _ | dsimp only | split | (obtain ⟨⟨m1, m2⟩, ⟨q1, q2, q3, q4⟩, u1, u2, u3, u4, u5, u6, u7, u8, u9, u10⟩ := hx; refine ⟨⟨?_, ?_⟩, ⟨?_, ?_, ?_, ?_⟩, ?_, ?_, ?_, ?_, ?_, ?_, ?_, ?_, ?_, ?_⟩ <;> first | with_reducible assumption | (dsimp only; with_reducible assumption) | with_reducible exact ringPut_wf _ _ _ _ m1 | (simp only [List.length_modify, List.length_map, List.length_set]; with_reducible assumption)))

theorem execNeighbourDiscoveryReceived_inv {h : HalfId} {port : Nat} {f : NdFrame} {s : State} {t : State} (hs : s.Inv)
    (ht : execNeighbourDiscoveryReceived h port f s = .next t) : t.Inv := by
  unfold execNeighbourDiscoveryReceived at ht
  injection ht with ht
  rw [← ht]
  clear ht
  repeat' (first | with_reducible assumption | with_reducible refine emit_inv ?_ | with_reducible refine event_inv ?_ | with_reducible refine updPort_inv ?_ | with_reducible refine portRx_inv ?_ | with_reducible refine portDrop_inv ?_ | with_reducible refine learn_inv ?_ | with_reducible refine upd_inv (fun x hx => ?_) ?_ | with_reducible refine half_inv ?_ _ | dsimp only | split | (obtain ⟨⟨m1, m2⟩, ⟨q1, q2, q3, q4⟩, u1, u2, u3, u4, u5, u6, u7, u8, u9, u10⟩ := hx; refine ⟨⟨?_, ?_⟩, ⟨?_, ?_, ?_, ?_⟩, ?_, ?_, ?_, ?_, ?_, ?_, ?_, ?_, ?_, ?_⟩ <;> first | with_reducible assumption | (dsimp only; with_reducible assumption) | with_reducible exact ringPut_wf _ _ _ _ m1 | (simp only [List.length_modify, List.length_map, List.length_set]; with_reducible assumption)))

theorem execDadComplete_inv {h : HalfId} {port : Nat} {s : State} {t : State} (hs : s.Inv)
    (ht : execDadComplete h port s = .next t) : t.Inv := by
  unfold execDadComplete at ht
  injection ht with ht
  rw [← ht]
  clear ht
  repeat' (first | with_reducible assumption | with_reducible refine updPort_inv ?_ | with_reducible refine resolveAll_inv ?_ | with_reducible refine upd_inv (fun x hx => ?_) ?_ | with_reducible refine half_inv ?_ _ | dsimp only | split | (obtain ⟨⟨m1, m2⟩, ⟨q1, q2, q3, q4⟩, u1, u2, u3, u4, u5, u6, u7, u8, u9, u10⟩ := hx; refine ⟨⟨?_, ?_⟩, ⟨?_, ?_, ?_, ?_⟩, ?_, ?_, ?_, ?_, ?_, ?_, ?_, ?_, ?_, ?_⟩ <;> first | with_reducible assumption | (dsimp only; with_reducible assumption) | with_reducible exact ringPut_wf _ _ _ _ m1 | (simp only [List.length_modify, List.length_map, List.length_set]; with_reducible assumption)))

theorem execRouterAdvertisementReceived_inv {h : HalfId} {port router mac : Nat} {s : State} {t : State} (hs : s.Inv)
    (ht : execRouterAdvertisementReceived h port router mac s = .next t) : t.Inv := by
  unfold execRouterAdvertisementReceived at ht
  injection ht with ht
  rw [← ht]
  clear ht
  repeat' (first | with_reducible assumption | with_reducible refine updPort_inv ?_ | with_reducible refine portRx_inv ?_ | with_reducible refine learn_inv ?_ | with_reducible refine upd_inv (fun x hx => ?_) ?_ | with_reducible refine half_inv ?_ _ | dsimp only | split | (obtain ⟨⟨m1, m2⟩, ⟨q1, q2, q3, q4⟩, u1, u2, u3, u4, u5, u6, u7, u8, u9, u10⟩ := hx; refine ⟨⟨?_, ?_⟩, ⟨?_, ?_, ?_, ?_⟩, ?_, ?_, ?_, ?_, ?_, ?_, ?_, ?_, ?_, ?_⟩ <;> first | with_reducible assumption | (dsimp only; with_reducible assumption) | with_reducible exact ringPut_wf _ _ _ _ m1 | (simp only [List.length_modify, List.length_map, List.length_set]; with_reducible assumption)))

theorem execMulticastQueryReceived_inv {h : HalfId} {port : Nat} {q : MulticastQuery} {s : State} {t : State} (hs : s.Inv)
    (ht : execMulticastQueryReceived h port q s = .next t) : t.Inv := by
  unfold execMulticastQueryReceived at ht
  injection ht with ht
  rw [← ht]
  clear ht
  repeat' (first | with_reducible assumption | with_reducible refine updPort_inv ?_ | with_reducible refine reportGroups_inv ?_ | with_reducible refine portRx_inv ?_ | with_reducible refine portDrop_inv ?_ | with_reducible refine upd_inv (fun x hx => ?_) ?_ | with_reducible refine half_inv ?_ _ | dsimp only | split | (obtain ⟨⟨m1, m2⟩, ⟨q1, q2, q3, q4⟩, u1, u2, u3, u4, u5, u6, u7, u8, u9, u10⟩ := hx; refine ⟨⟨?_, ?_⟩, ⟨?_, ?_, ?_, ?_⟩, ?_, ?_, ?_, ?_, ?_, ?_, ?_, ?_, ?_, ?_⟩ <;> first | with_reducible assumption | (dsimp only; with_reducible assumption) | with_reducible exact ringPut_wf _ _ _ _ m1 | (simp only [List.length_modify, List.length_map, List.length_set]; with_reducible assumption)))

theorem execIcmpEchoReceived_inv {h : HalfId} {port : Nat} {v6 : Bool} {s : State} {t : State} (hs : s.Inv)
    (ht : execIcmpEchoReceived h port v6 s = .next t) : t.Inv := by
  unfold execIcmpEchoReceived at ht
  injection ht with ht
  rw [← ht]
  clear ht
  repeat' (first | with_reducible assumption | with_reducible refine emit_inv ?_ | with_reducible refine updPort_inv ?_ | with_reducible refine portRx_inv ?_ | with_reducible refine portDrop_inv ?_ | with_reducible refine upd_inv (fun x hx => ?_) ?_ | with_reducible refine half_inv ?_ _ | dsimp only | split | (obtain ⟨⟨m1, m2⟩, ⟨q1, q2, q3, q4⟩, u1, u2, u3, u4, u5, u6, u7, u8, u9, u10⟩ := hx; refine ⟨⟨?_, ?_⟩, ⟨?_, ?_, ?_, ?_⟩, ?_, ?_, ?_, ?_, ?_, ?_, ?_, ?_, ?_, ?_⟩ <;> first | with_reducible assumption | (dsimp only; with_reducible assumption) | with_reducible exact ringPut_wf _ _ _ _ m1 | (simp only [List.length_modify, List.length_map, List.length_set]; with_reducible assumption)))

theorem execOtherFrameReceived_inv {h : HalfId} {port : Nat} {pause : Bool} {s : State} {t : State} (hs : s.Inv)
    (ht : execOtherFrameReceived h port pause s = .next t) : t.Inv := by
  unfold execOtherFrameReceived at ht
  injection ht with ht
  rw [← ht]
  clear ht
  repeat' (first | with_reducible assumption | with_reducible refine updPort_inv ?_ | with_reducible refine portRx_inv ?_ | with_reducible refine portDrop_inv ?_ | with_reducible refine upd_inv (fun x hx => ?_) ?_ | with_reducible refine half_inv ?_ _ | dsimp only | split | (obtain ⟨⟨m1, m2⟩, ⟨q1, q2, q3, q4⟩, u1, u2, u3, u4, u5, u6, u7, u8, u9, u10⟩ := hx; refine ⟨⟨?_, ?_⟩, ⟨?_, ?_, ?_, ?_⟩, ?_, ?_, ?_, ?_, ?_, ?_, ?_, ?_, ?_, ?_⟩ <;> first | with_reducible assumption | (dsimp only; with_reducible assumption) | with_reducible exact ringPut_wf _ _ _ _ m1 | (simp only [List.length_modify, List.length_map, List.length_set]; with_reducible assumption)))

theorem execRtcpSenderReportReceived_inv {h : HalfId} {input ntpTime : Nat} {rtp : W32} {s : State} {t : State} (hs : s.Inv)
    (ht : execRtcpSenderReportReceived h input ntpTime rtp s = .next t) : t.Inv := by
  unfold execRtcpSenderReportReceived at ht
  injection ht with ht
  rw [← ht]
  clear ht
  repeat' (first | with_reducible assumption | with_reducible refine updInput_inv ?_ | with_reducible refine upd_inv (fun x hx => ?_) ?_ | with_reducible refine half_inv ?_ _ | dsimp only | split | (obtain ⟨⟨m1, m2⟩, ⟨q1, q2, q3, q4⟩, u1, u2, u3, u4, u5, u6, u7, u8, u9, u10⟩ := hx; refine ⟨⟨?_, ?_⟩, ⟨?_, ?_, ?_, ?_⟩, ?_, ?_, ?_, ?_, ?_, ?_, ?_, ?_, ?_, ?_⟩ <;> first | with_reducible assumption | (dsimp only; with_reducible assumption) | with_reducible exact ringPut_wf _ _ _ _ m1 | (simp only [List.length_modify, List.length_map, List.length_set]; with_reducible assumption)))

theorem execRtcpFeedbackReceived_inv {h : HalfId} {flow : Nat} {f : Feedback} {s : State} {t : State} (hs : s.Inv)
    (ht : execRtcpFeedbackReceived h flow f s = .next t) : t.Inv := by
  unfold execRtcpFeedbackReceived at ht
  injection ht with ht
  rw [← ht]
  clear ht
  repeat' (first | with_reducible assumption | with_reducible refine count_inv ?_ | with_reducible refine updFlow_inv ?_ | with_reducible refine streamFeedback_inv ?_ | with_reducible refine upd_inv (fun x hx => ?_) ?_ | with_reducible refine half_inv ?_ _ | dsimp only | split | (obtain ⟨⟨m1, m2⟩, ⟨q1, q2, q3, q4⟩, u1, u2, u3, u4, u5, u6, u7, u8, u9, u10⟩ := hx; refine ⟨⟨?_, ?_⟩, ⟨?_, ?_, ?_, ?_⟩, ?_, ?_, ?_, ?_, ?_, ?_, ?_, ?_, ?_, ?_⟩ <;> first | with_reducible assumption | (dsimp only; with_reducible assumption) | with_reducible exact ringPut_wf _ _ _ _ m1 | (simp only [List.length_modify, List.length_map, List.length_set]; with_reducible assumption)))

theorem execRtcpReceiverReportReceived_inv {h : HalfId} {flow : Nat} {r : ReceiverReport} {s : State} {t : State} (hs : s.Inv)
    (ht : execRtcpReceiverReportReceived h flow r s = .next t) : t.Inv := by
  unfold execRtcpReceiverReportReceived at ht
  injection ht with ht
  rw [← ht]
  clear ht
  repeat' (first | with_reducible assumption | with_reducible refine updFlow_inv ?_ | with_reducible refine upd_inv (fun x hx => ?_) ?_ | with_reducible refine half_inv ?_ _ | dsimp only | split | (obtain ⟨⟨m1, m2⟩, ⟨q1, q2, q3, q4⟩, u1, u2, u3, u4, u5, u6, u7, u8, u9, u10⟩ := hx; refine ⟨⟨?_, ?_⟩, ⟨?_, ?_, ?_, ?_⟩, ?_, ?_, ?_, ?_, ?_, ?_, ?_, ?_, ?_, ?_⟩ <;> first | with_reducible assumption | (dsimp only; with_reducible assumption) | with_reducible exact ringPut_wf _ _ _ _ m1 | (simp only [List.length_modify, List.length_map, List.length_set]; with_reducible assumption)))

theorem execSenderReportTimer_inv {h : HalfId} {flow : Nat} {s : State} {t : State} (hs : s.Inv)
    (ht : execSenderReportTimer h flow s = .next t) : t.Inv := by
  unfold execSenderReportTimer at ht
  injection ht with ht
  rw [← ht]
  clear ht
  extract_lets +onlyGivenNames x r
  split
  · exact hs
  split
  · exact hs
  · exact emit_inv (upd_inv (fun x hx => updFlow_inv hx) (free_inv hs))

theorem execReceiverReportTimer_inv {h : HalfId} {input : Nat} {s : State} {t : State} (hs : s.Inv)
    (ht : execReceiverReportTimer h input s = .next t) : t.Inv := by
  unfold execReceiverReportTimer at ht
  injection ht with ht
  rw [← ht]
  clear ht
  extract_lets +onlyGivenNames x
  split
  · exact hs
  split
  · exact hs
  · exact emit_inv (upd_inv (fun x hx => updInput_inv hx) (free_inv hs))

/-! Ptp.lean -/

theorem execLinkDown_inv {h : HalfId} {port cause : Nat} {s : State} {t : State} (hs : s.Inv)
    (ht : execLinkDown h port cause s = .next t) : t.Inv := by
  unfold execLinkDown at ht
  injection ht with ht
  rw [← ht]
  clear ht
  repeat' (first | with_reducible assumption | with_reducible refine updPort_inv ?_ | with_reducible refine leaveUp_inv ?_ | with_reducible refine ptpLost_inv ?_ | with_reducible refine upd_inv (fun x hx => ?_) ?_ | with_reducible refine half_inv ?_ _ | dsimp only | split | (obtain ⟨⟨m1, m2⟩, ⟨q1, q2, q3, q4⟩, u1, u2, u3, u4, u5, u6, u7, u8, u9, u10⟩ := hx; refine ⟨⟨?_, ?_⟩, ⟨?_, ?_, ?_, ?_⟩, ?_, ?_, ?_, ?_, ?_, ?_, ?_, ?_, ?_, ?_⟩ <;> first | with_reducible assumption | (dsimp only; with_reducible assumption) | with_reducible exact ringPut_wf _ _ _ _ m1 | (simp only [List.length_modify, List.length_map, List.length_set]; with_reducible assumption)))

theorem execAdaptationTimeout_inv {h : HalfId} {port : Nat} {s : State} {t : State} (hs : s.Inv)
    (ht : execAdaptationTimeout h port s = .next t) : t.Inv := by
  unfold execAdaptationTimeout at ht
  injection ht with ht
  rw [← ht]
  clear ht
  extract_lets +onlyGivenNames x p
  split
  · exact hs
  split
  · exact upd_inv (fun x hx => updPort_inv hx) hs
  · exact portLost_inv (latchHw_inv (event_inv (free_inv (upd_inv (fun x hx => updPort_inv hx) hs))))

theorem execAdaptationRetry_inv {h : HalfId} {port : Nat} {s : State} {t : State} (hs : s.Inv)
    (ht : execAdaptationRetry h port s = .next t) : t.Inv := by
  unfold execAdaptationRetry at ht
  injection ht with ht
  rw [← ht]
  clear ht
  repeat' (first | with_reducible assumption | with_reducible refine adaptStart_inv ?_ | with_reducible refine upd_inv (fun x hx => ?_) ?_ | with_reducible refine half_inv ?_ _ | dsimp only | split | (obtain ⟨⟨m1, m2⟩, ⟨q1, q2, q3, q4⟩, u1, u2, u3, u4, u5, u6, u7, u8, u9, u10⟩ := hx; refine ⟨⟨?_, ?_⟩, ⟨?_, ?_, ?_, ?_⟩, ?_, ?_, ?_, ?_, ?_, ?_, ?_, ?_, ?_, ?_⟩ <;> first | with_reducible assumption | (dsimp only; with_reducible assumption) | with_reducible exact ringPut_wf _ _ _ _ m1 | (simp only [List.length_modify, List.length_map, List.length_set]; with_reducible assumption)))

theorem execPortReset_inv {h : HalfId} {e : CmdEntry} {s : State} {t : State} (hs : s.Inv)
    (ht : execPortReset h e s = .next t) : t.Inv := by
  unfold execPortReset at ht
  injection ht with ht
  rw [← ht]
  clear ht
  repeat' (first | with_reducible assumption | with_reducible refine Reply.ok_inv ?_ | with_reducible refine restartPort_inv ?_ | with_reducible refine guarded_inv ?_ ?_ | with_reducible refine runCmd_inv (fun s hs => ?_) ?_ | with_reducible refine half_inv ?_ _ | dsimp only | split | (obtain ⟨⟨m1, m2⟩, ⟨q1, q2, q3, q4⟩, u1, u2, u3, u4, u5, u6, u7, u8, u9, u10⟩ := hx; refine ⟨⟨?_, ?_⟩, ⟨?_, ?_, ?_, ?_⟩, ?_, ?_, ?_, ?_, ?_, ?_, ?_, ?_, ?_, ?_⟩ <;> first | with_reducible assumption | (dsimp only; with_reducible assumption) | with_reducible exact ringPut_wf _ _ _ _ m1 | (simp only [List.length_modify, List.length_map, List.length_set]; with_reducible assumption)))

theorem execPtpSyncReceived_inv {h : HalfId} {port : Nat} {twoStep : Bool} {origin receive : Nat} {s : State} {t : State} (hs : s.Inv)
    (ht : execPtpSyncReceived h port twoStep origin receive s = .next t) : t.Inv := by
  unfold execPtpSyncReceived at ht
  injection ht with ht
  rw [← ht]
  clear ht
  repeat' (first | with_reducible assumption | with_reducible refine portRx_inv ?_ | with_reducible refine updPtp_inv ?_ | with_reducible refine becomeSlave_inv ?_ | with_reducible refine syncDone_inv ?_ | with_reducible refine servoDeadline_inv ?_ | with_reducible refine upd_inv (fun x hx => ?_) ?_ | with_reducible refine half_inv ?_ _ | dsimp only | split | (obtain ⟨⟨m1, m2⟩, ⟨q1, q2, q3, q4⟩, u1, u2, u3, u4, u5, u6, u7, u8, u9, u10⟩ := hx; refine ⟨⟨?_, ?_⟩, ⟨?_, ?_, ?_, ?_⟩, ?_, ?_, ?_, ?_, ?_, ?_, ?_, ?_, ?_, ?_⟩ <;> first | with_reducible assumption | (dsimp only; with_reducible assumption) | with_reducible exact ringPut_wf _ _ _ _ m1 | (simp only [List.length_modify, List.length_map, List.length_set]; with_reducible assumption)))

theorem execPtpFollowUpReceived_inv {h : HalfId} {port origin : Nat} {s : State} {t : State} (hs : s.Inv)
    (ht : execPtpFollowUpReceived h port origin s = .next t) : t.Inv := by
  unfold execPtpFollowUpReceived at ht
  injection ht with ht
  rw [← ht]
  clear ht
  repeat' (first | with_reducible assumption | with_reducible refine portRx_inv ?_ | with_reducible refine updPtp_inv ?_ | with_reducible refine syncDone_inv ?_ | with_reducible refine upd_inv (fun x hx => ?_) ?_ | with_reducible refine half_inv ?_ _ | dsimp only | split | (obtain ⟨⟨m1, m2⟩, ⟨q1, q2, q3, q4⟩, u1, u2, u3, u4, u5, u6, u7, u8, u9, u10⟩ := hx; refine ⟨⟨?_, ?_⟩, ⟨?_, ?_, ?_, ?_⟩, ?_, ?_, ?_, ?_, ?_, ?_, ?_, ?_, ?_, ?_⟩ <;> first | with_reducible assumption | (dsimp only; with_reducible assumption) | with_reducible exact ringPut_wf _ _ _ _ m1 | (simp only [List.length_modify, List.length_map, List.length_set]; with_reducible assumption)))

theorem execDelayRequestInterval_inv {h : HalfId} {port : Nat} {s : State} {t : State} (hs : s.Inv)
    (ht : execDelayRequestInterval h port s = .next t) : t.Inv := by
  unfold execDelayRequestInterval at ht
  injection ht with ht
  rw [← ht]
  clear ht
  repeat' (first | with_reducible assumption | with_reducible refine emit_inv ?_ | with_reducible refine updPtp_inv ?_ | with_reducible refine upd_inv (fun x hx => ?_) ?_ | with_reducible refine half_inv ?_ _ | dsimp only | split | (obtain ⟨⟨m1, m2⟩, ⟨q1, q2, q3, q4⟩, u1, u2, u3, u4, u5, u6, u7, u8, u9, u10⟩ := hx; refine ⟨⟨?_, ?_⟩, ⟨?_, ?_, ?_, ?_⟩, ?_, ?_, ?_, ?_, ?_, ?_, ?_, ?_, ?_, ?_⟩ <;> first | with_reducible assumption | (dsimp only; with_reducible assumption) | with_reducible exact ringPut_wf _ _ _ _ m1 | (simp only [List.length_modify, List.length_map, List.length_set]; with_reducible assumption)))

theorem execPtpDelayRespReceived_inv {h : HalfId} {port receive : Nat} {s : State} {t : State} (hs : s.Inv)
    (ht : execPtpDelayRespReceived h port receive s = .next t) : t.Inv := by
  unfold execPtpDelayRespReceived at ht
  injection ht with ht
  rw [← ht]
  clear ht
  extract_lets +onlyGivenNames home
  split
  · exact hs
  extract_lets +onlyGivenNames s1 p
  have h1 : s1.Inv := upd_inv (fun x hx => portRx_inv hx) hs
  split
  · split
    · exact h1
    · extract_lets +onlyGivenNames d off s2
      have h2 : s2.Inv := upd_inv (fun x hx => updPtp_inv hx) h1
      split
      · exact asrRequest_inv (upd_inv (fun x hx => updPtp_inv hx) h2)
      · exact correctPhase_inv (setFrequency_inv (free_inv h2))
  · exact h1

theorem execPtpCorrection_inv {h : HalfId} {a : AssistEntry} {s : State} {t : State} (hs : s.Inv)
    (ht : execPtpCorrection h a s = .next t) : t.Inv := by
  unfold execPtpCorrection at ht
  injection ht with ht
  rw [← ht]
  clear ht
  repeat' (first | with_reducible assumption | with_reducible refine assistLate_inv ?_ | with_reducible refine updPtp_inv ?_ | with_reducible refine setFrequency_inv ?_ | with_reducible refine correctPhase_inv ?_ | with_reducible refine upd_inv (fun x hx => ?_) ?_ | with_reducible refine runAssist_inv (fun p s hs => ?_) ?_ | with_reducible refine half_inv ?_ _ | dsimp only | split | (obtain ⟨⟨m1, m2⟩, ⟨q1, q2, q3, q4⟩, u1, u2, u3, u4, u5, u6, u7, u8, u9, u10⟩ := hx; refine ⟨⟨?_, ?_⟩, ⟨?_, ?_, ?_, ?_⟩, ?_, ?_, ?_, ?_, ?_, ?_, ?_, ?_, ?_, ?_⟩ <;> first | with_reducible assumption | (dsimp only; with_reducible assumption) | with_reducible exact ringPut_wf _ _ _ _ m1 | (simp only [List.length_modify, List.length_map, List.length_set]; with_reducible assumption)))

theorem execPtpAnnounceReceived_inv {h : HalfId} {port : Nat} {a : Announce} {s : State} {t : State} (hs : s.Inv)
    (ht : execPtpAnnounceReceived h port a s = .next t) : t.Inv := by
  unfold execPtpAnnounceReceived at ht
  injection ht with ht
  rw [← ht]
  clear ht
  repeat' (first | with_reducible assumption | with_reducible refine updPort_inv ?_ | with_reducible refine portRx_inv ?_ | with_reducible refine bmca_inv ?_ | with_reducible refine upd_inv (fun x hx => ?_) ?_ | with_reducible refine half_inv ?_ _ | dsimp only | split | (obtain ⟨⟨m1, m2⟩, ⟨q1, q2, q3, q4⟩, u1, u2, u3, u4, u5, u6, u7, u8, u9, u10⟩ := hx; refine ⟨⟨?_, ?_⟩, ⟨?_, ?_, ?_, ?_⟩, ?_, ?_, ?_, ?_, ?_, ?_, ?_, ?_, ?_, ?_⟩ <;> first | with_reducible assumption | (dsimp only; with_reducible assumption) | with_reducible exact ringPut_wf _ _ _ _ m1 | (simp only [List.length_modify, List.length_map, List.length_set]; with_reducible assumption)))

theorem execAnnounceReceiptTimeout_inv {h : HalfId} {port : Nat} {s : State} {t : State} (hs : s.Inv)
    (ht : execAnnounceReceiptTimeout h port s = .next t) : t.Inv := by
  unfold execAnnounceReceiptTimeout at ht
  injection ht with ht
  rw [← ht]
  clear ht
  repeat' (first | with_reducible assumption | with_reducible refine updPort_inv ?_ | with_reducible refine slaveLost_inv ?_ | with_reducible refine upd_inv (fun x hx => ?_) ?_ | with_reducible refine half_inv ?_ _ | dsimp only | split | (obtain ⟨⟨m1, m2⟩, ⟨q1, q2, q3, q4⟩, u1, u2, u3, u4, u5, u6, u7, u8, u9, u10⟩ := hx; refine ⟨⟨?_, ?_⟩, ⟨?_, ?_, ?_, ?_⟩, ?_, ?_, ?_, ?_, ?_, ?_, ?_, ?_, ?_, ?_⟩ <;> first | with_reducible assumption | (dsimp only; with_reducible assumption) | with_reducible exact ringPut_wf _ _ _ _ m1 | (simp only [List.length_modify, List.length_map, List.length_set]; with_reducible assumption)))

theorem execPtpDelayReqReceived_inv {h : HalfId} {port receive : Nat} {s : State} {t : State} (hs : s.Inv)
    (ht : execPtpDelayReqReceived h port receive s = .next t) : t.Inv := by
  unfold execPtpDelayReqReceived at ht
  injection ht with ht
  rw [← ht]
  clear ht
  repeat' (first | with_reducible assumption | with_reducible refine emit_inv ?_ | with_reducible refine portRx_inv ?_ | with_reducible refine upd_inv (fun x hx => ?_) ?_ | with_reducible refine half_inv ?_ _ | dsimp only | split | (obtain ⟨⟨m1, m2⟩, ⟨q1, q2, q3, q4⟩, u1, u2, u3, u4, u5, u6, u7, u8, u9, u10⟩ := hx; refine ⟨⟨?_, ?_⟩, ⟨?_, ?_, ?_, ?_⟩, ?_, ?_, ?_, ?_, ?_, ?_, ?_, ?_, ?_, ?_⟩ <;> first | with_reducible assumption | (dsimp only; with_reducible assumption) | with_reducible exact ringPut_wf _ _ _ _ m1 | (simp only [List.length_modify, List.length_map, List.length_set]; with_reducible assumption)))

theorem execPtpMasterInterval_inv {h : HalfId} {port : Nat} {announce : Bool} {s : State} {t : State} (hs : s.Inv)
    (ht : execPtpMasterInterval h port announce s = .next t) : t.Inv := by
  unfold execPtpMasterInterval at ht
  injection ht with ht
  rw [← ht]
  clear ht
  repeat' (first | with_reducible assumption | with_reducible refine emit_inv ?_ | with_reducible refine updPort_inv ?_ | with_reducible refine upd_inv (fun x hx => ?_) ?_ | with_reducible refine half_inv ?_ _ | dsimp only | split | (obtain ⟨⟨m1, m2⟩, ⟨q1, q2, q3, q4⟩, u1, u2, u3, u4, u5, u6, u7, u8, u9, u10⟩ := hx; refine ⟨⟨?_, ?_⟩, ⟨?_, ?_, ?_, ?_⟩, ?_, ?_, ?_, ?_, ?_, ?_, ?_, ?_, ?_, ?_⟩ <;> first | with_reducible assumption | (dsimp only; with_reducible assumption) | with_reducible exact ringPut_wf _ _ _ _ m1 | (simp only [List.length_modify, List.length_map, List.length_set]; with_reducible assumption)))

theorem execHoldoverExpired_inv {h : HalfId} {s : State} {t : State} (hs : s.Inv)
    (ht : execHoldoverExpired h s = .next t) : t.Inv := by
  unfold execHoldoverExpired at ht
  injection ht with ht
  rw [← ht]
  clear ht
  repeat' (first | with_reducible assumption | with_reducible refine event_inv ?_ | with_reducible refine updPtp_inv ?_ | with_reducible refine upd_inv (fun x hx => ?_) ?_ | with_reducible refine half_inv ?_ _ | dsimp only | split | (obtain ⟨⟨m1, m2⟩, ⟨q1, q2, q3, q4⟩, u1, u2, u3, u4, u5, u6, u7, u8, u9, u10⟩ := hx; refine ⟨⟨?_, ?_⟩, ⟨?_, ?_, ?_, ?_⟩, ?_, ?_, ?_, ?_, ?_, ?_, ?_, ?_, ?_, ?_⟩ <;> first | with_reducible assumption | (dsimp only; with_reducible assumption) | with_reducible exact ringPut_wf _ _ _ _ m1 | (simp only [List.length_modify, List.length_map, List.length_set]; with_reducible assumption)))

theorem execPpsInputEdge_inv {h : HalfId} {second : Nat} {s : State} {t : State} (hs : s.Inv)
    (ht : execPpsInputEdge h second s = .next t) : t.Inv := by
  unfold execPpsInputEdge at ht
  injection ht with ht
  rw [← ht]
  clear ht
  repeat' (first | with_reducible assumption | with_reducible refine correctPhase_inv ?_ | with_reducible refine half_inv ?_ _ | dsimp only | split | (obtain ⟨⟨m1, m2⟩, ⟨q1, q2, q3, q4⟩, u1, u2, u3, u4, u5, u6, u7, u8, u9, u10⟩ := hx; refine ⟨⟨?_, ?_⟩, ⟨?_, ?_, ?_, ?_⟩, ?_, ?_, ?_, ?_, ?_, ?_, ?_, ?_, ?_, ?_⟩ <;> first | with_reducible assumption | (dsimp only; with_reducible assumption) | with_reducible exact ringPut_wf _ _ _ _ m1 | (simp only [List.length_modify, List.length_map, List.length_set]; with_reducible assumption)))

theorem execPpsOutputPulse_inv {h : HalfId} {s : State} {t : State} (hs : s.Inv)
    (ht : execPpsOutputPulse h s = .next t) : t.Inv := by
  unfold execPpsOutputPulse at ht
  injection ht with ht
  rw [← ht]
  clear ht
  extract_lets +onlyGivenNames x second
  split
  · exact hs
  · exact emit_inv (upd_inv (fun x hx => islands_inv (islands_len hx) (updPtp_inv hx)) hs)

/-! Envelope.lean -/

theorem execOverbookSet_inv {h : HalfId} {e : CmdEntry} {s : State} {t : State} (hs : s.Inv)
    (ht : execOverbookSet h e s = .next t) : t.Inv := by
  unfold execOverbookSet at ht
  injection ht with ht
  rw [← ht]
  clear ht
  repeat' (first | with_reducible assumption | with_reducible refine Reply.ok_inv ?_ | with_reducible refine updCluster_inv ?_ | with_reducible refine upd_inv (fun x hx => ?_) ?_ | with_reducible refine foldl_inv (fun s a hs => ?_) ?_ | with_reducible refine foldlH_inv (fun x a hx => ?_) ?_ | with_reducible refine foldl_fst_inv (fun s a hs => ?_) ?_ | with_reducible refine guarded_inv ?_ ?_ | with_reducible refine runCmd_inv (fun s hs => ?_) ?_ | with_reducible refine half_inv ?_ _ | dsimp only | split | (obtain ⟨⟨m1, m2⟩, ⟨q1, q2, q3, q4⟩, u1, u2, u3, u4, u5, u6, u7, u8, u9, u10⟩ := hx; refine ⟨⟨?_, ?_⟩, ⟨?_, ?_, ?_, ?_⟩, ?_, ?_, ?_, ?_, ?_, ?_, ?_, ?_, ?_, ?_⟩ <;> first | with_reducible assumption | (dsimp only; with_reducible assumption) | with_reducible exact ringPut_wf _ _ _ _ m1 | (simp only [List.length_modify, List.length_map, List.length_set]; with_reducible assumption)))

theorem execDraftOpen_inv {h : HalfId} {e : CmdEntry} {s : State} {t : State} (hs : s.Inv)
    (ht : execDraftOpen h e s = .next t) : t.Inv := by
  unfold execDraftOpen at ht
  injection ht with ht
  rw [← ht]
  clear ht
  repeat' (first | with_reducible assumption | with_reducible refine Reply.ok_inv ?_ | with_reducible refine updEnv_inv ?_ | with_reducible refine upd_inv (fun x hx => ?_) ?_ | with_reducible refine guarded_inv ?_ ?_ | with_reducible refine runCmd_inv (fun s hs => ?_) ?_ | with_reducible refine half_inv ?_ _ | dsimp only | split | (obtain ⟨⟨m1, m2⟩, ⟨q1, q2, q3, q4⟩, u1, u2, u3, u4, u5, u6, u7, u8, u9, u10⟩ := hx; refine ⟨⟨?_, ?_⟩, ⟨?_, ?_, ?_, ?_⟩, ?_, ?_, ?_, ?_, ?_, ?_, ?_, ?_, ?_, ?_⟩ <;> first | with_reducible assumption | (dsimp only; with_reducible assumption) | with_reducible exact ringPut_wf _ _ _ _ m1 | (simp only [List.length_modify, List.length_map, List.length_set]; with_reducible assumption)))

theorem execDraftWrite_inv {h : HalfId} {e : CmdEntry} {r : RefFetch} {s : State} {t : State} (hs : s.Inv)
    (ht : execDraftWrite h e r s = .next t) : t.Inv := by
  unfold execDraftWrite at ht
  injection ht with ht
  rw [← ht]
  clear ht
  repeat' (first | with_reducible assumption | with_reducible refine Reply.ok_inv ?_ | with_reducible refine updEnv_inv ?_ | with_reducible refine Reply.fail_inv ?_ | with_reducible refine upd_inv (fun x hx => ?_) ?_ | with_reducible refine runCmd_inv (fun s hs => ?_) ?_ | with_reducible refine half_inv ?_ _ | dsimp only | split | (obtain ⟨⟨m1, m2⟩, ⟨q1, q2, q3, q4⟩, u1, u2, u3, u4, u5, u6, u7, u8, u9, u10⟩ := hx; refine ⟨⟨?_, ?_⟩, ⟨?_, ?_, ?_, ?_⟩, ?_, ?_, ?_, ?_, ?_, ?_, ?_, ?_, ?_, ?_⟩ <;> first | with_reducible assumption | (dsimp only; with_reducible assumption) | with_reducible exact ringPut_wf _ _ _ _ m1 | (simp only [List.length_modify, List.length_map, List.length_set]; with_reducible assumption)))

theorem execDraftDiscard_inv {h : HalfId} {e : CmdEntry} {s : State} {t : State} (hs : s.Inv)
    (ht : execDraftDiscard h e s = .next t) : t.Inv := by
  unfold execDraftDiscard at ht
  injection ht with ht
  rw [← ht]
  clear ht
  repeat' (first | with_reducible assumption | with_reducible refine Reply.ok_inv ?_ | with_reducible refine updEnv_inv ?_ | with_reducible refine upd_inv (fun x hx => ?_) ?_ | with_reducible refine guarded_inv ?_ ?_ | with_reducible refine runCmd_inv (fun s hs => ?_) ?_ | with_reducible refine half_inv ?_ _ | dsimp only | split | (obtain ⟨⟨m1, m2⟩, ⟨q1, q2, q3, q4⟩, u1, u2, u3, u4, u5, u6, u7, u8, u9, u10⟩ := hx; refine ⟨⟨?_, ?_⟩, ⟨?_, ?_, ?_, ?_⟩, ?_, ?_, ?_, ?_, ?_, ?_, ?_, ?_, ?_, ?_⟩ <;> first | with_reducible assumption | (dsimp only; with_reducible assumption) | with_reducible exact ringPut_wf _ _ _ _ m1 | (simp only [List.length_modify, List.length_map, List.length_set]; with_reducible assumption)))

theorem execEnvelopeCommit_inv {h : HalfId} {e : CmdEntry} {s : State} {t : State} (hs : s.Inv)
    (ht : execEnvelopeCommit h e s = .next t) : t.Inv := by
  unfold execEnvelopeCommit at ht
  injection ht with ht
  rw [← ht]
  clear ht
  repeat' (first | with_reducible assumption | with_reducible refine Reply.ok_inv ?_ | with_reducible refine Reply.later_inv ?_ | with_reducible refine updEnv_inv ?_ | with_reducible refine commitBad_inv ?_ | with_reducible refine commitFit_inv ?_ | with_reducible refine upd_inv (fun x hx => ?_) ?_ | with_reducible refine runCmd_inv (fun s hs => ?_) ?_ | with_reducible refine half_inv ?_ _ | dsimp only | split | (obtain ⟨⟨m1, m2⟩, ⟨q1, q2, q3, q4⟩, u1, u2, u3, u4, u5, u6, u7, u8, u9, u10⟩ := hx; refine ⟨⟨?_, ?_⟩, ⟨?_, ?_, ?_, ?_⟩, ?_, ?_, ?_, ?_, ?_, ?_, ?_, ?_, ?_, ?_⟩ <;> first | with_reducible assumption | (dsimp only; with_reducible assumption) | with_reducible exact ringPut_wf _ _ _ _ m1 | (simp only [List.length_modify, List.length_map, List.length_set]; with_reducible assumption)))

theorem execEnvelopeGroupResolved_inv {lead : HalfId} {s : State} {t : State} (hs : s.Inv)
    (ht : execEnvelopeGroupResolved lead s = .next t) : t.Inv := by
  unfold execEnvelopeGroupResolved at ht
  injection ht with ht
  rw [← ht]
  clear ht
  repeat' (first | with_reducible assumption | with_reducible refine groupResolve_inv ?_ | with_reducible refine half_inv ?_ _ | dsimp only | split | (obtain ⟨⟨m1, m2⟩, ⟨q1, q2, q3, q4⟩, u1, u2, u3, u4, u5, u6, u7, u8, u9, u10⟩ := hx; refine ⟨⟨?_, ?_⟩, ⟨?_, ?_, ?_, ?_⟩, ?_, ?_, ?_, ?_, ?_, ?_, ?_, ?_, ?_, ?_⟩ <;> first | with_reducible assumption | (dsimp only; with_reducible assumption) | with_reducible exact ringPut_wf _ _ _ _ m1 | (simp only [List.length_modify, List.length_map, List.length_set]; with_reducible assumption)))

theorem execGroupPartnerTimeout_inv {h : HalfId} {s : State} {t : State} (hs : s.Inv)
    (ht : execGroupPartnerTimeout h s = .next t) : t.Inv := by
  unfold execGroupPartnerTimeout at ht
  injection ht with ht
  rw [← ht]
  clear ht
  repeat' (first | with_reducible assumption | with_reducible refine updEnv_inv ?_ | with_reducible refine groupEvent_inv ?_ | with_reducible refine upd_inv (fun x hx => ?_) ?_ | with_reducible refine half_inv ?_ _ | dsimp only | split | (obtain ⟨⟨m1, m2⟩, ⟨q1, q2, q3, q4⟩, u1, u2, u3, u4, u5, u6, u7, u8, u9, u10⟩ := hx; refine ⟨⟨?_, ?_⟩, ⟨?_, ?_, ?_, ?_⟩, ?_, ?_, ?_, ?_, ?_, ?_, ?_, ?_, ?_, ?_⟩ <;> first | with_reducible assumption | (dsimp only; with_reducible assumption) | with_reducible exact ringPut_wf _ _ _ _ m1 | (simp only [List.length_modify, List.length_map, List.length_set]; with_reducible assumption)))

theorem execEnvelopeCancel_inv {h : HalfId} {e : CmdEntry} {s : State} {t : State} (hs : s.Inv)
    (ht : execEnvelopeCancel h e s = .next t) : t.Inv := by
  unfold execEnvelopeCancel at ht
  injection ht with ht
  rw [← ht]
  clear ht
  repeat' (first | with_reducible assumption | with_reducible refine Reply.ok_inv ?_ | with_reducible refine withdraw_inv ?_ | with_reducible refine foldl_inv (fun s a hs => ?_) ?_ | with_reducible refine foldlH_inv (fun x a hx => ?_) ?_ | with_reducible refine foldl_fst_inv (fun s a hs => ?_) ?_ | with_reducible refine guarded_inv ?_ ?_ | with_reducible refine runCmd_inv (fun s hs => ?_) ?_ | with_reducible refine half_inv ?_ _ | dsimp only | split | (obtain ⟨⟨m1, m2⟩, ⟨q1, q2, q3, q4⟩, u1, u2, u3, u4, u5, u6, u7, u8, u9, u10⟩ := hx; refine ⟨⟨?_, ?_⟩, ⟨?_, ?_, ?_, ?_⟩, ?_, ?_, ?_, ?_, ?_, ?_, ?_, ?_, ?_, ?_⟩ <;> first | with_reducible assumption | (dsimp only; with_reducible assumption) | with_reducible exact ringPut_wf _ _ _ _ m1 | (simp only [List.length_modify, List.length_map, List.length_set]; with_reducible assumption)))

theorem execEnvelopeRead_inv {h : HalfId} {e : CmdEntry} {b : BusResult} {s : State} {t : State} (hs : s.Inv)
    (ht : execEnvelopeRead h e b s = .next t) : t.Inv := by
  unfold execEnvelopeRead at ht
  injection ht with ht
  rw [← ht]
  clear ht
  repeat' (first | with_reducible assumption | with_reducible refine Reply.ok_inv ?_ | with_reducible refine guarded_inv ?_ ?_ | with_reducible refine runCmd_inv (fun s hs => ?_) ?_ | with_reducible refine replyBuffer_inv (fun s hs => ?_) ?_ | with_reducible refine half_inv ?_ _ | with_reducible refine id_inv ?_ | with_reducible refine idH_inv ?_ | dsimp only | split | (obtain ⟨⟨m1, m2⟩, ⟨q1, q2, q3, q4⟩, u1, u2, u3, u4, u5, u6, u7, u8, u9, u10⟩ := hx; refine ⟨⟨?_, ?_⟩, ⟨?_, ?_, ?_, ?_⟩, ?_, ?_, ?_, ?_, ?_, ?_, ?_, ?_, ?_, ?_⟩ <;> first | with_reducible assumption | (dsimp only; with_reducible assumption) | with_reducible exact ringPut_wf _ _ _ _ m1 | (simp only [List.length_modify, List.length_map, List.length_set]; with_reducible assumption)))

/-! Takeover.lean -/

theorem execTakeoverArm_inv {h : HalfId} {s : State} {t : State} (hs : s.Inv)
    (ht : execTakeoverArm h s = .next t) : t.Inv := by
  unfold execTakeoverArm at ht
  injection ht with ht
  rw [← ht]
  clear ht
  repeat' (first | with_reducible assumption | with_reducible refine armDo_inv ?_ | with_reducible refine upd_inv (fun x hx => ?_) ?_ | with_reducible refine half_inv ?_ _ | dsimp only | split | (obtain ⟨⟨m1, m2⟩, ⟨q1, q2, q3, q4⟩, u1, u2, u3, u4, u5, u6, u7, u8, u9, u10⟩ := hx; refine ⟨⟨?_, ?_⟩, ⟨?_, ?_, ?_, ?_⟩, ?_, ?_, ?_, ?_, ?_, ?_, ?_, ?_, ?_, ?_⟩ <;> first | with_reducible assumption | (dsimp only; with_reducible assumption) | with_reducible exact ringPut_wf _ _ _ _ m1 | (simp only [List.length_modify, List.length_map, List.length_set]; with_reducible assumption)))

theorem execEnvelopeCrcCheck_inv {h : HalfId} {s : State} {t : State} (hs : s.Inv)
    (ht : execEnvelopeCrcCheck h s = .next t) : t.Inv := by
  unfold execEnvelopeCrcCheck at ht
  injection ht with ht
  rw [← ht]
  clear ht
  repeat' (first | with_reducible assumption | with_reducible refine updEnv_inv ?_ | with_reducible refine crcCheck_inv ?_ | with_reducible refine upd_inv (fun x hx => ?_) ?_ | with_reducible refine half_inv ?_ _ | dsimp only | split | (obtain ⟨⟨m1, m2⟩, ⟨q1, q2, q3, q4⟩, u1, u2, u3, u4, u5, u6, u7, u8, u9, u10⟩ := hx; refine ⟨⟨?_, ?_⟩, ⟨?_, ?_, ?_, ?_⟩, ?_, ?_, ?_, ?_, ?_, ?_, ?_, ?_, ?_, ?_⟩ <;> first | with_reducible assumption | (dsimp only; with_reducible assumption) | with_reducible exact ringPut_wf _ _ _ _ m1 | (simp only [List.length_modify, List.length_map, List.length_set]; with_reducible assumption)))

theorem execTakeoverTime_inv {h : HalfId} {s : State} {t : State} (hs : s.Inv)
    (ht : execTakeoverTime h s = .next t) : t.Inv := by
  unfold execTakeoverTime at ht
  injection ht with ht
  rw [← ht]
  clear ht
  repeat' (first | with_reducible assumption | with_reducible refine crcCheck_inv ?_ | with_reducible refine takeoverBegin_inv ?_ | with_reducible refine half_inv ?_ _ | dsimp only | split | (obtain ⟨⟨m1, m2⟩, ⟨q1, q2, q3, q4⟩, u1, u2, u3, u4, u5, u6, u7, u8, u9, u10⟩ := hx; refine ⟨⟨?_, ?_⟩, ⟨?_, ?_, ?_, ?_⟩, ?_, ?_, ?_, ?_, ?_, ?_, ?_, ?_, ?_, ?_⟩ <;> first | with_reducible assumption | (dsimp only; with_reducible assumption) | with_reducible exact ringPut_wf _ _ _ _ m1 | (simp only [List.length_modify, List.length_map, List.length_set]; with_reducible assumption)))

/-! Dram.lean -/

theorem execDramRequest_inv {h : HalfId} {channel : Nat} {m : ScrimMoves} {ecc : EccOutcome} {s : State} {t : State}
    (hs : s.Inv) (ht : execDramRequest h channel m ecc s = .next t) : t.Inv := by
  unfold execDramRequest settled at ht
  injection ht with ht
  rw [← ht]
  clear ht
  refine settle_inv ?_
  extract_lets x s1 y
  refine ite_inv hs ?_
  have h1 : s1.Inv := upd_inv (fun x hx => markLate_inv (foldlH_inv (fun x k hx => scrimArrive_inv hx) (scrimIssue_inv hx))) hs
  refine ite_inv h1 ?_
  split
  · exact h1
  · exact dramIssue_inv h1

theorem execPageIdleTimeout_inv {h : HalfId} {channel bank : Nat} {s : State} {t : State} (hs : s.Inv)
    (ht : execPageIdleTimeout h channel bank s = .next t) : t.Inv := by
  unfold execPageIdleTimeout at ht
  injection ht with ht
  rw [← ht]
  clear ht
  repeat' (first | with_reducible assumption | with_reducible refine updChannel_inv ?_ | with_reducible refine upd_inv (fun x hx => ?_) ?_ | with_reducible refine half_inv ?_ _ | dsimp only | split | (obtain ⟨⟨m1, m2⟩, ⟨q1, q2, q3, q4⟩, u1, u2, u3, u4, u5, u6, u7, u8, u9, u10⟩ := hx; refine ⟨⟨?_, ?_⟩, ⟨?_, ?_, ?_, ?_⟩, ?_, ?_, ?_, ?_, ?_, ?_, ?_, ?_, ?_, ?_⟩ <;> first | with_reducible assumption | (dsimp only; with_reducible assumption) | with_reducible exact ringPut_wf _ _ _ _ m1 | (simp only [List.length_modify, List.length_map, List.length_set]; with_reducible assumption)))

theorem execDramRefresh_inv {h : HalfId} {channel : Nat} {s : State} {t : State} (hs : s.Inv)
    (ht : execDramRefresh h channel s = .next t) : t.Inv := by
  unfold execDramRefresh at ht
  injection ht with ht
  rw [← ht]
  clear ht
  repeat' (first | with_reducible assumption | with_reducible refine updChannel_inv ?_ | with_reducible refine upd_inv (fun x hx => ?_) ?_ | with_reducible refine half_inv ?_ _ | dsimp only | split | (obtain ⟨⟨m1, m2⟩, ⟨q1, q2, q3, q4⟩, u1, u2, u3, u4, u5, u6, u7, u8, u9, u10⟩ := hx; refine ⟨⟨?_, ?_⟩, ⟨?_, ?_, ?_, ?_⟩, ?_, ?_, ?_, ?_, ?_, ?_, ?_, ?_, ?_, ?_⟩ <;> first | with_reducible assumption | (dsimp only; with_reducible assumption) | with_reducible exact ringPut_wf _ _ _ _ m1 | (simp only [List.length_modify, List.length_map, List.length_set]; with_reducible assumption)))

theorem execRefreshWindowEnd_inv {h : HalfId} {channel : Nat} {s : State} {t : State} (hs : s.Inv)
    (ht : execRefreshWindowEnd h channel s = .next t) : t.Inv := by
  unfold execRefreshWindowEnd at ht
  injection ht with ht
  rw [← ht]
  clear ht
  repeat' (first | with_reducible assumption | with_reducible refine updChannel_inv ?_ | with_reducible refine upd_inv (fun x hx => ?_) ?_ | with_reducible refine half_inv ?_ _ | dsimp only | split | (obtain ⟨⟨m1, m2⟩, ⟨q1, q2, q3, q4⟩, u1, u2, u3, u4, u5, u6, u7, u8, u9, u10⟩ := hx; refine ⟨⟨?_, ?_⟩, ⟨?_, ?_, ?_, ?_⟩, ?_, ?_, ?_, ?_, ?_, ?_, ?_, ?_, ?_, ?_⟩ <;> first | with_reducible assumption | (dsimp only; with_reducible assumption) | with_reducible exact ringPut_wf _ _ _ _ m1 | (simp only [List.length_modify, List.length_map, List.length_set]; with_reducible assumption)))

theorem execMr4Poll_inv {h : HalfId} {channel : Nat} {rates : List Nat} {phyTemp : Int} {s : State} {t : State} (hs : s.Inv)
    (ht : execMr4Poll h channel rates phyTemp s = .next t) : t.Inv := by
  unfold execMr4Poll at ht
  injection ht with ht
  rw [← ht]
  clear ht
  repeat' (first | with_reducible assumption | with_reducible refine updChannel_inv ?_ | with_reducible refine upd_inv (fun x hx => ?_) ?_ | with_reducible refine half_inv ?_ _ | dsimp only | split | (obtain ⟨⟨m1, m2⟩, ⟨q1, q2, q3, q4⟩, u1, u2, u3, u4, u5, u6, u7, u8, u9, u10⟩ := hx; refine ⟨⟨?_, ?_⟩, ⟨?_, ?_, ?_, ?_⟩, ?_, ?_, ?_, ?_, ?_, ?_, ?_, ?_, ?_, ?_⟩ <;> first | with_reducible assumption | (dsimp only; with_reducible assumption) | with_reducible exact ringPut_wf _ _ _ _ m1 | (simp only [List.length_modify, List.length_map, List.length_set]; with_reducible assumption)))

theorem execScrubStep_inv {h : HalfId} {channel : Nat} {ecc : EccOutcome} {word : Nat} {s : State} {t : State} (hs : s.Inv)
    (ht : execScrubStep h channel ecc word s = .next t) : t.Inv := by
  unfold execScrubStep settled at ht
  injection ht with ht
  rw [← ht]
  clear ht
  repeat' (first | with_reducible assumption | with_reducible refine disarm_inv ?_ | with_reducible refine picsEnd_inv ?_ | with_reducible refine updChannel_inv ?_ | with_reducible refine eccApply_inv ?_ | with_reducible refine scrubLap_inv ?_ | with_reducible refine settle_inv ?_ | with_reducible refine upd_inv (fun x hx => ?_) ?_ | with_reducible refine half_inv ?_ _ | dsimp only | split | (obtain ⟨⟨m1, m2⟩, ⟨q1, q2, q3, q4⟩, u1, u2, u3, u4, u5, u6, u7, u8, u9, u10⟩ := hx; refine ⟨⟨?_, ?_⟩, ⟨?_, ?_, ?_, ?_⟩, ?_, ?_, ?_, ?_, ?_, ?_, ?_, ?_, ?_, ?_⟩ <;> first | with_reducible assumption | (dsimp only; with_reducible assumption) | with_reducible exact ringPut_wf _ _ _ _ m1 | (simp only [List.length_modify, List.length_map, List.length_set]; with_reducible assumption)))

theorem execZeroFillDone_inv {h : HalfId} {block : Nat} {s : State} {t : State} (hs : s.Inv)
    (ht : execZeroFillDone h block s = .next t) : t.Inv := by
  unfold execZeroFillDone at ht
  injection ht with ht
  rw [← ht]
  clear ht
  repeat' (first | with_reducible assumption | with_reducible refine fillEnd_inv ?_ | with_reducible refine upd_inv (fun x hx => ?_) ?_ | with_reducible refine half_inv ?_ _ | dsimp only | split | (obtain ⟨⟨m1, m2⟩, ⟨q1, q2, q3, q4⟩, u1, u2, u3, u4, u5, u6, u7, u8, u9, u10⟩ := hx; refine ⟨⟨?_, ?_⟩, ⟨?_, ?_, ?_, ?_⟩, ?_, ?_, ?_, ?_, ?_, ?_, ?_, ?_, ?_, ?_⟩ <;> first | with_reducible assumption | (dsimp only; with_reducible assumption) | with_reducible exact ringPut_wf _ _ _ _ m1 | (simp only [List.length_modify, List.length_map, List.length_set]; with_reducible assumption)))

theorem execRetrainStart_inv {h : HalfId} {channel : Nat} {s : State} {t : State} (hs : s.Inv)
    (ht : execRetrainStart h channel s = .next t) : t.Inv := by
  unfold execRetrainStart at ht
  injection ht with ht
  rw [← ht]
  clear ht
  extract_lets +onlyGivenNames x q reached
  have hr : (s.upd h (retrainRun channel)).Inv := upd_inv (fun x hx => retrainRun_inv hx) hs
  split
  · exact hs
  split
  · exact hr
  split
  · exact hs
  split
  · exact hs
  split
  · exact hr
  split
  · exact hs
  · exact asrRequest_inv (upd_inv (fun x hx => updTrain_inv hx) hs)

theorem execRetrainDone_inv {h : HalfId} {channel : Nat} {lanes : List LaneSweep} {s : State} {t : State} (hs : s.Inv)
    (ht : execRetrainDone h channel lanes s = .next t) : t.Inv := by
  unfold execRetrainDone settled at ht
  injection ht with ht
  rw [← ht]
  clear ht
  repeat' (first | with_reducible assumption | with_reducible refine latchHw_inv ?_ | with_reducible refine event_inv ?_ | with_reducible refine evacBegin_inv ?_ | with_reducible refine updTrain_inv ?_ | with_reducible refine settle_inv ?_ | with_reducible refine upd_inv (fun x hx => ?_) ?_ | with_reducible refine half_inv ?_ _ | dsimp only | split | (obtain ⟨⟨m1, m2⟩, ⟨q1, q2, q3, q4⟩, u1, u2, u3, u4, u5, u6, u7, u8, u9, u10⟩ := hx; refine ⟨⟨?_, ?_⟩, ⟨?_, ?_, ?_, ?_⟩, ?_, ?_, ?_, ?_, ?_, ?_, ?_, ?_, ?_, ?_⟩ <;> first | with_reducible assumption | (dsimp only; with_reducible assumption) | with_reducible exact ringPut_wf _ _ _ _ m1 | (simp only [List.length_modify, List.length_map, List.length_set]; with_reducible assumption)))

theorem execRetrainDeadline_inv {h : HalfId} {channel : Nat} {s : State} {t : State} (hs : s.Inv)
    (ht : execRetrainDeadline h channel s = .next t) : t.Inv := by
  unfold execRetrainDeadline at ht
  injection ht with ht
  rw [← ht]
  clear ht
  repeat' (first | with_reducible assumption | with_reducible refine assistLate_inv ?_ | with_reducible refine updTrain_inv ?_ | with_reducible refine retrainRun_inv ?_ | with_reducible refine upd_inv (fun x hx => ?_) ?_ | with_reducible refine half_inv ?_ _ | dsimp only | split | (obtain ⟨⟨m1, m2⟩, ⟨q1, q2, q3, q4⟩, u1, u2, u3, u4, u5, u6, u7, u8, u9, u10⟩ := hx; refine ⟨⟨?_, ?_⟩, ⟨?_, ?_, ?_, ?_⟩, ?_, ?_, ?_, ?_, ?_, ?_, ?_, ?_, ?_, ?_⟩ <;> first | with_reducible assumption | (dsimp only; with_reducible assumption) | with_reducible exact ringPut_wf _ _ _ _ m1 | (simp only [List.length_modify, List.length_map, List.length_set]; with_reducible assumption)))

theorem execRetrainTime_inv {h : HalfId} {a : AssistEntry} {s : State} {t : State} (hs : s.Inv)
    (ht : execRetrainTime h a s = .next t) : t.Inv := by
  unfold execRetrainTime at ht
  injection ht with ht
  rw [← ht]
  clear ht
  repeat' (first | with_reducible assumption | with_reducible refine assistLate_inv ?_ | with_reducible refine updTrain_inv ?_ | with_reducible refine retrainRun_inv ?_ | with_reducible refine upd_inv (fun x hx => ?_) ?_ | with_reducible refine runAssist_inv (fun p s hs => ?_) ?_ | with_reducible refine half_inv ?_ _ | dsimp only | split | (obtain ⟨⟨m1, m2⟩, ⟨q1, q2, q3, q4⟩, u1, u2, u3, u4, u5, u6, u7, u8, u9, u10⟩ := hx; refine ⟨⟨?_, ?_⟩, ⟨?_, ?_, ?_, ?_⟩, ?_, ?_, ?_, ?_, ?_, ?_, ?_, ?_, ?_, ?_⟩ <;> first | with_reducible assumption | (dsimp only; with_reducible assumption) | with_reducible exact ringPut_wf _ _ _ _ m1 | (simp only [List.length_modify, List.length_map, List.length_set]; with_reducible assumption)))

theorem execChannelRetrain_inv {h : HalfId} {e : CmdEntry} {s : State} {t : State} (hs : s.Inv)
    (ht : execChannelRetrain h e s = .next t) : t.Inv := by
  unfold execChannelRetrain at ht
  injection ht with ht
  rw [← ht]
  clear ht
  repeat' (first | with_reducible assumption | with_reducible refine Reply.ok_inv ?_ | with_reducible refine retrainRun_inv ?_ | with_reducible refine upd_inv (fun x hx => ?_) ?_ | with_reducible refine guarded_inv ?_ ?_ | with_reducible refine runCmd_inv (fun s hs => ?_) ?_ | with_reducible refine half_inv ?_ _ | dsimp only | split | (obtain ⟨⟨m1, m2⟩, ⟨q1, q2, q3, q4⟩, u1, u2, u3, u4, u5, u6, u7, u8, u9, u10⟩ := hx; refine ⟨⟨?_, ?_⟩, ⟨?_, ?_, ?_, ?_⟩, ?_, ?_, ?_, ?_, ?_, ?_, ?_, ?_, ?_, ?_⟩ <;> first | with_reducible assumption | (dsimp only; with_reducible assumption) | with_reducible exact ringPut_wf _ _ _ _ m1 | (simp only [List.length_modify, List.length_map, List.length_set]; with_reducible assumption)))

theorem execRegionCopyDone_inv {h : HalfId} {region : Nat} {s : State} {t : State} (hs : s.Inv)
    (ht : execRegionCopyDone h region s = .next t) : t.Inv := by
  unfold execRegionCopyDone settled at ht
  injection ht with ht
  rw [← ht]
  clear ht
  repeat' (first | with_reducible assumption | with_reducible refine regionCopied_inv ?_ | with_reducible refine settle_inv ?_ | with_reducible refine half_inv ?_ _ | dsimp only | split | (obtain ⟨⟨m1, m2⟩, ⟨q1, q2, q3, q4⟩, u1, u2, u3, u4, u5, u6, u7, u8, u9, u10⟩ := hx; refine ⟨⟨?_, ?_⟩, ⟨?_, ?_, ?_, ?_⟩, ?_, ?_, ?_, ?_, ?_, ?_, ?_, ?_, ?_, ?_⟩ <;> first | with_reducible assumption | (dsimp only; with_reducible assumption) | with_reducible exact ringPut_wf _ _ _ _ m1 | (simp only [List.length_modify, List.length_map, List.length_set]; with_reducible assumption)))

theorem execReserveMoved_inv {h : HalfId} {s : State} {t : State} (hs : s.Inv)
    (ht : execReserveMoved h s = .next t) : t.Inv := by
  unfold execReserveMoved settled at ht
  injection ht with ht
  rw [← ht]
  clear ht
  repeat' (first | with_reducible assumption | with_reducible refine event_inv ?_ | with_reducible refine settle_inv ?_ | with_reducible refine upd_inv (fun x hx => ?_) ?_ | with_reducible refine half_inv ?_ _ | dsimp only | split | (obtain ⟨⟨m1, m2⟩, ⟨q1, q2, q3, q4⟩, u1, u2, u3, u4, u5, u6, u7, u8, u9, u10⟩ := hx; refine ⟨⟨?_, ?_⟩, ⟨?_, ?_, ?_, ?_⟩, ?_, ?_, ?_, ?_, ?_, ?_, ?_, ?_, ?_, ?_⟩ <;> first | with_reducible assumption | (dsimp only; with_reducible assumption) | with_reducible exact ringPut_wf _ _ _ _ m1 | (simp only [List.length_modify, List.length_map, List.length_set]; with_reducible assumption)))

theorem execChannelInspect_inv {h : HalfId} {e : CmdEntry} {b : BusResult} {s : State} {t : State} (hs : s.Inv)
    (ht : execChannelInspect h e b s = .next t) : t.Inv := by
  unfold execChannelInspect at ht
  injection ht with ht
  rw [← ht]
  clear ht
  repeat' (first | with_reducible assumption | with_reducible refine Reply.fail_inv ?_ | with_reducible refine guarded_inv ?_ ?_ | with_reducible refine runCmd_inv (fun s hs => ?_) ?_ | with_reducible refine replyBuffer_inv (fun s hs => ?_) ?_ | with_reducible refine half_inv ?_ _ | with_reducible refine id_inv ?_ | with_reducible refine idH_inv ?_ | dsimp only | split | (obtain ⟨⟨m1, m2⟩, ⟨q1, q2, q3, q4⟩, u1, u2, u3, u4, u5, u6, u7, u8, u9, u10⟩ := hx; refine ⟨⟨?_, ?_⟩, ⟨?_, ?_, ?_, ?_⟩, ?_, ?_, ?_, ?_, ?_, ?_, ?_, ?_, ?_, ?_⟩ <;> first | with_reducible assumption | (dsimp only; with_reducible assumption) | with_reducible exact ringPut_wf _ _ _ _ m1 | (simp only [List.length_modify, List.length_map, List.length_set]; with_reducible assumption)))

theorem execBlockRetire_inv {h : HalfId} {e : CmdEntry} {s : State} {t : State} (hs : s.Inv)
    (ht : execBlockRetire h e s = .next t) : t.Inv := by
  unfold execBlockRetire at ht
  injection ht with ht
  rw [← ht]
  clear ht
  repeat' (first | with_reducible assumption | with_reducible refine Reply.ok_inv ?_ | with_reducible refine updChannel_inv ?_ | with_reducible refine settle_inv ?_ | with_reducible refine leaveBlocks_inv ?_ | with_reducible refine upd_inv (fun x hx => ?_) ?_ | with_reducible refine guarded_inv ?_ ?_ | with_reducible refine runCmd_inv (fun s hs => ?_) ?_ | with_reducible refine half_inv ?_ _ | dsimp only | split | (obtain ⟨⟨m1, m2⟩, ⟨q1, q2, q3, q4⟩, u1, u2, u3, u4, u5, u6, u7, u8, u9, u10⟩ := hx; refine ⟨⟨?_, ?_⟩, ⟨?_, ?_, ?_, ?_⟩, ?_, ?_, ?_, ?_, ?_, ?_, ?_, ?_, ?_, ?_⟩ <;> first | with_reducible assumption | (dsimp only; with_reducible assumption) | with_reducible exact ringPut_wf _ _ _ _ m1 | (simp only [List.length_modify, List.length_map, List.length_set]; with_reducible assumption)))

theorem execChannelThaw_inv {h : HalfId} {e : CmdEntry} {s : State} {t : State} (hs : s.Inv)
    (ht : execChannelThaw h e s = .next t) : t.Inv := by
  unfold execChannelThaw at ht
  injection ht with ht
  rw [← ht]
  clear ht
  repeat' (first | with_reducible assumption | with_reducible refine Reply.ok_inv ?_ | with_reducible refine settle_inv ?_ | with_reducible refine leaveBlocks_inv ?_ | with_reducible refine thaw_inv ?_ | with_reducible refine Reply.fail_inv ?_ | with_reducible refine guarded_inv ?_ ?_ | with_reducible refine runCmd_inv (fun s hs => ?_) ?_ | with_reducible refine half_inv ?_ _ | dsimp only | split | (obtain ⟨⟨m1, m2⟩, ⟨q1, q2, q3, q4⟩, u1, u2, u3, u4, u5, u6, u7, u8, u9, u10⟩ := hx; refine ⟨⟨?_, ?_⟩, ⟨?_, ?_, ?_, ?_⟩, ?_, ?_, ?_, ?_, ?_, ?_, ?_, ?_, ?_, ?_⟩ <;> first | with_reducible assumption | (dsimp only; with_reducible assumption) | with_reducible exact ringPut_wf _ _ _ _ m1 | (simp only [List.length_modify, List.length_map, List.length_set]; with_reducible assumption)))

/-! Faults.lean -/

theorem execFaultLatched_inv {h : HalfId} {r : FaultReport} {s : State} {t : State} (hs : s.Inv)
    (ht : execFaultLatched h r s = .next t) : t.Inv := by
  unfold execFaultLatched settled at ht
  injection ht with ht
  rw [← ht]
  clear ht
  refine settle_inv ?_
  split
  · refine ite_inv hs ?_
    extract_lets met
    have hm : met.1.Inv := crossingMeets_inv hs
    split
    · exact pinRises_inv hm
    · exact hm
  · exact flitFails_inv hs
  · exact ite_inv hs (pinRises_inv hs)

theorem execFaultRead_inv {h : HalfId} {e : CmdEntry} {b : BusResult} {s : State} {t : State} (hs : s.Inv)
    (ht : execFaultRead h e b s = .next t) : t.Inv := by
  unfold execFaultRead at ht
  injection ht with ht
  rw [← ht]
  clear ht
  repeat' (first | with_reducible assumption | with_reducible refine Reply.ok_inv ?_ | with_reducible refine faultTaken_inv ?_ | with_reducible refine guarded_inv ?_ ?_ | with_reducible refine runCmd_inv (fun s hs => ?_) ?_ | with_reducible refine replyBuffer_inv (fun s hs => ?_) ?_ | with_reducible refine half_inv ?_ _ | with_reducible refine id_inv ?_ | with_reducible refine idH_inv ?_ | dsimp only | split | (obtain ⟨⟨m1, m2⟩, ⟨q1, q2, q3, q4⟩, u1, u2, u3, u4, u5, u6, u7, u8, u9, u10⟩ := hx; refine ⟨⟨?_, ?_⟩, ⟨?_, ?_, ?_, ?_⟩, ?_, ?_, ?_, ?_, ?_, ?_, ?_, ?_, ?_, ?_⟩ <;> first | with_reducible assumption | (dsimp only; with_reducible assumption) | with_reducible exact ringPut_wf _ _ _ _ m1 | (simp only [List.length_modify, List.length_map, List.length_set]; with_reducible assumption)))

theorem execFaultClear_inv {h : HalfId} {e : CmdEntry} {s : State} {t : State} (hs : s.Inv)
    (ht : execFaultClear h e s = .next t) : t.Inv := by
  unfold execFaultClear at ht
  injection ht with ht
  rw [← ht]
  clear ht
  repeat' (first | with_reducible assumption | with_reducible refine icuWithdraw_inv ?_ | with_reducible refine Reply.ok_inv ?_ | with_reducible refine upd_inv (fun x hx => ?_) ?_ | with_reducible refine foldl_inv (fun s a hs => ?_) ?_ | with_reducible refine foldlH_inv (fun x a hx => ?_) ?_ | with_reducible refine foldl_fst_inv (fun s a hs => ?_) ?_ | with_reducible refine runCmd_inv (fun s hs => ?_) ?_ | with_reducible refine half_inv ?_ _ | dsimp only | split | (obtain ⟨⟨m1, m2⟩, ⟨q1, q2, q3, q4⟩, u1, u2, u3, u4, u5, u6, u7, u8, u9, u10⟩ := hx; refine ⟨⟨?_, ?_⟩, ⟨?_, ?_, ?_, ?_⟩, ?_, ?_, ?_, ?_, ?_, ?_, ?_, ?_, ?_, ?_⟩ <;> first | with_reducible assumption | (dsimp only; with_reducible assumption) | with_reducible exact ringPut_wf _ _ _ _ m1 | (simp only [List.length_modify, List.length_map, List.length_set]; with_reducible assumption)))

theorem flt_inv {x : Half} {f : FaultSt} (hx : x.Inv) : ({ x with flt := f } : Half).Inv := hx

theorem execFaultInject_inv {h : HalfId} {e : CmdEntry} {s : State} {t : State} (hs : s.Inv)
    (ht : execFaultInject h e s = .next t) : t.Inv := by
  unfold execFaultInject at ht
  injection ht with ht
  rw [← ht]
  clear ht
  refine runCmd_inv (fun u hu => ?_) hs
  extract_lets +onlyGivenNames c mask
  refine guarded_inv (Reply.ok_inv (upd_inv (fun x hx => ?_) hu)) hu
  extract_lets +onlyGivenNames y
  split
  · exact disarm_inv hx
  · exact flt_inv (disarm_inv hx)

theorem execFaultAction_inv {h : HalfId} {e : CmdEntry} {s : State} {t : State} (hs : s.Inv)
    (ht : execFaultAction h e s = .next t) : t.Inv := by
  unfold execFaultAction at ht
  injection ht with ht
  rw [← ht]
  clear ht
  repeat' (first | with_reducible assumption | with_reducible refine Reply.ok_inv ?_ | with_reducible refine retireSource_inv ?_ | with_reducible refine restartSource_inv ?_ | with_reducible refine settle_inv ?_ | with_reducible refine decided_inv ?_ | with_reducible refine upd_inv (fun x hx => ?_) ?_ | with_reducible refine guarded_inv ?_ ?_ | with_reducible refine runCmd_inv (fun s hs => ?_) ?_ | with_reducible refine half_inv ?_ _ | dsimp only | split | (obtain ⟨⟨m1, m2⟩, ⟨q1, q2, q3, q4⟩, u1, u2, u3, u4, u5, u6, u7, u8, u9, u10⟩ := hx; refine ⟨⟨?_, ?_⟩, ⟨?_, ?_, ?_, ?_⟩, ?_, ?_, ?_, ?_, ?_, ?_, ?_, ?_, ?_, ?_⟩ <;> first | with_reducible assumption | (dsimp only; with_reducible assumption) | with_reducible exact ringPut_wf _ _ _ _ m1 | (simp only [List.length_modify, List.length_map, List.length_set]; with_reducible assumption)))

theorem execReactionDefaulted_inv {h : HalfId} {source : Nat} {s : State} {t : State} (hs : s.Inv)
    (ht : execReactionDefaulted h source s = .next t) : t.Inv := by
  unfold execReactionDefaulted settled at ht
  injection ht with ht
  rw [← ht]
  clear ht
  repeat' (first | with_reducible assumption | with_reducible refine event_inv ?_ | with_reducible refine reactSecond_inv ?_ | with_reducible refine decided_inv ?_ | with_reducible refine settle_inv ?_ | with_reducible refine upd_inv (fun x hx => ?_) ?_ | with_reducible refine half_inv ?_ _ | dsimp only | split | (obtain ⟨⟨m1, m2⟩, ⟨q1, q2, q3, q4⟩, u1, u2, u3, u4, u5, u6, u7, u8, u9, u10⟩ := hx; refine ⟨⟨?_, ?_⟩, ⟨?_, ?_, ?_, ?_⟩, ?_, ?_, ?_, ?_, ?_, ?_, ?_, ?_, ?_, ?_⟩ <;> first | with_reducible assumption | (dsimp only; with_reducible assumption) | with_reducible exact ringPut_wf _ _ _ _ m1 | (simp only [List.length_modify, List.length_map, List.length_set]; with_reducible assumption)))

theorem execUnitRetire_inv {h : HalfId} {e : CmdEntry} {s : State} {t : State} (hs : s.Inv)
    (ht : execUnitRetire h e s = .next t) : t.Inv := by
  unfold execUnitRetire at ht
  injection ht with ht
  rw [← ht]
  clear ht
  repeat' (first | with_reducible assumption | with_reducible refine Reply.ok_inv ?_ | with_reducible refine retireHalf_inv ?_ | with_reducible refine settle_inv ?_ | with_reducible refine retireNow_inv ?_ | with_reducible refine Reply.fail_inv ?_ | with_reducible refine guarded_inv ?_ ?_ | with_reducible refine runCmd_inv (fun s hs => ?_) ?_ | with_reducible refine half_inv ?_ _ | dsimp only | split | (obtain ⟨⟨m1, m2⟩, ⟨q1, q2, q3, q4⟩, u1, u2, u3, u4, u5, u6, u7, u8, u9, u10⟩ := hx; refine ⟨⟨?_, ?_⟩, ⟨?_, ?_, ?_, ?_⟩, ?_, ?_, ?_, ?_, ?_, ?_, ?_, ?_, ?_, ?_⟩ <;> first | with_reducible assumption | (dsimp only; with_reducible assumption) | with_reducible exact ringPut_wf _ _ _ _ m1 | (simp only [List.length_modify, List.length_map, List.length_set]; with_reducible assumption)))

theorem execUnitHold_inv {h : HalfId} {kind : UnitKind} {index : Nat} {s : State} {t : State} (hs : s.Inv)
    (ht : execUnitHold h kind index s = .next t) : t.Inv := by
  unfold execUnitHold settled at ht
  injection ht with ht
  rw [← ht]
  clear ht
  repeat' (first | with_reducible assumption | with_reducible refine enableClear_inv ?_ | with_reducible refine settle_inv ?_ | with_reducible refine hostWriteTo_inv (fun s hs => ?_) ?_ | with_reducible refine half_inv ?_ _ | dsimp only | split | (obtain ⟨⟨m1, m2⟩, ⟨q1, q2, q3, q4⟩, u1, u2, u3, u4, u5, u6, u7, u8, u9, u10⟩ := hx; refine ⟨⟨?_, ?_⟩, ⟨?_, ?_, ?_, ?_⟩, ?_, ?_, ?_, ?_, ?_, ?_, ?_, ?_, ?_, ?_⟩ <;> first | with_reducible assumption | (dsimp only; with_reducible assumption) | with_reducible exact ringPut_wf _ _ _ _ m1 | (simp only [List.length_modify, List.length_map, List.length_set]; with_reducible assumption)))

theorem execUnitReturn_inv {h : HalfId} {kind : UnitKind} {index : Nat} {s : State} {t : State} (hs : s.Inv)
    (ht : execUnitReturn h kind index s = .next t) : t.Inv := by
  unfold execUnitReturn settled at ht
  injection ht with ht
  rw [← ht]
  clear ht
  repeat' (first | with_reducible assumption | with_reducible refine enableSet_inv ?_ | with_reducible refine settle_inv ?_ | with_reducible refine hostWriteTo_inv (fun s hs => ?_) ?_ | with_reducible refine half_inv ?_ _ | dsimp only | split | (obtain ⟨⟨m1, m2⟩, ⟨q1, q2, q3, q4⟩, u1, u2, u3, u4, u5, u6, u7, u8, u9, u10⟩ := hx; refine ⟨⟨?_, ?_⟩, ⟨?_, ?_, ?_, ?_⟩, ?_, ?_, ?_, ?_, ?_, ?_, ?_, ?_, ?_, ?_⟩ <;> first | with_reducible assumption | (dsimp only; with_reducible assumption) | with_reducible exact ringPut_wf _ _ _ _ m1 | (simp only [List.length_modify, List.length_map, List.length_set]; with_reducible assumption)))

theorem execClockMonitorTrip_inv {h : HalfId} {island kilohertz : Nat} {s : State} {t : State} (hs : s.Inv)
    (ht : execClockMonitorTrip h island kilohertz s = .next t) : t.Inv := by
  unfold execClockMonitorTrip settled at ht
  injection ht with ht
  rw [← ht]
  clear ht
  repeat' (first | with_reducible assumption | with_reducible refine latchHw_inv ?_ | with_reducible refine event_inv ?_ | with_reducible refine updUnit_inv ?_ | with_reducible refine retirePort_inv ?_ | with_reducible refine retireHalf_inv ?_ | with_reducible refine retireChannel_inv ?_ | with_reducible refine islandHalt_inv ?_ | with_reducible refine settle_inv ?_ | with_reducible refine upd_inv (fun x hx => ?_) ?_ | with_reducible refine half_inv ?_ _ | dsimp only | split | (obtain ⟨⟨m1, m2⟩, ⟨q1, q2, q3, q4⟩, u1, u2, u3, u4, u5, u6, u7, u8, u9, u10⟩ := hx; refine ⟨⟨?_, ?_⟩, ⟨?_, ?_, ?_, ?_⟩, ?_, ?_, ?_, ?_, ?_, ?_, ?_, ?_, ?_, ?_⟩ <;> first | with_reducible assumption | (dsimp only; with_reducible assumption) | with_reducible exact ringPut_wf _ _ _ _ m1 | (simp only [List.length_modify, List.length_map, List.length_set]; with_reducible assumption)))

theorem execIslandClockRelock_inv {h : HalfId} {island : Nat} {s : State} {t : State} (hs : s.Inv)
    (ht : execIslandClockRelock h island s = .next t) : t.Inv := by
  unfold execIslandClockRelock settled at ht
  injection ht with ht
  rw [← ht]
  clear ht
  repeat' (first | with_reducible assumption | with_reducible refine updIsland_inv ?_ | with_reducible refine restartSource_inv ?_ | with_reducible refine settle_inv ?_ | with_reducible refine upd_inv (fun x hx => ?_) ?_ | with_reducible refine half_inv ?_ _ | dsimp only | split | (obtain ⟨⟨m1, m2⟩, ⟨q1, q2, q3, q4⟩, u1, u2, u3, u4, u5, u6, u7, u8, u9, u10⟩ := hx; refine ⟨⟨?_, ?_⟩, ⟨?_, ?_, ?_, ?_⟩, ?_, ?_, ?_, ?_, ?_, ?_, ?_, ?_, ?_, ?_⟩ <;> first | with_reducible assumption | (dsimp only; with_reducible assumption) | with_reducible exact ringPut_wf _ _ _ _ m1 | (simp only [List.length_modify, List.length_map, List.length_set]; with_reducible assumption)))

theorem execClockStepEvaluation_inv {h : HalfId} {island depth capacity : Nat} {s : State} {t : State} (hs : s.Inv)
    (ht : execClockStepEvaluation h island depth capacity s = .next t) : t.Inv := by
  unfold execClockStepEvaluation at ht
  injection ht with ht
  rw [← ht]
  clear ht
  repeat' (first | with_reducible assumption | with_reducible refine updIsland_inv ?_ | with_reducible refine upd_inv (fun x hx => ?_) ?_ | with_reducible refine half_inv ?_ _ | dsimp only | split | (obtain ⟨⟨m1, m2⟩, ⟨q1, q2, q3, q4⟩, u1, u2, u3, u4, u5, u6, u7, u8, u9, u10⟩ := hx; refine ⟨⟨?_, ?_⟩, ⟨?_, ?_, ?_, ?_⟩, ?_, ?_, ?_, ?_, ?_, ?_, ?_, ?_, ?_, ?_⟩ <;> first | with_reducible assumption | (dsimp only; with_reducible assumption) | with_reducible exact ringPut_wf _ _ _ _ m1 | (simp only [List.length_modify, List.length_map, List.length_set]; with_reducible assumption)))

theorem execIslandPowerOff_inv {h : HalfId} {island : Nat} {s : State} {t : State} (hs : s.Inv)
    (ht : execIslandPowerOff h island s = .next t) : t.Inv := by
  unfold execIslandPowerOff at ht
  injection ht with ht
  rw [← ht]
  clear ht
  repeat' (first | with_reducible assumption | with_reducible refine updIsland_inv ?_ | with_reducible refine upd_inv (fun x hx => ?_) ?_ | with_reducible refine half_inv ?_ _ | dsimp only | split | (obtain ⟨⟨m1, m2⟩, ⟨q1, q2, q3, q4⟩, u1, u2, u3, u4, u5, u6, u7, u8, u9, u10⟩ := hx; refine ⟨⟨?_, ?_⟩, ⟨?_, ?_, ?_, ?_⟩, ?_, ?_, ?_, ?_, ?_, ?_, ?_, ?_, ?_, ?_⟩ <;> first | with_reducible assumption | (dsimp only; with_reducible assumption) | with_reducible exact ringPut_wf _ _ _ _ m1 | (simp only [List.length_modify, List.length_map, List.length_set]; with_reducible assumption)))

theorem execIslandPowerUp_inv {h : HalfId} {island : Nat} {s : State} {t : State} (hs : s.Inv)
    (ht : execIslandPowerUp h island s = .next t) : t.Inv := by
  unfold execIslandPowerUp at ht
  injection ht with ht
  rw [← ht]
  clear ht
  repeat' (first | with_reducible assumption | with_reducible refine count_inv ?_ | with_reducible refine updIsland_inv ?_ | with_reducible refine upd_inv (fun x hx => ?_) ?_ | with_reducible refine half_inv ?_ _ | dsimp only | split | (obtain ⟨⟨m1, m2⟩, ⟨q1, q2, q3, q4⟩, u1, u2, u3, u4, u5, u6, u7, u8, u9, u10⟩ := hx; refine ⟨⟨?_, ?_⟩, ⟨?_, ?_, ?_, ?_⟩, ?_, ?_, ?_, ?_, ?_, ?_, ?_, ?_, ?_, ?_⟩ <;> first | with_reducible assumption | (dsimp only; with_reducible assumption) | with_reducible exact ringPut_wf _ _ _ _ m1 | (simp only [List.length_modify, List.length_map, List.length_set]; with_reducible assumption)))

/-! Sequencers.lean -/

theorem execSafePoint_inv {h : HalfId} {block : Nat} {s : State} {t : State} (hs : s.Inv)
    (ht : execSafePoint h block s = .next t) : t.Inv := by
  unfold execSafePoint settled at ht
  injection ht with ht
  rw [← ht]
  clear ht
  repeat' (first | with_reducible assumption | with_reducible refine safePointDo_inv ?_ | with_reducible refine settle_inv ?_ | with_reducible refine half_inv ?_ _ | dsimp only | split | (obtain ⟨⟨m1, m2⟩, ⟨q1, q2, q3, q4⟩, u1, u2, u3, u4, u5, u6, u7, u8, u9, u10⟩ := hx; refine ⟨⟨?_, ?_⟩, ⟨?_, ?_, ?_, ?_⟩, ?_, ?_, ?_, ?_, ?_, ?_, ?_, ?_, ?_, ?_⟩ <;> first | with_reducible assumption | (dsimp only; with_reducible assumption) | with_reducible exact ringPut_wf _ _ _ _ m1 | (simp only [List.length_modify, List.length_map, List.length_set]; with_reducible assumption)))

theorem execMachineCheck_inv {h : HalfId} {block : Nat} {condition : Bool} {ctuType ctu : Nat} {stalled : Bool} {upset : BitVec 152} {s : State} {t : State} (hs : s.Inv)
    (ht : execMachineCheck h block condition ctuType ctu stalled upset s = .next t) : t.Inv := by
  unfold execMachineCheck settled at ht
  injection ht with ht
  rw [← ht]
  clear ht
  repeat' (first | with_reducible assumption | with_reducible refine updUnit_inv ?_ | with_reducible refine safePointDo_inv ?_ | with_reducible refine fetchDo_inv ?_ | with_reducible refine settle_inv ?_ | with_reducible refine upd_inv (fun x hx => ?_) ?_ | with_reducible refine half_inv ?_ _ | dsimp only | split | (obtain ⟨⟨m1, m2⟩, ⟨q1, q2, q3, q4⟩, u1, u2, u3, u4, u5, u6, u7, u8, u9, u10⟩ := hx; refine ⟨⟨?_, ?_⟩, ⟨?_, ?_, ?_, ?_⟩, ?_, ?_, ?_, ?_, ?_, ?_, ?_, ?_, ?_, ?_⟩ <;> first | with_reducible assumption | (dsimp only; with_reducible assumption) | with_reducible exact ringPut_wf _ _ _ _ m1 | (simp only [List.length_modify, List.length_map, List.length_set]; with_reducible assumption)))

theorem execStoreReloaded_inv {h : HalfId} {block : Nat} {fetched : Option SignedItem} {readBackFails : Nat} {s : State} {t : State} (hs : s.Inv)
    (ht : execStoreReloaded h block fetched readBackFails s = .next t) : t.Inv := by
  unfold execStoreReloaded settled at ht
  injection ht with ht
  rw [← ht]
  clear ht
  repeat' (first | with_reducible assumption | with_reducible refine latchHw_inv ?_ | with_reducible refine event_inv ?_ | with_reducible refine updUnit_inv ?_ | with_reducible refine restartSource_inv ?_ | with_reducible refine settle_inv ?_ | with_reducible refine upd_inv (fun x hx => ?_) ?_ | with_reducible refine foldl_inv (fun s a hs => ?_) ?_ | with_reducible refine foldlH_inv (fun x a hx => ?_) ?_ | with_reducible refine foldl_fst_inv (fun s a hs => ?_) ?_ | with_reducible refine half_inv ?_ _ | dsimp only | split | (obtain ⟨⟨m1, m2⟩, ⟨q1, q2, q3, q4⟩, u1, u2, u3, u4, u5, u6, u7, u8, u9, u10⟩ := hx; refine ⟨⟨?_, ?_⟩, ⟨?_, ?_, ?_, ?_⟩, ?_, ?_, ?_, ?_, ?_, ?_, ?_, ?_, ?_, ?_⟩ <;> first | with_reducible assumption | (dsimp only; with_reducible assumption) | with_reducible exact ringPut_wf _ _ _ _ m1 | (simp only [List.length_modify, List.length_map, List.length_set]; with_reducible assumption)))

theorem execReadbackRound_inv {h : HalfId} {upsets : List (Nat × Nat × BitVec 152)} {s : State} {t : State} (hs : s.Inv)
    (ht : execReadbackRound h upsets s = .next t) : t.Inv := by
  unfold execReadbackRound settled at ht
  injection ht with ht
  rw [← ht]
  clear ht
  repeat' (first | with_reducible assumption | with_reducible refine updUnit_inv ?_ | with_reducible refine readBackUnit_inv ?_ | with_reducible refine settle_inv ?_ | with_reducible refine upd_inv (fun x hx => ?_) ?_ | with_reducible refine foldl_inv (fun s a hs => ?_) ?_ | with_reducible refine foldlH_inv (fun x a hx => ?_) ?_ | with_reducible refine foldl_fst_inv (fun s a hs => ?_) ?_ | with_reducible refine half_inv ?_ _ | dsimp only | split | (obtain ⟨⟨m1, m2⟩, ⟨q1, q2, q3, q4⟩, u1, u2, u3, u4, u5, u6, u7, u8, u9, u10⟩ := hx; refine ⟨⟨?_, ?_⟩, ⟨?_, ?_, ?_, ?_⟩, ?_, ?_, ?_, ?_, ?_, ?_, ?_, ?_, ?_, ?_⟩ <;> first | with_reducible assumption | (dsimp only; with_reducible assumption) | with_reducible exact ringPut_wf _ _ _ _ m1 | (simp only [List.length_modify, List.length_map, List.length_set]; with_reducible assumption)))

theorem execSeqTrace_inv {h : HalfId} {e : CmdEntry} {s : State} {t : State} (hs : s.Inv)
    (ht : execSeqTrace h e s = .next t) : t.Inv := by
  unfold execSeqTrace at ht
  injection ht with ht
  rw [← ht]
  clear ht
  refine runCmd_inv (fun u hu => ?_) hs
  extract_lets +onlyGivenNames x block mode region off size src on tr
  refine guarded_inv (Reply.ok_inv (upd_inv (fun x hx => ?_) hu)) hu
  split
  · exact trace_inv (blocks_len hx) hx
  · extract_lets +onlyGivenNames y
    have hy : y.Inv := by
      show Half.Inv (match traceBase x tr with
        | some a => if onFrozen x a then x else devWrite a (traceHeader tr) x
        | none => x)
      split
      · split
        · exact hx
        · exact devWrite_inv hx
      · exact hx
    exact trace_inv (blocks_len hy) hy

theorem execSeqHistory_inv {h : HalfId} {e : CmdEntry} {b : BusResult} {s : State} {t : State} (hs : s.Inv)
    (ht : execSeqHistory h e b s = .next t) : t.Inv := by
  unfold execSeqHistory at ht
  injection ht with ht
  rw [← ht]
  clear ht
  repeat' (first | with_reducible assumption | with_reducible refine guarded_inv ?_ ?_ | with_reducible refine runCmd_inv (fun s hs => ?_) ?_ | with_reducible refine replyBuffer_inv (fun s hs => ?_) ?_ | with_reducible refine half_inv ?_ _ | with_reducible refine id_inv ?_ | with_reducible refine idH_inv ?_ | dsimp only | split | (obtain ⟨⟨m1, m2⟩, ⟨q1, q2, q3, q4⟩, u1, u2, u3, u4, u5, u6, u7, u8, u9, u10⟩ := hx; refine ⟨⟨?_, ?_⟩, ⟨?_, ?_, ?_, ?_⟩, ?_, ?_, ?_, ?_, ?_, ?_, ?_, ?_, ?_, ?_⟩ <;> first | with_reducible assumption | (dsimp only; with_reducible assumption) | with_reducible exact ringPut_wf _ _ _ _ m1 | (simp only [List.length_modify, List.length_map, List.length_set]; with_reducible assumption)))

theorem execDiagDump_inv {h : HalfId} {e : CmdEntry} {s : State} {t : State} (hs : s.Inv)
    (ht : execDiagDump h e s = .next t) : t.Inv := by
  unfold execDiagDump at ht
  injection ht with ht
  rw [← ht]
  clear ht
  repeat' (first | with_reducible assumption | with_reducible refine Reply.later_inv ?_ | with_reducible refine addDeferred_inv ?_ | with_reducible refine guarded_inv ?_ ?_ | with_reducible refine runCmd_inv (fun s hs => ?_) ?_ | with_reducible refine half_inv ?_ _ | dsimp only | split | (obtain ⟨⟨m1, m2⟩, ⟨q1, q2, q3, q4⟩, u1, u2, u3, u4, u5, u6, u7, u8, u9, u10⟩ := hx; refine ⟨⟨?_, ?_⟩, ⟨?_, ?_, ?_, ?_⟩, ?_, ?_, ?_, ?_, ?_, ?_, ?_, ?_, ?_, ?_⟩ <;> first | with_reducible assumption | (dsimp only; with_reducible assumption) | with_reducible exact ringPut_wf _ _ _ _ m1 | (simp only [List.length_modify, List.length_map, List.length_set]; with_reducible assumption)))

/-! Bridle.lean -/

theorem execBridleClaimReceived_inv {h : HalfId} {claim : Bool} {epoch : W32} {s : State} {t : State} (hs : s.Inv)
    (ht : execBridleClaimReceived h claim epoch s = .next t) : t.Inv := by
  unfold execBridleClaimReceived at ht
  injection ht with ht
  rw [← ht]
  clear ht
  repeat' (first | with_reducible assumption | with_reducible refine updBri_inv ?_ | with_reducible refine askLead_inv ?_ | with_reducible refine conflictDo_inv ?_ | with_reducible refine upd_inv (fun x hx => ?_) ?_ | with_reducible refine half_inv ?_ _ | dsimp only | split | (obtain ⟨⟨m1, m2⟩, ⟨q1, q2, q3, q4⟩, u1, u2, u3, u4, u5, u6, u7, u8, u9, u10⟩ := hx; refine ⟨⟨?_, ?_⟩, ⟨?_, ?_, ?_, ?_⟩, ?_, ?_, ?_, ?_, ?_, ?_, ?_, ?_, ?_, ?_⟩ <;> first | with_reducible assumption | (dsimp only; with_reducible assumption) | with_reducible exact ringPut_wf _ _ _ _ m1 | (simp only [List.length_modify, List.length_map, List.length_set]; with_reducible assumption)))

theorem execLeadYield_inv {h : HalfId} {e : CmdEntry} {s : State} {t : State} (hs : s.Inv)
    (ht : execLeadYield h e s = .next t) : t.Inv := by
  unfold execLeadYield at ht
  injection ht with ht
  rw [← ht]
  clear ht
  repeat' (first | with_reducible assumption | with_reducible refine latchHw_inv ?_ | with_reducible refine Reply.ok_inv ?_ | with_reducible refine ptpTakes_inv ?_ | with_reducible refine leadSet_inv ?_ | with_reducible refine guarded_inv ?_ ?_ | with_reducible refine runCmd_inv (fun s hs => ?_) ?_ | with_reducible refine half_inv ?_ _ | dsimp only | split | (obtain ⟨⟨m1, m2⟩, ⟨q1, q2, q3, q4⟩, u1, u2, u3, u4, u5, u6, u7, u8, u9, u10⟩ := hx; refine ⟨⟨?_, ?_⟩, ⟨?_, ?_, ?_, ?_⟩, ?_, ?_, ?_, ?_, ?_, ?_, ?_, ?_, ?_, ?_⟩ <;> first | with_reducible assumption | (dsimp only; with_reducible assumption) | with_reducible exact ringPut_wf _ _ _ _ m1 | (simp only [List.length_modify, List.length_map, List.length_set]; with_reducible assumption)))

theorem execLeadAssign_inv {h : HalfId} {e : CmdEntry} {s : State} {t : State} (hs : s.Inv)
    (ht : execLeadAssign h e s = .next t) : t.Inv := by
  unfold execLeadAssign at ht
  injection ht with ht
  rw [← ht]
  clear ht
  repeat' (first | with_reducible assumption | with_reducible refine Reply.ok_inv ?_ | with_reducible refine assignLead_inv ?_ | with_reducible refine guarded_inv ?_ ?_ | with_reducible refine runCmd_inv (fun s hs => ?_) ?_ | with_reducible refine half_inv ?_ _ | dsimp only | split | (obtain ⟨⟨m1, m2⟩, ⟨q1, q2, q3, q4⟩, u1, u2, u3, u4, u5, u6, u7, u8, u9, u10⟩ := hx; refine ⟨⟨?_, ?_⟩, ⟨?_, ?_, ?_, ?_⟩, ?_, ?_, ?_, ?_, ?_, ?_, ?_, ?_, ?_, ?_⟩ <;> first | with_reducible assumption | (dsimp only; with_reducible assumption) | with_reducible exact ringPut_wf _ _ _ _ m1 | (simp only [List.length_modify, List.length_map, List.length_set]; with_reducible assumption)))

theorem execBridleRead_inv {h : HalfId} {e : CmdEntry} {s : State} {t : State} (hs : s.Inv)
    (ht : execBridleRead h e s = .next t) : t.Inv := by
  unfold execBridleRead at ht
  injection ht with ht
  rw [← ht]
  clear ht
  repeat' (first | with_reducible assumption | with_reducible refine Reply.ok_inv ?_ | with_reducible refine runCmd_inv (fun s hs => ?_) ?_ | with_reducible refine half_inv ?_ _ | dsimp only | split | (obtain ⟨⟨m1, m2⟩, ⟨q1, q2, q3, q4⟩, u1, u2, u3, u4, u5, u6, u7, u8, u9, u10⟩ := hx; refine ⟨⟨?_, ?_⟩, ⟨?_, ?_, ?_, ?_⟩, ?_, ?_, ?_, ?_, ?_, ?_, ?_, ?_, ?_, ?_⟩ <;> first | with_reducible assumption | (dsimp only; with_reducible assumption) | with_reducible exact ringPut_wf _ _ _ _ m1 | (simp only [List.length_modify, List.length_map, List.length_set]; with_reducible assumption)))

theorem execLeadDecision_inv {h : HalfId} {a : AssistEntry} {s : State} {t : State} (hs : s.Inv)
    (ht : execLeadDecision h a s = .next t) : t.Inv := by
  unfold execLeadDecision at ht
  injection ht with ht
  rw [← ht]
  clear ht
  repeat' (first | with_reducible assumption | with_reducible refine assistLate_inv ?_ | with_reducible refine assignLead_inv ?_ | with_reducible refine leadDefault_inv ?_ | with_reducible refine runAssist_inv (fun p s hs => ?_) ?_ | with_reducible refine half_inv ?_ _ | dsimp only | split | (obtain ⟨⟨m1, m2⟩, ⟨q1, q2, q3, q4⟩, u1, u2, u3, u4, u5, u6, u7, u8, u9, u10⟩ := hx; refine ⟨⟨?_, ?_⟩, ⟨?_, ?_, ?_, ?_⟩, ?_, ?_, ?_, ?_, ?_, ?_, ?_, ?_, ?_, ?_⟩ <;> first | with_reducible assumption | (dsimp only; with_reducible assumption) | with_reducible exact ringPut_wf _ _ _ _ m1 | (simp only [List.length_modify, List.length_map, List.length_set]; with_reducible assumption)))

theorem execLeadDecisionDeadline_inv {h : HalfId} {s : State} {t : State} (hs : s.Inv)
    (ht : execLeadDecisionDeadline h s = .next t) : t.Inv := by
  unfold execLeadDecisionDeadline at ht
  injection ht with ht
  rw [← ht]
  clear ht
  repeat' (first | with_reducible assumption | with_reducible refine assistLate_inv ?_ | with_reducible refine leadDefault_inv ?_ | with_reducible refine half_inv ?_ _ | dsimp only | split | (obtain ⟨⟨m1, m2⟩, ⟨q1, q2, q3, q4⟩, u1, u2, u3, u4, u5, u6, u7, u8, u9, u10⟩ := hx; refine ⟨⟨?_, ?_⟩, ⟨?_, ?_, ?_, ?_⟩, ?_, ?_, ?_, ?_, ?_, ?_, ?_, ?_, ?_, ?_⟩ <;> first | with_reducible assumption | (dsimp only; with_reducible assumption) | with_reducible exact ringPut_wf _ _ _ _ m1 | (simp only [List.length_modify, List.length_map, List.length_set]; with_reducible assumption)))

theorem execPartnerTetherLost_inv {h : HalfId} {s : State} {t : State} (hs : s.Inv)
    (ht : execPartnerTetherLost h s = .next t) : t.Inv := by
  unfold execPartnerTetherLost settled at ht
  injection ht with ht
  rw [← ht]
  clear ht
  repeat' (first | with_reducible assumption | with_reducible refine latchHw_inv ?_ | with_reducible refine updBri_inv ?_ | with_reducible refine partnerGone_inv ?_ | with_reducible refine settle_inv ?_ | with_reducible refine upd_inv (fun x hx => ?_) ?_ | with_reducible refine half_inv ?_ _ | dsimp only | split | (obtain ⟨⟨m1, m2⟩, ⟨q1, q2, q3, q4⟩, u1, u2, u3, u4, u5, u6, u7, u8, u9, u10⟩ := hx; refine ⟨⟨?_, ?_⟩, ⟨?_, ?_, ?_, ?_⟩, ?_, ?_, ?_, ?_, ?_, ?_, ?_, ?_, ?_, ?_⟩ <;> first | with_reducible assumption | (dsimp only; with_reducible assumption) | with_reducible exact ringPut_wf _ _ _ _ m1 | (simp only [List.length_modify, List.length_map, List.length_set]; with_reducible assumption)))

theorem execPartnerAbsent_inv {h : HalfId} {s : State} {t : State} (hs : s.Inv)
    (ht : execPartnerAbsent h s = .next t) : t.Inv := by
  unfold execPartnerAbsent settled at ht
  injection ht with ht
  rw [← ht]
  clear ht
  repeat' (first | with_reducible assumption | with_reducible refine latchHw_inv ?_ | with_reducible refine event_inv ?_ | with_reducible refine updBri_inv ?_ | with_reducible refine leadSet_inv ?_ | with_reducible refine settle_inv ?_ | with_reducible refine upd_inv (fun x hx => ?_) ?_ | with_reducible refine half_inv ?_ _ | dsimp only | split | (obtain ⟨⟨m1, m2⟩, ⟨q1, q2, q3, q4⟩, u1, u2, u3, u4, u5, u6, u7, u8, u9, u10⟩ := hx; refine ⟨⟨?_, ?_⟩, ⟨?_, ?_, ?_, ?_⟩, ?_, ?_, ?_, ?_, ?_, ?_, ?_, ?_, ?_, ?_⟩ <;> first | with_reducible assumption | (dsimp only; with_reducible assumption) | with_reducible exact ringPut_wf _ _ _ _ m1 | (simp only [List.length_modify, List.length_map, List.length_set]; with_reducible assumption)))

theorem execPartnerSeenAlive_inv {h : HalfId} {s : State} {t : State} (hs : s.Inv)
    (ht : execPartnerSeenAlive h s = .next t) : t.Inv := by
  unfold execPartnerSeenAlive at ht
  injection ht with ht
  rw [← ht]
  clear ht
  repeat' (first | with_reducible assumption | with_reducible refine updBri_inv ?_ | with_reducible refine upd_inv (fun x hx => ?_) ?_ | with_reducible refine half_inv ?_ _ | dsimp only | split | (obtain ⟨⟨m1, m2⟩, ⟨q1, q2, q3, q4⟩, u1, u2, u3, u4, u5, u6, u7, u8, u9, u10⟩ := hx; refine ⟨⟨?_, ?_⟩, ⟨?_, ?_, ?_, ?_⟩, ?_, ?_, ?_, ?_, ?_, ?_, ?_, ?_, ?_, ?_⟩ <;> first | with_reducible assumption | (dsimp only; with_reducible assumption) | with_reducible exact ringPut_wf _ _ _ _ m1 | (simp only [List.length_modify, List.length_map, List.length_set]; with_reducible assumption)))

theorem execHalfStoppedReceived_inv {h : HalfId} {flows : List FlowSeq} {s : State} {t : State} (hs : s.Inv)
    (ht : execHalfStoppedReceived h flows s = .next t) : t.Inv := by
  unfold execHalfStoppedReceived settled at ht
  injection ht with ht
  rw [← ht]
  clear ht
  repeat' (first | with_reducible assumption | with_reducible refine updBri_inv ?_ | with_reducible refine foreignSessions_inv ?_ | with_reducible refine partnerGone_inv ?_ | with_reducible refine settle_inv ?_ | with_reducible refine upd_inv (fun x hx => ?_) ?_ | with_reducible refine half_inv ?_ _ | dsimp only | split | (obtain ⟨⟨m1, m2⟩, ⟨q1, q2, q3, q4⟩, u1, u2, u3, u4, u5, u6, u7, u8, u9, u10⟩ := hx; refine ⟨⟨?_, ?_⟩, ⟨?_, ?_, ?_, ?_⟩, ?_, ?_, ?_, ?_, ?_, ?_, ?_, ?_, ?_, ?_⟩ <;> first | with_reducible assumption | (dsimp only; with_reducible assumption) | with_reducible exact ringPut_wf _ _ _ _ m1 | (simp only [List.length_modify, List.length_map, List.length_set]; with_reducible assumption)))

theorem execTakeoverReceived_inv {h : HalfId} {s : State} {t : State} (hs : s.Inv)
    (ht : execTakeoverReceived h s = .next t) : t.Inv := by
  unfold execTakeoverReceived at ht
  injection ht with ht
  rw [← ht]
  clear ht
  repeat' (first | with_reducible assumption | with_reducible refine emit_inv ?_ | with_reducible refine updBri_inv ?_ | with_reducible refine upd_inv (fun x hx => ?_) ?_ | with_reducible refine half_inv ?_ _ | dsimp only | split | (obtain ⟨⟨m1, m2⟩, ⟨q1, q2, q3, q4⟩, u1, u2, u3, u4, u5, u6, u7, u8, u9, u10⟩ := hx; refine ⟨⟨?_, ?_⟩, ⟨?_, ?_, ?_, ?_⟩, ?_, ?_, ?_, ?_, ?_, ?_, ?_, ?_, ?_, ?_⟩ <;> first | with_reducible assumption | (dsimp only; with_reducible assumption) | with_reducible exact ringPut_wf _ _ _ _ m1 | (simp only [List.length_modify, List.length_map, List.length_set]; with_reducible assumption)))

theorem execStopAckReceived_inv {h : HalfId} {flows : List FlowSeq} {s : State} {t : State} (hs : s.Inv)
    (ht : execStopAckReceived h flows s = .next t) : t.Inv := by
  unfold execStopAckReceived settled at ht
  injection ht with ht
  rw [← ht]
  clear ht
  repeat' (first | with_reducible assumption | with_reducible refine ownSessions_inv ?_ | with_reducible refine foreignSessions_inv ?_ | with_reducible refine settle_inv ?_ | with_reducible refine half_inv ?_ _ | dsimp only | split | (obtain ⟨⟨m1, m2⟩, ⟨q1, q2, q3, q4⟩, u1, u2, u3, u4, u5, u6, u7, u8, u9, u10⟩ := hx; refine ⟨⟨?_, ?_⟩, ⟨?_, ?_, ?_, ?_⟩, ?_, ?_, ?_, ?_, ?_, ?_, ?_, ?_, ?_, ?_⟩ <;> first | with_reducible assumption | (dsimp only; with_reducible assumption) | with_reducible exact ringPut_wf _ _ _ _ m1 | (simp only [List.length_modify, List.length_map, List.length_set]; with_reducible assumption)))

theorem execTakeoverReplyTimeout_inv {h : HalfId} {s : State} {t : State} (hs : s.Inv)
    (ht : execTakeoverReplyTimeout h s = .next t) : t.Inv := by
  unfold execTakeoverReplyTimeout settled at ht
  injection ht with ht
  rw [← ht]
  clear ht
  repeat' (first | with_reducible assumption | with_reducible refine foreignSessions_inv ?_ | with_reducible refine settle_inv ?_ | with_reducible refine half_inv ?_ _ | dsimp only | split | (obtain ⟨⟨m1, m2⟩, ⟨q1, q2, q3, q4⟩, u1, u2, u3, u4, u5, u6, u7, u8, u9, u10⟩ := hx; refine ⟨⟨?_, ?_⟩, ⟨?_, ?_, ?_, ?_⟩, ?_, ?_, ?_, ?_, ?_, ?_, ?_, ?_, ?_, ?_⟩ <;> first | with_reducible assumption | (dsimp only; with_reducible assumption) | with_reducible exact ringPut_wf _ _ _ _ m1 | (simp only [List.length_modify, List.length_map, List.length_set]; with_reducible assumption)))

theorem execSparDown_inv {h : HalfId} {events : List LaneEvent} {s : State} {t : State} (hs : s.Inv)
    (ht : execSparDown h events s = .next t) : t.Inv := by
  unfold execSparDown settled at ht
  injection ht with ht
  rw [← ht]
  clear ht
  refine settle_inv (ite_inv hs ?_)
  extract_lets s1 x partner s2 s3
  have h1 : s1.Inv := upd_inv (fun x hx => foldlH_inv (fun x a hx => laneSees_inv hx) hx) hs
  split
  · exact h1
  · extract_lets s4 s5
    have h3 : s3.Inv := latchHw_inv (upd_inv (fun x hx => updBri_inv (obj_inv hx)) h1)
    have h5 : s5.Inv := linkGone_inv (ptpSplit_inv (event_inv h3))
    exact ite_inv (foreignSessions_inv h5) h5

theorem execSparDownHoldoffExpiry_inv {h : HalfId} {s : State} {t : State} (hs : s.Inv)
    (ht : execSparDownHoldoffExpiry h s = .next t) : t.Inv := by
  unfold execSparDownHoldoffExpiry at ht
  injection ht with ht
  rw [← ht]
  clear ht
  repeat' (first | with_reducible assumption | with_reducible refine updBri_inv ?_ | with_reducible refine leadTrigger_inv ?_ | with_reducible refine upd_inv (fun x hx => ?_) ?_ | with_reducible refine half_inv ?_ _ | dsimp only | split | (obtain ⟨⟨m1, m2⟩, ⟨q1, q2, q3, q4⟩, u1, u2, u3, u4, u5, u6, u7, u8, u9, u10⟩ := hx; refine ⟨⟨?_, ?_⟩, ⟨?_, ?_, ?_, ?_⟩, ?_, ?_, ?_, ?_, ?_, ?_, ?_, ?_, ?_, ?_⟩ <;> first | with_reducible assumption | (dsimp only; with_reducible assumption) | with_reducible exact ringPut_wf _ _ _ _ m1 | (simp only [List.length_modify, List.length_map, List.length_set]; with_reducible assumption)))

theorem execSparUp_inv {h : HalfId} {s : State} {t : State} (hs : s.Inv)
    (ht : execSparUp h s = .next t) : t.Inv := by
  unfold execSparUp settled at ht
  injection ht with ht
  rw [← ht]
  clear ht
  repeat' (first | with_reducible assumption | with_reducible refine event_inv ?_ | with_reducible refine updBri_inv ?_ | with_reducible refine rejoin_inv ?_ | with_reducible refine settle_inv ?_ | with_reducible refine upd_inv (fun x hx => ?_) ?_ | with_reducible refine half_inv ?_ _ | dsimp only | split | (obtain ⟨⟨m1, m2⟩, ⟨q1, q2, q3, q4⟩, u1, u2, u3, u4, u5, u6, u7, u8, u9, u10⟩ := hx; refine ⟨⟨?_, ?_⟩, ⟨?_, ?_, ?_, ?_⟩, ?_, ?_, ?_, ?_, ?_, ?_, ?_, ?_, ?_, ?_⟩ <;> first | with_reducible assumption | (dsimp only; with_reducible assumption) | with_reducible exact ringPut_wf _ _ _ _ m1 | (simp only [List.length_modify, List.length_map, List.length_set]; with_reducible assumption)))

/-! Streams.lean -/

theorem execStreamStart_inv {h : HalfId} {e : CmdEntry} {s : State} {t : State} (hs : s.Inv)
    (ht : execStreamStart h e s = .next t) : t.Inv := by
  unfold execStreamStart at ht
  injection ht with ht
  rw [← ht]
  clear ht
  repeat' (first | with_reducible assumption | with_reducible refine runBody_inv ?_ | with_reducible refine runCmd_inv (fun s hs => ?_) ?_ | with_reducible refine half_inv ?_ _ | dsimp only | split | (obtain ⟨⟨m1, m2⟩, ⟨q1, q2, q3, q4⟩, u1, u2, u3, u4, u5, u6, u7, u8, u9, u10⟩ := hx; refine ⟨⟨?_, ?_⟩, ⟨?_, ?_, ?_, ?_⟩, ?_, ?_, ?_, ?_, ?_, ?_, ?_, ?_, ?_, ?_⟩ <;> first | with_reducible assumption | (dsimp only; with_reducible assumption) | with_reducible exact ringPut_wf _ _ _ _ m1 | (simp only [List.length_modify, List.length_map, List.length_set]; with_reducible assumption)))

theorem execStreamStop_inv {h : HalfId} {e : CmdEntry} {s : State} {t : State} (hs : s.Inv)
    (ht : execStreamStop h e s = .next t) : t.Inv := by
  unfold execStreamStop at ht
  injection ht with ht
  rw [← ht]
  clear ht
  repeat' (first | with_reducible assumption | with_reducible refine runBody_inv ?_ | with_reducible refine runCmd_inv (fun s hs => ?_) ?_ | with_reducible refine half_inv ?_ _ | dsimp only | split | (obtain ⟨⟨m1, m2⟩, ⟨q1, q2, q3, q4⟩, u1, u2, u3, u4, u5, u6, u7, u8, u9, u10⟩ := hx; refine ⟨⟨?_, ?_⟩, ⟨?_, ?_, ?_, ?_⟩, ?_, ?_, ?_, ?_, ?_, ?_, ?_, ?_, ?_, ?_⟩ <;> first | with_reducible assumption | (dsimp only; with_reducible assumption) | with_reducible exact ringPut_wf _ _ _ _ m1 | (simp only [List.length_modify, List.length_map, List.length_set]; with_reducible assumption)))

theorem execStreamDrain_inv {h : HalfId} {e : CmdEntry} {s : State} {t : State} (hs : s.Inv)
    (ht : execStreamDrain h e s = .next t) : t.Inv := by
  unfold execStreamDrain at ht
  injection ht with ht
  rw [← ht]
  clear ht
  repeat' (first | with_reducible assumption | with_reducible refine runBody_inv ?_ | with_reducible refine runCmd_inv (fun s hs => ?_) ?_ | with_reducible refine half_inv ?_ _ | dsimp only | split | (obtain ⟨⟨m1, m2⟩, ⟨q1, q2, q3, q4⟩, u1, u2, u3, u4, u5, u6, u7, u8, u9, u10⟩ := hx; refine ⟨⟨?_, ?_⟩, ⟨?_, ?_, ?_, ?_⟩, ?_, ?_, ?_, ?_, ?_, ?_, ?_, ?_, ?_, ?_⟩ <;> first | with_reducible assumption | (dsimp only; with_reducible assumption) | with_reducible exact ringPut_wf _ _ _ _ m1 | (simp only [List.length_modify, List.length_map, List.length_set]; with_reducible assumption)))

theorem execAtTimeExecution_inv {h : HalfId} {index : Nat} {s : State} {t : State} (hs : s.Inv)
    (ht : execAtTimeExecution h index s = .next t) : t.Inv := by
  unfold execAtTimeExecution settled at ht
  injection ht with ht
  rw [← ht]
  clear ht
  repeat' (first | with_reducible assumption | with_reducible refine hostWrite_inv ?_ | with_reducible refine shaperSetDo_inv ?_ | with_reducible refine deferredOut_inv ?_ | with_reducible refine runDue_inv ?_ | with_reducible refine settle_inv ?_ | with_reducible refine half_inv ?_ _ | dsimp only | split | (obtain ⟨⟨m1, m2⟩, ⟨q1, q2, q3, q4⟩, u1, u2, u3, u4, u5, u6, u7, u8, u9, u10⟩ := hx; refine ⟨⟨?_, ?_⟩, ⟨?_, ?_, ?_, ?_⟩, ?_, ?_, ?_, ?_, ?_, ?_, ?_, ?_, ?_, ?_⟩ <;> first | with_reducible assumption | (dsimp only; with_reducible assumption) | with_reducible exact ringPut_wf _ _ _ _ m1 | (simp only [List.length_modify, List.length_map, List.length_set]; with_reducible assumption)))

theorem execWaitingStartExecution_inv {h : HalfId} {object : Handle} {s : State} {t : State} (hs : s.Inv)
    (ht : execWaitingStartExecution h object s = .next t) : t.Inv := by
  unfold execWaitingStartExecution at ht
  injection ht with ht
  rw [← ht]
  clear ht
  repeat' (first | with_reducible assumption | with_reducible refine deferredEnd_inv ?_ | with_reducible refine updEnv_inv ?_ | with_reducible refine runDo_inv ?_ | with_reducible refine runLater_inv ?_ | with_reducible refine upd_inv (fun x hx => ?_) ?_ | with_reducible refine foldl_inv (fun s a hs => ?_) ?_ | with_reducible refine foldlH_inv (fun x a hx => ?_) ?_ | with_reducible refine foldl_fst_inv (fun s a hs => ?_) ?_ | with_reducible refine half_inv ?_ _ | dsimp only | split | (obtain ⟨⟨m1, m2⟩, ⟨q1, q2, q3, q4⟩, u1, u2, u3, u4, u5, u6, u7, u8, u9, u10⟩ := hx; refine ⟨⟨?_, ?_⟩, ⟨?_, ?_, ?_, ?_⟩, ?_, ?_, ?_, ?_, ?_, ?_, ?_, ?_, ?_, ?_⟩ <;> first | with_reducible assumption | (dsimp only; with_reducible assumption) | with_reducible exact ringPut_wf _ _ _ _ m1 | (simp only [List.length_modify, List.length_map, List.length_set]; with_reducible assumption)))

theorem execSparForwardedCommand_inv {h : HalfId} {c : Forwarded} {s : State} {t : State} (hs : s.Inv)
    (ht : execSparForwardedCommand h c s = .next t) : t.Inv := by
  unfold execSparForwardedCommand at ht
  injection ht with ht
  rw [← ht]
  clear ht
  repeat' (first | with_reducible assumption | with_reducible refine forwardedDo_inv ?_ | with_reducible refine half_inv ?_ _ | dsimp only | split | (obtain ⟨⟨m1, m2⟩, ⟨q1, q2, q3, q4⟩, u1, u2, u3, u4, u5, u6, u7, u8, u9, u10⟩ := hx; refine ⟨⟨?_, ?_⟩, ⟨?_, ?_, ?_, ?_⟩, ?_, ?_, ?_, ?_, ?_, ?_, ?_, ?_, ?_, ?_⟩ <;> first | with_reducible assumption | (dsimp only; with_reducible assumption) | with_reducible exact ringPut_wf _ _ _ _ m1 | (simp only [List.length_modify, List.length_map, List.length_set]; with_reducible assumption)))

/-! Queries.lean -/

theorem execQueryObject_inv {h : HalfId} {e : CmdEntry} {b : BusResult} {s : State} {t : State} (hs : s.Inv)
    (ht : execQueryObject h e b s = .next t) : t.Inv := by
  unfold execQueryObject at ht
  injection ht with ht
  rw [← ht]
  clear ht
  repeat' (first | with_reducible assumption | with_reducible refine runQuery_inv (fun s hs => ?_) ?_ | with_reducible refine half_inv ?_ _ | with_reducible refine id_inv ?_ | with_reducible refine idH_inv ?_ | dsimp only | split | (obtain ⟨⟨m1, m2⟩, ⟨q1, q2, q3, q4⟩, u1, u2, u3, u4, u5, u6, u7, u8, u9, u10⟩ := hx; refine ⟨⟨?_, ?_⟩, ⟨?_, ?_, ?_, ?_⟩, ?_, ?_, ?_, ?_, ?_, ?_, ?_, ?_, ?_, ?_⟩ <;> first | with_reducible assumption | (dsimp only; with_reducible assumption) | with_reducible exact ringPut_wf _ _ _ _ m1 | (simp only [List.length_modify, List.length_map, List.length_set]; with_reducible assumption)))

theorem execQueryDecode_inv {h : HalfId} {e : CmdEntry} {b : BusResult} {s : State} {t : State} (hs : s.Inv)
    (ht : execQueryDecode h e b s = .next t) : t.Inv := by
  unfold execQueryDecode at ht
  injection ht with ht
  rw [← ht]
  clear ht
  repeat' (first | with_reducible assumption | with_reducible refine runQuery_inv (fun s hs => ?_) ?_ | with_reducible refine half_inv ?_ _ | with_reducible refine id_inv ?_ | with_reducible refine idH_inv ?_ | dsimp only | split | (obtain ⟨⟨m1, m2⟩, ⟨q1, q2, q3, q4⟩, u1, u2, u3, u4, u5, u6, u7, u8, u9, u10⟩ := hx; refine ⟨⟨?_, ?_⟩, ⟨?_, ?_, ?_, ?_⟩, ?_, ?_, ?_, ?_, ?_, ?_, ?_, ?_, ?_, ?_⟩ <;> first | with_reducible assumption | (dsimp only; with_reducible assumption) | with_reducible exact ringPut_wf _ _ _ _ m1 | (simp only [List.length_modify, List.length_map, List.length_set]; with_reducible assumption)))

theorem execQueryInput_inv {h : HalfId} {e : CmdEntry} {b : BusResult} {s : State} {t : State} (hs : s.Inv)
    (ht : execQueryInput h e b s = .next t) : t.Inv := by
  unfold execQueryInput at ht
  injection ht with ht
  rw [← ht]
  clear ht
  repeat' (first | with_reducible assumption | with_reducible refine runQuery_inv (fun s hs => ?_) ?_ | with_reducible refine half_inv ?_ _ | with_reducible refine id_inv ?_ | with_reducible refine idH_inv ?_ | dsimp only | split | (obtain ⟨⟨m1, m2⟩, ⟨q1, q2, q3, q4⟩, u1, u2, u3, u4, u5, u6, u7, u8, u9, u10⟩ := hx; refine ⟨⟨?_, ?_⟩, ⟨?_, ?_, ?_, ?_⟩, ?_, ?_, ?_, ?_, ?_, ?_, ?_, ?_, ?_, ?_⟩ <;> first | with_reducible assumption | (dsimp only; with_reducible assumption) | with_reducible exact ringPut_wf _ _ _ _ m1 | (simp only [List.length_modify, List.length_map, List.length_set]; with_reducible assumption)))

theorem execQueryEncode_inv {h : HalfId} {e : CmdEntry} {b : BusResult} {s : State} {t : State} (hs : s.Inv)
    (ht : execQueryEncode h e b s = .next t) : t.Inv := by
  unfold execQueryEncode at ht
  injection ht with ht
  rw [← ht]
  clear ht
  repeat' (first | with_reducible assumption | with_reducible refine runQuery_inv (fun s hs => ?_) ?_ | with_reducible refine half_inv ?_ _ | with_reducible refine id_inv ?_ | with_reducible refine idH_inv ?_ | dsimp only | split | (obtain ⟨⟨m1, m2⟩, ⟨q1, q2, q3, q4⟩, u1, u2, u3, u4, u5, u6, u7, u8, u9, u10⟩ := hx; refine ⟨⟨?_, ?_⟩, ⟨?_, ?_, ?_, ?_⟩, ?_, ?_, ?_, ?_, ?_, ?_, ?_, ?_, ?_, ?_⟩ <;> first | with_reducible assumption | (dsimp only; with_reducible assumption) | with_reducible exact ringPut_wf _ _ _ _ m1 | (simp only [List.length_modify, List.length_map, List.length_set]; with_reducible assumption)))

theorem execQuerySurge_inv {h : HalfId} {e : CmdEntry} {b : BusResult} {s : State} {t : State} (hs : s.Inv)
    (ht : execQuerySurge h e b s = .next t) : t.Inv := by
  unfold execQuerySurge at ht
  injection ht with ht
  rw [← ht]
  clear ht
  repeat' (first | with_reducible assumption | with_reducible refine surgeClear_inv ?_ | with_reducible refine runQuery_inv (fun s hs => ?_) ?_ | with_reducible refine half_inv ?_ _ | with_reducible refine id_inv ?_ | with_reducible refine idH_inv ?_ | dsimp only | split | (obtain ⟨⟨m1, m2⟩, ⟨q1, q2, q3, q4⟩, u1, u2, u3, u4, u5, u6, u7, u8, u9, u10⟩ := hx; refine ⟨⟨?_, ?_⟩, ⟨?_, ?_, ?_, ?_⟩, ?_, ?_, ?_, ?_, ?_, ?_, ?_, ?_, ?_, ?_⟩ <;> first | with_reducible assumption | (dsimp only; with_reducible assumption) | with_reducible exact ringPut_wf _ _ _ _ m1 | (simp only [List.length_modify, List.length_map, List.length_set]; with_reducible assumption)))

theorem execQueryFlow_inv {h : HalfId} {e : CmdEntry} {b : BusResult} {s : State} {t : State} (hs : s.Inv)
    (ht : execQueryFlow h e b s = .next t) : t.Inv := by
  unfold execQueryFlow at ht
  injection ht with ht
  rw [← ht]
  clear ht
  repeat' (first | with_reducible assumption | with_reducible refine updFlow_inv ?_ | with_reducible refine upd_inv (fun x hx => ?_) ?_ | with_reducible refine runQuery_inv (fun s hs => ?_) ?_ | with_reducible refine half_inv ?_ _ | with_reducible refine id_inv ?_ | with_reducible refine idH_inv ?_ | dsimp only | split | (obtain ⟨⟨m1, m2⟩, ⟨q1, q2, q3, q4⟩, u1, u2, u3, u4, u5, u6, u7, u8, u9, u10⟩ := hx; refine ⟨⟨?_, ?_⟩, ⟨?_, ?_, ?_, ?_⟩, ?_, ?_, ?_, ?_, ?_, ?_, ?_, ?_, ?_, ?_⟩ <;> first | with_reducible assumption | (dsimp only; with_reducible assumption) | with_reducible exact ringPut_wf _ _ _ _ m1 | (simp only [List.length_modify, List.length_map, List.length_set]; with_reducible assumption)))

theorem execQueryPort_inv {h : HalfId} {e : CmdEntry} {b : BusResult} {s : State} {t : State} (hs : s.Inv)
    (ht : execQueryPort h e b s = .next t) : t.Inv := by
  unfold execQueryPort at ht
  injection ht with ht
  rw [← ht]
  clear ht
  repeat' (first | with_reducible assumption | with_reducible refine updPort_inv ?_ | with_reducible refine upd_inv (fun x hx => ?_) ?_ | with_reducible refine runQuery_inv (fun s hs => ?_) ?_ | with_reducible refine half_inv ?_ _ | with_reducible refine id_inv ?_ | with_reducible refine idH_inv ?_ | dsimp only | split | (obtain ⟨⟨m1, m2⟩, ⟨q1, q2, q3, q4⟩, u1, u2, u3, u4, u5, u6, u7, u8, u9, u10⟩ := hx; refine ⟨⟨?_, ?_⟩, ⟨?_, ?_, ?_, ?_⟩, ?_, ?_, ?_, ?_, ?_, ?_, ?_, ?_, ?_, ?_⟩ <;> first | with_reducible assumption | (dsimp only; with_reducible assumption) | with_reducible exact ringPut_wf _ _ _ _ m1 | (simp only [List.length_modify, List.length_map, List.length_set]; with_reducible assumption)))

theorem execQueryPtp_inv {h : HalfId} {e : CmdEntry} {b : BusResult} {s : State} {t : State} (hs : s.Inv)
    (ht : execQueryPtp h e b s = .next t) : t.Inv := by
  unfold execQueryPtp at ht
  injection ht with ht
  rw [← ht]
  clear ht
  repeat' (first | with_reducible assumption | with_reducible refine runQuery_inv (fun s hs => ?_) ?_ | with_reducible refine half_inv ?_ _ | with_reducible refine id_inv ?_ | with_reducible refine idH_inv ?_ | dsimp only | split | (obtain ⟨⟨m1, m2⟩, ⟨q1, q2, q3, q4⟩, u1, u2, u3, u4, u5, u6, u7, u8, u9, u10⟩ := hx; refine ⟨⟨?_, ?_⟩, ⟨?_, ?_, ?_, ?_⟩, ?_, ?_, ?_, ?_, ?_, ?_, ?_, ?_, ?_, ?_⟩ <;> first | with_reducible assumption | (dsimp only; with_reducible assumption) | with_reducible exact ringPut_wf _ _ _ _ m1 | (simp only [List.length_modify, List.length_map, List.length_set]; with_reducible assumption)))

theorem execQueryChannel_inv {h : HalfId} {e : CmdEntry} {b : BusResult} {s : State} {t : State} (hs : s.Inv)
    (ht : execQueryChannel h e b s = .next t) : t.Inv := by
  unfold execQueryChannel at ht
  injection ht with ht
  rw [← ht]
  clear ht
  repeat' (first | with_reducible assumption | with_reducible refine runQuery_inv (fun s hs => ?_) ?_ | with_reducible refine half_inv ?_ _ | with_reducible refine id_inv ?_ | with_reducible refine idH_inv ?_ | dsimp only | split | (obtain ⟨⟨m1, m2⟩, ⟨q1, q2, q3, q4⟩, u1, u2, u3, u4, u5, u6, u7, u8, u9, u10⟩ := hx; refine ⟨⟨?_, ?_⟩, ⟨?_, ?_, ?_, ?_⟩, ?_, ?_, ?_, ?_, ?_, ?_, ?_, ?_, ?_, ?_⟩ <;> first | with_reducible assumption | (dsimp only; with_reducible assumption) | with_reducible exact ringPut_wf _ _ _ _ m1 | (simp only [List.length_modify, List.length_map, List.length_set]; with_reducible assumption)))

theorem execQueryPool_inv {h : HalfId} {e : CmdEntry} {b : BusResult} {s : State} {t : State} (hs : s.Inv)
    (ht : execQueryPool h e b s = .next t) : t.Inv := by
  unfold execQueryPool at ht
  injection ht with ht
  rw [← ht]
  clear ht
  repeat' (first | with_reducible assumption | with_reducible refine updPool_inv ?_ | with_reducible refine upd_inv (fun x hx => ?_) ?_ | with_reducible refine runQuery_inv (fun s hs => ?_) ?_ | with_reducible refine half_inv ?_ _ | with_reducible refine id_inv ?_ | with_reducible refine idH_inv ?_ | dsimp only | split | (obtain ⟨⟨m1, m2⟩, ⟨q1, q2, q3, q4⟩, u1, u2, u3, u4, u5, u6, u7, u8, u9, u10⟩ := hx; refine ⟨⟨?_, ?_⟩, ⟨?_, ?_, ?_, ?_⟩, ?_, ?_, ?_, ?_, ?_, ?_, ?_, ?_, ?_, ?_⟩ <;> first | with_reducible assumption | (dsimp only; with_reducible assumption) | with_reducible exact ringPut_wf _ _ _ _ m1 | (simp only [List.length_modify, List.length_map, List.length_set]; with_reducible assumption)))

theorem execQueryDma_inv {h : HalfId} {e : CmdEntry} {b : BusResult} {s : State} {t : State} (hs : s.Inv)
    (ht : execQueryDma h e b s = .next t) : t.Inv := by
  unfold execQueryDma at ht
  injection ht with ht
  rw [← ht]
  clear ht
  repeat' (first | with_reducible assumption | with_reducible refine runQuery_inv (fun s hs => ?_) ?_ | with_reducible refine half_inv ?_ _ | with_reducible refine id_inv ?_ | with_reducible refine idH_inv ?_ | dsimp only | split | (obtain ⟨⟨m1, m2⟩, ⟨q1, q2, q3, q4⟩, u1, u2, u3, u4, u5, u6, u7, u8, u9, u10⟩ := hx; refine ⟨⟨?_, ?_⟩, ⟨?_, ?_, ?_, ?_⟩, ?_, ?_, ?_, ?_, ?_, ?_, ?_, ?_, ?_, ?_⟩ <;> first | with_reducible assumption | (dsimp only; with_reducible assumption) | with_reducible exact ringPut_wf _ _ _ _ m1 | (simp only [List.length_modify, List.length_map, List.length_set]; with_reducible assumption)))

theorem execQueryEvents_inv {h : HalfId} {e : CmdEntry} {b : BusResult} {s : State} {t : State} (hs : s.Inv)
    (ht : execQueryEvents h e b s = .next t) : t.Inv := by
  unfold execQueryEvents at ht
  injection ht with ht
  rw [← ht]
  clear ht
  repeat' (first | with_reducible assumption | with_reducible refine runQuery_inv (fun s hs => ?_) ?_ | with_reducible refine half_inv ?_ _ | with_reducible refine id_inv ?_ | with_reducible refine idH_inv ?_ | dsimp only | split | (obtain ⟨⟨m1, m2⟩, ⟨q1, q2, q3, q4⟩, u1, u2, u3, u4, u5, u6, u7, u8, u9, u10⟩ := hx; refine ⟨⟨?_, ?_⟩, ⟨?_, ?_, ?_, ?_⟩, ?_, ?_, ?_, ?_, ?_, ?_, ?_, ?_, ?_, ?_⟩ <;> first | with_reducible assumption | (dsimp only; with_reducible assumption) | with_reducible exact ringPut_wf _ _ _ _ m1 | (simp only [List.length_modify, List.length_map, List.length_set]; with_reducible assumption)))

theorem execQueryFilter_inv {h : HalfId} {e : CmdEntry} {b : BusResult} {s : State} {t : State} (hs : s.Inv)
    (ht : execQueryFilter h e b s = .next t) : t.Inv := by
  unfold execQueryFilter at ht
  injection ht with ht
  rw [← ht]
  clear ht
  repeat' (first | with_reducible assumption | with_reducible refine runQuery_inv (fun s hs => ?_) ?_ | with_reducible refine half_inv ?_ _ | with_reducible refine id_inv ?_ | with_reducible refine idH_inv ?_ | dsimp only | split | (obtain ⟨⟨m1, m2⟩, ⟨q1, q2, q3, q4⟩, u1, u2, u3, u4, u5, u6, u7, u8, u9, u10⟩ := hx; refine ⟨⟨?_, ?_⟩, ⟨?_, ?_, ?_, ?_⟩, ?_, ?_, ?_, ?_, ?_, ?_, ?_, ?_, ?_, ?_⟩ <;> first | with_reducible assumption | (dsimp only; with_reducible assumption) | with_reducible exact ringPut_wf _ _ _ _ m1 | (simp only [List.length_modify, List.length_map, List.length_set]; with_reducible assumption)))

theorem execQueryHealth_inv {h : HalfId} {e : CmdEntry} {b : BusResult} {s : State} {t : State} (hs : s.Inv)
    (ht : execQueryHealth h e b s = .next t) : t.Inv := by
  unfold execQueryHealth at ht
  injection ht with ht
  rw [← ht]
  clear ht
  repeat' (first | with_reducible assumption | with_reducible refine runQuery_inv (fun s hs => ?_) ?_ | with_reducible refine half_inv ?_ _ | with_reducible refine id_inv ?_ | with_reducible refine idH_inv ?_ | dsimp only | split | (obtain ⟨⟨m1, m2⟩, ⟨q1, q2, q3, q4⟩, u1, u2, u3, u4, u5, u6, u7, u8, u9, u10⟩ := hx; refine ⟨⟨?_, ?_⟩, ⟨?_, ?_, ?_, ?_⟩, ?_, ?_, ?_, ?_, ?_, ?_, ?_, ?_, ?_, ?_⟩ <;> first | with_reducible assumption | (dsimp only; with_reducible assumption) | with_reducible exact ringPut_wf _ _ _ _ m1 | (simp only [List.length_modify, List.length_map, List.length_set]; with_reducible assumption)))

theorem execQueryCues_inv {h : HalfId} {e : CmdEntry} {b : BusResult} {s : State} {t : State} (hs : s.Inv)
    (ht : execQueryCues h e b s = .next t) : t.Inv := by
  unfold execQueryCues at ht
  injection ht with ht
  rw [← ht]
  clear ht
  repeat' (first | with_reducible assumption | with_reducible refine runQuery_inv (fun s hs => ?_) ?_ | with_reducible refine half_inv ?_ _ | with_reducible refine id_inv ?_ | with_reducible refine idH_inv ?_ | dsimp only | split | (obtain ⟨⟨m1, m2⟩, ⟨q1, q2, q3, q4⟩, u1, u2, u3, u4, u5, u6, u7, u8, u9, u10⟩ := hx; refine ⟨⟨?_, ?_⟩, ⟨?_, ?_, ?_, ?_⟩, ?_, ?_, ?_, ?_, ?_, ?_, ?_, ?_, ?_, ?_⟩ <;> first | with_reducible assumption | (dsimp only; with_reducible assumption) | with_reducible exact ringPut_wf _ _ _ _ m1 | (simp only [List.length_modify, List.length_map, List.length_set]; with_reducible assumption)))

/-! Delivery.lean -/

theorem dropWhile_nil {α : Type} {p : α → Bool} {l : List α} (hl : l.dropWhile p = []) : ∀ a ∈ l, p a = true := by
  induction l with
  | nil => intro a ha; cases ha
  | cons b l ih =>
    rw [List.dropWhile_cons] at hl
    split at hl
    · next hb =>
      intro a ha
      cases ha with
      | head => exact hb
      | tail _ ha => exact ih hl a ha
    · cases hl

theorem takeDrop_length {α : Type} (p : α → Bool) (l : List α) : (l.takeWhile p).length + (l.dropWhile p).length = l.length := by
  rw [← List.length_append, List.takeWhile_append_dropWhile]

theorem nextEvent_inv {x : Half} {e : EventRec} {m : Bool} {v w : Events} (hv : v.warnings.length ≤ 256 ∧ v.infos.length ≤ 512 ∧ v.alarms.length ≤ 256)
    (hn : nextEvent v = some (e, m, w)) (hx : x.Inv) : ({ x with ev := w } : Half).Inv := by
  obtain ⟨hw, hi, ha⟩ := hv
  unfold nextEvent at hn
  split at hn
  · next a hf =>
    obtain ⟨-, -, rfl⟩ := Prod.mk.inj (Option.some.inj hn) |>.imp id (fun q => Prod.mk.inj q)
    refine ev_inv hw hi ?_ hx
    have hl := takeDrop_length (fun b : AlarmRec => b.written) v.alarms
    have hne : (v.alarms.dropWhile (fun b : AlarmRec => b.written)) ≠ [] := by
      intro hd
      have hall := dropWhile_nil hd
      have hm := List.mem_of_find?_eq_some hf
      have hp := List.find?_some hf
      simp only [hall _ hm, Bool.not_true, Bool.false_eq_true] at hp
    have hpos := List.length_pos_iff.2 hne
    simp only [List.length_append, List.length_cons, List.length_drop]
    omega
  · split at hn
    · next w ws hl =>
      obtain ⟨-, -, rfl⟩ := Prod.mk.inj (Option.some.inj hn) |>.imp id (fun q => Prod.mk.inj q)
      rw [hl] at hw
      exact ev_inv (Nat.le_of_succ_le hw) hi ha hx
    · split at hn
      · next i is hl =>
        obtain ⟨-, -, rfl⟩ := Prod.mk.inj (Option.some.inj hn) |>.imp id (fun q => Prod.mk.inj q)
        rw [hl] at hi
        exact ev_inv hw (Nat.le_of_succ_le hi) ha hx
      · cases hn

theorem evRefill_bounds {n : Nat} {v : Events} (hv : v.warnings.length ≤ 256 ∧ v.infos.length ≤ 512 ∧ v.alarms.length ≤ 256) :
    (evRefill n v).warnings.length ≤ 256 ∧ (evRefill n v).infos.length ≤ 512 ∧ (evRefill n v).alarms.length ≤ 256 := by
  obtain ⟨b, t, hb⟩ := evRefill_eq n v
  rw [hb]
  exact hv

theorem execEventDelivery_inv {h : HalfId} {s : State} {t : State} (hs : s.Inv) (ht : execEventDelivery h s = .next t) : t.Inv := by
  unfold execEventDelivery at ht
  injection ht with ht
  rw [← ht]
  clear ht
  extract_lets +onlyGivenNames x v
  split
  · exact instantOut_inv hs
  split
  · exact hs
  split
  · exact hs
  · next e m w hn =>
    have hq := (half_inv hs h).2.1
    exact evWrite_inv (upd_inv (fun y hy => nextEvent_inv (evRefill_bounds ⟨hq.1, hq.2.1, hq.2.2.1⟩) hn hy) hs)

theorem execAsrBacklogDrain_inv {h : HalfId} {s : State} {t : State} (hs : s.Inv)
    (ht : execAsrBacklogDrain h s = .next t) : t.Inv := by
  unfold execAsrBacklogDrain at ht
  injection ht with ht
  rw [← ht]
  clear ht
  repeat' (first | with_reducible assumption | with_reducible refine drainAssist_inv ?_ | with_reducible refine half_inv ?_ _ | dsimp only | split | (obtain ⟨⟨m1, m2⟩, ⟨q1, q2, q3, q4⟩, u1, u2, u3, u4, u5, u6, u7, u8, u9, u10⟩ := hx; refine ⟨⟨?_, ?_⟩, ⟨?_, ?_, ?_, ?_⟩, ?_, ?_, ?_, ?_, ?_, ?_, ?_, ?_, ?_, ?_⟩ <;> first | with_reducible assumption | (dsimp only; with_reducible assumption) | with_reducible exact ringPut_wf _ _ _ _ m1 | (simp only [List.length_modify, List.length_map, List.length_set]; with_reducible assumption)))

theorem execAsrRequestWithdrawn_inv {h : HalfId} {index : Nat} {s : State} {t : State} (hs : s.Inv)
    (ht : execAsrRequestWithdrawn h index s = .next t) : t.Inv := by
  unfold execAsrRequestWithdrawn settled at ht
  injection ht with ht
  rw [← ht]
  clear ht
  repeat' (first | with_reducible assumption | with_reducible refine requestDefault_inv ?_ | with_reducible refine settle_inv ?_ | with_reducible refine upd_inv (fun x hx => ?_) ?_ | with_reducible refine half_inv ?_ _ | dsimp only | split | (obtain ⟨⟨m1, m2⟩, ⟨q1, q2, q3, q4⟩, u1, u2, u3, u4, u5, u6, u7, u8, u9, u10⟩ := hx; refine ⟨⟨?_, ?_⟩, ⟨?_, ?_, ?_, ?_⟩, ?_, ?_, ?_, ?_, ?_, ?_, ?_, ?_, ?_, ?_⟩ <;> first | with_reducible assumption | (dsimp only; with_reducible assumption) | with_reducible exact ringPut_wf _ _ _ _ m1 | (simp only [List.length_modify, List.length_map, List.length_set]; with_reducible assumption)))

theorem execPoolAllocRetry_inv {h : HalfId} {engine size count : Nat} {s : State} {t : State} (hs : s.Inv)
    (ht : execPoolAllocRetry h engine size count s = .next t) : t.Inv := by
  unfold execPoolAllocRetry at ht
  injection ht with ht
  rw [← ht]
  clear ht
  repeat' (first | with_reducible assumption | with_reducible refine count_inv ?_ | with_reducible refine poolAlloc_inv ?_ | with_reducible refine half_inv ?_ _ | dsimp only | split | (obtain ⟨⟨m1, m2⟩, ⟨q1, q2, q3, q4⟩, u1, u2, u3, u4, u5, u6, u7, u8, u9, u10⟩ := hx; refine ⟨⟨?_, ?_⟩, ⟨?_, ?_, ?_, ?_⟩, ?_, ?_, ?_, ?_, ?_, ?_, ?_, ?_, ?_, ?_⟩ <;> first | with_reducible assumption | (dsimp only; with_reducible assumption) | with_reducible exact ringPut_wf _ _ _ _ m1 | (simp only [List.length_modify, List.length_map, List.length_set]; with_reducible assumption)))

/-! Registers.lean -/

theorem execRegisterWrite_inv {h : HalfId} {offset width : Nat} {value : W64} {s : State} {t : State} (hs : s.Inv)
    (ht : execRegisterWrite h offset width value s = .next t) : t.Inv := by
  unfold execRegisterWrite settled at ht
  injection ht with ht
  rw [← ht]
  clear ht
  repeat' (first | with_reducible assumption | with_reducible refine registerDo_inv ?_ | with_reducible refine settle_inv ?_ | with_reducible refine hostWriteTo_inv (fun s hs => ?_) ?_ | with_reducible refine half_inv ?_ _ | dsimp only | split | (obtain ⟨⟨m1, m2⟩, ⟨q1, q2, q3, q4⟩, u1, u2, u3, u4, u5, u6, u7, u8, u9, u10⟩ := hx; refine ⟨⟨?_, ?_⟩, ⟨?_, ?_, ?_, ?_⟩, ?_, ?_, ?_, ?_, ?_, ?_, ?_, ?_, ?_, ?_⟩ <;> first | with_reducible assumption | (dsimp only; with_reducible assumption) | with_reducible exact ringPut_wf _ _ _ _ m1 | (simp only [List.length_modify, List.length_map, List.length_set]; with_reducible assumption)))

theorem execPcieLinkDown_inv {h : HalfId} {s : State} {t : State} (hs : s.Inv)
    (ht : execPcieLinkDown h s = .next t) : t.Inv := by
  unfold execPcieLinkDown settled at ht
  injection ht with ht
  rw [← ht]
  clear ht
  repeat' (first | with_reducible assumption | with_reducible refine latchHw_inv ?_ | with_reducible refine settle_inv ?_ | with_reducible refine upd_inv (fun x hx => ?_) ?_ | with_reducible refine half_inv ?_ _ | dsimp only | split | (obtain ⟨⟨m1, m2⟩, ⟨q1, q2, q3, q4⟩, u1, u2, u3, u4, u5, u6, u7, u8, u9, u10⟩ := hx; refine ⟨⟨?_, ?_⟩, ⟨?_, ?_, ?_, ?_⟩, ?_, ?_, ?_, ?_, ?_, ?_, ?_, ?_, ?_, ?_⟩ <;> first | with_reducible assumption | (dsimp only; with_reducible assumption) | with_reducible exact ringPut_wf _ _ _ _ m1 | (simp only [List.length_modify, List.length_map, List.length_set]; with_reducible assumption)))

theorem execPcieLinkUp_inv {h : HalfId} {s : State} {t : State} (hs : s.Inv)
    (ht : execPcieLinkUp h s = .next t) : t.Inv := by
  unfold execPcieLinkUp at ht
  injection ht with ht
  rw [← ht]
  clear ht
  repeat' (first | with_reducible assumption | with_reducible refine icuEvalAll_inv ?_ | with_reducible refine upd_inv (fun x hx => ?_) ?_ | with_reducible refine half_inv ?_ _ | dsimp only | split | (obtain ⟨⟨m1, m2⟩, ⟨q1, q2, q3, q4⟩, u1, u2, u3, u4, u5, u6, u7, u8, u9, u10⟩ := hx; refine ⟨⟨?_, ?_⟩, ⟨?_, ?_, ?_, ?_⟩, ?_, ?_, ?_, ?_, ?_, ?_, ?_, ?_, ?_, ?_⟩ <;> first | with_reducible assumption | (dsimp only; with_reducible assumption) | with_reducible exact ringPut_wf _ _ _ _ m1 | (simp only [List.length_modify, List.length_map, List.length_set]; with_reducible assumption)))

theorem execPcieUncorrectableError_inv {h : HalfId} {masked : Bool} {s : State} {t : State} (hs : s.Inv)
    (ht : execPcieUncorrectableError h masked s = .next t) : t.Inv := by
  unfold execPcieUncorrectableError settled at ht
  injection ht with ht
  rw [← ht]
  clear ht
  repeat' (first | with_reducible assumption | with_reducible refine latchHw_inv ?_ | with_reducible refine settle_inv ?_ | with_reducible refine half_inv ?_ _ | dsimp only | split | (obtain ⟨⟨m1, m2⟩, ⟨q1, q2, q3, q4⟩, u1, u2, u3, u4, u5, u6, u7, u8, u9, u10⟩ := hx; refine ⟨⟨?_, ?_⟩, ⟨?_, ?_, ?_, ?_⟩, ?_, ?_, ?_, ?_, ?_, ?_, ?_, ?_, ?_, ?_⟩ <;> first | with_reducible assumption | (dsimp only; with_reducible assumption) | with_reducible exact ringPut_wf _ _ _ _ m1 | (simp only [List.length_modify, List.length_map, List.length_set]; with_reducible assumption)))

theorem execPcieHotReset_inv {h : HalfId} {s : State} {t : State} (hs : s.Inv)
    (ht : execPcieHotReset h s = .next t) : t.Inv := by
  unfold execPcieHotReset at ht
  injection ht with ht
  rw [← ht]
  clear ht
  repeat' (first | with_reducible assumption | with_reducible refine upd_inv (fun x hx => ?_) ?_ | with_reducible refine half_inv ?_ _ | dsimp only | split | (obtain ⟨⟨m1, m2⟩, ⟨q1, q2, q3, q4⟩, u1, u2, u3, u4, u5, u6, u7, u8, u9, u10⟩ := hx; refine ⟨⟨?_, ?_⟩, ⟨?_, ?_, ?_, ?_⟩, ?_, ?_, ?_, ?_, ?_, ?_, ?_, ?_, ?_, ?_⟩ <;> first | with_reducible assumption | (dsimp only; with_reducible assumption) | with_reducible exact ringPut_wf _ _ _ _ m1 | (simp only [List.length_modify, List.length_map, List.length_set]; with_reducible assumption)))

end Sys2Proof.Machine
end

