-- ==== Sys2Proof/Laws/State.lean ====
section
/-!
SUPPORT. State.lean: what each update of the state leaves as it is, one lemma per field, so that no proof unfolds a record update.
-/
namespace Sys2Proof.Machine

/-! The state around the halves. -/

@[simp] theorem setHalf_flash (s : State) (h : HalfId) (x : Half) : (s.setHalf h x).flash = s.flash := by cases h <;> rfl
@[simp] theorem upd_flash (s : State) (h : HalfId) (g : Half → Half) : (s.upd h g).flash = s.flash := setHalf_flash _ _ _
@[simp] theorem setHalf_leadPref (s : State) (h : HalfId) (x : Half) : (s.setHalf h x).leadPref = s.leadPref := by cases h <;> rfl
@[simp] theorem upd_leadPref (s : State) (h : HalfId) (g : Half → Half) : (s.upd h g).leadPref = s.leadPref := setHalf_leadPref _ _ _
@[simp] theorem setHalf_porstLow (s : State) (h : HalfId) (x : Half) : (s.setHalf h x).porstLow = s.porstLow := by cases h <;> rfl
@[simp] theorem upd_porstLow (s : State) (h : HalfId) (g : Half → Half) : (s.upd h g).porstLow = s.porstLow := setHalf_porstLow _ _ _
@[simp] theorem setHalf_sparPhys (s : State) (h : HalfId) (x : Half) : (s.setHalf h x).sparPhys = s.sparPhys := by cases h <;> rfl
@[simp] theorem upd_sparPhys (s : State) (h : HalfId) (g : Half → Half) : (s.upd h g).sparPhys = s.sparPhys := setHalf_sparPhys _ _ _
@[simp] theorem setHalf_hostMem (s : State) (h : HalfId) (x : Half) : (s.setHalf h x).hostMem = s.hostMem := by cases h <;> rfl
@[simp] theorem upd_hostMem (s : State) (h : HalfId) (g : Half → Half) : (s.upd h g).hostMem = s.hostMem := setHalf_hostMem _ _ _
@[simp] theorem setHalf_pending (s : State) (h : HalfId) (x : Half) : (s.setHalf h x).pending = s.pending := by cases h <;> rfl
@[simp] theorem upd_pending (s : State) (h : HalfId) (g : Half → Half) : (s.upd h g).pending = s.pending := setHalf_pending _ _ _
@[simp] theorem setHalf_free (s : State) (h : HalfId) (x : Half) : (s.setHalf h x).free = s.free := by cases h <;> rfl
@[simp] theorem upd_free (s : State) (h : HalfId) (g : Half → Half) : (s.upd h g).free = s.free := setHalf_free _ _ _

/-! The clock. -/

@[simp] theorem updClock_rings (f : Clock → Clock) (x : Half) : (updClock f x).rings = x.rings := rfl
@[simp] theorem updClock_ev (f : Clock → Clock) (x : Half) : (updClock f x).ev = x.ev := rfl
@[simp] theorem updClock_asr (f : Clock → Clock) (x : Half) : (updClock f x).asr = x.asr := rfl
@[simp] theorem updClock_env (f : Clock → Clock) (x : Half) : (updClock f x).env = x.env := rfl
@[simp] theorem updClock_obj (f : Clock → Clock) (x : Half) : (updClock f x).obj = x.obj := rfl
@[simp] theorem updClock_enc (f : Clock → Clock) (x : Half) : (updClock f x).enc = x.enc := rfl
@[simp] theorem updClock_dec (f : Clock → Clock) (x : Half) : (updClock f x).dec = x.dec := rfl
@[simp] theorem updClock_cmp (f : Clock → Clock) (x : Half) : (updClock f x).cmp = x.cmp := rfl
@[simp] theorem updClock_dch (f : Clock → Clock) (x : Half) : (updClock f x).dch = x.dch := rfl
@[simp] theorem updClock_net (f : Clock → Clock) (x : Half) : (updClock f x).net = x.net := rfl
@[simp] theorem updClock_dram (f : Clock → Clock) (x : Half) : (updClock f x).dram = x.dram := rfl
@[simp] theorem updClock_pools (f : Clock → Clock) (x : Half) : (updClock f x).pools = x.pools := rfl
@[simp] theorem updClock_dma (f : Clock → Clock) (x : Half) : (updClock f x).dma = x.dma := rfl
@[simp] theorem updClock_icu (f : Clock → Clock) (x : Half) : (updClock f x).icu = x.icu := rfl
@[simp] theorem updClock_pcie (f : Clock → Clock) (x : Half) : (updClock f x).pcie = x.pcie := rfl
@[simp] theorem updClock_ctr (f : Clock → Clock) (x : Half) : (updClock f x).ctr = x.ctr := rfl
@[simp] theorem updClock_flt (f : Clock → Clock) (x : Half) : (updClock f x).flt = x.flt := rfl
@[simp] theorem updClock_bri (f : Clock → Clock) (x : Half) : (updClock f x).bri = x.bri := rfl
@[simp] theorem updClock_boot (f : Clock → Clock) (x : Half) : (updClock f x).boot = x.boot := rfl
@[simp] theorem updClock_pwr (f : Clock → Clock) (x : Half) : (updClock f x).pwr = x.pwr := rfl
@[simp] theorem updClock_ptp (f : Clock → Clock) (x : Half) : (updClock f x).ptp = x.ptp := rfl
@[simp] theorem updClock_fabric (f : Clock → Clock) (x : Half) : (updClock f x).fabric = x.fabric := rfl
@[simp] theorem updClock_lastRead (f : Clock → Clock) (x : Half) : (updClock f x).lastRead = x.lastRead := rfl
@[simp] theorem updClock_out (f : Clock → Clock) (x : Half) : (updClock f x).out = x.out := rfl

/-! The envelope store. -/

@[simp] theorem updEnv_clk (f : EnvStore → EnvStore) (x : Half) : (updEnv f x).clk = x.clk := rfl
@[simp] theorem updEnv_rings (f : EnvStore → EnvStore) (x : Half) : (updEnv f x).rings = x.rings := rfl
@[simp] theorem updEnv_ev (f : EnvStore → EnvStore) (x : Half) : (updEnv f x).ev = x.ev := rfl
@[simp] theorem updEnv_asr (f : EnvStore → EnvStore) (x : Half) : (updEnv f x).asr = x.asr := rfl
@[simp] theorem updEnv_obj (f : EnvStore → EnvStore) (x : Half) : (updEnv f x).obj = x.obj := rfl
@[simp] theorem updEnv_enc (f : EnvStore → EnvStore) (x : Half) : (updEnv f x).enc = x.enc := rfl
@[simp] theorem updEnv_dec (f : EnvStore → EnvStore) (x : Half) : (updEnv f x).dec = x.dec := rfl
@[simp] theorem updEnv_cmp (f : EnvStore → EnvStore) (x : Half) : (updEnv f x).cmp = x.cmp := rfl
@[simp] theorem updEnv_dch (f : EnvStore → EnvStore) (x : Half) : (updEnv f x).dch = x.dch := rfl
@[simp] theorem updEnv_net (f : EnvStore → EnvStore) (x : Half) : (updEnv f x).net = x.net := rfl
@[simp] theorem updEnv_dram (f : EnvStore → EnvStore) (x : Half) : (updEnv f x).dram = x.dram := rfl
@[simp] theorem updEnv_pools (f : EnvStore → EnvStore) (x : Half) : (updEnv f x).pools = x.pools := rfl
@[simp] theorem updEnv_dma (f : EnvStore → EnvStore) (x : Half) : (updEnv f x).dma = x.dma := rfl
@[simp] theorem updEnv_icu (f : EnvStore → EnvStore) (x : Half) : (updEnv f x).icu = x.icu := rfl
@[simp] theorem updEnv_pcie (f : EnvStore → EnvStore) (x : Half) : (updEnv f x).pcie = x.pcie := rfl
@[simp] theorem updEnv_ctr (f : EnvStore → EnvStore) (x : Half) : (updEnv f x).ctr = x.ctr := rfl
@[simp] theorem updEnv_flt (f : EnvStore → EnvStore) (x : Half) : (updEnv f x).flt = x.flt := rfl
@[simp] theorem updEnv_bri (f : EnvStore → EnvStore) (x : Half) : (updEnv f x).bri = x.bri := rfl
@[simp] theorem updEnv_boot (f : EnvStore → EnvStore) (x : Half) : (updEnv f x).boot = x.boot := rfl
@[simp] theorem updEnv_pwr (f : EnvStore → EnvStore) (x : Half) : (updEnv f x).pwr = x.pwr := rfl
@[simp] theorem updEnv_ptp (f : EnvStore → EnvStore) (x : Half) : (updEnv f x).ptp = x.ptp := rfl
@[simp] theorem updEnv_fabric (f : EnvStore → EnvStore) (x : Half) : (updEnv f x).fabric = x.fabric := rfl
@[simp] theorem updEnv_lastRead (f : EnvStore → EnvStore) (x : Half) : (updEnv f x).lastRead = x.lastRead := rfl
@[simp] theorem updEnv_out (f : EnvStore → EnvStore) (x : Half) : (updEnv f x).out = x.out := rfl

/-! The objects. -/

@[simp] theorem updInput_clk (i : Nat) (f : InputSt → InputSt) (x : Half) : (updInput i f x).clk = x.clk := rfl
@[simp] theorem updInput_rings (i : Nat) (f : InputSt → InputSt) (x : Half) : (updInput i f x).rings = x.rings := rfl
@[simp] theorem updInput_ev (i : Nat) (f : InputSt → InputSt) (x : Half) : (updInput i f x).ev = x.ev := rfl
@[simp] theorem updInput_asr (i : Nat) (f : InputSt → InputSt) (x : Half) : (updInput i f x).asr = x.asr := rfl
@[simp] theorem updInput_env (i : Nat) (f : InputSt → InputSt) (x : Half) : (updInput i f x).env = x.env := rfl
@[simp] theorem updInput_enc (i : Nat) (f : InputSt → InputSt) (x : Half) : (updInput i f x).enc = x.enc := rfl
@[simp] theorem updInput_dec (i : Nat) (f : InputSt → InputSt) (x : Half) : (updInput i f x).dec = x.dec := rfl
@[simp] theorem updInput_cmp (i : Nat) (f : InputSt → InputSt) (x : Half) : (updInput i f x).cmp = x.cmp := rfl
@[simp] theorem updInput_dch (i : Nat) (f : InputSt → InputSt) (x : Half) : (updInput i f x).dch = x.dch := rfl
@[simp] theorem updInput_net (i : Nat) (f : InputSt → InputSt) (x : Half) : (updInput i f x).net = x.net := rfl
@[simp] theorem updInput_dram (i : Nat) (f : InputSt → InputSt) (x : Half) : (updInput i f x).dram = x.dram := rfl
@[simp] theorem updInput_pools (i : Nat) (f : InputSt → InputSt) (x : Half) : (updInput i f x).pools = x.pools := rfl
@[simp] theorem updInput_dma (i : Nat) (f : InputSt → InputSt) (x : Half) : (updInput i f x).dma = x.dma := rfl
@[simp] theorem updInput_icu (i : Nat) (f : InputSt → InputSt) (x : Half) : (updInput i f x).icu = x.icu := rfl
@[simp] theorem updInput_pcie (i : Nat) (f : InputSt → InputSt) (x : Half) : (updInput i f x).pcie = x.pcie := rfl
@[simp] theorem updInput_ctr (i : Nat) (f : InputSt → InputSt) (x : Half) : (updInput i f x).ctr = x.ctr := rfl
@[simp] theorem updInput_flt (i : Nat) (f : InputSt → InputSt) (x : Half) : (updInput i f x).flt = x.flt := rfl
@[simp] theorem updInput_bri (i : Nat) (f : InputSt → InputSt) (x : Half) : (updInput i f x).bri = x.bri := rfl
@[simp] theorem updInput_boot (i : Nat) (f : InputSt → InputSt) (x : Half) : (updInput i f x).boot = x.boot := rfl
@[simp] theorem updInput_pwr (i : Nat) (f : InputSt → InputSt) (x : Half) : (updInput i f x).pwr = x.pwr := rfl
@[simp] theorem updInput_ptp (i : Nat) (f : InputSt → InputSt) (x : Half) : (updInput i f x).ptp = x.ptp := rfl
@[simp] theorem updInput_fabric (i : Nat) (f : InputSt → InputSt) (x : Half) : (updInput i f x).fabric = x.fabric := rfl
@[simp] theorem updInput_lastRead (i : Nat) (f : InputSt → InputSt) (x : Half) : (updInput i f x).lastRead = x.lastRead := rfl
@[simp] theorem updInput_out (i : Nat) (f : InputSt → InputSt) (x : Half) : (updInput i f x).out = x.out := rfl

@[simp] theorem updDecode_clk (i : Nat) (f : DecodeSt → DecodeSt) (x : Half) : (updDecode i f x).clk = x.clk := rfl
@[simp] theorem updDecode_rings (i : Nat) (f : DecodeSt → DecodeSt) (x : Half) : (updDecode i f x).rings = x.rings := rfl
@[simp] theorem updDecode_ev (i : Nat) (f : DecodeSt → DecodeSt) (x : Half) : (updDecode i f x).ev = x.ev := rfl
@[simp] theorem updDecode_asr (i : Nat) (f : DecodeSt → DecodeSt) (x : Half) : (updDecode i f x).asr = x.asr := rfl
@[simp] theorem updDecode_env (i : Nat) (f : DecodeSt → DecodeSt) (x : Half) : (updDecode i f x).env = x.env := rfl
@[simp] theorem updDecode_enc (i : Nat) (f : DecodeSt → DecodeSt) (x : Half) : (updDecode i f x).enc = x.enc := rfl
@[simp] theorem updDecode_dec (i : Nat) (f : DecodeSt → DecodeSt) (x : Half) : (updDecode i f x).dec = x.dec := rfl
@[simp] theorem updDecode_cmp (i : Nat) (f : DecodeSt → DecodeSt) (x : Half) : (updDecode i f x).cmp = x.cmp := rfl
@[simp] theorem updDecode_dch (i : Nat) (f : DecodeSt → DecodeSt) (x : Half) : (updDecode i f x).dch = x.dch := rfl
@[simp] theorem updDecode_net (i : Nat) (f : DecodeSt → DecodeSt) (x : Half) : (updDecode i f x).net = x.net := rfl
@[simp] theorem updDecode_dram (i : Nat) (f : DecodeSt → DecodeSt) (x : Half) : (updDecode i f x).dram = x.dram := rfl
@[simp] theorem updDecode_pools (i : Nat) (f : DecodeSt → DecodeSt) (x : Half) : (updDecode i f x).pools = x.pools := rfl
@[simp] theorem updDecode_dma (i : Nat) (f : DecodeSt → DecodeSt) (x : Half) : (updDecode i f x).dma = x.dma := rfl
@[simp] theorem updDecode_icu (i : Nat) (f : DecodeSt → DecodeSt) (x : Half) : (updDecode i f x).icu = x.icu := rfl
@[simp] theorem updDecode_pcie (i : Nat) (f : DecodeSt → DecodeSt) (x : Half) : (updDecode i f x).pcie = x.pcie := rfl
@[simp] theorem updDecode_ctr (i : Nat) (f : DecodeSt → DecodeSt) (x : Half) : (updDecode i f x).ctr = x.ctr := rfl
@[simp] theorem updDecode_flt (i : Nat) (f : DecodeSt → DecodeSt) (x : Half) : (updDecode i f x).flt = x.flt := rfl
@[simp] theorem updDecode_bri (i : Nat) (f : DecodeSt → DecodeSt) (x : Half) : (updDecode i f x).bri = x.bri := rfl
@[simp] theorem updDecode_boot (i : Nat) (f : DecodeSt → DecodeSt) (x : Half) : (updDecode i f x).boot = x.boot := rfl
@[simp] theorem updDecode_pwr (i : Nat) (f : DecodeSt → DecodeSt) (x : Half) : (updDecode i f x).pwr = x.pwr := rfl
@[simp] theorem updDecode_ptp (i : Nat) (f : DecodeSt → DecodeSt) (x : Half) : (updDecode i f x).ptp = x.ptp := rfl
@[simp] theorem updDecode_fabric (i : Nat) (f : DecodeSt → DecodeSt) (x : Half) : (updDecode i f x).fabric = x.fabric := rfl
@[simp] theorem updDecode_lastRead (i : Nat) (f : DecodeSt → DecodeSt) (x : Half) : (updDecode i f x).lastRead = x.lastRead := rfl
@[simp] theorem updDecode_out (i : Nat) (f : DecodeSt → DecodeSt) (x : Half) : (updDecode i f x).out = x.out := rfl

@[simp] theorem updSurface_clk (i : Nat) (f : SurfaceSt → SurfaceSt) (x : Half) : (updSurface i f x).clk = x.clk := rfl
@[simp] theorem updSurface_rings (i : Nat) (f : SurfaceSt → SurfaceSt) (x : Half) : (updSurface i f x).rings = x.rings := rfl
@[simp] theorem updSurface_ev (i : Nat) (f : SurfaceSt → SurfaceSt) (x : Half) : (updSurface i f x).ev = x.ev := rfl
@[simp] theorem updSurface_asr (i : Nat) (f : SurfaceSt → SurfaceSt) (x : Half) : (updSurface i f x).asr = x.asr := rfl
@[simp] theorem updSurface_env (i : Nat) (f : SurfaceSt → SurfaceSt) (x : Half) : (updSurface i f x).env = x.env := rfl
@[simp] theorem updSurface_enc (i : Nat) (f : SurfaceSt → SurfaceSt) (x : Half) : (updSurface i f x).enc = x.enc := rfl
@[simp] theorem updSurface_dec (i : Nat) (f : SurfaceSt → SurfaceSt) (x : Half) : (updSurface i f x).dec = x.dec := rfl
@[simp] theorem updSurface_cmp (i : Nat) (f : SurfaceSt → SurfaceSt) (x : Half) : (updSurface i f x).cmp = x.cmp := rfl
@[simp] theorem updSurface_dch (i : Nat) (f : SurfaceSt → SurfaceSt) (x : Half) : (updSurface i f x).dch = x.dch := rfl
@[simp] theorem updSurface_net (i : Nat) (f : SurfaceSt → SurfaceSt) (x : Half) : (updSurface i f x).net = x.net := rfl
@[simp] theorem updSurface_dram (i : Nat) (f : SurfaceSt → SurfaceSt) (x : Half) : (updSurface i f x).dram = x.dram := rfl
@[simp] theorem updSurface_pools (i : Nat) (f : SurfaceSt → SurfaceSt) (x : Half) : (updSurface i f x).pools = x.pools := rfl
@[simp] theorem updSurface_dma (i : Nat) (f : SurfaceSt → SurfaceSt) (x : Half) : (updSurface i f x).dma = x.dma := rfl
@[simp] theorem updSurface_icu (i : Nat) (f : SurfaceSt → SurfaceSt) (x : Half) : (updSurface i f x).icu = x.icu := rfl
@[simp] theorem updSurface_pcie (i : Nat) (f : SurfaceSt → SurfaceSt) (x : Half) : (updSurface i f x).pcie = x.pcie := rfl
@[simp] theorem updSurface_ctr (i : Nat) (f : SurfaceSt → SurfaceSt) (x : Half) : (updSurface i f x).ctr = x.ctr := rfl
@[simp] theorem updSurface_flt (i : Nat) (f : SurfaceSt → SurfaceSt) (x : Half) : (updSurface i f x).flt = x.flt := rfl
@[simp] theorem updSurface_bri (i : Nat) (f : SurfaceSt → SurfaceSt) (x : Half) : (updSurface i f x).bri = x.bri := rfl
@[simp] theorem updSurface_boot (i : Nat) (f : SurfaceSt → SurfaceSt) (x : Half) : (updSurface i f x).boot = x.boot := rfl
@[simp] theorem updSurface_pwr (i : Nat) (f : SurfaceSt → SurfaceSt) (x : Half) : (updSurface i f x).pwr = x.pwr := rfl
@[simp] theorem updSurface_ptp (i : Nat) (f : SurfaceSt → SurfaceSt) (x : Half) : (updSurface i f x).ptp = x.ptp := rfl
@[simp] theorem updSurface_fabric (i : Nat) (f : SurfaceSt → SurfaceSt) (x : Half) : (updSurface i f x).fabric = x.fabric := rfl
@[simp] theorem updSurface_lastRead (i : Nat) (f : SurfaceSt → SurfaceSt) (x : Half) : (updSurface i f x).lastRead = x.lastRead := rfl
@[simp] theorem updSurface_out (i : Nat) (f : SurfaceSt → SurfaceSt) (x : Half) : (updSurface i f x).out = x.out := rfl

@[simp] theorem updCanvas_clk (i : Nat) (f : CanvasSt → CanvasSt) (x : Half) : (updCanvas i f x).clk = x.clk := rfl
@[simp] theorem updCanvas_rings (i : Nat) (f : CanvasSt → CanvasSt) (x : Half) : (updCanvas i f x).rings = x.rings := rfl
@[simp] theorem updCanvas_ev (i : Nat) (f : CanvasSt → CanvasSt) (x : Half) : (updCanvas i f x).ev = x.ev := rfl
@[simp] theorem updCanvas_asr (i : Nat) (f : CanvasSt → CanvasSt) (x : Half) : (updCanvas i f x).asr = x.asr := rfl
@[simp] theorem updCanvas_env (i : Nat) (f : CanvasSt → CanvasSt) (x : Half) : (updCanvas i f x).env = x.env := rfl
@[simp] theorem updCanvas_enc (i : Nat) (f : CanvasSt → CanvasSt) (x : Half) : (updCanvas i f x).enc = x.enc := rfl
@[simp] theorem updCanvas_dec (i : Nat) (f : CanvasSt → CanvasSt) (x : Half) : (updCanvas i f x).dec = x.dec := rfl
@[simp] theorem updCanvas_cmp (i : Nat) (f : CanvasSt → CanvasSt) (x : Half) : (updCanvas i f x).cmp = x.cmp := rfl
@[simp] theorem updCanvas_dch (i : Nat) (f : CanvasSt → CanvasSt) (x : Half) : (updCanvas i f x).dch = x.dch := rfl
@[simp] theorem updCanvas_net (i : Nat) (f : CanvasSt → CanvasSt) (x : Half) : (updCanvas i f x).net = x.net := rfl
@[simp] theorem updCanvas_dram (i : Nat) (f : CanvasSt → CanvasSt) (x : Half) : (updCanvas i f x).dram = x.dram := rfl
@[simp] theorem updCanvas_pools (i : Nat) (f : CanvasSt → CanvasSt) (x : Half) : (updCanvas i f x).pools = x.pools := rfl
@[simp] theorem updCanvas_dma (i : Nat) (f : CanvasSt → CanvasSt) (x : Half) : (updCanvas i f x).dma = x.dma := rfl
@[simp] theorem updCanvas_icu (i : Nat) (f : CanvasSt → CanvasSt) (x : Half) : (updCanvas i f x).icu = x.icu := rfl
@[simp] theorem updCanvas_pcie (i : Nat) (f : CanvasSt → CanvasSt) (x : Half) : (updCanvas i f x).pcie = x.pcie := rfl
@[simp] theorem updCanvas_ctr (i : Nat) (f : CanvasSt → CanvasSt) (x : Half) : (updCanvas i f x).ctr = x.ctr := rfl
@[simp] theorem updCanvas_flt (i : Nat) (f : CanvasSt → CanvasSt) (x : Half) : (updCanvas i f x).flt = x.flt := rfl
@[simp] theorem updCanvas_bri (i : Nat) (f : CanvasSt → CanvasSt) (x : Half) : (updCanvas i f x).bri = x.bri := rfl
@[simp] theorem updCanvas_boot (i : Nat) (f : CanvasSt → CanvasSt) (x : Half) : (updCanvas i f x).boot = x.boot := rfl
@[simp] theorem updCanvas_pwr (i : Nat) (f : CanvasSt → CanvasSt) (x : Half) : (updCanvas i f x).pwr = x.pwr := rfl
@[simp] theorem updCanvas_ptp (i : Nat) (f : CanvasSt → CanvasSt) (x : Half) : (updCanvas i f x).ptp = x.ptp := rfl
@[simp] theorem updCanvas_fabric (i : Nat) (f : CanvasSt → CanvasSt) (x : Half) : (updCanvas i f x).fabric = x.fabric := rfl
@[simp] theorem updCanvas_lastRead (i : Nat) (f : CanvasSt → CanvasSt) (x : Half) : (updCanvas i f x).lastRead = x.lastRead := rfl
@[simp] theorem updCanvas_out (i : Nat) (f : CanvasSt → CanvasSt) (x : Half) : (updCanvas i f x).out = x.out := rfl

@[simp] theorem updEncode_clk (i : Nat) (f : EncodeSt → EncodeSt) (x : Half) : (updEncode i f x).clk = x.clk := rfl
@[simp] theorem updEncode_rings (i : Nat) (f : EncodeSt → EncodeSt) (x : Half) : (updEncode i f x).rings = x.rings := rfl
@[simp] theorem updEncode_ev (i : Nat) (f : EncodeSt → EncodeSt) (x : Half) : (updEncode i f x).ev = x.ev := rfl
@[simp] theorem updEncode_asr (i : Nat) (f : EncodeSt → EncodeSt) (x : Half) : (updEncode i f x).asr = x.asr := rfl
@[simp] theorem updEncode_env (i : Nat) (f : EncodeSt → EncodeSt) (x : Half) : (updEncode i f x).env = x.env := rfl
@[simp] theorem updEncode_enc (i : Nat) (f : EncodeSt → EncodeSt) (x : Half) : (updEncode i f x).enc = x.enc := rfl
@[simp] theorem updEncode_dec (i : Nat) (f : EncodeSt → EncodeSt) (x : Half) : (updEncode i f x).dec = x.dec := rfl
@[simp] theorem updEncode_cmp (i : Nat) (f : EncodeSt → EncodeSt) (x : Half) : (updEncode i f x).cmp = x.cmp := rfl
@[simp] theorem updEncode_dch (i : Nat) (f : EncodeSt → EncodeSt) (x : Half) : (updEncode i f x).dch = x.dch := rfl
@[simp] theorem updEncode_net (i : Nat) (f : EncodeSt → EncodeSt) (x : Half) : (updEncode i f x).net = x.net := rfl
@[simp] theorem updEncode_dram (i : Nat) (f : EncodeSt → EncodeSt) (x : Half) : (updEncode i f x).dram = x.dram := rfl
@[simp] theorem updEncode_pools (i : Nat) (f : EncodeSt → EncodeSt) (x : Half) : (updEncode i f x).pools = x.pools := rfl
@[simp] theorem updEncode_dma (i : Nat) (f : EncodeSt → EncodeSt) (x : Half) : (updEncode i f x).dma = x.dma := rfl
@[simp] theorem updEncode_icu (i : Nat) (f : EncodeSt → EncodeSt) (x : Half) : (updEncode i f x).icu = x.icu := rfl
@[simp] theorem updEncode_pcie (i : Nat) (f : EncodeSt → EncodeSt) (x : Half) : (updEncode i f x).pcie = x.pcie := rfl
@[simp] theorem updEncode_ctr (i : Nat) (f : EncodeSt → EncodeSt) (x : Half) : (updEncode i f x).ctr = x.ctr := rfl
@[simp] theorem updEncode_flt (i : Nat) (f : EncodeSt → EncodeSt) (x : Half) : (updEncode i f x).flt = x.flt := rfl
@[simp] theorem updEncode_bri (i : Nat) (f : EncodeSt → EncodeSt) (x : Half) : (updEncode i f x).bri = x.bri := rfl
@[simp] theorem updEncode_boot (i : Nat) (f : EncodeSt → EncodeSt) (x : Half) : (updEncode i f x).boot = x.boot := rfl
@[simp] theorem updEncode_pwr (i : Nat) (f : EncodeSt → EncodeSt) (x : Half) : (updEncode i f x).pwr = x.pwr := rfl
@[simp] theorem updEncode_ptp (i : Nat) (f : EncodeSt → EncodeSt) (x : Half) : (updEncode i f x).ptp = x.ptp := rfl
@[simp] theorem updEncode_fabric (i : Nat) (f : EncodeSt → EncodeSt) (x : Half) : (updEncode i f x).fabric = x.fabric := rfl
@[simp] theorem updEncode_lastRead (i : Nat) (f : EncodeSt → EncodeSt) (x : Half) : (updEncode i f x).lastRead = x.lastRead := rfl
@[simp] theorem updEncode_out (i : Nat) (f : EncodeSt → EncodeSt) (x : Half) : (updEncode i f x).out = x.out := rfl

@[simp] theorem updShaper_clk (i : Nat) (f : ShaperSt → ShaperSt) (x : Half) : (updShaper i f x).clk = x.clk := rfl
@[simp] theorem updShaper_rings (i : Nat) (f : ShaperSt → ShaperSt) (x : Half) : (updShaper i f x).rings = x.rings := rfl
@[simp] theorem updShaper_ev (i : Nat) (f : ShaperSt → ShaperSt) (x : Half) : (updShaper i f x).ev = x.ev := rfl
@[simp] theorem updShaper_asr (i : Nat) (f : ShaperSt → ShaperSt) (x : Half) : (updShaper i f x).asr = x.asr := rfl
@[simp] theorem updShaper_env (i : Nat) (f : ShaperSt → ShaperSt) (x : Half) : (updShaper i f x).env = x.env := rfl
@[simp] theorem updShaper_enc (i : Nat) (f : ShaperSt → ShaperSt) (x : Half) : (updShaper i f x).enc = x.enc := rfl
@[simp] theorem updShaper_dec (i : Nat) (f : ShaperSt → ShaperSt) (x : Half) : (updShaper i f x).dec = x.dec := rfl
@[simp] theorem updShaper_cmp (i : Nat) (f : ShaperSt → ShaperSt) (x : Half) : (updShaper i f x).cmp = x.cmp := rfl
@[simp] theorem updShaper_dch (i : Nat) (f : ShaperSt → ShaperSt) (x : Half) : (updShaper i f x).dch = x.dch := rfl
@[simp] theorem updShaper_net (i : Nat) (f : ShaperSt → ShaperSt) (x : Half) : (updShaper i f x).net = x.net := rfl
@[simp] theorem updShaper_dram (i : Nat) (f : ShaperSt → ShaperSt) (x : Half) : (updShaper i f x).dram = x.dram := rfl
@[simp] theorem updShaper_pools (i : Nat) (f : ShaperSt → ShaperSt) (x : Half) : (updShaper i f x).pools = x.pools := rfl
@[simp] theorem updShaper_dma (i : Nat) (f : ShaperSt → ShaperSt) (x : Half) : (updShaper i f x).dma = x.dma := rfl
@[simp] theorem updShaper_icu (i : Nat) (f : ShaperSt → ShaperSt) (x : Half) : (updShaper i f x).icu = x.icu := rfl
@[simp] theorem updShaper_pcie (i : Nat) (f : ShaperSt → ShaperSt) (x : Half) : (updShaper i f x).pcie = x.pcie := rfl
@[simp] theorem updShaper_ctr (i : Nat) (f : ShaperSt → ShaperSt) (x : Half) : (updShaper i f x).ctr = x.ctr := rfl
@[simp] theorem updShaper_flt (i : Nat) (f : ShaperSt → ShaperSt) (x : Half) : (updShaper i f x).flt = x.flt := rfl
@[simp] theorem updShaper_bri (i : Nat) (f : ShaperSt → ShaperSt) (x : Half) : (updShaper i f x).bri = x.bri := rfl
@[simp] theorem updShaper_boot (i : Nat) (f : ShaperSt → ShaperSt) (x : Half) : (updShaper i f x).boot = x.boot := rfl
@[simp] theorem updShaper_pwr (i : Nat) (f : ShaperSt → ShaperSt) (x : Half) : (updShaper i f x).pwr = x.pwr := rfl
@[simp] theorem updShaper_ptp (i : Nat) (f : ShaperSt → ShaperSt) (x : Half) : (updShaper i f x).ptp = x.ptp := rfl
@[simp] theorem updShaper_fabric (i : Nat) (f : ShaperSt → ShaperSt) (x : Half) : (updShaper i f x).fabric = x.fabric := rfl
@[simp] theorem updShaper_lastRead (i : Nat) (f : ShaperSt → ShaperSt) (x : Half) : (updShaper i f x).lastRead = x.lastRead := rfl
@[simp] theorem updShaper_out (i : Nat) (f : ShaperSt → ShaperSt) (x : Half) : (updShaper i f x).out = x.out := rfl

@[simp] theorem updFlow_clk (i : Nat) (f : FlowSt → FlowSt) (x : Half) : (updFlow i f x).clk = x.clk := rfl
@[simp] theorem updFlow_rings (i : Nat) (f : FlowSt → FlowSt) (x : Half) : (updFlow i f x).rings = x.rings := rfl
@[simp] theorem updFlow_ev (i : Nat) (f : FlowSt → FlowSt) (x : Half) : (updFlow i f x).ev = x.ev := rfl
@[simp] theorem updFlow_asr (i : Nat) (f : FlowSt → FlowSt) (x : Half) : (updFlow i f x).asr = x.asr := rfl
@[simp] theorem updFlow_env (i : Nat) (f : FlowSt → FlowSt) (x : Half) : (updFlow i f x).env = x.env := rfl
@[simp] theorem updFlow_enc (i : Nat) (f : FlowSt → FlowSt) (x : Half) : (updFlow i f x).enc = x.enc := rfl
@[simp] theorem updFlow_dec (i : Nat) (f : FlowSt → FlowSt) (x : Half) : (updFlow i f x).dec = x.dec := rfl
@[simp] theorem updFlow_cmp (i : Nat) (f : FlowSt → FlowSt) (x : Half) : (updFlow i f x).cmp = x.cmp := rfl
@[simp] theorem updFlow_dch (i : Nat) (f : FlowSt → FlowSt) (x : Half) : (updFlow i f x).dch = x.dch := rfl
@[simp] theorem updFlow_net (i : Nat) (f : FlowSt → FlowSt) (x : Half) : (updFlow i f x).net = x.net := rfl
@[simp] theorem updFlow_dram (i : Nat) (f : FlowSt → FlowSt) (x : Half) : (updFlow i f x).dram = x.dram := rfl
@[simp] theorem updFlow_pools (i : Nat) (f : FlowSt → FlowSt) (x : Half) : (updFlow i f x).pools = x.pools := rfl
@[simp] theorem updFlow_dma (i : Nat) (f : FlowSt → FlowSt) (x : Half) : (updFlow i f x).dma = x.dma := rfl
@[simp] theorem updFlow_icu (i : Nat) (f : FlowSt → FlowSt) (x : Half) : (updFlow i f x).icu = x.icu := rfl
@[simp] theorem updFlow_pcie (i : Nat) (f : FlowSt → FlowSt) (x : Half) : (updFlow i f x).pcie = x.pcie := rfl
@[simp] theorem updFlow_ctr (i : Nat) (f : FlowSt → FlowSt) (x : Half) : (updFlow i f x).ctr = x.ctr := rfl
@[simp] theorem updFlow_flt (i : Nat) (f : FlowSt → FlowSt) (x : Half) : (updFlow i f x).flt = x.flt := rfl
@[simp] theorem updFlow_bri (i : Nat) (f : FlowSt → FlowSt) (x : Half) : (updFlow i f x).bri = x.bri := rfl
@[simp] theorem updFlow_boot (i : Nat) (f : FlowSt → FlowSt) (x : Half) : (updFlow i f x).boot = x.boot := rfl
@[simp] theorem updFlow_pwr (i : Nat) (f : FlowSt → FlowSt) (x : Half) : (updFlow i f x).pwr = x.pwr := rfl
@[simp] theorem updFlow_ptp (i : Nat) (f : FlowSt → FlowSt) (x : Half) : (updFlow i f x).ptp = x.ptp := rfl
@[simp] theorem updFlow_fabric (i : Nat) (f : FlowSt → FlowSt) (x : Half) : (updFlow i f x).fabric = x.fabric := rfl
@[simp] theorem updFlow_lastRead (i : Nat) (f : FlowSt → FlowSt) (x : Half) : (updFlow i f x).lastRead = x.lastRead := rfl
@[simp] theorem updFlow_out (i : Nat) (f : FlowSt → FlowSt) (x : Half) : (updFlow i f x).out = x.out := rfl

@[simp] theorem updCluster_clk (i : Nat) (f : EncCluster → EncCluster) (x : Half) : (updCluster i f x).clk = x.clk := rfl
@[simp] theorem updCluster_rings (i : Nat) (f : EncCluster → EncCluster) (x : Half) : (updCluster i f x).rings = x.rings := rfl
@[simp] theorem updCluster_ev (i : Nat) (f : EncCluster → EncCluster) (x : Half) : (updCluster i f x).ev = x.ev := rfl
@[simp] theorem updCluster_asr (i : Nat) (f : EncCluster → EncCluster) (x : Half) : (updCluster i f x).asr = x.asr := rfl
@[simp] theorem updCluster_env (i : Nat) (f : EncCluster → EncCluster) (x : Half) : (updCluster i f x).env = x.env := rfl
@[simp] theorem updCluster_enc (i : Nat) (f : EncCluster → EncCluster) (x : Half) : (updCluster i f x).enc = x.enc := rfl
@[simp] theorem updCluster_dec (i : Nat) (f : EncCluster → EncCluster) (x : Half) : (updCluster i f x).dec = x.dec := rfl
@[simp] theorem updCluster_cmp (i : Nat) (f : EncCluster → EncCluster) (x : Half) : (updCluster i f x).cmp = x.cmp := rfl
@[simp] theorem updCluster_dch (i : Nat) (f : EncCluster → EncCluster) (x : Half) : (updCluster i f x).dch = x.dch := rfl
@[simp] theorem updCluster_net (i : Nat) (f : EncCluster → EncCluster) (x : Half) : (updCluster i f x).net = x.net := rfl
@[simp] theorem updCluster_dram (i : Nat) (f : EncCluster → EncCluster) (x : Half) : (updCluster i f x).dram = x.dram := rfl
@[simp] theorem updCluster_pools (i : Nat) (f : EncCluster → EncCluster) (x : Half) : (updCluster i f x).pools = x.pools := rfl
@[simp] theorem updCluster_dma (i : Nat) (f : EncCluster → EncCluster) (x : Half) : (updCluster i f x).dma = x.dma := rfl
@[simp] theorem updCluster_icu (i : Nat) (f : EncCluster → EncCluster) (x : Half) : (updCluster i f x).icu = x.icu := rfl
@[simp] theorem updCluster_pcie (i : Nat) (f : EncCluster → EncCluster) (x : Half) : (updCluster i f x).pcie = x.pcie := rfl
@[simp] theorem updCluster_ctr (i : Nat) (f : EncCluster → EncCluster) (x : Half) : (updCluster i f x).ctr = x.ctr := rfl
@[simp] theorem updCluster_flt (i : Nat) (f : EncCluster → EncCluster) (x : Half) : (updCluster i f x).flt = x.flt := rfl
@[simp] theorem updCluster_bri (i : Nat) (f : EncCluster → EncCluster) (x : Half) : (updCluster i f x).bri = x.bri := rfl
@[simp] theorem updCluster_boot (i : Nat) (f : EncCluster → EncCluster) (x : Half) : (updCluster i f x).boot = x.boot := rfl
@[simp] theorem updCluster_pwr (i : Nat) (f : EncCluster → EncCluster) (x : Half) : (updCluster i f x).pwr = x.pwr := rfl
@[simp] theorem updCluster_ptp (i : Nat) (f : EncCluster → EncCluster) (x : Half) : (updCluster i f x).ptp = x.ptp := rfl
@[simp] theorem updCluster_fabric (i : Nat) (f : EncCluster → EncCluster) (x : Half) : (updCluster i f x).fabric = x.fabric := rfl
@[simp] theorem updCluster_lastRead (i : Nat) (f : EncCluster → EncCluster) (x : Half) : (updCluster i f x).lastRead = x.lastRead := rfl
@[simp] theorem updCluster_out (i : Nat) (f : EncCluster → EncCluster) (x : Half) : (updCluster i f x).out = x.out := rfl

/-! Ports. -/

@[simp] theorem updPort_clk (i : Nat) (f : PortSt → PortSt) (x : Half) : (updPort i f x).clk = x.clk := rfl
@[simp] theorem updPort_rings (i : Nat) (f : PortSt → PortSt) (x : Half) : (updPort i f x).rings = x.rings := rfl
@[simp] theorem updPort_ev (i : Nat) (f : PortSt → PortSt) (x : Half) : (updPort i f x).ev = x.ev := rfl
@[simp] theorem updPort_asr (i : Nat) (f : PortSt → PortSt) (x : Half) : (updPort i f x).asr = x.asr := rfl
@[simp] theorem updPort_env (i : Nat) (f : PortSt → PortSt) (x : Half) : (updPort i f x).env = x.env := rfl
@[simp] theorem updPort_obj (i : Nat) (f : PortSt → PortSt) (x : Half) : (updPort i f x).obj = x.obj := rfl
@[simp] theorem updPort_enc (i : Nat) (f : PortSt → PortSt) (x : Half) : (updPort i f x).enc = x.enc := rfl
@[simp] theorem updPort_dec (i : Nat) (f : PortSt → PortSt) (x : Half) : (updPort i f x).dec = x.dec := rfl
@[simp] theorem updPort_cmp (i : Nat) (f : PortSt → PortSt) (x : Half) : (updPort i f x).cmp = x.cmp := rfl
@[simp] theorem updPort_dch (i : Nat) (f : PortSt → PortSt) (x : Half) : (updPort i f x).dch = x.dch := rfl
@[simp] theorem updPort_dram (i : Nat) (f : PortSt → PortSt) (x : Half) : (updPort i f x).dram = x.dram := rfl
@[simp] theorem updPort_pools (i : Nat) (f : PortSt → PortSt) (x : Half) : (updPort i f x).pools = x.pools := rfl
@[simp] theorem updPort_dma (i : Nat) (f : PortSt → PortSt) (x : Half) : (updPort i f x).dma = x.dma := rfl
@[simp] theorem updPort_icu (i : Nat) (f : PortSt → PortSt) (x : Half) : (updPort i f x).icu = x.icu := rfl
@[simp] theorem updPort_pcie (i : Nat) (f : PortSt → PortSt) (x : Half) : (updPort i f x).pcie = x.pcie := rfl
@[simp] theorem updPort_ctr (i : Nat) (f : PortSt → PortSt) (x : Half) : (updPort i f x).ctr = x.ctr := rfl
@[simp] theorem updPort_flt (i : Nat) (f : PortSt → PortSt) (x : Half) : (updPort i f x).flt = x.flt := rfl
@[simp] theorem updPort_bri (i : Nat) (f : PortSt → PortSt) (x : Half) : (updPort i f x).bri = x.bri := rfl
@[simp] theorem updPort_boot (i : Nat) (f : PortSt → PortSt) (x : Half) : (updPort i f x).boot = x.boot := rfl
@[simp] theorem updPort_pwr (i : Nat) (f : PortSt → PortSt) (x : Half) : (updPort i f x).pwr = x.pwr := rfl
@[simp] theorem updPort_ptp (i : Nat) (f : PortSt → PortSt) (x : Half) : (updPort i f x).ptp = x.ptp := rfl
@[simp] theorem updPort_fabric (i : Nat) (f : PortSt → PortSt) (x : Half) : (updPort i f x).fabric = x.fabric := rfl
@[simp] theorem updPort_lastRead (i : Nat) (f : PortSt → PortSt) (x : Half) : (updPort i f x).lastRead = x.lastRead := rfl
@[simp] theorem updPort_out (i : Nat) (f : PortSt → PortSt) (x : Half) : (updPort i f x).out = x.out := rfl

/-! DRAM channels. -/

@[simp] theorem updChannel_clk (i : Nat) (f : ChannelSt → ChannelSt) (x : Half) : (updChannel i f x).clk = x.clk := rfl
@[simp] theorem updChannel_rings (i : Nat) (f : ChannelSt → ChannelSt) (x : Half) : (updChannel i f x).rings = x.rings := rfl
@[simp] theorem updChannel_ev (i : Nat) (f : ChannelSt → ChannelSt) (x : Half) : (updChannel i f x).ev = x.ev := rfl
@[simp] theorem updChannel_asr (i : Nat) (f : ChannelSt → ChannelSt) (x : Half) : (updChannel i f x).asr = x.asr := rfl
@[simp] theorem updChannel_env (i : Nat) (f : ChannelSt → ChannelSt) (x : Half) : (updChannel i f x).env = x.env := rfl
@[simp] theorem updChannel_obj (i : Nat) (f : ChannelSt → ChannelSt) (x : Half) : (updChannel i f x).obj = x.obj := rfl
@[simp] theorem updChannel_enc (i : Nat) (f : ChannelSt → ChannelSt) (x : Half) : (updChannel i f x).enc = x.enc := rfl
@[simp] theorem updChannel_dec (i : Nat) (f : ChannelSt → ChannelSt) (x : Half) : (updChannel i f x).dec = x.dec := rfl
@[simp] theorem updChannel_cmp (i : Nat) (f : ChannelSt → ChannelSt) (x : Half) : (updChannel i f x).cmp = x.cmp := rfl
@[simp] theorem updChannel_net (i : Nat) (f : ChannelSt → ChannelSt) (x : Half) : (updChannel i f x).net = x.net := rfl
@[simp] theorem updChannel_dram (i : Nat) (f : ChannelSt → ChannelSt) (x : Half) : (updChannel i f x).dram = x.dram := rfl
@[simp] theorem updChannel_pools (i : Nat) (f : ChannelSt → ChannelSt) (x : Half) : (updChannel i f x).pools = x.pools := rfl
@[simp] theorem updChannel_dma (i : Nat) (f : ChannelSt → ChannelSt) (x : Half) : (updChannel i f x).dma = x.dma := rfl
@[simp] theorem updChannel_icu (i : Nat) (f : ChannelSt → ChannelSt) (x : Half) : (updChannel i f x).icu = x.icu := rfl
@[simp] theorem updChannel_pcie (i : Nat) (f : ChannelSt → ChannelSt) (x : Half) : (updChannel i f x).pcie = x.pcie := rfl
@[simp] theorem updChannel_ctr (i : Nat) (f : ChannelSt → ChannelSt) (x : Half) : (updChannel i f x).ctr = x.ctr := rfl
@[simp] theorem updChannel_flt (i : Nat) (f : ChannelSt → ChannelSt) (x : Half) : (updChannel i f x).flt = x.flt := rfl
@[simp] theorem updChannel_bri (i : Nat) (f : ChannelSt → ChannelSt) (x : Half) : (updChannel i f x).bri = x.bri := rfl
@[simp] theorem updChannel_boot (i : Nat) (f : ChannelSt → ChannelSt) (x : Half) : (updChannel i f x).boot = x.boot := rfl
@[simp] theorem updChannel_pwr (i : Nat) (f : ChannelSt → ChannelSt) (x : Half) : (updChannel i f x).pwr = x.pwr := rfl
@[simp] theorem updChannel_ptp (i : Nat) (f : ChannelSt → ChannelSt) (x : Half) : (updChannel i f x).ptp = x.ptp := rfl
@[simp] theorem updChannel_fabric (i : Nat) (f : ChannelSt → ChannelSt) (x : Half) : (updChannel i f x).fabric = x.fabric := rfl
@[simp] theorem updChannel_lastRead (i : Nat) (f : ChannelSt → ChannelSt) (x : Half) : (updChannel i f x).lastRead = x.lastRead := rfl
@[simp] theorem updChannel_out (i : Nat) (f : ChannelSt → ChannelSt) (x : Half) : (updChannel i f x).out = x.out := rfl

@[simp] theorem updTrain_clk (i : Nat) (f : TrainSt → TrainSt) (x : Half) : (updTrain i f x).clk = x.clk := rfl
@[simp] theorem updTrain_rings (i : Nat) (f : TrainSt → TrainSt) (x : Half) : (updTrain i f x).rings = x.rings := rfl
@[simp] theorem updTrain_ev (i : Nat) (f : TrainSt → TrainSt) (x : Half) : (updTrain i f x).ev = x.ev := rfl
@[simp] theorem updTrain_asr (i : Nat) (f : TrainSt → TrainSt) (x : Half) : (updTrain i f x).asr = x.asr := rfl
@[simp] theorem updTrain_env (i : Nat) (f : TrainSt → TrainSt) (x : Half) : (updTrain i f x).env = x.env := rfl
@[simp] theorem updTrain_obj (i : Nat) (f : TrainSt → TrainSt) (x : Half) : (updTrain i f x).obj = x.obj := rfl
@[simp] theorem updTrain_enc (i : Nat) (f : TrainSt → TrainSt) (x : Half) : (updTrain i f x).enc = x.enc := rfl
@[simp] theorem updTrain_dec (i : Nat) (f : TrainSt → TrainSt) (x : Half) : (updTrain i f x).dec = x.dec := rfl
@[simp] theorem updTrain_cmp (i : Nat) (f : TrainSt → TrainSt) (x : Half) : (updTrain i f x).cmp = x.cmp := rfl
@[simp] theorem updTrain_net (i : Nat) (f : TrainSt → TrainSt) (x : Half) : (updTrain i f x).net = x.net := rfl
@[simp] theorem updTrain_dram (i : Nat) (f : TrainSt → TrainSt) (x : Half) : (updTrain i f x).dram = x.dram := rfl
@[simp] theorem updTrain_pools (i : Nat) (f : TrainSt → TrainSt) (x : Half) : (updTrain i f x).pools = x.pools := rfl
@[simp] theorem updTrain_dma (i : Nat) (f : TrainSt → TrainSt) (x : Half) : (updTrain i f x).dma = x.dma := rfl
@[simp] theorem updTrain_icu (i : Nat) (f : TrainSt → TrainSt) (x : Half) : (updTrain i f x).icu = x.icu := rfl
@[simp] theorem updTrain_pcie (i : Nat) (f : TrainSt → TrainSt) (x : Half) : (updTrain i f x).pcie = x.pcie := rfl
@[simp] theorem updTrain_ctr (i : Nat) (f : TrainSt → TrainSt) (x : Half) : (updTrain i f x).ctr = x.ctr := rfl
@[simp] theorem updTrain_flt (i : Nat) (f : TrainSt → TrainSt) (x : Half) : (updTrain i f x).flt = x.flt := rfl
@[simp] theorem updTrain_bri (i : Nat) (f : TrainSt → TrainSt) (x : Half) : (updTrain i f x).bri = x.bri := rfl
@[simp] theorem updTrain_boot (i : Nat) (f : TrainSt → TrainSt) (x : Half) : (updTrain i f x).boot = x.boot := rfl
@[simp] theorem updTrain_pwr (i : Nat) (f : TrainSt → TrainSt) (x : Half) : (updTrain i f x).pwr = x.pwr := rfl
@[simp] theorem updTrain_ptp (i : Nat) (f : TrainSt → TrainSt) (x : Half) : (updTrain i f x).ptp = x.ptp := rfl
@[simp] theorem updTrain_fabric (i : Nat) (f : TrainSt → TrainSt) (x : Half) : (updTrain i f x).fabric = x.fabric := rfl
@[simp] theorem updTrain_lastRead (i : Nat) (f : TrainSt → TrainSt) (x : Half) : (updTrain i f x).lastRead = x.lastRead := rfl
@[simp] theorem updTrain_out (i : Nat) (f : TrainSt → TrainSt) (x : Half) : (updTrain i f x).out = x.out := rfl

/-! Buffer pools. -/

@[simp] theorem updPool_clk (i : Nat) (f : PoolSt → PoolSt) (x : Half) : (updPool i f x).clk = x.clk := rfl
@[simp] theorem updPool_rings (i : Nat) (f : PoolSt → PoolSt) (x : Half) : (updPool i f x).rings = x.rings := rfl
@[simp] theorem updPool_ev (i : Nat) (f : PoolSt → PoolSt) (x : Half) : (updPool i f x).ev = x.ev := rfl
@[simp] theorem updPool_asr (i : Nat) (f : PoolSt → PoolSt) (x : Half) : (updPool i f x).asr = x.asr := rfl
@[simp] theorem updPool_env (i : Nat) (f : PoolSt → PoolSt) (x : Half) : (updPool i f x).env = x.env := rfl
@[simp] theorem updPool_obj (i : Nat) (f : PoolSt → PoolSt) (x : Half) : (updPool i f x).obj = x.obj := rfl
@[simp] theorem updPool_enc (i : Nat) (f : PoolSt → PoolSt) (x : Half) : (updPool i f x).enc = x.enc := rfl
@[simp] theorem updPool_dec (i : Nat) (f : PoolSt → PoolSt) (x : Half) : (updPool i f x).dec = x.dec := rfl
@[simp] theorem updPool_cmp (i : Nat) (f : PoolSt → PoolSt) (x : Half) : (updPool i f x).cmp = x.cmp := rfl
@[simp] theorem updPool_dch (i : Nat) (f : PoolSt → PoolSt) (x : Half) : (updPool i f x).dch = x.dch := rfl
@[simp] theorem updPool_net (i : Nat) (f : PoolSt → PoolSt) (x : Half) : (updPool i f x).net = x.net := rfl
@[simp] theorem updPool_dram (i : Nat) (f : PoolSt → PoolSt) (x : Half) : (updPool i f x).dram = x.dram := rfl
@[simp] theorem updPool_dma (i : Nat) (f : PoolSt → PoolSt) (x : Half) : (updPool i f x).dma = x.dma := rfl
@[simp] theorem updPool_icu (i : Nat) (f : PoolSt → PoolSt) (x : Half) : (updPool i f x).icu = x.icu := rfl
@[simp] theorem updPool_pcie (i : Nat) (f : PoolSt → PoolSt) (x : Half) : (updPool i f x).pcie = x.pcie := rfl
@[simp] theorem updPool_ctr (i : Nat) (f : PoolSt → PoolSt) (x : Half) : (updPool i f x).ctr = x.ctr := rfl
@[simp] theorem updPool_flt (i : Nat) (f : PoolSt → PoolSt) (x : Half) : (updPool i f x).flt = x.flt := rfl
@[simp] theorem updPool_bri (i : Nat) (f : PoolSt → PoolSt) (x : Half) : (updPool i f x).bri = x.bri := rfl
@[simp] theorem updPool_boot (i : Nat) (f : PoolSt → PoolSt) (x : Half) : (updPool i f x).boot = x.boot := rfl
@[simp] theorem updPool_pwr (i : Nat) (f : PoolSt → PoolSt) (x : Half) : (updPool i f x).pwr = x.pwr := rfl
@[simp] theorem updPool_ptp (i : Nat) (f : PoolSt → PoolSt) (x : Half) : (updPool i f x).ptp = x.ptp := rfl
@[simp] theorem updPool_fabric (i : Nat) (f : PoolSt → PoolSt) (x : Half) : (updPool i f x).fabric = x.fabric := rfl
@[simp] theorem updPool_lastRead (i : Nat) (f : PoolSt → PoolSt) (x : Half) : (updPool i f x).lastRead = x.lastRead := rfl
@[simp] theorem updPool_out (i : Nat) (f : PoolSt → PoolSt) (x : Half) : (updPool i f x).out = x.out := rfl

/-! DMA channels. -/

@[simp] theorem updChan_clk (i : Nat) (f : DmaChan → DmaChan) (x : Half) : (updChan i f x).clk = x.clk := rfl
@[simp] theorem updChan_rings (i : Nat) (f : DmaChan → DmaChan) (x : Half) : (updChan i f x).rings = x.rings := rfl
@[simp] theorem updChan_ev (i : Nat) (f : DmaChan → DmaChan) (x : Half) : (updChan i f x).ev = x.ev := rfl
@[simp] theorem updChan_asr (i : Nat) (f : DmaChan → DmaChan) (x : Half) : (updChan i f x).asr = x.asr := rfl
@[simp] theorem updChan_env (i : Nat) (f : DmaChan → DmaChan) (x : Half) : (updChan i f x).env = x.env := rfl
@[simp] theorem updChan_obj (i : Nat) (f : DmaChan → DmaChan) (x : Half) : (updChan i f x).obj = x.obj := rfl
@[simp] theorem updChan_enc (i : Nat) (f : DmaChan → DmaChan) (x : Half) : (updChan i f x).enc = x.enc := rfl
@[simp] theorem updChan_dec (i : Nat) (f : DmaChan → DmaChan) (x : Half) : (updChan i f x).dec = x.dec := rfl
@[simp] theorem updChan_cmp (i : Nat) (f : DmaChan → DmaChan) (x : Half) : (updChan i f x).cmp = x.cmp := rfl
@[simp] theorem updChan_dch (i : Nat) (f : DmaChan → DmaChan) (x : Half) : (updChan i f x).dch = x.dch := rfl
@[simp] theorem updChan_net (i : Nat) (f : DmaChan → DmaChan) (x : Half) : (updChan i f x).net = x.net := rfl
@[simp] theorem updChan_dram (i : Nat) (f : DmaChan → DmaChan) (x : Half) : (updChan i f x).dram = x.dram := rfl
@[simp] theorem updChan_pools (i : Nat) (f : DmaChan → DmaChan) (x : Half) : (updChan i f x).pools = x.pools := rfl
@[simp] theorem updChan_icu (i : Nat) (f : DmaChan → DmaChan) (x : Half) : (updChan i f x).icu = x.icu := rfl
@[simp] theorem updChan_pcie (i : Nat) (f : DmaChan → DmaChan) (x : Half) : (updChan i f x).pcie = x.pcie := rfl
@[simp] theorem updChan_ctr (i : Nat) (f : DmaChan → DmaChan) (x : Half) : (updChan i f x).ctr = x.ctr := rfl
@[simp] theorem updChan_flt (i : Nat) (f : DmaChan → DmaChan) (x : Half) : (updChan i f x).flt = x.flt := rfl
@[simp] theorem updChan_bri (i : Nat) (f : DmaChan → DmaChan) (x : Half) : (updChan i f x).bri = x.bri := rfl
@[simp] theorem updChan_boot (i : Nat) (f : DmaChan → DmaChan) (x : Half) : (updChan i f x).boot = x.boot := rfl
@[simp] theorem updChan_pwr (i : Nat) (f : DmaChan → DmaChan) (x : Half) : (updChan i f x).pwr = x.pwr := rfl
@[simp] theorem updChan_ptp (i : Nat) (f : DmaChan → DmaChan) (x : Half) : (updChan i f x).ptp = x.ptp := rfl
@[simp] theorem updChan_fabric (i : Nat) (f : DmaChan → DmaChan) (x : Half) : (updChan i f x).fabric = x.fabric := rfl
@[simp] theorem updChan_lastRead (i : Nat) (f : DmaChan → DmaChan) (x : Half) : (updChan i f x).lastRead = x.lastRead := rfl
@[simp] theorem updChan_out (i : Nat) (f : DmaChan → DmaChan) (x : Half) : (updChan i f x).out = x.out := rfl

/-! Clock islands. -/

@[simp] theorem updIsland_clk (i : Nat) (f : IslandSt → IslandSt) (x : Half) : (updIsland i f x).clk = x.clk := rfl
@[simp] theorem updIsland_rings (i : Nat) (f : IslandSt → IslandSt) (x : Half) : (updIsland i f x).rings = x.rings := rfl
@[simp] theorem updIsland_ev (i : Nat) (f : IslandSt → IslandSt) (x : Half) : (updIsland i f x).ev = x.ev := rfl
@[simp] theorem updIsland_asr (i : Nat) (f : IslandSt → IslandSt) (x : Half) : (updIsland i f x).asr = x.asr := rfl
@[simp] theorem updIsland_env (i : Nat) (f : IslandSt → IslandSt) (x : Half) : (updIsland i f x).env = x.env := rfl
@[simp] theorem updIsland_obj (i : Nat) (f : IslandSt → IslandSt) (x : Half) : (updIsland i f x).obj = x.obj := rfl
@[simp] theorem updIsland_enc (i : Nat) (f : IslandSt → IslandSt) (x : Half) : (updIsland i f x).enc = x.enc := rfl
@[simp] theorem updIsland_dec (i : Nat) (f : IslandSt → IslandSt) (x : Half) : (updIsland i f x).dec = x.dec := rfl
@[simp] theorem updIsland_cmp (i : Nat) (f : IslandSt → IslandSt) (x : Half) : (updIsland i f x).cmp = x.cmp := rfl
@[simp] theorem updIsland_dch (i : Nat) (f : IslandSt → IslandSt) (x : Half) : (updIsland i f x).dch = x.dch := rfl
@[simp] theorem updIsland_net (i : Nat) (f : IslandSt → IslandSt) (x : Half) : (updIsland i f x).net = x.net := rfl
@[simp] theorem updIsland_dram (i : Nat) (f : IslandSt → IslandSt) (x : Half) : (updIsland i f x).dram = x.dram := rfl
@[simp] theorem updIsland_pools (i : Nat) (f : IslandSt → IslandSt) (x : Half) : (updIsland i f x).pools = x.pools := rfl
@[simp] theorem updIsland_dma (i : Nat) (f : IslandSt → IslandSt) (x : Half) : (updIsland i f x).dma = x.dma := rfl
@[simp] theorem updIsland_icu (i : Nat) (f : IslandSt → IslandSt) (x : Half) : (updIsland i f x).icu = x.icu := rfl
@[simp] theorem updIsland_pcie (i : Nat) (f : IslandSt → IslandSt) (x : Half) : (updIsland i f x).pcie = x.pcie := rfl
@[simp] theorem updIsland_ctr (i : Nat) (f : IslandSt → IslandSt) (x : Half) : (updIsland i f x).ctr = x.ctr := rfl
@[simp] theorem updIsland_flt (i : Nat) (f : IslandSt → IslandSt) (x : Half) : (updIsland i f x).flt = x.flt := rfl
@[simp] theorem updIsland_bri (i : Nat) (f : IslandSt → IslandSt) (x : Half) : (updIsland i f x).bri = x.bri := rfl
@[simp] theorem updIsland_boot (i : Nat) (f : IslandSt → IslandSt) (x : Half) : (updIsland i f x).boot = x.boot := rfl
@[simp] theorem updIsland_ptp (i : Nat) (f : IslandSt → IslandSt) (x : Half) : (updIsland i f x).ptp = x.ptp := rfl
@[simp] theorem updIsland_fabric (i : Nat) (f : IslandSt → IslandSt) (x : Half) : (updIsland i f x).fabric = x.fabric := rfl
@[simp] theorem updIsland_lastRead (i : Nat) (f : IslandSt → IslandSt) (x : Half) : (updIsland i f x).lastRead = x.lastRead := rfl
@[simp] theorem updIsland_out (i : Nat) (f : IslandSt → IslandSt) (x : Half) : (updIsland i f x).out = x.out := rfl

/-! The PTP clock. -/

@[simp] theorem updPtp_clk (f : PtpSt → PtpSt) (x : Half) : (updPtp f x).clk = x.clk := rfl
@[simp] theorem updPtp_rings (f : PtpSt → PtpSt) (x : Half) : (updPtp f x).rings = x.rings := rfl
@[simp] theorem updPtp_ev (f : PtpSt → PtpSt) (x : Half) : (updPtp f x).ev = x.ev := rfl
@[simp] theorem updPtp_asr (f : PtpSt → PtpSt) (x : Half) : (updPtp f x).asr = x.asr := rfl
@[simp] theorem updPtp_env (f : PtpSt → PtpSt) (x : Half) : (updPtp f x).env = x.env := rfl
@[simp] theorem updPtp_obj (f : PtpSt → PtpSt) (x : Half) : (updPtp f x).obj = x.obj := rfl
@[simp] theorem updPtp_enc (f : PtpSt → PtpSt) (x : Half) : (updPtp f x).enc = x.enc := rfl
@[simp] theorem updPtp_dec (f : PtpSt → PtpSt) (x : Half) : (updPtp f x).dec = x.dec := rfl
@[simp] theorem updPtp_cmp (f : PtpSt → PtpSt) (x : Half) : (updPtp f x).cmp = x.cmp := rfl
@[simp] theorem updPtp_dch (f : PtpSt → PtpSt) (x : Half) : (updPtp f x).dch = x.dch := rfl
@[simp] theorem updPtp_net (f : PtpSt → PtpSt) (x : Half) : (updPtp f x).net = x.net := rfl
@[simp] theorem updPtp_dram (f : PtpSt → PtpSt) (x : Half) : (updPtp f x).dram = x.dram := rfl
@[simp] theorem updPtp_pools (f : PtpSt → PtpSt) (x : Half) : (updPtp f x).pools = x.pools := rfl
@[simp] theorem updPtp_dma (f : PtpSt → PtpSt) (x : Half) : (updPtp f x).dma = x.dma := rfl
@[simp] theorem updPtp_icu (f : PtpSt → PtpSt) (x : Half) : (updPtp f x).icu = x.icu := rfl
@[simp] theorem updPtp_pcie (f : PtpSt → PtpSt) (x : Half) : (updPtp f x).pcie = x.pcie := rfl
@[simp] theorem updPtp_ctr (f : PtpSt → PtpSt) (x : Half) : (updPtp f x).ctr = x.ctr := rfl
@[simp] theorem updPtp_flt (f : PtpSt → PtpSt) (x : Half) : (updPtp f x).flt = x.flt := rfl
@[simp] theorem updPtp_bri (f : PtpSt → PtpSt) (x : Half) : (updPtp f x).bri = x.bri := rfl
@[simp] theorem updPtp_boot (f : PtpSt → PtpSt) (x : Half) : (updPtp f x).boot = x.boot := rfl
@[simp] theorem updPtp_pwr (f : PtpSt → PtpSt) (x : Half) : (updPtp f x).pwr = x.pwr := rfl
@[simp] theorem updPtp_fabric (f : PtpSt → PtpSt) (x : Half) : (updPtp f x).fabric = x.fabric := rfl
@[simp] theorem updPtp_lastRead (f : PtpSt → PtpSt) (x : Half) : (updPtp f x).lastRead = x.lastRead := rfl
@[simp] theorem updPtp_out (f : PtpSt → PtpSt) (x : Half) : (updPtp f x).out = x.out := rfl

/-! The bridle. -/

@[simp] theorem updBri_clk (f : BridleSt → BridleSt) (x : Half) : (updBri f x).clk = x.clk := rfl
@[simp] theorem updBri_rings (f : BridleSt → BridleSt) (x : Half) : (updBri f x).rings = x.rings := rfl
@[simp] theorem updBri_ev (f : BridleSt → BridleSt) (x : Half) : (updBri f x).ev = x.ev := rfl
@[simp] theorem updBri_asr (f : BridleSt → BridleSt) (x : Half) : (updBri f x).asr = x.asr := rfl
@[simp] theorem updBri_env (f : BridleSt → BridleSt) (x : Half) : (updBri f x).env = x.env := rfl
@[simp] theorem updBri_obj (f : BridleSt → BridleSt) (x : Half) : (updBri f x).obj = x.obj := rfl
@[simp] theorem updBri_enc (f : BridleSt → BridleSt) (x : Half) : (updBri f x).enc = x.enc := rfl
@[simp] theorem updBri_dec (f : BridleSt → BridleSt) (x : Half) : (updBri f x).dec = x.dec := rfl
@[simp] theorem updBri_cmp (f : BridleSt → BridleSt) (x : Half) : (updBri f x).cmp = x.cmp := rfl
@[simp] theorem updBri_dch (f : BridleSt → BridleSt) (x : Half) : (updBri f x).dch = x.dch := rfl
@[simp] theorem updBri_net (f : BridleSt → BridleSt) (x : Half) : (updBri f x).net = x.net := rfl
@[simp] theorem updBri_dram (f : BridleSt → BridleSt) (x : Half) : (updBri f x).dram = x.dram := rfl
@[simp] theorem updBri_pools (f : BridleSt → BridleSt) (x : Half) : (updBri f x).pools = x.pools := rfl
@[simp] theorem updBri_dma (f : BridleSt → BridleSt) (x : Half) : (updBri f x).dma = x.dma := rfl
@[simp] theorem updBri_icu (f : BridleSt → BridleSt) (x : Half) : (updBri f x).icu = x.icu := rfl
@[simp] theorem updBri_pcie (f : BridleSt → BridleSt) (x : Half) : (updBri f x).pcie = x.pcie := rfl
@[simp] theorem updBri_ctr (f : BridleSt → BridleSt) (x : Half) : (updBri f x).ctr = x.ctr := rfl
@[simp] theorem updBri_flt (f : BridleSt → BridleSt) (x : Half) : (updBri f x).flt = x.flt := rfl
@[simp] theorem updBri_boot (f : BridleSt → BridleSt) (x : Half) : (updBri f x).boot = x.boot := rfl
@[simp] theorem updBri_pwr (f : BridleSt → BridleSt) (x : Half) : (updBri f x).pwr = x.pwr := rfl
@[simp] theorem updBri_ptp (f : BridleSt → BridleSt) (x : Half) : (updBri f x).ptp = x.ptp := rfl
@[simp] theorem updBri_fabric (f : BridleSt → BridleSt) (x : Half) : (updBri f x).fabric = x.fabric := rfl
@[simp] theorem updBri_lastRead (f : BridleSt → BridleSt) (x : Half) : (updBri f x).lastRead = x.lastRead := rfl
@[simp] theorem updBri_out (f : BridleSt → BridleSt) (x : Half) : (updBri f x).out = x.out := rfl

/-! The clock-domain crossings. -/

@[simp] theorem updCrossing_clk (p c : Nat) (f : FifoSt → FifoSt) (x : Half) : (updCrossing p c f x).clk = x.clk := rfl
@[simp] theorem updCrossing_rings (p c : Nat) (f : FifoSt → FifoSt) (x : Half) : (updCrossing p c f x).rings = x.rings := rfl
@[simp] theorem updCrossing_ev (p c : Nat) (f : FifoSt → FifoSt) (x : Half) : (updCrossing p c f x).ev = x.ev := rfl
@[simp] theorem updCrossing_asr (p c : Nat) (f : FifoSt → FifoSt) (x : Half) : (updCrossing p c f x).asr = x.asr := rfl
@[simp] theorem updCrossing_env (p c : Nat) (f : FifoSt → FifoSt) (x : Half) : (updCrossing p c f x).env = x.env := rfl
@[simp] theorem updCrossing_obj (p c : Nat) (f : FifoSt → FifoSt) (x : Half) : (updCrossing p c f x).obj = x.obj := rfl
@[simp] theorem updCrossing_enc (p c : Nat) (f : FifoSt → FifoSt) (x : Half) : (updCrossing p c f x).enc = x.enc := rfl
@[simp] theorem updCrossing_dec (p c : Nat) (f : FifoSt → FifoSt) (x : Half) : (updCrossing p c f x).dec = x.dec := rfl
@[simp] theorem updCrossing_cmp (p c : Nat) (f : FifoSt → FifoSt) (x : Half) : (updCrossing p c f x).cmp = x.cmp := rfl
@[simp] theorem updCrossing_dch (p c : Nat) (f : FifoSt → FifoSt) (x : Half) : (updCrossing p c f x).dch = x.dch := rfl
@[simp] theorem updCrossing_net (p c : Nat) (f : FifoSt → FifoSt) (x : Half) : (updCrossing p c f x).net = x.net := rfl
@[simp] theorem updCrossing_dram (p c : Nat) (f : FifoSt → FifoSt) (x : Half) : (updCrossing p c f x).dram = x.dram := rfl
@[simp] theorem updCrossing_pools (p c : Nat) (f : FifoSt → FifoSt) (x : Half) : (updCrossing p c f x).pools = x.pools := rfl
@[simp] theorem updCrossing_dma (p c : Nat) (f : FifoSt → FifoSt) (x : Half) : (updCrossing p c f x).dma = x.dma := rfl
@[simp] theorem updCrossing_icu (p c : Nat) (f : FifoSt → FifoSt) (x : Half) : (updCrossing p c f x).icu = x.icu := rfl
@[simp] theorem updCrossing_pcie (p c : Nat) (f : FifoSt → FifoSt) (x : Half) : (updCrossing p c f x).pcie = x.pcie := rfl
@[simp] theorem updCrossing_ctr (p c : Nat) (f : FifoSt → FifoSt) (x : Half) : (updCrossing p c f x).ctr = x.ctr := rfl
@[simp] theorem updCrossing_flt (p c : Nat) (f : FifoSt → FifoSt) (x : Half) : (updCrossing p c f x).flt = x.flt := rfl
@[simp] theorem updCrossing_bri (p c : Nat) (f : FifoSt → FifoSt) (x : Half) : (updCrossing p c f x).bri = x.bri := rfl
@[simp] theorem updCrossing_boot (p c : Nat) (f : FifoSt → FifoSt) (x : Half) : (updCrossing p c f x).boot = x.boot := rfl
@[simp] theorem updCrossing_pwr (p c : Nat) (f : FifoSt → FifoSt) (x : Half) : (updCrossing p c f x).pwr = x.pwr := rfl
@[simp] theorem updCrossing_ptp (p c : Nat) (f : FifoSt → FifoSt) (x : Half) : (updCrossing p c f x).ptp = x.ptp := rfl
@[simp] theorem updCrossing_lastRead (p c : Nat) (f : FifoSt → FifoSt) (x : Half) : (updCrossing p c f x).lastRead = x.lastRead := rfl
@[simp] theorem updCrossing_out (p c : Nat) (f : FifoSt → FifoSt) (x : Half) : (updCrossing p c f x).out = x.out := rfl

/-! Counting. -/

/-- Counting changes the counter blocks of its half and nothing else. -/
theorem count_eq (blk code n : Nat) (x : Half) : ∃ c, count blk code n x = { x with ctr := c } := by
  unfold count
  split
  · exact ⟨x.ctr, rfl⟩
  · exact ⟨_, rfl⟩

@[simp] theorem count_clk (blk code n : Nat) (x : Half) : (count blk code n x).clk = x.clk := by
  obtain ⟨c, hc⟩ := count_eq blk code n x; rw [hc]
@[simp] theorem count_rings (blk code n : Nat) (x : Half) : (count blk code n x).rings = x.rings := by
  obtain ⟨c, hc⟩ := count_eq blk code n x; rw [hc]
@[simp] theorem count_ev (blk code n : Nat) (x : Half) : (count blk code n x).ev = x.ev := by
  obtain ⟨c, hc⟩ := count_eq blk code n x; rw [hc]
@[simp] theorem count_asr (blk code n : Nat) (x : Half) : (count blk code n x).asr = x.asr := by
  obtain ⟨c, hc⟩ := count_eq blk code n x; rw [hc]
@[simp] theorem count_env (blk code n : Nat) (x : Half) : (count blk code n x).env = x.env := by
  obtain ⟨c, hc⟩ := count_eq blk code n x; rw [hc]
@[simp] theorem count_obj (blk code n : Nat) (x : Half) : (count blk code n x).obj = x.obj := by
  obtain ⟨c, hc⟩ := count_eq blk code n x; rw [hc]
@[simp] theorem count_enc (blk code n : Nat) (x : Half) : (count blk code n x).enc = x.enc := by
  obtain ⟨c, hc⟩ := count_eq blk code n x; rw [hc]
@[simp] theorem count_dec (blk code n : Nat) (x : Half) : (count blk code n x).dec = x.dec := by
  obtain ⟨c, hc⟩ := count_eq blk code n x; rw [hc]
@[simp] theorem count_cmp (blk code n : Nat) (x : Half) : (count blk code n x).cmp = x.cmp := by
  obtain ⟨c, hc⟩ := count_eq blk code n x; rw [hc]
@[simp] theorem count_dch (blk code n : Nat) (x : Half) : (count blk code n x).dch = x.dch := by
  obtain ⟨c, hc⟩ := count_eq blk code n x; rw [hc]
@[simp] theorem count_net (blk code n : Nat) (x : Half) : (count blk code n x).net = x.net := by
  obtain ⟨c, hc⟩ := count_eq blk code n x; rw [hc]
@[simp] theorem count_dram (blk code n : Nat) (x : Half) : (count blk code n x).dram = x.dram := by
  obtain ⟨c, hc⟩ := count_eq blk code n x; rw [hc]
@[simp] theorem count_pools (blk code n : Nat) (x : Half) : (count blk code n x).pools = x.pools := by
  obtain ⟨c, hc⟩ := count_eq blk code n x; rw [hc]
@[simp] theorem count_dma (blk code n : Nat) (x : Half) : (count blk code n x).dma = x.dma := by
  obtain ⟨c, hc⟩ := count_eq blk code n x; rw [hc]
@[simp] theorem count_icu (blk code n : Nat) (x : Half) : (count blk code n x).icu = x.icu := by
  obtain ⟨c, hc⟩ := count_eq blk code n x; rw [hc]
@[simp] theorem count_pcie (blk code n : Nat) (x : Half) : (count blk code n x).pcie = x.pcie := by
  obtain ⟨c, hc⟩ := count_eq blk code n x; rw [hc]
@[simp] theorem count_flt (blk code n : Nat) (x : Half) : (count blk code n x).flt = x.flt := by
  obtain ⟨c, hc⟩ := count_eq blk code n x; rw [hc]
@[simp] theorem count_bri (blk code n : Nat) (x : Half) : (count blk code n x).bri = x.bri := by
  obtain ⟨c, hc⟩ := count_eq blk code n x; rw [hc]
@[simp] theorem count_boot (blk code n : Nat) (x : Half) : (count blk code n x).boot = x.boot := by
  obtain ⟨c, hc⟩ := count_eq blk code n x; rw [hc]
@[simp] theorem count_pwr (blk code n : Nat) (x : Half) : (count blk code n x).pwr = x.pwr := by
  obtain ⟨c, hc⟩ := count_eq blk code n x; rw [hc]
@[simp] theorem count_ptp (blk code n : Nat) (x : Half) : (count blk code n x).ptp = x.ptp := by
  obtain ⟨c, hc⟩ := count_eq blk code n x; rw [hc]
@[simp] theorem count_fabric (blk code n : Nat) (x : Half) : (count blk code n x).fabric = x.fabric := by
  obtain ⟨c, hc⟩ := count_eq blk code n x; rw [hc]
@[simp] theorem count_lastRead (blk code n : Nat) (x : Half) : (count blk code n x).lastRead = x.lastRead := by
  obtain ⟨c, hc⟩ := count_eq blk code n x; rw [hc]
@[simp] theorem count_out (blk code n : Nat) (x : Half) : (count blk code n x).out = x.out := by
  obtain ⟨c, hc⟩ := count_eq blk code n x; rw [hc]

end Sys2Proof.Machine
end

