-- ==== Sys2Proof/Laws/Ops.lean ====
section
/-!
SUPPORT. Ops.lean (laws): what each shared operation can do, said once: the frames of the bookkeeping of commands and interrupts, and how
a command that the keel takes runs.
-/
namespace Sys2Proof.Machine

/-! Two halves. -/

@[simp] theorem half_setHalf_self (s : State) (h : HalfId) (x : Half) : (s.setHalf h x).half h = x := by cases h <;> rfl

theorem half_setHalf_ne (s : State) {h k : HalfId} (x : Half) (hk : k ≠ h) : (s.setHalf h x).half k = s.half k := by
  cases h <;> cases k <;> first | rfl | exact absurd rfl hk

@[simp] theorem half_upd_self (s : State) (h : HalfId) (f : Half → Half) : (s.upd h f).half h = f (s.half h) :=
  half_setHalf_self _ _ _

theorem half_upd_ne (s : State) {h k : HalfId} (f : Half → Half) (hk : k ≠ h) : (s.upd h f).half k = s.half k :=
  half_setHalf_ne _ _ hk

theorem half_upd_cases (s : State) (h k : HalfId) (f : Half → Half) : (s.upd h f).half k = f (s.half k) ∧ k = h ∨ (s.upd h f).half k = s.half k := by
  by_cases hk : k = h
  · subst hk; exact .inl ⟨half_upd_self _ _ _, rfl⟩
  · exact .inr (half_upd_ne _ _ hk)

@[simp] theorem other_ne (h : HalfId) : h.other ≠ h := by cases h <;> decide

/-- Two updates that agree on the half as it is leave the same state. -/
theorem upd_congr {s : State} {h : HalfId} {f g : Half → Half} (hf : f (s.half h) = g (s.half h)) : s.upd h f = s.upd h g := by
  unfold State.upd
  rw [hf]

@[simp] theorem upd_upd (s : State) (h : HalfId) (f g : Half → Half) : (s.upd h f).upd h g = s.upd h (fun x => g (f x)) := by
  cases h <;> rfl

/-- The spar link works as before after an update that leaves a half's own view of it. -/
theorem sparWorks_upd (s : State) (h : HalfId) (f : Half → Half) (hf : ∀ x, (f x).bri = x.bri) : (s.upd h f).sparWorks = s.sparWorks := by
  cases h <;> simp [State.sparWorks, State.upd, State.setHalf, State.half, hf]

/-! Calm: a change that delivery and bookkeeping could make leaves the rest of each half. -/

/-- A change of one half that its calm part does not see is seen by no half's calm part. -/
theorem upd_calm (s : State) (h k : HalfId) (f : Half → Half) (hf : ∀ x, (f x).calm = x.calm) : ((s.upd h f).half k).calm = (s.half k).calm := by
  rcases half_upd_cases s h k f with ⟨e, -⟩ | e <;> rw [e]
  exact hf _

theorem count_calm (blk code n : Nat) (x : Half) : (count blk code n x).calm = x.calm := by
  unfold count
  split <;> rfl

theorem emit_calm (h k : HalfId) (m : Emit) (s : State) : ((emit h m s).half k).calm = (s.half k).calm :=
  upd_calm _ _ _ _ (fun _ => rfl)

theorem count_upd_calm (h k : HalfId) (blk code n : Nat) (f : Half → Half) (hf : ∀ x, (f x).calm = x.calm) (s : State) :
    ((s.upd h (fun x => count blk code n (f x))).half k).calm = (s.half k).calm :=
  upd_calm _ _ _ _ (fun x => (count_calm _ _ _ _).trans (hf x))

theorem msixPost_calm (ep k : HalfId) (vec : Nat) (s : State) : ((msixPost ep vec s).half k).calm = (s.half k).calm := by
  unfold msixPost
  split
  · exact upd_calm _ _ _ _ (fun x => (count_calm _ _ _ _).trans rfl)
  · exact (emit_calm _ _ _ _).trans (upd_calm _ _ _ _ (fun x => count_calm _ _ _ _))

theorem icuEval_calm (h k : HalfId) (n : Nat) (s : State) : ((icuEval h n s).half k).calm = (s.half k).calm := by
  unfold icuEval
  dsimp only
  split
  · exact upd_calm _ _ _ _ (fun _ => rfl)
  · exact upd_calm _ _ _ _ (fun x => (count_calm _ _ _ _).trans rfl)
  · next t _ _ =>
    generalize (if t == 1 then HalfId.east else HalfId.west) = ep
    split
    · rfl
    · exact (msixPost_calm _ _ _ _).trans (upd_calm _ _ _ _ (fun x => (count_calm _ _ _ _).trans rfl))

theorem icuRaise0_calm (h k : HalfId) (n : Nat) (s : State) : ((icuRaise0 h n s).half k).calm = (s.half k).calm := by
  unfold icuRaise0
  split
  · rfl
  · exact (icuEval_calm _ _ _ _).trans (upd_calm _ _ _ _ (fun _ => rfl))

theorem icuWithdraw_calm (h k : HalfId) (n : Nat) (s : State) : ((icuWithdraw h n s).half k).calm = (s.half k).calm :=
  (icuEval_calm _ _ _ _).trans (upd_calm _ _ _ _ (fun _ => rfl))

theorem takeEntry_calm (h k : HalfId) (s : State) : ((takeEntry h s).half k).calm = (s.half k).calm := by
  unfold takeEntry
  dsimp only
  split
  · rfl
  · split
    · exact (icuWithdraw_calm _ _ _ _).trans (upd_calm _ _ _ _ (fun x => (count_calm _ _ _ _).trans rfl))
    · exact upd_calm _ _ _ _ (fun x => (count_calm _ _ _ _).trans rfl)

theorem takeAssist_calm (h k : HalfId) (s : State) : ((takeAssist h s).half k).calm = (s.half k).calm := by
  unfold takeAssist
  dsimp only
  split
  · rfl
  · split
    · exact (icuWithdraw_calm _ _ _ _).trans (upd_calm _ _ _ _ (fun x => rfl))
    · exact upd_calm _ _ _ _ (fun x => rfl)

theorem calm_flt {x y : Half} (hc : x.calm = y.calm) : x.flt = y.flt := by
  have hf := congrArg Half.flt hc
  exact hf

theorem armedMask_calm {x y : Half} (hc : x.calm = y.calm) (n : Nat) : armedMask x n = armedMask y n := by
  unfold armedMask; rw [calm_flt hc]

theorem icuRaise_eq {h : HalfId} {s : State} (n : Nat) (hn : NoIcuCheck h s) : icuRaise h n s = icuRaise0 h n s := by
  have hc := (armedMask_calm (icuRaise0_calm h h n s) 0x1C).trans hn
  unfold icuRaise
  dsimp only
  rw [hc]
  rfl

theorem complete_calm {h : HalfId} (k : HalfId) (op : Nat) (e : CmdEntry) (st : Nat) (b : Bool) (r : Handle) (bytes : List Byte) {s : State}
    (hn : NoIcuCheck h s) : ((complete h op e st b r bytes s).half k).calm = (s.half k).calm := by
  unfold complete
  split
  · rw [icuRaise_eq]
    · exact (icuRaise0_calm _ _ _ _).trans (upd_calm _ _ _ _ (fun _ => rfl))
    · unfold NoIcuCheck; rw [half_upd_self]; exact hn
  · rfl

/-! What is calm is kept. -/

theorem takeEntry_env (h k : HalfId) (s : State) : ((takeEntry h s).half k).env = (s.half k).env := by
  have hc := congrArg (fun x : Half => x.env) (takeEntry_calm h k s)
  exact hc
theorem takeEntry_clk (h k : HalfId) (s : State) : ((takeEntry h s).half k).clk = (s.half k).clk := by
  have hc := congrArg (fun x : Half => x.clk) (takeEntry_calm h k s)
  exact hc
theorem takeEntry_ev (h k : HalfId) (s : State) : ((takeEntry h s).half k).ev = (s.half k).ev := by
  have hc := congrArg (fun x : Half => x.ev) (takeEntry_calm h k s)
  exact hc
theorem takeEntry_asr (h k : HalfId) (s : State) : ((takeEntry h s).half k).asr = (s.half k).asr := by
  have hc := congrArg (fun x : Half => x.asr) (takeEntry_calm h k s)
  exact hc
theorem takeEntry_obj (h k : HalfId) (s : State) : ((takeEntry h s).half k).obj = (s.half k).obj := by
  have hc := congrArg (fun x : Half => x.obj) (takeEntry_calm h k s)
  exact hc
theorem takeEntry_enc (h k : HalfId) (s : State) : ((takeEntry h s).half k).enc = (s.half k).enc := by
  have hc := congrArg (fun x : Half => x.enc) (takeEntry_calm h k s)
  exact hc
theorem takeEntry_dec (h k : HalfId) (s : State) : ((takeEntry h s).half k).dec = (s.half k).dec := by
  have hc := congrArg (fun x : Half => x.dec) (takeEntry_calm h k s)
  exact hc
theorem takeEntry_cmp (h k : HalfId) (s : State) : ((takeEntry h s).half k).cmp = (s.half k).cmp := by
  have hc := congrArg (fun x : Half => x.cmp) (takeEntry_calm h k s)
  exact hc
theorem takeEntry_dch (h k : HalfId) (s : State) : ((takeEntry h s).half k).dch = (s.half k).dch := by
  have hc := congrArg (fun x : Half => x.dch) (takeEntry_calm h k s)
  exact hc
theorem takeEntry_net (h k : HalfId) (s : State) : ((takeEntry h s).half k).net = (s.half k).net := by
  have hc := congrArg (fun x : Half => x.net) (takeEntry_calm h k s)
  exact hc
theorem takeEntry_dram (h k : HalfId) (s : State) : ((takeEntry h s).half k).dram = (s.half k).dram := by
  have hc := congrArg (fun x : Half => x.dram) (takeEntry_calm h k s)
  exact hc
theorem takeEntry_pools (h k : HalfId) (s : State) : ((takeEntry h s).half k).pools = (s.half k).pools := by
  have hc := congrArg (fun x : Half => x.pools) (takeEntry_calm h k s)
  exact hc
theorem takeEntry_dma (h k : HalfId) (s : State) : ((takeEntry h s).half k).dma = (s.half k).dma := by
  have hc := congrArg (fun x : Half => x.dma) (takeEntry_calm h k s)
  exact hc
theorem takeEntry_flt (h k : HalfId) (s : State) : ((takeEntry h s).half k).flt = (s.half k).flt := by
  have hc := congrArg (fun x : Half => x.flt) (takeEntry_calm h k s)
  exact hc
theorem takeEntry_bri (h k : HalfId) (s : State) : ((takeEntry h s).half k).bri = (s.half k).bri := by
  have hc := congrArg (fun x : Half => x.bri) (takeEntry_calm h k s)
  exact hc
theorem takeEntry_boot (h k : HalfId) (s : State) : ((takeEntry h s).half k).boot = (s.half k).boot := by
  have hc := congrArg (fun x : Half => x.boot) (takeEntry_calm h k s)
  exact hc
theorem takeEntry_pwr (h k : HalfId) (s : State) : ((takeEntry h s).half k).pwr = (s.half k).pwr := by
  have hc := congrArg (fun x : Half => x.pwr) (takeEntry_calm h k s)
  exact hc
theorem takeEntry_ptp (h k : HalfId) (s : State) : ((takeEntry h s).half k).ptp = (s.half k).ptp := by
  have hc := congrArg (fun x : Half => x.ptp) (takeEntry_calm h k s)
  exact hc
theorem takeEntry_reel (h k : HalfId) (s : State) : ((takeEntry h s).half k).ctr.reel = (s.half k).ctr.reel := by
  have hc := congrArg (fun x : Half => x.ctr.reel) (takeEntry_calm h k s)
  exact hc
theorem takeEntry_trace (h k : HalfId) (s : State) : ((takeEntry h s).half k).ctr.trace = (s.half k).ctr.trace := by
  have hc := congrArg (fun x : Half => x.ctr.trace) (takeEntry_calm h k s)
  exact hc
theorem takeEntry_linkUp (h k : HalfId) (s : State) : ((takeEntry h s).half k).pcie.linkUp = (s.half k).pcie.linkUp := by
  have hc := congrArg (fun x : Half => x.pcie.linkUp) (takeEntry_calm h k s)
  exact hc
theorem takeEntry_lastRead (h k : HalfId) (s : State) : ((takeEntry h s).half k).lastRead = (s.half k).lastRead := by
  have hc := congrArg (fun x : Half => x.lastRead) (takeEntry_calm h k s)
  exact hc

/-! How a command runs. -/

/-- A command that the keel takes runs its body on the state without its entry, and finishes with the reply. -/
theorem runCmd_taken {h : HalfId} {o : OpSpec} {e : CmdEntry} {r : Option RefFetch} {s : State} (ht : Taken h o e r s) (body : State → Reply) :
    runCmd h o e r s body = finish h o.opcode e (body (takeEntry h s)) := by
  unfold runCmd
  simp only [ht.1, ht.2, Bool.not_true, Bool.false_eq_true, if_false]

/-- A keel that does not run, that finds CPLQ full, or that waits for a surface copy takes no command (R47, R48). -/
theorem runCmd_idle {h : HalfId} {s : State} (o : OpSpec) (e : CmdEntry) (r : Option RefFetch) (hw : keelFree (s.half h) = false)
    (body : State → Reply) : runCmd h o e r s body = s := by
  unfold runCmd
  simp only [hw, Bool.not_false, if_true]

/-- A command of which no check fails goes on. -/
theorem guarded_passes {cs : List (Option Fail)} (hc : Passes cs) (s : State) (k : State → Reply) : guarded cs s k = k s := by
  unfold guarded
  rw [hc]

/-- A command fails with the first check that fails. -/
theorem guarded_fails {cs : List (Option Fail)} {f : Fail} (hc : firstFail cs = some f) (s : State) (k : State → Reply) :
    guarded cs s k = .fail f s := by
  unfold guarded
  rw [hc]

@[simp] theorem firstFail_nil : firstFail [] = none := rfl

@[simp] theorem firstFail_cons_none (c : Option Fail) (cs : List (Option Fail)) : firstFail (c :: cs) = none ↔ c = none ∧ firstFail cs = none := by
  cases c <;> simp [firstFail]

@[simp] theorem failIf_none (c : Bool) (f : Fail) : failIf c f = none ↔ c = false := by cases c <;> simp [failIf]

@[simp] theorem bad6_none (c : Bool) (o : Nat) : bad6 c o = none ↔ c = false := failIf_none _ _

theorem finish_ok (h : HalfId) (op : Nat) (e : CmdEntry) (bytes : List Byte) (s : State) :
    finish h op e (.ok bytes s) = complete h op e stOk false 0 bytes s := rfl

theorem finish_later (h : HalfId) (op : Nat) (e : CmdEntry) (bytes : List Byte) (s : State) :
    finish h op e (.later bytes s) = complete h op e stDeferred false 0 bytes s := rfl

theorem finish_done (h : HalfId) (op : Nat) (e : CmdEntry) (st : Nat) (bytes : List Byte) (obj : Handle) (b : Bool) (s : State) :
    finish h op e (.done st bytes obj b s) = complete h op e st b obj bytes s := rfl

theorem finish_fail (h : HalfId) (op : Nat) (e : CmdEntry) (f : Fail) (s : State) :
    finish h op e (.fail f s) = completeFail h op e f s := rfl

theorem replyBuffer_ok (h : HalfId) (a : Nat) (bytes result : List Byte) (after : State → State) (s : State) :
    replyBuffer h a bytes .ok result after s = .done stOk result 0 true (after (hostWrite a bytes s)) := rfl

/-- An assist entry that the device takes and matches acts on its object. -/
theorem runAssist_matched {h : HalfId} {kind function : Nat} {a : AssistEntry} {p : List Byte} {s u : State} (hm : Matched h function a p s u)
    (body : List Byte → State → State) : runAssist h kind function a s body = body p u := by
  obtain ⟨rfl, ha, hf, hg, hr, ho, hh, hd⟩ := hm
  unfold runAssist
  have hx : (a.handle != 0 && (recOf ((takeAssist h s).half h).running a.handle).isNone) = false := by
    rcases ho with ho | ho
    · simp [ho]
    · cases hq : recOf ((takeAssist h s).half h).running a.handle <;> simp_all
  simp only [ha, hf, hg, hr, hh, hd, hx, Bool.not_true, Bool.false_eq_true, if_false, bne_self_eq_false, Bool.or_self]

/-- A warning or information event changes the event queues and the keel's drop counter of its half, and nothing else. -/
theorem event_queued (h : HalfId) (code : Nat) {sev : Nat} (hs : sev ≠ 2) (src : Handle) (detail : List Byte) (s : State) :
    ∃ (n : Half → Nat) (v : Half → Events), event h code sev src detail s = s.upd h (fun x => count 34 0x12 (n x) { x with ev := v x }) := by
  unfold event
  simp only [beq_iff_eq, hs, if_false]
  exact ⟨_, _, rfl⟩

end Sys2Proof.Machine
end

