-- ==== Sys2Proof/Laws/Shell.lean ====
section
/-!
SUPPORT. Shell.lean: what no state change of a half can touch. `State.shell` is the part of a state outside the two halves and the counter of
free values; one lemma per function says that it keeps it.
-/
namespace Sys2Proof.Machine

set_option linter.all false
set_option linter.unusedTactic false
set_option linter.unreachableTactic false

set_option linter.all false

/-- The part of a state outside the two halves and the counter of free values. -/
def State.shell (s : State) : Flash × HalfId × Bool × Bool × Mem × List Instr :=
  (s.flash, s.leadPref, s.porstLow, s.sparPhys, s.hostMem, s.pending)

theorem Reply.fail_shell (f : Fail) (s : State) : (Reply.fail f s).state.shell = s.shell := rfl

theorem Reply.wait_shell (s : State) : (Reply.wait s).state.shell = s.shell := rfl

theorem setHalf_shell (s : State) (h : HalfId) (x : Half) : (s.setHalf h x).shell = s.shell := by cases h <;> rfl

theorem upd_shell (s : State) (h : HalfId) (f : Half → Half) : (s.upd h f).shell = s.shell := setHalf_shell _ _ _

theorem foldl_shell {α : Type} (g : State → α → State) (l : List α) (s : State)
    (hg : ∀ s a, (g s a).shell = s.shell) : (l.foldl g s).shell = s.shell := by
  induction l generalizing s with
  | nil => rfl
  | cons a l ih => exact (ih _).trans (hg _ _)

theorem ite_shell {c : Prop} [Decidable c] {a b s : State} (ha : a.shell = s.shell) (hb : b.shell = s.shell) :
    (if c then a else b).shell = s.shell := by split <;> assumption

theorem foldl_fst_shell {α β : Type} (g : State × β → α → State × β) (l : List α) (p : State × β)
    (hg : ∀ p a, (g p a).1.shell = p.1.shell) : (l.foldl g p).1.shell = p.1.shell := by
  induction l generalizing p with
  | nil => rfl
  | cons a l ih => exact (ih _).trans (hg _ _)

/-! Ops.lean -/

theorem emit_shell (h : HalfId) (m : Emit) (s : State) :
    (emit h m s).shell = s.shell := by
  unfold emit
  repeat' (first | with_reducible rfl | with_reducible exact free_shell _ _ | (simp only [upd_shell]; done) | simp only [upd_shell] | split | with_reducible refine ite_shell ?_ ?_ | with_reducible refine (foldl_fst_shell _ _ _ (fun s a => ?_)).trans ?_ | with_reducible refine guarded_shell _ _ _ ?_ | with_reducible refine (foldl_shell _ _ _ (fun s a => ?_)).trans ?_)

theorem free_shell (s : State) (n : Nat) : ({ s with free := n } : State).shell = s.shell := rfl

theorem State.tick1_shell (s : State) : s.tick1.shell = s.shell := rfl
theorem msixPost_shell (ep : HalfId) (vec : Nat) (s : State) :
    (msixPost ep vec s).shell = s.shell := by
  unfold msixPost
  repeat' (first | with_reducible rfl | with_reducible exact free_shell _ _ | (simp only [upd_shell, emit_shell]; done) | simp only [upd_shell, emit_shell] | split | with_reducible refine ite_shell ?_ ?_ | with_reducible refine (foldl_fst_shell _ _ _ (fun s a => ?_)).trans ?_ | with_reducible refine guarded_shell _ _ _ ?_ | with_reducible refine (foldl_shell _ _ _ (fun s a => ?_)).trans ?_)

theorem icuEval_shell (h : HalfId) (n : Nat) (s : State) :
    (icuEval h n s).shell = s.shell := by
  unfold icuEval
  repeat' (first | with_reducible rfl | with_reducible exact free_shell _ _ | (simp only [upd_shell, msixPost_shell]; done) | simp only [upd_shell, msixPost_shell] | split | with_reducible refine ite_shell ?_ ?_ | with_reducible refine (foldl_fst_shell _ _ _ (fun s a => ?_)).trans ?_ | with_reducible refine guarded_shell _ _ _ ?_ | with_reducible refine (foldl_shell _ _ _ (fun s a => ?_)).trans ?_)

theorem icuEvalAll_shell (h : HalfId) (ns : List Nat) (s : State) :
    (icuEvalAll h ns s).shell = s.shell := by
  unfold icuEvalAll
  repeat' (first | with_reducible rfl | with_reducible exact free_shell _ _ | (simp only [upd_shell, icuEval_shell]; done) | simp only [upd_shell, icuEval_shell] | split | with_reducible refine ite_shell ?_ ?_ | with_reducible refine (foldl_fst_shell _ _ _ (fun s a => ?_)).trans ?_ | with_reducible refine guarded_shell _ _ _ ?_ | with_reducible refine (foldl_shell _ _ _ (fun s a => ?_)).trans ?_)

theorem icuRaise0_shell (h : HalfId) (n : Nat) (s : State) :
    (icuRaise0 h n s).shell = s.shell := by
  unfold icuRaise0
  repeat' (first | with_reducible rfl | with_reducible exact free_shell _ _ | (simp only [upd_shell, icuEval_shell]; done) | simp only [upd_shell, icuEval_shell] | split | with_reducible refine ite_shell ?_ ?_ | with_reducible refine (foldl_fst_shell _ _ _ (fun s a => ?_)).trans ?_ | with_reducible refine guarded_shell _ _ _ ?_ | with_reducible refine (foldl_shell _ _ _ (fun s a => ?_)).trans ?_)

theorem icuWithdraw_shell (h : HalfId) (n : Nat) (s : State) :
    (icuWithdraw h n s).shell = s.shell := by
  unfold icuWithdraw
  repeat' (first | with_reducible rfl | with_reducible exact free_shell _ _ | (simp only [upd_shell, icuEval_shell]; done) | simp only [upd_shell, icuEval_shell] | split | with_reducible refine ite_shell ?_ ?_ | with_reducible refine (foldl_fst_shell _ _ _ (fun s a => ?_)).trans ?_ | with_reducible refine guarded_shell _ _ _ ?_ | with_reducible refine (foldl_shell _ _ _ (fun s a => ?_)).trans ?_)

theorem evWrite_shell (h : HalfId) (e : EventRec) (mark : Bool) (s : State) :
    (evWrite h e mark s).shell = s.shell := by
  unfold evWrite
  repeat' (first | with_reducible rfl | with_reducible exact free_shell _ _ | (simp only [upd_shell, icuRaise0_shell]; done) | simp only [upd_shell, icuRaise0_shell] | split | with_reducible refine ite_shell ?_ ?_ | with_reducible refine (foldl_fst_shell _ _ _ (fun s a => ?_)).trans ?_ | with_reducible refine guarded_shell _ _ _ ?_ | with_reducible refine (foldl_shell _ _ _ (fun s a => ?_)).trans ?_)

theorem alarmOverflow_shell (h : HalfId) (e : EventRec) (s : State) :
    (alarmOverflow h e s).shell = s.shell := by
  unfold alarmOverflow
  repeat' (first | with_reducible rfl | with_reducible exact free_shell _ _ | (simp only [upd_shell]; done) | simp only [upd_shell] | split | with_reducible refine ite_shell ?_ ?_ | with_reducible refine (foldl_fst_shell _ _ _ (fun s a => ?_)).trans ?_ | with_reducible refine guarded_shell _ _ _ ?_ | with_reducible refine (foldl_shell _ _ _ (fun s a => ?_)).trans ?_)

theorem alarmNow_shell (h : HalfId) (s : State) (e : EventRec) :
    (alarmNow h s e).shell = s.shell := by
  unfold alarmNow
  repeat' (first | with_reducible rfl | with_reducible exact free_shell _ _ | (simp only [upd_shell, evWrite_shell]; done) | simp only [upd_shell, evWrite_shell] | split | with_reducible refine ite_shell ?_ ?_ | with_reducible refine (foldl_fst_shell _ _ _ (fun s a => ?_)).trans ?_ | with_reducible refine guarded_shell _ _ _ ?_ | with_reducible refine (foldl_shell _ _ _ (fun s a => ?_)).trans ?_)

theorem instantOut_shell (h : HalfId) (s : State) :
    (instantOut h s).shell = s.shell := by
  unfold instantOut
  repeat' (first | with_reducible rfl | with_reducible exact free_shell _ _ | (simp only [upd_shell, alarmNow_shell]; done) | simp only [upd_shell, alarmNow_shell] | split | with_reducible refine ite_shell ?_ ?_ | with_reducible refine (foldl_fst_shell _ _ _ (fun s a => ?_)).trans ?_ | with_reducible refine guarded_shell _ _ _ ?_ | with_reducible refine (foldl_shell _ _ _ (fun s a => ?_)).trans ?_)

theorem alarmRaise0_shell (h : HalfId) (slot : Nat) (e : EventRec) (s : State) :
    (alarmRaise0 h slot e s).1.shell = s.shell := by
  unfold alarmRaise0
  repeat' (first | with_reducible rfl | with_reducible exact free_shell _ _ | (simp only [upd_shell, alarmOverflow_shell]; done) | simp only [upd_shell, alarmOverflow_shell] | split | with_reducible refine ite_shell ?_ ?_ | with_reducible refine (foldl_fst_shell _ _ _ (fun s a => ?_)).trans ?_ | with_reducible refine guarded_shell _ _ _ ?_ | with_reducible refine (foldl_shell _ _ _ (fun s a => ?_)).trans ?_)

theorem stopTether_shell (h : HalfId) (s : State) :
    (stopTether h s).shell = s.shell := by
  unfold stopTether
  repeat' (first | with_reducible rfl | with_reducible exact free_shell _ _ | (simp only [upd_shell, emit_shell, icuRaise0_shell]; done) | simp only [upd_shell, emit_shell, icuRaise0_shell] | split | with_reducible refine ite_shell ?_ ?_ | with_reducible refine (foldl_fst_shell _ _ _ (fun s a => ?_)).trans ?_ | with_reducible refine guarded_shell _ _ _ ?_ | with_reducible refine (foldl_shell _ _ _ (fun s a => ?_)).trans ?_)

theorem latchHw_shell (fuel : Nat) (h : HalfId) (src : Nat) (injected : Bool) (s : State) :
    (latchHw fuel h src injected s).shell = s.shell := by
  induction fuel generalizing src injected s with
  | zero => rfl
  | succ fuel ih =>
    unfold latchHw
    repeat' (first
      | rfl
      | (simp only [upd_shell, stopTether_shell, icuRaise0_shell, alarmRaise0_shell, ih]; done)
      | simp only [upd_shell, stopTether_shell, icuRaise0_shell, alarmRaise0_shell, ih]
      | split
      | refine (foldl_shell _ _ _ (fun s a => ?_)).trans ?_)
theorem alarmEvent_shell (h : HalfId) (slot : Nat) (e : EventRec) (s : State) :
    (alarmEvent h slot e s).shell = s.shell := by
  unfold alarmEvent
  repeat' (first | with_reducible rfl | with_reducible exact free_shell _ _ | (simp only [upd_shell, alarmRaise0_shell, latchHw_shell]; done) | simp only [upd_shell, alarmRaise0_shell, latchHw_shell] | split | with_reducible refine ite_shell ?_ ?_ | with_reducible refine (foldl_fst_shell _ _ _ (fun s a => ?_)).trans ?_ | with_reducible refine guarded_shell _ _ _ ?_ | with_reducible refine (foldl_shell _ _ _ (fun s a => ?_)).trans ?_)

theorem event_shell (h : HalfId) (code sev : Nat) (src : Handle) (detail : List Byte) (s : State) :
    (event h code sev src detail s).shell = s.shell := by
  unfold event
  repeat' (first | with_reducible rfl | with_reducible exact free_shell _ _ | (simp only [upd_shell, alarmEvent_shell]; done) | simp only [upd_shell, alarmEvent_shell] | split | with_reducible refine ite_shell ?_ ?_ | with_reducible refine (foldl_fst_shell _ _ _ (fun s a => ?_)).trans ?_ | with_reducible refine guarded_shell _ _ _ ?_ | with_reducible refine (foldl_shell _ _ _ (fun s a => ?_)).trans ?_)

theorem icuParityFail_shell (h : HalfId) (n : Nat) (injected : Bool) (s : State) :
    (icuParityFail h n injected s).shell = s.shell := by
  unfold icuParityFail
  repeat' (first | with_reducible rfl | with_reducible exact free_shell _ _ | (simp only [upd_shell, icuEval_shell, latchHw_shell, event_shell]; done) | simp only [upd_shell, icuEval_shell, latchHw_shell, event_shell] | split | with_reducible refine ite_shell ?_ ?_ | with_reducible refine (foldl_fst_shell _ _ _ (fun s a => ?_)).trans ?_ | with_reducible refine guarded_shell _ _ _ ?_ | with_reducible refine (foldl_shell _ _ _ (fun s a => ?_)).trans ?_)

theorem icuRaise_shell (h : HalfId) (n : Nat) (s : State) :
    (icuRaise h n s).shell = s.shell := by
  unfold icuRaise
  repeat' (first | with_reducible rfl | with_reducible exact free_shell _ _ | (simp only [upd_shell, icuRaise0_shell, icuParityFail_shell]; done) | simp only [upd_shell, icuRaise0_shell, icuParityFail_shell] | split | with_reducible refine ite_shell ?_ ?_ | with_reducible refine (foldl_fst_shell _ _ _ (fun s a => ?_)).trans ?_ | with_reducible refine guarded_shell _ _ _ ?_ | with_reducible refine (foldl_shell _ _ _ (fun s a => ?_)).trans ?_)

theorem complete_shell (h : HalfId) (op : Nat) (e : CmdEntry) (status : Nat) (buffer : Bool) (result : Handle) (bytes : List Byte) (s : State) :
    (complete h op e status buffer result bytes s).shell = s.shell := by
  unfold complete
  repeat' (first | with_reducible rfl | with_reducible exact free_shell _ _ | (simp only [upd_shell, icuRaise_shell]; done) | simp only [upd_shell, icuRaise_shell] | split | with_reducible refine ite_shell ?_ ?_ | with_reducible refine (foldl_fst_shell _ _ _ (fun s a => ?_)).trans ?_ | with_reducible refine guarded_shell _ _ _ ?_ | with_reducible refine (foldl_shell _ _ _ (fun s a => ?_)).trans ?_)

theorem takeEntry_shell (h : HalfId) (s : State) :
    (takeEntry h s).shell = s.shell := by
  unfold takeEntry
  repeat' (first | with_reducible rfl | with_reducible exact free_shell _ _ | (simp only [upd_shell, icuWithdraw_shell]; done) | simp only [upd_shell, icuWithdraw_shell] | split | with_reducible refine ite_shell ?_ ?_ | with_reducible refine (foldl_fst_shell _ _ _ (fun s a => ?_)).trans ?_ | with_reducible refine guarded_shell _ _ _ ?_ | with_reducible refine (foldl_shell _ _ _ (fun s a => ?_)).trans ?_)

theorem takeAssist_shell (h : HalfId) (s : State) :
    (takeAssist h s).shell = s.shell := by
  unfold takeAssist
  repeat' (first | with_reducible rfl | with_reducible exact free_shell _ _ | (simp only [upd_shell, icuWithdraw_shell]; done) | simp only [upd_shell, icuWithdraw_shell] | split | with_reducible refine ite_shell ?_ ?_ | with_reducible refine (foldl_fst_shell _ _ _ (fun s a => ?_)).trans ?_ | with_reducible refine guarded_shell _ _ _ ?_ | with_reducible refine (foldl_shell _ _ _ (fun s a => ?_)).trans ?_)

theorem asrWrite_shell (h : HalfId) (a : AsrEntry) (s : State) :
    (asrWrite h a s).shell = s.shell := by
  unfold asrWrite
  repeat' (first | with_reducible rfl | with_reducible exact free_shell _ _ | (simp only [upd_shell, icuRaise_shell]; done) | simp only [upd_shell, icuRaise_shell] | split | with_reducible refine ite_shell ?_ ?_ | with_reducible refine (foldl_fst_shell _ _ _ (fun s a => ?_)).trans ?_ | with_reducible refine guarded_shell _ _ _ ?_ | with_reducible refine (foldl_shell _ _ _ (fun s a => ?_)).trans ?_)

theorem assistLate_shell (h : HalfId) (kind tag : Nat) (obj : Handle) (sequence time cause : Nat) (s : State) :
    (assistLate h kind tag obj sequence time cause s).shell = s.shell := by
  unfold assistLate
  repeat' (first | with_reducible rfl | with_reducible exact free_shell _ _ | (simp only [upd_shell, event_shell]; done) | simp only [upd_shell, event_shell] | split | with_reducible refine ite_shell ?_ ?_ | with_reducible refine (foldl_fst_shell _ _ _ (fun s a => ?_)).trans ?_ | with_reducible refine guarded_shell _ _ _ ?_ | with_reducible refine (foldl_shell _ _ _ (fun s a => ?_)).trans ?_)

theorem assistUnexpected_shell (h : HalfId) (kind tag : Nat) (obj : Handle) (cause : Nat) (s : State) :
    (assistUnexpected h kind tag obj cause s).shell = s.shell := by
  unfold assistUnexpected
  repeat' (first | with_reducible rfl | with_reducible exact free_shell _ _ | (simp only [upd_shell, event_shell]; done) | simp only [upd_shell, event_shell] | split | with_reducible refine ite_shell ?_ ?_ | with_reducible refine (foldl_fst_shell _ _ _ (fun s a => ?_)).trans ?_ | with_reducible refine guarded_shell _ _ _ ?_ | with_reducible refine (foldl_shell _ _ _ (fun s a => ?_)).trans ?_)

theorem asrNotice_shell (h : HalfId) (a : AsrEntry) (s : State) :
    (asrNotice h a s).shell = s.shell := by
  unfold asrNotice
  repeat' (first | with_reducible rfl | with_reducible exact free_shell _ _ | (simp only [upd_shell, asrWrite_shell]; done) | simp only [upd_shell, asrWrite_shell] | split | with_reducible refine ite_shell ?_ ?_ | with_reducible refine (foldl_fst_shell _ _ _ (fun s a => ?_)).trans ?_ | with_reducible refine guarded_shell _ _ _ ?_ | with_reducible refine (foldl_shell _ _ _ (fun s a => ?_)).trans ?_)

theorem asrRequest_shell (h : HalfId) (a : AsrEntry) (deadline : Nat) (s : State) :
    (asrRequest h a deadline s).shell = s.shell := by
  unfold asrRequest
  repeat' (first | with_reducible rfl | with_reducible exact free_shell _ _ | (simp only [upd_shell, asrWrite_shell]; done) | simp only [upd_shell, asrWrite_shell] | split | with_reducible refine ite_shell ?_ ?_ | with_reducible refine (foldl_fst_shell _ _ _ (fun s a => ?_)).trans ?_ | with_reducible refine guarded_shell _ _ _ ?_ | with_reducible refine (foldl_shell _ _ _ (fun s a => ?_)).trans ?_)

theorem dmaBusFail_shell (h : HalfId) (cause : Nat) (address : W64) (descriptor : Bool) (s : State) :
    (dmaBusFail h cause address descriptor s).shell = s.shell := by
  unfold dmaBusFail
  repeat' (first | with_reducible rfl | with_reducible exact free_shell _ _ | (simp only [upd_shell, free_shell, latchHw_shell, event_shell, icuRaise_shell]; done) | simp only [upd_shell, free_shell, latchHw_shell, event_shell, icuRaise_shell] | split | with_reducible refine ite_shell ?_ ?_ | with_reducible refine (foldl_fst_shell _ _ _ (fun s a => ?_)).trans ?_ | with_reducible refine guarded_shell _ _ _ ?_ | with_reducible refine (foldl_shell _ _ _ (fun s a => ?_)).trans ?_)

/-! Operands.lean -/

theorem Reply.ok_shell (result : List Byte) (s : State) : (Reply.ok result s).state.shell = s.shell := rfl
theorem Reply.later_shell (result : List Byte) (s : State) : (Reply.later result s).state.shell = s.shell := rfl
theorem completeFail_shell (h : HalfId) (op : Nat) (e : CmdEntry) (f : Fail) (s : State) :
    (completeFail h op e f s).shell = s.shell := by
  unfold completeFail
  repeat' (first | with_reducible rfl | with_reducible exact free_shell _ _ | (simp only [upd_shell, complete_shell]; done) | simp only [upd_shell, complete_shell] | split | with_reducible refine ite_shell ?_ ?_ | with_reducible refine (foldl_fst_shell _ _ _ (fun s a => ?_)).trans ?_ | with_reducible refine guarded_shell _ _ _ ?_ | with_reducible refine (foldl_shell _ _ _ (fun s a => ?_)).trans ?_)

theorem finish_shell (h : HalfId) (op : Nat) (e : CmdEntry) (r : Reply) : (finish h op e r).shell = r.state.shell := by
  cases r
  · exact completeFail_shell _ _ _ _ _
  · exact complete_shell _ _ _ _ _ _ _ _
  · rfl
theorem runCmd_shell (h : HalfId) (o : OpSpec) (e : CmdEntry) (r : Option RefFetch) (s : State) (body : State → Reply)
    (hb : ∀ u, (body u).state.shell = u.shell) : (runCmd h o e r s body).shell = s.shell := by
  unfold runCmd
  split
  · rfl
  · simp only []
    split
    · simp only [completeFail_shell]
      split
      · rw [dmaBusFail_shell, takeEntry_shell]
      · exact takeEntry_shell _ _
    · rw [finish_shell, hb, takeEntry_shell]
theorem takeUnknown_shell (h : HalfId) (s : State) :
    (takeUnknown h s).shell = s.shell := by
  unfold takeUnknown
  repeat' (first | with_reducible rfl | with_reducible exact free_shell _ _ | (simp only [upd_shell, takeEntry_shell, completeFail_shell]; done) | simp only [upd_shell, takeEntry_shell, completeFail_shell] | split | with_reducible refine ite_shell ?_ ?_ | with_reducible refine (foldl_fst_shell _ _ _ (fun s a => ?_)).trans ?_ | with_reducible refine guarded_shell _ _ _ ?_ | with_reducible refine (foldl_shell _ _ _ (fun s a => ?_)).trans ?_)

theorem guarded_shell (cs : List (Option Fail)) (s : State) (k : State → Reply) (hk : (k s).state.shell = s.shell) :
    (guarded cs s k).state.shell = s.shell := by
  unfold guarded
  split
  · rfl
  · exact hk
theorem deferredDone_shell (h : HalfId) (op tag seq : Nat) (obj : Handle) (status flags time : Nat) (s : State) :
    (deferredDone h op tag seq obj status flags time s).shell = s.shell := by
  unfold deferredDone
  repeat' (first | with_reducible rfl | with_reducible exact free_shell _ _ | (simp only [upd_shell, event_shell]; done) | simp only [upd_shell, event_shell] | split | with_reducible refine ite_shell ?_ ?_ | with_reducible refine (foldl_fst_shell _ _ _ (fun s a => ?_)).trans ?_ | with_reducible refine guarded_shell _ _ _ ?_ | with_reducible refine (foldl_shell _ _ _ (fun s a => ?_)).trans ?_)

theorem deferredEnd_shell (h : HalfId) (d : Deferred) (status flags : Nat) (s : State) :
    (deferredEnd h d status flags s).shell = s.shell := by
  unfold deferredEnd
  repeat' (first | with_reducible rfl | with_reducible exact free_shell _ _ | (simp only [upd_shell, deferredDone_shell]; done) | simp only [upd_shell, deferredDone_shell] | split | with_reducible refine ite_shell ?_ ?_ | with_reducible refine (foldl_fst_shell _ _ _ (fun s a => ?_)).trans ?_ | with_reducible refine guarded_shell _ _ _ ?_ | with_reducible refine (foldl_shell _ _ _ (fun s a => ?_)).trans ?_)

theorem failoverWrite_shell (h : HalfId) (rs : List Record) (s : State) :
    (failoverWrite h rs s).shell = s.shell := by
  unfold failoverWrite
  repeat' (first | with_reducible rfl | with_reducible exact free_shell _ _ | (simp only [upd_shell]; done) | simp only [upd_shell] | split | with_reducible refine ite_shell ?_ ?_ | with_reducible refine (foldl_fst_shell _ _ _ (fun s a => ?_)).trans ?_ | with_reducible refine guarded_shell _ _ _ ?_ | with_reducible refine (foldl_shell _ _ _ (fun s a => ?_)).trans ?_)

theorem takeoverCheck_shell (h : HalfId) (s : State) :
    (takeoverCheck h s).shell = s.shell := by
  unfold takeoverCheck
  repeat' (first | with_reducible rfl | with_reducible exact free_shell _ _ | (simp only [upd_shell, event_shell, deferredDone_shell, failoverWrite_shell]; done) | simp only [upd_shell, event_shell, deferredDone_shell, failoverWrite_shell] | split | with_reducible refine ite_shell ?_ ?_ | with_reducible refine (foldl_fst_shell _ _ _ (fun s a => ?_)).trans ?_ | with_reducible refine guarded_shell _ _ _ ?_ | with_reducible refine (foldl_shell _ _ _ (fun s a => ?_)).trans ?_)

theorem removeIdle_shell (h : HalfId) (s : State) :
    (removeIdle h s).shell = s.shell := by
  unfold removeIdle
  repeat' (first | with_reducible rfl | with_reducible exact free_shell _ _ | (simp only [upd_shell, takeoverCheck_shell]; done) | simp only [upd_shell, takeoverCheck_shell] | split | with_reducible refine ite_shell ?_ ?_ | with_reducible refine (foldl_fst_shell _ _ _ (fun s a => ?_)).trans ?_ | with_reducible refine guarded_shell _ _ _ ?_ | with_reducible refine (foldl_shell _ _ _ (fun s a => ?_)).trans ?_)

/-! Clock.lean -/

theorem deviceTick_shell (s : State) : (deviceTick s).shell = s.shell := by
  unfold deviceTick
  split <;> rfl
/-! Doorbells.lean -/

theorem ringRefused_shell (h : HalfId) (ring : Nat) (value before : W32) (s : State) :
    (ringRefused h ring value before s).shell = s.shell := by
  unfold ringRefused
  repeat' (first | with_reducible rfl | with_reducible exact free_shell _ _ | (simp only [upd_shell, event_shell, icuRaise_shell]; done) | simp only [upd_shell, event_shell, icuRaise_shell] | split | with_reducible refine ite_shell ?_ ?_ | with_reducible refine (foldl_fst_shell _ _ _ (fun s a => ?_)).trans ?_ | with_reducible refine guarded_shell _ _ _ ?_ | with_reducible refine (foldl_shell _ _ _ (fun s a => ?_)).trans ?_)

theorem writeCmdqTail_shell (h : HalfId) (v : W32) (s : State) :
    (writeCmdqTail h v s).shell = s.shell := by
  unfold writeCmdqTail
  repeat' (first | with_reducible rfl | with_reducible exact free_shell _ _ | (simp only [upd_shell, icuWithdraw_shell, icuRaise_shell, ringRefused_shell]; done) | simp only [upd_shell, icuWithdraw_shell, icuRaise_shell, ringRefused_shell] | split | with_reducible refine ite_shell ?_ ?_ | with_reducible refine (foldl_fst_shell _ _ _ (fun s a => ?_)).trans ?_ | with_reducible refine guarded_shell _ _ _ ?_ | with_reducible refine (foldl_shell _ _ _ (fun s a => ?_)).trans ?_)

theorem writeCplqHead_shell (h : HalfId) (v : W32) (s : State) :
    (writeCplqHead h v s).shell = s.shell := by
  unfold writeCplqHead
  repeat' (first | with_reducible rfl | with_reducible exact free_shell _ _ | (simp only [upd_shell, icuWithdraw_shell, ringRefused_shell]; done) | simp only [upd_shell, icuWithdraw_shell, ringRefused_shell] | split | with_reducible refine ite_shell ?_ ?_ | with_reducible refine (foldl_fst_shell _ _ _ (fun s a => ?_)).trans ?_ | with_reducible refine guarded_shell _ _ _ ?_ | with_reducible refine (foldl_shell _ _ _ (fun s a => ?_)).trans ?_)

theorem writeEvtqHead_shell (h : HalfId) (v : W32) (s : State) :
    (writeEvtqHead h v s).shell = s.shell := by
  unfold writeEvtqHead
  repeat' (first | with_reducible rfl | with_reducible exact free_shell _ _ | (simp only [upd_shell, icuWithdraw_shell, ringRefused_shell]; done) | simp only [upd_shell, icuWithdraw_shell, ringRefused_shell] | split | with_reducible refine ite_shell ?_ ?_ | with_reducible refine (foldl_fst_shell _ _ _ (fun s a => ?_)).trans ?_ | with_reducible refine guarded_shell _ _ _ ?_ | with_reducible refine (foldl_shell _ _ _ (fun s a => ?_)).trans ?_)

theorem writeAsqTail_shell (h : HalfId) (v : W32) (s : State) :
    (writeAsqTail h v s).shell = s.shell := by
  unfold writeAsqTail
  repeat' (first | with_reducible rfl | with_reducible exact free_shell _ _ | (simp only [upd_shell, icuWithdraw_shell, icuRaise_shell, ringRefused_shell]; done) | simp only [upd_shell, icuWithdraw_shell, icuRaise_shell, ringRefused_shell] | split | with_reducible refine ite_shell ?_ ?_ | with_reducible refine (foldl_fst_shell _ _ _ (fun s a => ?_)).trans ?_ | with_reducible refine guarded_shell _ _ _ ?_ | with_reducible refine (foldl_shell _ _ _ (fun s a => ?_)).trans ?_)

theorem writeAsrHead_shell (h : HalfId) (v : W32) (s : State) :
    (writeAsrHead h v s).shell = s.shell := by
  unfold writeAsrHead
  repeat' (first | with_reducible rfl | with_reducible exact free_shell _ _ | (simp only [upd_shell, icuWithdraw_shell, ringRefused_shell]; done) | simp only [upd_shell, icuWithdraw_shell, ringRefused_shell] | split | with_reducible refine ite_shell ?_ ?_ | with_reducible refine (foldl_fst_shell _ _ _ (fun s a => ?_)).trans ?_ | with_reducible refine guarded_shell _ _ _ ?_ | with_reducible refine (foldl_shell _ _ _ (fun s a => ?_)).trans ?_)

theorem hostWriteTo_shell (h : HalfId) (f : State → State) (s : State) (hf : ∀ u, (f u).shell = u.shell) :
    (hostWriteTo h f s).shell = s.shell := by
  unfold hostWriteTo
  repeat' (first | rfl | simp only [hf, upd_shell] | split)
theorem icuPutEntry_shell (h : HalfId) (n : Nat) (v : Nat) (s : State) :
    (icuPutEntry h n v s).shell = s.shell := by
  unfold icuPutEntry
  repeat' (first | with_reducible rfl | with_reducible exact free_shell _ _ | (simp only [upd_shell, icuEval_shell]; done) | simp only [upd_shell, icuEval_shell] | split | with_reducible refine ite_shell ?_ ?_ | with_reducible refine (foldl_fst_shell _ _ _ (fun s a => ?_)).trans ?_ | with_reducible refine guarded_shell _ _ _ ?_ | with_reducible refine (foldl_shell _ _ _ (fun s a => ?_)).trans ?_)

theorem icuHostEntry_shell (endpoint icu : HalfId) (n : Nat) (v : Nat) (s : State) :
    (icuHostEntry endpoint icu n v s).shell = s.shell := by
  unfold icuHostEntry
  repeat' (first | with_reducible rfl | with_reducible exact free_shell _ _ | (simp only [upd_shell, icuPutEntry_shell]; done) | simp only [upd_shell, icuPutEntry_shell] | split | with_reducible refine ite_shell ?_ ?_ | with_reducible refine (foldl_fst_shell _ _ _ (fun s a => ?_)).trans ?_ | with_reducible refine guarded_shell _ _ _ ?_ | with_reducible refine (foldl_shell _ _ _ (fun s a => ?_)).trans ?_)

theorem icuTake_shell (h : HalfId) (n : Nat) (s : State) :
    (icuTake h n s).1.shell = s.shell := by
  unfold icuTake
  repeat' (first | with_reducible rfl | with_reducible exact free_shell _ _ | (simp only [upd_shell, icuWithdraw_shell]; done) | simp only [upd_shell, icuWithdraw_shell] | split | with_reducible refine ite_shell ?_ ?_ | with_reducible refine (foldl_fst_shell _ _ _ (fun s a => ?_)).trans ?_ | with_reducible refine guarded_shell _ _ _ ?_ | with_reducible refine (foldl_shell _ _ _ (fun s a => ?_)).trans ?_)

theorem icuServe_shell (r : Requester) (h : HalfId) (n : Nat) (s : State) :
    (icuServe r h n s).shell = s.shell := by
  unfold icuServe
  repeat' (first | with_reducible rfl | with_reducible exact free_shell _ _ | (simp only [upd_shell]; done) | simp only [upd_shell] | split | with_reducible refine ite_shell ?_ ?_ | with_reducible refine (foldl_fst_shell _ _ _ (fun s a => ?_)).trans ?_ | with_reducible refine guarded_shell _ _ _ ?_ | with_reducible refine (foldl_shell _ _ _ (fun s a => ?_)).trans ?_)

theorem icuResult_shell (r : Requester) (h : HalfId) (v : Nat) (s : State) :
    (icuResult r h v s).shell = s.shell := by
  unfold icuResult
  repeat' (first | with_reducible rfl | with_reducible exact free_shell _ _ | (simp only [upd_shell]; done) | simp only [upd_shell] | split | with_reducible refine ite_shell ?_ ?_ | with_reducible refine (foldl_fst_shell _ _ _ (fun s a => ?_)).trans ?_ | with_reducible refine guarded_shell _ _ _ ?_ | with_reducible refine (foldl_shell _ _ _ (fun s a => ?_)).trans ?_)

theorem icuClaimWrite_shell (r : Requester) (icu : HalfId) (number : W32) (s : State) :
    (icuClaimWrite r icu number s).shell = s.shell := by
  unfold icuClaimWrite
  repeat' (first | with_reducible rfl | with_reducible exact free_shell _ _ | (simp only [upd_shell, icuTake_shell, icuServe_shell, icuResult_shell]; done) | simp only [upd_shell, icuTake_shell, icuServe_shell, icuResult_shell] | split | with_reducible refine ite_shell ?_ ?_ | with_reducible refine (foldl_fst_shell _ _ _ (fun s a => ?_)).trans ?_ | with_reducible refine guarded_shell _ _ _ ?_ | with_reducible refine (foldl_shell _ _ _ (fun s a => ?_)).trans ?_)

theorem icuSetWrite_shell (r : Requester) (icu : HalfId) (number : W32) (s : State) :
    (icuSetWrite r icu number s).shell = s.shell := by
  unfold icuSetWrite
  repeat' (first | with_reducible rfl | with_reducible exact free_shell _ _ | (simp only [upd_shell, icuRaise_shell]; done) | simp only [upd_shell, icuRaise_shell] | split | with_reducible refine ite_shell ?_ ?_ | with_reducible refine (foldl_fst_shell _ _ _ (fun s a => ?_)).trans ?_ | with_reducible refine guarded_shell _ _ _ ?_ | with_reducible refine (foldl_shell _ _ _ (fun s a => ?_)).trans ?_)

theorem msixMaskWrite_shell (h : HalfId) (v : Nat) (mask : Bool) (s : State) :
    (msixMaskWrite h v mask s).shell = s.shell := by
  unfold msixMaskWrite
  repeat' (first | with_reducible rfl | with_reducible exact free_shell _ _ | (simp only [upd_shell, emit_shell]; done) | simp only [upd_shell, emit_shell] | split | with_reducible refine ite_shell ?_ ?_ | with_reducible refine (foldl_fst_shell _ _ _ (fun s a => ?_)).trans ?_ | with_reducible refine guarded_shell _ _ _ ?_ | with_reducible refine (foldl_shell _ _ _ (fun s a => ?_)).trans ?_)

/-! HostDma.lean -/

theorem bar4Deny_shell (h : HalfId) (a : Nat) (s : State) :
    (bar4Deny h a s).shell = s.shell := by
  unfold bar4Deny
  repeat' (first | with_reducible rfl | with_reducible exact free_shell _ _ | (simp only [upd_shell, event_shell]; done) | simp only [upd_shell, event_shell] | split | with_reducible refine ite_shell ?_ ?_ | with_reducible refine (foldl_fst_shell _ _ _ (fun s a => ?_)).trans ?_ | with_reducible refine guarded_shell _ _ _ ?_ | with_reducible refine (foldl_shell _ _ _ (fun s a => ?_)).trans ?_)

theorem bar4Do_shell (h : HalfId) (op : Bar4Op) (s : State) :
    (bar4Do h op s).shell = s.shell := by
  unfold bar4Do
  repeat' (first | with_reducible rfl | with_reducible exact free_shell _ _ | (simp only [upd_shell, free_shell, State.tick1_shell, bar4Deny_shell]; done) | simp only [upd_shell, free_shell, State.tick1_shell, bar4Deny_shell] | split | with_reducible refine ite_shell ?_ ?_ | with_reducible refine (foldl_fst_shell _ _ _ (fun s a => ?_)).trans ?_ | with_reducible refine guarded_shell _ _ _ ?_ | with_reducible refine (foldl_shell _ _ _ (fun s a => ?_)).trans ?_)

theorem hostRead_shell (h : HalfId) (c : Nat) (a : W64) (n : Nat) (noSnoop : Bool) (s : State) :
    (hostRead h c a n noSnoop s).shell = s.shell := by
  unfold hostRead
  repeat' (first | with_reducible rfl | with_reducible exact free_shell _ _ | (simp only [upd_shell, emit_shell]; done) | simp only [upd_shell, emit_shell] | split | with_reducible refine ite_shell ?_ ?_ | with_reducible refine (foldl_fst_shell _ _ _ (fun s a => ?_)).trans ?_ | with_reducible refine guarded_shell _ _ _ ?_ | with_reducible refine (foldl_shell _ _ _ (fun s a => ?_)).trans ?_)

theorem readDescriptor_shell (h : HalfId) (c : Nat) (a : W64) (s : State) :
    (readDescriptor h c a s).shell = s.shell := by
  unfold readDescriptor
  repeat' (first | with_reducible rfl | with_reducible exact free_shell _ _ | (simp only [upd_shell, hostRead_shell]; done) | simp only [upd_shell, hostRead_shell] | split | with_reducible refine ite_shell ?_ ?_ | with_reducible refine (foldl_fst_shell _ _ _ (fun s a => ?_)).trans ?_ | with_reducible refine guarded_shell _ _ _ ?_ | with_reducible refine (foldl_shell _ _ _ (fun s a => ?_)).trans ?_)

theorem readAgain_shell (h : HalfId) (c : Nat) (s : State) :
    (readAgain h c s).shell = s.shell := by
  unfold readAgain
  repeat' (first | with_reducible rfl | with_reducible exact free_shell _ _ | (simp only [upd_shell, hostRead_shell]; done) | simp only [upd_shell, hostRead_shell] | split | with_reducible refine ite_shell ?_ ?_ | with_reducible refine (foldl_fst_shell _ _ _ (fun s a => ?_)).trans ?_ | with_reducible refine guarded_shell _ _ _ ?_ | with_reducible refine (foldl_shell _ _ _ (fun s a => ?_)).trans ?_)

theorem dmaKickDo_shell (h : HalfId) (c : Nat) (s : State) :
    (dmaKickDo h c s).shell = s.shell := by
  unfold dmaKickDo
  repeat' (first | with_reducible rfl | with_reducible exact free_shell _ _ | (simp only [upd_shell, readDescriptor_shell, readAgain_shell]; done) | simp only [upd_shell, readDescriptor_shell, readAgain_shell] | split | with_reducible refine ite_shell ?_ ?_ | with_reducible refine (foldl_fst_shell _ _ _ (fun s a => ?_)).trans ?_ | with_reducible refine guarded_shell _ _ _ ?_ | with_reducible refine (foldl_shell _ _ _ (fun s a => ?_)).trans ?_)

theorem dmaChainDo_shell (h : HalfId) (c : Nat) (a : W64) (s : State) :
    (dmaChainDo h c a s).shell = s.shell := by
  unfold dmaChainDo
  repeat' (first | with_reducible rfl | with_reducible exact free_shell _ _ | (simp only [upd_shell]; done) | simp only [upd_shell] | split | with_reducible refine ite_shell ?_ ?_ | with_reducible refine (foldl_fst_shell _ _ _ (fun s a => ?_)).trans ?_ | with_reducible refine guarded_shell _ _ _ ?_ | with_reducible refine (foldl_shell _ _ _ (fun s a => ?_)).trans ?_)

theorem dmaCtrlDo_shell (h : HalfId) (c : Nat) (en noSnoop : Bool) (s : State) :
    (dmaCtrlDo h c en noSnoop s).shell = s.shell := by
  unfold dmaCtrlDo
  repeat' (first | with_reducible rfl | with_reducible exact free_shell _ _ | (simp only [upd_shell]; done) | simp only [upd_shell] | split | with_reducible refine ite_shell ?_ ?_ | with_reducible refine (foldl_fst_shell _ _ _ (fun s a => ?_)).trans ?_ | with_reducible refine guarded_shell _ _ _ ?_ | with_reducible refine (foldl_shell _ _ _ (fun s a => ?_)).trans ?_)

theorem dmaDisableDo_shell (h : HalfId) (c : Nat) (s : State) :
    (dmaDisableDo h c s).shell = s.shell := by
  unfold dmaDisableDo
  repeat' (first | with_reducible rfl | with_reducible exact free_shell _ _ | (simp only [upd_shell, free_shell]; done) | simp only [upd_shell, free_shell] | split | with_reducible refine ite_shell ?_ ?_ | with_reducible refine (foldl_fst_shell _ _ _ (fun s a => ?_)).trans ?_ | with_reducible refine guarded_shell _ _ _ ?_ | with_reducible refine (foldl_shell _ _ _ (fun s a => ?_)).trans ?_)

theorem dmaErrClearDo_shell (h : HalfId) (s : State) :
    (dmaErrClearDo h s).shell = s.shell := by
  unfold dmaErrClearDo
  repeat' (first | with_reducible rfl | with_reducible exact free_shell _ _ | (simp only [upd_shell]; done) | simp only [upd_shell] | split | with_reducible refine ite_shell ?_ ?_ | with_reducible refine (foldl_fst_shell _ _ _ (fun s a => ?_)).trans ?_ | with_reducible refine guarded_shell _ _ _ ?_ | with_reducible refine (foldl_shell _ _ _ (fun s a => ?_)).trans ?_)

theorem descStop_shell (h : HalfId) (c : Nat) (control : Nat) (s : State) :
    (descStop h c control s).shell = s.shell := by
  unfold descStop
  repeat' (first | with_reducible rfl | with_reducible exact free_shell _ _ | (simp only [upd_shell, event_shell, icuRaise_shell]; done) | simp only [upd_shell, event_shell, icuRaise_shell] | split | with_reducible refine ite_shell ?_ ?_ | with_reducible refine (foldl_fst_shell _ _ _ (fun s a => ?_)).trans ?_ | with_reducible refine guarded_shell _ _ _ ?_ | with_reducible refine (foldl_shell _ _ _ (fun s a => ?_)).trans ?_)

theorem descStart_shell (h : HalfId) (c : Nat) (bytes : List Byte) (s : State) :
    (descStart h c bytes s).shell = s.shell := by
  unfold descStart
  repeat' (first | with_reducible rfl | with_reducible exact free_shell _ _ | (simp only [upd_shell, hostRead_shell, descStop_shell]; done) | simp only [upd_shell, hostRead_shell, descStop_shell] | split | with_reducible refine ite_shell ?_ ?_ | with_reducible refine (foldl_fst_shell _ _ _ (fun s a => ?_)).trans ?_ | with_reducible refine guarded_shell _ _ _ ?_ | with_reducible refine (foldl_shell _ _ _ (fun s a => ?_)).trans ?_)

theorem descAgain_shell (h : HalfId) (c : Nat) (bytes : List Byte) (s : State) :
    (descAgain h c bytes s).shell = s.shell := by
  unfold descAgain
  repeat' (first | with_reducible rfl | with_reducible exact free_shell _ _ | (simp only [upd_shell, readDescriptor_shell, descStop_shell]; done) | simp only [upd_shell, readDescriptor_shell, descStop_shell] | split | with_reducible refine ite_shell ?_ ?_ | with_reducible refine (foldl_fst_shell _ _ _ (fun s a => ?_)).trans ?_ | with_reducible refine guarded_shell _ _ _ ?_ | with_reducible refine (foldl_shell _ _ _ (fun s a => ?_)).trans ?_)

theorem descEnd_shell (h : HalfId) (c : Nat) (s : State) :
    (descEnd h c s).shell = s.shell := by
  unfold descEnd
  repeat' (first | with_reducible rfl | with_reducible exact free_shell _ _ | (simp only [upd_shell, emit_shell, icuRaise_shell, readDescriptor_shell, readAgain_shell]; done) | simp only [upd_shell, emit_shell, icuRaise_shell, readDescriptor_shell, readAgain_shell] | split | with_reducible refine ite_shell ?_ ?_ | with_reducible refine (foldl_fst_shell _ _ _ (fun s a => ?_)).trans ?_ | with_reducible refine guarded_shell _ _ _ ?_ | with_reducible refine (foldl_shell _ _ _ (fun s a => ?_)).trans ?_)

/-! Pools.lean -/

theorem poolWater_shell (h : HalfId) (p : Nat) (s : State) :
    (poolWater h p s).shell = s.shell := by
  unfold poolWater
  repeat' (first | with_reducible rfl | with_reducible exact free_shell _ _ | (simp only [upd_shell, free_shell, event_shell]; done) | simp only [upd_shell, free_shell, event_shell] | split | with_reducible refine ite_shell ?_ ?_ | with_reducible refine (foldl_fst_shell _ _ _ (fun s a => ?_)).trans ?_ | with_reducible refine guarded_shell _ _ _ ?_ | with_reducible refine (foldl_shell _ _ _ (fun s a => ?_)).trans ?_)

theorem poolAskSupply_shell (h : HalfId) (p : Nat) (s : State) :
    (poolAskSupply h p s).shell = s.shell := by
  unfold poolAskSupply
  repeat' (first | with_reducible rfl | with_reducible exact free_shell _ _ | (simp only [upd_shell, asrRequest_shell]; done) | simp only [upd_shell, asrRequest_shell] | split | with_reducible refine ite_shell ?_ ?_ | with_reducible refine (foldl_fst_shell _ _ _ (fun s a => ?_)).trans ?_ | with_reducible refine guarded_shell _ _ _ ?_ | with_reducible refine (foldl_shell _ _ _ (fun s a => ?_)).trans ?_)

theorem poolListCorrupt_shell (h : HalfId) (p next stop : Nat) (s : State) :
    (poolListCorrupt h p next stop s).shell = s.shell := by
  unfold poolListCorrupt
  repeat' (first | with_reducible rfl | with_reducible exact free_shell _ _ | (simp only [upd_shell, latchHw_shell, event_shell]; done) | simp only [upd_shell, latchHw_shell, event_shell] | split | with_reducible refine ite_shell ?_ ?_ | with_reducible refine (foldl_fst_shell _ _ _ (fun s a => ?_)).trans ?_ | with_reducible refine guarded_shell _ _ _ ?_ | with_reducible refine (foldl_shell _ _ _ (fun s a => ?_)).trans ?_)

theorem poolPrefetch_shell (h : HalfId) (p stop n : Nat) (s : State) : (poolPrefetch h p stop n s).shell = s.shell := by
  induction n generalizing s with
  | zero => unfold poolPrefetch; with_reducible rfl
  | succ n ih =>
    unfold poolPrefetch
    extract_lets x q next
    split
    · with_reducible rfl
    · split
      · rw [ih, upd_shell]
      · exact poolListCorrupt_shell _ _ _ _ _
theorem poolTake_shell (h : HalfId) (p stop n : Nat) (s : State) :
    (poolTake h p stop n s).shell = s.shell := by
  unfold poolTake
  repeat' (first | with_reducible rfl | with_reducible exact free_shell _ _ | (simp only [upd_shell, free_shell, poolWater_shell, poolAskSupply_shell, poolListCorrupt_shell, poolPrefetch_shell]; done) | simp only [upd_shell, free_shell, poolWater_shell, poolAskSupply_shell, poolListCorrupt_shell, poolPrefetch_shell] | split | with_reducible refine ite_shell ?_ ?_ | with_reducible refine (foldl_fst_shell _ _ _ (fun s a => ?_)).trans ?_ | with_reducible refine guarded_shell _ _ _ ?_ | with_reducible refine (foldl_shell _ _ _ (fun s a => ?_)).trans ?_)

theorem poolRefuse_shell (h : HalfId) (p stop size : Nat) (s : State) :
    (poolRefuse h p stop size s).shell = s.shell := by
  unfold poolRefuse
  repeat' (first | with_reducible rfl | with_reducible exact free_shell _ _ | (simp only [upd_shell, event_shell]; done) | simp only [upd_shell, event_shell] | split | with_reducible refine ite_shell ?_ ?_ | with_reducible refine (foldl_fst_shell _ _ _ (fun s a => ?_)).trans ?_ | with_reducible refine guarded_shell _ _ _ ?_ | with_reducible refine (foldl_shell _ _ _ (fun s a => ?_)).trans ?_)

theorem poolAlloc_shell (h : HalfId) (stop : Nat) (pool0 : Bool) (size n : Nat) (s : State) :
    (poolAlloc h stop pool0 size n s).1.shell = s.shell := by
  unfold poolAlloc
  repeat' (first | with_reducible rfl | with_reducible exact free_shell _ _ | (simp only [upd_shell, poolTake_shell, poolRefuse_shell]; done) | simp only [upd_shell, poolTake_shell, poolRefuse_shell] | split | with_reducible refine ite_shell ?_ ?_ | with_reducible refine (foldl_fst_shell _ _ _ (fun s a => ?_)).trans ?_ | with_reducible refine guarded_shell _ _ _ ?_ | with_reducible refine (foldl_shell _ _ _ (fun s a => ?_)).trans ?_)

theorem poolCorrupt_shell (h : HalfId) (p cause address stop : Nat) (s : State) :
    (poolCorrupt h p cause address stop s).shell = s.shell := by
  unfold poolCorrupt
  repeat' (first | with_reducible rfl | with_reducible exact free_shell _ _ | (simp only [upd_shell, latchHw_shell, event_shell]; done) | simp only [upd_shell, latchHw_shell, event_shell] | split | with_reducible refine ite_shell ?_ ?_ | with_reducible refine (foldl_fst_shell _ _ _ (fun s a => ?_)).trans ?_ | with_reducible refine guarded_shell _ _ _ ?_ | with_reducible refine (foldl_shell _ _ _ (fun s a => ?_)).trans ?_)

theorem poolAddDo_shell (h : HalfId) (stop a n : Nat) (s : State) :
    (poolAddDo h stop a n s).shell = s.shell := by
  unfold poolAddDo
  repeat' (first | with_reducible rfl | with_reducible exact free_shell _ _ | (simp only [upd_shell, poolCorrupt_shell]; done) | simp only [upd_shell, poolCorrupt_shell] | split | with_reducible refine ite_shell ?_ ?_ | with_reducible refine (foldl_fst_shell _ _ _ (fun s a => ?_)).trans ?_ | with_reducible refine guarded_shell _ _ _ ?_ | with_reducible refine (foldl_shell _ _ _ (fun s a => ?_)).trans ?_)

theorem poolReturn_shell (h : HalfId) (p a : Nat) (s : State) :
    (poolReturn h p a s).shell = s.shell := by
  unfold poolReturn
  repeat' (first | with_reducible rfl | with_reducible exact free_shell _ _ | (simp only [upd_shell, asrWrite_shell]; done) | simp only [upd_shell, asrWrite_shell] | split | with_reducible refine ite_shell ?_ ?_ | with_reducible refine (foldl_fst_shell _ _ _ (fun s a => ?_)).trans ?_ | with_reducible refine guarded_shell _ _ _ ?_ | with_reducible refine (foldl_shell _ _ _ (fun s a => ?_)).trans ?_)

theorem poolFree_shell (h : HalfId) (p i a : Nat) (s : State) :
    (poolFree h p i a s).shell = s.shell := by
  unfold poolFree
  repeat' (first | with_reducible rfl | with_reducible exact free_shell _ _ | (simp only [upd_shell, poolWater_shell, poolReturn_shell]; done) | simp only [upd_shell, poolWater_shell, poolReturn_shell] | split | with_reducible refine ite_shell ?_ ?_ | with_reducible refine (foldl_fst_shell _ _ _ (fun s a => ?_)).trans ?_ | with_reducible refine guarded_shell _ _ _ ?_ | with_reducible refine (foldl_shell _ _ _ (fun s a => ?_)).trans ?_)

theorem poolReleaseDo_shell (h : HalfId) (stop a : Nat) (s : State) :
    (poolReleaseDo h stop a s).shell = s.shell := by
  unfold poolReleaseDo
  repeat' (first | with_reducible rfl | with_reducible exact free_shell _ _ | (simp only [upd_shell, poolCorrupt_shell, poolFree_shell]; done) | simp only [upd_shell, poolCorrupt_shell, poolFree_shell] | split | with_reducible refine ite_shell ?_ ?_ | with_reducible refine (foldl_fst_shell _ _ _ (fun s a => ?_)).trans ?_ | with_reducible refine guarded_shell _ _ _ ?_ | with_reducible refine (foldl_shell _ _ _ (fun s a => ?_)).trans ?_)

theorem runAssist_shell (h : HalfId) (kind function : Nat) (a : AssistEntry) (s : State) (body : List Byte → State → State)
    (hb : ∀ p u, (body p u).shell = u.shell) : (runAssist h kind function a s body).shell = s.shell := by
  unfold runAssist
  repeat' (first | rfl | simp only [hb, upd_shell, takeAssist_shell, assistLate_shell, assistUnexpected_shell] | split)
theorem poolSupplyOne_shell (h : HalfId) (p : Nat) (s : State) (a : Nat) :
    (poolSupplyOne h p s a).shell = s.shell := by
  unfold poolSupplyOne
  repeat' (first | with_reducible rfl | with_reducible exact free_shell _ _ | (simp only [upd_shell, poolCorrupt_shell]; done) | simp only [upd_shell, poolCorrupt_shell] | split | with_reducible refine ite_shell ?_ ?_ | with_reducible refine (foldl_fst_shell _ _ _ (fun s a => ?_)).trans ?_ | with_reducible refine guarded_shell _ _ _ ?_ | with_reducible refine (foldl_shell _ _ _ (fun s a => ?_)).trans ?_)

/-! Counters.lean -/

theorem reelStop_shell (h : HalfId) (s : State) :
    (reelStop h s).shell = s.shell := by
  unfold reelStop
  repeat' (first | with_reducible rfl | with_reducible exact free_shell _ _ | (simp only [upd_shell, latchHw_shell]; done) | simp only [upd_shell, latchHw_shell] | split | with_reducible refine ite_shell ?_ ?_ | with_reducible refine (foldl_fst_shell _ _ _ (fun s a => ?_)).trans ?_ | with_reducible refine guarded_shell _ _ _ ?_ | with_reducible refine (foldl_shell _ _ _ (fun s a => ?_)).trans ?_)

theorem reelSnapshot_shell (h : HalfId) (r : Record) (a instant : Nat) (s : State) :
    (reelSnapshot h r a instant s).shell = s.shell := by
  unfold reelSnapshot
  repeat' (first | with_reducible rfl | with_reducible exact free_shell _ _ | (simp only [upd_shell, icuRaise_shell]; done) | simp only [upd_shell, icuRaise_shell] | split | with_reducible refine ite_shell ?_ ?_ | with_reducible refine (foldl_fst_shell _ _ _ (fun s a => ?_)).trans ?_ | with_reducible refine guarded_shell _ _ _ ?_ | with_reducible refine (foldl_shell _ _ _ (fun s a => ?_)).trans ?_)

/-! Boot.lean -/

theorem resetSoon_shell (h : HalfId) (kind : Nat) (s : State) :
    (resetSoon h kind s).shell = s.shell := by
  unfold resetSoon
  repeat' (first | with_reducible rfl | with_reducible exact free_shell _ _ | (simp only [upd_shell, stopTether_shell]; done) | simp only [upd_shell, stopTether_shell] | split | with_reducible refine ite_shell ?_ ?_ | with_reducible refine (foldl_fst_shell _ _ _ (fun s a => ?_)).trans ?_ | with_reducible refine guarded_shell _ _ _ ?_ | with_reducible refine (foldl_shell _ _ _ (fun s a => ?_)).trans ?_)

theorem primerLatch_shell (h : HalfId) (s : State) :
    (primerLatch h s).shell = s.shell := by
  unfold primerLatch
  repeat' (first | with_reducible rfl | with_reducible exact free_shell _ _ | (simp only [upd_shell, icuRaise0_shell, alarmEvent_shell]; done) | simp only [upd_shell, icuRaise0_shell, alarmEvent_shell] | split | with_reducible refine ite_shell ?_ ?_ | with_reducible refine (foldl_fst_shell _ _ _ (fun s a => ?_)).trans ?_ | with_reducible refine guarded_shell _ _ _ ?_ | with_reducible refine (foldl_shell _ _ _ (fun s a => ?_)).trans ?_)

theorem primerHalt_shell (h : HalfId) (code : Nat) (s : State) :
    (primerHalt h code s).shell = s.shell := by
  unfold primerHalt
  repeat' (first | with_reducible rfl | with_reducible exact free_shell _ _ | (simp only [upd_shell, primerLatch_shell]; done) | simp only [upd_shell, primerLatch_shell] | split | with_reducible refine ite_shell ?_ ?_ | with_reducible refine (foldl_fst_shell _ _ _ (fun s a => ?_)).trans ?_ | with_reducible refine guarded_shell _ _ _ ?_ | with_reducible refine (foldl_shell _ _ _ (fun s a => ?_)).trans ?_)

theorem startTraining_shell (h : HalfId) (f : BootFacts) (board : BoardDesc) (s : State) :
    (startTraining h f board s).shell = s.shell := by
  unfold startTraining
  repeat' (first | with_reducible rfl | with_reducible exact free_shell _ _ | (simp only [upd_shell, latchHw_shell, event_shell]; done) | simp only [upd_shell, latchHw_shell, event_shell] | split | with_reducible refine ite_shell ?_ ?_ | with_reducible refine (foldl_fst_shell _ _ _ (fun s a => ?_)).trans ?_ | with_reducible refine guarded_shell _ _ _ ?_ | with_reducible refine (foldl_shell _ _ _ (fun s a => ?_)).trans ?_)

theorem keelStart_shell (h : HalfId) (b trial other : Bool) (s : State) :
    (keelStart h b trial other s).shell = s.shell := by
  unfold keelStart
  repeat' (first | with_reducible rfl | with_reducible exact free_shell _ _ | (simp only [upd_shell]; done) | simp only [upd_shell] | split | with_reducible refine ite_shell ?_ ?_ | with_reducible refine (foldl_fst_shell _ _ _ (fun s a => ?_)).trans ?_ | with_reducible refine guarded_shell _ _ _ ?_ | with_reducible refine (foldl_shell _ _ _ (fun s a => ?_)).trans ?_)

theorem joinLead_shell (h : HalfId) (s : State) :
    (joinLead h s).shell = s.shell := by
  unfold joinLead
  repeat' (first | with_reducible rfl | with_reducible exact free_shell _ _ | (simp only [upd_shell, event_shell, icuRaise_shell]; done) | simp only [upd_shell, event_shell, icuRaise_shell] | split | with_reducible refine ite_shell ?_ ?_ | with_reducible refine (foldl_fst_shell _ _ _ (fun s a => ?_)).trans ?_ | with_reducible refine guarded_shell _ _ _ ?_ | with_reducible refine (foldl_shell _ _ _ (fun s a => ?_)).trans ?_)

theorem burnUntil_shell (h w : HalfId) (step : Nat) (s : State) :
    (burnUntil h w step s).shell = s.shell := by
  unfold burnUntil
  repeat' (first | with_reducible rfl | with_reducible exact free_shell _ _ | (simp only [upd_shell]; done) | simp only [upd_shell] | split | with_reducible refine ite_shell ?_ ?_ | with_reducible refine (foldl_fst_shell _ _ _ (fun s a => ?_)).trans ?_ | with_reducible refine guarded_shell _ _ _ ?_ | with_reducible refine (foldl_shell _ _ _ (fun s a => ?_)).trans ?_)

/-! Power.lean -/

theorem thermalTrip_shell (h : HalfId) (island : Nat) (celsius : Int) (s : State) :
    (thermalTrip h island celsius s).shell = s.shell := by
  unfold thermalTrip
  repeat' (first | with_reducible rfl | with_reducible exact free_shell _ _ | (simp only [upd_shell, latchHw_shell]; done) | simp only [upd_shell, latchHw_shell] | split | with_reducible refine ite_shell ?_ ?_ | with_reducible refine (foldl_fst_shell _ _ _ (fun s a => ?_)).trans ?_ | with_reducible refine guarded_shell _ _ _ ?_ | with_reducible refine (foldl_shell _ _ _ (fun s a => ?_)).trans ?_)

/-! Fabric.lean -/

theorem crossingDo_shell (h : HalfId) (p c : Nat) (op : FifoOp) (s : State) :
    (crossingDo h p c op s).shell = s.shell := by
  unfold crossingDo
  repeat' (first | with_reducible rfl | with_reducible exact free_shell _ _ | (simp only [upd_shell, free_shell, State.tick1_shell]; done) | simp only [upd_shell, free_shell, State.tick1_shell] | split | with_reducible refine ite_shell ?_ ?_ | with_reducible refine (foldl_fst_shell _ _ _ (fun s a => ?_)).trans ?_ | with_reducible refine guarded_shell _ _ _ ?_ | with_reducible refine (foldl_shell _ _ _ (fun s a => ?_)).trans ?_)

theorem crossingMeets_shell (h : HalfId) (p c : Nat) (op : FifoOp) (s : State) :
    (crossingMeets h p c op s).1.shell = s.shell := by
  unfold crossingMeets
  repeat' (first | with_reducible rfl | with_reducible exact free_shell _ _ | (simp only [upd_shell, crossingDo_shell]; done) | simp only [upd_shell, crossingDo_shell] | split | with_reducible refine ite_shell ?_ ?_ | with_reducible refine (foldl_fst_shell _ _ _ (fun s a => ?_)).trans ?_ | with_reducible refine guarded_shell _ _ _ ?_ | with_reducible refine (foldl_shell _ _ _ (fun s a => ?_)).trans ?_)

/-! Decoding.lean -/

theorem unitArrived_shell (h : HalfId) (i ts last : Nat) (s : State) :
    (unitArrived h i ts last s).shell = s.shell := by
  unfold unitArrived
  repeat' (first | with_reducible rfl | with_reducible exact free_shell _ _ | (simp only [upd_shell, event_shell]; done) | simp only [upd_shell, event_shell] | split | with_reducible refine ite_shell ?_ ?_ | with_reducible refine (foldl_fst_shell _ _ _ (fun s a => ?_)).trans ?_ | with_reducible refine guarded_shell _ _ _ ?_ | with_reducible refine (foldl_shell _ _ _ (fun s a => ?_)).trans ?_)

theorem noteUnit_shell (h : HalfId) (i ts : Nat) (marker : Bool) (s : State) :
    (noteUnit h i ts marker s).shell = s.shell := by
  unfold noteUnit
  repeat' (first | with_reducible rfl | with_reducible exact free_shell _ _ | (simp only [upd_shell, unitArrived_shell]; done) | simp only [upd_shell, unitArrived_shell] | split | with_reducible refine ite_shell ?_ ?_ | with_reducible refine (foldl_fst_shell _ _ _ (fun s a => ?_)).trans ?_ | with_reducible refine guarded_shell _ _ _ ?_ | with_reducible refine (foldl_shell _ _ _ (fun s a => ?_)).trans ?_)

theorem jitterOverflow_shell (h : HalfId) (i : Nat) (n : InputSt) (s : State) :
    (jitterOverflow h i n s).shell = s.shell := by
  unfold jitterOverflow
  repeat' (first | with_reducible rfl | with_reducible exact free_shell _ _ | (simp only [upd_shell, event_shell]; done) | simp only [upd_shell, event_shell] | split | with_reducible refine ite_shell ?_ ?_ | with_reducible refine (foldl_fst_shell _ _ _ (fun s a => ?_)).trans ?_ | with_reducible refine guarded_shell _ _ _ ?_ | with_reducible refine (foldl_shell _ _ _ (fun s a => ?_)).trans ?_)

theorem pushUnit_shell (h : HalfId) (c : Nat) (a : AccessUnit) (s : State) :
    (pushUnit h c a s).shell = s.shell := by
  unfold pushUnit
  repeat' (first | with_reducible rfl | with_reducible exact free_shell _ _ | (simp only [upd_shell]; done) | simp only [upd_shell] | split | with_reducible refine ite_shell ?_ ?_ | with_reducible refine (foldl_fst_shell _ _ _ (fun s a => ?_)).trans ?_ | with_reducible refine guarded_shell _ _ _ ?_ | with_reducible refine (foldl_shell _ _ _ (fun s a => ?_)).trans ?_)

theorem copyUnit_shell (h : HalfId) (stream : Handle) (r : Record) (a : AccessUnit) (s : State) :
    (copyUnit h stream r a s).shell = s.shell := by
  unfold copyUnit
  repeat' (first | with_reducible rfl | with_reducible exact free_shell _ _ | (simp only [upd_shell, emit_shell]; done) | simp only [upd_shell, emit_shell] | split | with_reducible refine ite_shell ?_ ?_ | with_reducible refine (foldl_fst_shell _ _ _ (fun s a => ?_)).trans ?_ | with_reducible refine guarded_shell _ _ _ ?_ | with_reducible refine (foldl_shell _ _ _ (fun s a => ?_)).trans ?_)

theorem streamEnd_shell (h : HalfId) (c : Nat) (s : State) :
    (streamEnd h c s).shell = s.shell := by
  unfold streamEnd
  repeat' (first | with_reducible rfl | with_reducible exact free_shell _ _ | (simp only [upd_shell, event_shell]; done) | simp only [upd_shell, event_shell] | split | with_reducible refine ite_shell ?_ ?_ | with_reducible refine (foldl_fst_shell _ _ _ (fun s a => ?_)).trans ?_ | with_reducible refine guarded_shell _ _ _ ?_ | with_reducible refine (foldl_shell _ _ _ (fun s a => ?_)).trans ?_)

theorem endFeed_shell (h : HalfId) (i : Nat) (s : State) :
    (endFeed h i s).shell = s.shell := by
  unfold endFeed
  repeat' (first | with_reducible rfl | with_reducible exact free_shell _ _ | (simp only [upd_shell, streamEnd_shell]; done) | simp only [upd_shell, streamEnd_shell] | split | with_reducible refine ite_shell ?_ ?_ | with_reducible refine (foldl_fst_shell _ _ _ (fun s a => ?_)).trans ?_ | with_reducible refine guarded_shell _ _ _ ?_ | with_reducible refine (foldl_shell _ _ _ (fun s a => ?_)).trans ?_)

theorem feedStatus_shell (h : HalfId) (c : Nat) (a : AccessUnit) (s : State) :
    (feedStatus h c a s).shell = s.shell := by
  unfold feedStatus
  repeat' (first | with_reducible rfl | with_reducible exact free_shell _ _ | (simp only [upd_shell]; done) | simp only [upd_shell] | split | with_reducible refine ite_shell ?_ ?_ | with_reducible refine (foldl_fst_shell _ _ _ (fun s a => ?_)).trans ?_ | with_reducible refine guarded_shell _ _ _ ?_ | with_reducible refine (foldl_shell _ _ _ (fun s a => ?_)).trans ?_)

/-! Pictures.lean -/

theorem requestSend_shell (h : HalfId) (i : Nat) (fir : Bool) (rep : Nat) (s : State) :
    (requestSend h i fir rep s).shell = s.shell := by
  unfold requestSend
  repeat' (first | with_reducible rfl | with_reducible exact free_shell _ _ | (simp only [upd_shell, emit_shell, event_shell]; done) | simp only [upd_shell, emit_shell, event_shell] | split | with_reducible refine ite_shell ?_ ?_ | with_reducible refine (foldl_fst_shell _ _ _ (fun s a => ?_)).trans ?_ | with_reducible refine guarded_shell _ _ _ ?_ | with_reducible refine (foldl_shell _ _ _ (fun s a => ?_)).trans ?_)

theorem refreshTrigger_shell (h : HalfId) (i : Nat) (s : State) :
    (refreshTrigger h i s).shell = s.shell := by
  unfold refreshTrigger
  repeat' (first | with_reducible rfl | with_reducible exact free_shell _ _ | (simp only [upd_shell, requestSend_shell]; done) | simp only [upd_shell, requestSend_shell] | split | with_reducible refine ite_shell ?_ ?_ | with_reducible refine (foldl_fst_shell _ _ _ (fun s a => ?_)).trans ?_ | with_reducible refine guarded_shell _ _ _ ?_ | with_reducible refine (foldl_shell _ _ _ (fun s a => ?_)).trans ?_)

theorem requestOnce_shell (h : HalfId) (i : Nat) (fir : Bool) (s : State) :
    (requestOnce h i fir s).shell = s.shell := by
  unfold requestOnce
  repeat' (first | with_reducible rfl | with_reducible exact free_shell _ _ | (simp only [upd_shell, requestSend_shell]; done) | simp only [upd_shell, requestSend_shell] | split | with_reducible refine ite_shell ?_ ?_ | with_reducible refine (foldl_fst_shell _ _ _ (fun s a => ?_)).trans ?_ | with_reducible refine guarded_shell _ _ _ ?_ | with_reducible refine (foldl_shell _ _ _ (fun s a => ?_)).trans ?_)

theorem rejectSets_shell (h : HalfId) (c : Nat) (l : List ParamUnit) (s : State) :
    (rejectSets h c l s).shell = s.shell := by
  unfold rejectSets
  repeat' (first | with_reducible rfl | with_reducible exact free_shell _ _ | (simp only [upd_shell, event_shell]; done) | simp only [upd_shell, event_shell] | split | with_reducible refine ite_shell ?_ ?_ | with_reducible refine (foldl_fst_shell _ _ _ (fun s a => ?_)).trans ?_ | with_reducible refine guarded_shell _ _ _ ?_ | with_reducible refine (foldl_shell _ _ _ (fun s a => ?_)).trans ?_)

theorem reportStandIns_shell (h : HalfId) (c seq : Nat) (l : List RefPic) (s : State) :
    (reportStandIns h c seq l s).shell = s.shell := by
  unfold reportStandIns
  repeat' (first | with_reducible rfl | with_reducible exact free_shell _ _ | (simp only [upd_shell, event_shell]; done) | simp only [upd_shell, event_shell] | split | with_reducible refine ite_shell ?_ ?_ | with_reducible refine (foldl_fst_shell _ _ _ (fun s a => ?_)).trans ?_ | with_reducible refine guarded_shell _ _ _ ?_ | with_reducible refine (foldl_shell _ _ _ (fun s a => ?_)).trans ?_)

theorem reliability_shell (h : HalfId) (c : Nat) (unsound : Bool) (close : Nat) (s : State) :
    (reliability h c unsound close s).shell = s.shell := by
  unfold reliability
  repeat' (first | with_reducible rfl | with_reducible exact free_shell _ _ | (simp only [upd_shell, event_shell]; done) | simp only [upd_shell, event_shell] | split | with_reducible refine ite_shell ?_ ?_ | with_reducible refine (foldl_fst_shell _ _ _ (fun s a => ?_)).trans ?_ | with_reducible refine guarded_shell _ _ _ ?_ | with_reducible refine (foldl_shell _ _ _ (fun s a => ?_)).trans ?_)

theorem concealRequest_shell (h : HalfId) (c : Nat) (standIns : List RefPic) (p : DecodedPic) (s : State) :
    (concealRequest h c standIns p s).shell = s.shell := by
  unfold concealRequest
  repeat' (first | with_reducible rfl | with_reducible exact free_shell _ _ | (simp only [upd_shell, asrRequest_shell]; done) | simp only [upd_shell, asrRequest_shell] | split | with_reducible refine ite_shell ?_ ?_ | with_reducible refine (foldl_fst_shell _ _ _ (fun s a => ?_)).trans ?_ | with_reducible refine guarded_shell _ _ _ ?_ | with_reducible refine (foldl_shell _ _ _ (fun s a => ?_)).trans ?_)

theorem placePicture_shell (h : HalfId) (c : Nat) (standIns : List RefPic) (p : DecodedPic) (asked : Bool) (s : State) :
    (placePicture h c standIns p asked s).shell = s.shell := by
  unfold placePicture
  repeat' (first | with_reducible rfl | with_reducible exact free_shell _ _ | (simp only [upd_shell, concealRequest_shell]; done) | simp only [upd_shell, concealRequest_shell] | split | with_reducible refine ite_shell ?_ ?_ | with_reducible refine (foldl_fst_shell _ _ _ (fun s a => ?_)).trans ?_ | with_reducible refine guarded_shell _ _ _ ?_ | with_reducible refine (foldl_shell _ _ _ (fun s a => ?_)).trans ?_)

theorem outputPicture_shell (h : HalfId) (c e : Nat) (p : ParamFacts) (a : AccessUnit) (f : DecodeFacts) (u : Decoded) (out : Content × List Nat × Nat) (s : State) :
    (outputPicture h c e p a f u out s).shell = s.shell := by
  unfold outputPicture
  repeat' (first | with_reducible rfl | with_reducible exact free_shell _ _ | (simp only [upd_shell, free_shell, State.tick1_shell, event_shell, refreshTrigger_shell, reliability_shell, placePicture_shell]; done) | simp only [upd_shell, free_shell, State.tick1_shell, event_shell, refreshTrigger_shell, reliability_shell, placePicture_shell] | split | with_reducible refine ite_shell ?_ ?_ | with_reducible refine (foldl_fst_shell _ _ _ (fun s a => ?_)).trans ?_ | with_reducible refine guarded_shell _ _ _ ?_ | with_reducible refine (foldl_shell _ _ _ (fun s a => ?_)).trans ?_)

theorem finishDecoded_shell (h : HalfId) (c e : Nat) (d : DecodeSt) (p : ParamFacts) (a : AccessUnit) (f : DecodeFacts) (s : State) :
    (finishDecoded h c e d p a f s).shell = s.shell := by
  unfold finishDecoded
  repeat' (first | with_reducible rfl | with_reducible exact free_shell _ _ | (simp only [upd_shell, reportStandIns_shell, outputPicture_shell]; done) | simp only [upd_shell, reportStandIns_shell, outputPicture_shell] | split | with_reducible refine ite_shell ?_ ?_ | with_reducible refine (foldl_fst_shell _ _ _ (fun s a => ?_)).trans ?_ | with_reducible refine guarded_shell _ _ _ ?_ | with_reducible refine (foldl_shell _ _ _ (fun s a => ?_)).trans ?_)

theorem concealDefault_shell (h : HalfId) (c : Nat) (p : DecodedPic) (s : State) :
    (concealDefault h c p s).shell = s.shell := by
  unfold concealDefault
  repeat' (first | with_reducible rfl | with_reducible exact free_shell _ _ | (simp only [upd_shell]; done) | simp only [upd_shell] | split | with_reducible refine ite_shell ?_ ?_ | with_reducible refine (foldl_fst_shell _ _ _ (fun s a => ?_)).trans ?_ | with_reducible refine guarded_shell _ _ _ ?_ | with_reducible refine (foldl_shell _ _ _ (fun s a => ?_)).trans ?_)

theorem concealLate_shell (h : HalfId) (c : Nat) (p : DecodedPic) (cause : Nat) (s : State) :
    (concealLate h c p cause s).shell = s.shell := by
  unfold concealLate
  repeat' (first | with_reducible rfl | with_reducible exact free_shell _ _ | (simp only [upd_shell, assistLate_shell, concealDefault_shell]; done) | simp only [upd_shell, assistLate_shell, concealDefault_shell] | split | with_reducible refine ite_shell ?_ ?_ | with_reducible refine (foldl_fst_shell _ _ _ (fun s a => ?_)).trans ?_ | with_reducible refine guarded_shell _ _ _ ?_ | with_reducible refine (foldl_shell _ _ _ (fun s a => ?_)).trans ?_)

theorem concealAct_shell (h : HalfId) (c : Nat) (p : DecodedPic) (action at_ pitch : Nat) (s : State) :
    (concealAct h c p action at_ pitch s).shell = s.shell := by
  unfold concealAct
  repeat' (first | with_reducible rfl | with_reducible exact free_shell _ _ | (simp only [upd_shell, free_shell, State.tick1_shell, asrNotice_shell]; done) | simp only [upd_shell, free_shell, State.tick1_shell, asrNotice_shell] | split | with_reducible refine ite_shell ?_ ?_ | with_reducible refine (foldl_fst_shell _ _ _ (fun s a => ?_)).trans ?_ | with_reducible refine guarded_shell _ _ _ ?_ | with_reducible refine (foldl_shell _ _ _ (fun s a => ?_)).trans ?_)

/-! Composing.lean -/

theorem surfaceRelease_shell (h : HalfId) (i : Nat) (s : State) :
    (surfaceRelease h i s).shell = s.shell := by
  unfold surfaceRelease
  repeat' (first | with_reducible rfl | with_reducible exact free_shell _ _ | (simp only [upd_shell]; done) | simp only [upd_shell] | split | with_reducible refine ite_shell ?_ ?_ | with_reducible refine (foldl_fst_shell _ _ _ (fun s a => ?_)).trans ?_ | with_reducible refine guarded_shell _ _ _ ?_ | with_reducible refine (foldl_shell _ _ _ (fun s a => ?_)).trans ?_)

theorem releaseBoth_shell (h : HalfId) (i : Nat) (s : State) :
    (releaseBoth h i s).shell = s.shell := by
  unfold releaseBoth
  repeat' (first | with_reducible rfl | with_reducible exact free_shell _ _ | (simp only [upd_shell, surfaceRelease_shell]; done) | simp only [upd_shell, surfaceRelease_shell] | split | with_reducible refine ite_shell ?_ ?_ | with_reducible refine (foldl_fst_shell _ _ _ (fun s a => ?_)).trans ?_ | with_reducible refine guarded_shell _ _ _ ?_ | with_reducible refine (foldl_shell _ _ _ (fun s a => ?_)).trans ?_)

theorem surfaceApply_shell (h : HalfId) (t i : Nat) (s : State) :
    (surfaceApply h t i s).shell = s.shell := by
  unfold surfaceApply
  repeat' (first | with_reducible rfl | with_reducible exact free_shell _ _ | (simp only [upd_shell, event_shell, releaseBoth_shell]; done) | simp only [upd_shell, event_shell, releaseBoth_shell] | split | with_reducible refine ite_shell ?_ ?_ | with_reducible refine (foldl_fst_shell _ _ _ (fun s a => ?_)).trans ?_ | with_reducible refine guarded_shell _ _ _ ?_ | with_reducible refine (foldl_shell _ _ _ (fun s a => ?_)).trans ?_)

theorem surfaceCopy_shell (h : HalfId) (i partner : Nat) (u : SurfUpdate) (s : State) :
    (surfaceCopy h i partner u s).shell = s.shell := by
  unfold surfaceCopy
  repeat' (first | with_reducible rfl | with_reducible exact free_shell _ _ | (simp only [upd_shell]; done) | simp only [upd_shell] | split | with_reducible refine ite_shell ?_ ?_ | with_reducible refine (foldl_fst_shell _ _ _ (fun s a => ?_)).trans ?_ | with_reducible refine guarded_shell _ _ _ ?_ | with_reducible refine (foldl_shell _ _ _ (fun s a => ?_)).trans ?_)

theorem handPicture_shell (h : HalfId) (i tick time seq : Nat) (blocks : List Nat) (all cue repeated : Bool) (s : State) :
    (handPicture h i tick time seq blocks all cue repeated s).1.shell = s.shell := by
  unfold handPicture
  repeat' (first | with_reducible rfl | with_reducible exact free_shell _ _ | (simp only [upd_shell]; done) | simp only [upd_shell] | split | with_reducible refine ite_shell ?_ ?_ | with_reducible refine (foldl_fst_shell _ _ _ (fun s a => ?_)).trans ?_ | with_reducible refine guarded_shell _ _ _ ?_ | with_reducible refine (foldl_shell _ _ _ (fun s a => ?_)).trans ?_)

theorem handRepeat_shell (h : HalfId) (i tick time : Nat) (s : State) :
    (handRepeat h i tick time s).shell = s.shell := by
  unfold handRepeat
  repeat' (first | with_reducible rfl | with_reducible exact free_shell _ _ | (simp only [upd_shell, handPicture_shell]; done) | simp only [upd_shell, handPicture_shell] | split | with_reducible refine ite_shell ?_ ?_ | with_reducible refine (foldl_fst_shell _ _ _ (fun s a => ?_)).trans ?_ | with_reducible refine guarded_shell _ _ _ ?_ | with_reducible refine (foldl_shell _ _ _ (fun s a => ?_)).trans ?_)

theorem repeatPicture_shell (h : HalfId) (i tick time : Nat) (s : State) :
    (repeatPicture h i tick time s).shell = s.shell := by
  unfold repeatPicture
  repeat' (first | with_reducible rfl | with_reducible exact free_shell _ _ | (simp only [upd_shell, handRepeat_shell]; done) | simp only [upd_shell, handRepeat_shell] | split | with_reducible refine ite_shell ?_ ?_ | with_reducible refine (foldl_fst_shell _ _ _ (fun s a => ?_)).trans ?_ | with_reducible refine guarded_shell _ _ _ ?_ | with_reducible refine (foldl_shell _ _ _ (fun s a => ?_)).trans ?_)

theorem flushRepeats_shell (h : HalfId) (i : Nat) (s : State) :
    (flushRepeats h i s).shell = s.shell := by
  unfold flushRepeats
  repeat' (first | with_reducible rfl | with_reducible exact free_shell _ _ | (simp only [upd_shell, handRepeat_shell]; done) | simp only [upd_shell, handRepeat_shell] | split | with_reducible refine ite_shell ?_ ?_ | with_reducible refine (foldl_fst_shell _ _ _ (fun s a => ?_)).trans ?_ | with_reducible refine guarded_shell _ _ _ ?_ | with_reducible refine (foldl_shell _ _ _ (fun s a => ?_)).trans ?_)

theorem applyCues_shell (h : HalfId) (i t : Nat) (s : State) :
    (applyCues h i t s).1.shell = s.shell := by
  unfold applyCues
  repeat' (first | with_reducible rfl | with_reducible exact free_shell _ _ | (simp only [upd_shell, event_shell]; done) | simp only [upd_shell, event_shell] | split | with_reducible refine ite_shell ?_ ?_ | with_reducible refine (foldl_fst_shell _ _ _ (fun s a => ?_)).trans ?_ | with_reducible refine guarded_shell _ _ _ ?_ | with_reducible refine (foldl_shell _ _ _ (fun s a => ?_)).trans ?_)

theorem canvasOverrun_shell (h : HalfId) (i t cause : Nat) (pipes : List Nat) (s : State) :
    (canvasOverrun h i t cause pipes s).shell = s.shell := by
  unfold canvasOverrun
  repeat' (first | with_reducible rfl | with_reducible exact free_shell _ _ | (simp only [upd_shell, event_shell]; done) | simp only [upd_shell, event_shell] | split | with_reducible refine ite_shell ?_ ?_ | with_reducible refine (foldl_fst_shell _ _ _ (fun s a => ?_)).trans ?_ | with_reducible refine guarded_shell _ _ _ ?_ | with_reducible refine (foldl_shell _ _ _ (fun s a => ?_)).trans ?_)

theorem tickJob_shell (h : HalfId) (i k t oldScene : Nat) (cue : Bool) (s : State) :
    (tickJob h i k t oldScene cue s).1.shell = s.shell := by
  unfold tickJob
  repeat' (first | with_reducible rfl | with_reducible exact free_shell _ _ | (simp only [upd_shell, event_shell]; done) | simp only [upd_shell, event_shell] | split | with_reducible refine ite_shell ?_ ?_ | with_reducible refine (foldl_fst_shell _ _ _ (fun s a => ?_)).trans ?_ | with_reducible refine guarded_shell _ _ _ ?_ | with_reducible refine (foldl_shell _ _ _ (fun s a => ?_)).trans ?_)

theorem runTick_shell (h : HalfId) (i k t : Nat) (s : State) :
    (runTick h i k t s).shell = s.shell := by
  unfold runTick
  repeat' (first | with_reducible rfl | with_reducible exact free_shell _ _ | (simp only [upd_shell, surfaceApply_shell, repeatPicture_shell, applyCues_shell, canvasOverrun_shell, tickJob_shell]; done) | simp only [upd_shell, surfaceApply_shell, repeatPicture_shell, applyCues_shell, canvasOverrun_shell, tickJob_shell] | split | with_reducible refine ite_shell ?_ ?_ | with_reducible refine (foldl_fst_shell _ _ _ (fun s a => ?_)).trans ?_ | with_reducible refine guarded_shell _ _ _ ?_ | with_reducible refine (foldl_shell _ _ _ (fun s a => ?_)).trans ?_)

theorem finishJob_shell (h : HalfId) (i : Nat) (j : Job) (s : State) :
    (finishJob h i j s).shell = s.shell := by
  unfold finishJob
  repeat' (first | with_reducible rfl | with_reducible exact free_shell _ _ | (simp only [upd_shell, event_shell, removeIdle_shell, releaseBoth_shell, handPicture_shell, flushRepeats_shell]; done) | simp only [upd_shell, event_shell, removeIdle_shell, releaseBoth_shell, handPicture_shell, flushRepeats_shell] | split | with_reducible refine ite_shell ?_ ?_ | with_reducible refine (foldl_fst_shell _ _ _ (fun s a => ?_)).trans ?_ | with_reducible refine guarded_shell _ _ _ ?_ | with_reducible refine (foldl_shell _ _ _ (fun s a => ?_)).trans ?_)

/-! Encoding.lean -/

theorem surgePicture_shell (h : HalfId) (k deferred : Nat) (s : State) :
    (surgePicture h k deferred s).shell = s.shell := by
  unfold surgePicture
  repeat' (first | with_reducible rfl | with_reducible exact free_shell _ _ | (simp only [upd_shell, event_shell]; done) | simp only [upd_shell, event_shell] | split | with_reducible refine ite_shell ?_ ?_ | with_reducible refine (foldl_fst_shell _ _ _ (fun s a => ?_)).trans ?_ | with_reducible refine guarded_shell _ _ _ ?_ | with_reducible refine (foldl_shell _ _ _ (fun s a => ?_)).trans ?_)

theorem markDefault_shell (h : HalfId) (r : Record) (kind time : Nat) (s : State) :
    (markDefault h r kind time s).shell = s.shell := by
  unfold markDefault
  repeat' (first | with_reducible rfl | with_reducible exact free_shell _ _ | (simp only [upd_shell]; done) | simp only [upd_shell] | split | with_reducible refine ite_shell ?_ ?_ | with_reducible refine (foldl_fst_shell _ _ _ (fun s a => ?_)).trans ?_ | with_reducible refine guarded_shell _ _ _ ?_ | with_reducible refine (foldl_shell _ _ _ (fun s a => ?_)).trans ?_)

theorem takeHeld_shell (h : HalfId) (kind : Nat) (stream : Handle) (a : AssistEntry) (bad : Bool) (p : List Byte) (s : State) :
    (takeHeld h kind stream a bad p s).shell = s.shell := by
  unfold takeHeld
  repeat' (first | with_reducible rfl | with_reducible exact free_shell _ _ | (simp only [upd_shell, assistLate_shell, markDefault_shell]; done) | simp only [upd_shell, assistLate_shell, markDefault_shell] | split | with_reducible refine ite_shell ?_ ?_ | with_reducible refine (foldl_fst_shell _ _ _ (fun s a => ?_)).trans ?_ | with_reducible refine guarded_shell _ _ _ ?_ | with_reducible refine (foldl_shell _ _ _ (fun s a => ?_)).trans ?_)

theorem rateDue_shell (h : HalfId) (i tick : Nat) (s : State) :
    (rateDue h i tick s).1.shell = s.shell := by
  unfold rateDue
  repeat' (first | with_reducible rfl | with_reducible exact free_shell _ _ | (simp only [upd_shell, event_shell]; done) | simp only [upd_shell, event_shell] | split | with_reducible refine ite_shell ?_ ?_ | with_reducible refine (foldl_fst_shell _ _ _ (fun s a => ?_)).trans ?_ | with_reducible refine guarded_shell _ _ _ ?_ | with_reducible refine (foldl_shell _ _ _ (fun s a => ?_)).trans ?_)

theorem startPicture_shell (h : HalfId) (engine i : Nat) (f : EncodeFacts) (s : State) :
    (startPicture h engine i f s).shell = s.shell := by
  unfold startPicture
  split
  · rfl
  split
  · rfl
  extract_lets sx now obj tick s1 s2 s3 q0 s4 x rs r e period behind repeated cause idr due sweep phase cols ctus whole blocks setCtus inCol old
    fixed ws ms gone pl plan fullSet intraCtu host past data hints motionMissing clean searched sp lead weight deltas cs ck skims bi q cap own asked t
    beta fit x1 qk under flat base qp w keptFull flat2 carried carriedCtus ages mean deferredN flags starts columns searches p mark share leads s5 s6 s7 s8 s9 s10 s11
  have h1 : s1.shell = s.shell := ite_shell (upd_shell _ _ _) rfl
  have h2 : s2.shell = s.shell := ite_shell ((event_shell _ _ _ _ _ _).trans h1) h1
  have h3 : s3.shell = s.shell := (upd_shell _ _ _).trans h2
  have h4 : s4.shell = s.shell := (rateDue_shell _ _ _ _).trans h3
  refine ite_shell rfl ?_
  have h5 : s5.shell = s.shell := (upd_shell _ _ _).trans h4
  have h6 : s6.shell = s.shell := ite_shell ((event_shell _ _ _ _ _ _).trans h5) h5
  have h7 : s7.shell = s.shell := (foldl_shell _ _ _ (fun _ _ => event_shell _ _ _ _ _ _)).trans h6
  have h8 : s8.shell = s.shell := ite_shell ((markDefault_shell _ _ _ _ _).trans h7) h7
  have h9 : s9.shell = s.shell := ite_shell ((markDefault_shell _ _ _ _ _).trans h8) h8
  have h10 : s10.shell = s.shell := ite_shell ((assistLate_shell _ _ _ _ _ _ _ _).trans h9) h9
  have h11 : s11.shell = s.shell := ite_shell ((assistLate_shell _ _ _ _ _ _ _ _).trans h10) h10
  exact ite_shell ((surgePicture_shell _ _ _ _).trans h11) h11
theorem rateOffer_shell (h : HalfId) (i : Nat) (p : EncPlan) (s : State) :
    (rateOffer h i p s).shell = s.shell := by
  unfold rateOffer
  repeat' (first | with_reducible rfl | with_reducible exact free_shell _ _ | (simp only [upd_shell, asrRequest_shell]; done) | simp only [upd_shell, asrRequest_shell] | split | with_reducible refine ite_shell ?_ ?_ | with_reducible refine (foldl_fst_shell _ _ _ (fun s a => ?_)).trans ?_ | with_reducible refine guarded_shell _ _ _ ?_ | with_reducible refine (foldl_shell _ _ _ (fun s a => ?_)).trans ?_)

theorem twinRestartFor_shell (h : HalfId) (i base cause : Nat) (s : State) :
    (twinRestartFor h i base cause s).shell = s.shell := by
  unfold twinRestartFor
  repeat' (first | with_reducible rfl | with_reducible exact free_shell _ _ | (simp only [upd_shell, event_shell]; done) | simp only [upd_shell, event_shell] | split | with_reducible refine ite_shell ?_ ?_ | with_reducible refine (foldl_fst_shell _ _ _ (fun s a => ?_)).trans ?_ | with_reducible refine guarded_shell _ _ _ ?_ | with_reducible refine (foldl_shell _ _ _ (fun s a => ?_)).trans ?_)

theorem twinRestartAt_shell (h : HalfId) (i base : Nat) (s : State) :
    (twinRestartAt h i base s).shell = s.shell := by
  unfold twinRestartAt
  repeat' (first | with_reducible rfl | with_reducible exact free_shell _ _ | (simp only [upd_shell, twinRestartFor_shell]; done) | simp only [upd_shell, twinRestartFor_shell] | split | with_reducible refine ite_shell ?_ ?_ | with_reducible refine (foldl_fst_shell _ _ _ (fun s a => ?_)).trans ?_ | with_reducible refine guarded_shell _ _ _ ?_ | with_reducible refine (foldl_shell _ _ _ (fun s a => ?_)).trans ?_)

theorem twinRestart_shell (h : HalfId) (i : Nat) (s : State) :
    (twinRestart h i s).shell = s.shell := by
  unfold twinRestart
  repeat' (first | with_reducible rfl | with_reducible exact free_shell _ _ | (simp only [upd_shell, twinRestartAt_shell]; done) | simp only [upd_shell, twinRestartAt_shell] | split | with_reducible refine ite_shell ?_ ?_ | with_reducible refine (foldl_fst_shell _ _ _ (fun s a => ?_)).trans ?_ | with_reducible refine guarded_shell _ _ _ ?_ | with_reducible refine (foldl_shell _ _ _ (fun s a => ?_)).trans ?_)

theorem twinCompare_shell (h : HalfId) (i : Nat) (k own other : W32) (s : State) :
    (twinCompare h i k own other s).shell = s.shell := by
  unfold twinCompare
  repeat' (first | with_reducible rfl | with_reducible exact free_shell _ _ | (simp only [upd_shell, event_shell, twinRestart_shell]; done) | simp only [upd_shell, event_shell, twinRestart_shell] | split | with_reducible refine ite_shell ?_ ?_ | with_reducible refine (foldl_fst_shell _ _ _ (fun s a => ?_)).trans ?_ | with_reducible refine guarded_shell _ _ _ ?_ | with_reducible refine (foldl_shell _ _ _ (fun s a => ?_)).trans ?_)

theorem gangStalls_shell (h : HalfId) (i : Nat) (p : EncPlan) (s : State) :
    (gangStalls h i p s).shell = s.shell := by
  unfold gangStalls
  repeat' (first | with_reducible rfl | with_reducible exact free_shell _ _ | (simp only [upd_shell, event_shell]; done) | simp only [upd_shell, event_shell] | split | with_reducible refine ite_shell ?_ ?_ | with_reducible refine (foldl_fst_shell _ _ _ (fun s a => ?_)).trans ?_ | with_reducible refine guarded_shell _ _ _ ?_ | with_reducible refine (foldl_shell _ _ _ (fun s a => ?_)).trans ?_)

theorem addDeferred_shell (h : HalfId) (op : Nat) (e : CmdEntry) (due : Nat) (s : State) :
    (addDeferred h op e due s).shell = s.shell := by
  unfold addDeferred
  repeat' (first | with_reducible rfl | with_reducible exact free_shell _ _ | (simp only [upd_shell]; done) | simp only [upd_shell] | split | with_reducible refine ite_shell ?_ ?_ | with_reducible refine (foldl_fst_shell _ _ _ (fun s a => ?_)).trans ?_ | with_reducible refine guarded_shell _ _ _ ?_ | with_reducible refine (foldl_shell _ _ _ (fun s a => ?_)).trans ?_)

theorem streamFeedback_shell (h : HalfId) (i : Nat) (s : State) :
    (streamFeedback h i s).shell = s.shell := by
  unfold streamFeedback
  repeat' (first | with_reducible rfl | with_reducible exact free_shell _ _ | (simp only [upd_shell, emit_shell]; done) | simp only [upd_shell, emit_shell] | split | with_reducible refine ite_shell ?_ ?_ | with_reducible refine (foldl_fst_shell _ _ _ (fun s a => ?_)).trans ?_ | with_reducible refine guarded_shell _ _ _ ?_ | with_reducible refine (foldl_shell _ _ _ (fun s a => ?_)).trans ?_)

/-! Flows.lean -/

theorem undercoatEvent_shell (h : HalfId) (flow : Handle) (way cause : Nat) (seq : W16) (n : Nat) (s : State) :
    (undercoatEvent h flow way cause seq n s).shell = s.shell := by
  unfold undercoatEvent
  repeat' (first | with_reducible rfl | with_reducible exact free_shell _ _ | (simp only [upd_shell, event_shell]; done) | simp only [upd_shell, event_shell] | split | with_reducible refine ite_shell ?_ ?_ | with_reducible refine (foldl_fst_shell _ _ _ (fun s a => ?_)).trans ?_ | with_reducible refine guarded_shell _ _ _ ?_ | with_reducible refine (foldl_shell _ _ _ (fun s a => ?_)).trans ?_)

theorem finishOpen_shell (h : HalfId) (flow : Handle) (s : State) :
    (finishOpen h flow s).shell = s.shell := by
  unfold finishOpen
  repeat' (first | with_reducible rfl | with_reducible exact free_shell _ _ | (simp only [upd_shell, free_shell, emit_shell]; done) | simp only [upd_shell, free_shell, emit_shell] | split | with_reducible refine ite_shell ?_ ?_ | with_reducible refine (foldl_fst_shell _ _ _ (fun s a => ?_)).trans ?_ | with_reducible refine guarded_shell _ _ _ ?_ | with_reducible refine (foldl_shell _ _ _ (fun s a => ?_)).trans ?_)

theorem enterUndercoat_shell (h : HalfId) (flow : Handle) (cause : Nat) (s : State) :
    (enterUndercoat h flow cause s).shell = s.shell := by
  unfold enterUndercoat
  repeat' (first | with_reducible rfl | with_reducible exact free_shell _ _ | (simp only [upd_shell, undercoatEvent_shell, finishOpen_shell]; done) | simp only [upd_shell, undercoatEvent_shell, finishOpen_shell] | split | with_reducible refine ite_shell ?_ ?_ | with_reducible refine (foldl_fst_shell _ _ _ (fun s a => ?_)).trans ?_ | with_reducible refine guarded_shell _ _ _ ?_ | with_reducible refine (foldl_shell _ _ _ (fun s a => ?_)).trans ?_)

theorem leaveUndercoat_shell (h : HalfId) (flow : Handle) (s : State) :
    (leaveUndercoat h flow s).shell = s.shell := by
  unfold leaveUndercoat
  repeat' (first | with_reducible rfl | with_reducible exact free_shell _ _ | (simp only [upd_shell, undercoatEvent_shell]; done) | simp only [upd_shell, undercoatEvent_shell] | split | with_reducible refine ite_shell ?_ ?_ | with_reducible refine (foldl_fst_shell _ _ _ (fun s a => ?_)).trans ?_ | with_reducible refine guarded_shell _ _ _ ?_ | with_reducible refine (foldl_shell _ _ _ (fun s a => ?_)).trans ?_)

theorem strand_shell (h : HalfId) (flow : Handle) (cause : Nat) (s : State) :
    (strand h flow cause s).shell = s.shell := by
  unfold strand
  repeat' (first | with_reducible rfl | with_reducible exact free_shell _ _ | (simp only [upd_shell, event_shell]; done) | simp only [upd_shell, event_shell] | split | with_reducible refine ite_shell ?_ ?_ | with_reducible refine (foldl_fst_shell _ _ _ (fun s a => ?_)).trans ?_ | with_reducible refine guarded_shell _ _ _ ?_ | with_reducible refine (foldl_shell _ _ _ (fun s a => ?_)).trans ?_)

theorem movedEvent_shell (h : HalfId) (flow src dst : Handle) (cause : Nat) (seq : W16) (s : State) :
    (movedEvent h flow src dst cause seq s).shell = s.shell := by
  unfold movedEvent
  repeat' (first | with_reducible rfl | with_reducible exact free_shell _ _ | (simp only [upd_shell, event_shell]; done) | simp only [upd_shell, event_shell] | split | with_reducible refine ite_shell ?_ ?_ | with_reducible refine (foldl_fst_shell _ _ _ (fun s a => ?_)).trans ?_ | with_reducible refine guarded_shell _ _ _ ?_ | with_reducible refine (foldl_shell _ _ _ (fun s a => ?_)).trans ?_)

theorem flowTo_shell (h : HalfId) (flow dst : Handle) (cause : Nat) (s : State) :
    (flowTo h flow dst cause s).shell = s.shell := by
  unfold flowTo
  repeat' (first | with_reducible rfl | with_reducible exact free_shell _ _ | (simp only [upd_shell, movedEvent_shell]; done) | simp only [upd_shell, movedEvent_shell] | split | with_reducible refine ite_shell ?_ ?_ | with_reducible refine (foldl_fst_shell _ _ _ (fun s a => ?_)).trans ?_ | with_reducible refine guarded_shell _ _ _ ?_ | with_reducible refine (foldl_shell _ _ _ (fun s a => ?_)).trans ?_)

theorem activate_shell (h : HalfId) (flow : Handle) (s : State) :
    (activate h flow s).shell = s.shell := by
  unfold activate
  repeat' (first | with_reducible rfl | with_reducible exact free_shell _ _ | (simp only [upd_shell, event_shell]; done) | simp only [upd_shell, event_shell] | split | with_reducible refine ite_shell ?_ ?_ | with_reducible refine (foldl_fst_shell _ _ _ (fun s a => ?_)).trans ?_ | with_reducible refine guarded_shell _ _ _ ?_ | with_reducible refine (foldl_shell _ _ _ (fun s a => ?_)).trans ?_)

theorem twinSwitch_shell (h : HalfId) (flow : Handle) (s : State) :
    (twinSwitch h flow s).shell = s.shell := by
  unfold twinSwitch
  repeat' (first | with_reducible rfl | with_reducible exact free_shell _ _ | (simp only [upd_shell, event_shell]; done) | simp only [upd_shell, event_shell] | split | with_reducible refine ite_shell ?_ ?_ | with_reducible refine (foldl_fst_shell _ _ _ (fun s a => ?_)).trans ?_ | with_reducible refine guarded_shell _ _ _ ?_ | with_reducible refine (foldl_shell _ _ _ (fun s a => ?_)).trans ?_)

theorem moveFlow_shell (h : HalfId) (flow : Handle) (cause : Nat) (s : State) :
    (moveFlow h flow cause s).shell = s.shell := by
  unfold moveFlow
  repeat' (first | with_reducible rfl | with_reducible exact free_shell _ _ | (simp only [upd_shell, strand_shell, flowTo_shell, activate_shell]; done) | simp only [upd_shell, strand_shell, flowTo_shell, activate_shell] | split | with_reducible refine ite_shell ?_ ?_ | with_reducible refine (foldl_fst_shell _ _ _ (fun s a => ?_)).trans ?_ | with_reducible refine guarded_shell _ _ _ ?_ | with_reducible refine (foldl_shell _ _ _ (fun s a => ?_)).trans ?_)

theorem portLost_shell (h : HalfId) (n : Nat) (s : State) :
    (portLost h n s).shell = s.shell := by
  unfold portLost
  repeat' (first | with_reducible rfl | with_reducible exact free_shell _ _ | (simp only [upd_shell, moveFlow_shell]; done) | simp only [upd_shell, moveFlow_shell] | split | with_reducible refine ite_shell ?_ ?_ | with_reducible refine (foldl_fst_shell _ _ _ (fun s a => ?_)).trans ?_ | with_reducible refine guarded_shell _ _ _ ?_ | with_reducible refine (foldl_shell _ _ _ (fun s a => ?_)).trans ?_)

theorem pairRenumber_shell (h : HalfId) (flow : Handle) (sent : W16) (s : State) :
    (pairRenumber h flow sent s).shell = s.shell := by
  unfold pairRenumber
  repeat' (first | with_reducible rfl | with_reducible exact free_shell _ _ | (simp only [upd_shell]; done) | simp only [upd_shell] | split | with_reducible refine ite_shell ?_ ?_ | with_reducible refine (foldl_fst_shell _ _ _ (fun s a => ?_)).trans ?_ | with_reducible refine guarded_shell _ _ _ ?_ | with_reducible refine (foldl_shell _ _ _ (fun s a => ?_)).trans ?_)

theorem flowResumes_shell (h : HalfId) (flow p : Handle) (s : State) :
    (flowResumes h flow p s).shell = s.shell := by
  unfold flowResumes
  repeat' (first | with_reducible rfl | with_reducible exact free_shell _ _ | (simp only [upd_shell, flowTo_shell, pairRenumber_shell]; done) | simp only [upd_shell, flowTo_shell, pairRenumber_shell] | split | with_reducible refine ite_shell ?_ ?_ | with_reducible refine (foldl_fst_shell _ _ _ (fun s a => ?_)).trans ?_ | with_reducible refine guarded_shell _ _ _ ?_ | with_reducible refine (foldl_shell _ _ _ (fun s a => ?_)).trans ?_)

theorem standbyResumes_shell (h : HalfId) (flow : Handle) (s : State) :
    (standbyResumes h flow s).shell = s.shell := by
  unfold standbyResumes
  repeat' (first | with_reducible rfl | with_reducible exact free_shell _ _ | (simp only [upd_shell, activate_shell, pairRenumber_shell]; done) | simp only [upd_shell, activate_shell, pairRenumber_shell] | split | with_reducible refine ite_shell ?_ ?_ | with_reducible refine (foldl_fst_shell _ _ _ (fun s a => ?_)).trans ?_ | with_reducible refine guarded_shell _ _ _ ?_ | with_reducible refine (foldl_shell _ _ _ (fun s a => ?_)).trans ?_)

theorem portBack_shell (h : HalfId) (n : Nat) (s : State) :
    (portBack h n s).shell = s.shell := by
  unfold portBack
  repeat' (first | with_reducible rfl | with_reducible exact free_shell _ _ | (simp only [upd_shell, flowResumes_shell, standbyResumes_shell]; done) | simp only [upd_shell, flowResumes_shell, standbyResumes_shell] | split | with_reducible refine ite_shell ?_ ?_ | with_reducible refine (foldl_fst_shell _ _ _ (fun s a => ?_)).trans ?_ | with_reducible refine guarded_shell _ _ _ ?_ | with_reducible refine (foldl_shell _ _ _ (fun s a => ?_)).trans ?_)

theorem sourceLost_shell (h : HalfId) (stream : Handle) (cause : Nat) (s : State) :
    (sourceLost h stream cause s).shell = s.shell := by
  unfold sourceLost
  repeat' (first | with_reducible rfl | with_reducible exact free_shell _ _ | (simp only [upd_shell, enterUndercoat_shell, twinSwitch_shell]; done) | simp only [upd_shell, enterUndercoat_shell, twinSwitch_shell] | split | with_reducible refine ite_shell ?_ ?_ | with_reducible refine (foldl_fst_shell _ _ _ (fun s a => ?_)).trans ?_ | with_reducible refine guarded_shell _ _ _ ?_ | with_reducible refine (foldl_shell _ _ _ (fun s a => ?_)).trans ?_)

/-! Pacing.lean -/

theorem switchFlow_shell (h : HalfId) (p : PendingEnv) (flow : Handle) (s : State) :
    (switchFlow h p flow s).shell = s.shell := by
  unfold switchFlow
  repeat' (first | with_reducible rfl | with_reducible exact free_shell _ _ | (simp only [upd_shell, free_shell, takeoverCheck_shell, moveFlow_shell]; done) | simp only [upd_shell, free_shell, takeoverCheck_shell, moveFlow_shell] | split | with_reducible refine ite_shell ?_ ?_ | with_reducible refine (foldl_fst_shell _ _ _ (fun s a => ?_)).trans ?_ | with_reducible refine guarded_shell _ _ _ ?_ | with_reducible refine (foldl_shell _ _ _ (fun s a => ?_)).trans ?_)

theorem dropUnit_shell (h : HalfId) (flow : Handle) (n : Nat) (unresolved : Bool) (s : State) :
    (dropUnit h flow n unresolved s).shell = s.shell := by
  unfold dropUnit
  repeat' (first | with_reducible rfl | with_reducible exact free_shell _ _ | (simp only [upd_shell]; done) | simp only [upd_shell] | split | with_reducible refine ite_shell ?_ ?_ | with_reducible refine (foldl_fst_shell _ _ _ (fun s a => ?_)).trans ?_ | with_reducible refine guarded_shell _ _ _ ?_ | with_reducible refine (foldl_shell _ _ _ (fun s a => ?_)).trans ?_)

theorem unresolvedEvent_shell (h : HalfId) (flow : Handle) (n : Nat) (r : Record) (s : State) :
    (unresolvedEvent h flow n r s).shell = s.shell := by
  unfold unresolvedEvent
  repeat' (first | with_reducible rfl | with_reducible exact free_shell _ _ | (simp only [upd_shell, event_shell]; done) | simp only [upd_shell, event_shell] | split | with_reducible refine ite_shell ?_ ?_ | with_reducible refine (foldl_fst_shell _ _ _ (fun s a => ?_)).trans ?_ | with_reducible refine guarded_shell _ _ _ ?_ | with_reducible refine (foldl_shell _ _ _ (fun s a => ?_)).trans ?_)

theorem scheduleCheck_shell (h : HalfId) (flow : Handle) (picture tick : Nat) (s : State) :
    (scheduleCheck h flow picture tick s).shell = s.shell := by
  unfold scheduleCheck
  repeat' (first | with_reducible rfl | with_reducible exact free_shell _ _ | (simp only [upd_shell, assistLate_shell]; done) | simp only [upd_shell, assistLate_shell] | split | with_reducible refine ite_shell ?_ ?_ | with_reducible refine (foldl_fst_shell _ _ _ (fun s a => ?_)).trans ?_ | with_reducible refine guarded_shell _ _ _ ?_ | with_reducible refine (foldl_shell _ _ _ (fun s a => ?_)).trans ?_)

theorem flowUnit_shell (h : HalfId) (flow : Handle) (k : Nat) (p : EncPlan) (u : CodedUnit) (s : State) :
    (flowUnit h flow k p u s).shell = s.shell := by
  unfold flowUnit
  split
  · rfl
  extract_lets +onlyGivenNames first
  refine ite_shell rfl ?_
  extract_lets s1 s2 s3 x
  have h1 : s1.shell = s.shell := ite_shell (leaveUndercoat_shell _ _ _) rfl
  have h2 : s2.shell = s.shell := by
    show State.shell (match (if first then pendTouches (s1.half h) flow else none) with
      | some q => if q.armed && q.takeTime ≤ p.tickTime then switchFlow h q flow s1 else s1
      | none => s1) = s.shell
    split
    · exact ite_shell ((switchFlow_shell _ _ _ _).trans h1) h1
    · exact h1
  have h3 : s3.shell = s.shell := ite_shell ((upd_shell _ _ _).trans h2) h2
  split
  · exact h3
  extract_lets +onlyGivenNames r port sizes
  split
  · exact h3
  split
  · exact (dropUnit_shell _ _ _ _ _).trans ((upd_shell _ _ _).trans h3)
  split
  · rw [unresolvedEvent_shell, dropUnit_shell]
    exact h3
  · extract_lets pk a s4 s5 s6 copy
    have h4 : s4.shell = s.shell := (upd_shell _ _ _).trans h3
    have h5 : s5.shell = s.shell := ite_shell ((scheduleCheck_shell _ _ _ _ _).trans h4) h4
    have h6 : s6.shell = s.shell := ite_shell ((emit_shell _ _ _).trans h5) h5
    exact ite_shell ((foldl_shell _ _ _ (fun _ _ => emit_shell _ _ _)).trans h6) h6
theorem handUnit_shell (h : HalfId) (e : EncodeSt) (p : EncPlan) (engine : Nat) (s : State) (u : CodedUnit) :
    (handUnit h e p engine s u).shell = s.shell := by
  unfold handUnit
  repeat' (first | with_reducible rfl | with_reducible exact free_shell _ _ | (simp only [upd_shell, flowUnit_shell]; done) | simp only [upd_shell, flowUnit_shell] | split | with_reducible refine ite_shell ?_ ?_ | with_reducible refine (foldl_fst_shell _ _ _ (fun s a => ?_)).trans ?_ | with_reducible refine guarded_shell _ _ _ ?_ | with_reducible refine (foldl_shell _ _ _ (fun s a => ?_)).trans ?_)

theorem markLatency_shell (h : HalfId) (c : Candidate) (s : State) :
    (markLatency h c s).shell = s.shell := by
  unfold markLatency
  repeat' (first | with_reducible rfl | with_reducible exact free_shell _ _ | (simp only [upd_shell, event_shell]; done) | simp only [upd_shell, event_shell] | split | with_reducible refine ite_shell ?_ ?_ | with_reducible refine (foldl_fst_shell _ _ _ (fun s a => ?_)).trans ?_ | with_reducible refine guarded_shell _ _ _ ?_ | with_reducible refine (foldl_shell _ _ _ (fun s a => ?_)).trans ?_)

theorem moveNow_shell (h : HalfId) (flow : Handle) (s : State) :
    (moveNow h flow s).shell = s.shell := by
  unfold moveNow
  repeat' (first | with_reducible rfl | with_reducible exact free_shell _ _ | (simp only [upd_shell, flowTo_shell]; done) | simp only [upd_shell, flowTo_shell] | split | with_reducible refine ite_shell ?_ ?_ | with_reducible refine (foldl_fst_shell _ _ _ (fun s a => ?_)).trans ?_ | with_reducible refine guarded_shell _ _ _ ?_ | with_reducible refine (foldl_shell _ _ _ (fun s a => ?_)).trans ?_)

theorem pictureSent_shell (h : HalfId) (flow : Handle) (s : State) :
    (pictureSent h flow s).shell = s.shell := by
  unfold pictureSent
  repeat' (first | with_reducible rfl | with_reducible exact free_shell _ _ | (simp only [upd_shell, emit_shell, twinSwitch_shell, moveNow_shell]; done) | simp only [upd_shell, emit_shell, twinSwitch_shell, moveNow_shell] | split | with_reducible refine ite_shell ?_ ?_ | with_reducible refine (foldl_fst_shell _ _ _ (fun s a => ?_)).trans ?_ | with_reducible refine guarded_shell _ _ _ ?_ | with_reducible refine (foldl_shell _ _ _ (fun s a => ?_)).trans ?_)

theorem startPacket_shell (h : HalfId) (n : Nat) (c : Candidate) (s : State) :
    (startPacket h n c s).shell = s.shell := by
  unfold startPacket
  repeat' (first | with_reducible rfl | with_reducible exact free_shell _ _ | (simp only [upd_shell, emit_shell, removeIdle_shell, markLatency_shell, pictureSent_shell]; done) | simp only [upd_shell, emit_shell, removeIdle_shell, markLatency_shell, pictureSent_shell] | split | with_reducible refine ite_shell ?_ ?_ | with_reducible refine (foldl_fst_shell _ _ _ (fun s a => ?_)).trans ?_ | with_reducible refine guarded_shell _ _ _ ?_ | with_reducible refine (foldl_shell _ _ _ (fun s a => ?_)).trans ?_)

theorem shaperApply_shell (h : HalfId) (sh : Handle) (rate burst limit : Nat) (s : State) :
    (shaperApply h sh rate burst limit s).shell = s.shell := by
  unfold shaperApply
  repeat' (first | with_reducible rfl | with_reducible exact free_shell _ _ | (simp only [upd_shell, event_shell]; done) | simp only [upd_shell, event_shell] | split | with_reducible refine ite_shell ?_ ?_ | with_reducible refine (foldl_fst_shell _ _ _ (fun s a => ?_)).trans ?_ | with_reducible refine guarded_shell _ _ _ ?_ | with_reducible refine (foldl_shell _ _ _ (fun s a => ?_)).trans ?_)

theorem shaperSetDo_shell (h : HalfId) (e : CmdEntry) (s : State) :
    (shaperSetDo h e s).shell = s.shell := by
  unfold shaperSetDo
  repeat' (first | with_reducible rfl | with_reducible exact free_shell _ _ | (simp only [upd_shell, shaperApply_shell]; done) | simp only [upd_shell, shaperApply_shell] | split | with_reducible refine ite_shell ?_ ?_ | with_reducible refine (foldl_fst_shell _ _ _ (fun s a => ?_)).trans ?_ | with_reducible refine guarded_shell _ _ _ ?_ | with_reducible refine (foldl_shell _ _ _ (fun s a => ?_)).trans ?_)

/-! Ports.lean -/

theorem resolveAll_shell (h : HalfId) (n : Nat) (s : State) :
    (resolveAll h n s).shell = s.shell := by
  unfold resolveAll
  repeat' (first | with_reducible rfl | with_reducible exact free_shell _ _ | (simp only [upd_shell, emit_shell]; done) | simp only [upd_shell, emit_shell] | split | with_reducible refine ite_shell ?_ ?_ | with_reducible refine (foldl_fst_shell _ _ _ (fun s a => ?_)).trans ?_ | with_reducible refine guarded_shell _ _ _ ?_ | with_reducible refine (foldl_shell _ _ _ (fun s a => ?_)).trans ?_)

theorem reportGroups_shell (h : HalfId) (n : Nat) (leave old : Bool) (groups : List (Nat × Nat)) (s : State) :
    (reportGroups h n leave old groups s).shell = s.shell := by
  unfold reportGroups
  repeat' (first | with_reducible rfl | with_reducible exact free_shell _ _ | (simp only [upd_shell, emit_shell]; done) | simp only [upd_shell, emit_shell] | split | with_reducible refine ite_shell ?_ ?_ | with_reducible refine (foldl_fst_shell _ _ _ (fun s a => ?_)).trans ?_ | with_reducible refine guarded_shell _ _ _ ?_ | with_reducible refine (foldl_shell _ _ _ (fun s a => ?_)).trans ?_)

theorem unsolicited_shell (h : HalfId) (n : Nat) (leave : Bool) (groups : List (Nat × Nat)) (s : State) :
    (unsolicited h n leave groups s).shell = s.shell := by
  unfold unsolicited
  repeat' (first | with_reducible rfl | with_reducible exact free_shell _ _ | (simp only [upd_shell, reportGroups_shell]; done) | simp only [upd_shell, reportGroups_shell] | split | with_reducible refine ite_shell ?_ ?_ | with_reducible refine (foldl_fst_shell _ _ _ (fun s a => ?_)).trans ?_ | with_reducible refine guarded_shell _ _ _ ?_ | with_reducible refine (foldl_shell _ _ _ (fun s a => ?_)).trans ?_)

theorem protocolsStart_shell (h : HalfId) (n : Nat) (s : State) :
    (protocolsStart h n s).shell = s.shell := by
  unfold protocolsStart
  repeat' (first | with_reducible rfl | with_reducible exact free_shell _ _ | (simp only [upd_shell, emit_shell, resolveAll_shell, unsolicited_shell]; done) | simp only [upd_shell, emit_shell, resolveAll_shell, unsolicited_shell] | split | with_reducible refine ite_shell ?_ ?_ | with_reducible refine (foldl_fst_shell _ _ _ (fun s a => ?_)).trans ?_ | with_reducible refine guarded_shell _ _ _ ?_ | with_reducible refine (foldl_shell _ _ _ (fun s a => ?_)).trans ?_)

theorem leaveUp_shell (h : HalfId) (n cause : Nat) (s : State) :
    (leaveUp h n cause s).shell = s.shell := by
  unfold leaveUp
  repeat' (first | with_reducible rfl | with_reducible exact free_shell _ _ | (simp only [upd_shell, event_shell, portLost_shell]; done) | simp only [upd_shell, event_shell, portLost_shell] | split | with_reducible refine ite_shell ?_ ?_ | with_reducible refine (foldl_fst_shell _ _ _ (fun s a => ?_)).trans ?_ | with_reducible refine guarded_shell _ _ _ ?_ | with_reducible refine (foldl_shell _ _ _ (fun s a => ?_)).trans ?_)

/-! Ptp.lean -/

theorem ptpTo_shell (h : HalfId) (st : PtpState) (s : State) :
    (ptpTo h st s).shell = s.shell := by
  unfold ptpTo
  repeat' (first | with_reducible rfl | with_reducible exact free_shell _ _ | (simp only [upd_shell, event_shell]; done) | simp only [upd_shell, event_shell] | split | with_reducible refine ite_shell ?_ ?_ | with_reducible refine (foldl_fst_shell _ _ _ (fun s a => ?_)).trans ?_ | with_reducible refine guarded_shell _ _ _ ?_ | with_reducible refine (foldl_shell _ _ _ (fun s a => ?_)).trans ?_)

theorem setPortStates_shell (h : HalfId) (slave : Option Handle) (master : Bool) (s : State) :
    (setPortStates h slave master s).shell = s.shell := by
  unfold setPortStates
  repeat' (first | with_reducible rfl | with_reducible exact free_shell _ _ | (simp only [upd_shell]; done) | simp only [upd_shell] | split | with_reducible refine ite_shell ?_ ?_ | with_reducible refine (foldl_fst_shell _ _ _ (fun s a => ?_)).trans ?_ | with_reducible refine guarded_shell _ _ _ ?_ | with_reducible refine (foldl_shell _ _ _ (fun s a => ?_)).trans ?_)

theorem becomeSlave_shell (h : HalfId) (p : Handle) (a : Announce) (s : State) :
    (becomeSlave h p a s).shell = s.shell := by
  unfold becomeSlave
  repeat' (first | with_reducible rfl | with_reducible exact free_shell _ _ | (simp only [upd_shell, ptpTo_shell, setPortStates_shell]; done) | simp only [upd_shell, ptpTo_shell, setPortStates_shell] | split | with_reducible refine ite_shell ?_ ?_ | with_reducible refine (foldl_fst_shell _ _ _ (fun s a => ?_)).trans ?_ | with_reducible refine guarded_shell _ _ _ ?_ | with_reducible refine (foldl_shell _ _ _ (fun s a => ?_)).trans ?_)

theorem bmca_shell (h : HalfId) (s : State) :
    (bmca h s).shell = s.shell := by
  unfold bmca
  repeat' (first | with_reducible rfl | with_reducible exact free_shell _ _ | (simp only [upd_shell, ptpTo_shell, setPortStates_shell, becomeSlave_shell]; done) | simp only [upd_shell, ptpTo_shell, setPortStates_shell, becomeSlave_shell] | split | with_reducible refine ite_shell ?_ ?_ | with_reducible refine (foldl_fst_shell _ _ _ (fun s a => ?_)).trans ?_ | with_reducible refine guarded_shell _ _ _ ?_ | with_reducible refine (foldl_shell _ _ _ (fun s a => ?_)).trans ?_)

theorem slaveLost_shell (h : HalfId) (s : State) :
    (slaveLost h s).shell = s.shell := by
  unfold slaveLost
  repeat' (first | with_reducible rfl | with_reducible exact free_shell _ _ | (simp only [upd_shell, ptpTo_shell]; done) | simp only [upd_shell, ptpTo_shell] | split | with_reducible refine ite_shell ?_ ?_ | with_reducible refine (foldl_fst_shell _ _ _ (fun s a => ?_)).trans ?_ | with_reducible refine guarded_shell _ _ _ ?_ | with_reducible refine (foldl_shell _ _ _ (fun s a => ?_)).trans ?_)

theorem ptpLost_shell (h : HalfId) (n : Nat) (s : State) :
    (ptpLost h n s).shell = s.shell := by
  unfold ptpLost
  repeat' (first | with_reducible rfl | with_reducible exact free_shell _ _ | (simp only [upd_shell, slaveLost_shell]; done) | simp only [upd_shell, slaveLost_shell] | split | with_reducible refine ite_shell ?_ ?_ | with_reducible refine (foldl_fst_shell _ _ _ (fun s a => ?_)).trans ?_ | with_reducible refine guarded_shell _ _ _ ?_ | with_reducible refine (foldl_shell _ _ _ (fun s a => ?_)).trans ?_)

theorem restartPort_shell (h : HalfId) (n cause : Nat) (s : State) :
    (restartPort h n cause s).shell = s.shell := by
  unfold restartPort
  repeat' (first | with_reducible rfl | with_reducible exact free_shell _ _ | (simp only [upd_shell, leaveUp_shell, ptpLost_shell]; done) | simp only [upd_shell, leaveUp_shell, ptpLost_shell] | split | with_reducible refine ite_shell ?_ ?_ | with_reducible refine (foldl_fst_shell _ _ _ (fun s a => ?_)).trans ?_ | with_reducible refine guarded_shell _ _ _ ?_ | with_reducible refine (foldl_shell _ _ _ (fun s a => ?_)).trans ?_)

theorem setFrequency_shell (h : HalfId) (v : Int) (s : State) :
    (setFrequency h v s).shell = s.shell := by
  unfold setFrequency
  repeat' (first | with_reducible rfl | with_reducible exact free_shell _ _ | (simp only [upd_shell]; done) | simp only [upd_shell] | split | with_reducible refine ite_shell ?_ ?_ | with_reducible refine (foldl_fst_shell _ _ _ (fun s a => ?_)).trans ?_ | with_reducible refine guarded_shell _ _ _ ?_ | with_reducible refine (foldl_shell _ _ _ (fun s a => ?_)).trans ?_)

theorem stepClock_shell (h : HalfId) (d : Int) (s : State) :
    (stepClock h d s).shell = s.shell := by
  unfold stepClock
  repeat' (first | with_reducible rfl | with_reducible exact free_shell _ _ | (simp only [upd_shell, event_shell]; done) | simp only [upd_shell, event_shell] | split | with_reducible refine ite_shell ?_ ?_ | with_reducible refine (foldl_fst_shell _ _ _ (fun s a => ?_)).trans ?_ | with_reducible refine guarded_shell _ _ _ ?_ | with_reducible refine (foldl_shell _ _ _ (fun s a => ?_)).trans ?_)

theorem correctPhase_shell (h : HalfId) (d : Int) (s : State) :
    (correctPhase h d s).shell = s.shell := by
  unfold correctPhase
  repeat' (first | with_reducible rfl | with_reducible exact free_shell _ _ | (simp only [upd_shell, stepClock_shell]; done) | simp only [upd_shell, stepClock_shell] | split | with_reducible refine ite_shell ?_ ?_ | with_reducible refine (foldl_fst_shell _ _ _ (fun s a => ?_)).trans ?_ | with_reducible refine guarded_shell _ _ _ ?_ | with_reducible refine (foldl_shell _ _ _ (fun s a => ?_)).trans ?_)

theorem syncDone_shell (h : HalfId) (s : State) :
    (syncDone h s).shell = s.shell := by
  unfold syncDone
  repeat' (first | with_reducible rfl | with_reducible exact free_shell _ _ | (simp only [upd_shell, ptpTo_shell, stepClock_shell]; done) | simp only [upd_shell, ptpTo_shell, stepClock_shell] | split | with_reducible refine ite_shell ?_ ?_ | with_reducible refine (foldl_fst_shell _ _ _ (fun s a => ?_)).trans ?_ | with_reducible refine guarded_shell _ _ _ ?_ | with_reducible refine (foldl_shell _ _ _ (fun s a => ?_)).trans ?_)

theorem servoDeadline_shell (h : HalfId) (s : State) :
    (servoDeadline h s).shell = s.shell := by
  unfold servoDeadline
  repeat' (first | with_reducible rfl | with_reducible exact free_shell _ _ | (simp only [upd_shell, assistLate_shell]; done) | simp only [upd_shell, assistLate_shell] | split | with_reducible refine ite_shell ?_ ?_ | with_reducible refine (foldl_fst_shell _ _ _ (fun s a => ?_)).trans ?_ | with_reducible refine guarded_shell _ _ _ ?_ | with_reducible refine (foldl_shell _ _ _ (fun s a => ?_)).trans ?_)

/-! Envelope.lean -/

theorem commitBad_shell (rs : List Record) (status reason : Nat) (obj : Option Handle) (detail : List Byte) (s : State) :
    (commitBad rs status reason obj detail s).state.shell = s.shell := by
  unfold commitBad
  split <;> rfl
theorem pendSet_shell (h : HalfId) (p : PendingEnv) (s : State) :
    (pendSet h p s).shell = s.shell := by
  unfold pendSet
  repeat' (first | with_reducible rfl | with_reducible exact free_shell _ _ | (simp only [upd_shell]; done) | simp only [upd_shell] | split | with_reducible refine ite_shell ?_ ?_ | with_reducible refine (foldl_fst_shell _ _ _ (fun s a => ?_)).trans ?_ | with_reducible refine guarded_shell _ _ _ ?_ | with_reducible refine (foldl_shell _ _ _ (fun s a => ?_)).trans ?_)

theorem commitFit_shell (h : HalfId) (e : CmdEntry) (rs : List Record) (s : State) :
    (commitFit h e rs s).state.shell = s.shell := by
  unfold commitFit
  repeat' (first | with_reducible rfl | with_reducible exact free_shell _ _ | (simp only [Reply.ok_shell, Reply.later_shell, Reply.fail_shell, Reply.wait_shell, upd_shell, commitBad_shell, pendSet_shell]; done) | simp only [Reply.ok_shell, Reply.later_shell, Reply.fail_shell, Reply.wait_shell, upd_shell, commitBad_shell, pendSet_shell] | split | with_reducible refine ite_shell ?_ ?_ | with_reducible refine (foldl_fst_shell _ _ _ (fun s a => ?_)).trans ?_ | with_reducible refine guarded_shell _ _ _ ?_ | with_reducible refine (foldl_shell _ _ _ (fun s a => ?_)).trans ?_)

theorem groupEvent_shell (h : HalfId) (group : W32) (status reason : Nat) (failed : HalfId) (obj : Handle) (time : Nat) (detail : List Byte) (s : State) :
    (groupEvent h group status reason failed obj time detail s).shell = s.shell := by
  unfold groupEvent
  repeat' (first | with_reducible rfl | with_reducible exact free_shell _ _ | (simp only [upd_shell, event_shell]; done) | simp only [upd_shell, event_shell] | split | with_reducible refine ite_shell ?_ ?_ | with_reducible refine (foldl_fst_shell _ _ _ (fun s a => ?_)).trans ?_ | with_reducible refine guarded_shell _ _ _ ?_ | with_reducible refine (foldl_shell _ _ _ (fun s a => ?_)).trans ?_)

theorem groupDrop_shell (group : W32) (s : State) :
    (groupDrop group s).shell = s.shell := by
  unfold groupDrop
  repeat' (first | with_reducible rfl | with_reducible exact free_shell _ _ | (simp only [upd_shell]; done) | simp only [upd_shell] | split | with_reducible refine ite_shell ?_ ?_ | with_reducible refine (foldl_fst_shell _ _ _ (fun s a => ?_)).trans ?_ | with_reducible refine guarded_shell _ _ _ ?_ | with_reducible refine (foldl_shell _ _ _ (fun s a => ?_)).trans ?_)

theorem groupResolve_shell (h : HalfId) (a b : GroupWait) (s : State) :
    (groupResolve h a b s).shell = s.shell := by
  unfold groupResolve
  repeat' (first | with_reducible rfl | with_reducible exact free_shell _ _ | (simp only [upd_shell, pendSet_shell, groupEvent_shell, groupDrop_shell]; done) | simp only [upd_shell, pendSet_shell, groupEvent_shell, groupDrop_shell] | split | with_reducible refine ite_shell ?_ ?_ | with_reducible refine (foldl_fst_shell _ _ _ (fun s a => ?_)).trans ?_ | with_reducible refine guarded_shell _ _ _ ?_ | with_reducible refine (foldl_shell _ _ _ (fun s a => ?_)).trans ?_)

theorem withdraw_shell (w : HalfId) (s : State) :
    (withdraw w s).shell = s.shell := by
  unfold withdraw
  repeat' (first | with_reducible rfl | with_reducible exact free_shell _ _ | (simp only [upd_shell, deferredDone_shell]; done) | simp only [upd_shell, deferredDone_shell] | split | with_reducible refine ite_shell ?_ ?_ | with_reducible refine (foldl_fst_shell _ _ _ (fun s a => ?_)).trans ?_ | with_reducible refine guarded_shell _ _ _ ?_ | with_reducible refine (foldl_shell _ _ _ (fun s a => ?_)).trans ?_)

/-! Takeover.lean -/

theorem crcCancel_shell (h : HalfId) (obj : Handle) (s : State) :
    (crcCancel h obj s).shell = s.shell := by
  unfold crcCancel
  repeat' (first | with_reducible rfl | with_reducible exact free_shell _ _ | (simp only [upd_shell, deferredDone_shell, groupEvent_shell]; done) | simp only [upd_shell, deferredDone_shell, groupEvent_shell] | split | with_reducible refine ite_shell ?_ ?_ | with_reducible refine (foldl_fst_shell _ _ _ (fun s a => ?_)).trans ?_ | with_reducible refine guarded_shell _ _ _ ?_ | with_reducible refine (foldl_shell _ _ _ (fun s a => ?_)).trans ?_)

theorem crcCheck_shell (h : HalfId) (s : State) :
    (crcCheck h s).shell = s.shell := by
  unfold crcCheck
  repeat' (first | with_reducible rfl | with_reducible exact free_shell _ _ | (simp only [upd_shell, latchHw_shell, crcCancel_shell]; done) | simp only [upd_shell, latchHw_shell, crcCancel_shell] | split | with_reducible refine ite_shell ?_ ?_ | with_reducible refine (foldl_fst_shell _ _ _ (fun s a => ?_)).trans ?_ | with_reducible refine guarded_shell _ _ _ ?_ | with_reducible refine (foldl_shell _ _ _ (fun s a => ?_)).trans ?_)

theorem supersede_shell (h : HalfId) (p : PendingEnv) (s : State) :
    (supersede h p s).shell = s.shell := by
  unfold supersede
  repeat' (first | with_reducible rfl | with_reducible exact free_shell _ _ | (simp only [upd_shell, deferredEnd_shell]; done) | simp only [upd_shell, deferredEnd_shell] | split | with_reducible refine ite_shell ?_ ?_ | with_reducible refine (foldl_fst_shell _ _ _ (fun s a => ?_)).trans ?_ | with_reducible refine guarded_shell _ _ _ ?_ | with_reducible refine (foldl_shell _ _ _ (fun s a => ?_)).trans ?_)

theorem poolMode_shell (h : HalfId) (p : Nat) (host : Bool) (s : State) :
    (poolMode h p host s).shell = s.shell := by
  unfold poolMode
  repeat' (first | with_reducible rfl | with_reducible exact free_shell _ _ | (simp only [upd_shell, free_shell, poolReturn_shell]; done) | simp only [upd_shell, free_shell, poolReturn_shell] | split | with_reducible refine ite_shell ?_ ?_ | with_reducible refine (foldl_fst_shell _ _ _ (fun s a => ?_)).trans ?_ | with_reducible refine guarded_shell _ _ _ ?_ | with_reducible refine (foldl_shell _ _ _ (fun s a => ?_)).trans ?_)

theorem poolSwitch_shell (h : HalfId) (p : PendingEnv) (old : List Record) (n : Nat) (s : State) :
    (poolSwitch h p old n s).shell = s.shell := by
  unfold poolSwitch
  repeat' (first | with_reducible rfl | with_reducible exact free_shell _ _ | (simp only [upd_shell, poolMode_shell]; done) | simp only [upd_shell, poolMode_shell] | split | with_reducible refine ite_shell ?_ ?_ | with_reducible refine (foldl_fst_shell _ _ _ (fun s a => ?_)).trans ?_ | with_reducible refine guarded_shell _ _ _ ?_ | with_reducible refine (foldl_shell _ _ _ (fun s a => ?_)).trans ?_)

theorem portSwitch_shell (h : HalfId) (p : PendingEnv) (n : Nat) (s : State) :
    (portSwitch h p n s).shell = s.shell := by
  unfold portSwitch
  repeat' (first | with_reducible rfl | with_reducible exact free_shell _ _ | (simp only [upd_shell, protocolsStart_shell, restartPort_shell]; done) | simp only [upd_shell, protocolsStart_shell, restartPort_shell] | split | with_reducible refine ite_shell ?_ ?_ | with_reducible refine (foldl_fst_shell _ _ _ (fun s a => ?_)).trans ?_ | with_reducible refine guarded_shell _ _ _ ?_ | with_reducible refine (foldl_shell _ _ _ (fun s a => ?_)).trans ?_)

theorem groupsLeft_shell (h : HalfId) (p : PendingEnv) (old : List Record) (s : State) :
    (groupsLeft h p old s).shell = s.shell := by
  unfold groupsLeft
  repeat' (first | with_reducible rfl | with_reducible exact free_shell _ _ | (simp only [upd_shell, unsolicited_shell]; done) | simp only [upd_shell, unsolicited_shell] | split | with_reducible refine ite_shell ?_ ?_ | with_reducible refine (foldl_fst_shell _ _ _ (fun s a => ?_)).trans ?_ | with_reducible refine guarded_shell _ _ _ ?_ | with_reducible refine (foldl_shell _ _ _ (fun s a => ?_)).trans ?_)

theorem inputsSwitch_shell (h : HalfId) (p : PendingEnv) (s : State) :
    (inputsSwitch h p s).shell = s.shell := by
  unfold inputsSwitch
  repeat' (first | with_reducible rfl | with_reducible exact free_shell _ _ | (simp only [upd_shell, free_shell, State.tick1_shell, unsolicited_shell]; done) | simp only [upd_shell, free_shell, State.tick1_shell, unsolicited_shell] | split | with_reducible refine ite_shell ?_ ?_ | with_reducible refine (foldl_fst_shell _ _ _ (fun s a => ?_)).trans ?_ | with_reducible refine guarded_shell _ _ _ ?_ | with_reducible refine (foldl_shell _ _ _ (fun s a => ?_)).trans ?_)

theorem shapersSwitch_shell (h : HalfId) (p : PendingEnv) (old : List Record) (s : State) :
    (shapersSwitch h p old s).shell = s.shell := by
  unfold shapersSwitch
  repeat' (first | with_reducible rfl | with_reducible exact free_shell _ _ | (simp only [upd_shell, shaperApply_shell]; done) | simp only [upd_shell, shaperApply_shell] | split | with_reducible refine ite_shell ?_ ?_ | with_reducible refine (foldl_fst_shell _ _ _ (fun s a => ?_)).trans ?_ | with_reducible refine guarded_shell _ _ _ ?_ | with_reducible refine (foldl_shell _ _ _ (fun s a => ?_)).trans ?_)

theorem ptpSwitch_shell (h : HalfId) (p : PendingEnv) (s : State) :
    (ptpSwitch h p s).shell = s.shell := by
  unfold ptpSwitch
  repeat' (first | with_reducible rfl | with_reducible exact free_shell _ _ | (simp only [upd_shell, bmca_shell, slaveLost_shell]; done) | simp only [upd_shell, bmca_shell, slaveLost_shell] | split | with_reducible refine ite_shell ?_ ?_ | with_reducible refine (foldl_fst_shell _ _ _ (fun s a => ?_)).trans ?_ | with_reducible refine guarded_shell _ _ _ ?_ | with_reducible refine (foldl_shell _ _ _ (fun s a => ?_)).trans ?_)

theorem flowNow_shell (h : HalfId) (p : PendingEnv) (obj : Handle) (s : State) :
    (flowNow h p obj s).shell = s.shell := by
  unfold flowNow
  repeat' (first | with_reducible rfl | with_reducible exact free_shell _ _ | (simp only [upd_shell, switchFlow_shell]; done) | simp only [upd_shell, switchFlow_shell] | split | with_reducible refine ite_shell ?_ ?_ | with_reducible refine (foldl_fst_shell _ _ _ (fun s a => ?_)).trans ?_ | with_reducible refine guarded_shell _ _ _ ?_ | with_reducible refine (foldl_shell _ _ _ (fun s a => ?_)).trans ?_)

theorem takeoverBegin_shell (h : HalfId) (p0 : PendingEnv) (s : State) :
    (takeoverBegin h p0 s).shell = s.shell := by
  unfold takeoverBegin
  repeat' (first | with_reducible rfl | with_reducible exact free_shell _ _ | (simp only [upd_shell, removeIdle_shell, supersede_shell, poolSwitch_shell, portSwitch_shell, groupsLeft_shell, inputsSwitch_shell, shapersSwitch_shell, ptpSwitch_shell, flowNow_shell]; done) | simp only [upd_shell, removeIdle_shell, supersede_shell, poolSwitch_shell, portSwitch_shell, groupsLeft_shell, inputsSwitch_shell, shapersSwitch_shell, ptpSwitch_shell, flowNow_shell] | split | with_reducible refine ite_shell ?_ ?_ | with_reducible refine (foldl_fst_shell _ _ _ (fun s a => ?_)).trans ?_ | with_reducible refine guarded_shell _ _ _ ?_ | with_reducible refine (foldl_shell _ _ _ (fun s a => ?_)).trans ?_)

/-! Retire.lean -/

theorem haltStream_shell (h : HalfId) (i cause : Nat) (s : State) :
    (haltStream h i cause s).shell = s.shell := by
  unfold haltStream
  repeat' (first | with_reducible rfl | with_reducible exact free_shell _ _ | (simp only [upd_shell, sourceLost_shell]; done) | simp only [upd_shell, sourceLost_shell] | split | with_reducible refine ite_shell ?_ ?_ | with_reducible refine (foldl_fst_shell _ _ _ (fun s a => ?_)).trans ?_ | with_reducible refine guarded_shell _ _ _ ?_ | with_reducible refine (foldl_shell _ _ _ (fun s a => ?_)).trans ?_)

theorem haltCanvas_shell (h : HalfId) (i : Nat) (s : State) :
    (haltCanvas h i s).shell = s.shell := by
  unfold haltCanvas
  repeat' (first | with_reducible rfl | with_reducible exact free_shell _ _ | (simp only [upd_shell, haltStream_shell]; done) | simp only [upd_shell, haltStream_shell] | split | with_reducible refine ite_shell ?_ ?_ | with_reducible refine (foldl_fst_shell _ _ _ (fun s a => ?_)).trans ?_ | with_reducible refine guarded_shell _ _ _ ?_ | with_reducible refine (foldl_shell _ _ _ (fun s a => ?_)).trans ?_)

theorem twinPair_shell (h : HalfId) (i base : Nat) (s : State) :
    (twinPair h i base s).shell = s.shell := by
  unfold twinPair
  repeat' (first | with_reducible rfl | with_reducible exact free_shell _ _ | (simp only [upd_shell, twinRestartAt_shell]; done) | simp only [upd_shell, twinRestartAt_shell] | split | with_reducible refine ite_shell ?_ ?_ | with_reducible refine (foldl_fst_shell _ _ _ (fun s a => ?_)).trans ?_ | with_reducible refine guarded_shell _ _ _ ?_ | with_reducible refine (foldl_shell _ _ _ (fun s a => ?_)).trans ?_)

theorem restartStream_shell (h : HalfId) (i base : Nat) (s : State) :
    (restartStream h i base s).shell = s.shell := by
  unfold restartStream
  repeat' (first | with_reducible rfl | with_reducible exact free_shell _ _ | (simp only [upd_shell, guarded_shell, twinPair_shell]; done) | simp only [upd_shell, guarded_shell, twinPair_shell] | split | with_reducible refine ite_shell ?_ ?_ | with_reducible refine (foldl_fst_shell _ _ _ (fun s a => ?_)).trans ?_ | with_reducible refine guarded_shell _ _ _ ?_ | with_reducible refine (foldl_shell _ _ _ (fun s a => ?_)).trans ?_)

theorem restartDecode_shell (h : HalfId) (c : Nat) (s : State) :
    (restartDecode h c s).shell = s.shell := by
  unfold restartDecode
  repeat' (first | with_reducible rfl | with_reducible exact free_shell _ _ | (simp only [upd_shell, requestOnce_shell]; done) | simp only [upd_shell, requestOnce_shell] | split | with_reducible refine ite_shell ?_ ?_ | with_reducible refine (foldl_fst_shell _ _ _ (fun s a => ?_)).trans ?_ | with_reducible refine guarded_shell _ _ _ ?_ | with_reducible refine (foldl_shell _ _ _ (fun s a => ?_)).trans ?_)

theorem haltUser_shell (h : HalfId) (g : Nat) (obj : Handle) (s : State) :
    (haltUser h g obj s).shell = s.shell := by
  unfold haltUser
  repeat' (first | with_reducible rfl | with_reducible exact free_shell _ _ | (simp only [upd_shell, haltStream_shell, haltCanvas_shell]; done) | simp only [upd_shell, haltStream_shell, haltCanvas_shell] | split | with_reducible refine ite_shell ?_ ?_ | with_reducible refine (foldl_fst_shell _ _ _ (fun s a => ?_)).trans ?_ | with_reducible refine guarded_shell _ _ _ ?_ | with_reducible refine (foldl_shell _ _ _ (fun s a => ?_)).trans ?_)

theorem restartUser_shell (h : HalfId) (base : Nat) (obj : Handle) (s : State) :
    (restartUser h base obj s).shell = s.shell := by
  unfold restartUser
  repeat' (first | with_reducible rfl | with_reducible exact free_shell _ _ | (simp only [upd_shell, restartStream_shell, restartDecode_shell]; done) | simp only [upd_shell, restartStream_shell, restartDecode_shell] | split | with_reducible refine ite_shell ?_ ?_ | with_reducible refine (foldl_fst_shell _ _ _ (fun s a => ?_)).trans ?_ | with_reducible refine guarded_shell _ _ _ ?_ | with_reducible refine (foldl_shell _ _ _ (fun s a => ?_)).trans ?_)

theorem resumeUser_shell (h : HalfId) (base : Nat) (obj : Handle) (s : State) :
    (resumeUser h base obj s).shell = s.shell := by
  unfold resumeUser
  repeat' (first | with_reducible rfl | with_reducible exact free_shell _ _ | (simp only [upd_shell, restartStream_shell]; done) | simp only [upd_shell, restartStream_shell] | split | with_reducible refine ite_shell ?_ ?_ | with_reducible refine (foldl_fst_shell _ _ _ (fun s a => ?_)).trans ?_ | with_reducible refine guarded_shell _ _ _ ?_ | with_reducible refine (foldl_shell _ _ _ (fun s a => ?_)).trans ?_)

theorem shedEvent_shell (h : HalfId) (check : Nat) (dep obj : Handle) (s : State) :
    (shedEvent h check dep obj s).shell = s.shell := by
  unfold shedEvent
  repeat' (first | with_reducible rfl | with_reducible exact free_shell _ _ | (simp only [upd_shell, event_shell]; done) | simp only [upd_shell, event_shell] | split | with_reducible refine ite_shell ?_ ?_ | with_reducible refine (foldl_fst_shell _ _ _ (fun s a => ?_)).trans ?_ | with_reducible refine guarded_shell _ _ _ ?_ | with_reducible refine (foldl_shell _ _ _ (fun s a => ?_)).trans ?_)

theorem shedStream_shell (h : HalfId) (check : Nat) (dep : Handle) (i : Nat) (s : State) :
    (shedStream h check dep i s).shell = s.shell := by
  unfold shedStream
  repeat' (first | with_reducible rfl | with_reducible exact free_shell _ _ | (simp only [upd_shell, sourceLost_shell, shedEvent_shell]; done) | simp only [upd_shell, sourceLost_shell, shedEvent_shell] | split | with_reducible refine ite_shell ?_ ?_ | with_reducible refine (foldl_fst_shell _ _ _ (fun s a => ?_)).trans ?_ | with_reducible refine guarded_shell _ _ _ ?_ | with_reducible refine (foldl_shell _ _ _ (fun s a => ?_)).trans ?_)

theorem shedObject_shell (h : HalfId) (check : Nat) (obj : Handle) (s : State) :
    (shedObject h check obj s).shell = s.shell := by
  unfold shedObject
  repeat' (first | with_reducible rfl | with_reducible exact free_shell _ _ | (simp only [upd_shell, shedEvent_shell, shedStream_shell]; done) | simp only [upd_shell, shedEvent_shell, shedStream_shell] | split | with_reducible refine ite_shell ?_ ?_ | with_reducible refine (foldl_fst_shell _ _ _ (fun s a => ?_)).trans ?_ | with_reducible refine guarded_shell _ _ _ ?_ | with_reducible refine (foldl_shell _ _ _ (fun s a => ?_)).trans ?_)

theorem shedUntil_shell (h : HalfId) (check : Nat) (types : List Nat) (ok : Half → Bool) (n : Nat) (s : State) :
    (shedUntil h check types ok n s).shell = s.shell := by
  induction n generalizing s with
  | zero => rfl
  | succ n ih =>
    unfold shedUntil
    repeat' (first | rfl | simp only [upd_shell, shedObject_shell, ih] | split)
theorem checkOrShed_shell (h : HalfId) (check : Nat) (types : List Nat) (ok : Half → Bool) (charge limit : Half → Nat) (s : State) :
    (checkOrShed h check types ok charge limit s).shell = s.shell := by
  unfold checkOrShed
  repeat' (first | rfl | simp only [upd_shell, event_shell, shedUntil_shell] | split)
theorem moveEncode_shell (h : HalfId) (p : Placed) (s : State) :
    (moveEncode h p s).shell = s.shell := by
  unfold moveEncode
  repeat' (first | with_reducible rfl | with_reducible exact free_shell _ _ | (simp only [upd_shell, twinPair_shell]; done) | simp only [upd_shell, twinPair_shell] | split | with_reducible refine ite_shell ?_ ?_ | with_reducible refine (foldl_fst_shell _ _ _ (fun s a => ?_)).trans ?_ | with_reducible refine guarded_shell _ _ _ ?_ | with_reducible refine (foldl_shell _ _ _ (fun s a => ?_)).trans ?_)

theorem rePlace_shell (h : HalfId) (s : State) :
    (rePlace h s).shell = s.shell := by
  unfold rePlace
  repeat' (first | with_reducible rfl | with_reducible exact free_shell _ _ | (simp only [upd_shell, checkOrShed_shell, moveEncode_shell]; done) | simp only [upd_shell, checkOrShed_shell, moveEncode_shell] | split | with_reducible refine ite_shell ?_ ?_ | with_reducible refine (foldl_fst_shell _ _ _ (fun s a => ?_)).trans ?_ | with_reducible refine guarded_shell _ _ _ ?_ | with_reducible refine (foldl_shell _ _ _ (fun s a => ?_)).trans ?_)

theorem workHalt_shell (h : HalfId) (src : Nat) (s : State) :
    (workHalt h src s).shell = s.shell := by
  unfold workHalt
  repeat' (first | with_reducible rfl | with_reducible exact free_shell _ _ | (simp only [upd_shell, haltStream_shell]; done) | simp only [upd_shell, haltStream_shell] | split | with_reducible refine ite_shell ?_ ?_ | with_reducible refine (foldl_fst_shell _ _ _ (fun s a => ?_)).trans ?_ | with_reducible refine guarded_shell _ _ _ ?_ | with_reducible refine (foldl_shell _ _ _ (fun s a => ?_)).trans ?_)

theorem unitDown_shell (h : HalfId) (src : Nat) (s : State) :
    (unitDown h src s).shell = s.shell := by
  unfold unitDown
  repeat' (first | with_reducible rfl | with_reducible exact free_shell _ _ | (simp only [upd_shell, workHalt_shell]; done) | simp only [upd_shell, workHalt_shell] | split | with_reducible refine ite_shell ?_ ?_ | with_reducible refine (foldl_fst_shell _ _ _ (fun s a => ?_)).trans ?_ | with_reducible refine guarded_shell _ _ _ ?_ | with_reducible refine (foldl_shell _ _ _ (fun s a => ?_)).trans ?_)

theorem unitResume_shell (h : HalfId) (src : Nat) (s : State) :
    (unitResume h src s).shell = s.shell := by
  unfold unitResume
  repeat' (first | with_reducible rfl | with_reducible exact free_shell _ _ | (simp only [upd_shell, event_shell, guarded_shell, restartStream_shell]; done) | simp only [upd_shell, event_shell, guarded_shell, restartStream_shell] | split | with_reducible refine ite_shell ?_ ?_ | with_reducible refine (foldl_fst_shell _ _ _ (fun s a => ?_)).trans ?_ | with_reducible refine guarded_shell _ _ _ ?_ | with_reducible refine (foldl_shell _ _ _ (fun s a => ?_)).trans ?_)

theorem retiredEvent_shell (h : HalfId) (unit : Handle) (cause : Nat) (s : State) :
    (retiredEvent h unit cause s).shell = s.shell := by
  unfold retiredEvent
  repeat' (first | with_reducible rfl | with_reducible exact free_shell _ _ | (simp only [upd_shell, event_shell]; done) | simp only [upd_shell, event_shell] | split | with_reducible refine ite_shell ?_ ?_ | with_reducible refine (foldl_fst_shell _ _ _ (fun s a => ?_)).trans ?_ | with_reducible refine guarded_shell _ _ _ ?_ | with_reducible refine (foldl_shell _ _ _ (fun s a => ?_)).trans ?_)

theorem retireEngine_shell (h : HalfId) (src cause : Nat) (s : State) :
    (retireEngine h src cause s).shell = s.shell := by
  unfold retireEngine
  repeat' (first | with_reducible rfl | with_reducible exact free_shell _ _ | (simp only [upd_shell, haltStream_shell, restartStream_shell, rePlace_shell, workHalt_shell, retiredEvent_shell]; done) | simp only [upd_shell, haltStream_shell, restartStream_shell, rePlace_shell, workHalt_shell, retiredEvent_shell] | split | with_reducible refine ite_shell ?_ ?_ | with_reducible refine (foldl_fst_shell _ _ _ (fun s a => ?_)).trans ?_ | with_reducible refine guarded_shell _ _ _ ?_ | with_reducible refine (foldl_shell _ _ _ (fun s a => ?_)).trans ?_)

theorem retirePort_shell (h : HalfId) (n cause : Nat) (s : State) :
    (retirePort h n cause s).shell = s.shell := by
  unfold retirePort
  repeat' (first | with_reducible rfl | with_reducible exact free_shell _ _ | (simp only [upd_shell, restartPort_shell, retiredEvent_shell]; done) | simp only [upd_shell, restartPort_shell, retiredEvent_shell] | split | with_reducible refine ite_shell ?_ ?_ | with_reducible refine (foldl_fst_shell _ _ _ (fun s a => ?_)).trans ?_ | with_reducible refine guarded_shell _ _ _ ?_ | with_reducible refine (foldl_shell _ _ _ (fun s a => ?_)).trans ?_)

/-! Evacuate.lean -/

theorem shedUsers_shell (h : HalfId) (gs : List Nat) (s : State) :
    (shedUsers h gs s).1.shell = s.shell := by
  unfold shedUsers
  repeat' (first | with_reducible rfl | with_reducible exact free_shell _ _ | (simp only [upd_shell, shedObject_shell]; done) | simp only [upd_shell, shedObject_shell] | split | with_reducible refine ite_shell ?_ ?_ | with_reducible refine (foldl_fst_shell _ _ _ (fun s a => ?_)).trans ?_ | with_reducible refine guarded_shell _ _ _ ?_ | with_reducible refine (foldl_shell _ _ _ (fun s a => ?_)).trans ?_)

theorem bandwidthCheck_shell (h : HalfId) (s : State) :
    (bandwidthCheck h s).shell = s.shell := by
  unfold bandwidthCheck
  repeat' (first | with_reducible rfl | with_reducible exact free_shell _ _ | (simp only [upd_shell, checkOrShed_shell]; done) | simp only [upd_shell, checkOrShed_shell] | split | with_reducible refine ite_shell ?_ ?_ | with_reducible refine (foldl_fst_shell _ _ _ (fun s a => ?_)).trans ?_ | with_reducible refine guarded_shell _ _ _ ?_ | with_reducible refine (foldl_shell _ _ _ (fun s a => ?_)).trans ?_)

theorem regionsLost_shell (h : HalfId) (plan : List (Placement × Option (Nat × Nat))) (s : State) :
    (regionsLost h plan s).shell = s.shell := by
  unfold regionsLost
  repeat' (first | with_reducible rfl | with_reducible exact free_shell _ _ | (simp only [upd_shell, haltUser_shell, restartUser_shell, shedUsers_shell]; done) | simp only [upd_shell, haltUser_shell, restartUser_shell, shedUsers_shell] | split | with_reducible refine ite_shell ?_ ?_ | with_reducible refine (foldl_fst_shell _ _ _ (fun s a => ?_)).trans ?_ | with_reducible refine guarded_shell _ _ _ ?_ | with_reducible refine (foldl_shell _ _ _ (fun s a => ?_)).trans ?_)

theorem retireHalf_shell (h : HalfId) (cause : Nat) (s : State) :
    (retireHalf h cause s).shell = s.shell := by
  unfold retireHalf
  repeat' (first | with_reducible rfl | with_reducible exact free_shell _ _ | (simp only [upd_shell, stopTether_shell, retiredEvent_shell]; done) | simp only [upd_shell, stopTether_shell, retiredEvent_shell] | split | with_reducible refine ite_shell ?_ ?_ | with_reducible refine (foldl_fst_shell _ _ _ (fun s a => ?_)).trans ?_ | with_reducible refine guarded_shell _ _ _ ?_ | with_reducible refine (foldl_shell _ _ _ (fun s a => ?_)).trans ?_)

theorem reserveLeave_shell (h : HalfId) (n : Nat) (copied : Bool) (s : State) :
    (reserveLeave h n copied s).shell = s.shell := by
  unfold reserveLeave
  repeat' (first | with_reducible rfl | with_reducible exact free_shell _ _ | (simp only [upd_shell, shedUsers_shell, retireHalf_shell]; done) | simp only [upd_shell, shedUsers_shell, retireHalf_shell] | split | with_reducible refine ite_shell ?_ ?_ | with_reducible refine (foldl_fst_shell _ _ _ (fun s a => ?_)).trans ?_ | with_reducible refine guarded_shell _ _ _ ?_ | with_reducible refine (foldl_shell _ _ _ (fun s a => ?_)).trans ?_)

theorem evacBegin_shell (h : HalfId) (n purpose : Nat) (s : State) :
    (evacBegin h n purpose s).shell = s.shell := by
  unfold evacBegin
  repeat' (first | with_reducible rfl | with_reducible exact free_shell _ _ | (simp only [upd_shell, free_shell, event_shell, shedUsers_shell, bandwidthCheck_shell, reserveLeave_shell]; done) | simp only [upd_shell, free_shell, event_shell, shedUsers_shell, bandwidthCheck_shell, reserveLeave_shell] | split | with_reducible refine ite_shell ?_ ?_ | with_reducible refine (foldl_fst_shell _ _ _ (fun s a => ?_)).trans ?_ | with_reducible refine guarded_shell _ _ _ ?_ | with_reducible refine (foldl_shell _ _ _ (fun s a => ?_)).trans ?_)

theorem evacEnd_shell (h : HalfId) (n : Nat) (v : EvacSt) (s : State) :
    (evacEnd h n v s).shell = s.shell := by
  unfold evacEnd
  repeat' (first | with_reducible rfl | with_reducible exact free_shell _ _ | (simp only [upd_shell, event_shell, reserveLeave_shell]; done) | simp only [upd_shell, event_shell, reserveLeave_shell] | split | with_reducible refine ite_shell ?_ ?_ | with_reducible refine (foldl_fst_shell _ _ _ (fun s a => ?_)).trans ?_ | with_reducible refine guarded_shell _ _ _ ?_ | with_reducible refine (foldl_shell _ _ _ (fun s a => ?_)).trans ?_)

theorem evacAdvance_shell (h : HalfId) (n : Nat) (s : State) :
    (evacAdvance h n s).shell = s.shell := by
  unfold evacAdvance
  repeat' (first | with_reducible rfl | with_reducible exact free_shell _ _ | (simp only [upd_shell, haltStream_shell, evacEnd_shell]; done) | simp only [upd_shell, haltStream_shell, evacEnd_shell] | split | with_reducible refine ite_shell ?_ ?_ | with_reducible refine (foldl_fst_shell _ _ _ (fun s a => ?_)).trans ?_ | with_reducible refine guarded_shell _ _ _ ?_ | with_reducible refine (foldl_shell _ _ _ (fun s a => ?_)).trans ?_)

theorem regionCopied_shell (h : HalfId) (n : Nat) (s : State) :
    (regionCopied h n s).shell = s.shell := by
  unfold regionCopied
  repeat' (first | with_reducible rfl | with_reducible exact free_shell _ _ | (simp only [upd_shell, resumeUser_shell, evacAdvance_shell]; done) | simp only [upd_shell, resumeUser_shell, evacAdvance_shell] | split | with_reducible refine ite_shell ?_ ?_ | with_reducible refine (foldl_fst_shell _ _ _ (fun s a => ?_)).trans ?_ | with_reducible refine guarded_shell _ _ _ ?_ | with_reducible refine (foldl_shell _ _ _ (fun s a => ?_)).trans ?_)

theorem frozenReact_shell (h : HalfId) (n : Nat) (s : State) :
    (frozenReact h n s).shell = s.shell := by
  unfold frozenReact
  repeat' (first | with_reducible rfl | with_reducible exact free_shell _ _ | (simp only [upd_shell, event_shell, haltUser_shell, bandwidthCheck_shell, regionsLost_shell, reserveLeave_shell]; done) | simp only [upd_shell, event_shell, haltUser_shell, bandwidthCheck_shell, regionsLost_shell, reserveLeave_shell] | split | with_reducible refine ite_shell ?_ ?_ | with_reducible refine (foldl_fst_shell _ _ _ (fun s a => ?_)).trans ?_ | with_reducible refine guarded_shell _ _ _ ?_ | with_reducible refine (foldl_shell _ _ _ (fun s a => ?_)).trans ?_)

theorem retireChannel_shell (h : HalfId) (n cause : Nat) (s : State) :
    (retireChannel h n cause s).shell = s.shell := by
  unfold retireChannel
  repeat' (first | with_reducible rfl | with_reducible exact free_shell _ _ | (simp only [upd_shell, stopTether_shell, rePlace_shell, retiredEvent_shell, regionsLost_shell, reserveLeave_shell]; done) | simp only [upd_shell, stopTether_shell, rePlace_shell, retiredEvent_shell, regionsLost_shell, reserveLeave_shell] | split | with_reducible refine ite_shell ?_ ?_ | with_reducible refine (foldl_fst_shell _ _ _ (fun s a => ?_)).trans ?_ | with_reducible refine guarded_shell _ _ _ ?_ | with_reducible refine (foldl_shell _ _ _ (fun s a => ?_)).trans ?_)

theorem retireSource_shell (h : HalfId) (src cause : Nat) (s : State) :
    (retireSource h src cause s).shell = s.shell := by
  unfold retireSource
  repeat' (first | with_reducible rfl | with_reducible exact free_shell _ _ | (simp only [upd_shell, retireEngine_shell, retirePort_shell, evacBegin_shell, retireChannel_shell]; done) | simp only [upd_shell, retireEngine_shell, retirePort_shell, evacBegin_shell, retireChannel_shell] | split | with_reducible refine ite_shell ?_ ?_ | with_reducible refine (foldl_fst_shell _ _ _ (fun s a => ?_)).trans ?_ | with_reducible refine guarded_shell _ _ _ ?_ | with_reducible refine (foldl_shell _ _ _ (fun s a => ?_)).trans ?_)

theorem restartSource_shell (h : HalfId) (src : Nat) (s : State) :
    (restartSource h src s).shell = s.shell := by
  unfold restartSource
  repeat' (first | with_reducible rfl | with_reducible exact free_shell _ _ | (simp only [upd_shell, unitResume_shell]; done) | simp only [upd_shell, unitResume_shell] | split | with_reducible refine ite_shell ?_ ?_ | with_reducible refine (foldl_fst_shell _ _ _ (fun s a => ?_)).trans ?_ | with_reducible refine guarded_shell _ _ _ ?_ | with_reducible refine (foldl_shell _ _ _ (fun s a => ?_)).trans ?_)

theorem reactSecond_shell (h : HalfId) (src : Nat) (s : State) :
    (reactSecond h src s).shell = s.shell := by
  unfold reactSecond
  repeat' (first | with_reducible rfl | with_reducible exact free_shell _ _ | (simp only [upd_shell, retireSource_shell, restartSource_shell]; done) | simp only [upd_shell, retireSource_shell, restartSource_shell] | split | with_reducible refine ite_shell ?_ ?_ | with_reducible refine (foldl_fst_shell _ _ _ (fun s a => ?_)).trans ?_ | with_reducible refine guarded_shell _ _ _ ?_ | with_reducible refine (foldl_shell _ _ _ (fun s a => ?_)).trans ?_)

theorem react_shell (h : HalfId) (src : Nat) (s : State) :
    (react h src s).shell = s.shell := by
  unfold react
  repeat' (first | with_reducible rfl | with_reducible exact free_shell _ _ | (simp only [upd_shell, reactSecond_shell]; done) | simp only [upd_shell, reactSecond_shell] | split | with_reducible refine ite_shell ?_ ?_ | with_reducible refine (foldl_fst_shell _ _ _ (fun s a => ?_)).trans ?_ | with_reducible refine guarded_shell _ _ _ ?_ | with_reducible refine (foldl_shell _ _ _ (fun s a => ?_)).trans ?_)

theorem haltIdle_shell (h : HalfId) (src : Nat) (s : State) :
    (haltIdle h src s).shell = s.shell := by
  unfold haltIdle
  repeat' (first | with_reducible rfl | with_reducible exact free_shell _ _ | (simp only [upd_shell, unitDown_shell, react_shell]; done) | simp only [upd_shell, unitDown_shell, react_shell] | split | with_reducible refine ite_shell ?_ ?_ | with_reducible refine (foldl_fst_shell _ _ _ (fun s a => ?_)).trans ?_ | with_reducible refine guarded_shell _ _ _ ?_ | with_reducible refine (foldl_shell _ _ _ (fun s a => ?_)).trans ?_)

theorem settle_shell (h : HalfId) (s : State) :
    (settle h s).shell = s.shell := by
  unfold settle
  repeat' (first | with_reducible rfl | with_reducible exact free_shell _ _ | (simp only [upd_shell, retireEngine_shell, evacAdvance_shell, frozenReact_shell, react_shell, haltIdle_shell]; done) | simp only [upd_shell, retireEngine_shell, evacAdvance_shell, frozenReact_shell, react_shell, haltIdle_shell] | split | with_reducible refine ite_shell ?_ ?_ | with_reducible refine (foldl_fst_shell _ _ _ (fun s a => ?_)).trans ?_ | with_reducible refine guarded_shell _ _ _ ?_ | with_reducible refine (foldl_shell _ _ _ (fun s a => ?_)).trans ?_)

/-! Dram.lean -/

theorem rollingActivate_shell (h : HalfId) (n bank : Nat) (s : State) :
    (rollingActivate h n bank s).shell = s.shell := by
  unfold rollingActivate
  repeat' (first | with_reducible rfl | with_reducible exact free_shell _ _ | (simp only [upd_shell, emit_shell]; done) | simp only [upd_shell, emit_shell] | split | with_reducible refine ite_shell ?_ ?_ | with_reducible refine (foldl_fst_shell _ _ _ (fun s a => ?_)).trans ?_ | with_reducible refine guarded_shell _ _ _ ?_ | with_reducible refine (foldl_shell _ _ _ (fun s a => ?_)).trans ?_)

theorem dramActivate_shell (h : HalfId) (n port bank row : Nat) (s : State) :
    (dramActivate h n port bank row s).shell = s.shell := by
  unfold dramActivate
  repeat' (first | with_reducible rfl | with_reducible exact free_shell _ _ | (simp only [upd_shell, emit_shell, event_shell, rollingActivate_shell]; done) | simp only [upd_shell, emit_shell, event_shell, rollingActivate_shell] | split | with_reducible refine ite_shell ?_ ?_ | with_reducible refine (foldl_fst_shell _ _ _ (fun s a => ?_)).trans ?_ | with_reducible refine guarded_shell _ _ _ ?_ | with_reducible refine (foldl_shell _ _ _ (fun s a => ?_)).trans ?_)

theorem infoCoalesced_shell (h : HalfId) (code : Nat) (src : Handle) (detail : List Byte) (s : State) :
    (infoCoalesced h code src detail s).shell = s.shell := by
  unfold infoCoalesced
  repeat' (first | with_reducible rfl | with_reducible exact free_shell _ _ | (simp only [upd_shell, event_shell]; done) | simp only [upd_shell, event_shell] | split | with_reducible refine ite_shell ?_ ?_ | with_reducible refine (foldl_fst_shell _ _ _ (fun s a => ?_)).trans ?_ | with_reducible refine guarded_shell _ _ _ ?_ | with_reducible refine (foldl_shell _ _ _ (fun s a => ?_)).trans ?_)

theorem dramCorrect_shell (h : HalfId) (n address syndrome requester : Nat) (injected : Bool) (s : State) :
    (dramCorrect h n address syndrome requester injected s).shell = s.shell := by
  unfold dramCorrect
  repeat' (first | with_reducible rfl | with_reducible exact free_shell _ _ | (simp only [upd_shell, latchHw_shell, event_shell, infoCoalesced_shell]; done) | simp only [upd_shell, latchHw_shell, event_shell, infoCoalesced_shell] | split | with_reducible refine ite_shell ?_ ?_ | with_reducible refine (foldl_fst_shell _ _ _ (fun s a => ?_)).trans ?_ | with_reducible refine guarded_shell _ _ _ ?_ | with_reducible refine (foldl_shell _ _ _ (fun s a => ?_)).trans ?_)

theorem dramFreeze_shell (h : HalfId) (n : Nat) (f : FrozenRec) (injected : Bool) (s : State) :
    (dramFreeze h n f injected s).shell = s.shell := by
  unfold dramFreeze
  repeat' (first | with_reducible rfl | with_reducible exact free_shell _ _ | (simp only [upd_shell, free_shell, latchHw_shell]; done) | simp only [upd_shell, free_shell, latchHw_shell] | split | with_reducible refine ite_shell ?_ ?_ | with_reducible refine (foldl_fst_shell _ _ _ (fun s a => ?_)).trans ?_ | with_reducible refine guarded_shell _ _ _ ?_ | with_reducible refine (foldl_shell _ _ _ (fun s a => ?_)).trans ?_)

theorem eccApply_shell (h : HalfId) (n address requester : Nat) (cause : Nat) (ecc : EccOutcome) (injected : Bool) (s : State) :
    (eccApply h n address requester cause ecc injected s).shell = s.shell := by
  unfold eccApply
  repeat' (first | with_reducible rfl | with_reducible exact free_shell _ _ | (simp only [upd_shell, dramCorrect_shell, dramFreeze_shell]; done) | simp only [upd_shell, dramCorrect_shell, dramFreeze_shell] | split | with_reducible refine ite_shell ?_ ?_ | with_reducible refine (foldl_fst_shell _ _ _ (fun s a => ?_)).trans ?_ | with_reducible refine guarded_shell _ _ _ ?_ | with_reducible refine (foldl_shell _ _ _ (fun s a => ?_)).trans ?_)

theorem dramIssue_shell (h : HalfId) (n : Nat) (q : QueuedReq) (ecc : EccOutcome) (s : State) :
    (dramIssue h n q ecc s).shell = s.shell := by
  unfold dramIssue
  repeat' (first | with_reducible rfl | with_reducible exact free_shell _ _ | (simp only [upd_shell, dramActivate_shell, eccApply_shell]; done) | simp only [upd_shell, dramActivate_shell, eccApply_shell] | split | with_reducible refine ite_shell ?_ ?_ | with_reducible refine (foldl_fst_shell _ _ _ (fun s a => ?_)).trans ?_ | with_reducible refine guarded_shell _ _ _ ?_ | with_reducible refine (foldl_shell _ _ _ (fun s a => ?_)).trans ?_)

theorem scrubLap_shell (h : HalfId) (n : Nat) (s : State) :
    (scrubLap h n s).shell = s.shell := by
  unfold scrubLap
  repeat' (first | with_reducible rfl | with_reducible exact free_shell _ _ | (simp only [upd_shell, event_shell]; done) | simp only [upd_shell, event_shell] | split | with_reducible refine ite_shell ?_ ?_ | with_reducible refine (foldl_fst_shell _ _ _ (fun s a => ?_)).trans ?_ | with_reducible refine guarded_shell _ _ _ ?_ | with_reducible refine (foldl_shell _ _ _ (fun s a => ?_)).trans ?_)

theorem leaveBlocks_shell (h : HalfId) (n : Nat) (s : State) :
    (leaveBlocks h n s).shell = s.shell := by
  unfold leaveBlocks
  repeat' (first | with_reducible rfl | with_reducible exact free_shell _ _ | (simp only [upd_shell, shedUsers_shell]; done) | simp only [upd_shell, shedUsers_shell] | split | with_reducible refine ite_shell ?_ ?_ | with_reducible refine (foldl_fst_shell _ _ _ (fun s a => ?_)).trans ?_ | with_reducible refine guarded_shell _ _ _ ?_ | with_reducible refine (foldl_shell _ _ _ (fun s a => ?_)).trans ?_)

theorem thaw_shell (h : HalfId) (n : Nat) (f : FrozenRec) (s : State) :
    (thaw h n f s).shell = s.shell := by
  unfold thaw
  repeat' (first | with_reducible rfl | with_reducible exact free_shell _ _ | (simp only [upd_shell, event_shell, restartUser_shell]; done) | simp only [upd_shell, event_shell, restartUser_shell] | split | with_reducible refine ite_shell ?_ ?_ | with_reducible refine (foldl_fst_shell _ _ _ (fun s a => ?_)).trans ?_ | with_reducible refine guarded_shell _ _ _ ?_ | with_reducible refine (foldl_shell _ _ _ (fun s a => ?_)).trans ?_)

/-! Faults.lean -/

theorem pinRises_shell (h : HalfId) (source : Nat) (s : State) :
    (pinRises h source s).shell = s.shell := by
  unfold pinRises
  repeat' (first | with_reducible rfl | with_reducible exact free_shell _ _ | (simp only [upd_shell, latchHw_shell]; done) | simp only [upd_shell, latchHw_shell] | split | with_reducible refine ite_shell ?_ ?_ | with_reducible refine (foldl_fst_shell _ _ _ (fun s a => ?_)).trans ?_ | with_reducible refine guarded_shell _ _ _ ?_ | with_reducible refine (foldl_shell _ _ _ (fun s a => ?_)).trans ?_)

theorem requestFails_shell (h : HalfId) (t : ScrimTxn) (s : State) :
    (requestFails h t s).shell = s.shell := by
  unfold requestFails
  repeat' (first | with_reducible rfl | with_reducible exact free_shell _ _ | (simp only [upd_shell, free_shell, State.tick1_shell, emit_shell, dmaBusFail_shell, reelStop_shell]; done) | simp only [upd_shell, free_shell, State.tick1_shell, emit_shell, dmaBusFail_shell, reelStop_shell] | split | with_reducible refine ite_shell ?_ ?_ | with_reducible refine (foldl_fst_shell _ _ _ (fun s a => ?_)).trans ?_ | with_reducible refine guarded_shell _ _ _ ?_ | with_reducible refine (foldl_shell _ _ _ (fun s a => ?_)).trans ?_)

theorem flitFails_shell (h : HalfId) (k : Nat) (s : State) :
    (flitFails h k s).shell = s.shell := by
  unfold flitFails
  repeat' (first | with_reducible rfl | with_reducible exact free_shell _ _ | (simp only [upd_shell, pinRises_shell, requestFails_shell]; done) | simp only [upd_shell, pinRises_shell, requestFails_shell] | split | with_reducible refine ite_shell ?_ ?_ | with_reducible refine (foldl_fst_shell _ _ _ (fun s a => ?_)).trans ?_ | with_reducible refine guarded_shell _ _ _ ?_ | with_reducible refine (foldl_shell _ _ _ (fun s a => ?_)).trans ?_)

theorem faultTaken_shell (h : HalfId) (flags n : Nat) (s : State) :
    (faultTaken h flags n s).shell = s.shell := by
  unfold faultTaken
  repeat' (first | with_reducible rfl | with_reducible exact free_shell _ _ | (simp only [upd_shell]; done) | simp only [upd_shell] | split | with_reducible refine ite_shell ?_ ?_ | with_reducible refine (foldl_fst_shell _ _ _ (fun s a => ?_)).trans ?_ | with_reducible refine guarded_shell _ _ _ ?_ | with_reducible refine (foldl_shell _ _ _ (fun s a => ?_)).trans ?_)

theorem retireNow_shell (h : HalfId) (src : Nat) (s : State) :
    (retireNow h src s).shell = s.shell := by
  unfold retireNow
  repeat' (first | with_reducible rfl | with_reducible exact free_shell _ _ | (simp only [upd_shell, retirePort_shell, retireChannel_shell]; done) | simp only [upd_shell, retirePort_shell, retireChannel_shell] | split | with_reducible refine ite_shell ?_ ?_ | with_reducible refine (foldl_fst_shell _ _ _ (fun s a => ?_)).trans ?_ | with_reducible refine guarded_shell _ _ _ ?_ | with_reducible refine (foldl_shell _ _ _ (fun s a => ?_)).trans ?_)

theorem holdPort_shell (h : HalfId) (n : Nat) (s : State) :
    (holdPort h n s).shell = s.shell := by
  unfold holdPort
  repeat' (first | with_reducible rfl | with_reducible exact free_shell _ _ | (simp only [upd_shell, restartPort_shell]; done) | simp only [upd_shell, restartPort_shell] | split | with_reducible refine ite_shell ?_ ?_ | with_reducible refine (foldl_fst_shell _ _ _ (fun s a => ?_)).trans ?_ | with_reducible refine guarded_shell _ _ _ ?_ | with_reducible refine (foldl_shell _ _ _ (fun s a => ?_)).trans ?_)

theorem holdUnit_shell (h : HalfId) (k : UnitKind) (i : Nat) (s : State) :
    (holdUnit h k i s).shell = s.shell := by
  unfold holdUnit
  repeat' (first | with_reducible rfl | with_reducible exact free_shell _ _ | (simp only [upd_shell, rePlace_shell, evacBegin_shell, holdPort_shell]; done) | simp only [upd_shell, rePlace_shell, evacBegin_shell, holdPort_shell] | split | with_reducible refine ite_shell ?_ ?_ | with_reducible refine (foldl_fst_shell _ _ _ (fun s a => ?_)).trans ?_ | with_reducible refine guarded_shell _ _ _ ?_ | with_reducible refine (foldl_shell _ _ _ (fun s a => ?_)).trans ?_)

theorem enableClear_shell (h : HalfId) (k : UnitKind) (i : Nat) (s : State) :
    (enableClear h k i s).shell = s.shell := by
  unfold enableClear
  repeat' (first | with_reducible rfl | with_reducible exact free_shell _ _ | (simp only [upd_shell, holdUnit_shell]; done) | simp only [upd_shell, holdUnit_shell] | split | with_reducible refine ite_shell ?_ ?_ | with_reducible refine (foldl_fst_shell _ _ _ (fun s a => ?_)).trans ?_ | with_reducible refine guarded_shell _ _ _ ?_ | with_reducible refine (foldl_shell _ _ _ (fun s a => ?_)).trans ?_)

theorem enableSet_shell (h : HalfId) (k : UnitKind) (i : Nat) (s : State) :
    (enableSet h k i s).shell = s.shell := by
  unfold enableSet
  repeat' (first | with_reducible rfl | with_reducible exact free_shell _ _ | (simp only [upd_shell]; done) | simp only [upd_shell] | split | with_reducible refine ite_shell ?_ ?_ | with_reducible refine (foldl_fst_shell _ _ _ (fun s a => ?_)).trans ?_ | with_reducible refine guarded_shell _ _ _ ?_ | with_reducible refine (foldl_shell _ _ _ (fun s a => ?_)).trans ?_)

theorem checkersMeet_shell (h : HalfId) (s : State) :
    (checkersMeet h s).shell = s.shell := by
  unfold checkersMeet
  repeat' (first | with_reducible rfl | with_reducible exact free_shell _ _ | (simp only [upd_shell, pinRises_shell]; done) | simp only [upd_shell, pinRises_shell] | split | with_reducible refine ite_shell ?_ ?_ | with_reducible refine (foldl_fst_shell _ _ _ (fun s a => ?_)).trans ?_ | with_reducible refine guarded_shell _ _ _ ?_ | with_reducible refine (foldl_shell _ _ _ (fun s a => ?_)).trans ?_)

theorem heldChannels_shell (h : HalfId) (s : State) :
    (heldChannels h s).shell = s.shell := by
  unfold heldChannels
  repeat' (first | with_reducible rfl | with_reducible exact free_shell _ _ | (simp only [upd_shell, evacBegin_shell]; done) | simp only [upd_shell, evacBegin_shell] | split | with_reducible refine ite_shell ?_ ?_ | with_reducible refine (foldl_fst_shell _ _ _ (fun s a => ?_)).trans ?_ | with_reducible refine guarded_shell _ _ _ ?_ | with_reducible refine (foldl_shell _ _ _ (fun s a => ?_)).trans ?_)

/-! Sequencers.lean -/

theorem safePointDo_shell (h : HalfId) (src : Nat) (s : State) :
    (safePointDo h src s).shell = s.shell := by
  unfold safePointDo
  repeat' (first | with_reducible rfl | with_reducible exact free_shell _ _ | (simp only [upd_shell, unitDown_shell, retireEngine_shell, react_shell]; done) | simp only [upd_shell, unitDown_shell, retireEngine_shell, react_shell] | split | with_reducible refine ite_shell ?_ ?_ | with_reducible refine (foldl_fst_shell _ _ _ (fun s a => ?_)).trans ?_ | with_reducible refine guarded_shell _ _ _ ?_ | with_reducible refine (foldl_shell _ _ _ (fun s a => ?_)).trans ?_)

theorem machineCheckDo_shell (h : HalfId) (src cause groups : Nat) (injected : Bool) (s : State) :
    (machineCheckDo h src cause groups injected s).shell = s.shell := by
  unfold machineCheckDo
  repeat' (first | with_reducible rfl | with_reducible exact free_shell _ _ | (simp only [upd_shell, latchHw_shell, event_shell, unitDown_shell]; done) | simp only [upd_shell, latchHw_shell, event_shell, unitDown_shell] | split | with_reducible refine ite_shell ?_ ?_ | with_reducible refine (foldl_fst_shell _ _ _ (fun s a => ?_)).trans ?_ | with_reducible refine guarded_shell _ _ _ ?_ | with_reducible refine (foldl_shell _ _ _ (fun s a => ?_)).trans ?_)

theorem wordRuns_shell (h : HalfId) (src : Nat) (w : BitVec 152) (next : Nat × List Nat) (ctu : Nat) (stalled : Bool) (s : State) :
    (wordRuns h src w next ctu stalled s).shell = s.shell := by
  unfold wordRuns
  repeat' (first | with_reducible rfl | with_reducible exact free_shell _ _ | (simp only [upd_shell, safePointDo_shell]; done) | simp only [upd_shell, safePointDo_shell] | split | with_reducible refine ite_shell ?_ ?_ | with_reducible refine (foldl_fst_shell _ _ _ (fun s a => ?_)).trans ?_ | with_reducible refine guarded_shell _ _ _ ?_ | with_reducible refine (foldl_shell _ _ _ (fun s a => ?_)).trans ?_)

theorem fetchDo_shell (h : HalfId) (src : Nat) (condition : Bool) (ctuType ctu : Nat) (stalled : Bool) (s : State) :
    (fetchDo h src condition ctuType ctu stalled s).shell = s.shell := by
  unfold fetchDo
  repeat' (first | with_reducible rfl | with_reducible exact free_shell _ _ | (simp only [upd_shell, machineCheckDo_shell, wordRuns_shell]; done) | simp only [upd_shell, machineCheckDo_shell, wordRuns_shell] | split | with_reducible refine ite_shell ?_ ?_ | with_reducible refine (foldl_fst_shell _ _ _ (fun s a => ?_)).trans ?_ | with_reducible refine guarded_shell _ _ _ ?_ | with_reducible refine (foldl_shell _ _ _ (fun s a => ?_)).trans ?_)

theorem readBackUnit_shell (h : HalfId) (s : State) (src : Nat) :
    (readBackUnit h s src).shell = s.shell := by
  unfold readBackUnit
  repeat' (first | with_reducible rfl | with_reducible exact free_shell _ _ | (simp only [upd_shell, latchHw_shell]; done) | simp only [upd_shell, latchHw_shell] | split | with_reducible refine ite_shell ?_ ?_ | with_reducible refine (foldl_fst_shell _ _ _ (fun s a => ?_)).trans ?_ | with_reducible refine guarded_shell _ _ _ ?_ | with_reducible refine (foldl_shell _ _ _ (fun s a => ?_)).trans ?_)

/-! Bridle.lean -/

theorem ptpTakes_shell (h : HalfId) (s : State) :
    (ptpTakes h s).shell = s.shell := by
  unfold ptpTakes
  repeat' (first | with_reducible rfl | with_reducible exact free_shell _ _ | (simp only [upd_shell, slaveLost_shell]; done) | simp only [upd_shell, slaveLost_shell] | split | with_reducible refine ite_shell ?_ ?_ | with_reducible refine (foldl_fst_shell _ _ _ (fun s a => ?_)).trans ?_ | with_reducible refine guarded_shell _ _ _ ?_ | with_reducible refine (foldl_shell _ _ _ (fun s a => ?_)).trans ?_)

theorem ptpSplit_shell (h : HalfId) (s : State) :
    (ptpSplit h s).shell = s.shell := by
  unfold ptpSplit
  repeat' (first | with_reducible rfl | with_reducible exact free_shell _ _ | (simp only [upd_shell, slaveLost_shell, ptpTakes_shell]; done) | simp only [upd_shell, slaveLost_shell, ptpTakes_shell] | split | with_reducible refine ite_shell ?_ ?_ | with_reducible refine (foldl_fst_shell _ _ _ (fun s a => ?_)).trans ?_ | with_reducible refine guarded_shell _ _ _ ?_ | with_reducible refine (foldl_shell _ _ _ (fun s a => ?_)).trans ?_)

theorem leadSet_shell (h : HalfId) (lead : Bool) (epoch : W32) (cause : Nat) (s : State) :
    (leadSet h lead epoch cause s).shell = s.shell := by
  unfold leadSet
  repeat' (first | with_reducible rfl | with_reducible exact free_shell _ _ | (simp only [upd_shell, event_shell, icuRaise_shell]; done) | simp only [upd_shell, event_shell, icuRaise_shell] | split | with_reducible refine ite_shell ?_ ?_ | with_reducible refine (foldl_fst_shell _ _ _ (fun s a => ?_)).trans ?_ | with_reducible refine guarded_shell _ _ _ ?_ | with_reducible refine (foldl_shell _ _ _ (fun s a => ?_)).trans ?_)

theorem takeLead_shell (h : HalfId) (cause : Nat) (s : State) :
    (takeLead h cause s).shell = s.shell := by
  unfold takeLead
  repeat' (first | with_reducible rfl | with_reducible exact free_shell _ _ | (simp only [upd_shell, latchHw_shell, ptpTakes_shell, leadSet_shell]; done) | simp only [upd_shell, latchHw_shell, ptpTakes_shell, leadSet_shell] | split | with_reducible refine ite_shell ?_ ?_ | with_reducible refine (foldl_fst_shell _ _ _ (fun s a => ?_)).trans ?_ | with_reducible refine guarded_shell _ _ _ ?_ | with_reducible refine (foldl_shell _ _ _ (fun s a => ?_)).trans ?_)

theorem askLead_shell (h : HalfId) (cause : Nat) (s : State) :
    (askLead h cause s).shell = s.shell := by
  unfold askLead
  repeat' (first | with_reducible rfl | with_reducible exact free_shell _ _ | (simp only [upd_shell, asrRequest_shell]; done) | simp only [upd_shell, asrRequest_shell] | split | with_reducible refine ite_shell ?_ ?_ | with_reducible refine (foldl_fst_shell _ _ _ (fun s a => ?_)).trans ?_ | with_reducible refine guarded_shell _ _ _ ?_ | with_reducible refine (foldl_shell _ _ _ (fun s a => ?_)).trans ?_)

theorem leadTrigger_shell (h : HalfId) (cause : Nat) (s : State) :
    (leadTrigger h cause s).shell = s.shell := by
  unfold leadTrigger
  repeat' (first | with_reducible rfl | with_reducible exact free_shell _ _ | (simp only [upd_shell, takeLead_shell, askLead_shell]; done) | simp only [upd_shell, takeLead_shell, askLead_shell] | split | with_reducible refine ite_shell ?_ ?_ | with_reducible refine (foldl_fst_shell _ _ _ (fun s a => ?_)).trans ?_ | with_reducible refine guarded_shell _ _ _ ?_ | with_reducible refine (foldl_shell _ _ _ (fun s a => ?_)).trans ?_)

theorem conflictDo_shell (h : HalfId) (s : State) :
    (conflictDo h s).shell = s.shell := by
  unfold conflictDo
  repeat' (first | with_reducible rfl | with_reducible exact free_shell _ _ | (simp only [upd_shell, latchHw_shell, event_shell, leadSet_shell]; done) | simp only [upd_shell, latchHw_shell, event_shell, leadSet_shell] | split | with_reducible refine ite_shell ?_ ?_ | with_reducible refine (foldl_fst_shell _ _ _ (fun s a => ?_)).trans ?_ | with_reducible refine guarded_shell _ _ _ ?_ | with_reducible refine (foldl_shell _ _ _ (fun s a => ?_)).trans ?_)

theorem assignLead_shell (h lead : HalfId) (epoch : W32) (s : State) :
    (assignLead h lead epoch s).shell = s.shell := by
  unfold assignLead
  repeat' (first | with_reducible rfl | with_reducible exact free_shell _ _ | (simp only [upd_shell, ptpTakes_shell, leadSet_shell]; done) | simp only [upd_shell, ptpTakes_shell, leadSet_shell] | split | with_reducible refine ite_shell ?_ ?_ | with_reducible refine (foldl_fst_shell _ _ _ (fun s a => ?_)).trans ?_ | with_reducible refine guarded_shell _ _ _ ?_ | with_reducible refine (foldl_shell _ _ _ (fun s a => ?_)).trans ?_)

theorem leadDefault_shell (h : HalfId) (s : State) :
    (leadDefault h s).shell = s.shell := by
  unfold leadDefault
  repeat' (first | with_reducible rfl | with_reducible exact free_shell _ _ | (simp only [upd_shell, takeLead_shell, conflictDo_shell]; done) | simp only [upd_shell, takeLead_shell, conflictDo_shell] | split | with_reducible refine ite_shell ?_ ?_ | with_reducible refine (foldl_fst_shell _ _ _ (fun s a => ?_)).trans ?_ | with_reducible refine guarded_shell _ _ _ ?_ | with_reducible refine (foldl_shell _ _ _ (fun s a => ?_)).trans ?_)

theorem ownSessions_shell (h : HalfId) (flows : List FlowSeq) (s : State) :
    (ownSessions h flows s).shell = s.shell := by
  unfold ownSessions
  repeat' (first | with_reducible rfl | with_reducible exact free_shell _ _ | (simp only [upd_shell, activate_shell, twinSwitch_shell, moveFlow_shell]; done) | simp only [upd_shell, activate_shell, twinSwitch_shell, moveFlow_shell] | split | with_reducible refine ite_shell ?_ ?_ | with_reducible refine (foldl_fst_shell _ _ _ (fun s a => ?_)).trans ?_ | with_reducible refine guarded_shell _ _ _ ?_ | with_reducible refine (foldl_shell _ _ _ (fun s a => ?_)).trans ?_)

theorem takeSession_shell (h : HalfId) (f : FlowSt) (s : State) :
    (takeSession h f s).shell = s.shell := by
  unfold takeSession
  repeat' (first | with_reducible rfl | with_reducible exact free_shell _ _ | (simp only [upd_shell, enterUndercoat_shell, strand_shell, movedEvent_shell]; done) | simp only [upd_shell, enterUndercoat_shell, strand_shell, movedEvent_shell] | split | with_reducible refine ite_shell ?_ ?_ | with_reducible refine (foldl_fst_shell _ _ _ (fun s a => ?_)).trans ?_ | with_reducible refine guarded_shell _ _ _ ?_ | with_reducible refine (foldl_shell _ _ _ (fun s a => ?_)).trans ?_)

theorem foreignSessions_shell (h : HalfId) (s : State) :
    (foreignSessions h s).shell = s.shell := by
  unfold foreignSessions
  repeat' (first | with_reducible rfl | with_reducible exact free_shell _ _ | (simp only [upd_shell, takeSession_shell]; done) | simp only [upd_shell, takeSession_shell] | split | with_reducible refine ite_shell ?_ ?_ | with_reducible refine (foldl_fst_shell _ _ _ (fun s a => ?_)).trans ?_ | with_reducible refine guarded_shell _ _ _ ?_ | with_reducible refine (foldl_shell _ _ _ (fun s a => ?_)).trans ?_)

theorem partnerGone_shell (h : HalfId) (cause : Nat) (stopped : Option (List FlowSeq)) (s : State) :
    (partnerGone h cause stopped s).shell = s.shell := by
  unfold partnerGone
  repeat' (first | with_reducible rfl | with_reducible exact free_shell _ _ | (simp only [upd_shell, emit_shell, event_shell, leadTrigger_shell, ownSessions_shell, foreignSessions_shell]; done) | simp only [upd_shell, emit_shell, event_shell, leadTrigger_shell, ownSessions_shell, foreignSessions_shell] | split | with_reducible refine ite_shell ?_ ?_ | with_reducible refine (foldl_fst_shell _ _ _ (fun s a => ?_)).trans ?_ | with_reducible refine guarded_shell _ _ _ ?_ | with_reducible refine (foldl_shell _ _ _ (fun s a => ?_)).trans ?_)

theorem linkGone_shell (h : HalfId) (s : State) :
    (linkGone h s).shell = s.shell := by
  unfold linkGone
  repeat' (first | with_reducible rfl | with_reducible exact free_shell _ _ | (simp only [upd_shell, strand_shell, twinSwitch_shell]; done) | simp only [upd_shell, strand_shell, twinSwitch_shell] | split | with_reducible refine ite_shell ?_ ?_ | with_reducible refine (foldl_fst_shell _ _ _ (fun s a => ?_)).trans ?_ | with_reducible refine guarded_shell _ _ _ ?_ | with_reducible refine (foldl_shell _ _ _ (fun s a => ?_)).trans ?_)

theorem flowBack_shell (h : HalfId) (fl : Handle) (s : State) :
    (flowBack h fl s).shell = s.shell := by
  unfold flowBack
  repeat' (first | with_reducible rfl | with_reducible exact free_shell _ _ | (simp only [upd_shell, flowTo_shell]; done) | simp only [upd_shell, flowTo_shell] | split | with_reducible refine ite_shell ?_ ?_ | with_reducible refine (foldl_fst_shell _ _ _ (fun s a => ?_)).trans ?_ | with_reducible refine guarded_shell _ _ _ ?_ | with_reducible refine (foldl_shell _ _ _ (fun s a => ?_)).trans ?_)

theorem rejoin_shell (h : HalfId) (s : State) :
    (rejoin h s).shell = s.shell := by
  unfold rejoin
  repeat' (first | with_reducible rfl | with_reducible exact free_shell _ _ | (simp only [upd_shell, emit_shell, requestOnce_shell, flowBack_shell]; done) | simp only [upd_shell, emit_shell, requestOnce_shell, flowBack_shell] | split | with_reducible refine ite_shell ?_ ?_ | with_reducible refine (foldl_fst_shell _ _ _ (fun s a => ?_)).trans ?_ | with_reducible refine guarded_shell _ _ _ ?_ | with_reducible refine (foldl_shell _ _ _ (fun s a => ?_)).trans ?_)

theorem rejoinDue_shell (h : HalfId) (s : State) :
    (rejoinDue h s).shell = s.shell := by
  unfold rejoinDue
  repeat' (first | with_reducible rfl | with_reducible exact free_shell _ _ | (simp only [upd_shell, twinRestartFor_shell, rejoin_shell]; done) | simp only [upd_shell, twinRestartFor_shell, rejoin_shell] | split | with_reducible refine ite_shell ?_ ?_ | with_reducible refine (foldl_fst_shell _ _ _ (fun s a => ?_)).trans ?_ | with_reducible refine guarded_shell _ _ _ ?_ | with_reducible refine (foldl_shell _ _ _ (fun s a => ?_)).trans ?_)

theorem seqReports_shell (h : HalfId) (s : State) :
    (seqReports h s).shell = s.shell := by
  unfold seqReports
  repeat' (first | with_reducible rfl | with_reducible exact free_shell _ _ | (simp only [upd_shell, emit_shell]; done) | simp only [upd_shell, emit_shell] | split | with_reducible refine ite_shell ?_ ?_ | with_reducible refine (foldl_fst_shell _ _ _ (fun s a => ?_)).trans ?_ | with_reducible refine guarded_shell _ _ _ ?_ | with_reducible refine (foldl_shell _ _ _ (fun s a => ?_)).trans ?_)

theorem halfIdle_shell (h : HalfId) (s : State) :
    (halfIdle h s).shell = s.shell := by
  unfold halfIdle
  repeat' (first | with_reducible rfl | with_reducible exact free_shell _ _ | (simp only [upd_shell, instantOut_shell, takeUnknown_shell, settle_shell, checkersMeet_shell, heldChannels_shell, rejoinDue_shell, seqReports_shell]; done) | simp only [upd_shell, instantOut_shell, takeUnknown_shell, settle_shell, checkersMeet_shell, heldChannels_shell, rejoinDue_shell, seqReports_shell] | split | with_reducible refine ite_shell ?_ ?_ | with_reducible refine (foldl_fst_shell _ _ _ (fun s a => ?_)).trans ?_ | with_reducible refine guarded_shell _ _ _ ?_ | with_reducible refine (foldl_shell _ _ _ (fun s a => ?_)).trans ?_)

theorem idleStep_shell (s : State) :
    (idleStep s).shell = s.shell := by
  unfold idleStep
  repeat' (first | with_reducible rfl | with_reducible exact free_shell _ _ | (simp only [upd_shell, deviceTick_shell, halfIdle_shell]; done) | simp only [upd_shell, deviceTick_shell, halfIdle_shell] | split | with_reducible refine ite_shell ?_ ?_ | with_reducible refine (foldl_fst_shell _ _ _ (fun s a => ?_)).trans ?_ | with_reducible refine guarded_shell _ _ _ ?_ | with_reducible refine (foldl_shell _ _ _ (fun s a => ?_)).trans ?_)

/-! Streams.lean -/

theorem startEncode_shell (h : HalfId) (obj : Handle) (base : Nat) (s : State) :
    (startEncode h obj base s).shell = s.shell := by
  unfold startEncode
  repeat' (first | with_reducible rfl | with_reducible exact free_shell _ _ | (simp only [upd_shell]; done) | simp only [upd_shell] | split | with_reducible refine ite_shell ?_ ?_ | with_reducible refine (foldl_fst_shell _ _ _ (fun s a => ?_)).trans ?_ | with_reducible refine guarded_shell _ _ _ ?_ | with_reducible refine (foldl_shell _ _ _ (fun s a => ?_)).trans ?_)

theorem startDecode_shell (h : HalfId) (obj : Handle) (s : State) :
    (startDecode h obj s).shell = s.shell := by
  unfold startDecode
  repeat' (first | with_reducible rfl | with_reducible exact free_shell _ _ | (simp only [upd_shell, requestOnce_shell]; done) | simp only [upd_shell, requestOnce_shell] | split | with_reducible refine ite_shell ?_ ?_ | with_reducible refine (foldl_fst_shell _ _ _ (fun s a => ?_)).trans ?_ | with_reducible refine guarded_shell _ _ _ ?_ | with_reducible refine (foldl_shell _ _ _ (fun s a => ?_)).trans ?_)

theorem startFlow_shell (h : HalfId) (obj : Handle) (base : Nat) (s : State) :
    (startFlow h obj base s).shell = s.shell := by
  unfold startFlow
  repeat' (first | with_reducible rfl | with_reducible exact free_shell _ _ | (simp only [upd_shell]; done) | simp only [upd_shell] | split | with_reducible refine ite_shell ?_ ?_ | with_reducible refine (foldl_fst_shell _ _ _ (fun s a => ?_)).trans ?_ | with_reducible refine guarded_shell _ _ _ ?_ | with_reducible refine (foldl_shell _ _ _ (fun s a => ?_)).trans ?_)

theorem startObject_shell (h : HalfId) (base : Nat) (obj : Handle) (s : State) :
    (startObject h base obj s).shell = s.shell := by
  unfold startObject
  repeat' (first | with_reducible rfl | with_reducible exact free_shell _ _ | (simp only [upd_shell, startEncode_shell, startDecode_shell, startFlow_shell]; done) | simp only [upd_shell, startEncode_shell, startDecode_shell, startFlow_shell] | split | with_reducible refine ite_shell ?_ ?_ | with_reducible refine (foldl_fst_shell _ _ _ (fun s a => ?_)).trans ?_ | with_reducible refine guarded_shell _ _ _ ?_ | with_reducible refine (foldl_shell _ _ _ (fun s a => ?_)).trans ?_)

theorem streamStops_shell (h : HalfId) (fl : Handle) (s : State) :
    (streamStops h fl s).shell = s.shell := by
  unfold streamStops
  repeat' (first | with_reducible rfl | with_reducible exact free_shell _ _ | (simp only [upd_shell, emit_shell, finishOpen_shell, enterUndercoat_shell]; done) | simp only [upd_shell, emit_shell, finishOpen_shell, enterUndercoat_shell] | split | with_reducible refine ite_shell ?_ ?_ | with_reducible refine (foldl_fst_shell _ _ _ (fun s a => ?_)).trans ?_ | with_reducible refine guarded_shell _ _ _ ?_ | with_reducible refine (foldl_shell _ _ _ (fun s a => ?_)).trans ?_)

theorem stopEncode_shell (h : HalfId) (obj : Handle) (s : State) :
    (stopEncode h obj s).shell = s.shell := by
  unfold stopEncode
  repeat' (first | with_reducible rfl | with_reducible exact free_shell _ _ | (simp only [upd_shell, rejoin_shell, streamStops_shell]; done) | simp only [upd_shell, rejoin_shell, streamStops_shell] | split | with_reducible refine ite_shell ?_ ?_ | with_reducible refine (foldl_fst_shell _ _ _ (fun s a => ?_)).trans ?_ | with_reducible refine guarded_shell _ _ _ ?_ | with_reducible refine (foldl_shell _ _ _ (fun s a => ?_)).trans ?_)

theorem stopCanvas_shell (h : HalfId) (obj : Handle) (s : State) :
    (stopCanvas h obj s).shell = s.shell := by
  unfold stopCanvas
  repeat' (first | with_reducible rfl | with_reducible exact free_shell _ _ | (simp only [upd_shell, repeatPicture_shell]; done) | simp only [upd_shell, repeatPicture_shell] | split | with_reducible refine ite_shell ?_ ?_ | with_reducible refine (foldl_fst_shell _ _ _ (fun s a => ?_)).trans ?_ | with_reducible refine guarded_shell _ _ _ ?_ | with_reducible refine (foldl_shell _ _ _ (fun s a => ?_)).trans ?_)

theorem stopFlow_shell (h : HalfId) (obj : Handle) (s : State) :
    (stopFlow h obj s).shell = s.shell := by
  unfold stopFlow
  repeat' (first | with_reducible rfl | with_reducible exact free_shell _ _ | (simp only [upd_shell, emit_shell, finishOpen_shell]; done) | simp only [upd_shell, emit_shell, finishOpen_shell] | split | with_reducible refine ite_shell ?_ ?_ | with_reducible refine (foldl_fst_shell _ _ _ (fun s a => ?_)).trans ?_ | with_reducible refine guarded_shell _ _ _ ?_ | with_reducible refine (foldl_shell _ _ _ (fun s a => ?_)).trans ?_)

theorem stopObject_shell (h : HalfId) (obj : Handle) (s : State) :
    (stopObject h obj s).shell = s.shell := by
  unfold stopObject
  repeat' (first | with_reducible rfl | with_reducible exact free_shell _ _ | (simp only [upd_shell, stopEncode_shell, stopCanvas_shell, stopFlow_shell]; done) | simp only [upd_shell, stopEncode_shell, stopCanvas_shell, stopFlow_shell] | split | with_reducible refine ite_shell ?_ ?_ | with_reducible refine (foldl_fst_shell _ _ _ (fun s a => ?_)).trans ?_ | with_reducible refine guarded_shell _ _ _ ?_ | with_reducible refine (foldl_shell _ _ _ (fun s a => ?_)).trans ?_)

theorem endDrains_shell (h : HalfId) (obj : Handle) (s : State) :
    (endDrains h obj s).shell = s.shell := by
  unfold endDrains
  repeat' (first | with_reducible rfl | with_reducible exact free_shell _ _ | (simp only [upd_shell, deferredEnd_shell]; done) | simp only [upd_shell, deferredEnd_shell] | split | with_reducible refine ite_shell ?_ ?_ | with_reducible refine (foldl_fst_shell _ _ _ (fun s a => ?_)).trans ?_ | with_reducible refine guarded_shell _ _ _ ?_ | with_reducible refine (foldl_shell _ _ _ (fun s a => ?_)).trans ?_)

theorem cancelStarts_shell (h : HalfId) (obj : Handle) (s : State) :
    (cancelStarts h obj s).shell = s.shell := by
  unfold cancelStarts
  repeat' (first | with_reducible rfl | with_reducible exact free_shell _ _ | (simp only [upd_shell, deferredEnd_shell]; done) | simp only [upd_shell, deferredEnd_shell] | split | with_reducible refine ite_shell ?_ ?_ | with_reducible refine (foldl_fst_shell _ _ _ (fun s a => ?_)).trans ?_ | with_reducible refine guarded_shell _ _ _ ?_ | with_reducible refine (foldl_shell _ _ _ (fun s a => ?_)).trans ?_)

theorem runDo_shell (h : HalfId) (action base : Nat) (obj : Handle) (s : State) :
    (runDo h action base obj s).shell = s.shell := by
  unfold runDo
  repeat' (first | with_reducible rfl | with_reducible exact free_shell _ _ | (simp only [upd_shell, startObject_shell, stopObject_shell]; done) | simp only [upd_shell, startObject_shell, stopObject_shell] | split | with_reducible refine ite_shell ?_ ?_ | with_reducible refine (foldl_fst_shell _ _ _ (fun s a => ?_)).trans ?_ | with_reducible refine guarded_shell _ _ _ ?_ | with_reducible refine (foldl_shell _ _ _ (fun s a => ?_)).trans ?_)

theorem runLater_shell (h : HalfId) (op action : Nat) (e : CmdEntry) (t : Nat) (s : State) :
    (runLater h op action e t s).shell = s.shell := by
  unfold runLater
  repeat' (first | with_reducible rfl | with_reducible exact free_shell _ _ | (simp only [upd_shell, emit_shell, addDeferred_shell]; done) | simp only [upd_shell, emit_shell, addDeferred_shell] | split | with_reducible refine ite_shell ?_ ?_ | with_reducible refine (foldl_fst_shell _ _ _ (fun s a => ?_)).trans ?_ | with_reducible refine guarded_shell _ _ _ ?_ | with_reducible refine (foldl_shell _ _ _ (fun s a => ?_)).trans ?_)

theorem runBody_shell (h : HalfId) (op action : Nat) (e : CmdEntry) (s : State) :
    (runBody h op action e s).state.shell = s.shell := by
  unfold runBody
  repeat' (first | with_reducible rfl | with_reducible exact free_shell _ _ | (simp only [Reply.ok_shell, Reply.later_shell, Reply.fail_shell, Reply.wait_shell, upd_shell, guarded_shell, addDeferred_shell, endDrains_shell, cancelStarts_shell, runDo_shell, runLater_shell]; done) | simp only [Reply.ok_shell, Reply.later_shell, Reply.fail_shell, Reply.wait_shell, upd_shell, guarded_shell, addDeferred_shell, endDrains_shell, cancelStarts_shell, runDo_shell, runLater_shell] | split | with_reducible refine ite_shell ?_ ?_ | with_reducible refine (foldl_fst_shell _ _ _ (fun s a => ?_)).trans ?_ | with_reducible refine guarded_shell _ _ _ ?_ | with_reducible refine (foldl_shell _ _ _ (fun s a => ?_)).trans ?_)

theorem deferredOut_shell (h : HalfId) (d : Deferred) (status flags : Nat) (s : State) :
    (deferredOut h d status flags s).shell = s.shell := by
  unfold deferredOut
  repeat' (first | with_reducible rfl | with_reducible exact free_shell _ _ | (simp only [upd_shell, deferredEnd_shell]; done) | simp only [upd_shell, deferredEnd_shell] | split | with_reducible refine ite_shell ?_ ?_ | with_reducible refine (foldl_fst_shell _ _ _ (fun s a => ?_)).trans ?_ | with_reducible refine guarded_shell _ _ _ ?_ | with_reducible refine (foldl_shell _ _ _ (fun s a => ?_)).trans ?_)

theorem runDue_shell (h : HalfId) (d : Deferred) (action : Nat) (s : State) :
    (runDue h d action s).shell = s.shell := by
  unfold runDue
  repeat' (first | with_reducible rfl | with_reducible exact free_shell _ _ | (simp only [upd_shell, stopObject_shell, endDrains_shell, runDo_shell, deferredOut_shell]; done) | simp only [upd_shell, stopObject_shell, endDrains_shell, runDo_shell, deferredOut_shell] | split | with_reducible refine ite_shell ?_ ?_ | with_reducible refine (foldl_fst_shell _ _ _ (fun s a => ?_)).trans ?_ | with_reducible refine guarded_shell _ _ _ ?_ | with_reducible refine (foldl_shell _ _ _ (fun s a => ?_)).trans ?_)

theorem forwardedDo_shell (h : HalfId) (c : Forwarded) (s : State) :
    (forwardedDo h c s).shell = s.shell := by
  unfold forwardedDo
  repeat' (first | with_reducible rfl | with_reducible exact free_shell _ _ | (simp only [upd_shell, cancelStarts_shell]; done) | simp only [upd_shell, cancelStarts_shell] | split | with_reducible refine ite_shell ?_ ?_ | with_reducible refine (foldl_fst_shell _ _ _ (fun s a => ?_)).trans ?_ | with_reducible refine guarded_shell _ _ _ ?_ | with_reducible refine (foldl_shell _ _ _ (fun s a => ?_)).trans ?_)

/-! Queries.lean -/

theorem surgeClear_shell (h : HalfId) (s : State) :
    (surgeClear h s).shell = s.shell := by
  unfold surgeClear
  repeat' (first | with_reducible rfl | with_reducible exact free_shell _ _ | (simp only [upd_shell]; done) | simp only [upd_shell] | split | with_reducible refine ite_shell ?_ ?_ | with_reducible refine (foldl_fst_shell _ _ _ (fun s a => ?_)).trans ?_ | with_reducible refine guarded_shell _ _ _ ?_ | with_reducible refine (foldl_shell _ _ _ (fun s a => ?_)).trans ?_)

/-! Delivery.lean -/

theorem drainAssist_shell (n : Nat) (h : HalfId) (s : State) : (drainAssist n h s).shell = s.shell := by
  induction n generalizing s with
  | zero => rfl
  | succ n ih =>
    unfold drainAssist
    repeat' (first | rfl | simp only [upd_shell, asrWrite_shell, ih] | split)
theorem requestDefault_shell (h : HalfId) (a : AsrEntry) (s : State) :
    (requestDefault h a s).shell = s.shell := by
  unfold requestDefault
  repeat' (first | with_reducible rfl | with_reducible exact free_shell _ _ | (simp only [upd_shell, assistLate_shell, removeIdle_shell, concealLate_shell, markDefault_shell, leadDefault_shell]; done) | simp only [upd_shell, assistLate_shell, removeIdle_shell, concealLate_shell, markDefault_shell, leadDefault_shell] | split | with_reducible refine ite_shell ?_ ?_ | with_reducible refine (foldl_fst_shell _ _ _ (fun s a => ?_)).trans ?_ | with_reducible refine guarded_shell _ _ _ ?_ | with_reducible refine (foldl_shell _ _ _ (fun s a => ?_)).trans ?_)

/-! Registers.lean -/

theorem dmaStatusClear_shell (h : HalfId) (c v : Nat) (s : State) :
    (dmaStatusClear h c v s).shell = s.shell := by
  unfold dmaStatusClear
  repeat' (first | with_reducible rfl | with_reducible exact free_shell _ _ | (simp only [upd_shell]; done) | simp only [upd_shell] | split | with_reducible refine ite_shell ?_ ?_ | with_reducible refine (foldl_fst_shell _ _ _ (fun s a => ?_)).trans ?_ | with_reducible refine guarded_shell _ _ _ ?_ | with_reducible refine (foldl_shell _ _ _ (fun s a => ?_)).trans ?_)

theorem unitEnableWrite_shell (h : HalfId) (k : UnitKind) (v : Nat) (s : State) :
    (unitEnableWrite h k v s).shell = s.shell := by
  unfold unitEnableWrite
  repeat' (first | with_reducible rfl | with_reducible exact free_shell _ _ | (simp only [upd_shell, enableClear_shell, enableSet_shell]; done) | simp only [upd_shell, enableClear_shell, enableSet_shell] | split | with_reducible refine ite_shell ?_ ?_ | with_reducible refine (foldl_fst_shell _ _ _ (fun s a => ?_)).trans ?_ | with_reducible refine guarded_shell _ _ _ ?_ | with_reducible refine (foldl_shell _ _ _ (fun s a => ?_)).trans ?_)

theorem dmaWordWrite_shell (h : HalfId) (c off v : Nat) (s : State) :
    (dmaWordWrite h c off v s).shell = s.shell := by
  unfold dmaWordWrite
  repeat' (first | with_reducible rfl | with_reducible exact free_shell _ _ | (simp only [upd_shell, dmaKickDo_shell, dmaCtrlDo_shell, dmaDisableDo_shell, dmaStatusClear_shell]; done) | simp only [upd_shell, dmaKickDo_shell, dmaCtrlDo_shell, dmaDisableDo_shell, dmaStatusClear_shell] | split | with_reducible refine ite_shell ?_ ?_ | with_reducible refine (foldl_fst_shell _ _ _ (fun s a => ?_)).trans ?_ | with_reducible refine guarded_shell _ _ _ ?_ | with_reducible refine (foldl_shell _ _ _ (fun s a => ?_)).trans ?_)

theorem icuWordWrite_shell (endpoint icu : HalfId) (off v : Nat) (s : State) :
    (icuWordWrite endpoint icu off v s).shell = s.shell := by
  unfold icuWordWrite
  repeat' (first | with_reducible rfl | with_reducible exact free_shell _ _ | (simp only [upd_shell, icuHostEntry_shell, icuClaimWrite_shell, icuSetWrite_shell]; done) | simp only [upd_shell, icuHostEntry_shell, icuClaimWrite_shell, icuSetWrite_shell] | split | with_reducible refine ite_shell ?_ ?_ | with_reducible refine (foldl_fst_shell _ _ _ (fun s a => ?_)).trans ?_ | with_reducible refine guarded_shell _ _ _ ?_ | with_reducible refine (foldl_shell _ _ _ (fun s a => ?_)).trans ?_)

theorem msixWordWrite_shell (h : HalfId) (off v : Nat) (s : State) :
    (msixWordWrite h off v s).shell = s.shell := by
  unfold msixWordWrite
  repeat' (first | with_reducible rfl | with_reducible exact free_shell _ _ | (simp only [upd_shell, msixMaskWrite_shell]; done) | simp only [upd_shell, msixMaskWrite_shell] | split | with_reducible refine ite_shell ?_ ?_ | with_reducible refine (foldl_fst_shell _ _ _ (fun s a => ?_)).trans ?_ | with_reducible refine guarded_shell _ _ _ ?_ | with_reducible refine (foldl_shell _ _ _ (fun s a => ?_)).trans ?_)

theorem wordWrite_shell (h : HalfId) (off v : Nat) (s : State) :
    (wordWrite h off v s).shell = s.shell := by
  unfold wordWrite
  repeat' (first | with_reducible rfl | with_reducible exact free_shell _ _ | (simp only [upd_shell, writeCmdqTail_shell, writeCplqHead_shell, writeEvtqHead_shell, writeAsqTail_shell, writeAsrHead_shell, dmaErrClearDo_shell, unitEnableWrite_shell, dmaWordWrite_shell, icuWordWrite_shell, msixWordWrite_shell]; done) | simp only [upd_shell, writeCmdqTail_shell, writeCplqHead_shell, writeEvtqHead_shell, writeAsqTail_shell, writeAsrHead_shell, dmaErrClearDo_shell, unitEnableWrite_shell, dmaWordWrite_shell, icuWordWrite_shell, msixWordWrite_shell] | split | with_reducible refine ite_shell ?_ ?_ | with_reducible refine (foldl_fst_shell _ _ _ (fun s a => ?_)).trans ?_ | with_reducible refine guarded_shell _ _ _ ?_ | with_reducible refine (foldl_shell _ _ _ (fun s a => ?_)).trans ?_)

theorem longWrite_shell (h : HalfId) (off v : Nat) (s : State) :
    (longWrite h off v s).shell = s.shell := by
  unfold longWrite
  repeat' (first | with_reducible rfl | with_reducible exact free_shell _ _ | (simp only [upd_shell, dmaChainDo_shell, wordWrite_shell]; done) | simp only [upd_shell, dmaChainDo_shell, wordWrite_shell] | split | with_reducible refine ite_shell ?_ ?_ | with_reducible refine (foldl_fst_shell _ _ _ (fun s a => ?_)).trans ?_ | with_reducible refine guarded_shell _ _ _ ?_ | with_reducible refine (foldl_shell _ _ _ (fun s a => ?_)).trans ?_)

theorem registerDo_shell (h : HalfId) (off width v : Nat) (s : State) :
    (registerDo h off width v s).shell = s.shell := by
  unfold registerDo
  repeat' (first | with_reducible rfl | with_reducible exact free_shell _ _ | (simp only [upd_shell, wordWrite_shell, longWrite_shell]; done) | simp only [upd_shell, wordWrite_shell, longWrite_shell] | split | with_reducible refine ite_shell ?_ ?_ | with_reducible refine (foldl_fst_shell _ _ _ (fun s a => ?_)).trans ?_ | with_reducible refine guarded_shell _ _ _ ?_ | with_reducible refine (foldl_shell _ _ _ (fun s a => ?_)).trans ?_)

end Sys2Proof.Machine
end

