-- ==== Sys2Proof/Laws/ShellExec.lean ====
section
/-!
SUPPORT. ShellExec.lean: every command that neither writes host memory nor the flash keeps the shell of the state.
-/
namespace Sys2Proof.Machine

set_option linter.all false

/-! Doorbells.lean -/

theorem execCmdqTailWrite_shell (h : HalfId) (value : W32) (s : State) (t : State)
    (ht : execCmdqTailWrite h value s = .next t) : t.shell = s.shell := by
  unfold execCmdqTailWrite at ht
  injection ht with ht
  rw [← ht]
  repeat' (first | with_reducible rfl | (simp only [upd_shell, writeCmdqTail_shell]; done) | simp only [upd_shell, writeCmdqTail_shell] | split | with_reducible refine ite_shell ?_ ?_ | with_reducible refine hostWriteTo_shell _ _ _ (fun u => ?_))

theorem execCplqHeadWrite_shell (h : HalfId) (value : W32) (s : State) (t : State)
    (ht : execCplqHeadWrite h value s = .next t) : t.shell = s.shell := by
  unfold execCplqHeadWrite at ht
  injection ht with ht
  rw [← ht]
  repeat' (first | with_reducible rfl | (simp only [upd_shell, writeCplqHead_shell]; done) | simp only [upd_shell, writeCplqHead_shell] | split | with_reducible refine ite_shell ?_ ?_ | with_reducible refine hostWriteTo_shell _ _ _ (fun u => ?_))

theorem execEvtqHeadWrite_shell (h : HalfId) (value : W32) (s : State) (t : State)
    (ht : execEvtqHeadWrite h value s = .next t) : t.shell = s.shell := by
  unfold execEvtqHeadWrite at ht
  injection ht with ht
  rw [← ht]
  repeat' (first | with_reducible rfl | (simp only [upd_shell, writeEvtqHead_shell]; done) | simp only [upd_shell, writeEvtqHead_shell] | split | with_reducible refine ite_shell ?_ ?_ | with_reducible refine hostWriteTo_shell _ _ _ (fun u => ?_))

theorem execAsqTailWrite_shell (h : HalfId) (value : W32) (s : State) (t : State)
    (ht : execAsqTailWrite h value s = .next t) : t.shell = s.shell := by
  unfold execAsqTailWrite at ht
  injection ht with ht
  rw [← ht]
  repeat' (first | with_reducible rfl | (simp only [upd_shell, writeAsqTail_shell]; done) | simp only [upd_shell, writeAsqTail_shell] | split | with_reducible refine ite_shell ?_ ?_ | with_reducible refine hostWriteTo_shell _ _ _ (fun u => ?_))

theorem execAsrHeadWrite_shell (h : HalfId) (value : W32) (s : State) (t : State)
    (ht : execAsrHeadWrite h value s = .next t) : t.shell = s.shell := by
  unfold execAsrHeadWrite at ht
  injection ht with ht
  rw [← ht]
  repeat' (first | with_reducible rfl | (simp only [upd_shell, writeAsrHead_shell]; done) | simp only [upd_shell, writeAsrHead_shell] | split | with_reducible refine ite_shell ?_ ?_ | with_reducible refine hostWriteTo_shell _ _ _ (fun u => ?_))

theorem execIcuSrcCfgWrite_shell (endpoint icu : HalfId) (source : Nat) (value : W32) (s : State) (t : State)
    (ht : execIcuSrcCfgWrite endpoint icu source value s = .next t) : t.shell = s.shell := by
  unfold execIcuSrcCfgWrite at ht
  injection ht with ht
  rw [← ht]
  repeat' (first | with_reducible rfl | (simp only [upd_shell, icuHostEntry_shell]; done) | simp only [upd_shell, icuHostEntry_shell] | split | with_reducible refine ite_shell ?_ ?_ | with_reducible refine hostWriteTo_shell _ _ _ (fun u => ?_))

theorem execIcuSet_shell (r : Requester) (icu : HalfId) (number : W32) (s : State) (t : State)
    (ht : execIcuSet r icu number s = .next t) : t.shell = s.shell := by
  unfold execIcuSet at ht
  injection ht with ht
  rw [← ht]
  repeat' (first | with_reducible rfl | (simp only [upd_shell, icuSetWrite_shell]; done) | simp only [upd_shell, icuSetWrite_shell] | split | with_reducible refine ite_shell ?_ ?_ | with_reducible refine hostWriteTo_shell _ _ _ (fun u => ?_))

theorem execIcuClaim_shell (r : Requester) (icu : HalfId) (number : W32) (s : State) (t : State)
    (ht : execIcuClaim r icu number s = .next t) : t.shell = s.shell := by
  unfold execIcuClaim at ht
  injection ht with ht
  rw [← ht]
  repeat' (first | with_reducible rfl | (simp only [upd_shell, icuClaimWrite_shell]; done) | simp only [upd_shell, icuClaimWrite_shell] | split | with_reducible refine ite_shell ?_ ?_ | with_reducible refine hostWriteTo_shell _ _ _ (fun u => ?_))

theorem execIcuPartnerClaimDone_shell (endpoint : HalfId) (s : State) (t : State)
    (ht : execIcuPartnerClaimDone endpoint s = .next t) : t.shell = s.shell := by
  unfold execIcuPartnerClaimDone at ht
  injection ht with ht
  rw [← ht]
  repeat' (first | with_reducible rfl | (simp only [upd_shell, icuTake_shell, icuResult_shell]; done) | simp only [upd_shell, icuTake_shell, icuResult_shell] | split | with_reducible refine ite_shell ?_ ?_)

theorem execMsixUnmask_shell (h : HalfId) (vector : Nat) (s : State) (t : State)
    (ht : execMsixUnmask h vector s = .next t) : t.shell = s.shell := by
  unfold execMsixUnmask at ht
  injection ht with ht
  rw [← ht]
  repeat' (first | with_reducible rfl | (simp only [upd_shell, msixMaskWrite_shell]; done) | simp only [upd_shell, msixMaskWrite_shell] | split | with_reducible refine ite_shell ?_ ?_ | with_reducible refine hostWriteTo_shell _ _ _ (fun u => ?_))

theorem execIcuParityFailure_shell (h : HalfId) (source : Nat) (s : State) (t : State)
    (ht : execIcuParityFailure h source s = .next t) : t.shell = s.shell := by
  unfold execIcuParityFailure at ht
  injection ht with ht
  rw [← ht]
  repeat' (first | with_reducible rfl | (simp only [upd_shell, icuParityFail_shell]; done) | simp only [upd_shell, icuParityFail_shell] | split | with_reducible refine ite_shell ?_ ?_)

/-! HostDma.lean -/

theorem execBar4Access_shell (h : HalfId) (op : Bar4Op) (s : State) (t : State)
    (ht : execBar4Access h op s = .next t) : t.shell = s.shell := by
  unfold execBar4Access at ht
  injection ht with ht
  rw [← ht]
  repeat' (first | with_reducible rfl | (simp only [upd_shell, bar4Do_shell]; done) | simp only [upd_shell, bar4Do_shell] | split | with_reducible refine ite_shell ?_ ?_ | with_reducible refine hostWriteTo_shell _ _ _ (fun u => ?_))

theorem execBar2Write_shell (h : HalfId) (offset : Nat) (bytes : List Byte) (s : State) (t : State)
    (ht : execBar2Write h offset bytes s = .next t) : t.shell = s.shell := by
  unfold execBar2Write at ht
  injection ht with ht
  rw [← ht]
  repeat' (first | with_reducible rfl | (simp only [upd_shell]; done) | simp only [upd_shell] | split | with_reducible refine ite_shell ?_ ?_ | with_reducible refine hostWriteTo_shell _ _ _ (fun u => ?_))

theorem execDmaKick_shell (h : HalfId) (channel : Nat) (s : State) (t : State)
    (ht : execDmaKick h channel s = .next t) : t.shell = s.shell := by
  unfold execDmaKick at ht
  injection ht with ht
  rw [← ht]
  repeat' (first | with_reducible rfl | (simp only [upd_shell, dmaKickDo_shell]; done) | simp only [upd_shell, dmaKickDo_shell] | split | with_reducible refine ite_shell ?_ ?_ | with_reducible refine hostWriteTo_shell _ _ _ (fun u => ?_))

theorem execDmaChainWrite_shell (h : HalfId) (channel : Nat) (address : W64) (s : State) (t : State)
    (ht : execDmaChainWrite h channel address s = .next t) : t.shell = s.shell := by
  unfold execDmaChainWrite at ht
  injection ht with ht
  rw [← ht]
  repeat' (first | with_reducible rfl | (simp only [upd_shell, dmaChainDo_shell]; done) | simp only [upd_shell, dmaChainDo_shell] | split | with_reducible refine ite_shell ?_ ?_ | with_reducible refine hostWriteTo_shell _ _ _ (fun u => ?_))

theorem execDmaEnable_shell (h : HalfId) (channel : Nat) (enable noSnoop : Bool) (s : State) (t : State)
    (ht : execDmaEnable h channel enable noSnoop s = .next t) : t.shell = s.shell := by
  unfold execDmaEnable at ht
  injection ht with ht
  rw [← ht]
  repeat' (first | with_reducible rfl | (simp only [upd_shell, dmaCtrlDo_shell]; done) | simp only [upd_shell, dmaCtrlDo_shell] | split | with_reducible refine ite_shell ?_ ?_ | with_reducible refine hostWriteTo_shell _ _ _ (fun u => ?_))

theorem execDmaDisable_shell (h : HalfId) (channel : Nat) (s : State) (t : State)
    (ht : execDmaDisable h channel s = .next t) : t.shell = s.shell := by
  unfold execDmaDisable at ht
  injection ht with ht
  rw [← ht]
  repeat' (first | with_reducible rfl | (simp only [upd_shell, dmaDisableDo_shell]; done) | simp only [upd_shell, dmaDisableDo_shell] | split | with_reducible refine ite_shell ?_ ?_ | with_reducible refine hostWriteTo_shell _ _ _ (fun u => ?_))

theorem execDmaErrClear_shell (h : HalfId) (s : State) (t : State)
    (ht : execDmaErrClear h s = .next t) : t.shell = s.shell := by
  unfold execDmaErrClear at ht
  injection ht with ht
  rw [← ht]
  repeat' (first | with_reducible rfl | (simp only [upd_shell, dmaErrClearDo_shell]; done) | simp only [upd_shell, dmaErrClearDo_shell] | split | with_reducible refine ite_shell ?_ ?_ | with_reducible refine hostWriteTo_shell _ _ _ (fun u => ?_))

theorem execDmaDescriptorFetched_shell (h : HalfId) (channel : Nat) (bytes : List Byte) (s : State) (t : State)
    (ht : execDmaDescriptorFetched h channel bytes s = .next t) : t.shell = s.shell := by
  unfold execDmaDescriptorFetched at ht
  injection ht with ht
  rw [← ht]
  repeat' (first | with_reducible rfl | (simp only [upd_shell, dmaBusFail_shell, descStart_shell, descAgain_shell]; done) | simp only [upd_shell, dmaBusFail_shell, descStart_shell, descAgain_shell] | split | with_reducible refine ite_shell ?_ ?_)

theorem execDmaBusError_shell (h : HalfId) (channel cause : Nat) (address : W64) (descriptor : Bool) (s : State) (t : State)
    (ht : execDmaBusError h channel cause address descriptor s = .next t) : t.shell = s.shell := by
  unfold execDmaBusError at ht
  injection ht with ht
  rw [← ht]
  repeat' (first | with_reducible rfl | (simp only [upd_shell, dmaBusFail_shell]; done) | simp only [upd_shell, dmaBusFail_shell] | split | with_reducible refine ite_shell ?_ ?_)

theorem execDmaCompletionTimeout_shell (h : HalfId) (channel : Nat) (s : State) (t : State)
    (ht : execDmaCompletionTimeout h channel s = .next t) : t.shell = s.shell := by
  unfold execDmaCompletionTimeout at ht
  injection ht with ht
  rw [← ht]
  repeat' (first | with_reducible rfl | (simp only [upd_shell, dmaBusFail_shell]; done) | simp only [upd_shell, dmaBusFail_shell] | split | with_reducible refine ite_shell ?_ ?_)

/-! Pools.lean -/

theorem execPoolAllocate_shell (h : HalfId) (stop : Nat) (pool0 : Bool) (size count : Nat) (s : State) (t : State)
    (ht : execPoolAllocate h stop pool0 size count s = .next t) : t.shell = s.shell := by
  unfold execPoolAllocate at ht
  injection ht with ht
  rw [← ht]
  repeat' (first | with_reducible rfl | (simp only [upd_shell, poolAlloc_shell]; done) | simp only [upd_shell, poolAlloc_shell] | split | with_reducible refine ite_shell ?_ ?_)

theorem execPoolAdd_shell (h : HalfId) (stop address count : Nat) (s : State) (t : State)
    (ht : execPoolAdd h stop address count s = .next t) : t.shell = s.shell := by
  unfold execPoolAdd at ht
  injection ht with ht
  rw [← ht]
  repeat' (first | with_reducible rfl | (simp only [upd_shell, poolAddDo_shell]; done) | simp only [upd_shell, poolAddDo_shell] | split | with_reducible refine ite_shell ?_ ?_)

theorem execPoolRelease_shell (h : HalfId) (stop address : Nat) (s : State) (t : State)
    (ht : execPoolRelease h stop address s = .next t) : t.shell = s.shell := by
  unfold execPoolRelease at ht
  injection ht with ht
  rw [← ht]
  repeat' (first | with_reducible rfl | (simp only [upd_shell, poolReleaseDo_shell]; done) | simp only [upd_shell, poolReleaseDo_shell] | split | with_reducible refine ite_shell ?_ ?_)

theorem execPoolRebuilt_shell (h : HalfId) (pool : Nat) (s : State) (t : State)
    (ht : execPoolRebuilt h pool s = .next t) : t.shell = s.shell := by
  unfold execPoolRebuilt at ht
  injection ht with ht
  rw [← ht]
  repeat' (first | with_reducible rfl | (simp only [upd_shell, free_shell, event_shell]; done) | simp only [upd_shell, free_shell, event_shell] | split | with_reducible refine ite_shell ?_ ?_)

theorem execPoolSupplyDeadline_shell (h : HalfId) (pool : Nat) (s : State) (t : State)
    (ht : execPoolSupplyDeadline h pool s = .next t) : t.shell = s.shell := by
  unfold execPoolSupplyDeadline at ht
  injection ht with ht
  rw [← ht]
  repeat' (first | with_reducible rfl | (simp only [upd_shell, assistLate_shell]; done) | simp only [upd_shell, assistLate_shell] | split | with_reducible refine ite_shell ?_ ?_)

theorem execPoolFreeListSupply_shell (h : HalfId) (a : AssistEntry) (s : State) (t : State)
    (ht : execPoolFreeListSupply h a s = .next t) : t.shell = s.shell := by
  unfold execPoolFreeListSupply at ht
  injection ht with ht
  rw [← ht]
  repeat' (first | with_reducible rfl | (simp only [upd_shell, assistLate_shell, poolSupplyOne_shell]; done) | simp only [upd_shell, assistLate_shell, poolSupplyOne_shell] | split | with_reducible refine ite_shell ?_ ?_ | with_reducible refine runAssist_shell _ _ _ _ _ _ (fun p u => ?_) | with_reducible refine (foldl_fst_shell _ _ _ (fun s a => ?_)).trans ?_ | with_reducible refine (foldl_shell _ _ _ (fun s a => ?_)).trans ?_)

/-! Counters.lean -/

theorem execCounterProgram_shell (h : HalfId) (e : CmdEntry) (s : State) (t : State)
    (ht : execCounterProgram h e s = .next t) : t.shell = s.shell := by
  unfold execCounterProgram at ht
  injection ht with ht
  rw [← ht]
  repeat' (first | with_reducible rfl | (simp only [Reply.ok_shell, Reply.later_shell, Reply.fail_shell, Reply.wait_shell, upd_shell]; done) | simp only [Reply.ok_shell, Reply.later_shell, Reply.fail_shell, Reply.wait_shell, upd_shell] | split | with_reducible refine ite_shell ?_ ?_ | with_reducible refine runCmd_shell _ _ _ _ _ _ (fun u => ?_) | with_reducible refine guarded_shell _ _ _ ?_)

theorem execCounterRead_shell (h : HalfId) (e : CmdEntry) (s : State) (t : State)
    (ht : execCounterRead h e s = .next t) : t.shell = s.shell := by
  unfold execCounterRead at ht
  injection ht with ht
  rw [← ht]
  repeat' (first | with_reducible rfl | (simp only [Reply.ok_shell, Reply.later_shell, Reply.fail_shell, Reply.wait_shell, upd_shell]; done) | simp only [Reply.ok_shell, Reply.later_shell, Reply.fail_shell, Reply.wait_shell, upd_shell] | split | with_reducible refine ite_shell ?_ ?_ | with_reducible refine runCmd_shell _ _ _ _ _ _ (fun u => ?_) | with_reducible refine guarded_shell _ _ _ ?_)

theorem execCounterSnapshot_shell (h : HalfId) (writeOk : Bool) (s : State) (t : State)
    (ht : execCounterSnapshot h writeOk s = .next t) : t.shell = s.shell := by
  unfold execCounterSnapshot at ht
  injection ht with ht
  rw [← ht]
  repeat' (first | with_reducible rfl | (simp only [upd_shell, reelStop_shell, reelSnapshot_shell]; done) | simp only [upd_shell, reelStop_shell, reelSnapshot_shell] | split | with_reducible refine ite_shell ?_ ?_)

/-! Boot.lean -/

theorem execHalfReset_shell (h : HalfId) (e : CmdEntry) (s : State) (t : State)
    (ht : execHalfReset h e s = .next t) : t.shell = s.shell := by
  unfold execHalfReset at ht
  injection ht with ht
  rw [← ht]
  repeat' (first | with_reducible rfl | (simp only [Reply.ok_shell, Reply.later_shell, Reply.fail_shell, Reply.wait_shell, upd_shell, resetSoon_shell]; done) | simp only [Reply.ok_shell, Reply.later_shell, Reply.fail_shell, Reply.wait_shell, upd_shell, resetSoon_shell] | split | with_reducible refine ite_shell ?_ ?_ | with_reducible refine runCmd_shell _ _ _ _ _ _ (fun u => ?_) | with_reducible refine guarded_shell _ _ _ ?_)

theorem execKeelWatchdogExpiry_shell (h : HalfId) (s : State) (t : State)
    (ht : execKeelWatchdogExpiry h s = .next t) : t.shell = s.shell := by
  unfold execKeelWatchdogExpiry at ht
  injection ht with ht
  rw [← ht]
  repeat' (first | with_reducible rfl | (simp only [upd_shell, latchHw_shell]; done) | simp only [upd_shell, latchHw_shell] | split | with_reducible refine ite_shell ?_ ?_)

theorem execFwSecurityCommit_shell (h : HalfId) (b : BurnEntry) (s : State) (t : State)
    (ht : execFwSecurityCommit h b s = .next t) : t.shell = s.shell := by
  unfold execFwSecurityCommit at ht
  injection ht with ht
  rw [← ht]
  repeat' (first | with_reducible rfl | (simp only [Reply.ok_shell, Reply.later_shell, Reply.fail_shell, Reply.wait_shell, upd_shell, event_shell, burnUntil_shell]; done) | simp only [Reply.ok_shell, Reply.later_shell, Reply.fail_shell, Reply.wait_shell, upd_shell, event_shell, burnUntil_shell] | split | with_reducible refine ite_shell ?_ ?_ | with_reducible refine runCmd_shell _ _ _ _ _ _ (fun u => ?_) | with_reducible refine guarded_shell _ _ _ ?_)

theorem execFuseLock_shell (h : HalfId) (e : CmdEntry) (s : State) (t : State)
    (ht : execFuseLock h e s = .next t) : t.shell = s.shell := by
  unfold execFuseLock at ht
  injection ht with ht
  rw [← ht]
  repeat' (first | with_reducible rfl | (simp only [Reply.ok_shell, Reply.later_shell, Reply.fail_shell, Reply.wait_shell, upd_shell, event_shell]; done) | simp only [Reply.ok_shell, Reply.later_shell, Reply.fail_shell, Reply.wait_shell, upd_shell, event_shell] | split | with_reducible refine ite_shell ?_ ?_ | with_reducible refine runCmd_shell _ _ _ _ _ _ (fun u => ?_) | with_reducible refine guarded_shell _ _ _ ?_)

theorem execIdentify_shell (h : HalfId) (e : CmdEntry) (s : State) (t : State)
    (ht : execIdentify h e s = .next t) : t.shell = s.shell := by
  unfold execIdentify at ht
  injection ht with ht
  rw [← ht]
  repeat' (first | with_reducible rfl | (simp only [Reply.ok_shell, Reply.later_shell, Reply.fail_shell, Reply.wait_shell, upd_shell]; done) | simp only [Reply.ok_shell, Reply.later_shell, Reply.fail_shell, Reply.wait_shell, upd_shell] | split | with_reducible refine ite_shell ?_ ?_ | with_reducible refine runCmd_shell _ _ _ _ _ _ (fun u => ?_) | with_reducible refine guarded_shell _ _ _ ?_)

theorem execEventRateSet_shell (h : HalfId) (e : CmdEntry) (s : State) (t : State)
    (ht : execEventRateSet h e s = .next t) : t.shell = s.shell := by
  unfold execEventRateSet at ht
  injection ht with ht
  rw [← ht]
  repeat' (first | with_reducible rfl | (simp only [Reply.ok_shell, Reply.later_shell, Reply.fail_shell, Reply.wait_shell, upd_shell]; done) | simp only [Reply.ok_shell, Reply.later_shell, Reply.fail_shell, Reply.wait_shell, upd_shell] | split | with_reducible refine ite_shell ?_ ?_ | with_reducible refine runCmd_shell _ _ _ _ _ _ (fun u => ?_) | with_reducible refine guarded_shell _ _ _ ?_)

/-! Power.lean -/

theorem execBrownOutRecovery_shell (h : HalfId) (s : State) (t : State)
    (ht : execBrownOutRecovery h s = .next t) : t.shell = s.shell := by
  unfold execBrownOutRecovery at ht
  injection ht with ht
  rw [← ht]
  repeat' (first | with_reducible rfl | (simp only [upd_shell]; done) | simp only [upd_shell] | split | with_reducible refine ite_shell ?_ ?_)

theorem execVoltageExcursion_shell (h : HalfId) (rail : Nat) (millivolts : Int) (duration : Nat) (s : State) (t : State)
    (ht : execVoltageExcursion h rail millivolts duration s = .next t) : t.shell = s.shell := by
  unfold execVoltageExcursion at ht
  injection ht with ht
  rw [← ht]
  repeat' (first | with_reducible rfl | (simp only [upd_shell, latchHw_shell, event_shell]; done) | simp only [upd_shell, latchHw_shell, event_shell] | split | with_reducible refine ite_shell ?_ ?_)

theorem execThermalSample_shell (h : HalfId) (island : Nat) (celsius : Int) (s : State) (t : State)
    (ht : execThermalSample h island celsius s = .next t) : t.shell = s.shell := by
  unfold execThermalSample at ht
  injection ht with ht
  rw [← ht]
  repeat' (first | with_reducible rfl | (simp only [upd_shell, event_shell, thermalTrip_shell]; done) | simp only [upd_shell, event_shell, thermalTrip_shell] | split | with_reducible refine ite_shell ?_ ?_)

theorem execThermalRelease_shell (h : HalfId) (s : State) (t : State)
    (ht : execThermalRelease h s = .next t) : t.shell = s.shell := by
  unfold execThermalRelease at ht
  injection ht with ht
  rw [← ht]
  repeat' (first | with_reducible rfl | (simp only [upd_shell]; done) | simp only [upd_shell] | split | with_reducible refine ite_shell ?_ ?_)

theorem execLifeAccumulation_shell (h : HalfId) (s : State) (t : State)
    (ht : execLifeAccumulation h s = .next t) : t.shell = s.shell := by
  unfold execLifeAccumulation at ht
  injection ht with ht
  rw [← ht]
  repeat' (first | with_reducible rfl | (simp only [upd_shell]; done) | simp only [upd_shell] | split | with_reducible refine ite_shell ?_ ?_)

theorem execAgingMeasurement_shell (h : HalfId) (slowdowns : List Nat) (s : State) (t : State)
    (ht : execAgingMeasurement h slowdowns s = .next t) : t.shell = s.shell := by
  unfold execAgingMeasurement at ht
  injection ht with ht
  rw [← ht]
  repeat' (first | with_reducible rfl | (simp only [upd_shell, event_shell]; done) | simp only [upd_shell, event_shell] | split | with_reducible refine ite_shell ?_ ?_)

/-! Decoding.lean -/

theorem execRtpPacketReceived_shell (h : HalfId) (input : Nat) (p : RtpPacket) (s : State) (t : State)
    (ht : execRtpPacketReceived h input p s = .next t) : t.shell = s.shell := by
  unfold execRtpPacketReceived at ht
  injection ht with ht
  rw [← ht]
  repeat' (first | with_reducible rfl | (simp only [upd_shell, noteUnit_shell, jitterOverflow_shell]; done) | simp only [upd_shell, noteUnit_shell, jitterOverflow_shell] | split | with_reducible refine ite_shell ?_ ?_)

theorem execAccessUnitRelease_shell (h : HalfId) (input : Nat) (s : State) (t : State)
    (ht : execAccessUnitRelease h input s = .next t) : t.shell = s.shell := by
  unfold execAccessUnitRelease at ht
  injection ht with ht
  rw [← ht]
  repeat' (first | with_reducible rfl | (simp only [upd_shell, free_shell, State.tick1_shell, pushUnit_shell, copyUnit_shell]; done) | simp only [upd_shell, free_shell, State.tick1_shell, pushUnit_shell, copyUnit_shell] | split | with_reducible refine ite_shell ?_ ?_ | with_reducible refine (foldl_fst_shell _ _ _ (fun s a => ?_)).trans ?_ | with_reducible refine (foldl_shell _ _ _ (fun s a => ?_)).trans ?_)

theorem execGuardedAccessUnitCopy_shell (h : HalfId) (context presentation : Nat) (incomplete badStructure : Bool) (s : State) (t : State)
    (ht : execGuardedAccessUnitCopy h context presentation incomplete badStructure s = .next t) : t.shell = s.shell := by
  unfold execGuardedAccessUnitCopy at ht
  injection ht with ht
  rw [← ht]
  repeat' (first | with_reducible rfl | (simp only [upd_shell, pushUnit_shell]; done) | simp only [upd_shell, pushUnit_shell] | split | with_reducible refine ite_shell ?_ ?_)

theorem execDecodeFeed_shell (h : HalfId) (e : CmdEntry) (s : State) (t : State)
    (ht : execDecodeFeed h e s = .next t) : t.shell = s.shell := by
  unfold execDecodeFeed at ht
  injection ht with ht
  rw [← ht]
  repeat' (first | with_reducible rfl | (simp only [Reply.ok_shell, Reply.later_shell, Reply.fail_shell, Reply.wait_shell, upd_shell, free_shell, State.tick1_shell, pushUnit_shell, copyUnit_shell, endFeed_shell]; done) | simp only [Reply.ok_shell, Reply.later_shell, Reply.fail_shell, Reply.wait_shell, upd_shell, free_shell, State.tick1_shell, pushUnit_shell, copyUnit_shell, endFeed_shell] | split | with_reducible refine ite_shell ?_ ?_ | with_reducible refine runCmd_shell _ _ _ _ _ _ (fun u => ?_) | with_reducible refine guarded_shell _ _ _ ?_)

theorem execDecodePictureStart_shell (h : HalfId) (p : EnginePicture) (s : State) (t : State)
    (ht : execDecodePictureStart h p s = .next t) : t.shell = s.shell := by
  unfold execDecodePictureStart at ht
  injection ht with ht
  rw [← ht]
  repeat' (first | with_reducible rfl | (simp only [upd_shell, takeoverCheck_shell]; done) | simp only [upd_shell, takeoverCheck_shell] | split | with_reducible refine ite_shell ?_ ?_ | with_reducible refine (foldl_fst_shell _ _ _ (fun s a => ?_)).trans ?_ | with_reducible refine (foldl_shell _ _ _ (fun s a => ?_)).trans ?_)

/-! Pictures.lean -/

theorem execRefreshRequestRepeat_shell (h : HalfId) (input : Nat) (s : State) (t : State)
    (ht : execRefreshRequestRepeat h input s = .next t) : t.shell = s.shell := by
  unfold execRefreshRequestRepeat at ht
  injection ht with ht
  rw [← ht]
  repeat' (first | with_reducible rfl | (simp only [upd_shell, event_shell, requestSend_shell]; done) | simp only [upd_shell, event_shell, requestSend_shell] | split | with_reducible refine ite_shell ?_ ?_)

theorem execPictureAvailable_shell (h : HalfId) (context : Nat) (s : State) (t : State)
    (ht : execPictureAvailable h context s = .next t) : t.shell = s.shell := by
  unfold execPictureAvailable at ht
  injection ht with ht
  rw [← ht]
  repeat' (first | with_reducible rfl | (simp only [upd_shell, removeIdle_shell]; done) | simp only [upd_shell, removeIdle_shell] | split | with_reducible refine ite_shell ?_ ?_)

theorem execBulkStarved_shell (h : HalfId) (context : Nat) (s : State) (t : State)
    (ht : execBulkStarved h context s = .next t) : t.shell = s.shell := by
  unfold execBulkStarved at ht
  injection ht with ht
  rw [← ht]
  repeat' (first | with_reducible rfl | (simp only [upd_shell, event_shell]; done) | simp only [upd_shell, event_shell] | split | with_reducible refine ite_shell ?_ ?_)

theorem execDecodePictureComplete_shell (h : HalfId) (engine : Nat) (f : DecodeFacts) (s : State) (t : State)
    (ht : execDecodePictureComplete h engine f s = .next t) : t.shell = s.shell := by
  unfold execDecodePictureComplete at ht
  injection ht with ht
  rw [← ht]
  repeat' (first | with_reducible rfl | (simp only [upd_shell, event_shell, removeIdle_shell, streamEnd_shell, feedStatus_shell, rejectSets_shell, finishDecoded_shell]; done) | simp only [upd_shell, event_shell, removeIdle_shell, streamEnd_shell, feedStatus_shell, rejectSets_shell, finishDecoded_shell] | split | with_reducible refine ite_shell ?_ ?_)

theorem execConcealmentDeadline_shell (h : HalfId) (context : Nat) (s : State) (t : State)
    (ht : execConcealmentDeadline h context s = .next t) : t.shell = s.shell := by
  unfold execConcealmentDeadline at ht
  injection ht with ht
  rw [← ht]
  repeat' (first | with_reducible rfl | (simp only [upd_shell, removeIdle_shell, concealLate_shell]; done) | simp only [upd_shell, removeIdle_shell, concealLate_shell] | split | with_reducible refine ite_shell ?_ ?_)

theorem execConcealmentInstruction_shell (h : HalfId) (a : AssistEntry) (s : State) (t : State)
    (ht : execConcealmentInstruction h a s = .next t) : t.shell = s.shell := by
  unfold execConcealmentInstruction at ht
  injection ht with ht
  rw [← ht]
  repeat' (first | with_reducible rfl | (simp only [upd_shell, assistLate_shell, removeIdle_shell, requestOnce_shell, concealDefault_shell, concealAct_shell]; done) | simp only [upd_shell, assistLate_shell, removeIdle_shell, requestOnce_shell, concealDefault_shell, concealAct_shell] | split | with_reducible refine ite_shell ?_ ?_ | with_reducible refine runAssist_shell _ _ _ _ _ _ (fun p u => ?_))

/-! Composing.lean -/

theorem execSurfaceUpdate_shell (h : HalfId) (e : CmdEntry) (s : State) (t : State)
    (ht : execSurfaceUpdate h e s = .next t) : t.shell = s.shell := by
  unfold execSurfaceUpdate at ht
  injection ht with ht
  rw [← ht]
  repeat' (first | with_reducible rfl | (simp only [Reply.ok_shell, Reply.later_shell, Reply.fail_shell, Reply.wait_shell, upd_shell, emit_shell]; done) | simp only [Reply.ok_shell, Reply.later_shell, Reply.fail_shell, Reply.wait_shell, upd_shell, emit_shell] | split | with_reducible refine ite_shell ?_ ?_ | with_reducible refine runCmd_shell _ _ _ _ _ _ (fun u => ?_) | with_reducible refine guarded_shell _ _ _ ?_)

theorem execSurfaceCopyDone_shell (h : HalfId) (surface : Nat) (s : State) (t : State)
    (ht : execSurfaceCopyDone h surface s = .next t) : t.shell = s.shell := by
  unfold execSurfaceCopyDone at ht
  injection ht with ht
  rw [← ht]
  repeat' (first | with_reducible rfl | (simp only [upd_shell, complete_shell, surfaceCopy_shell]; done) | simp only [upd_shell, complete_shell, surfaceCopy_shell] | split | with_reducible refine ite_shell ?_ ?_)

theorem execCueArm_shell (h : HalfId) (e : CmdEntry) (s : State) (t : State)
    (ht : execCueArm h e s = .next t) : t.shell = s.shell := by
  unfold execCueArm at ht
  injection ht with ht
  rw [← ht]
  repeat' (first | with_reducible rfl | (simp only [Reply.ok_shell, Reply.later_shell, Reply.fail_shell, Reply.wait_shell, upd_shell, emit_shell]; done) | simp only [Reply.ok_shell, Reply.later_shell, Reply.fail_shell, Reply.wait_shell, upd_shell, emit_shell] | split | with_reducible refine ite_shell ?_ ?_ | with_reducible refine runCmd_shell _ _ _ _ _ _ (fun u => ?_) | with_reducible refine guarded_shell _ _ _ ?_)

theorem execCueCancel_shell (h : HalfId) (e : CmdEntry) (s : State) (t : State)
    (ht : execCueCancel h e s = .next t) : t.shell = s.shell := by
  unfold execCueCancel at ht
  injection ht with ht
  rw [← ht]
  repeat' (first | with_reducible rfl | (simp only [Reply.ok_shell, Reply.later_shell, Reply.fail_shell, Reply.wait_shell, upd_shell, emit_shell]; done) | simp only [Reply.ok_shell, Reply.later_shell, Reply.fail_shell, Reply.wait_shell, upd_shell, emit_shell] | split | with_reducible refine ite_shell ?_ ?_ | with_reducible refine runCmd_shell _ _ _ _ _ _ (fun u => ?_) | with_reducible refine guarded_shell _ _ _ ?_)

theorem execCanvasTick_shell (h : HalfId) (canvas : Nat) (s : State) (t : State)
    (ht : execCanvasTick h canvas s = .next t) : t.shell = s.shell := by
  unfold execCanvasTick at ht
  injection ht with ht
  rw [← ht]
  repeat' (first | with_reducible rfl | (simp only [upd_shell, takeoverCheck_shell, repeatPicture_shell, runTick_shell]; done) | simp only [upd_shell, takeoverCheck_shell, repeatPicture_shell, runTick_shell] | split | with_reducible refine ite_shell ?_ ?_ | with_reducible refine (foldl_fst_shell _ _ _ (fun s a => ?_)).trans ?_ | with_reducible refine (foldl_shell _ _ _ (fun s a => ?_)).trans ?_)

theorem execCompositionJobStart_shell (h : HalfId) (pipe : Nat) (s : State) (t : State)
    (ht : execCompositionJobStart h pipe s = .next t) : t.shell = s.shell := by
  unfold execCompositionJobStart at ht
  injection ht with ht
  rw [← ht]
  repeat' (first | with_reducible rfl | (simp only [upd_shell]; done) | simp only [upd_shell] | split | with_reducible refine ite_shell ?_ ?_)

theorem execCompositionJobComplete_shell (h : HalfId) (pipe : Nat) (changedBlocks : List Nat) (s : State) (t : State)
    (ht : execCompositionJobComplete h pipe changedBlocks s = .next t) : t.shell = s.shell := by
  unfold execCompositionJobComplete at ht
  injection ht with ht
  rw [← ht]
  repeat' (first | with_reducible rfl | (simp only [upd_shell, finishJob_shell]; done) | simp only [upd_shell, finishJob_shell] | split | with_reducible refine ite_shell ?_ ?_)

/-! Encoding.lean -/

theorem execRateAssist_shell (h : HalfId) (a : AssistEntry) (s : State) (t : State)
    (ht : execRateAssist h a s = .next t) : t.shell = s.shell := by
  unfold execRateAssist at ht
  injection ht with ht
  rw [← ht]
  repeat' (first | with_reducible rfl | (simp only [upd_shell, takeHeld_shell]; done) | simp only [upd_shell, takeHeld_shell] | split | with_reducible refine ite_shell ?_ ?_ | with_reducible refine runAssist_shell _ _ _ _ _ _ (fun p u => ?_))

theorem execCoarseMotionHints_shell (h : HalfId) (a : AssistEntry) (s : State) (t : State)
    (ht : execCoarseMotionHints h a s = .next t) : t.shell = s.shell := by
  unfold execCoarseMotionHints at ht
  injection ht with ht
  rw [← ht]
  repeat' (first | with_reducible rfl | (simp only [upd_shell, takeHeld_shell]; done) | simp only [upd_shell, takeHeld_shell] | split | with_reducible refine ite_shell ?_ ?_ | with_reducible refine runAssist_shell _ _ _ _ _ _ (fun p u => ?_))

theorem execHostStencil_shell (h : HalfId) (a : AssistEntry) (s : State) (t : State)
    (ht : execHostStencil h a s = .next t) : t.shell = s.shell := by
  unfold execHostStencil at ht
  injection ht with ht
  rw [← ht]
  repeat' (first | with_reducible rfl | (simp only [upd_shell, takeHeld_shell]; done) | simp only [upd_shell, takeHeld_shell] | split | with_reducible refine ite_shell ?_ ?_ | with_reducible refine runAssist_shell _ _ _ _ _ _ (fun p u => ?_) | with_reducible refine (foldl_fst_shell _ _ _ (fun s a => ?_)).trans ?_ | with_reducible refine (foldl_shell _ _ _ (fun s a => ?_)).trans ?_)

theorem execEncodeSurfaceTick_shell (h : HalfId) (stream : Nat) (s : State) (t : State)
    (ht : execEncodeSurfaceTick h stream s = .next t) : t.shell = s.shell := by
  unfold execEncodeSurfaceTick at ht
  injection ht with ht
  rw [← ht]
  repeat' (first | with_reducible rfl | (simp only [upd_shell, assistLate_shell, takeoverCheck_shell, surfaceApply_shell, markDefault_shell]; done) | simp only [upd_shell, assistLate_shell, takeoverCheck_shell, surfaceApply_shell, markDefault_shell] | split | with_reducible refine ite_shell ?_ ?_ | with_reducible refine (foldl_fst_shell _ _ _ (fun s a => ?_)).trans ?_ | with_reducible refine (foldl_shell _ _ _ (fun s a => ?_)).trans ?_)

theorem execEncodePictureStart_shell (h : HalfId) (engine : Nat) (f : EncodeFacts) (s : State) (t : State)
    (ht : execEncodePictureStart h engine f s = .next t) : t.shell = s.shell := by
  unfold execEncodePictureStart at ht
  injection ht with ht
  rw [← ht]
  repeat' (first | with_reducible rfl | (simp only [upd_shell, startPicture_shell]; done) | simp only [upd_shell, startPicture_shell] | split | with_reducible refine ite_shell ?_ ?_)

theorem execTwinCrcExchange_shell (h : HalfId) (stream : Nat) (picture crc : W32) (s : State) (t : State)
    (ht : execTwinCrcExchange h stream picture crc s = .next t) : t.shell = s.shell := by
  unfold execTwinCrcExchange at ht
  injection ht with ht
  rw [← ht]
  repeat' (first | with_reducible rfl | (simp only [upd_shell, twinCompare_shell]; done) | simp only [upd_shell, twinCompare_shell] | split | with_reducible refine ite_shell ?_ ?_)

theorem execEncodePictureComplete_shell (h : HalfId) (engine : Nat) (s : State) (t : State)
    (ht : execEncodePictureComplete h engine s = .next t) : t.shell = s.shell := by
  unfold execEncodePictureComplete at ht
  injection ht with ht
  rw [← ht]
  clear ht
  extract_lets +onlyGivenNames x0
  split
  · rfl
  split
  · rfl
  split
  · rfl
  extract_lets i obj rs r now period after p left rep late s1 s2 s3 s4 s5 kk s6
  have h1 : s1.shell = s.shell := upd_shell _ _ _
  have h2 : s2.shell = s.shell := ite_shell ((event_shell _ _ _ _ _ _).trans h1) h1
  have h3 : s3.shell = s.shell := ite_shell ((event_shell _ _ _ _ _ _).trans h2) h2
  have h4 : s4.shell = s.shell := (gangStalls_shell _ _ _ _).trans h3
  have h5 : s5.shell = s.shell := (rateOffer_shell _ _ _ _).trans h4
  have h6 : s6.shell = s.shell := (emit_shell _ _ _).trans h5
  rw [removeIdle_shell]
  refine ite_shell ?_ h5
  split
  · exact (twinCompare_shell _ _ _ _ _ _).trans h6
  · exact h6

theorem execEncodeLateRepeat_shell (h : HalfId) (stream : Nat) (s : State) (t : State)
    (ht : execEncodeLateRepeat h stream s = .next t) : t.shell = s.shell := by
  unfold execEncodeLateRepeat at ht
  injection ht with ht
  rw [← ht]
  repeat' (first | with_reducible rfl | (simp only [upd_shell]; done) | simp only [upd_shell] | split | with_reducible refine ite_shell ?_ ?_)

theorem execRefreshAbsorbed_shell (h : HalfId) (stream : Nat) (s : State) (t : State)
    (ht : execRefreshAbsorbed h stream s = .next t) : t.shell = s.shell := by
  unfold execRefreshAbsorbed at ht
  injection ht with ht
  rw [← ht]
  repeat' (first | with_reducible rfl | (simp only [upd_shell, event_shell]; done) | simp only [upd_shell, event_shell] | split | with_reducible refine ite_shell ?_ ?_)

theorem execSurgeEnded_shell (h : HalfId) (cluster : Nat) (s : State) (t : State)
    (ht : execSurgeEnded h cluster s = .next t) : t.shell = s.shell := by
  unfold execSurgeEnded at ht
  injection ht with ht
  rw [← ht]
  repeat' (first | with_reducible rfl | (simp only [upd_shell, event_shell]; done) | simp only [upd_shell, event_shell] | split | with_reducible refine ite_shell ?_ ?_)

theorem execSurgeSustained_shell (h : HalfId) (cluster : Nat) (s : State) (t : State)
    (ht : execSurgeSustained h cluster s = .next t) : t.shell = s.shell := by
  unfold execSurgeSustained at ht
  injection ht with ht
  rw [← ht]
  repeat' (first | with_reducible rfl | (simp only [upd_shell, event_shell]; done) | simp only [upd_shell, event_shell] | split | with_reducible refine ite_shell ?_ ?_)

theorem execEncodeRefresh_shell (h : HalfId) (e : CmdEntry) (s : State) (t : State)
    (ht : execEncodeRefresh h e s = .next t) : t.shell = s.shell := by
  unfold execEncodeRefresh at ht
  injection ht with ht
  rw [← ht]
  repeat' (first | with_reducible rfl | (simp only [Reply.ok_shell, Reply.later_shell, Reply.fail_shell, Reply.wait_shell, upd_shell, emit_shell, addDeferred_shell]; done) | simp only [Reply.ok_shell, Reply.later_shell, Reply.fail_shell, Reply.wait_shell, upd_shell, emit_shell, addDeferred_shell] | split | with_reducible refine ite_shell ?_ ?_ | with_reducible refine runCmd_shell _ _ _ _ _ _ (fun u => ?_) | with_reducible refine guarded_shell _ _ _ ?_)

theorem execEncodeRate_shell (h : HalfId) (e : CmdEntry) (s : State) (t : State)
    (ht : execEncodeRate h e s = .next t) : t.shell = s.shell := by
  unfold execEncodeRate at ht
  injection ht with ht
  rw [← ht]
  repeat' (first | with_reducible rfl | (simp only [Reply.ok_shell, Reply.later_shell, Reply.fail_shell, Reply.wait_shell, upd_shell, emit_shell, addDeferred_shell]; done) | simp only [Reply.ok_shell, Reply.later_shell, Reply.fail_shell, Reply.wait_shell, upd_shell, emit_shell, addDeferred_shell] | split | with_reducible refine ite_shell ?_ ?_ | with_reducible refine runCmd_shell _ _ _ _ _ _ (fun u => ?_) | with_reducible refine guarded_shell _ _ _ ?_ | with_reducible refine (foldl_fst_shell _ _ _ (fun s a => ?_)).trans ?_ | with_reducible refine (foldl_shell _ _ _ (fun s a => ?_)).trans ?_)

/-! Flows.lean -/

theorem execUndercoatPictureTick_shell (h : HalfId) (flow : Handle) (s : State) (t : State)
    (ht : execUndercoatPictureTick h flow s = .next t) : t.shell = s.shell := by
  unfold execUndercoatPictureTick at ht
  injection ht with ht
  rw [← ht]
  repeat' (first | with_reducible rfl | (simp only [upd_shell, free_shell, emit_shell]; done) | simp only [upd_shell, free_shell, emit_shell] | split | with_reducible refine ite_shell ?_ ?_)

/-! Pacing.lean -/

theorem execEncodedUnitHandoff_shell (h : HalfId) (stream : Nat) (u : CodedUnit) (s : State) (t : State)
    (ht : execEncodedUnitHandoff h stream u s = .next t) : t.shell = s.shell := by
  unfold execEncodedUnitHandoff at ht
  injection ht with ht
  rw [← ht]
  repeat' (first | with_reducible rfl | (simp only [upd_shell, handUnit_shell]; done) | simp only [upd_shell, handUnit_shell] | split | with_reducible refine ite_shell ?_ ?_ | with_reducible refine (foldl_fst_shell _ _ _ (fun s a => ?_)).trans ?_ | with_reducible refine (foldl_shell _ _ _ (fun s a => ?_)).trans ?_)

theorem execPacketStart_shell (h : HalfId) (port : Nat) (s : State) (t : State)
    (ht : execPacketStart h port s = .next t) : t.shell = s.shell := by
  unfold execPacketStart at ht
  injection ht with ht
  rw [← ht]
  repeat' (first | with_reducible rfl | (simp only [upd_shell, startPacket_shell]; done) | simp only [upd_shell, startPacket_shell] | split | with_reducible refine ite_shell ?_ ?_ | with_reducible refine (foldl_fst_shell _ _ _ (fun s a => ?_)).trans ?_ | with_reducible refine (foldl_shell _ _ _ (fun s a => ?_)).trans ?_)

theorem execGateListStarted_shell (h : HalfId) (port : Nat) (s : State) (t : State)
    (ht : execGateListStarted h port s = .next t) : t.shell = s.shell := by
  unfold execGateListStarted at ht
  injection ht with ht
  rw [← ht]
  repeat' (first | with_reducible rfl | (simp only [upd_shell, event_shell]; done) | simp only [upd_shell, event_shell] | split | with_reducible refine ite_shell ?_ ?_)

theorem execGateWindowChange_shell (h : HalfId) (port : Nat) (s : State) (t : State)
    (ht : execGateWindowChange h port s = .next t) : t.shell = s.shell := by
  unfold execGateWindowChange at ht
  injection ht with ht
  rw [← ht]
  repeat' (first | with_reducible rfl | (simp only [upd_shell]; done) | simp only [upd_shell] | split | with_reducible refine ite_shell ?_ ?_)

theorem execGateRebase_shell (h : HalfId) (e : CmdEntry) (s : State) (t : State)
    (ht : execGateRebase h e s = .next t) : t.shell = s.shell := by
  unfold execGateRebase at ht
  injection ht with ht
  rw [← ht]
  repeat' (first | with_reducible rfl | (simp only [Reply.ok_shell, Reply.later_shell, Reply.fail_shell, Reply.wait_shell, upd_shell, addDeferred_shell]; done) | simp only [Reply.ok_shell, Reply.later_shell, Reply.fail_shell, Reply.wait_shell, upd_shell, addDeferred_shell] | split | with_reducible refine ite_shell ?_ ?_ | with_reducible refine runCmd_shell _ _ _ _ _ _ (fun u => ?_) | with_reducible refine guarded_shell _ _ _ ?_)

theorem execShaperSet_shell (h : HalfId) (e : CmdEntry) (s : State) (t : State)
    (ht : execShaperSet h e s = .next t) : t.shell = s.shell := by
  unfold execShaperSet at ht
  injection ht with ht
  rw [← ht]
  repeat' (first | with_reducible rfl | (simp only [Reply.ok_shell, Reply.later_shell, Reply.fail_shell, Reply.wait_shell, upd_shell, addDeferred_shell, shaperSetDo_shell]; done) | simp only [Reply.ok_shell, Reply.later_shell, Reply.fail_shell, Reply.wait_shell, upd_shell, addDeferred_shell, shaperSetDo_shell] | split | with_reducible refine ite_shell ?_ ?_ | with_reducible refine runCmd_shell _ _ _ _ _ _ (fun u => ?_) | with_reducible refine guarded_shell _ _ _ ?_)

theorem execFlowMove_shell (h : HalfId) (e : CmdEntry) (s : State) (t : State)
    (ht : execFlowMove h e s = .next t) : t.shell = s.shell := by
  unfold execFlowMove at ht
  injection ht with ht
  rw [← ht]
  repeat' (first | with_reducible rfl | (simp only [Reply.ok_shell, Reply.later_shell, Reply.fail_shell, Reply.wait_shell, upd_shell, moveNow_shell]; done) | simp only [Reply.ok_shell, Reply.later_shell, Reply.fail_shell, Reply.wait_shell, upd_shell, moveNow_shell] | split | with_reducible refine ite_shell ?_ ?_ | with_reducible refine runCmd_shell _ _ _ _ _ _ (fun u => ?_) | with_reducible refine guarded_shell _ _ _ ?_)

theorem execPacketReleaseTimes_shell (h : HalfId) (a : AssistEntry) (s : State) (t : State)
    (ht : execPacketReleaseTimes h a s = .next t) : t.shell = s.shell := by
  unfold execPacketReleaseTimes at ht
  injection ht with ht
  rw [← ht]
  repeat' (first | with_reducible rfl | (simp only [upd_shell, assistLate_shell]; done) | simp only [upd_shell, assistLate_shell] | split | with_reducible refine ite_shell ?_ ?_ | with_reducible refine runAssist_shell _ _ _ _ _ _ (fun p u => ?_))

theorem execMirrorStateReceived_shell (h : HalfId) (flow : Handle) (m : Mirror) (s : State) (t : State)
    (ht : execMirrorStateReceived h flow m s = .next t) : t.shell = s.shell := by
  unfold execMirrorStateReceived at ht
  injection ht with ht
  rw [← ht]
  repeat' (first | with_reducible rfl | (simp only [upd_shell]; done) | simp only [upd_shell] | split | with_reducible refine ite_shell ?_ ?_)

theorem execPartnerCopyReceived_shell (h : HalfId) (flow : Handle) (seq : W16) (picture : Nat) (bytes : Option Nat) (s : State) (t : State)
    (ht : execPartnerCopyReceived h flow seq picture bytes s = .next t) : t.shell = s.shell := by
  unfold execPartnerCopyReceived at ht
  injection ht with ht
  rw [← ht]
  repeat' (first | with_reducible rfl | (simp only [upd_shell]; done) | simp only [upd_shell] | split | with_reducible refine ite_shell ?_ ?_)

theorem execUnitAnnouncementReceived_shell (h : HalfId) (a : UnitAnnouncement) (s : State) (t : State)
    (ht : execUnitAnnouncementReceived h a s = .next t) : t.shell = s.shell := by
  unfold execUnitAnnouncementReceived at ht
  injection ht with ht
  rw [← ht]
  repeat' (first | with_reducible rfl | (simp only [upd_shell, emit_shell]; done) | simp only [upd_shell, emit_shell] | split | with_reducible refine ite_shell ?_ ?_)

theorem execUnitAnnouncementAck_shell (h : HalfId) (flow : Handle) (s : State) (t : State)
    (ht : execUnitAnnouncementAck h flow s = .next t) : t.shell = s.shell := by
  unfold execUnitAnnouncementAck at ht
  injection ht with ht
  rw [← ht]
  repeat' (first | with_reducible rfl | (simp only [upd_shell]; done) | simp only [upd_shell] | split | with_reducible refine ite_shell ?_ ?_)

theorem execSequenceReportReceived_shell (h : HalfId) (r : FlowSeq) (s : State) (t : State)
    (ht : execSequenceReportReceived h r s = .next t) : t.shell = s.shell := by
  unfold execSequenceReportReceived at ht
  injection ht with ht
  rw [← ht]
  repeat' (first | with_reducible rfl | (simp only [upd_shell]; done) | simp only [upd_shell] | split | with_reducible refine ite_shell ?_ ?_ | with_reducible refine (foldl_fst_shell _ _ _ (fun s a => ?_)).trans ?_ | with_reducible refine (foldl_shell _ _ _ (fun s a => ?_)).trans ?_)

/-! Ports.lean -/

theorem execLinkSignalDetected_shell (h : HalfId) (port : Nat) (s : State) (t : State)
    (ht : execLinkSignalDetected h port s = .next t) : t.shell = s.shell := by
  unfold execLinkSignalDetected at ht
  injection ht with ht
  rw [← ht]
  repeat' (first | with_reducible rfl | (simp only [upd_shell]; done) | simp only [upd_shell] | split | with_reducible refine ite_shell ?_ ?_)

theorem execLinkUp_shell (h : HalfId) (port : Nat) (s : State) (t : State)
    (ht : execLinkUp h port s = .next t) : t.shell = s.shell := by
  unfold execLinkUp at ht
  injection ht with ht
  rw [← ht]
  repeat' (first | with_reducible rfl | (simp only [upd_shell, event_shell, portBack_shell, protocolsStart_shell]; done) | simp only [upd_shell, event_shell, portBack_shell, protocolsStart_shell] | split | with_reducible refine ite_shell ?_ ?_)

theorem execArpReceived_shell (h : HalfId) (port : Nat) (f : ArpFrame) (s : State) (t : State)
    (ht : execArpReceived h port f s = .next t) : t.shell = s.shell := by
  unfold execArpReceived at ht
  injection ht with ht
  rw [← ht]
  repeat' (first | with_reducible rfl | (simp only [Reply.ok_shell, Reply.later_shell, Reply.fail_shell, Reply.wait_shell, upd_shell, emit_shell]; done) | simp only [Reply.ok_shell, Reply.later_shell, Reply.fail_shell, Reply.wait_shell, upd_shell, emit_shell] | split | with_reducible refine ite_shell ?_ ?_)

theorem execArpRefresh_shell (h : HalfId) (port : Nat) (s : State) (t : State)
    (ht : execArpRefresh h port s = .next t) : t.shell = s.shell := by
  unfold execArpRefresh at ht
  injection ht with ht
  rw [← ht]
  repeat' (first | with_reducible rfl | (simp only [upd_shell, resolveAll_shell]; done) | simp only [upd_shell, resolveAll_shell] | split | with_reducible refine ite_shell ?_ ?_)

theorem execNeighbourDiscoveryReceived_shell (h : HalfId) (port : Nat) (f : NdFrame) (s : State) (t : State)
    (ht : execNeighbourDiscoveryReceived h port f s = .next t) : t.shell = s.shell := by
  unfold execNeighbourDiscoveryReceived at ht
  injection ht with ht
  rw [← ht]
  repeat' (first | with_reducible rfl | (simp only [Reply.ok_shell, Reply.later_shell, Reply.fail_shell, Reply.wait_shell, upd_shell, emit_shell, event_shell]; done) | simp only [Reply.ok_shell, Reply.later_shell, Reply.fail_shell, Reply.wait_shell, upd_shell, emit_shell, event_shell] | split | with_reducible refine ite_shell ?_ ?_)

theorem execDadComplete_shell (h : HalfId) (port : Nat) (s : State) (t : State)
    (ht : execDadComplete h port s = .next t) : t.shell = s.shell := by
  unfold execDadComplete at ht
  injection ht with ht
  rw [← ht]
  repeat' (first | with_reducible rfl | (simp only [upd_shell, resolveAll_shell]; done) | simp only [upd_shell, resolveAll_shell] | split | with_reducible refine ite_shell ?_ ?_)

theorem execRouterAdvertisementReceived_shell (h : HalfId) (port router mac : Nat) (s : State) (t : State)
    (ht : execRouterAdvertisementReceived h port router mac s = .next t) : t.shell = s.shell := by
  unfold execRouterAdvertisementReceived at ht
  injection ht with ht
  rw [← ht]
  repeat' (first | with_reducible rfl | (simp only [upd_shell]; done) | simp only [upd_shell] | split | with_reducible refine ite_shell ?_ ?_)

theorem execMulticastQueryReceived_shell (h : HalfId) (port : Nat) (q : MulticastQuery) (s : State) (t : State)
    (ht : execMulticastQueryReceived h port q s = .next t) : t.shell = s.shell := by
  unfold execMulticastQueryReceived at ht
  injection ht with ht
  rw [← ht]
  repeat' (first | with_reducible rfl | (simp only [upd_shell, reportGroups_shell]; done) | simp only [upd_shell, reportGroups_shell] | split | with_reducible refine ite_shell ?_ ?_)

theorem execIcmpEchoReceived_shell (h : HalfId) (port : Nat) (v6 : Bool) (s : State) (t : State)
    (ht : execIcmpEchoReceived h port v6 s = .next t) : t.shell = s.shell := by
  unfold execIcmpEchoReceived at ht
  injection ht with ht
  rw [← ht]
  repeat' (first | with_reducible rfl | (simp only [Reply.ok_shell, Reply.later_shell, Reply.fail_shell, Reply.wait_shell, upd_shell, emit_shell]; done) | simp only [Reply.ok_shell, Reply.later_shell, Reply.fail_shell, Reply.wait_shell, upd_shell, emit_shell] | split | with_reducible refine ite_shell ?_ ?_)

theorem execOtherFrameReceived_shell (h : HalfId) (port : Nat) (pause : Bool) (s : State) (t : State)
    (ht : execOtherFrameReceived h port pause s = .next t) : t.shell = s.shell := by
  unfold execOtherFrameReceived at ht
  injection ht with ht
  rw [← ht]
  repeat' (first | with_reducible rfl | (simp only [upd_shell]; done) | simp only [upd_shell] | split | with_reducible refine ite_shell ?_ ?_)

theorem execRtcpSenderReportReceived_shell (h : HalfId) (input ntpTime : Nat) (rtp : W32) (s : State) (t : State)
    (ht : execRtcpSenderReportReceived h input ntpTime rtp s = .next t) : t.shell = s.shell := by
  unfold execRtcpSenderReportReceived at ht
  injection ht with ht
  rw [← ht]
  repeat' (first | with_reducible rfl | (simp only [upd_shell]; done) | simp only [upd_shell] | split | with_reducible refine ite_shell ?_ ?_)

theorem execRtcpFeedbackReceived_shell (h : HalfId) (flow : Nat) (f : Feedback) (s : State) (t : State)
    (ht : execRtcpFeedbackReceived h flow f s = .next t) : t.shell = s.shell := by
  unfold execRtcpFeedbackReceived at ht
  injection ht with ht
  rw [← ht]
  repeat' (first | with_reducible rfl | (simp only [upd_shell, streamFeedback_shell]; done) | simp only [upd_shell, streamFeedback_shell] | split | with_reducible refine ite_shell ?_ ?_)

theorem execRtcpReceiverReportReceived_shell (h : HalfId) (flow : Nat) (r : ReceiverReport) (s : State) (t : State)
    (ht : execRtcpReceiverReportReceived h flow r s = .next t) : t.shell = s.shell := by
  unfold execRtcpReceiverReportReceived at ht
  injection ht with ht
  rw [← ht]
  repeat' (first | with_reducible rfl | (simp only [upd_shell]; done) | simp only [upd_shell] | split | with_reducible refine ite_shell ?_ ?_)

theorem execSenderReportTimer_shell (h : HalfId) (flow : Nat) (s : State) (t : State)
    (ht : execSenderReportTimer h flow s = .next t) : t.shell = s.shell := by
  unfold execSenderReportTimer at ht
  injection ht with ht
  rw [← ht]
  repeat' (first | with_reducible rfl | (simp only [upd_shell, free_shell, emit_shell]; done) | simp only [upd_shell, free_shell, emit_shell] | split | with_reducible refine ite_shell ?_ ?_)

theorem execReceiverReportTimer_shell (h : HalfId) (input : Nat) (s : State) (t : State)
    (ht : execReceiverReportTimer h input s = .next t) : t.shell = s.shell := by
  unfold execReceiverReportTimer at ht
  injection ht with ht
  rw [← ht]
  repeat' (first | with_reducible rfl | (simp only [upd_shell, free_shell, emit_shell]; done) | simp only [upd_shell, free_shell, emit_shell] | split | with_reducible refine ite_shell ?_ ?_)

/-! Ptp.lean -/

theorem execLinkDown_shell (h : HalfId) (port cause : Nat) (s : State) (t : State)
    (ht : execLinkDown h port cause s = .next t) : t.shell = s.shell := by
  unfold execLinkDown at ht
  injection ht with ht
  rw [← ht]
  repeat' (first | with_reducible rfl | (simp only [upd_shell, leaveUp_shell, ptpLost_shell]; done) | simp only [upd_shell, leaveUp_shell, ptpLost_shell] | split | with_reducible refine ite_shell ?_ ?_)

theorem execAdaptationTimeout_shell (h : HalfId) (port : Nat) (s : State) (t : State)
    (ht : execAdaptationTimeout h port s = .next t) : t.shell = s.shell := by
  unfold execAdaptationTimeout at ht
  injection ht with ht
  rw [← ht]
  repeat' (first | with_reducible rfl | (simp only [upd_shell, free_shell, latchHw_shell, event_shell, portLost_shell]; done) | simp only [upd_shell, free_shell, latchHw_shell, event_shell, portLost_shell] | split | with_reducible refine ite_shell ?_ ?_)

theorem execAdaptationRetry_shell (h : HalfId) (port : Nat) (s : State) (t : State)
    (ht : execAdaptationRetry h port s = .next t) : t.shell = s.shell := by
  unfold execAdaptationRetry at ht
  injection ht with ht
  rw [← ht]
  repeat' (first | with_reducible rfl | (simp only [upd_shell]; done) | simp only [upd_shell] | split | with_reducible refine ite_shell ?_ ?_)

theorem execPortReset_shell (h : HalfId) (e : CmdEntry) (s : State) (t : State)
    (ht : execPortReset h e s = .next t) : t.shell = s.shell := by
  unfold execPortReset at ht
  injection ht with ht
  rw [← ht]
  repeat' (first | with_reducible rfl | (simp only [Reply.ok_shell, Reply.later_shell, Reply.fail_shell, Reply.wait_shell, upd_shell, restartPort_shell]; done) | simp only [Reply.ok_shell, Reply.later_shell, Reply.fail_shell, Reply.wait_shell, upd_shell, restartPort_shell] | split | with_reducible refine ite_shell ?_ ?_ | with_reducible refine runCmd_shell _ _ _ _ _ _ (fun u => ?_) | with_reducible refine guarded_shell _ _ _ ?_)

theorem execPtpSyncReceived_shell (h : HalfId) (port : Nat) (twoStep : Bool) (origin receive : Nat) (s : State) (t : State)
    (ht : execPtpSyncReceived h port twoStep origin receive s = .next t) : t.shell = s.shell := by
  unfold execPtpSyncReceived at ht
  injection ht with ht
  rw [← ht]
  repeat' (first | with_reducible rfl | (simp only [upd_shell, becomeSlave_shell, syncDone_shell, servoDeadline_shell]; done) | simp only [upd_shell, becomeSlave_shell, syncDone_shell, servoDeadline_shell] | split | with_reducible refine ite_shell ?_ ?_)

theorem execPtpFollowUpReceived_shell (h : HalfId) (port origin : Nat) (s : State) (t : State)
    (ht : execPtpFollowUpReceived h port origin s = .next t) : t.shell = s.shell := by
  unfold execPtpFollowUpReceived at ht
  injection ht with ht
  rw [← ht]
  repeat' (first | with_reducible rfl | (simp only [upd_shell, syncDone_shell]; done) | simp only [upd_shell, syncDone_shell] | split | with_reducible refine ite_shell ?_ ?_)

theorem execDelayRequestInterval_shell (h : HalfId) (port : Nat) (s : State) (t : State)
    (ht : execDelayRequestInterval h port s = .next t) : t.shell = s.shell := by
  unfold execDelayRequestInterval at ht
  injection ht with ht
  rw [← ht]
  repeat' (first | with_reducible rfl | (simp only [upd_shell, emit_shell]; done) | simp only [upd_shell, emit_shell] | split | with_reducible refine ite_shell ?_ ?_)

theorem execPtpDelayRespReceived_shell (h : HalfId) (port receive : Nat) (s : State) (t : State)
    (ht : execPtpDelayRespReceived h port receive s = .next t) : t.shell = s.shell := by
  unfold execPtpDelayRespReceived at ht
  injection ht with ht
  rw [← ht]
  repeat' (first | with_reducible rfl | (simp only [upd_shell, free_shell, asrRequest_shell, setFrequency_shell, correctPhase_shell]; done) | simp only [upd_shell, free_shell, asrRequest_shell, setFrequency_shell, correctPhase_shell] | split | with_reducible refine ite_shell ?_ ?_)

theorem execPtpCorrection_shell (h : HalfId) (a : AssistEntry) (s : State) (t : State)
    (ht : execPtpCorrection h a s = .next t) : t.shell = s.shell := by
  unfold execPtpCorrection at ht
  injection ht with ht
  rw [← ht]
  repeat' (first | with_reducible rfl | (simp only [upd_shell, assistLate_shell, setFrequency_shell, correctPhase_shell]; done) | simp only [upd_shell, assistLate_shell, setFrequency_shell, correctPhase_shell] | split | with_reducible refine ite_shell ?_ ?_ | with_reducible refine runAssist_shell _ _ _ _ _ _ (fun p u => ?_))

theorem execPtpAnnounceReceived_shell (h : HalfId) (port : Nat) (a : Announce) (s : State) (t : State)
    (ht : execPtpAnnounceReceived h port a s = .next t) : t.shell = s.shell := by
  unfold execPtpAnnounceReceived at ht
  injection ht with ht
  rw [← ht]
  repeat' (first | with_reducible rfl | (simp only [upd_shell, bmca_shell]; done) | simp only [upd_shell, bmca_shell] | split | with_reducible refine ite_shell ?_ ?_)

theorem execAnnounceReceiptTimeout_shell (h : HalfId) (port : Nat) (s : State) (t : State)
    (ht : execAnnounceReceiptTimeout h port s = .next t) : t.shell = s.shell := by
  unfold execAnnounceReceiptTimeout at ht
  injection ht with ht
  rw [← ht]
  repeat' (first | with_reducible rfl | (simp only [upd_shell, slaveLost_shell]; done) | simp only [upd_shell, slaveLost_shell] | split | with_reducible refine ite_shell ?_ ?_)

theorem execPtpDelayReqReceived_shell (h : HalfId) (port receive : Nat) (s : State) (t : State)
    (ht : execPtpDelayReqReceived h port receive s = .next t) : t.shell = s.shell := by
  unfold execPtpDelayReqReceived at ht
  injection ht with ht
  rw [← ht]
  repeat' (first | with_reducible rfl | (simp only [upd_shell, emit_shell]; done) | simp only [upd_shell, emit_shell] | split | with_reducible refine ite_shell ?_ ?_)

theorem execPtpMasterInterval_shell (h : HalfId) (port : Nat) (announce : Bool) (s : State) (t : State)
    (ht : execPtpMasterInterval h port announce s = .next t) : t.shell = s.shell := by
  unfold execPtpMasterInterval at ht
  injection ht with ht
  rw [← ht]
  repeat' (first | with_reducible rfl | (simp only [upd_shell, emit_shell]; done) | simp only [upd_shell, emit_shell] | split | with_reducible refine ite_shell ?_ ?_)

theorem execHoldoverExpired_shell (h : HalfId) (s : State) (t : State)
    (ht : execHoldoverExpired h s = .next t) : t.shell = s.shell := by
  unfold execHoldoverExpired at ht
  injection ht with ht
  rw [← ht]
  repeat' (first | with_reducible rfl | (simp only [upd_shell, event_shell]; done) | simp only [upd_shell, event_shell] | split | with_reducible refine ite_shell ?_ ?_)

theorem execPpsInputEdge_shell (h : HalfId) (second : Nat) (s : State) (t : State)
    (ht : execPpsInputEdge h second s = .next t) : t.shell = s.shell := by
  unfold execPpsInputEdge at ht
  injection ht with ht
  rw [← ht]
  repeat' (first | with_reducible rfl | (simp only [upd_shell, correctPhase_shell]; done) | simp only [upd_shell, correctPhase_shell] | split | with_reducible refine ite_shell ?_ ?_)

theorem execPpsOutputPulse_shell (h : HalfId) (s : State) (t : State)
    (ht : execPpsOutputPulse h s = .next t) : t.shell = s.shell := by
  unfold execPpsOutputPulse at ht
  injection ht with ht
  rw [← ht]
  repeat' (first | with_reducible rfl | (simp only [upd_shell, emit_shell]; done) | simp only [upd_shell, emit_shell] | split | with_reducible refine ite_shell ?_ ?_)

/-! Envelope.lean -/

theorem execOverbookSet_shell (h : HalfId) (e : CmdEntry) (s : State) (t : State)
    (ht : execOverbookSet h e s = .next t) : t.shell = s.shell := by
  unfold execOverbookSet at ht
  injection ht with ht
  rw [← ht]
  repeat' (first | with_reducible rfl | (simp only [Reply.ok_shell, Reply.later_shell, Reply.fail_shell, Reply.wait_shell, upd_shell]; done) | simp only [Reply.ok_shell, Reply.later_shell, Reply.fail_shell, Reply.wait_shell, upd_shell] | split | with_reducible refine ite_shell ?_ ?_ | with_reducible refine runCmd_shell _ _ _ _ _ _ (fun u => ?_) | with_reducible refine guarded_shell _ _ _ ?_ | with_reducible refine (foldl_fst_shell _ _ _ (fun s a => ?_)).trans ?_ | with_reducible refine (foldl_shell _ _ _ (fun s a => ?_)).trans ?_)

theorem execDraftOpen_shell (h : HalfId) (e : CmdEntry) (s : State) (t : State)
    (ht : execDraftOpen h e s = .next t) : t.shell = s.shell := by
  unfold execDraftOpen at ht
  injection ht with ht
  rw [← ht]
  repeat' (first | with_reducible rfl | (simp only [Reply.ok_shell, Reply.later_shell, Reply.fail_shell, Reply.wait_shell, upd_shell]; done) | simp only [Reply.ok_shell, Reply.later_shell, Reply.fail_shell, Reply.wait_shell, upd_shell] | split | with_reducible refine ite_shell ?_ ?_ | with_reducible refine runCmd_shell _ _ _ _ _ _ (fun u => ?_) | with_reducible refine guarded_shell _ _ _ ?_)

theorem execDraftWrite_shell (h : HalfId) (e : CmdEntry) (r : RefFetch) (s : State) (t : State)
    (ht : execDraftWrite h e r s = .next t) : t.shell = s.shell := by
  unfold execDraftWrite at ht
  injection ht with ht
  rw [← ht]
  repeat' (first | with_reducible rfl | (simp only [Reply.ok_shell, Reply.later_shell, Reply.fail_shell, Reply.wait_shell, upd_shell]; done) | simp only [Reply.ok_shell, Reply.later_shell, Reply.fail_shell, Reply.wait_shell, upd_shell] | split | with_reducible refine ite_shell ?_ ?_ | with_reducible refine runCmd_shell _ _ _ _ _ _ (fun u => ?_))

theorem execDraftDiscard_shell (h : HalfId) (e : CmdEntry) (s : State) (t : State)
    (ht : execDraftDiscard h e s = .next t) : t.shell = s.shell := by
  unfold execDraftDiscard at ht
  injection ht with ht
  rw [← ht]
  repeat' (first | with_reducible rfl | (simp only [Reply.ok_shell, Reply.later_shell, Reply.fail_shell, Reply.wait_shell, upd_shell]; done) | simp only [Reply.ok_shell, Reply.later_shell, Reply.fail_shell, Reply.wait_shell, upd_shell] | split | with_reducible refine ite_shell ?_ ?_ | with_reducible refine runCmd_shell _ _ _ _ _ _ (fun u => ?_) | with_reducible refine guarded_shell _ _ _ ?_)

theorem execEnvelopeCommit_shell (h : HalfId) (e : CmdEntry) (s : State) (t : State)
    (ht : execEnvelopeCommit h e s = .next t) : t.shell = s.shell := by
  unfold execEnvelopeCommit at ht
  injection ht with ht
  rw [← ht]
  repeat' (first | with_reducible rfl | (simp only [Reply.ok_shell, Reply.later_shell, Reply.fail_shell, Reply.wait_shell, upd_shell, commitBad_shell, commitFit_shell]; done) | simp only [Reply.ok_shell, Reply.later_shell, Reply.fail_shell, Reply.wait_shell, upd_shell, commitBad_shell, commitFit_shell] | split | with_reducible refine ite_shell ?_ ?_ | with_reducible refine runCmd_shell _ _ _ _ _ _ (fun u => ?_))

theorem execEnvelopeGroupResolved_shell (lead : HalfId) (s : State) (t : State)
    (ht : execEnvelopeGroupResolved lead s = .next t) : t.shell = s.shell := by
  unfold execEnvelopeGroupResolved at ht
  injection ht with ht
  rw [← ht]
  repeat' (first | with_reducible rfl | (simp only [upd_shell, groupResolve_shell]; done) | simp only [upd_shell, groupResolve_shell] | split | with_reducible refine ite_shell ?_ ?_)

theorem execGroupPartnerTimeout_shell (h : HalfId) (s : State) (t : State)
    (ht : execGroupPartnerTimeout h s = .next t) : t.shell = s.shell := by
  unfold execGroupPartnerTimeout at ht
  injection ht with ht
  rw [← ht]
  repeat' (first | with_reducible rfl | (simp only [upd_shell, groupEvent_shell]; done) | simp only [upd_shell, groupEvent_shell] | split | with_reducible refine ite_shell ?_ ?_)

theorem execEnvelopeCancel_shell (h : HalfId) (e : CmdEntry) (s : State) (t : State)
    (ht : execEnvelopeCancel h e s = .next t) : t.shell = s.shell := by
  unfold execEnvelopeCancel at ht
  injection ht with ht
  rw [← ht]
  repeat' (first | with_reducible rfl | (simp only [Reply.ok_shell, Reply.later_shell, Reply.fail_shell, Reply.wait_shell, upd_shell, withdraw_shell]; done) | simp only [Reply.ok_shell, Reply.later_shell, Reply.fail_shell, Reply.wait_shell, upd_shell, withdraw_shell] | split | with_reducible refine ite_shell ?_ ?_ | with_reducible refine runCmd_shell _ _ _ _ _ _ (fun u => ?_) | with_reducible refine guarded_shell _ _ _ ?_ | with_reducible refine (foldl_fst_shell _ _ _ (fun s a => ?_)).trans ?_ | with_reducible refine (foldl_shell _ _ _ (fun s a => ?_)).trans ?_)

/-! Takeover.lean -/

theorem execTakeoverArm_shell (h : HalfId) (s : State) (t : State)
    (ht : execTakeoverArm h s = .next t) : t.shell = s.shell := by
  unfold execTakeoverArm at ht
  injection ht with ht
  rw [← ht]
  repeat' (first | with_reducible rfl | (simp only [upd_shell]; done) | simp only [upd_shell] | split | with_reducible refine ite_shell ?_ ?_)

theorem execEnvelopeCrcCheck_shell (h : HalfId) (s : State) (t : State)
    (ht : execEnvelopeCrcCheck h s = .next t) : t.shell = s.shell := by
  unfold execEnvelopeCrcCheck at ht
  injection ht with ht
  rw [← ht]
  repeat' (first | with_reducible rfl | (simp only [upd_shell, crcCheck_shell]; done) | simp only [upd_shell, crcCheck_shell] | split | with_reducible refine ite_shell ?_ ?_)

theorem execTakeoverTime_shell (h : HalfId) (s : State) (t : State)
    (ht : execTakeoverTime h s = .next t) : t.shell = s.shell := by
  unfold execTakeoverTime at ht
  injection ht with ht
  rw [← ht]
  repeat' (first | with_reducible rfl | (simp only [upd_shell, crcCheck_shell, takeoverBegin_shell]; done) | simp only [upd_shell, crcCheck_shell, takeoverBegin_shell] | split | with_reducible refine ite_shell ?_ ?_)

/-! Dram.lean -/

theorem execDramRequest_shell (h : HalfId) (channel : Nat) (m : ScrimMoves) (ecc : EccOutcome) (s : State) (t : State)
    (ht : execDramRequest h channel m ecc s = .next t) : t.shell = s.shell := by
  unfold execDramRequest settled at ht
  injection ht with ht
  rw [← ht]
  repeat' (first | with_reducible rfl | (simp only [upd_shell, dramIssue_shell, settle_shell]; done) | simp only [upd_shell, dramIssue_shell, settle_shell] | split | with_reducible refine ite_shell ?_ ?_ | with_reducible refine (foldl_fst_shell _ _ _ (fun s a => ?_)).trans ?_ | with_reducible refine (foldl_shell _ _ _ (fun s a => ?_)).trans ?_)

theorem execPageIdleTimeout_shell (h : HalfId) (channel bank : Nat) (s : State) (t : State)
    (ht : execPageIdleTimeout h channel bank s = .next t) : t.shell = s.shell := by
  unfold execPageIdleTimeout at ht
  injection ht with ht
  rw [← ht]
  repeat' (first | with_reducible rfl | (simp only [upd_shell]; done) | simp only [upd_shell] | split | with_reducible refine ite_shell ?_ ?_)

theorem execDramRefresh_shell (h : HalfId) (channel : Nat) (s : State) (t : State)
    (ht : execDramRefresh h channel s = .next t) : t.shell = s.shell := by
  unfold execDramRefresh at ht
  injection ht with ht
  rw [← ht]
  repeat' (first | with_reducible rfl | (simp only [upd_shell]; done) | simp only [upd_shell] | split | with_reducible refine ite_shell ?_ ?_)

theorem execRefreshWindowEnd_shell (h : HalfId) (channel : Nat) (s : State) (t : State)
    (ht : execRefreshWindowEnd h channel s = .next t) : t.shell = s.shell := by
  unfold execRefreshWindowEnd at ht
  injection ht with ht
  rw [← ht]
  repeat' (first | with_reducible rfl | (simp only [upd_shell]; done) | simp only [upd_shell] | split | with_reducible refine ite_shell ?_ ?_)

theorem execMr4Poll_shell (h : HalfId) (channel : Nat) (rates : List Nat) (phyTemp : Int) (s : State) (t : State)
    (ht : execMr4Poll h channel rates phyTemp s = .next t) : t.shell = s.shell := by
  unfold execMr4Poll at ht
  injection ht with ht
  rw [← ht]
  repeat' (first | with_reducible rfl | (simp only [upd_shell]; done) | simp only [upd_shell] | split | with_reducible refine ite_shell ?_ ?_)

theorem execScrubStep_shell (h : HalfId) (channel : Nat) (ecc : EccOutcome) (word : Nat) (s : State) (t : State)
    (ht : execScrubStep h channel ecc word s = .next t) : t.shell = s.shell := by
  unfold execScrubStep settled at ht
  injection ht with ht
  rw [← ht]
  repeat' (first | with_reducible rfl | (simp only [upd_shell, eccApply_shell, scrubLap_shell, settle_shell]; done) | simp only [upd_shell, eccApply_shell, scrubLap_shell, settle_shell] | split | with_reducible refine ite_shell ?_ ?_)

theorem execZeroFillDone_shell (h : HalfId) (block : Nat) (s : State) (t : State)
    (ht : execZeroFillDone h block s = .next t) : t.shell = s.shell := by
  unfold execZeroFillDone at ht
  injection ht with ht
  rw [← ht]
  repeat' (first | with_reducible rfl | (simp only [upd_shell]; done) | simp only [upd_shell] | split | with_reducible refine ite_shell ?_ ?_)

theorem execRetrainStart_shell (h : HalfId) (channel : Nat) (s : State) (t : State)
    (ht : execRetrainStart h channel s = .next t) : t.shell = s.shell := by
  unfold execRetrainStart at ht
  injection ht with ht
  rw [← ht]
  repeat' (first | with_reducible rfl | (simp only [upd_shell, asrRequest_shell]; done) | simp only [upd_shell, asrRequest_shell] | split | with_reducible refine ite_shell ?_ ?_)

theorem execRetrainDone_shell (h : HalfId) (channel : Nat) (lanes : List LaneSweep) (s : State) (t : State)
    (ht : execRetrainDone h channel lanes s = .next t) : t.shell = s.shell := by
  unfold execRetrainDone settled at ht
  injection ht with ht
  rw [← ht]
  repeat' (first | with_reducible rfl | (simp only [upd_shell, latchHw_shell, event_shell, evacBegin_shell, settle_shell]; done) | simp only [upd_shell, latchHw_shell, event_shell, evacBegin_shell, settle_shell] | split | with_reducible refine ite_shell ?_ ?_)

theorem execRetrainDeadline_shell (h : HalfId) (channel : Nat) (s : State) (t : State)
    (ht : execRetrainDeadline h channel s = .next t) : t.shell = s.shell := by
  unfold execRetrainDeadline at ht
  injection ht with ht
  rw [← ht]
  repeat' (first | with_reducible rfl | (simp only [upd_shell, assistLate_shell]; done) | simp only [upd_shell, assistLate_shell] | split | with_reducible refine ite_shell ?_ ?_)

theorem execRetrainTime_shell (h : HalfId) (a : AssistEntry) (s : State) (t : State)
    (ht : execRetrainTime h a s = .next t) : t.shell = s.shell := by
  unfold execRetrainTime at ht
  injection ht with ht
  rw [← ht]
  repeat' (first | with_reducible rfl | (simp only [upd_shell, assistLate_shell]; done) | simp only [upd_shell, assistLate_shell] | split | with_reducible refine ite_shell ?_ ?_ | with_reducible refine runAssist_shell _ _ _ _ _ _ (fun p u => ?_))

theorem execChannelRetrain_shell (h : HalfId) (e : CmdEntry) (s : State) (t : State)
    (ht : execChannelRetrain h e s = .next t) : t.shell = s.shell := by
  unfold execChannelRetrain at ht
  injection ht with ht
  rw [← ht]
  repeat' (first | with_reducible rfl | (simp only [Reply.ok_shell, Reply.later_shell, Reply.fail_shell, Reply.wait_shell, upd_shell]; done) | simp only [Reply.ok_shell, Reply.later_shell, Reply.fail_shell, Reply.wait_shell, upd_shell] | split | with_reducible refine ite_shell ?_ ?_ | with_reducible refine runCmd_shell _ _ _ _ _ _ (fun u => ?_) | with_reducible refine guarded_shell _ _ _ ?_)

theorem execRegionCopyDone_shell (h : HalfId) (region : Nat) (s : State) (t : State)
    (ht : execRegionCopyDone h region s = .next t) : t.shell = s.shell := by
  unfold execRegionCopyDone settled at ht
  injection ht with ht
  rw [← ht]
  repeat' (first | with_reducible rfl | (simp only [upd_shell, regionCopied_shell, settle_shell]; done) | simp only [upd_shell, regionCopied_shell, settle_shell] | split | with_reducible refine ite_shell ?_ ?_)

theorem execReserveMoved_shell (h : HalfId) (s : State) (t : State)
    (ht : execReserveMoved h s = .next t) : t.shell = s.shell := by
  unfold execReserveMoved settled at ht
  injection ht with ht
  rw [← ht]
  repeat' (first | with_reducible rfl | (simp only [upd_shell, event_shell, settle_shell]; done) | simp only [upd_shell, event_shell, settle_shell] | split | with_reducible refine ite_shell ?_ ?_)

theorem execBlockRetire_shell (h : HalfId) (e : CmdEntry) (s : State) (t : State)
    (ht : execBlockRetire h e s = .next t) : t.shell = s.shell := by
  unfold execBlockRetire at ht
  injection ht with ht
  rw [← ht]
  repeat' (first | with_reducible rfl | (simp only [Reply.ok_shell, Reply.later_shell, Reply.fail_shell, Reply.wait_shell, upd_shell, settle_shell, leaveBlocks_shell]; done) | simp only [Reply.ok_shell, Reply.later_shell, Reply.fail_shell, Reply.wait_shell, upd_shell, settle_shell, leaveBlocks_shell] | split | with_reducible refine ite_shell ?_ ?_ | with_reducible refine runCmd_shell _ _ _ _ _ _ (fun u => ?_) | with_reducible refine guarded_shell _ _ _ ?_)

theorem execChannelThaw_shell (h : HalfId) (e : CmdEntry) (s : State) (t : State)
    (ht : execChannelThaw h e s = .next t) : t.shell = s.shell := by
  unfold execChannelThaw at ht
  injection ht with ht
  rw [← ht]
  repeat' (first | with_reducible rfl | (simp only [Reply.ok_shell, Reply.later_shell, Reply.fail_shell, Reply.wait_shell, upd_shell, settle_shell, leaveBlocks_shell, thaw_shell]; done) | simp only [Reply.ok_shell, Reply.later_shell, Reply.fail_shell, Reply.wait_shell, upd_shell, settle_shell, leaveBlocks_shell, thaw_shell] | split | with_reducible refine ite_shell ?_ ?_ | with_reducible refine runCmd_shell _ _ _ _ _ _ (fun u => ?_) | with_reducible refine guarded_shell _ _ _ ?_)

/-! Faults.lean -/

theorem execFaultLatched_shell (h : HalfId) (r : FaultReport) (s : State) (t : State)
    (ht : execFaultLatched h r s = .next t) : t.shell = s.shell := by
  unfold execFaultLatched settled at ht
  injection ht with ht
  rw [← ht]
  repeat' (first | with_reducible rfl | (simp only [upd_shell, crossingMeets_shell, pinRises_shell, flitFails_shell, settle_shell]; done) | simp only [upd_shell, crossingMeets_shell, pinRises_shell, flitFails_shell, settle_shell] | split | with_reducible refine ite_shell ?_ ?_)

theorem execFaultClear_shell (h : HalfId) (e : CmdEntry) (s : State) (t : State)
    (ht : execFaultClear h e s = .next t) : t.shell = s.shell := by
  unfold execFaultClear at ht
  injection ht with ht
  rw [← ht]
  repeat' (first | with_reducible rfl | (simp only [Reply.ok_shell, Reply.later_shell, Reply.fail_shell, Reply.wait_shell, upd_shell, icuWithdraw_shell]; done) | simp only [Reply.ok_shell, Reply.later_shell, Reply.fail_shell, Reply.wait_shell, upd_shell, icuWithdraw_shell] | split | with_reducible refine ite_shell ?_ ?_ | with_reducible refine runCmd_shell _ _ _ _ _ _ (fun u => ?_) | with_reducible refine (foldl_fst_shell _ _ _ (fun s a => ?_)).trans ?_ | with_reducible refine (foldl_shell _ _ _ (fun s a => ?_)).trans ?_)

theorem execFaultInject_shell (h : HalfId) (e : CmdEntry) (s : State) (t : State)
    (ht : execFaultInject h e s = .next t) : t.shell = s.shell := by
  unfold execFaultInject at ht
  injection ht with ht
  rw [← ht]
  repeat' (first | with_reducible rfl | (simp only [Reply.ok_shell, Reply.later_shell, Reply.fail_shell, Reply.wait_shell, upd_shell]; done) | simp only [Reply.ok_shell, Reply.later_shell, Reply.fail_shell, Reply.wait_shell, upd_shell] | split | with_reducible refine ite_shell ?_ ?_ | with_reducible refine runCmd_shell _ _ _ _ _ _ (fun u => ?_) | with_reducible refine guarded_shell _ _ _ ?_)

theorem execFaultAction_shell (h : HalfId) (e : CmdEntry) (s : State) (t : State)
    (ht : execFaultAction h e s = .next t) : t.shell = s.shell := by
  unfold execFaultAction at ht
  injection ht with ht
  rw [← ht]
  repeat' (first | with_reducible rfl | (simp only [Reply.ok_shell, Reply.later_shell, Reply.fail_shell, Reply.wait_shell, upd_shell, retireSource_shell, restartSource_shell, settle_shell]; done) | simp only [Reply.ok_shell, Reply.later_shell, Reply.fail_shell, Reply.wait_shell, upd_shell, retireSource_shell, restartSource_shell, settle_shell] | split | with_reducible refine ite_shell ?_ ?_ | with_reducible refine runCmd_shell _ _ _ _ _ _ (fun u => ?_) | with_reducible refine guarded_shell _ _ _ ?_)

theorem execReactionDefaulted_shell (h : HalfId) (source : Nat) (s : State) (t : State)
    (ht : execReactionDefaulted h source s = .next t) : t.shell = s.shell := by
  unfold execReactionDefaulted settled at ht
  injection ht with ht
  rw [← ht]
  repeat' (first | with_reducible rfl | (simp only [upd_shell, event_shell, reactSecond_shell, settle_shell]; done) | simp only [upd_shell, event_shell, reactSecond_shell, settle_shell] | split | with_reducible refine ite_shell ?_ ?_)

theorem execUnitRetire_shell (h : HalfId) (e : CmdEntry) (s : State) (t : State)
    (ht : execUnitRetire h e s = .next t) : t.shell = s.shell := by
  unfold execUnitRetire at ht
  injection ht with ht
  rw [← ht]
  repeat' (first | with_reducible rfl | (simp only [Reply.ok_shell, Reply.later_shell, Reply.fail_shell, Reply.wait_shell, upd_shell, retireHalf_shell, settle_shell, retireNow_shell]; done) | simp only [Reply.ok_shell, Reply.later_shell, Reply.fail_shell, Reply.wait_shell, upd_shell, retireHalf_shell, settle_shell, retireNow_shell] | split | with_reducible refine ite_shell ?_ ?_ | with_reducible refine runCmd_shell _ _ _ _ _ _ (fun u => ?_) | with_reducible refine guarded_shell _ _ _ ?_)

theorem execUnitHold_shell (h : HalfId) (kind : UnitKind) (index : Nat) (s : State) (t : State)
    (ht : execUnitHold h kind index s = .next t) : t.shell = s.shell := by
  unfold execUnitHold settled at ht
  injection ht with ht
  rw [← ht]
  repeat' (first | with_reducible rfl | (simp only [upd_shell, enableClear_shell, settle_shell]; done) | simp only [upd_shell, enableClear_shell, settle_shell] | split | with_reducible refine ite_shell ?_ ?_ | with_reducible refine hostWriteTo_shell _ _ _ (fun u => ?_))

theorem execUnitReturn_shell (h : HalfId) (kind : UnitKind) (index : Nat) (s : State) (t : State)
    (ht : execUnitReturn h kind index s = .next t) : t.shell = s.shell := by
  unfold execUnitReturn settled at ht
  injection ht with ht
  rw [← ht]
  repeat' (first | with_reducible rfl | (simp only [upd_shell, enableSet_shell, settle_shell]; done) | simp only [upd_shell, enableSet_shell, settle_shell] | split | with_reducible refine ite_shell ?_ ?_ | with_reducible refine hostWriteTo_shell _ _ _ (fun u => ?_))

theorem execClockMonitorTrip_shell (h : HalfId) (island kilohertz : Nat) (s : State) (t : State)
    (ht : execClockMonitorTrip h island kilohertz s = .next t) : t.shell = s.shell := by
  unfold execClockMonitorTrip settled at ht
  injection ht with ht
  rw [← ht]
  repeat' (first | with_reducible rfl | (simp only [upd_shell, latchHw_shell, event_shell, retirePort_shell, retireHalf_shell, retireChannel_shell, settle_shell]; done) | simp only [upd_shell, latchHw_shell, event_shell, retirePort_shell, retireHalf_shell, retireChannel_shell, settle_shell] | split | with_reducible refine ite_shell ?_ ?_)

theorem execIslandClockRelock_shell (h : HalfId) (island : Nat) (s : State) (t : State)
    (ht : execIslandClockRelock h island s = .next t) : t.shell = s.shell := by
  unfold execIslandClockRelock settled at ht
  injection ht with ht
  rw [← ht]
  repeat' (first | with_reducible rfl | (simp only [upd_shell, restartSource_shell, settle_shell]; done) | simp only [upd_shell, restartSource_shell, settle_shell] | split | with_reducible refine ite_shell ?_ ?_)

theorem execClockStepEvaluation_shell (h : HalfId) (island depth capacity : Nat) (s : State) (t : State)
    (ht : execClockStepEvaluation h island depth capacity s = .next t) : t.shell = s.shell := by
  unfold execClockStepEvaluation at ht
  injection ht with ht
  rw [← ht]
  repeat' (first | with_reducible rfl | (simp only [upd_shell]; done) | simp only [upd_shell] | split | with_reducible refine ite_shell ?_ ?_)

theorem execIslandPowerOff_shell (h : HalfId) (island : Nat) (s : State) (t : State)
    (ht : execIslandPowerOff h island s = .next t) : t.shell = s.shell := by
  unfold execIslandPowerOff at ht
  injection ht with ht
  rw [← ht]
  repeat' (first | with_reducible rfl | (simp only [upd_shell]; done) | simp only [upd_shell] | split | with_reducible refine ite_shell ?_ ?_)

theorem execIslandPowerUp_shell (h : HalfId) (island : Nat) (s : State) (t : State)
    (ht : execIslandPowerUp h island s = .next t) : t.shell = s.shell := by
  unfold execIslandPowerUp at ht
  injection ht with ht
  rw [← ht]
  repeat' (first | with_reducible rfl | (simp only [upd_shell]; done) | simp only [upd_shell] | split | with_reducible refine ite_shell ?_ ?_)

/-! Sequencers.lean -/

theorem execSafePoint_shell (h : HalfId) (block : Nat) (s : State) (t : State)
    (ht : execSafePoint h block s = .next t) : t.shell = s.shell := by
  unfold execSafePoint settled at ht
  injection ht with ht
  rw [← ht]
  repeat' (first | with_reducible rfl | (simp only [upd_shell, safePointDo_shell, settle_shell]; done) | simp only [upd_shell, safePointDo_shell, settle_shell] | split | with_reducible refine ite_shell ?_ ?_)

theorem execMachineCheck_shell (h : HalfId) (block : Nat) (condition : Bool) (ctuType ctu : Nat) (stalled : Bool) (upset : BitVec 152) (s : State) (t : State)
    (ht : execMachineCheck h block condition ctuType ctu stalled upset s = .next t) : t.shell = s.shell := by
  unfold execMachineCheck settled at ht
  injection ht with ht
  rw [← ht]
  repeat' (first | with_reducible rfl | (simp only [upd_shell, safePointDo_shell, fetchDo_shell, settle_shell]; done) | simp only [upd_shell, safePointDo_shell, fetchDo_shell, settle_shell] | split | with_reducible refine ite_shell ?_ ?_)

theorem execStoreReloaded_shell (h : HalfId) (block : Nat) (fetched : Option SignedItem) (readBackFails : Nat) (s : State) (t : State)
    (ht : execStoreReloaded h block fetched readBackFails s = .next t) : t.shell = s.shell := by
  unfold execStoreReloaded settled at ht
  injection ht with ht
  rw [← ht]
  repeat' (first | with_reducible rfl | (simp only [upd_shell, latchHw_shell, event_shell, restartSource_shell, settle_shell]; done) | simp only [upd_shell, latchHw_shell, event_shell, restartSource_shell, settle_shell] | split | with_reducible refine ite_shell ?_ ?_ | with_reducible refine (foldl_fst_shell _ _ _ (fun s a => ?_)).trans ?_ | with_reducible refine (foldl_shell _ _ _ (fun s a => ?_)).trans ?_)

theorem execReadbackRound_shell (h : HalfId) (upsets : List (Nat × Nat × BitVec 152)) (s : State) (t : State)
    (ht : execReadbackRound h upsets s = .next t) : t.shell = s.shell := by
  unfold execReadbackRound settled at ht
  injection ht with ht
  rw [← ht]
  repeat' (first | with_reducible rfl | (simp only [upd_shell, readBackUnit_shell, settle_shell]; done) | simp only [upd_shell, readBackUnit_shell, settle_shell] | split | with_reducible refine ite_shell ?_ ?_ | with_reducible refine (foldl_fst_shell _ _ _ (fun s a => ?_)).trans ?_ | with_reducible refine (foldl_shell _ _ _ (fun s a => ?_)).trans ?_)

theorem execSeqTrace_shell (h : HalfId) (e : CmdEntry) (s : State) (t : State)
    (ht : execSeqTrace h e s = .next t) : t.shell = s.shell := by
  unfold execSeqTrace at ht
  injection ht with ht
  rw [← ht]
  repeat' (first | with_reducible rfl | (simp only [Reply.ok_shell, Reply.later_shell, Reply.fail_shell, Reply.wait_shell, upd_shell]; done) | simp only [Reply.ok_shell, Reply.later_shell, Reply.fail_shell, Reply.wait_shell, upd_shell] | split | with_reducible refine ite_shell ?_ ?_ | with_reducible refine runCmd_shell _ _ _ _ _ _ (fun u => ?_) | with_reducible refine guarded_shell _ _ _ ?_)

theorem execDiagDump_shell (h : HalfId) (e : CmdEntry) (s : State) (t : State)
    (ht : execDiagDump h e s = .next t) : t.shell = s.shell := by
  unfold execDiagDump at ht
  injection ht with ht
  rw [← ht]
  repeat' (first | with_reducible rfl | (simp only [Reply.ok_shell, Reply.later_shell, Reply.fail_shell, Reply.wait_shell, upd_shell, addDeferred_shell]; done) | simp only [Reply.ok_shell, Reply.later_shell, Reply.fail_shell, Reply.wait_shell, upd_shell, addDeferred_shell] | split | with_reducible refine ite_shell ?_ ?_ | with_reducible refine runCmd_shell _ _ _ _ _ _ (fun u => ?_) | with_reducible refine guarded_shell _ _ _ ?_)

/-! Bridle.lean -/

theorem execBridleClaimReceived_shell (h : HalfId) (claim : Bool) (epoch : W32) (s : State) (t : State)
    (ht : execBridleClaimReceived h claim epoch s = .next t) : t.shell = s.shell := by
  unfold execBridleClaimReceived at ht
  injection ht with ht
  rw [← ht]
  repeat' (first | with_reducible rfl | (simp only [upd_shell, askLead_shell, conflictDo_shell]; done) | simp only [upd_shell, askLead_shell, conflictDo_shell] | split | with_reducible refine ite_shell ?_ ?_)

theorem execLeadYield_shell (h : HalfId) (e : CmdEntry) (s : State) (t : State)
    (ht : execLeadYield h e s = .next t) : t.shell = s.shell := by
  unfold execLeadYield at ht
  injection ht with ht
  rw [← ht]
  repeat' (first | with_reducible rfl | (simp only [Reply.ok_shell, Reply.later_shell, Reply.fail_shell, Reply.wait_shell, upd_shell, latchHw_shell, ptpTakes_shell, leadSet_shell]; done) | simp only [Reply.ok_shell, Reply.later_shell, Reply.fail_shell, Reply.wait_shell, upd_shell, latchHw_shell, ptpTakes_shell, leadSet_shell] | split | with_reducible refine ite_shell ?_ ?_ | with_reducible refine runCmd_shell _ _ _ _ _ _ (fun u => ?_) | with_reducible refine guarded_shell _ _ _ ?_)

theorem execLeadAssign_shell (h : HalfId) (e : CmdEntry) (s : State) (t : State)
    (ht : execLeadAssign h e s = .next t) : t.shell = s.shell := by
  unfold execLeadAssign at ht
  injection ht with ht
  rw [← ht]
  repeat' (first | with_reducible rfl | (simp only [Reply.ok_shell, Reply.later_shell, Reply.fail_shell, Reply.wait_shell, upd_shell, assignLead_shell]; done) | simp only [Reply.ok_shell, Reply.later_shell, Reply.fail_shell, Reply.wait_shell, upd_shell, assignLead_shell] | split | with_reducible refine ite_shell ?_ ?_ | with_reducible refine runCmd_shell _ _ _ _ _ _ (fun u => ?_) | with_reducible refine guarded_shell _ _ _ ?_)

theorem execBridleRead_shell (h : HalfId) (e : CmdEntry) (s : State) (t : State)
    (ht : execBridleRead h e s = .next t) : t.shell = s.shell := by
  unfold execBridleRead at ht
  injection ht with ht
  rw [← ht]
  repeat' (first | with_reducible rfl | (simp only [Reply.ok_shell, Reply.later_shell, Reply.fail_shell, Reply.wait_shell, upd_shell]; done) | simp only [Reply.ok_shell, Reply.later_shell, Reply.fail_shell, Reply.wait_shell, upd_shell] | split | with_reducible refine ite_shell ?_ ?_ | with_reducible refine runCmd_shell _ _ _ _ _ _ (fun u => ?_))

theorem execLeadDecision_shell (h : HalfId) (a : AssistEntry) (s : State) (t : State)
    (ht : execLeadDecision h a s = .next t) : t.shell = s.shell := by
  unfold execLeadDecision at ht
  injection ht with ht
  rw [← ht]
  repeat' (first | with_reducible rfl | (simp only [upd_shell, assistLate_shell, assignLead_shell, leadDefault_shell]; done) | simp only [upd_shell, assistLate_shell, assignLead_shell, leadDefault_shell] | split | with_reducible refine ite_shell ?_ ?_ | with_reducible refine runAssist_shell _ _ _ _ _ _ (fun p u => ?_))

theorem execLeadDecisionDeadline_shell (h : HalfId) (s : State) (t : State)
    (ht : execLeadDecisionDeadline h s = .next t) : t.shell = s.shell := by
  unfold execLeadDecisionDeadline at ht
  injection ht with ht
  rw [← ht]
  repeat' (first | with_reducible rfl | (simp only [upd_shell, assistLate_shell, leadDefault_shell]; done) | simp only [upd_shell, assistLate_shell, leadDefault_shell] | split | with_reducible refine ite_shell ?_ ?_)

theorem execPartnerTetherLost_shell (h : HalfId) (s : State) (t : State)
    (ht : execPartnerTetherLost h s = .next t) : t.shell = s.shell := by
  unfold execPartnerTetherLost settled at ht
  injection ht with ht
  rw [← ht]
  repeat' (first | with_reducible rfl | (simp only [upd_shell, latchHw_shell, partnerGone_shell, settle_shell]; done) | simp only [upd_shell, latchHw_shell, partnerGone_shell, settle_shell] | split | with_reducible refine ite_shell ?_ ?_)

theorem execPartnerAbsent_shell (h : HalfId) (s : State) (t : State)
    (ht : execPartnerAbsent h s = .next t) : t.shell = s.shell := by
  unfold execPartnerAbsent settled at ht
  injection ht with ht
  rw [← ht]
  repeat' (first | with_reducible rfl | (simp only [upd_shell, latchHw_shell, event_shell, leadSet_shell, settle_shell]; done) | simp only [upd_shell, latchHw_shell, event_shell, leadSet_shell, settle_shell] | split | with_reducible refine ite_shell ?_ ?_)

theorem execPartnerSeenAlive_shell (h : HalfId) (s : State) (t : State)
    (ht : execPartnerSeenAlive h s = .next t) : t.shell = s.shell := by
  unfold execPartnerSeenAlive at ht
  injection ht with ht
  rw [← ht]
  repeat' (first | with_reducible rfl | (simp only [upd_shell]; done) | simp only [upd_shell] | split | with_reducible refine ite_shell ?_ ?_)

theorem execHalfStoppedReceived_shell (h : HalfId) (flows : List FlowSeq) (s : State) (t : State)
    (ht : execHalfStoppedReceived h flows s = .next t) : t.shell = s.shell := by
  unfold execHalfStoppedReceived settled at ht
  injection ht with ht
  rw [← ht]
  repeat' (first | with_reducible rfl | (simp only [upd_shell, foreignSessions_shell, partnerGone_shell, settle_shell]; done) | simp only [upd_shell, foreignSessions_shell, partnerGone_shell, settle_shell] | split | with_reducible refine ite_shell ?_ ?_)

theorem execTakeoverReceived_shell (h : HalfId) (s : State) (t : State)
    (ht : execTakeoverReceived h s = .next t) : t.shell = s.shell := by
  unfold execTakeoverReceived at ht
  injection ht with ht
  rw [← ht]
  repeat' (first | with_reducible rfl | (simp only [upd_shell, emit_shell]; done) | simp only [upd_shell, emit_shell] | split | with_reducible refine ite_shell ?_ ?_)

theorem execStopAckReceived_shell (h : HalfId) (flows : List FlowSeq) (s : State) (t : State)
    (ht : execStopAckReceived h flows s = .next t) : t.shell = s.shell := by
  unfold execStopAckReceived settled at ht
  injection ht with ht
  rw [← ht]
  repeat' (first | with_reducible rfl | (simp only [upd_shell, ownSessions_shell, foreignSessions_shell, settle_shell]; done) | simp only [upd_shell, ownSessions_shell, foreignSessions_shell, settle_shell] | split | with_reducible refine ite_shell ?_ ?_)

theorem execTakeoverReplyTimeout_shell (h : HalfId) (s : State) (t : State)
    (ht : execTakeoverReplyTimeout h s = .next t) : t.shell = s.shell := by
  unfold execTakeoverReplyTimeout settled at ht
  injection ht with ht
  rw [← ht]
  repeat' (first | with_reducible rfl | (simp only [upd_shell, foreignSessions_shell, settle_shell]; done) | simp only [upd_shell, foreignSessions_shell, settle_shell] | split | with_reducible refine ite_shell ?_ ?_)

theorem execSparDown_shell (h : HalfId) (events : List LaneEvent) (s : State) (t : State)
    (ht : execSparDown h events s = .next t) : t.shell = s.shell := by
  unfold execSparDown settled at ht
  injection ht with ht
  rw [← ht]
  repeat' (first | with_reducible rfl | (simp only [upd_shell, latchHw_shell, event_shell, ptpSplit_shell, foreignSessions_shell, linkGone_shell, settle_shell]; done) | simp only [upd_shell, latchHw_shell, event_shell, ptpSplit_shell, foreignSessions_shell, linkGone_shell, settle_shell] | split | with_reducible refine ite_shell ?_ ?_ | with_reducible refine (foldl_fst_shell _ _ _ (fun s a => ?_)).trans ?_ | with_reducible refine (foldl_shell _ _ _ (fun s a => ?_)).trans ?_)

theorem execSparDownHoldoffExpiry_shell (h : HalfId) (s : State) (t : State)
    (ht : execSparDownHoldoffExpiry h s = .next t) : t.shell = s.shell := by
  unfold execSparDownHoldoffExpiry at ht
  injection ht with ht
  rw [← ht]
  repeat' (first | with_reducible rfl | (simp only [upd_shell, leadTrigger_shell]; done) | simp only [upd_shell, leadTrigger_shell] | split | with_reducible refine ite_shell ?_ ?_)

theorem execSparUp_shell (h : HalfId) (s : State) (t : State)
    (ht : execSparUp h s = .next t) : t.shell = s.shell := by
  unfold execSparUp settled at ht
  injection ht with ht
  rw [← ht]
  repeat' (first | with_reducible rfl | (simp only [upd_shell, event_shell, rejoin_shell, settle_shell]; done) | simp only [upd_shell, event_shell, rejoin_shell, settle_shell] | split | with_reducible refine ite_shell ?_ ?_)

/-! Streams.lean -/

theorem execStreamStart_shell (h : HalfId) (e : CmdEntry) (s : State) (t : State)
    (ht : execStreamStart h e s = .next t) : t.shell = s.shell := by
  unfold execStreamStart at ht
  injection ht with ht
  rw [← ht]
  repeat' (first | with_reducible rfl | (simp only [upd_shell, runBody_shell]; done) | simp only [upd_shell, runBody_shell] | split | with_reducible refine ite_shell ?_ ?_ | with_reducible refine runCmd_shell _ _ _ _ _ _ (fun u => ?_))

theorem execStreamStop_shell (h : HalfId) (e : CmdEntry) (s : State) (t : State)
    (ht : execStreamStop h e s = .next t) : t.shell = s.shell := by
  unfold execStreamStop at ht
  injection ht with ht
  rw [← ht]
  repeat' (first | with_reducible rfl | (simp only [upd_shell, runBody_shell]; done) | simp only [upd_shell, runBody_shell] | split | with_reducible refine ite_shell ?_ ?_ | with_reducible refine runCmd_shell _ _ _ _ _ _ (fun u => ?_))

theorem execStreamDrain_shell (h : HalfId) (e : CmdEntry) (s : State) (t : State)
    (ht : execStreamDrain h e s = .next t) : t.shell = s.shell := by
  unfold execStreamDrain at ht
  injection ht with ht
  rw [← ht]
  repeat' (first | with_reducible rfl | (simp only [upd_shell, runBody_shell]; done) | simp only [upd_shell, runBody_shell] | split | with_reducible refine ite_shell ?_ ?_ | with_reducible refine runCmd_shell _ _ _ _ _ _ (fun u => ?_))

theorem execWaitingStartExecution_shell (h : HalfId) (object : Handle) (s : State) (t : State)
    (ht : execWaitingStartExecution h object s = .next t) : t.shell = s.shell := by
  unfold execWaitingStartExecution at ht
  injection ht with ht
  rw [← ht]
  repeat' (first | with_reducible rfl | (simp only [upd_shell, deferredEnd_shell, runDo_shell, runLater_shell]; done) | simp only [upd_shell, deferredEnd_shell, runDo_shell, runLater_shell] | split | with_reducible refine ite_shell ?_ ?_ | with_reducible refine (foldl_fst_shell _ _ _ (fun s a => ?_)).trans ?_ | with_reducible refine (foldl_shell _ _ _ (fun s a => ?_)).trans ?_)

theorem execSparForwardedCommand_shell (h : HalfId) (c : Forwarded) (s : State) (t : State)
    (ht : execSparForwardedCommand h c s = .next t) : t.shell = s.shell := by
  unfold execSparForwardedCommand at ht
  injection ht with ht
  rw [← ht]
  repeat' (first | with_reducible rfl | (simp only [upd_shell, forwardedDo_shell]; done) | simp only [upd_shell, forwardedDo_shell] | split | with_reducible refine ite_shell ?_ ?_)

/-! Delivery.lean -/

theorem execEventDelivery_shell (h : HalfId) (s : State) (t : State)
    (ht : execEventDelivery h s = .next t) : t.shell = s.shell := by
  unfold execEventDelivery at ht
  injection ht with ht
  rw [← ht]
  repeat' (first | with_reducible rfl | (simp only [upd_shell, evWrite_shell, instantOut_shell]; done) | simp only [upd_shell, evWrite_shell, instantOut_shell] | split | with_reducible refine ite_shell ?_ ?_)

theorem execAsrBacklogDrain_shell (h : HalfId) (s : State) (t : State)
    (ht : execAsrBacklogDrain h s = .next t) : t.shell = s.shell := by
  unfold execAsrBacklogDrain at ht
  injection ht with ht
  rw [← ht]
  repeat' (first | with_reducible rfl | (simp only [upd_shell, drainAssist_shell]; done) | simp only [upd_shell, drainAssist_shell] | split | with_reducible refine ite_shell ?_ ?_)

theorem execAsrRequestWithdrawn_shell (h : HalfId) (index : Nat) (s : State) (t : State)
    (ht : execAsrRequestWithdrawn h index s = .next t) : t.shell = s.shell := by
  unfold execAsrRequestWithdrawn settled at ht
  injection ht with ht
  rw [← ht]
  repeat' (first | with_reducible rfl | (simp only [upd_shell, requestDefault_shell, settle_shell]; done) | simp only [upd_shell, requestDefault_shell, settle_shell] | split | with_reducible refine ite_shell ?_ ?_)

theorem execPoolAllocRetry_shell (h : HalfId) (engine size count : Nat) (s : State) (t : State)
    (ht : execPoolAllocRetry h engine size count s = .next t) : t.shell = s.shell := by
  unfold execPoolAllocRetry at ht
  injection ht with ht
  rw [← ht]
  repeat' (first | with_reducible rfl | (simp only [upd_shell, poolAlloc_shell]; done) | simp only [upd_shell, poolAlloc_shell] | split | with_reducible refine ite_shell ?_ ?_)

/-! Registers.lean -/

theorem execRegisterWrite_shell (h : HalfId) (offset width : Nat) (value : W64) (s : State) (t : State)
    (ht : execRegisterWrite h offset width value s = .next t) : t.shell = s.shell := by
  unfold execRegisterWrite settled at ht
  injection ht with ht
  rw [← ht]
  repeat' (first | with_reducible rfl | (simp only [upd_shell, registerDo_shell, settle_shell]; done) | simp only [upd_shell, registerDo_shell, settle_shell] | split | with_reducible refine ite_shell ?_ ?_ | with_reducible refine hostWriteTo_shell _ _ _ (fun u => ?_))

theorem execPcieLinkDown_shell (h : HalfId) (s : State) (t : State)
    (ht : execPcieLinkDown h s = .next t) : t.shell = s.shell := by
  unfold execPcieLinkDown settled at ht
  injection ht with ht
  rw [← ht]
  repeat' (first | with_reducible rfl | (simp only [upd_shell, latchHw_shell, settle_shell]; done) | simp only [upd_shell, latchHw_shell, settle_shell] | split | with_reducible refine ite_shell ?_ ?_)

theorem execPcieLinkUp_shell (h : HalfId) (s : State) (t : State)
    (ht : execPcieLinkUp h s = .next t) : t.shell = s.shell := by
  unfold execPcieLinkUp at ht
  injection ht with ht
  rw [← ht]
  repeat' (first | with_reducible rfl | (simp only [upd_shell, icuEvalAll_shell]; done) | simp only [upd_shell, icuEvalAll_shell] | split | with_reducible refine ite_shell ?_ ?_)

theorem execPcieUncorrectableError_shell (h : HalfId) (masked : Bool) (s : State) (t : State)
    (ht : execPcieUncorrectableError h masked s = .next t) : t.shell = s.shell := by
  unfold execPcieUncorrectableError settled at ht
  injection ht with ht
  rw [← ht]
  repeat' (first | with_reducible rfl | (simp only [upd_shell, latchHw_shell, settle_shell]; done) | simp only [upd_shell, latchHw_shell, settle_shell] | split | with_reducible refine ite_shell ?_ ?_)

theorem execPcieHotReset_shell (h : HalfId) (s : State) (t : State)
    (ht : execPcieHotReset h s = .next t) : t.shell = s.shell := by
  unfold execPcieHotReset at ht
  injection ht with ht
  rw [← ht]
  repeat' (first | with_reducible rfl | (simp only [upd_shell]; done) | simp only [upd_shell] | split | with_reducible refine ite_shell ?_ ?_)

end Sys2Proof.Machine
end

