-- ==== Sys2Proof/WellFormed.lean ====
section
/-!
DEFINITION. WellFormed.lean: the operand ranges of the commands, as the spec numbers units, objects and bytes (R12, R37, R43, R79,
R382, R398, R511, R541). Every meaning answers on ill-formed operands too; well-formedness says which commands can occur.
-/
namespace Sys2Proof

/-- A command entry carries entry bytes 16 to 63 (R43). -/
def CmdEntry.wf (e : CmdEntry) : Bool := decide (e.payload.length = 48)

/-- An assist entry carries entry bytes 24 to 63 (R79). -/
def AssistEntry.wf (a : AssistEntry) : Bool := decide (a.payload.length = 40)

/-- Units of a half by type (R541, R542). -/
def UnitKind.units : UnitKind → Nat
  | .enc => Config.encEngines
  | .dec => Config.decEngines
  | .cmp => Config.cmpPipes
  | .dch => Config.dramChannels
  | .net => Config.netPorts

/-- An access touches at least one byte (R549). -/
def Bar4Op.wf : Bar4Op → Bool
  | .read _ length => decide (1 ≤ length)
  | .write _ bytes => decide (1 ≤ bytes.length)

/-- The CTUs found fill whole rows of the picture (R119). -/
def DecodeFacts.wf (f : DecodeFacts) : Bool := f.parts.all (fun p => p.ctus.all (fun c => decide (c < f.ctus.length)))

/-- Retained partitions hold samples (R198, R200). -/
def EncodeFacts.wf (f : EncodeFacts) : Bool := f.blocks.all (fun b => decide (1 ≤ b.w) && decide (1 ≤ b.h))

/-- A signature block is 144 bytes (R493). -/
def SignedItem.wf (i : SignedItem) : Bool := decide (i.block.length = 144)

/-- An image begins with a header of 64 bytes (R480). -/
def ImageFacts.wf (i : ImageFacts) : Bool := i.item.wf && decide (i.header.length = 64)

/-- The items of a slot have their signature blocks (R495). -/
def SlotFacts.wf (f : SlotFacts) : Bool := f.header.wf && f.keel.wf && f.images.all (fun i => i.wf)

/-- A fault source is one of those numbered, a crossing lies between two islands of the half (R28, R416, R434). -/
def FaultReport.wf : FaultReport → Bool
  | .pin source => decide (source < 50)
  | .flit _ => true
  | .crossing p c _ => decide (p < 36) && decide (c < 36)

/-- A command whose operands are in the ranges the spec gives them. -/
def Instr.wf : Instr → Bool
  | .identify _ e => e.wf
  | .halfReset _ e => e.wf
  | .eventRateSet _ e => e.wf
  | .overbookSet _ e => e.wf
  | .draftOpen _ e => e.wf
  | .draftWrite _ e _ => e.wf
  | .draftDiscard _ e => e.wf
  | .envelopeCommit _ e => e.wf
  | .envelopeCancel _ e => e.wf
  | .envelopeRead _ e _ => e.wf
  | .queryObject _ e _ => e.wf
  | .queryDecode _ e _ => e.wf
  | .queryInput _ e _ => e.wf
  | .queryEncode _ e _ => e.wf
  | .querySurge _ e _ => e.wf
  | .queryFlow _ e _ => e.wf
  | .queryPort _ e _ => e.wf
  | .queryChannel _ e _ => e.wf
  | .queryPool _ e _ => e.wf
  | .queryDma _ e _ => e.wf
  | .queryEvents _ e _ => e.wf
  | .queryFilter _ e _ => e.wf
  | .queryHealth _ e _ => e.wf
  | .queryPtp _ e _ => e.wf
  | .queryCues _ e _ => e.wf
  | .streamStart _ e => e.wf
  | .streamStop _ e => e.wf
  | .streamDrain _ e => e.wf
  | .decodeFeed _ e => e.wf
  | .encodeRefresh _ e => e.wf
  | .encodeRate _ e => e.wf
  | .surfaceUpdate _ e => e.wf
  | .cueArm _ e => e.wf
  | .cueCancel _ e => e.wf
  | .portReset _ e => e.wf
  | .flowMove _ e => e.wf
  | .shaperSet _ e => e.wf
  | .gateRebase _ e => e.wf
  | .channelInspect _ e _ => e.wf
  | .blockRetire _ e => e.wf
  | .channelThaw _ e => e.wf
  | .channelRetrain _ e => e.wf
  | .seqTrace _ e => e.wf
  | .seqHistory _ e _ => e.wf
  | .diagDump _ e => e.wf
  | .counterProgram _ e => e.wf
  | .counterRead _ e => e.wf
  | .faultRead _ e _ => e.wf
  | .faultClear _ e => e.wf
  | .faultInject _ e => e.wf
  | .faultAction _ e => e.wf
  | .unitRetire _ e => e.wf
  | .leadYield _ e => e.wf
  | .leadAssign _ e => e.wf
  | .bridleRead _ e => e.wf
  | .attest _ e _ => e.wf
  | .certRead _ e _ => e.wf
  | .fwStage _ e _ => e.wf
  | .fwVerify _ e => e.wf
  | .fwConfirm _ e => e.wf
  | .fwSecurityCommit _ b => b.entry.wf && b.unburned.all (fun u => decide (1 ≤ u.2) && decide (u.2 ≤ 128))
  | .fuseLock _ e => e.wf
  | .atTimeExecution _ _ => true
  | .waitingStartExecution _ _ => true
  | .rateAssist _ a => a.wf
  | .coarseMotionHints _ a => a.wf
  | .hostStencil _ a => a.wf
  | .concealmentInstruction _ a => a.wf
  | .packetReleaseTimes _ a => a.wf
  | .poolFreeListSupply _ a => a.wf
  | .ptpCorrection _ a => a.wf
  | .retrainTime _ a => a.wf
  | .leadDecision _ a => a.wf
  | .cmdqTailWrite _ _ => true
  | .cplqHeadWrite _ _ => true
  | .evtqHeadWrite _ _ => true
  | .asqTailWrite _ _ => true
  | .asrHeadWrite _ _ => true
  | .dmaKick _ channel => decide (channel < Config.dmaChannels)
  | .dmaChainWrite _ channel _ => decide (channel < Config.dmaChannels)
  | .dmaEnable _ channel _ _ => decide (channel < Config.dmaChannels)
  | .dmaDisable _ channel => decide (channel < Config.dmaChannels)
  | .dmaErrClear _ => true
  | .unitHold _ kind index => decide (index < kind.units)
  | .unitReturn _ kind index => decide (index < kind.units)
  | .icuSrcCfgWrite _ _ source _ => decide (source < 512)
  | .icuSet _ _ _ => true
  | .icuClaim _ _ _ => true
  | .icuPartnerClaimDone _ => true
  | .bar4Access _ op => op.wf
  | .bar2Write _ offset bytes => decide (offset + bytes.length ≤ 0x40000)
  | .registerWrite _ _ width _ => decide (width ∈ [1, 2, 4, 8])
  | .msixUnmask _ vector => decide (vector < 256)
  | .eventDelivery _ => true
  | .asrBacklogDrain _ => true
  | .asrRequestWithdrawn _ _ => true
  | .envelopeGroupResolved _ => true
  | .groupPartnerTimeout _ => true
  | .takeoverArm _ => true
  | .takeoverTime _ => true
  | .envelopeCrcCheck _ => true
  | .rtpPacketReceived _ input p => decide (input < 65536) && decide (p.payloadType < 128)
  | .accessUnitRelease _ input => decide (input < 65536)
  | .guardedAccessUnitCopy _ context _ _ _ => decide (context < 65536)
  | .decodePictureStart _ p => decide (p.engine < Config.decEngines)
  | .decodePictureComplete _ engine f => decide (engine < Config.decEngines) && f.wf
  | .pictureAvailable _ context => decide (context < 65536)
  | .bulkStarved _ context => decide (context < 65536)
  | .refreshRequestRepeat _ input => decide (input < 65536)
  | .concealmentDeadline _ context => decide (context < 65536)
  | .canvasTick _ canvas => decide (canvas < 65536)
  | .compositionJobStart _ pipe => decide (pipe < Config.cmpPipes)
  | .compositionJobComplete _ pipe _ => decide (pipe < Config.cmpPipes)
  | .surfaceCopyDone _ surface => decide (surface < 65536)
  | .encodePictureStart _ engine f => decide (engine < Config.encEngines) && f.wf
  | .encodedUnitHandoff _ stream _ => decide (stream < 65536)
  | .encodePictureComplete _ engine => decide (engine < Config.encEngines)
  | .encodeLateRepeat _ stream => decide (stream < 65536)
  | .twinCrcExchange _ stream _ _ => decide (stream < 65536)
  | .refreshAbsorbed _ stream => decide (stream < 65536)
  | .surgeEnded _ cluster => decide (cluster < 2)
  | .surgeSustained _ cluster => decide (cluster < 2)
  | .linkSignalDetected _ port => decide (port < Config.netPorts)
  | .linkUp _ port => decide (port < Config.netPorts)
  | .linkDown _ port _ => decide (port < Config.netPorts)
  | .adaptationTimeout _ port => decide (port < Config.netPorts)
  | .adaptationRetry _ port => decide (port < Config.netPorts)
  | .arpReceived _ port _ => decide (port < Config.netPorts)
  | .arpRefresh _ port => decide (port < Config.netPorts)
  | .neighbourDiscoveryReceived _ port _ => decide (port < Config.netPorts)
  | .dadComplete _ port => decide (port < Config.netPorts)
  | .routerAdvertisementReceived _ port _ _ => decide (port < Config.netPorts)
  | .multicastQueryReceived _ port _ => decide (port < Config.netPorts)
  | .icmpEchoReceived _ port _ => decide (port < Config.netPorts)
  | .otherFrameReceived _ port _ => decide (port < Config.netPorts)
  | .ptpSyncReceived _ port _ _ _ => decide (port < Config.netPorts)
  | .ptpFollowUpReceived _ port _ => decide (port < Config.netPorts)
  | .ptpDelayRespReceived _ port _ => decide (port < Config.netPorts)
  | .ptpDelayReqReceived _ port _ => decide (port < Config.netPorts)
  | .ptpAnnounceReceived _ port _ => decide (port < Config.netPorts)
  | .announceReceiptTimeout _ port => decide (port < Config.netPorts)
  | .ptpMasterInterval _ port _ => decide (port < Config.netPorts)
  | .ppsInputEdge _ _ => true
  | .holdoverExpired _ => true
  | .rtcpSenderReportReceived _ input _ _ => decide (input < 65536)
  | .rtcpFeedbackReceived _ flow _ => decide (flow < 65536)
  | .rtcpReceiverReportReceived _ flow _ => decide (flow < 65536)
  | .senderReportTimer _ flow => decide (flow < 65536)
  | .receiverReportTimer _ input => decide (input < 65536)
  | .packetStart _ port => decide (port < Config.netPorts)
  | .gateWindowChange _ port => decide (port < Config.netPorts)
  | .gateListStarted _ port => decide (port < Config.netPorts)
  | .undercoatPictureTick _ _ => true
  | .sparDown _ _ => true
  | .sparUp _ => true
  | .sparDownHoldoffExpiry _ => true
  | .partnerTetherLost _ => true
  | .partnerAbsent _ => true
  | .partnerSeenAlive _ => true
  | .halfStoppedReceived _ _ => true
  | .takeoverReceived _ => true
  | .stopAckReceived _ _ => true
  | .takeoverReplyTimeout _ => true
  | .bridleClaimReceived _ _ _ => true
  | .sequenceReportReceived _ _ => true
  | .unitAnnouncementReceived _ _ => true
  | .unitAnnouncementAck _ _ => true
  | .mirrorStateReceived _ _ _ => true
  | .partnerCopyReceived _ _ _ _ _ => true
  | .sparForwardedCommand _ _ => true
  | .faultLatched _ r => r.wf
  | .reactionDefaulted _ source => decide (source < 50)
  | .keelWatchdogExpiry _ => true
  | .safePoint _ block => decide (block < 36)
  | .machineCheck _ block _ _ _ _ _ => decide (block < 36)
  | .storeReloaded _ block fetched _ => decide (block < 36) && fetched.all (fun i => i.wf)
  | .dramRequest _ channel m _ => decide (channel < Config.dramChannels) && m.issued.all (fun r => decide (r.port < 10))
  | .pageIdleTimeout _ channel _ => decide (channel < Config.dramChannels)
  | .dramRefresh _ channel => decide (channel < Config.dramChannels)
  | .refreshWindowEnd _ channel => decide (channel < Config.dramChannels)
  | .mr4Poll _ channel _ _ => decide (channel < Config.dramChannels)
  | .scrubStep _ channel _ _ => decide (channel < Config.dramChannels)
  | .zeroFillDone _ _ => true
  | .retrainStart _ channel => decide (channel < Config.dramChannels)
  | .retrainDone _ channel _ => decide (channel < Config.dramChannels)
  | .retrainDeadline _ channel => decide (channel < Config.dramChannels)
  | .regionCopyDone _ _ => true
  | .reserveMoved _ => true
  | .poolAllocate _ _ _ _ count => decide (1 ≤ count) && decide (count ≤ 255)
  | .poolAdd _ _ _ _ => true
  | .poolRelease _ _ _ => true
  | .poolRebuilt _ pool => decide (pool < 16)
  | .poolAllocRetry _ engine _ count => decide (engine < Config.decEngines + Config.encEngines) && decide (1 ≤ count) && decide (count ≤ 255)
  | .poolSupplyDeadline _ pool => decide (pool < 16)
  | .dmaDescriptorFetched _ channel bytes => decide (channel < Config.dmaChannels) && decide (bytes.length = 32)
  | .dmaReadCompletion _ channel _ => decide (channel < Config.dmaChannels)
  | .dmaDescriptorComplete _ channel => decide (channel < Config.dmaChannels)
  | .dmaBusError _ channel _ _ _ => decide (channel < Config.dmaChannels)
  | .dmaCompletionTimeout _ channel => decide (channel < Config.dmaChannels)
  | .icuParityFailure _ source => decide (source < 512)
  | .counterSnapshot _ _ => true
  | .porstAssert => true
  | .resetPinAssert _ => true
  | .resetRelease _ f => f.slotA.wf && f.slotB.wf
  | .halfResetDelayExpiry _ => true
  | .trialReset _ => true
  | .trialAutoConfirm _ => true
  | .brownOut _ _ => true
  | .brownOutRecovery _ => true
  | .voltageExcursion _ rail _ _ => decide (rail < 8)
  | .thermalSample _ island _ => decide (island < 36)
  | .thermalRelease _ => true
  | .clockMonitorTrip _ island _ => decide (island < 36)
  | .clockStepEvaluation _ island _ _ => decide (island < 36)
  | .islandPowerOff _ island => decide (island < 36)
  | .islandPowerUp _ island => decide (island < 36)
  | .lifeAccumulation _ => true
  | .agingMeasurement _ slowdowns => decide (slowdowns.length = 36)
  | .pcieLinkDown _ => true
  | .pcieLinkUp _ => true
  | .pcieUncorrectableError _ _ => true
  | .pcieHotReset _ => true
  | .ppsOutputPulse _ => true
  | .delayRequestInterval _ port => decide (port < Config.netPorts)
  | .leadDecisionDeadline _ => true
  | .encodeSurfaceTick _ stream => decide (stream < 65536)
  | .islandClockRelock _ island => decide (island < 36)
  | .readbackRound _ _ => true

end Sys2Proof
end

