-- ==== Sys2Proof/Tests/Slice0.lean ====
section
/-!
SUPPORT. Slice0.lean: the model's own tests. Small states and operands come first; then the values that the spec's examples and tables give;
then ill-formed terms that the checks of WellFormed.lean refuse; then, for each statement of Certificates/Slice0/Obligations.lean and each of
its clauses, a state and operands that meet all its hypotheses together (`witness_<statement>_<clause>`).
-/
namespace Sys2Proof.Tests
open Sys2Proof.Machine
set_option Elab.async false

/-! Small states and operands. -/

/-- A command entry with a handle and payload bytes, whose length is that of the bytes given. -/
def ent (x : Handle) (bytes : List Byte) : CmdEntry := { len := BitVec.ofNat 16 bytes.length, handle := x, payload := pad 48 bytes }

/-- An assist entry on an object, for a time, with payload bytes. -/
def ast (x : Handle) (time : Nat) (bytes : List Byte) : AssistEntry := { handle := x, time := BitVec.ofNat 64 time, payload := pad 40 bytes }

/-- A record of a type for a handle, of a length, with fields (offset, size, value). -/
def recd (type : Nat) (x : Handle) (n : Nat) (fields : List (Nat × Nat × Nat)) : Record :=
  fields.foldl (fun r f => r.take f.1 ++ le f.2.1 f.2.2 ++ r.drop (f.1 + f.2.1))
    (le 1 type ++ [1] ++ le 2 n ++ le 4 x.toNat ++ List.replicate (n - 8) 0)

/-- A half whose keel runs, with its channels trained. -/
def up : Half := { boot := { inReset := false, stage := 7 }, dch := List.replicate 4 { flags := {}, train := { trained := true } } }

/-- Both halves, with lead in the east and the spar link up, at 1 s of device time, with flash as after reset. -/
def duo : State :=
  { east := { up with clk := { now := 1000000000 }, bri := { lead := true, sparUp := true } }
    west := { up with clk := { now := 1000000000 }, bri := { sparUp := true } } }

/-- A running envelope with records. -/
def withRunning (rs : List Record) (x : Half) : Half := { x with env := { x.env with running := some { records := rs } } }

/-- Both halves up, the east one changed. -/
def east (f : Half → Half) : State := { duo with east := f duo.east }

/-- A record with its CRC. -/
def sealed (r : Record) : Record := r.take 8 ++ le 4 (recordCrc r) ++ r.drop 12

/-- A region of 64 KiB on any channel. -/
def region0 : Record := sealed (recd 0x10 0x10000000 64 [(16, 1, 0), (17, 1, 0xFF), (24, 8, 65536)])

/-- A by-reference entry for bytes. -/
def refEnt (bytes : List Byte) : CmdEntry :=
  { ent 0 (le 8 0x4000 ++ le 4 bytes.length ++ le 4 (crc32c bytes)) with flags := 1 }

/-- The entry of a commit of records, in a group. -/
def commitOf (rs : List Record) (group : Nat) : CmdEntry := ent 0 (sha256 (rs.flatMap id) ++ le 4 group ++ le 4 0)

/-- The draft slot holds records. -/
def drafts (rs : List Record) (x : Half) : Half := { x with env := { x.env with draft := some rs } }

/-! Objects of the east half: one of each type, unguarded. -/

def port0 : Handle := 0x01000000
def flow0 : Handle := 0x02000000
def input0 : Handle := 0x03000000
def decode0 : Handle := 0x04000000
def encode0 : Handle := 0x05000000
def canvas0 : Handle := 0x08000000
def surface0 : Handle := 0x0A000000
def gate0 : Handle := 0x0B000000
def shaper0 : Handle := 0x0C000000
def pool0 : Handle := 0x0D000000
def ptp0 : Handle := 0x11000000

/-- Their records: a fed decode context, an encode stream of the canvas at 60 Hz, a flow of it on port 0 with a secondary, a surface of two
buffers, a list of two windows, and a clock that gives out pulses. -/
def records0 : List Record :=
  [recd 1 port0 80 [(16, 1, 1), (18, 1, 1), (26, 2, 1500), (32, 4, 0x0100000A)],
   recd 2 flow0 96 [(16, 4, 0x01000000), (20, 4, 0x01000001), (24, 4, 0x05000000), (32, 1, 4), (66, 2, 1400), (76, 4, 0x0C000000)],
   recd 3 input0 80 [(20, 1, 1), (64, 4, 20000), (68, 4, 65536)],
   recd 4 decode0 64 [(16, 1, 1), (17, 1, 1), (19, 1, 8), (20, 2, 1280), (22, 2, 720), (24, 1, 8), (25, 1, 1), (28, 4, 60000), (40, 4, 0x10000000),
     (44, 4, 262144)]] ++
  [recd 5 encode0 96 [(16, 1, 1), (17, 1, 2), (18, 1, 1), (20, 2, 1280), (22, 2, 720), (24, 1, 8), (25, 1, 1), (28, 4, 0x08000000), (32, 1, 1),
     (44, 4, 10000), (48, 4, 10000), (52, 4, 5000)],
   recd 8 canvas0 64 [(16, 2, 1280), (18, 2, 720), (20, 1, 1), (21, 1, 8), (22, 1, 1), (24, 4, 50000000), (28, 4, 3), (40, 1, 1), (41, 1, 3),
     (56, 4, 7)],
   recd 0xA surface0 56 [(16, 1, 3), (17, 1, 2), (18, 2, 640), (20, 2, 480)],
   recd 0xB gate0 56 [(16, 4, 0x01000000), (20, 2, 2), (24, 4, 100000), (32, 8, 0), (40, 4, 60000), (44, 1, 0x7F), (48, 4, 40000), (52, 1, 0xFF)]] ++
  [recd 0xC shaper0 48 [(20, 4, 1000), (24, 4, 3000)],
   recd 0xD pool0 48 [(16, 4, 64)],
   recd 0x11 ptp0 64 [(20, 1, 9), (25, 1, 3), (28, 4, 0x01000000), (48, 4, 3600)],
   recd 0x10 0x10000000 64 [(24, 8, 65536)]]

/-- The objects' states. -/
def objects0 : Objects :=
  { inputs := [{ index := 0 }], decodes := [{ index := 0, feedEnd := 4096 }], surfaces := [{ index := 0 }], canvases := [{ index := 0 }]
    encodes := [{ index := 0, rate := { bitRate := 10000, peakRate := 10000, bufferKbit := 5000, qpCeiling := 51, quality := 26 } }]
    shapers := [{ index := 0, rate := 1000, burst := 3000, latencyLimit := 0 }]
    flows := [{ index := 0, port := port0, ssrc := 1, nextSeq := 10, sentSeq := 9 }] }

/-- The east half with these objects, port 0 and port 1 up, and the region in channel 0. -/
def media : Half :=
  { withRunning records0 duo.east with
    obj := objects0, net := List.replicate 2 { link := .up }, dram := { placed := [⟨0, 0, 0, 0x1000000⟩] } }

/-- Both halves up, with these objects in the east, changed. -/
def busyWith (f : Half → Half) : State := { duo with east := f media }
def busy : State := busyWith id

/-- A host-assisted function of an object, besides the objects of `busy`. -/
def assisted (function : Nat) (x : Handle) (f : Half → Half) : State :=
  busyWith (fun y => f (withRunning (records0 ++ [recd 0x0F 0x0F000000 24 [(16, 1, function), (17, 1, 1), (20, 4, x.toNat)]]) y))

/-- A deferred command that is due. -/
def due (op : Nat) (e : CmdEntry) : Deferred := { opcode := op, entry := e, due := 1000000000 }

/-- The record of an object of `busy`. -/
def recB (x : Handle) : Record := busy.east.record x

/-- What a query answers, where it does. -/
def got (q : Option QueryBody) : QueryBody := q.getD {}

/-! Values that the spec's examples and tables give. -/

/-- R16: 919.6 in 10-bit code terms, 14,713.6 on the 14-bit scale, is stored as 14,714, and leaves as the 8-bit 230. -/
theorem test_word_rounds : (wordStored 147136 10).toNat = 14714 ∧ wordOut 8 14714 = 230 := by decide

/-- R16: a 10-bit luma sample of 940 enters as 15,040. -/
theorem test_word_enters : wordIn 10 940 = 15040 := by decide

/-- R88: a LIVE 3840×2160 HEVC Main10 stream with max DPB 6 is charged 123,944,704 bytes. -/
theorem test_decode_charge :
    (memCharge (recd 4 decode0 64 [(16, 1, 1), (20, 2, 3840), (22, 2, 2160), (24, 1, 10), (25, 1, 1), (26, 1, 6)])).2 = 123944704 := by
  decide +kernel

/-- R197: a 3840×2160 HEVC Main10 stream with 4 references is charged 124,092,736 bytes. -/
theorem test_encode_charge :
    (memCharge (recd 5 encode0 96 [(16, 1, 1), (20, 2, 3840), (22, 2, 2160), (24, 1, 10), (25, 1, 1), (27, 1, 4)])).2 = 124092736 := by
  decide +kernel

/-- R370: a LIVE stream with a buffer of 4,000 kbit reserves 24 buffers of pool 0, the same stream guarded 48. -/
theorem test_pool_need :
    poolNeed (recd 5 encode0 96 [(52, 4, 4000)]) = 24 ∧ poolNeed (recd 5 encode0 96 [(52, 4, 4000), (62, 2, 1)]) = 48 := by decide +kernel

/-- R311: an IPv4 datagram of 1,500 bytes with a VLAN tag is 1,542 wire bytes, 493.44 ns at 25 Gb/s. -/
theorem test_wire_bytes :
    wireBytes (recd 2 flow0 96 [(56, 2, 7)]) 1460 false = 1542 ∧ 1542 * byteTime .east (withRunning records0 {}) 0 = 49344 := by decide +kernel

/-- R296: a slice NAL unit of 1,488 bytes over a payload limit of 1,428 goes in fragmentation units of 1,425 and 61 bytes beside their 3 bytes
of headers, and the RTP timestamp of tick time 13 s is 269,605,456. -/
theorem test_packetise :
    payloadLimit (recd 2 flow0 96 [(66, 2, 1500)]) = 1428 ∧ unitPayload 1 1428 1488 = [1425 + 3, 61 + 3] ∧
    rtpTime 0x10000000 13000000000 = 269605456 := by decide +kernel

/-- R321, R328: a list of 1 ms from base 5,000,000,000,000, rebased at 5,000,003,999,500, starts at 5,000,005,000,000. -/
theorem test_gate_start : gateStart 5000000000000 1000000 0 5000003999500 = 5000005000000 := by decide

/-- R153: ticks at 59.94 Hz fall 16,683,333 or 16,683,334 ns apart. -/
theorem test_ticks : (List.range 4).map (tickTime 0 50050000 3) = [0, 16683333, 33366666, 50050000] := by decide

/-- R549: with a base of 0x1_2345_0000 a window of 4 GiB begins at 0x1_0000_0000, one of 8 GiB at 0. -/
theorem test_bar4 :
    bar4Address { bar4Base := 0x123450000 } 0x100000 = 0x100100000 ∧
    bar4Address { bar4Base := 0x123450000, bar4Size := 8589934592 } 0x100000 = 0x100000 := by decide

/-- R563: DEC.W4 is named by the handle 0x2180_0004. -/
theorem test_unit_handle : handleSource .west 0x21800004 = some 12 ∧ handleSource .east 0x21800004 = none := by decide

/-- R529: after 40 years at 0.8364 equivalent hours an hour LIFE_USED reads 36,659. -/
theorem test_life_used : lifeUsed { life := 8364 * 350640 * 360000 } = 36659 := by decide

/-- R529: at 95 °C one second counts as one, at 105 °C as two, at 90 °C as 2^(−0.5). -/
theorem test_life_rate : lifeRate 95 = 1000000 ∧ lifeRate 105 = 2000000 ∧ lifeRate 90 = 707107 := by decide

/-- R544: of eight engines with ENC.E5 held, UNIT_ENABLE reads 0x0000_00DF, and after a late enable 0x0000_20DF. -/
theorem test_unit_enable :
    unitEnable (busy.east) .enc = 0xFF ∧
    unitEnable { busy.east with enc := busy.east.enc.set 5 { flags := { enable := false, quiescing := true } } } .enc = 0xDF ∧
    unitEnable { busy.east with enc := busy.east.enc.set 5 { flags := { enable := false, quiescing := true, lateEnable := true } } } .enc = 0x20DF := by
  decide +kernel

/-- R257, R263: from fullness 3,560,000 a picture of 128,102 bits at 8 Mb/s and 60 Hz leaves 3,565,231 for the next. -/
theorem test_fullness :
    (modelAdvance records0 (recB encode0) { bitRate := 8000, peakRate := 8000, bufferKbit := 4000, fullness := 3560000 } 0 128102).1.fullness =
      3565231 := by decide +kernel

/-- R211: a boundary moves by one CTU from the busier column to the other, and no column gets narrower than 4 CTUs. -/
theorem test_boundary_moves : moveBoundary [] [10, 5] [8, 8] 0 = [7, 9] ∧ moveBoundary [] [5, 10] [8, 8] 0 = [9, 7] ∧
    moveBoundary [] [10, 5] [4, 8] 0 = [4, 8] := by decide +kernel


/-! The checks of WellFormed.lean refuse ill-formed terms. -/

theorem wf_entry : Instr.wf (.identify .east (ent 0 [])) = true ∧ Instr.wf (.identify .east { ent 0 [] with payload := [] }) = false := by decide +kernel
theorem wf_assist : Instr.wf (.rateAssist .east (ast 0 0 [])) = true ∧ Instr.wf (.rateAssist .east { ast 0 0 [] with payload := [] }) = false := by
  decide +kernel
theorem wf_burned : Instr.wf (.fwSecurityCommit .east { entry := ent 0 [], unburned := some (.east, 128) }) = true ∧
    Instr.wf (.fwSecurityCommit .east { entry := ent 0 [], unburned := some (.east, 129) }) = false := by decide +kernel
theorem wf_dma : Instr.wf (.dmaKick .east 31) = true ∧ Instr.wf (.dmaKick .east 32) = false := by decide
theorem wf_unit : Instr.wf (.unitHold .east .dec 5) = true ∧ Instr.wf (.unitHold .east .dec 6) = false := by decide
theorem wf_source : Instr.wf (.icuParityFailure .east 511) = true ∧ Instr.wf (.icuParityFailure .east 512) = false := by decide
theorem wf_bar4 : Instr.wf (.bar4Access .east (.write 0 [1])) = true ∧ Instr.wf (.bar4Access .east (.write 0 [])) = false := by decide
theorem wf_bar2 : Instr.wf (.bar2Write .east 0x3FFFF [1]) = true ∧ Instr.wf (.bar2Write .east 0x40000 [1]) = false := by decide
theorem wf_width : Instr.wf (.registerWrite .east 0 8 0) = true ∧ Instr.wf (.registerWrite .east 0 3 0) = false := by decide
theorem wf_vector : Instr.wf (.msixUnmask .east 255) = true ∧ Instr.wf (.msixUnmask .east 256) = false := by decide
theorem wf_rtp : Instr.wf (.rtpPacketReceived .east 0 {}) = true ∧ Instr.wf (.rtpPacketReceived .east 0 { payloadType := 128 }) = false := by decide
theorem wf_object : Instr.wf (.pictureAvailable .east 65535) = true ∧ Instr.wf (.pictureAvailable .east 65536) = false := by decide
theorem wf_ctus : Instr.wf (.decodePictureComplete .east 0 { parts := [{ ctus := [0] }], ctus := [{}] }) = true ∧
    Instr.wf (.decodePictureComplete .east 0 { parts := [{ ctus := [0] }], ctus := [] }) = false := by decide
theorem wf_engine : Instr.wf (.encodePictureComplete .east 7) = true ∧ Instr.wf (.encodePictureComplete .east 8) = false := by decide
theorem wf_pipe : Instr.wf (.compositionJobStart .east 3) = true ∧ Instr.wf (.compositionJobStart .east 4) = false := by decide
theorem wf_cluster : Instr.wf (.surgeEnded .east 1) = true ∧ Instr.wf (.surgeEnded .east 2) = false := by decide
theorem wf_port : Instr.wf (.linkUp .east 1) = true ∧ Instr.wf (.linkUp .east 2) = false := by decide
theorem wf_fault : Instr.wf (.faultLatched .east (.pin 49)) = true ∧ Instr.wf (.faultLatched .east (.pin 50)) = false ∧
    Instr.wf (.faultLatched .east (.crossing 36 0 .reserve)) = false := by decide
theorem wf_block : Instr.wf (.safePoint .east 35) = true ∧ Instr.wf (.safePoint .east 36) = false := by decide
theorem wf_item : Instr.wf (.storeReloaded .east 0 none 0) = true ∧ Instr.wf (.storeReloaded .east 0 (some {}) 0) = false := by decide
theorem wf_channel : Instr.wf (.scrubStep .east 3 .clean 0) = true ∧ Instr.wf (.scrubStep .east 4 .clean 0) = false := by decide
theorem wf_issued : Instr.wf (.dramRequest .east 0 { issued := [{ port := 9, write := false, address := 0 }], arrivals := [] } .clean) = true ∧
    Instr.wf (.dramRequest .east 0 { issued := [{ port := 10, write := false, address := 0 }], arrivals := [] } .clean) = false := by decide
theorem wf_count : Instr.wf (.poolAllocate .east 0 false 64 255) = true ∧ Instr.wf (.poolAllocate .east 0 false 64 256) = false := by decide
theorem wf_pool : Instr.wf (.poolRebuilt .east 15) = true ∧ Instr.wf (.poolRebuilt .east 16) = false := by decide
theorem wf_descriptor : Instr.wf (.dmaDescriptorFetched .east 0 (List.replicate 32 0)) = true ∧ Instr.wf (.dmaDescriptorFetched .east 0 []) = false := by
  decide
theorem wf_rail : Instr.wf (.voltageExcursion .east 7 0 0) = true ∧ Instr.wf (.voltageExcursion .east 8 0 0) = false := by decide
theorem wf_island : Instr.wf (.islandPowerUp .east 35) = true ∧ Instr.wf (.islandPowerUp .east 36) = false := by decide
theorem wf_slowdowns : Instr.wf (.agingMeasurement .east (List.replicate 36 0)) = true ∧ Instr.wf (.agingMeasurement .east []) = false := by decide
theorem wf_slots : Instr.wf (.resetRelease .east {}) = false := by decide
theorem wf_blocks : Instr.wf (.encodePictureStart .east 0 { blocks := [{ x := 0, y := 0, w := 0, h := 8, mode := .intra 0 }] }) = false := by decide

/-! For each statement and each of its clauses, a state and operands that meet all its hypotheses together. -/

/-- The east half runs, or has as its draft, the envelope of one region. -/
def running0 : State := east (withRunning [region0])
def draft0 : State := east (drafts [region0])
def draftW : State := { duo with west := drafts [] duo.west }
/-- A commit at the least time ahead that is allowed, and a pending envelope that can still be cancelled. -/
def commitAt : CmdEntry := { commitOf [region0] 0 with flags := 4, payload := sha256 (region0) ++ pad 8 [] ++ le 8 1000500000 }
def pend0 : PendingEnv := { takeTime := 1000500001 }
def cancelable : State := east (fun x => { x with env := { x.env with pend := some pend0 } })

theorem witness_DeviceCommands_identify :
    (Taken .east identifySpec (ent 0 (le 1 2)) none duo) ∧ (fld (ent 0 (le 1 2)) 16 1 ≤ 2) ∧
    (checkReserved (ent 0 (le 1 2)) [(16, 1)] = none) :=
    by decide +kernel
theorem witness_DeviceCommands_halfReset :
    (Taken .east halfResetSpec (ent 0 (le 1 0)) none duo) ∧ (fld (ent 0 (le 1 0)) 16 1 = 0) ∧
    (checkReserved (ent 0 (le 1 0)) [(16, 1)] = none) :=
    by decide +kernel
theorem witness_DeviceCommands_otherReset :
    (Taken .east halfResetSpec (ent 0 (le 1 1)) none duo) ∧ (fld (ent 0 (le 1 1)) 16 1 = 1) ∧
    (checkReserved (ent 0 (le 1 1)) [(16, 1)] = none) ∧ (((takeEntry .east duo).half .east).bri.lead = true) ∧
    (((takeEntry .east duo).half .east).bri.fenced = false) ∧ (((takeEntry .east duo).half HalfId.east.other).boot.inReset = false) :=
    by decide +kernel
theorem witness_DeviceCommands_eventRate :
    (Taken .east eventRateSetSpec (ent 0 (le 4 1000 ++ le 2 1024)) none duo) ∧ (1000 ≤ fld (ent 0 (le 4 1000 ++ le 2 1024)) 16 4) ∧
    (fld (ent 0 (le 4 1000 ++ le 2 1024)) 16 4 ≤ 100000) ∧ (16 ≤ fld (ent 0 (le 4 1000 ++ le 2 1024)) 20 2) ∧
    (fld (ent 0 (le 4 1000 ++ le 2 1024)) 20 2 ≤ 1024) ∧ (checkReserved (ent 0 (le 4 1000 ++ le 2 1024)) [(16, 6)] = none) :=
    by decide +kernel
theorem witness_DeviceCommands_overbook :
    (Taken .east overbookSetSpec (ent 0 (le 1 1 ++ le 1 80)) none duo) ∧ (fld (ent 0 (le 1 1 ++ le 1 80)) 16 1 = 1) ∧ (1 ≤ 1) ∧
    (10 ≤ fld (ent 0 (le 1 1 ++ le 1 80)) 17 1) ∧ (fld (ent 0 (le 1 1 ++ le 1 80)) 17 1 ≤ 80) ∧
    (checkReserved (ent 0 (le 1 1 ++ le 1 80)) [(16, 2)] = none) :=
    by decide +kernel
theorem witness_DraftCommands_open :
    (Taken .east draftOpenSpec (ent 0 (le 1 0)) none duo) ∧ (fld (ent 0 (le 1 0)) 16 1 = 0) ∧
    (checkReserved (ent 0 (le 1 0)) [(16, 1)] = none) ∧ ((duo.half .east).env.draft = none) :=
    by decide +kernel
theorem witness_DraftCommands_clone :
    (Taken .east draftOpenSpec (ent 0 (le 1 1)) none running0) ∧ (fld (ent 0 (le 1 1)) 16 1 = 1) ∧
    (checkReserved (ent 0 (le 1 1)) [(16, 1)] = none) ∧ ((running0.half .east).env.draft = none) ∧
    ((running0.half .east).env.running = some { records := [region0] : Envelope }) :=
    by decide +kernel
theorem witness_DraftCommands_write :
    (Taken .east draftWriteSpec (refEnt region0) (some { bytes := region0 : RefFetch }) (east (drafts []))) ∧
    ([(0, region0)] = splitRecords ((if isByRef (refEnt region0) = true then { bytes := region0 : RefFetch }.bytes else List.take (BitVec.toNat (refEnt region0).len) (refEnt region0).payload).length / 16 + 1) 0 (if isByRef (refEnt region0) = true then { bytes := region0 : RefFetch }.bytes else List.take (BitVec.toNat (refEnt region0).len) (refEnt region0).payload)) ∧
    (∀ (p : Nat × Record), p ∈ [(0, region0)] → draftReason .east p.snd = none) ∧ (((east (drafts [])).half .east).env.draft = some []) ∧
    (draftEdits [] (List.map (fun p => p.snd) [(0, region0)]) = some [region0]) ∧ ([region0].length ≤ 16384) ∧
    (recordsSize [region0] ≤ 4194304) :=
    by decide +kernel
theorem witness_DraftCommands_discard :
    (Taken .east draftDiscardSpec (ent 0 []) none draft0) ∧ ((draft0.half .east).env.draft = some [region0]) :=
    by decide +kernel
theorem witness_EnvelopeCommands_commit :
    (Taken .east envelopeCommitSpec (commitOf [region0] 0) none draft0) ∧ ((draft0.half .east).bri.fenced = false) ∧
    ((draft0.half .east).env.draft = some [region0]) ∧ ((draft0.half .east).env.pend = none) ∧ ((draft0.half .east).env.group = none) ∧
    (isAtTime (commitOf [region0] 0) = true → (draft0.half .east).clk.now < atTimeOf (commitOf [region0] 0)) ∧
    (judgeRecords .east [region0] (List.take 32 (commitOf [region0] 0).payload) = Verdict.ok) ∧
    (fld (commitOf [region0] 0) 48 4 = 0 ∨ (takeEntry .east draft0).sparWorks = false) ∧
    (judgeCross .east (takeEntry .east draft0) [region0] (futureRecords ((takeEntry .east draft0).half HalfId.east.other)) false = Verdict.ok) ∧
    (fitCheck .east ((takeEntry .east draft0).half .east) [region0] = Fit.ok [] [(0, 0, 0, 65536)]) ∧
    (1000500000 = if isAtTime (commitOf [region0] 0) = true then atTimeOf (commitOf [region0] 0) else (draft0.half .east).clk.now + 500000) ∧
    ((draft0.half .east).clk.now + 500000 ≤ 1000500000) :=
    by decide +kernel
theorem witness_EnvelopeCommands_commitAt :
    (Taken .east envelopeCommitSpec commitAt none draft0) ∧ ((draft0.half .east).bri.fenced = false) ∧
    ((draft0.half .east).env.draft = some [region0]) ∧ ((draft0.half .east).env.pend = none) ∧ ((draft0.half .east).env.group = none) ∧
    (isAtTime commitAt = true → (draft0.half .east).clk.now < atTimeOf commitAt) ∧
    (judgeRecords .east [region0] (List.take 32 commitAt.payload) = Verdict.ok) ∧
    (fld commitAt 48 4 = 0 ∨ (takeEntry .east draft0).sparWorks = false) ∧
    (judgeCross .east (takeEntry .east draft0) [region0] (futureRecords ((takeEntry .east draft0).half HalfId.east.other)) false = Verdict.ok) ∧
    (fitCheck .east ((takeEntry .east draft0).half .east) [region0] = Fit.ok [] [(0, 0, 0, 65536)]) ∧
    (1000500000 = if isAtTime commitAt = true then atTimeOf commitAt else (draft0.half .east).clk.now + 500000) ∧
    ((draft0.half .east).clk.now + 500000 ≤ 1000500000) :=
    by decide +kernel
theorem witness_EnvelopeCommands_group :
    (Taken .west envelopeCommitSpec (commitOf [] 7) none draftW) ∧ ((draftW.half .west).bri.fenced = false) ∧
    ((draftW.half .west).env.draft = some []) ∧ ((draftW.half .west).env.pend = none) ∧ ((draftW.half .west).env.group = none) ∧
    (isAtTime (commitOf [] 7) = true → (draftW.half .west).clk.now < atTimeOf (commitOf [] 7)) ∧
    (judgeRecords .west [] (List.take 32 (commitOf [] 7).payload) = Verdict.ok) ∧ (fld (commitOf [] 7) 48 4 ≠ 0) ∧
    ((takeEntry .west draftW).sparWorks = true) :=
    by decide +kernel
theorem witness_EnvelopeCommands_cancel :
    (Taken .east envelopeCancelSpec (ent 0 []) none cancelable) ∧ ((cancelable.half .east).env.pend = some pend0) ∧ (pend0.group = 0) ∧
    (pend0.atTime = false) ∧ ((cancelable.half .east).clk.now + 500000 < pend0.takeTime) :=
    by decide +kernel
theorem witness_EnvelopeCommands_readDraft :
    (Taken .east (envelopeReadSpec .east (ent 0 (le 8 2 ++ le 8 16384 ++ le 4 64)) draft0) (ent 0 (le 8 2 ++ le 8 16384 ++ le 4 64)) none draft0) ∧
    (fld (ent 0 (le 8 2 ++ le 8 16384 ++ le 4 64)) 16 1 = 2) ∧ (2 ≤ 2) ∧
    (checkReserved (ent 0 (le 8 2 ++ le 8 16384 ++ le 4 64)) [(16, 1), (24, 12)] = none) ∧
    (slotRead (draft0.half .east).env 2 = some ([region0], 0, 0)) :=
    by decide +kernel
theorem witness_EnvelopeCommands_readRunning :
    (Taken .east (envelopeReadSpec .east (ent 0 (le 8 0 ++ le 8 16384 ++ le 4 64)) running0) (ent 0 (le 8 0 ++ le 8 16384 ++ le 4 64)) none running0) ∧
    (fld (ent 0 (le 8 0 ++ le 8 16384 ++ le 4 64)) 16 1 = 0) ∧ (0 ≤ 2) ∧
    (checkReserved (ent 0 (le 8 0 ++ le 8 16384 ++ le 4 64)) [(16, 1), (24, 12)] = none) ∧
    (slotRead (running0.half .east).env 0 = some ([region0], 0, 0)) :=
    by decide +kernel

/-- The encode stream is stopped. -/
def stopped0 : State := busyWith (fun x => { x with obj := { x.obj with encodes := [{ index := 0, run := .stopped }] } })
def feedEnt (flags : Nat) : CmdEntry := ent decode0 (le 8 8192 ++ le 8 5000 ++ le 4 flags ++ le 4 9)
def updEnt : CmdEntry := ent surface0 (le 8 0 ++ le 1 1 ++ le 1 1 ++ le 2 0 ++ le 2 0 ++ le 2 0 ++ le 2 640 ++ le 2 480 ++ pad 24 [])
def cueEnt (t : Nat) : CmdEntry := ent 0 (le 8 t ++ le 4 7 ++ le 1 7 ++ le 3 0 ++ le 4 1)
def shapeEnt : CmdEntry := ent shaper0 (le 4 25000000 ++ le 4 1442 ++ le 4 1000000)
def shapeAt : CmdEntry := { shapeEnt with flags := 4, payload := pad 40 shapeEnt.payload ++ le 8 1000000001 }
def askEnt (x : Handle) : CmdEntry := ent x (le 8 0x4000 ++ le 4 0x10000 ++ le 8 0)
def clearEnt (x : Handle) : CmdEntry := ent x (le 8 0x4000 ++ le 4 0x10000 ++ le 8 1)
/-- A set of coefficients takes 1,024 bytes, whatever its values are (R166). -/
theorem filterTaps_length (f p : Nat) : (filterTaps f p).length = 8 := by
  unfold filterTaps; dsimp only; split <;> simp
theorem filterBytes_length (f : Nat) : (filterBytes f).length = 1024 := by
  have h : ∀ p, ((filterTaps f p).flatMap (fun v => le 2 (unsigned 16 v))).length = 16 := fun p => by
    simp [List.length_flatMap, le, List.map_const', filterTaps_length]
  simp [filterBytes, List.length_flatMap, h] <;> decide
theorem filter_taken : Taken .east (querySpec 780 .zero (queryFilterBody (askEnt 0))) (askEnt 0) none busy := by
  have h : querySpec 780 .zero (queryFilterBody (askEnt 0)) =
      { opcode := 780, handle := .zero, minLen := 20, bufAt := 24, bufNeed := 1056, bufTell := true } := by
    simp [querySpec, queryFilterBody, filterBytes_length]
  rw [h]; decide +kernel

theorem witness_RunCommands_start :
    (checkReserved (ent encode0 []) [] = none) ∧ (checkRunning ((takeEntry .east stopped0).half .east) (ent encode0 []).handle = none) ∧
    (hType (ent encode0 []).handle ≠ 6) ∧ (isRungZero ((takeEntry .east stopped0).half .east) (ent encode0 []).handle = false) ∧
    (runGuarded ((takeEntry .east stopped0).half .east) (ent encode0 []).handle = false) ∧ (isAtTime (ent encode0 []) = false) ∧
    (Taken .east streamStartSpec (ent encode0 []) none stopped0) ∧
    (runState ((takeEntry .east stopped0).half .east) (ent encode0 []).handle = RunState.stopped) :=
    by decide +kernel
theorem witness_RunCommands_stop :
    (checkReserved (ent encode0 []) [] = none) ∧ (checkRunning ((takeEntry .east busy).half .east) (ent encode0 []).handle = none) ∧
    (hType (ent encode0 []).handle ≠ 6) ∧ (isRungZero ((takeEntry .east busy).half .east) (ent encode0 []).handle = false) ∧
    (runGuarded ((takeEntry .east busy).half .east) (ent encode0 []).handle = false) ∧ (isAtTime (ent encode0 []) = false) ∧
    (Taken .east streamStopSpec (ent encode0 []) none busy) ∧
    (runState ((takeEntry .east busy).half .east) (ent encode0 []).handle = RunState.running) ∧
    (((takeEntry .east busy).half .east).env.waitingStarts = []) ∧ (((takeEntry .east busy).half .east).env.deferred = []) :=
    by decide +kernel
theorem witness_RunCommands_drain :
    (checkReserved (ent canvas0 []) [] = none) ∧ (checkRunning ((takeEntry .east busy).half .east) (ent canvas0 []).handle = none) ∧
    (hType (ent canvas0 []).handle ≠ 6) ∧ (isRungZero ((takeEntry .east busy).half .east) (ent canvas0 []).handle = false) ∧
    (runGuarded ((takeEntry .east busy).half .east) (ent canvas0 []).handle = false) ∧ (isAtTime (ent canvas0 []) = false) ∧
    (Taken .east streamDrainSpec (ent canvas0 []) none busy) ∧
    (runState ((takeEntry .east busy).half .east) (ent canvas0 []).handle = RunState.running) ∧
    (((takeEntry .east busy).half .east).env.waitingStarts = []) :=
    by decide +kernel
theorem witness_MediaCommands_plain :
    (recB decode0 = ((takeEntry .east busy).half .east).record (feedEnt 0).handle) ∧ (Taken .east decodeFeedSpec (feedEnt 0) none busy) ∧
    (checkReserved (feedEnt 0) [(16, 24)] = none) ∧ (checkRunning ((takeEntry .east busy).half .east) (feedEnt 0).handle = none) ∧
    (decFeedRegion (recB decode0) ≠ 0) ∧
    (((takeEntry .east busy).half .east).obj.decode? (hIndex (feedEnt 0).handle) = some { index := 0, feedEnd := 4096 : DecodeSt }) ∧
    ({ index := 0, feedEnd := 4096 : DecodeSt }.feedEnd < fld (feedEnt 0) 16 8) ∧
    (fld (feedEnt 0) 16 8 ≤ { index := 0, feedEnd := 4096 : DecodeSt }.consumed + rd (recB decode0) 44 4) ∧
    ({ index := 0, feedEnd := 4096 : DecodeSt }.discontinuity = false) ∧ (fld (feedEnt 0) 32 4 = 0) :=
    by decide +kernel
theorem witness_MediaCommands_unitEnd :
    (recB decode0 = ((takeEntry .east busy).half .east).record (feedEnt 1).handle) ∧ (Taken .east decodeFeedSpec (feedEnt 1) none busy) ∧
    (checkReserved (feedEnt 1) [(16, 24)] = none) ∧ (checkRunning ((takeEntry .east busy).half .east) (feedEnt 1).handle = none) ∧
    (decFeedRegion (recB decode0) ≠ 0) ∧
    (((takeEntry .east busy).half .east).obj.decode? (hIndex (feedEnt 1).handle) = some { index := 0, feedEnd := 4096 : DecodeSt }) ∧
    ({ index := 0, feedEnd := 4096 : DecodeSt }.feedEnd < fld (feedEnt 1) 16 8) ∧
    (fld (feedEnt 1) 16 8 ≤ { index := 0, feedEnd := 4096 : DecodeSt }.consumed + rd (recB decode0) 44 4) ∧
    ({ index := 0, feedEnd := 4096 : DecodeSt }.discontinuity = false) ∧ (fld (feedEnt 1) 32 4 = 1) ∧
    (rd (recB decode0) 60 1 = 1 → { index := 0, feedEnd := 4096 : DecodeSt }.anchor.isSome = true ∨ fld (feedEnt 1) 24 8 ≠ noTime) :=
    by decide +kernel
theorem witness_MediaCommands_refresh :
    (recB encode0 = ((takeEntry .east busy).half .east).record (ent encode0 (le 1 2)).handle) ∧
    (checkRunning ((takeEntry .east busy).half .east) (ent encode0 (le 1 2)).handle = none) ∧
    (((takeEntry .east busy).half .east).obj.encode? (hIndex (ent encode0 (le 1 2)).handle) = some (objects0.encodes.getD 0 { index := 0 : EncodeSt })) ∧
    (esGuarded (recB encode0) = false) ∧ (isAtTime (ent encode0 (le 1 2)) = false) ∧
    (Taken .east encodeRefreshSpec (ent encode0 (le 1 2)) none busy) ∧
    (fld (ent encode0 (le 1 2)) 16 1 = 1 ∨ fld (ent encode0 (le 1 2)) 16 1 = 2) ∧
    (checkReserved (ent encode0 (le 1 2)) [(16, 1)] = none) :=
    by decide +kernel
theorem witness_MediaCommands_rate :
    (recB encode0 = ((takeEntry .east busy).half .east).record (ent encode0 (le 4 20000 ++ le 4 20000 ++ le 4 100 ++ List.replicate 5 255)).handle) ∧
    (checkRunning ((takeEntry .east busy).half .east) (ent encode0 (le 4 20000 ++ le 4 20000 ++ le 4 100 ++ List.replicate 5 255)).handle = none) ∧
    (((takeEntry .east busy).half .east).obj.encode? (hIndex (ent encode0 (le 4 20000 ++ le 4 20000 ++ le 4 100 ++ List.replicate 5 255)).handle) = some (objects0.encodes.getD 0 { index := 0 : EncodeSt })) ∧
    (esGuarded (recB encode0) = false) ∧ (isAtTime (ent encode0 (le 4 20000 ++ le 4 20000 ++ le 4 100 ++ List.replicate 5 255)) = false) ∧
    (Taken .east encodeRateSpec (ent encode0 (le 4 20000 ++ le 4 20000 ++ le 4 100 ++ List.replicate 5 255)) none busy) ∧
    ((objects0.encodes.getD 0 { index := 0 : EncodeSt }).rateWait = []) ∧
    ((objects0.encodes.getD 0 { index := 0 : EncodeSt }).run ≠ RunState.draining) ∧
    (checkReserved (ent encode0 (le 4 20000 ++ le 4 20000 ++ le 4 100 ++ List.replicate 5 255)) [(16, 17)] = none) ∧
    (rateRange (pad 17 (ent encode0 (le 4 20000 ++ le 4 20000 ++ le 4 100 ++ List.replicate 5 255)).payload) = none) :=
    by decide +kernel
theorem witness_SceneCommands_update :
    (recB surface0 = ((takeEntry .east busy).half .east).record updEnt.handle) ∧
    (((takeEntry .east busy).half .east).obj.surface? (hIndex updEnt.handle) = some { index := 0 : SurfaceSt }) ∧
    (1000200000 = updateTime (some { index := 0 : SurfaceSt }) (fld updEnt 24 1) (fld updEnt 16 8) ((takeEntry .east busy).half .east).clk.now) ∧
    (Taken .east surfaceUpdateSpec updEnt none busy) ∧ (fld updEnt 25 1 ≤ 4) ∧ (checkReserved updEnt [(16, 10), (28, 32)] = none) ∧
    (checkRunning ((takeEntry .east busy).half .east) updEnt.handle = none) ∧ (fld updEnt 24 1 < rd (recB surface0) 17 1) ∧
    ((updateRects updEnt).all (rectInside (rd (recB surface0) 18 2) (rd (recB surface0) 20 2)) = true) ∧
    (({ index := 0 : SurfaceSt }.busy.any fun q => q.fst == fld updEnt 24 1) = true → { index := 0 : SurfaceSt }.waiting.any (sameUpdate (fld updEnt 24 1) (fld updEnt 16 8)) = true) ∧
    ((rd (recB surface0) 45 1).testBit 1 = false) :=
    by decide +kernel
theorem witness_SceneCommands_cueArm :
    (Taken .east cueArmSpec (cueEnt 1001000000) none busy) ∧ (fld (cueEnt 1001000000) 24 4 ≠ 0) ∧ (fld (cueEnt 1001000000) 28 1 ≤ 7) ∧
    (checkReserved (cueEnt 1001000000) cueFields = none) ∧ (((takeEntry .east busy).half .east).running ≠ []) ∧
    ((armedCues ((takeEntry .east busy).half .east) (fld (cueEnt 1001000000) 24 4)).length < 4) ∧
    (((takeEntry .east busy).half .east).clk.now + 1000000 ≤ fld (cueEnt 1001000000) 16 8) :=
    by decide +kernel
theorem witness_SceneCommands_cueCancel :
    (Taken .east cueCancelSpec (cueEnt 1001000000) none busy) ∧ (fld (cueEnt 1001000000) 24 4 ≠ 0) ∧ (fld (cueEnt 1001000000) 28 1 ≤ 7) ∧
    (checkReserved (cueEnt 1001000000) cueFields = none) ∧ (((takeEntry .east busy).half .east).running ≠ []) ∧
    (((takeEntry .east busy).half .east).clk.now + 1000000 ≤ fld (cueEnt 1001000000) 16 8) :=
    by decide +kernel
theorem witness_PortCommands_reset :
    (checkRunning ((takeEntry .east busy).half .east) (ent port0 []).handle = none) ∧
    (Taken .east portResetSpec (ent port0 []) none busy) ∧
    ((((takeEntry .east busy).half .east).net.getD (hIndex (ent port0 []).handle) { : PortSt }).flags.retired = false) :=
    by decide +kernel
theorem witness_PortCommands_move :
    (checkRunning ((takeEntry .east busy).half .east) (ent flow0 (le 1 1)).handle = none) ∧
    (recB flow0 = ((takeEntry .east busy).half .east).record (ent flow0 (le 1 1)).handle) ∧
    (16777217 = if fld (ent flow0 (le 1 1)) 16 1 = 0 then flPort (recB flow0) else flSecondary (recB flow0)) ∧
    (flowAt .east ((takeEntry .east busy).half .east) (ent flow0 (le 1 1)).handle = some (objects0.flows.getD 0 { index := 0, port := 0, ssrc := 0, nextSeq := 0, sentSeq := 0 : FlowSt })) ∧
    (Taken .east flowMoveSpec (ent flow0 (le 1 1)) none busy) ∧ (fld (ent flow0 (le 1 1)) 16 1 ≤ 1) ∧
    (checkReserved (ent flow0 (le 1 1)) [(16, 1)] = none) ∧
    ((objects0.flows.getD 0 { index := 0, port := 0, ssrc := 0, nextSeq := 0, sentSeq := 0 : FlowSt }).run ≠ RunState.draining) ∧
    (portUp (takeEntry .east busy) 16777217 = true) ∧ (hHalf 16777217 = .east ∨ (takeEntry .east busy).sparWorks = true) :=
    by decide +kernel
theorem witness_PacingCommands_shaper :
    (checkRunning ((takeEntry .east busy).half .east) shapeEnt.handle = none) ∧
    (isAtTime shapeEnt = true → ((takeEntry .east busy).half .east).clk.now < atTimeOf shapeEnt) ∧
    (Taken .east shaperSetSpec shapeEnt none busy) ∧ (fld shapeEnt 16 4 = 4294967295 ∨ fld shapeEnt 16 4 ≤ 25000000) ∧
    (fld shapeEnt 20 4 = 0 ∨ fld shapeEnt 20 4 ≤ 16777216 ∧ leastBurst .east ((takeEntry .east busy).half .east) shapeEnt.handle ≤ fld shapeEnt 20 4) ∧
    (fld shapeEnt 24 4 = 4294967295 ∨ fld shapeEnt 24 4 ≤ 1000000) ∧ (checkReserved shapeEnt [(16, 12)] = none) :=
    by decide +kernel
theorem witness_PacingCommands_shaperAt :
    (checkRunning ((takeEntry .east busy).half .east) shapeAt.handle = none) ∧
    (isAtTime shapeAt = true → ((takeEntry .east busy).half .east).clk.now < atTimeOf shapeAt) ∧
    (Taken .east shaperSetSpec shapeAt none busy) ∧ (fld shapeAt 16 4 = 4294967295 ∨ fld shapeAt 16 4 ≤ 25000000) ∧
    (fld shapeAt 20 4 = 0 ∨ fld shapeAt 20 4 ≤ 16777216 ∧ leastBurst .east ((takeEntry .east busy).half .east) shapeAt.handle ≤ fld shapeAt 20 4) ∧
    (fld shapeAt 24 4 = 4294967295 ∨ fld shapeAt 24 4 ≤ 1000000) ∧ (checkReserved shapeAt [(16, 12)] = none) :=
    by decide +kernel
theorem witness_PacingCommands_rebase :
    (checkRunning ((takeEntry .east busy).half .east) (ent gate0 (le 8 5)).handle = none) ∧
    (isAtTime (ent gate0 (le 8 5)) = true → ((takeEntry .east busy).half .east).clk.now < atTimeOf (ent gate0 (le 8 5))) ∧
    (recB gate0 = ((takeEntry .east busy).half .east).record (ent gate0 (le 8 5)).handle) ∧ (0 = rd (recB gate0) 16 4 % 65536) ∧
    (1000100005 = gateStart (fld (ent gate0 (le 8 5)) 16 8) (rd (recB gate0) 24 4) ((takeEntry .east busy).half .east).clk.now ((takeEntry .east busy).half .east).clk.now) ∧
    (isAtTime (ent gate0 (le 8 5)) = false) ∧ (Taken .east gateRebaseSpec (ent gate0 (le 8 5)) none busy) ∧
    (checkReserved (ent gate0 (le 8 5)) [(16, 8)] = none) ∧
    ((((takeEntry .east busy).half .east).net.getD 0 { : PortSt }).flags.retired = false) :=
    by decide +kernel
theorem witness_Queries_object :
    (Taken .east (querySpec 769 (HandleRule.types (List.map (fun x => x + 1) (List.range 18) ++ [32, 33, 34, 35, 36])) (queryObjectBody .east (askEnt port0) busy)) (askEnt port0) none busy) ∧
    (notHere .east 769 ((takeEntry .east busy).half .east) (askEnt port0).handle = false) ∧ (fld (askEnt port0) 28 4 ≤ 1) ∧
    (fld (askEnt port0) 32 4 ≤ 0) ∧ (checkReserved (askEnt port0) [(16, 20)] = none) ∧
    (queryObjectBody .east (askEnt port0) (takeEntry .east busy) = some (got (queryObjectBody .east (askEnt port0) (takeEntry .east busy)))) :=
    by decide +kernel
theorem witness_Queries_decode :
    (Taken .east (querySpec 770 (HandleRule.types [4]) (queryDecodeBody .east (askEnt decode0) busy)) (askEnt decode0) none busy) ∧
    (notHere .east 770 ((takeEntry .east busy).half .east) (askEnt decode0).handle = false) ∧ (fld (askEnt decode0) 28 4 ≤ 1) ∧
    (fld (askEnt decode0) 32 4 ≤ 0) ∧ (checkReserved (askEnt decode0) [(16, 20)] = none) ∧
    (queryDecodeBody .east (askEnt decode0) (takeEntry .east busy) = some (got (queryDecodeBody .east (askEnt decode0) (takeEntry .east busy)))) :=
    by decide +kernel
theorem witness_Queries_input :
    (Taken .east (querySpec 771 (HandleRule.types [3]) (queryInputBody .east (askEnt input0) busy)) (askEnt input0) none busy) ∧
    (notHere .east 771 ((takeEntry .east busy).half .east) (askEnt input0).handle = false) ∧ (fld (askEnt input0) 28 4 ≤ 1) ∧
    (fld (askEnt input0) 32 4 ≤ 0) ∧ (checkReserved (askEnt input0) [(16, 20)] = none) ∧
    (queryInputBody .east (askEnt input0) (takeEntry .east busy) = some (got (queryInputBody .east (askEnt input0) (takeEntry .east busy)))) :=
    by decide +kernel
theorem witness_Queries_encode :
    (Taken .east (querySpec 772 (HandleRule.types [5]) (queryEncodeBody .east (askEnt encode0) busy)) (askEnt encode0) none busy) ∧
    (notHere .east 772 ((takeEntry .east busy).half .east) (askEnt encode0).handle = false) ∧ (fld (askEnt encode0) 28 4 ≤ 1) ∧
    (fld (askEnt encode0) 32 4 ≤ 0) ∧ (checkReserved (askEnt encode0) [(16, 20)] = none) ∧
    (queryEncodeBody .east (askEnt encode0) (takeEntry .east busy) = some (got (queryEncodeBody .east (askEnt encode0) (takeEntry .east busy)))) :=
    by decide +kernel
theorem witness_Queries_channel :
    (Taken .east (querySpec 776 HandleRule.channel (queryChannelBody .east (askEnt 268500736) busy)) (askEnt 268500736) none busy) ∧
    (notHere .east 776 ((takeEntry .east busy).half .east) (askEnt 268500736).handle = false) ∧ (fld (askEnt 268500736) 28 4 ≤ 1) ∧
    (fld (askEnt 268500736) 32 4 ≤ 0) ∧ (checkReserved (askEnt 268500736) [(16, 20)] = none) ∧
    (queryChannelBody .east (askEnt 268500736) (takeEntry .east busy) = some (got (queryChannelBody .east (askEnt 268500736) (takeEntry .east busy)))) :=
    by decide +kernel
theorem witness_Queries_dma :
    (Taken .east (querySpec 778 HandleRule.zero (queryDmaBody .east busy)) (askEnt 0) none busy) ∧
    (notHere .east 778 ((takeEntry .east busy).half .east) (askEnt 0).handle = false) ∧ (fld (askEnt 0) 28 4 ≤ 1) ∧
    (fld (askEnt 0) 32 4 ≤ 0) ∧ (checkReserved (askEnt 0) [(16, 20)] = none) ∧
    (queryDmaBody .east (takeEntry .east busy) = some (got (queryDmaBody .east (takeEntry .east busy)))) :=
    by decide +kernel
theorem witness_Queries_events :
    (Taken .east (querySpec 779 HandleRule.zero (queryEventsBody .east busy)) (askEnt 0) none busy) ∧
    (notHere .east 779 ((takeEntry .east busy).half .east) (askEnt 0).handle = false) ∧ (fld (askEnt 0) 28 4 ≤ 1) ∧
    (fld (askEnt 0) 32 4 ≤ 0) ∧ (checkReserved (askEnt 0) [(16, 20)] = none) ∧
    (queryEventsBody .east (takeEntry .east busy) = some (got (queryEventsBody .east (takeEntry .east busy)))) :=
    by decide +kernel
theorem witness_Queries_filter :
    (Taken .east (querySpec 780 HandleRule.zero (queryFilterBody (askEnt 0))) (askEnt 0) none busy) ∧
    (notHere .east 780 ((takeEntry .east busy).half .east) (askEnt 0).handle = false) ∧ (fld (askEnt 0) 28 4 ≤ 1) ∧
    (fld (askEnt 0) 32 4 ≤ 2) ∧ (checkReserved (askEnt 0) [(16, 20)] = none) ∧
    (queryFilterBody (askEnt 0) = some (got (queryFilterBody (askEnt 0)))) :=
    ⟨filter_taken, by decide +kernel, by decide +kernel, by decide +kernel, by decide +kernel, rfl⟩
theorem witness_Queries_health :
    (Taken .east (querySpec 781 HandleRule.zero (queryHealthBody .east busy)) (askEnt 0) none busy) ∧
    (notHere .east 781 ((takeEntry .east busy).half .east) (askEnt 0).handle = false) ∧ (fld (askEnt 0) 28 4 ≤ 1) ∧
    (fld (askEnt 0) 32 4 ≤ 0) ∧ (checkReserved (askEnt 0) [(16, 20)] = none) ∧
    (queryHealthBody .east (takeEntry .east busy) = some (got (queryHealthBody .east (takeEntry .east busy)))) :=
    by decide +kernel
theorem witness_Queries_ptp :
    (Taken .east (querySpec 782 (HandleRule.types [17]) (queryPtpBody .east (askEnt ptp0) busy)) (askEnt ptp0) none busy) ∧
    (notHere .east 782 ((takeEntry .east busy).half .east) (askEnt ptp0).handle = false) ∧ (fld (askEnt ptp0) 28 4 ≤ 1) ∧
    (fld (askEnt ptp0) 32 4 ≤ 0) ∧ (checkReserved (askEnt ptp0) [(16, 20)] = none) ∧
    (queryPtpBody .east (askEnt ptp0) (takeEntry .east busy) = some (got (queryPtpBody .east (askEnt ptp0) (takeEntry .east busy)))) :=
    by decide +kernel
theorem witness_Queries_cues :
    (Taken .east (querySpec 783 HandleRule.zero (queryCuesBody .east busy)) (askEnt 0) none busy) ∧
    (notHere .east 783 ((takeEntry .east busy).half .east) (askEnt 0).handle = false) ∧ (fld (askEnt 0) 28 4 ≤ 1) ∧
    (fld (askEnt 0) 32 4 ≤ 0) ∧ (checkReserved (askEnt 0) [(16, 20)] = none) ∧
    (queryCuesBody .east (takeEntry .east busy) = some (got (queryCuesBody .east (takeEntry .east busy)))) :=
    by decide +kernel
theorem witness_Queries_surge :
    (Taken .east (querySpec 773 HandleRule.zero (querySurgeBody .east busy)) (clearEnt 0) none busy) ∧
    (notHere .east 773 ((takeEntry .east busy).half .east) (clearEnt 0).handle = false) ∧ (fld (clearEnt 0) 28 4 ≤ 1) ∧
    (fld (clearEnt 0) 32 4 ≤ 0) ∧ (checkReserved (clearEnt 0) [(16, 20)] = none) ∧
    (querySurgeBody .east (takeEntry .east busy) = some (got (querySurgeBody .east (takeEntry .east busy)))) :=
    by decide +kernel
theorem witness_Queries_flow :
    (Taken .east (querySpec 774 (HandleRule.types [2]) (queryFlowBody .east (clearEnt flow0) busy)) (clearEnt flow0) none busy) ∧
    (notHere .east 774 ((takeEntry .east busy).half .east) (clearEnt flow0).handle = false) ∧ (fld (clearEnt flow0) 28 4 ≤ 1) ∧
    (fld (clearEnt flow0) 32 4 ≤ 0) ∧ (checkReserved (clearEnt flow0) [(16, 20)] = none) ∧
    (queryFlowBody .east (clearEnt flow0) (takeEntry .east busy) = some (got (queryFlowBody .east (clearEnt flow0) (takeEntry .east busy)))) :=
    by decide +kernel
theorem witness_Queries_port :
    (Taken .east (querySpec 775 (HandleRule.types [1]) (queryPortBody .east (clearEnt port0) busy)) (clearEnt port0) none busy) ∧
    (notHere .east 775 ((takeEntry .east busy).half .east) (clearEnt port0).handle = false) ∧ (fld (clearEnt port0) 28 4 ≤ 1) ∧
    (fld (clearEnt port0) 32 4 ≤ 0) ∧ (checkReserved (clearEnt port0) [(16, 20)] = none) ∧
    (queryPortBody .east (clearEnt port0) (takeEntry .east busy) = some (got (queryPortBody .east (clearEnt port0) (takeEntry .east busy)))) :=
    by decide +kernel
theorem witness_Queries_pool :
    (Taken .east (querySpec 777 (HandleRule.types [13]) (queryPoolBody .east (clearEnt pool0) busy)) (clearEnt pool0) none busy) ∧
    (notHere .east 777 ((takeEntry .east busy).half .east) (clearEnt pool0).handle = false) ∧ (fld (clearEnt pool0) 28 4 ≤ 1) ∧
    (fld (clearEnt pool0) 32 4 ≤ 0) ∧ (checkReserved (clearEnt pool0) [(16, 20)] = none) ∧
    (queryPoolBody .east (clearEnt pool0) (takeEntry .east busy) = some (got (queryPoolBody .east (clearEnt pool0) (takeEntry .east busy)))) :=
    by decide +kernel

def chan0 : Handle := 0x1000FF00
/-- Channel 0 is frozen at an uncorrectable word. -/
def frozen0 : FrozenRec := { address := 0x20000, time := 5, cause := 1, requester := 2, syndrome := 3, word := 0, check := 0 }
def froze : State := busyWith (fun x => { x with dch := x.dch.modify 0 (fun c => { c with frozen := some frozen0 }) })
def traceEnt (mode : Nat) : CmdEntry :=
  ent 0 (le 1 3 ++ le 1 mode ++ le 2 0 ++ le 2 0x10 ++ le 2 0xFFFF ++ le 4 0x10000000 ++ le 4 0 ++ le 8 4096 ++ le 4 8192)
def programEnt : CmdEntry := ent 0 (le 1 35 ++ le 1 3 ++ le 1 1 ++ le 1 0 ++ le 1 7 ++ le 1 0x10 ++ pad 42 [])
/-- Fault source 3 waits for the host's decision. -/
def deciding : State := busyWith (fun x => { x with flt := { x.flt with status := 8, decisions := [⟨3, 0⟩] } })
/-- Both halves serve what the fuse commands need, with the rail up, on confirmed bundles of security version 5. -/
def fuseHalf (x : Half) : Half := { x with boot := { x.boot with bundle := { security := 5 } } }
def fusing : State := { duo with east := fuseHalf duo.east, west := fuseHalf duo.west }
def trying : State := east (fun x => { x with boot := { x.boot with trial := true } })
def noBytes : RefFetch := {}
def block0 : CtrBlock := {}
def stageEnt (n crc : Nat) : CmdEntry := ent 0 (le 8 0x4000 ++ le 4 n ++ le 4 crc ++ le 8 0 ++ le 1 1)

theorem witness_ChannelCommands_inspect :
    (hHalf (ent chan0 (le 8 16384 ++ le 4 8256)).handle = .east) ∧
    (Taken .east channelInspectSpec (ent chan0 (le 8 16384 ++ le 4 8256)) none froze) ∧
    (checkReserved (ent chan0 (le 8 16384 ++ le 4 8256)) [(16, 12)] = none) ∧
    ((chanAt ((takeEntry .east froze).half .east) (channelOf (ent chan0 (le 8 16384 ++ le 4 8256)))).frozen = some frozen0) :=
    by decide +kernel
theorem witness_ChannelCommands_retire :
    (hHalf (ent chan0 (le 8 1 ++ le 8 131072)).handle = .east) ∧ (1 = fld (ent chan0 (le 8 1 ++ le 8 131072)) 16 2) ∧
    ([131072] = unionNew (chanAt ((takeEntry .east busy).half .east) (channelOf (ent chan0 (le 8 1 ++ le 8 131072)))).retiredBlocks (List.map (fun i => fld (ent chan0 (le 8 1 ++ le 8 131072)) (24 + 8 * i) 8) (List.range 1))) ∧
    (Taken .east blockRetireSpec (ent chan0 (le 8 1 ++ le 8 131072)) none busy) ∧
    (8 + 8 * 1 ≤ BitVec.toNat (ent chan0 (le 8 1 ++ le 8 131072)).len) ∧ (1 ≤ 1) ∧ (1 ≤ 5) ∧
    (checkReserved (ent chan0 (le 8 1 ++ le 8 131072)) [(16, 2), (24, 8 * 1)] = none) ∧
    (∀ (i : Nat), i < 1 → fld (ent chan0 (le 8 1 ++ le 8 131072)) (24 + 8 * i) 8 % 65536 = 0 ∧ fld (ent chan0 (le 8 1 ++ le 8 131072)) (24 + 8 * i) 8 < usableBytes ((takeEntry .east busy).half .east)) ∧
    ((chanAt ((takeEntry .east busy).half .east) (channelOf (ent chan0 (le 8 1 ++ le 8 131072)))).flags.retired = false) ∧
    ([131072].length ≤ 256) :=
    by decide +kernel
theorem witness_ChannelCommands_retireFive :
    (hHalf (ent chan0 (le 8 5 ++ le 8 131072 ++ le 8 196608 ++ le 8 131072 ++ le 8 0 ++ le 8 65536)).handle = .east) ∧
    (5 = fld (ent chan0 (le 8 5 ++ le 8 131072 ++ le 8 196608 ++ le 8 131072 ++ le 8 0 ++ le 8 65536)) 16 2) ∧
    ([131072, 196608, 0, 65536] = unionNew (chanAt ((takeEntry .east busy).half .east) (channelOf (ent chan0 (le 8 5 ++ le 8 131072 ++ le 8 196608 ++ le 8 131072 ++ le 8 0 ++ le 8 65536)))).retiredBlocks (List.map (fun i => fld (ent chan0 (le 8 5 ++ le 8 131072 ++ le 8 196608 ++ le 8 131072 ++ le 8 0 ++ le 8 65536)) (24 + 8 * i) 8) (List.range 5))) ∧
    (Taken .east blockRetireSpec (ent chan0 (le 8 5 ++ le 8 131072 ++ le 8 196608 ++ le 8 131072 ++ le 8 0 ++ le 8 65536)) none busy) ∧
    (8 + 8 * 5 ≤ BitVec.toNat (ent chan0 (le 8 5 ++ le 8 131072 ++ le 8 196608 ++ le 8 131072 ++ le 8 0 ++ le 8 65536)).len) ∧ (1 ≤ 5) ∧
    (5 ≤ 5) ∧
    (checkReserved (ent chan0 (le 8 5 ++ le 8 131072 ++ le 8 196608 ++ le 8 131072 ++ le 8 0 ++ le 8 65536)) [(16, 2), (24, 8 * 5)] = none) ∧
    (∀ (i : Nat), i < 5 → fld (ent chan0 (le 8 5 ++ le 8 131072 ++ le 8 196608 ++ le 8 131072 ++ le 8 0 ++ le 8 65536)) (24 + 8 * i) 8 % 65536 = 0 ∧ fld (ent chan0 (le 8 5 ++ le 8 131072 ++ le 8 196608 ++ le 8 131072 ++ le 8 0 ++ le 8 65536)) (24 + 8 * i) 8 < usableBytes ((takeEntry .east busy).half .east)) ∧
    ((chanAt ((takeEntry .east busy).half .east) (channelOf (ent chan0 (le 8 5 ++ le 8 131072 ++ le 8 196608 ++ le 8 131072 ++ le 8 0 ++ le 8 65536)))).flags.retired = false) ∧
    ([131072, 196608, 0, 65536].length ≤ 256) :=
    by decide +kernel
theorem witness_ChannelCommands_thaw :
    (hHalf (ent chan0 (le 1 1)).handle = .east) ∧ (Taken .east channelThawSpec (ent chan0 (le 1 1)) none froze) ∧
    (checkReserved (ent chan0 (le 1 1)) [(16, 1)] = none) ∧
    ((chanAt ((takeEntry .east froze).half .east) (channelOf (ent chan0 (le 1 1)))).flags.retired = false) ∧
    ((chanAt ((takeEntry .east froze).half .east) (channelOf (ent chan0 (le 1 1)))).frozen = some frozen0) ∧
    (fld (ent chan0 (le 1 1)) 16 1 ≠ 0 ∨ frozen0.address / 65536 * 65536 ∈ (chanAt ((takeEntry .east froze).half .east) (channelOf (ent chan0 (le 1 1)))).retiredBlocks) :=
    by decide +kernel
theorem witness_ChannelCommands_retrain :
    (hHalf (ent chan0 []).handle = .east) ∧ (Taken .east channelRetrainSpec (ent chan0 []) none busy) ∧
    (checkReserved (ent chan0 []) [] = none) ∧
    ((chanAt ((takeEntry .east busy).half .east) (channelOf (ent chan0 []))).flags.retired = false) ∧
    ((chanAt ((takeEntry .east busy).half .east) (channelOf (ent chan0 []))).frozen = none) ∧
    (mayRetrain ((takeEntry .east busy).half .east) (channelOf (ent chan0 [])) = true) :=
    by decide +kernel
theorem witness_SequencerCommands_traceOff :
    (Taken .east seqTraceSpec (traceEnt 0) none busy) ∧ ((blockSource (fld (traceEnt 0) 16 1)).isSome = true) ∧
    (((takeEntry .east busy).half .east).env.running.isSome = true) ∧ (fld (traceEnt 0) 17 1 = 0) ∧ (fld (traceEnt 0) 18 1 ≤ 1) ∧
    (checkReserved (traceEnt 0) [(16, 3), (20, 8), (32, 12)] = none) :=
    by decide +kernel
theorem witness_SequencerCommands_trace :
    (Taken .east seqTraceSpec (traceEnt 1) none busy) ∧ (blockSource (fld (traceEnt 1) 16 1) = some 3) ∧
    (((takeEntry .east busy).half .east).env.running.isSome = true) ∧ (fld (traceEnt 1) 17 1 = 1 ∨ fld (traceEnt 1) 17 1 = 2) ∧
    (fld (traceEnt 1) 17 1 = 2 → ((leavers .east ((takeEntry .east busy).half .east) 3).any fun p => urgentContext (((takeEntry .east busy).half .east).record p.fst)) = false) ∧
    (fld (traceEnt 1) 18 1 ≤ 1) ∧ (addressOk (fld (traceEnt 1) 20 2) = true) ∧ (addressOk (fld (traceEnt 1) 22 2) = true) ∧
    (checkReserved (traceEnt 1) [(16, 3), (20, 8), (32, 12)] = none) ∧ (hType (BitVec.ofNat 32 (fld (traceEnt 1) 24 4)) = 16) ∧
    (hReserved (BitVec.ofNat 32 (fld (traceEnt 1) 24 4)) = 0) ∧ (hHalf (BitVec.ofNat 32 (fld (traceEnt 1) 24 4)) = .east) ∧
    (hIndex (BitVec.ofNat 32 (fld (traceEnt 1) 24 4)) < 65280) ∧ (fld (traceEnt 1) 32 8 % 4096 = 0) ∧ (8192 ≤ fld (traceEnt 1) 40 4) ∧
    (fld (traceEnt 1) 40 4 ≤ 16777216) ∧ (fld (traceEnt 1) 40 4 % 4096 = 0) ∧
    (sourceRetired ((takeEntry .east busy).half .east) 3 = false) ∧
    (((takeEntry .east busy).half .east).record (BitVec.ofNat 32 (fld (traceEnt 1) 24 4)) ≠ []) ∧
    (placedAt ((takeEntry .east busy).half .east) (hIndex (BitVec.ofNat 32 (fld (traceEnt 1) 24 4))) = some { region := 0, channel := 0, offset := 0, size := 16777216 : Placement }) ∧
    (fld (traceEnt 1) 32 8 + fld (traceEnt 1) 40 4 ≤ { region := 0, channel := 0, offset := 0, size := 16777216 : Placement }.size) :=
    by decide +kernel
theorem witness_SequencerCommands_history :
    (Taken .east seqHistorySpec (ent 0 (le 8 3 ++ le 8 16384 ++ le 4 4160)) none busy) ∧
    (blockSource (fld (ent 0 (le 8 3 ++ le 8 16384 ++ le 4 4160)) 16 1) = some 3) ∧
    (checkReserved (ent 0 (le 8 3 ++ le 8 16384 ++ le 4 4160)) [(16, 1), (24, 12)] = none) ∧
    (sourceRetired ((takeEntry .east busy).half .east) 3 = false) :=
    by decide +kernel
theorem witness_SequencerCommands_dump :
    (Taken .east diagDumpSpec (ent encode0 (le 4 0 ++ le 4 4 ++ le 8 16384 ++ le 4 32800)) none busy) ∧
    (hHalf (ent encode0 (le 4 0 ++ le 4 4 ++ le 8 16384 ++ le 4 32800)).handle = .east) ∧
    (stageOk (hType (ent encode0 (le 4 0 ++ le 4 4 ++ le 8 16384 ++ le 4 32800)).handle) (fld (ent encode0 (le 4 0 ++ le 4 4 ++ le 8 16384 ++ le 4 32800)) 20 1) = true) ∧
    (checkReserved (ent encode0 (le 4 0 ++ le 4 4 ++ le 8 16384 ++ le 4 32800)) [(16, 5), (24, 12)] = none) ∧
    (checkRunning ((takeEntry .east busy).half .east) (ent encode0 (le 4 0 ++ le 4 4 ++ le 8 16384 ++ le 4 32800)).handle = none) ∧
    (fld (ent encode0 (le 4 0 ++ le 4 4 ++ le 8 16384 ++ le 4 32800)) 16 4 < diagUnits (((takeEntry .east busy).half .east).record (ent encode0 (le 4 0 ++ le 4 4 ++ le 8 16384 ++ le 4 32800)).handle)) ∧
    (urgentContext (((takeEntry .east busy).half .east).record (ent encode0 (le 4 0 ++ le 4 4 ++ le 8 16384 ++ le 4 32800)).handle) = false) :=
    by decide +kernel
theorem witness_CounterCommands_program :
    (fld programEnt 16 1 < 36) ∧ (Taken .east counterProgramSpec programEnt none busy) ∧ (fld programEnt 18 1 < 8) ∧
    (fld programEnt 19 1 = 0) ∧
    ((fld programEnt 18 1).testBit 2 = true ∨ ∀ (i : Nat), i < 8 → (fld programEnt 17 1).testBit i = true → codeGiven (fld programEnt 16 1) (fld programEnt (20 + i) 1) = true) ∧
    (fld programEnt 29 1 % 2 = 0) ∧ ((fld programEnt 29 1).testBit 2 = false) ∧ ((fld programEnt 29 1).testBit 4 = false) ∧
    ((fld programEnt 29 1).testBit 6 = false) ∧ (fld programEnt 30 2 = 0) ∧
    (blockRetired ((takeEntry .east busy).half .east) (fld programEnt 16 1) = false) :=
    by decide +kernel
theorem witness_CounterCommands_read :
    (fld (ent 0 (le 1 35)) 16 1 < 36) ∧ (Taken .east counterReadSpec (ent 0 (le 1 35)) none busy) ∧
    (checkReserved (ent 0 (le 1 35)) [(16, 1)] = none) ∧
    (block0 = ((takeEntry .east busy).half .east).ctr.blocks.getD (fld (ent 0 (le 1 35)) 16 1) { : CtrBlock }) :=
    by decide +kernel
theorem witness_FaultCommands_read :
    (Taken .east (faultReadSpec (ent 0 (pad 16 []))) (ent 0 (pad 16 [])) none deciding) ∧ (fld (ent 0 (pad 16 [])) 16 8 = 0) ∧
    (fld (ent 0 (pad 16 [])) 28 4 = 0) :=
    by decide +kernel
theorem witness_FaultCommands_readAll :
    (0 = min ((fld (ent 0 (le 8 16384 ++ le 4 512 ++ le 4 1)) 24 4 - 512) / 64) ((takeEntry .east deciding).half .east).ev.alarms.length) ∧
    (Taken .east (faultReadSpec (ent 0 (le 8 16384 ++ le 4 512 ++ le 4 1))) (ent 0 (le 8 16384 ++ le 4 512 ++ le 4 1)) none deciding) ∧
    (fld (ent 0 (le 8 16384 ++ le 4 512 ++ le 4 1)) 16 8 ≠ 0) ∧ (fld (ent 0 (le 8 16384 ++ le 4 512 ++ le 4 1)) 28 4 = 1) :=
    by decide +kernel
theorem witness_FaultCommands_clear :
    (8 = fld (ent 0 (le 8 8)) 16 8) ∧ (Taken .east faultClearSpec (ent 0 (le 8 8)) none deciding) :=
    by decide +kernel
theorem witness_FaultCommands_inject :
    (Taken .east faultInjectSpec (ent 0 (le 1 28 ++ le 1 1)) none busy) ∧ (fld (ent 0 (le 1 28 ++ le 1 1)) 16 1 ≤ 28) ∧
    (fld (ent 0 (le 1 28 ++ le 1 1)) 17 1 ≠ 0) ∧
    (sourceRetired ((takeEntry .east busy).half .east) (checkerSource (fld (ent 0 (le 1 28 ++ le 1 1)) 16 1)) = false) ∧
    (armedMask ((takeEntry .east busy).half .east) (fld (ent 0 (le 1 28 ++ le 1 1)) 16 1) = 0) :=
    by decide +kernel
theorem witness_FaultCommands_action :
    (Taken .east faultActionSpec (ent 0 (le 1 3 ++ le 1 1)) none deciding) ∧ (fld (ent 0 (le 1 3 ++ le 1 1)) 16 1 ≤ 49) ∧
    (fld (ent 0 (le 1 3 ++ le 1 1)) 17 1 = 1 ∨ fld (ent 0 (le 1 3 ++ le 1 1)) 17 1 = 2) ∧
    (awaitsHost ((takeEntry .east deciding).half .east) (fld (ent 0 (le 1 3 ++ le 1 1)) 16 1) = true) :=
    by decide +kernel
theorem witness_FaultCommands_actionRetire :
    (Taken .east faultActionSpec (ent 0 (le 1 3 ++ le 1 2)) none deciding) ∧ (fld (ent 0 (le 1 3 ++ le 1 2)) 16 1 ≤ 49) ∧
    (fld (ent 0 (le 1 3 ++ le 1 2)) 17 1 = 1 ∨ fld (ent 0 (le 1 3 ++ le 1 2)) 17 1 = 2) ∧
    (awaitsHost ((takeEntry .east deciding).half .east) (fld (ent 0 (le 1 3 ++ le 1 2)) 16 1) = true) :=
    by decide +kernel
theorem witness_FaultCommands_retire :
    (536870919 = BitVec.ofNat 32 (fld (ent 0 (le 4 536870919)) 16 4)) ∧ (536870919 ≠ 0) ∧ (handleSource .east 536870919 = some 7) ∧
    (7 < 18) ∧ (sourceRetired ((takeEntry .east busy).half .east) 7 = false) ∧
    (Taken .east unitRetireSpec (ent 0 (le 4 536870919)) none busy) :=
    by decide +kernel
theorem witness_LeadAndAttestCommands_yield :
    (Taken .east leadYieldSpec (ent 0 []) none duo) ∧ (((takeEntry .east duo).half .east).bri.lead = true) ∧
    (((takeEntry .east duo).half .east).bri.fenced = false) ∧ ((takeEntry .east duo).sparWorks = true) ∧
    (((takeEntry .east duo).half .east).bri.partnerLost = false) ∧ (((takeEntry .east duo).half .east).bri.epoch ≠ 4294967295) :=
    by decide +kernel
theorem witness_LeadAndAttestCommands_assign :
    (1 = BitVec.ofNat 32 (fld (ent 0 (le 4 1 ++ le 4 1)) 20 4)) ∧ (Taken .east leadAssignSpec (ent 0 (le 4 1 ++ le 4 1)) none duo) ∧
    (fld (ent 0 (le 4 1 ++ le 4 1)) 16 1 ≤ 1) ∧ (checkReserved (ent 0 (le 4 1 ++ le 4 1)) [(16, 1), (20, 4)] = none) ∧
    (epochBeats .east 1 (takeEntry .east duo) = true) :=
    by decide +kernel
theorem witness_LeadAndAttestCommands_read :
    Taken .east bridleReadSpec (ent 0 []) none duo :=
    by decide +kernel
theorem witness_LeadAndAttestCommands_attest :
    (Taken .east attestSpec (ent 0 (le 32 7 ++ le 8 16384 ++ le 4 336)) none duo) ∧
    (fld (ent 0 (le 32 7 ++ le 8 16384 ++ le 4 336)) 16 32 ≠ 0) ∧
    (checkReserved (ent 0 (le 32 7 ++ le 8 16384 ++ le 4 336)) [(16, 44)] = none) :=
    by decide +kernel
theorem witness_LeadAndAttestCommands_cert :
    (Taken .east certReadSpec (ent 0 (le 8 16384 ++ le 4 1024)) none duo) ∧
    (checkReserved (ent 0 (le 8 16384 ++ le 4 1024)) [(16, 12)] = none) :=
    by decide +kernel
theorem witness_FirmwareAndFuseCommands_stage :
    (inactiveSlot (takeEntry .east duo) = some true) ∧ (Taken .east fwStageSpec (stageEnt 0 0) (some noBytes) duo) ∧
    (fld (stageEnt 0 0) 32 8 = 0) ∧ (fld (stageEnt 0 0) 40 1 = 1) ∧ (noBytes.bytes.length % 4096 = 0) ∧ (noBytes.bytes.length ≤ 1048576) ∧
    ((takeEntry .east duo).flash.staging ≠ some HalfId.east.other) :=
    by decide +kernel
theorem witness_FirmwareAndFuseCommands_verify :
    (inactiveSlot (takeEntry .east duo) = some true) ∧ (Taken .east fwVerifySpec (ent 0 (le 1 1)) none duo) ∧
    (fld (ent 0 (le 1 1)) 16 1 ≤ 1) ∧ (checkReserved (ent 0 (le 1 1)) [(16, 1)] = none) :=
    by decide +kernel
theorem witness_FirmwareAndFuseCommands_confirm :
    (Taken .east fwConfirmSpec (ent 0 []) none trying) ∧ (((takeEntry .east trying).half .east).boot.trial = true) ∧
    (false = ((takeEntry .east trying).half .east).boot.slotB) :=
    by decide +kernel
theorem witness_FirmwareAndFuseCommands_security :
    ((takeEntry .east fusing).sparWorks = true) ∧ ((takeEntry .east fusing).east.boot.fuses.rail = true) ∧
    ((takeEntry .east fusing).west.boot.fuses.rail = true) ∧ (5 = fld (ent 0 (le 1 5)) 16 1) ∧
    (Taken .east fwSecurityCommitSpec (ent 0 (le 1 5)) none fusing) ∧ (1 ≤ 5) ∧ (5 ≤ 128) ∧
    (checkReserved (ent 0 (le 1 5)) [(16, 1)] = none) ∧ ((takeEntry .east fusing).east.alive = true) ∧
    ((takeEntry .east fusing).west.alive = true) ∧ (5 ≤ (takeEntry .east fusing).east.boot.bundle.security) ∧
    (5 ≤ (takeEntry .east fusing).west.boot.bundle.security) ∧
    ((slotOf (takeEntry .east fusing).flash (takeEntry .east fusing).east.boot.slotB).confirmedE = true) ∧
    ((slotOf (takeEntry .east fusing).flash (takeEntry .east fusing).east.boot.slotB).confirmedW = true) ∧
    ((slotOf (takeEntry .east fusing).flash (takeEntry .east fusing).west.boot.slotB).confirmedE = true) ∧
    ((slotOf (takeEntry .east fusing).flash (takeEntry .east fusing).west.boot.slotB).confirmedW = true) :=
    by decide +kernel
theorem witness_FirmwareAndFuseCommands_unburned :
    ((takeEntry .east fusing).sparWorks = true) ∧ ((takeEntry .east fusing).east.boot.fuses.rail = true) ∧
    ((takeEntry .east fusing).west.boot.fuses.rail = true) ∧ (5 = fld (ent 0 (le 1 5)) 16 1) ∧
    (Taken .east fwSecurityCommitSpec (ent 0 (le 1 5)) none fusing) ∧ (1 ≤ 5) ∧ (5 ≤ 128) ∧
    (checkReserved (ent 0 (le 1 5)) [(16, 1)] = none) ∧ ((takeEntry .east fusing).east.alive = true) ∧
    ((takeEntry .east fusing).west.alive = true) ∧ (5 ≤ (takeEntry .east fusing).east.boot.bundle.security) ∧
    (5 ≤ (takeEntry .east fusing).west.boot.bundle.security) ∧
    ((slotOf (takeEntry .east fusing).flash (takeEntry .east fusing).east.boot.slotB).confirmedE = true) ∧
    ((slotOf (takeEntry .east fusing).flash (takeEntry .east fusing).east.boot.slotB).confirmedW = true) ∧
    ((slotOf (takeEntry .east fusing).flash (takeEntry .east fusing).west.boot.slotB).confirmedE = true) ∧
    ((slotOf (takeEntry .east fusing).flash (takeEntry .east fusing).west.boot.slotB).confirmedW = true) ∧
    (stepMissing (takeEntry .east fusing) 5 (.west, 3) = true) :=
    by decide +kernel
theorem witness_FirmwareAndFuseCommands_lock :
    ((takeEntry .east fusing).sparWorks = true) ∧ ((takeEntry .east fusing).east.boot.fuses.rail = true) ∧
    ((takeEntry .east fusing).west.boot.fuses.rail = true) ∧ (Taken .east fuseLockSpec (ent 0 (le 4 3 ++ le 4 1262702412)) none fusing) ∧
    (fld (ent 0 (le 4 3 ++ le 4 1262702412)) 16 1 < 4) ∧ (checkReserved (ent 0 (le 4 3 ++ le 4 1262702412)) [(16, 1), (20, 4)] = none) ∧
    (fld (ent 0 (le 4 3 ++ le 4 1262702412)) 20 4 = 1262702412) ∧
    ((takeEntry .east fusing).east.boot.board.digest = (takeEntry .east fusing).west.boot.board.digest) :=
    by decide +kernel

def defers (d : Deferred) (f : Half → Half) : State := busyWith (fun x => f { x with env := { x.env with deferred := [d] } })
def shapeDue : Deferred := due 0x0520 (ent shaper0 (le 4 2000 ++ le 4 3000 ++ le 4 5))
def dumpDue : Deferred := due 0x0612 (ent encode0 (le 4 0 ++ le 4 4 ++ le 8 0x4000 ++ le 4 32800))
def startDue : Deferred := due 0x0401 (ent encode0 [])
def stopEnc (x : Half) : Half := { x with obj := { x.obj with encodes := [{ index := 0, run := .stopped }] } }
def waitStart : State := busyWith (fun x => stopEnc { x with env := { x.env with waitingStarts := [startDue] } })
/-- Assist payloads: the grid of the stream is 20 by 12 CTUs, 160 by 90 blocks. -/
def rateAst : AssistEntry := ast encode0 2000000000 (le 8 0 ++ le 8 0 ++ le 8 64 ++ le 2 20 ++ le 2 12)
def motionAst : AssistEntry := ast encode0 2000000000 (le 8 0 ++ le 8 64 ++ le 2 20 ++ le 2 12)
def stencilAst : AssistEntry := ast encode0 2000000000 (le 8 0 ++ le 8 64 ++ le 2 160 ++ le 2 90)
def pic0 : DecodedPic := { seq := 0, presentation := 2000000000, completed := 0, availableAt := 0, awaiting := true, deadline := 3000000000, content := .base [] }
def decWait : DecodeSt := { index := 0, waiting := [pic0] }
def concealing : State := assisted 3 decode0 (fun x => { x with obj := { x.obj with decodes := [decWait] } })
def concealAst : AssistEntry := ast decode0 2000000000 (le 1 1)
def paceAst : AssistEntry := ast flow0 2000000000 (le 8 1900000000 ++ le 4 1000000)
def host1 : PoolSt := { present := true, base := 0x10000000, count := 8 }
def pool1 : Handle := 0x0D000001
def pooling : State :=
  busyWith (fun x => { withRunning (records0 ++ [recd 0xD pool1 48 [], recd 0x0F 0x0F000000 24 [(16, 1, 5), (17, 1, 1), (20, 4, 0x0D000001)]]) x with
    pools := x.pools.set 1 host1 })
def poolAst : AssistEntry := ast pool1 2000000000 (le 8 1 ++ le 8 0x10000100)
def correcting : State :=
  assisted 6 ptp0 (fun x => { x with ptp := { x.ptp with answered := false, deadline := 1000000001, t2 := some 2000000000 } })
def correctAst : AssistEntry := ast ptp0 2000000000 (le 4 5 ++ le 4 0 ++ le 8 7)
def chanR : Handle := 0x1000FF00
def retrainAsk : State :=
  busyWith (fun x => { withRunning (records0 ++ [recd 0x10 chanR 64 [(16, 1, 1)], recd 0x0F 0x0F000000 24 [(16, 1, 7), (17, 1, 1), (20, 4, 0x1000FF00)]]) x with
    dch := x.dch.modify 0 (fun c => { c with train := { c.train with asked := some (0, 1900000000) } }) })
def retrainAst : AssistEntry := ast chanR 2000000000 []
def leading : State := assisted 8 0 (fun x => { x with bri := { x.bri with deadline := 1000000001 } })
def leadAst : AssistEntry := ast 0 1000000001 (le 4 1 ++ le 4 1)
/-- Rings that hold entries, some at the wrap of their indices. -/
def rings0 : Rings := { cmdqTail := 1, cmdqHead := 0xFFFFFFFF, cplqTail := 3, evtqTail := 1024, asqTail := 5, asqHead := 5, asrTail := 512 }
def ringing : State := east (fun x => { x with rings := rings0 })
def chan_ (d : DmaChan) : State := east (fun x => { x with dma := { x.dma with channels := x.dma.channels.set 30 d } })
def dmaRun : DmaChan := { running := true }
def dmaWait : DmaChan := { enable := true, chainWritten := true, chain := 0x1000 }
def held0 : UnitFlags := { enable := false, inService := false }
def flags0 : UnitFlags := {}
def n167 : W32 := 167
def n152 : W32 := 152
def n183 : W32 := 183
def n511 : W32 := 511
def cfg1 : W32 := 0x100
def heldUnit : State := busyWith (fun x => { x with enc := x.enc.set 7 { flags := held0 } })
def icuWith (i : IcuSt) : State := { duo with east := { duo.east with icu := i } }
def claiming : State := icuWith { pend := 1 <<< 152 }
def flying : State := { duo with west := { duo.west with icu := { flightE := some 511 } } }
def mapped : State := busyWith (fun x => { withRunning [recd 0x10 0x10000000 64 [(18, 2, 1), (24, 8, 65536)]] x with dram := { placed := [⟨0, 0, 0, 65536⟩] } })
def pbaSet : State := east (fun x => { x with pcie := { x.pcie with pba := 1 <<< 255 } })

theorem witness_DeferredRuns_shaper :
    (((defers shapeDue id).half .east).alive = true) ∧ (((defers shapeDue id).half .east).env.deferred[0]? = some shapeDue) ∧
    (shapeDue.due ≤ ((defers shapeDue id).half .east).clk.now) ∧ (deferredHeld ((defers shapeDue id).half .east) shapeDue = false) ∧
    (contextWaits ((defers shapeDue id).half .east) shapeDue = false) ∧ (shapeDue.fwd = false) ∧ (shapeDue.opcode = 1312) :=
    by decide +kernel
theorem witness_DeferredRuns_dump :
    (((defers dumpDue id).half .east).alive = true) ∧ (((defers dumpDue id).half .east).env.deferred[0]? = some dumpDue) ∧
    (dumpDue.due ≤ ((defers dumpDue id).half .east).clk.now) ∧ (deferredHeld ((defers dumpDue id).half .east) dumpDue = false) ∧
    (contextWaits ((defers dumpDue id).half .east) dumpDue = false) ∧ (dumpDue.fwd = false) ∧ (dumpDue.opcode = 1554) :=
    by decide +kernel
theorem witness_DeferredRuns_start :
    (((defers startDue stopEnc).half .east).alive = true) ∧ (((defers startDue stopEnc).half .east).env.deferred[0]? = some startDue) ∧
    (startDue.due ≤ ((defers startDue stopEnc).half .east).clk.now) ∧
    (deferredHeld ((defers startDue stopEnc).half .east) startDue = false) ∧
    (contextWaits ((defers startDue stopEnc).half .east) startDue = false) ∧ (startDue.fwd = false) ∧ (startDue.opcode = 1025) ∧
    (hType startDue.entry.handle ≠ 6) ∧ ((recOf ((defers startDue stopEnc).half .east).running startDue.entry.handle).isSome = true) ∧
    (runState ((defers startDue stopEnc).half .east) startDue.entry.handle = RunState.stopped) ∧
    (runGuarded ((defers startDue stopEnc).half .east) startDue.entry.handle = false) :=
    by decide +kernel
theorem witness_DeferredRuns_waiting :
    ((waitStart.half .east).alive = true) ∧
    (List.find? (fun d => d.entry.handle == encode0) (waitStart.half .east).env.waitingStarts = some startDue) ∧ (hType encode0 ≠ 6) ∧
    (runState (waitStart.half .east) encode0 = RunState.stopped) ∧ (runGuarded (waitStart.half .east) encode0 = false) :=
    by decide +kernel
theorem witness_AssistEntries_rate :
    (recB encode0 = ((takeAssist .east (assisted 0 encode0 id)).half .east).record rateAst.handle) ∧
    (((takeAssist .east (assisted 0 encode0 id)).half .east).clk.now < BitVec.toNat rateAst.time) ∧
    (Matched .east fnRate rateAst rateAst.payload (assisted 0 encode0 id) (takeAssist .east (assisted 0 encode0 id))) ∧
    (afld rateAst.payload 29 1 ≤ 1) ∧ (afld rateAst.payload 30 2 = 0) ∧ (afld rateAst.payload 36 4 = 0) ∧
    (afld rateAst.payload 52 12 = 0) ∧ (afld rateAst.payload 40 8 % 64 = 0) ∧ (afld rateAst.payload 48 2 = esCols (recB encode0)) ∧
    (afld rateAst.payload 50 2 = esRows (recB encode0)) :=
    by decide +kernel
theorem witness_AssistEntries_motion :
    (recB encode0 = ((takeAssist .east (assisted 1 encode0 id)).half .east).record motionAst.handle) ∧
    (((takeAssist .east (assisted 1 encode0 id)).half .east).clk.now < BitVec.toNat motionAst.time) ∧
    (Matched .east fnMotion motionAst motionAst.payload (assisted 1 encode0 id) (takeAssist .east (assisted 1 encode0 id))) ∧
    (afld motionAst.payload 28 4 = 0) ∧ (afld motionAst.payload 44 1 ≤ 1) ∧ (afld motionAst.payload 45 19 = 0) ∧
    (afld motionAst.payload 40 2 = esCols (recB encode0)) ∧ (afld motionAst.payload 42 2 = esRows (recB encode0)) :=
    by decide +kernel
theorem witness_AssistEntries_stencil :
    (recB encode0 = ((takeAssist .east (assisted 2 encode0 id)).half .east).record stencilAst.handle) ∧
    (((takeAssist .east (assisted 2 encode0 id)).half .east).clk.now < BitVec.toNat stencilAst.time) ∧
    (Matched .east fnStencil stencilAst stencilAst.payload (assisted 2 encode0 id) (takeAssist .east (assisted 2 encode0 id))) ∧
    (hType stencilAst.handle = 5) ∧ (afld stencilAst.payload 28 4 = 0) ∧ (afld stencilAst.payload 32 8 % 64 = 0) ∧
    (afld stencilAst.payload 44 1 ≤ 1) ∧ (afld stencilAst.payload 45 19 = 0) ∧
    (afld stencilAst.payload 40 2 = esWidth (recB encode0) / 8) ∧ (afld stencilAst.payload 42 2 = esHeight (recB encode0) / 8) :=
    by decide +kernel
theorem witness_AssistEntries_conceal :
    (Matched .east fnConceal concealAst concealAst.payload concealing (takeAssist .east concealing)) ∧
    (((takeAssist .east concealing).half .east).obj.decode? (hIndex concealAst.handle) = some decWait) ∧
    (awaitedPic decWait (BitVec.toNat concealAst.tag) (BitVec.toNat concealAst.sequence) (BitVec.toNat concealAst.time) = some pic0) ∧
    (((takeAssist .east concealing).half .east).clk.now < pic0.deadline) ∧ (afld concealAst.payload 24 1 = 1) ∧
    (afld concealAst.payload 25 1 = 0) ∧ (afld concealAst.payload 26 2 = 0) ∧ (afld concealAst.payload 28 4 = 0) ∧
    (afld concealAst.payload 44 20 = 0) :=
    by decide +kernel
theorem witness_AssistEntries_pace :
    (Matched .east fnPacing paceAst paceAst.payload (assisted 4 flow0 id) (takeAssist .east (assisted 4 flow0 id))) ∧
    (((takeAssist .east (assisted 4 flow0 id)).half .east).clk.now < BitVec.toNat paceAst.time) ∧ (afld paceAst.payload 38 2 = 0) ∧
    (afld paceAst.payload 44 4 = 0) ∧ (afld paceAst.payload 56 8 = 0) ∧ (afld paceAst.payload 36 2 ≤ 4096) ∧
    (afld paceAst.payload 32 4 ≤ 1000000000) ∧ (afld paceAst.payload 48 8 % 64 = 0) ∧
    (releaseTimes ((takeAssist .east (assisted 4 flow0 id)).half .east) paceAst.payload = some [1900000000]) :=
    by decide +kernel
theorem witness_AssistEntries_pool :
    (host1 = poolOf ((takeAssist .east pooling).half .east) (hIndex poolAst.handle)) ∧
    (Matched .east fnPool poolAst poolAst.payload pooling (takeAssist .east pooling)) ∧ (afld poolAst.payload 24 1 = 1) ∧
    (afld poolAst.payload 25 7 = 0) ∧ (bufIndex (hIndex poolAst.handle) host1 (afld poolAst.payload 32 8) = some 1) ∧ (1 < host1.count) ∧
    (heldCount host1 1 = none) ∧ (¬afld poolAst.payload 32 8 ∈ host1.hostQueue) ∧ (host1.hostQueue.length < 1024) ∧
    (((takeAssist .east pooling).half .east).pools.length = 16) ∧ (hIndex poolAst.handle < 16) :=
    by decide +kernel
theorem witness_AssistEntries_ptp :
    (Matched .east fnPtp correctAst correctAst.payload correcting (takeAssist .east correcting)) ∧
    (((takeAssist .east correcting).half .east).ptp.answered = false) ∧
    (((takeAssist .east correcting).half .east).clk.now < ((takeAssist .east correcting).half .east).ptp.deadline) ∧
    (((takeAssist .east correcting).half .east).ptp.t2 = some (BitVec.toNat correctAst.time)) ∧ (afld correctAst.payload 28 4 = 0) ∧
    (afld correctAst.payload 40 24 = 0) :=
    by decide +kernel
theorem witness_AssistEntries_retrain :
    (Matched .east fnRetrain retrainAst retrainAst.payload retrainAsk (takeAssist .east retrainAsk)) ∧
    ((retrainAst.payload.any fun b => b != 0) = false) ∧
    ((chanAt ((takeAssist .east retrainAsk).half .east) (hIndex retrainAst.handle - 65280)).train.asked = some (BitVec.toNat retrainAst.sequence, 1900000000)) ∧
    (((takeAssist .east retrainAsk).half .east).clk.now ≤ 1900000000) ∧
    (((takeAssist .east retrainAsk).half .east).clk.now < BitVec.toNat retrainAst.time) :=
    by decide +kernel
theorem witness_AssistEntries_lead :
    (1 = BitVec.ofNat 32 (afld leadAst.payload 28 4)) ∧ (Matched .east fnLead leadAst leadAst.payload leading (takeAssist .east leading)) ∧
    (((takeAssist .east leading).half .east).bri.deadline ≠ 0) ∧
    (BitVec.toNat leadAst.time = ((takeAssist .east leading).half .east).bri.deadline) ∧
    (((takeAssist .east leading).half .east).clk.now ≤ ((takeAssist .east leading).half .east).bri.deadline) ∧
    (afld leadAst.payload 24 1 ≤ 1) ∧ (afld leadAst.payload 25 3 = 0) ∧ (((List.drop 8 leadAst.payload).any fun b => b != 0) = false) ∧
    (epochBeats .east 1 (takeAssist .east leading) = true) :=
    by decide +kernel
theorem witness_RingIndexWrites_cmdq :
    (rings0 = (ringing.half .east).rings) ∧ (hostReach (ringing.half .east) = true) ∧ (ringFill 255 rings0.cmdqHead ≤ 256) ∧
    (ringFill rings0.cmdqTail rings0.cmdqHead ≤ ringFill 255 rings0.cmdqHead) :=
    by decide +kernel
theorem witness_RingIndexWrites_asq :
    (rings0 = (ringing.half .east).rings) ∧ (hostReach (ringing.half .east) = true) ∧ (ringFill 5 rings0.asqHead ≤ 512) ∧
    (ringFill rings0.asqTail rings0.asqHead ≤ ringFill 5 rings0.asqHead) :=
    by decide +kernel
theorem witness_RingIndexWrites_cplq :
    (rings0 = (ringing.half .east).rings) ∧ (hostReach (ringing.half .east) = true) ∧ (ringFill rings0.cplqTail 3 ≤ 256) ∧
    (ringFill rings0.cplqTail 3 ≤ ringFill rings0.cplqTail rings0.cplqHead) :=
    by decide +kernel
theorem witness_RingIndexWrites_evtq :
    (rings0 = (ringing.half .east).rings) ∧ (hostReach (ringing.half .east) = true) ∧ (ringFill rings0.evtqTail 0 ≤ 1024) ∧
    (ringFill rings0.evtqTail 0 ≤ ringFill rings0.evtqTail rings0.evtqHead) :=
    by decide +kernel
theorem witness_RingIndexWrites_asr :
    (rings0 = (ringing.half .east).rings) ∧ (hostReach (ringing.half .east) = true) ∧ (ringFill rings0.asrTail 512 ≤ 512) ∧
    (ringFill rings0.asrTail 512 ≤ ringFill rings0.asrTail rings0.asrHead) :=
    by decide +kernel
theorem witness_DmaRegisterWrites_running :
    (30 < 31) ∧ (dmaRun = ((chan_ dmaRun).half .east).dma.channels.getD 30 { : DmaChan }) ∧
    (hostReach ((chan_ dmaRun).half .east) = true) ∧ (dmaRun.running = true) :=
    by decide +kernel
theorem witness_DmaRegisterWrites_fresh :
    (30 < 31) ∧ (dmaWait = ((chan_ dmaWait).half .east).dma.channels.getD 30 { : DmaChan }) ∧
    (hostReach ((chan_ dmaWait).half .east) = true) ∧ (dmaWait.running = false) ∧ (dmaWait.enable = true) ∧
    (dmaWait.chainWritten = true) :=
    by decide +kernel
theorem witness_DmaRegisterWrites_chain :
    (30 < 31) ∧ (dmaWait = ((chan_ dmaWait).half .east).dma.channels.getD 30 { : DmaChan }) ∧
    (hostReach ((chan_ dmaWait).half .east) = true) :=
    by decide +kernel
theorem witness_DmaRegisterWrites_enable :
    (30 < 31) ∧ (dmaWait = ((chan_ dmaWait).half .east).dma.channels.getD 30 { : DmaChan }) ∧
    (hostReach ((chan_ dmaWait).half .east) = true) :=
    by decide +kernel
theorem witness_DmaRegisterWrites_disable :
    (30 < 31) ∧ (dmaWait = ((chan_ dmaWait).half .east).dma.channels.getD 30 { : DmaChan }) ∧
    (hostReach ((chan_ dmaWait).half .east) = true) :=
    by decide +kernel
theorem witness_DmaRegisterWrites_clear :
    (30 < 31) ∧ (dmaWait = ((chan_ dmaWait).half .east).dma.channels.getD 30 { : DmaChan }) ∧
    (hostReach ((chan_ dmaWait).half .east) = true) :=
    by decide +kernel
theorem witness_ControlWrites_hold :
    (unitAt ((busy.upd .east (count 31 16 1)).half .east) UnitKind.enc 7 = some flags0) ∧ (hostReach (busy.half .east) = true) ∧
    (flags0.present = true) ∧ (holdRefused ((busy.upd .east (count 31 16 1)).half .east) UnitKind.enc 7 flags0 = false) ∧
    (flags0.enable = true) ∧ (flags0.inService = true) ∧ (((busy.upd .east (count 31 16 1)).half .east).alive = true) :=
    by decide +kernel
theorem witness_ControlWrites_return :
    (unitAt ((heldUnit.upd .east (count 31 16 1)).half .east) UnitKind.enc 7 = some held0) ∧ (hostReach (heldUnit.half .east) = true) ∧
    (held0.present = true) ∧ (held0.retired = false) ∧ (held0.quiescing = false) ∧ (held0.enable = false) :=
    by decide +kernel
theorem witness_ControlWrites_config :
    (hostReach (duo.half .east) = true) ∧ (200 < 512) ∧ (icuHostOwned 200 = true) ∧ (icuReserved 200 = false) ∧
    (BitVec.toNat cfg1 / 256 % 4 = 1 ∨ BitVec.toNat cfg1 / 256 % 4 = 2) :=
    by decide +kernel
theorem witness_ControlWrites_set :
    (hostReach (duo.half .east) = true) ∧ (requesterHalf Requester.pcieE .east = .east) ∧ (Requester.pcieE ≠ Requester.keel) ∧
    (BitVec.toNat n167 = 167) ∧ (152 ≤ 167) ∧ (167 ≤ 167) :=
    by decide +kernel
theorem witness_ControlWrites_claim :
    (hostReach (claiming.half .east) = true) ∧ (requesterHalf Requester.pcieE .east = .east) ∧ (Requester.pcieE ≠ Requester.keel) ∧
    (BitVec.toNat n152 = 152) ∧ (152 < 512) ∧ (icuReserved 152 = false) ∧ ((claiming.half .east).icu.pend.getLsbD 152 = true) :=
    by decide +kernel
theorem witness_ControlWrites_claimNone :
    (hostReach (claiming.half .east) = true) ∧ (requesterHalf Requester.pcieE .east = .east) ∧ (Requester.pcieE ≠ Requester.keel) ∧
    (BitVec.toNat n511 = 511) ∧ (511 < 512) ∧ ((claiming.half .east).icu.pend.getLsbD 511 = false) :=
    by decide +kernel
theorem witness_ControlWrites_keelSet :
    ((duo.half .east).alive = true) ∧ (BitVec.toNat n183 = 183) ∧ (168 ≤ 183) ∧ (183 ≤ 183) :=
    by decide +kernel
theorem witness_ControlWrites_keelClaim :
    ((claiming.half .east).alive = true) ∧ (BitVec.toNat n152 = 152) ∧ (152 < 512) ∧ (icuReserved 152 = false) ∧
    ((claiming.half .east).icu.pend.getLsbD 152 = true) :=
    by decide +kernel
theorem witness_ControlWrites_partner :
    (claimInFlight flying .east = some 511) ∧ (flying.sparWorks = true) :=
    by decide +kernel
theorem witness_WindowWrites_base :
    hostReach (mapped.half .east) = true :=
    by decide +kernel
theorem witness_WindowWrites_ringErr :
    hostReach (mapped.half .east) = true :=
    by decide +kernel
theorem witness_WindowWrites_read :
    (hostReach (mapped.half .east) = true) ∧ (0 = bar4Address (mapped.half .east).dram 0) ∧
    (0 + 65536 ≤ (mapped.half .east).dram.bar4Size) ∧ (hostMay .east (mapped.half .east) 0 65536 = true) ∧
    (onFrozen (mapped.half .east) 0 = false) ∧ (inHole (mapped.half .east) 0 = false) :=
    by decide +kernel
theorem witness_WindowWrites_write :
    (hostReach (mapped.half .east) = true) ∧ (65535 = bar4Address (mapped.half .east).dram 65535) ∧
    (65535 + [7].length ≤ (mapped.half .east).dram.bar4Size) ∧ (hostMay .east (mapped.half .east) 65535 [7].length = true) ∧
    (onFrozen (mapped.half .east) 65535 = false) ∧ (inHole (mapped.half .east) 65535 = false) :=
    by decide +kernel
theorem witness_WindowWrites_bar2 :
    (hostReach (mapped.half .east) = true) ∧ (∀ (i : Nat), i < [1].length → bar2Writable (i + 63) = true) ∧
    (∀ (i : Nat), i < [1].length → bar2ReadOnly (i + 63) = false) :=
    by decide +kernel
theorem witness_WindowWrites_unmask :
    (hostReach (pbaSet.half .east) = true) ∧ (255 < 256) ∧ ((pbaSet.half .east).pcie.pba.getLsbD 255 = true) :=
    by decide +kernel

def ev0 : EventRec := { code := 0x0101, severity := 1, source := 0, time := 0 }
def al (w : Bool) : AlarmRec := { ev := ev0, written := w }
def evWith (v : Events) : State := east (fun x => { x with ev := v })
def alarms0 : Events := { balanceAt := 1000000000, alarms := [al true, al false], warnings := [ev0] }
def warns0 : Events := { balanceAt := 1000000000, alarms := [al true], warnings := [ev0], infos := [ev0] }
def infos0 : Events := { balanceAt := 1000000000, infos := [ev0] }
def plainEv : Events := { balanceAt := 1000000000 }
def notice0 : AsrEntry := { kind := 0x0C01, tag := 0, handle := 0, sequence := 0, time := 0, payload := [] }
def asrOne : State := east (fun x => { x with ev := plainEv, asr := { notices := [notice0] } })
def asrGone : Half := { asrOne.east with asr := {} }
def late0 : AsrRequest := { entry := { notice0 with kind := 0x0B08 }, deadline := 1000000000 }
def asrLate : State := east (fun x => { x with ev := plainEv, asr := { requests := [late0] } })
/-- A group whose commits both wait, with an empty envelope each. -/
def wait0 : GroupWait := { group := 7, atTime := none, arrival := 0, tag := 0, sequence := 0 }
def waits (x : Half) : Half := { x with env := { x.env with group := some wait0 } }
def aloneWait : State := { duo with east := waits duo.east }
def grouped : State := { duo with east := waits duo.east, west := waits duo.west }
/-- A take-over that is due, over a running envelope of the same region, intact or not. -/
def pendR (r : Record) (armed begun : Bool) : PendingEnv := { records := [r], takeTime := 1000000000, armed := armed, begun := begun }
def pends (r : Record) (p : PendingEnv) : State := east (fun x => { withRunning [r] x with env := { running := some { records := [r] }, pend := some p } })
def crcState (r : Record) : State :=
  east (fun x => { x with clk := { now := 10000000000 }, env := { running := some { records := [r] }, pend := some (pendR r true false) } })
def broken0 : Record := region0.set 24 1
/-- An input with a base at 0.99 s and 20 ms of latency: timestamps from 0 on come out at 1.01 s. -/
def pk (seq ts : Nat) : BufPacket := { seq := seq, timestamp := ts, bytes := 100, marker := true, arrival := 5, randomAccess := true }
def in0 (ps : List BufPacket) : InputSt := { index := 0, base := some (990000000, 0), highSeq := some 100, highTs := 0, packets := ps, held := 100 }
def input_ (n : InputSt) : State := busyWith (fun x => { x with obj := { x.obj with inputs := [n] } })
def rtp (seq ts : Nat) (good : Bool) : RtpPacket :=
  { seq := BitVec.ofNat 16 seq, timestamp := BitVec.ofNat 32 ts, bytes := 65436, payload := if good then .hevcSingle else .avcFuA }
def in1 : InputSt := { in0 [pk 100 0, pk 101 90] with base := some (900000000, 0) }
def saw (n : Nat) (i : InputSt) : InputSt := { i with highSeq := some n }
def dec4 : Record := recd 4 decode0 64 [(16, 1, 1), (20, 2, 1280), (22, 2, 720), (24, 1, 8), (25, 1, 1), (26, 1, 4), (28, 4, 60000), (36, 4, 0x03000000)]
def fed0 : State := busyWith (fun x => { withRunning [recd 3 input0 80 [(20, 1, 1), (64, 4, 20000), (68, 4, 65536), (22, 1, 0xFF)], dec4] x with
  obj := { x.obj with inputs := [in1] } })
def anyType : List Record := [recd 3 input0 80 [(20, 1, 1), (22, 1, 0xFF), (64, 4, 20000), (68, 4, 65536)]]
def inputR (n : InputSt) : State := busyWith (fun x => { withRunning anyType x with obj := { x.obj with inputs := [n] } })
def inRec : Record := recd 3 input0 80 [(20, 1, 1), (22, 1, 0xFF), (64, 4, 20000), (68, 4, 65536)]
def pairDec : State := busyWith (fun x => { withRunning [recd 4 decode0 64 [(16, 1, 1), (20, 2, 1280), (22, 2, 720), (52, 4, 0x04800000)]] x with
  obj := { x.obj with inputs := [in1] } })
/-- Decode engine 5 with the context's unit ready, or its picture running. -/
def unit0 : AccessUnit := { presentation := 2000000000, released := 5 }
def decReady : DecodeSt := { index := 0, engines := [5], ready := [unit0] }
def decReadyS : State := busyWith (fun x => { withRunning [dec4] x with obj := { x.obj with decodes := [decReady] } })
def decRun (w : Bool) : DecodeSt := { index := 0, engines := [5], inProgress := some unit0, waitStart := w }
def decRunS (w : Bool) : State :=
  busyWith (fun x => { withRunning [dec4] x with obj := { x.obj with decodes := [decRun w] }, dec := x.dec.set 5 { current := some 0 } })
def limits0 : ParamFacts := { codedWidth := 1280, codedHeight := 720, width := 1280, height := 720 }
def limits1 : ParamFacts := { limits0 with codedWidth := 1281 }
def start0 : DecodeFacts := { startPoint := true, params := [{ content := limits0 }] }
def big0 : DecodeFacts := { startPoint := true, params := [{ content := limits1 }] }
def plain0 : DecodeFacts := {}
def evInstant : State := east (fun x => { x with ev := { plainEv with instant := [ev0] } })
def copies0 : DecodeSt := { index := 0, copies := [unit0] }
def pairCopies : State := busyWith (fun x => { withRunning [recd 4 decode0 64 [(16, 1, 1), (20, 2, 1280), (22, 2, 720), (52, 4, 0x04800000)]] x with
  obj := { x.obj with decodes := [copies0] } })
def pic1 : DecodedPic := { seq := 0, presentation := 900000000, completed := 0, availableAt := 1000000000, content := .base [] }
def showing : DecodeSt := { index := 0, waiting := [pic1] }
def showingS : State := busyWith (fun x => { x with obj := { x.obj with decodes := [showing] } })
def starved0 : DecodeSt := { index := 0, ready := [unit0] }
def bulk4 : Record := recd 4 decode0 64 [(16, 1, 1), (17, 1, 2), (20, 2, 1280), (22, 2, 720)]
def starvedS : State := busyWith (fun x => { withRunning [bulk4] x with obj := { x.obj with decodes := [starved0] } })
def asking (n : Nat) : InputSt := { in0 [] with refresh := { pending := true, first := 5, sent := n, lastSent := some 800000000, due := 1000000000 } }
def awaiting : DecodeSt := { index := 0, waiting := [{ pic1 with awaiting := true, deadline := 1000000000 }] }
def awaitingS : State := busyWith (fun x => { x with obj := { x.obj with decodes := [awaiting] } })

theorem witness_DeliveryEvents_instant :
    ((evInstant.half .east).alive = true) ∧ ((evInstant.half .east).ev.instant ≠ []) :=
    by decide +kernel
theorem witness_DeliveryEvents_alarm :
    (((evWith alarms0).half .east).alive = true) ∧ (((evWith alarms0).half .east).ev.instant = []) ∧
    (evToken (evRefill ((evWith alarms0).half .east).clk.now ((evWith alarms0).half .east).ev) = true) ∧
    (evtqFull ((evWith alarms0).half .east) = false) ∧
    ((evRefill ((evWith alarms0).half .east).clk.now ((evWith alarms0).half .east).ev).alarms = [al true] ++ [al false]) ∧
    (∀ (b : AlarmRec), b ∈ [al true] → b.written = true) ∧ ((al false).written = false) :=
    by decide +kernel
theorem witness_DeliveryEvents_warning :
    (((evWith warns0).half .east).alive = true) ∧ (((evWith warns0).half .east).ev.instant = []) ∧
    (evToken (evRefill ((evWith warns0).half .east).clk.now ((evWith warns0).half .east).ev) = true) ∧
    (evtqFull ((evWith warns0).half .east) = false) ∧
    (∀ (b : AlarmRec), b ∈ (evRefill ((evWith warns0).half .east).clk.now ((evWith warns0).half .east).ev).alarms → b.written = true) ∧
    ((evRefill ((evWith warns0).half .east).clk.now ((evWith warns0).half .east).ev).warnings = [ev0]) :=
    by decide +kernel
theorem witness_DeliveryEvents_info :
    (((evWith infos0).half .east).alive = true) ∧ (((evWith infos0).half .east).ev.instant = []) ∧
    (evToken (evRefill ((evWith infos0).half .east).clk.now ((evWith infos0).half .east).ev) = true) ∧
    (evtqFull ((evWith infos0).half .east) = false) ∧
    (∀ (b : AlarmRec), b ∈ (evRefill ((evWith infos0).half .east).clk.now ((evWith infos0).half .east).ev).alarms → b.written = true) ∧
    ((evRefill ((evWith infos0).half .east).clk.now ((evWith infos0).half .east).ev).warnings = []) ∧
    ((evRefill ((evWith infos0).half .east).clk.now ((evWith infos0).half .east).ev).infos = [ev0]) :=
    by decide +kernel
theorem witness_DeliveryEvents_drain :
    ((asrOne.half .east).alive = true) ∧ (asrFull (asrOne.half .east) = false) ∧
    (nextAssist .east (asrOne.half .east) = some (notice0, asrGone)) ∧
    (asrFull ((asrWrite .east notice0 (asrOne.upd .east fun x => asrGone)).half .east) = true ∨ nextAssist .east ((asrWrite .east notice0 (asrOne.upd .east fun x => asrGone)).half .east) = none) :=
    by decide +kernel
theorem witness_DeliveryEvents_withdrawn :
    ((asrLate.half .east).alive = true) ∧ ((asrLate.half .east).asr.requests[0]? = some late0) ∧
    (late0.deadline ≤ (asrLate.half .east).clk.now) :=
    by decide +kernel
theorem witness_EnvelopeEvents_resolved :
    ((grouped.half .east).env.group = some wait0) ∧ ((grouped.half .east).alive = true) ∧ ((grouped.half .east).bri.lead = true) ∧
    ((grouped.half .east).bri.fenced = false) ∧ (grouped.sparWorks = true) ∧ ((grouped.half HalfId.east.other).env.group = some wait0) ∧
    (judgeCross .east grouped wait0.records wait0.records true = Verdict.ok) ∧
    (judgeCross HalfId.east.other grouped wait0.records wait0.records true = Verdict.ok) ∧
    (fitCheck .east (grouped.half .east) wait0.records = Fit.ok [] []) ∧
    (fitCheck HalfId.east.other (grouped.half HalfId.east.other) wait0.records = Fit.ok [] []) ∧
    (wait0.atTime = some 1000500000 ∨ wait0.atTime = none ∧ 1000500000 = (grouped.half .east).clk.now + 500000) ∧
    ((grouped.half .east).clk.now + 500000 ≤ 1000500000) :=
    by decide +kernel
theorem witness_EnvelopeEvents_absent :
    ((aloneWait.half .east).env.group = some wait0) ∧ (wait0.arrival + 1000000000 ≤ (aloneWait.half .east).clk.now) ∧
    (partnerCame .east wait0 aloneWait = false) :=
    by decide +kernel
theorem witness_EnvelopeEvents_arm :
    (((pends region0 (pendR region0 false false)).half .east).alive = true) ∧
    (((pends region0 (pendR region0 false false)).half .east).env.pend = some (pendR region0 false false)) ∧
    ((pendR region0 false false).armed = false) :=
    by decide +kernel
theorem witness_EnvelopeEvents_time :
    (((pends region0 (pendR region0 true false)).half .east).alive = true) ∧
    (((pends region0 (pendR region0 true false)).half .east).env.pend = some (pendR region0 true false)) ∧
    ((pendR region0 true false).begun = false) ∧
    ((pendR region0 true false).takeTime ≤ ((pends region0 (pendR region0 true false)).half .east).clk.now) ∧
    (crcFault (((pends region0 (pendR region0 true false)).half .east).runningSlot ++ (pendR region0 true false).records) = none) :=
    by decide +kernel
theorem witness_EnvelopeEvents_check :
    (((crcState region0).half .east).alive = true) ∧ (((crcState region0).half .east).env.pend = some (pendR region0 true false)) ∧
    (((crcState region0).half .east).env.lastCrcCheck + 10000000000 ≤ ((crcState region0).half .east).clk.now) ∧
    (crcFault (((crcState region0).half .east).runningSlot ++ (pendR region0 true false).records) = none) :=
    by decide +kernel
theorem witness_EnvelopeEvents_mismatch :
    (((crcState broken0).half .east).alive = true) ∧ (((crcState broken0).half .east).env.pend = some (pendR broken0 true false)) ∧
    (((crcState broken0).half .east).env.lastCrcCheck + 10000000000 ≤ ((crcState broken0).half .east).clk.now) ∧
    (crcFault (((crcState broken0).half .east).runningSlot ++ (pendR broken0 true false).records) = some 268435456) :=
    by decide +kernel
theorem witness_InputEvents_structure :
    (((inputR (in0 [])).half .east).obj.input? 0 = some (in0 [])) ∧ (((inputR (in0 [])).half .east).alive = true) ∧
    ((((inputR (in0 [])).half .east).net.getD (rd (((inputR (in0 [])).half .east).record (inputH .east 0)) 16 2) { : PortSt }).link = LinkState.up) ∧
    (packetMine (((inputR (in0 [])).half .east).record (inputH .east 0)) (rtp 101 0 false) = true) ∧ ((in0 []).highSeq = some 100) ∧
    ((in0 []).base = some (990000000, 0)) ∧ (101 = extendNear 16 100 (BitVec.toNat (rtp 101 0 false).seq)) ∧
    (0 = extendNear 32 (in0 []).highTs (BitVec.toNat (rtp 101 0 false).timestamp)) ∧
    (payloadOk (rd (((inputR (in0 [])).half .east).record (inputH .east 0)) 20 1) (rtp 101 0 false).payload = false) :=
    by decide +kernel
theorem witness_InputEvents_late :
    (((inputR in1).half .east).obj.input? 0 = some in1) ∧ (((inputR in1).half .east).alive = true) ∧
    ((((inputR in1).half .east).net.getD (rd (((inputR in1).half .east).record (inputH .east 0)) 16 2) { : PortSt }).link = LinkState.up) ∧
    (packetMine (((inputR in1).half .east).record (inputH .east 0)) (rtp 101 0 true) = true) ∧ (in1.highSeq = some 100) ∧
    (in1.base = some (900000000, 0)) ∧ (101 = extendNear 16 100 (BitVec.toNat (rtp 101 0 true).seq)) ∧
    (0 = extendNear 32 in1.highTs (BitVec.toNat (rtp 101 0 true).timestamp)) ∧
    (payloadOk (rd (((inputR in1).half .east).record (inputH .east 0)) 20 1) (rtp 101 0 true).payload = true) ∧
    (in1.senderReport = none ∨ in1.mappedFrom ≠ none) ∧
    (releaseTime .east ((inputR in1).half .east) { index := in1.index, mappedFrom := in1.mappedFrom, senderReport := in1.senderReport, base := in1.base, highSeq := some (max 101 100), highTs := max 0 in1.highTs, nextSeq := in1.nextSeq, packets := in1.packets, held := in1.held, outside := in1.outside, unit := in1.unit, badTimes := in1.badTimes, ownSsrc := in1.ownSsrc, lastSsrc := in1.lastSsrc, lastSource := in1.lastSource, lastOverflow := in1.lastOverflow, overflowSince := in1.overflowSince, counts := in1.counts, refresh := in1.refresh, nextReport := in1.nextReport : InputSt } 0 ≤ ((inputR in1).half .east).clk.now) :=
    by decide +kernel
theorem witness_InputEvents_duplicate :
    (((inputR (in0 [pk 101 0])).half .east).obj.input? 0 = some (in0 [pk 101 0])) ∧ (((inputR (in0 [pk 101 0])).half .east).alive = true) ∧
    ((((inputR (in0 [pk 101 0])).half .east).net.getD (rd (((inputR (in0 [pk 101 0])).half .east).record (inputH .east 0)) 16 2) { : PortSt }).link = LinkState.up) ∧
    (packetMine (((inputR (in0 [pk 101 0])).half .east).record (inputH .east 0)) (rtp 101 0 true) = true) ∧
    ((in0 [pk 101 0]).highSeq = some 100) ∧ ((in0 [pk 101 0]).base = some (990000000, 0)) ∧
    (101 = extendNear 16 100 (BitVec.toNat (rtp 101 0 true).seq)) ∧
    (0 = extendNear 32 (in0 [pk 101 0]).highTs (BitVec.toNat (rtp 101 0 true).timestamp)) ∧
    (payloadOk (rd (((inputR (in0 [pk 101 0])).half .east).record (inputH .east 0)) 20 1) (rtp 101 0 true).payload = true) ∧
    ((in0 [pk 101 0]).senderReport = none ∨ (in0 [pk 101 0]).mappedFrom ≠ none) ∧
    (((inputR (in0 [pk 101 0])).half .east).clk.now < releaseTime .east ((inputR (in0 [pk 101 0])).half .east) { index := (in0 [pk 101 0]).index, mappedFrom := (in0 [pk 101 0]).mappedFrom, senderReport := (in0 [pk 101 0]).senderReport, base := (in0 [pk 101 0]).base, highSeq := some (max 101 100), highTs := max 0 (in0 [pk 101 0]).highTs, nextSeq := (in0 [pk 101 0]).nextSeq, packets := (in0 [pk 101 0]).packets, held := (in0 [pk 101 0]).held, outside := (in0 [pk 101 0]).outside, unit := (in0 [pk 101 0]).unit, badTimes := (in0 [pk 101 0]).badTimes, ownSsrc := (in0 [pk 101 0]).ownSsrc, lastSsrc := (in0 [pk 101 0]).lastSsrc, lastSource := (in0 [pk 101 0]).lastSource, lastOverflow := (in0 [pk 101 0]).lastOverflow, overflowSince := (in0 [pk 101 0]).overflowSince, counts := (in0 [pk 101 0]).counts, refresh := (in0 [pk 101 0]).refresh, nextReport := (in0 [pk 101 0]).nextReport : InputSt } 0) ∧
    (∃ k, k ∈ (in0 [pk 101 0]).packets ∧ k.seq = 101) :=
    by decide +kernel
theorem witness_InputEvents_inserted :
    (((inputR (in0 [pk 101 0])).half .east).obj.input? 0 = some (in0 [pk 101 0])) ∧ (((inputR (in0 [pk 101 0])).half .east).alive = true) ∧
    ((((inputR (in0 [pk 101 0])).half .east).net.getD (rd (((inputR (in0 [pk 101 0])).half .east).record (inputH .east 0)) 16 2) { : PortSt }).link = LinkState.up) ∧
    (packetMine (((inputR (in0 [pk 101 0])).half .east).record (inputH .east 0)) (rtp 102 0 true) = true) ∧
    ((in0 [pk 101 0]).highSeq = some 100) ∧ ((in0 [pk 101 0]).base = some (990000000, 0)) ∧
    (102 = extendNear 16 100 (BitVec.toNat (rtp 102 0 true).seq)) ∧
    (0 = extendNear 32 (in0 [pk 101 0]).highTs (BitVec.toNat (rtp 102 0 true).timestamp)) ∧
    (payloadOk (rd (((inputR (in0 [pk 101 0])).half .east).record (inputH .east 0)) 20 1) (rtp 102 0 true).payload = true) ∧
    ((in0 [pk 101 0]).senderReport = none ∨ (in0 [pk 101 0]).mappedFrom ≠ none) ∧
    (((inputR (in0 [pk 101 0])).half .east).clk.now < releaseTime .east ((inputR (in0 [pk 101 0])).half .east) { index := (in0 [pk 101 0]).index, mappedFrom := (in0 [pk 101 0]).mappedFrom, senderReport := (in0 [pk 101 0]).senderReport, base := (in0 [pk 101 0]).base, highSeq := some (max 102 100), highTs := max 0 (in0 [pk 101 0]).highTs, nextSeq := (in0 [pk 101 0]).nextSeq, packets := (in0 [pk 101 0]).packets, held := (in0 [pk 101 0]).held, outside := (in0 [pk 101 0]).outside, unit := (in0 [pk 101 0]).unit, badTimes := (in0 [pk 101 0]).badTimes, ownSsrc := (in0 [pk 101 0]).ownSsrc, lastSsrc := (in0 [pk 101 0]).lastSsrc, lastSource := (in0 [pk 101 0]).lastSource, lastOverflow := (in0 [pk 101 0]).lastOverflow, overflowSince := (in0 [pk 101 0]).overflowSince, counts := (in0 [pk 101 0]).counts, refresh := (in0 [pk 101 0]).refresh, nextReport := (in0 [pk 101 0]).nextReport : InputSt } 0) ∧
    (∀ (k : BufPacket), k ∈ (in0 [pk 101 0]).packets → k.seq ≠ 102) ∧
    ((in0 [pk 101 0]).held + (rtp 102 0 true).bytes ≤ rd (((inputR (in0 [pk 101 0])).half .east).record (inputH .east 0)) 68 4) ∧
    ((rtp 102 0 true).noBuffer = false) :=
    by decide +kernel
theorem witness_InputEvents_release :
    ((fed0.half .east).obj.input? 0 = some in1) ∧ (pk 100 0 ∈ in1.packets) ∧ ((pk 100 0).timestamp = 0) ∧
    (∀ (k : BufPacket), k ∈ in1.packets → 0 ≤ k.timestamp) ∧ (releaseTime .east (fed0.half .east) in1 0 ≤ (fed0.half .east).clk.now) ∧
    (fedBy .east (fed0.half .east) 0 = some dec4) :=
    by decide +kernel
theorem witness_InputEvents_copy :
    ((pairCopies.half .east).obj.decode? 0 = some copies0) ∧ (copies0.copies = [unit0]) ∧
    (decPartner ((pairCopies.half .east).record (decodeH .east 0)) ≠ 0) ∧
    (decInput ((pairCopies.half .east).record (decodeH .east 0)) = 0) ∧
    (decFeedRegion ((pairCopies.half .east).record (decodeH .east 0)) = 0) ∧ (pairCopies.sparWorks = true) :=
    by decide +kernel
theorem witness_DecodePictures_start :
    ((decReadyS.half .east).obj.decode? 0 = some decReady) ∧ ((decReadyS.half .east).alive = true) ∧
    (decChoose .east (decReadyS.half .east) 5 false = some (0, unit0)) ∧ (decSwitch .east (decReadyS.half .east) decReady unit0 = none) ∧
    (((decReadyS.half .east).dec.getD 5 { : EngineSt }).suspended.contains 0 = false) :=
    by decide +kernel
theorem witness_DecodePictures_skipped :
    (((decRunS true).half .east).obj.decode? 0 = some (decRun true)) ∧
    ((((decRunS true).half .east).dec.getD 5 { : EngineSt }).current = some 0) ∧ ((decRun true).index = 0) ∧
    (∀ (g : EngineSt), g ∈ ((decRunS true).half .east).dec → g.suspended.contains 0 = false ∧ (g.current = some 0 → g.halted = false ∧ g.seq.halt = false)) ∧
    ((decRun true).inProgress = some unit0) ∧ (unitUnwanted (((decRunS true).half .east).record (decodeH .east 0)) plain0 = false) ∧
    (({ beforeUnit (((decRunS true).half .east).record (decodeH .east 0)) unit0 ((decRunS true).half .east).clk.now (decRun true) with sets := setsAfter (beforeUnit (((decRunS true).half .east).record (decodeH .east 0)) unit0 ((decRunS true).half .east).clk.now (decRun true)).sets plain0.params } : DecodeSt).waitStart = true) ∧
    (plain0.startPoint = false) ∧
    (({ beforeUnit (((decRunS true).half .east).record (decodeH .east 0)) unit0 ((decRunS true).half .east).clk.now (decRun true) with sets := setsAfter (beforeUnit (((decRunS true).half .east).record (decodeH .east 0)) unit0 ((decRunS true).half .east).clk.now (decRun true)).sets plain0.params } : DecodeSt).limitWait = false) :=
    by decide +kernel
theorem witness_DecodePictures_limit :
    (((decRunS true).half .east).obj.decode? 0 = some (decRun true)) ∧
    ((((decRunS true).half .east).dec.getD 5 { : EngineSt }).current = some 0) ∧ ((decRun true).index = 0) ∧
    (∀ (g : EngineSt), g ∈ ((decRunS true).half .east).dec → g.suspended.contains 0 = false ∧ (g.current = some 0 → g.halted = false ∧ g.seq.halt = false)) ∧
    ((decRun true).inProgress = some unit0) ∧ (unitUnwanted (((decRunS true).half .east).record (decodeH .east 0)) big0 = false) ∧
    (({ beforeUnit (((decRunS true).half .east).record (decodeH .east 0)) unit0 ((decRunS true).half .east).clk.now (decRun true) with sets := setsAfter (beforeUnit (((decRunS true).half .east).record (decodeH .east 0)) unit0 ((decRunS true).half .east).clk.now (decRun true)).sets big0.params } : DecodeSt).waitStart = false ∨ big0.startPoint = true) ∧
    (big0.rasl = false ∨ ({ beforeUnit (((decRunS true).half .east).record (decodeH .east 0)) unit0 ((decRunS true).half .east).clk.now (decRun true) with sets := setsAfter (beforeUnit (((decRunS true).half .east).record (decodeH .east 0)) unit0 ((decRunS true).half .east).clk.now (decRun true)).sets big0.params } : DecodeSt).raslSkip = false ∨ big0.startPoint = true) ∧
    ((if big0.startPoint = true then (setOf (setsAfter (beforeUnit (((decRunS true).half .east).record (decodeH .east 0)) unit0 ((decRunS true).half .east).clk.now (decRun true)).sets big0.params) big0.usesSet).or ({ beforeUnit (((decRunS true).half .east).record (decodeH .east 0)) unit0 ((decRunS true).half .east).clk.now (decRun true) with sets := setsAfter (beforeUnit (((decRunS true).half .east).record (decodeH .east 0)) unit0 ((decRunS true).half .east).clk.now (decRun true)).sets big0.params } : DecodeSt).active else ({ beforeUnit (((decRunS true).half .east).record (decodeH .east 0)) unit0 ((decRunS true).half .east).clk.now (decRun true) with sets := setsAfter (beforeUnit (((decRunS true).half .east).record (decodeH .east 0)) unit0 ((decRunS true).half .east).clk.now (decRun true)).sets big0.params } : DecodeSt).active) = some limits1) ∧
    (limitExceeded (((decRunS true).half .east).record (decodeH .east 0)) limits1 = some (1, 1281)) ∧
    (({ beforeUnit (((decRunS true).half .east).record (decodeH .east 0)) unit0 ((decRunS true).half .east).clk.now (decRun true) with sets := setsAfter (beforeUnit (((decRunS true).half .east).record (decodeH .east 0)) unit0 ((decRunS true).half .east).clk.now (decRun true)).sets big0.params } : DecodeSt).limitWait = false) :=
    by decide +kernel
theorem witness_DecodePictures_complete :
    (((decRunS true).half .east).obj.decode? 0 = some (decRun true)) ∧
    ((((decRunS true).half .east).dec.getD 5 { : EngineSt }).current = some 0) ∧ ((decRun true).index = 0) ∧
    (∀ (g : EngineSt), g ∈ ((decRunS true).half .east).dec → g.suspended.contains 0 = false ∧ (g.current = some 0 → g.halted = false ∧ g.seq.halt = false)) ∧
    ((decRun true).inProgress = some unit0) ∧ (unitUnwanted (((decRunS true).half .east).record (decodeH .east 0)) start0 = false) ∧
    (({ beforeUnit (((decRunS true).half .east).record (decodeH .east 0)) unit0 ((decRunS true).half .east).clk.now (decRun true) with sets := setsAfter (beforeUnit (((decRunS true).half .east).record (decodeH .east 0)) unit0 ((decRunS true).half .east).clk.now (decRun true)).sets start0.params } : DecodeSt).waitStart = false ∨ start0.startPoint = true) ∧
    (start0.rasl = false ∨ ({ beforeUnit (((decRunS true).half .east).record (decodeH .east 0)) unit0 ((decRunS true).half .east).clk.now (decRun true) with sets := setsAfter (beforeUnit (((decRunS true).half .east).record (decodeH .east 0)) unit0 ((decRunS true).half .east).clk.now (decRun true)).sets start0.params } : DecodeSt).raslSkip = false ∨ start0.startPoint = true) ∧
    ((if start0.startPoint = true then (setOf (setsAfter (beforeUnit (((decRunS true).half .east).record (decodeH .east 0)) unit0 ((decRunS true).half .east).clk.now (decRun true)).sets start0.params) start0.usesSet).or ({ beforeUnit (((decRunS true).half .east).record (decodeH .east 0)) unit0 ((decRunS true).half .east).clk.now (decRun true) with sets := setsAfter (beforeUnit (((decRunS true).half .east).record (decodeH .east 0)) unit0 ((decRunS true).half .east).clk.now (decRun true)).sets start0.params } : DecodeSt).active else ({ beforeUnit (((decRunS true).half .east).record (decodeH .east 0)) unit0 ((decRunS true).half .east).clk.now (decRun true) with sets := setsAfter (beforeUnit (((decRunS true).half .east).record (decodeH .east 0)) unit0 ((decRunS true).half .east).clk.now (decRun true)).sets start0.params } : DecodeSt).active) = some limits0) ∧
    (limitExceeded (((decRunS true).half .east).record (decodeH .east 0)) limits0 = none) ∧
    (rateBeyond (((decRunS true).half .east).record (decodeH .east 0)) limits0 = false) :=
    by decide +kernel
theorem witness_DecodeTimers_available :
    ((showingS.half .east).obj.decode? 0 = some showing) ∧
    (List.find? (fun p => !p.awaiting && decide (p.availableAt ≤ (showingS.half .east).clk.now)) showing.waiting = some pic1) :=
    by decide +kernel
theorem witness_DecodeTimers_starved :
    ((starvedS.half .east).obj.decode? 0 = some starved0) ∧ (decClass ((starvedS.half .east).record (decodeH .east 0)) = 2) ∧
    (starved0.ready ≠ [] ∨ ∃ g, g ∈ (starvedS.half .east).dec ∧ g.suspended.contains 0 = true) ∧
    (starved0.lastProgress + 1000000000 ≤ (starvedS.half .east).clk.now) ∧
    (∀ (t : Nat), starved0.lastStarved = some t → t + 10000000000 ≤ (starvedS.half .east).clk.now) :=
    by decide +kernel
theorem witness_DecodeTimers_repeat :
    (((input_ (asking 2)).half .east).obj.input? 0 = some (asking 2)) ∧ ((asking 2).refresh.pending = true) ∧
    ((asking 2).refresh.due ≤ ((input_ (asking 2)).half .east).clk.now) ∧
    (requestSpaced ((input_ (asking 2)).half .east).clk.now (asking 2).refresh = true) ∧ ((asking 2).refresh.sent ≠ 20) :=
    by decide +kernel
theorem witness_DecodeTimers_unanswered :
    (((input_ (asking 20)).half .east).obj.input? 0 = some (asking 20)) ∧ ((asking 20).refresh.pending = true) ∧
    ((asking 20).refresh.due ≤ ((input_ (asking 20)).half .east).clk.now) ∧
    (requestSpaced ((input_ (asking 20)).half .east).clk.now (asking 20).refresh = true) ∧ ((asking 20).refresh.sent = 20) :=
    by decide +kernel
theorem witness_DecodeTimers_deadline :
    ((awaitingS.half .east).obj.decode? 0 = some awaiting) ∧
    (List.find? (fun p => p.awaiting && decide (p.deadline ≤ (awaitingS.half .east).clk.now)) awaiting.waiting = some (awaiting.waiting.getD 0 pic1)) :=
    by decide +kernel

def canvasWith (c : CanvasSt) : State := busyWith (fun x => { x with obj := { x.obj with canvases := [c] } })
def cv60 : CanvasSt := { index := 0, nextTick := 60 }
def cvWaits : CanvasSt := { cv60 with resumeAt := 1000000001 }
def cvDrains : CanvasSt := { cv60 with run := .draining, drainAt := 1000000001 }
def cvDrained : CanvasSt := { cv60 with run := .draining, drainAt := 1000000000 }
def cvStopped : CanvasSt := { cv60 with run := .stopped }
def job0 : Job := { canvas := 0, tick := 59, tickTime := 983333333, tiles := [0], bandsLeft := [2], bandsWaiting := [2], pipes := [2] }
def cvJob : CanvasSt := { cv60 with jobs := [job0] }
def cvJob2 : CanvasSt := { cv60 with jobs := [{ job0 with bandsLeft := [2, 3], bandsWaiting := [3], pipes := [2, 3] }] }
def job2 : Job := { job0 with bandsLeft := [2, 3], bandsWaiting := [3], pipes := [2, 3] }
def canvas1 : Handle := 0x08000001
def liveRecord (x : Handle) : Record := recd 8 x 64 [(16, 2, 64), (18, 2, 64), (20, 1, 0), (22, 1, 1), (24, 4, 50000000), (28, 4, 3)]
/-- A LIVE canvas 0 whose job waits; a TIMED one in the pipe, beside a LIVE canvas 1 whose job waits. -/
def liveWaits : State := busyWith (fun x => { withRunning [liveRecord canvas0] x with obj := { x.obj with canvases := [cvJob] } })
def live1 : CanvasSt := { cvJob with index := 1 }
def pipeBusy : EngineSt := { current := some 0 }
def timedRuns : State := busyWith (fun x =>
  { withRunning (liveRecord canvas1 :: records0) x with obj := { x.obj with canvases := [cv60, live1] }, cmp := x.cmp.set 2 pipeBusy })
def pipeRuns (c : CanvasSt) : State := busyWith (fun x => { x with obj := { x.obj with canvases := [c] }, cmp := x.cmp.set 2 pipeBusy })
def idlePipe : EngineSt := {}
def copyEnt : CmdEntry := ent surface0 [1]
def upd1 : SurfUpdate := { buffer := 1, applied := 0, rects := [], allChanged := true, copying := some copyEnt }
def surf1 : SurfaceSt := { index := 0, waiting := [upd1] }
def surfS (tail : W32) : State := busyWith (fun x => { x with obj := { x.obj with surfaces := [surf1] }, rings := { x.rings with cplqTail := tail } })
def picReady (t : Nat) : ReadyPic := { tickTime := t, allChanged := true }
def encWith (e : EncodeSt) (f : Half → Half) : State := busyWith (fun x => f { x with obj := { x.obj with encodes := [e] } })
def enc0 : EncodeSt := { index := 0, engines := [7], ready := [picReady 900000000] }
def facts0 : EncodeFacts := {}
def unit1 : CodedUnit := { sizes := [100], buffers := [1], firstCtu := 0, lastCtu := 239, endsPicture := true }
def plan0 : EncPlan := { tickTime := 900000000, heads := [.recoveryPoint 3] }
def enc1 : EncodeSt := { index := 0, engines := [7], plan := some plan0 }
def running7 (x : Half) : Half := { x with enc := x.enc.set 7 { current := some 0 } }
def enc1S : State := encWith enc1 running7
def suspended0 : EngineSt := { suspended := [0] }
def enc1Susp : State := encWith enc1 (fun x => { x with enc := x.enc.set 7 suspended0 })
/-- A gang of two columns in engines 0 and 1, whose units may cross the column edge (in-loop filtering across it on). -/
def edge0 : GangEdge := { left := 0, right := 1, column := 640, rows := 12, scrim := false }
def gangPlan : EncPlan := { plan0 with edges := [edge0], rowsDone := [0, 0] }
def gangR (across : Nat) : Record := recd 5 encode0 96
  [(16, 1, 1), (17, 1, 2), (18, 1, 1), (20, 2, 1280), (22, 2, 720), (24, 1, 8), (25, 1, 1), (28, 4, 0x08000000), (32, 1, 1), (33, 1, across)]
def gangE : EncodeSt := { index := 0, engines := [0, 1], plan := some gangPlan }
def gangS (across : Nat) : State := encWith gangE (fun x => withRunning (gangR across :: records0) x)
def rowUnit (n : Nat) : CodedUnit := { sizes := [10], firstCtu := 20 * n, lastCtu := 20 * n + 9 }
def headUnit : CodedUnit := { sizes := [5], buffers := [1], header := true }
def twinR : Record := recd 5 encode0 96 [(16, 1, 1), (17, 1, 2), (18, 1, 1), (20, 2, 1280), (22, 2, 720), (24, 1, 8), (25, 1, 1), (28, 4, 0x08000000), (32, 1, 1), (62, 2, 1)]
def twinEnc (e : EncodeSt) : State := encWith e (withRunning [twinR])
def twinOwn : EncodeSt := { index := 0, ownCrcs := [(5, 7)] }
def twinNone : EncodeSt := { index := 0 }
def absorbed (n : Nat) : EncodeSt := { index := 0, absorbedInterval := n }
def clusterS (c : EncCluster) : State := busyWith (fun x => { x with obj := { x.obj with clusters := [c] } })
def surge0 : EncCluster := { lastSurge := some 0, surging := true }
def debt0 : EncCluster := { credit := -1, creditAt := 1000000000, negativeSince := some 0 }
def clusterLate (c : EncCluster) : State := busyWith (fun x => { x with clk := { now := 1000000001 }, obj := { x.obj with clusters := [c] } })
def donePlan : EncPlan := { tickTime := 999000000, bits := 8000, crc := 9 }
def doneEnc (partner : List (W32 × W32)) : EncodeSt := { index := 0, engines := [7], plan := some donePlan, k := 4, partnerCrcs := partner }
def doneS (r : Record) (e : EncodeSt) : State := encWith e (fun x => withRunning [r] (running7 x))
def fedR : Record := recd 5 encode0 96 [(16, 1, 1), (17, 1, 2), (18, 1, 1), (20, 2, 1280), (22, 2, 720), (24, 1, 8), (25, 1, 1), (28, 4, 0x09000000), (32, 1, 1)]
/-- The state after the picture of `doneEnc` completes, before a CRC is compared. -/
def doneT (s : State) (r : Record) (e : EncodeSt) : State :=
  let x := s.half .east
  let q := rateAfter x.running r e donePlan
  let p := { donePlan with filler := q.2 }
  let late := p.flags.testBit 1 || (esDet r && decide (p.tickTime + (esPicPeriod x.running r).1 / (esPicPeriod x.running r).2 < x.clk.now))
  rateOffer .east 0 p (gangStalls .east 0 p
    ((if late then event .east 0x0421 sevWarning (encodeH .east 0) (le 4 e.k ++ le 8 p.tickTime ++ le 8 x.clk.now ++ le 4 (b2n (p.flags.testBit 2)))
        else (fun v => v))
      (s.upd .east (encodeDone .east 7 e p q (if e.rate.mode = 3 then e.rate.fullness else e.rate.fullness - ((p.bits + p.filler : Nat) : Int)) late))))
def relOut : List CodedUnit × EncPlan := EncPlan.release (gangR 1) 1 (gangPlan.form (gangR 1) (rowUnit 0))

theorem witness_CompositionEvents_composes :
    (((canvasWith cv60).half .east).obj.canvas? 0 = some cv60) ∧ (((canvasWith cv60).half .east).alive = true) ∧
    (canvasTouched .east ((canvasWith cv60).half .east) 0 = none) ∧
    (removedAt ((canvasWith cv60).half .east) (canvasH .east 0) 1000000000 = false) ∧
    (1000000000 = cvTick (((canvasWith cv60).half .east).record (canvasH .east 0)) cv60.nextTick) ∧
    (1000000000 ≤ ((canvasWith cv60).half .east).clk.now) ∧ (((canvasWith cv60).half .east).record (canvasH .east 0) ≠ []) ∧
    (cvGuarded (((canvasWith cv60).half .east).record (canvasH .east 0)) = false) ∧ (cv60.run = RunState.running) ∧ (cv60.holdAt = none) ∧
    (cv60.resumeAt ≤ 1000000000) :=
    by decide +kernel
theorem witness_CompositionEvents_waits :
    (((canvasWith cvWaits).half .east).obj.canvas? 0 = some cvWaits) ∧ (((canvasWith cvWaits).half .east).alive = true) ∧
    (canvasTouched .east ((canvasWith cvWaits).half .east) 0 = none) ∧
    (removedAt ((canvasWith cvWaits).half .east) (canvasH .east 0) 1000000000 = false) ∧
    (1000000000 = cvTick (((canvasWith cvWaits).half .east).record (canvasH .east 0)) cvWaits.nextTick) ∧
    (1000000000 ≤ ((canvasWith cvWaits).half .east).clk.now) ∧ (((canvasWith cvWaits).half .east).record (canvasH .east 0) ≠ []) ∧
    (cvGuarded (((canvasWith cvWaits).half .east).record (canvasH .east 0)) = false) ∧ (cvWaits.run = RunState.running) ∧
    (cvWaits.holdAt = none) ∧ (1000000000 < cvWaits.resumeAt) :=
    by decide +kernel
theorem witness_CompositionEvents_drains :
    (((canvasWith cvDrains).half .east).obj.canvas? 0 = some cvDrains) ∧ (((canvasWith cvDrains).half .east).alive = true) ∧
    (canvasTouched .east ((canvasWith cvDrains).half .east) 0 = none) ∧
    (removedAt ((canvasWith cvDrains).half .east) (canvasH .east 0) 1000000000 = false) ∧
    (1000000000 = cvTick (((canvasWith cvDrains).half .east).record (canvasH .east 0)) cvDrains.nextTick) ∧
    (1000000000 ≤ ((canvasWith cvDrains).half .east).clk.now) ∧ (((canvasWith cvDrains).half .east).record (canvasH .east 0) ≠ []) ∧
    (cvGuarded (((canvasWith cvDrains).half .east).record (canvasH .east 0)) = false) ∧ (cvDrains.run = RunState.draining) ∧
    (1000000000 < cvDrains.drainAt) :=
    by decide +kernel
theorem witness_CompositionEvents_drained :
    (((canvasWith cvDrained).half .east).obj.canvas? 0 = some cvDrained) ∧ (((canvasWith cvDrained).half .east).alive = true) ∧
    (canvasTouched .east ((canvasWith cvDrained).half .east) 0 = none) ∧
    (removedAt ((canvasWith cvDrained).half .east) (canvasH .east 0) 1000000000 = false) ∧
    (1000000000 = cvTick (((canvasWith cvDrained).half .east).record (canvasH .east 0)) cvDrained.nextTick) ∧
    (1000000000 ≤ ((canvasWith cvDrained).half .east).clk.now) ∧ (((canvasWith cvDrained).half .east).record (canvasH .east 0) ≠ []) ∧
    (cvGuarded (((canvasWith cvDrained).half .east).record (canvasH .east 0)) = false) ∧ (cvDrained.run = RunState.draining) ∧
    (cvDrained.drainAt ≤ 1000000000) :=
    by decide +kernel
theorem witness_CompositionEvents_stopped :
    (((canvasWith cvStopped).half .east).obj.canvas? 0 = some cvStopped) ∧ (((canvasWith cvStopped).half .east).alive = true) ∧
    (canvasTouched .east ((canvasWith cvStopped).half .east) 0 = none) ∧
    (removedAt ((canvasWith cvStopped).half .east) (canvasH .east 0) 1000000000 = false) ∧
    (1000000000 = cvTick (((canvasWith cvStopped).half .east).record (canvasH .east 0)) cvStopped.nextTick) ∧
    (1000000000 ≤ ((canvasWith cvStopped).half .east).clk.now) ∧ (((canvasWith cvStopped).half .east).record (canvasH .east 0) ≠ []) ∧
    (cvGuarded (((canvasWith cvStopped).half .east).record (canvasH .east 0)) = false) ∧ (cvStopped.run = RunState.stopped) :=
    by decide +kernel
theorem witness_CompositionEvents_urgent :
    ((liveWaits.half .east).obj.canvas? 0 = some cvJob) ∧ ((liveWaits.half .east).cmp[2]? = some idlePipe) ∧
    ((liveWaits.half .east).alive = true) ∧ (islandOn (liveWaits.half .east) (18 + 2) = true) ∧ (idlePipe.halted = false) ∧
    (idlePipe.toRetire = 0) ∧ (idlePipe.flags.inService = true) ∧ (idlePipe.current = none) ∧
    (pipeChoose .east (liveWaits.half .east) 2 true = some (0, false)) :=
    by decide +kernel
theorem witness_CompositionEvents_timed :
    (((canvasWith cvJob).half .east).obj.canvas? 0 = some cvJob) ∧ (((canvasWith cvJob).half .east).cmp[2]? = some idlePipe) ∧
    (((canvasWith cvJob).half .east).alive = true) ∧ (islandOn ((canvasWith cvJob).half .east) (18 + 2) = true) ∧
    (idlePipe.halted = false) ∧ (idlePipe.toRetire = 0) ∧ (idlePipe.flags.inService = true) ∧ (idlePipe.current = none) ∧
    (pipeChoose .east ((canvasWith cvJob).half .east) 2 true = none) ∧
    (pipeChoose .east ((canvasWith cvJob).half .east) 2 false = some (0, false)) :=
    by decide +kernel
theorem witness_CompositionEvents_displaced :
    ((timedRuns.half .east).obj.canvas? 0 = some cv60) ∧ ((timedRuns.half .east).cmp[2]? = some pipeBusy) ∧
    ((timedRuns.half .east).alive = true) ∧ (islandOn (timedRuns.half .east) (18 + 2) = true) ∧ (pipeBusy.halted = false) ∧
    (pipeBusy.toRetire = 0) ∧ (pipeBusy.flags.inService = true) ∧ (pipeBusy.current = some 0) ∧
    (cvUrgent ((timedRuns.half .east).record (canvasH .east 0)) = false) ∧
    (pipeChoose .east (timedRuns.half .east) 2 true = some (1, false)) :=
    by decide +kernel
theorem witness_CompositionEvents_lastBand :
    (((pipeRuns cvJob).half .east).obj.canvas? 0 = some cvJob) ∧ (((pipeRuns cvJob).half .east).cmp[2]? = some pipeBusy) ∧
    (pipeBusy.halted = false) ∧ (pipeBusy.seq.halt = false) ∧ (pipeBusy.current = some 0) ∧ (cvJob.index = 0) ∧
    (List.find? (fun j => j.bandsLeft.contains 2) cvJob.jobs = some job0) :=
    by decide +kernel
theorem witness_CompositionEvents_band :
    (((pipeRuns cvJob2).half .east).obj.canvas? 0 = some cvJob2) ∧ (((pipeRuns cvJob2).half .east).cmp[2]? = some pipeBusy) ∧
    (pipeBusy.halted = false) ∧ (pipeBusy.seq.halt = false) ∧ (pipeBusy.current = some 0) ∧ (cvJob2.index = 0) ∧
    (List.find? (fun j => j.bandsLeft.contains 2) cvJob2.jobs = some job2) :=
    by decide +kernel
theorem witness_CompositionEvents_copyFull :
    (((surfS 2048).half .east).obj.surface? 0 = some surf1) ∧ (List.find? (fun q => q.copying.isSome) surf1.waiting = some upd1) ∧
    (upd1.copying = some copyEnt) ∧ (cplqFull ((surfS 2048).half .east) = true) :=
    by decide +kernel
theorem witness_CompositionEvents_copied :
    (((surfS 0).half .east).obj.surface? 0 = some surf1) ∧ (List.find? (fun q => q.copying.isSome) surf1.waiting = some upd1) ∧
    (upd1.copying = some copyEnt) ∧ (cplqFull ((surfS 0).half .east) = false) :=
    by decide +kernel
theorem witness_EncodeEvents_starts :
    (((encWith enc0 id).half .east).enc[7]? = some idlePipe) ∧ (((encWith enc0 id).half .east).alive = true) ∧
    (islandOn ((encWith enc0 id).half .east) 7 = true) ∧ (idlePipe.halted = false) ∧ (idlePipe.toRetire = 0) ∧
    (idlePipe.flags.inService = true) ∧ (idlePipe.current = none) ∧ (encChoose .east ((encWith enc0 id).half .east) 7 = some (0, false)) :=
    by decide +kernel
theorem witness_EncodeEvents_resumes :
    ((enc1Susp.half .east).enc[7]? = some suspended0) ∧ ((enc1Susp.half .east).alive = true) ∧ (islandOn (enc1Susp.half .east) 7 = true) ∧
    (suspended0.halted = false) ∧ (suspended0.toRetire = 0) ∧ (suspended0.flags.inService = true) ∧ (suspended0.current = none) ∧
    (encChoose .east (enc1Susp.half .east) 7 = some (0, true)) :=
    by decide +kernel
theorem witness_EncodeEvents_header :
    ((enc1S.half .east).obj.encode? 0 = some enc1) ∧ (enc1.plan = some plan0) ∧ ((enc1S.half .east).bri.tetherStopped = false) ∧
    (headUnit.sizes ≠ []) ∧
    ((crossingAt (enc1S.half .east) (unitEngine (enc1S.half .east) ((enc1S.half .east).record (encodeH .east 0)) enc1 plan0 headUnit) 30).halted = false) ∧
    (headUnit.header = true → headUnit.sizes.length = (List.filter HeadUnit.sent plan0.heads).length) ∧
    (headUnit.header = true ∨ unitsWait ((enc1S.half .east).record (encodeH .east 0)) plan0 = false) :=
    by decide +kernel
theorem witness_EncodeEvents_unit :
    ((enc1S.half .east).obj.encode? 0 = some enc1) ∧ (enc1.plan = some plan0) ∧ ((enc1S.half .east).bri.tetherStopped = false) ∧
    (unit1.sizes ≠ []) ∧
    ((crossingAt (enc1S.half .east) (unitEngine (enc1S.half .east) ((enc1S.half .east).record (encodeH .east 0)) enc1 plan0 unit1) 30).halted = false) ∧
    (unit1.header = true → unit1.sizes.length = (List.filter HeadUnit.sent plan0.heads).length) ∧
    (unit1.header = true ∨ unitsWait ((enc1S.half .east).record (encodeH .east 0)) plan0 = false) :=
    by decide +kernel
theorem witness_EncodeEvents_unitWaits :
    (((gangS 1).half .east).obj.encode? 0 = some gangE) ∧ (gangE.plan = some gangPlan) ∧
    (((gangS 1).half .east).bri.tetherStopped = false) ∧ ((rowUnit 5).sizes ≠ []) ∧
    ((crossingAt ((gangS 1).half .east) (unitEngine ((gangS 1).half .east) (((gangS 1).half .east).record (encodeH .east 0)) gangE gangPlan (rowUnit 5)) 30).halted = false) ∧
    ((rowUnit 5).header = true → (rowUnit 5).sizes.length = (List.filter HeadUnit.sent gangPlan.heads).length) ∧
    ((rowUnit 5).header = false) ∧ (unitsWait (((gangS 1).half .east).record (encodeH .east 0)) gangPlan = true) ∧
    (mayForm (((gangS 1).half .east).record (encodeH .east 0)) gangPlan (rowUnit 5) = false) :=
    by decide +kernel
theorem witness_EncodeEvents_unitReleased :
    (((gangS 1).half .east).obj.encode? 0 = some gangE) ∧ (gangE.plan = some gangPlan) ∧
    (((gangS 1).half .east).bri.tetherStopped = false) ∧ ((rowUnit 0).sizes ≠ []) ∧
    ((crossingAt ((gangS 1).half .east) (unitEngine ((gangS 1).half .east) (((gangS 1).half .east).record (encodeH .east 0)) gangE gangPlan (rowUnit 0)) 30).halted = false) ∧
    ((rowUnit 0).header = true → (rowUnit 0).sizes.length = (List.filter HeadUnit.sent gangPlan.heads).length) ∧
    ((rowUnit 0).header = false) ∧ (unitsWait (((gangS 1).half .east).record (encodeH .east 0)) gangPlan = true) ∧
    (mayForm (((gangS 1).half .east).record (encodeH .east 0)) gangPlan (rowUnit 0) = true) ∧
    (EncPlan.release (((gangS 1).half .east).record (encodeH .east 0)) (gangPlan.formed.length + 1) (EncPlan.form (((gangS 1).half .east).record (encodeH .east 0)) (rowUnit 0) gangPlan) = (relOut.fst, relOut.snd)) :=
    by decide +kernel
theorem witness_EncodeEvents_lateRepeat :
    (((encWith enc0 id).half .east).obj.encode? 0 = some enc0) ∧ (enc0.ready.head? = some (picReady 900000000)) ∧
    (esDet (((encWith enc0 id).half .east).record (encodeH .east 0)) = false) ∧
    ((picReady 900000000).tickTime + (esPicPeriod ((encWith enc0 id).half .east).running (((encWith enc0 id).half .east).record (encodeH .east 0))).fst / (esPicPeriod ((encWith enc0 id).half .east).running (((encWith enc0 id).half .east).record (encodeH .east 0))).snd ≤ ((encWith enc0 id).half .east).clk.now) :=
    by decide +kernel
theorem witness_EncodeEvents_compared :
    (((twinEnc twinOwn).half .east).obj.encode? 0 = some twinOwn) ∧ ((twinEnc twinOwn).sparWorks = true) ∧
    (esGuarded (((twinEnc twinOwn).half .east).record (encodeH .east 0)) = true) ∧
    (List.find? (fun p => p.fst == 5) twinOwn.ownCrcs = some (5, 7)) :=
    by decide +kernel
theorem witness_EncodeEvents_kept :
    (((twinEnc twinNone).half .east).obj.encode? 0 = some twinNone) ∧ ((twinEnc twinNone).sparWorks = true) ∧
    (esGuarded (((twinEnc twinNone).half .east).record (encodeH .east 0)) = true) ∧
    (∀ (p : W32 × W32), p ∈ twinNone.ownCrcs → p.fst ≠ 5) :=
    ⟨by decide +kernel, by decide +kernel, by decide +kernel, fun _ h => absurd h List.not_mem_nil⟩
theorem witness_EncodeEvents_noneAbsorbed :
    (((encWith (absorbed 0) id).half .east).obj.encode? 0 = some (absorbed 0)) ∧
    ((absorbed 0).intervalStart + 1000000000 ≤ ((encWith (absorbed 0) id).half .east).clk.now) ∧ ((absorbed 0).absorbedInterval = 0) :=
    by decide +kernel
theorem witness_EncodeEvents_absorbed :
    (((encWith (absorbed 3) id).half .east).obj.encode? 0 = some (absorbed 3)) ∧
    ((absorbed 3).intervalStart + 1000000000 ≤ ((encWith (absorbed 3) id).half .east).clk.now) ∧ ((absorbed 3).absorbedInterval ≠ 0) :=
    by decide +kernel
theorem witness_EncodeEvents_surgeEnds :
    (((clusterS surge0).half .east).obj.clusters[0]? = some surge0) ∧ (surge0.lastSurge = some 0) ∧ (surge0.surging = true) ∧
    (0 + 1000000000 ≤ ((clusterS surge0).half .east).clk.now) :=
    by decide +kernel
theorem witness_EncodeEvents_sustained :
    (((clusterLate debt0).half .east).obj.clusters[0]? = some debt0) ∧
    ((creditRefill ((clusterLate debt0).half .east).clk.now debt0).credit < 0) ∧
    ((creditRefill ((clusterLate debt0).half .east).clk.now debt0).negativeSince = some 0) ∧
    (0 + 1000000000 < ((clusterLate debt0).half .east).clk.now) ∧
    ((creditRefill ((clusterLate debt0).half .east).clk.now debt0).agedAt = none) ∧
    ((creditRefill ((clusterLate debt0).half .east).clk.now debt0).lastSustained = none) :=
    by decide +kernel
theorem witness_EncodeComplete_own :
    ((((doneS (recB encode0) (doneEnc [])).half .east).enc.getD 7 { : EngineSt }).current = some 0) ∧
    (((doneS (recB encode0) (doneEnc [])).half .east).obj.encode? 0 = some (doneEnc [])) ∧ ((doneEnc []).index = 0) ∧
    ((doneEnc []).plan = some donePlan) ∧
    (∀ (g : EngineSt), g ∈ ((doneS (recB encode0) (doneEnc [])).half .east).enc → g.suspended.contains 0 = false ∧ (g.current = some 0 → g.halted = false ∧ g.seq.halt = false)) ∧
    ((esGuarded (((doneS (recB encode0) (doneEnc [])).half .east).record (encodeH .east 0)) && (doneT (doneS (recB encode0) (doneEnc [])) (recB encode0) (doneEnc [])).sparWorks) = false) :=
    by decide +kernel
theorem witness_EncodeComplete_crcFirst :
    ((((doneS twinR (doneEnc [])).half .east).enc.getD 7 { : EngineSt }).current = some 0) ∧
    (((doneS twinR (doneEnc [])).half .east).obj.encode? 0 = some (doneEnc [])) ∧ ((doneEnc []).index = 0) ∧
    ((doneEnc []).plan = some donePlan) ∧
    (∀ (g : EngineSt), g ∈ ((doneS twinR (doneEnc [])).half .east).enc → g.suspended.contains 0 = false ∧ (g.current = some 0 → g.halted = false ∧ g.seq.halt = false)) ∧
    ((esGuarded (((doneS twinR (doneEnc [])).half .east).record (encodeH .east 0)) && (doneT (doneS twinR (doneEnc [])) twinR (doneEnc [])).sparWorks) = true) ∧
    (∀ (q : W32 × W32), q ∈ (doneEnc []).partnerCrcs → q.fst ≠ BitVec.ofNat 32 (doneEnc []).k) :=
    ⟨by decide +kernel, by decide +kernel, by decide +kernel, by decide +kernel, by decide +kernel, by decide +kernel, fun _ h => absurd h List.not_mem_nil⟩
theorem witness_EncodeComplete_crcBoth :
    ((((doneS twinR (doneEnc [(4, 8)])).half .east).enc.getD 7 { : EngineSt }).current = some 0) ∧
    (((doneS twinR (doneEnc [(4, 8)])).half .east).obj.encode? 0 = some (doneEnc [(4, 8)])) ∧ ((doneEnc [(4, 8)]).index = 0) ∧
    ((doneEnc [(4, 8)]).plan = some donePlan) ∧
    (∀ (g : EngineSt), g ∈ ((doneS twinR (doneEnc [(4, 8)])).half .east).enc → g.suspended.contains 0 = false ∧ (g.current = some 0 → g.halted = false ∧ g.seq.halt = false)) ∧
    ((esGuarded (((doneS twinR (doneEnc [(4, 8)])).half .east).record (encodeH .east 0)) && (doneT (doneS twinR (doneEnc [(4, 8)])) twinR (doneEnc [(4, 8)])).sparWorks) = true) ∧
    (List.find? (fun q => q.fst == BitVec.ofNat 32 (doneEnc [(4, 8)]).k) (doneEnc [(4, 8)]).partnerCrcs = some (BitVec.ofNat 32 (doneEnc [(4, 8)]).k, 8)) :=
    by decide +kernel
theorem witness_EncodeComplete_free :
    ((((doneS (recB encode0) (doneEnc [])).half .east).enc.getD 7 { : EngineSt }).current = some 0) ∧
    (((doneS (recB encode0) (doneEnc [])).half .east).obj.encode? 0 = some (doneEnc [])) ∧ ((doneEnc []).index = 0) ∧
    ((doneEnc []).plan = some donePlan) ∧
    (∀ (g : EngineSt), g ∈ ((doneS (recB encode0) (doneEnc [])).half .east).enc → g.suspended.contains 0 = false ∧ (g.current = some 0 → g.halted = false ∧ g.seq.halt = false)) :=
    by decide +kernel
theorem witness_EncodeComplete_moves :
    ((((doneS fedR (doneEnc [])).half .east).enc.getD 7 { : EngineSt }).current = some 0) ∧
    (((doneS fedR (doneEnc [])).half .east).obj.encode? 0 = some (doneEnc [])) ∧ ((doneEnc []).index = 0) ∧
    ((doneEnc []).plan = some donePlan) ∧
    (∀ (g : EngineSt), g ∈ ((doneS fedR (doneEnc [])).half .east).enc → g.suspended.contains 0 = false ∧ (g.current = some 0 → g.halted = false ∧ g.seq.halt = false)) ∧
    (hType (esSource (((doneS fedR (doneEnc [])).half .east).record (encodeH .east 0))) ≠ 8) :=
    by decide +kernel

/-- A port record with IPv4 and IPv6 addresses that answers echo, and one without router. -/
def portR : Record := recd 1 port0 80 [(16, 1, 1), (18, 1, 0xB), (19, 1, 24), (28, 4, 0x0200000A), (32, 4, 0x0100000A), (38, 1, 64), (40, 16, 5)]
def portRec0 (r : Record) (p : PortSt) : State := busyWith (fun x => { withRunning (r :: records0) x with net := x.net.set 0 p })
def portS (p : PortSt) : State := portRec0 portR p
def upPort : PortSt := { link := .up }
def downPort : PortSt := { link := .down }
def adapting : PortSt := { link := .adapting, since := 500000000, signal := true }
def adapting2 : PortSt := { adapting with attempts := 2 }
def retrying : PortSt := { adapting with retryAt := some 1000000000 }
def arp0 (request : Bool) (target : Nat) : ArpFrame := { request := request, senderIp := 0x0100000A, senderMac := 7, targetIp := target }
def nd0 (solicitation : Bool) (target : Nat) : NdFrame := { solicitation := solicitation, target := target, senderMac := 7 }
def dadPort : PortSt := { link := .up, v6ReadyAt := some 1000000000 }
def routed : Record := recd 1 port0 80 [(16, 1, 1), (18, 1, 2), (38, 1, 64), (40, 16, 5), (56, 16, 0x90000)]
def query0 : MulticastQuery := { v6 := false, group := 0, oldVersion := true }
def ptpS (q : PtpSt) (p : PortSt) : State := busyWith (fun x => { x with ptp := q, net := x.net.set 0 p })
def slaved : PtpSt := { slavePort := some port0 }
def awaits : PtpSt := { slaved with awaitFollowUp := true }
def measured : PtpSt := { slaved with t1 := some 1000, t2 := some 3000, t3 := some 4000 }
def hostPtp : State := assisted 6 ptp0 (fun x => { x with ptp := measured })
def masterPort : PortSt := { link := .up, ptp := .master }
def announce0 : Announce := { grandmaster := 9, priority1 := 128, clockClass := 6, priority2 := 128, utcOffset := 37 }
def announced : PortSt := { link := .up, announce := some announce0, announceAt := 0 }
def laterS (p : PortSt) : State := busyWith (fun x => { x with clk := { now := 3000000000 }, net := x.net.set 0 p })
def ppsS : State := busyWith (fun x => { withRunning [recd 0x11 ptp0 64 [(20, 1, 4)]] x with boot := { x.boot with board := { x.boot.board with ppsFitted := true } } })
def overdue : State := busyWith (fun x => { x with clk := { now := 3600000000000 }, ptp := { state := .holdover, holdoverSince := some 0 } })
/-- A flow that takes feedback and sends reports. -/
def flowR : Record := recd 2 flow0 96 [(16, 4, 0x01000000), (24, 4, 0x05000000), (32, 1, 4), (59, 1, 6), (66, 2, 1400)]
def flowS (f : FlowSt) : State := busyWith (fun x => { withRunning (flowR :: records0) x with obj := { x.obj with flows := [f] } })
def flowF : FlowSt := { index := 0, port := port0, ssrc := 1, nextSeq := 10, sentSeq := 9 }
def flowSeen : FlowSt := { flowF with firLast := [(3, 8)] }
def fb (fir : Bool) : Feedback := { fir := fir, mediaSsrc := 1, sender := 3, firSequence := 8 }
def report0 : ReceiverReport := { nack := false, fractionLost := 5, cumulativeLost := 6 }
def reporting : State := busyWith (fun x => { withRunning [recd 3 input0 80 [(74, 2, 2)]] x with obj := { x.obj with inputs := [{ index := 0 }] } })
def pkt0 : Packet := { seq := 10, wire := 1000, ready := 0, picture := 0, tick := 0, unitFirst := true, pictureLast := true }
def sends : FlowSt := { flowF with queue := [pkt0], bucket := { rate := 10000, burst := 3000, since := 1000000000 } }
def pacingS (f : FlowSt) : State := busyWith (fun x => { x with obj := { x.obj with flows := [f] } })
def candidate0 : Candidate := { flow := flow0, st := sends, packet := pkt0 }
def gate0_ : GateRun := { list := 0, entries := [(60000, 0x7F), (40000, 0xFF)], cycle := 100000, start := 0, windowEnd := 60000 }
def gatedPort : PortSt := { link := .up, gate := some gate0_ }
def nextPort : PortSt := { link := .up, nextGate := some gate0_ }
/-- An undercoat session of the west half on a port of the east. -/
def mirror0 : Mirror :=
  { picture := 0, firstMissingCtu := 0, open_ := false, ssrc := 1, nextSeq := 10, timestampOffset := 0, lastTick := 0, codec := 1, cols := 20, rows := 12
    anchor := 0, num := 0, den := 0, step := 1 }
def under0 : FlowSt := { flowF with path := .undercoat, mirror := some mirror0, copyOf := flowR }
def underS : State := busyWith (fun x => { x with obj := { x.obj with foreign := [under0] } })
def rx (s : State) : PortSt := (portRx 0 s.east).net.getD 0 {}

theorem witness_LinkEvents_signal :
    (((portS downPort).half .east).net[0]? = some downPort) ∧ (portEnabled .east ((portS downPort).half .east) 0 = true) :=
    by decide +kernel
theorem witness_LinkEvents_up :
    (((portS adapting).half .east).net[0]? = some adapting) ∧ (portEnabled .east ((portS adapting).half .east) 0 = true) ∧
    (adapting.link = LinkState.adapting) ∧ (adapting.retryAt = none) ∧
    (adapting.since + 10000000 ≤ ((portS adapting).half .east).clk.now) :=
    by decide +kernel
theorem witness_LinkEvents_down :
    (((portS upPort).half .east).net[0]? = some upPort) ∧ (((portS upPort).half .east).boot.inReset = false) ∧ (1 ≤ 1) ∧ (1 ≤ 4) ∧
    (upPort.link = LinkState.up) :=
    by decide +kernel
theorem witness_LinkEvents_lost :
    (((portS adapting).half .east).net[0]? = some adapting) ∧ (((portS adapting).half .east).boot.inReset = false) ∧ (1 ≤ 4) ∧ (4 ≤ 4) ∧
    (adapting.link = LinkState.adapting) ∧ (4 = 1 ∨ 4 = 4) :=
    by decide +kernel
theorem witness_LinkEvents_stays :
    (((portS adapting).half .east).net[0]? = some adapting) ∧ (((portS adapting).half .east).boot.inReset = false) ∧ (1 ≤ 2) ∧ (2 ≤ 4) ∧
    (adapting.link = LinkState.adapting) ∧ (2 = 2 ∨ 2 = 3) :=
    by decide +kernel
theorem witness_LinkEvents_again :
    (((portS adapting).half .east).net[0]? = some adapting) ∧ (((portS adapting).half .east).boot.inReset = false) ∧
    (adapting.link = LinkState.adapting) ∧ (adapting.retryAt = none) ∧
    (adapting.since + 500000000 ≤ ((portS adapting).half .east).clk.now) ∧ (adapting.attempts < 2) :=
    by decide +kernel
theorem witness_LinkEvents_failed :
    (((portS adapting2).half .east).net[0]? = some adapting2) ∧ (((portS adapting2).half .east).boot.inReset = false) ∧
    (adapting2.link = LinkState.adapting) ∧ (adapting2.retryAt = none) ∧
    (adapting2.since + 500000000 ≤ ((portS adapting2).half .east).clk.now) ∧ (2 ≤ adapting2.attempts) :=
    by decide +kernel
theorem witness_LinkEvents_retry :
    (((portS retrying).half .east).net[0]? = some retrying) ∧ (((portS retrying).half .east).boot.inReset = false) ∧
    (retrying.link = LinkState.adapting) ∧ (retrying.retryAt = some 1000000000) ∧ (1000000000 ≤ ((portS retrying).half .east).clk.now) :=
    by decide +kernel
theorem witness_AddressEvents_arpRequest :
    (portHears .east (portS upPort) 0 = true) ∧ (((portS upPort).half .east).alive = true) ∧
    (portV4 .east (((portS upPort).upd .east (portRx 0)).half .east) 0 = true) ∧ ((arp0 true 33554442).request = true) ∧
    ((arp0 true 33554442).targetIp = portIp .east (((portS upPort).upd .east (portRx 0)).half .east) 0) :=
    by decide +kernel
theorem witness_AddressEvents_arpReply :
    (portHears .east (portS upPort) 0 = true) ∧ (((portS upPort).half .east).alive = true) ∧
    (portV4 .east (((portS upPort).upd .east (portRx 0)).half .east) 0 = true) ∧
    ((arp0 false 33554442).request = false ∨ (arp0 false 33554442).targetIp ≠ portIp .east (((portS upPort).upd .east (portRx 0)).half .east) 0) :=
    by decide +kernel
theorem witness_AddressEvents_refresh :
    (portHears .east (portS upPort) 0 = true) ∧ (((portS upPort).half .east).alive = true) ∧
    (((portS upPort).half .east).net[0]? = some upPort) ∧ (upPort.nextResolve ≤ ((portS upPort).half .east).clk.now) :=
    by decide +kernel
theorem witness_AddressEvents_echo :
    (portHears .east (portS upPort) 0 = true) ∧ (((portS upPort).half .east).alive = true) ∧
    ((((portS upPort).upd .east (portRx 0)).half .east).net[0]? = some (rx (portS upPort))) ∧
    ((if true = true then portV6 .east (((portS upPort).upd .east (portRx 0)).half .east) 0 && v6Usable (rx (portS upPort)) else portV4 .east (((portS upPort).upd .east (portRx 0)).half .east) 0) = true) ∧
    ((rd (portRec .east (((portS upPort).upd .east (portRx 0)).half .east) 0) 18 1).testBit 3 = true) :=
    by decide +kernel
theorem witness_AddressEvents_echo4 :
    (portHears .east (portS upPort) 0 = true) ∧ (((portS upPort).half .east).alive = true) ∧
    ((((portS upPort).upd .east (portRx 0)).half .east).net[0]? = some (rx (portS upPort))) ∧
    ((if false = true then portV6 .east (((portS upPort).upd .east (portRx 0)).half .east) 0 && v6Usable (rx (portS upPort)) else portV4 .east (((portS upPort).upd .east (portRx 0)).half .east) 0) = true) ∧
    ((rd (portRec .east (((portS upPort).upd .east (portRx 0)).half .east) 0) 18 1).testBit 3 = true) :=
    by decide +kernel
theorem witness_AddressEvents_other :
    (portHears .east (portS upPort) 0 = true) ∧ (((portS upPort).half .east).alive = true) :=
    by decide +kernel
theorem witness_AddressEvents_pause :
    (portHears .east (portS upPort) 0 = true) ∧ (((portS upPort).half .east).alive = true) :=
    by decide +kernel
theorem witness_AddressEvents_conflict :
    (((portS dadPort).half .east).alive = true) ∧ (portHears .east (portS dadPort) 0 = true) ∧
    (portV6 .east (((portS dadPort).upd .east (portRx 0)).half .east) 0 = true) ∧
    ((((portS dadPort).upd .east (portRx 0)).half .east).net[0]? = some (rx (portS dadPort))) ∧ ((rx (portS dadPort)).v6ReadyAt ≠ none) ∧
    ((nd0 false 5).target = portIp6 .east (((portS dadPort).upd .east (portRx 0)).half .east) 0) ∧
    ((nd0 false 5).dad = true ∨ (nd0 false 5).solicitation = false) :=
    by decide +kernel
theorem witness_AddressEvents_solicited :
    (((portS upPort).half .east).alive = true) ∧ (portHears .east (portS upPort) 0 = true) ∧
    (portV6 .east (((portS upPort).upd .east (portRx 0)).half .east) 0 = true) ∧
    ((((portS upPort).upd .east (portRx 0)).half .east).net[0]? = some (rx (portS upPort))) ∧ ((rx (portS upPort)).v6ReadyAt = none) ∧
    ((rx (portS upPort)).conflict = false) ∧ ((nd0 true 5).solicitation = true) ∧
    ((nd0 true 5).target = portIp6 .east (((portS upPort).upd .east (portRx 0)).half .east) 0) :=
    by decide +kernel
theorem witness_AddressEvents_learned :
    (((portRec0 routed upPort).half .east).alive = true) ∧ (portHears .east (portRec0 routed upPort) 0 = true) ∧
    (portV6 .east (((portRec0 routed upPort).upd .east (portRx 0)).half .east) 0 = true) ∧
    ((((portRec0 routed upPort).upd .east (portRx 0)).half .east).net[0]? = some (rx (portRec0 routed upPort))) ∧
    ((nd0 false 589824).target ≠ portIp6 .east (((portRec0 routed upPort).upd .east (portRx 0)).half .east) 0) ∧
    ((nd0 false 589824).solicitation = false) ∧
    ((nd0 false 589824).target ∈ resolveTargets .east (((portRec0 routed upPort).upd .east (portRx 0)).half .east) 0 true) :=
    by decide +kernel
theorem witness_AddressEvents_dad :
    (((portS dadPort).half .east).alive = true) ∧ (((portS dadPort).half .east).net[0]? = some dadPort) ∧
    (dadPort.v6ReadyAt = some 1000000000) ∧ (1000000000 ≤ ((portS dadPort).half .east).clk.now) :=
    by decide +kernel
theorem witness_AddressEvents_router :
    (((portS upPort).half .east).alive = true) ∧ (portHears .east (portS upPort) 0 = true) ∧
    (portV6 .east (((portS upPort).upd .east (portRx 0)).half .east) 0 = true) ∧
    (rd (portRec .east (((portS upPort).upd .east (portRx 0)).half .east) 0) 56 16 = 0) :=
    by decide +kernel
theorem witness_AddressEvents_query :
    (((portS upPort).half .east).alive = true) ∧ (portHears .east (portS upPort) 0 = true) ∧
    ((if query0.v6 = true then portV6 .east (((portS upPort).upd .east (portRx 0)).half .east) 0 else portV4 .east (((portS upPort).upd .east (portRx 0)).half .east) 0) = true) :=
    by decide +kernel
theorem witness_PtpEvents_sync :
    (portHears .east (ptpS slaved upPort) 0 = true) ∧ (.east = ptpHome (ptpS slaved upPort) .east) ∧
    (((ptpS slaved upPort).half .east).alive = true) ∧
    ((((ptpS slaved upPort).upd .east (portRx 0)).half .east).ptp.slavePort = some (portH .east 0)) ∧
    ((((ptpS slaved upPort).upd .east (portRx 0)).half .east).ptp.nextSlave = none) :=
    by decide +kernel
theorem witness_PtpEvents_twoStep :
    (portHears .east (ptpS slaved upPort) 0 = true) ∧ (.east = ptpHome (ptpS slaved upPort) .east) ∧
    (((ptpS slaved upPort).half .east).alive = true) ∧
    ((((ptpS slaved upPort).upd .east (portRx 0)).half .east).ptp.slavePort = some (portH .east 0)) ∧
    ((((ptpS slaved upPort).upd .east (portRx 0)).half .east).ptp.nextSlave = none) :=
    by decide +kernel
theorem witness_PtpEvents_followUp :
    (portHears .east (ptpS awaits upPort) 0 = true) ∧ (.east = ptpHome (ptpS awaits upPort) .east) ∧
    (((ptpS awaits upPort).half .east).alive = true) ∧
    ((((ptpS awaits upPort).upd .east (portRx 0)).half .east).ptp.slavePort = some (portH .east 0)) ∧
    ((((ptpS awaits upPort).upd .east (portRx 0)).half .east).ptp.awaitFollowUp = true) :=
    by decide +kernel
theorem witness_PtpEvents_servo :
    (portHears .east (ptpS measured upPort) 0 = true) ∧ (.east = ptpHome (ptpS measured upPort) .east) ∧
    (((ptpS measured upPort).half .east).alive = true) ∧
    ((((ptpS measured upPort).upd .east (portRx 0)).half .east).ptp.slavePort = some (portH .east 0)) ∧
    ((((ptpS measured upPort).upd .east (portRx 0)).half .east).ptp.t1 = some 1000) ∧
    ((((ptpS measured upPort).upd .east (portRx 0)).half .east).ptp.t2 = some 3000) ∧
    ((((ptpS measured upPort).upd .east (portRx 0)).half .east).ptp.t3 = some 4000) ∧
    (modeHost ((((ptpS measured upPort).upd .east (portRx 0)).upd .east (updPtp fun q => { state := q.state, slavePort := q.slavePort, nextSlave := q.nextSlave, delayKnown := true, lastDelayReq := q.lastDelayReq, grandmaster := q.grandmaster, t1 := q.t1, t2 := q.t2, awaitFollowUp := q.awaitFollowUp, offset := ↑3000 - ↑1000 - (↑3000 - ↑1000 + (↑5000 - ↑4000)) / 2, delay := (↑3000 - ↑1000 + (↑5000 - ↑4000)) / 2, inside := q.inside, everLocked := q.everLocked, steps := q.steps, holdoverSince := q.holdoverSince, holdoverRaised := q.holdoverRaised, utcOffset := q.utcOffset, lastPps := q.lastPps, answered := q.answered, deadline := q.deadline : PtpSt })).half .east) fnPtp (ptpH .east) = false) :=
    by decide +kernel
theorem witness_PtpEvents_host :
    (portHears .east hostPtp 0 = true) ∧ (.east = ptpHome hostPtp .east) ∧ ((hostPtp.half .east).alive = true) ∧
    (((hostPtp.upd .east (portRx 0)).half .east).ptp.slavePort = some (portH .east 0)) ∧
    (((hostPtp.upd .east (portRx 0)).half .east).ptp.t1 = some 1000) ∧ (((hostPtp.upd .east (portRx 0)).half .east).ptp.t2 = some 3000) ∧
    (((hostPtp.upd .east (portRx 0)).half .east).ptp.t3 = some 4000) ∧
    (modeHost (((hostPtp.upd .east (portRx 0)).upd .east (updPtp fun q => { state := q.state, slavePort := q.slavePort, nextSlave := q.nextSlave, delayKnown := true, lastDelayReq := q.lastDelayReq, grandmaster := q.grandmaster, t1 := q.t1, t2 := q.t2, awaitFollowUp := q.awaitFollowUp, offset := ↑3000 - ↑1000 - (↑3000 - ↑1000 + (↑5000 - ↑4000)) / 2, delay := (↑3000 - ↑1000 + (↑5000 - ↑4000)) / 2, inside := q.inside, everLocked := q.everLocked, steps := q.steps, holdoverSince := q.holdoverSince, holdoverRaised := q.holdoverRaised, utcOffset := q.utcOffset, lastPps := q.lastPps, answered := q.answered, deadline := q.deadline : PtpSt })).half .east) fnPtp (ptpH .east) = true) :=
    by decide +kernel
theorem witness_PtpEvents_delayReq :
    (.east = ptpHome (ptpS { : PtpSt } masterPort) .east) ∧ (((ptpS { : PtpSt } masterPort).half .east).net[0]? = some masterPort) ∧
    (portHears .east (ptpS { : PtpSt } masterPort) 0 = true) ∧ (masterPort.ptp = PtpPort.master) :=
    by decide +kernel
theorem witness_PtpEvents_announce :
    (.east = ptpHome (ptpS { : PtpSt } upPort) .east) ∧ (((ptpS { : PtpSt } upPort).half .east).net[0]? = some upPort) ∧
    (portHears .east (ptpS { : PtpSt } upPort) 0 = true) ∧ (((ptpS { : PtpSt } upPort).half .east).alive = true) ∧
    (portH .east 0 ∈ ptpPorts (ptpS { : PtpSt } upPort) .east) :=
    by decide +kernel
theorem witness_PtpEvents_timeout :
    (.east = ptpHome (laterS announced) .east) ∧ (((laterS announced).half .east).net[0]? = some announced) ∧
    (((laterS announced).half .east).alive = true) ∧ (announced.announce ≠ none) ∧
    (announced.announceAt + ptpField (laterS announced) .east 25 1 3 * logInterval (ptpField (laterS announced) .east 23 1 1) ≤ ((laterS announced).half .east).clk.now) :=
    by decide +kernel
theorem witness_PtpEvents_announces :
    (.east = ptpHome (ptpS { : PtpSt } masterPort) .east) ∧ (((ptpS { : PtpSt } masterPort).half .east).net[0]? = some masterPort) ∧
    (portHears .east (ptpS { : PtpSt } masterPort) 0 = true) ∧ (masterPort.ptp = PtpPort.master) ∧
    (masterPort.announceSentAt = 0 ∨ masterPort.announceSentAt + logInterval (ptpField (ptpS { : PtpSt } masterPort) .east 23 1 1) ≤ ((ptpS { : PtpSt } masterPort).half .east).clk.now) :=
    by decide +kernel
theorem witness_PtpEvents_syncs :
    (.east = ptpHome (ptpS { : PtpSt } masterPort) .east) ∧ (((ptpS { : PtpSt } masterPort).half .east).net[0]? = some masterPort) ∧
    (portHears .east (ptpS { : PtpSt } masterPort) 0 = true) ∧ (masterPort.ptp = PtpPort.master) ∧
    (masterPort.syncSentAt = 0 ∨ masterPort.syncSentAt + logInterval (ptpField (ptpS { : PtpSt } masterPort) .east 22 1 0) ≤ ((ptpS { : PtpSt } masterPort).half .east).clk.now) :=
    by decide +kernel
theorem witness_PtpEvents_pps :
    (.east = ptpHome ppsS .east) ∧ ((ppsS.half .east).net[0]? = some upPort) ∧ ((ppsS.half .east).alive = true) ∧
    ((ptpFlags ppsS .east).testBit 2 = true) ∧ ((ppsS.half .east).boot.board.ppsFitted = true) :=
    by decide +kernel
theorem witness_PtpEvents_expired :
    (.east = ptpHome overdue .east) ∧ ((overdue.half .east).net[0]? = some upPort) ∧ ((overdue.half .east).ptp.holdoverSince = some 0) ∧
    ((overdue.half .east).ptp.state = PtpState.holdover) ∧ ((overdue.half .east).ptp.holdoverRaised = false) ∧
    (0 + ptpHoldover overdue .east * 1000000000 ≤ (overdue.half .east).clk.now) :=
    by decide +kernel
theorem witness_RtcpEvents_sender :
    (busy.half .east).alive = true :=
    by decide +kernel
theorem witness_RtcpEvents_pli :
    (((flowS flowF).half .east).alive = true) ∧ (((flowS flowF).half .east).obj.flow? 0 = some flowF) ∧
    (flFlag (((flowS flowF).half .east).record (flowH .east 0)) 2 = true) ∧ ((fb false).mediaSsrc = flowF.ssrc) ∧
    ((fb false).fir = false) :=
    by decide +kernel
theorem witness_RtcpEvents_fir :
    (((flowS flowF).half .east).alive = true) ∧ (((flowS flowF).half .east).obj.flow? 0 = some flowF) ∧
    (flFlag (((flowS flowF).half .east).record (flowH .east 0)) 2 = true) ∧ ((fb true).mediaSsrc = flowF.ssrc) ∧ ((fb true).fir = true) ∧
    (∀ (q : W32 × Nat), q ∈ flowF.firLast → q ≠ ((fb true).sender, (fb true).firSequence)) :=
    by decide +kernel
theorem witness_RtcpEvents_firAgain :
    (((flowS flowSeen).half .east).alive = true) ∧ (((flowS flowSeen).half .east).obj.flow? 0 = some flowSeen) ∧
    (flFlag (((flowS flowSeen).half .east).record (flowH .east 0)) 2 = true) ∧ ((fb true).mediaSsrc = flowSeen.ssrc) ∧
    ((fb true).fir = true) ∧ (((fb true).sender, (fb true).firSequence) ∈ flowSeen.firLast) :=
    by decide +kernel
theorem witness_RtcpEvents_receiver :
    (((flowS flowF).half .east).alive = true) ∧ (flFlag (((flowS flowF).half .east).record (flowH .east 0)) 2 = true) :=
    by decide +kernel
theorem witness_RtcpEvents_reports :
    (((flowS flowF).half .east).alive = true) ∧ (((flowS flowF).half .east).obj.flow? 0 = some flowF) ∧
    (flFlag (((flowS flowF).half .east).record (flowH .east 0)) 1 = true) ∧ (flowF.path ≠ FlowPath.standby) ∧
    (flowF.path ≠ FlowPath.stopped) ∧ (flowF.path ≠ FlowPath.stranded) ∧ (flowF.nextReport ≤ ((flowS flowF).half .east).clk.now) :=
    by decide +kernel
theorem witness_RtcpEvents_inputReports :
    ((reporting.half .east).alive = true) ∧ ((reporting.half .east).obj.input? 0 = some { index := 0 : InputSt }) ∧
    ((rd ((reporting.half .east).record (inputH .east 0)) 74 2).testBit 1 = true) ∧
    ({ index := 0 : InputSt }.nextReport ≤ (reporting.half .east).clk.now) :=
    by decide +kernel
theorem witness_PacingEvents_sends :
    (((pacingS sends).half .east).net[0]? = some upPort) ∧ (((pacingS sends).half .east).boot.inReset = false) ∧
    (((pacingS sends).half .east).env.running ≠ none) ∧ (changeDue ((pacingS sends).half .east) = false) ∧
    (((pacingS sends).half .east).bri.tetherStopped = false) ∧ (((pacingS sends).half .east).bri.mediaStopped = false) ∧
    (upPort.link = LinkState.up) ∧ (upPort.flags.retired = false) ∧ (islandOn ((pacingS sends).half .east) (28 + 0) = true) ∧
    (upPort.busyUntil < 100 * ((pacingS sends).half .east).clk.now + 100) ∧
    (pickPacket (List.filter (fun c => gateHolds 20 upPort c.st.cls ((pacingS sends).half .east).clk.now (lineTime upPort ((pacingS sends).half .east).clk.now + c.packet.wire * byteTime .east ((pacingS sends).half .east) 0)) (List.filter (fun c => (gateMask upPort ((pacingS sends).half .east).clk.now).testBit c.st.cls) (List.filter (mayLeave (pacingS sends) .east 0) (portHeads .east ((pacingS sends).half .east) (portH .east 0))))) = some candidate0) :=
    by decide +kernel
theorem witness_PacingEvents_none :
    (((pacingS flowF).half .east).net[0]? = some upPort) ∧ (((pacingS flowF).half .east).boot.inReset = false) ∧
    (((pacingS flowF).half .east).env.running ≠ none) ∧ (changeDue ((pacingS flowF).half .east) = false) ∧
    (((pacingS flowF).half .east).bri.tetherStopped = false) ∧ (((pacingS flowF).half .east).bri.mediaStopped = false) ∧
    (upPort.link = LinkState.up) ∧ (upPort.flags.retired = false) ∧ (islandOn ((pacingS flowF).half .east) (28 + 0) = true) ∧
    (upPort.busyUntil < 100 * ((pacingS flowF).half .east).clk.now + 100) ∧
    (pickPacket (List.filter (fun c => gateHolds 20 upPort c.st.cls ((pacingS flowF).half .east).clk.now (lineTime upPort ((pacingS flowF).half .east).clk.now + c.packet.wire * byteTime .east ((pacingS flowF).half .east) 0)) (List.filter (fun c => (gateMask upPort ((pacingS flowF).half .east).clk.now).testBit c.st.cls) (List.filter (mayLeave (pacingS flowF) .east 0) (portHeads .east ((pacingS flowF).half .east) (portH .east 0))))) = none) :=
    by decide +kernel
theorem witness_PacingEvents_window :
    (((portS gatedPort).half .east).net[0]? = some gatedPort) ∧ (gatedPort.gate = some gate0_) ∧
    (gate0_.windowEnd ≤ ((portS gatedPort).half .east).clk.now) :=
    by decide +kernel
theorem witness_PacingEvents_list :
    (((portS nextPort).half .east).net[0]? = some nextPort) ∧ (nextPort.nextGate = some gate0_) ∧
    (gate0_.start ≤ ((portS nextPort).half .east).clk.now) ∧ (((portS nextPort).half .east).boot.inReset = false) :=
    by decide +kernel
theorem witness_PacingEvents_undercoat :
    ((underS.half .east).net[0]? = some upPort) ∧ (flowAt .east (underS.half .east) 41943040 = some under0) ∧
    (flowMirror .east (underS.half .east) 41943040 under0 = some mirror0) ∧ (under0.path = FlowPath.undercoat) ∧
    (nextPictureTick mirror0 (underS.half .east).clk.now ≤ (underS.half .east).clk.now) ∧
    (removedAt (underS.half .east) 41943040 (nextPictureTick mirror0 (underS.half .east).clk.now) = false) ∧
    ((underS.half .east).boot.inReset = false) ∧ ((underS.half .east).env.running ≠ none) ∧
    ((underS.half .east).bri.tetherStopped = false) :=
    by decide +kernel

def briS (b : BridleSt) : State := busyWith (fun x => { x with bri := b })
def linked : BridleSt := { lead := true, sparUp := true }
def follows : BridleSt := { sparUp := true }
/-- The link is down but works again on the pins. -/
def downS : State := { duo with east := { up with clk := { now := 1000000000 }, bri := { lead := true } }, west := { up with clk := { now := 1000000000 } } }
def heldOff : BridleSt := { holdoff := true, downSince := 999997000 }
def seen : BridleSt := { follows with partnerSeen := true }
def absentB : BridleSt := { follows with tetherRun := true }
def lateS (b : BridleSt) : State := busyWith (fun x => { x with clk := { now := 2000000000 }, bri := b })
def tetherBoth : State := { duo with west := { duo.west with bri := { sparUp := true, tetherRun := true } } }
def sentStop : BridleSt := { linked with takeoverSent := some 999998000 }
def flowN : Handle := 0x02000000
def standby0 : FlowSt := { index := 0, path := .standby, port := 0, ssrc := 1, nextSeq := 10, sentSeq := 9 }
def westFlow : Handle := 0x02800000
def announce1 : UnitAnnouncement := { flow := westFlow, firstSeq := 10, lastSeq := 12, firstCtu := 0, lastCtu := 239, picture := 0 }
def mirror1 : Mirror :=
  { picture := 0, firstMissingCtu := 0, open_ := false, ssrc := 1, nextSeq := 10, timestampOffset := 0, lastTick := 0, codec := 1, cols := 20, rows := 12
    anchor := 0, num := 50000000, den := 3, step := 1 }
def pktA : Packet := { seq := 10, wire := 1000, ready := 0, picture := 0, tick := 0, unitFirst := true, pictureLast := true, held := true }
def pktB : Packet := { pktA with held := false }
def standbyS : State := busyWith (fun x => { x with obj := { x.obj with flows := [standby0] } })
/-- A flow of the west half, announced and standing by in the east. -/
def westHolds : FlowSt := { index := 0, port := 0x01800000, ssrc := 1, nextSeq := 11, sentSeq := 9, queue := [pktA] }
def copyS : State :=
  { busyWith (fun x => { x with obj := { x.obj with foreign := [standby0] } }) with
    west := { duo.west with obj := { duo.west.obj with flows := [westHolds] } } }
/-- A guarded flow of the east half with its twin in the west. -/
def twinR2 : Record := recd 2 flow0 96 [(16, 4, 0x01000000), (24, 4, 0x05000000), (32, 1, 4), (66, 2, 1400), (28, 4, 0x02800000)]
def twinF : FlowSt := { index := 0, port := port0, ssrc := 1, nextSeq := 10, sentSeq := 9, copyFrom := .east }
def twinS : State :=
  { busyWith (fun x => { withRunning (twinR2 :: records0) x with obj := { x.obj with flows := [twinF] } }) with
    west := { duo.west with obj := { duo.west.obj with flows := [westHolds] } } }

theorem witness_PartnerEvents_stays :
    ((duo.half .east).boot.inReset = false) ∧ ((duo.half .east).bri.sparUp = true) ∧
    (laneFails (List.foldl laneSees (duo.half .east) [LaneEvent.idle 0]) = none) :=
    by decide +kernel
theorem witness_PartnerEvents_crc :
    ((duo.half .east).boot.inReset = false) ∧ ((duo.half .east).bri.sparUp = true) ∧
    (laneFails (List.foldl laneSees (duo.half .east) (List.replicate 8 LaneEvent.crcFailed)) = some 1) :=
    by decide +kernel
theorem witness_PartnerEvents_unacked :
    ((duo.half .east).boot.inReset = false) ∧ ((duo.half .east).bri.sparUp = true) ∧
    (laneFails (List.foldl laneSees (duo.half .east) [LaneEvent.idle 0, LaneEvent.sent 2000]) = some 2) :=
    by decide +kernel
theorem witness_PartnerEvents_idle :
    ((duo.half .east).boot.inReset = false) ∧ ((duo.half .east).bri.sparUp = true) ∧
    (laneFails (List.foldl laneSees (duo.half .east) []) = some 3) :=
    by decide +kernel
theorem witness_PartnerEvents_up :
    ((downS.half .east).boot.inReset = false) ∧ ((downS.half .east).bri.sparUp = false) ∧ (downS.sparPhys = true) ∧
    ((downS.half .east).boot.stage = 7) :=
    by decide +kernel
theorem witness_PartnerEvents_holdoff :
    (((briS heldOff).half .east).alive = true) ∧ (((briS heldOff).half .east).bri.sparUp = false) ∧
    (((briS heldOff).half .east).bri.holdoff = true) ∧
    (((briS heldOff).half .east).bri.downSince + 3000 ≤ ((briS heldOff).half .east).clk.now) ∧
    (((briS heldOff).half .east).bri.partnerLost = false) ∧ (((briS heldOff).half .east).bri.tetherStopped = false) :=
    by decide +kernel
theorem witness_PartnerEvents_lost :
    (((briS seen).half .east).alive = true) ∧ (((briS seen).half .east).bri.partnerSeen = true) ∧
    (((briS seen).half .east).bri.partnerLost = false) ∧ (((briS seen).half .east).bri.partnerStopped = false) ∧
    (((briS seen).half .east).bri.tetherStopped = false) :=
    by decide +kernel
theorem witness_PartnerEvents_absent :
    (((lateS absentB).half .east).alive = true) ∧ (((lateS absentB).half .east).bri.tetherRun = true) ∧
    (((lateS absentB).half .east).bri.partnerSeen = false) ∧ (((lateS absentB).half .east).bri.partnerAbsent = false) ∧
    (((lateS absentB).half .east).bri.tetherStart + 2000000000 ≤ ((lateS absentB).half .east).clk.now) :=
    by decide +kernel
theorem witness_PartnerEvents_alive :
    ((tetherBoth.half .east).alive = true) ∧ ((tetherBoth.half .east).boot.inReset = false) ∧
    ((tetherBoth.half HalfId.east.other).bri.tetherRun = true) ∧
    ((tetherBoth.half .east).bri.partnerSeen = false ∨ (tetherBoth.half .east).bri.partnerLost = true) :=
    by decide +kernel
theorem witness_PartnerEvents_halfStopped :
    ((duo.half .east).alive = true) ∧ (duo.sparWorks = true) ∧ ((duo.half .east).bri.partnerStopped = false) ∧
    ((duo.half .east).bri.tetherStopped = false) :=
    by decide +kernel
theorem witness_PartnerEvents_takeover :
    ((duo.half .east).alive = true) ∧ ((duo.half .east).boot.inReset = false) ∧ (duo.sparWorks = true) ∧
    ((duo.half .east).bri.tetherStopped = false) :=
    by decide +kernel
theorem witness_PartnerEvents_stopAck :
    (((briS sentStop).half .east).alive = true) ∧ ((briS sentStop).sparWorks = true) ∧
    (((briS sentStop).half .east).bri.takeoverSent ≠ none) :=
    by decide +kernel
theorem witness_PartnerEvents_noAnswer :
    (((briS sentStop).half .east).alive = true) ∧ (((briS sentStop).half .east).bri.takeoverSent = some 999998000) ∧
    (999998000 + 2000 ≤ ((briS sentStop).half .east).clk.now) :=
    by decide +kernel
theorem witness_SparMessages_epoch :
    ((duo.half .east).boot.inReset = false) ∧ ((duo.half .east).bri.sparUp = true) :=
    by decide +kernel
theorem witness_SparMessages_claim :
    ((duo.half .west).boot.inReset = false) ∧ ((duo.half .west).bri.sparUp = true) ∧ ((duo.half .west).bri.lead = false) :=
    by decide +kernel
theorem witness_SparMessages_conflict :
    ((duo.half .east).boot.inReset = false) ∧ ((duo.half .east).bri.sparUp = true) ∧ ((duo.half .east).bri.lead = true) :=
    by decide +kernel
theorem witness_SparMessages_sequence :
    ((standbyS.half .east).boot.inReset = false) ∧ (standbyS.sparWorks = true) :=
    by decide +kernel
theorem witness_SparMessages_announcement :
    ((duo.half .east).boot.inReset = false) ∧ (duo.sparWorks = true) ∧ (hHalf announce1.flow ≠ .east) :=
    by decide +kernel
theorem witness_SparMessages_ack :
    ((busy.half .east).boot.inReset = false) ∧ (hHalf flowN = .east) :=
    by decide +kernel
theorem witness_SparMessages_mirror :
    ((duo.half .east).boot.inReset = false) ∧ (duo.sparWorks = true) ∧ (hHalf westFlow ≠ .east) :=
    by decide +kernel
theorem witness_SparMessages_copyFar :
    ((copyS.half .east).boot.inReset = false) ∧ (copyS.sparWorks = true) ∧ (hHalf westFlow ≠ .east) ∧
    (flowAt .east (copyS.half .east) westFlow = some standby0) ∧
    (flowAt HalfId.east.other (copyS.half HalfId.east.other) westFlow = some westHolds) ∧
    (List.find? (fun q => q.seq == 10) westHolds.queue = some pktA) :=
    by decide +kernel
theorem witness_SparMessages_copyFarMissed :
    ((copyS.half .east).boot.inReset = false) ∧ (copyS.sparWorks = true) ∧ (hHalf westFlow ≠ .east) ∧
    (flowAt .east (copyS.half .east) westFlow = some standby0) ∧
    (flowAt HalfId.east.other (copyS.half HalfId.east.other) westFlow = some westHolds) ∧
    (List.find? (fun q => q.seq == 10) westHolds.queue = some pktA) :=
    by decide +kernel
theorem witness_SparMessages_copyMissed :
    ((twinS.half .east).boot.inReset = false) ∧ (twinS.sparWorks = true) ∧ (hHalf flow0 = .east) ∧
    (flowAt .east (twinS.half .east) flow0 = some twinF) ∧
    (flowAt HalfId.east.other (twinS.half HalfId.east.other) (flPartner ((twinS.half .east).record flow0)) = some westHolds) ∧
    (List.find? (fun q => q.seq == 10) westHolds.queue = some pktA) :=
    by decide +kernel
theorem witness_SparMessages_copyHere :
    ((twinS.half .east).boot.inReset = false) ∧ (twinS.sparWorks = true) ∧ (hHalf flow0 = .east) ∧
    (flowAt .east (twinS.half .east) flow0 = some twinF) ∧
    (flowAt HalfId.east.other (twinS.half HalfId.east.other) (flPartner ((twinS.half .east).record flow0)) = some westHolds) ∧
    (List.find? (fun q => q.seq == 10) westHolds.queue = some pktA) :=
    by decide +kernel
theorem witness_SparMessages_refresh :
    ((busy.half .east).alive = true) ∧ (busy.sparWorks = true) :=
    by decide +kernel
theorem witness_SparMessages_feedback :
    ((busy.half .east).alive = true) ∧ (busy.sparWorks = true) :=
    by decide +kernel
theorem witness_SparMessages_rate :
    ((busy.half .east).alive = true) ∧ (busy.sparWorks = true) :=
    by decide +kernel
theorem witness_SparMessages_run :
    ((busy.half .east).alive = true) ∧ (busy.sparWorks = true) :=
    by decide +kernel
theorem witness_SparMessages_cue :
    ((busy.half .east).alive = true) ∧ (busy.sparWorks = true) :=
    by decide +kernel
theorem witness_SparMessages_cancel :
    ((busy.half .east).alive = true) ∧ (busy.sparWorks = true) :=
    by decide +kernel

def txn0 : ScrimTxn := { channel := 0, req := { port := 1, write := false, address := 64 }, route := [1] }
def scrimS : State := busyWith (fun x => { x with fabric := { scrim := [txn0] } })
def crossS (f : FifoSt) : State := busyWith (fun x => { x with fabric := { fifos := [f] } })
def haltedCross : FifoSt := { producer := 7, consumer := 30, halted := true }
def openCross : FifoSt := { producer := 7, consumer := 30, reserved := some [] }
def freeCross : FifoSt := { producer := 7, consumer := 30 }
def latch5 : Latch := { source := 5, time := 0 }
def decides : State := busyWith (fun x => { x with flt := { x.flt with decisions := [latch5] } })
/-- Encode engine 7 with a picture, as the clauses on its sequencer need it. -/
def unitS (e : EncodeSt) (r : List Record) (g : EngineSt) : State :=
  busyWith (fun x => { withRunning (r ++ records0) x with obj := { x.obj with encodes := e :: x.obj.encodes.drop 1 }, enc := x.enc.set 7 g })
def runs7 : EngineSt := { current := some 0 }
def retires7 : EngineSt := { runs7 with toRetire := 1 }
def coded7 : EncodeSt := { index := 0, engines := [7] }
/-- A tier 1 stream 1 whose picture waits for the engine of stream 0. -/
def urgentR : Record := recd 5 0x05000001 96 [(16, 1, 1), (20, 2, 64), (22, 2, 64), (62, 2, 2)]
def urgentE : EncodeSt := { index := 1, engines := [7], ready := [{ tickTime := 0 }] }
def suspendS : State :=
  busyWith (fun x => { withRunning (urgentR :: records0) x with obj := { x.obj with encodes := [coded7, urgentE] }, enc := x.enc.set 7 runs7 })
def goodWord : BitVec 152 := withParity 0
def badWord : BitVec 152 := withParity 0 ^^^ 1
def stored (w : BitVec 152) : EngineSt := { runs7 with seq := { store := [(0, w)] } }
def rec8 : TraceRec := { time := 1000000000, address := 0, next := 0, code := wordOp badWord, flags := 8, ctu := 0 }
def reloading : EngineSt := { seq := { reloadSince := some 5 } }
def signed0 : SignedItem :=
  { block := le 4 0x47535244 ++ le 4 0 ++ List.replicate 64 7 ++ List.replicate 31 0 ++ [1] ++ List.replicate 31 0 ++ [1] ++ List.replicate 8 0, verifies := true }
def keyed (x : Half) : Half :=
  { x with boot := { x.boot with fuses := { x.boot.fuses with keyHash := [digestVal (sha256 (List.replicate 64 7)), 0, 0, 0] } }, dram := { x.dram with reserve := some (0, 0) } }
def reloadS : State := busyWith (fun x => keyed { x with enc := x.enc.set 7 reloading })
def badItem : SignedItem := {}
def chS (f : ChannelSt → ChannelSt) : State := busyWith (fun x => { x with dch := x.dch.modify 0 f, pwr := x.pwr })
def ch0 : ChannelSt := { flags := {}, train := { trained := true } }
def req0 : DramReq := { port := 1, write := false, address := 64 }
def queued0 : QueuedReq := { req := req0, arrival := 1000000000 }
def chQ : ChannelSt := { ch0 with queue := [queued0] }
def chWith (c : ChannelSt) : State := busyWith (fun x => { x with dch := x.dch.set 0 c })
def chScrub (c : ChannelSt) : State := busyWith (fun x => { x with dch := x.dch.set 0 c, dram := { x.dram with valid := [0] } })
def scrubbed : ChannelSt := { ch0 with scrub := { position := 1, done := 1 } }
def chTrain (t : TrainSt) : ChannelSt := { ch0 with train := t }
def train0 : TrainSt := { trained := true }
def soon : TrainSt := { trained := true, last := 1000000000, repeatAt := some 1000000000 }
def retrains : TrainSt := { trained := true, retraining := true }
def retrains3 : TrainSt := { trained := true, retraining := true, fails := 3 }
def chanH0 : Handle := 0x1000FF00
def hostTrain (t : TrainSt) : State :=
  busyWith (fun x => { withRunning (records0 ++ [recd 0x0F 0x0F000000 24 [(16, 1, 7), (17, 1, 1), (20, 4, 0x1000FF00)]]) x with dch := x.dch.set 0 (chTrain t) })
def sweep0 : LaneSweep := { passing := [false] ++ List.replicate 15 true ++ [false] }
def sweepBad : LaneSweep := { passing := [] }
def asked0 : TrainSt := { trained := true, asked := some (0, 1000000000) }
def evac0 : EvacSt := { left := [(0, 0, 0)], copying := true }
def chEvac : ChannelSt := { ch0 with evac := some evac0 }
def reserveS : State := busyWith (fun x => { x with dram := { x.dram with reserve := some (0, 0), reserveMove := some (1, 0, 5, true) } })
def noItem : Option SignedItem := none

theorem witness_FaultEvents_checker :
    (15 < 44 ∨ 48 ≤ 15) ∧ (pinChecker 15 = some 15) :=
    by decide +kernel
theorem witness_FaultEvents_latched :
    (50 < 44 ∨ 48 ≤ 50) ∧ (pinChecker 50 = none) :=
    by decide +kernel
theorem witness_FaultEvents_noFlit :
    ((pinRises .east 29 busy).half .east).fabric.scrim[0]? = none :=
    by decide +kernel
theorem witness_FaultEvents_flit :
    ((pinRises .east 29 scrimS).half .east).fabric.scrim[0]? = some txn0 :=
    by decide +kernel
theorem witness_FaultEvents_haltedCrossing :
    (((crossS haltedCross).half .east).boot.inReset = false) ∧ (haltedCross = crossingAt ((crossS haltedCross).half .east) 7 30) ∧
    (haltedCross.halted = true) :=
    by decide +kernel
theorem witness_FaultEvents_misuse :
    (((crossS openCross).half .east).boot.inReset = false) ∧ (openCross = crossingAt ((crossS openCross).half .east) 7 30) ∧
    (openCross.halted = false) ∧ (crossingBad openCross FifoOp.reserve = true) :=
    by decide +kernel
theorem witness_FaultEvents_reserves :
    (((crossS freeCross).half .east).boot.inReset = false) ∧ (freeCross = crossingAt ((crossS freeCross).half .east) 7 30) ∧
    (freeCross.halted = false) ∧ (crossingBad freeCross FifoOp.reserve = false) :=
    by decide +kernel
theorem witness_FaultEvents_defaulted :
    (List.find? (fun d => d.source == 5) (decides.half .east).flt.decisions = some latch5) ∧ ((decides.half .east).alive = true) ∧
    (latch5.time + (reactionOf .east (decides.half .east) 5).decide_ * 1000000 ≤ (decides.half .east).clk.now) :=
    by decide +kernel
theorem witness_FaultEvents_watchdog :
    (busy.half .east).alive = true :=
    by decide +kernel
theorem witness_FaultEvents_retires :
    (blockSource 7 = some 7) ∧ (((unitS coded7 [] retires7).half .east).alive = true) ∧
    ((unitOf ((unitS coded7 [] retires7).half .east) 7).current = some 0) ∧
    ((unitOf ((unitS coded7 [] retires7).half .east) 7).halted = false) ∧
    ((unitOf ((unitS coded7 [] retires7).half .east) 7).seq.halt = false) ∧
    ((unitOf ((unitS coded7 [] retires7).half .east) 7).toRetire ≠ 0) :=
    by decide +kernel
theorem witness_FaultEvents_suspends :
    (blockSource 7 = some 7) ∧ ((suspendS.half .east).alive = true) ∧ ((unitOf (suspendS.half .east) 7).current = some 0) ∧
    ((unitOf (suspendS.half .east) 7).halted = false) ∧ ((unitOf (suspendS.half .east) 7).seq.halt = false) ∧
    ((unitOf (suspendS.half .east) 7).toRetire = 0) ∧ (suspensionPending .east (suspendS.half .east) 7 0 = true) :=
    by decide +kernel
theorem witness_FaultEvents_goesOn :
    (blockSource 7 = some 7) ∧ (((unitS coded7 [] runs7).half .east).alive = true) ∧
    ((unitOf ((unitS coded7 [] runs7).half .east) 7).current = some 0) ∧ ((unitOf ((unitS coded7 [] runs7).half .east) 7).halted = false) ∧
    ((unitOf ((unitS coded7 [] runs7).half .east) 7).seq.halt = false) ∧ ((unitOf ((unitS coded7 [] runs7).half .east) 7).toRetire = 0) ∧
    (suspensionPending .east ((unitS coded7 [] runs7).half .east) 7 0 = false) :=
    by decide +kernel
theorem witness_FaultEvents_word :
    (blockSource 7 = some 7) ∧ (((unitS coded7 [] (stored goodWord)).half .east).alive = true) ∧
    ((unitOf ((unitS coded7 [] (stored goodWord)).half .east) 7).current = some 0) ∧
    ((unitOf ((unitS coded7 [] (stored goodWord)).half .east) 7).halted = false) ∧
    ((false && safePointActs .east ((unitS coded7 [] (stored goodWord)).half .east) 7) = false) ∧ (8 ≤ 7 → 7 < 14 → 0 ≤ 4) ∧
    (14 ≤ 7 ∨ armedMask (((unitS coded7 [] (stored goodWord)).upd .east (updUnit 7 fun g => { flags := g.flags, halted := g.halted, current := g.current, suspended := g.suspended, nextBulk := g.nextBulk, lost := g.lost, leaving := g.leaving, downAt := g.downAt, toRetire := g.toRetire, seq := storeFlip 7 g.seq.address 0 g.seq : EngineSt })).half .east) 7 = 0) ∧
    (badGroups (storeWord 7 (unitOf (((unitS coded7 [] (stored goodWord)).upd .east (updUnit 7 fun g => { flags := g.flags, halted := g.halted, current := g.current, suspended := g.suspended, nextBulk := g.nextBulk, lost := g.lost, leaving := g.leaving, downAt := g.downAt, toRetire := g.toRetire, seq := storeFlip 7 g.seq.address 0 g.seq : EngineSt })).half .east) 7).seq.address (unitOf (((unitS coded7 [] (stored goodWord)).upd .east (updUnit 7 fun g => { flags := g.flags, halted := g.halted, current := g.current, suspended := g.suspended, nextBulk := g.nextBulk, lost := g.lost, leaving := g.leaving, downAt := g.downAt, toRetire := g.toRetire, seq := storeFlip 7 g.seq.address 0 g.seq : EngineSt })).half .east) 7).seq) = 0) ∧
    (nextAddress 7 (unitOf (((unitS coded7 [] (stored goodWord)).upd .east (updUnit 7 fun g => { flags := g.flags, halted := g.halted, current := g.current, suspended := g.suspended, nextBulk := g.nextBulk, lost := g.lost, leaving := g.leaving, downAt := g.downAt, toRetire := g.toRetire, seq := storeFlip 7 g.seq.address 0 g.seq : EngineSt })).half .east) 7).seq (storeWord 7 (unitOf (((unitS coded7 [] (stored goodWord)).upd .east (updUnit 7 fun g => { flags := g.flags, halted := g.halted, current := g.current, suspended := g.suspended, nextBulk := g.nextBulk, lost := g.lost, leaving := g.leaving, downAt := g.downAt, toRetire := g.toRetire, seq := storeFlip 7 g.seq.address 0 g.seq : EngineSt })).half .east) 7).seq.address (unitOf (((unitS coded7 [] (stored goodWord)).upd .east (updUnit 7 fun g => { flags := g.flags, halted := g.halted, current := g.current, suspended := g.suspended, nextBulk := g.nextBulk, lost := g.lost, leaving := g.leaving, downAt := g.downAt, toRetire := g.toRetire, seq := storeFlip 7 g.seq.address 0 g.seq : EngineSt })).half .east) 7).seq) (conditionOf .east (((unitS coded7 [] (stored goodWord)).upd .east (updUnit 7 fun g => { flags := g.flags, halted := g.halted, current := g.current, suspended := g.suspended, nextBulk := g.nextBulk, lost := g.lost, leaving := g.leaving, downAt := g.downAt, toRetire := g.toRetire, seq := storeFlip 7 g.seq.address 0 g.seq : EngineSt })).half .east) 7 0 0 (storeWord 7 (unitOf (((unitS coded7 [] (stored goodWord)).upd .east (updUnit 7 fun g => { flags := g.flags, halted := g.halted, current := g.current, suspended := g.suspended, nextBulk := g.nextBulk, lost := g.lost, leaving := g.leaving, downAt := g.downAt, toRetire := g.toRetire, seq := storeFlip 7 g.seq.address 0 g.seq : EngineSt })).half .east) 7).seq.address (unitOf (((unitS coded7 [] (stored goodWord)).upd .east (updUnit 7 fun g => { flags := g.flags, halted := g.halted, current := g.current, suspended := g.suspended, nextBulk := g.nextBulk, lost := g.lost, leaving := g.leaving, downAt := g.downAt, toRetire := g.toRetire, seq := storeFlip 7 g.seq.address 0 g.seq : EngineSt })).half .east) 7).seq) false) (dispatchType .east ((unitS coded7 [] (stored goodWord)).half .east) 7 0 0 0) = Sum.inr (1, [])) ∧
    ((unitOf (((unitS coded7 [] (stored goodWord)).upd .east (updUnit 7 fun g => { flags := g.flags, halted := g.halted, current := g.current, suspended := g.suspended, nextBulk := g.nextBulk, lost := g.lost, leaving := g.leaving, downAt := g.downAt, toRetire := g.toRetire, seq := storeFlip 7 g.seq.address 0 g.seq : EngineSt })).half .east) 7).seq.clocks + wordCycles (storeWord 7 (unitOf (((unitS coded7 [] (stored goodWord)).upd .east (updUnit 7 fun g => { flags := g.flags, halted := g.halted, current := g.current, suspended := g.suspended, nextBulk := g.nextBulk, lost := g.lost, leaving := g.leaving, downAt := g.downAt, toRetire := g.toRetire, seq := storeFlip 7 g.seq.address 0 g.seq : EngineSt })).half .east) 7).seq.address (unitOf (((unitS coded7 [] (stored goodWord)).upd .east (updUnit 7 fun g => { flags := g.flags, halted := g.halted, current := g.current, suspended := g.suspended, nextBulk := g.nextBulk, lost := g.lost, leaving := g.leaving, downAt := g.downAt, toRetire := g.toRetire, seq := storeFlip 7 g.seq.address 0 g.seq : EngineSt })).half .east) 7).seq) < 2048) :=
    by decide +kernel
theorem witness_FaultEvents_badWord :
    (blockSource 7 = some 7) ∧ (((unitS coded7 [] (stored badWord)).half .east).alive = true) ∧
    ((unitOf ((unitS coded7 [] (stored badWord)).half .east) 7).current = some 0) ∧
    ((unitOf ((unitS coded7 [] (stored badWord)).half .east) 7).halted = false) ∧
    ((false && safePointActs .east ((unitS coded7 [] (stored badWord)).half .east) 7) = false) ∧ (8 ≤ 7 → 7 < 14 → 0 ≤ 4) ∧
    (14 ≤ 7 ∨ armedMask (((unitS coded7 [] (stored badWord)).upd .east (updUnit 7 fun g => { flags := g.flags, halted := g.halted, current := g.current, suspended := g.suspended, nextBulk := g.nextBulk, lost := g.lost, leaving := g.leaving, downAt := g.downAt, toRetire := g.toRetire, seq := storeFlip 7 g.seq.address 0 g.seq : EngineSt })).half .east) 7 = 0) ∧
    (badGroups (storeWord 7 (unitOf (((unitS coded7 [] (stored badWord)).upd .east (updUnit 7 fun g => { flags := g.flags, halted := g.halted, current := g.current, suspended := g.suspended, nextBulk := g.nextBulk, lost := g.lost, leaving := g.leaving, downAt := g.downAt, toRetire := g.toRetire, seq := storeFlip 7 g.seq.address 0 g.seq : EngineSt })).half .east) 7).seq.address (unitOf (((unitS coded7 [] (stored badWord)).upd .east (updUnit 7 fun g => { flags := g.flags, halted := g.halted, current := g.current, suspended := g.suspended, nextBulk := g.nextBulk, lost := g.lost, leaving := g.leaving, downAt := g.downAt, toRetire := g.toRetire, seq := storeFlip 7 g.seq.address 0 g.seq : EngineSt })).half .east) 7).seq) ≠ 0) ∧
    (rec8 = { time := ((unitS coded7 [] (stored badWord)).half .east).clk.now, address := (unitOf (((unitS coded7 [] (stored badWord)).upd .east (updUnit 7 fun g => { flags := g.flags, halted := g.halted, current := g.current, suspended := g.suspended, nextBulk := g.nextBulk, lost := g.lost, leaving := g.leaving, downAt := g.downAt, toRetire := g.toRetire, seq := storeFlip 7 g.seq.address 0 g.seq : EngineSt })).half .east) 7).seq.address, next := 0, code := wordOp (storeWord 7 (unitOf (((unitS coded7 [] (stored badWord)).upd .east (updUnit 7 fun g => { flags := g.flags, halted := g.halted, current := g.current, suspended := g.suspended, nextBulk := g.nextBulk, lost := g.lost, leaving := g.leaving, downAt := g.downAt, toRetire := g.toRetire, seq := storeFlip 7 g.seq.address 0 g.seq : EngineSt })).half .east) 7).seq.address (unitOf (((unitS coded7 [] (stored badWord)).upd .east (updUnit 7 fun g => { flags := g.flags, halted := g.halted, current := g.current, suspended := g.suspended, nextBulk := g.nextBulk, lost := g.lost, leaving := g.leaving, downAt := g.downAt, toRetire := g.toRetire, seq := storeFlip 7 g.seq.address 0 g.seq : EngineSt })).half .east) 7).seq), flags := 8, ctu := 0 % 65536 : TraceRec }) ∧
    ((((unitS coded7 [] (stored badWord)).upd .east (updUnit 7 fun g => { flags := g.flags, halted := g.halted, current := g.current, suspended := g.suspended, nextBulk := g.nextBulk, lost := g.lost, leaving := g.leaving, downAt := g.downAt, toRetire := g.toRetire, seq := storeFlip 7 g.seq.address 0 g.seq : EngineSt })).half .east).clk.now = ((unitS coded7 [] (stored badWord)).half .east).clk.now) :=
    by decide +kernel
theorem witness_FaultEvents_reloads :
    (blockSource 7 = some 7) ∧ ((reloadS.half .east).alive = true) ∧ ((unitOf (reloadS.half .east) 7).seq.reloadSince = some 5) ∧
    ((reloadS.half .east).bri.tetherStopped = false) ∧ ((unitOf (reloadS.half .east) 7).flags.retired = false) ∧
    (awaitsHost (reloadS.half .east) 7 = false) ∧ (some signed0 = none → reserveFrozen (reloadS.half .east) = false) ∧
    (Option.all (fetchedOk (reloadS.half .east) 7) (some signed0) = true) :=
    by decide +kernel
theorem witness_FaultEvents_reloadFails :
    (blockSource 7 = some 7) ∧ ((reloadS.half .east).alive = true) ∧ ((unitOf (reloadS.half .east) 7).seq.reloadSince = some 5) ∧
    ((reloadS.half .east).bri.tetherStopped = false) ∧ ((unitOf (reloadS.half .east) 7).flags.retired = false) ∧
    (awaitsHost (reloadS.half .east) 7 = false) ∧ (some badItem = none → reserveFrozen (reloadS.half .east) = false) ∧
    (fetchedOk (reloadS.half .east) 7 badItem = false) :=
    by decide +kernel
theorem witness_FaultEvents_reloadTwice :
    (blockSource 7 = some 7) ∧ ((reloadS.half .east).alive = true) ∧ ((unitOf (reloadS.half .east) 7).seq.reloadSince = some 5) ∧
    ((reloadS.half .east).bri.tetherStopped = false) ∧ ((unitOf (reloadS.half .east) 7).flags.retired = false) ∧
    (awaitsHost (reloadS.half .east) 7 = false) ∧ (noItem = none → reserveFrozen (reloadS.half .east) = false) ∧
    (Option.all (fetchedOk (reloadS.half .east) 7) noItem = true) :=
    by decide +kernel
theorem witness_FaultEvents_readback :
    (blockSource 7 = some 7) ∧ ((busy.half .east).alive = true) ∧ ((busy.half .east).bri.tetherStopped = false) ∧
    (∀ (t : Nat), (busy.half .east).flt.readback = some t → t + 60000000000 ≤ (busy.half .east).clk.now) :=
    by decide +kernel
theorem witness_DramEvents_issues :
    (((chWith chQ).half .east).dch[0]? = some chQ) ∧ (0 < 4) ∧ (((chWith chQ).half .east).boot.inReset = false) ∧
    ((chanAt (((chWith chQ).upd .east fun y => markLate .east 0 (List.foldl (scrimArrive 0) (scrimIssue 0 [] y) [])).half .east) 0).frozen = none) ∧
    ((chanAt (((chWith chQ).upd .east fun y => markLate .east 0 (List.foldl (scrimArrive 0) (scrimIssue 0 [] y) [])).half .east) 0).flags.retired = false) ∧
    (islandOn (((chWith chQ).upd .east fun y => markLate .east 0 (List.foldl (scrimArrive 0) (scrimIssue 0 [] y) [])).half .east) (22 + 0) = true) ∧
    (dramChoose .east (((chWith chQ).upd .east fun y => markLate .east 0 (List.foldl (scrimArrive 0) (scrimIssue 0 [] y) [])).half .east) 0 = some queued0) :=
    by decide +kernel
theorem witness_DramEvents_noRequest :
    (((chWith ch0).half .east).dch[0]? = some ch0) ∧ (0 < 4) ∧ (((chWith ch0).half .east).boot.inReset = false) ∧
    ((chanAt (((chWith ch0).upd .east fun y => markLate .east 0 (List.foldl (scrimArrive 0) (scrimIssue 0 [] y) [])).half .east) 0).frozen = none) ∧
    ((chanAt (((chWith ch0).upd .east fun y => markLate .east 0 (List.foldl (scrimArrive 0) (scrimIssue 0 [] y) [])).half .east) 0).flags.retired = false) ∧
    (islandOn (((chWith ch0).upd .east fun y => markLate .east 0 (List.foldl (scrimArrive 0) (scrimIssue 0 [] y) [])).half .east) (22 + 0) = true) ∧
    (dramChoose .east (((chWith ch0).upd .east fun y => markLate .east 0 (List.foldl (scrimArrive 0) (scrimIssue 0 [] y) [])).half .east) 0 = none) :=
    by decide +kernel
theorem witness_DramEvents_idle :
    (((chWith ch0).half .east).dch[0]? = some ch0) ∧ (0 < 4) ∧ (((chWith ch0).half .east).boot.inReset = false) :=
    by decide +kernel
theorem witness_DramEvents_refresh :
    (((chWith ch0).half .east).dch[0]? = some ch0) ∧ (0 < 4) ∧ (((chWith ch0).half .east).boot.inReset = false) ∧
    (ch0.train.trained = true) ∧ (ch0.flags.retired = false) ∧
    (ch0.lastRefresh + refreshInterval ch0.window ≤ ((chWith ch0).half .east).clk.now) ∧
    (∀ (q : QueuedReq), q ∈ ch0.queue → ((chWith ch0).half .east).clk.now - q.arrival < latencyTarget .east ((chWith ch0).half .east) 0 q.req.port) :=
    by decide +kernel
theorem witness_DramEvents_window :
    (((chWith ch0).half .east).dch[0]? = some ch0) ∧ (0 < 4) ∧ (((chWith ch0).half .east).boot.inReset = false) ∧
    (ch0.train.trained = true) ∧ (ch0.flags.retired = false) ∧ (ch0.windowAt + ch0.window ≤ ((chWith ch0).half .east).clk.now) :=
    by decide +kernel
theorem witness_DramEvents_mr4 :
    (((chWith ch0).half .east).dch[0]? = some ch0) ∧ (0 < 4) ∧ (((chWith ch0).half .east).boot.inReset = false) ∧
    (ch0.train.trained = true) ∧ (ch0.flags.retired = false) ∧ (ch0.lastPoll + 4000000 ≤ ((chWith ch0).half .east).clk.now) :=
    by decide +kernel
theorem witness_DramEvents_fill :
    (((chWith ch0).half .east).dch[0]? = some ch0) ∧ (0 < 4) ∧ (((chWith ch0).half .east).boot.inReset = false) ∧
    (onFrozen ((chWith ch0).half .east) (5 * 65536) = false) :=
    by decide +kernel
theorem witness_DramEvents_scrubClean :
    (((chScrub ch0).half .east).dch[0]? = some ch0) ∧ (((chScrub ch0).half .east).boot.inReset = false) ∧ (ch0.train.trained = true) ∧
    (ch0.flags.retired = false) ∧ (ch0.frozen = none) ∧ (ch0.queue = []) ∧ (armedMask ((chScrub ch0).half .east) (18 + 0) = 0) ∧
    (armedMask ((chScrub ch0).half .east) (22 + 0) = 0) ∧ (scrubNext ((chScrub ch0).half .east) 0 ch0.scrub.position = some 0) ∧
    (EccOutcome.clean = EccOutcome.clean ∨ EccOutcome.clean = EccOutcome.queueParity) :=
    by decide +kernel
theorem witness_DramEvents_scrubDouble :
    (((chScrub ch0).half .east).dch[0]? = some ch0) ∧ (((chScrub ch0).half .east).boot.inReset = false) ∧ (ch0.train.trained = true) ∧
    (ch0.flags.retired = false) ∧ (ch0.frozen = none) ∧ (ch0.queue = []) ∧ (armedMask ((chScrub ch0).half .east) (18 + 0) = 0) ∧
    (armedMask ((chScrub ch0).half .east) (22 + 0) = 0) ∧ (scrubNext ((chScrub ch0).half .east) 0 ch0.scrub.position = some 0) :=
    by decide +kernel
theorem witness_DramEvents_scrubSingle :
    (((chScrub ch0).half .east).dch[0]? = some ch0) ∧ (((chScrub ch0).half .east).boot.inReset = false) ∧ (ch0.train.trained = true) ∧
    (ch0.flags.retired = false) ∧ (ch0.frozen = none) ∧ (ch0.queue = []) ∧ (armedMask ((chScrub ch0).half .east) (18 + 0) = 0) ∧
    (armedMask ((chScrub ch0).half .east) (22 + 0) = 0) ∧ (scrubNext ((chScrub ch0).half .east) 0 ch0.scrub.position = some 0) :=
    by decide +kernel
theorem witness_DramEvents_pass :
    (((chScrub scrubbed).half .east).dch[0]? = some scrubbed) ∧ (((chScrub scrubbed).half .east).boot.inReset = false) ∧
    (scrubbed.train.trained = true) ∧ (scrubbed.flags.retired = false) ∧ (scrubbed.frozen = none) ∧ (scrubbed.queue = []) ∧
    (armedMask ((chScrub scrubbed).half .east) (18 + 0) = 0) ∧ (armedMask ((chScrub scrubbed).half .east) (22 + 0) = 0) ∧
    (scrubNext ((chScrub scrubbed).half .east) 0 scrubbed.scrub.position = none) ∧ (scrubbed.scrub.done ≠ 0) :=
    by decide +kernel
theorem witness_TrainingEvents_due :
    (mayRetrain ((chWith (chTrain train0)).half .east) 0 = true) ∧
    ((chanAt ((chWith (chTrain train0)).half .east) 0).train.repeatAt = none) ∧
    ((chanAt ((chWith (chTrain train0)).half .east) 0).train.runAt = none) ∧
    (retrainDue .east ((chWith (chTrain train0)).half .east) 0 = some 256000000) ∧
    (modeHost ((chWith (chTrain train0)).half .east) fnRetrain (channelH .east 0) = false) :=
    by decide +kernel
theorem witness_TrainingEvents_asks :
    (mayRetrain ((hostTrain train0).half .east) 0 = true) ∧ ((chanAt ((hostTrain train0).half .east) 0).train.repeatAt = none) ∧
    ((chanAt ((hostTrain train0).half .east) 0).train.runAt = none) ∧
    (retrainDue .east ((hostTrain train0).half .east) 0 = some 256000000) ∧
    (modeHost ((hostTrain train0).half .east) fnRetrain (channelH .east 0) = true) ∧
    ((chanAt ((hostTrain train0).half .east) 0).train.asked = none) :=
    by decide +kernel
theorem witness_TrainingEvents_again :
    (mayRetrain ((chWith (chTrain soon)).half .east) 0 = true) ∧
    ((chanAt ((chWith (chTrain soon)).half .east) 0).train.repeatAt = some 1000000000 ∨ (chanAt ((chWith (chTrain soon)).half .east) 0).train.runAt = some 1000000000) ∧
    (1000000000 ≤ ((chWith (chTrain soon)).half .east).clk.now) :=
    by decide +kernel
theorem witness_TrainingEvents_passes :
    ((chanAt ((chWith (chTrain retrains)).half .east) 0).train.retraining = true) ∧ ((List.replicate 16 sweep0).length = 16) ∧
    (∀ (l : LaneSweep), l ∈ List.replicate 16 sweep0 → sweepPass l = true) :=
    by decide +kernel
theorem witness_TrainingEvents_fails :
    ((chanAt ((chWith (chTrain retrains)).half .east) 0).train.retraining = true) ∧
    ([sweepBad].length ≠ 16 ∨ ∃ l, l ∈ [sweepBad] ∧ sweepPass l = false) ∧
    ((chanAt ((chWith (chTrain retrains)).half .east) 0).train.fails % 4 + 1 < 4) :=
    by decide +kernel
theorem witness_TrainingEvents_evacuates :
    ((chanAt ((chWith (chTrain retrains3)).half .east) 0).train.retraining = true) ∧
    ([sweepBad].length ≠ 16 ∨ ∃ l, l ∈ [sweepBad] ∧ sweepPass l = false) ∧
    ((chanAt ((chWith (chTrain retrains3)).half .east) 0).train.fails % 4 + 1 = 4) ∧
    (modeHost ((latchHw 6 .east (22 + 0) false (event .east 1541 sevWarning (channelH .east 0) (le 4 ((chanAt ((chWith (chTrain retrains3)).half .east) 0).train.fails % 4 + 1) ++ le 4 (packBits (List.map (fun l => !sweepPass l) [sweepBad])) ++ le 4 (unsigned 32 (chanAt ((chWith (chTrain retrains3)).half .east) 0).train.temp)) ((chWith (chTrain retrains3)).upd .east (updTrain 0 fun q => { trained := q.trained, lanes := q.lanes, caDelays := q.caDelays, last := ((chWith (chTrain retrains3)).half .east).clk.now, lastTemp := q.temp, temp := q.temp, fails := (chanAt ((chWith (chTrain retrains3)).half .east) 0).train.fails % 4 + 1, repeatAt := if (chanAt ((chWith (chTrain retrains3)).half .east) 0).train.fails % 4 + 1 < 4 then some (((chWith (chTrain retrains3)).half .east).clk.now + 1000000) else none, requests := q.requests, asked := q.asked, runAt := q.runAt : TrainSt })))).half .east) fnReaction (mkHandle 14 .east (22 + 0)) = false) :=
    by decide +kernel
theorem witness_TrainingEvents_deadline :
    ((chanAt ((hostTrain asked0).half .east) 0).train.asked = some (0, 1000000000)) ∧
    (1000000000 ≤ ((hostTrain asked0).half .east).clk.now) :=
    by decide +kernel
theorem witness_TrainingEvents_copied :
    (∀ (k : Nat), k < 0 → (chanAt ((chWith chEvac).half .east) k).evac = none) ∧ (((chWith chEvac).half .east).dch[0]? = some chEvac) ∧
    (chEvac.evac = some evac0) ∧ (evac0.copying = true) ∧ (evac0.left = [(0, 0, 0)]) :=
    by decide +kernel
theorem witness_TrainingEvents_reserve :
    ((reserveS.half .east).dram.reserve = some (0, 0)) ∧ ((reserveS.half .east).dram.reserveMove = some (1, 0, 5, true)) :=
    by decide +kernel

def poolS (l : List (Nat × PoolSt)) : State := busyWith (fun x => { x with pools := l.foldl (fun m p => m.set p.1 p.2) x.pools })
/-- A pool of eight buffers whose list starts at its base, and one that holds a buffer with some references. -/
def freePool : PoolSt := { present := true, base := 0x10000000, count := 8, head := 0x10000000 }
def heldPool (c : Nat) : PoolSt := { freePool with held := [(0, c)] }
def rebuilding0 : PoolSt := { freePool with rebuilding := true, rebuildSince := 5 }
def asked5 : PoolSt := { freePool with supplyAsked := some 5 }
def freeEnc : EngineSt := {}
def dmaS (d : DmaChan) : State := busyWith (fun x => { x with dma := { x.dma with channels := x.dma.channels.set 30 d } })
def fetching : DmaChan := { running := true, phase := .fetching, cur := 0x1000, outstanding := 1 }
def fetchingDev : DmaChan := { running := true, phase := .fetching, cur := 0x8000000000000000 }
def rechecks : DmaChan := { running := true, phase := .rechecking, cur := 0x1000, outstanding := 1 }
/-- Descriptors: none that is well formed, one from device memory, one that reads host memory. -/
def descBad : List Byte := le 8 0 ++ le 8 0 ++ le 4 64 ++ le 4 0 ++ le 8 0
def descDev : List Byte := le 8 0x8000000000000000 ++ le 8 0x4000 ++ le 4 64 ++ le 4 1 ++ le 8 0
def descHost : List Byte := le 8 0x4000 ++ le 8 0x8000000000000000 ++ le 4 64 ++ le 4 1 ++ le 8 0
def moving : DmaChan := { running := true, phase := .moving, source := 0x4000, dest := 0x8000000000000000, length := 64, outstanding := 1 }
def stoppedMove : DmaChan := { moving with running := false, quiescing := true }
def writingHost : DmaChan := { running := true, phase := .writing, source := 0x4000, dest := 0x8000000000000000, length := 64 }
def writingDev : DmaChan := { running := true, phase := .writing, source := 0x8000000000000000, dest := 0x4000, length := 64 }
def idleChan : DmaChan := {}
def exposeR : Record := recd 0x12 0x12000000 64 [(32, 4, 0x10000000), (36, 4, 1000000)]
def reelS : State := busyWith (fun x =>
  { withRunning (exposeR :: records0) x with ctr := { x.ctr with reel := { running := true } }, dram := { placed := [⟨0, 0, 0, 65536⟩] } })
def unlinked : State := busyWith (fun x => { x with pcie := { x.pcie with linkUp := false } })
def bootS (b : BootSt) : State := east (fun x => { x with boot := b })
def heldReset : BootSt := { inReset := true }
def facts1 : BootFacts := {}
def dueReset (k : Nat) : BootSt := { inReset := false, stage := 7, resetAt := some 1000000000, resetKind := k }
def trialEnds : BootSt := { inReset := false, stage := 7, trialResetAt := some 1000000000 }
def trialRuns : State := busyWith (fun x =>
  { x with clk := { now := 60000000000 }, boot := { inReset := false, stage := 7, trial := true, keelStart := 0 } })
def coolS : State := east (fun x => { x with pwr := { x.pwr with shutdown := true, coolSince := some 0 } })

theorem witness_PoolEvents_allocates :
    (((poolS [(3, freePool)]).half .east).boot.inReset = false) ∧ (1 ≤ 1) ∧ (1 ≤ 255) ∧ (1 ≤ 64) ∧ (64 ≤ 4194304) ∧
    (List.find? (poolServes ((poolS [(3, freePool)]).half .east)) (poolOrder false 64) = some 3) ∧ (3 ≠ 0) :=
    by decide +kernel
theorem witness_PoolEvents_poolZero :
    (((poolS [(0, freePool)]).half .east).boot.inReset = false) ∧ (1 ≤ 1) ∧ (1 ≤ 255) ∧ (1 ≤ 64) ∧ (64 ≤ 4194304) ∧
    (List.find? (poolServes ((poolS [(0, freePool)]).half .east)) (poolOrder true 64) = some 0) :=
    by decide +kernel
theorem witness_PoolEvents_refuses :
    (((poolS []).half .east).boot.inReset = false) ∧ (1 ≤ 1) ∧ (1 ≤ 255) ∧ (1 ≤ 64) ∧ (64 ≤ 4194304) ∧
    (List.find? (poolServes ((poolS []).half .east)) (poolOrder false 64) = none) :=
    by decide +kernel
theorem witness_PoolEvents_encoder :
    (((poolS [(3, freePool)]).half .east).boot.inReset = false) ∧ (((poolS [(3, freePool)]).half .east).enc[7]? = some freeEnc) ∧ (7 < 8) ∧
    (freeEnc.flags.retired = false) ∧ (1 ≤ 1) ∧ (1 ≤ 255) ∧ (1 ≤ 64) ∧ (64 ≤ 4194304) ∧
    (List.find? (poolServes ((poolS [(3, freePool)]).half .east)) (poolOrder false 64) = some 3) ∧ (3 ≠ 0) :=
    by decide +kernel
theorem witness_PoolEvents_adds :
    (((poolS [(3, heldPool 1)]).half .east).boot.inReset = false) ∧ (poolOld ((poolS [(3, heldPool 1)]).half .east) 268435456 = none) ∧
    (poolFind ((poolS [(3, heldPool 1)]).half .east) 268435456 = some (3, 0)) ∧
    (heldCount (poolOf ((poolS [(3, heldPool 1)]).half .east) 3) 0 = some 1) ∧ (1 + 1 ≤ 255) :=
    by decide +kernel
theorem witness_PoolEvents_addsPast :
    (((poolS [(3, heldPool 255)]).half .east).boot.inReset = false) ∧ (poolOld ((poolS [(3, heldPool 255)]).half .east) 268435456 = none) ∧
    (poolFind ((poolS [(3, heldPool 255)]).half .east) 268435456 = some (3, 0)) ∧
    (heldCount (poolOf ((poolS [(3, heldPool 255)]).half .east) 3) 0 = some 255) ∧ (255 < 255 + 1) :=
    by decide +kernel
theorem witness_PoolEvents_doubleFree :
    (((poolS [(3, heldPool 0)]).half .east).boot.inReset = false) ∧ (poolOld ((poolS [(3, heldPool 0)]).half .east) 268435456 = none) ∧
    (poolFind ((poolS [(3, heldPool 0)]).half .east) 268435456 = some (3, 0)) ∧
    (heldCount (poolOf ((poolS [(3, heldPool 0)]).half .east) 3) 0 = some 0) :=
    by decide +kernel
theorem witness_PoolEvents_frees :
    (((poolS [(3, heldPool 1)]).half .east).boot.inReset = false) ∧ (poolOld ((poolS [(3, heldPool 1)]).half .east) 268435456 = none) ∧
    (poolFind ((poolS [(3, heldPool 1)]).half .east) 268435456 = some (3, 0)) ∧
    (heldCount (poolOf ((poolS [(3, heldPool 1)]).half .east) 3) 0 = some 1) :=
    by decide +kernel
theorem witness_PoolEvents_releases :
    (((poolS [(3, heldPool 2)]).half .east).boot.inReset = false) ∧ (poolOld ((poolS [(3, heldPool 2)]).half .east) 268435456 = none) ∧
    (poolFind ((poolS [(3, heldPool 2)]).half .east) 268435456 = some (3, 0)) ∧
    (heldCount (poolOf ((poolS [(3, heldPool 2)]).half .east) 3) 0 = some 2) ∧ (2 ≤ 2) :=
    by decide +kernel
theorem witness_PoolEvents_rebuilt :
    (((poolS [(3, rebuilding0)]).half .east).boot.inReset = false) ∧ (rebuilding0 = poolOf ((poolS [(3, rebuilding0)]).half .east) 3) ∧
    (rebuilding0.rebuilding = true) ∧ ((chanAt ((poolS [(3, rebuilding0)]).half .east) (chanOf rebuilding0.base)).frozen = none) :=
    by decide +kernel
theorem witness_PoolEvents_deadline :
    (((poolS [(3, asked5)]).half .east).boot.inReset = false) ∧ ((poolOf ((poolS [(3, asked5)]).half .east) 3).supplyAsked = some 5) ∧
    (5 ≤ ((poolS [(3, asked5)]).half .east).clk.now) :=
    by decide +kernel
theorem witness_DmaEvents_faulty :
    (((dmaS fetching).half .east).dma.channels[30]? = some fetching) ∧
    (isDev fetching.cur = false ∨ onFrozen ((dmaS fetching).half .east) (devPart fetching.cur) = false) ∧
    (fetching.phase = DmaPhase.fetching) ∧
    (0 = BitVec.ofNat 64 (rd (if isDev fetching.cur = true then dmaSource .east fetching.cur 32 [] ((if isDev fetching.cur = true ∨ fetching.outstanding = 0 then dmaS fetching else (dmaS fetching).upd .east (count 31 18 1)).half .east) else pad 32 descBad) 0 8)) ∧
    (0 = BitVec.ofNat 64 (rd (if isDev fetching.cur = true then dmaSource .east fetching.cur 32 [] ((if isDev fetching.cur = true ∨ fetching.outstanding = 0 then dmaS fetching else (dmaS fetching).upd .east (count 31 18 1)).half .east) else pad 32 descBad) 8 8)) ∧
    (64 = rd (if isDev fetching.cur = true then dmaSource .east fetching.cur 32 [] ((if isDev fetching.cur = true ∨ fetching.outstanding = 0 then dmaS fetching else (dmaS fetching).upd .east (count 31 18 1)).half .east) else pad 32 descBad) 16 4) ∧
    (0 = rd (if isDev fetching.cur = true then dmaSource .east fetching.cur 32 [] ((if isDev fetching.cur = true ∨ fetching.outstanding = 0 then dmaS fetching else (dmaS fetching).upd .east (count 31 18 1)).half .east) else pad 32 descBad) 20 4) ∧
    (0 = BitVec.ofNat 64 (rd (if isDev fetching.cur = true then dmaSource .east fetching.cur 32 [] ((if isDev fetching.cur = true ∨ fetching.outstanding = 0 then dmaS fetching else (dmaS fetching).upd .east (count 31 18 1)).half .east) else pad 32 descBad) 24 8)) ∧
    (descFaulty 0 0 0 0 = true) :=
    by decide +kernel
theorem witness_DmaEvents_device :
    (((dmaS fetching).half .east).dma.channels[30]? = some fetching) ∧
    (isDev fetching.cur = false ∨ onFrozen ((dmaS fetching).half .east) (devPart fetching.cur) = false) ∧
    (fetching.phase = DmaPhase.fetching) ∧
    (9223372036854775808 = BitVec.ofNat 64 (rd (if isDev fetching.cur = true then dmaSource .east fetching.cur 32 [] ((if isDev fetching.cur = true ∨ fetching.outstanding = 0 then dmaS fetching else (dmaS fetching).upd .east (count 31 18 1)).half .east) else pad 32 descDev) 0 8)) ∧
    (16384 = BitVec.ofNat 64 (rd (if isDev fetching.cur = true then dmaSource .east fetching.cur 32 [] ((if isDev fetching.cur = true ∨ fetching.outstanding = 0 then dmaS fetching else (dmaS fetching).upd .east (count 31 18 1)).half .east) else pad 32 descDev) 8 8)) ∧
    (64 = rd (if isDev fetching.cur = true then dmaSource .east fetching.cur 32 [] ((if isDev fetching.cur = true ∨ fetching.outstanding = 0 then dmaS fetching else (dmaS fetching).upd .east (count 31 18 1)).half .east) else pad 32 descDev) 16 4) ∧
    (1 = rd (if isDev fetching.cur = true then dmaSource .east fetching.cur 32 [] ((if isDev fetching.cur = true ∨ fetching.outstanding = 0 then dmaS fetching else (dmaS fetching).upd .east (count 31 18 1)).half .east) else pad 32 descDev) 20 4) ∧
    (0 = BitVec.ofNat 64 (rd (if isDev fetching.cur = true then dmaSource .east fetching.cur 32 [] ((if isDev fetching.cur = true ∨ fetching.outstanding = 0 then dmaS fetching else (dmaS fetching).upd .east (count 31 18 1)).half .east) else pad 32 descDev) 24 8)) ∧
    (descFaulty 9223372036854775808 16384 0 1 = false) ∧ (isDev 9223372036854775808 = true ∨ 64 = 0) :=
    by decide +kernel
theorem witness_DmaEvents_host :
    (((dmaS fetching).half .east).dma.channels[30]? = some fetching) ∧
    (isDev fetching.cur = false ∨ onFrozen ((dmaS fetching).half .east) (devPart fetching.cur) = false) ∧
    (fetching.phase = DmaPhase.fetching) ∧
    (16384 = BitVec.ofNat 64 (rd (if isDev fetching.cur = true then dmaSource .east fetching.cur 32 [] ((if isDev fetching.cur = true ∨ fetching.outstanding = 0 then dmaS fetching else (dmaS fetching).upd .east (count 31 18 1)).half .east) else pad 32 descHost) 0 8)) ∧
    (9223372036854775808 = BitVec.ofNat 64 (rd (if isDev fetching.cur = true then dmaSource .east fetching.cur 32 [] ((if isDev fetching.cur = true ∨ fetching.outstanding = 0 then dmaS fetching else (dmaS fetching).upd .east (count 31 18 1)).half .east) else pad 32 descHost) 8 8)) ∧
    (64 = rd (if isDev fetching.cur = true then dmaSource .east fetching.cur 32 [] ((if isDev fetching.cur = true ∨ fetching.outstanding = 0 then dmaS fetching else (dmaS fetching).upd .east (count 31 18 1)).half .east) else pad 32 descHost) 16 4) ∧
    (1 = rd (if isDev fetching.cur = true then dmaSource .east fetching.cur 32 [] ((if isDev fetching.cur = true ∨ fetching.outstanding = 0 then dmaS fetching else (dmaS fetching).upd .east (count 31 18 1)).half .east) else pad 32 descHost) 20 4) ∧
    (0 = BitVec.ofNat 64 (rd (if isDev fetching.cur = true then dmaSource .east fetching.cur 32 [] ((if isDev fetching.cur = true ∨ fetching.outstanding = 0 then dmaS fetching else (dmaS fetching).upd .east (count 31 18 1)).half .east) else pad 32 descHost) 24 8)) ∧
    (descFaulty 16384 9223372036854775808 0 1 = false) ∧ (isDev 16384 = false) ∧ (64 ≠ 0) :=
    by decide +kernel
theorem witness_DmaEvents_fromDevice :
    (((dmaS fetchingDev).half .east).dma.channels[30]? = some fetchingDev) ∧
    (isDev fetchingDev.cur = false ∨ onFrozen ((dmaS fetchingDev).half .east) (devPart fetchingDev.cur) = false) ∧
    (fetchingDev.phase = DmaPhase.fetching) ∧
    (0 = BitVec.ofNat 64 (rd (if isDev fetchingDev.cur = true then dmaSource .east fetchingDev.cur 32 [] ((if isDev fetchingDev.cur = true ∨ fetchingDev.outstanding = 0 then dmaS fetchingDev else (dmaS fetchingDev).upd .east (count 31 18 1)).half .east) else pad 32 []) 0 8)) ∧
    (0 = BitVec.ofNat 64 (rd (if isDev fetchingDev.cur = true then dmaSource .east fetchingDev.cur 32 [] ((if isDev fetchingDev.cur = true ∨ fetchingDev.outstanding = 0 then dmaS fetchingDev else (dmaS fetchingDev).upd .east (count 31 18 1)).half .east) else pad 32 []) 8 8)) ∧
    (0 = rd (if isDev fetchingDev.cur = true then dmaSource .east fetchingDev.cur 32 [] ((if isDev fetchingDev.cur = true ∨ fetchingDev.outstanding = 0 then dmaS fetchingDev else (dmaS fetchingDev).upd .east (count 31 18 1)).half .east) else pad 32 []) 16 4) ∧
    (0 = rd (if isDev fetchingDev.cur = true then dmaSource .east fetchingDev.cur 32 [] ((if isDev fetchingDev.cur = true ∨ fetchingDev.outstanding = 0 then dmaS fetchingDev else (dmaS fetchingDev).upd .east (count 31 18 1)).half .east) else pad 32 []) 20 4) ∧
    (0 = BitVec.ofNat 64 (rd (if isDev fetchingDev.cur = true then dmaSource .east fetchingDev.cur 32 [] ((if isDev fetchingDev.cur = true ∨ fetchingDev.outstanding = 0 then dmaS fetchingDev else (dmaS fetchingDev).upd .east (count 31 18 1)).half .east) else pad 32 []) 24 8)) ∧
    (descFaulty 0 0 0 0 = true) :=
    by decide +kernel
theorem witness_DmaEvents_again :
    (((dmaS rechecks).half .east).dma.channels[30]? = some rechecks) ∧
    (isDev rechecks.cur = false ∨ onFrozen ((dmaS rechecks).half .east) (devPart rechecks.cur) = false) ∧
    (rechecks.phase = DmaPhase.rechecking) :=
    by decide +kernel
theorem witness_DmaEvents_stray :
    (((dmaS idleChan).half .east).dma.channels[30]? = some idleChan) ∧ (idleChan.outstanding = 0) :=
    by decide +kernel
theorem witness_DmaEvents_quiesces :
    (((dmaS stoppedMove).half .east).dma.channels[30]? = some stoppedMove) ∧ (stoppedMove.outstanding ≠ 0) ∧
    (stoppedMove.running = false) :=
    by decide +kernel
theorem witness_DmaEvents_data :
    (((dmaS moving).half .east).dma.channels[30]? = some moving) ∧ (moving.outstanding ≠ 0) ∧ (moving.running = true) ∧
    (moving.phase = DmaPhase.moving) ∧ (dmaMeetsError (((dmaS moving).upd .east (count 31 18 1)).half .east) moving = false) :=
    by decide +kernel
theorem witness_DmaEvents_endsHost :
    (((dmaS writingHost).half .east).dma.channels[30]? = some writingHost) ∧ (writingHost.phase = DmaPhase.writing) ∧
    (dmaMeetsError ((dmaS writingHost).half .east) writingHost = false) ∧ (isDev writingHost.source = false) :=
    by decide +kernel
theorem witness_DmaEvents_endsDevice :
    (((dmaS writingDev).half .east).dma.channels[30]? = some writingDev) ∧ (writingDev.phase = DmaPhase.writing) ∧
    (dmaMeetsError ((dmaS writingDev).half .east) writingDev = false) ∧ (isDev writingDev.source = true) :=
    by decide +kernel
theorem witness_DmaEvents_busError :
    (((dmaS moving).half .east).dma.channels[30]? = some moving) ∧ (moving.running = true) :=
    by decide +kernel
theorem witness_DmaEvents_timeout :
    (((dmaS moving).half .east).dma.channels[30]? = some moving) ∧ (moving.outstanding ≠ 0) ∧
    (moving.oldestRead + 10000000 ≤ ((dmaS moving).half .east).clk.now) ∧ (moving.running = true) ∧ (moving.phase = DmaPhase.moving) :=
    by decide +kernel
theorem witness_DmaEvents_timeoutDesc :
    (((dmaS fetching).half .east).dma.channels[30]? = some fetching) ∧ (fetching.outstanding ≠ 0) ∧
    (fetching.oldestRead + 10000000 ≤ ((dmaS fetching).half .east).clk.now) ∧ (fetching.running = true) ∧
    (fetching.phase ≠ DmaPhase.moving) :=
    by decide +kernel
theorem witness_DmaEvents_timeoutStopped :
    (((dmaS stoppedMove).half .east).dma.channels[30]? = some stoppedMove) ∧ (stoppedMove.outstanding ≠ 0) ∧
    (stoppedMove.oldestRead + 10000000 ≤ ((dmaS stoppedMove).half .east).clk.now) ∧ (stoppedMove.running = false) :=
    by decide +kernel
theorem witness_EntryAndLinkEvents_parity :
    (101 < 512) ∧ (icuReserved 101 = false) ∧ ((busy.half .east).boot.inReset = false) :=
    by decide +kernel
theorem witness_EntryAndLinkEvents_snapshot :
    (exposure .east (reelS.half .east) = some exposeR) ∧ ((reelS.half .east).ctr.reel.running = true) ∧ (rd exposeR 32 4 ≠ 0) ∧
    (rd exposeR 36 4 ≠ 0) ∧ (1000000000 = (reelS.half .east).clk.now / rd exposeR 36 4 * rd exposeR 36 4) ∧
    ((reelS.half .east).ctr.reel.first = true ∨ (reelS.half .east).ctr.reel.lastInstant < 1000000000) ∧
    (placedAt (reelS.half .east) (rd exposeR 32 4 % 65536) = some { region := 0, channel := 0, offset := 0, size := 65536 : Placement }) ∧
    (onFrozen (reelS.half .east) (placeAddr { region := 0, channel := 0, offset := 0, size := 65536 : Placement }) = false) :=
    by decide +kernel
theorem witness_EntryAndLinkEvents_snapshotFails :
    (exposure .east (reelS.half .east) = some exposeR) ∧ ((reelS.half .east).ctr.reel.running = true) ∧ (rd exposeR 32 4 ≠ 0) ∧
    (rd exposeR 36 4 ≠ 0) ∧ (1000000000 = (reelS.half .east).clk.now / rd exposeR 36 4 * rd exposeR 36 4) ∧
    ((reelS.half .east).ctr.reel.first = true ∨ (reelS.half .east).ctr.reel.lastInstant < 1000000000) ∧
    (placedAt (reelS.half .east) (rd exposeR 32 4 % 65536) = some { region := 0, channel := 0, offset := 0, size := 65536 : Placement }) :=
    by decide +kernel
theorem witness_EntryAndLinkEvents_down :
    ((busy.half .east).pcie.linkUp = true) ∧ ((busy.half .east).boot.inReset = false) ∧ ((busy.half .east).boot.stage = 7) :=
    by decide +kernel
theorem witness_EntryAndLinkEvents_up :
    (unlinked.half .east).pcie.linkUp = false :=
    by decide +kernel
theorem witness_ResetEvents_boots :
    (((bootS heldReset).half .east).boot.inReset = true) ∧ (((bootS heldReset).half .east).pwr.brownOut = false) ∧
    (((bootS heldReset).half .east).pwr.shutdown = false) :=
    by decide +kernel
theorem witness_ResetEvents_delayed :
    (((bootS (dueReset 3)).half .east).boot.resetAt = some 1000000000) ∧ (1000000000 ≤ ((bootS (dueReset 3)).half .east).clk.now) ∧
    (((bootS (dueReset 3)).half .east).boot.resetKind ≠ 5) :=
    by decide +kernel
theorem witness_ResetEvents_shutdown :
    (((bootS (dueReset 5)).half .east).boot.resetAt = some 1000000000) ∧ (1000000000 ≤ ((bootS (dueReset 5)).half .east).clk.now) ∧
    (((bootS (dueReset 5)).half .east).boot.resetKind = 5) :=
    by decide +kernel
theorem witness_ResetEvents_trial :
    (((bootS trialEnds).half .east).boot.trialResetAt = some 1000000000) ∧ (1000000000 ≤ ((bootS trialEnds).half .east).clk.now) :=
    by decide +kernel
theorem witness_ResetEvents_confirmed :
    ((trialRuns.half .east).alive = true) ∧ ((trialRuns.half .east).boot.trial = true) ∧
    ((trialRuns.half .east).boot.trialBroken = false) ∧
    ((trialRuns.half .east).boot.keelStart + 60000000000 ≤ (trialRuns.half .east).clk.now) ∧
    ((slotOf trialRuns.flash (trialRuns.half .east).boot.slotB).hold = false) :=
    by decide +kernel
theorem witness_ResetEvents_cooled :
    ((coolS.half .east).pwr.coolSince = some 0) ∧ ((coolS.half .east).pwr.shutdown = true) ∧
    (0 + 1000000000 ≤ (coolS.half .east).clk.now) ∧
    ((List.filter (fun t => decide ((coolS.half .east).clk.now < t + 3600000000000)) (coolS.half .east).pwr.shutdownTimes).length < 3) :=
    by decide +kernel

def islS (k : Nat) (i : IslandSt) (f : Half → Half) : State := busyWith (fun x => f { x with pwr := { x.pwr with islands := x.pwr.islands.set k i } })
def hot0 : IslandSt := { celsius := 25 }
def tripped : IslandSt := { lastTrip := some 5 }
def stoppedClock : IslandSt := { clockHalted := true }
def halted7 (x : Half) : Half := { x with enc := x.enc.set 7 { halted := true } }
def haltedUnit : EngineSt := { halted := true }
def isl0 : IslandSt := {}
def suspends (x : Half) : Half := { x with dec := x.dec.set 5 { current := some 0, seq := { suspend := true } } }
def idleLong : IslandSt := { idleSince := some 5 }
def offIsland : IslandSt := { powered := false, gated := true, step := 0 }
def dayS (f : PowerSt → PowerSt) : State := busyWith (fun x => { x with clk := { now := 86400000000000 }, pwr := f x.pwr })
def top (p : PowerSt) : PowerSt := { p with setpoint := 16, vreq := 16 }
def low (p : PowerSt) : PowerSt := { p with setpoint := 5, vreq := 5 }
def ppsS2 : State := busyWith (fun x => withRunning [recd 0x11 ptp0 64 [(20, 1, 8)]] x)
def slaveS : State := busyWith (fun x => { x with ptp := { x.ptp with slavePort := some port0 } })
def leadDue : State := busyWith (fun x => { x with bri := { x.bri with deadline := 1000000000 } })
def surfEnc : EncodeSt := { index := 0, nextTick := 60, firstTick := 60 }
def surfEncR : Record := recd 5 encode0 96
  [(16, 1, 1), (17, 1, 2), (18, 1, 1), (20, 2, 640), (22, 2, 480), (24, 1, 8), (25, 1, 1), (28, 4, 0x0A000000), (32, 1, 1), (72, 4, 50000000), (76, 4, 3)]
def surfTick : State := busyWith (fun x => { withRunning (surfEncR :: records0) x with obj := { x.obj with encodes := [surfEnc] } })
def mem0 : Mem := [(5, 7)]
def full0 : Rings := { cmdqTail := 256, cplqTail := 5, evtqTail := 5, asqTail := 512, asrTail := 5 }
def fullS : State := east (fun x => { x with rings := full0 })
def retire7 : CmdEntry := ent 0 (le 4 0x20000007)
def retireHalfEnt : CmdEntry := ent 0 (le 4 0)
def retired7 : State := busyWith (fun x => { x with enc := x.enc.set 7 { flags := { retired := true } } })
def fuses1 : Fuses := { keyHash := [1, 2, 3, 4], counter := 5 }
def fusedS : State := east (fun x => { x with boot := { x.boot with fuses := fuses1 } })
def attest0 : CmdEntry := ent 0 (List.replicate 32 5)
def nextOf : Host.Outcome State Fault Refusal → State
  | .next t => t
  | _ => busy
def queued : State := { State.reset with pending := [.porstAssert] }
def tailed : State := nextOf (exec (.cmdqTailWrite .east 5) busy)
def plainEvents : Events := {}
/-- The state after an aging measurement, and after the voltage step that it may ask for. -/
def agedV (s : State) (slow : List Nat) : State := s.upd .east (fun y => { y with pwr := { y.pwr with
  agedAt := y.clk.now
  islands := (y.pwr.islands.zip ((List.range 36).map (fun i => slow.getD i 0))).map (fun p => { p.1 with slowdown := p.2 }) } })
def agedU (s : State) (slow : List Nat) : State :=
  let p := (s.half .east).pwr
  let v := agedV s slow
  if p.vreq < min 16 (p.setpoint + (worstSlowdown (v.half .east).pwr).1 / 50) then
    event .east 0x080C sevInfo 0 (le 4 p.vreq ++ le 4 (p.vreq + 1) ++ le 4 2) (v.upd .east (fun y => { y with pwr := { y.pwr with
      vreq := p.vreq + 1, vreqOld := p.vreq, vreqAt := y.clk.now } })) else v

theorem witness_MonitorEvents_excursion :
    ((busy.half .east).boot.inReset = false) ∧ (10000 < 10001) ∧ (isExcursion (busy.half .east) 1 2000 = true) :=
    by decide +kernel
theorem witness_MonitorEvents_sampledInReset :
    (State.reset.half .east).boot.inReset = true :=
    by decide +kernel
theorem witness_MonitorEvents_warm :
    ((busy.half .east).boot.inReset = false) ∧ (119 < 120) :=
    by decide +kernel
theorem witness_MonitorEvents_hot :
    ((busy.half .east).boot.inReset = false) ∧ (120 ≤ 120) ∧
    ((busy.half .east).boot.resetAt = none ∨ (busy.half .east).boot.resetKind ≠ 5) :=
    by decide +kernel
theorem witness_MonitorEvents_trips :
    (7 < 36) ∧ ((busy.half .east).boot.inReset = false) ∧ (monitorTrips (busy.half .east) 7 0 = true) ∧
    (tripsWithin ((busy.half .east).pwr.islands.getD 7 { : IslandSt }) (busy.half .east).clk.now < 2) :=
    by decide +kernel
theorem witness_MonitorEvents_tripsHalf :
    (30 < 36) ∧ (((islS 30 tripped id).half .east).boot.inReset = false) ∧ (monitorTrips ((islS 30 tripped id).half .east) 30 0 = true) ∧
    (2 ≤ tripsWithin (((islS 30 tripped id).half .east).pwr.islands.getD 30 { : IslandSt }) ((islS 30 tripped id).half .east).clk.now) ∧
    (islandUnit 30 = none) :=
    by decide +kernel
theorem witness_MonitorEvents_tripsUnit :
    (7 < 36) ∧ (((islS 7 tripped id).half .east).boot.inReset = false) ∧ (monitorTrips ((islS 7 tripped id).half .east) 7 0 = true) ∧
    (2 ≤ tripsWithin (((islS 7 tripped id).half .east).pwr.islands.getD 7 { : IslandSt }) ((islS 7 tripped id).half .east).clk.now) ∧
    (islandUnit 7 = some 7) ∧
    (sourceRetired ((event .east 2059 sevAlarm 0 (le 4 7 ++ le 4 0 ++ le 4 (((islS 7 tripped id).half .east).pwr.islands.getD 7 { : IslandSt }).step ++ le 4 (tripsWithin (((islS 7 tripped id).half .east).pwr.islands.getD 7 { : IslandSt }) ((islS 7 tripped id).half .east).clk.now)) (latchHw 6 .east 40 false ((islS 7 tripped id).upd .east (islandHalt 7)))).half .east) 7 = false) :=
    by decide +kernel
theorem witness_MonitorEvents_relock :
    (((islS 30 stoppedClock id).half .east).boot.inReset = false) ∧
    ((((islS 30 stoppedClock id).half .east).pwr.islands.getD 30 { : IslandSt }).clockHalted = true) ∧ (blockSource 30 = none) :=
    by decide +kernel
theorem witness_MonitorEvents_unitRelock :
    (((islS 7 stoppedClock halted7).half .east).boot.inReset = false) ∧
    ((((islS 7 stoppedClock halted7).half .east).pwr.islands.getD 7 { : IslandSt }).clockHalted = true) ∧ (blockSource 7 = some 7) ∧
    (haltedUnit = unitOf (((islS 7 stoppedClock halted7).upd .east (updIsland 7 fun i => { celsius := i.celsius, allowed := i.allowed, throttled := i.throttled, relaxAt := i.relaxAt, step := i.step, powered := i.powered, idleSince := i.idleSince, lastTrip := i.lastTrip, slowdown := i.slowdown, gated := i.gated, evaluated := i.evaluated : IslandSt })).half .east) 7) ∧
    (haltedUnit.halted = true) ∧ (haltedUnit.toRetire = 0) ∧
    (awaitsHost (((islS 7 stoppedClock halted7).upd .east (updIsland 7 fun i => { celsius := i.celsius, allowed := i.allowed, throttled := i.throttled, relaxAt := i.relaxAt, step := i.step, powered := i.powered, idleSince := i.idleSince, lastTrip := i.lastTrip, slowdown := i.slowdown, gated := i.gated, evaluated := i.evaluated : IslandSt })).half .east) 7 = false) ∧
    (((islS 7 stoppedClock halted7).half .east).alive = true) ∧ (((islS 7 stoppedClock halted7).half .east).bri.tetherStopped = false) :=
    by decide +kernel
theorem witness_PowerEvents_urgent :
    (((islS 13 isl0 suspends).half .east).boot.inReset = false) ∧
    ((((islS 13 isl0 suspends).half .east).pwr.islands.getD 13 { : IslandSt }).powered = true) ∧
    (islandUrgent ((islS 13 isl0 suspends).half .east) 13 = true) :=
    by decide +kernel
theorem witness_PowerEvents_step :
    ((busy.half .east).boot.inReset = false) ∧ (((busy.half .east).pwr.islands.getD 13 { : IslandSt }).powered = true) ∧
    (islandUrgent (busy.half .east) 13 = false) ∧
    (∀ (t : Nat), ((busy.half .east).pwr.islands.getD 13 { : IslandSt }).evaluated = some t → t + 10000 ≤ (busy.half .east).clk.now) :=
    by decide +kernel
theorem witness_PowerEvents_off :
    (((islS 13 idleLong id).half .east).boot.inReset = false) ∧
    ((((islS 13 idleLong id).half .east).pwr.islands.getD 13 { : IslandSt }).idleSince = some 5) ∧
    (5 + 1000000 < ((islS 13 idleLong id).half .east).clk.now) ∧ (13 < 36) ∧
    ((((islS 13 idleLong id).half .east).pwr.islands.getD 13 { : IslandSt }).powered = true) ∧
    (islandBusy .east ((islS 13 idleLong id).half .east) 13 = false) ∧ (neverOff .east ((islS 13 idleLong id).half .east) 13 = false) ∧
    (holdsReservation ((islS 13 idleLong id).half .east) 13 = false) :=
    by decide +kernel
theorem witness_PowerEvents_up :
    (((islS 26 offIsland id).half .east).boot.inReset = false) ∧
    ((((islS 26 offIsland id).half .east).pwr.islands.getD 26 { : IslandSt }).powered = false) ∧
    (∀ (src : Nat), islandUnit 26 = some src → sourceRetired ((islS 26 offIsland id).half .east) src = false) ∧
    (islandBusy .east ((islS 26 offIsland id).half .east) 26 = true ∨ 26 = 26 ∨ 26 = 31) :=
    by decide +kernel
theorem witness_PowerEvents_life :
    ((busy.half .east).alive = true) ∧ ((busy.half .east).pwr.lifeAt + 1000000000 ≤ (busy.half .east).clk.now) :=
    by decide +kernel
theorem witness_PowerEvents_aged :
    (((dayS low).half .east).alive = true) ∧ (((dayS low).half .east).pwr.agedAt + 86400000000000 ≤ ((dayS low).half .east).clk.now) ∧
    ((worstSlowdown ((agedV (dayS low) [50]).half .east).pwr).1 < 300 ∨ ((agedU (dayS low) [50]).half .east).pwr.vreq ≠ 16) :=
    by decide +kernel
theorem witness_PowerEvents_worn :
    (((dayS top).half .east).alive = true) ∧ (((dayS top).half .east).pwr.agedAt + 86400000000000 ≤ ((dayS top).half .east).clk.now) ∧
    (300 ≤ (worstSlowdown ((agedV (dayS top) [300]).half .east).pwr).1) ∧ (((agedU (dayS top) [300]).half .east).pwr.vreq = 16) :=
    by decide +kernel
theorem witness_TimedEvents_pulse :
    ((ppsS2.half .east).boot.inReset = false) ∧ ((ptpFlags ppsS2 .east).testBit 3 = true) ∧
    ((ppsS2.half .east).ptp.lastPps < (ppsS2.half .east).clk.now / 1000000000) :=
    by decide +kernel
theorem witness_TimedEvents_delayReq :
    (.east = ptpHome slaveS .east) ∧ (portHears .east slaveS 0 = true) ∧ ((slaveS.half .east).alive = true) ∧
    ((slaveS.half .east).ptp.slavePort = some (portH .east 0)) ∧
    (∀ (t : Nat), (slaveS.half .east).ptp.lastDelayReq = some t → t + logInterval (ptpField slaveS .east 24 1 0) ≤ (slaveS.half .east).clk.now) :=
    by decide +kernel
theorem witness_TimedEvents_lead :
    ((leadDue.half .east).bri.deadline ≠ 0) ∧ ((leadDue.half .east).bri.deadline ≤ (leadDue.half .east).clk.now) :=
    by decide +kernel
theorem witness_TimedEvents_surface :
    ((surfTick.half .east).alive = true) ∧ ((surfTick.half .east).obj.encode? 0 = some surfEnc) ∧ ((surfTick.half .east).env.pend = none) ∧
    (1000000000 = esTick (surfTick.half .east).running ((surfTick.half .east).record (encodeH .east 0)) surfEnc.nextTick) ∧
    (1000000000 ≤ (surfTick.half .east).clk.now) ∧ (hType (esSource ((surfTick.half .east).record (encodeH .east 0))) = 10) ∧
    (0 = hIndex (esSource ((surfTick.half .east).record (encodeH .east 0)))) ∧ (surfEnc.run = RunState.running) ∧
    (modeHost ((surfaceApply .east 1000000000 0 surfTick).half .east) fnStencil (encodeH .east 0) = false) ∧
    (modeHost ((surfaceApply .east 1000000000 0 surfTick).half .east) fnStencil (esSource ((surfTick.half .east).record (encodeH .east 0))) = false) :=
    by decide +kernel
theorem witness_IndexWritesStayHome_cmdq :
    (Instr.cmdqTailWrite .east 5 ∈ [Instr.cmdqTailWrite .east 5, Instr.cplqHeadWrite .east 5, Instr.evtqHeadWrite .east 5, Instr.asqTailWrite .east 5, Instr.asrHeadWrite .east 5]) ∧
    (NoIcuCheck .east busy) ∧ (exec (Instr.cmdqTailWrite .east 5) busy = Host.Outcome.next tailed) :=
    ⟨by decide +kernel, by decide +kernel, rfl⟩
theorem witness_MemoryReadsBack_both :
    (Memory.wf mem0 = true) ∧ (Memory.wf mem0 = true) ∧ (∀ (a : Nat), memGet mem0 a = memGet mem0 a) :=
    ⟨by decide +kernel, by decide +kernel, (fun _ => rfl) ⟩
theorem witness_BucketRefills_later :
    (plainEvents.balanceAt ≤ 5) ∧ (5 ≤ 9) :=
    by decide +kernel
theorem witness_FirstTickIsLeast_60Hz :
    (0 < 50000000) ∧ (0 < 3) :=
    by decide +kernel
theorem witness_BandsCoverRows_three :
    ([1, 2, 3] ≠ []) ∧ ([1, 2, 3].Nodup) ∧ (11 < cvRows (recB canvas0)) :=
    by decide +kernel
theorem witness_RefusedIndexWrites_cmdq :
    (full0 = (fullS.half .east).rings) ∧ (hostReach (fullS.half .east) = true) ∧
    (256 < ringFill 257 full0.cmdqHead ∨ ringFill 257 full0.cmdqHead < ringFill full0.cmdqTail full0.cmdqHead) :=
    by decide +kernel
theorem witness_RefusedIndexWrites_cplq :
    (full0 = (fullS.half .east).rings) ∧ (hostReach (fullS.half .east) = true) ∧
    (256 < ringFill full0.cplqTail 6 ∨ ringFill full0.cplqTail full0.cplqHead < ringFill full0.cplqTail 6) :=
    by decide +kernel
theorem witness_RefusedIndexWrites_evtq :
    (full0 = (fullS.half .east).rings) ∧ (hostReach (fullS.half .east) = true) ∧
    (1024 < ringFill full0.evtqTail 6 ∨ ringFill full0.evtqTail full0.evtqHead < ringFill full0.evtqTail 6) :=
    by decide +kernel
theorem witness_RefusedIndexWrites_asq :
    (full0 = (fullS.half .east).rings) ∧ (hostReach (fullS.half .east) = true) ∧
    (512 < ringFill 513 full0.asqHead ∨ ringFill 513 full0.asqHead < ringFill full0.asqTail full0.asqHead) :=
    by decide +kernel
theorem witness_RefusedIndexWrites_asr :
    (full0 = (fullS.half .east).rings) ∧ (hostReach (fullS.half .east) = true) ∧
    (512 < ringFill full0.asrTail 6 ∨ ringFill full0.asrTail full0.asrHead < ringFill full0.asrTail 6) :=
    by decide +kernel
theorem witness_RefusedIndexWrites_same :
    (full0 = (fullS.half .east).rings) ∧ (hostReach (fullS.half .east) = true) ∧ (4 < 5) ∧ (NoIcuCheck .east fullS) :=
    by decide +kernel
theorem witness_RetireCommand_unit :
    (Taken .east unitRetireSpec retire7 none busy) ∧ (BitVec.ofNat 32 (fld retire7 16 4) ≠ 0) ∧
    (handleSource .east (BitVec.ofNat 32 (fld retire7 16 4)) = some 7) ∧ (sourceRetired ((takeEntry .east busy).half .east) 7 = false) :=
    by decide +kernel
theorem witness_RetireCommand_half :
    (Taken .east unitRetireSpec retireHalfEnt none busy) ∧ (BitVec.ofNat 32 (fld retireHalfEnt 16 4) = 0) :=
    by decide +kernel
theorem witness_RetireCommand_again :
    (Taken .east unitRetireSpec retire7 none retired7) ∧ (BitVec.ofNat 32 (fld retire7 16 4) ≠ 0) ∧
    (handleSource .east (BitVec.ofNat 32 (fld retire7 16 4)) = some 7) ∧
    (sourceRetired ((takeEntry .east retired7).half .east) 7 = true) :=
    by decide +kernel
theorem witness_FuseDigest_report :
    (fuses1.keyHash = [1, 2, 3, 4]) ∧ (fuses1.counter < 256) ∧ ((fusedS.half .east).boot.fuses = fuses1) ∧ (32 ≤ attest0.payload.length) :=
    by decide +kernel
theorem witness_CommandsStayInside_tail :
    exec (Instr.cmdqTailWrite .east 5) busy = Host.Outcome.next tailed :=
    rfl
theorem witness_ChangeRectsCover_one :
    (1 < 3) ∧ (1 < 3) ∧ ((1 == 1) = true) :=
    by decide +kernel

theorem witness_StepKeepsInv_reset : queued.Inv ∧ step queued = .next (nextOf (step queued)) := by
  refine ⟨?_, rfl⟩
  unfold State.Inv Half.Inv Half.memoriesOk Half.queuesOk Half.unitsOk
  decide +kernel

end Sys2Proof.Tests
end

section
/-!
PROOFS. Sparse memory: what a memory in canonical form reads after a write, and that its reads determine it.
-/
namespace Sys2Proof.Machine

@[simp] theorem memGet_cons_same (k : Nat) (v : Byte) (m : Mem) : memGet ((k, v) :: m) k = v := if_pos rfl

theorem memGet_cons_ne {k a : Nat} (h : k ≠ a) (v : Byte) (m : Mem) : memGet ((k, v) :: m) a = memGet m a := if_neg h

/-- Below the least address that the canonical form admits, nothing is listed. -/
theorem memGet_of_lt {lo a : Nat} {m : Mem} (hm : memWfFrom lo m = true) (ha : a < lo) : memGet m a = 0 := by
  induction m generalizing lo with
  | nil => rfl
  | cons c m ih =>
    obtain ⟨k, v⟩ := c
    obtain ⟨hk, -, hm⟩ := memWfFrom_cons.1 hm
    rw [memGet_cons_ne (by omega)]
    exact ih hm (by omega)

/-- A byte set is the byte read and every other address reads as before. A zero byte deletes its entry: that the address then reads zero
holds because in canonical form the rest of the list does not list it again. -/
theorem memGet_memSet {lo : Nat} {m : Mem} (hm : memWfFrom lo m = true) (a : Nat) (b : Byte) (c : Nat) :
    memGet (memSet a b m) c = if a = c then b else memGet m c := by
  induction m generalizing lo with
  | nil =>
    unfold memSet
    split
    · next hb => simp [hb, memGet]
    · rfl
  | cons e m ih =>
    obtain ⟨k, v⟩ := e
    obtain ⟨-, -, hm⟩ := memWfFrom_cons.1 hm
    unfold memSet
    split
    · next hak =>
      split
      · next hb =>
        split
        · next hac => rw [hb, memGet_cons_ne (by omega), memGet_of_lt hm (by omega)]
        · rfl
      · rfl
    · split
      · next hak =>
        subst hak
        split
        · next hb =>
          split
          · next hac => rw [hb, memGet_of_lt hm (by omega)]
          · next hac => rw [memGet_cons_ne hac]
        · by_cases hac : a = c <;> simp [memGet, hac]
      · next hak =>
        by_cases hkc : k = c
        · subst hkc
          rw [memGet_cons_same, memGet_cons_same, if_neg hak]
        · rw [memGet_cons_ne hkc, memGet_cons_ne hkc, ih hm]

/-- Bytes written from an address upwards are the bytes read there, and every address outside their range reads as before. -/
theorem memGet_memWrite {m : Mem} (hm : Memory.wf m = true) (a : Nat) (bytes : List Byte) (c : Nat) :
    memGet (memWrite a bytes m) c = if a ≤ c ∧ c < a + bytes.length then bytes.getD (c - a) 0 else memGet m c := by
  induction bytes generalizing a m with
  | nil => rw [if_neg (by simp only [List.length_nil]; omega), memWrite]
  | cons b bs ih =>
    rw [memWrite, ih (memSet_wf a b hm), memGet_memSet hm, List.length_cons]
    rcases Nat.lt_trichotomy c a with hca | rfl | hac
    · rw [if_neg (by omega), if_neg (by omega), if_neg (by omega)]
    · rw [if_neg (by omega), if_pos rfl, if_pos (by omega), Nat.sub_self, List.getD_cons_zero]
    · have hsub : c - a = (c - (a + 1)) + 1 := by omega
      rw [hsub, List.getD_cons_succ, if_neg (show ¬ a = c by omega)]
      exact if_congr (by omega) rfl rfl

/-- Of two canonical memories that read the same, neither begins below the other: the smaller first address would read non-zero in the one
and zero in the other. -/
theorem memGet_head_le {lo k : Nat} {v : Byte} {m n : Mem} (hv : v ≠ 0) (hn : memWfFrom lo n = true)
    (h : ∀ a, memGet ((k, v) :: m) a = memGet n a) : lo ≤ k := by
  by_contra hlt
  have hk := h k
  rw [memGet_cons_same, memGet_of_lt hn (by omega)] at hk
  exact hv hk

/-- The canonical form is unique: memories that read the same at every address are the same list. -/
theorem memWfFrom_ext {lo lo' : Nat} {m n : Mem} (hm : memWfFrom lo m = true) (hn : memWfFrom lo' n = true)
    (h : ∀ a, memGet m a = memGet n a) : m = n := by
  induction m generalizing lo lo' n with
  | nil =>
    cases n with
    | nil => rfl
    | cons c n =>
      obtain ⟨k, v⟩ := c
      obtain ⟨-, hv, -⟩ := memWfFrom_cons.1 hn
      exact absurd ((memGet_cons_same k v n).symm.trans (h k).symm) hv
  | cons c m ih =>
    obtain ⟨k, v⟩ := c
    obtain ⟨-, hv, hm'⟩ := memWfFrom_cons.1 hm
    cases n with
    | nil => exact absurd ((memGet_cons_same k v m).symm.trans (h k)) hv
    | cons d n =>
      obtain ⟨j, w⟩ := d
      obtain ⟨-, hw, hn'⟩ := memWfFrom_cons.1 hn
      have hkj : k = j :=
        Nat.le_antisymm (memGet_head_le hw (memWfFrom_cons.2 ⟨le_rfl, hv, hm'⟩) fun a => (h a).symm)
          (memGet_head_le hv (memWfFrom_cons.2 ⟨le_rfl, hw, hn'⟩) h)
      subst hkj
      have hvw : v = w := by simpa using h k
      have hrest : ∀ a, memGet m a = memGet n a := by
        intro a
        by_cases hka : k = a
        · subst hka
          rw [memGet_of_lt hm' (Nat.lt_succ_self k), memGet_of_lt hn' (Nat.lt_succ_self k)]
        · simpa only [memGet_cons_ne hka] using h a
      rw [hvw, ih hm' hn' hrest]

/-- Settles O52: a write is read back and changes no other address (`memGet_memWrite`), and the canonical form is unique
(`memWfFrom_ext`). -/
theorem memoryReadsBack : Obligations.MemoryReadsBack := by
  intro m n hm
  exact ⟨fun a bytes c => memGet_memWrite hm a bytes c, fun hn h => memWfFrom_ext hm hn h⟩

end Sys2Proof.Machine
end

section
/-!
PROOFS. Events whose guards hold: what a step that the outcome or the settling wraps is, and that a half whose firmware runs is not in reset.
-/
namespace Sys2Proof.Machine

theorem next_congr {u v : State} (hu : u = v) : (.next u : Out) = .next v := congrArg _ hu

theorem settled_congr {h : HalfId} {u v : State} (hu : u = v) : settled h u = .next (settle h v) := congrArg (settled h) hu

theorem inReset_of_alive {x : Half} (ha : x.alive = true) : x.boot.inReset = false := by
  simpa using (Bool.and_eq_true_iff.1 ha).2

end Sys2Proof.Machine
end

section
/-!
PROOFS. Encode events (R28, R213, R218, R220, R228, R242, R254, R296).
-/
namespace Sys2Proof.Machine

section
variable {h : HalfId} {s : State} {i k : Nat}

/-- A free engine does what `encChoose` finds for it: it resumes a suspended picture or starts a new one (R213, R220). -/
theorem execEncodePictureStart_free {engine : Nat} {g : EngineSt} (hg : (s.half h).enc[engine]? = some g) (ha : (s.half h).alive = true)
    (ho : islandOn (s.half h) engine = true) (hh : g.halted = false) (hr : g.toRetire = 0) (hs : g.flags.inService = true)
    (hc : g.current = none) (f : EncodeFacts) {r : Nat × Bool} (hm : encChoose h (s.half h) engine = some r) :
    execEncodePictureStart h engine f s = .next (if r.2 then s.upd h (fun y => unitsBegin [engine] (encResume engine r.1 y))
      else startPicture h engine r.1 f s) := by
  obtain ⟨i, resumes⟩ := r
  have hd : (s.half h).enc.getD engine { halted := true } = g := by simp [hg]
  refine next_congr ((if_neg (by rw [hd]; simp [ha, ho, hh, hr, hs, hc])).trans ?_)
  cases resumes <;> simp only [hm, Bool.false_eq_true, if_false, if_true]

/-- A unit that no stop holds back is handed over, is kept for its turn, or is released with those that waited for it (R213, R242). -/
theorem execEncodedUnitHandoff_admitted {e : EncodeSt} {p : EncPlan} {u : CodedUnit} {r : Record} {engine : Nat}
    (he : (s.half h).obj.encode? i = some e) (hp : e.plan = some p) (hr : r = (s.half h).record (encodeH h i))
    (hn : engine = unitEngine (s.half h) r e p u) (ht : (s.half h).bri.tetherStopped = false) (hz : u.sizes ≠ [])
    (hc : (crossingAt (s.half h) engine 30).halted = false)
    (hs : u.header = true → u.sizes.length = (p.heads.filter HeadUnit.sent).length) :
    execEncodedUnitHandoff h i u s = .next (if u.header || !unitsWait r p then handUnit h e p engine s u
      else if !mayForm r p u then s
      else (EncPlan.release r (p.formed.length + 1) (p.form r u)).1.foldl
        (fun t v => handUnit h e (EncPlan.release r (p.formed.length + 1) (p.form r u)).2 (unitEngine (s.half h) r e p v) t v)
        (s.upd h (updEncode i (fun m => { m with plan := some (EncPlan.release r (p.formed.length + 1) (p.form r u)).2 })))) := by
  have hfree : ¬ ((s.half h).bri.tetherStopped || u.sizes.isEmpty || (crossingAt (s.half h) engine 30).halted ||
      (u.header && u.sizes.length != (p.heads.filter HeadUnit.sent).length)) = true := by
    cases hu : u.header <;> simp_all
  refine next_congr ?_
  simp only [he, hp, ← hr, ← hn, if_neg hfree]

/-- At the end of a second the interval moves on, and what was absorbed in it is reported, if anything was (R218). -/
theorem execRefreshAbsorbed_due {e : EncodeSt} (he : (s.half h).obj.encode? i = some e) (ht : e.intervalStart + 1000000000 ≤ s.now h)
    {v : State} (hv : v = s.upd h (updEncode i (fun q => { q with
      intervalStart := e.intervalStart + (s.now h - e.intervalStart) / 1000000000 * 1000000000, absorbedInterval := 0 }))) :
    execRefreshAbsorbed h i s =
      .next (if e.absorbedInterval = 0 then v else event h 0x0423 sevInfo (encodeH h i) (le 4 e.absorbedInterval) v) := by
  refine next_congr ?_
  simp only [he, if_neg (Nat.not_lt.2 ht), beq_iff_eq, hv]

/-- A surge that has lasted a second without a picture ends (R254). -/
theorem execSurgeEnded_due {c : EncCluster} {t : Nat} (hc : (s.half h).obj.clusters[k]? = some c) (hl : c.lastSurge = some t)
    (hs : c.surging = true) (ht : t + 1000000000 ≤ s.now h) :
    execSurgeEnded h k s = .next (event h 0x0428 sevInfo 0 (le 1 k ++ le 8 (t - c.surgeStart) ++ le 4 c.surgeNow ++ le 8 c.deferNow)
      (s.upd h (updCluster k (fun c => { c with surging := false, surgeNow := 0, deferNow := 0 })))) := by
  have hd : (c.surging && decide (t + 1000000000 ≤ s.now h)) = true := by rw [hs, decide_eq_true ht, Bool.and_self]
  refine next_congr ?_
  simp only [hc, hl, if_pos hd]

/-- Credit that has been negative for more than a second is reported, the first time (R254). -/
theorem execSurgeSustained_negative {c0 c : EncCluster} {t : Nat} (h0 : (s.half h).obj.clusters[k]? = some c0)
    (hc : c = creditRefill (s.now h) c0) (hn : c.credit < 0) (ht : c.negativeSince = some t) (hl : t + 1000000000 < s.now h)
    (ha : c.agedAt = none) (hq : c.lastSustained = none) :
    execSurgeSustained h k s = .next (event h 0x0429 sevWarning 0 (le 1 k ++ le 8 (unsigned 64 (creditWhole c.lowest)) ++ le 4 0)
      (s.upd h (updCluster k (fun _ => { c with lastSustained := some (s.now h) })))) := by
  have hneg : (c.negativeSince.any fun t => decide (t + 1000000000 < s.now h)) = true := by
    rw [ht, Option.any_some]; exact decide_eq_true hl
  have haged : (c.agedAt.any fun t => decide (s.now h < t + 1000000000)) = false := by rw [ha, Option.any_none]
  have hquiet : (c.lastSustained.all fun t => decide (t + 1000000000 ≤ s.now h)) = true := by rw [hq, Option.all_none]
  refine next_congr ?_
  simp only [h0, ← hc, if_neg (Int.not_le.2 hn), hneg, haged, hquiet, Bool.or_false, Bool.and_true, if_true, Bool.false_eq_true, if_false]

end

/-- Settles O29: each event's guard holds under the statement's hypotheses, and what the event then does is the lemma above on it. -/
theorem encodeEvents : Obligations.EncodeEvents := by
  constructor
  · rintro h s _ rfl
    refine ⟨fun engine g i f hg ha ho hh hr hs hc => ⟨fun hm => ?_, fun hm => ?_⟩, fun i e p u r engine he hp hr hn ht hz hc hs => ?_,
      fun i e p r he hp hr hd ht => ?_⟩
    · exact execEncodePictureStart_free hg ha ho hh hr hs hc f hm
    · exact execEncodePictureStart_free hg ha ho hh hr hs hc f hm
    · have hx := execEncodedUnitHandoff_admitted he hp hr hn ht hz hc hs
      refine ⟨fun hu => hx.trans ?_, fun hu hw hm => hx.trans ?_, fun out q hu hw hm ho => hx.trans ?_⟩
      · exact next_congr (if_pos (by simpa using hu))
      · simp [hu, hw, hm]
      · simp [hu, hw, hm, ho]
    · refine next_congr ?_
      simp only [he, hp, ← hr, hd, Bool.not_false, Bool.true_and, decide_eq_true ht, if_true]
  · rintro h s _ rfl
    refine ⟨fun i e key crc he hw hg => ⟨fun own ho => ?_, fun ho => ?_⟩, fun i e v he ht hv => ⟨fun ha => ?_, fun ha => ?_⟩,
      fun k c t hc hl hs ht => execSurgeEnded_due hc hl hs ht, fun k c0 c t h0 hc hn ht hl ha hq => execSurgeSustained_negative h0 hc hn ht hl ha hq⟩
    · refine next_congr ?_
      simp only [he, hw, hg, ho, Bool.not_true, Bool.or_self, Bool.false_eq_true, if_false]
    · have hnone : e.ownCrcs.find? (fun p => p.1 == key) = none := by simpa using ho
      refine next_congr ?_
      simp only [he, hw, hg, hnone, Bool.not_true, Bool.or_self, Bool.false_eq_true, if_false]
    · exact (execRefreshAbsorbed_due he ht hv).trans (next_congr (if_pos ha))
    · exact (execRefreshAbsorbed_due he ht hv).trans (next_congr (if_neg ha))

end Sys2Proof.Machine
end

section
/-!
PROOFS. The spar link and the partner's tether (R21, R285, R444, R448, R449, R458, R459).
-/
namespace Sys2Proof.Machine

section
variable {h : HalfId} {s : State}

/-- A link that fails is declared down: source 30 latches, SPAR_DOWN tells whether the partner was alive, and what waited for its STOP_ACK goes on
without it (R21, R449). -/
theorem execSparDown_fails {events : List LaneEvent} {y : Half} {cause : Nat} {seen : Bool} {v : State}
    (hr : (s.half h).boot.inReset = false) (hu : (s.half h).bri.sparUp = true) (hy : y = events.foldl laneSees (s.half h))
    (hc : laneFails y = some cause) (hs : seen = (y.bri.partnerSeen && !y.bri.partnerLost))
    (hv : v = linkGone h (ptpSplit h (event h 0x0903 sevAlarm 0 (le 4 cause ++ le 4 (b2n seen)) (latchHw 6 h 30 false
      (s.upd h (fun _ => updBri (fun b => { b with sparUp := false, downSince := y.clk.now, outages := sat32 b.outages, holdoff := seen
                                                   unacked := [], crcRun := 0 })
        { y with obj := { y.obj with decodes := y.obj.decodes.map (fun d => { d with copies := [] }) } })))))) :
    execSparDown h events s = .next (settle h (if y.bri.takeoverSent = none then v else foreignSessions h v)) := by
  have hsees : s.upd h (fun x => events.foldl laneSees x) = s.upd h (fun _ => y) := upd_congr hy.symm
  refine settled_congr ((if_neg (by simp [hr, hu])).trans ?_)
  simp only [hsees, half_upd_self, upd_upd, hc, ← hs, hv]
  cases y.bri.takeoverSent <;> rfl

/-- A link that works again on its pin is reported up; where it then carries commands, the follower takes the lead's clock and both halves
rejoin (R285, R459). -/
theorem execSparUp_returns {v w : State} {lead : HalfId} (hr : (s.half h).boot.inReset = false) (hu : (s.half h).bri.sparUp = false)
    (hp : s.sparPhys = true) (hb : (s.half h).boot.stage = 7)
    (hv : v = event h 0x0904 sevInfo 0 (le 8 ((s.half h).clk.now - (s.half h).bri.downSince)) (s.upd h (fun x => updBri (fun b => { b with
      sparUp := true, holdoff := false, idleAt := x.clk.now }) x)))
    (hl : lead = (if v.east.bri.lead then HalfId.east else .west))
    (hw : w = (if v.east.bri.lead = v.west.bri.lead then v else v.upd lead.other (fun y => { y with clk := (v.half lead).clk }))) :
    execSparUp h s = .next (settle h (if v.sparWorks then rejoin .west (rejoin .east w) else v)) := by
  refine settled_congr ((if_neg (by simp [hr, hu, hp, hb])).trans ?_)
  simp only [← hv, hw, hl, beq_iff_eq]
  cases v.sparWorks <;> simp

end

/-- Settles O36: under each clause's hypotheses the event's guards hold, and the rest of the event is the state that the clause writes out. -/
theorem partnerEvents : Obligations.PartnerEvents := by
  constructor
  · rintro h s _ rfl
    refine ⟨fun events y hr hu hy => ⟨fun hn => ?_, fun cause v seen hc hs hv => execSparDown_fails hr hu hy hc hs hv⟩,
      fun v w lead hr hu hp hb hv hl hw => execSparUp_returns hr hu hp hb hv hl hw, fun ha hu hh ht hl hs => ?_⟩
    · refine settled_congr ((if_neg (by simp [hr, hu])).trans ?_)
      simp only [half_upd_self, ← hy, hn]
      exact upd_congr hy.symm
    · exact next_congr ((if_neg (by simp [ha, hu, hh, ht])).trans (if_neg (by simp [hl, hs])))
  · rintro h s _ rfl ha
    refine ⟨fun hn hl hs ht => ?lost, fun v ht hn hb ho hv w hw => ?absent, fun hr hp hn => ?alive, fun flows v hw hp hs hv => ?stopped,
      fun hr hw hs => ?takeover, fun flows hw hs => ?stopAck, fun t hs ht => ?timeout⟩
    case lost => exact settled_congr ((if_neg (by simp [ha, hn, hl])).trans (if_neg (by simp [hs, ht])))
    case absent =>
      refine settled_congr ((if_neg (by simp [ha, ht, hn, hb, ho])).trans ?_)
      rw [hw, hv]; rfl
    case alive =>
      refine next_congr (if_neg ?_)
      rcases hn with hn | hn <;> simp [hr, hp, hn]
    case stopped => exact settled_congr ((if_neg (by simp [ha, hw, hp, hs])).trans (by rw [hv]))
    case takeover => exact next_congr ((if_neg (by simp [hr, hw])).trans (if_neg (by simp [hs])))
    case stopAck => exact settled_congr (if_neg (by simp [ha, hw, hs]))
    case timeout =>
      refine settled_congr ?_
      simp only [hs]
      exact if_neg (by simp [ha, ht])

end Sys2Proof.Machine
end

section
/-!
PROOFS. Clock islands, life and aging (R27, R32 to R34, R529, R531, R535).
-/
namespace Sys2Proof.Machine

section
variable {h : HalfId} {s : State} {k : Nat}

/-- A day after the last measurement aging is measured: the slowdowns are kept, the voltage request rises by one step towards what the worst of them
asks for, and from 300 with the request at its end the host is warned (R535). -/
theorem execAgingMeasurement_due {slow : List Nat} {v u : State} {w : Nat × Nat} (ha : (s.half h).alive = true)
    (ht : (s.half h).pwr.agedAt + 86400000000000 ≤ (s.half h).clk.now)
    (hv : v = s.upd h (fun y => { y with pwr := { y.pwr with
      agedAt := y.clk.now
      islands := (y.pwr.islands.zip ((List.range 36).map (fun i => slow.getD i 0))).map (fun p => { p.1 with slowdown := p.2 }) } }))
    (hw : w = worstSlowdown (v.half h).pwr)
    (hu : u = (if (s.half h).pwr.vreq < min 16 ((s.half h).pwr.setpoint + w.1 / 50) then
      event h 0x080C sevInfo 0 (le 4 (s.half h).pwr.vreq ++ le 4 ((s.half h).pwr.vreq + 1) ++ le 4 2) (v.upd h (fun y => { y with pwr := { y.pwr with
        vreq := (s.half h).pwr.vreq + 1, vreqOld := (s.half h).pwr.vreq, vreqAt := y.clk.now } })) else v)) :
    execAgingMeasurement h slow s = .next (if 300 ≤ w.1 && (u.half h).pwr.vreq == 16 then
      event h 0x080D sevWarning 0 (le 4 w.2 ++ le 4 w.1 ++ le 4 (lifeUsed (s.half h).pwr)) u else u) := by
  have hvreq : (v.half h).pwr.vreq = (s.half h).pwr.vreq := by rw [hv, half_upd_self]
  have hset : (v.half h).pwr.setpoint = (s.half h).pwr.setpoint := by rw [hv, half_upd_self]
  have hlife : (v.half h).pwr.life = (s.half h).pwr.life := by rw [hv, half_upd_self]
  have hused : lifeUsed (v.half h).pwr = lifeUsed (s.half h).pwr := by unfold lifeUsed; rw [hlife]
  have hdue : ¬ (!(s.half h).alive || decide ((s.half h).clk.now < (s.half h).pwr.agedAt + 86400000000000)) = true := by simp [ha, ht]
  rw [hu, ← hvreq, ← hset, ← hused, hw, hv]
  exact next_congr (if_neg hdue)

/-- The clock step of a powered island whose unit is not urgent follows its queues and its thermal cap, once in 10 µs (R32, R531). -/
theorem execClockStepEvaluation_follows (hr : (s.half h).boot.inReset = false) (hp : ((s.half h).pwr.islands.getD k {}).powered = true)
    (hu : islandUrgent (s.half h) k = false)
    (he : ∀ t, ((s.half h).pwr.islands.getD k {}).evaluated = some t → t + 10000 ≤ (s.half h).clk.now) (depth capacity : Nat) :
    execClockStepEvaluation h k depth capacity s = .next (s.upd h (updIsland k (fun i => { i with
      step := min i.allowed (8 - halvings (queueDepth h (s.half h) k depth) (queueRoom k capacity) 7), evaluated := some (s.half h).clk.now }))) := by
  have hq : (((s.half h).pwr.islands.getD k {}).evaluated.any fun t => decide ((s.half h).clk.now < t + 10000)) = false := by
    simpa [Option.any_eq_false] using he
  exact next_congr (upd_congr (by simp [hr, hp, hu, hq, -List.getD_eq_getElem?_getD]))

/-- An island that has been idle for more than 1 ms, and that no reservation or rule keeps on, powers off, gated (R27, R33, R34). -/
theorem execIslandPowerOff_idle {t : Nat} (hr : (s.half h).boot.inReset = false) (hi : ((s.half h).pwr.islands.getD k {}).idleSince = some t)
    (ht : t + 1000000 < (s.half h).clk.now) (hk : k < 36) (hp : ((s.half h).pwr.islands.getD k {}).powered = true)
    (hb : islandBusy h (s.half h) k = false) (hn : neverOff h (s.half h) k = false) (hv : holdsReservation (s.half h) k = false) :
    execIslandPowerOff h k s = .next (s.upd h (updIsland k (fun i => { i with powered := false, gated := true, step := 0, idleSince := none }))) := by
  have hidle : (((s.half h).pwr.islands.getD k {}).idleSince.any fun t => decide (t + 1000000 < (s.half h).clk.now)) = true := by
    rw [hi, Option.any_some]; exact decide_eq_true ht
  exact next_congr (upd_congr (if_neg (by rw [hr, hp, hidle, hb, hn, hv, decide_eq_false (Nat.not_le.2 hk)]; decide)))

/-- An island powers up for input that has arrived, which for 26 and 31 the event itself stands for (log 68), unless its unit is retired (R33). -/
theorem execIslandPowerUp_works (hr : (s.half h).boot.inReset = false) (hp : ((s.half h).pwr.islands.getD k {}).powered = false)
    (hg : ∀ src, islandUnit k = some src → sourceRetired (s.half h) src = false)
    (hw : islandBusy h (s.half h) k = true ∨ k = 26 ∨ k = 31) :
    execIslandPowerUp h k s = .next (s.upd h (fun y => count k 4 1 (updIsland k (fun i => { i with
      powered := true, gated := false, step := i.allowed, idleSince := none }) y))) := by
  have hgone : (islandUnit k).any (sourceRetired (s.half h)) = false := by simpa [Option.any_eq_false] using hg
  have hwork : (islandBusy h (s.half h) k || k == 26 || k == 31) = true := by simpa [or_assoc] using hw
  exact next_congr (upd_congr (if_neg (by rw [hr, hp, hgone, hwork]; decide)))

end

/-- Settles O46: each event's guards hold under the statement's hypotheses; whether the aging warning is raised is the last guard of its event. -/
theorem powerEvents : Obligations.PowerEvents := by
  rintro h s _ k _ rfl rfl
  refine ⟨fun hr hp => ⟨fun hu depth capacity => ?step, fun hu he => execClockStepEvaluation_follows hr hp hu he⟩,
    fun t hr hi ht hk hp hb hn hv => execIslandPowerOff_idle hr hi ht hk hp hb hn hv, fun hr hp hg hw => execIslandPowerUp_works hr hp hg hw, fun ha ht => ?life,
    fun slow v w u ha ht hv hw hu => ⟨fun hc => ?quiet, fun hc hq => ?warns⟩⟩
  case step => exact next_congr (upd_congr (by simp [hr, hp, hu, -List.getD_eq_getElem?_getD]))
  case life => exact next_congr ((if_neg (by simp [ha, ht])).trans (upd_congr (by simp)))
  case quiet => exact (execAgingMeasurement_due ha ht hv hw hu).trans (next_congr (if_neg (by simpa [Nat.not_le, or_iff_not_imp_left] using hc)))
  case warns => exact (execAgingMeasurement_due ha ht hv hw hu).trans (next_congr (if_pos (by simp [hc, hq])))

end Sys2Proof.Machine
end

section
/-!
PROOFS. Fault latches, crossings and sequencers (R20, R28, R434, R437, R442, R468 to R478).
-/
namespace Sys2Proof.Machine

section
variable {h : HalfId} {s : State} {src : Nat}

/-! Pins, flits and crossings. -/

theorem pinRises_of_checker {c : Nat} (hc : pinChecker src = some c) (h : HalfId) (s : State) :
    pinRises h src s = latchHw 6 h src (armedMask (s.half h) c != 0) (s.upd h (disarm c)) := by
  simp only [pinRises, hc]

theorem pinRises_of_noChecker (hc : pinChecker src = none) (h : HalfId) (s : State) : pinRises h src s = latchHw 6 h src false s := by
  simp only [pinRises, hc]

/-- Only the sources of crossing violations, 44 to 47, do not latch by a pin's report (R28). -/
theorem execFaultLatched_pin (hs : src < 44 ∨ 48 ≤ src) (h : HalfId) (s : State) :
    execFaultLatched h (.pin src) s = .next (settle h (pinRises h src s)) := by
  refine settled_congr (if_neg ?_)
  rw [Bool.and_eq_true, decide_eq_true_eq, decide_eq_true_eq]
  omega

theorem execFaultLatched_crossing_silent {p c : Nat} {op : FifoOp} {u : State} (hr : (s.half h).boot.inReset = false)
    (hm : crossingMeets h p c op s = (u, none)) : execFaultLatched h (.crossing p c op) s = .next (settle h u) := by
  refine settled_congr ((if_neg (by simp [hr])).trans ?_)
  simp only [hm]

theorem execFaultLatched_crossing_latches {p c : Nat} {op : FifoOp} {u : State} (hr : (s.half h).boot.inReset = false)
    (hm : crossingMeets h p c op s = (u, some src)) : execFaultLatched h (.crossing p c op) s = .next (settle h (pinRises h src u)) := by
  refine settled_congr ((if_neg (by simp [hr])).trans ?_)
  simp only [hm]

theorem crossingMeets_halted {p c : Nat} (hh : (crossingAt (s.half h) p c).halted = true) (op : FifoOp) :
    crossingMeets h p c op s = (s, none) := if_pos hh

theorem crossingMeets_bad {p c : Nat} {op : FifoOp} (hh : (crossingAt (s.half h) p c).halted = false)
    (hb : crossingBad (crossingAt (s.half h) p c) op = true) :
    crossingMeets h p c op s = (s.upd h (updCrossing p c (fun f => { f with halted := true })), some (crossingSource p)) :=
  (if_neg (by simp [hh])).trans (if_pos hb)

theorem crossingMeets_good {p c : Nat} {op : FifoOp} (hh : (crossingAt (s.half h) p c).halted = false)
    (hb : crossingBad (crossingAt (s.half h) p c) op = false) :
    crossingMeets h p c op s = (crossingDo h p c op s, none) :=
  (if_neg (by simp [hh])).trans (if_neg (by simp [hb]))

/-! Units by their fault source. -/

theorem getD_modify_cases {α : Type} (l : List α) (n : Nat) (f : α → α) (d : α) :
    (l.modify n f).getD n d = f (l.getD n d) ∨ (l.modify n f).getD n d = l.getD n d := by
  simp only [List.getD_eq_getElem?_getD, List.getElem?_modify_eq]
  cases l[n]?
  · exact .inr rfl
  · exact .inl rfl

theorem unitOf_updUnit_cases (f : EngineSt → EngineSt) (x : Half) (src : Nat) :
    unitOf (updUnit src f x) src = f (unitOf x src) ∨ unitOf (updUnit src f x) src = unitOf x src := by
  unfold unitOf updUnit
  split
  · exact getD_modify_cases _ _ _ _
  · split
    · exact getD_modify_cases _ _ _ _
    · split
      · exact getD_modify_cases _ _ _ _
      · exact .inr rfl

/-- An update of a unit that leaves the picture it runs leaves that reading of it. -/
theorem unitOf_updUnit_current {f : EngineSt → EngineSt} (hf : ∀ g, (f g).current = g.current) (x : Half) (src : Nat) :
    (unitOf (updUnit src f x) src).current = (unitOf x src).current := by
  rcases unitOf_updUnit_cases f x src with hu | hu <;> rw [hu]
  exact hf _

/-! Safe points and fetches. -/

/-- A running unit without a halt at a safe point retires, suspends, or clears its safe-point counter (R472). -/
theorem safePointDo_running {i : Nat} (hi : (unitOf (s.half h) src).current = some i) (hh : (unitOf (s.half h) src).halted = false)
    (hs : (unitOf (s.half h) src).seq.halt = false) :
    safePointDo h src s = if (unitOf (s.half h) src).toRetire != 0 then retireEngine h src (unitOf (s.half h) src).toRetire s
      else if suspensionPending h (s.half h) src i then s.upd h (fun x => suspendDo src i (if src < 8 then producerStops src x else x))
      else s.upd h (updUnit src (fun g => { g with seq := { g.seq with clocks := 0 } })) := by
  simp only [safePointDo, hi, hh, hs, Bool.false_eq_true, if_false]

theorem execSafePoint_alive {block : Nat} (hb : blockSource block = some src) (ha : (s.half h).alive = true) :
    execSafePoint h block s = .next (settle h (safePointDo h src s)) := by
  refine settled_congr ?_
  simp only [hb, ha, if_true]

/-- A running unit that does not act on a stall fetches its current word, with the bits that flipped in it (R470, R472, R476). -/
theorem execMachineCheck_fetches {block given ctu i : Nat} {stalled : Bool} {upset : BitVec 152} {v : State} (hb : blockSource block = some src)
    (ha : (s.half h).alive = true) (hi : (unitOf (s.half h) src).current = some i) (hh : (unitOf (s.half h) src).halted = false)
    (hs : (stalled && safePointActs h (s.half h) src) = false) (hg : 8 ≤ src → src < 14 → given ≤ 4)
    (hv : v = s.upd h (updUnit src (fun g => { g with seq := storeFlip src g.seq.address upset g.seq }))) (cond : Bool) :
    execMachineCheck h block cond given ctu stalled upset s =
      .next (settle h (fetchDo h src cond (dispatchType h (s.half h) src i ctu given) ctu stalled v)) := by
  have hd : ¬ (8 ≤ src && src < 14 && 4 < given) = true := by
    simp only [Bool.and_eq_true, decide_eq_true_eq]
    omega
  refine settled_congr ?_
  simp only [hb, ha, hi, hh, hs, hv, if_neg hd, Bool.not_true, Option.isNone_some, Bool.or_self, Bool.false_eq_true, if_false, Option.getD_some]

/-- No armed checker meets the fetch of a unit: a composition pipe has none, and that of an engine is not armed (R442). -/
abbrev NoStoreCheck (x : Half) (src : Nat) : Prop := 14 ≤ src ∨ armedMask x src = 0

theorem storeMask_zero {x : Half} (hm : NoStoreCheck x src) : (if src < 14 then armedMask x src else 0) = 0 := by
  rcases hm with hm | hm
  · exact if_neg (by omega)
  · simp [hm]

theorem xor_noMask (w : BitVec 152) : w ^^^ (BitVec.ofNat 152 0 <<< 144) = w := by simp

/-- A word of good parity with a next address runs, if it ends within 2,048 clocks of the last safe point (R468, R470). -/
theorem fetchDo_runs {q : Sequencer} {w : BitVec 152} {i ctu type : Nat} {cond stalled : Bool} {next : Nat × List Nat}
    (hm : NoStoreCheck (s.half h) src) (hi : (unitOf (s.half h) src).current = some i) (hq : q = (unitOf (s.half h) src).seq)
    (hw : w = storeWord src q.address q) (hp : badGroups w = 0)
    (hn : nextAddress src q w (conditionOf h (s.half h) src i ctu w cond) type = .inr next) (hc : q.clocks + wordCycles w < 2048) :
    fetchDo h src cond type ctu stalled s = wordRuns h src w next ctu stalled s := by
  simp only [fetchDo, storeMask_zero hm, xor_noMask, ← hq, ← hw, hi, Option.getD_some, hp, hn, if_neg (Nat.not_le.2 hc), bne_self_eq_false,
    Bool.false_eq_true, if_false]

/-- A word whose parity fails is a machine check of cause 1 with the groups that fail (R476). -/
theorem fetchDo_badParity {q : Sequencer} {w : BitVec 152} {ctu : Nat} {r : TraceRec} (hm : NoStoreCheck (s.half h) src)
    (hq : q = (unitOf (s.half h) src).seq) (hw : w = storeWord src q.address q) (hp : badGroups w ≠ 0)
    (hr : r = { time := (s.half h).clk.now, address := q.address, next := 0, code := wordOp w, flags := 8, ctu := ctu % 65536 })
    (cond : Bool) (type : Nat) (stalled : Bool) :
    fetchDo h src cond type ctu stalled s =
      machineCheckDo h src 1 (badGroups w) false (s.upd h (traceWord (sourceBlock src) r false true)) := by
  simp only [fetchDo, storeMask_zero hm, xor_noMask, ← hq, ← hw, bne_iff_ne, if_pos hp, hr, bne_self_eq_false, Bool.false_eq_true, if_false,
    Bool.false_and]

/-! Reload and read-back. -/

/-- A reload that may go on is refused with an image that is not the one measured at boot, latches the source of words that fail their read-back
again, or brings the unit back (R477, R478). -/
theorem execStoreReloaded_granted {block since n : Nat} {fetched : Option SignedItem} (hb : blockSource block = some src)
    (ha : (s.half h).alive = true) (hs : (unitOf (s.half h) src).seq.reloadSince = some since) (ht : (s.half h).bri.tetherStopped = false)
    (hr : (unitOf (s.half h) src).flags.retired = false) (hw : awaitsHost (s.half h) src = false)
    (hf : fetched = none → reserveFrozen (s.half h) = false) :
    execStoreReloaded h block fetched n s = .next (settle h (
      if fetched.all (fetchedOk (s.half h) src) = false then
        latchHw 6 h 37 false (s.upd h (updUnit src (fun g => { g with seq := { g.seq with reloadSince := none } })))
      else if n ≠ 0 then (List.range n).foldl (fun s _ => latchHw 6 h src false s) s
      else restartSource h src (event h 0x0807 sevInfo 0
        (le 4 block ++ le 4 (if fetched.isSome then 2 else 1) ++ le 8 ((s.half h).clk.now - since))
        (s.upd h (updUnit src (fun g => { g with seq := { g.seq with store := [], check := none, reloadSince := none } })))))) := by
  have hgo : ¬ (!(s.half h).alive || (s.half h).bri.tetherStopped || (unitOf (s.half h) src).flags.retired || awaitsHost (s.half h) src ||
      (fetched.isNone && reserveFrozen (s.half h))) = true := by
    cases fetched <;> simp_all
  have hany : fetched.any (fun i => !fetchedOk (s.half h) src i) = !fetched.all (fetchedOk (s.half h) src) := by cases fetched <;> rfl
  refine settled_congr ?_
  simp only [hb, hs, if_neg hgo, hany, Bool.not_eq_true', bne_iff_ne]

/-- A round that is due flips the bits that are upset in a store and reads back every unit's (R479). -/
theorem execReadbackRound_due {block : Nat} (hb : blockSource block = some src) (ha : (s.half h).alive = true)
    (ht : (s.half h).bri.tetherStopped = false) (hr : ∀ t, (s.half h).flt.readback = some t → t + 60000000000 ≤ (s.half h).clk.now)
    (upset : Nat × BitVec 152) :
    execReadbackRound h [(block, upset)] s = .next (settle h ((List.range 18).foldl (readBackUnit h)
      (s.upd h (fun y => updUnit src (fun g => { g with seq := storeFlip src (upset.1 % 4096) upset.2 g.seq })
        { y with flt := { y.flt with readback := some y.clk.now } })))) := by
  have hdue : ((s.half h).flt.readback.any fun t => decide ((s.half h).clk.now < t + 60000000000)) = false := by
    simpa [Option.any_eq_false] using hr
  refine settled_congr ((if_neg (by rw [ha, ht, hdue]; decide)).trans ?_)
  simp only [List.foldl_cons, List.foldl_nil, hb]

end

/-- Settles O38: the guards of each event hold, and the lemmas above say which of its cases the hypotheses choose. -/
theorem faultEvents : Obligations.FaultEvents := by
  constructor
  · intro h s
    refine ⟨fun source hs => ⟨fun c hc => ?_, fun hc => ?_⟩, fun k v hv => ⟨fun hk => ?_, fun t hk => ?_⟩,
      fun p c op f hr hf => ?_, fun source d hd ha ht => ?_, fun ha => ?_⟩
    · exact (execFaultLatched_pin hs h s).trans (by rw [pinRises_of_checker hc])
    · exact (execFaultLatched_pin hs h s).trans (by rw [pinRises_of_noChecker hc])
    · refine settled_congr ?_
      simp only [flitFails, ← hv, hk]
    · refine settled_congr ?_
      simp only [flitFails, ← hv, hk]
    · subst hf
      exact ⟨fun hh => execFaultLatched_crossing_silent hr (crossingMeets_halted hh op),
        fun hh hb => execFaultLatched_crossing_latches hr (crossingMeets_bad hh hb),
        fun hh hb => execFaultLatched_crossing_silent hr (crossingMeets_good hh hb)⟩
    · refine settled_congr ?_
      simp only [hd]
      exact if_neg (by simp [ha, ht])
    · exact next_congr (if_pos ha)
  · rintro h s _ block src _ rfl hb rfl ha
    refine ⟨fun i hi hh hs => ?safePoint, fun cond given type ctu stalled upset v q w i hi hh hs hg ht hv hq hw hm => ?fetch,
      fun fetched since hs ht hr hw hf => ?reload, fun upset ht hr => execReadbackRound_due hb ha ht hr upset⟩
    case safePoint =>
      have hx := execSafePoint_alive hb ha (h := h)
      rw [safePointDo_running hi hh hs] at hx
      refine ⟨fun hr => hx.trans ?_, fun hr hp => hx.trans ?_, fun hr hp => hx.trans ?_⟩
      · rw [if_pos (by simpa using hr)]
      · rw [if_neg (by simp [hr]), if_pos hp]
      · rw [if_neg (by simp [hr]), if_neg (by simp [hp])]
    case fetch =>
      have hx := execMachineCheck_fetches hb ha hi hh hs hg hv cond (ctu := ctu)
      rw [← ht] at hx
      have hi' : (unitOf (v.half h) src).current = some i := by
        rw [hv, half_upd_self]
        refine (unitOf_updUnit_current ?_ _ _).trans hi
        exact fun _ => rfl
      refine ⟨fun next hp hn hc => hx.trans ?_, fun hp r hr hnow => hx.trans ?_⟩
      · rw [fetchDo_runs hm hi' hq hw hp hn hc]
      · rw [fetchDo_badParity hm hq hw hp (hnow ▸ hr)]
    case reload =>
      have hx := fun n => execStoreReloaded_granted hb ha hs ht hr hw hf (n := n)
      refine ⟨fun hall => (hx 0).trans ?_, fun item n hi hbad => (hx n).trans ?_, fun hall => (hx 2).trans ?_⟩
      · rw [hall, if_neg Bool.true_eq_false.mp, if_neg (by simp)]
      · rw [if_pos (by simp [hi, hbad])]
      · rw [hall]; rfl

end Sys2Proof.Machine
end

section
/-!
PROOFS. Memory controller, refresh and scrub (R19, R344 to R349, R357 to R359). All that O39 says holds but for one field: its clause on DRAM_REFRESH
leaves the rolling activate counts as they are, while the model's refresh takes `Config.refreshManagement.2` off those of the banks it refreshes
(R348, log 21). That constant is a free value, so that the statement is neither provable nor refutable: `dramEvents_iff` says that it holds
exactly when the constant is 0.
-/
namespace Sys2Proof.Machine

section
variable {h : HalfId} {s : State} {n : Nat} {c : ChannelSt}

theorem chanAt_of_getElem? {x : Half} (hc : x.dch[n]? = some c) : chanAt x n = c := by
  simp [chanAt, hc]

theorem chanAt_updChannel {x : Half} (hc : x.dch[n]? = some c) (f : ChannelSt → ChannelSt) : chanAt (updChannel n f x) n = f c := by
  simp [chanAt, updChannel, hc]

/-! The controller. -/

/-- A controller that serves its requests issues the one that it chooses, if there is one (R344, R345). -/
theorem execDramRequest_serves {m : ScrimMoves} {ecc : EccOutcome} {v : State} (hr : (s.half h).boot.inReset = false) (hn : n < 4)
    (hv : v = s.upd h (fun y => markLate h n (m.arrivals.foldl (scrimArrive n) (scrimIssue n m.issued y))))
    (hf : (chanAt (v.half h) n).frozen = none) (hg : (chanAt (v.half h) n).flags.retired = false) (ho : islandOn (v.half h) (22 + n) = true) :
    execDramRequest h n m ecc s =
      .next (settle h ((dramChoose h (v.half h) n).elim v (fun q => dramIssue h n q ecc v))) := by
  have hch : ¬ Config.dramChannels ≤ n := Nat.not_le.2 hn
  refine settled_congr ((if_neg (by simp [hr, hch])).trans ?_)
  simp only [← hv, hf, hg, ho, Option.isSome_none, Bool.not_true, Bool.or_self, Bool.false_eq_true, if_false]
  cases dramChoose h (v.half h) n <;> rfl

/-- A refresh that is due, with no request at level 3, refreshes one bank and those owed; it also takes the dies' value off the rolling counts of
those banks (R346, R348). -/
theorem execDramRefresh_due {banks : List Nat} (hc : (s.half h).dch[n]? = some c) (hr : (s.half h).boot.inReset = false)
    (ht : c.train.trained = true) (hg : c.flags.retired = false) (hd : c.lastRefresh + refreshInterval c.window ≤ (s.half h).clk.now)
    (hq : ∀ q ∈ c.queue, (s.half h).clk.now - q.arrival < latencyTarget h (s.half h) n q.req.port)
    (hb : banks = (List.range (c.postponed + 1)).map (fun i => (c.refBank + i) % 128)) :
    execDramRefresh h n s = .next (s.upd h (updChannel n (fun c => { c with
      postponed := 0, lastRefresh := (s.half h).clk.now, refBank := (c.refBank + banks.length) % 128
      rolling := rollingRefresh banks c.rolling, pages := c.pages.filter (fun p => !banks.contains p.1) }))) := by
  have hlazy : (c.queue.any fun q => decide (latencyTarget h (s.half h) n q.req.port ≤ (s.half h).clk.now - q.arrival)) = false := by
    simpa using hq
  refine next_congr (upd_congr ?_)
  simp only [chanAt_of_getElem? hc, hr, ht, hg, hlazy, decide_eq_false (Nat.not_lt.2 hd), Bool.not_true, Bool.or_self, Bool.and_false,
    Bool.false_and, Bool.false_eq_true, if_false, hb]

/-- Where a refresh takes nothing off, it leaves the rolling counts. -/
theorem rollingRefresh_of_zero (hz : Config.refreshManagement.2 = 0) (banks : List Nat) (l : List (Nat × Nat)) : rollingRefresh banks l = l := by
  simp [rollingRefresh, mapWhere, hz]

/-! The scrubber. -/

/-- An ECC check that no armed checker meets finds what the word holds (R442). -/
theorem eccMet_unarmed {x : Half} (hw : armedMask x (0x12 + n) = 0) (hq : armedMask x (0x16 + n) = 0) (data : List Byte) (ecc : EccOutcome) :
    eccMet x n data ecc = (ecc, false) := by
  simp [eccMet, hw, hq]

/-- The words that the scrubber writes back for what it read: a corrected one (R358). -/
def writtenBack : EccOutcome → Nat
  | .single _ => 1
  | _ => 0

/-- The position of a scrubber that has read block `b` and written `k` words back. -/
def scrubMoves (b k : Nat) (c : ChannelSt) : ChannelSt :=
  { c with scrub := { c.scrub with position := b + 1, done := c.scrub.done + 1, written := c.scrub.written + k } }

/-- The channel can be scrubbed: trained, in use, idle, and with no checker armed on what it reads. -/
structure Scrubs (x : Half) (n : Nat) (c : ChannelSt) : Prop where
  channel : x.dch[n]? = some c
  running : x.boot.inReset = false
  trained : c.train.trained = true
  used : c.flags.retired = false
  thawed : c.frozen = none
  idle : c.queue = []
  noEcc : armedMask x (0x12 + n) = 0
  noQueue : armedMask x (0x16 + n) = 0

/-- The scrubber of an idle channel reads its next valid block; the word takes the way of its ECC outcome, a queue parity error being none of a scrub,
and behind the last block the pass ends (R357, R358). -/
theorem execScrubStep_reads {b : Nat} {ecc found : EccOutcome} {word : Nat} {v : State} (hs : Scrubs (s.half h) n c)
    (hb : scrubNext (s.half h) n c.scrub.position = some b) (hf : found = if ecc = .queueParity then .clean else ecc)
    (hv : v = eccApply h n (b * 65536 + word % 8192 * 8) 10 2 found false
      (s.upd h (updChannel n (scrubMoves b (writtenBack found))))) :
    execScrubStep h n ecc word s = .next (settle h (
      if (chanAt (v.half h) n).frozen.isNone && (scrubNext (v.half h) n (b + 1)).isNone then scrubLap h n v else v)) := by
  obtain ⟨hc, hr, ht, hg, hz, hi, hw, hq⟩ := hs
  refine settled_congr ?_
  simp only [chanAt_of_getElem? hc, hr, ht, hg, hz, hi, hb, eccMet_unarmed hw hq, hv, hf]
  cases ecc <;> rfl

/-- With no valid block left the pass ends (R358). -/
theorem execScrubStep_ends {ecc : EccOutcome} {word : Nat} (hs : Scrubs (s.half h) n c) (hb : scrubNext (s.half h) n c.scrub.position = none)
    (hd : c.scrub.done ≠ 0) : execScrubStep h n ecc word s = .next (settle h (scrubLap h n s)) := by
  obtain ⟨hc, hr, ht, hg, hz, hi, -, -⟩ := hs
  refine settled_congr ?_
  simp only [chanAt_of_getElem? hc, hr, ht, hg, hz, hi, hb]
  exact (if_neg (by decide)).trans (if_neg (by simpa using hd))

end

/-! A refresh that is due, of a bank that has been activated. -/

/-- A trained channel whose bank 0 has been activated once. -/
def activatedChannel : ChannelSt := { train := { trained := true }, rolling := [(0, 1)] }

/-- A half out of reset at which the first refresh of channel 0 is due. -/
def refreshDue : Half := { clk := { now := 4000 }, boot := { inReset := false }, dch := [activatedChannel] }

/-- What O39 says of DRAM_REFRESH makes the refresh of bank 0 leave its rolling count of 1, from which the model takes the dies' value. -/
theorem refreshManagement_zero_of_dramEvents (hd : Obligations.DramEvents) : Config.refreshManagement.2 = 0 := by
  obtain ⟨hmem, -⟩ := hd
  obtain ⟨-, -, hrefresh, -⟩ := hmem .east { State.reset with east := refreshDue } refreshDue 0 activatedChannel rfl rfl (by decide) rfl
  have hsays := hrefresh rfl rfl (by decide) nofun [0] rfl
  have hdoes := execDramRefresh_due (h := .east) (s := { State.reset with east := refreshDue }) (n := 0) (c := activatedChannel) (banks := [0])
    rfl rfl rfl rfl (by decide) nofun rfl
  have hstates := Host.Outcome.next.inj (hdoes.symm.trans hsays)
  have hcounts : [(0, 1 - Config.refreshManagement.2)] = [(0, 1)] :=
    congrArg (fun t : State => (chanAt t.east 0).rolling) hstates
  simp only [List.cons.injEq, Prod.mk.injEq, and_true, true_and] at hcounts
  omega

/-- The statement of O39 holds exactly when a refresh takes nothing off the rolling counts, which the model leaves open. -/
theorem dramEvents_iff : Obligations.DramEvents ↔ Config.refreshManagement.2 = 0 := by
  refine ⟨refreshManagement_zero_of_dramEvents, fun hz => ⟨?controller, ?scrubber⟩⟩
  case controller =>
    rintro h s _ n c rfl hc hn hr
    refine ⟨fun issued arrivals ecc v q hv hf hg ho => ?_, fun _ => rfl, fun ht hg hd hq banks hb => ?_, fun ht hg hd => ?_,
      fun rates temp rate ht hg hd hrate => ?_, fun block hf => ?_⟩
    · have hx := execDramRequest_serves (m := { issued := issued, arrivals := arrivals }) (ecc := ecc) hr hn hv hf hg ho
      exact ⟨fun hm => by rwa [hm] at hx, fun hm => by rwa [hm] at hx⟩
    · refine (execDramRefresh_due hc hr ht hg hd hq hb).trans (next_congr ?_)
      simp only [rollingRefresh_of_zero hz]
    · refine next_congr (upd_congr ?_)
      simp only [chanAt_of_getElem? hc, hr, ht, hg, decide_eq_false (Nat.not_lt.2 hd), Bool.not_true, Bool.or_self, Bool.false_eq_true, if_false]
    · refine next_congr (upd_congr ?_)
      simp only [chanAt_of_getElem? hc, hr, ht, hg, decide_eq_false (Nat.not_lt.2 hd), Bool.not_true, Bool.or_self, Bool.false_eq_true, if_false,
        hrate]
    · refine next_congr (upd_congr ?_)
      simp only [hr, hf, Bool.or_self, Bool.false_eq_true, if_false]
  case scrubber =>
    rintro h s _ n word c rfl hc hr ht hg hf hi hw hq
    have hs : Scrubs (s.half h) n c := ⟨hc, hr, ht, hg, hf, hi, hw, hq⟩
    refine ⟨fun ecc b v hb he hv => ?_, fun b syn wrong check v hb hv => execScrubStep_reads hs hb rfl hv,
      fun b syn v hb hv => execScrubStep_reads hs hb rfl hv, fun ecc hb hd => execScrubStep_ends hs hb hd⟩
    have hclean : EccOutcome.clean = if ecc = .queueParity then .clean else ecc := by rcases he with rfl | rfl <;> rfl
    have hthawed : (chanAt (v.half h) n).frozen.isNone = true := by
      rw [hv, half_upd_self, chanAt_updChannel hc]
      simp [hf]
    have hread : v = eccApply h n (b * 65536 + word % 8192 * 8) 10 2 .clean false (s.upd h (updChannel n (scrubMoves b (writtenBack .clean)))) := hv
    have hx := execScrubStep_reads hs hb hclean hread
    rwa [hthawed, Bool.true_and] at hx

end Sys2Proof.Machine
end

section
/-!
PROOFS. The invariant of Safety.lean: it holds after reset and along every step.
-/
namespace Sys2Proof.Machine

/-! After reset. -/

theorem memoriesOk_of_reset : ({} : Half).memoriesOk := ⟨rfl, rfl⟩

theorem queuesOk_of_reset : ({} : Half).queuesOk := by
  refine ⟨?_, ?_, ?_, ?_⟩ <;> exact Nat.zero_le _

theorem unitsOk_of_reset : ({} : Half).unitsOk := by
  refine ⟨?_, ?_, ?_, ?_, ?_, ?_, ?_, ?_, ?_, ?_⟩ <;> exact List.length_replicate

theorem half_inv_of_reset : ({} : Half).Inv := ⟨memoriesOk_of_reset, queuesOk_of_reset, unitsOk_of_reset⟩

/-- Settles O48: both halves start with empty memories and queues and all their units, and nothing is stored around them. -/
theorem resetHasInv : Obligations.ResetHasInv := ⟨half_inv_of_reset, half_inv_of_reset, rfl, rfl, rfl⟩

/-! Along every step. -/

/-- Every command keeps the invariant: each is one function, of which Laws/KeepsExec.lean says so. -/
theorem exec_keepsInv {c : Instr} {s t : State} (hs : s.Inv) (ht : exec c s = .next t) : t.Inv := by
  cases c with
  | identify => exact execIdentify_inv hs ht
  | halfReset => exact execHalfReset_inv hs ht
  | eventRateSet => exact execEventRateSet_inv hs ht
  | overbookSet => exact execOverbookSet_inv hs ht
  | draftOpen => exact execDraftOpen_inv hs ht
  | draftWrite => exact execDraftWrite_inv hs ht
  | draftDiscard => exact execDraftDiscard_inv hs ht
  | envelopeCommit => exact execEnvelopeCommit_inv hs ht
  | envelopeCancel => exact execEnvelopeCancel_inv hs ht
  | envelopeRead => exact execEnvelopeRead_inv hs ht
  | queryObject => exact execQueryObject_inv hs ht
  | queryDecode => exact execQueryDecode_inv hs ht
  | queryInput => exact execQueryInput_inv hs ht
  | queryEncode => exact execQueryEncode_inv hs ht
  | querySurge => exact execQuerySurge_inv hs ht
  | queryFlow => exact execQueryFlow_inv hs ht
  | queryPort => exact execQueryPort_inv hs ht
  | queryChannel => exact execQueryChannel_inv hs ht
  | queryPool => exact execQueryPool_inv hs ht
  | queryDma => exact execQueryDma_inv hs ht
  | queryEvents => exact execQueryEvents_inv hs ht
  | queryFilter => exact execQueryFilter_inv hs ht
  | queryHealth => exact execQueryHealth_inv hs ht
  | queryPtp => exact execQueryPtp_inv hs ht
  | queryCues => exact execQueryCues_inv hs ht
  | streamStart => exact execStreamStart_inv hs ht
  | streamStop => exact execStreamStop_inv hs ht
  | streamDrain => exact execStreamDrain_inv hs ht
  | decodeFeed => exact execDecodeFeed_inv hs ht
  | encodeRefresh => exact execEncodeRefresh_inv hs ht
  | encodeRate => exact execEncodeRate_inv hs ht
  | surfaceUpdate => exact execSurfaceUpdate_inv hs ht
  | cueArm => exact execCueArm_inv hs ht
  | cueCancel => exact execCueCancel_inv hs ht
  | portReset => exact execPortReset_inv hs ht
  | flowMove => exact execFlowMove_inv hs ht
  | shaperSet => exact execShaperSet_inv hs ht
  | gateRebase => exact execGateRebase_inv hs ht
  | channelInspect => exact execChannelInspect_inv hs ht
  | blockRetire => exact execBlockRetire_inv hs ht
  | channelThaw => exact execChannelThaw_inv hs ht
  | channelRetrain => exact execChannelRetrain_inv hs ht
  | seqTrace => exact execSeqTrace_inv hs ht
  | seqHistory => exact execSeqHistory_inv hs ht
  | diagDump => exact execDiagDump_inv hs ht
  | counterProgram => exact execCounterProgram_inv hs ht
  | counterRead => exact execCounterRead_inv hs ht
  | faultRead => exact execFaultRead_inv hs ht
  | faultClear => exact execFaultClear_inv hs ht
  | faultInject => exact execFaultInject_inv hs ht
  | faultAction => exact execFaultAction_inv hs ht
  | unitRetire => exact execUnitRetire_inv hs ht
  | leadYield => exact execLeadYield_inv hs ht
  | leadAssign => exact execLeadAssign_inv hs ht
  | bridleRead => exact execBridleRead_inv hs ht
  | attest => exact execAttest_inv hs ht
  | certRead => exact execCertRead_inv hs ht
  | fwStage => exact execFwStage_inv hs ht
  | fwVerify => exact execFwVerify_inv hs ht
  | fwConfirm => exact execFwConfirm_inv hs ht
  | fwSecurityCommit => exact execFwSecurityCommit_inv hs ht
  | fuseLock => exact execFuseLock_inv hs ht
  | atTimeExecution => exact execAtTimeExecution_inv hs ht
  | waitingStartExecution => exact execWaitingStartExecution_inv hs ht
  | rateAssist => exact execRateAssist_inv hs ht
  | coarseMotionHints => exact execCoarseMotionHints_inv hs ht
  | hostStencil => exact execHostStencil_inv hs ht
  | concealmentInstruction => exact execConcealmentInstruction_inv hs ht
  | packetReleaseTimes => exact execPacketReleaseTimes_inv hs ht
  | poolFreeListSupply => exact execPoolFreeListSupply_inv hs ht
  | ptpCorrection => exact execPtpCorrection_inv hs ht
  | retrainTime => exact execRetrainTime_inv hs ht
  | leadDecision => exact execLeadDecision_inv hs ht
  | cmdqTailWrite => exact execCmdqTailWrite_inv hs ht
  | cplqHeadWrite => exact execCplqHeadWrite_inv hs ht
  | evtqHeadWrite => exact execEvtqHeadWrite_inv hs ht
  | asqTailWrite => exact execAsqTailWrite_inv hs ht
  | asrHeadWrite => exact execAsrHeadWrite_inv hs ht
  | dmaKick => exact execDmaKick_inv hs ht
  | dmaChainWrite => exact execDmaChainWrite_inv hs ht
  | dmaEnable => exact execDmaEnable_inv hs ht
  | dmaDisable => exact execDmaDisable_inv hs ht
  | dmaErrClear => exact execDmaErrClear_inv hs ht
  | unitHold => exact execUnitHold_inv hs ht
  | unitReturn => exact execUnitReturn_inv hs ht
  | icuSrcCfgWrite => exact execIcuSrcCfgWrite_inv hs ht
  | icuSet => exact execIcuSet_inv hs ht
  | icuClaim => exact execIcuClaim_inv hs ht
  | icuPartnerClaimDone => exact execIcuPartnerClaimDone_inv hs ht
  | bar4Access => exact execBar4Access_inv hs ht
  | bar2Write => exact execBar2Write_inv hs ht
  | registerWrite => exact execRegisterWrite_inv hs ht
  | msixUnmask => exact execMsixUnmask_inv hs ht
  | eventDelivery => exact execEventDelivery_inv hs ht
  | asrBacklogDrain => exact execAsrBacklogDrain_inv hs ht
  | asrRequestWithdrawn => exact execAsrRequestWithdrawn_inv hs ht
  | envelopeGroupResolved => exact execEnvelopeGroupResolved_inv hs ht
  | groupPartnerTimeout => exact execGroupPartnerTimeout_inv hs ht
  | takeoverArm => exact execTakeoverArm_inv hs ht
  | takeoverTime => exact execTakeoverTime_inv hs ht
  | envelopeCrcCheck => exact execEnvelopeCrcCheck_inv hs ht
  | rtpPacketReceived => exact execRtpPacketReceived_inv hs ht
  | accessUnitRelease => exact execAccessUnitRelease_inv hs ht
  | guardedAccessUnitCopy => exact execGuardedAccessUnitCopy_inv hs ht
  | decodePictureStart => exact execDecodePictureStart_inv hs ht
  | decodePictureComplete => exact execDecodePictureComplete_inv hs ht
  | pictureAvailable => exact execPictureAvailable_inv hs ht
  | bulkStarved => exact execBulkStarved_inv hs ht
  | refreshRequestRepeat => exact execRefreshRequestRepeat_inv hs ht
  | concealmentDeadline => exact execConcealmentDeadline_inv hs ht
  | canvasTick => exact execCanvasTick_inv hs ht
  | compositionJobStart => exact execCompositionJobStart_inv hs ht
  | compositionJobComplete => exact execCompositionJobComplete_inv hs ht
  | surfaceCopyDone => exact execSurfaceCopyDone_inv hs ht
  | encodePictureStart => exact execEncodePictureStart_inv hs ht
  | encodedUnitHandoff => exact execEncodedUnitHandoff_inv hs ht
  | encodePictureComplete => exact execEncodePictureComplete_inv hs ht
  | encodeLateRepeat => exact execEncodeLateRepeat_inv hs ht
  | twinCrcExchange => exact execTwinCrcExchange_inv hs ht
  | refreshAbsorbed => exact execRefreshAbsorbed_inv hs ht
  | surgeEnded => exact execSurgeEnded_inv hs ht
  | surgeSustained => exact execSurgeSustained_inv hs ht
  | linkSignalDetected => exact execLinkSignalDetected_inv hs ht
  | linkUp => exact execLinkUp_inv hs ht
  | linkDown => exact execLinkDown_inv hs ht
  | adaptationTimeout => exact execAdaptationTimeout_inv hs ht
  | adaptationRetry => exact execAdaptationRetry_inv hs ht
  | arpReceived => exact execArpReceived_inv hs ht
  | arpRefresh => exact execArpRefresh_inv hs ht
  | neighbourDiscoveryReceived => exact execNeighbourDiscoveryReceived_inv hs ht
  | dadComplete => exact execDadComplete_inv hs ht
  | routerAdvertisementReceived => exact execRouterAdvertisementReceived_inv hs ht
  | multicastQueryReceived => exact execMulticastQueryReceived_inv hs ht
  | icmpEchoReceived => exact execIcmpEchoReceived_inv hs ht
  | otherFrameReceived => exact execOtherFrameReceived_inv hs ht
  | ptpSyncReceived => exact execPtpSyncReceived_inv hs ht
  | ptpFollowUpReceived => exact execPtpFollowUpReceived_inv hs ht
  | ptpDelayRespReceived => exact execPtpDelayRespReceived_inv hs ht
  | ptpDelayReqReceived => exact execPtpDelayReqReceived_inv hs ht
  | ptpAnnounceReceived => exact execPtpAnnounceReceived_inv hs ht
  | announceReceiptTimeout => exact execAnnounceReceiptTimeout_inv hs ht
  | ptpMasterInterval => exact execPtpMasterInterval_inv hs ht
  | ppsInputEdge => exact execPpsInputEdge_inv hs ht
  | holdoverExpired => exact execHoldoverExpired_inv hs ht
  | rtcpSenderReportReceived => exact execRtcpSenderReportReceived_inv hs ht
  | rtcpFeedbackReceived => exact execRtcpFeedbackReceived_inv hs ht
  | rtcpReceiverReportReceived => exact execRtcpReceiverReportReceived_inv hs ht
  | senderReportTimer => exact execSenderReportTimer_inv hs ht
  | receiverReportTimer => exact execReceiverReportTimer_inv hs ht
  | packetStart => exact execPacketStart_inv hs ht
  | gateWindowChange => exact execGateWindowChange_inv hs ht
  | gateListStarted => exact execGateListStarted_inv hs ht
  | undercoatPictureTick => exact execUndercoatPictureTick_inv hs ht
  | sparDown => exact execSparDown_inv hs ht
  | sparUp => exact execSparUp_inv hs ht
  | sparDownHoldoffExpiry => exact execSparDownHoldoffExpiry_inv hs ht
  | partnerTetherLost => exact execPartnerTetherLost_inv hs ht
  | partnerAbsent => exact execPartnerAbsent_inv hs ht
  | partnerSeenAlive => exact execPartnerSeenAlive_inv hs ht
  | halfStoppedReceived => exact execHalfStoppedReceived_inv hs ht
  | takeoverReceived => exact execTakeoverReceived_inv hs ht
  | stopAckReceived => exact execStopAckReceived_inv hs ht
  | takeoverReplyTimeout => exact execTakeoverReplyTimeout_inv hs ht
  | bridleClaimReceived => exact execBridleClaimReceived_inv hs ht
  | sequenceReportReceived => exact execSequenceReportReceived_inv hs ht
  | unitAnnouncementReceived => exact execUnitAnnouncementReceived_inv hs ht
  | unitAnnouncementAck => exact execUnitAnnouncementAck_inv hs ht
  | mirrorStateReceived => exact execMirrorStateReceived_inv hs ht
  | partnerCopyReceived => exact execPartnerCopyReceived_inv hs ht
  | sparForwardedCommand => exact execSparForwardedCommand_inv hs ht
  | faultLatched => exact execFaultLatched_inv hs ht
  | reactionDefaulted => exact execReactionDefaulted_inv hs ht
  | keelWatchdogExpiry => exact execKeelWatchdogExpiry_inv hs ht
  | safePoint => exact execSafePoint_inv hs ht
  | machineCheck => exact execMachineCheck_inv hs ht
  | storeReloaded => exact execStoreReloaded_inv hs ht
  | readbackRound => exact execReadbackRound_inv hs ht
  | dramRequest => exact execDramRequest_inv hs ht
  | pageIdleTimeout => exact execPageIdleTimeout_inv hs ht
  | dramRefresh => exact execDramRefresh_inv hs ht
  | refreshWindowEnd => exact execRefreshWindowEnd_inv hs ht
  | mr4Poll => exact execMr4Poll_inv hs ht
  | scrubStep => exact execScrubStep_inv hs ht
  | zeroFillDone => exact execZeroFillDone_inv hs ht
  | retrainStart => exact execRetrainStart_inv hs ht
  | retrainDone => exact execRetrainDone_inv hs ht
  | retrainDeadline => exact execRetrainDeadline_inv hs ht
  | regionCopyDone => exact execRegionCopyDone_inv hs ht
  | reserveMoved => exact execReserveMoved_inv hs ht
  | poolAllocate => exact execPoolAllocate_inv hs ht
  | poolAdd => exact execPoolAdd_inv hs ht
  | poolRelease => exact execPoolRelease_inv hs ht
  | poolRebuilt => exact execPoolRebuilt_inv hs ht
  | poolAllocRetry => exact execPoolAllocRetry_inv hs ht
  | poolSupplyDeadline => exact execPoolSupplyDeadline_inv hs ht
  | dmaDescriptorFetched => exact execDmaDescriptorFetched_inv hs ht
  | dmaReadCompletion => exact execDmaReadCompletion_inv hs ht
  | dmaDescriptorComplete => exact execDmaDescriptorComplete_inv hs ht
  | dmaBusError => exact execDmaBusError_inv hs ht
  | dmaCompletionTimeout => exact execDmaCompletionTimeout_inv hs ht
  | icuParityFailure => exact execIcuParityFailure_inv hs ht
  | counterSnapshot => exact execCounterSnapshot_inv hs ht
  | porstAssert => exact execPorstAssert_inv hs ht
  | resetPinAssert => exact execResetPinAssert_inv hs ht
  | resetRelease => exact execResetRelease_inv hs ht
  | halfResetDelayExpiry => exact execHalfResetDelayExpiry_inv hs ht
  | trialReset => exact execTrialReset_inv hs ht
  | trialAutoConfirm => exact execTrialAutoConfirm_inv hs ht
  | brownOut h core => exact execBrownOut_inv (_core := core) hs ht
  | brownOutRecovery => exact execBrownOutRecovery_inv hs ht
  | voltageExcursion => exact execVoltageExcursion_inv hs ht
  | thermalSample => exact execThermalSample_inv hs ht
  | thermalRelease => exact execThermalRelease_inv hs ht
  | clockMonitorTrip => exact execClockMonitorTrip_inv hs ht
  | clockStepEvaluation => exact execClockStepEvaluation_inv hs ht
  | islandPowerOff => exact execIslandPowerOff_inv hs ht
  | islandPowerUp => exact execIslandPowerUp_inv hs ht
  | lifeAccumulation => exact execLifeAccumulation_inv hs ht
  | agingMeasurement => exact execAgingMeasurement_inv hs ht
  | pcieLinkDown => exact execPcieLinkDown_inv hs ht
  | pcieLinkUp => exact execPcieLinkUp_inv hs ht
  | pcieUncorrectableError => exact execPcieUncorrectableError_inv hs ht
  | pcieHotReset => exact execPcieHotReset_inv hs ht
  | ppsOutputPulse => exact execPpsOutputPulse_inv hs ht
  | delayRequestInterval => exact execDelayRequestInterval_inv hs ht
  | leadDecisionDeadline => exact execLeadDecisionDeadline_inv hs ht
  | encodeSurfaceTick => exact execEncodeSurfaceTick_inv hs ht
  | islandClockRelock => exact execIslandClockRelock_inv hs ht

/-- The invariant says nothing of the queue. -/
theorem pending_inv {s : State} (hs : s.Inv) (q : List Instr) : ({ s with pending := q } : State).Inv := hs

/-- A step runs the command at the front of the queue, or on an empty queue lets a nanosecond pass (log 1). -/
theorem step_keepsInv {s t : State} (hs : s.Inv) (ht : step s = .next t) : t.Inv := by
  unfold step at ht
  split at ht
  next => exact Host.Outcome.next.inj ht ▸ idleStep_inv hs
  next c rest _ => exact exec_keepsInv (pending_inv hs rest) ht

/-- Settles O49: by cases on the queue (`step_keepsInv`) and on the command at its front (`exec_keepsInv`). -/
theorem stepKeepsInv : Obligations.StepKeepsInv := fun _ _ hs ht => step_keepsInv hs ht

end Sys2Proof.Machine
end

section
/-!
PROOFS. Events and assist requests on their way to the host: the event bucket (R53), the order of delivery (R54), the assist backlog (R82).
-/
namespace Sys2Proof.Machine

/-! The bucket (R53). -/

/-- A refill on the way to a later one changes nothing: the rate is linear in the time, and the cap at the burst holds for the sum. -/
theorem evRefill_evRefill (v : Events) {t t' : Nat} (h0 : v.balanceAt ≤ t) (h : t ≤ t') : evRefill t' (evRefill t v) = evRefill t' v := by
  have hsum : v.rate * (t' - v.balanceAt) = v.rate * (t - v.balanceAt) + v.rate * (t' - t) := by
    rw [← Nat.mul_add, Nat.add_comm, Nat.sub_add_sub_cancel h h0]
  have hcap (b x y : Nat) : min b (min b x + y) = min b (x + y) := by omega
  unfold evRefill
  generalize (1000000000 : Nat) = token
  simp only [hsum, hcap, Nat.add_assoc]

theorem evRefill_balance_le (v : Events) (t : Nat) : (evRefill t v).balance ≤ v.burst * 1000000000 := by
  unfold evRefill
  exact Nat.min_le_left _ _

/-- Settles O53: refills compose (`evRefill_evRefill`), and each is capped (`evRefill_balance_le`). -/
theorem bucketRefills : Obligations.BucketRefills := fun v t _ h0 h => ⟨evRefill_evRefill v h0 h, evRefill_balance_le v t⟩

section
variable {h : HalfId} {s : State} {v : Events}

/-! The order of delivery (R54). -/

/-- Among alarms that are all written none waits. -/
theorem find?_unwritten_none {l : List AlarmRec} (hl : ∀ b ∈ l, b.written = true) : l.find? (fun b => !b.written) = none :=
  List.find?_eq_none.2 (fun b hb => by simp [hl b hb])

/-- The first alarm not yet written goes before any other event. -/
theorem nextEvent_alarm {front rest : List AlarmRec} {a : AlarmRec} (hv : v.alarms = front ++ a :: rest) (hf : ∀ b ∈ front, b.written = true)
    (ha : a.written = false) :
    nextEvent v = some (a.ev, v.markAlarm, { v with alarms := front ++ { a with written := true } :: rest, markAlarm := false }) := by
  simp [nextEvent, hv, List.find?_append, find?_unwritten_none hf, ha, List.takeWhile_append_of_pos hf, List.dropWhile_append_of_pos hf]

/-- With every alarm written, the first warning goes. -/
theorem nextEvent_warning {w : EventRec} {ws : List EventRec} (ha : ∀ b ∈ v.alarms, b.written = true) (hw : v.warnings = w :: ws) :
    nextEvent v = some (w, v.markWarn, { v with warnings := ws, markWarn := false }) := by
  simp only [nextEvent, find?_unwritten_none ha, hw]

/-- With every alarm written and no warning, the first information event goes. -/
theorem nextEvent_info {i : EventRec} {is : List EventRec} (ha : ∀ b ∈ v.alarms, b.written = true) (hw : v.warnings = [])
    (hi : v.infos = i :: is) :
    nextEvent v = some (i, v.markInfo, { v with infos := is, markInfo := false }) := by
  simp only [nextEvent, find?_unwritten_none ha, hw, hi]

/-- With a token, room in EVTQ and no alarm that goes at once, the next event is written (R53, R54). -/
theorem execEventDelivery_writes {e : EventRec} {mark : Bool} {left : Events} (hv : v = evRefill (s.half h).clk.now (s.half h).ev)
    (ha : (s.half h).alive = true) (hi : (s.half h).ev.instant = []) (ht : evToken v = true) (hr : evtqFull (s.half h) = false)
    (hn : nextEvent v = some (e, mark, left)) :
    execEventDelivery h s = .next (evWrite h e mark (s.upd h (fun x => { x with ev := left }))) := by
  subst hv
  refine next_congr ?_
  simp only [ha, hi, ht, hr, hn, List.isEmpty_nil, Bool.not_true, Bool.and_false, Bool.or_self, Bool.false_eq_true, if_false]

/-- Alarms that overflowed the list go first (R55). -/
theorem execEventDelivery_instant (ha : (s.half h).alive = true) (hi : (s.half h).ev.instant ≠ []) :
    execEventDelivery h s = .next (instantOut h s) :=
  next_congr (if_pos (by simp [ha, hi]))

/-! The assist backlog (R82). -/

/-- ASR takes the next entry that waits, and no more where it is then full or nothing waits. -/
theorem drainAssist_one {n : Nat} {a : AsrEntry} {y : Half} {z : State} (hf : asrFull (s.half h) = false) (hn : nextAssist h (s.half h) = some (a, y))
    (hz : z = asrWrite h a (s.upd h (fun _ => y))) (hl : asrFull (z.half h) = true ∨ nextAssist h (z.half h) = none) :
    drainAssist (n + 2) h s = z := by
  have hstop : drainAssist (n + 1) h z = z := by
    rcases hl with hl | hl
    · exact if_pos hl
    · simp only [drainAssist, hl, ite_self]
  rw [drainAssist, if_neg (by simp [hf]), hn]
  exact hz ▸ hstop

/-- A request whose deadline has passed gets its late-data default. -/
theorem execAsrRequestWithdrawn_default {n : Nat} {r : AsrRequest} (ha : (s.half h).alive = true) (hn : (s.half h).asr.requests[n]? = some r)
    (hl : r.deadline ≤ (s.half h).clk.now) :
    execAsrRequestWithdrawn h n s = .next (settle h (requestDefault h r.entry
      (s.upd h (fun y => { y with asr := { y.asr with requests := y.asr.requests.erase r } })))) := by
  refine settled_congr ?_
  simp only [hn, ha, Nat.not_lt.2 hl, decide_false, Bool.not_true, Bool.or_self, Bool.false_eq_true, if_false]

end

/-- Settles O23: the guards of each event hold, and `nextEvent` ranks what waits as R54 says. -/
theorem deliveryEvents : Obligations.DeliveryEvents := by
  rintro h s _ v rfl hv ha
  refine ⟨execEventDelivery_instant ha, fun hi ht hr => ⟨fun front a rest hl hf hw => ?_, fun w ws hw hl => ?_, fun i is hw hn hl => ?_⟩,
    fun a y z hf hn hz hl => ?_, fun n r => execAsrRequestWithdrawn_default ha⟩
  · exact execEventDelivery_writes hv ha hi ht hr (nextEvent_alarm hl hf hw)
  · exact execEventDelivery_writes hv ha hi ht hr (nextEvent_warning hw hl)
  · exact execEventDelivery_writes hv ha hi ht hr (nextEvent_info hw hn hl)
  · exact next_congr ((if_pos ha).trans (drainAssist_one hf hn hz hl))

end Sys2Proof.Machine
end

section
/-!
PROOFS. Drafts, commits and pending envelopes (R61 to R74).
-/
namespace Sys2Proof.Machine

/-! Drafts (R61 to R63). -/

section
variable {h : HalfId} {e : CmdEntry} {s : State}

/-- DRAFT_OPEN with the draft slot empty opens an empty draft, or a copy of the running envelope (R61). -/
theorem execDraftOpen_opens (ht : Taken h draftOpenSpec e none s) (hf : fld e 16 1 ≤ 1) (hz : checkReserved e [(16, 1)] = none)
    (hd : (s.half h).env.draft = none) {rs : List Record} (hrs : rs = if fld e 16 1 == 1 then (s.half h).runningSlot else []) :
    execDraftOpen h e s = .next (complete h 0x0201 e stOk false 0 (draftResult rs)
      ((takeEntry h s).upd h (updEnv (fun v => { v with draft := some rs })))) := by
  have hrun : ((takeEntry h s).half h).runningSlot = (s.half h).runningSlot := by
    simp only [Half.runningSlot, takeEntry_env]
  refine next_congr ((runCmd_taken ht _).trans ?_)
  rw [guarded_passes (by simp [hz, hf, takeEntry_env, hd]), hrun, ← hrs]
  rfl

/-- DRAFT_WRITE of well-formed records edits the draft, within its size (R62). -/
theorem execDraftWrite_edits {r : RefFetch} {bytes : List Byte} {parts : List (Nat × Record)} {rs q : List Record}
    (ht : Taken h draftWriteSpec e (some r) s) (hb : bytes = if isByRef e then r.bytes else e.payload.take e.len.toNat)
    (hp : parts = splitRecords (bytes.length / 16 + 1) 0 bytes) (hok : ∀ p ∈ parts, draftReason h p.2 = none)
    (hd : (s.half h).env.draft = some rs) (hq : draftEdits rs (parts.map (fun p => p.2)) = some q) (hs : sizeOk q = true) :
    execDraftWrite h e r s = .next (complete h 0x0202 e stOk false 0 (draftResult q)
      ((takeEntry h s).upd h (updEnv (fun v => { v with draft := some q })))) := by
  have hgood : parts.findSome? (fun p => (draftReason h p.2).map (fun n => (p.1, n))) = none := by
    rw [List.findSome?_eq_none_iff]
    intro p hmem
    rw [hok p hmem, Option.map_none]
  refine next_congr ((runCmd_taken ht _).trans ?_)
  simp only [← hb, ← hp, hgood, takeEntry_env, hd, hq, hs, Bool.not_true, Bool.false_eq_true, if_false]
  rfl

/-- DRAFT_DISCARD empties the draft slot (R63). -/
theorem execDraftDiscard_discards {rs : List Record} (ht : Taken h draftDiscardSpec e none s) (hd : (s.half h).env.draft = some rs) :
    execDraftDiscard h e s = .next (complete h 0x0203 e stOk false 0 []
      ((takeEntry h s).upd h (updEnv (fun v => { v with draft := none })))) := by
  refine next_congr ((runCmd_taken ht _).trans ?_)
  rw [guarded_passes (by simp [takeEntry_env, hd])]
  rfl

end

/-- Settles O3: a taken command passes its checks, and its body is the lemma above on it. -/
theorem draftCommands : Obligations.DraftCommands := by
  rintro h e s _ rfl
  refine ⟨fun ht hf hz hd => ?_, fun q ht hf hz hd hq => ?_, fun r bytes parts rs q ht hb hp hok hd hq hl hs => ?_, fun rs ht hd => ?_⟩
  · exact execDraftOpen_opens ht (by omega) hz hd (by rw [hf]; rfl)
  · exact execDraftOpen_opens ht (by omega) hz hd (by rw [hf, Half.runningSlot, hq]; rfl)
  · exact execDraftWrite_edits ht hb hp hok hd hq (by simp [sizeOk, hl, hs])
  · exact execDraftDiscard_discards ht hd

/-! Commit, cancel and read (R64 to R69, R570). -/

section
variable {h : HalfId} {e : CmdEntry} {s : State} {rs : List Record}

/-- The commit finds a draft and room for it, on a half that may commit, at a time to come, and its records pass steps 4 to 10 of R65. -/
structure Committable (h : HalfId) (e : CmdEntry) (s : State) (rs : List Record) : Prop where
  taken : Taken h envelopeCommitSpec e none s
  unfenced : (s.half h).bri.fenced = false
  draft : (s.half h).env.draft = some rs
  noPend : (s.half h).env.pend = none
  noGroup : (s.half h).env.group = none
  ahead : isAtTime e = true → (s.half h).clk.now < atTimeOf e
  judged : judgeRecords h rs (e.payload.take 32) = .ok

/-- The commit of a group that waits for the partner's (R66). -/
def groupWait (h : HalfId) (e : CmdEntry) (s : State) (rs : List Record) : GroupWait :=
  { group := BitVec.ofNat 32 (fld e 48 4), atTime := entryTime e, arrival := (s.half h).clk.now, tag := e.tag, sequence := e.sequence, records := rs }

/-- The time of a commit is none, or one that has not passed. -/
theorem Committable.inTime (hc : Committable h e s rs) : (isAtTime e && decide (atTimeOf e ≤ (s.half h).clk.now)) = false := by
  cases hat : isAtTime e with
  | false => rfl
  | true => simpa using hc.ahead hat

/-- A commit of a group waits for its partner while the link works (R66). -/
theorem execEnvelopeCommit_grouped (hc : Committable h e s rs) (hg : (fld e 48 4 != 0 && (takeEntry h s).sparWorks) = true) :
    execEnvelopeCommit h e s = .next (complete h 0x0204 e stDeferred false 0 []
      ((takeEntry h s).upd h (updEnv (fun v => { v with group := some (groupWait h e s rs) })))) := by
  refine next_congr ((runCmd_taken hc.taken _).trans ?_)
  simp only [takeEntry_bri, takeEntry_env, takeEntry_clk, hc.unfenced, hc.draft, hc.noPend, hc.noGroup, hc.inTime, hc.judged, hg,
    Option.isSome_none, Bool.or_self, Bool.false_eq_true, if_false, if_true]
  rfl

/-- Any other commit goes on to the fit of its records once step 11 passes (R65). -/
theorem execEnvelopeCommit_single (hc : Committable h e s rs) (hg : (fld e 48 4 != 0 && (takeEntry h s).sparWorks) = false)
    (hx : judgeCross h (takeEntry h s) rs (futureRecords ((takeEntry h s).half h.other)) false = .ok) :
    execEnvelopeCommit h e s = .next (finish h 0x0204 e (commitFit h e rs (takeEntry h s))) := by
  refine next_congr ((runCmd_taken hc.taken _).trans ?_)
  simp only [takeEntry_bri, takeEntry_env, takeEntry_clk, hc.unfenced, hc.draft, hc.noPend, hc.noGroup, hc.inTime, hc.judged, hg, hx,
    Option.isSome_none, Bool.or_self, Bool.false_eq_true, if_false]
  rfl

/-- A validated draft leaves its slot (R69). -/
theorem pendSet_of_draft {u : State} {p : PendingEnv} (hd : (u.half h).env.draft = some p.records) :
    pendSet h p u = u.upd h (fun x => { x with env := { x.env with pend := some p, group := none, draft := none } }) := by
  refine upd_congr ?_
  simp [updEnv, hd]

/-- Records that fit are pending from their commit on, at a time far enough ahead (R65 steps 12 to 14). -/
theorem commitFit_ok {u : State} {units : List (Handle × List Nat × Nat)} {regions : List (Nat × Nat × Nat × Nat)} {t : Nat} {p : PendingEnv}
    (hd : (u.half h).env.draft = some rs) (hf : fitCheck h (u.half h) rs = .ok units regions)
    (ht : t = if isAtTime e then atTimeOf e else (u.half h).clk.now + leadTime) (hl : (u.half h).clk.now + leadTime ≤ t)
    (hp : p = { records := rs, takeTime := t, group := BitVec.ofNat 32 (fld e 48 4), atTime := isAtTime e, tag := e.tag, sequence := e.sequence
                units := units, regions := regions }) :
    finish h 0x0204 e (commitFit h e rs u) = complete h 0x0204 e (if isAtTime e then stDeferred else stOk) false 0 []
      (u.upd h (fun x => { x with env := { x.env with pend := some p, group := none, draft := none } })) := by
  have hset := pendSet_of_draft (h := h) (u := u) (p := p) (by rw [hd, hp])
  simp only [commitFit, hf, ← ht, if_neg (Nat.not_lt.2 hl), ← hp, hset]
  cases isAtTime e <;> rfl

/-- A pending envelope of no group goes alone (R69). -/
theorem pendHalves_ungrouped {p : PendingEnv} (hp : (s.half h).env.pend = some p) (hg : p.group = 0) : pendHalves h s = [h] := by
  unfold pendHalves
  rw [hp]
  cases (s.half h.other).env.pend <;> simp [hg]

/-- ENVELOPE_CANCEL withdraws the pending envelope while more than 500 µs are left (R69). -/
theorem execEnvelopeCancel_cancels {p : PendingEnv} (ht : Taken h envelopeCancelSpec e none s) (hp : (s.half h).env.pend = some p)
    (hg : p.group = 0) (ha : p.atTime = false) (hl : (s.half h).clk.now + leadTime < p.takeTime) :
    execEnvelopeCancel h e s = .next (complete h 0x0205 e stOk false 0 [] ((takeEntry h s).upd h pendDrop)) := by
  have hpend : ((takeEntry h s).half h).env.pend = some p := by rw [takeEntry_env, hp]
  refine next_congr ((runCmd_taken ht _).trans ?_)
  rw [guarded_passes (by rw [hpend, takeEntry_clk, Option.any_some, decide_eq_true hl]; rfl), pendHalves_ungrouped hpend hg]
  simp only [List.foldl_cons, List.foldl_nil, withdraw, hpend, ha, Bool.false_eq_true, if_false]
  rfl

/-- ENVELOPE_READ writes the records of a slot that holds any to host memory (R570). -/
theorem execEnvelopeRead_reads {t g : Nat} (ht : Taken h (envelopeReadSpec h e s) e none s) (hs : fld e 16 1 ≤ 2)
    (hz : checkReserved e [(16, 1), (24, 12)] = none) (hr : slotRead (s.half h).env (fld e 16 1) = some (rs, t, g)) :
    execEnvelopeRead h e .ok s = .next (complete h 0x0206 e stOk true 0 (le 4 (recordsSize rs) ++ le 4 rs.length ++ le 8 t ++ le 4 g)
      (hostWrite (fld e 24 8) (rs.flatMap id) (takeEntry h s))) := by
  refine next_congr ((runCmd_taken ht _).trans ?_)
  simp only [takeEntry_env, if_pos hs, hr]
  rw [guarded_passes (by simp [hz, hs])]
  rfl

end

/-- Settles O4: a commit that passes its checks is `Committable`, and its group field and the link say whether it waits for a partner; the
others are the lemmas above. -/
theorem envelopeCommands : Obligations.EnvelopeCommands := by
  rintro h e s _ rfl
  refine ⟨fun rs units regions t ht hf hd hp hg ha hj hs hx hfit htime hl p hpend => ?_, fun rs ht hf hd hp hg ha hj hn hs w hw => ?_,
    fun p ht hp hg ha hl => ?_, fun slot rs t g ht hslot hs hz hr => ?_⟩
  · have hsingle : (fld e 48 4 != 0 && (takeEntry h s).sparWorks) = false := by
      rcases hs with hs | hs <;> simp [hs]
    refine (execEnvelopeCommit_single ⟨ht, hf, hd, hp, hg, ha, hj⟩ hsingle hx).trans (next_congr ?_)
    exact commitFit_ok (by rw [takeEntry_env, hd]) hfit (by rw [takeEntry_clk]; exact htime) (by rw [takeEntry_clk]; exact hl) hpend
  · rw [hw]
    exact execEnvelopeCommit_grouped ⟨ht, hf, hd, hp, hg, ha, hj⟩ (by simp [hn, hs])
  · exact execEnvelopeCancel_cancels ht hp hg ha hl
  · subst hslot
    exact execEnvelopeRead_reads ht hs hz hr

/-! Groups, arming, the take-over and the store's check (R66, R70, R71, R74). -/

section
variable {h : HalfId} {s : State} {p : PendingEnv}

/-- The lead resolves a group whose two commits wait (R66). -/
theorem execEnvelopeGroupResolved_meets {a b : GroupWait} (ha : (s.half h).alive = true) (hl : (s.half h).bri.lead = true)
    (hf : (s.half h).bri.fenced = false) (hs : s.sparWorks = true) (hg : (s.half h).env.group = some a)
    (ho : (s.half h.other).env.group = some b) (hab : a.group = b.group) :
    execEnvelopeGroupResolved h s = .next (groupResolve h a b s) := by
  refine next_congr ?_
  simp only [ha, hl, hf, hs, hg, ho, hab, beq_self_eq_true, Bool.not_true, Bool.or_self, Bool.false_eq_true, if_false, if_true]

/-- A group that passes the checks of both halves is pending in both, at one time (R66, R69). -/
theorem groupResolve_ok {a b : GroupWait} {t : Nat} {ua ub : List (Handle × List Nat × Nat)} {ra rb : List (Nat × Nat × Nat × Nat)}
    (hab : a.atTime = b.atTime) (hja : judgeCross h s a.records b.records true = .ok) (hjb : judgeCross h.other s b.records a.records true = .ok)
    (hfa : fitCheck h (s.half h) a.records = .ok ua ra) (hfb : fitCheck h.other (s.half h.other) b.records = .ok ub rb)
    (ht : a.atTime.getD ((s.half h).clk.now + leadTime) = t) (hl : (s.half h).clk.now + leadTime ≤ t) :
    groupResolve h a b s = groupEvent h a.group stOk 0 .east 0 t [] (pendSet h.other (groupPend b t ub rb) (pendSet h (groupPend a t ua ra) s)) := by
  have htime : (a.atTime != b.atTime) = false := by simp [hab]
  simp only [groupResolve, State.now, htime, hja, hjb, hfa, hfb, ht, Nat.not_lt.2 hl, Bool.false_eq_true, if_false]

/-- A commit whose second has ended without its partner's leaves its slot (R66). -/
theorem execGroupPartnerTimeout_late {a : GroupWait} (hg : (s.half h).env.group = some a) (ht : a.arrival + 1000000000 ≤ (s.half h).clk.now)
    (hp : partnerCame h a s = false) :
    execGroupPartnerTimeout h s = .next (groupEvent h a.group stInvalid 0x0B h 0 0 absent_
      (s.upd h (updEnv (fun v => { v with group := none })))) := by
  have hwait : ¬ (decide (s.now h < a.arrival + 1000000000) || partnerCame h a s) = true := by
    rw [hp, Bool.or_false, decide_eq_true_eq]
    exact Nat.not_lt.2 ht
  refine next_congr ?_
  simp only [hg]
  exact if_neg hwait

/-- Arming marks what the take-over affects, and gives new objects their stopped state (R71). -/
theorem armDo_unarmed {x : Half} (hp : x.env.pend = some p) (ha : p.armed = false) :
    armDo h x = (p.records.filter (fun r => (recOf x.runningSlot (recHandle r)).isNone)).foldl (placeholder h p)
      (updEnv (fun v => { v with pend := some { p with armed := true, left := affected x p } }) x) := by
  simp only [armDo, hp, ha, Bool.false_eq_true, if_false]

/-- The store's check covers the running records and the pending ones; an intact store passes (R74). -/
theorem crcCheck_intact (hp : (s.half h).env.pend = some p) (hc : crcFault ((s.half h).runningSlot ++ p.records) = none) : crcCheck h s = s := by
  simp only [crcCheck, hp, hc]

/-- A record whose CRC does not match latches source 43 and cancels (R74). -/
theorem crcCheck_fault {o : Handle} (hp : (s.half h).env.pend = some p) (hc : crcFault ((s.half h).runningSlot ++ p.records) = some o) :
    crcCheck h s = crcCancel h o (latchHw 6 h 43 false s) := by
  simp only [crcCheck, hp, hc]

/-- At its time, with the store intact, a take-over begins (R70, R74). -/
theorem execTakeoverTime_begins (ha : (s.half h).alive = true) (hp : (s.half h).env.pend = some p) (hb : p.begun = false)
    (ht : p.takeTime ≤ (s.half h).clk.now) (hc : crcFault ((s.half h).runningSlot ++ p.records) = none) :
    execTakeoverTime h s = .next (takeoverBegin h p s) := by
  refine next_congr ?_
  simp only [ha, hp, hb, ht, crcCheck_intact hp hc, Option.any_some, decide_true, Bool.not_false, Bool.and_self, Bool.not_true, Bool.false_eq_true,
    if_false]

/-- The check of the store runs every 10 s (R74). -/
theorem execEnvelopeCrcCheck_due (ha : (s.half h).alive = true) (ht : (s.half h).env.lastCrcCheck + 10000000000 ≤ (s.half h).clk.now) :
    execEnvelopeCrcCheck h s = .next (crcCheck h (s.upd h (fun x => updEnv (fun v => { v with lastCrcCheck := x.clk.now }) x))) := by
  have hdue : ¬ (!(s.half h).alive || decide ((s.half h).clk.now < (s.half h).env.lastCrcCheck + 10000000000)) = true := by
    rw [ha, Bool.not_true, Bool.false_or, decide_eq_true_eq]
    exact Nat.not_lt.2 ht
  exact next_congr (if_neg hdue)

end

/-- Settles O24: under each clause's hypotheses the event's guards hold, and the rest is the state that the clause writes out. -/
theorem envelopeEvents : Obligations.EnvelopeEvents := by
  constructor
  · intro h s a hg
    refine ⟨fun b t ua ra ub rb ha hl hf hs ho hab hat hja hjb hfa hfb ht hlead => ?_, fun ht hp => execGroupPartnerTimeout_late hg ht hp⟩
    have htime : a.atTime.getD ((s.half h).clk.now + leadTime) = t := by
      rcases ht with ht | ⟨ht, rfl⟩ <;> rw [ht] <;> rfl
    exact (execEnvelopeGroupResolved_meets ha hl hf hs hg ho hab).trans (next_congr (groupResolve_ok hat hja hjb hfa hfb htime hlead))
  · rintro h s _ p rfl ha hp
    refine ⟨fun hu => next_congr ((if_pos ha).trans (upd_congr (armDo_unarmed hp hu))), fun hb ht hc => execTakeoverTime_begins ha hp hb ht hc,
      fun ht hc => (execEnvelopeCrcCheck_due ha ht).trans (next_congr ?_),
      fun o t ht hc hu => (execEnvelopeCrcCheck_due ha ht).trans (next_congr ?_)⟩
    · exact crcCheck_intact (by rw [half_upd_self]; exact hp) (by rw [half_upd_self]; exact hc)
    · subst hu
      exact crcCheck_fault (by rw [half_upd_self]; exact hp) (by rw [half_upd_self]; exact hc)

end Sys2Proof.Machine
end

section
/-!
PROOFS. Deferred commands and waiting starts (R49, R50, R77).
-/
namespace Sys2Proof.Machine

section
variable {h : HalfId} {s : State} {d : Deferred}

/-- A deferred command whose time has come, which nothing holds back, comes to its execution. -/
structure Due (h : HalfId) (s : State) (i : Nat) (d : Deferred) : Prop where
  alive : (s.half h).alive = true
  listed : (s.half h).env.deferred[i]? = some d
  reached : d.due ≤ (s.half h).clk.now
  free : deferredHeld (s.half h) d = false
  ready : contextWaits (s.half h) d = false

/-- Nothing holds back a command that is due. -/
theorem Due.passes {i : Nat} (hd : Due h s i d) :
    (!(s.half h).alive || decide ((s.half h).clk.now < d.due) || deferredHeld (s.half h) d || contextWaits (s.half h) d) = false := by
  rw [hd.alive, hd.free, hd.ready, decide_eq_false (Nat.not_lt.2 hd.reached)]
  rfl

/-- A command of this half reports its end (R49). -/
theorem deferredOut_own (hf : d.fwd = false) (st fl : Nat) (u : State) :
    deferredOut h d st fl u = deferredEnd h d st fl (u.upd h (updEnv (fun w => { w with deferred := w.deferred.erase d }))) := by
  simp only [deferredOut, hf, Bool.false_eq_true, if_false]

/-- A due SHAPER_SET takes its values (R50, R319). -/
theorem execAtTimeExecution_shaperSet {i : Nat} (hd : Due h s i d) (ho : d.opcode = 0x0520) :
    execAtTimeExecution h i s = .next (settle h (deferredOut h d stOk 0 (shaperSetDo h d.entry s))) := by
  refine settled_congr ?_
  simp only [hd.listed, hd.passes, Bool.false_eq_true, if_false, ho]

/-- A due DIAG_DUMP writes its words to host memory (R577). -/
theorem execAtTimeExecution_diagDump {i : Nat} (hd : Due h s i d) (ho : d.opcode = 0x0612) :
    execAtTimeExecution h i s = .next (settle h (deferredOut h d stOk 0
      (hostWrite (fld d.entry 24 8) (diagBytes (s.half h) d.entry.handle (fld d.entry 20 1) (fld d.entry 16 4) d.due) s))) := by
  refine settled_congr ?_
  simp only [hd.listed, hd.passes, Bool.false_eq_true, if_false, ho]

/-- A due STREAM_START comes to its boundary (R50). -/
theorem execAtTimeExecution_streamStart {i : Nat} (hd : Due h s i d) (ho : d.opcode = 0x0401) :
    execAtTimeExecution h i s = .next (settle h (runDue h d 0 s)) := by
  refine settled_congr ?_
  simp only [hd.listed, hd.passes, Bool.false_eq_true, if_false, ho]

theorem runTargets_single {x : Half} {obj : Handle} (ht : hType obj ≠ 6) : runTargets x obj = [obj] := by
  simp [runTargets, ht]

/-- A start finds a stopped object ready, and applies (R575). -/
theorem runOutcome_start {x : Half} {obj : Handle} (hs : runState x obj = .stopped) : runOutcome x 0 obj = 0 := by
  simp only [runOutcome, hs]

theorem runOutcomes_start {x : Half} {obj : Handle} (hs : runState x obj = .stopped) : runOutcomes x 0 [obj] = 0 := by
  simp [runOutcomes, runOutcome_start hs]

theorem runDo_start {obj : Handle} (base : Nat) (hs : runState (s.half h) obj = .stopped) : runDo h 0 base obj s = startObject h base obj s := by
  simp only [runDo, runOutcome_start hs, bne_self_eq_false, Bool.false_eq_true, if_false]

/-- A deferred start of one stopped object that runs in this half alone starts it (R50). -/
theorem runDue_start (ht : hType d.entry.handle ≠ 6) (hr : (recOf (s.half h).running d.entry.handle).isSome = true)
    (hs : runState (s.half h) d.entry.handle = .stopped) (hg : runGuarded (s.half h) d.entry.handle = false) :
    runDue h d 0 s = deferredOut h d stOk 0 (startObject h ((s.half h).clk.now + 1000000) d.entry.handle s) := by
  have hnone : (recOf (s.half h).running d.entry.handle).isNone = false := by
    simpa using hr
  simp only [runDue, runTargets_single ht, List.any_cons, List.any_nil, hnone, hs, hg, runOutcomes_start hs, List.foldl_cons, List.foldl_nil,
    runDo_start _ hs]
  rfl

/-- A waiting start of one stopped object that runs in this half alone starts it (R77). -/
theorem execWaitingStartExecution_starts {obj : Handle} (ha : (s.half h).alive = true)
    (hw : (s.half h).env.waitingStarts.find? (fun d => d.entry.handle == obj) = some d) (ht : hType obj ≠ 6)
    (hs : runState (s.half h) obj = .stopped) (hg : runGuarded (s.half h) obj = false) :
    execWaitingStartExecution h obj s = .next (deferredEnd h d stOk 0 (startObject h ((s.half h).clk.now + 1000000) obj
      (s.upd h (updEnv (fun w => { w with waitingStarts := w.waitingStarts.erase d }))))) := by
  have hkept : runState ((s.upd h (updEnv (fun w => { w with waitingStarts := w.waitingStarts.erase d }))).half h) obj = .stopped := by
    rw [half_upd_self]; exact hs
  refine next_congr ?_
  simp only [hw, ha, runTargets_single ht, List.any_cons, List.any_nil, hs, hg, runOutcomes_start hs, List.foldl_cons, List.foldl_nil,
    runDo_start _ hkept]
  rfl

end

/-- Settles O17: a due command does what its opcode says, and a start of one stopped object alone is `startObject` on it. -/
theorem deferredRuns : Obligations.DeferredRuns := by
  rintro h s d _ ha rfl
  refine ⟨fun i hl hr hf hc hw => ?_, fun obj hw ht hs hg => execWaitingStartExecution_starts ha hw ht hs hg⟩
  have hdue : Due h s i d := ⟨ha, hl, hr, hf, hc⟩
  have hout (u : State) := deferredOut_own (h := h) hw stOk 0 u
  refine ⟨fun ho => ?_, fun bytes ho hb => ?_, fun ho ht hrec hs hg => ?_⟩
  · exact (execAtTimeExecution_shaperSet hdue ho).trans (settled_congr (hout _))
  · subst hb
    exact (execAtTimeExecution_diagDump hdue ho).trans (settled_congr (hout _))
  · exact (execAtTimeExecution_streamStart hdue ho).trans (settled_congr ((runDue_start ht hrec hs hg).trans (hout _)))

end Sys2Proof.Machine
end

section
/-!
PROOFS. Assist entries in time (R80).
-/
namespace Sys2Proof.Machine

section
variable {h : HalfId} {a : AssistEntry} {p : List Byte} {s u : State}

/-- A well-formed entry on time joins its picture's data (R80). -/
theorem takeHeld_onTime {kind : Nat} {stream : Handle} {bad : Bool} (hb : bad = false) (ht : (s.half h).clk.now < a.time.toNat) :
    takeHeld h kind stream a bad p s =
      s.upd h (updEncode (hIndex stream) (holdAssist ⟨kind, a.time.toNat, a.sequence.toNat, a.tag.toNat, p⟩)) := by
  simp only [takeHeld, hb, Bool.false_eq_true, if_false, State.now, Nat.not_le.2 ht]

/-- RATE_ASSIST of the stream's size is held (R275). -/
theorem execRateAssist_held {r : Record} (hm : Matched h fnRate a p s u) (hr : r = (u.half h).record a.handle)
    (ht : (u.half h).clk.now < a.time.toNat) (h29 : afld p 29 1 ≤ 1) (h30 : afld p 30 2 = 0) (h36 : afld p 36 4 = 0) (h52 : afld p 52 12 = 0)
    (h40 : afld p 40 8 % 64 = 0) (hc : afld p 48 2 = esCols r) (hrow : afld p 50 2 = esRows r) :
    execRateAssist h a s =
      .next (u.upd h (updEncode (hIndex a.handle) (holdAssist ⟨0x0B01, a.time.toNat, a.sequence.toNat, a.tag.toNat, p⟩))) := by
  subst hr
  refine next_congr ((runAssist_matched hm _).trans (takeHeld_onTime ?_ ht))
  simp [h29, h30, h36, h52, h40, hc, hrow]

/-- COARSE_MOTION_HINTS of the stream's size is held (R201). -/
theorem execCoarseMotionHints_held {r : Record} (hm : Matched h fnMotion a p s u) (hr : r = (u.half h).record a.handle)
    (ht : (u.half h).clk.now < a.time.toNat) (h28 : afld p 28 4 = 0) (h44 : afld p 44 1 ≤ 1) (h45 : afld p 45 19 = 0)
    (hc : afld p 40 2 = esCols r) (hrow : afld p 42 2 = esRows r) :
    execCoarseMotionHints h a s =
      .next (u.upd h (updEncode (hIndex a.handle) (holdAssist ⟨0x0B02, a.time.toNat, a.sequence.toNat, a.tag.toNat, p⟩))) := by
  subst hr
  refine next_congr ((runAssist_matched hm _).trans (takeHeld_onTime ?_ ht))
  simp [h28, h44, h45, hc, hrow]

/-- HOST_STENCIL for one stream, of its size, is held (R250). -/
theorem execHostStencil_held {r : Record} (hm : Matched h fnStencil a p s u) (hr : r = (u.half h).record a.handle) (hty : hType a.handle = 5)
    (ht : (u.half h).clk.now < a.time.toNat) (h28 : afld p 28 4 = 0) (h32 : afld p 32 8 % 64 = 0) (h44 : afld p 44 1 ≤ 1)
    (h45 : afld p 45 19 = 0) (hw : afld p 40 2 = esWidth r / 8) (hh : afld p 42 2 = esHeight r / 8) :
    execHostStencil h a s =
      .next (u.upd h (updEncode (hIndex a.handle) (holdAssist ⟨0x0B03, a.time.toNat, a.sequence.toNat, a.tag.toNat, p⟩))) := by
  subst hr
  refine next_congr ((runAssist_matched hm _).trans ?_)
  rw [hty]
  refine takeHeld_onTime ?_ ht
  simp [h28, h32, h44, h45, hw, hh]

/-- CONCEALMENT_INSTRUCTION to show the concealed picture, before its deadline, makes it available (R145). -/
theorem execConcealmentInstruction_shows {d : DecodeSt} {q : DecodedPic} (hm : Matched h fnConceal a p s u)
    (hd : (u.half h).obj.decode? (hIndex a.handle) = some d) (hq : awaitedPic d a.tag.toNat a.sequence.toNat a.time.toNat = some q)
    (hl : (u.half h).clk.now < q.deadline) (hact : afld p 24 1 = 1) (h25 : afld p 25 1 = 0) (h26 : afld p 26 2 = 0) (h28 : afld p 28 4 = 0)
    (h44 : afld p 44 20 = 0) :
    execConcealmentInstruction h a s = .next (removeIdle h ((u.upd h (updDecode (hIndex a.handle) (fun d => { d with lastAction := 1 }))).upd h
      (showPicture h (hIndex a.handle) { q with awaiting := false }))) := by
  refine next_congr ((runAssist_matched hm _).trans ?_)
  simp only [hact, h25, h26, h28, h44, hd, Option.bind_some, hq, State.now, if_neg (Nat.not_le.2 hl)]
  rfl

/-- PACKET_RELEASE_TIMES before the picture's tick are kept for it (R329). -/
theorem execPacketReleaseTimes_kept {ts : List Nat} (hm : Matched h fnPacing a p s u) (ht : (u.half h).clk.now < a.time.toNat)
    (h38 : afld p 38 2 = 0) (h44 : afld p 44 4 = 0) (h56 : afld p 56 8 = 0) (h36 : afld p 36 2 ≤ 4096) (h32 : afld p 32 4 ≤ 1000000000)
    (h48 : afld p 48 8 % 64 = 0) (hts : releaseTimes (u.half h) p = some ts) :
    execPacketReleaseTimes h a s = .next (u.upd h (updFlowAt h a.handle (fun f => { f with
      schedules := f.schedules.filter (fun q => q.picture != a.sequence.toNat) ++
        [⟨a.sequence.toNat, a.time.toNat, ts, afld p 32 4, 0⟩] }))) := by
  refine next_congr ((runAssist_matched hm _).trans ((if_neg (Nat.not_le.2 ht)).trans ?_))
  rw [h38, h44, h56, h48, decide_eq_false (Nat.not_lt.2 h36), decide_eq_false (Nat.not_lt.2 h32)]
  simp only [bne_self_eq_false, Bool.or_self, Bool.false_eq_true, if_false, hts]

/-- Two changes of one pool are one. -/
theorem updPool_updPool (i : Nat) (f g : PoolSt → PoolSt) (x : Half) : updPool i g (updPool i f x) = updPool i (fun q => g (f q)) x := by
  simp only [updPool, List.modify_modify_eq]
  rfl

theorem poolOf_updPool {x : Half} {i : Nat} (hi : i < x.pools.length) (f : PoolSt → PoolSt) : poolOf (updPool i f x) i = f (poolOf x i) := by
  simp [poolOf, updPool, hi]

/-- A supplied address of a buffer in state 0 that is not queued yet joins the pool's queue (R380). -/
theorem poolSupplyOne_joins {n i b : Nat} {q : PoolSt} (hq : q = poolOf (s.half h) n) (hb : bufIndex n q b = some i) (hi : i < q.count)
    (hf : heldCount q i = none) (hn : b ∉ q.hostQueue) (hl : q.hostQueue.length < 1024) :
    poolSupplyOne h n s b = s.upd h (updPool n (fun q => { q with hostQueue := q.hostQueue ++ [b] })) := by
  subst hq
  refine if_pos ?_
  simp [hb, hi, hf, hn, hl]

/-- POOL_FREE_LIST_SUPPLY of one buffer in state 0 answers the request and queues the buffer (R380). -/
theorem execPoolFreeListSupply_joins {i : Nat} {q : PoolSt} (hq : q = poolOf (u.half h) (hIndex a.handle)) (hm : Matched h fnPool a p s u)
    (h24 : afld p 24 1 = 1) (h25 : afld p 25 7 = 0) (hb : bufIndex (hIndex a.handle) q (afld p 32 8) = some i) (hi : i < q.count)
    (hf : heldCount q i = none) (hn : afld p 32 8 ∉ q.hostQueue) (hl : q.hostQueue.length < 1024)
    (hp : hIndex a.handle < (u.half h).pools.length) :
    execPoolFreeListSupply h a s = .next (u.upd h (updPool (hIndex a.handle) (fun q => { q with
      supplyAsked := none, hostQueue := q.hostQueue ++ [afld p 32 8] }))) := by
  refine next_congr ((runAssist_matched hm _).trans ?_)
  simp only [h24, h25]
  have hanswered : poolOf ((u.upd h (updPool (hIndex a.handle) (fun q => { q with supplyAsked := none }))).half h) (hIndex a.handle) =
      { q with supplyAsked := none } := by rw [half_upd_self, poolOf_updPool hp, ← hq]
  refine (poolSupplyOne_joins hanswered.symm hb hi hf hn hl).trans ?_
  rw [upd_upd]
  exact upd_congr (updPool_updPool _ _ _ _)

/-- PTP_CORRECTION before the next expected Sync sets the frequency and corrects the phase (R290). -/
theorem execPtpCorrection_corrects (hm : Matched h fnPtp a p s u) (ha : (u.half h).ptp.answered = false)
    (hl : (u.half h).clk.now < (u.half h).ptp.deadline) (ht : (u.half h).ptp.t2 = some a.time.toNat) (h28 : afld p 28 4 = 0)
    (h40 : afld p 40 24 = 0) :
    execPtpCorrection h a s = .next (correctPhase h (signed 64 (afld p 32 8))
      (setFrequency h (signed 32 (afld p 24 4)) (u.upd h (updPtp (fun q => { q with answered := true }))))) := by
  refine next_congr ((runAssist_matched hm _).trans ?_)
  simp only [ha, ht, h28, h40, State.now, Nat.not_le.2 hl, decide_false, bne_self_eq_false, Bool.or_self, Bool.false_eq_true, if_false]

/-- RETRAIN_TIME of the request, at a time to come, is noted for the channel (R355). -/
theorem execRetrainTime_noted {n m : Nat} (hn : n = hIndex a.handle - 0xFF00) (hm : Matched h fnRetrain a p s u)
    (hz : p.any (fun b => b != 0) = false) (ha : (chanAt (u.half h) n).train.asked = some (a.sequence.toNat, m)) (hl : (u.half h).clk.now ≤ m)
    (ht : (u.half h).clk.now < a.time.toNat) :
    execRetrainTime h a s = .next (u.upd h (updTrain n (fun t => { t with asked := none, runAt := some a.time.toNat }))) := by
  refine next_congr ((runAssist_matched hm _).trans ?_)
  simp only [← hn, hz, ha, State.now, half_upd_self, bne_self_eq_false, Nat.not_lt.2 hl, Bool.false_eq_true, if_false]
  exact if_neg (Nat.not_le.2 ht)

/-- LEAD_DECISION of the request, before its deadline and with an epoch above both, assigns the roles (R454). -/
theorem execLeadDecision_assigns {epoch : W32} (he : epoch = BitVec.ofNat 32 (afld p 28 4)) (hm : Matched h fnLead a p s u)
    (hd : (u.half h).bri.deadline ≠ 0) (ht : a.time.toNat = (u.half h).bri.deadline) (hl : (u.half h).clk.now ≤ (u.half h).bri.deadline)
    (h24 : afld p 24 1 ≤ 1) (h25 : afld p 25 3 = 0) (hz : (p.drop 8).any (fun b => b != 0) = false) (hb : epochBeats h epoch u = true) :
    execLeadDecision h a s = .next (assignLead h (halfOf (afld p 24 1)) epoch u) := by
  refine next_congr ((runAssist_matched hm _).trans ?_)
  have hown : ((u.half h).bri.deadline == 0 || a.time.toNat != (u.half h).bri.deadline) = false := by simp [hd, ht]
  simp only [hown, ← he, h25, hz, hb, State.now, if_neg (Nat.not_lt.2 hl), decide_eq_false (Nat.not_lt.2 h24), bne_self_eq_false, Bool.not_true,
    Bool.or_self, Bool.false_eq_true, if_false]

end

/-- Settles O18: a matched entry runs its body, and the fields that the clause gives pass every check of it. -/
theorem assistEntries : Obligations.AssistEntries := by
  refine ⟨fun h a p s u r hr ht => ?_, fun h a p s u => ?_, fun h a p s u => ?_⟩
  · exact ⟨fun hm => execRateAssist_held hm hr ht, fun hm => execCoarseMotionHints_held hm hr ht,
      fun hm hty => execHostStencil_held hm hr hty ht⟩
  · exact ⟨fun d q hm => execConcealmentInstruction_shows hm, fun ts hm => execPacketReleaseTimes_kept hm,
      fun i q hq hm h24 h25 hb hi hf hn hl hlen hidx => execPoolFreeListSupply_joins hq hm h24 h25 hb hi hf hn hl (hlen ▸ hidx)⟩
  · exact ⟨execPtpCorrection_corrects, fun m hm => execRetrainTime_noted rfl hm, fun epoch he => execLeadDecision_assigns he⟩

end Sys2Proof.Machine
end

section
/-!
PROOFS. Index writes of the rings, taken and refused (R38, R39).
-/
namespace Sys2Proof.Machine

theorem tailRefused_eq_false {size : Nat} {v tail head : W32} (hs : ringFill v head ≤ size) (hm : ringFill tail head ≤ ringFill v head) :
    tailRefused size v tail head = false := by
  simp [tailRefused, hs, hm]

theorem tailRefused_eq_true {size : Nat} {v tail head : W32} (hr : size < ringFill v head ∨ ringFill v head < ringFill tail head) :
    tailRefused size v tail head = true := by
  simpa [tailRefused] using hr

theorem headRefused_eq_false {size : Nat} {v tail head : W32} (hs : ringFill tail v ≤ size) (hm : ringFill tail v ≤ ringFill tail head) :
    headRefused size v tail head = false := by
  simp [headRefused, hs, hm]

theorem headRefused_eq_true {size : Nat} {v tail head : W32} (hr : size < ringFill tail v ∨ ringFill tail head < ringFill tail v) :
    headRefused size v tail head = true := by
  simpa [headRefused] using hr

section
variable {h : HalfId} {s w : State}

/-- A host write lands while the half answers, once the endpoint has counted it (R418). -/
theorem hostWriteTo_lands (hw : w = s.upd h (count 31 0x10 1)) (hh : hostReach (s.half h) = true) {f : State → State} {t : State}
    (hf : f w = t) : (.next (hostWriteTo h f s) : Out) = .next t := by
  rw [← hf, hw]
  exact next_congr (if_pos hh)

/-- Counting a posted write leaves the rings. -/
theorem rings_counted (hw : w = s.upd h (count 31 0x10 1)) : (w.half h).rings = (s.half h).rings := by
  rw [hw, half_upd_self, count_rings]

/-- A write that is not refused ends with its ring's source withdrawn where the index empties the ring (R38). -/
theorem taken_withdraws {refused : Bool} {v limit : W32} {a b t : State} (hr : refused = false) :
    (if refused then a else if v == limit then b else t) = if v = limit then b else t := by
  simp only [hr, beq_iff_eq, Bool.false_eq_true, if_false]

end

/-- Settles O19: the write lands, is not refused, and ends as `taken_withdraws` says. -/
theorem ringIndexWrites : Obligations.RingIndexWrites := by
  intro h v s w r hw hr hh
  obtain rfl : (w.half h).rings = r := (rings_counted hw).trans hr.symm
  refine ⟨fun hs hm t ht => hostWriteTo_lands hw hh ?cmdq, fun hs hm t ht => hostWriteTo_lands hw hh ?asq,
    fun hs hm t ht => hostWriteTo_lands hw hh ?cplq, fun hs hm t ht => hostWriteTo_lands hw hh ?evtq,
    fun hs hm t ht => hostWriteTo_lands hw hh ?asr⟩ <;> subst ht
  case cmdq | asq => exact taken_withdraws (tailRefused_eq_false hs hm)
  case cplq | evtq | asr => exact taken_withdraws (headRefused_eq_false hs hm)

/-! What a refused write leaves. -/

section
variable (h k : HalfId) (n : Nat) (s : State)

theorem upd_rings (f : Half → Half) (hf : ∀ x, (f x).rings = x.rings) : ((s.upd h f).half k).rings = (s.half k).rings := by
  rcases half_upd_cases s h k f with ⟨e, -⟩ | e <;> rw [e]
  exact hf _

theorem msixPost_rings : ((msixPost h n s).half k).rings = (s.half k).rings := by
  unfold msixPost
  split
  · exact upd_rings _ _ _ _ (fun _ => count_rings _ _ _ _)
  · exact (upd_rings _ _ _ (fun x => { x with out := x.out ++ [.msix h n] }) (fun _ => rfl)).trans
      (upd_rings _ _ _ _ (fun _ => count_rings _ _ _ _))

/-- The delivery of an interrupt leaves the rings: it marks the source as sent or posts its message (R403, R406). -/
theorem icuEval_rings : ((icuEval h n s).half k).rings = (s.half k).rings := by
  unfold icuEval
  dsimp only
  split
  · exact upd_rings _ _ _ _ (fun _ => rfl)
  · exact upd_rings _ _ _ _ (fun _ => count_rings _ _ _ _)
  · next t _ _ =>
    generalize (if t == 1 then HalfId.east else HalfId.west) = ep
    split
    · rfl
    · exact (msixPost_rings _ _ _ _).trans (upd_rings _ _ _ _ (fun _ => count_rings _ _ _ _))

theorem icuRaise0_rings : ((icuRaise0 h n s).half k).rings = (s.half k).rings := by
  unfold icuRaise0
  split
  · rfl
  · exact (icuEval_rings _ _ _ _).trans (upd_rings _ _ _ _ (fun _ => rfl))

end

theorem event_rings (h : HalfId) (code : Nat) {sev : Nat} (hs : sev ≠ 2) (src : Handle) (detail : List Byte) (s : State) :
    ((event h code sev src detail s).half h).rings = (s.half h).rings := by
  obtain ⟨n, v, he⟩ := event_queued h code hs src detail s
  rw [he, half_upd_self, count_rings]

theorem getLsbD_setBit_true {w n : Nat} (v : BitVec w) (hn : n < w) : (setBit v n true).getLsbD n = true := by
  simp [setBit, hn]

/-- A refused index write changes only RING_ERR and the count of refusals of its half's rings (R39). -/
theorem ringRefused_rings {h : HalfId} {s : State} (hn : NoIcuCheck h s) (ring : Nat) (v before : W32) :
    ((ringRefused h ring v before s).half h).rings = { (s.half h).rings with
      ringErr := setBit (s.half h).rings.ringErr ring true, refused := sat32 (s.half h).rings.refused } := by
  have hcheck : NoIcuCheck h (s.upd h (fun x => { x with rings := { x.rings with
      ringErr := setBit x.rings.ringErr ring true, refused := sat32 x.rings.refused } })) := by
    unfold NoIcuCheck
    rw [half_upd_self]
    exact hn
  unfold ringRefused
  rw [event_rings _ _ (by decide), icuRaise_eq _ hcheck, icuRaise0_rings, half_upd_self]

/-- Settles O57: a write that overfills its ring or moves backwards is refused, and `ringRefused_rings` says what it leaves of the rings. -/
theorem refusedIndexWrites : Obligations.RefusedIndexWrites := by
  intro h v s w r refused hr hh hw hrefused
  obtain rfl : (w.half h).rings = r := (rings_counted hw).trans hr.symm
  obtain rfl : refused = fun ring before => ringRefused h ring v before w := hrefused
  refine ⟨fun hc => hostWriteTo_lands hw hh ?cmdq, fun hc => hostWriteTo_lands hw hh ?cplq, fun hc => hostWriteTo_lands hw hh ?evtq,
    fun hc => hostWriteTo_lands hw hh ?asq, fun hc => hostWriteTo_lands hw hh ?asr, fun ring before hring hn => ?kept⟩
  case cmdq | asq => exact if_pos (tailRefused_eq_true hc)
  case cplq | evtq | asr => exact if_pos (headRefused_eq_true hc)
  case kept =>
    have hcheck : NoIcuCheck h w := by
      unfold NoIcuCheck armedMask
      rw [hw, half_upd_self, count_flt]
      exact hn
    rw [ringRefused_rings hcheck]
    exact ⟨rfl, rfl, rfl, rfl, rfl, getLsbD_setBit_true _ hring⟩

end Sys2Proof.Machine
end

section
/-!
PROOFS. The rectangles of a change map (R117).
-/
namespace Sys2Proof.Machine

/-- Some run of a row holds block `x`. -/
def RunsHold (l : List (Nat × Nat)) (x : Nat) : Prop := ∃ q ∈ l, q.1 ≤ x ∧ x < q.1 + q.2

/-- Some rectangle holds the block in row `y` and column `x`. -/
def RectsHold (l : List Rect) (y x : Nat) : Prop := ∃ q ∈ l, q.x ≤ x ∧ x < q.x + q.width ∧ q.y ≤ y ∧ y < q.y + q.height

/-! The runs of a row. -/

theorem RunsHold.tail {l : List (Nat × Nat)} {p : Nat × Nat} {x : Nat} (h : RunsHold l x) : RunsHold (p :: l) x := by
  obtain ⟨q, hq, hx⟩ := h
  exact ⟨q, List.mem_cons_of_mem _ hq, hx⟩

/-- Making a row's last run longer loses nothing. -/
theorem RunsHold.longer {l : List (Nat × Nat)} {a n x : Nat} (h : RunsHold ((a, n) :: l) x) : RunsHold ((a, n + 1) :: l) x := by
  obtain ⟨q, hq, hl, hr⟩ := h
  rcases List.mem_cons.1 hq with rfl | hq
  · exact ⟨(a, n + 1), List.mem_cons_self, hl, by simp only at hr ⊢; omega⟩
  · exact ⟨q, List.mem_cons_of_mem _ hq, hl, hr⟩

/-- The runs of a row hold its set blocks, as a scan from the left finds them. -/
theorem rowRuns_holds {set : Nat → Bool} {w x : Nat} (hx : x < w) (hs : set x = true) : RunsHold (rowRuns set w) x := by
  suffices hscan : RunsHold (rowRuns set w).reverse x by
    obtain ⟨q, hq, hh⟩ := hscan
    exact ⟨q, List.mem_reverse.1 hq, hh⟩
  unfold rowRuns
  rw [List.reverse_reverse]
  induction w with
  | zero => omega
  | succ w ih =>
    rw [List.range_succ, List.foldl_append, List.foldl_cons, List.foldl_nil]
    generalize List.foldl _ _ (List.range w) = acc at ih ⊢
    rcases Nat.lt_succ_iff_lt_or_eq.1 hx with hlt | rfl
    · have hacc := ih hlt
      split
      · exact hacc
      · split
        · split
          · exact hacc.longer
          · exact hacc.tail
        · exact hacc.tail
    · rw [if_neg (by simp [hs])]
      split
      · next a n rest =>
        split
        · next he =>
          refine ⟨(a, n + 1), List.mem_cons_self, ?_⟩
          simp only [beq_iff_eq] at he ⊢
          omega
        · exact ⟨(x, 1), List.mem_cons_self, le_rfl, Nat.lt_succ_self x⟩
      · exact ⟨(x, 1), List.mem_cons_self, le_rfl, Nat.lt_succ_self x⟩

/-! Joining rows. -/

/-- Joining one run of a row: a rectangle of its extent that ends above the row grows by it, or the run begins a new one. -/
def joinRun (rects : List Rect) (row : Nat) (q : Nat × Nat) : List Rect := joinRuns rects row [q]

theorem joinRuns_eq_foldl (rects : List Rect) (row : Nat) (runs : List (Nat × Nat)) :
    joinRuns rects row runs = runs.foldl (fun rs q => joinRun rs row q) rects := rfl

/-- What was held stays so: a rectangle only grows. -/
theorem joinRun_keeps {rects : List Rect} {y x : Nat} (row : Nat) (q : Nat × Nat) (h : RectsHold rects y x) : RectsHold (joinRun rects row q) y x := by
  obtain ⟨t, ht, hl, hr, hu, hd⟩ := h
  unfold joinRun joinRuns
  rw [List.foldl_cons, List.foldl_nil]
  dsimp only
  split
  · refine ⟨_, List.mem_map_of_mem ht, ?_⟩
    split
    · exact ⟨hl, hr, hu, Nat.lt_succ_of_lt hd⟩
    · exact ⟨hl, hr, hu, hd⟩
  · exact ⟨t, List.mem_append_left _ ht, hl, hr, hu, hd⟩

/-- The run that is joined is held, in its row. -/
theorem joinRun_holds (rects : List Rect) (row : Nat) {q : Nat × Nat} {x : Nat} (hl : q.1 ≤ x) (hr : x < q.1 + q.2) :
    RectsHold (joinRun rects row q) row x := by
  unfold joinRun joinRuns
  rw [List.foldl_cons, List.foldl_nil]
  dsimp only
  split
  · next hany =>
    obtain ⟨t, ht, hsame⟩ := List.any_eq_true.1 hany
    refine ⟨_, List.mem_map_of_mem ht, ?_⟩
    rw [if_pos hsame]
    simp only [Bool.and_eq_true, beq_iff_eq] at hsame
    obtain ⟨⟨hx, hw⟩, hy⟩ := hsame
    simp only
    omega
  · exact ⟨_, List.mem_append_right _ List.mem_cons_self, hl, hr, le_rfl, Nat.lt_succ_self row⟩

theorem joinRuns_keeps {rects : List Rect} {y x : Nat} (row : Nat) (runs : List (Nat × Nat)) (h : RectsHold rects y x) :
    RectsHold (joinRuns rects row runs) y x := by
  rw [joinRuns_eq_foldl]
  induction runs generalizing rects with
  | nil => exact h
  | cons q runs ih => exact ih (joinRun_keeps row q h)

theorem joinRuns_holds (rects : List Rect) (row : Nat) {runs : List (Nat × Nat)} {x : Nat} (h : RunsHold runs x) :
    RectsHold (joinRuns rects row runs) row x := by
  obtain ⟨q, hq, hl, hr⟩ := h
  obtain ⟨front, back, rfl⟩ := List.append_of_mem hq
  rw [joinRuns_eq_foldl, List.foldl_append, List.foldl_cons]
  exact joinRuns_keeps row back (joinRun_holds _ row hl hr)

/-- The runs of all rows, joined. -/
def joinedRects (set : Nat → Nat → Bool) (w hgt : Nat) : List Rect :=
  (List.range hgt).foldl (fun rs y => joinRuns rs y (rowRuns (set y) w)) []

theorem joinedRects_holds {set : Nat → Nat → Bool} {w hgt y x : Nat} (hy : y < hgt) (hx : x < w) (hs : set y x = true) :
    RectsHold (joinedRects set w hgt) y x := by
  unfold joinedRects
  induction hgt with
  | zero => omega
  | succ hgt ih =>
    rw [List.range_succ, List.foldl_append, List.foldl_cons, List.foldl_nil]
    rcases Nat.lt_succ_iff_lt_or_eq.1 hy with hlt | rfl
    · exact joinRuns_keeps _ _ (ih hlt)
    · exact joinRuns_holds _ _ (rowRuns_holds hx hs)

/-! Bands. -/

/-- A run of a row: its row, its first column and the column behind it. -/
abbrev RowRun : Type := Nat × Nat × Nat

/-- The runs of a band of rows. -/
def bandRuns (set : Nat → Nat → Bool) (w y0 y1 : Nat) : List RowRun :=
  (List.range (y1 - y0)).flatMap (fun k => (rowRuns (set (y0 + k)) w).map (fun q => (y0 + k, q.1, q.1 + q.2)))

/-- The first and the last row, the first column and the column behind the last one, of a box and one more run. -/
def boxJoin (m : Nat × Nat × Nat × Nat) (q : RowRun) : Nat × Nat × Nat × Nat :=
  (min m.1 q.1, max m.2.1 q.1, min m.2.2.1 q.2.1, max m.2.2.2 q.2.2)

/-- A run lies in a box. -/
def InBox (q : RowRun) (m : Nat × Nat × Nat × Nat) : Prop := m.1 ≤ q.1 ∧ q.1 ≤ m.2.1 ∧ m.2.2.1 ≤ q.2.1 ∧ q.2.2 ≤ m.2.2.2

theorem bandRuns_holds {set : Nat → Nat → Bool} {w y0 y1 y x : Nat} (h0 : y0 ≤ y) (h1 : y < y1) (hx : x < w) (hs : set y x = true) :
    ∃ q ∈ bandRuns set w y0 y1, q.1 = y ∧ q.2.1 ≤ x ∧ x < q.2.2 := by
  have hrow : y0 + (y - y0) = y := Nat.add_sub_cancel' h0
  obtain ⟨q, hq, hl, hr⟩ := rowRuns_holds hx hs
  refine ⟨(y, q.1, q.1 + q.2), List.mem_flatMap.2 ⟨y - y0, List.mem_range.2 (by omega), ?_⟩, rfl, hl, hr⟩
  rw [hrow]
  exact List.mem_map_of_mem hq

theorem InBox.joined {q : RowRun} {m : Nat × Nat × Nat × Nat} (h : InBox q m) (p : RowRun) : InBox q (boxJoin m p) := by
  simp only [InBox, boxJoin] at h ⊢
  omega

theorem inBox_boxJoin (m : Nat × Nat × Nat × Nat) (q : RowRun) : InBox q (boxJoin m q) := by
  simp only [InBox, boxJoin]
  omega

theorem InBox.foldl {q : RowRun} {m : Nat × Nat × Nat × Nat} (h : InBox q m) (l : List RowRun) : InBox q (l.foldl boxJoin m) := by
  induction l generalizing m with
  | nil => exact h
  | cons p l ih => exact ih (h.joined p)

/-- A box grown run by run holds each of them. -/
theorem inBox_foldl {q p : RowRun} {l : List RowRun} (h : q ∈ p :: l) : InBox q (l.foldl boxJoin (p.1, p.1, p.2.1, p.2.2)) := by
  rcases List.mem_cons.1 h with rfl | h
  · exact InBox.foldl ⟨le_rfl, le_rfl, le_rfl, le_rfl⟩ l
  · obtain ⟨front, back, rfl⟩ := List.append_of_mem h
    rw [List.foldl_append, List.foldl_cons]
    exact (inBox_boxJoin _ q).foldl back

theorem bandBox_of_runs {set : Nat → Nat → Bool} {w y0 y1 : Nat} {p : RowRun} {ps : List RowRun} {b : Nat × Nat × Nat × Nat}
    (h : bandRuns set w y0 y1 = p :: ps) (hb : b = ps.foldl boxJoin (p.1, p.1, p.2.1, p.2.2)) :
    bandBox set w y0 y1 = some { x := b.2.2.1, y := b.1, width := b.2.2.2 - b.2.2.1, height := b.2.1 + 1 - b.1 } := by
  subst hb
  unfold bandRuns at h
  unfold bandBox
  simp only [h]
  rfl

/-- The bounding box of a band holds its set blocks. -/
theorem bandBox_holds {set : Nat → Nat → Bool} {w y0 y1 y x : Nat} (h0 : y0 ≤ y) (h1 : y < y1) (hx : x < w) (hs : set y x = true) :
    ∃ t, bandBox set w y0 y1 = some t ∧ t.x ≤ x ∧ x < t.x + t.width ∧ t.y ≤ y ∧ y < t.y + t.height := by
  obtain ⟨q, hq, rfl, hl, hr⟩ := bandRuns_holds h0 h1 hx hs
  cases hruns : bandRuns set w y0 y1 with
  | nil => rw [hruns] at hq; exact absurd hq List.not_mem_nil
  | cons p ps =>
    rw [hruns] at hq
    obtain ⟨hu, hd, hxl, hxr⟩ := inBox_foldl hq
    refine ⟨_, bandBox_of_runs hruns rfl, ?_⟩
    simp only
    omega

/-- The boxes of 16 bands of equal height (R117). -/
def bandRects (set : Nat → Nat → Bool) (w hgt : Nat) : List Rect :=
  (List.range 16).filterMap (fun k => bandBox set w (k * ceilDiv hgt 16) (min hgt ((k + 1) * ceilDiv hgt 16)))

theorem bandRects_length (set : Nat → Nat → Bool) (w hgt : Nat) : (bandRects set w hgt).length ≤ 16 :=
  (List.length_filterMap_le _ _).trans (List.length_range).le

theorem bandRects_holds {set : Nat → Nat → Bool} {w hgt y x : Nat} (hy : y < hgt) (hx : x < w) (hs : set y x = true) :
    RectsHold (bandRects set w hgt) y x := by
  have hcover : hgt ≤ 16 * ceilDiv hgt 16 := by unfold ceilDiv; omega
  have hband : 0 < ceilDiv hgt 16 := by omega
  generalize hb : ceilDiv hgt 16 = band at hcover hband
  have hk : y / band < 16 := Nat.div_lt_of_lt_mul (by rw [Nat.mul_comm]; omega)
  have hlow : y / band * band ≤ y := Nat.div_mul_le_self y band
  have hhigh : y < (y / band + 1) * band := by rw [Nat.mul_comm]; exact Nat.lt_mul_div_succ y hband
  obtain ⟨t, ht, hin⟩ := bandBox_holds hlow (Nat.lt_min.2 ⟨hy, hhigh⟩) hx hs
  exact ⟨t, List.mem_filterMap.2 ⟨y / band, List.mem_range.2 hk, by rw [hb]; exact ht⟩, hin⟩

theorem changeRects_eq (set : Nat → Nat → Bool) (w hgt : Nat) :
    changeRects set w hgt = if (joinedRects set w hgt).length ≤ 16 then joinedRects set w hgt else bandRects set w hgt := rfl

/-- Settles O56: up to 16 joined rectangles hold every set block (`joinedRects_holds`), and so do the boxes of 16 bands otherwise
(`bandRects_holds`). -/
theorem changeRectsCover : Obligations.ChangeRectsCover := by
  intro set w hgt
  rw [changeRects_eq]
  split
  · next hfew => exact ⟨hfew, fun y x hy hx hs => joinedRects_holds hy hx hs⟩
  · exact ⟨bandRects_length set w hgt, fun y x hy hx hs => bandRects_holds hy hx hs⟩

end Sys2Proof.Machine
end

section
/-!
PROOFS. Feeds, refreshes and changes of rate (R89 to R92, R106, R218, R269, R270).
-/
namespace Sys2Proof.Machine

section
variable {h : HalfId} {e : CmdEntry} {s u : State} {x : Half} {r : Record}

/-- A command without a time of its own passes the check of its time (R50). -/
theorem checkTime_untimed (now : Nat) (ha : isAtTime e = false) : checkTime e now = none := by
  simp [checkTime, ha]

/-- A change of an unguarded stream without a time of its own waits for the first picture 1 ms from now (R218, R270). -/
theorem changeTick_unguarded (st : EncodeSt) (hg : esGuarded r = false) :
    changeTick x r st none = esTick x.running r (pictureFrom x.running r st (x.clk.now + 1000000)) := by
  simp only [changeTick, hg, Bool.false_eq_true, if_false]

/-- A feed that moves the end of a context's data within its region, of a context that has no discontinuity open (R89, R90). -/
structure Feeds (h : HalfId) (e : CmdEntry) (s : State) (x : Half) (r : Record) (d : DecodeSt) : Prop where
  taken : Taken h decodeFeedSpec e none s
  half : x = (takeEntry h s).half h
  record : r = x.record e.handle
  zeros : checkReserved e [(16, 24)] = none
  running : checkRunning x e.handle = none
  region : decFeedRegion r ≠ 0
  context : x.obj.decode? (hIndex e.handle) = some d
  moves : d.feedEnd < fld e 16 8
  room : fld e 16 8 ≤ d.consumed + rd r 44 4
  joined : d.discontinuity = false

/-- Bytes that end no unit only move the end (R89). -/
theorem execDecodeFeed_plain {d : DecodeSt} (hf : Feeds h e s x r d) (hflags : fld e 32 4 = 0) :
    execDecodeFeed h e s = .next (complete h 0x0410 e stOk false 0 [] ((takeEntry h s).upd h (updDecode (hIndex e.handle) (fun q => { q with
      feedEnd := fld e 16 8, feeds := (d.feeds + 1) % 0x100000000, feedSeq := fld e 36 4 })))) := by
  obtain ⟨ht, rfl, rfl, hz, hr, hg, hd, hm, hroom, hj⟩ := hf
  refine next_congr ((runCmd_taken ht _).trans ?_)
  dsimp only
  rw [guarded_passes (by simp [hz, hr, hg, hd, hm, hroom, hflags])]
  simp only [hflags, hd, Option.getD_some, Nat.zero_testBit, Bool.or_false, Bool.not_false, Bool.and_true, Bool.and_false, Bool.false_and,
    Bool.false_or, Bool.false_eq_true, if_false]
  rfl

/-- Bytes that end an access unit give it its time, copy it to a guarded partner, and queue it (R89 to R92, R106). -/
theorem execDecodeFeed_unit {d : DecodeSt} {v : State} {a : AccessUnit} (hf : Feeds h e s x r d) (hflags : fld e 32 4 = 1)
    (htime : rd r 60 1 = 1 → d.anchor.isSome = true ∨ fld e 24 8 ≠ noTime)
    (hv : v = (takeEntry h s).upd h (updDecode (hIndex e.handle) (fun q => { q with
      feedEnd := fld e 16 8, feeds := (d.feeds + 1) % 0x100000000, feedSeq := fld e 36 4
      discontinuity := false, anchor := if rd r 60 1 = 1 ∧ fld e 24 8 ≠ noTime then some (fld e 24 8) else q.anchor, endOfStream := false })))
    (ha : a = { presentation := feedTime (rd r 60 1) (fld e 24 8) (takeEntry h s).free d.anchor, released := x.clk.now
                token := (takeEntry h s).free, origin := fld e 36 4, resume := d.endOfStream, endPos := fld e 16 8, feedSeq := fld e 36 4
                feeds := (d.feeds + 1) % 0x100000000 }) :
    execDecodeFeed h e s = .next (complete h 0x0410 e stOk false 0 []
      (pushUnit h (hIndex e.handle) a (copyUnit h e.handle r a v)).tick1) := by
  obtain ⟨ht, rfl, rfl, hz, hr, hg, hd, hm, hroom, hj⟩ := hf
  have htimed : (rd (((takeEntry h s).half h).record e.handle) 60 1 == 1 && d.anchor.isNone && fld e 24 8 == noTime) = false := by
    rw [Bool.eq_false_iff]
    intro hno
    simp only [Bool.and_eq_true, beq_iff_eq, Option.isNone_iff_eq_none] at hno
    obtain ⟨⟨htm, hn⟩, hp⟩ := hno
    simpa [hn, hp] using htime htm
  have hends : Nat.testBit 1 0 = true := rfl
  have hdisc : Nat.testBit 1 1 = false := rfl
  have hlast : Nat.testBit 1 2 = false := rfl
  refine next_congr ((runCmd_taken ht _).trans ?_)
  dsimp only
  rw [guarded_passes (by simpa [hz, hr, hg, hd, hm, hroom, hflags, hj, hdisc] using htimed)]
  simp only [hflags, hends, hdisc, hlast, hd, hj, hv, ha, State.now, half_upd_self, upd_free, updDecode_clk, Option.getD_some, Bool.or_false,
    Bool.not_true, Bool.and_false, Bool.and_true, Bool.false_eq_true, if_false, if_true, Bool.and_eq_true, beq_iff_eq, bne_iff_ne]
  rfl

/-- A change of a running, unguarded stream, without a time of its own, waits for the tick `t` (R218, R270). -/
structure Changes (h : HalfId) (e : CmdEntry) (s : State) (x : Half) (r : Record) (st : EncodeSt) (t : Nat) : Prop where
  half : x = (takeEntry h s).half h
  record : r = x.record e.handle
  running : checkRunning x e.handle = none
  stream : x.obj.encode? (hIndex e.handle) = some st
  unguarded : esGuarded r = false
  untimed : isAtTime e = false
  tick : t = esTick x.running r (pictureFrom x.running r st (x.clk.now + 1000000))

variable {st : EncodeSt} {t : Nat}

/-- A refresh of an unguarded stream waits for its picture (R218). -/
theorem execEncodeRefresh_unguarded (hc : Changes h e s x r st t) (ht : Taken h encodeRefreshSpec e none s)
    (hk : fld e 16 1 = 1 ∨ fld e 16 1 = 2) (hz : checkReserved e [(16, 1)] = none) :
    execEncodeRefresh h e s = .next (complete h 0x0420 e stOk false 0 (le 8 t) ((takeEntry h s).upd h (updEncode (hIndex e.handle) (fun q =>
      { q with refreshWait := q.refreshWait ++ [{ tick := t, kind := fld e 16 1, cause := 1 }] })))) := by
  obtain ⟨rfl, rfl, hr, hst, hg, ha, htick⟩ := hc
  have hkind : (fld e 16 1 == 0 || decide (2 < fld e 16 1)) = false := by rcases hk with hk | hk <;> rw [hk] <;> rfl
  rw [← changeTick_unguarded st hg] at htick
  refine next_congr ((runCmd_taken ht _).trans ?_)
  dsimp only
  rw [guarded_passes (by simp [hz, hr, hg, hkind, checkTime_untimed _ ha])]
  simp only [hst, hg, ha, entryTime, Bool.false_eq_true, if_false, ← htick]
  rfl

/-- A change of rate that takes its turn first, of a stream that does not drain (R269). -/
structure RateChanges (h : HalfId) (e : CmdEntry) (s : State) (st : EncodeSt) : Prop where
  taken : Taken h encodeRateSpec e none s
  alone : st.rateWait = []
  stays : st.run ≠ .draining
  zeros : checkReserved e [(16, 17)] = none
  inRange : rateRange (pad 17 e.payload) = none

/-- A rate that the stream can take waits for its picture (R270). -/
theorem execEncodeRate_waits (hc : Changes h e s x r st t) (hq : RateChanges h e s st)
    (hbad : rateBad x.running r (pad 17 e.payload) st.rate = none) :
    execEncodeRate h e s = .next (complete h 0x0421 e stOk false 0
      (le 8 t ++ le 1 (b2n (rateForcesIdr r st.rate (rateApply r (pad 17 e.payload) st.rate))))
      ((takeEntry h s).upd h (updEncode (hIndex e.handle) (fun q => { q with rateWait := q.rateWait ++
        [{ tick := t, payload := pad 17 e.payload, idr := rateForcesIdr r st.rate (rateApply r (pad 17 e.payload) st.rate) }] })))) := by
  obtain ⟨rfl, rfl, hr, hst, hg, ha, htick⟩ := hc
  obtain ⟨ht, hw, hd, hz, hrange⟩ := hq
  have hrun : (st.run == .draining) = false := by simpa using hd
  rw [← changeTick_unguarded st hg] at htick
  refine next_congr ((runCmd_taken ht _).trans ?_)
  simp only [hst, hw, Option.getD_some, List.foldl_nil, hrange, hbad]
  rw [guarded_passes (by simp [hz, hr, hg, hrun, checkTime_untimed _ ha])]
  simp only [hg, ha, entryTime, Bool.false_eq_true, if_false, ← htick]
  rfl

/-- A rate that the stream cannot take fails at its field (R269). -/
theorem execEncodeRate_refused {o : Nat} (hc : Changes h e s x r st t) (hq : RateChanges h e s st)
    (hbad : rateBad x.running r (pad 17 e.payload) st.rate = some o) :
    execEncodeRate h e s = .next (completeFail h 0x0421 e { status := stBadField, step := 6, offset := o } (takeEntry h s)) := by
  obtain ⟨rfl, rfl, hr, hst, -, -, -⟩ := hc
  obtain ⟨ht, hw, -, hz, hrange⟩ := hq
  refine next_congr ((runCmd_taken ht _).trans ?_)
  simp only [hst, hw, Option.getD_some, List.foldl_nil, hrange, hbad]
  rw [guarded_fails (by rw [hz, hr]; rfl)]
  rfl

end

/-- Settles O7: a taken command passes its checks, and its body is the lemma above on it. -/
theorem mediaCommands : Obligations.MediaCommands := by
  constructor
  · rintro h e s _ x r d rfl hx hr ht hz hrun hg hd hm hroom hj
    have hf : Feeds h e s x r d := ⟨ht, hx, hr, hz, hrun, hg, hd, hm, hroom, hj⟩
    exact ⟨execDecodeFeed_plain hf, fun hflags htime v a hv ha => execDecodeFeed_unit hf hflags htime hv ha⟩
  · rintro h e s _ x r st rfl hx hr hrun hst hg ha t ht
    have hc : Changes h e s x r st t := ⟨hx, hr, hrun, hst, hg, ha, ht⟩
    refine ⟨execEncodeRefresh_unguarded hc, ?_⟩
    rintro htk hw hd hz _ rfl hrange _ bad rfl hbad
    have hq : RateChanges h e s st := ⟨htk, hw, hd, hz, hrange⟩
    cases bad with
    | none => exact execEncodeRate_waits hc hq hbad.symm
    | some o => exact execEncodeRate_refused hc hq hbad.symm

end Sys2Proof.Machine
end

section
/-!
PROOFS. Input sessions: RTP packets and access units (R93 to R98, R106).
-/
namespace Sys2Proof.Machine

section
variable {h : HalfId} {s : State} {i : Nat} {n0 : InputSt}

/-! Packets (R93 to R97). -/

/-- An INPUT that has received before gets a packet of its session on a port that is up, with the extended sequence number and timestamp (R93, R94). -/
structure Receives (h : HalfId) (s : State) (i : Nat) (n0 : InputSt) (p : RtpPacket) (q : Nat) (b : Nat × Nat) (seq ts : Nat) : Prop where
  session : (s.half h).obj.input? i = some n0
  alive : (s.half h).alive = true
  up : ((s.half h).net.getD (rd ((s.half h).record (inputH h i)) 16 2) {}).link = .up
  mine : packetMine ((s.half h).record (inputH h i)) p = true
  high : n0.highSeq = some q
  based : n0.base = some b
  extendedSeq : seq = extendNear 16 q p.seq.toNat
  extendedTime : ts = extendNear 32 n0.highTs p.timestamp.toNat

variable {p : RtpPacket} {q : Nat} {b : Nat × Nat} {seq ts : Nat}

/-- A packet of a structure that the format does not use marks its access unit (R94). -/
theorem execRtpPacketReceived_structure (hr : Receives h s i n0 p q b seq ts)
    (hp : payloadOk (rd ((s.half h).record (inputH h i)) 20 1) p.payload = false) :
    execRtpPacketReceived h i p s = .next (s.upd h (updInput i (fun n => { n with
      badTimes := addNew ts n.badTimes, counts := { n.counts with structureDrops := sat32 n.counts.structureDrops } }))) := by
  obtain ⟨hi, ha, hu, hm, hq, hb, -, rfl⟩ := hr
  refine next_congr ?_
  simp only [hi, ha, hu, hm, hq, hb, hp, Option.isSome_some, bne_self_eq_false, Bool.not_true, Bool.not_false, Bool.or_self, Bool.false_eq_true,
    if_false, if_true]

/-- The INPUT after a packet: the highest numbers move on (R94). -/
def sessionMoves (n0 : InputSt) (q seq ts : Nat) : InputSt := { n0 with highSeq := some (max seq q), highTs := max ts n0.highTs }

/-- A packet that the format uses, and that starts no mapping by a sender report, is late, a duplicate, over the limit, or kept (R94 to R97). -/
theorem execRtpPacketReceived_used (hr : Receives h s i n0 p q b seq ts)
    (hp : payloadOk (rd ((s.half h).record (inputH h i)) 20 1) p.payload = true) (hs : n0.senderReport = none ∨ n0.mappedFrom ≠ none)
    {t : State} (ht : t = s.upd h (updInput i (fun _ => sessionMoves n0 q seq ts))) :
    execRtpPacketReceived h i p s = .next (
      if releaseTime h (s.half h) (sessionMoves n0 q seq ts) ts ≤ (s.half h).clk.now then
        noteUnit h i ts p.marker (t.upd h (fun x => count 30 0x12 1 (updInput i (fun n =>
          { n with counts := { n.counts with late := sat32 n.counts.late } }) x)))
      else if n0.packets.any (fun k => k.seq == seq) then
        t.upd h (fun x => count 30 0x13 1 (updInput i (fun n => { n with counts := { n.counts with duplicate := sat32 n.counts.duplicate } }) x))
      else if rd ((s.half h).record (inputH h i)) 68 4 < n0.held + p.bytes || p.noBuffer then jitterOverflow h i (sessionMoves n0 q seq ts) t
      else noteUnit h i ts p.marker (t.upd h (updInput i (fun n => { n with
        packets := insertBy (fun a b => a.seq < b.seq) { seq := seq, timestamp := ts, bytes := p.bytes, marker := p.marker
                                                         arrival := (s.half h).clk.now, randomAccess := p.randomAccess } n.packets
        held := n.held + p.bytes, lastSsrc := p.ssrc, lastSource := p.source
        counts := { n.counts with accepted := sat32 n.counts.accepted } })))) := by
  obtain ⟨hi, ha, hu, hm, hq, hb, rfl, rfl⟩ := hr
  have hmapped : (n0.mappedFrom.isNone && n0.senderReport.isSome) = false := by
    rcases hs with hs | hs
    · simp [hs]
    · simp [Option.isNone_iff_eq_none, hs]
  refine next_congr ?_
  simp only [hi, ha, hu, hm, hq, hp, hmapped, ht, hb, sessionMoves, Option.isSome_some, Option.getD_some, bne_self_eq_false, Bool.not_true,
    Bool.or_self, Bool.false_and, Bool.false_eq_true, if_false, if_true]

/-! Access units (R97, R98, R106). -/

/-- The earlier of a time, if there is one, and that of a packet. -/
def earlierTime (m : Option Nat) (k : BufPacket) : Option Nat := some (match m with | some t => min t k.timestamp | none => k.timestamp)

theorem foldl_earlierTime_some {l : List BufPacket} {t m : Nat} (hm : t ≤ m) (hl : ∀ k ∈ l, t ≤ k.timestamp) (ht : m = t ∨ ∃ k ∈ l, k.timestamp = t) :
    l.foldl earlierTime (some m) = some t := by
  induction l generalizing m with
  | nil => simpa using ht
  | cons k l ih =>
    have hk : t ≤ k.timestamp := hl k List.mem_cons_self
    refine ih (Nat.le_min.2 ⟨hm, hk⟩) (fun j hj => hl j (List.mem_cons_of_mem _ hj)) ?_
    rcases ht with rfl | ⟨j, hj, rfl⟩
    · exact .inl (Nat.min_eq_left hk)
    · rcases List.mem_cons.1 hj with rfl | hj
      · exact .inl (Nat.min_eq_right hm)
      · exact .inr ⟨j, hj, rfl⟩

/-- The earliest timestamp of a buffer. -/
theorem foldl_earlierTime_none {l : List BufPacket} {p : BufPacket} (hp : p ∈ l) (hl : ∀ k ∈ l, p.timestamp ≤ k.timestamp) :
    l.foldl earlierTime none = some p.timestamp := by
  cases l with
  | nil => exact absurd hp List.not_mem_nil
  | cons k l =>
    refine foldl_earlierTime_some (hl k List.mem_cons_self) (fun j hj => hl j (List.mem_cons_of_mem _ hj)) ?_
    rcases List.mem_cons.1 hp with rfl | hp
    · exact .inl rfl
    · exact .inr ⟨p, hp, rfl⟩

/-- The earliest access unit of a session that feeds a decoder goes, at its release time, to the decoder and to a guarded partner (R97, R98,
R106). -/
theorem execAccessUnitRelease_due {unit rest : List BufPacket} {miss bad : Bool} {rel : Nat} {d : Record} {a : AccessUnit} {t : State}
    (hi : (s.half h).obj.input? i = some n0) (hts : n0.packets.foldl earlierTime none = some ts) (hrel : rel = releaseTime h (s.half h) n0 ts)
    (hdue : rel ≤ (s.half h).clk.now) (hunit : unit = throughMarker (n0.packets.filter (fun k => k.timestamp == ts)))
    (hrest : rest = n0.packets.filter (fun k => !unit.contains k)) (hmiss : miss = unitIncomplete n0.nextSeq unit rest)
    (hbad : bad = n0.badTimes.contains ts) (hd : fedBy h (s.half h) i = some d)
    (ht : t = s.upd h (updInput i (fun n => { n with
      packets := rest, held := n.held - total (unit.map (fun k => k.bytes)), nextSeq := some ((unit.map (fun k => k.seq)).getLastD 0 + 1)
      badTimes := n.badTimes.filter (fun v => ts < v), counts := { n.counts with gaps := if miss then sat32 n.counts.gaps else n.counts.gaps } })))
    (ha : a = { presentation := rel, released := rel, incomplete := miss || bad, badStructure := bad
                gapBefore := n0.nextSeq.any (fun q => (unit.map (fun k => k.seq)).head? != some q), token := s.free, origin := ts % 2 ^ 32 }) :
    execAccessUnitRelease h i s = .next (pushUnit h (hIndex (recHandle d)) a (copyUnit h (recHandle d) d a t)).tick1 := by
  refine next_congr ?_
  simp only [hi]
  split
  · next hnone => exact absurd (hnone.symm.trans hts) nofun
  · next ts' hsome =>
    obtain rfl : ts' = ts := Option.some.inj (hsome.symm.trans hts)
    simp only [← hrel, Nat.not_lt.2 hdue, if_false, ← hunit, ← hrest, ← hmiss, ← hbad, hd, ← ht, ha]
    rw [ht, upd_free]

/-- The next copy in flight joins the queue of a guarded context without an input of its own (R106). -/
theorem execGuardedAccessUnitCopy_joins {c : Nat} {d : DecodeSt} {a : AccessUnit} {more : List AccessUnit}
    (hd : (s.half h).obj.decode? c = some d) (hc : d.copies = a :: more) (hp : decPartner ((s.half h).record (decodeH h c)) ≠ 0)
    (hi : decInput ((s.half h).record (decodeH h c)) = 0) (hf : decFeedRegion ((s.half h).record (decodeH h c)) = 0) (hs : s.sparWorks = true) :
    execGuardedAccessUnitCopy h c a.presentation a.incomplete a.badStructure s =
      .next (pushUnit h c a (s.upd h (updDecode c (fun d => { d with copies := d.copies.drop 1 })))) := by
  refine next_congr ?_
  simp only [hd, hc, Option.bind_some, List.head?_cons]
  exact if_pos (by simp [copyIs, hp, hi, hf, hs])

end

/-- Settles O25: `execRtpPacketReceived_used` says what becomes of a packet that the format uses, and the clauses choose its cases. -/
theorem inputEvents : Obligations.InputEvents := by
  constructor
  · rintro h s _ i n0 rfl hi
    refine ⟨fun p r q b seq ts hr ha hu hm hq hb hseq hts => ?packets, fun ts p d unit rest miss bad rel a t hp hpt hmin hrel hdue hunit hrest hmiss
      hbad hd ht ha => ?release⟩
    case packets =>
      subst hr
      have hrec : Receives h s i n0 p q b seq ts := ⟨hi, ha, hu, hm, hq, hb, hseq, hts⟩
      refine ⟨execRtpPacketReceived_structure hrec, ?_⟩
      rintro _ t hp hs rfl ht
      have hused := execRtpPacketReceived_used hrec hp hs ht
      refine ⟨fun hl => hused.trans (next_congr (if_pos hl)), fun hl hk => hused.trans (next_congr ?_),
        fun hl hk hroom hbuf => hused.trans (next_congr ?_)⟩
      · have hany : n0.packets.any (fun k => k.seq == seq) = true := by simpa using hk
        exact (if_neg (Nat.not_le.2 hl)).trans (if_pos hany)
      · have hnew : n0.packets.any (fun k => k.seq == seq) = false := by simpa using hk
        have hfits : (decide (rd ((s.half h).record (inputH h i)) 68 4 < n0.held + p.bytes) || p.noBuffer) = false := by
          rw [hbuf, decide_eq_false (Nat.not_lt.2 hroom)]
          rfl
        exact (if_neg (Nat.not_le.2 hl)).trans ((if_neg (by simp [hnew])).trans (if_neg (by simp [hfits])))
    case release =>
      subst hpt
      exact execAccessUnitRelease_due hi (foldl_earlierTime_none hp hmin) hrel hdue hunit hrest hmiss hbad hd ht ha
  · rintro h s _ c d a more rfl hd hc hp hi hf hs
    exact execGuardedAccessUnitCopy_joins hd hc hp hi hf hs

end Sys2Proof.Machine
end

section
/-!
PROOFS. Decode pictures: their start and their end (R83, R87, R92, R100 to R103, R111, R119 to R121).
-/
namespace Sys2Proof.Machine

section
variable {h : HalfId} {s : State} {engine c : Nat} {d : DecodeSt} {a : AccessUnit}

/-- Without a switch to a new record the chosen unit, not one that was suspended, starts on its engines (R100, R111). -/
theorem execDecodePictureStart_starts {parallel : Bool} (hd : (s.half h).obj.decode? c = some d) (ha : (s.half h).alive = true)
    (hc : decChoose h (s.half h) engine parallel = some (c, a)) (hw : decSwitch h (s.half h) d a = none)
    (hs : ((s.half h).dec.getD engine {}).suspended.contains c = false) :
    execDecodePictureStart h { engine := engine, parallel := parallel } s = .next (takeoverCheck h (s.upd h (fun z =>
      let y := updDecode c (fun q => { q with inProgress := some a, ready := q.ready.drop 1, lastProgress := z.clk.now }) z
      { y with dec := (decOn h (s.half h) d a engine parallel).foldl (fun gs e => gs.modify e (fun g => { g with
          current := some c, seq := seqStart 1 false g.seq, suspended := g.suspended.filter (fun k => k != c)
          nextBulk := if decClass (y.record (decodeH h c)) == 2 then c + 1 else g.nextBulk })) y.dec }))) := by
  refine next_congr ?_
  simp only [ha, hc, hd, hw, hs, Option.isSome_none, Bool.not_true, Bool.false_eq_true, if_false]

/-! The end of a picture. -/

/-- No engine keeps the context back: none has suspended it or halts on it. -/
theorem notHalting {dec : List EngineSt}
    (hg : ∀ g ∈ dec, g.suspended.contains c = false ∧ (g.current = some c → g.halted = false ∧ g.seq.halt = false)) :
    dec.any (fun g => g.suspended.contains c || (g.current == some c && (g.halted || g.seq.halt))) = false := by
  refine List.any_eq_false.2 (fun g hm => ?_)
  obtain ⟨hs, hh⟩ := hg g hm
  by_cases hc : g.current = some c
  · obtain ⟨hl, ht⟩ := hh hc
    rw [hs, hl, ht, Bool.or_self, Bool.and_false, Bool.or_self]
    exact Bool.false_ne_true
  · rw [hs, beq_eq_false_iff_ne.2 hc, Bool.false_and, Bool.or_self]
    exact Bool.false_ne_true

/-- What follows a finished unit: the status block of a feed, at the end of the stream STREAM_END, and the removals that waited for it (R70, R89,
R92). -/
def unitDone (h : HalfId) (c : Nat) (a : AccessUnit) (v : State) : State :=
  removeIdle h (if a.last then streamEnd h c (if a.endPos != 0 then feedStatus h c a v else v) else if a.endPos != 0 then feedStatus h c a v else v)

/-- What the fate of a unit does (R83, R87, R119 to R121). -/
def fateDo (h : HalfId) (c engine : Nat) (b : DecodeSt) (a : AccessUnit) (f : DecodeFacts) (t : State) : UnitFate → State
  | .discarded => t
  | .skipped => t.upd h (damageAdd h c 3 1)
  | .lost => t.upd h (damageAdd h c 0 (damagedUnits b.sets f))
  | .refused none => t.upd h (updDecode c (fun d => { d with limitWait := true, waitStart := true }))
  | .refused (some q) => event h 0x0402 sevWarning (decodeH h c) (le 4 q.1 ++ le 4 q.2)
      (t.upd h (updDecode c (fun d => { d with limitWait := true, waitStart := true })))
  | .decoded p =>
    let e := { b with active := some p, waitStart := false, limitWait := false, raslSkip := if f.startPoint then b.waitStart && f.cra else b.raslSkip }
    finishDecoded h c engine e p a f (t.upd h (updDecode c (fun _ => e)))

/-- The engine finishes a wanted unit of a context that nothing holds back. -/
structure Finishes (h : HalfId) (s : State) (engine c : Nat) (d : DecodeSt) (a : AccessUnit) (r : Record) (f : DecodeFacts) : Prop where
  context : (s.half h).obj.decode? c = some d
  current : ((s.half h).dec.getD engine {}).current = some c
  index : d.index = c
  unheld : ∀ g ∈ (s.half h).dec, g.suspended.contains c = false ∧ (g.current = some c → g.halted = false ∧ g.seq.halt = false)
  progress : d.inProgress = some a
  record : r = (s.half h).record (decodeH h c)
  wanted : unitUnwanted r f = false

variable {r : Record} {b : DecodeSt} {f : DecodeFacts} {sets : List (Nat × ParamFacts)}

/-- A wanted unit brings its parameter sets, leaves its engines, and meets its fate. -/
theorem execDecodePictureComplete_wanted {t : State} (hf : Finishes h s engine c d a r f)
    (hsets : sets = setsAfter (beforeUnit r a (s.half h).clk.now d).sets f.params)
    (hb : b = { beforeUnit r a (s.half h).clk.now d with sets := sets })
    (ht : t = rejectSets h c f.params (s.upd h (fun x => decRelease b (updDecode c (fun _ => b) x)))) :
    execDecodePictureComplete h engine f s = .next (unitDone h c a (fateDo h c engine b a f t (unitFate r b sets f))) := by
  obtain ⟨hd, hcur, hidx, hg, hp, hr, hu⟩ := hf
  have hfate : unitFate r (beforeUnit r a (s.half h).clk.now d) sets f = unitFate r b sets f := by rw [hb]; rfl
  refine next_congr ?_
  simp only [hcur, Option.filter_some, notHalting hg, Bool.not_false, if_true, Option.bind_some, hd, hp, hidx, ← hr, hu, Bool.false_eq_true, if_false,
    ← hsets, ← hb, ← ht, hfate]
  have hkept : b.sets = sets := by rw [hb]
  cases unitFate r b sets f with
  | discarded => rfl
  | skipped => rfl
  | lost => simp only [unitDone, fateDo, hkept]
  | refused e => cases e <;> rfl
  | decoded p => rw [hb]; rfl

/-! The fate of a unit (R83, R87, R121). -/

/-- A context that waits for a start point, not because of a limit, skips a unit that is none (R121). -/
theorem unitFate_skipped (hu : unitUnwanted r f = false) (hw : b.waitStart = true) (hs : f.startPoint = false) (hl : b.limitWait = false) :
    unitFate r b sets f = .skipped := by
  simp only [unitFate, hu, hw, hs, hl, Bool.false_eq_true, Bool.not_false, Bool.and_self, if_false, if_true]

/-- A wanted unit that is not skipped comes to its parameters `p` (R87, R121). -/
structure Judged (r : Record) (b : DecodeSt) (sets : List (Nat × ParamFacts)) (f : DecodeFacts) (p : ParamFacts) : Prop where
  wanted : unitUnwanted r f = false
  started : b.waitStart = false ∨ f.startPoint = true
  shown : f.rasl = false ∨ b.raslSkip = false ∨ f.startPoint = true
  params : (if f.startPoint then (setOf sets f.usesSet).or b.active else b.active) = some p

variable {p : ParamFacts}

theorem Judged.not_waiting (hj : Judged r b sets f p) : (b.waitStart && !f.startPoint) = false := by
  rcases hj.started with hw | hs
  · rw [hw, Bool.false_and]
  · rw [hs, Bool.not_true, Bool.and_false]

theorem Judged.not_rasl (hj : Judged r b sets f p) : (f.rasl && b.raslSkip && !f.startPoint) = false := by
  rcases hj.shown with hr | hk | hs
  · rw [hr, Bool.false_and, Bool.false_and]
  · rw [hk, Bool.and_false, Bool.false_and]
  · rw [hs, Bool.not_true, Bool.and_false]

/-- Parameters beyond a limit of the record refuse the unit, and the first time this is reported (R83, R87). -/
theorem unitFate_refused (hj : Judged r b sets f p) {e : Nat × Nat} (he : limitExceeded r p = some e) (hl : b.limitWait = false) :
    unitFate r b sets f = .refused (some e) := by
  simp only [unitFate, hj.wanted, hj.not_waiting, hj.not_rasl, hj.params, he, hl, Bool.false_eq_true, Bool.not_false, Bool.true_or, if_false, if_true]

/-- Parameters within the limits let the unit be decoded (R83). -/
theorem unitFate_decoded (hj : Judged r b sets f p) (he : limitExceeded r p = none) (hb : rateBeyond r p = false) :
    unitFate r b sets f = .decoded p := by
  simp only [unitFate, hj.wanted, hj.not_waiting, hj.not_rasl, hj.params, he, hb, Bool.false_eq_true, if_false]

end

/-- Settles O26: a wanted unit ends as `execDecodePictureComplete_wanted` says, with the fate that the clause's hypotheses give it. -/
theorem decodePictures : Obligations.DecodePictures := by
  rintro h s _ engine c d a rfl hd
  refine ⟨fun parallel ha hc hw hs => execDecodePictureStart_starts hd ha hc hw hs, ?_⟩
  rintro f r b sets t done hcur hidx hg hp hr hu hsets hb ht rfl
  have hdone := execDecodePictureComplete_wanted ⟨hd, hcur, hidx, hg, hp, hr, hu⟩ hsets hb ht
  refine ⟨fun hw hs hl => ?skipped, fun p hw hk hpar => ?judged⟩
  case skipped =>
    rw [unitFate_skipped hu hw hs hl] at hdone
    exact hdone
  case judged =>
    have hj : Judged r b sets f p := ⟨hu, hw, hk, hpar⟩
    refine ⟨fun k v he hl => ?_, ?_⟩
    · rw [unitFate_refused hj he hl] at hdone
      exact hdone
    · rintro _ he hbeyond rfl
      rw [unitFate_decoded hj he hbeyond] at hdone
      exact hdone

end Sys2Proof.Machine
end

section
/-!
PROOFS. Timers of decoding: availability, starvation, repeated refresh requests, concealment (R103, R104, R141, R149).
-/
namespace Sys2Proof.Machine

section
variable {h : HalfId} {s : State} {c : Nat}

/-- A decoded picture whose time has come is made available (R103). -/
theorem execPictureAvailable_due {d : DecodeSt} {p : DecodedPic} (hd : (s.half h).obj.decode? c = some d)
    (hp : d.waiting.find? (fun p => !p.awaiting && p.availableAt ≤ (s.half h).clk.now) = some p) :
    execPictureAvailable h c s = .next (removeIdle h (s.upd h (makeAvailable h c p))) := by
  refine next_congr (congrArg (removeIdle h) (upd_congr ?_))
  simp only [hd, hp]

/-- A BULK context with work and without progress for 1 s is reported, unless it was within the last 10 s (R104). -/
theorem execBulkStarved_due {d : DecodeSt} (hd : (s.half h).obj.decode? c = some d) (hc : decClass ((s.half h).record (decodeH h c)) = 2)
    (hw : d.ready ≠ [] ∨ ∃ g ∈ (s.half h).dec, g.suspended.contains c = true) (hl : d.lastProgress + 1000000000 ≤ (s.half h).clk.now)
    (hq : ∀ t, d.lastStarved = some t → t + 10000000000 ≤ (s.half h).clk.now) :
    execBulkStarved h c s = .next (event h 0x0403 sevInfo (decodeH h c) (le 8 d.lastProgress)
      (s.upd h (updDecode c (fun d => { d with lastStarved := some (s.half h).clk.now })))) := by
  have hwork : (!d.ready.isEmpty || (s.half h).dec.any (fun g => g.suspended.contains c)) = true := by
    rcases hw with hw | hw
    · simp [hw]
    · rw [List.any_eq_true.2 hw, Bool.or_true]
  have hslow : decide (d.lastProgress + 1000000000 ≤ (s.half h).clk.now) = true := decide_eq_true hl
  have hquiet : (d.lastStarved.all fun t => decide (t + 10000000000 ≤ (s.half h).clk.now)) = true := by
    cases hs : d.lastStarved with
    | none => rfl
    | some t => rw [Option.all_some, decide_eq_true (hq t hs)]
  refine next_congr ?_
  simp only [hd, hc, hwork, hslow, hquiet, beq_self_eq_true, Bool.and_self, if_true]
  exact congrArg (event h 0x0403 sevInfo (decodeH h c) (le 8 d.lastProgress)) (upd_congr rfl)

/-- A request still pending is sent again at its time, 200 ms after any other; after 20 repeats every 5 s, and the first of these is reported (R141). -/
theorem execRefreshRequestRepeat_due {n : InputSt} {v : State} (hn : (s.half h).obj.input? c = some n) (hp : n.refresh.pending = true)
    (hd : n.refresh.due ≤ (s.half h).clk.now) (hs : requestSpaced (s.half h).clk.now n.refresh = true)
    (hv : v = (requestSend h c ((rd ((s.half h).record (inputH h c)) 74 2).testBit 2) n.refresh.sent s).upd h (fun x => updInput c (fun m =>
      { m with refresh := { m.refresh with
          sent := n.refresh.sent + 1, due := x.clk.now + (if 20 ≤ n.refresh.sent then 5000000000 else 500000000) } }) x)) :
    execRefreshRequestRepeat h c s = .next (if n.refresh.sent = 20 then event h 0x040C sevWarning (inputH h c)
      (le 8 n.refresh.first ++ le 4 (n.refresh.sent + 1)) v else v) := by
  refine next_congr ?_
  simp only [hn, hp, hs, Nat.not_lt.2 hd, hv, decide_false, Bool.not_true, Bool.or_self, Bool.false_eq_true, if_false, beq_iff_eq]

/-- A picture whose instruction has not come by its deadline is concealed by default (R149). -/
theorem execConcealmentDeadline_due {d : DecodeSt} {p : DecodedPic} (hd : (s.half h).obj.decode? c = some d)
    (hp : d.waiting.find? (fun p => p.awaiting && p.deadline ≤ (s.half h).clk.now) = some p) :
    execConcealmentDeadline h c s = .next (removeIdle h (concealLate h c p 1 s)) := by
  have hnow : d.waiting.find? (fun p => p.awaiting && p.deadline ≤ s.now h) = some p := hp
  refine next_congr ?_
  simp only [hd, hnow]

end

/-- Settles O27: each timer is due under its clause's hypotheses. -/
theorem decodeTimers : Obligations.DecodeTimers := by
  rintro h s _ c rfl
  refine ⟨fun d p hd hp => execPictureAvailable_due hd hp, fun d hd hc hw hl hq => execBulkStarved_due hd hc hw hl hq, ?_,
    fun d p hd hp => execConcealmentDeadline_due hd hp⟩
  rintro n v _ hn hp hd hs rfl hv
  have hx := execRefreshRequestRepeat_due hn hp hd hs hv
  exact ⟨fun he => hx.trans (next_congr (if_neg he)), fun he => hx.trans (next_congr ((if_pos he).trans (by rw [he])))⟩

end Sys2Proof.Machine
end

section
/-!
PROOFS. RTCP: reports and feedback (R95, R99, R298, R299).
-/
namespace Sys2Proof.Machine

section
variable {h : HalfId} {s : State} {i : Nat}

/-- A sender report gives the TAI time of its RTP time (R95). -/
theorem execRtcpSenderReportReceived_alive (ha : (s.half h).alive = true) (ntp : Nat) (rtp : W32) :
    execRtcpSenderReportReceived h i ntp rtp s = .next (s.upd h (updInput i (fun n => { n with
      senderReport := some (((ntp : Int) + (s.half (ptpHome s h)).ptp.utcOffset * 1000000000).toNat, rtp) }))) :=
  next_congr (if_neg (by simp [ha]))

/-! Feedback (R299). -/

/-- Feedback for the SSRC of a flow that passes it on is counted on the flow's port. -/
structure FedBack (h : HalfId) (s : State) (i : Nat) (g : FlowSt) (f : Feedback) (v : State) : Prop where
  alive : (s.half h).alive = true
  flow : (s.half h).obj.flow? i = some g
  passes : flFlag ((s.half h).record (flowH h i)) 2 = true
  source : f.mediaSsrc = g.ssrc
  counted : v = s.upd h (count (28 + hIndex g.port % 2) 0x17 1)

variable {g : FlowSt} {f : Feedback} {v : State}

/-- A picture loss indication asks the stream for a refresh. -/
theorem execRtcpFeedbackReceived_pli (hf : FedBack h s i g f v) (hn : f.fir = false) :
    execRtcpFeedbackReceived h i f s = .next (streamFeedback h (hIndex (flStream ((s.half h).record (flowH h i)))) (v.upd h (updFlow i (fun g =>
      { g with counts := { g.counts with pli := sat32 g.counts.pli } })))) := by
  obtain ⟨ha, hg, hp, hs, rfl⟩ := hf
  refine next_congr ?_
  simp only [hg, ha, hp, hs, hn, bne_self_eq_false, Bool.not_true, Bool.or_self, Bool.false_and, Bool.false_eq_true, if_false]

/-- The sender's last request had this number (R299). -/
theorem firSeen_iff : (g.firLast.any fun p => p.1 == f.sender && p.2 == f.firSequence) = true ↔ (f.sender, f.firSequence) ∈ g.firLast := by
  simp only [List.any_eq_true, Bool.and_eq_true, beq_iff_eq]
  constructor
  · rintro ⟨p, hp, h1, h2⟩
    rwa [← h1, ← h2]
  · exact fun hp => ⟨_, hp, rfl, rfl⟩

/-- A full intra request asks the stream for a refresh, unless the sender's last one had its number: then it is only counted. -/
theorem execRtcpFeedbackReceived_fir (hf : FedBack h s i g f v) (hn : f.fir = true) :
    execRtcpFeedbackReceived h i f s = .next (
      if (f.sender, f.firSequence) ∈ g.firLast then v.upd h (updFlow i (fun g => { g with
        firLast := g.firLast.filter (fun p => p.1 != f.sender) ++ [(f.sender, f.firSequence)]
        counts := { g.counts with firRepeats := sat32 g.counts.firRepeats, fir := sat32 g.counts.fir } }))
      else streamFeedback h (hIndex (flStream ((s.half h).record (flowH h i)))) (v.upd h (updFlow i (fun g => { g with
        firLast := g.firLast.filter (fun p => p.1 != f.sender) ++ [(f.sender, f.firSequence)]
        counts := { g.counts with fir := sat32 g.counts.fir } })))) := by
  obtain ⟨ha, hg, hp, hs, rfl⟩ := hf
  refine next_congr ?_
  simp only [hg, ha, hp, hs, hn, bne_self_eq_false, Bool.not_true, Bool.or_self, Bool.true_and, Bool.false_eq_true, if_false, if_true]
  by_cases hm : (f.sender, f.firSequence) ∈ g.firLast
  · simp only [firSeen_iff.2 hm, if_pos hm, if_true]
  · simp only [Bool.eq_false_iff.2 (mt firSeen_iff.1 hm), if_neg hm, Bool.false_eq_true, if_false]

/-- A receiver report leaves its loss fields, and a NACK is counted. -/
theorem execRtcpReceiverReportReceived_passed (ha : (s.half h).alive = true) (hp : flFlag ((s.half h).record (flowH h i)) 2 = true)
    (r : ReceiverReport) :
    execRtcpReceiverReportReceived h i r s = .next (s.upd h (updFlow i (fun g => { g with counts :=
      if r.nack then { g.counts with nack := sat32 g.counts.nack }
      else { g.counts with reports := sat32 g.counts.reports, highestLoss := max g.counts.highestLoss r.fractionLost
                           cumulativeLost := r.cumulativeLost } }))) :=
  next_congr (if_neg (by simp [ha, hp]))

/-! Reports at their time (R99, R298). -/

/-- A flow that sends reports, and is on its way, sends one at its time (R298). -/
theorem execSenderReportTimer_due (ha : (s.half h).alive = true) (hg : (s.half h).obj.flow? i = some g)
    (hf : flFlag ((s.half h).record (flowH h i)) 1 = true) (hb : g.path ≠ .standby) (ho : g.path ≠ .stopped) (hr : g.path ≠ .stranded)
    (hd : g.nextReport ≤ (s.half h).clk.now) :
    execSenderReportTimer h i s = .next (emit h (.senderReport (flowH h i) g.ssrc
        ((g.lastSentAt : Int) - (s.half (ptpHome s h)).ptp.utcOffset * 1000000000) (rtpTime (rd ((s.half h).record (flowH h i)) 68 4) g.lastSentAt)
        (cname (s.half h).boot.fuses.serial.toNat) (flDest ((s.half h).record (flowH h i)))
        (if rd ((s.half h).record (flowH h i)) 80 2 = 0 then rd ((s.half h).record (flowH h i)) 52 2 + 1
          else rd ((s.half h).record (flowH h i)) 80 2))
      (({ s with free := s.free + 1 } : State).upd h (updFlow i (fun f => { f with
        nextReport := (s.half h).clk.now + reportInterval s.free })))) := by
  refine next_congr ?_
  simp only [hg, ha, hf, beq_eq_false_iff_ne.2 hb, beq_eq_false_iff_ne.2 ho, beq_eq_false_iff_ne.2 hr, Nat.not_lt.2 hd, decide_false, Bool.not_true,
    Bool.or_self, Bool.false_eq_true, if_false, beq_iff_eq]

/-- An INPUT that sends reports sends one at its time (R99). -/
theorem execReceiverReportTimer_due {n : InputSt} (ha : (s.half h).alive = true) (hn : (s.half h).obj.input? i = some n)
    (hf : (rd ((s.half h).record (inputH h i)) 74 2).testBit 1 = true) (hd : n.nextReport ≤ (s.half h).clk.now) :
    execReceiverReportTimer h i s = .next (emit h (.receiverReport (inputH h i))
      (({ s with free := s.free + 1 } : State).upd h (updInput i (fun n => { n with
        nextReport := (s.half h).clk.now + reportInterval s.free, counts := { n.counts with reports := sat32 n.counts.reports } })))) := by
  refine next_congr ?_
  simp only [hn, ha, hf, Nat.not_lt.2 hd, decide_false, Bool.not_true, Bool.or_self, Bool.false_eq_true, if_false]

end

/-- Settles O34: each event's guards hold, and whether a full intra request was the sender's last one chooses between the last two clauses on
feedback. -/
theorem rtcpEvents : Obligations.RtcpEvents := by
  rintro h s _ rfl ha
  refine ⟨fun i ntp rtp => execRtcpSenderReportReceived_alive ha ntp rtp, fun i g v hg hp hv => ?feedback,
    fun i r hp => execRtcpReceiverReportReceived_passed ha hp r, fun i f hg hf hb ho hr hd => execSenderReportTimer_due ha hg hf hb ho hr hd,
    fun i n hn hf hd => execReceiverReportTimer_due ha hn hf hd⟩
  case feedback =>
    refine ⟨fun f hs hn => execRtcpFeedbackReceived_pli ⟨ha, hg, hp, hs, hv⟩ hn, fun f hs hn hnew => ?_, fun f hs hn hseen => ?_⟩
    · exact (execRtcpFeedbackReceived_fir ⟨ha, hg, hp, hs, hv⟩ hn).trans (next_congr (if_neg fun hm => hnew _ hm rfl))
    · exact (execRtcpFeedbackReceived_fir ⟨ha, hg, hp, hs, hv⟩ hn).trans (next_congr (if_pos hseen))

end Sys2Proof.Machine
end

section
/-!
PROOFS. Ticks and composition bands (R153, R176).
-/
namespace Sys2Proof.Machine

/-- Tick `k` is at or after a time exactly when its whole periods cover the distance from the anchor (R153). -/
theorem le_tickTime_iff {den : Nat} (hden : 0 < den) (anchor num t k : Nat) : t ≤ tickTime anchor num den k ↔ (t - anchor) * den ≤ num * k := by
  rw [tickTime, Nat.mul_comm num k, ← Nat.le_div_iff_mul_le hden, tsub_le_iff_left]

/-- A time up to the anchor needs no case of its own: its distance from the anchor is zero. -/
theorem firstTickFrom_eq (anchor num den t : Nat) : firstTickFrom anchor num den t = ((t - anchor) * den) ⌈/⌉ num := by
  unfold firstTickFrom
  split
  · next ht => rw [Nat.sub_eq_zero_of_le ht, Nat.zero_mul, zero_ceilDiv]
  · rfl

/-- Settles O54: the rounded-up quotient solves `(t - anchor) * den ≤ num * k` for `k`. -/
theorem firstTickIsLeast : Obligations.FirstTickIsLeast := by
  intro anchor num den t k hnum hden
  rw [firstTickFrom_eq, ceilDiv_le_iff_le_mul hnum, le_tickTime_iff hden]

/-! Bands. -/

/-- Bands of the rounded-up height reach every row: the model's `ceilDiv` is Mathlib's `⌈/⌉`. -/
theorem rows_le_bands (r : Record) {n : Nat} (hn : 0 < n) : cvRows r ≤ n * ceilDiv (cvRows r) n := (ceilDiv_le_iff_le_mul hn).1 le_rfl

/-- The pipe in place `b` of the list has the rows from `b * n` up to the next band, `n` being the height of a band (R176). -/
theorem bandRows_getElem {pipes : List Nat} (hp : pipes.Nodup) (r : Record) {b : Nat} (hb : b < pipes.length) :
    bandRows r pipes pipes[b] = (b * ceilDiv (cvRows r) pipes.length, min (cvRows r) ((b + 1) * ceilDiv (cvRows r) pipes.length)) := by
  have hplace : pipes.findIdx? (fun p => p == pipes[b]) = some b := by
    rw [List.findIdx?_eq_some_iff_getElem]
    refine ⟨hb, by simp, fun j hj => ?_⟩
    simpa using fun heq => hj.ne ((hp.getElem_inj_iff).1 heq)
  simp only [bandRows, hplace, Option.getD_some, Nat.max_eq_right (show 1 ≤ pipes.length by omega)]

/-- A row lies in the band in place `b` exactly when `b` is the quotient of the row by the height of a band. -/
theorem mem_bandRows_iff {pipes : List Nat} (hp : pipes.Nodup) {r : Record} {b row : Nat} (hb : b < pipes.length) (hr : row < cvRows r) :
    (bandRows r pipes pipes[b]).1 ≤ row ∧ row < (bandRows r pipes pipes[b]).2 ↔ row / ceilDiv (cvRows r) pipes.length = b := by
  have hn : 0 < ceilDiv (cvRows r) pipes.length := by
    by_contra hz
    have hcover := rows_le_bands r (by omega : 0 < pipes.length)
    rw [Nat.eq_zero_of_not_pos hz] at hcover
    omega
  rw [bandRows_getElem hp r hb, Nat.div_eq_iff hn]
  simp only [lt_min_iff, hr, true_and, Nat.succ_mul]
  omega

/-- Settles O55: a row belongs to the pipe whose place is its quotient by the height of a band, and a band has at most that height. -/
theorem bandsCoverRows : Obligations.BandsCoverRows := by
  intro r pipes hne hp
  have hlen : 0 < pipes.length := List.length_pos_iff.2 hne
  refine ⟨fun row hr => ?_, fun p hmem => ?_⟩
  · have hb : row / ceilDiv (cvRows r) pipes.length < pipes.length :=
      Nat.div_lt_of_lt_mul (by rw [Nat.mul_comm]; exact hr.trans_le (rows_le_bands r hlen))
    refine ⟨_, List.getElem_mem hb, (mem_bandRows_iff hp hb hr).2 rfl, fun q hq hlo hhi => ?_⟩
    obtain ⟨c, hc, rfl⟩ := List.getElem_of_mem hq
    simp only [(mem_bandRows_iff hp hc hr).1 ⟨hlo, hhi⟩]
  · obtain ⟨b, hb, rfl⟩ := List.getElem_of_mem hmem
    rw [bandRows_getElem hp r hb]
    exact (min_le_right _ _).trans (by rw [Nat.succ_mul])

end Sys2Proof.Machine
end

section
/-!
PROOFS. Surface updates and cues (R159, R160, R185 to R188).
-/
namespace Sys2Proof.Machine

section
variable {h : HalfId} {e : CmdEntry} {s : State}

/-- An update of an unreplicated surface that SURFACE_UPDATE takes: its rectangles lie in the surface, and its buffer is free or waits already for
the same time (R159). `x` is the half without the entry. -/
structure Updates (h : HalfId) (e : CmdEntry) (s : State) (x : Half) (r : Record) (v : SurfaceSt) : Prop where
  taken : Taken h surfaceUpdateSpec e none s
  half : x = (takeEntry h s).half h
  record : r = x.record e.handle
  surface : x.obj.surface? (hIndex e.handle) = some v
  rects : fld e 25 1 ≤ 4
  zeros : checkReserved e [(16, 10), (28, 32)] = none
  running : checkRunning x e.handle = none
  buffer : fld e 24 1 < rd r 17 1
  inside : (updateRects e).all (rectInside (rd r 18 2) (rd r 20 2)) = true
  free : v.busy.any (fun q => q.1 == fld e 24 1) = true → v.waiting.any (sameUpdate (fld e 24 1) (fld e 16 8)) = true
  single : (rd r 45 1).testBit 1 = false

/-- The update waits for its applied time, on its own or united with the one it matches (R159, R160). -/
theorem execSurfaceUpdate_waits {x : Half} {r : Record} {v : SurfaceSt} (hu : Updates h e s x r v) {a : Nat}
    (ha : a = updateTime (some v) (fld e 24 1) (fld e 16 8) x.clk.now) :
    execSurfaceUpdate h e s = .next (complete h 0x0430 e stOk false 0 (le 8 a) ((takeEntry h s).upd h (updSurface (hIndex e.handle)
      (joinUpdate { buffer := fld e 24 1, effective := fld e 16 8, applied := a, rects := updateRects e, allChanged := fld e 25 1 == 0 })))) := by
  obtain ⟨ht, rfl, rfl, hv, hc, hz, hr, hb, hi, hf, hs⟩ := hu
  have hin : (updateRects e).any (fun t => !rectInside (rd (((takeEntry h s).half h).record e.handle) 18 2)
      (rd (((takeEntry h s).half h).record e.handle) 20 2) t) = false := by simpa using hi
  have hbusy : (v.busy.any (fun q => q.1 == fld e 24 1) && !v.waiting.any (sameUpdate (fld e 24 1) (fld e 16 8))) = false := by
    cases hbz : v.busy.any (fun q => q.1 == fld e 24 1) with
    | false => rfl
    | true => rw [hf hbz]; rfl
  refine next_congr ((runCmd_taken ht _).trans ?_)
  dsimp only
  rw [guarded_passes (by simp [hc, hz, hr, hb, hin, hv, hbusy, hs])]
  simp only [hs, hv, Bool.false_eq_true, if_false, State.now, ← ha]
  rfl

/-- A cue payload names a group and a scene, and its time is at least a millisecond ahead on a half that has an envelope (R185). -/
structure CueTimed (h : HalfId) (e : CmdEntry) (s : State) : Prop where
  group : fld e 24 4 ≠ 0
  scene : fld e 28 1 ≤ 7
  zeros : checkReserved e cueFields = none
  running : ((takeEntry h s).half h).running ≠ []
  ahead : ((takeEntry h s).half h).clk.now + 1000000 ≤ fld e 16 8

/-- CUE_ARM with room for the cue arms it on every canvas of its group, and passes it to the other half (R185, R186). -/
theorem execCueArm_arms (ht : Taken h cueArmSpec e none s) (hc : CueTimed h e s)
    (hl : (armedCues ((takeEntry h s).half h) (fld e 24 4)).length < 4) {q : Cue}
    (hq : q = { group := BitVec.ofNat 32 (fld e 24 4), sequence := BitVec.ofNat 32 (fld e 32 4), switchTime := fld e 16 8, scene := fld e 28 1
                partnerArmed := (takeEntry h s).sparWorks }) :
    execCueArm h e s = .next (complete h 0x0431 e stOk false 0 (le 1 (b2n (!(takeEntry h s).sparWorks)))
      (if (takeEntry h s).sparWorks
        then emit h (.forward (.cueArm q.group q.sequence (fld e 16 8) (fld e 28 1))) ((takeEntry h s).upd h (cueArmHalf h q))
        else (takeEntry h s).upd h (cueArmHalf h q))) := by
  obtain ⟨hg, hs, hz, hr, ha⟩ := hc
  have hspar : ((takeEntry h s).upd h (cueArmHalf h q)).sparWorks = (takeEntry h s).sparWorks := sparWorks_upd _ _ _ fun _ => rfl
  refine next_congr ((runCmd_taken ht _).trans ?_)
  dsimp only
  rw [guarded_passes (by simp [hg, hs, hz, hr, hl, ha])]
  simp only [← hq, hspar]
  subst hq
  rfl

/-- CUE_CANCEL withdraws the cue in both halves (R188). -/
theorem execCueCancel_withdraws (ht : Taken h cueCancelSpec e none s) (hc : CueTimed h e s) {v : State}
    (hv : v = (takeEntry h s).upd h (cueCancelHalf (BitVec.ofNat 32 (fld e 24 4)) (fld e 16 8))) :
    execCueCancel h e s = .next (complete h 0x0432 e stOk false 0 []
      (if (takeEntry h s).sparWorks then emit h (.forward (.cueCancel (BitVec.ofNat 32 (fld e 24 4)) (fld e 16 8))) v else v)) := by
  obtain ⟨hg, hs, hz, hr, ha⟩ := hc
  have hspar : v.sparWorks = (takeEntry h s).sparWorks := by rw [hv]; exact sparWorks_upd _ _ _ fun _ => rfl
  refine next_congr ((runCmd_taken ht _).trans ?_)
  dsimp only
  rw [guarded_passes (by simp [hg, hs, hz, hr, ha])]
  simp only [← hv, hspar]
  rfl

end

/-- Settles O8: a taken command passes its checks, and its body is the lemma above on it. -/
theorem sceneCommands : Obligations.SceneCommands := by
  rintro h e s _ x rfl rfl
  refine ⟨?_, fun ht hg hs hz hr hl ha q hq => execCueArm_arms ht ⟨hg, hs, hz, hr, ha⟩ hl hq,
    fun ht hg hs hz hr ha v hv => execCueCancel_withdraws ht ⟨hg, hs, hz, hr, ha⟩ hv⟩
  rintro r v a hrec hv ha ht hc hz hr hb hi hf hs _ rfl
  exact execSurfaceUpdate_waits ⟨ht, rfl, hrec, hv, hc, hz, hr, hb, hi, hf, hs⟩ ha

end Sys2Proof.Machine
end

section
/-!
PROOFS. Composition: canvas ticks, jobs of the pipes, surface copies (R15, R42, R153, R160, R170, R174, R176 to R178, R182).
-/
namespace Sys2Proof.Machine

section
variable {h : HalfId} {s : State} {i : Nat} {c : CanvasSt} {r : Record}

/-! Ticks (R153, R170, R178). -/

/-- A canvas that no take-over touches, and whose sources need no wait, has come to a tick. `v` is the state with the tick counted. -/
structure CanvasTicks (h : HalfId) (s : State) (i : Nat) (c : CanvasSt) (r : Record) (t : Nat) (v : State) : Prop where
  canvas : (s.half h).obj.canvas? i = some c
  record : r = (s.half h).record (canvasH h i)
  alive : (s.half h).alive = true
  untouched : canvasTouched h (s.half h) i = none
  stays : removedAt (s.half h) (canvasH h i) t = false
  tick : t = cvTick r c.nextTick
  due : t ≤ (s.half h).clk.now
  recorded : r ≠ []
  unguarded : cvGuarded r = false
  counted : v = s.upd h (updCanvas i (fun q => { q with nextTick := c.nextTick + 1 }))

/-- What a canvas does at a tick, by its run state (R153, R170, R178). -/
def canvasAct (h : HalfId) (i : Nat) (c : CanvasSt) (t : Nat) (v : State) : State :=
  match c.run with
  | .running =>
    if c.holdAt.any (fun q => q ≤ t) then v
    else if t < c.resumeAt then repeatPicture h i c.nextTick t v else runTick h i c.nextTick t v
  | .draining => if t < c.drainAt then runTick h i c.nextTick t v else repeatPicture h i c.nextTick t v
  | .stopped => repeatPicture h i c.nextTick t v
  | .halted | .shed => v

/-- The canvas's surfaces forget the updates that all their readers have passed. -/
def canvasTrim (h : HalfId) (i : Nat) (w : State) : State :=
  w.upd h (fun y => ((layersOf h y.running i).filter (fun l => hType (BitVec.ofNat 32 (lySource l)) == 0x0A)).foldl
    (fun y l => surfaceTrim h (lySource l % 0x10000) y) y)

theorem execCanvasTick_due {t : Nat} {v w : State} (hk : CanvasTicks h s i c r t v) (hw : canvasAct h i c t v = w) :
    execCanvasTick h i s = .next (canvasTrim h i w) := by
  obtain ⟨hc, hr, ha, hu, hs, ht, hd, hne, hg, rfl⟩ := hk
  subst hw
  refine next_congr ?_
  simp only [hc, hu, ← hr, Option.bind_none, ← ht, ha, Nat.not_lt.2 hd, hs, hg, List.isEmpty_iff, hne, decide_false, Bool.not_true, Bool.or_self,
    Bool.false_and, Bool.false_eq_true, if_false]
  rfl

theorem canvasAct_running {t : Nat} (v : State) (hr : c.run = .running) (hh : c.holdAt = none) :
    canvasAct h i c t v = if t < c.resumeAt then repeatPicture h i c.nextTick t v else runTick h i c.nextTick t v := by
  simp only [canvasAct, hr, hh, Option.any_none, Bool.false_eq_true, if_false]

theorem canvasAct_draining {t : Nat} (v : State) (hr : c.run = .draining) :
    canvasAct h i c t v = if t < c.drainAt then runTick h i c.nextTick t v else repeatPicture h i c.nextTick t v := by
  simp only [canvasAct, hr]

theorem canvasAct_stopped {t : Nat} (v : State) (hr : c.run = .stopped) : canvasAct h i c t v = repeatPicture h i c.nextTick t v := by
  simp only [canvasAct, hr]

/-! Jobs (R174, R176, R177). -/

variable {pipe : Nat} {g : EngineSt}

/-- The pipe is powered and in service, and nothing stops it. -/
structure PipeServes (h : HalfId) (s : State) (pipe : Nat) (g : EngineSt) : Prop where
  unit : (s.half h).cmp[pipe]? = some g
  alive : (s.half h).alive = true
  powered : islandOn (s.half h) (18 + pipe) = true
  runs : g.halted = false
  stays : g.toRetire = 0
  inService : g.flags.inService = true

/-- A free pipe takes the job that it chooses, urgent ones first (R177). -/
theorem execCompositionJobStart_free {k : Nat} {resumed : Bool} (hp : PipeServes h s pipe g) (hc : g.current = none)
    (hj : (pipeChoose h (s.half h) pipe true).or (pipeChoose h (s.half h) pipe false) = some (k, resumed)) :
    execCompositionJobStart h pipe s = .next (s.upd h (pipeTake pipe k resumed)) := by
  obtain ⟨hg, ha, ho, hh, hr, hs⟩ := hp
  refine next_congr ?_
  simp only [List.getD_eq_getElem?_getD, hg, Option.getD_some, ha, ho, hh, hr, hs, hc, hj, bne_self_eq_false, Bool.not_true, Bool.or_self,
    Bool.false_eq_true, if_false]

/-- An urgent job displaces the TIMED one that the pipe works on (R177). -/
theorem execCompositionJobStart_displaces {k : Nat} {resumed : Bool} (hp : PipeServes h s pipe g) (hc : g.current = some i)
    (hu : cvUrgent ((s.half h).record (canvasH h i)) = false) (hj : pipeChoose h (s.half h) pipe true = some (k, resumed)) :
    execCompositionJobStart h pipe s = .next (s.upd h (fun y => count (18 + pipe) 0x14 1 (pipeTake pipe k resumed
      { y with cmp := y.cmp.modify pipe (fun g => { g with suspended := g.suspended ++ [i] }) }))) := by
  obtain ⟨hg, ha, ho, hh, hr, hs⟩ := hp
  refine next_congr ?_
  simp only [List.getD_eq_getElem?_getD, hg, Option.getD_some, ha, ho, hh, hr, hs, hc, hu, hj, bne_self_eq_false, Bool.not_true, Bool.or_self,
    Bool.false_eq_true, if_false]

/-- The pipe works on its band of a job of the canvas, and nothing stops it. -/
structure BandInWork (h : HalfId) (s : State) (i : Nat) (c : CanvasSt) (pipe : Nat) (j : Job) : Prop where
  canvas : (s.half h).obj.canvas? i = some c
  index : c.index = i
  runs : ∃ g, (s.half h).cmp[pipe]? = some g ∧ g.halted = false ∧ g.seq.halt = false ∧ g.current = some i
  job : c.jobs.find? (fun j => j.bandsLeft.contains pipe) = some j

/-- The finished band adds its changed blocks to the job, which finishes with its last band (R174, R176). -/
theorem execCompositionJobComplete_band {j k : Job} {blocks tiles found : List Nat} {band : Nat × Nat} {v : State}
    (hw : BandInWork h s i c pipe j) (hr : r = (s.half h).record (canvasH h i)) (hb : band = bandRows r j.pipes pipe)
    (ht : tiles = j.tiles.filter (fun n => band.1 ≤ n / cvCols r && n / cvCols r < band.2)) (hf : found = bandBlocks r j band.1 band.2 blocks)
    (hk : k = { j with bandsLeft := j.bandsLeft.filter (fun b => b != pipe), changed := unionNew j.changed found })
    (hv : v = s.upd h (fun y => updCanvas i (fun q => { q with jobs := mapWhere (fun m => m.tick == j.tick) (fun _ => k) q.jobs })
      (count (18 + pipe) 0x12 ((band.2 - band.1) * cvCols r - tiles.length) (count (18 + pipe) 0x15 found.length
        (count (18 + pipe) 0x10 1 (count (18 + pipe) 0x11 tiles.length
          { y with cmp := y.cmp.modify pipe (fun g => { g with current := none, seq := { g.seq with suspend := false } }) })))))) :
    execCompositionJobComplete h pipe blocks s =
      .next (if j.bandsLeft.filter (fun b => b != pipe) = [] then finishJob h i k v else v) := by
  obtain ⟨hc, rfl, ⟨g, hg, hh, hs, hcur⟩, hj⟩ := hw
  refine next_congr ?_
  simp only [List.getD_eq_getElem?_getD, hg, Option.getD_some, hh, hs, hcur, Option.bind_some, hc, hj, ← hr, ← hb, ← ht, ← hf, ← hk, ← hv,
    Bool.or_self, Bool.false_eq_true, if_false, List.isEmpty_iff]

end

/-! Surface copies (R15, R42, R160, R182). -/

section
variable {h : HalfId} {s : State} {i : Nat} {v : SurfaceSt}

/-- While the completion queue is full the update goes on waiting (R42). -/
theorem execSurfaceCopyDone_full (hf : cplqFull (s.half h) = true) : execSurfaceCopyDone h i s = .next s := by
  refine next_congr ?_
  cases hv : (s.half h).obj.surface? i <;> simp only [hf, if_true]

/-- The copy is written in the other half, both halves take the one applied time, and the command completes (R15, R160, R182). -/
theorem execSurfaceCopyDone_completes {partner : Nat} {w done : SurfUpdate} {e : CmdEntry} (hv : (s.half h).obj.surface? i = some v)
    (hw : v.waiting.find? (fun q => q.copying.isSome) = some w) (he : w.copying = some e)
    (hp : partner = rd ((s.half h).record (surfaceH h i)) 48 4 % 0x10000)
    (hd : done = { w with applied := updateTime (some v) w.buffer w.effective (s.half h).clk.now, copying := none })
    (hf : cplqFull (s.half h) = false) :
    execSurfaceCopyDone h i s = .next (complete h 0x0430 e stOk false 0 (le 8 done.applied)
      (((surfaceCopy h i partner w s).upd h (updSurface i (fun q =>
        joinUpdate done { q with waiting := q.waiting.filter (fun m => m != w) }))).upd h.other (updSurface partner (joinUpdate done)))) := by
  subst hp hd
  refine next_congr ?_
  simp only [hv, hf, hw, he, Bool.false_eq_true, if_false]
  rfl

end

/-- Settles O28: under a clause's hypotheses the event is due, and what it does is the lemma above on it. -/
theorem compositionEvents : Obligations.CompositionEvents := by
  constructor
  · rintro h s _ i c r rfl hc hr
    refine ⟨fun t v trim ha hu hs ht hd hne hg hv htrim => ?ticks, fun pipe g k resumed hp ha ho hh hret hs => ?starts,
      fun pipe g j blocks band tiles found k v hp hh hs hcur hi hj hb ht hf hk hv =>
        execCompositionJobComplete_band ⟨hc, hi, ⟨g, hp, hh, hs, hcur⟩, hj⟩ hr hb ht hf hk hv⟩
    case ticks =>
      have hk : CanvasTicks h s i c r t v := ⟨hc, hr, ha, hu, hs, ht, hd, hne, hg, hv⟩
      obtain rfl : trim = canvasTrim h i := htrim
      refine ⟨fun hrun hh hres => execCanvasTick_due hk ?_, fun hrun hh hres => execCanvasTick_due hk ?_,
        fun hrun hdr => execCanvasTick_due hk ?_, fun hrun hdr => execCanvasTick_due hk ?_,
        fun hrun => execCanvasTick_due hk (canvasAct_stopped v hrun)⟩
      · rw [canvasAct_running v hrun hh, if_neg (Nat.not_lt.2 hres)]
      · rw [canvasAct_running v hrun hh, if_pos hres]
      · rw [canvasAct_draining v hrun, if_pos hdr]
      · rw [canvasAct_draining v hrun, if_neg (Nat.not_lt.2 hdr)]
    case starts =>
      have hserves : PipeServes h s pipe g := ⟨hp, ha, ho, hh, hret, hs⟩
      refine ⟨fun hcur hj => ?_, fun hcur hn hj => ?_, fun hcur hu hj => ?_⟩
      · exact execCompositionJobStart_free hserves hcur (by rw [hj, Option.some_or])
      · exact execCompositionJobStart_free hserves hcur (by rw [hn, hj, Option.none_or])
      · exact execCompositionJobStart_displaces hserves hcur (by rw [← hr]; exact hu) hj
  · intro h s i partner v w done e hv hw he hp hd
    exact ⟨fun hf => execSurfaceCopyDone_full hf, fun hf => execSurfaceCopyDone_completes hv hw he hp hd hf⟩

end Sys2Proof.Machine
end

section
/-!
PROOFS. Timed events: PPS pulse, Delay_Req, lead deadline, surface tick (R160, R249, R288, R291, R454).
-/
namespace Sys2Proof.Machine

section
variable {h : HalfId} {s : State}

/-- The pulse of a second that has begun since the last one goes out (R291). -/
theorem execPpsOutputPulse_due {second : Nat} (hs : second = (s.half h).clk.now / 1000000000) (hr : (s.half h).boot.inReset = false)
    (hf : (ptpFlags s h).testBit 3 = true) (hl : (s.half h).ptp.lastPps < second) :
    execPpsOutputPulse h s = .next (emit h (.ppsPulse (second * 1000000000)) (s.upd h (fun y =>
      { updPtp (fun p => { p with lastPps := second }) y with pwr := { y.pwr with ppsUntil := second * 1000000000 + 100000 } }))) := by
  refine next_congr ?_
  simp only [← hs, hr, hf, Nat.not_le.2 hl, decide_false, Bool.not_true, Bool.or_self, Bool.false_eq_true, if_false]

/-- The slave port asks for the path delay once the interval since its last request is over (R288). -/
theorem execDelayRequestInterval_due {n : Nat} {home : HalfId} (hh : home = ptpHome s h) (hp : portHears h s n = true)
    (ha : (s.half home).alive = true) (hs : (s.half home).ptp.slavePort = some (portH h n))
    (hd : ∀ t, (s.half home).ptp.lastDelayReq = some t → t + logInterval (ptpField s home 24 1 0) ≤ (s.half h).clk.now) :
    execDelayRequestInterval h n s = .next (emit h (.ptpDelayReq (portH h n) (s.half h).clk.now) (s.upd home (updPtp (fun q => { q with
      t3 := some (((s.half h).clk.now : Int) + signed 16 (rd (portRec h (s.half h) n) 72 2)).toNat
      lastDelayReq := some (s.half h).clk.now })))) := by
  have hdue : ((s.half home).ptp.lastDelayReq.all fun t => decide (t + logInterval (ptpField s home 24 1 0) ≤ s.now h)) = true := by
    cases hl : (s.half home).ptp.lastDelayReq with
    | none => rfl
    | some t => rw [Option.all_some]; exact decide_eq_true (hd t hl)
  refine next_congr ?_
  simp only [← hh, hp, ha, hs, hdue, bne_self_eq_false, Bool.not_true, Bool.or_self, Bool.false_eq_true, if_false]
  rfl

/-- A lead decision whose deadline has come is late, and its default applies (R454). -/
theorem execLeadDecisionDeadline_due (hd : (s.half h).bri.deadline ≠ 0) (ht : (s.half h).bri.deadline ≤ s.now h) :
    execLeadDecisionDeadline h s = .next (leadDefault h (assistLate h 0x0B09 0 0 0 (s.half h).bri.deadline 1 s)) :=
  next_congr (if_neg (by simpa [hd] using ht))

/-! The tick of a surface-fed stream (R160, R249). -/

/-- Without a pending envelope no take-over touches an object. -/
theorem pendTouches_noPend {x : Half} (hp : x.env.pend = none) (obj : Handle) : pendTouches x obj = none := by
  simp only [pendTouches, hp]

theorem removedAt_noPend {x : Half} (hp : x.env.pend = none) (obj : Handle) (t : Nat) : removedAt x obj t = false := by
  simp only [removedAt, pendTouches_noPend hp]

/-- A stream that reads a surface has come to a tick, no take-over is pending, and the host does not serve its stencil. `v` is the state once the
surface's updates up to the tick are published. -/
structure SurfaceTicks (h : HalfId) (s : State) (i : Nat) (e : EncodeSt) (r : Record) (t src : Nat) (v : State) : Prop where
  alive : (s.half h).alive = true
  stream : (s.half h).obj.encode? i = some e
  noPend : (s.half h).env.pend = none
  record : r = (s.half h).record (encodeH h i)
  tick : t = esTick (s.half h).running r e.nextTick
  due : t ≤ (s.half h).clk.now
  fromSurface : hType (esSource r) = 0x0A
  source : src = hIndex (esSource r)
  published : v = surfaceApply h t src s
  ownStencil : modeHost (v.half h) fnStencil (encodeH h i) = false
  ownSource : modeHost (v.half h) fnStencil (esSource r) = false

/-- The picture of the tick is ready, with the blocks that the updates since the tick before have touched. -/
theorem execEncodeSurfaceTick_due {i : Nat} {e : EncodeSt} {r : Record} {t src : Nat} {v : State} (hk : SurfaceTicks h s i e r t src v)
    {before : Nat} {ups : List SurfUpdate} {sz : Nat × Nat} {own : List Nat}
    (hb : before = if e.nextTick = e.firstTick then 0 else esTick (v.half h).running r (e.nextTick - esDivisor r))
    (hu : ups = (((v.half h).obj.surface? src).elim [] (fun q => q.applied)).filter (fun u => before < u.applied && u.applied ≤ t))
    (hz : sz = sourceSize (v.half h).running (esSource r))
    (ho : own = (ups.flatMap (fun u => u.rects.flatMap (unitsOf 8 (sz.1 / 8)))).foldl (fun acc b => addNew b acc) []) :
    execEncodeSurfaceTick h i s = .next (v.upd h (fun y => surfaceTrim h src (updEncode i (fun q =>
      if q.run = .running ∨ (q.run = .draining ∧ t < q.drainAt) then { q with
        ready := q.ready ++ [{ tickTime := t, buffer := ((v.half h).obj.surface? src).elim 0 (fun m => m.current)
                               blocks := scaleBlocks sz.1 sz.2 (esWidth r) (esHeight r) own, k := pictureAt q (esDivisor r) q.nextTick
                               allChanged := ups.any (fun u => u.allChanged) || q.pendingAll }]
        pendingAll := false, nextTick := q.nextTick + esDivisor r }
      else { q with nextTick := q.nextTick + esDivisor r }) y))) := by
  obtain ⟨ha, he, hp, rfl, ht, hd, hsf, rfl, hv, hms, hmo⟩ := hk
  refine next_congr ?_
  simp only [he, pendTouches_noPend hp, removedAt_noPend hp, Option.bind_none, Option.getD_none, ← ht, ha, Nat.not_lt.2 hd, hsf, bne_self_eq_false,
    decide_false, Bool.not_true, Bool.or_self, Bool.false_eq_true, if_false, ← hv, hms, hmo, Bool.false_and]
  subst hb hu hz ho
  have hcomes : ∀ q : EncodeSt, (!(q.run == .running || (q.run == .draining && decide (t < q.drainAt)))) = true ↔
      ¬ (q.run = .running ∨ (q.run = .draining ∧ t < q.drainAt)) := fun q => by
    simp only [Bool.not_eq_true', Bool.eq_false_iff, ne_eq, Bool.or_eq_true, Bool.and_eq_true, beq_iff_eq, decide_eq_true_eq]
  simp only [hcomes, ite_not, beq_iff_eq]
  cases (v.half h).obj.surface? (hIndex (esSource ((s.half h).record (encodeH h i)))) <;> rfl

end

/-- Settles O47: each event is due under its clause's hypotheses. -/
theorem timedEvents : Obligations.TimedEvents := by
  rintro h s _ rfl
  refine ⟨fun second hs hr hf hl => execPpsOutputPulse_due hs hr hf hl, fun n home hh hp ha hs hd => execDelayRequestInterval_due hh hp ha hs hd,
    fun hd ht => execLeadDecisionDeadline_due hd ht, ?_⟩
  intro i e r t v src before ups sz own ha he hp hr ht hd hsf hsrc _ hv hb hms hmo hu hz ho
  exact execEncodeSurfaceTick_due ⟨ha, he, hp, hr, ht, hd, hsf, hsrc, hv, hms, hmo⟩ hb hu hz ho

end Sys2Proof.Machine
end

section
/-!
PROOFS. The end of an encode picture (R212, R218, R223, R230, R240, R255, R260, R274): what it leaves of the engines and the streams, and the
event itself.
-/
namespace Sys2Proof.Machine

/-- What codes in a half: its encode engines and its encode streams. -/
def Half.coding (x : Half) : List EngineSt × List EncodeSt := (x.enc, x.obj.encodes)

theorem coding_eq_iff {x y : Half} : y.coding = x.coding ↔ y.enc = x.enc ∧ y.obj.encodes = x.obj.encodes := Prod.mk_inj

theorem encode?_of_coding {x y : Half} (hc : y.coding = x.coding) (i : Nat) : y.obj.encode? i = x.obj.encode? i :=
  congrArg (List.find? _) (coding_eq_iff.1 hc).2

theorem foldl_coding {α : Type} {g : Half → α → Half} (l : List α) (x : Half) (hg : ∀ x a, (g x a).coding = x.coding) :
    (l.foldl g x).coding = x.coding := by
  induction l generalizing x with
  | nil => rfl
  | cons a l ih => exact (ih _).trans (hg _ _)

@[simp] theorem count_coding (blk code n : Nat) (x : Half) : (count blk code n x).coding = x.coding := by
  simp [coding_eq_iff]

theorem fillEnd_coding (block : Nat) (x : Half) : (fillEnd block x).coding = x.coding := by
  unfold fillEnd
  split <;> rfl

/-- A write to device memory leaves the engines and the streams. -/
theorem devWrite_coding (a : Nat) (bytes : List Byte) (x : Half) : (devWrite a bytes x).coding = x.coding :=
  calc (devWrite a bytes x).coding
    _ = (fillsEnd a bytes.length x).coding := rfl
    _ = (picsEnd a bytes.length x).coding := foldl_coding _ _ fun x b => fillEnd_coding b x
    _ = x.coding := foldl_coding _ _ fun _ _ => rfl

theorem countEncoded_coding (engine : Nat) (p : EncPlan) (x : Half) : (countEncoded engine p x).coding = x.coding := by
  simp only [countEncoded, count_coding]
  refine (foldl_coding _ _ fun x q => count_coding _ _ _ x).trans ?_
  simp only [count_coding]
  exact foldl_coding _ _ fun x d => count_coding _ _ _ x

/-- The producers of the freed engines stop in the fabric, which leaves the engines to be freed and the streams. -/
theorem producersStop_coding (ks : List Nat) (x : Half) : (ks.foldl (fun x k => producerStops k x) x).coding = x.coding :=
  foldl_coding _ _ fun _ _ => rfl

theorem enginesFree_encode? (i j : Nat) (x : Half) : (enginesFree i x).obj.encode? j = x.obj.encode? j :=
  encode?_of_coding (producersStop_coding _ x) j

/-- No engine codes a stream whose engines are free (R213). -/
theorem enginesFree_current {i : Nat} {x : Half} {g : EngineSt} (hg : g ∈ (enginesFree i x).enc) : g.current ≠ some i := by
  obtain ⟨q, -, rfl⟩ := List.mem_map.1 hg
  split
  · exact Option.some_ne_none i |>.symm
  · next hq => simpa using hq

/-- An update that keeps the index of a stream is what the stream then reads as. -/
theorem encode?_updEncode {f : EncodeSt → EncodeSt} (hf : ∀ a, (f a).index = a.index) (i : Nat) (x : Half) :
    (updEncode i f x).obj.encode? i = (x.obj.encode? i).map f := by
  have hsame : ((fun a : EncodeSt => a.index == i) ∘ fun a => if a.index == i then f a else a) = fun a => a.index == i :=
    funext fun a => by simp only [Function.comp_apply]; split <;> simp only [hf]
  unfold Objects.encode? updEncode mapWhere
  rw [List.find?_map, hsame]
  cases hx : x.obj.encodes.find? (fun a => a.index == i) with
  | none => rfl
  | some a => exact congrArg some (if_pos (List.find?_some hx))

/-- Of the engines and the streams, a finished picture changes those that it frees and the stream that it moves on. -/
theorem encodeDone_coding (h : HalfId) (engine : Nat) (e : EncodeSt) (p : EncPlan) (after : RateSt × Nat) (left : Int) (late : Bool) (x : Half) :
    (encodeDone h engine e p after left late x).coding =
      (updEncode e.index (encodeNext (x.record (encodeH h e.index)) after p late) (enginesFree e.index x)).coding := by
  unfold encodeDone
  extract_lets i obj r now k x1 x2 x3 x4 x5
  have hreleased : x2.coding = x1.coding := by unfold x2; split <;> rfl
  have hwritten : x3.coding = x2.coding := by
    unfold x3
    split
    · exact devWrite_coding _ _ _
    · rfl
  have hcredit : x4.coding = x3.coding := by unfold x4; split <;> rfl
  have haged : x5.coding = x4.coding := by unfold x5; split <;> rfl
  calc (countEncoded engine p x5).coding
    _ = x5.coding := countEncoded_coding engine p x5
    _ = x1.coding := haged.trans (hcredit.trans (hwritten.trans hreleased))

section
variable {h : HalfId} {engine : Nat} {e : EncodeSt} {p : EncPlan} {after : RateSt × Nat} {left : Int} {late : Bool} {x : Half}

theorem encodeDone_current {g : EngineSt} (hg : g ∈ (encodeDone h engine e p after left late x).enc) : g.current ≠ some e.index := by
  rw [(coding_eq_iff.1 (encodeDone_coding h engine e p after left late x)).1] at hg
  exact enginesFree_current hg

theorem encodeDone_encode? (he : x.obj.encode? e.index = some e) :
    (encodeDone h engine e p after left late x).obj.encode? e.index = some (encodeNext (x.record (encodeH h e.index)) after p late e) := by
  rw [encode?_of_coding (encodeDone_coding h engine e p after left late x), encode?_updEncode (f := encodeNext _ after p late) (fun _ => rfl),
    enginesFree_encode?, he, Option.map_some]

end

/-- After the half's own move a late and a truncated picture are reported, then the stalls of a gang, and the next picture's rate is offered
(R210, R223, R230, R274). -/
def pictureReports (h : HalfId) (e : EncodeSt) (p : EncPlan) (late : Bool) (now : Nat) (v : State) : State :=
  rateOffer h e.index p (gangStalls h e.index p
    ((if p.truncN = 0 then (fun v => v) else event h 0x042B sevWarning (encodeH h e.index) (le 4 e.k ++ le 8 p.tickTime ++ le 4 p.truncAt ++
        le 4 p.truncN ++ le 4 (if p.picType = 0 then 2 else 1) ++ le 4 (unsigned 32 e.rate.fullness) ++ le 4 p.bits))
      ((if late then event h 0x0421 sevWarning (encodeH h e.index) (le 4 e.k ++ le 8 p.tickTime ++ le 8 now ++ le 4 (b2n (p.flags.testBit 2)))
          else (fun v => v)) v)))

/-- The CRC of a guarded picture goes to the partner half and is compared with the partner's, where that is there (R228). -/
def pictureCrc (h : HalfId) (e : EncodeSt) (p : EncPlan) (t : State) : State :=
  (e.partnerCrcs.find? (fun q => q.1 == BitVec.ofNat 32 e.k)).elim id
    (fun q => twinCompare h e.index (BitVec.ofNat 32 e.k) p.crc q.2) (emit h (.twinCrc (encodeH h e.index) (BitVec.ofNat 32 e.k) p.crc) t)

/-- A picture none of whose engines suspends it or has halted is not held (R220). -/
theorem not_held_of_runs {engines : List EngineSt} {i : Nat}
    (hruns : ∀ g ∈ engines, g.suspended.contains i = false ∧ (g.current = some i → g.halted = false ∧ g.seq.halt = false)) :
    ¬ (engines.any fun g => g.suspended.contains i || (g.current == some i && (g.halted || g.seq.halt))) = true := by
  rw [Bool.not_eq_true, List.any_eq_false]
  intro g hg
  obtain ⟨hsus, hrun⟩ := hruns g hg
  rw [hsus, Bool.false_or, Bool.and_eq_true, beq_iff_eq]
  rintro ⟨hcur, hhalt⟩
  obtain ⟨hh, hs⟩ := hrun hcur
  rw [hh, hs] at hhalt
  exact Bool.false_ne_true hhalt

/-- A picture that its engine codes ends: its half moves on, the reports follow, and a guarded picture's CRC is exchanged while the link works. -/
theorem execEncodePictureComplete_ends {h : HalfId} {s t : State} {engine : Nat} {e : EncodeSt} {p0 p : EncPlan} {r : Record} {left : Int}
    {late : Bool} (hc : ((s.half h).enc.getD engine {}).current = some e.index) (he : (s.half h).obj.encode? e.index = some e)
    (hp0 : e.plan = some p0) (hr : r = (s.half h).record (encodeH h e.index))
    (hruns : ∀ g ∈ (s.half h).enc, g.suspended.contains e.index = false ∧ (g.current = some e.index → g.halted = false ∧ g.seq.halt = false))
    (hp : p = { p0 with filler := (rateAfter (s.half h).running r e p0).2 })
    (hleft : left = if e.rate.mode = 3 then e.rate.fullness else e.rate.fullness - ((p.bits + p.filler : Nat) : Int))
    (hlate : late = (p.flags.testBit 1 ||
      (esDet r && decide (p.tickTime + (esPicPeriod (s.half h).running r).1 / (esPicPeriod (s.half h).running r).2 < s.now h))))
    (ht : t = pictureReports h e p late (s.now h)
      (s.upd h (encodeDone h engine e p (rateAfter (s.half h).running r e p0) left late))) :
    execEncodePictureComplete h engine s = .next (removeIdle h (if esGuarded r && t.sparWorks then pictureCrc h e p t else t)) := by
  have hcodes : ((s.half h).enc.getD engine {}).current.bind (fun i => (s.half h).obj.encode? i) = some e := by rw [hc]; exact he
  refine next_congr ?_
  extract_lets x rs now
  rw [hcodes]
  simp -zeta only [hp0]
  rw [if_neg (not_held_of_runs hruns)]
  -- Each local value of the event is the one that the hypotheses name.
  extract_lets i obj r0 period after q left0 rep late0 moved reported cut stalled offered key sent
  obtain rfl : r = r0 := hr
  obtain rfl : p = q := hp
  obtain rfl : left = left0 := hleft.trans (if_congr beq_iff_eq.symm rfl rfl)
  obtain rfl : late = late0 := hlate
  obtain rfl : t = offered := by
    rw [ht]
    unfold pictureReports offered stalled cut reported
    simp only [ite_apply, bne_iff_ne, ite_not, beq_iff_eq]
    rfl
  unfold pictureCrc
  cases e.partnerCrcs.find? (fun q => q.1 == BitVec.ofNat 32 e.k) <;> rfl

/-- Settles O30: the engine's picture ends as `execEncodePictureComplete_ends` says, and `encodeDone_coding` says what it leaves of the engines
and the streams. -/
theorem encodeComplete : Obligations.EncodeComplete := by
  rintro h s t _ engine i e p0 p r left late rfl hc he rfl hp0 hr hruns hp hleft hlate ht
  have hends := execEncodePictureComplete_ends hc he hp0 hr hruns hp hleft hlate ht
  refine ⟨fun hg => ?_, fun hg hnone => ?_, fun crc hg hcrc => ?_, fun g hg => encodeDone_current hg, fun _ => ?_⟩
  · exact hends.trans (by rw [hg]; rfl)
  · have hfind : e.partnerCrcs.find? (fun q => q.1 == BitVec.ofNat 32 e.k) = none := by simpa using hnone
    exact hends.trans (by rw [hg, if_pos rfl, pictureCrc, hfind]; rfl)
  · exact hends.trans (by rw [hg, if_pos rfl, pictureCrc, hcrc]; rfl)
  · rw [hr]
    exact encodeDone_encode? he

end Sys2Proof.Machine
end

section
/-!
PROOFS. Ports: PORT_RESET and FLOW_MOVE (R282, R591), and the link of a port (R280 to R283).
-/
namespace Sys2Proof.Machine

/-! Port commands. -/

section
variable {h : HalfId} {e : CmdEntry} {s : State}

/-- PORT_RESET restarts a port that is in service. -/
theorem execPortReset_restarts (ht : Taken h portResetSpec e none s) (hc : checkRunning ((takeEntry h s).half h) e.handle = none)
    (hr : (((takeEntry h s).half h).net.getD (hIndex e.handle) {}).flags.retired = false) :
    execPortReset h e s = .next (complete h 0x0501 e stOk false 0 [] (restartPort h (hIndex e.handle) 5 (takeEntry h s))) := by
  refine next_congr ((runCmd_taken ht _).trans ?_)
  rw [guarded_passes (by simp only [firstFail_cons_none, firstFail_nil, failIf_none, hc, hr, and_self])]
  rfl

/-- FLOW_MOVE finds a flow that does not drain and a port that carries packets, reached over the link where it is the partner's. -/
structure MayMove (h : HalfId) (e : CmdEntry) (s : State) (f : FlowSt) (dst : Handle) : Prop where
  taken : Taken h flowMoveSpec e none s
  side : fld e 16 1 ≤ 1
  zeros : checkReserved e [(16, 1)] = none
  runs : checkRunning ((takeEntry h s).half h) e.handle = none
  port : dst = if fld e 16 1 = 0 then flPort (((takeEntry h s).half h).record e.handle) else flSecondary (((takeEntry h s).half h).record e.handle)
  flow : flowAt h ((takeEntry h s).half h) e.handle = some f
  stays : f.run ≠ .draining
  up : portUp (takeEntry h s) dst = true
  reached : hHalf dst = h ∨ (takeEntry h s).sparWorks = true

/-- The move is noted, and a flow with no picture in hand moves at once. -/
theorem execFlowMove_notes {f : FlowSt} {dst : Handle} {v : State} (hm : MayMove h e s f dst)
    (hv : v = (takeEntry h s).upd h (updFlowAt h e.handle (fun f => { f with moveAt := some (fld e 16 1) }))) :
    execFlowMove h e s = .next (complete h 0x0510 e stOk false 0 []
      (if f.pictureOpen = true ∨ f.queue ≠ [] then v else moveNow h e.handle v)) := by
  obtain ⟨ht, hw, hz, hc, hport, hf, hrun, hup, hreach⟩ := hm
  subst hv
  have hfar : (hHalf dst != h && !(takeEntry h s).sparWorks) = false := by
    rcases hreach with hreach | hreach <;> simp [hreach]
  have hbusy : (f.pictureOpen || !f.queue.isEmpty) = true ↔ f.pictureOpen = true ∨ f.queue ≠ [] := by simp
  refine next_congr ((runCmd_taken ht _).trans ?_)
  simp only [hf, Option.getD_some, beq_iff_eq, ← hport, hbusy]
  rw [guarded_passes (by simp [hc, hz, hup, hfar, hrun, hw])]
  rfl

end

/-- Settles O9: a taken command passes its checks, and its body is the lemma above on it. -/
theorem portCommands : Obligations.PortCommands := by
  rintro h e s _ _ rfl rfl hc
  refine ⟨fun ht hr => execPortReset_restarts ht hc hr, ?_⟩
  rintro r dst f v rfl hdst hf ht hw hz hrun hup hreach hv
  exact execFlowMove_notes ⟨ht, hw, hz, hc, hdst, hf, hrun, hup, hreach⟩ hv

/-! The link of a port. -/

section
variable {x : Half} {n : Nat} {p : PortSt}

theorem getD_net (hp : x.net[n]? = some p) : x.net.getD n {} = p := by
  rw [List.getD_eq_getElem?_getD, hp, Option.getD_some]

theorem getElem?_net_updPort (hp : x.net[n]? = some p) (f : PortSt → PortSt) : (updPort n f x).net[n]? = some (f p) := by
  rw [updPort, List.getElem?_modify_eq, hp]
  rfl

variable {h : HalfId} {s : State}

/-- A signal lets a port that is down adapt (R280). -/
theorem execLinkSignalDetected_enabled (hp : (s.half h).net[n]? = some p) (he : portEnabled h (s.half h) n = true) :
    execLinkSignalDetected h n s = .next (s.upd h (fun y =>
      (if p.link = .down then adaptStart n else id) (updPort n (fun p => { p with signal := true, transmitter := true }) y))) := by
  refine next_congr ((if_neg (by rw [he]; decide)).trans (upd_congr ?_))
  simp only [getD_net (getElem?_net_updPort hp _), beq_iff_eq]
  split <;> rfl

/-- Block lock for 10 ms brings an adapting port up (R280, R283). -/
theorem execLinkUp_locked (hp : (s.half h).net[n]? = some p) (he : portEnabled h (s.half h) n = true) (hl : p.link = .adapting)
    (hr : p.retryAt = none) (ht : p.since + 10000000 ≤ (s.half h).clk.now) :
    execLinkUp h n s = .next (portBack h n (protocolsStart h n
      (event h 0x0501 sevInfo (portH h n) (le 4 (portSpeed h (s.half h) n) ++ le 4 (portFec h (s.half h) n) ++ le 4 (p.attempts + 1))
        (s.upd h (updPort n (fun p => { p with
          link := .up, attempts := 0, speed := portSpeed h (s.half h) n, fec := portFec h (s.half h) n, ptp := .listening })))))) := by
  refine next_congr ?_
  simp only [getD_net hp]
  exact if_neg (by simp [he, hl, hr, ht])

/-- A link goes down for one of the four causes; without a signal, causes 1 and 4, an adapting port goes to DOWN as well. `v` is the state
once the signal is noted. -/
theorem execLinkDown_caused {cause : Nat} {v : State} (hp : (s.half h).net[n]? = some p) (hr : (s.half h).boot.inReset = false) (h1 : 1 ≤ cause)
    (h4 : cause ≤ 4) (hv : v = s.upd h (updPort n (fun p => { p with signal := p.signal && !(cause == 1 || cause == 4) }))) :
    execLinkDown h n cause s = .next (
      if p.link = .up then ptpLost h n (leaveUp h n cause v)
      else if p.link = .adapting ∧ (cause = 1 ∨ cause = 4) then v.upd h (updPort n (fun p => { p with link := .down, retryAt := none }))
      else v) := by
  refine next_congr ?_
  simp only [getD_net hp, ← hv]
  refine (if_neg ?_).trans ?_
  · simp only [hr, Bool.false_or, Bool.or_eq_true, beq_iff_eq, decide_eq_true_eq]
    omega
  · simp only [beq_iff_eq, Bool.and_eq_true, Bool.or_eq_true]

/-- 500 ms without block lock are a failed attempt (R280). -/
theorem execAdaptationTimeout_fails (hp : (s.half h).net[n]? = some p) (hr : (s.half h).boot.inReset = false) (hl : p.link = .adapting)
    (hn : p.retryAt = none) (ht : p.since + 500000000 ≤ (s.half h).clk.now) {v : State}
    (hv : v = s.upd h (updPort n (fun p => { p with attempts := 3, link := .failed, retryAt := none }))) :
    execAdaptationTimeout h n s = .next (
      if p.attempts < 2 then
        s.upd h (updPort n (fun p => { p with attempts := p.attempts + 1, retryAt := some ((s.half h).clk.now + 100000000) }))
      else portLost h n (latchHw 6 h (34 + n) false
          (event h 0x0503 sevAlarm (portH h n) (le 4 3 ++ le 4 (Config.equaliser v.free)) { v with free := v.free + 1 }))) := by
  refine next_congr ?_
  simp only [getD_net hp, ← hv]
  exact (if_neg (by simp [hr, hl, hn, ht])).trans (if_congr (by omega) rfl rfl)

/-- The next attempt begins at its time (R281). -/
theorem execAdaptationRetry_due {t : Nat} (hp : (s.half h).net[n]? = some p) (hr : (s.half h).boot.inReset = false) (hl : p.link = .adapting)
    (hn : p.retryAt = some t) (ht : t ≤ (s.half h).clk.now) :
    execAdaptationRetry h n s = .next (s.upd h (adaptStart n)) := by
  refine next_congr ?_
  simp only [getD_net hp, hn]
  exact if_neg (by simp [hr, hl, State.now, Nat.not_lt.2 ht])

end

/-- Settles O31: the port's link, its attempts and the cause choose the case of each event. -/
theorem linkEvents : Obligations.LinkEvents := by
  rintro h s _ n p rfl hp
  refine ⟨execLinkSignalDetected_enabled hp, execLinkUp_locked hp, fun cause v hr h1 h4 hv => ?down, fun hr hl hn ht => ?fails,
    fun t hr hl hn ht => (execAdaptationRetry_due hp hr hl hn ht).trans (next_congr (upd_congr rfl))⟩
  case down =>
    have hx := execLinkDown_caused hp hr h1 h4 hv
    refine ⟨fun hl => hx.trans (next_congr (if_pos hl)), fun hl hc => ?_, fun hl hc => ?_⟩
    · exact hx.trans (next_congr ((if_neg (by rw [hl]; decide)).trans (if_pos ⟨hl, hc⟩)))
    · exact hx.trans (next_congr ((if_neg (by rw [hl]; decide)).trans (if_neg (by omega))))
  case fails =>
    refine ⟨fun ha => ?_, fun ha v hv => ?_⟩
    · exact (execAdaptationTimeout_fails hp hr hl hn ht rfl).trans (next_congr (if_pos ha))
    · exact (execAdaptationTimeout_fails hp hr hl hn ht hv).trans (next_congr (if_neg (Nat.not_lt.2 ha)))

end Sys2Proof.Machine
end

section
/-!
PROOFS. The protocols of a port: neighbours, routers, multicast, echo and other frames (R278, R283, R284).
-/
namespace Sys2Proof.Machine

section
variable {h : HalfId} {s u : State} {n : Nat}

/-! A received frame. -/

theorem portRx_boot (n : Nat) (x : Half) : (portRx n x).boot = x.boot := by
  rw [portRx, count_boot, updPort_boot]

theorem portRx_alive (n : Nat) (x : Half) : (portRx n x).alive = x.alive := by
  rw [Half.alive, Half.alive, portRx_boot]

/-- A port of a half with running firmware takes a frame in. `u` is the state once the frame is counted. -/
structure Hears (h : HalfId) (s : State) (n : Nat) (u : State) : Prop where
  hears : portHears h s n = true
  alive : (s.half h).alive = true
  counted : u = s.upd h (portRx n)

theorem Hears.still (hu : Hears h s n u) : (u.half h).alive = true := by
  rw [hu.counted, half_upd_self, portRx_alive, hu.alive]

/-- The guard of every frame event is open for a port that hears. -/
theorem Hears.takes (hu : Hears h s n u) (a b : State) : (if (!portHears h s n) = true then a else b) = b :=
  if_neg (by rw [hu.hears]; decide)

/-! IPv4 neighbours (R283). -/

/-- The address of a target is learned, and a request for the port's address answered. -/
theorem execArpReceived_hears (hu : Hears h s n u) (f : ArpFrame) {v : State} (h4 : portV4 h (u.half h) n = true)
    (hv : v = if f.senderIp ∈ resolveTargets h (u.half h) n false then u.upd h (learn n f.senderIp f.senderMac) else u) :
    execArpReceived h n f s = .next (
      if f.request = true ∧ f.targetIp = portIp h (u.half h) n then emit h (.arpReply (portH h n) f.senderIp) v else v) := by
  refine next_congr ((hu.takes _ _).trans ?_)
  simp only [← hu.counted, hu.still, h4, Bool.not_true, Bool.or_self, Bool.false_eq_true, if_false, List.contains_iff_mem, ← hv, Bool.and_eq_true,
    beq_iff_eq]

/-- Targets are resolved again at their time. -/
theorem execArpRefresh_due {p : PortSt} (hh : portHears h s n = true) (ha : (s.half h).alive = true) (hp : (s.half h).net[n]? = some p)
    (ht : p.nextResolve ≤ (s.half h).clk.now) : execArpRefresh h n s = .next (resolveAll h n s) := by
  refine next_congr ?_
  simp only [getD_net hp]
  exact if_neg (by simp [hh, ha, Nat.not_lt.2 ht])

/-! Echo and other frames (R278, R284). -/

/-- Echo is answered up to 100 times in a second. -/
theorem execIcmpEchoReceived_hears (hu : Hears h s n u) {v6 : Bool} {p : PortSt} {recent : List Nat} (hp : (u.half h).net[n]? = some p)
    (hf : (if v6 then portV6 h (u.half h) n && v6Usable p else portV4 h (u.half h) n) = true)
    (he : (rd (portRec h (u.half h) n) 18 1).testBit 3 = true)
    (hr : recent = p.icmpTimes.filter (fun t => (u.half h).clk.now < t + 1000000000)) :
    execIcmpEchoReceived h n v6 s = .next (if recent.length < 100 then
      emit h (.echoReply (portH h n)) (u.upd h (updPort n (fun q => { q with icmpTimes := recent ++ [(u.half h).clk.now] })))
      else u.upd h (portDrop n)) := by
  refine next_congr ((hu.takes _ _).trans ?_)
  simp only [← hu.counted, hu.still, getD_net hp, hf, he, ← hr, Bool.true_and, decide_eq_true_eq]

/-- Any other frame is dropped and counted; a PAUSE frame has a count of its own. -/
theorem execOtherFrameReceived_hears (hu : Hears h s n u) (pause : Bool) :
    execOtherFrameReceived h n pause s = .next (u.upd h (if pause then
      updPort n (fun p => { p with counts := { p.counts with pause := sat32 p.counts.pause } }) else portDrop n)) := by
  refine next_congr ((hu.takes _ _).trans ?_)
  rw [hu.counted, upd_upd]
  cases pause <;> rfl

/-! IPv6 neighbours, routers and groups (R283). -/

section
variable {f : NdFrame} {p : PortSt}

/-- Another user of the address during duplicate address detection is a conflict. -/
theorem execNeighbourDiscoveryReceived_conflict (hu : Hears h s n u) (h6 : portV6 h (u.half h) n = true) (hp : (u.half h).net[n]? = some p)
    (hw : p.v6ReadyAt ≠ none) (ht : f.target = portIp6 h (u.half h) n) (hd : f.dad = true ∨ f.solicitation = false) :
    execNeighbourDiscoveryReceived h n f s = .next (event h 0x0504 sevAlarm (portH h n) (le 4 6 ++ le 8 f.senderMac)
      (u.upd h (updPort n (fun p => { p with v6ReadyAt := none, conflict := true })))) := by
  have hother : (f.dad || !f.solicitation) = true := by simpa using hd
  have hwaits : p.v6ReadyAt.isSome = true := Option.isSome_iff_ne_none.2 hw
  refine next_congr ((hu.takes _ _).trans ?_)
  simp only [← hu.counted, hu.still, h6, getD_net hp, hwaits, ht, hother, beq_self_eq_true, Bool.and_self, Bool.not_true, Bool.or_self,
    Bool.false_eq_true, if_false, if_true]

/-- A solicitation of a usable address is answered. -/
theorem execNeighbourDiscoveryReceived_solicited (hu : Hears h s n u) (h6 : portV6 h (u.half h) n = true) (hp : (u.half h).net[n]? = some p)
    (hw : p.v6ReadyAt = none) (hc : p.conflict = false) (hs : f.solicitation = true) (ht : f.target = portIp6 h (u.half h) n) :
    execNeighbourDiscoveryReceived h n f s = .next (emit h (.neighbourReply (portH h n) f.target) u) := by
  refine next_congr ((hu.takes _ _).trans ?_)
  simp only [← hu.counted, hu.still, h6, getD_net hp, v6Usable, hw, hc, hs, ht, Option.isSome_none, Option.isNone_none, beq_self_eq_true,
    Bool.not_false, Bool.and_self, Bool.false_and, Bool.not_true, Bool.or_self, Bool.false_eq_true, if_false, if_true]

/-- The advertisement of a target is learned. -/
theorem execNeighbourDiscoveryReceived_advertised (hu : Hears h s n u) (h6 : portV6 h (u.half h) n = true)
    (ht : f.target ≠ portIp6 h (u.half h) n) (hs : f.solicitation = false) (hm : f.target ∈ resolveTargets h (u.half h) n true) :
    execNeighbourDiscoveryReceived h n f s = .next (u.upd h (learn n f.target f.senderMac)) := by
  refine next_congr ((hu.takes _ _).trans ?_)
  simp only [← hu.counted, hu.still, h6, hs, beq_eq_false_iff_ne.2 ht, List.contains_iff_mem, hm, Bool.and_false, Bool.false_and, Bool.not_true,
    Bool.or_self, Bool.false_eq_true, if_false, if_true]

/-- After 1 s without a conflict the address is usable. -/
theorem execDadComplete_due {t : Nat} (ha : (s.half h).alive = true) (hp : (s.half h).net[n]? = some p) (hw : p.v6ReadyAt = some t)
    (ht : t ≤ (s.half h).clk.now) :
    execDadComplete h n s = .next (resolveAll h n (s.upd h (updPort n (fun p => { p with v6ReadyAt := none })))) := by
  refine next_congr ?_
  simp only [getD_net hp, hw]
  exact if_neg (by simp [ha, State.now, Nat.not_lt.2 ht])

end

/-- A router is the default gateway where the record names none. -/
theorem execRouterAdvertisementReceived_learned (hu : Hears h s n u) (h6 : portV6 h (u.half h) n = true)
    (hg : rd (portRec h (u.half h) n) 56 16 = 0) (router mac : Nat) :
    execRouterAdvertisementReceived h n router mac s = .next
      (u.upd h (fun y => learn n router mac (updPort n (fun p => { p with learnedGateway := router }) y))) := by
  refine next_congr ((hu.takes _ _).trans ?_)
  simp only [← hu.counted]
  exact if_neg (by simp [hu.still, h6, hg])

/-- A query is answered with the reports of the joined groups that it asks for. -/
theorem execMulticastQueryReceived_reports (hu : Hears h s n u) {q : MulticastQuery}
    (hf : (if q.v6 then portV6 h (u.half h) n else portV4 h (u.half h) n) = true) :
    execMulticastQueryReceived h n q s = .next (reportGroups h n false q.oldVersion
      ((groupsOf h (u.half h) n q.v6).filter (fun g => q.group == 0 || g.1 == q.group))
      (u.upd h (updPort n (fun p => { p with oldQuerier := q.oldVersion })))) := by
  refine next_congr ((hu.takes _ _).trans ?_)
  simp only [← hu.counted, hu.still, hf, Bool.not_true, Bool.or_self, Bool.false_eq_true, if_false]

end

/-- Settles O32: a frame is taken in by a port that hears, and its fields choose what the event does. -/
theorem addressEvents : Obligations.AddressEvents := by
  constructor
  · intro h s u n hh ha hcount
    have hu : Hears h s n u := ⟨hh, ha, hcount⟩
    refine ⟨fun f v h4 hv => ⟨fun hr ht => ?_, fun hn => ?_⟩, fun p hp ht => execArpRefresh_due hh ha hp ht,
      fun v6 p recent hp hf he hr => execIcmpEchoReceived_hears hu hp hf he hr, execOtherFrameReceived_hears hu false,
      execOtherFrameReceived_hears hu true⟩
    · exact (execArpReceived_hears hu f h4 hv).trans (next_congr (if_pos ⟨hr, ht⟩))
    · refine (execArpReceived_hears hu f h4 hv).trans (next_congr (if_neg ?_))
      rintro ⟨hr, ht⟩
      exact hn.elim (fun hr' => Bool.false_ne_true (hr'.symm.trans hr)) (fun ht' => ht' ht)
  · intro h s u n ha hcount
    refine ⟨fun f p hh h6 hp => ?neighbour, fun p t hp hw ht => execDadComplete_due ha hp hw ht,
      fun router mac hh h6 hg => execRouterAdvertisementReceived_learned ⟨hh, ha, hcount⟩ h6 hg router mac,
      fun q hh hf => execMulticastQueryReceived_reports ⟨hh, ha, hcount⟩ hf⟩
    case neighbour =>
      have hu : Hears h s n u := ⟨hh, ha, hcount⟩
      exact ⟨fun hw ht hd => execNeighbourDiscoveryReceived_conflict hu h6 hp hw ht hd,
        fun hw hc hs ht => execNeighbourDiscoveryReceived_solicited hu h6 hp hw hc hs ht,
        fun ht hs hm => execNeighbourDiscoveryReceived_advertised hu h6 ht hs hm⟩

end Sys2Proof.Machine
end

section
/-!
PROOFS. PTP messages and the clock (R286 to R291).
-/
namespace Sys2Proof.Machine

/-! Messages to the slave port (R288 to R290). -/

section
variable {h home : HalfId} {s u : State} {n : Nat}

/-- The slave port of a clock takes a message in. `u` is the state once the frame is counted. -/
structure SlaveHears (h home : HalfId) (s : State) (n : Nat) (u : State) : Prop where
  hears : portHears h s n = true
  serves : home = ptpHome s h
  alive : (s.half home).alive = true
  counted : u = s.upd h (portRx n)
  slave : (u.half home).ptp.slavePort = some (portH h n)

theorem SlaveHears.takes (hu : SlaveHears h home s n u) (a b : State) : (if (!portHears h s n || !(s.half home).alive) = true then a else b) = b :=
  if_neg (by rw [hu.hears, hu.alive]; decide)

/-- A Sync sets t2; a one-step Sync sets t1 too and ends the first half of the exchange, a two-step one waits for its Follow_Up. -/
theorem execPtpSyncReceived_timed (hu : SlaveHears h home s n u) (twoStep : Bool) {origin receive t2 : Nat} {v : State}
    (hn : (u.half home).ptp.nextSlave = none) (hv : v = servoDeadline home u)
    (ht : t2 = ((receive : Int) - signed 16 (rd (portRec h (v.half h) n) 74 2)).toNat) :
    execPtpSyncReceived h n twoStep origin receive s = .next (
      if twoStep then v.upd home (updPtp (fun q => { q with t1 := none, t2 := some t2, awaitFollowUp := true }))
      else syncDone home (v.upd home (updPtp (fun q => { q with t1 := some origin, t2 := some t2, awaitFollowUp := false })))) := by
  refine next_congr ?_
  rw [← hu.serves]
  refine (hu.takes _ _).trans ?_
  simp only [← hu.counted, hn, hu.slave, bne_self_eq_false, Bool.false_eq_true, if_false, ← hv, ← ht]
  cases twoStep <;> rfl

/-- The Follow_Up that a Sync waits for brings t1. -/
theorem execPtpFollowUpReceived_awaited (hu : SlaveHears h home s n u) (origin : Nat) (hw : (u.half home).ptp.awaitFollowUp = true) :
    execPtpFollowUpReceived h n origin s =
      .next (syncDone home (u.upd home (updPtp (fun q => { q with t1 := some origin, awaitFollowUp := false })))) := by
  refine next_congr ?_
  simp only [← hu.serves]
  refine (hu.takes _ _).trans ?_
  simp only [← hu.counted, hu.slave, hw, bne_self_eq_false, Bool.not_true, Bool.or_self, Bool.false_eq_true, if_false]

/-- The request of a correction that host mode sends (R290). -/
def servoRequest (home : HalfId) (t1 t2 t3 receive : Nat) (v : State) : AsrEntry :=
  { kind := 0x0B07, tag := 0, handle := ptpH home, sequence := 0, time := t2
    payload := le 8 t1 ++ le 8 t2 ++ le 8 t3 ++ le 8 receive ++ le 4 (unsigned 32 (v.half home).clk.freqAdj) }

/-- The Delay_Resp gives delay and offset; the servo corrects the clock, or the host is asked to. -/
theorem execPtpDelayRespReceived_exchanged (hu : SlaveHears h home s n u) {receive t1 t2 t3 due : Nat} {d : Int} {v : State}
    (h1 : (u.half home).ptp.t1 = some t1) (h2 : (u.half home).ptp.t2 = some t2) (h3 : (u.half home).ptp.t3 = some t3)
    (hd : d = ((t2 : Int) - t1 + ((receive : Int) - t3)) / 2)
    (hv : v = u.upd home (updPtp (fun q => { q with delay := d, offset := (t2 : Int) - t1 - d, delayKnown := true, t3 := none })))
    (hdue : due = t2 + logInterval (ptpField v home 22 1 0)) :
    execPtpDelayRespReceived h n receive s = .next (
      if modeHost (v.half home) fnPtp (ptpH home) = true then
        asrRequest home (servoRequest home t1 t2 t3 receive v) due (v.upd home (updPtp (fun q => { q with deadline := due, answered := false })))
      else correctPhase home (-((t2 : Int) - t1 - d)) (setFrequency home (Config.servoFrequency v.free) { v with free := v.free + 1 })) := by
  refine next_congr ?_
  simp only [← hu.serves]
  refine (hu.takes _ _).trans ?_
  simp only [← hu.counted, h1, h2, h3, hu.slave, bne_self_eq_false, Bool.false_eq_true, if_false, ← hd, ← hv, ← hdue]
  rfl

end

/-! Ports that announce (R286 to R288). -/

section
variable {h : HalfId} {s u : State} {n : Nat} {p : PortSt}

theorem getElem?_net_portRx {x : Half} (hp : x.net[n]? = some p) :
    (portRx n x).net[n]? = some { p with counts := { p.counts with received := p.counts.received + 1 } } := by
  rw [portRx, count_net]
  exact getElem?_net_updPort hp _

/-- A master port answers a Delay_Req with its receive time. -/
theorem execPtpDelayReqReceived_master (receive : Nat) (hu : u = s.upd h (portRx n)) (hp : (s.half h).net[n]? = some p)
    (hh : portHears h s n = true) (hm : p.ptp = .master) :
    execPtpDelayReqReceived h n receive s = .next (emit h (.ptpDelayResp (portH h n)
      ((receive : Int) - signed 16 (rd (portRec h (u.half h) n) 74 2)).toNat) u) := by
  have hport : (u.half h).net.getD n {} = _ := getD_net (by rw [hu, half_upd_self]; exact getElem?_net_portRx hp)
  refine next_congr ((if_neg (by rw [hh]; decide)).trans ?_)
  simp only [← hu, hport, hm, bne_self_eq_false, Bool.false_eq_true, if_false]

/-- An Announce of a PTP port runs the best master choice. -/
theorem execPtpAnnounceReceived_heard {home : HalfId} (hhome : home = ptpHome s h) (hh : portHears h s n = true) (ha : (s.half home).alive = true)
    (hm : portH h n ∈ ptpPorts s home) (a : Announce) :
    execPtpAnnounceReceived h n a s = .next (bmca home (s.upd h (fun x =>
      portRx n (updPort n (fun p => { p with announce := some a, announceAt := x.clk.now }) x)))) := by
  refine next_congr ?_
  simp only [← hhome]
  exact if_neg (by simp [hh, ha, hm])

/-- An Announce that does not come within the receipt timeout is forgotten, and with it the slave port. -/
theorem execAnnounceReceiptTimeout_due {home : HalfId} {v : State} (hhome : home = ptpHome s h) (hp : (s.half h).net[n]? = some p)
    (ha : (s.half home).alive = true) (hn : p.announce ≠ none)
    (ht : p.announceAt + ptpField s home 25 1 3 * logInterval (ptpField s home 23 1 1) ≤ (s.half h).clk.now)
    (hv : v = s.upd h (updPort n (fun p => { p with announce := none }))) :
    execAnnounceReceiptTimeout h n s = .next (if (v.half home).ptp.slavePort = some (portH h n) then slaveLost home v else v) := by
  refine next_congr ?_
  simp only [← hhome, getD_net hp, ← hv, beq_iff_eq]
  exact if_neg (by simp [ha, hn, State.now, Nat.not_lt.2 ht])

/-- A master port's interval since it last sent is over, or it has not sent yet. -/
theorem interval_over {sentAt gap now : Nat} (ht : sentAt = 0 ∨ sentAt + gap ≤ now) : ¬ (decide (now < sentAt + gap) && sentAt != 0) = true := by
  simp only [Bool.and_eq_true, decide_eq_true_eq, bne_iff_ne]
  omega

/-- A master port sends Announce at its interval. -/
theorem execPtpMasterInterval_announces {home : HalfId} (hhome : home = ptpHome s h) (hp : (s.half h).net[n]? = some p)
    (hh : portHears h s n = true) (hm : p.ptp = .master)
    (ht : p.announceSentAt = 0 ∨ p.announceSentAt + logInterval (ptpField s home 23 1 1) ≤ (s.half h).clk.now) :
    execPtpMasterInterval h n true s = .next (emit h (.ptpAnnounce (portH h n))
      (s.upd h (updPort n (fun p => { p with announceSentAt := (s.half h).clk.now })))) := by
  refine next_congr ?_
  simp only [← hhome, getD_net hp, hh, hm, bne_self_eq_false, Bool.not_true, Bool.or_self, Bool.false_eq_true, if_false]
  exact if_neg (interval_over ht)

/-- A master port sends Sync at its interval, followed by a Follow_Up where it is two-step. -/
theorem execPtpMasterInterval_syncs {home : HalfId} {v : State} (hhome : home = ptpHome s h) (hp : (s.half h).net[n]? = some p)
    (hh : portHears h s n = true) (hm : p.ptp = .master)
    (ht : p.syncSentAt = 0 ∨ p.syncSentAt + logInterval (ptpField s home 22 1 0) ≤ (s.half h).clk.now)
    (hv : v = emit h (.ptpSync (portH h n) (((s.half h).clk.now : Int) + signed 16 (rd (portRec h (s.half h) n) 72 2)).toNat)
      (s.upd h (updPort n (fun p => { p with syncSentAt := (s.half h).clk.now })))) :
    execPtpMasterInterval h n false s = .next (if (ptpFlags v home).testBit 1 then emit h (.ptpFollowUp (portH h n)) v else v) := by
  subst hv
  refine next_congr ?_
  simp only [← hhome, getD_net hp, hh, hm, bne_self_eq_false, Bool.not_true, Bool.or_self, Bool.false_eq_true, if_false]
  exact if_neg (interval_over ht)

/-! The clock (R286, R291). -/

/-- The edge of the PPS input is the whole second that the host counts. -/
theorem execPpsInputEdge_counted (hhome : h = ptpHome s h) (ha : (s.half h).alive = true) (hf : (ptpFlags s h).testBit 2 = true)
    (hb : (s.half h).boot.board.ppsFitted = true) (second : Nat) :
    execPpsInputEdge h second s = .next
      (correctPhase h ((second : Int) * 1000000000 - signed 32 (ptpField s h 44 4 0) - ((s.half h).clk.now : Int)) s) :=
  next_congr (if_neg (by simp [ha, ← hhome, hf, hb]))

/-- A holdover that has lasted its time is reported once. -/
theorem execHoldoverExpired_due {t : Nat} (hs : (s.half h).ptp.holdoverSince = some t) (hh : (s.half h).ptp.state = .holdover)
    (hr : (s.half h).ptp.holdoverRaised = false) (ht : t + ptpHoldover s h * 1000000000 ≤ (s.half h).clk.now) :
    execHoldoverExpired h s = .next (event h 0x0508 sevWarning (ptpH h) (le 8 t)
      (s.upd h (updPtp (fun p => { p with holdoverRaised := true })))) := by
  refine next_congr ?_
  simp only [hs]
  exact if_neg (by simp [hh, hr, State.now, Nat.not_lt.2 ht])

end

/-- Settles O33: each message finds its port in the role that its clause gives it, and the clock's events are due. -/
theorem ptpEvents : Obligations.PtpEvents := by
  constructor
  · intro h home s u n hh hhome ha hcount hslave
    have hu : SlaveHears h home s n u := ⟨hh, hhome, ha, hcount, hslave⟩
    refine ⟨fun origin receive v t2 hn hv ht => ⟨execPtpSyncReceived_timed hu false hn hv ht, execPtpSyncReceived_timed hu true hn hv ht⟩,
      fun origin hw => execPtpFollowUpReceived_awaited hu origin hw, fun receive t1 t2 t3 d v h1 h2 h3 hd hv => ⟨fun hm => ?_, fun due hm hdue => ?_⟩⟩
    · exact (execPtpDelayRespReceived_exchanged hu h1 h2 h3 hd hv rfl).trans (next_congr (if_neg (by rw [hm]; decide)))
    · exact (execPtpDelayRespReceived_exchanged hu h1 h2 h3 hd hv hdue).trans (next_congr (if_pos hm))
  · intro h home s u n p hhome hu hp
    refine ⟨fun receive hh hm => execPtpDelayReqReceived_master receive hu hp hh hm,
      fun a hh ha hm => execPtpAnnounceReceived_heard hhome hh ha hm a, fun v ha hn ht hv => execAnnounceReceiptTimeout_due hhome hp ha hn ht hv,
      fun hh hm ht => execPtpMasterInterval_announces hhome hp hh hm ht, fun v hh hm ht hv => execPtpMasterInterval_syncs hhome hp hh hm ht hv, ?_,
      fun t hs hst hr ht => execHoldoverExpired_due hs hst hr ht⟩
    rintro second rfl ha hf hb
    exact execPpsInputEdge_counted hhome ha hf hb second

end Sys2Proof.Machine
end

section
/-!
PROOFS. Pacing: the packet that a port starts, gate windows and lists, undercoat (R305, R321 to R326).
-/
namespace Sys2Proof.Machine

section
variable {h : HalfId} {s : State} {n : Nat} {q : PortSt}

/-! Packets (R323 to R325). -/

/-- A port may start a packet: it is up and in service in a half that sends, no change is due, and its line is free within the ns. -/
structure LineFree (h : HalfId) (s : State) (n : Nat) (q : PortSt) : Prop where
  port : (s.half h).net[n]? = some q
  noReset : (s.half h).boot.inReset = false
  runs : (s.half h).env.running ≠ none
  settled : changeDue (s.half h) = false
  tethered : (s.half h).bri.tetherStopped = false
  sends : (s.half h).bri.mediaStopped = false
  up : q.link = .up
  inService : q.flags.retired = false
  powered : islandOn (s.half h) (28 + n) = true
  free : q.busyUntil < 100 * (s.half h).clk.now + 100

/-- The packet at the head of a flow's queue is counted as one that did not fit (R325). -/
def markHead (f : FlowSt) : FlowSt :=
  { f with queue := match f.queue with | k :: ks => { k with counted := true } :: ks | [] => [] }

/-- The packets that do not fit are counted once, and the pick of those that fit starts. -/
theorem execPacketStart_free (hl : LineFree h s n q) {may open_ : List Candidate} {fits : Candidate → Bool} {v : State}
    (hm : may = (portHeads h (s.half h) (portH h n)).filter (mayLeave s h n))
    (ho : open_ = may.filter (fun c => (gateMask q (s.half h).clk.now).testBit c.st.cls))
    (hf : fits = fun c => gateHolds 20 q c.st.cls (s.half h).clk.now (lineTime q (s.half h).clk.now + c.packet.wire * byteTime h (s.half h) n))
    (hv : v = (open_.filter (fun c => !fits c && !c.packet.counted)).foldl
      (fun t c => t.upd h (fun y => count 30 0x11 1 (updFlowAt h c.flow markHead y))) s) :
    execPacketStart h n s = .next ((pickPacket (open_.filter fits)).elim v (fun c => startPacket h n c v)) := by
  obtain ⟨hq, hr, hrun, hch, ht, hs, hup, hin, hi, hfree⟩ := hl
  refine next_congr ?_
  simp only [getD_net hq]
  refine (if_neg (by simp [hr, hrun, hch, ht, hs, hup, hin, hi, Nat.not_le.2 hfree])).trans ?_
  subst hv hf ho hm
  cases pickPacket _ <;> rfl

/-! Gates (R321, R326). -/

/-- At the end of a window the next one is in force. -/
theorem execGateWindowChange_due {g : GateRun} (hq : (s.half h).net[n]? = some q) (hg : q.gate = some g) (ht : g.windowEnd ≤ (s.half h).clk.now) :
    execGateWindowChange h n s = .next (s.upd h (updPort n (fun p => { p with
      gate := some { g with windowEnd := (gateWindow g (s.half h).clk.now).2, mask := (gateWindow g (s.half h).clk.now).1 } }))) := by
  refine next_congr ?_
  simp only [getD_net hq, hg]
  exact if_neg (Nat.not_lt.2 ht)

/-- At its start the next list is in force. -/
theorem execGateListStarted_due {g : GateRun} (hq : (s.half h).net[n]? = some q) (hg : q.nextGate = some g) (ht : g.start ≤ (s.half h).clk.now)
    (hr : (s.half h).boot.inReset = false) :
    execGateListStarted h n s = .next (event h 0x050E sevInfo (gateH h g.list) (le 8 g.start ++ le 8 g.cycle ++ le 4 g.cause)
      (s.upd h (updPort n (fun p => { p with nextGate := none
                                             gate := some { g with windowEnd := (gateWindow g (s.half h).clk.now).2
                                                                   mask := (gateWindow g (s.half h).clk.now).1 } })))) := by
  refine next_congr ?_
  simp only [getD_net hq, hg]
  exact if_neg (by simp [hr, State.now, Nat.not_lt.2 ht])

/-! Undercoat (R305). -/

section
variable {flow : Handle} {f : FlowSt} {m : Mirror} {tick : Nat}

/-- A flow on the undercoat path has come to its picture. -/
structure UndercoatDue (h : HalfId) (s : State) (flow : Handle) (f : FlowSt) (m : Mirror) (tick : Nat) : Prop where
  state : flowAt h (s.half h) flow = some f
  mirror : flowMirror h (s.half h) flow f = some m
  time : tick = nextPictureTick m (s.half h).clk.now
  path : f.path = .undercoat
  due : tick ≤ (s.half h).clk.now
  stays : removedAt (s.half h) flow tick = false
  noReset : (s.half h).boot.inReset = false
  runs : (s.half h).env.running ≠ none
  tethered : (s.half h).bri.tetherStopped = false

/-- The sizes on the wire of the packets of an undercoat picture, as many as its bytes need, and one at least. -/
def undercoatSizes (r : Record) (size : Nat) : List Nat :=
  (List.range (max 1 (ceilDiv size (max 1 (payloadLimit r))))).map fun j =>
    wireBytes r (min (max 1 (payloadLimit r)) (size - j * max 1 (payloadLimit r))) false

/-- The half once the packets are queued, the flow is at its next picture and the picture is counted. -/
def undercoatSent (h : HalfId) (flow : Handle) (f : FlowSt) (m : Mirror) (tick : Nat) (sizes : List Nat) (x : Half) : Half :=
  count (28 + hIndex f.port % 2) 0x16 1 (updFlowAt h flow (fun g => { g with
    picture := g.picture + 1, lastTick := tick, undercoatPics := g.undercoatPics + 1, firstMissingCtu := 0
    frame := undercoatFrame m.codec g.frame, counts := { g.counts with undercoat := sat32 g.counts.undercoat } })
    (undercoatPackets h flow (f.picture + 1) tick sizes x))

/-- The rate model takes a picture of an own stream in once: with the stream's first flow. -/
def undercoatRated (h : HalfId) (flow : Handle) (f : FlowSt) (r : Record) (size : Nat) (y : Half) : Half :=
  if hHalf flow = h ∧ (y.obj.flows.find? (fun g => flStream (y.record (flowH h g.index)) == flStream r)).any (fun g => g.index == f.index) = true
  then updEncode (hIndex (flStream r)) (fun e => { e with
    rate := (modelAdvance y.running (y.record (flStream r)) e.rate e.k (8 * size)).1, k := (e.k + 1) % 0x100000000 }) y
  else y

/-- The picture of the period goes out as undercoat. -/
theorem execUndercoatPictureTick_due (hu : UndercoatDue h s flow f m tick) {r : Record} {size : Nat} {y : Half}
    (hr : r = flowRec h (s.half h) flow) (hs : size = Config.undercoatBytes s.free % (257 + m.cols * m.rows / 4))
    (hy : y = undercoatSent h flow f m tick (undercoatSizes r size) (s.half h)) :
    execUndercoatPictureTick h flow s = .next (emit h (.undercoatPicture flow tick (undercoatContent m.codec m.sets m.frame))
      (({ s with free := s.free + 1 } : State).upd h (fun _ => undercoatRated h flow f r size y))) := by
  obtain ⟨hf, hm, ht, hp, hd, hstay, hres, hrun, hteth⟩ := hu
  refine next_congr ?_
  simp only [hf, hm, ← ht]
  refine (if_neg (by simp [hp, hstay, hres, hrun, hteth, Nat.not_lt.2 hd])).trans ?_
  refine congrArg (emit h _) (upd_congr ?_)
  subst hy hr hs
  simp only [Bool.and_eq_true, beq_iff_eq]
  rfl

end

end

/-- Settles O35: a port with a free line starts its pick, and gates and undercoat are due. -/
theorem pacingEvents : Obligations.PacingEvents := by
  rintro h s _ n q rfl hq
  refine ⟨?starts, ?window, ?list, ?undercoat⟩
  case starts =>
    intro open_ fits may c v hres hrun hch hteth hsend hup hin hpow hfree hm ho hf hv
    have hx := execPacketStart_free ⟨hq, hres, hrun, hch, hteth, hsend, hup, hin, hpow, hfree⟩ hm ho hf hv
    exact ⟨fun hc => hx.trans (next_congr (by rw [hc]; rfl)), fun hc => hx.trans (next_congr (by rw [hc]; rfl))⟩
  case window =>
    rintro g _ hg ht rfl
    exact execGateWindowChange_due hq hg ht
  case list =>
    rintro g _ hg ht hres rfl
    exact execGateListStarted_due hq hg ht hres
  case undercoat =>
    rintro flow f m tick r size _ _ _ y v hf hm ht hp hd hstay hres hrun hteth hr hs rfl rfl rfl hy rfl
    exact execUndercoatPictureTick_due ⟨hf, hm, ht, hp, hd, hstay, hres, hrun, hteth⟩ hr hs hy

end Sys2Proof.Machine
end

section
/-!
PROOFS. Messages of the spar link and forwarded commands (R186, R227, R302, R306, R308, R450, R457, R576).
-/
namespace Sys2Proof.Machine

section
variable {h : HalfId} {s : State}

/-! Claims (R450). -/

/-- A follower takes the epoch of the partner's claim; a lead that meets a claim has a conflict. -/
theorem execBridleClaimReceived_linked (hr : (s.half h).boot.inReset = false) (hu : (s.half h).bri.sparUp = true) (claim : Bool) {epoch : W32}
    {v w : State} (hv : v = s.upd h (updBri (fun b => { b with partnerEpoch := epoch })))
    (hw : w = v.upd h (updBri (fun b => { b with conflicts := sat32 b.conflicts }))) :
    execBridleClaimReceived h claim epoch s = .next (
      if claim = false then v
      else if (s.half h).bri.lead = false then v.upd h (updBri (fun b => { b with epoch := epoch }))
      else if hostLead h w then askLead h 4 w else conflictDo h w) := by
  refine next_congr ((if_neg (by simp [hr, hu])).trans ?_)
  simp only [← hv, ← hw, Bool.not_eq_true']

/-! Flows of the other half (R302, R306, R457). -/

/-- The standby side of a flow drops what the active side has sent. -/
theorem execSequenceReportReceived_linked (hr : (s.half h).boot.inReset = false) (hs : s.sparWorks = true) (r : FlowSeq) {mine : List Handle}
    (hm : mine = ((s.half h).obj.flows.map (fun f => flowH h f.index)).filter (fun f =>
      f == r.flow || flPartner ((s.half h).record f) == r.flow)) :
    execSequenceReportReceived h r s = .next (s.upd h (fun y => mine.foldl (fun y f => updFlowAt h f (fun g =>
      if g.path = .standby then { g with reported := some r.lastSent, queue := queueAfter r.lastSent g.queue } else g) y) y)) := by
  subst hm
  refine next_congr ((if_neg (by simp [hr, hs])).trans ?_)
  simp only [beq_iff_eq]

/-- The half with a standby entry for a flow of the other half: the one it has, or a fresh one. -/
def withForeign (h : HalfId) (flow : Handle) (fresh : FlowSt) (x : Half) : Half :=
  if (flowAt h x flow).isSome then x else { x with obj := { x.obj with foreign := x.obj.foreign ++ [fresh] } }

/-- An announced unit is kept and acknowledged. -/
theorem execUnitAnnouncementReceived_linked (hr : (s.half h).boot.inReset = false) (hs : s.sparWorks = true) {a : UnitAnnouncement}
    (hf : hHalf a.flow ≠ h) {y : Half}
    (hy : y = withForeign h a.flow { index := hIndex a.flow, path := .standby, port := 0, ssrc := 0, nextSeq := a.firstSeq
                                     sentSeq := a.firstSeq - 1, copyOf := (s.half h.other).record a.flow } (s.half h)) :
    execUnitAnnouncementReceived h a s = .next (emit h (.announcementAck a.flow)
      (s.upd h (fun _ => updFlowAt h a.flow (fun f => { f with acked := some a }) y))) := by
  subst hy
  refine next_congr ((if_neg (by simp [hr, hs, hf])).trans ?_)
  exact congrArg (emit h _) (upd_congr rfl)

/-- The acknowledgement lets the unit's packets go. -/
theorem execUnitAnnouncementAck_own (hr : (s.half h).boot.inReset = false) {flow : Handle} (hf : hHalf flow = h) :
    execUnitAnnouncementAck h flow s = .next (s.upd h (updFlowAt h flow (fun f => { f with
      acked := f.announced, queue := f.queue.map (fun p => { p with held := false }) }))) :=
  next_congr (if_neg (by simp [hr, hf]))

/-- The mirrored state of a flow is kept with the flow's record; a standby flow goes on from it. -/
theorem execMirrorStateReceived_linked (hr : (s.half h).boot.inReset = false) (hs : s.sparWorks = true) {flow : Handle} (hf : hHalf flow ≠ h)
    {m : Mirror} {r : Record} {p : Nat × Nat} {y : Half} (hrec : r = (s.half h.other).record flow) (hp : p = flowParams (s.half h.other) r)
    (hy : y = withForeign h flow { index := hIndex flow, path := .standby, port := 0, ssrc := m.ssrc, nextSeq := m.nextSeq
                                   sentSeq := m.nextSeq - 1 } (s.half h)) :
    execMirrorStateReceived h flow m s = .next (s.upd h (fun _ => updFlowAt h flow (fun f => { f with
      mirror := some m, copyOf := r, cls := flowClass (s.half h.other) r, ssrc := m.ssrc, sets := m.sets
      bucket := if f.path = .standby then bucketNew p.1 p.2 y.clk.now else f.bucket
      nextSeq := if f.path = .standby then m.nextSeq else f.nextSeq
      frame := if f.path = .standby then m.frame else f.frame
      openFrame := if f.path = .standby then m.openFrame else f.openFrame }) y)) := by
  subst hp hrec hy
  refine next_congr ((if_neg (by simp [hr, hs, hf])).trans (upd_congr ?_))
  simp only [beq_iff_eq]
  rfl

/-! Copies of packets (R308, R376). -/

section
variable {flow : Handle} {seq : W16} {f g : FlowSt} {k p : Packet} {v : State}

/-- The copy of a packet leaves the other half's queue, and joins the flow's where a buffer is free. -/
theorem execPartnerCopyReceived_far (hr : (s.half h).boot.inReset = false) (hs : s.sparWorks = true) (hh : hHalf flow ≠ h)
    (hf : flowAt h (s.half h) flow = some f) (hg : flowAt h.other (s.half h.other) flow = some g)
    (hk : g.queue.find? (fun q => q.seq == seq) = some k) (hp : p = { k with held := false })
    (hv : v = s.upd h.other (updFlowAt h.other flow (fun g => { g with queue := g.queue.filter (fun k => k.seq != seq) })))
    (picture : Nat) (bytes : Option Nat) :
    execPartnerCopyReceived h flow seq picture bytes s = .next (if bytes.isNone then v else v.upd h (updFlowAt h flow (fun f => { f with
      queue := f.queue ++ [p], nextSeq := seq + 1, picture := picture, lastTick := p.tick, pictureOpen := !p.pictureLast }))) := by
  subst hp hv
  refine next_congr ((if_neg (by simp [hr, hs])).trans ?_)
  simp only [hf, hg, hk, bne_iff_ne, ne_eq, hh, not_false_eq_true, if_true, Option.bind_some]

/-- Without a buffer a flow that may still use the partner's copies misses them from this picture on. -/
theorem execPartnerCopyReceived_own_missed (hr : (s.half h).boot.inReset = false) (hs : s.sparWorks = true) (hh : hHalf flow = h)
    (hf : flowAt h (s.half h) flow = some f) (picture : Nat) :
    execPartnerCopyReceived h flow seq picture none s = .next (s.upd h (updFlowAt h flow (fun f =>
      if seqAfter seq f.sentSeq = false ∨ f.path = .standby then f else { f with copyMissed := some picture, copies := [] }))) := by
  refine next_congr ((if_neg (by simp [hr, hs])).trans ?_)
  simp only [hf, hh, bne_self_eq_false, Bool.false_eq_true, if_false, Option.isNone_none, if_true, Bool.or_eq_true, Bool.not_eq_true', beq_iff_eq]

/-- The copy of a packet that the flow may still use joins its copies, or its queue where the partner's packets go out. -/
theorem execPartnerCopyReceived_own_joins (hr : (s.half h).boot.inReset = false) (hs : s.sparWorks = true) (hh : hHalf flow = h)
    (hf : flowAt h (s.half h) flow = some f) (hg : flowAt h.other (s.half h.other) (flPartner ((s.half h).record flow)) = some g)
    (hk : g.queue.find? (fun q => q.seq == seq) = some k) (hp : p = { k with held := false }) (picture bytes : Nat) :
    execPartnerCopyReceived h flow seq picture (some bytes) s = .next (s.upd h (updFlowAt h flow (fun f =>
      if seqAfter seq f.sentSeq = false ∨ f.path = .standby ∨ f.copyMissed.any (fun m => picture ≤ m) = true then f
      else if f.copyFrom = h then { f with copyMissed := none, copies := f.copies.filter (fun q => picture < q.picture + 2) ++ [p] }
      else { f with copyMissed := none, queue := f.queue ++ [p]
                    nextSeq := if ((s.half h).obj.encode? (hIndex (flStream ((s.half h).record flow)))).any (fun e =>
                      e.run == .halted || e.restartAt.any (fun t => decide (p.tick < t))) then seq + 1 else f.nextSeq }))) := by
  subst hp
  refine next_congr ((if_neg (by simp [hr, hs])).trans ?_)
  simp only [hf, hg, hk, hh, bne_self_eq_false, Bool.false_eq_true, if_false, Option.isNone_some, Option.bind_some, Bool.or_eq_true,
    Bool.not_eq_true', beq_iff_eq, ← ite_or, or_assoc]
  cases (s.half h).obj.encode? (hIndex (flStream ((s.half h).record flow))) <;> rfl

end

/-! Forwarded commands (R186, R227, R576). -/

/-- A forwarded command takes its place while the link works. -/
theorem execSparForwardedCommand_linked (ha : (s.half h).alive = true) (hs : s.sparWorks = true) (c : Forwarded) :
    execSparForwardedCommand h c s = .next (forwardedDo h c s) :=
  next_congr (if_neg (by simp [ha, hs]))

end

/-- Settles O37: a message is for one side of its flow, and a forwarded command does what `forwardedDo` says of it. -/
theorem sparMessages : Obligations.SparMessages := by
  constructor
  · rintro h s _ rfl hr
    refine ⟨fun claim epoch v hu hv => ?claim, fun r mine hs hm => execSequenceReportReceived_linked hr hs r hm,
      fun a y hs hf hy => execUnitAnnouncementReceived_linked hr hs hf hy, fun flow hf => execUnitAnnouncementAck_own hr hf,
      fun flow m r p y hs hf hrec hp hy => execMirrorStateReceived_linked hr hs hf hrec hp hy, ?far, ?own⟩
    case claim =>
      have hx {w : State} := execBridleClaimReceived_linked (w := w) hr hu claim hv
      refine ⟨fun hc => (hx rfl).trans (next_congr (if_pos hc)), fun hc hl => (hx rfl).trans (next_congr ?_),
        fun hc hl w hw => (hx hw).trans (next_congr ?_)⟩
      · rw [if_neg (by rw [hc]; decide), if_pos hl]
      · rw [if_neg (by rw [hc]; decide), if_neg (by rw [hl]; decide)]
    case far =>
      intro flow seq picture f g k p v hs hh hf hg hk hp hv
      have hx := execPartnerCopyReceived_far hr hs hh hf hg hk hp hv picture
      exact ⟨hx none, fun bytes => hx (some bytes)⟩
    case own =>
      intro flow seq picture f g k p hs hh hf hg hk hp
      exact ⟨execPartnerCopyReceived_own_missed hr hs hh hf picture, execPartnerCopyReceived_own_joins hr hs hh hf hg hk hp picture⟩
  · intro h s ha hs
    have hx := execSparForwardedCommand_linked ha hs
    refine ⟨fun stream kind tick => hx _, fun stream tick => hx _, fun stream payload tick => hx _, ?run,
      fun group sequence t scene => hx _, fun group t => hx _⟩
    case run =>
      rintro object action tick _ rfl
      refine (hx _).trans (next_congr ?_)
      simp only [forwardedDo, beq_iff_eq]
      rfl

end Sys2Proof.Machine
end

section
/-!
PROOFS. Pacing commands: SHAPER_SET and GATE_REBASE (R318, R326, R327).
-/
namespace Sys2Proof.Machine

section
variable {h : HalfId} {e : CmdEntry} {s : State}

/-- A time that has not come yet passes the check of its time (R50). -/
theorem checkTime_ahead {now : Nat} (ha : isAtTime e = true → now < atTimeOf e) : checkTime e now = none := by
  rw [checkTime, failIf_none, Bool.and_eq_false_imp]
  intro hat
  exact decide_eq_false (Nat.not_le.2 (ha hat))

/-- SHAPER_SET finds a running shaper, values that R318 allows, and a time to come where it has one. -/
structure Shapes (h : HalfId) (e : CmdEntry) (s : State) : Prop where
  taken : Taken h shaperSetSpec e none s
  rate : fld e 16 4 = 0xFFFFFFFF ∨ fld e 16 4 ≤ 25000000
  burst : fld e 20 4 = 0 ∨ fld e 20 4 ≤ 16777216 ∧ leastBurst h ((takeEntry h s).half h) e.handle ≤ fld e 20 4
  limit : fld e 24 4 = 0xFFFFFFFF ∨ fld e 24 4 ≤ 1000000
  zeros : checkReserved e [(16, 12)] = none
  runs : checkRunning ((takeEntry h s).half h) e.handle = none
  ahead : isAtTime e = true → ((takeEntry h s).half h).clk.now < atTimeOf e

/-- A field that holds its "keep" value, or a value up to its largest, is in range. -/
theorem keepOrAtMost_inRange {v keep largest : Nat} (hv : v = keep ∨ v ≤ largest) : (v != keep && decide (largest < v)) = false := by
  rcases hv with hv | hv
  · simp [hv]
  · simp [Nat.not_lt.2 hv]

/-- A burst of zero keeps the burst; any other fits the bucket and the largest datagram of the shaper's flows. -/
theorem Shapes.burstInRange (hs : Shapes h e s) :
    (fld e 20 4 != 0 && (decide (16777216 < fld e 20 4) || decide (fld e 20 4 < leastBurst h ((takeEntry h s).half h) e.handle))) = false := by
  rcases hs.burst with hb | ⟨hmost, hleast⟩
  · simp [hb]
  · simp [Nat.not_lt.2 hmost, Nat.not_lt.2 hleast]

/-- SHAPER_SET waits for its time, or applies its values now (R318). -/
theorem execShaperSet_replies (hs : Shapes h e s) :
    execShaperSet h e s = .next (finish h 0x0520 e (if isAtTime e
      then .later [] (addDeferred h 0x0520 e (atTimeOf e) (takeEntry h s))
      else .ok [] (shaperSetDo h e (takeEntry h s)))) := by
  refine next_congr ((runCmd_taken hs.taken _).trans ?_)
  dsimp only
  rw [guarded_passes (by
    simp only [firstFail_cons_none, firstFail_nil, bad6_none, keepOrAtMost_inRange hs.rate, hs.burstInRange,
      keepOrAtMost_inRange hs.limit, hs.zeros, hs.runs, checkTime_ahead hs.ahead, and_self])]
  rfl

/-- Two updates of one port are one. -/
theorem updPort_updPort (n : Nat) (f g : PortSt → PortSt) (x : Half) : updPort n g (updPort n f x) = updPort n (fun p => g (f p)) x := by
  simp only [updPort, List.modify_modify_eq]
  rfl

/-- GATE_REBASE without a time of its own arms the list of a port in service from the first cycle start of its new base (R327). -/
theorem execGateRebase_arms {r : Record} {n start : Nat} (ht : Taken h gateRebaseSpec e none s) (hz : checkReserved e [(16, 8)] = none)
    (hc : checkRunning ((takeEntry h s).half h) e.handle = none) (ha : isAtTime e = false)
    (hrec : r = ((takeEntry h s).half h).record e.handle) (hn : n = rd r 16 4 % 65536)
    (hstart : start = gateStart (fld e 16 8) (rd r 24 4) ((takeEntry h s).half h).clk.now ((takeEntry h s).half h).clk.now)
    (hr : (((takeEntry h s).half h).net.getD n {}).flags.retired = false) :
    execGateRebase h e s = .next (complete h 0x0521 e stOk false 0 (le 8 start) ((takeEntry h s).upd h (updPort n (fun q => { q with
      nextGate := some { list := hIndex (recHandle r), entries := gateEntries r, cycle := rd r 24 4, start := start, cause := 2 }
      rebase := some (fld e 16 8) })))) := by
  subst hn hrec
  refine next_congr ((runCmd_taken ht _).trans ?_)
  dsimp only
  rw [guarded_passes (by
    simp only [firstFail_cons_none, firstFail_nil, failIf_none, hz, hc, hr, checkTime_untimed _ ha, and_self])]
  simp only [ha, entryTime, Bool.false_eq_true, if_false, Option.getD_none, gateArm, ← hstart, finish_ok]
  exact congrArg (complete h 0x0521 e stOk false 0 _) (upd_congr (updPort_updPort _ _ _ _))

end

/-- Settles O10: a taken command passes its checks, and its body is the lemma above on it. -/
theorem pacingCommands : Obligations.PacingCommands := by
  rintro h e s _ _ rfl rfl hc hahead
  refine ⟨?shaper, ?rebase⟩
  case shaper =>
    rintro _ rfl ht hrate hburst hlimit hz
    refine (execShaperSet_replies ⟨ht, hrate, hburst, hlimit, hz, hc, hahead⟩).trans (next_congr ?_)
    cases isAtTime e <;> rfl
  case rebase =>
    rintro r n start _ hrec hn hstart rfl ha ht hz hr
    exact execGateRebase_arms ht hz hc ha hrec hn hstart hr

end Sys2Proof.Machine
end

section
/-!
PROOFS. Channel commands: CHANNEL_INSPECT, BLOCK_RETIRE, CHANNEL_THAW and CHANNEL_RETRAIN (R355, R363 to R365).
-/
namespace Sys2Proof.Machine

section
variable {h : HalfId} {e : CmdEntry} {s : State}

/-- CHANNEL_INSPECT of a frozen channel writes its record and its queue to the host's buffer (R363). -/
theorem execChannelInspect_writes {f : FrozenRec} {bytes : List Byte} (hh : hHalf e.handle = h) (ht : Taken h channelInspectSpec e none s)
    (hz : checkReserved e [(16, 12)] = none) (hf : (chanAt ((takeEntry h s).half h) (channelOf e)).frozen = some f)
    (hb : bytes = inspectBytes h ((takeEntry h s).half h) (channelOf e) f (chanAt ((takeEntry h s).half h) (channelOf e)).queue) :
    execChannelInspect h e .ok s = .next (complete h 0x0601 e stOk true 0 (le 4 bytes.length)
      (hostWrite (fld e 16 8) bytes (takeEntry h s))) := by
  subst hb
  refine next_congr ((runCmd_taken ht _).trans ?_)
  rw [guarded_passes (by simp [hh, hz])]
  simp only [hf, replyBuffer_ok]
  rfl

/-- BLOCK_RETIRE names one to five blocks of the channel's usable space, in service, within the 256 of its list (R364). -/
structure Retires (h : HalfId) (e : CmdEntry) (s : State) (k : Nat) (fresh : List Nat) : Prop where
  taken : Taken h blockRetireSpec e none s
  here : hHalf e.handle = h
  number : k = fld e 16 2
  long : 8 + 8 * k ≤ e.len.toNat
  oneAtLeast : 1 ≤ k
  fiveAtMost : k ≤ 5
  zeros : checkReserved e [(16, 2), (24, 8 * k)] = none
  blocks : ∀ i < k, fld e (24 + 8 * i) 8 % 65536 = 0 ∧ fld e (24 + 8 * i) 8 < usableBytes ((takeEntry h s).half h)
  inService : (chanAt ((takeEntry h s).half h) (channelOf e)).flags.retired = false
  list : fresh = unionNew (chanAt ((takeEntry h s).half h) (channelOf e)).retiredBlocks ((List.range k).map (fun i => fld e (24 + 8 * i) 8))
  room : fresh.length ≤ 256

/-- No block of the entry is refused. -/
theorem Retires.noBadBlock {k : Nat} {fresh : List Nat} (hr : Retires h e s k fresh) :
    (List.range k).find? (fun i => fld e (24 + 8 * i) 8 % 65536 != 0 ||
      decide (usableBytes ((takeEntry h s).half h) ≤ fld e (24 + 8 * i) 8)) = none := by
  rw [List.find?_eq_none]
  intro i hi
  obtain ⟨haligned, hinside⟩ := hr.blocks i (List.mem_range.1 hi)
  simp [haligned, hinside]

/-- The blocks join the channel's list, and the regions that hold one leave it. -/
theorem execBlockRetire_retires {k : Nat} {fresh : List Nat} (hr : Retires h e s k fresh) :
    execBlockRetire h e s = .next (complete h 0x0602 e stOk false 0 [] (settle h (leaveBlocks h (channelOf e)
      ((takeEntry h s).upd h (updChannel (channelOf e) (fun c => { c with retiredBlocks := fresh })))))) := by
  have hnone := hr.noBadBlock
  obtain ⟨ht, hh, rfl, hl, h1, h5, hz, -, hs, rfl, hroom⟩ := hr
  refine next_congr ((runCmd_taken ht _).trans ?_)
  dsimp only
  rw [guarded_passes (by simp [hnone, hh, hl, hz, hs, hroom, h5, Nat.ne_of_gt h1])]
  rfl

/-- CHANNEL_THAW of a frozen channel in service lets it run, if it is forced or the block of the error is retired (R365). -/
theorem execChannelThaw_thaws {f : FrozenRec} (hh : hHalf e.handle = h) (ht : Taken h channelThawSpec e none s)
    (hz : checkReserved e [(16, 1)] = none) (hs : (chanAt ((takeEntry h s).half h) (channelOf e)).flags.retired = false)
    (hf : (chanAt ((takeEntry h s).half h) (channelOf e)).frozen = some f)
    (hforced : fld e 16 1 ≠ 0 ∨ f.address / 65536 * 65536 ∈ (chanAt ((takeEntry h s).half h) (channelOf e)).retiredBlocks) :
    execChannelThaw h e s = .next (complete h 0x0603 e stOk false 0 []
      (settle h (leaveBlocks h (channelOf e) (thaw h (channelOf e) f (takeEntry h s))))) := by
  refine next_congr ((runCmd_taken ht _).trans ?_)
  dsimp only
  rw [guarded_passes (by simp [hh, hz, hs]), hf]
  dsimp only
  rw [if_neg (by simpa [or_iff_not_imp_left] using hforced)]
  rfl

/-- CHANNEL_RETRAIN of a channel that may retrain starts a retrain at once (R355). -/
theorem execChannelRetrain_starts (hh : hHalf e.handle = h) (ht : Taken h channelRetrainSpec e none s)
    (hz : checkReserved e [] = none) (hs : (chanAt ((takeEntry h s).half h) (channelOf e)).flags.retired = false)
    (hf : (chanAt ((takeEntry h s).half h) (channelOf e)).frozen = none) (hm : mayRetrain ((takeEntry h s).half h) (channelOf e) = true) :
    execChannelRetrain h e s = .next (complete h 0x0604 e stOk false 0 [] ((takeEntry h s).upd h (retrainRun (channelOf e)))) := by
  refine next_congr ((runCmd_taken ht _).trans ?_)
  dsimp only
  rw [guarded_passes (by simp [hh, hz, hs, hf])]
  exact congrArg (complete h 0x0604 e stOk false 0 []) (upd_congr (if_pos hm))

end

/-- Settles O11: a taken command passes its checks, and its body is the lemma above on it. -/
theorem channelCommands : Obligations.ChannelCommands := by
  rintro h e s _ _ rfl rfl hh
  refine ⟨fun f bytes ht hz hf hb => execChannelInspect_writes hh ht hz hf hb, ?retire,
    fun f ht hz hs hf hforced => execChannelThaw_thaws hh ht hz hs hf hforced,
    fun ht hz hs hf hm => execChannelRetrain_starts hh ht hz hs hf hm⟩
  case retire =>
    intro k fresh hk hfresh ht hl h1 h5 hz hblocks hs hroom
    exact execBlockRetire_retires ⟨ht, hh, hk, hl, h1, h5, hz, hblocks, hs, hfresh, hroom⟩

end Sys2Proof.Machine
end

section
/-!
PROOFS. Host accesses through the windows: BAR0, BAR2, BAR4 and the MSI-X table (R340, R406, R546, R549).
-/
namespace Sys2Proof.Machine

/-! What a counted event leaves of a half. -/

@[simp] theorem hostMay_count (h : HalfId) (blk code k : Nat) (x : Half) (a n : Nat) :
    hostMay h (count blk code k x) a n = hostMay h x a n := by
  obtain ⟨c, hc⟩ := count_eq blk code k x
  rw [hc]
  rfl

@[simp] theorem inHole_count (blk code k : Nat) (x : Half) (a : Nat) : inHole (count blk code k x) a = inHole x a := by
  obtain ⟨c, hc⟩ := count_eq blk code k x
  rw [hc]
  rfl

@[simp] theorem onFrozen_count (blk code k : Nat) (x : Half) (a : Nat) : onFrozen (count blk code k x) a = onFrozen x a := by
  rw [onFrozen, count_dch, onFrozen]

/-! BAR4. -/

section
variable {h : HalfId} {s : State} {o n a : Nat}

/-- `n` bytes at BAR4 offset `o`, inside the BAR, are those of a host-accessible region from `a` on, of a channel that runs (R340, R549). -/
structure Bar4Reaches (h : HalfId) (x : Half) (o n a : Nat) : Prop where
  address : a = bar4Address x.dram o
  inside : o + n ≤ x.dram.bar4Size
  allowed : hostMay h x a n = true
  runs : onFrozen x a = false
  placed : inHole x a = false

/-- Counting the access changes nothing of what it reaches. -/
theorem Bar4Reaches.counted {x : Half} (hr : Bar4Reaches h x o n a) (blk code k : Nat) : Bar4Reaches h (count blk code k x) o n a := by
  obtain ⟨ha, hi, hm, hf, hp⟩ := hr
  exact ⟨by rw [count_dram, ha], by rwa [count_dram], by rwa [hostMay_count], by rwa [onFrozen_count], by rwa [inHole_count]⟩

/-- A read reads device memory, once the fills that it waits for are done. -/
theorem bar4Do_reads (hr : Bar4Reaches h (s.half h) o n a) :
    bar4Do h (.read o n) s = s.upd h (fun y => { fillsEnd a n y with lastRead := devRead a n y }) := by
  obtain ⟨rfl, hi, hm, hf, hp⟩ := hr
  simp [bar4Do, Nat.not_lt.2 hi, hm, hf, hp]

/-- A write reaches device memory. -/
theorem bar4Do_writes {bytes : List Byte} (hr : Bar4Reaches h (s.half h) o bytes.length a) :
    bar4Do h (.write o bytes) s = s.upd h (devWrite a bytes) := by
  obtain ⟨rfl, hi, hm, hf, hp⟩ := hr
  simp [bar4Do, Nat.not_lt.2 hi, hm, hf, hp]

end

/-! BAR2. -/

/-- Bytes that all lie in CMDQ or ASQ land, and none is noted (R546). -/
theorem bar2Do_lands {o : Nat} {bytes : List Byte} (hw : ∀ i < bytes.length, bar2Writable (i + o) = true)
    (hr : ∀ i < bytes.length, bar2ReadOnly (i + o) = false) (x : Half) :
    bar2Do o bytes x = { x with rings := { x.rings with mem := memWriteEn o (bytes.map (fun b => (b, true))) x.rings.mem } } := by
  have hzip : bytes.zip (((List.range bytes.length).map (· + o)).map bar2Writable) = bytes.map (fun b => (b, true)) := by
    refine List.ext_getElem (by simp) fun i hi _ => ?_
    have hlt : i < bytes.length := by simpa using hi
    simp [hw i hlt]
  have hnone : ((List.range bytes.length).map (· + o)).any bar2ReadOnly = false := by
    simpa using hr
  simp only [bar2Do, hzip, hnone, Bool.false_eq_true, if_false]

/-! The MSI-X table. -/

/-- A vector with a held message sends it when it is unmasked (R406). -/
theorem msixMaskWrite_sends {h : HalfId} {s : State} {v : Nat} (hv : v < 256) (hp : (s.half h).pcie.pba.getLsbD v = true) :
    msixMaskWrite h v false s = emit h (.msix h v) (s.upd h (fun y => { y with pcie := { y.pcie with
      msixMask := setBit y.pcie.msixMask v false, pba := setBit y.pcie.pba v false } })) := by
  simp [msixMaskWrite, Nat.not_le.2 hv, hp]

/-- Settles O22: the access is counted, and what it then does is the lemma above on it. -/
theorem windowWrites : Obligations.WindowWrites := by
  rintro h s w _ rfl hh hw
  refine ⟨fun v => ?base, fun v => ?ringErr, fun o n a ha hi hm hf hp => ?read, fun o bytes a ha hi hm hf hp => ?write,
    fun o bytes hwr hro => ?bar2, fun v hv hp => hostWriteTo_lands hw hh (msixMaskWrite_sends hv ?held)⟩
  case base => exact congrArg (fun t => settled h t) (by rw [hw]; exact if_pos hh)
  case ringErr => exact congrArg (fun t => settled h t) (by rw [hw]; exact if_pos hh)
  case read =>
    have hr : Bar4Reaches h ((s.upd h (count 31 0x11 1)).half h) o n a := by
      rw [half_upd_self]
      exact Bar4Reaches.counted ⟨ha, hi, hm, hf, hp⟩ _ _ _
    exact next_congr ((if_pos hh).trans (bar4Do_reads hr))
  case write =>
    have hr : Bar4Reaches h (w.half h) o bytes.length a := by
      rw [hw, half_upd_self]
      exact Bar4Reaches.counted ⟨ha, hi, hm, hf, hp⟩ _ _ _
    exact hostWriteTo_lands hw hh (bar4Do_writes hr)
  case bar2 => exact hostWriteTo_lands hw hh (upd_congr (bar2Do_lands hwr hro _))
  case held => rw [hw, half_upd_self, count_pcie, hp]

end Sys2Proof.Machine
end

section
/-!
PROOFS. Retraining, evacuation and the reserve (R336, R350 to R355).
-/
namespace Sys2Proof.Machine

section
variable {h : HalfId} {s : State} {n : Nat} {t : TrainSt}

/-! The start of a retrain. -/

/-- A repeat, or a time that the host gave, has come: the hardware retrains. -/
theorem execRetrainStart_reached {k : Nat} (ht : t = (chanAt (s.half h) n).train) (hm : mayRetrain (s.half h) n = true)
    (hr : t.repeatAt = some k ∨ t.runAt = some k) (hk : k ≤ (s.half h).clk.now) :
    execRetrainStart h n s = .next (s.upd h (retrainRun n)) := by
  subst ht
  have hreached : ((chanAt (s.half h) n).train.repeatAt.any (fun k => decide (k ≤ (s.half h).clk.now)) ||
      (chanAt (s.half h) n).train.runAt.any (fun k => decide (k ≤ (s.half h).clk.now))) = true := by
    rcases hr with hr | hr <;> simp [hr, hk]
  refine next_congr ?_
  simp only [hm, hreached, Bool.not_true, Bool.false_eq_true, if_false, if_true]

/-- A retrain is due under the schedule, and no repeat and no time of the host waits (R352, R355). -/
structure Scheduled (h : HalfId) (s : State) (n : Nat) (t : TrainSt) (due : Nat) : Prop where
  train : t = (chanAt (s.half h) n).train
  may : mayRetrain (s.half h) n = true
  noRepeat : t.repeatAt = none
  noTime : t.runAt = none
  due : retrainDue h (s.half h) n = some due

/-- The host's mode alone decides who begins: the hardware retrains, or the host is asked once. -/
theorem execRetrainStart_scheduled {due d : Nat} (hs : Scheduled h s n t due) (hd : d = due + retrainNs h (s.half h) n) :
    execRetrainStart h n s = .next (
      if modeHost (s.half h) fnRetrain (channelH h n) = false then s.upd h (retrainRun n)
      else if t.asked.isSome = true then s
      else asrRequest h { kind := 0x0B08, tag := 0, handle := channelH h n, sequence := t.requests, time := d, payload := [] } d
        (s.upd h (updTrain n (fun q => { q with asked := some (q.requests, d), requests := (q.requests + 1) % 0x100000000 })))) := by
  obtain ⟨rfl, hm, hrep, htime, hdue⟩ := hs
  subst hd
  refine next_congr ?_
  simp only [hm, hrep, htime, hdue, Option.any_none, Option.isSome_none, Bool.or_self, Bool.or_false, Bool.not_true, Bool.false_eq_true,
    if_false, Bool.not_eq_true']

/-! The end of a retrain. -/

/-- Sixteen lanes that all pass take the centres of their windows, and the failures are forgotten (R352). -/
theorem execRetrainDone_passes {lanes : List LaneSweep} (hr : (chanAt (s.half h) n).train.retraining = true) (hl : lanes.length = 16)
    (hp : ∀ l ∈ lanes, sweepPass l = true) :
    execRetrainDone h n lanes s = .next (settle h (s.upd h (updTrain n (fun q => { q with
      retraining := false, lanes := sweepTaps q.lanes lanes, last := (s.half h).clk.now, lastTemp := q.temp, fails := 0 })))) := by
  have hall : (lanes.length == 16 && lanes.all sweepPass) = true := by simpa [hl] using hp
  refine settled_congr ?_
  simp only [hr, hall, Bool.not_true, Bool.false_eq_true, if_false, if_true]

/-- The channel after its `k`-th failure in a row: it keeps its settings, reports, and repeats the retrain after 1 ms up to the fourth (R353). -/
def retrainFailed (h : HalfId) (n : Nat) (lanes : List LaneSweep) (k : Nat) (s : State) : State :=
  event h 0x0605 sevWarning (channelH h n)
    (le 4 k ++ le 4 (packBits (lanes.map (fun l => !sweepPass l))) ++ le 4 (unsigned 32 (chanAt (s.half h) n).train.temp))
    (s.upd h (updTrain n (fun q => { q with
      retraining := false, fails := k, last := (s.half h).clk.now, lastTemp := q.temp
      repeatAt := if k < 4 then some ((s.half h).clk.now + 1000000) else none })))

/-- A retrain with a lane that does not pass, or without sixteen, fails; after the fourth failure source 22 + n latches and, unless the host
decides, the channel is evacuated. -/
theorem execRetrainDone_fails {lanes : List LaneSweep} {k : Nat} {v : State} (hr : (chanAt (s.half h) n).train.retraining = true)
    (hl : lanes.length ≠ 16 ∨ ∃ l ∈ lanes, sweepPass l = false) (hk : k = (chanAt (s.half h) n).train.fails % 4 + 1)
    (hv : v = retrainFailed h n lanes k s) :
    execRetrainDone h n lanes s = .next (settle h (
      if k < 4 then v
      else if modeHost ((latchHw 6 h (22 + n) false v).half h) fnReaction (mkHandle 0x0E h (22 + n)) = true then latchHw 6 h (22 + n) false v
      else evacBegin h n 0 (latchHw 6 h (22 + n) false v))) := by
  have hall : (lanes.length == 16 && lanes.all sweepPass) = false := by
    rcases hl with hl | ⟨l, hmem, hl⟩
    · simp [hl]
    · rw [List.all_eq_false.2 ⟨l, hmem, by simp [hl]⟩, Bool.and_false]
  subst hk hv
  refine settled_congr ?_
  simp only [hr, hall, Bool.not_true, Bool.false_eq_true, if_false]
  rfl

/-- The host stayed silent until the deadline: that is reported, and the hardware retrains if the channel still may (R355). -/
theorem execRetrainDeadline_silent {seq d : Nat} {v : State} (ha : (chanAt (s.half h) n).train.asked = some (seq, d))
    (hd : d ≤ (s.half h).clk.now) (hv : v = assistLate h 0x0B08 0 (channelH h n) seq d 1 s) :
    execRetrainDeadline h n s = .next (if mayRetrain (v.half h) n then v.upd h (retrainRun n)
      else v.upd h (updTrain n (fun t => { t with asked := none }))) := by
  subst hv
  refine next_congr ?_
  rw [ha]
  refine (if_neg (Nat.not_lt.2 hd)).trans ?_
  split
  · next hm => exact upd_congr (if_pos hm)
  · next hm => exact upd_congr (if_neg hm)

/-! Evacuation and the reserve. -/

/-- A region's copy ends on the first channel that evacuates, whose region in hand it is (R354). -/
theorem execRegionCopyDone_first {c : ChannelSt} {v : EvacSt} {region : Nat} {l : Nat × Nat} {rest : List (Nat × Nat × Nat)}
    (hfirst : ∀ k < n, (chanAt (s.half h) k).evac = none) (hc : (s.half h).dch[n]? = some c) (hv : c.evac = some v)
    (hcopy : v.copying = true) (hl : v.left = (region, l) :: rest) :
    execRegionCopyDone h region s = .next (settle h (regionCopied h n s)) := by
  obtain ⟨hlt, -⟩ := List.getElem?_eq_some_iff.1 hc
  have hfind : (List.range (s.half h).dch.length).find? (fun k => ((chanAt (s.half h) k).evac).any
      (fun v => v.copying && (v.left.head?).any (fun l => l.1 == region))) = some n := by
    rw [List.find?_range_eq_some]
    refine ⟨by simp [chanAt_of_getElem? hc, hv, hcopy, hl], List.mem_range.2 hlt, fun k hk => by simp [hfirst k hk]⟩
  refine settled_congr ?_
  simp only [hfind]

/-- The reserve stands in the place it moved to (R336). -/
theorem execReserveMoved_stands {old o c a started : Nat} {copied : Bool} (hr : (s.half h).dram.reserve = some (old, o))
    (hm : (s.half h).dram.reserveMove = some (c, a, started, copied)) :
    execReserveMoved h s = .next (settle h (event h 0x0611 sevWarning (channelH h c)
      (le 4 old ++ le 8 a ++ le 4 (if copied then 1 else 2) ++ le 8 ((s.half h).clk.now - started))
      (s.upd h (fun y => { y with dram := { y.dram with reserve := some (c, a), reserveMove := none } })))) := by
  refine settled_congr ?_
  simp only [hr, hm]

end

/-- Settles O40: each event is due, or its retrain runs, under its clause's hypotheses, which choose a case of the lemma above on it. -/
theorem trainingEvents : Obligations.TrainingEvents := by
  rintro h s _ n t rfl ht
  refine ⟨fun hm hrep htime => ⟨fun due hdue hmode => ?hardware, fun due d hdue hmode hasked hd => ?host⟩,
    fun k hm hr hk => execRetrainStart_reached ht hm hr hk, fun lanes hr => ⟨fun hl hp => ?passes, fun v k hl hk hv => ?fails⟩,
    fun seq d v ha hd hv => ?silent, fun c region v l rest hfirst hc hv hcopy hl => execRegionCopyDone_first hfirst hc hv hcopy hl,
    fun old o c a started copied hr hm => execReserveMoved_stands hr hm⟩
  case hardware => exact (execRetrainStart_scheduled ⟨ht, hm, hrep, htime, hdue⟩ rfl).trans (next_congr (if_pos hmode))
  case host =>
    refine (execRetrainStart_scheduled ⟨ht, hm, hrep, htime, hdue⟩ hd).trans (next_congr ?_)
    rw [if_neg (by simp [hmode]), if_neg (by simp [hasked])]
  all_goals subst ht
  case passes => exact execRetrainDone_passes hr hl hp
  case fails =>
    have hx := execRetrainDone_fails hr hl hk hv
    refine ⟨fun hlt => hx.trans (next_congr (congrArg _ (if_pos hlt))), fun h4 hmode => hx.trans (next_congr (congrArg _ ?_))⟩
    rw [if_neg (by omega), if_neg (by simp [hmode])]
  case silent => exact execRetrainDeadline_silent ha hd hv

end Sys2Proof.Machine
end

section
/-!
PROOFS. Pools: allocation, adds and releases, rebuilt lists and supply requests (R372 to R376, R380).
-/
namespace Sys2Proof.Machine

/-! Allocation (R375, R376). -/

section
variable {h : HalfId} {s : State} {stop size n : Nat} {pool0 : Bool}

/-- The first pool of the order that can serve gives the buffer; a request that reaches pool 0 is counted. -/
theorem poolAlloc_serves {p : Nat} (hp : (poolOrder pool0 size).find? (poolServes (s.half h)) = some p) :
    (poolAlloc h stop pool0 size n s).1 = poolTake h p stop n (if p = 0 then s.upd h (count 26 0x15 1) else s) := by
  simp only [poolAlloc, hp, beq_iff_eq]

/-- Where no pool of the order can serve, the first is where the request is refused. -/
theorem poolAlloc_refuses (hp : (poolOrder pool0 size).find? (poolServes (s.half h)) = none) :
    (poolAlloc h stop pool0 size n s).1 = poolRefuse h ((poolOrder pool0 size).getD 0 1) stop size s := by
  simp only [poolAlloc, hp]

/-- A request of 1 to 255 references to 1 byte to 4 MiB, out of reset, is tried. -/
theorem execPoolAllocate_tries (hr : (s.half h).boot.inReset = false) (h1 : 1 ≤ n) (hn : n ≤ 255) (hs1 : 1 ≤ size) (hs : size ≤ 0x400000) :
    execPoolAllocate h stop pool0 size n s = .next (poolAlloc h stop pool0 size n s).1 :=
  next_congr (if_pos (by simp [hr, h1, hn, hs1, hs]))

/-- The retry of an encode engine in service is a request from its cluster's stop. -/
theorem execPoolAllocRetry_tries {engine : Nat} {g : EngineSt} (hg : (s.half h).enc[engine]? = some g) (he : engine < 8)
    (hret : g.flags.retired = false) (hr : (s.half h).boot.inReset = false) (h1 : 1 ≤ n) (hn : n ≤ 255) (hs1 : 1 ≤ size) (hs : size ≤ 0x400000) :
    execPoolAllocRetry h engine size n s = .next (poolAlloc h (encClusterOf engine) false size n s).1 :=
  next_congr (if_pos (by simp [hg, Config.encEngines, he, hret, hr, h1, hn, hs1, hs]))

end

/-! Adds and releases (R372, R373). -/

section
variable {h : HalfId} {s : State} {stop a p i c : Nat}

/-- The address is that of buffer `i` of pool `p`, held with `c` references, and of no old buffer. -/
structure HeldBuffer (x : Half) (a p i c : Nat) : Prop where
  notOld : poolOld x a = none
  found : poolFind x a = some (p, i)
  held : heldCount (poolOf x p) i = some c

/-- An add raises the count, or is refused where that would exceed 255. -/
theorem poolAddDo_held (hb : HeldBuffer (s.half h) a p i c) (n : Nat) :
    poolAddDo h stop a n s = if 255 < c + n then poolCorrupt h p 3 a stop s
      else s.upd h (updPool p (fun q => { q with held := mapWhere (fun e => e.1 == i) (fun _ => (i, c + n)) q.held })) := by
  obtain ⟨ho, hf, hh⟩ := hb
  simp only [poolAddDo, ho, hf, hh]

/-- The release of a buffer with no reference left is refused as a double free. -/
theorem poolReleaseDo_unreferenced (hb : HeldBuffer (s.half h) a p i 0) : poolReleaseDo h stop a s = poolCorrupt h p 1 a stop s := by
  obtain ⟨ho, hf, hh⟩ := hb
  simp only [poolReleaseDo, ho, hf, hh]

/-- The release of one of `c + 1` references counts; that of the last frees the buffer. -/
theorem poolReleaseDo_held (hb : HeldBuffer (s.half h) a p i (c + 1)) {v : State}
    (hv : v = s.upd h (fun y => count 26 0x11 1 (updPool p (fun q => { q with releases := sat32 q.releases }) y))) :
    poolReleaseDo h stop a s = if c = 0 then poolFree h p i a v
      else v.upd h (updPool p (fun q => { q with held := mapWhere (fun e => e.1 == i) (fun _ => (i, c)) q.held })) := by
  obtain ⟨ho, hf, hh⟩ := hb
  subst hv
  simp only [poolReleaseDo, ho, hf, hh, beq_iff_eq]

/-- Out of reset an add is made. -/
theorem execPoolAdd_running (hr : (s.half h).boot.inReset = false) (n : Nat) : execPoolAdd h stop a n s = .next (poolAddDo h stop a n s) :=
  next_congr (if_neg (by simp [hr]))

/-- Out of reset a release is made. -/
theorem execPoolRelease_running (hr : (s.half h).boot.inReset = false) : execPoolRelease h stop a s = .next (poolReleaseDo h stop a s) :=
  next_congr (if_neg (by simp [hr]))

end

/-! Rebuilt lists and unanswered requests (R374, R380). -/

/-- Changes of a half that leave its clock, made in turn, leave it. -/
theorem foldl_clk {α : Type} {g : Half → α → Half} (l : List α) (x : Half) (hg : ∀ x a, (g x a).clk = x.clk) : (l.foldl g x).clk = x.clk := by
  induction l generalizing x with
  | nil => rfl
  | cons a l ih => exact (ih _).trans (hg x a)

theorem fillEnd_clk (block : Nat) (x : Half) : (fillEnd block x).clk = x.clk := by
  unfold fillEnd
  split <;> rfl

theorem picsEnd_clk (a n : Nat) (x : Half) : (picsEnd a n x).clk = x.clk := by
  unfold picsEnd
  exact foldl_clk _ _ fun _ _ => rfl

theorem fillsEnd_clk (a n : Nat) (x : Half) : (fillsEnd a n x).clk = x.clk :=
  (foldl_clk _ _ fun x b => fillEnd_clk b x).trans (picsEnd_clk a n x)

@[simp] theorem devWrite_clk (a : Nat) (bytes : List Byte) (x : Half) : (devWrite a bytes x).clk = x.clk := by
  simp only [devWrite, fillsEnd_clk]

@[simp] theorem threadList_clk (p : Nat) (q : PoolSt) (is : List Nat) (x : Half) : (threadList p q is x).1.clk = x.clk := by
  induction is with
  | nil => rfl
  | cons i is ih => exact (devWrite_clk ..).trans ih

@[simp] theorem poolThread_clk (p : Nat) (x : Half) : (poolThread p x).clk = x.clk := threadList_clk ..

section
variable {h : HalfId} {s : State} {p : Nat}

/-- A rebuild that ends on a channel that runs leaves the list threaded anew, and is reported with its duration. -/
theorem execPoolRebuilt_ends {q : PoolSt} (hq : q = poolOf (s.half h) p) (hb : q.rebuilding = true)
    (hf : (chanAt (s.half h) (chanOf q.base)).frozen = none) :
    execPoolRebuilt h p s = .next (event h 0x060E sevInfo (mkHandle 0x0D h p)
      (le 4 (freeCount q) ++ le 4 ((s.half h).clk.now - q.rebuildSince))
      (s.upd h (fun y => count 26 0x14 1 (updPool p (fun q => { q with rebuilding := false, rebuilds := sat32 q.rebuilds }) (poolThread p y))))) := by
  subst hq
  have hruns : (((s.half h).dch.getD (chanOf (poolOf (s.half h) p).base) {}).frozen).isSome = false := by
    rw [← chanAt, hf, Option.isSome_none]
  refine next_congr ?_
  simp only [hb, hruns, Bool.not_true, Bool.or_self, Bool.false_eq_true, if_false, State.now, half_upd_self, count_clk, updPool_clk, poolThread_clk]

/-- A supply request whose deadline has passed is reported late and no longer waits. -/
theorem execPoolSupplyDeadline_late {d : Nat} (ha : (poolOf (s.half h) p).supplyAsked = some d) (hd : d ≤ (s.half h).clk.now) :
    execPoolSupplyDeadline h p s = .next (assistLate h 0x0B06 0 (mkHandle 0x0D h p) 0 d 1
      (s.upd h (updPool p (fun q => { q with supplyAsked := none })))) := by
  refine next_congr ?_
  rw [ha]
  exact if_neg (Nat.not_lt.2 hd)

end

/-- Settles O41: each clause's hypotheses choose a case of the lemma above on its command. -/
theorem poolEvents : Obligations.PoolEvents := by
  rintro h s _ rfl hr
  refine ⟨?allocate, ?retry, ?held, fun p q hq hb hf => execPoolRebuilt_ends hq hb hf, fun p d ha hd => execPoolSupplyDeadline_late ha hd⟩
  case allocate =>
    rintro stop pool0 size n _ h1 hn hs1 hs rfl
    have hx : exec (.poolAllocate h stop pool0 size n) s = _ := execPoolAllocate_tries hr h1 hn hs1 hs
    exact ⟨fun p hp h0 => hx.trans (next_congr ((poolAlloc_serves hp).trans (by rw [if_neg h0]))),
      fun hp => hx.trans (next_congr (poolAlloc_serves hp)), fun hp => hx.trans (next_congr (poolAlloc_refuses hp))⟩
  case retry =>
    intro engine g size n p hg he hret h1 hn hs1 hs hp h0
    exact (execPoolAllocRetry_tries hg he hret hr h1 hn hs1 hs).trans (next_congr ((poolAlloc_serves hp).trans (by rw [if_neg h0])))
  case held =>
    intro stop a n p i c ho hf hc
    have hb : HeldBuffer (s.half h) a p i c := ⟨ho, hf, hc⟩
    have hadd : exec (.poolAdd h stop a n) s = _ := execPoolAdd_running hr n
    have hrel : exec (.poolRelease h stop a) s = _ := execPoolRelease_running hr
    rw [poolAddDo_held hb] at hadd
    refine ⟨fun hn => hadd.trans (next_congr (if_neg (Nat.not_lt.2 hn))), fun hn => hadd.trans (next_congr (if_pos hn)), fun v hv => ?_⟩
    cases c with
    | zero => exact ⟨fun _ => hrel.trans (next_congr (poolReleaseDo_unreferenced hb)), fun hn => absurd hn (by decide), fun hn => absurd hn (by decide)⟩
    | succ c =>
      rw [poolReleaseDo_held hb hv] at hrel
      exact ⟨fun hn => absurd hn (Nat.succ_ne_zero c), fun hn => hrel.trans (next_congr (if_pos (by omega))),
        fun hn => hrel.trans (next_congr (if_neg (by omega)))⟩

end Sys2Proof.Machine
end

section
/-!
PROOFS. The register writes of DMA channels (R385 to R390).
-/
namespace Sys2Proof.Machine

/-! The registers of a DMA channel (R385, R386, R388). -/

section
variable {h : HalfId} {s : State} {c : Nat}

/-- A kick of a channel that runs marks a recheck. -/
theorem dmaKickDo_running (hc : c < 31) (hr : ((s.half h).dma.channels.getD c {}).running = true) :
    dmaKickDo h c s = s.upd h (fun x => updChan c (fun d => { d with recheck := true }) (count 27 0x13 1 x)) := by
  simp only [dmaKickDo, beq_eq_false_iff_ne.2 hc.ne, hr, Bool.false_eq_true, if_false, if_true, upd_upd]

/-- A kick of an enabled channel that stands, after a write of its DMA_CHAIN, reads the chain's first descriptor. -/
theorem dmaKickDo_starts {d : DmaChan} (hc : c < 31) (hd : d = (s.half h).dma.channels.getD c {}) (hr : d.running = false)
    (he : d.enable = true) (hf : d.chainWritten = true) :
    dmaKickDo h c s = readDescriptor h c d.chain (s.upd h (fun x => updChan c (fun d => { d with chainWritten := false }) (count 27 0x13 1 x))) := by
  subst hd
  simp only [dmaKickDo, beq_eq_false_iff_ne.2 hc.ne, hr, he, hf, Bool.not_true, Bool.false_eq_true, if_false, if_true, upd_upd]

/-- A write of DMA_CHAIN is taken unless the channel runs. -/
theorem dmaChainDo_written (hc : c < 31) (a : W64) : dmaChainDo h c a s = s.upd h (updChan c (fun d =>
    if d.running then { d with chainIgnored := true } else { d with chain := a, chainWritten := true })) :=
  if_neg (by simp [hc.ne])

/-- ENABLE written as 1 acts at once unless the channel still quiesces. -/
theorem dmaCtrlDo_enables (hc : c < 31) (ns : Bool) : dmaCtrlDo h c true ns s = s.upd h (updChan c (fun d =>
    if d.quiescing then { d with noSnoop := ns, lateEnable := true } else { d with noSnoop := ns, enable := true })) :=
  if_neg (by simp [hc.ne])

/-- DISABLE drops the channel; what it leaves undefined takes two free values. -/
theorem dmaDisableDo_drops (hc : c < 31) :
    dmaDisableDo h c s = { s.upd h (fun x => updChan c (dmaDrop x.dma.errValid s.free) x) with free := s.free + 2 } :=
  if_neg (by simp [hc.ne])

end

/-- Settles O20: each write lands, and does on a channel below 31 what its lemma above says. -/
theorem dmaRegisterWrites : Obligations.DmaRegisterWrites := by
  intro h c s w d hc hw hd hh
  have hdma : (w.half h).dma = (s.half h).dma := by rw [hw, half_upd_self, count_dma]
  have hfree : w.free = s.free := by rw [hw, upd_free]
  rw [← hdma] at hd
  have hlands {f : State → State} {t : State} (hf : f w = t) : (.next (if c < 32 then hostWriteTo h f s else s) : Out) = .next t :=
    (next_congr (if_pos (by omega))).trans (hostWriteTo_lands hw hh hf)
  refine ⟨fun hr => hlands (dmaKickDo_running hc (hd ▸ hr)), fun hr he hf => hlands (dmaKickDo_starts hc hd hr he hf),
    fun a => hlands (dmaChainDo_written hc a), fun ns => hlands (dmaCtrlDo_enables hc ns), hlands ?_, hostWriteTo_lands hw hh rfl⟩
  rw [dmaDisableDo_drops hc, hfree]

end Sys2Proof.Machine
end

section
/-!
PROOFS. DMA transfers: descriptors, read data, ends and errors (R382, R386 to R389).
-/
namespace Sys2Proof.Machine

section
variable {h : HalfId} {s : State} {n : Nat} {d : DmaChan}

theorem getD_channels {x : Half} (hd : x.dma.channels[n]? = some d) : x.dma.channels.getD n {} = d := by
  rw [List.getD_eq_getElem?_getD, hd, Option.getD_some]

/-! A descriptor comes in (R383, R386). -/

/-- What a descriptor names: source, destination, length, control word and next descriptor (R382). -/
structure DescNames (b : List Byte) (source dest : W64) (len control : Nat) (next : W64) : Prop where
  source : source = BitVec.ofNat 64 (rd b 0 8)
  dest : dest = BitVec.ofNat 64 (rd b 8 8)
  length : len = rd b 16 4
  control : control = rd b 20 4
  next : next = BitVec.ofNat 64 (rd b 24 8)

/-- The channel takes up the transfer of a descriptor; `waits` says that its data has to come from host memory. -/
def takeTransfer (n : Nat) (source dest : W64) (len control : Nat) (next : W64) (waits : Bool) (y : Half) : Half :=
  updChan n (fun d => { d with
    source := source, dest := dest, length := len, control := BitVec.ofNat 32 control, nextDesc := next
    phase := if waits then .moving else .writing, outstanding := b2n waits, oldestRead := y.clk.now }) y

/-- A faulty descriptor stops the channel; any other starts its transfer, and host memory is asked for data that it holds. -/
theorem descStart_reads {bytes b : List Byte} {source dest next : W64} {len control : Nat} {waits : Bool}
    (hd : (s.half h).dma.channels[n]? = some d)
    (hb : b = if isDev d.cur then dmaSource h d.cur 32 [] (s.half h) else pad 32 bytes) (hn : DescNames b source dest len control next)
    (hw : waits = (!isDev source && len != 0)) :
    descStart h n bytes s =
      if descFaulty source dest next control then descStop h n control s
      else if waits then
        hostRead h n (BitVec.ofNat 64 (source.toNat / 64 * 64)) ((source.toNat % 64 + len + 63) / 64 * 64) (d.noSnoop && control.testBit 2)
          (s.upd h (takeTransfer n source dest len control next waits))
      else s.upd h (takeTransfer n source dest len control next waits) := by
  obtain ⟨rfl, rfl, rfl, rfl, rfl⟩ := hn
  subst hw
  simp only [descStart, getD_channels hd, ← hb]
  rfl

/-- The read of a descriptor that lies on no frozen channel returns to channel `n`; `w` is the state once an answer of host memory is counted. -/
structure DescriptorReturns (h : HalfId) (s : State) (n : Nat) (d : DmaChan) (w : State) : Prop where
  channel : (s.half h).dma.channels[n]? = some d
  runs : isDev d.cur = false ∨ onFrozen (s.half h) (devPart d.cur) = false
  counted : w = if isDev d.cur = true ∨ d.outstanding = 0 then s else s.upd h (count 31 0x12 1)

section
variable {w : State} {bytes : List Byte}

theorem DescriptorReturns.noError (hr : DescriptorReturns h s n d w) : (isDev d.cur && onFrozen (s.half h) (devPart d.cur)) = false := by
  rcases hr.runs with hf | hf <;> simp [hf]

/-- Counting the answer leaves the channel. -/
theorem DescriptorReturns.channel_counted (hr : DescriptorReturns h s n d w) : (w.half h).dma.channels[n]? = some d := by
  rw [hr.counted]
  split
  · exact hr.channel
  · rw [half_upd_self, count_dma, hr.channel]

theorem execDmaDescriptorFetched_fetching (hr : DescriptorReturns h s n d w) (hp : d.phase = .fetching) :
    execDmaDescriptorFetched h n bytes s = .next (descStart h n bytes w) := by
  refine next_congr ?_
  simp only [getD_channels hr.channel, Bool.and_assoc, hr.noError, Bool.and_false, hp, Bool.false_eq_true, if_false, hr.counted, Bool.or_eq_true,
    beq_iff_eq]

theorem execDmaDescriptorFetched_rechecking (hr : DescriptorReturns h s n d w) (hp : d.phase = .rechecking) :
    execDmaDescriptorFetched h n bytes s = .next (descAgain h n bytes w) := by
  refine next_congr ?_
  simp only [getD_channels hr.channel, Bool.and_assoc, hr.noError, Bool.and_false, hp, Bool.false_eq_true, if_false, hr.counted, Bool.or_eq_true,
    beq_iff_eq]

end

/-! Read data (R388). -/

variable {w : State} {bytes : List Byte}

/-- A completion that no read awaits is counted alone. -/
theorem readArrives_unawaited (hd : (s.half h).dma.channels[n]? = some d) (hw : w = s.upd h (count 31 0x12 1)) (ho : d.outstanding = 0) :
    readArrives h n bytes s = w := by
  subst hw
  simp only [readArrives, half_upd_self, count_dma, getD_channels hd, ho, beq_self_eq_true, if_true]

/-- The data of a dropped channel is discarded; its last read ends the wait unless DMA_ERR stands. -/
theorem readArrives_dropped (hd : (s.half h).dma.channels[n]? = some d) (hw : w = s.upd h (count 31 0x12 1)) (ho : d.outstanding ≠ 0)
    (hr : d.running = false) :
    readArrives h n bytes s = w.upd h (fun y => updChan n (fun d => { d with
      outstanding := d.outstanding - 1, quiescing := d.outstanding != 1 || y.dma.errValid }) y) := by
  subst hw
  simp only [readArrives, half_upd_self, count_dma, getD_channels hd, beq_eq_false_iff_ne.2 ho, hr, Bool.not_false, Bool.false_eq_true, if_false, if_true]

/-- The data of a transfer moves to its destination. -/
theorem readArrives_moves (hd : (s.half h).dma.channels[n]? = some d) (hw : w = s.upd h (count 31 0x12 1)) (ho : d.outstanding ≠ 0)
    (hr : d.running = true) (hp : d.phase = .moving) (he : dmaMeetsError (w.half h) d = false) :
    readArrives h n bytes s = (dmaDeliver h d.dest (pad d.length bytes) w).upd h (fun y =>
      count 27 0x10 ((d.length + 63) / 64) (updChan n (fun d => { d with outstanding := 0, phase := .writing }) y)) := by
  subst hw
  rw [half_upd_self] at he
  simp only [readArrives, half_upd_self, count_dma, getD_channels hd, beq_eq_false_iff_ne.2 ho, hr, hp, he, bne_self_eq_false, Bool.not_true,
    Bool.false_eq_true, if_false]

/-! The end of a transfer (R387). -/

/-- A transfer whose data device memory holds moves it now; then the descriptor ends. -/
theorem execDmaDescriptorComplete_ends (hd : (s.half h).dma.channels[n]? = some d) (hp : d.phase = .writing)
    (he : dmaMeetsError (s.half h) d = false) :
    execDmaDescriptorComplete h n s = .next (descEnd h n (if isDev d.source then
        (deniedUnits h (s.half h) (devPart d.source) d.length).foldl (fun t u => bar4Deny h u t)
          (dmaDeliver h d.dest (dmaSource h d.source d.length [] (s.half h)) s)
      else s)) := by
  refine next_congr ?_
  simp only [getD_channels hd, hp, he, bne_self_eq_false, Bool.false_eq_true, if_false]
  exact (apply_ite (descEnd h n) ..).symm

/-! Errors (R389). -/

/-- A bus error of a channel that runs stops every channel. -/
theorem execDmaBusError_running (hd : (s.half h).dma.channels[n]? = some d) (hr : d.running = true) (cause : Nat) (a : W64) (desc : Bool) :
    execDmaBusError h n cause a desc s =
      .next (dmaBusFail h cause a desc (s.upd h (updChan n (fun d => { d with outstanding := 0 })))) := by
  refine next_congr ?_
  simp only [getD_channels hd, hr, Bool.true_or, if_true]

/-- A read unanswered for 10 ms is a bus error of a channel that runs; a dropped channel waits no more. -/
theorem execDmaCompletionTimeout_unanswered {t : State} (hd : (s.half h).dma.channels[n]? = some d) (ho : d.outstanding ≠ 0)
    (hlate : d.oldestRead + 10000000 ≤ (s.half h).clk.now) (ht : t = s.upd h (updChan n (fun d => { d with outstanding := 0 }))) :
    execDmaCompletionTimeout h n s = .next (if d.running then
        dmaBusFail h 3 (if d.phase = .moving then d.source else d.cur) (d.phase != .moving) t
      else t.upd h (fun y => updChan n (fun d => { d with quiescing := y.dma.errValid }) y)) := by
  subst ht
  refine next_congr ?_
  simp only [getD_channels hd, beq_eq_false_iff_ne.2 ho, Bool.false_or, decide_eq_true_eq, Nat.not_lt.2 hlate, if_false, beq_iff_eq]

end

/-- Settles O42: each clause's hypotheses choose a case of the lemma above on its command. -/
theorem dmaEvents : Obligations.DmaEvents := by
  rintro h s _ n d rfl hd
  refine ⟨fun bytes w hf hw => ⟨?starts, fun hp => execDmaDescriptorFetched_rechecking ⟨hd, hf, hw⟩ hp⟩,
    fun bytes w hw => ⟨fun ho => next_congr (readArrives_unawaited hd hw ho), fun ho hr => next_congr (readArrives_dropped hd hw ho hr),
      fun ho hr hp he => next_congr (readArrives_moves hd hw ho hr hp he)⟩,
    fun hp he => ?completes, fun cause a desc hr => execDmaBusError_running hd hr cause a desc, fun ho hlate t ht => ?timeout⟩
  case starts =>
    intro b source dest len control next hp hb hsource hdest hlen hcontrol hnext
    have hr : DescriptorReturns h s n d w := ⟨hd, hf, hw⟩
    have hx : exec (.dmaDescriptorFetched h n bytes) s = _ := execDmaDescriptorFetched_fetching hr hp
    rw [hx, descStart_reads hr.channel_counted hb ⟨hsource, hdest, hlen, hcontrol, hnext⟩ rfl]
    refine ⟨fun hfault => ?_, fun hfault hnone => ?_, fun hfault hhost hlen => ?_⟩
    · rw [if_pos hfault]
    · have hwaits : (!isDev source && len != 0) = false := by rcases hnone with hn | hn <;> simp [hn]
      rw [if_neg (by simp [hfault]), hwaits]
      rfl
    · have hwaits : (!isDev source && len != 0) = true := by simp [hhost, hlen]
      rw [if_neg (by simp [hfault]), hwaits]
      rfl
  case completes =>
    have hx := execDmaDescriptorComplete_ends hd hp he
    exact ⟨fun hs => hx.trans (by rw [if_neg (by simp [hs])]), fun hs => hx.trans (by rw [if_pos hs])⟩
  case timeout =>
    have hx := execDmaCompletionTimeout_unanswered hd ho hlate ht
    refine ⟨fun hr hp => hx.trans ?_, fun hr hp => hx.trans ?_, fun hr => hx.trans ?_⟩
    · rw [if_pos hr, if_pos hp, hp]
      rfl
    · rw [if_pos hr, if_neg hp, bne_iff_ne.2 hp]
    · rw [if_neg (by simp [hr])]

end Sys2Proof.Machine
end

section
/-!
PROOFS. The LEAD_PREF strap: what a boot samples (R510).
-/
namespace Sys2Proof.Machine

/-- What keeps everything outside the halves keeps the strap. -/
theorem leadPref_of_shell {s t : State} (ht : t.shell = s.shell) : t.leadPref = s.leadPref := congrArg (fun p => p.2.1) ht

section
variable (h : HalfId) (s : State)

@[simp] theorem event_leadPref (code sev : Nat) (src : Handle) (detail : List Byte) : (event h code sev src detail s).leadPref = s.leadPref :=
  leadPref_of_shell (event_shell ..)

@[simp] theorem primerLatch_leadPref : (primerLatch h s).leadPref = s.leadPref := leadPref_of_shell (primerLatch_shell ..)

@[simp] theorem primerHalt_leadPref (code : Nat) : (primerHalt h code s).leadPref = s.leadPref := leadPref_of_shell (primerHalt_shell ..)

@[simp] theorem startTraining_leadPref (f : BootFacts) (board : BoardDesc) : (startTraining h f board s).leadPref = s.leadPref :=
  leadPref_of_shell (startTraining_shell ..)

@[simp] theorem keelStart_leadPref (b trial other : Bool) : (keelStart h b trial other s).leadPref = s.leadPref :=
  leadPref_of_shell (keelStart_shell ..)

@[simp] theorem joinLead_leadPref : (joinLead h s).leadPref = s.leadPref := leadPref_of_shell (joinLead_shell ..)

@[simp] theorem tick1_leadPref : s.tick1.leadPref = s.leadPref := rfl

end

/-- The boot that ends PORST_N samples LEAD_PREF; any other boot leaves it (R510). -/
theorem bootHalf_leadPref (h : HalfId) (f : BootFacts) (s : State) :
    (bootHalf h f s).leadPref = if s.porstLow then f.leadPref else s.leadPref := by
  unfold bootHalf
  extract_lets clk sampled released reverted revA revB flash retired fuses failA failB skip judged reject revert
  have hskip (code : Nat) (t : State) : (skip code t).leadPref = t.leadPref := by
    simp only [skip, apply_ite State.leadPref, upd_leadPref, primerLatch_leadPref, ite_self]
  have hreject (n code : Nat) (t : State) : (reject n code t).leadPref = t.leadPref := by
    simp only [reject, apply_ite State.leadPref, event_leadPref, ite_self]
  have hrevert (n : Nat) (on : Bool) (t : State) : (revert n on t).leadPref = t.leadPref := by
    simp only [revert, apply_ite State.leadPref, event_leadPref, ite_self]
  have hjudged : judged.leadPref = if s.porstLow then f.leadPref else s.leadPref := by
    simp only [judged, hskip, retired, released, upd_leadPref, sampled, apply_ite State.leadPref]
  rw [← hjudged]
  clear_value judged reject revert
  split
  · exact primerHalt_leadPref ..
  · simp only [apply_ite State.leadPref, upd_leadPref, primerHalt_leadPref, startTraining_leadPref, keelStart_leadPref, joinLead_leadPref, event_leadPref,
      tick1_leadPref, hreject, hrevert, ite_self]

/-- PORST_N is low, and nothing has happened since reset. -/
def porstHeld : State := { State.reset with porstLow := true }

/-- PORST_N can fall right after reset. -/
theorem exec_porstAssert_reset : exec .porstAssert State.reset = .next porstHeld := rfl

/-- Out of reset pins, brown-out and shutdown, RESET_RELEASE is a boot. -/
theorem exec_resetRelease_porstHeld (h : HalfId) (f : BootFacts) : exec (.resetRelease h f) porstHeld = .next (bootHalf h f porstHeld) := by
  cases h <;> rfl

/-- Refutes O50: its clause on the strap fails, because the strap is sampled as PORST_N rises (R510). With PORST_N low and a board that drives
LEAD_PREF west, the release of a half takes the strap from east to west. -/
theorem not_commandsStayInside : ¬ Obligations.CommandsStayInside := by
  unfold Obligations.CommandsStayInside
  intro hi
  obtain ⟨-, hstrap, -, -⟩ := hi (.resetRelease .east { leadPref := .west }) porstHeld _ (exec_resetRelease_porstHeld ..)
  rw [bootHalf_leadPref] at hstrap
  exact absurd hstrap (by decide)

end Sys2Proof.Machine
end

section
/-!
PROOFS. The parity of interrupt entries (R415), the counter reel (R426 to R430) and the host link (R406, R555, R556).
-/
namespace Sys2Proof.Machine

/-! An entry that fails parity (R415). -/

/-- Entry n fails parity, and the first failure names its source. -/
def entryFails (n : Nat) (x : Half) : Half :=
  { x with icu := { x.icu with
      badParity := addNew n x.icu.badParity, paritySource := if x.icu.parityErr then x.icu.paritySource else n, parityErr := true } }

/-- Firmware writes entry n again: one that the host owns is cleared. -/
def entryRewritten (n : Nat) (x : Half) : Half :=
  { x with icu := { x.icu with
      badParity := x.icu.badParity.filter (fun k => k != n), cfg := if icuHostOwned n then x.icu.cfg.set n 0 else x.icu.cfg } }

section
variable {h : HalfId} {s v w : State} {n : Nat}

/-- A present source's entry is evaluated as it fails and again as it is rewritten, with source 32 latched in between. -/
theorem icuParityFail_present {injected : Bool} (hn : icuReserved n = false)
    (hv : v = icuEval h n ((latchHw 6 h 32 injected (icuEval h n (s.upd h (entryFails n)))).upd h (entryRewritten n))) :
    icuParityFail h n injected s = if icuHostOwned n then event h 0x0830 sevAlarm 0 (le 2 n) v else v := by
  subst hv
  exact if_neg (by simp [hn])

/-- The failure reaches a half out of reset, and disarms the checker that may have injected it. -/
theorem execIcuParityFailure_reaches (hn : n < 512) (hr : (s.half h).boot.inReset = false) :
    execIcuParityFailure h n s = .next (icuParityFail h n (armedMask (s.half h) 0x1C != 0) (s.upd h (disarm 0x1C))) :=
  next_congr (if_pos (by simp [hn, hr]))

/-! The counter reel (R426 to R430). -/

/-- A running reel of exposure r reaches an instant that it has not written, and its region stands at p. -/
structure SnapshotDue (h : HalfId) (x : Half) (r : Record) (p : Placement) (instant : Nat) : Prop where
  exposed : exposure h x = some r
  running : x.ctr.reel.running = true
  region : rd r 32 4 ≠ 0
  period : rd r 36 4 ≠ 0
  instantIs : instant = x.clk.now / rd r 36 4 * rd r 36 4
  unwritten : x.ctr.reel.first = true ∨ x.ctr.reel.lastInstant < instant
  placed : placedAt x (rd r 32 4 % 0x10000) = some p

/-- A due snapshot is written, unless its write fails or meets a frozen channel, which stops the reel. -/
theorem execCounterSnapshot_due {r : Record} {p : Placement} {instant : Nat} (hd : SnapshotDue h (s.half h) r p instant) (writeOk : Bool) :
    execCounterSnapshot h writeOk s = .next (if !writeOk || onFrozen (s.half h) (placeAddr p) then reelStop h s
      else reelSnapshot h r (placeAddr p) instant s) := by
  obtain ⟨hexp, hrun, hreg, hper, rfl, hnew, hplace⟩ := hd
  have hnew : (!(s.half h).ctr.reel.first && decide ((s.half h).clk.now / rd r 36 4 * rd r 36 4 ≤ (s.half h).ctr.reel.lastInstant)) = false := by
    rcases hnew with hfirst | hlater
    · rw [hfirst]; rfl
    · rw [decide_eq_false (Nat.not_le.2 hlater), Bool.and_false]
  refine next_congr ?_
  simp only [hexp, hrun, beq_eq_false_iff_ne.2 hreg, beq_eq_false_iff_ne.2 hper, hnew, hplace, Bool.not_true, Bool.or_self, Bool.false_eq_true,
    if_false]

/-! The host link (R406, R555). -/

/-- A link that goes down while firmware runs latches source 36. -/
theorem execPcieLinkDown_running (hl : (s.half h).pcie.linkUp = true) (hr : (s.half h).boot.inReset = false) (hb : (s.half h).boot.stage = 7) :
    execPcieLinkDown h s =
      .next (settle h (latchHw 6 h 36 false (s.upd h (fun x => { x with pcie := { x.pcie with linkUp := false } })))) := by
  refine next_congr (congrArg (settle h) ?_)
  simp only [hl, hr, hb, Bool.not_true, bne_self_eq_false, Bool.or_self, Bool.false_eq_true, if_false]

/-- A link that comes up lets first the east and then the west controller evaluate what waits. -/
theorem execPcieLinkUp_returns (hl : (s.half h).pcie.linkUp = false)
    (hv : v = s.upd h (fun x => { x with pcie := { x.pcie with linkUp := true } }))
    (hw : w = icuEvalAll .east (icuPending v.east.icu) v) :
    execPcieLinkUp h s = .next (icuEvalAll .west (icuPending w.west.icu) w) := by
  rw [hw, hv]
  unfold execPcieLinkUp
  rw [if_neg (ne_true_of_eq_false hl)]

end

/-- Settles O43: the entry's failure reaches its half, the snapshot is due, and the link's loss and return are the lemmas above on them; the
unmasked error and the hot reset have no guard. -/
theorem entryAndLinkEvents : Obligations.EntryAndLinkEvents := by
  refine ⟨?keel, ?link⟩
  case keel =>
    rintro h s _ rfl
    refine ⟨fun n v hn hres hr hv => (execIcuParityFailure_reaches hn hr).trans (next_congr (icuParityFail_present hres hv)), ?_⟩
    intro r p instant hexp hrun hreg hper hinst hnew hplace
    have hdue := execCounterSnapshot_due ⟨hexp, hrun, hreg, hper, hinst, hnew, hplace⟩
    exact ⟨fun hf => (hdue true).trans (by rw [hf]; rfl), hdue false⟩
  case link =>
    rintro h s _ rfl
    exact ⟨execPcieLinkDown_running, fun v w => execPcieLinkUp_returns, rfl, rfl⟩

end Sys2Proof.Machine
end

section
/-!
PROOFS. Device commands: IDENTIFY, HALF_RESET, EVENT_RATE_SET and OVERBOOK_SET (R53, R488, R564 to R567), and the command at the front of
the queue.
-/
namespace Sys2Proof.Machine

/-- Settles O1: with a command in the queue, the step is that command on the rest. -/
theorem stepRunsFront : Obligations.StepRunsFront := fun _ _ _ => rfl

section
variable {h : HalfId} {e : CmdEntry} {s : State}

/-- A change that finds nothing to change leaves the state. -/
theorem upd_unchanged {f : Half → Half} (hf : f (s.half h) = s.half h) : s.upd h f = s := by
  cases h <;> exact congrArg (s.setHalf _) hf

/-- The keel that takes a command runs, so its half is out of reset. -/
theorem Taken.running {o : OpSpec} {r : Option RefFetch} (ht : Taken h o e r s) : ((takeEntry h s).half h).boot.inReset = false := by
  have ha := ht.1
  simp only [keelFree, Bool.and_eq_true] at ha
  rw [takeEntry_boot]
  exact inReset_of_alive ha.1.1

/-- A half out of reset stops its tether now and enters reset 100 µs later (R488). -/
theorem resetSoon_running (hr : (s.half h).boot.inReset = false) (kind : Nat) :
    resetSoon h kind s = (stopTether h s).upd h (fun x => { x with boot := { x.boot with
      resetAt := some (x.clk.now + 100000), resetKind := kind } }) :=
  if_neg (by simp [hr])

/-- IDENTIFY answers with the page that it names (R564). -/
theorem execIdentify_answers (ht : Taken h identifySpec e none s) (hp : fld e 16 1 ≤ 2) (hz : checkReserved e [(16, 1)] = none) :
    execIdentify h e s = .next (complete h 0x0101 e stOk false 0 (identifyPage ((takeEntry h s).half h) (fld e 16 1)) (takeEntry h s)) := by
  refine next_congr ((runCmd_taken ht _).trans ?_)
  rw [guarded_passes (by simp [hp, hz])]
  rfl

/-- HALF_RESET of the own half (R488). -/
theorem execHalfReset_own (ht : Taken h halfResetSpec e none s) (hk : fld e 16 1 = 0) (hz : checkReserved e [(16, 1)] = none) :
    execHalfReset h e s = .next (complete h 0x0102 e stOk false 0 [] (resetSoon h 2 (takeEntry h s))) := by
  refine next_congr ((runCmd_taken ht _).trans ?_)
  dsimp only
  rw [guarded_passes (by simp [hk, hz]), hk]
  rfl

/-- HALF_RESET of the partner half asks for the lead (R488, R565). -/
theorem execHalfReset_partner (ht : Taken h halfResetSpec e none s) (hk : fld e 16 1 = 1) (hz : checkReserved e [(16, 1)] = none)
    (hl : checkLead ((takeEntry h s).half h) = none) :
    execHalfReset h e s = .next (complete h 0x0102 e stOk false 0 [] (resetSoon h.other 3 (takeEntry h s))) := by
  refine next_congr ((runCmd_taken ht _).trans ?_)
  dsimp only
  rw [guarded_passes (by simp [hk, hz, hl]), hk]
  rfl

/-- EVENT_RATE_SET answers with the rate and burst before it, and caps the tokens at the new burst (R53, R566). -/
theorem execEventRateSet_sets (ht : Taken h eventRateSetSpec e none s) (hr : 1000 ≤ fld e 16 4) (hr' : fld e 16 4 ≤ 100000)
    (hb : 16 ≤ fld e 20 2) (hb' : fld e 20 2 ≤ 1024) (hz : checkReserved e [(16, 6)] = none) :
    execEventRateSet h e s = .next (complete h 0x0103 e stOk false 0
      (le 4 ((takeEntry h s).half h).ev.rate ++ le 2 ((takeEntry h s).half h).ev.burst)
      ((takeEntry h s).upd h (fun x => { x with ev := { evRefill x.clk.now x.ev with
        rate := fld e 16 4, burst := fld e 20 2
        balance := min (evRefill x.clk.now x.ev).balance (fld e 20 2 * 1000000000) } }))) := by
  refine next_congr ((runCmd_taken ht _).trans ?_)
  dsimp only
  rw [guarded_passes (by simp [Nat.not_lt.2 hr, Nat.not_lt.2 hr', Nat.not_lt.2 hb, Nat.not_lt.2 hb', hz])]
  rfl

/-- OVERBOOK_SET of one cluster answers with the cluster's declared charge and whether it is beyond the new limit (R567). -/
theorem execOverbookSet_sets {k : Nat} {v : State} (ht : Taken h overbookSetSpec e none s) (hk : fld e 16 1 = k) (hk' : k ≤ 1)
    (hb : 10 ≤ fld e 17 1) (hb' : fld e 17 1 ≤ 80) (hz : checkReserved e [(16, 2)] = none)
    (hv : v = (takeEntry h s).upd h (updCluster k (fun c => { c with overbook := fld e 17 1 }))) :
    execOverbookSet h e s = .next (complete h 0x0104 e stOk false 0
      (le 4 ((v.half h).obj.clusters.getD k {}).declared ++ le 1 (b2n (chargeOver (v.half h) k))) v) := by
  have hboth : (k == 0xFF) = false := by rw [beq_eq_false_iff_ne]; omega
  have hsel : clusterSel k = [k] := by simp [clusterSel, hboth]
  refine next_congr ((runCmd_taken ht _).trans ?_)
  dsimp only
  rw [guarded_passes (by simp [hk, Nat.not_lt.2 hk', Nat.not_lt.2 hb, Nat.not_lt.2 hb', hz]), hk, hsel]
  simp only [List.foldl_cons, List.foldl_nil, ← hv, hboth, List.any_cons, List.any_nil, Bool.or_false, Bool.false_eq_true, if_false]
  rfl

end

/-- Settles O2: a taken command passes its checks, and its body is the lemma above on it. -/
theorem deviceCommands : Obligations.DeviceCommands := by
  rintro h e s _ rfl
  refine ⟨execIdentify_answers, ?own, ?partner, execEventRateSet_sets,
    fun k ht hk hk' hb hb' hz v hv => execOverbookSet_sets ht hk hk' hb hb' hz hv⟩
  case own =>
    intro ht hk hz
    rw [← resetSoon_running ht.running]
    exact execHalfReset_own ht hk hz
  case partner =>
    intro ht hk hz hl hf hr
    rw [← resetSoon_running hr]
    exact execHalfReset_partner ht hk hz (by simp [checkLead, hl, hf])

end Sys2Proof.Machine
end

section
/-!
PROOFS. Counter commands: COUNTER_PROGRAM and COUNTER_READ (R424, R578).
-/
namespace Sys2Proof.Machine

section
variable {h : HalfId} {e : CmdEntry} {s : State}

/-- COUNTER_PROGRAM names a block in service, events that R418 gives it, chains of odd counters alone, and no reserved bit (R424, R578). -/
structure Programs (h : HalfId) (e : CmdEntry) (s : State) : Prop where
  taken : Taken h counterProgramSpec e none s
  block : fld e 16 1 < 36
  flags : fld e 18 1 < 8
  zero : fld e 19 1 = 0
  given : (fld e 18 1).testBit 2 = true ∨ ∀ i < 8, (fld e 17 1).testBit i = true → codeGiven (fld e 16 1) (fld e (20 + i) 1) = true
  noChain0 : fld e 29 1 % 2 = 0
  noChain2 : (fld e 29 1).testBit 2 = false
  noChain4 : (fld e 29 1).testBit 4 = false
  noChain6 : (fld e 29 1).testBit 6 = false
  zeros : fld e 30 2 = 0
  inService : blockRetired ((takeEntry h s).half h) (fld e 16 1) = false

/-- No selected counter takes an event that its block does not have. -/
theorem Programs.codesGiven (hp : Programs h e s) : (!((fld e 18 1).testBit 2) && ((List.range 8).any (fun i =>
    (fld e 17 1).testBit i && !codeGiven (fld e 16 1) (fld e (20 + i) 1)))) = false := by
  rcases hp.given with hkeep | hgiven
  · rw [hkeep]; rfl
  · rw [Bool.and_eq_false_imp]
    intro _
    rw [List.any_eq_false]
    intro i hi
    cases hm : (fld e 17 1).testBit i with
    | false => simp
    | true => simp [hgiven i (List.mem_range.1 hi) hm]

/-- The selected counters of the block are programmed in one clock (R424). -/
theorem execCounterProgram_programs (hp : Programs h e s) :
    execCounterProgram h e s = .next (complete h 0x0701 e stOk false 0 (le 8 ((takeEntry h s).half h).clk.now)
      ((takeEntry h s).upd h (fun y => { y with ctr := { y.ctr with blocks := y.ctr.blocks.modify (fld e 16 1) (programBlock e) } }))) := by
  have hcodes := hp.codesGiven
  obtain ⟨ht, hb, hf, hz, -, h0, h2, h4, h6, hzs, hs⟩ := hp
  refine next_congr ((runCmd_taken ht _).trans ?_)
  dsimp only
  rw [guarded_passes (by simp [hcodes, Nat.not_le.2 hb, Nat.not_le.2 hf, hz, h0, h2, h4, h6, hzs, hs])]
  rfl

/-- COUNTER_READ answers with a block's values, its overflow bits and its number, and changes none (R578). -/
theorem execCounterRead_answers {c : CtrBlock} (ht : Taken h counterReadSpec e none s) (hb : fld e 16 1 < 36)
    (hz : checkReserved e [(16, 1)] = none) (hc : c = ((takeEntry h s).half h).ctr.blocks.getD (fld e 16 1) {}) :
    execCounterRead h e s = .next (complete h 0x0702 e stOk false 0 (blockValues c ++ le 1 c.ovf.toNat ++ le 1 (fld e 16 1))
      (takeEntry h s)) := by
  refine next_congr ((runCmd_taken ht _).trans ?_)
  dsimp only
  rw [guarded_passes (by simp [Nat.not_le.2 hb, hz]), ← hc]
  rfl

end

/-- Settles O13: a taken command passes its checks, and its body is the lemma above on it. -/
theorem counterCommands : Obligations.CounterCommands := by
  rintro h e s _ _ rfl rfl hb
  constructor
  · intro ht hf hz hg h0 h2 h4 h6 hzs hs
    exact execCounterProgram_programs ⟨ht, hb, hf, hz, hg, h0, h2, h4, h6, hzs, hs⟩
  · intro ht hz c hc
    exact execCounterRead_answers ht hb hz hc

end Sys2Proof.Machine
end

section
/-!
PROOFS. Fault commands: FAULT_READ, FAULT_CLEAR, FAULT_INJECT, FAULT_ACTION and UNIT_RETIRE (R436, R441, R442, R460, R579, R580).
-/
namespace Sys2Proof.Machine

section
variable {h : HalfId} {e : CmdEntry} {s : State}

/-- With no flag set FAULT_READ takes nothing. -/
theorem faultTaken_none (n : Nat) (s : State) : faultTaken h 0 n s = s := upd_unchanged (by simp only [Nat.zero_testBit]; rfl)

/-- With flag bit 0 alone FAULT_READ takes the records it has read. -/
theorem faultTaken_records (n : Nat) (s : State) :
    faultTaken h 1 n s = s.upd h (fun y => { y with ev := { y.ev with alarms := y.ev.alarms.drop n } }) := rfl

/-- FAULT_READ without an address answers with FLT_STATUS and the number of records (R579). -/
theorem execFaultRead_answers (ht : Taken h (faultReadSpec e) e none s) (ha : fld e 16 8 = 0) (hf : fld e 28 4 = 0) (b : BusResult) :
    execFaultRead h e b s = .next (complete h 0x0801 e stOk false 0
      (le 8 ((takeEntry h s).half h).flt.status.toNat ++ le 2 ((takeEntry h s).half h).ev.alarms.length ++ le 2 0) (takeEntry h s)) := by
  refine next_congr ((runCmd_taken ht _).trans ?_)
  dsimp only
  rw [guarded_passes (by simp [hf]), ha, hf, if_pos (beq_self_eq_true 0), faultTaken_none]
  rfl

/-- FAULT_READ with an address writes the counts and as many records as fit, and takes what its flags name (R579). -/
theorem execFaultRead_writes {n : Nat} (ht : Taken h (faultReadSpec e) e none s) (ha : fld e 16 8 ≠ 0) (hf : fld e 28 4 ≤ 3)
    (hn : n = min ((fld e 24 4 - 512) / 64) ((takeEntry h s).half h).ev.alarms.length) :
    execFaultRead h e .ok s = .next (complete h 0x0801 e stOk true 0
      (le 8 ((takeEntry h s).half h).flt.status.toNat ++ le 2 ((takeEntry h s).half h).ev.alarms.length ++ le 2 n)
      (faultTaken h (fld e 28 4) n (hostWrite (fld e 16 8) (faultBytes h ((takeEntry h s).half h) n) (takeEntry h s)))) := by
  refine next_congr ((runCmd_taken ht _).trans ?_)
  dsimp only
  rw [guarded_passes (by simp [Nat.not_lt.2 hf]), if_neg (by simpa using ha), ← hn, replyBuffer_ok]
  rfl

/-- FAULT_CLEAR clears the bits of its mask, and withdraws both interrupt sources of each that stood (R436). -/
theorem execFaultClear_clears {mask : Nat} {bits : List Nat} (ht : Taken h faultClearSpec e none s) (hm : mask = fld e 16 8)
    (hb : bits = (maskBits 50 mask).filter (fun n => ((takeEntry h s).half h).flt.status.getLsbD n)) :
    execFaultClear h e s = .next (complete h 0x0802 e stOk false 0 []
      (bits.foldl (fun v n => icuWithdraw h (192 + n) (icuWithdraw h n v))
        ((takeEntry h s).upd h (fun y => { y with flt := { y.flt with status := y.flt.status &&& ~~~(BitVec.ofNat 64 mask) } })))) := by
  subst hm hb
  exact next_congr (runCmd_taken ht _)

/-- FAULT_INJECT arms a checker that is not armed, of a unit in service (R442). -/
theorem execFaultInject_arms (ht : Taken h faultInjectSpec e none s) (hc : fld e 16 1 ≤ 0x1C) (hm : fld e 17 1 ≠ 0)
    (hs : sourceRetired ((takeEntry h s).half h) (checkerSource (fld e 16 1)) = false)
    (ha : armedMask ((takeEntry h s).half h) (fld e 16 1) = 0) :
    execFaultInject h e s = .next (complete h 0x0803 e stOk false 0 [] ((takeEntry h s).upd h (fun y => { y with flt := { y.flt with
      armed := y.flt.armed.filter (fun p => p.1 != fld e 16 1) ++ [(fld e 16 1, fld e 17 1)] } }))) := by
  refine next_congr ((runCmd_taken ht _).trans ?_)
  dsimp only
  rw [guarded_passes (by simp [Nat.not_lt.2 hc, hs, ha])]
  exact congrArg (complete h 0x0803 e stOk false 0 []) (upd_congr (if_neg (by simpa using hm)))

/-- FAULT_ACTION restarts or retires what awaits the host's decision, which then no longer waits (R441). -/
theorem execFaultAction_decides (ht : Taken h faultActionSpec e none s) (hsrc : fld e 16 1 ≤ 49) (hact : fld e 17 1 = 1 ∨ fld e 17 1 = 2)
    (hw : awaitsHost ((takeEntry h s).half h) (fld e 16 1) = true) :
    execFaultAction h e s = .next (complete h 0x0804 e stOk false 0 [] (settle h (
      if fld e 17 1 == 1 then restartSource h (fld e 16 1) ((takeEntry h s).upd h (decided (fld e 16 1)))
      else retireSource h (fld e 16 1) 2 ((takeEntry h s).upd h (decided (fld e 16 1)))))) := by
  have haction : (fld e 17 1 != 1 && fld e 17 1 != 2) = false := by rcases hact with hact | hact <;> rw [hact] <;> rfl
  refine next_congr ((runCmd_taken ht _).trans ?_)
  dsimp only
  rw [guarded_passes (by simp [Nat.not_lt.2 hsrc, haction, hw])]
  rfl

/-! UNIT_RETIRE (R580). -/

variable {w : Handle}

/-- The handle 0 retires the half. -/
theorem execUnitRetire_half (ht : Taken h unitRetireSpec e none s) (hw : BitVec.ofNat 32 (fld e 16 4) = (0 : Handle)) :
    execUnitRetire h e s = .next (complete h 0x0805 e stOk false 0 [] (retireHalf h 3 (takeEntry h s))) := by
  refine next_congr ((runCmd_taken ht _).trans ?_)
  dsimp only
  rw [if_pos (by rw [hw]; rfl)]
  rfl

/-- A unit of this half in service retires. -/
theorem execUnitRetire_unit {src : Nat} (ht : Taken h unitRetireSpec e none s) (hw : w = BitVec.ofNat 32 (fld e 16 4)) (h0 : w ≠ 0)
    (hsrc : handleSource h w = some src) (hr : sourceRetired ((takeEntry h s).half h) src = false) :
    execUnitRetire h e s = .next (complete h 0x0805 e stOk false 0 [] (settle h (retireNow h src (takeEntry h s)))) := by
  refine next_congr ((runCmd_taken ht _).trans ?_)
  dsimp only
  rw [← hw, if_neg (by simpa using h0), hsrc]
  dsimp only
  rw [guarded_passes (by simp [hr])]
  rfl

/-- A unit already retired is refused. -/
theorem execUnitRetire_again {src : Nat} (ht : Taken h unitRetireSpec e none s) (hw : w = BitVec.ofNat 32 (fld e 16 4)) (h0 : w ≠ 0)
    (hsrc : handleSource h w = some src) (hr : sourceRetired ((takeEntry h s).half h) src = true) :
    execUnitRetire h e s = .next (completeFail h 0x0805 e { status := stRetired, step := 8, offset := 16 } (takeEntry h s)) := by
  refine next_congr ((runCmd_taken ht _).trans ?_)
  dsimp only
  rw [← hw, if_neg (by simpa using h0), hsrc]
  dsimp only
  rw [guarded_fails (by rw [hr]; rfl)]
  rfl

end

/-- Settles O58: the handle is 0, of a unit in service, or of one retired. -/
theorem retireCommand : Obligations.RetireCommand := by
  rintro h e s _ w rfl hw ht
  refine ⟨fun src h0 hsrc hr => execUnitRetire_unit ht hw h0 hsrc hr, ?half, fun src h0 hsrc hr => execUnitRetire_again ht hw h0 hsrc hr⟩
  case half =>
    rintro rfl
    exact execUnitRetire_half ht hw.symm

/-- Settles O14: a taken command passes its checks, and its body is the lemma above on it; an engine or pipe retires at its safe point. -/
theorem faultCommands : Obligations.FaultCommands := by
  rintro h e s _ _ rfl rfl
  refine ⟨fun ht ha hf => execFaultRead_answers ht ha hf .ok, ?read, fun mask bits hm hb ht => execFaultClear_clears ht hm hb,
    execFaultInject_arms, ?action, ?retire⟩
  case read =>
    intro n hn ht ha hf
    rw [← faultTaken_records, ← hf]
    exact execFaultRead_writes ht ha (by omega) hn
  case action =>
    rintro _ rfl ht hsrc hact hw
    simp only [← beq_iff_eq (a := fld e 17 1)]
    exact execFaultAction_decides ht hsrc hact hw
  case retire =>
    intro w src hw h0 hsrc hlt hr ht
    refine (execUnitRetire_unit ht hw h0 hsrc hr).trans (next_congr ?_)
    rw [retireNow, if_pos hlt]

end Sys2Proof.Machine
end

section
/-!
PROOFS. Sequencer commands: SEQ_TRACE, SEQ_HISTORY and DIAG_DUMP (R482 to R484, R577).
-/
namespace Sys2Proof.Machine

section
variable {h : HalfId} {e : CmdEntry} {s : State}

/-- What SEQ_TRACE needs in every mode: a sequencer's block, a running envelope, and no reserved byte (R482). -/
structure Traces (h : HalfId) (e : CmdEntry) (s : State) (src : Nat) : Prop where
  taken : Taken h seqTraceSpec e none s
  block : blockSource (fld e 16 1) = some src
  running : ((takeEntry h s).half h).env.running.isSome = true
  stop : fld e 18 1 ≤ 1
  zeros : checkReserved e [(16, 3), (20, 8), (32, 12)] = none

/-- SEQ_TRACE with mode 0 ends the trace (R482). -/
theorem execSeqTrace_ends {src : Nat} (hq : Traces h e s src) (hm : fld e 17 1 = 0) :
    execSeqTrace h e s = .next (complete h 0x0610 e stOk false 0 []
      ((takeEntry h s).upd h (fun y => { y with ctr := { y.ctr with trace := none } }))) := by
  obtain ⟨ht, hb, hr, hstop, hz⟩ := hq
  refine next_congr ((runCmd_taken ht _).trans ?_)
  dsimp only
  rw [guarded_passes (by simp [hb, hm, Nat.not_lt.2 hstop, hz, hr]), hm]
  rfl

/-- The buffer of a trace lies page by page in a placed region of the running envelope, and only a trace of taken branches reaches a unit that
serves an urgent context (R482, R483, R577). -/
structure TraceStarts (h : HalfId) (e : CmdEntry) (x : Half) (src : Nat) (region : Handle) (place : Placement) : Prop where
  mode : fld e 17 1 = 1 ∨ fld e 17 1 = 2
  calm : fld e 17 1 = 2 → (leavers h x src).any (fun p => urgentContext (x.record p.1)) = false
  startOk : addressOk (fld e 20 2) = true
  stopOk : addressOk (fld e 22 2) = true
  named : region = BitVec.ofNat 32 (fld e 24 4)
  type : hType region = 0x10
  noReserved : hReserved region = 0
  here : hHalf region = h
  index : hIndex region < 0xFF00
  offset : fld e 32 8 % 4096 = 0
  least : 8192 ≤ fld e 40 4
  most : fld e 40 4 ≤ 16777216
  pages : fld e 40 4 % 4096 = 0
  inService : sourceRetired x src = false
  record : x.record region ≠ []
  placed : placedAt x (hIndex region) = some place
  fits : fld e 32 8 + fld e 40 4 ≤ place.size

/-- The trace that SEQ_TRACE asks for. -/
def traceAsked (e : CmdEntry) (region : Handle) : TraceSt :=
  { block := fld e 16 1, mode := fld e 17 1, stopAtCheck := fld e 18 1 == 1, startAddr := fld e 20 2, stopAddr := fld e 22 2, region := region
    offset := fld e 32 8, size := fld e 40 4, recording := fld e 20 2 == 0xFFFF }

/-- A trace starts with its header in the buffer, unless the buffer lies on a frozen channel (R57, R482). -/
def traceBegun (t : TraceSt) (y : Half) : Half :=
  (fun z : Half => { z with ctr := { z.ctr with trace := some t } })
    (match traceBase y t with
     | some a => if onFrozen y a then y else devWrite a (traceHeader t) y
     | none => y)

/-- SEQ_TRACE with a mode starts a trace (R482, R483). -/
theorem execSeqTrace_starts {src : Nat} {region : Handle} {place : Placement} (hq : Traces h e s src)
    (hs : TraceStarts h e ((takeEntry h s).half h) src region place) :
    execSeqTrace h e s = .next (complete h 0x0610 e stOk false 0 [] ((takeEntry h s).upd h (traceBegun (traceAsked e region)))) := by
  obtain ⟨ht, hb, hr, hstop, hz⟩ := hq
  obtain ⟨hmode, hcalm, hstart, hend, rfl, htype, hres, hhere, hindex, hoff, hleast, hmost, hpages, hserv, hrec, hplace, hfits⟩ := hs
  have hon : (fld e 17 1 != 0) = true := by rcases hmode with hm | hm <;> rw [hm] <;> rfl
  have hbit : (fld e 18 1).testBit 0 = (fld e 18 1 == 1) := by
    have hcases : fld e 18 1 = 0 ∨ fld e 18 1 = 1 := by omega
    rcases hcases with hm | hm <;> rw [hm] <;> rfl
  have hurgent : (fld e 17 1 == 2 && (leavers h ((takeEntry h s).half h) src).any
      (fun p => urgentContext (((takeEntry h s).half h).record p.1))) = false := by
    rw [Bool.and_eq_false_imp]
    exact fun hm => hcalm (beq_iff_eq.1 hm)
  have hmode' : fld e 17 1 ≤ 2 := by omega
  refine next_congr ((runCmd_taken ht _).trans ?_)
  dsimp only
  rw [guarded_passes (by
    simp [hon, hurgent, hb, hstart, hend, htype, hres, hhere, hoff, hpages, hserv, hz, hplace, Nat.not_lt.2 hmode', Nat.not_lt.2 hstop,
      hindex, Nat.not_lt.2 hleast, Nat.not_lt.2 hmost, Nat.not_lt.2 hfits, hrec, hr])]
  refine congrArg (complete h 0x0610 e stOk false 0 []) (upd_congr ?_)
  simp only [hon, hbit, Bool.not_true, Bool.false_eq_true, if_false]
  rfl

/-- SEQ_HISTORY writes the history of a unit in service to the host (R484). -/
theorem execSeqHistory_writes {src : Nat} {bytes : List Byte} (ht : Taken h seqHistorySpec e none s) (hb : blockSource (fld e 16 1) = some src)
    (hz : checkReserved e [(16, 1), (24, 12)] = none) (hs : sourceRetired ((takeEntry h s).half h) src = false)
    (hbytes : bytes = historyBytes (unitOf ((takeEntry h s).half h) src).seq) :
    execSeqHistory h e .ok s = .next (complete h 0x0611 e stOk true 0 (le 4 bytes.length) (hostWrite (fld e 24 8) bytes (takeEntry h s))) := by
  refine next_congr ((runCmd_taken ht _).trans ?_)
  dsimp only
  rw [hb, Option.getD_some, guarded_passes (by simp [hz, hs]), ← hbytes]
  rfl

/-- DIAG_DUMP of an object that is not urgent waits for the object's next boundary (R577). -/
theorem execDiagDump_waits (ht : Taken h diagDumpSpec e none s) (hh : hHalf e.handle = h) (hst : stageOk (hType e.handle) (fld e 20 1) = true)
    (hz : checkReserved e [(16, 5), (24, 12)] = none) (hr : checkRunning ((takeEntry h s).half h) e.handle = none)
    (hu : fld e 16 4 < diagUnits (((takeEntry h s).half h).record e.handle))
    (hc : urgentContext (((takeEntry h s).half h).record e.handle) = false) :
    execDiagDump h e s = .next (complete h 0x0612 e stDeferred false 0 []
      (addDeferred h 0x0612 e (boundaryOf h ((takeEntry h s).half h) e.handle) (takeEntry h s))) := by
  refine next_congr ((runCmd_taken ht _).trans ?_)
  dsimp only
  rw [guarded_passes (by simp [hh, hst, hz, hr, hu, hc])]
  rfl

end

/-- Settles O12: a taken command passes its checks, and its body is the lemma above on it. -/
theorem sequencerCommands : Obligations.SequencerCommands := by
  rintro h e s _ _ rfl rfl
  refine ⟨?ends, ?starts, fun src bytes ht hb hz hs hbytes => execSeqHistory_writes ht hb hz hs hbytes, ?dump⟩
  case ends =>
    intro ht hb hr hm hstop hz
    obtain ⟨src, hsrc⟩ := Option.isSome_iff_exists.1 hb
    exact execSeqTrace_ends ⟨ht, hsrc, hr, hstop, hz⟩ hm
  case starts =>
    rintro src place _ ht hb hr hmode hcalm hstop hstart hend hz region hregion htype hres hhere hindex hoff hleast hmost hpages hserv hrec
      hplace hfits rfl
    exact execSeqTrace_starts ⟨ht, hb, hr, hstop, hz⟩ ⟨hmode, hcalm, hstart, hend, hregion, htype, hres, hhere, hindex, hoff, hleast, hmost,
      hpages, hserv, hrec, hplace, hfits⟩
  case dump =>
    rintro _ rfl ht hh hst hz hr hu hc
    exact execDiagDump_waits ht hh hst hz hr hu hc

end Sys2Proof.Machine
end

section
/-!
PROOFS. Lead and attestation commands: LEAD_YIELD, LEAD_ASSIGN, BRIDLE_READ, ATTEST and CERT_READ (R453, R504, R505, R581).
-/
namespace Sys2Proof.Machine

section
variable {h : HalfId} {e : CmdEntry} {s : State}

/-- LEAD_YIELD of the lead gives lead and the next epoch to a partner that is there (R453, R581). -/
theorem execLeadYield_yields (ht : Taken h leadYieldSpec e none s) (hl : checkLead ((takeEntry h s).half h) = none)
    (hs : (takeEntry h s).sparWorks = true) (hp : ((takeEntry h s).half h).bri.partnerLost = false)
    (he : ((takeEntry h s).half h).bri.epoch ≠ 0xFFFFFFFF) :
    execLeadYield h e s = .next (complete h 0x0901 e stOk false 0 (le 4 (((takeEntry h s).half h).bri.epoch + 1).toNat)
      (leadSet h false (((takeEntry h s).half h).bri.epoch + 1) 7
        (leadSet h.other true (((takeEntry h s).half h).bri.epoch + 1) 7 (ptpTakes h.other (takeEntry h s))))) := by
  refine next_congr ((runCmd_taken ht _).trans ?_)
  dsimp only
  rw [guarded_passes (by simp [hl, hs, hp]), if_neg (by simpa using he)]
  rfl

/-- LEAD_ASSIGN with an epoch beyond both gives the halves the roles that it names (R453). -/
theorem execLeadAssign_assigns {epoch : W32} (hq : epoch = BitVec.ofNat 32 (fld e 20 4)) (ht : Taken h leadAssignSpec e none s)
    (hl : fld e 16 1 ≤ 1) (hz : checkReserved e [(16, 1), (20, 4)] = none) (hb : epochBeats h epoch (takeEntry h s) = true) :
    execLeadAssign h e s = .next (complete h 0x0902 e stOk false 0 [] (assignLead h (halfOf (fld e 16 1)) epoch (takeEntry h s))) := by
  subst hq
  refine next_congr ((runCmd_taken ht _).trans ?_)
  dsimp only
  rw [guarded_passes (by simp [Nat.not_lt.2 hl, hz, hb])]
  rfl

/-- ATTEST on a nonce that is not zero writes the signed report (R505). -/
theorem execAttest_writes {body : List Byte} (hb : body = attestBody h e (takeEntry h s)) (ht : Taken h attestSpec e none s)
    (hn : fld e 16 32 ≠ 0) (hz : checkReserved e [(16, 44)] = none) :
    execAttest h e .ok s = .next (complete h 0x0A01 e stOk true 0 (le 4 336) (hostWrite (fld e 48 8)
      (body ++ pad 64 (Config.identitySignature (digestVal (sha256 body)))) (takeEntry h s))) := by
  refine next_congr ((runCmd_taken ht _).trans ?_)
  dsimp only
  rw [guarded_passes (by simp [hn, hz]), ← hb]
  rfl

/-- CERT_READ writes the certificate (R504). -/
theorem execCertRead_writes {c : List Byte} (hc : c = Config.certificate.take 1024) (ht : Taken h certReadSpec e none s)
    (hz : checkReserved e [(16, 12)] = none) :
    execCertRead h e .ok s = .next (complete h 0x0A02 e stOk true 0 (le 4 c.length) (hostWrite (fld e 16 8) c (takeEntry h s))) := by
  refine next_congr ((runCmd_taken ht _).trans ?_)
  dsimp only
  rw [guarded_passes (by simp [hz]), ← hc]
  rfl

end

/-- Settles O15: a taken command passes its checks, and its body is the lemma above on it. -/
theorem leadAndAttestCommands : Obligations.LeadAndAttestCommands := by
  constructor
  · rintro h e s _ _ rfl rfl
    refine ⟨fun ht hl hf hs hp he => execLeadYield_yields ht (by simp [checkLead, hl, hf]) hs hp he,
      fun epoch hq ht hl hz hb => execLeadAssign_assigns hq ht hl hz hb, fun ht => next_congr (runCmd_taken ht _)⟩
  · rintro h e s _ rfl
    exact ⟨fun body hb ht hn hz => execAttest_writes hb ht hn hz, fun c hc ht hz => execCertRead_writes hc ht hz⟩

end Sys2Proof.Machine
end

section
/-!
PROOFS. Firmware and fuse commands: FW_STAGE, FW_VERIFY, FW_CONFIRM, FW_SECURITY_COMMIT and FUSE_LOCK (R489, R501 to R503, R582 to R584).
-/
namespace Sys2Proof.Machine

section
variable {h : HalfId} {e : CmdEntry} {s : State} {b : Bool}

/-- The slot that the first piece of a bundle leaves: its flags clear, and the piece behind the slot's flag page (R501). -/
def firstPiece (bytes : List Byte) (v : Slot) : Slot :=
  { v with written := false, verified := false, triedE := false, triedW := false, confirmedE := false, confirmedW := false
           retired := false, hold := false, staged := bytes.length, data := memWrite 0x1000 bytes [] }

/-- FW_STAGE of a first piece of whole pages, with more to come, opens the inactive slot's staging (R501, R583). -/
theorem execFwStage_first {r : RefFetch} (hi : inactiveSlot (takeEntry h s) = some b) (ht : Taken h fwStageSpec e (some r) s)
    (ho : fld e 32 8 = 0) (hf : fld e 40 1 = 1) (hp : r.bytes.length % 4096 = 0) (hl : r.bytes.length ≤ 0x100000)
    (hs : (takeEntry h s).flash.staging ≠ some h.other) :
    execFwStage h e r s = .next (complete h 0x0A03 e stOk false 0 (le 8 r.bytes.length)
      { takeEntry h s with flash := { setSlot (takeEntry h s).flash b
          (firstPiece r.bytes (slotOf (takeEntry h s).flash b)) with staging := some h } }) := by
  have hfirst : Nat.testBit 1 0 = true := rfl
  have hlast : Nat.testBit 1 1 = false := rfl
  have hroom : ¬ 16707584 < r.bytes.length := by omega
  refine next_congr ((runCmd_taken ht _).trans ?_)
  dsimp only
  rw [guarded_passes (by simp [hi, ho, hf, hfirst, hlast, hp, Nat.not_lt.2 hl, hs, hroom])]
  simp only [hi, hf, ho, hfirst, hlast, Nat.zero_add, Nat.add_zero, if_true, Bool.false_eq_true, if_false]
  rfl

/-- The check that a staged bundle fails: of the receiving half's fuses first, then of its partner's; 0 for none (R501). -/
def stagedFail (h : HalfId) (v : Slot) (s : State) : Nat :=
  let judge := fun (k : HalfId) => slotFail (s.half k).boot.fuses (stagedFacts v.data)
    { v with verified := true, retired := false, bundle := stagedBundle v.data }
  if judge h != 0 then judge h else judge h.other

/-- The slot of a staged bundle that passes: VERIFIED, and held where flag bit 0 asks for it (R501, R502). -/
def passedSlot (flags : Nat) (v : Slot) : Slot :=
  { v with verified := true, bundle := stagedBundle v.data, hold := flags.testBit 0 }

/-- FW_VERIFY marks a bundle that passes, and fails of any other (R501, R582). -/
theorem execFwVerify_judges {v : Slot} (hi : inactiveSlot (takeEntry h s) = some b) (hv : v = slotOf (takeEntry h s).flash b)
    (ht : Taken h fwVerifySpec e none s) (hf : fld e 16 1 ≤ 1) (hz : checkReserved e [(16, 1)] = none) :
    execFwVerify h e s = .next (if stagedFail h v (takeEntry h s) = 0 then complete h 0x0A04 e stOk false 0
        (List.replicate 4 0 ++ le 4 0 ++ le 4 (stagedBundle v.data).generation ++ le 1 (stagedBundle v.data).security)
        { takeEntry h s with flash := setSlot (takeEntry h s).flash b (passedSlot (fld e 16 1) v) }
      else completeFail h 0x0A04 e { status := stAuthFailed, step := 9, detail := le 1 (stagedFail h v (takeEntry h s)) } (takeEntry h s)) := by
  subst hv
  have hflag : ¬ 2 ≤ fld e 16 1 := by omega
  refine next_congr ((runCmd_taken ht _).trans ?_)
  rw [guarded_passes (by simp [hflag, hz, hi]), hi]
  by_cases hpass : stagedFail h (slotOf (takeEntry h s).flash b) (takeEntry h s) = 0
  · rw [if_pos hpass]
    exact congrArg (finish h 0x0A04 e) (if_neg (ne_true_of_eq_false (bne_eq_false_iff_eq.2 hpass)))
  · rw [if_neg hpass]
    exact congrArg (finish h 0x0A04 e) (if_pos (bne_iff_ne.2 hpass))

/-- FW_CONFIRM ends a trial (R502). -/
theorem execFwConfirm_confirms (ht : Taken h fwConfirmSpec e none s) (htrial : ((takeEntry h s).half h).boot.trial = true) :
    execFwConfirm h e s = .next (complete h 0x0A05 e stOk false 0 [] (confirmTrial h 2 (takeEntry h s))) := by
  refine next_congr ((runCmd_taken ht _).trans ?_)
  rw [guarded_passes (by simp [htrial])]
  rfl

/-! Fuses (R489, R503, R584). -/

/-- A warning or information event leaves the boot state and the fuses of both halves. -/
theorem event_boot (h k : HalfId) (code : Nat) {sev : Nat} (hs : sev ≠ 2) (src : Handle) (detail : List Byte) (s : State) :
    ((event h code sev src detail s).half k).boot = (s.half k).boot := by
  obtain ⟨n, v, he⟩ := event_queued h code hs src detail s
  rw [he]
  rcases half_upd_cases s h k (fun x => count 34 0x12 (n x) { x with ev := v x }) with ⟨hk, -⟩ | hk <;> rw [hk]
  rw [count_boot]

/-- Both halves run, with the link between them and the programming rail up. -/
structure CanBurn (s : State) : Prop where
  linked : s.sparWorks = true
  railE : s.east.boot.fuses.rail = true
  railW : s.west.boot.fuses.rail = true

/-- Both halves run bundles that allow the target and that both have confirmed (R503). -/
structure Commits (s : State) (t : Nat) : Prop where
  least : 1 ≤ t
  most : t ≤ 128
  aliveE : s.east.alive = true
  aliveW : s.west.alive = true
  allowedE : t ≤ s.east.boot.bundle.security
  allowedW : t ≤ s.west.boot.bundle.security
  eastByE : (slotOf s.flash s.east.boot.slotB).confirmedE = true
  eastByW : (slotOf s.flash s.east.boot.slotB).confirmedW = true
  westByE : (slotOf s.flash s.west.boot.slotB).confirmedE = true
  westByW : (slotOf s.flash s.west.boot.slotB).confirmedW = true

/-- FW_SECURITY_COMMIT passes its checks and comes to the burning (R503). -/
theorem fwSecurityCommit_passes (hc : CanBurn s) (hq : Commits s (fld e 16 1)) (hz : checkReserved e [(16, 1)] = none) :
    Passes [bad6 (fld e 16 1 == 0 || 128 < fld e 16 1) 16, checkReserved e [(16, 1)],
      failIf (!(s.east.alive && s.west.alive && s.sparWorks) || !s.east.boot.fuses.rail || !s.west.boot.fuses.rail)
        { status := stNoResource, step := 9 },
      failIf (!((fld e 16 1 ≤ s.east.boot.bundle.security && (slotOf s.flash s.east.boot.slotB).confirmedE &&
          (slotOf s.flash s.east.boot.slotB).confirmedW) &&
        (fld e 16 1 ≤ s.west.boot.bundle.security && (slotOf s.flash s.west.boot.slotB).confirmedE &&
          (slotOf s.flash s.west.boot.slotB).confirmedW))) { status := stBadField, step := 9 }] := by
  obtain ⟨hlink, hre, hrw⟩ := hc
  obtain ⟨hleast, hmost, hae, haw, hbe, hbw, hee, hew, hwe, hww⟩ := hq
  simp [Nat.ne_of_gt hleast, Nat.not_lt.2 hmost, hz, hae, haw, hlink, hre, hrw, hbe, hbw, hee, hew, hwe, hww]

/-- A step of the counter that does not burn ends the commit with INTERNAL, and the steps before it are burned (R503). -/
theorem execFwSecurityCommit_unburned {w : HalfId × Nat} (ht : Taken h fwSecurityCommitSpec e none s) (hc : CanBurn (takeEntry h s))
    (hq : Commits (takeEntry h s) (fld e 16 1)) (hz : checkReserved e [(16, 1)] = none)
    (hw : stepMissing (takeEntry h s) (fld e 16 1) w = true) :
    execFwSecurityCommit h { entry := e, unburned := some w } s = .next (completeFail h 0x0A06 e { status := stInternal, step := 9 }
      (burnUntil h w.1 w.2 (takeEntry h s))) := by
  refine next_congr ((runCmd_taken ht _).trans ?_)
  dsimp only
  rw [guarded_passes (fwSecurityCommit_passes hc hq hz)]
  simp only [Option.filter_some, hw, if_true]
  rfl

/-- The counter and the revocations of a half's running bundle burn (R503). -/
def burnCommit (t : Nat) (x : Half) : Half :=
  { x with boot := { x.boot with fuses := { x.boot.fuses with
    counter := max x.boot.fuses.counter t, revocation := revokeBurn x.boot.fuses x.boot.bundle } } }

/-- A commit whose steps burn raises both counters and reports the fuses that it burned (R489, R503). -/
theorem execFwSecurityCommit_burns {v : State} {f g : Fuses} (ht : Taken h fwSecurityCommitSpec e none s) (hc : CanBurn (takeEntry h s))
    (hq : Commits (takeEntry h s) (fld e 16 1)) (hz : checkReserved e [(16, 1)] = none)
    (hv : v = ((takeEntry h s).upd .east (burnCommit (fld e 16 1))).upd .west (burnCommit (fld e 16 1)))
    (hf : f = ((takeEntry h s).half h).boot.fuses) (hg : g = (v.half h).boot.fuses) :
    execFwSecurityCommit h { entry := e } s = .next (complete h 0x0A06 e stOk false 0
      (le 1 v.east.boot.fuses.counter ++ le 1 v.west.boot.fuses.counter ++ le 1 g.revocation.toNat)
      (event h 0x0A05 sevWarning 0 (le 4 f.counter ++ le 4 g.counter ++ le 4 (g.revocation &&& ~~~f.revocation).toNat ++ le 4 0) v)) := by
  subst hv hf hg
  refine next_congr ((runCmd_taken ht _).trans ?_)
  dsimp only
  rw [guarded_passes (fwSecurityCommit_passes hc hq hz)]
  have heast (detail : List Byte) (t : State) : (event h 0x0A05 sevWarning 0 detail t).east.boot = t.east.boot :=
    event_boot h .east 0x0A05 (by decide) 0 detail t
  have hwest (detail : List Byte) (t : State) : (event h 0x0A05 sevWarning 0 detail t).west.boot = t.west.boot :=
    event_boot h .west 0x0A05 (by decide) 0 detail t
  simp only [Option.filter_none, finish_ok, heast, hwest]
  rfl

/-- FUSE_LOCK with its magic, of halves that use one board description, burns the locks in both banks (R584). -/
theorem execFuseLock_burns {v : State} {f g : Fuses} {burned : Nat} (ht : Taken h fuseLockSpec e none s) (hc : CanBurn (takeEntry h s))
    (hl : fld e 16 1 < 4) (hz : checkReserved e [(16, 1), (20, 4)] = none) (hm : fld e 20 4 = 0x4B434F4C)
    (hd : (takeEntry h s).east.boot.board.digest = (takeEntry h s).west.boot.board.digest)
    (hv : v = ((takeEntry h s).upd .east (burnLocks (fld e 16 1))).upd .west (burnLocks (fld e 16 1)))
    (hf : f = ((takeEntry h s).half h).boot.fuses) (hg : g = (v.half h).boot.fuses)
    (hb : burned = packBits [g.boardLock && !f.boardLock, g.debugLock && !f.debugLock]) :
    execFuseLock h e s = .next (complete h 0x0A07 e stOk false 0 (le 1 (packBits [g.boardLock, g.debugLock]))
      (event h 0x0A05 sevWarning 0 (le 4 g.counter ++ le 4 g.counter ++ le 4 0 ++ le 4 burned) v)) := by
  subst hv hf hg hb
  obtain ⟨hlink, hre, hrw⟩ := hc
  refine next_congr ((runCmd_taken ht _).trans ?_)
  dsimp only
  rw [guarded_passes (by simp [Nat.not_le.2 hl, hz, hm, hlink, hre, hrw, hd])]
  rfl

end

/-- Settles O16: a taken command passes its checks, and its body is the lemma above on it. -/
theorem firmwareAndFuseCommands : Obligations.FirmwareAndFuseCommands := by
  constructor
  · rintro h e s _ b rfl
    refine ⟨?stage, ?verify, ?confirm⟩
    case stage =>
      rintro r _ hi ht ho hf hp hl hs rfl
      exact execFwStage_first hi ht ho hf hp hl hs
    case verify =>
      rintro v _ hi hv rfl ht hf hz judge code hj hcode
      have hfail : code = stagedFail h v (takeEntry h s) := by simp [hcode, hj, stagedFail]
      subst hfail
      exact execFwVerify_judges hi hv ht hf hz
    case confirm =>
      rintro ht htrial rfl _ rfl
      exact execFwConfirm_confirms ht htrial
  · rintro h e s _ v rfl hlink hre hrw
    have hc : CanBurn (takeEntry h s) := ⟨hlink, hre, hrw⟩
    constructor
    · rintro _ a b rfl ha hb ht hleast hmost hz hae haw hbe hbw hee hew hwe hww
      have hq : Commits (takeEntry h s) (fld e 16 1) := ⟨hleast, hmost, hae, haw, hbe, hbw, hee, hew, hwe, hww⟩
      refine ⟨fun w hw => execFwSecurityCommit_unburned ht hc hq hz hw, ?_⟩
      rintro _ rfl hv
      exact execFwSecurityCommit_burns ht hc hq hz hv ha hb
    · rintro f g burned hf hg ht hl hz hm hd hv hb
      exact execFuseLock_burns ht hc hl hz hm hd hv hf hg hb

end Sys2Proof.Machine
end

section
/-!
PROOFS. Resets and boot: what brings a half into reset and out of it, what a reset clears, and the end of a trial (R486 to R488, R497, R499,
R502, R518, R532).
-/
namespace Sys2Proof.Machine

section
variable {h : HalfId} {s : State}

/-- Of the block outside its half a reset changes at most the staging of the flash (R488, R501). -/
theorem enterReset_eq (h : HalfId) (kind : Nat) (s : State) : ∃ staging : Option HalfId,
    enterReset h kind s = { s.upd h (resetHalf kind) with flash := { s.flash with staging := staging } } := by
  unfold enterReset
  dsimp only
  split
  · exact ⟨none, by rw [upd_flash]⟩
  · exact ⟨s.flash.staging, by rw [← upd_flash s h (resetHalf kind)]⟩

/-- The half is reset (R487). -/
theorem enterReset_half_self (h : HalfId) (kind : Nat) (s : State) : (enterReset h kind s).half h = resetHalf kind (s.half h) := by
  obtain ⟨staging, he⟩ := enterReset_eq h kind s
  rw [he]
  exact half_upd_self s h (resetHalf kind)

/-- The partner half stays (R487). -/
theorem enterReset_half_other (h : HalfId) (kind : Nat) (s : State) : (enterReset h kind s).half h.other = s.half h.other := by
  obtain ⟨staging, he⟩ := enterReset_eq h kind s
  rw [he]
  exact half_upd_ne s (resetHalf kind) (other_ne h)

/-- A delayed reset comes at its time; one of a thermal shutdown holds the half (R488, R532). -/
theorem execHalfResetDelayExpiry_due {t : Nat} (ht : (s.half h).boot.resetAt = some t) (hd : t ≤ (s.half h).clk.now) :
    execHalfResetDelayExpiry h s = .next (if (s.half h).boot.resetKind = 5
      then (enterReset h 5 s).upd h (fun y => { y with pwr := { y.pwr with shutdown := true, coolSince := none } })
      else enterReset h (s.half h).boot.resetKind s) := by
  refine next_congr ?_
  simp only [ht, State.now, Nat.not_lt.2 hd, if_false, beq_iff_eq]
  split
  · next hk => rw [hk]
  · rfl

/-- The reset of a trial half comes at its time (R499). -/
theorem execTrialReset_due {t : Nat} (ht : (s.half h).boot.trialResetAt = some t) (hd : t ≤ (s.half h).clk.now) :
    execTrialReset h s = .next (enterReset h 4 s) := by
  refine next_congr ?_
  simp only [ht, State.now, Nat.not_lt.2 hd, if_false]

/-- A shutdown ends once the half has been cool for 1 s, unless it is the third within an hour (R532). -/
theorem execThermalRelease_cooled {t : Nat} (hc : (s.half h).pwr.coolSince = some t) (hs : (s.half h).pwr.shutdown = true)
    (ht : t + 1000000000 ≤ (s.half h).clk.now)
    (hr : ((s.half h).pwr.shutdownTimes.filter (fun t => (s.half h).clk.now < t + 3600000000000)).length < 3) :
    execThermalRelease h s = .next (s.upd h (fun y => { y with pwr := { y.pwr with shutdown := false } })) := by
  refine next_congr ?_
  simp only [hc, hs, ht, hr, decide_true, Bool.and_self, if_true]

end

/-- Settles O44: each event is due, and its guards hold. -/
theorem resetEvents : Obligations.ResetEvents := by
  rintro h s _ rfl
  refine ⟨rfl, rfl, ?boots, ?delayed, fun t => execTrialReset_due, ?confirms, fun _ => rfl, rfl, fun t => execThermalRelease_cooled⟩
  case boots =>
    intro f hr hb hs
    exact next_congr (if_pos (by simp [hr, hb, hs]))
  case delayed =>
    intro t ht hd
    exact ⟨fun hk => (execHalfResetDelayExpiry_due ht hd).trans (next_congr (if_neg hk)),
      fun hk => (execHalfResetDelayExpiry_due ht hd).trans (next_congr (if_pos hk))⟩
  case confirms =>
    intro ha ht hb hk hh
    exact next_congr (if_pos (by simp [ha, ht, hb, hk, hh]))

/-- Settles O60: the half is `resetHalf` of itself, whose fields are those of a new half but for what survives, and the rest of the block keeps
all but a staging of the half's own. -/
theorem halfResetClears : Obligations.HalfResetClears := by
  rintro h kind s _ _ _ rfl rfl rfl
  refine ⟨?half, enterReset_half_other h kind s, ?rest⟩
  case half =>
    rw [enterReset_half_self]
    exact ⟨rfl, rfl, rfl, rfl, rfl, rfl, rfl, rfl, rfl, rfl, rfl, rfl, rfl, rfl, rfl, rfl, rfl, rfl, rfl, rfl, rfl⟩
  case rest =>
    obtain ⟨staging, he⟩ := enterReset_eq h kind s
    rw [he]
    exact ⟨rfl, rfl, upd_hostMem s h _⟩

end Sys2Proof.Machine
end

section
/-!
PROOFS. The fuse digest of an attestation report (R490, R505).
-/
namespace Sys2Proof.Machine

/-! Lengths of byte strings. -/

@[simp] theorem le_length (n v : Nat) : (le n v).length = n := by
  induction n generalizing v with
  | zero => rfl
  | succ n ih => exact congrArg (· + 1) (ih _)

@[simp] theorem digestBytes_length (d : BitVec 256) : (digestBytes d).length = 32 := by
  rw [digestBytes, List.length_reverse, le_length]

/-- A round keeps the number of working words. -/
theorem shaRound_length (v : List W32) (kw : W32 × W32) : (shaRound v kw).length = v.length := by
  unfold shaRound
  split <;> rfl

theorem shaRounds_length (l : List (W32 × W32)) (v : List W32) : (l.foldl shaRound v).length = v.length := by
  induction l generalizing v with
  | nil => rfl
  | cons kw l ih => rw [List.foldl_cons, ih, shaRound_length]

theorem shaBlocks_length (n : Nat) (v : List W32) (bs : List Byte) : (shaBlocks n v bs).length = v.length := by
  induction n generalizing v bs with
  | zero => rfl
  | succ n ih => rw [shaBlocks, ih, shaBlock, List.length_zipWith, shaRounds_length, Nat.min_self]

@[simp] theorem shaInit_length : shaInit.length = 8 := by
  rw [shaInit, List.length_map]
  decide

/-- Words as bytes, most significant first, take four bytes each. -/
theorem wordBytes_length (l : List W32) : (l.flatMap (fun w => (le 4 w.toNat).reverse)).length = 4 * l.length := by
  induction l with
  | nil => rfl
  | cons w l ih => rw [List.flatMap_cons, List.length_append, ih, List.length_reverse, le_length, List.length_cons]; omega

@[simp] theorem sha256_length (bs : List Byte) : (sha256 bs).length = 32 := by
  rw [sha256, wordBytes_length, shaBlocks_length, shaInit_length]

/-! The report. -/

/-- The bytes of a report before the fuse configuration digest (R505). -/
def attestHead (h : HalfId) (e : CmdEntry) (s : State) : List Byte :=
  let x := s.half h
  let f := x.boot.fuses
  let waits := fun (y : Slot) => y.written && y.verified && !y.retired && !tried h y && !confirmed h y
  [byte 0x44, byte 0x52, byte 0x41, byte 0x54] ++ le 2 1 ++ le 1 h.bit ++
    le 1 (packBits [f.boardLock, f.debugLock, x.boot.trial, waits s.flash.slotA || waits s.flash.slotB]) ++
    le 8 f.serial.toNat ++ le 8 x.clk.now ++ (e.payload.take 32) ++ le 4 Config.primerVersion ++
    le 4 x.boot.bundle.firmware ++ le 4 x.boot.bundle.generation ++ le 1 x.boot.bundle.security ++ le 1 f.counter ++
    le 1 x.boot.bundle.keyIndex ++ le 1 (b2n x.boot.slotB + 16 * f.revocation.toNat) ++
    (List.range 4).flatMap (fun i => digestBytes (x.boot.bundle.measurements.getD i 0)) ++
    digestBytes x.boot.board.digest

theorem attestBody_eq (h : HalfId) (e : CmdEntry) (s : State) :
    attestBody h e s = pad 272 (attestHead h e s ++ sha256 (fuseBytes (s.half h).boot.fuses)) := rfl

/-- With a whole nonce the fuse configuration digest stands at byte 232. -/
theorem attestHead_length {h : HalfId} {e : CmdEntry} {s : State} (hn : 32 ≤ e.payload.length) : (attestHead h e s).length = 232 := by
  simp [attestHead, List.range_succ, Nat.min_eq_left hn]

/-- Filling a string up leaves its bytes. -/
theorem pad_eq_append {n : Nat} {bs : List Byte} (hn : bs.length ≤ n) : pad n bs = bs ++ List.replicate (n - bs.length) 0 := by
  rw [pad, List.take_of_length_le hn]

/-- The digest of the fuses stands in bytes 232 to 263 of the report (R505). -/
theorem attestBody_fuseDigest {h : HalfId} {e : CmdEntry} {s : State} (hn : 32 ≤ e.payload.length) :
    ((attestBody h e s).drop 232).take 32 = sha256 (fuseBytes (s.half h).boot.fuses) := by
  have hhead := attestHead_length (h := h) (s := s) hn
  rw [attestBody_eq, pad_eq_append (by simp [hhead]), List.append_assoc, List.drop_left' hhead, List.take_left' (sha256_length _)]

/-- The fuses of a bank with four key hashes, byte by byte (R490). -/
theorem fuseBytes_eq {f : Fuses} {k0 k1 k2 k3 : BitVec 256} (hk : f.keyHash = [k0, k1, k2, k3]) :
    fuseBytes f = digestBytes k0 ++ digestBytes k1 ++ digestBytes k2 ++ digestBytes k3 ++ [byte f.revocation.toNat] ++ [byte f.counter] ++
      [if f.boardLock then 1 else 0] ++ digestBytes f.boardDigest ++ [if f.debugLock then 1 else 0] := by
  have hbit (b : Bool) : le 1 (b2n b) = [if b then 1 else 0] := by cases b <;> rfl
  have hone (n : Nat) : le 1 n = [byte n] := rfl
  simp only [fuseBytes, hk, hbit, hone, List.flatMap_cons, List.flatMap_nil, List.append_nil, List.append_assoc]

/-- Settles O59: the digest at byte 232 of the report is that of `fuseBytes`, which `fuseBytes_eq` writes out. -/
theorem fuseDigest : Obligations.FuseDigest := by
  intro f k0 k1 k2 k3 hk _
  refine ⟨by simp [fuseBytes_eq hk], ?_⟩
  rintro bytes hb h e s rfl hn
  rw [attestBody_fuseDigest hn, fuseBytes_eq hk, ← hb]

end Sys2Proof.Machine
end

section
/-!
PROOFS. Monitors of voltage, heat and clocks (R518, R521, R530 to R532).
-/
namespace Sys2Proof.Machine

section
variable {h : HalfId} {s v : State} {k : Nat}

/-- An excursion of more than 10 µs is marked, latches source 39 and is reported (R518). -/
theorem execVoltageExcursion_latches {rail d : Nat} {mv : Int} (hr : (s.half h).boot.inReset = false) (hd : 10000 < d)
    (hx : isExcursion (s.half h) rail mv = true) :
    execVoltageExcursion h rail mv d s = .next (event h 0x080A sevAlarm 0 (le 4 rail ++ le 4 (unsigned 32 mv) ++ le 4 d)
      (latchHw 6 h 39 false (s.upd h (fun y => { y with pwr := { y.pwr with vmon := true } })))) :=
  next_congr (if_neg (by simp [hr, Nat.not_le.2 hd, hx]))

/-- The half after a temperature sample of one of its islands (R530 to R532). -/
def thermalKept (k : Nat) (t : Int) (y : Half) : Half := coolMark (updIsland k (sampled y t) y)

/-- In reset a sample is only kept (R532). -/
theorem execThermalSample_inReset (hr : (s.half h).boot.inReset = true) (t : Int) :
    execThermalSample h k t s = .next (s.upd h (thermalKept k t)) := next_congr (if_pos hr)

/-- Out of reset a sample that begins to throttle its island warns, and one of 120 °C or more trips the half, unless it is about to shut down
already (R531, R532). -/
theorem execThermalSample_running {t : Int} {w : State} {was now_ : IslandSt} (hr : (s.half h).boot.inReset = false)
    (hv : v = s.upd h (thermalKept k t)) (hwas : was = (s.half h).pwr.islands.getD k {}) (hnow : now_ = (v.half h).pwr.islands.getD k {})
    (hw : w = if was.throttled = false ∧ now_.throttled = true then
      event h 0x0808 sevWarning 0 (le 4 k ++ le 4 (unsigned 32 t) ++ le 4 now_.allowed) v else v) :
    execThermalSample h k t s = .next (if 120 ≤ t ∧ ((s.half h).boot.resetAt = none ∨ (s.half h).boot.resetKind ≠ 5)
      then thermalTrip h k t w else w) := by
  subst hwas hnow hw hv
  refine next_congr ((if_neg (by simp [hr])).trans ?_)
  simp only [Bool.and_eq_true, Bool.not_eq_true', decide_eq_true_eq, Bool.and_eq_false_iff, beq_eq_false_iff_ne, Option.isSome_eq_false_iff,
    Option.isNone_iff_eq_none]
  rfl

/-- The second trip of an island within 10 minutes retires its unit, or the half where it has none (R521). -/
def secondTrip (h : HalfId) (k : Nat) (v : State) : State :=
  match islandUnit k with
  | none => retireHalf h 1 v
  | some src =>
    if sourceRetired (v.half h) src then v
    else if src < 18 then v.upd h (updUnit src (fun g => { g with toRetire := 1 }))
    else if src < 22 then retireChannel h (src - 18) 1 v else retirePort h (src - 34) 1 v

/-- A clock that trips halts its island, latches source 40 and is reported (R521). -/
theorem execClockMonitorTrip_halts {khz trips : Nat} {i : IslandSt} (hk : k < 36) (hr : (s.half h).boot.inReset = false)
    (hm : monitorTrips (s.half h) k khz = true) (hi : i = (s.half h).pwr.islands.getD k {}) (ht : trips = tripsWithin i (s.half h).clk.now)
    (hv : v = event h 0x080B sevAlarm 0 (le 4 k ++ le 4 khz ++ le 4 i.step ++ le 4 trips) (latchHw 6 h 40 false (s.upd h (islandHalt k)))) :
    execClockMonitorTrip h k khz s = .next (settle h (if trips < 2 then v else secondTrip h k v)) := by
  subst hv ht hi
  exact settled_congr (if_neg (by simp [hr, Nat.not_le.2 hk, hm]))

/-- A relocked clock runs again, and restarts the engine or pipe that halted with it, unless that is to retire or waits for the host (R521). -/
theorem execIslandClockRelock_runs (hr : (s.half h).boot.inReset = false) (hc : ((s.half h).pwr.islands.getD k {}).clockHalted = true)
    (hv : v = s.upd h (updIsland k (fun i => { i with clockHalted := false }))) :
    execIslandClockRelock h k s = .next (settle h (match blockSource k with
      | none => v
      | some src => if (unitOf (v.half h) src).halted && (unitOf (v.half h) src).toRetire == 0 && !awaitsHost (v.half h) src &&
          (s.half h).alive && !(s.half h).bri.tetherStopped then restartSource h src v else v)) := by
  subst hv
  exact settled_congr (if_neg (by rw [hr, hc]; decide))

end

/-- Settles O45: each event is due, and its hypotheses choose a case of the lemma above on it. -/
theorem monitorEvents : Obligations.MonitorEvents := by
  rintro h s _ rfl
  refine ⟨fun rail mv d => execVoltageExcursion_latches, ?thermal, ?trip, ?relock⟩
  case thermal =>
    intro k t v was now_ w hv hwas hnow hw
    refine ⟨fun hr => by rw [hv]; exact execThermalSample_inReset hr t, fun hr hc => ?_, fun hr hc ha => ?_⟩
    · exact (execThermalSample_running hr hv hwas hnow hw).trans (next_congr (if_neg (fun hhot => absurd hhot.1 (Int.not_le.2 hc))))
    · exact (execThermalSample_running hr hv hwas hnow hw).trans (next_congr (if_pos ⟨hc, ha⟩))
  case trip =>
    intro k khz i trips v hk hr hm hi ht hv
    have hx := execClockMonitorTrip_halts hk hr hm hi ht hv
    have hsecond (h2 : 2 ≤ trips) : execClockMonitorTrip h k khz s = .next (settle h (secondTrip h k v)) := by
      rw [hx, if_neg (Nat.not_lt.2 h2)]
    refine ⟨fun h1 => hx.trans (by rw [if_pos h1]), fun h2 hu => ?_, fun src h2 hu hs => ?_⟩
    · exact (hsecond h2).trans (by rw [secondTrip, hu])
    · exact (hsecond h2).trans (by simp only [secondTrip, hu, hs, Bool.false_eq_true, if_false])
  case relock =>
    rintro k _ v hr rfl hc hv
    have hx := execIslandClockRelock_runs hr hc hv
    refine ⟨fun hu => ?_, fun src g hu hg hh ht ha halive hstop => ?_⟩
    · rw [hu] at hx
      exact hx
    · subst hg
      rw [hu] at hx
      exact hx.trans (next_congr (congrArg (settle h) (if_pos (by simp [hh, ht, ha, halive, hstop]))))

end Sys2Proof.Machine
end

section
/-!
PROOFS. Unit enables (R543, R544) and the interrupt controller's registers (R400, R402, R405, R408, R409).
-/
namespace Sys2Proof.Machine

section
variable {h : HalfId} {s w : State} {i : Nat} {f : UnitFlags}

/-- An ENABLE bit that an engine in service finds cleared holds it (R543). -/
theorem enableClear_holds (hf : unitAt (s.half h) .enc i = some f) (hp : f.present = true) (hr : holdRefused (s.half h) .enc i f = false)
    (he : f.enable = true) (hs : f.inService = true) (ha : (s.half h).alive = true) :
    enableClear h .enc i s = holdUnit h .enc i s := by
  simp [enableClear, hf, hp, hr, he, hs, ha]

/-- An ENABLE bit that an engine held out finds set puts it back (R543, R544). -/
theorem enableSet_returns (hf : unitAt (s.half h) .enc i = some f) (hp : f.present = true) (hr : f.retired = false)
    (hq : f.quiescing = false) (he : f.enable = false) :
    enableSet h .enc i s = s.upd h (updFlags .enc i (fun f => { f with enable := true, inService := true })) := by
  simp [enableSet, hf, hp, hr, hq, he]

end

section
variable {ep : HalfId} {s w : State} {n : Nat}

/-- A host write of an entry that the host owns, to a target that the host may name, is taken (R400). -/
theorem icuHostEntry_taken {v : Nat} (hn : n < 512) (ho : icuHostOwned n = true) (hr : icuReserved n = false)
    (ht : v / 256 % 4 = 1 ∨ v / 256 % 4 = 2) : icuHostEntry ep ep n v s = icuPutEntry ep n v s := by
  rcases ht with ht | ht <;> simp [icuHostEntry, Nat.not_le.2 hn, ho, hr, ht]

/-- A host sets a source for software (R402). -/
theorem icuSetWrite_host {r : Requester} {number : W32} (hep : requesterHalf r ep = ep) (hr : r ≠ .keel) (hn : number.toNat = n)
    (hlo : 152 ≤ n) (hhi : n ≤ 167) : icuSetWrite r ep number s = icuRaise ep n s := by
  simp [icuSetWrite, hep, hr, hn, hlo, hhi]

/-- The keel sets a source for software, and its register shows which (R402). -/
theorem icuSetWrite_keel {number : W32} (hn : number.toNat = n) (hlo : 168 ≤ n) (hhi : n ≤ 183) :
    icuSetWrite .keel ep number s = icuRaise ep n (s.upd ep (fun x => { x with icu := { x.icu with keelSet := n } })) := by
  simp [icuSetWrite, hn, hlo, hhi]

/-- A claim of a pending source withdraws it (R409). -/
theorem icuTake_pending (hn : n < 512) (hr : icuReserved n = false) (hp : (s.half ep).icu.pend.getLsbD n = true) :
    icuTake ep n s = (icuWithdraw ep n (s.upd ep (fun x => count 33 0x11 1
      { x with icu := { x.icu with claimed := bumpSource n x.icu.claimed } })), n) :=
  if_pos (by simp [hn, hr, hp])

/-- A claim of a source that is not pending is spurious (R409). -/
theorem icuTake_spurious (hn : n < 512) (hp : (s.half ep).icu.pend.getLsbD n = false) :
    icuTake ep n s = (s.upd ep (fun x => count 33 0x12 1 { x with icu := { x.icu with spurious := bumpSource n x.icu.spurious } }), 0x3FF) := by
  refine (if_neg (by simp [hp])).trans ?_
  simp only [hn, if_true]

/-- Only the keel serves what it claims (R405). -/
theorem icuServe_host {r : Requester} (hr : r ≠ .keel) (n : Nat) (s : State) : icuServe r ep n s = s := if_neg (by simp [hr])

/-- A claim at the own interrupt controller completes at once (R408). -/
theorem icuClaimWrite_own {r : Requester} {number : W32} (hep : requesterHalf r ep = ep) (hn : number.toNat = n) (hlt : n < 512) :
    icuClaimWrite r ep number s = icuResult r ep (icuTake ep n s).2 (icuServe r ep (icuTake ep n s).2 (icuTake ep n s).1) := by
  have hmod : number.toNat % 1024 = n := by omega
  simp only [icuClaimWrite, hep, hmod, beq_self_eq_true, if_true]

/-- A host's claim completes with what the controller answers. -/
theorem icuClaimWrite_host {r : Requester} {number : W32} (hep : requesterHalf r ep = ep) (hr : r ≠ .keel) (hn : number.toNat = n)
    (hlt : n < 512) : icuClaimWrite r ep number s = icuResult r ep (icuTake ep n s).2 (icuTake ep n s).1 := by
  rw [icuClaimWrite_own hep hn hlt, icuServe_host hr]

/-- A host writes ICU_SET and ICU_CLAIM through its endpoint. -/
theorem execIcuSet_host {r : Requester} (hep : requesterHalf r ep = ep) (hr : r ≠ .keel) (number : W32) :
    execIcuSet r ep number s = .next (hostWriteTo ep (icuSetWrite r ep number) s) := by
  cases r
  case keel => exact absurd rfl hr
  all_goals exact next_congr (by rw [hep])

theorem execIcuClaim_host {r : Requester} (hep : requesterHalf r ep = ep) (hr : r ≠ .keel) (number : W32) :
    execIcuClaim r ep number s = .next (hostWriteTo ep (icuClaimWrite r ep number) s) := by
  cases r
  case keel => exact absurd rfl hr
  all_goals exact next_congr (by rw [hep])

/-- A claim of the east endpoint through the partner window completes while the link works (R409). -/
theorem execIcuPartnerClaimDone_east {v : Nat} {t : State} (hv : claimInFlight s .east = some v) (hs : s.sparWorks = true)
    (ht : t = s.upd .west (fun x => { x with icu := { x.icu with flightE := none } })) :
    execIcuPartnerClaimDone .east s = .next (icuResult .pcieE .west (icuTake .west v t).2 (icuTake .west v t).1) := by
  have hlink : t.sparWorks = true := ht ▸ Eq.trans (sparWorks_upd s .west _ (fun _ => rfl)) hs
  refine next_congr ?_
  rw [hv]
  dsimp only [HalfId.other]
  rw [← ht, if_pos hlink]

end

/-- Settles O21: the write lands, and does what the lemma above on it says. -/
theorem controlWrites : Obligations.ControlWrites := by
  constructor
  · intro h i s w f hw hf hh hp
    constructor
    · intro hr he hs ha
      exact settled_congr ((if_pos hh).trans (by rw [← hw]; exact enableClear_holds hf hp hr he hs ha))
    · intro hr hq he
      exact settled_congr ((if_pos hh).trans (by rw [← hw]; exact enableSet_returns hf hp hr hq he))
  · rintro ep s w taken none_ n hw rfl rfl
    have hicu : (w.half ep).icu = (s.half ep).icu := by rw [hw, half_upd_self, count_icu]
    refine ⟨fun hh => ⟨fun value hn ho hr ht => hostWriteTo_lands hw hh (icuHostEntry_taken hn ho hr ht), fun r number hep hr hn hlo hhi => ?set,
      fun r number hep hr hn hlt hres hp => ?claim, fun r number hep hr hn hlt hp => ?spurious⟩, fun ha number hn hlo hhi => ?keelSet,
      fun ha number hn hlt hr hp => ?keelClaim, fun v hv hs t ht => execIcuPartnerClaimDone_east hv hs ht⟩
    case set => exact (execIcuSet_host hep hr number).trans (hostWriteTo_lands hw hh (icuSetWrite_host hep hr hn hlo hhi))
    case claim =>
      refine (execIcuClaim_host hep hr number).trans (hostWriteTo_lands hw hh ?_)
      rw [icuClaimWrite_host hep hr hn hlt, icuTake_pending hlt hres (by rw [hicu, hp])]
    case spurious =>
      refine (execIcuClaim_host hep hr number).trans (hostWriteTo_lands hw hh ?_)
      rw [icuClaimWrite_host hep hr hn hlt, icuTake_spurious hlt (by rw [hicu, hp])]
    case keelSet => exact next_congr ((if_pos ha).trans (icuSetWrite_keel hn hlo hhi))
    case keelClaim =>
      refine next_congr ((if_pos ha).trans ?_)
      rw [icuClaimWrite_own rfl hn hlt, icuTake_pending hlt hr hp]

end Sys2Proof.Machine
end

section
/-!
PROOFS. Queries (R559, R571, R572).
-/
namespace Sys2Proof.Machine

/-- A query that the keel takes, whose checks pass and whose object is there, writes its answer and then clears what it may clear. -/
theorem runQuery_answers (h : HalfId) (e : CmdEntry) (s : State) (op : Nat) (rule : HandleRule) (top : Nat) (body : State → Option QueryBody)
    (clear : State → State) {c : Instr} (hc : exec c s = .next (runQuery h op rule top e .ok body clear s)) :
    QueryAnswers h e s c op rule top body clear := by
  rintro q bytes _ rfl ht hn hf hsel hz hq rfl
  have hclear : (if (fld e 28 4).testBit 0 then clear else id) = (if fld e 28 4 = 1 then clear else id) := by
    have hcases : fld e 28 4 = 0 ∨ fld e 28 4 = 1 := by omega
    rcases hcases with hm | hm <;> rw [hm] <;> rfl
  refine hc.trans (next_congr ((runCmd_taken ht _).trans ?_))
  rw [guarded_passes (by simp [hn, Nat.not_lt.2 hf, Nat.not_lt.2 hsel, hz, hq]), hq]
  simp only [hclear]
  rfl

/-- Settles O5: every query is `runQuery` with its body and what it clears. -/
theorem queries : Obligations.Queries := by
  refine ⟨fun h e s => ⟨?_, ?_, ?_, ?_, ?_, ?_, ?_, ?_, ?_, ?_, ?_⟩, fun h e s => ⟨?_, ?_, ?_, ?_⟩⟩
  all_goals exact runQuery_answers h e s _ _ _ _ _ rfl

end Sys2Proof.Machine
end

section
/-!
PROOFS. Run commands of an unguarded object that is no ladder: STREAM_START, STREAM_STOP and STREAM_DRAIN (R573 to R575).
-/
namespace Sys2Proof.Machine

section
variable {h : HalfId} {e : CmdEntry} {s : State}

/-- A run command acts on a running object alone: no ladder nor its rung 0, not guarded, and without a time of its own. -/
structure RunsAlone (e : CmdEntry) (x : Half) : Prop where
  zeros : checkReserved e [] = none
  running : checkRunning x e.handle = none
  noLadder : hType e.handle ≠ 6
  noRung : isRungZero x e.handle = false
  unguarded : runGuarded x e.handle = false
  untimed : isAtTime e = false

/-- The outcome on one object is the command's (R575). -/
theorem runOutcomes_alone (x : Half) (action : Nat) (obj : Handle) : runOutcomes x action [obj] = runOutcome x action obj := by
  simp only [runOutcomes, List.map_cons, List.map_nil, List.contains_cons, List.contains_nil, Bool.or_false, beq_iff_eq, List.headD_cons]
  split
  · assumption
  · rfl

/-- A stop or drain applies to a running object (R575). -/
theorem runOutcome_ends {x : Half} {obj : Handle} {action : Nat} (ha : action = 1 ∨ action = 2) (hr : runState x obj = .running) :
    runOutcome x action obj = 0 := by
  rcases ha with rfl | rfl <;> simp only [runOutcome, hr]

/-- With no start waiting, a stop or drain cancels none (R77). -/
theorem cancelStarts_none (hw : (s.half h).env.waitingStarts = []) (obj : Handle) : cancelStarts h obj s = s := by
  have hsame : updEnv (fun v => { v with waitingStarts := v.waitingStarts.filter (fun d => !runsMeet (s.half h) d.entry.handle obj) }) (s.half h) =
      s.half h := by
    simp only [updEnv, hw, List.filter_nil]
    rw [← hw]
  simp only [cancelStarts, hw, List.filter_nil, List.foldl_nil]
  exact upd_unchanged hsame

/-- With no command deferred, a stop ends no drain. -/
theorem endDrains_none (hd : (s.half h).env.deferred = []) (obj : Handle) : endDrains h obj s = s := by
  have hsame : updEnv (fun v => { v with deferred := v.deferred.filter (fun d => !(d.opcode == 0x0403 && d.entry.handle == obj)) }) (s.half h) =
      s.half h := by
    simp only [updEnv, hd, List.filter_nil]
    rw [← hd]
  simp only [endDrains, hd, List.filter_nil, List.foldl_nil]
  exact upd_unchanged hsame

/-- A stopped object starts at its first boundary at or after 1 ms from now (R574). -/
theorem runBody_starts (hq : RunsAlone e (s.half h)) (hr : runState (s.half h) e.handle = .stopped) :
    runBody h 0x0401 0 e s = .ok (le 8 (boundaryFrom (s.half h) e.handle ((s.half h).clk.now + 1000000)) ++ le 1 0)
      (startObject h ((s.half h).clk.now + 1000000) e.handle s) := by
  obtain ⟨hz, hrun, hl, -, hg, ha⟩ := hq
  have hdrain : (RunState.stopped == RunState.draining) = false := rfl
  unfold runBody
  dsimp only
  rw [runTargets_single hl, guarded_passes (by simp [hz, hrun, hg, runOutcomes_start hr, hr, hdrain, checkTime_untimed _ ha])]
  simp [hg, ha, hr, hdrain, runOutcomes_start hr, boundaryAll, runDo_start _ hr, runResult]

/-- A running object stops at once (R574). -/
theorem runBody_stops (hq : RunsAlone e (s.half h)) (hr : runState (s.half h) e.handle = .running)
    (hw : (s.half h).env.waitingStarts = []) (hd : (s.half h).env.deferred = []) :
    runBody h 0x0402 1 e s = .ok (le 8 (stopBoundary (s.half h) e.handle) ++ le 1 0) (stopObject h e.handle s) := by
  obtain ⟨hz, hrun, hl, h0, hg, ha⟩ := hq
  have hout : runOutcome (s.half h) 1 e.handle = 0 := runOutcome_ends (.inl rfl) hr
  unfold runBody
  dsimp only
  rw [runTargets_single hl, guarded_passes (by simp [hz, hrun, h0, hg, hr, checkTime_untimed _ ha]), cancelStarts_none hw]
  simp [hg, ha, runOutcomes_alone, hout, runDo, runResult, endDrains_none hd]

/-- A running object begins to drain to its next boundary, at which the command completes (R574, R575). -/
theorem runBody_drains {t : Nat} (hq : RunsAlone e (s.half h)) (hr : runState (s.half h) e.handle = .running)
    (hw : (s.half h).env.waitingStarts = []) (ht : t = boundaryFrom (s.half h) e.handle ((s.half h).clk.now + 1)) :
    runBody h 0x0403 2 e s = .later (le 8 t ++ le 1 0) (addDeferred h 0x0403 e t (s.upd h (drainObject t e.handle))) := by
  subst ht
  obtain ⟨hz, hrun, hl, h0, hg, ha⟩ := hq
  have hout : runOutcome (s.half h) 2 e.handle = 0 := runOutcome_ends (.inr rfl) hr
  unfold runBody
  dsimp only
  rw [runTargets_single hl, guarded_passes (by simp [hz, hrun, h0, hg, hr, checkTime_untimed _ ha]), cancelStarts_none hw]
  simp [hg, ha, hr, runOutcomes_alone, hout, boundaryAll, runDo, runResult]

end

/-- Settles O6: a taken command runs `runBody`, and the object's run state chooses the lemma above. -/
theorem runCommands : Obligations.RunCommands := by
  rintro h e s _ _ rfl rfl hz hrun hl h0 hg ha
  have hq : RunsAlone e ((takeEntry h s).half h) := ⟨hz, hrun, hl, h0, hg, ha⟩
  refine ⟨fun ht hr => ?start, fun ht hr hw hd => ?stop, ?drain⟩
  case start => exact next_congr ((runCmd_taken ht _).trans (congrArg (finish h 0x0401 e) (runBody_starts hq hr)))
  case stop => exact next_congr ((runCmd_taken ht _).trans (congrArg (finish h 0x0402 e) (runBody_stops hq hr hw hd)))
  case drain =>
    rintro ht hr hw t _ htime rfl
    refine next_congr ((runCmd_taken ht _).trans ((congrArg (finish h 0x0403 e) (runBody_drains hq hr hw htime)).trans ?_))
    rw [finish_later, addDeferred, upd_upd]

end Sys2Proof.Machine
end
